-- ==== Sys2Proof/Word.lean ====
section
/-!
DEFINITION. The word types of the F128: control-register words, bytes, 48-bit addresses (R3, 00_scope).
-/
namespace Sys2Proof

/-- A control-register word (R3: registers are 32 bits wide, little-endian, aligned to 4 bytes). -/
abbrev Word := BitVec 32

/-- One byte of a memory. -/
abbrev Byte := BitVec 8

/-- An address of the 48-bit address space (R462). -/
abbrev Addr := BitVec 48

/-- A 128-bit vector register of a Mark Engine (chapter "Mark Engines", table of register files). -/
abbrev Vec := BitVec 128

/-- How far `a` lies above `base`, 0 below it. Through Int, so that a large `base` stays a number. -/
def ofs (base a : Nat) : Nat := ((a : Int) - (base : Int)).toNat

/-- Who makes an access to the control region. R464: the host, each engine and each Seam port
hold their own copy of the per-requester registers. -/
inductive Req where
  | host
  | engine (n : Nat)
  | seam (k : Nat)
  deriving DecidableEq, Repr

end Sys2Proof
end

