-- ==== Sys2Proof/Syntax.lean ====
section
/-!
DEFINITION. The commands of the F128 block: one constructor per row of spec/opcode_table.json, with the
row's operands. A command is what reaches the block from outside (a write or read of a register, an event
on a pin, a message) or a happening of the block's own engines and sequencers.
-/
namespace Sys2Proof

/-- A 256-byte Seam flit as it arrives or leaves (R375, R376). -/
structure Flit where
  /-- Its CRC is correct. -/
  crcOk   : Bool
  /-- Its CRC is the bitwise inverse of the correct one (R379). -/
  stomped : Bool
  /-- 0 IDLE, 1 LINKCTL, 2 DATA, 3 TSYNC. -/
  kind    : Nat
  cls     : Nat
  ans     : Bool
  mcast   : Bool
  hops    : Nat
  /-- Every reserved bit is 0. -/
  clean   : Bool
  dst     : Nat
  src     : Nat
  tid     : Nat
  len     : Nat
  status  : Nat
  seq     : Nat
  ack     : Nat
  nak     : Bool
  reason  : Nat
  credit  : Nat
  /-- Payload bytes in use; the rest of the 240 are 0. -/
  payload : List Byte
  deriving DecidableEq, Repr

/-- The unit or entry that a command reads for, and whether a word it reads fails its check for the first time in
this read (R275, R284). -/
structure Probe where
  num : Nat
  ue  : Bool
  deriving DecidableEq, Repr

/-- The unit or port that a command reads for, and the addresses of the words that fail their check for the first time
in this read (R275, R284). -/
structure Sweep where
  num   : Nat
  fresh : List Nat
  deriving DecidableEq, Repr


/-- The commands, in the order of the table. -/
inductive Instr where
  /-- REGISTER_WRITE, R465. -/
  | registerWrite (req : Req) (a : Nat) (v : Word)
  /-- CRYSTAL_LOSS, R19. -/
  | crystalLoss (x : Bool)
  /-- CRYSTAL_VALID, R487. -/
  | crystalValid (x : Bool)
  /-- SWITCHOVER, R20. -/
  | switchover (d : Int)
  /-- SELECT_WRITE, R23. -/
  | selectWrite (v : Word)
  /-- HOLDOVER_EXPIRED, R24. -/
  | holdoverExpired
  /-- PLL_RELOCK, R24. -/
  | pllRelock
  /-- CLOCK_RELEASE, R24. -/
  | clockRelease (v : Word)
  /-- LINETIME_READ, R27. -/
  | linetimeRead (req : Req)
  /-- RATE_CORRECTION, R30. -/
  | rateCorrection
  /-- SLEW_ADJUST, R31. -/
  | slewAdjust (req : Req) (v : Word)
  /-- SLEW_TICK, R31. -/
  | slewTick
  /-- LINETIME_LOAD, R33. -/
  | linetimeLoad
  /-- LINE_IO_EDGE, R35. -/
  | lineIoEdge (pin : Nat) (mv : Option Int) (frac : Nat)
  /-- SLOT_SATISFIED, R44. -/
  | slotSatisfied (n : Nat) (k : Nat)
  /-- CUE_EFFECT, R34. -/
  | cueEffect (n : Nat)
  /-- HOST_ARM_GO, R43. -/
  | hostArmGo (n : Nat) (v : Word)
  /-- DISARM, R47. -/
  | disarm (n : Nat) (v : Word)
  /-- TARGET_CONFIG_WRITE, R49. -/
  | targetConfigWrite (n : Nat) (ctl : Bool) (v : Word)
  /-- CAPTURE_POP, R51. -/
  | capturePop (u : Nat) (v : Word)
  /-- MERGE_COUNT_READ, R48. -/
  | mergeCountRead (req : Req) (n : Nat)
  /-- FABRIC_TAP_EFFECT, R52. -/
  | fabricTapEffect (i : Nat)
  /-- ENCODER_COUNT, R54. -/
  | encoderCount (e : Nat)
  /-- ENCODER_STOPPED, R55. -/
  | encoderStopped (e : Nat)
  /-- ENCODER_INDEX, R62. -/
  | encoderIndex (e : Nat)
  /-- ENCODER_MATCH, R59. -/
  | encoderMatch (e : Nat) (m : Nat)
  /-- ENCODER_LOAD, R60. -/
  | encoderLoad (e : Nat)
  /-- ENCODER_CTL_WRITE, R61. -/
  | encoderCtlWrite (e : Nat) (v : Word)
  /-- ENCODER_PINS_WRITE, R61. -/
  | encoderPinsWrite (e : Nat) (v : Word)
  /-- ENCODER_POSITION_READ, R27. -/
  | encoderPositionRead (req : Req) (e : Nat)
  /-- ILLEGAL_COUNT_READ, R56. -/
  | illegalCountRead (req : Req) (e : Nat)
  /-- PG_SOFTWARE_START, R66. -/
  | pgSoftwareStart (n : Nat) (v : Word)
  /-- PG_CYCLE_START, R70. -/
  | pgCycleStart (n : Nat)
  /-- PG_RUN_END, R68. -/
  | pgRunEnd (n : Nat)
  /-- PG_STOP, R74. -/
  | pgStop (n : Nat) (v : Word)
  /-- PG_ABORT, R74. -/
  | pgAbort (n : Nat) (v : Word)
  /-- PG_REARM, R77. -/
  | pgRearm (n : Nat) (v : Word)
  /-- PG_CTL_WRITE, R70. -/
  | pgCtlWrite (n : Nat) (v : Word)
  /-- PG_SHADOW_WRITE, R70. -/
  | pgShadowWrite (n : Nat) (width : Bool) (v : Word)
  /-- PG_SEQSEL_WRITE, R72. -/
  | pgSeqselWrite (n : Nat) (v : Word)
  /-- PG_SEQ_WRITE, R72. -/
  | pgSeqWrite (n : Nat) (b : Nat) (i : Nat) (v : Word)
  /-- COMPARATOR_DECISION, R98. -/
  | comparatorDecision (t : Nat) (k : Nat) (uv : Int)
  /-- TRIP_RELEASE, R76. -/
  | tripRelease (n : Nat)
  /-- SELECTOR_WRITE, R86. -/
  | selectorWrite (t : Nat) (v : Word)
  /-- SWITCH_CLOSE, R87. -/
  | switchClose (t : Nat)
  /-- BUS_DRIVE_WRITE, R88. -/
  | busDriveWrite (t : Nat) (v : Word)
  /-- BIQUAD_WRITE, R90. -/
  | biquadWrite (t : Nat) (v : Word)
  /-- MODULATOR_OVERLOAD, R94. -/
  | modulatorOverload (t : Nat) (m : Nat) (codes : List Int)
  /-- MODULATOR_RESUME, R94. -/
  | modulatorResume (t : Nat) (m : Nat)
  /-- BIAS_READY, R103. -/
  | biasReady (t : Nat)
  /-- COMPARATOR_CTL_WRITE, R99. -/
  | comparatorCtlWrite (t : Nat) (k : Nat) (v : Word)
  /-- COMPARATOR_THRESHOLD_WRITE, R100. -/
  | comparatorThresholdWrite (t : Nat) (k : Nat) (v : Word)
  /-- THRESHOLD_SETTLED, R100. -/
  | thresholdSettled (t : Nat) (k : Nat)
  /-- WINDOW_WRITE, R101. -/
  | windowWrite (t : Nat) (j : Nat) (v : Word)
  /-- RISE_COUNT_READ, R102. -/
  | riseCountRead (req : Req) (t : Nat) (k : Nat)
  /-- PROGRAM_END, R111. -/
  | programEnd (t : Nat)
  /-- DAC_CODE_WRITE, R112. -/
  | dacCodeWrite (t : Nat) (v : Word)
  /-- DAC_SOURCE_WRITE, R112. -/
  | dacSourceWrite (t : Nat) (v : Word)
  /-- RANGE_HOLD_END, R127. -/
  | rangeHoldEnd (t : Nat)
  /-- PALETTE_WRITE, R118. -/
  | paletteWrite (t : Nat) (b : Nat) (i : Nat) (v : Word)
  /-- SWAP_REQUEST, R119. -/
  | swapRequest (t : Nat) (v : Word)
  /-- CROSS_FADE_END, R120. -/
  | crossFadeEnd (t : Nat)
  /-- PANEL_CLEAR, R125. -/
  | panelClear (p : Nat) (low : Bool)
  /-- CLEAR_RELEASE, R126. -/
  | clearRelease (p : Nat)
  /-- CURRENT_LIMIT_SHORT, R128. -/
  | currentLimitShort (t : Nat) (limited : Bool)
  /-- SUPERVISION_FAULT, R129. -/
  | supervisionFault (t : Nat) (code : Int)
  /-- STANDBY_DRIVE, R134. -/
  | standbyDrive (t : Nat)
  /-- HANDOVER, R135. -/
  | handover (t : Nat) (v : Word)
  /-- ANALOGUE_SUPPLY_VALID, R124. -/
  | analogueSupplyValid
  /-- PEAK_DIFF_READ, R129. -/
  | peakDiffRead (req : Req) (t : Nat)
  /-- DCE_OUTPUT, R142. -/
  | dceOutput (p : Nat) (c : Nat)
  /-- CHANNEL_CTL_WRITE, R146. -/
  | channelCtlWrite (p : Nat) (c : Nat) (v : Word)
  /-- CHANNEL_RESTART, R146. -/
  | channelRestart (p : Nat) (c : Nat)
  /-- DCE_THRESHOLD_WRITE, R148. -/
  | dceThresholdWrite (p : Nat) (c : Nat) (i : Nat) (v : Word)
  /-- RDIDX_WRITE, R151. -/
  | rdidxWrite (p : Nat) (c : Nat) (v : Word)
  /-- WINDOW_CLOSE, R154. -/
  | windowClose (p : Nat) (c : Nat)
  /-- WINDOW_DONE, R154. -/
  | windowDone (p : Nat) (c : Nat)
  /-- DCE_LAST_STAMP_READ, R143. -/
  | dceLastStampRead (req : Req) (p : Nat) (c : Nat)
  /-- OVERRUN_COUNT_READ, R151. -/
  | overrunCountRead (req : Req) (p : Nat) (c : Nat)
  /-- LATCH_TIMING_EDGE, R162. -/
  | latchTimingEdge (h : Nat)
  /-- SHIFT_START, R164. -/
  | shiftStart (h : Probe)
  /-- SHIFT_END, R164. -/
  | shiftEnd (h : Nat)
  /-- READY_POLL, R165. -/
  | readyPoll (h : Probe)
  /-- BLOCK_FETCH, R165. -/
  | blockFetch (h : Probe)
  /-- PORT_ENABLE_WRITE, R166. -/
  | portEnableWrite (h : Nat) (v : Word)
  /-- PROFILE_WRITE, R159. -/
  | profileWrite (h : Nat) (i : Nat) (v : Word)
  /-- PRIO_PUSH, R169. -/
  | prioPush (h : Nat) (i : Nat) (v : Word)
  /-- SENSE_DEAD_WRITE, R174. -/
  | senseDeadWrite (h : Nat) (i : Nat) (v : Word)
  /-- NOZZLE_MAP_WRITE, R176. -/
  | nozzleMapWrite (h : Nat) (k : Nat) (v : Word)
  /-- UNRETIRE, R176. -/
  | unretire (h : Nat) (v : Word)
  /-- NOZZLE_MAP_WALK, R178. -/
  | nozzleMapWalk (h : Nat)
  /-- CRITICAL_SET_EXPIRY, R185. -/
  | criticalSetExpiry (h : Nat) (tag : Nat)
  /-- AUX_PIN_CHANGE, R182. -/
  | auxPinChange (h : Nat)
  /-- PLANRD_WRITE, R171. -/
  | planrdWrite (h : Nat) (v : Word)
  /-- LEDGER_CTL_WRITE, R179. -/
  | ledgerCtlWrite (v : Word)
  /-- RECORD_CLOSE, R181. -/
  | recordClose (tag : Nat)
  /-- RECORD_FREE, R181. -/
  | recordFree (tag : Nat)
  /-- REJECT_ARM, R189. -/
  | rejectArm (tag : Nat)
  /-- REJECT_ARM_RETRY, R189. -/
  | rejectArmRetry (tag : Nat)
  /-- RAISE_FAIL, R191. -/
  | raiseFail (req : Req)
  /-- RAISE_DOUBT, R191. -/
  | raiseDoubt (req : Req)
  /-- SET_HORIZON, R191. -/
  | setHorizon (req : Req)
  /-- LEDGER_READ, R191. -/
  | ledgerRead (req : Req)
  /-- RINGRD_WRITE, R190. -/
  | ringrdWrite (v : Word)
  /-- ADD, R227. -/
  | add (n : Nat) (rd : Nat) (rs : Nat) (rt : Nat)
  /-- SUB, R227. -/
  | sub (n : Nat) (rd : Nat) (rs : Nat) (rt : Nat)
  /-- AND, R227. -/
  | and (n : Nat) (rd : Nat) (rs : Nat) (rt : Nat)
  /-- OR, R227. -/
  | or (n : Nat) (rd : Nat) (rs : Nat) (rt : Nat)
  /-- XOR, R227. -/
  | xor (n : Nat) (rd : Nat) (rs : Nat) (rt : Nat)
  /-- ANDN, R227. -/
  | andn (n : Nat) (rd : Nat) (rs : Nat) (rt : Nat)
  /-- SHL, R227. -/
  | shl (n : Nat) (rd : Nat) (rs : Nat) (rt : Nat)
  /-- SHR, R227. -/
  | shr (n : Nat) (rd : Nat) (rs : Nat) (rt : Nat)
  /-- SRA, R227. -/
  | sra (n : Nat) (rd : Nat) (rs : Nat) (rt : Nat)
  /-- MIN, R227. -/
  | min (n : Nat) (rd : Nat) (rs : Nat) (rt : Nat)
  /-- MAX, R227. -/
  | max (n : Nat) (rd : Nat) (rs : Nat) (rt : Nat)
  /-- MINU, R227. -/
  | minu (n : Nat) (rd : Nat) (rs : Nat) (rt : Nat)
  /-- MAXU, R227. -/
  | maxu (n : Nat) (rd : Nat) (rs : Nat) (rt : Nat)
  /-- ADDS, R227. -/
  | adds (n : Nat) (rd : Nat) (rs : Nat) (rt : Nat)
  /-- SUBS, R227. -/
  | subs (n : Nat) (rd : Nat) (rs : Nat) (rt : Nat)
  /-- ADDI, R227. -/
  | addi (n : Nat) (rd : Nat) (rs : Nat) (imm : BitVec 14)
  /-- SUBI, R227. -/
  | subi (n : Nat) (rd : Nat) (rs : Nat) (imm : BitVec 14)
  /-- ANDI, R227. -/
  | andi (n : Nat) (rd : Nat) (rs : Nat) (imm : BitVec 14)
  /-- ORI, R227. -/
  | ori (n : Nat) (rd : Nat) (rs : Nat) (imm : BitVec 14)
  /-- XORI, R227. -/
  | xori (n : Nat) (rd : Nat) (rs : Nat) (imm : BitVec 14)
  /-- LUI, R227. -/
  | lui (n : Nat) (rd : Nat) (imm : BitVec 20)
  /-- SHLI, R227. -/
  | shli (n : Nat) (rd : Nat) (rs : Nat) (imm : BitVec 14)
  /-- SHRI, R227. -/
  | shri (n : Nat) (rd : Nat) (rs : Nat) (imm : BitVec 14)
  /-- SRAI, R227. -/
  | srai (n : Nat) (rd : Nat) (rs : Nat) (imm : BitVec 14)
  /-- ADDA, R228. -/
  | adda (n : Nat) (ad : Nat) (ra : Nat) (imm : BitVec 14)
  /-- ADDA_R, R228. -/
  | addaR (n : Nat) (ad : Nat) (ra : Nat) (rt : Nat)
  /-- LA_LO, R228. -/
  | laLo (n : Nat) (ad : Nat) (rs : Nat)
  /-- LA_HI, R228. -/
  | laHi (n : Nat) (ad : Nat) (rs : Nat)
  /-- MGA_LO, R228. -/
  | mgaLo (n : Nat) (rd : Nat) (ra : Nat)
  /-- MGA_HI, R228. -/
  | mgaHi (n : Nat) (rd : Nat) (ra : Nat)
  /-- MUL, R229. -/
  | mul (n : Nat) (rd : Nat) (rs : Nat) (rt : Nat)
  /-- MULHS, R229. -/
  | mulhs (n : Nat) (rd : Nat) (rs : Nat) (rt : Nat)
  /-- MULHU, R229. -/
  | mulhu (n : Nat) (rd : Nat) (rs : Nat) (rt : Nat)
  /-- MAC, R229. -/
  | mac (n : Nat) (rd : Nat) (rs : Nat) (rt : Nat)
  /-- MSU, R229. -/
  | msu (n : Nat) (rd : Nat) (rs : Nat) (rt : Nat)
  /-- GFMUL, R230. -/
  | gfmul (n : Nat) (sel : BitVec 2) (rd : Nat) (rs : Nat) (rt : Nat)
  /-- GFMAC, R230. -/
  | gfmac (n : Nat) (sel : BitVec 2) (rd : Nat) (rs : Nat) (rt : Nat)
  /-- POPC, R231. -/
  | popc (n : Nat) (rd : Nat) (rs : Nat)
  /-- CLZ, R231. -/
  | clz (n : Nat) (rd : Nat) (rs : Nat)
  /-- CTZ, R231. -/
  | ctz (n : Nat) (rd : Nat) (rs : Nat)
  /-- BREV, R231. -/
  | brev (n : Nat) (rd : Nat) (rs : Nat)
  /-- BSWAP, R231. -/
  | bswap (n : Nat) (rd : Nat) (rs : Nat)
  /-- BFXU, R231. -/
  | bfxu (n : Nat) (rd : Nat) (rs : Nat) (pos : Nat) (len : Nat)
  /-- BFXS, R231. -/
  | bfxs (n : Nat) (rd : Nat) (rs : Nat) (pos : Nat) (len : Nat)
  /-- BFI, R231. -/
  | bfi (n : Nat) (rd : Nat) (rs : Nat) (pos : Nat) (len : Nat)
  /-- CMPEQ, R232. -/
  | cmpeq (n : Nat) (pd : Nat) (rs : Nat) (rt : Nat)
  /-- CMPNE, R232. -/
  | cmpne (n : Nat) (pd : Nat) (rs : Nat) (rt : Nat)
  /-- CMPLT, R232. -/
  | cmplt (n : Nat) (pd : Nat) (rs : Nat) (rt : Nat)
  /-- CMPLTU, R232. -/
  | cmpltu (n : Nat) (pd : Nat) (rs : Nat) (rt : Nat)
  /-- CMPGE, R232. -/
  | cmpge (n : Nat) (pd : Nat) (rs : Nat) (rt : Nat)
  /-- CMPGEU, R232. -/
  | cmpgeu (n : Nat) (pd : Nat) (rs : Nat) (rt : Nat)
  /-- CMPI, R232. -/
  | cmpi (n : Nat) (cc : BitVec 3) (pd : Nat) (rs : Nat) (imm : BitVec 14)
  /-- PAND, R232. -/
  | pand (n : Nat) (pd : Nat) (ps : Nat) (pt : Nat)
  /-- POR, R232. -/
  | por (n : Nat) (pd : Nat) (ps : Nat) (pt : Nat)
  /-- PXOR, R232. -/
  | pxor (n : Nat) (pd : Nat) (ps : Nat) (pt : Nat)
  /-- PANDN, R232. -/
  | pandn (n : Nat) (pd : Nat) (ps : Nat) (pt : Nat)
  /-- SEL, R232. -/
  | sel (n : Nat) (rd : Nat) (rs : Nat) (rt : Nat) (p : Nat)
  /-- LD_B, R233. -/
  | ldB (n : Nat) (rd : Nat) (ra : Nat) (off : BitVec 14)
  /-- LD_H, R233. -/
  | ldH (n : Nat) (rd : Nat) (ra : Nat) (off : BitVec 14)
  /-- LD_W, R233. -/
  | ldW (n : Nat) (rd : Nat) (ra : Nat) (off : BitVec 14)
  /-- LD_V, R233. -/
  | ldV (n : Nat) (vd : Nat) (ra : Nat) (off : BitVec 14)
  /-- LD_BU, R233. -/
  | ldBu (n : Nat) (rd : Nat) (ra : Nat) (off : BitVec 14)
  /-- LD_HU, R233. -/
  | ldHu (n : Nat) (rd : Nat) (ra : Nat) (off : BitVec 14)
  /-- ST_B, R233. -/
  | stB (n : Nat) (rd : Nat) (ra : Nat) (off : BitVec 14)
  /-- ST_H, R233. -/
  | stH (n : Nat) (rd : Nat) (ra : Nat) (off : BitVec 14)
  /-- ST_W, R233. -/
  | stW (n : Nat) (rd : Nat) (ra : Nat) (off : BitVec 14)
  /-- ST_V, R233. -/
  | stV (n : Nat) (vd : Nat) (ra : Nat) (off : BitVec 14)
  /-- DMA, R234. -/
  | dma (n : Nat) (rd : Nat) (ra : Nat) (off : BitVec 14)
  /-- VADD, R235. -/
  | vadd (n : Nat) (es : BitVec 2) (vd : Nat) (vs : Nat) (vt : Nat)
  /-- VSUB, R235. -/
  | vsub (n : Nat) (es : BitVec 2) (vd : Nat) (vs : Nat) (vt : Nat)
  /-- VADDS, R235. -/
  | vadds (n : Nat) (es : BitVec 2) (vd : Nat) (vs : Nat) (vt : Nat)
  /-- VADDSU, R235. -/
  | vaddsu (n : Nat) (es : BitVec 2) (vd : Nat) (vs : Nat) (vt : Nat)
  /-- VSUBS, R235. -/
  | vsubs (n : Nat) (es : BitVec 2) (vd : Nat) (vs : Nat) (vt : Nat)
  /-- VSUBSU, R235. -/
  | vsubsu (n : Nat) (es : BitVec 2) (vd : Nat) (vs : Nat) (vt : Nat)
  /-- VMUL, R235. -/
  | vmul (n : Nat) (es : BitVec 2) (vd : Nat) (vs : Nat) (vt : Nat)
  /-- VMULHS, R235. -/
  | vmulhs (n : Nat) (es : BitVec 2) (vd : Nat) (vs : Nat) (vt : Nat)
  /-- VMIN, R235. -/
  | vmin (n : Nat) (es : BitVec 2) (vd : Nat) (vs : Nat) (vt : Nat)
  /-- VMINU, R235. -/
  | vminu (n : Nat) (es : BitVec 2) (vd : Nat) (vs : Nat) (vt : Nat)
  /-- VMAX, R235. -/
  | vmax (n : Nat) (es : BitVec 2) (vd : Nat) (vs : Nat) (vt : Nat)
  /-- VMAXU, R235. -/
  | vmaxu (n : Nat) (es : BitVec 2) (vd : Nat) (vs : Nat) (vt : Nat)
  /-- VAVGU, R235. -/
  | vavgu (n : Nat) (es : BitVec 2) (vd : Nat) (vs : Nat) (vt : Nat)
  /-- VAND, R235. -/
  | vand (n : Nat) (es : BitVec 2) (vd : Nat) (vs : Nat) (vt : Nat)
  /-- VOR, R235. -/
  | vor (n : Nat) (es : BitVec 2) (vd : Nat) (vs : Nat) (vt : Nat)
  /-- VXOR, R235. -/
  | vxor (n : Nat) (es : BitVec 2) (vd : Nat) (vs : Nat) (vt : Nat)
  /-- VANDN, R235. -/
  | vandn (n : Nat) (es : BitVec 2) (vd : Nat) (vs : Nat) (vt : Nat)
  /-- VCMPEQ, R235. -/
  | vcmpeq (n : Nat) (es : BitVec 2) (vd : Nat) (vs : Nat) (vt : Nat)
  /-- VCMPGT, R235. -/
  | vcmpgt (n : Nat) (es : BitVec 2) (vd : Nat) (vs : Nat) (vt : Nat)
  /-- VCMPGTU, R235. -/
  | vcmpgtu (n : Nat) (es : BitVec 2) (vd : Nat) (vs : Nat) (vt : Nat)
  /-- VSHL, R235. -/
  | vshl (n : Nat) (es : BitVec 2) (vd : Nat) (vs : Nat) (gt : Nat)
  /-- VSHR, R235. -/
  | vshr (n : Nat) (es : BitVec 2) (vd : Nat) (vs : Nat) (gt : Nat)
  /-- VSRA, R235. -/
  | vsra (n : Nat) (es : BitVec 2) (vd : Nat) (vs : Nat) (gt : Nat)
  /-- VPERM, R236. -/
  | vperm (n : Nat) (es : BitVec 2) (vd : Nat) (vs : Nat) (vt : Nat)
  /-- VBTR8, R236. -/
  | vbtr8 (n : Nat) (es : BitVec 2) (vd : Nat) (vs : Nat)
  /-- VEXT, R236. -/
  | vext (n : Nat) (es : BitVec 2) (gd : Nat) (vs : Nat) (ln : Nat)
  /-- VINS, R236. -/
  | vins (n : Nat) (es : BitVec 2) (vd : Nat) (gs : Nat) (ln : Nat)
  /-- VSPLAT, R236. -/
  | vsplat (n : Nat) (es : BitVec 2) (vd : Nat) (gs : Nat)
  /-- VSLB, R236. -/
  | vslb (n : Nat) (es : BitVec 2) (vd : Nat) (vs : Nat) (k : Nat)
  /-- VSRB, R236. -/
  | vsrb (n : Nat) (es : BitVec 2) (vd : Nat) (vs : Nat) (k : Nat)
  /-- VSEL, R236. -/
  | vsel (n : Nat) (es : BitVec 2) (vd : Nat) (vs : Nat) (vt : Nat)
  /-- VHSUM, R236. -/
  | vhsum (n : Nat) (es : BitVec 2) (gd : Nat) (vs : Nat)
  /-- VHT1, R237. -/
  | vht1 (n : Nat) (es : BitVec 2) (gd : Nat) (vs : Nat) (vt : Nat)
  /-- VHT2, R237. -/
  | vht2 (n : Nat) (es : BitVec 2) (gd : Nat) (vs : Nat) (vt : Nat)
  /-- VGFMUL, R238. -/
  | vgfmul (n : Nat) (es : BitVec 2) (sel : BitVec 2) (vd : Nat) (vs : Nat) (vt : Nat)
  /-- VGFMAC, R238. -/
  | vgfmac (n : Nat) (es : BitVec 2) (sel : BitVec 2) (vd : Nat) (vs : Nat) (vt : Nat)
  /-- VGFMACS, R238. -/
  | vgfmacs (n : Nat) (es : BitVec 2) (sel : BitVec 2) (vd : Nat) (vs : Nat) (gt : Nat)
  /-- BR, R239. -/
  | br (n : Nat) (pr : Nat) (off : BitVec 20)
  /-- BRF, R239. -/
  | brf (n : Nat) (pr : Nat) (off : BitVec 20)
  /-- BRA, R239. -/
  | bra (n : Nat) (off : BitVec 20)
  /-- CALL, R239. -/
  | call (n : Nat) (off : BitVec 20)
  /-- JR, R239. -/
  | jr (n : Nat) (ra : Nat)
  /-- JALR, R239. -/
  | jalr (n : Nat) (ad : Nat) (ra : Nat)
  /-- QGET, R240. -/
  | qget (n : Nat) (rd : Nat) (rs : Nat) (nowait : Bool)
  /-- QPUT, R241. -/
  | qput (n : Nat) (rd : Nat) (ra : Nat)
  /-- QSTEAL, R242. -/
  | qsteal (n : Nat) (rs : Nat)
  /-- QDONE, R243. -/
  | qdone (n : Nat) (rd : Nat)
  /-- QFAIL, R243. -/
  | qfail (n : Nat) (rd : Nat) (rs : Nat)
  /-- CARM_T, R244. -/
  | carmT (n : Nat) (rd : Nat) (vs : Nat)
  /-- CARM_P, R244. -/
  | carmP (n : Nat) (rd : Nat) (vs : Nat)
  /-- CDISARM, R246. -/
  | cdisarm (n : Nat) (rd : Nat) (rs : Nat)
  /-- TWAIT, R210. -/
  | twait (n : Nat) (rs : Nat)
  /-- DLSET, R214. -/
  | dlset (n : Nat) (rs : Nat)
  /-- EWAIT, R248. -/
  | ewait (n : Nat) (rd : Nat) (rs : Nat)
  /-- RAISE, R211. -/
  | raise (n : Nat) (rs : Nat)
  /-- MFSR, R197. -/
  | mfsr (n : Nat) (rd : Nat) (sr : Nat)
  /-- MTSR, R197. -/
  | mtsr (n : Nat) (rs : Nat) (sr : Nat)
  /-- FENCE_L, R208. -/
  | fenceL (n : Nat)
  /-- FENCE_S, R208. -/
  | fenceS (n : Nat)
  /-- FENCE_I, R208. -/
  | fenceI (n : Nat)
  /-- IINV, R222. -/
  | iinv (n : Nat)
  /-- PARK, R219. -/
  | park (n : Nat)
  /-- ERET, R205. -/
  | eret (n : Nat)
  /-- TRAP, R205. -/
  | trap (n : Nat) (code : Byte)
  /-- BRK, R223. -/
  | brk (n : Nat)
  /-- DMAWAIT, R249. -/
  | dmawait (n : Nat) (rd : Nat) (rs : Nat)
  /-- EXCEPTION_ENTRY, R206. -/
  | exceptionEntry (n : Nat)
  /-- LOAD_RETURN, R201. -/
  | loadReturn (n : Nat) (k : Nat) (ue : Bool)
  /-- STORE_ACKNOWLEDGE, R208. -/
  | storeAcknowledge (n : Nat) (k : Probe)
  /-- ICACHE_REFILL, R222. -/
  | icacheRefill (n : Nat) (line : Nat) (way : Probe)
  /-- ANSWER_RETURN, R247. -/
  | answerReturn (n : Nat)
  /-- TWAIT_SATISFIED, R210. -/
  | twaitSatisfied (n : Nat)
  /-- EWAIT_SATISFIED, R210. -/
  | ewaitSatisfied (n : Nat)
  /-- QGET_TIMEOUT, R240. -/
  | qgetTimeout (n : Nat)
  /-- DMA_COMPLETE, R216. -/
  | dmaComplete (n : Sweep)
  /-- DMAWAIT_RETURN, R249. -/
  | dmawaitReturn (n : Nat)
  /-- ENGINE_CUE_TIMER, R212. -/
  | engineCueTimer (n : Nat)
  /-- DEADLINE_WATCH_FIRE, R213. -/
  | deadlineWatchFire (n : Nat)
  /-- WATCHDOG_EXPIRY, R221. -/
  | watchdogExpiry (n : Nat)
  /-- ENGINE_FAULT, R220. -/
  | engineFault (n : Nat)
  /-- ENGINE_START, R218. -/
  | engineStart (n : Nat) (v : Word)
  /-- ENGINE_RESET, R219. -/
  | engineReset (n : Nat) (v : Word)
  /-- FORCE_FAULT, R220. -/
  | forceFault (n : Nat) (v : Word)
  /-- UNLOCK, R222. -/
  | unlock (n : Nat) (v : Word)
  /-- HALT, R223. -/
  | halt (n : Nat) (v : Word)
  /-- STEP, R223. -/
  | step (n : Nat) (v : Word)
  /-- RESUME, R223. -/
  | resume (n : Nat) (v : Word)
  /-- BREAKPOINT_HIT, R223. -/
  | breakpointHit (n : Nat) (i : Nat)
  /-- PERF_COUNT_READ, R201. -/
  | perfCountRead (req : Req) (n : Nat) (stall : Bool)
  /-- JOB_DELIVERY, R260. -/
  | jobDelivery (c : Probe)
  /-- HOST_POST_GO, R256. -/
  | hostPostGo (req : Req) (q : Nat) (v : Word)
  /-- MISS_DETECTION, R264. -/
  | missDetection (q : Nat) (idx : Nat)
  /-- FALLBACK_POST, R266. -/
  | fallbackPost (q : Nat)
  /-- JOB_RETURN, R268. -/
  | jobReturn (n : Nat)
  /-- HEAD_ADVANCE, R251. -/
  | headAdvance (q : Nat)
  /-- CLASS_AGING, R263. -/
  | classAging (q : Nat)
  /-- URGENCY_ONSET, R263. -/
  | urgencyOnset (q : Nat)
  /-- QUEUE_CTL_WRITE, R252. -/
  | queueCtlWrite (q : Nat) (v : Word)
  /-- QUEUE_COUNT_READ, R267. -/
  | queueCountRead (req : Req) (q : Nat) (i : Nat)
  /-- HEADDL_READ, R27. -/
  | headdlRead (req : Req) (q : Nat)
  /-- CORRECTED_WRITEBACK, R283. -/
  | correctedWriteback (a : Nat) (again : Bool)
  /-- TEST_WINDOW_START, R285. -/
  | testWindowStart (m : Nat)
  /-- TEST_WINDOW_ABANDON, R286. -/
  | testWindowAbandon (m : Nat)
  /-- ROW_RESTORE, R286. -/
  | rowRestore (m : Nat)
  /-- TEST_WINDOW_END, R285. -/
  | testWindowEnd (m : Sweep) (pass : Bool)
  /-- BANK_SPARE_COMPLETE, R288. -/
  | bankSpareComplete (c : Nat)
  /-- RETAIN, R290. -/
  | retain (c : Nat) (v : Word)
  /-- RETAIN_COMPLETE, R290. -/
  | retainComplete (c : Nat)
  /-- WAKE, R291. -/
  | wake (c : Nat) (v : Word)
  /-- WAKE_COMPLETE, R291. -/
  | wakeComplete (c : Nat)
  /-- CE_COUNT_READ, R283. -/
  | ceCountRead (req : Req) (c : Nat)
  /-- LPDDR_READ, R298. -/
  | lpddrRead (a : Nat) (cls : Nat) (who : Nat) (super : Bool) (err : Nat) (again : Bool)
  /-- LPDDR_WRITE, R298. -/
  | lpddrWrite (a : Nat) (cls : Nat) (who : Nat) (super : Bool) (data : List Byte) (err : Nat)
  /-- CHANNEL_FAILED, R300. -/
  | channelFailed (k : Nat)
  /-- SCRUB_READ, R301. -/
  | scrubRead (err : Nat) (again : Bool)
  /-- MEMC_CFG_WRITE, R305. -/
  | memcCfgWrite (v : Word)
  /-- MEMC_COUNT_READ, R303. -/
  | memcCountRead (req : Req) (k : Nat)
  /-- BAR0_WRITE, R308. -/
  | bar0Write (a : Nat) (be : List Nat) (ws : List Word) (ep : Bool)
  /-- BAR0_READ, R308. -/
  | bar0Read (a : Nat) (n : Nat) (narrow : Bool)
  /-- UNSUPPORTED_REQUEST, R312. -/
  | unsupportedRequest (malformed : Bool)
  /-- DATA_PORT_WRITE, R313. -/
  | dataPortWrite (n : Nat) (o : Nat) (be : List Nat) (ws : List Word) (ep : Bool)
  /-- BURST_IDLE_TIMEOUT, R315. -/
  | burstIdleTimeout (n : Nat)
  /-- FLUSH, R315. -/
  | flush (n : Nat) (v : Word)
  /-- DATA_PORT_READ, R316. -/
  | dataPortRead (n : Sweep) (o : Nat) (len : Nat)
  /-- DATA_PORT_SEAM_TIMEOUT, R312. -/
  | dataPortSeamTimeout (n : Nat) (a : Nat)
  /-- MSIX_SEND, R310. -/
  | msixSend (k : Nat)
  /-- FUNCTION_RESET, R311. -/
  | functionReset
  /-- RETRAIN, R309. -/
  | retrain (v : Word)
  /-- LINK_UP, R309. -/
  | linkUp (speed : Nat) (width : Nat)
  /-- LINK_DOWN, R309. -/
  | linkDown
  /-- SPEED_CHANGE, R309. -/
  | speedChange (speed : Nat)
  /-- VIOLATION_COUNT_READ, R312. -/
  | violationCountRead (req : Req)
  /-- BOOT_READ, R320. -/
  | bootRead (v : Word)
  /-- BOOT_PROGRAM, R320. -/
  | bootProgram (v : Word)
  /-- BOOT_ERASE, R320. -/
  | bootErase (v : Word)
  /-- BOOT_DONE, R320. -/
  | bootDone (remote : List Byte) (fail : Bool)
  /-- FLASH_BUSY_TIMEOUT, R321. -/
  | flashBusyTimeout (done : Nat)
  /-- FABRIC_PORT_REQUEST, R326. -/
  | fabricPortRequest (sl : Nat) (k : Nat) (write : Bool) (a : Nat) (data : List Byte)
  /-- CUFF_WRITE, R328. -/
  | cuffWrite (sl : Nat) (w : Nat) (v : Word)
  /-- OWNER_CHANGE, R423. -/
  | ownerChange (pin : Nat)
  /-- LOAD_GO, R340. -/
  | loadGo (v : Word)
  /-- LOAD_CHECK_DONE, R340. -/
  | loadCheckDone
  /-- LOAD_ABORT, R342. -/
  | loadAbort (v : Word)
  /-- APPLY_START, R343. -/
  | applyStart
  /-- SLEEVE_RELEASE, R344. -/
  | sleeveRelease
  /-- CONFIG_WRITE_DATA, R347. -/
  | configWriteData (data : List Byte)
  /-- CONFIG_READ_STATUS, R347. -/
  | configReadStatus
  /-- CONFIG_PARALLEL_WORD, R347. -/
  | configParallelWord (w : BitVec 16) (rdy : Bool)
  /-- CONFIG_CS_RISE, R348. -/
  | configCsRise (part : Bool)
  /-- PORT_SILENCE_TIMEOUT, R348. -/
  | portSilenceTimeout
  /-- PORT_VIOLATION_READ, R348. -/
  | portViolationRead (req : Req)
  /-- VERIFY_IMAGE, R358. -/
  | verifyImage (v : Word)
  /-- ATTEST, R363. -/
  | attest (v : Word)
  /-- ENROL, R361. -/
  | enrol (v : Word)
  /-- REVOKE, R361. -/
  | revoke (v : Word)
  /-- DEBUG_UNLOCK, R361. -/
  | debugUnlock (v : Word)
  /-- MANTLE_OPERATION_DONE, R360. -/
  | mantleOperationDone (fuseOk : Bool)
  /-- ROLLBACK_ADVANCE, R354. -/
  | rollbackAdvance (v : Word)
  /-- FUSE_BURN_DONE, R354. -/
  | fuseBurnDone (ok : Bool)
  /-- DEBUG_LOCK, R362. -/
  | debugLock (v : Word)
  /-- UNLOCK_EXPIRY, R362. -/
  | unlockExpiry
  /-- RGN_LOCK, R366. -/
  | rgnLock (v : Word)
  /-- SEAM_PORT_ENABLE, R371. -/
  | seamPortEnable (k : Nat) (v : Word)
  /-- SEAM_RETRAIN, R372. -/
  | seamRetrain (k : Nat) (v : Word)
  /-- TRAINING_COMPLETE, R372. -/
  | trainingComplete (k : Nat) (lanes : Nat) (id : Nat) (valid : Bool) (port : Nat)
  /-- TRAINING_RESTART, R372. -/
  | trainingRestart (k : Nat)
  /-- LANE_SPARING, R373. -/
  | laneSparing (k : Nat) (lane : Nat)
  /-- PORT_DOWN, R374. -/
  | portDown (k : Nat) (why : Nat)
  /-- HELLO, R376. -/
  | hello (k : Nat) (f : Flit)
  /-- LANE_MAP, R373. -/
  | laneMap (k : Nat) (f : Flit)
  /-- IDLE, R376. -/
  | idle (k : Nat) (f : Flit)
  /-- IDLE_SEND, R374. -/
  | idleSend (k : Nat)
  /-- REPLAY_TIMEOUT, R377. -/
  | replayTimeout (k : Nat)
  /-- SEAM_WRITE, R384. -/
  | seamWrite (k : Nat) (f : Flit)
  /-- SEAM_READ, R384. -/
  | seamRead (k : Sweep) (f : Flit)
  /-- READ_RESP, R386. -/
  | readResp (k : Nat) (f : Flit)
  /-- SEAM_ANSWER, R386. -/
  | seamAnswer (k : Nat) (f : Flit)
  /-- SEAM_MSG, R390. -/
  | seamMsg (k : Nat) (f : Flit)
  /-- CUE_AT, R53. -/
  | cueAt (k : Nat) (f : Flit)
  /-- SEAM_ATTEST, R391. -/
  | seamAttest (k : Nat) (f : Flit)
  /-- TIME_SYNC, R394. -/
  | timeSync (k : Nat) (f : Flit) (eighth : Nat)
  /-- TIME_SYNC_REPLY, R395. -/
  | timeSyncReply (k : Nat) (f : Flit) (eighth : Nat)
  /-- TSYNC_EXCHANGE, R394. -/
  | tsyncExchange (eighth : Nat)
  /-- SEAM_REQUEST_TIMEOUT, R388. -/
  | seamRequestTimeout (k : Nat) (tid : Nat)
  /-- CUE_AT_GO, R389. -/
  | cueAtGo (req : Req) (v : Word)
  /-- ATTEST_GO, R391. -/
  | attestGo (req : Req) (v : Word)
  /-- SEAM_WINDOW_ACCESS, R387. -/
  | seamWindowAccess (req : Req) (write : Bool) (a : Nat) (len : Nat) (data : List Byte)
  /-- SEAM_RELEASE, R398. -/
  | seamRelease (k : Nat) (v : Word)
  /-- MSGRD_WRITE, R390. -/
  | msgrdWrite (v : Word)
  /-- DROP_COUNT_READ, R381. -/
  | dropCountRead (req : Req)
  /-- SEAM_VIOL_COUNT_READ, R397. -/
  | seamViolCountRead (req : Req) (k : Nat)
  /-- REPLAY_COUNT_READ, R392. -/
  | replayCountRead (req : Req) (k : Nat)
  /-- TEMPERATURE_CHECK, R404. -/
  | temperatureCheck (p : Nat)
  /-- CAL_REQUEST, R404. -/
  | calRequest (t : Nat) (v : Word)
  /-- CAL_COMMIT, R408. -/
  | calCommit (t : Nat) (v : Word)
  /-- CAL_STEP_START, R405. -/
  | calStepStart (t : Nat)
  /-- CAL_STEP_END, R407. -/
  | calStepEnd (t : Nat) (vals : List Word)
  /-- STEP_ABANDON, R406. -/
  | stepAbandon (t : Nat)
  /-- CAL_STARVED, R409. -/
  | calStarved (t : Nat)
  /-- SENSOR_UPDATE, R435. -/
  | sensorUpdate (i : Nat) (temp : Int)
  /-- SENSOR_FAULT, R435. -/
  | sensorFault (i : Nat)
  /-- LIO_DATA_WRITE, R416. -/
  | lioDataWrite (b : Nat) (v : Word)
  /-- LIO_SET, R416. -/
  | lioSet (b : Nat) (v : Word)
  /-- LIO_CLR, R416. -/
  | lioClr (b : Nat) (v : Word)
  /-- LIO_TGL, R416. -/
  | lioTgl (b : Nat) (v : Word)
  /-- LIO_CFG_WRITE, R414. -/
  | lioCfgWrite (pin : Nat) (v : Word)
  /-- BANK_SUPPLY_CHANGE, R413. -/
  | bankSupplyChange (b : Nat) (valid : Bool) (level : Nat)
  /-- UART_DATA_WRITE, R424. -/
  | uartDataWrite (u : Nat) (v : Word)
  /-- UART_DATA_READ, R424. -/
  | uartDataRead (req : Req) (u : Nat)
  /-- UART_RECEIVE, R424. -/
  | uartReceive (u : Nat) (b : Byte) (noStop : Bool) (badParity : Bool)
  /-- UART_BYTE_SENT, R424. -/
  | uartByteSent (u : Nat)
  /-- SPI_DATA_WRITE, R425. -/
  | spiDataWrite (i : Nat) (v : Word)
  /-- SPI_DATA_READ, R425. -/
  | spiDataRead (req : Req) (i : Nat)
  /-- SPI_BYTE_DONE, R425. -/
  | spiByteDone (i : Nat) (miso : Byte)
  /-- I2C_GO, R426. -/
  | i2cGo (i : Nat) (v : Word)
  /-- I2C_TRANSFER_DONE, R426. -/
  | i2cTransferDone (i : Nat) (sent : Nat) (rd : List Byte) (nack : Bool) (arbLost : Bool)
  /-- I2C_BUS_STUCK, R426. -/
  | i2cBusStuck (i : Nat)
  /-- I2C_DATA_READ, R426. -/
  | i2cDataRead (req : Req) (i : Nat)
  /-- SWRAISE, R434. -/
  | swraise (v : Word)
  /-- SEAM_EVENT_MSG, R432. -/
  | seamEventMsg (e : Nat)
  /-- RAISE_COUNT_READ, R429. -/
  | raiseCountRead (req : Req)
  /-- SUPPLY_OUT, R435. -/
  | supplyOut (i : Nat)
  /-- SUPPLY_IN, R435. -/
  | supplyIn (i : Nat)
  /-- FAULT_LOG_WRITE, R460. -/
  | faultLogWrite (ok : Bool)
  /-- SYS_RESET, R447. -/
  | sysReset (straps : Nat)
  /-- POWER_LOSS, R468. -/
  | powerLoss
  /-- START_SEQUENCE, R449. -/
  | startSequence (ok : Bool) (data : List Nat)
  /-- STEP_TIMEOUT, R449. -/
  | stepTimeout (n : Nat)
  /-- INTERNAL_RESTART, R451. -/
  | internalRestart (straps : Nat)
  /-- STEP_REVERT, R450. -/
  | stepRevert (n : Nat) (v : Word)
  /-- FABRIC_CUE_OUTPUT, R35. -/
  | fabricCueOutput (o : Nat) (level : Bool)
  /-- FASTSUM_UPDATE, R147. -/
  | fastsumUpdate (p : Nat) (c : Nat) (code : Int)
  /-- WINDOW_OPEN, R152. -/
  | windowOpen (p : Nat) (c : Nat)
  /-- PGA_CLIP, R89. -/
  | pgaClip (t : Nat) (i : Nat) (uv : Int)
  /-- BIQUAD_CLIP, R92. -/
  | biquadClip (t : Nat) (uv : Int)
  /-- CUE_AT_ANSWER, R389. -/
  | cueAtAnswer (k : Nat) (f : Flit)
  /-- ATTEST_ANSWER, R391. -/
  | attestAnswer (k : Nat) (f : Flit)
  /-- CONFIGURATION_SPACE_WRITE, R310. -/
  | configurationSpaceWrite (msix : Bool) (mask : Bool) (master : Bool) (d3 : Bool)
  /-- DAC_PORT_UNCORRECTABLE_READ, R440. -/
  | dacPortUncorrectableRead (t : Nat)
  /-- UNKNOWN_QSPI_COMMAND, R348. -/
  | unknownQspiCommand
  deriving DecidableEq, Repr

end Sys2Proof
end

