-- ==== Sys2Proof/Config.lean ====
section
/-!
DEFINITION. The values that the spec leaves open: opaque constants without a body, so that no proof can
see a value of them. Assumption log entries name each.
-/
namespace Sys2Proof.Config

/-- A value that the spec leaves open, taken fresh by the counter `State.free`. -/
opaque freeWord : Nat → Word

/-- The quotient of R55's interpolation where ENC_PERIOD is 0, which the spec does not state. -/
opaque encFraction : Nat → Nat

/-- How many ticks before its last moment (40 ns ahead of the presentation) a DAC sample's word is read, of
0 to 64: R114 leaves the instant open. The operands are the tile and the tick of the presentation. -/
opaque dacFetch : Nat → Nat → Nat

/-- The way that a miss of an instruction cache fills among those it may fill (R222): engine, line and tick. -/
opaque icWay : Nat → Nat → Nat → Nat

/-- The level that a Sleeve drives onto a lane of the head port it feeds (R167): head, lane and tick. -/
opaque sleeveLane : Nat → Nat → Nat → Bool

/-- The coefficients of the compensation filters, fixed in silicon and not in the spec (R141): preset and
index below the middle one. -/
opaque firCoef : Nat → Nat → Nat

/-- The row of a device that holds a block of the LPDDR5X region: the spec gives no device geometry (R302). -/
opaque lpddrRow : Nat → Nat

/-- The bank that such a row lies in. -/
opaque lpddrBank : Nat → Nat

/-! ### The standards that chapters 14 and 15 name without giving their text -/

/-- The device unique secret of R351. -/
opaque dus : List Byte

/-- AES-256 encryption of a 16-byte block under a 32-byte key. -/
opaque aesEnc : List Byte → List Byte → List Byte

/-- AES-256 key unwrap of SP 800-38F: key-encryption key and wrapped key; none where its check fails. -/
opaque kwUnwrap : List Byte → List Byte → Option (List Byte)

/-- KMAC256 of SP 800-185: key, input, output bits, customisation string. -/
opaque kmac256 : List Byte → List Byte → Nat → List Byte → List Byte

/-- SHAKE256 of FIPS 202: input and output bytes. -/
opaque shake256 : List Byte → Nat → List Byte

/-- SLH-DSA-SHAKE-256s verification of FIPS 205: public key, context string, message, signature. -/
opaque slhVerify : List Byte → List Byte → List Byte → List Byte → Bool

/-- SLH-DSA-SHAKE-256f signing: seed of the key pair, context string, message. -/
opaque slhSign : List Byte → List Byte → List Byte → List Byte

/-- The SLH-DSA-SHAKE-256f public key of a seed. -/
opaque slhPublic : List Byte → List Byte

end Sys2Proof.Config
end

