-- ==== Sys2Proof/Machine/Regs.lean ====
section
/-!
DEFINITION. The register map (chapter 21 and the register tables of every chapter): the address of each
control register, the place of each field, and one row per register saying which bits a write replaces,
which a written 1 clears, and the whole-word reset value.
-/
namespace Sys2Proof.Machine

/-- A bit field of a register: its least significant bit and its width. -/
structure Fld where
  lsb : Nat
  width : Nat
  deriving DecidableEq, Repr

/-- One register of the map: its first address, the strides and counts of its indices (outermost first),
the bits that a write replaces (RW, WL), the bits that a written 1 clears (W1C), the reset word. -/
structure RegRow where
  base : Nat
  dims : List (Nat × Nat)
  rw : Nat
  w1c : Nat
  reset : Nat
  deriving DecidableEq, Repr

/-- Does offset `o` from the row's base fall on an instance of it? -/
def dimsHit : List (Nat × Nat) → Nat → Bool
  | [], o => o == 0
  | (stride, count) :: rest, o => decide (o / stride < count) && dimsHit rest (o % stride)

/-- Does the row hold the register at address `a`? -/
def RegRow.hit (r : RegRow) (a : Nat) : Bool := decide (r.base ≤ a) && dimsHit r.dims (ofs r.base a)


/-! ### Addresses -/

/-- SYS_DEVID (chapter 00). -/
def Reg.SYS_DEVID : Nat := 0x0
/-- SYS_FEATURE (chapter 00). -/
def Reg.SYS_FEATURE : Nat := 0x4
/-- SYS_CLK_CTL (chapter 02). -/
def Reg.SYS_CLK_CTL : Nat := 0x100
/-- SYS_CLK_STATUS (chapter 02). -/
def Reg.SYS_CLK_STATUS : Nat := 0x104
/-- SYS_CLK_FAULT (chapter 02). -/
def Reg.SYS_CLK_FAULT : Nat := 0x108
/-- SYS_XTAL_MON (chapter 02). -/
def Reg.SYS_XTAL_MON : Nat := 0x10c
/-- SYS_LT_LO (chapter 02). -/
def Reg.SYS_LT_LO : Nat := 0x120
/-- SYS_LT_HI (chapter 02). -/
def Reg.SYS_LT_HI : Nat := 0x124
/-- SYS_LT_LOAD_LO (chapter 02). -/
def Reg.SYS_LT_LOAD_LO : Nat := 0x128
/-- SYS_LT_LOAD_HI (chapter 02). -/
def Reg.SYS_LT_LOAD_HI : Nat := 0x12c
/-- SYS_LT_CTL (chapter 02). -/
def Reg.SYS_LT_CTL : Nat := 0x130
/-- SYS_LT_RATE (chapter 02). -/
def Reg.SYS_LT_RATE : Nat := 0x134
/-- SYS_LT_ADJ (chapter 02). -/
def Reg.SYS_LT_ADJ : Nat := 0x138
/-- SYS_LT_PENDING (chapter 02). -/
def Reg.SYS_LT_PENDING : Nat := 0x13c
/-- SYS_LT_STATUS (chapter 02). -/
def Reg.SYS_LT_STATUS : Nat := 0x140
/-- CQ_STATUS (chapter 03). -/
def Reg.CQ_STATUS : Nat := 0x100000
/-- CQ_LATENCY (chapter 03). -/
def Reg.CQ_LATENCY : Nat := 0x100004
/-- CQ_TSEL (chapter 03). -/
def Reg.CQ_TSEL (n : Nat) : Nat := 0x110000 + 0x40 * n
/-- CQ_TCTL (chapter 03). -/
def Reg.CQ_TCTL (n : Nat) : Nat := 0x110004 + 0x40 * n
/-- CQ_SRCDLY (chapter 03). -/
def Reg.CQ_SRCDLY (n : Nat) : Nat := 0x110008 + 0x40 * n
/-- CQ_TSTAT (chapter 03). -/
def Reg.CQ_TSTAT (n : Nat) : Nat := 0x11000c + 0x40 * n
/-- CQ_ARM_VLO (chapter 03). -/
def Reg.CQ_ARM_VLO (n : Nat) : Nat := 0x110010 + 0x40 * n
/-- CQ_ARM_VHI (chapter 03). -/
def Reg.CQ_ARM_VHI (n : Nat) : Nat := 0x110014 + 0x40 * n
/-- CQ_ARM_DLY (chapter 03). -/
def Reg.CQ_ARM_DLY (n : Nat) : Nat := 0x110018 + 0x40 * n
/-- CQ_ARM_CTL (chapter 03). -/
def Reg.CQ_ARM_CTL (n : Nat) : Nat := 0x11001c + 0x40 * n
/-- CQ_SLOT (chapter 03). -/
def Reg.CQ_SLOT (n : Nat) (s : Nat) : Nat := 0x110020 + 0x40 * n + 0x4 * s
/-- CQ_DISARM (chapter 03). -/
def Reg.CQ_DISARM (n : Nat) : Nat := 0x110030 + 0x40 * n
/-- CQ_MERGE (chapter 03). -/
def Reg.CQ_MERGE (n : Nat) : Nat := 0x110034 + 0x40 * n
/-- CQ_CAPCTL (chapter 03). -/
def Reg.CQ_CAPCTL (u : Nat) : Nat := 0x120000 + 0x40 * u
/-- CQ_CAPSTAT (chapter 03). -/
def Reg.CQ_CAPSTAT (u : Nat) : Nat := 0x120004 + 0x40 * u
/-- CQ_CAP_TLO (chapter 03). -/
def Reg.CQ_CAP_TLO (u : Nat) : Nat := 0x120008 + 0x40 * u
/-- CQ_CAP_THI (chapter 03). -/
def Reg.CQ_CAP_THI (u : Nat) : Nat := 0x12000c + 0x40 * u
/-- CQ_CAP_FRAC (chapter 03). -/
def Reg.CQ_CAP_FRAC (u : Nat) : Nat := 0x120010 + 0x40 * u
/-- CQ_CAP_PLO (chapter 03). -/
def Reg.CQ_CAP_PLO (u : Nat) : Nat := 0x120014 + 0x40 * u
/-- CQ_CAP_PHI (chapter 03). -/
def Reg.CQ_CAP_PHI (u : Nat) : Nat := 0x120018 + 0x40 * u
/-- CQ_CAP_POP (chapter 03). -/
def Reg.CQ_CAP_POP (u : Nat) : Nat := 0x12001c + 0x40 * u
/-- CQ_FSEL (chapter 03). -/
def Reg.CQ_FSEL (i : Nat) : Nat := 0x130000 + 0x4 * i
/-- ENC_CTL (chapter 03). -/
def Reg.ENC_CTL (e : Nat) : Nat := 0x180000 + 0x100 * e
/-- ENC_PINS (chapter 03). -/
def Reg.ENC_PINS (e : Nat) : Nat := 0x180004 + 0x100 * e
/-- ENC_STATUS (chapter 03). -/
def Reg.ENC_STATUS (e : Nat) : Nat := 0x180008 + 0x100 * e
/-- ENC_POS_LO (chapter 03). -/
def Reg.ENC_POS_LO (e : Nat) : Nat := 0x18000c + 0x100 * e
/-- ENC_POS_HI (chapter 03). -/
def Reg.ENC_POS_HI (e : Nat) : Nat := 0x180010 + 0x100 * e
/-- ENC_PERIOD (chapter 03). -/
def Reg.ENC_PERIOD (e : Nat) : Nat := 0x180014 + 0x100 * e
/-- ENC_LOAD (chapter 03). -/
def Reg.ENC_LOAD (e : Nat) : Nat := 0x180018 + 0x100 * e
/-- ENC_IDXCAP (chapter 03). -/
def Reg.ENC_IDXCAP (e : Nat) : Nat := 0x18001c + 0x100 * e
/-- ENC_ERRCNT (chapter 03). -/
def Reg.ENC_ERRCNT (e : Nat) : Nat := 0x180020 + 0x100 * e
/-- ENC_ERRT_LO (chapter 03). -/
def Reg.ENC_ERRT_LO (e : Nat) : Nat := 0x180024 + 0x100 * e
/-- ENC_ERRT_HI (chapter 03). -/
def Reg.ENC_ERRT_HI (e : Nat) : Nat := 0x180028 + 0x100 * e
/-- ENC_MCTL (chapter 03). -/
def Reg.ENC_MCTL (e : Nat) (m : Nat) : Nat := 0x180040 + 0x100 * e + 0x10 * m
/-- ENC_MVAL_LO (chapter 03). -/
def Reg.ENC_MVAL_LO (e : Nat) (m : Nat) : Nat := 0x180044 + 0x100 * e + 0x10 * m
/-- ENC_MVAL_HI (chapter 03). -/
def Reg.ENC_MVAL_HI (e : Nat) (m : Nat) : Nat := 0x180048 + 0x100 * e + 0x10 * m
/-- ENC_MSTEP (chapter 03). -/
def Reg.ENC_MSTEP (e : Nat) (m : Nat) : Nat := 0x18004c + 0x100 * e + 0x10 * m
/-- PG_CTL (chapter 04). -/
def Reg.PG_CTL (n : Nat) : Nat := 0x200000 + 0x800 * n
/-- PG_STAT (chapter 04). -/
def Reg.PG_STAT (n : Nat) : Nat := 0x200004 + 0x800 * n
/-- PG_LEAD (chapter 04). -/
def Reg.PG_LEAD (n : Nat) : Nat := 0x200008 + 0x800 * n
/-- PG_WIDTH (chapter 04). -/
def Reg.PG_WIDTH (n : Nat) : Nat := 0x20000c + 0x800 * n
/-- PG_PERIOD (chapter 04). -/
def Reg.PG_PERIOD (n : Nat) : Nat := 0x200010 + 0x800 * n
/-- PG_COUNT (chapter 04). -/
def Reg.PG_COUNT (n : Nat) : Nat := 0x200014 + 0x800 * n
/-- PG_DONECNT (chapter 04). -/
def Reg.PG_DONECNT (n : Nat) : Nat := 0x200018 + 0x800 * n
/-- PG_OUT (chapter 04). -/
def Reg.PG_OUT (n : Nat) : Nat := 0x20001c + 0x800 * n
/-- PG_TRIP (chapter 04). -/
def Reg.PG_TRIP (n : Nat) (i : Nat) : Nat := 0x200020 + 0x800 * n + 0x4 * i
/-- PG_TRIPCTL (chapter 04). -/
def Reg.PG_TRIPCTL (n : Nat) : Nat := 0x200028 + 0x800 * n
/-- PG_CMD (chapter 04). -/
def Reg.PG_CMD (n : Nat) : Nat := 0x20002c + 0x800 * n
/-- PG_SEQSEL (chapter 04). -/
def Reg.PG_SEQSEL (n : Nat) : Nat := 0x200030 + 0x800 * n
/-- PG_SEQ (chapter 04). -/
def Reg.PG_SEQ (n : Nat) (b : Nat) (i : Nat) : Nat := 0x200100 + 0x800 * n + 0x80 * b + 0x4 * i
/-- AT_PWR (chapter 05). -/
def Reg.AT_PWR (t : Nat) : Nat := 0x400000 + 0x2000 * t
/-- AT_STAT (chapter 05). -/
def Reg.AT_STAT (t : Nat) : Nat := 0x400004 + 0x2000 * t
/-- AT_SEL (chapter 05). -/
def Reg.AT_SEL (t : Nat) : Nat := 0x400008 + 0x2000 * t
/-- AT_BUSDRV (chapter 05). -/
def Reg.AT_BUSDRV (t : Nat) : Nat := 0x40000c + 0x2000 * t
/-- AT_PBUSSTAT (chapter 05). -/
def Reg.AT_PBUSSTAT (t : Nat) : Nat := 0x400010 + 0x2000 * t
/-- AT_PGA (chapter 05). -/
def Reg.AT_PGA (t : Nat) : Nat := 0x400014 + 0x2000 * t
/-- AT_BQ (chapter 05). -/
def Reg.AT_BQ (t : Nat) : Nat := 0x400018 + 0x2000 * t
/-- AT_EVTEN (chapter 05). -/
def Reg.AT_EVTEN (t : Nat) : Nat := 0x40001c + 0x2000 * t
/-- AT_CMPCTL (chapter 05). -/
def Reg.AT_CMPCTL (t : Nat) (k : Nat) : Nat := 0x400040 + 0x2000 * t + 0x10 * k
/-- AT_CMPTH (chapter 05). -/
def Reg.AT_CMPTH (t : Nat) (k : Nat) : Nat := 0x400044 + 0x2000 * t + 0x10 * k
/-- AT_CMPSTAT (chapter 05). -/
def Reg.AT_CMPSTAT (t : Nat) (k : Nat) : Nat := 0x400048 + 0x2000 * t + 0x10 * k
/-- AT_PAIRCTL (chapter 05). -/
def Reg.AT_PAIRCTL (t : Nat) (j : Nat) : Nat := 0x400080 + 0x2000 * t + 0x4 * j
/-- AT_DACCTL (chapter 06). -/
def Reg.AT_DACCTL (t : Nat) : Nat := 0x400100 + 0x2000 * t
/-- AT_DACSTAT (chapter 06). -/
def Reg.AT_DACSTAT (t : Nat) : Nat := 0x400104 + 0x2000 * t
/-- AT_DACCODE (chapter 06). -/
def Reg.AT_DACCODE (t : Nat) : Nat := 0x400108 + 0x2000 * t
/-- AT_CLRCODE (chapter 06). -/
def Reg.AT_CLRCODE (t : Nat) : Nat := 0x40010c + 0x2000 * t
/-- AT_PALCTL (chapter 06). -/
def Reg.AT_PALCTL (t : Nat) : Nat := 0x400110 + 0x2000 * t
/-- AT_DACPOS (chapter 06). -/
def Reg.AT_DACPOS (t : Nat) : Nat := 0x400114 + 0x2000 * t
/-- AT_SUPCTL (chapter 06). -/
def Reg.AT_SUPCTL (t : Nat) : Nat := 0x400118 + 0x2000 * t
/-- AT_SUPSTAT (chapter 06). -/
def Reg.AT_SUPSTAT (t : Nat) : Nat := 0x40011c + 0x2000 * t
/-- AT_TWIN (chapter 06). -/
def Reg.AT_TWIN (t : Nat) : Nat := 0x400120 + 0x2000 * t
/-- AT_DACEVTEN (chapter 06). -/
def Reg.AT_DACEVTEN (t : Nat) : Nat := 0x400124 + 0x2000 * t
/-- AT_PROG (chapter 06). -/
def Reg.AT_PROG (t : Nat) (b : Nat) : Nat := 0x400200 + 0x2000 * t + 0x100 * b
/-- AT_SLOTPOS (chapter 06). -/
def Reg.AT_SLOTPOS (t : Nat) (b : Nat) (s : Nat) : Nat := 0x400210 + 0x2000 * t + 0x100 * b + 0x8 * s
/-- AT_SLOTCOEF (chapter 06). -/
def Reg.AT_SLOTCOEF (t : Nat) (b : Nat) (s : Nat) : Nat := 0x400214 + 0x2000 * t + 0x100 * b + 0x8 * s
/-- DCE_PSTAT (chapter 07). -/
def Reg.DCE_PSTAT (p : Nat) : Nat := 0x500000 + 0x20000 * p
/-- DCE_GDELAY (chapter 07). -/
def Reg.DCE_GDELAY (p : Nat) (k : Nat) : Nat := 0x500010 + 0x20000 * p + 0x4 * k
/-- DCE_SETTLE (chapter 07). -/
def Reg.DCE_SETTLE (p : Nat) (k : Nat) : Nat := 0x500030 + 0x20000 * p + 0x4 * k
/-- DCE_FIRROM (chapter 07). -/
def Reg.DCE_FIRROM (p : Nat) (k : Nat) (i : Nat) : Nat := 0x500100 + 0x20000 * p + 0x80 * k + 0x4 * i
/-- DCE_CHCTL (chapter 07). -/
def Reg.DCE_CHCTL (p : Nat) (c : Nat) : Nat := 0x501000 + 0x20000 * p + 0x100 * c
/-- DCE_GATE (chapter 07). -/
def Reg.DCE_GATE (p : Nat) (c : Nat) : Nat := 0x501004 + 0x20000 * p + 0x100 * c
/-- DCE_RINGBASE_LO (chapter 07). -/
def Reg.DCE_RINGBASE_LO (p : Nat) (c : Nat) : Nat := 0x501008 + 0x20000 * p + 0x100 * c
/-- DCE_RINGBASE_HI (chapter 07). -/
def Reg.DCE_RINGBASE_HI (p : Nat) (c : Nat) : Nat := 0x50100c + 0x20000 * p + 0x100 * c
/-- DCE_RINGCFG (chapter 07). -/
def Reg.DCE_RINGCFG (p : Nat) (c : Nat) : Nat := 0x501010 + 0x20000 * p + 0x100 * c
/-- DCE_WRIDX (chapter 07). -/
def Reg.DCE_WRIDX (p : Nat) (c : Nat) : Nat := 0x501014 + 0x20000 * p + 0x100 * c
/-- DCE_RDIDX (chapter 07). -/
def Reg.DCE_RDIDX (p : Nat) (c : Nat) : Nat := 0x501018 + 0x20000 * p + 0x100 * c
/-- DCE_TH (chapter 07). -/
def Reg.DCE_TH (p : Nat) (c : Nat) (i : Nat) : Nat := 0x501020 + 0x20000 * p + 0x100 * c + 0x4 * i
/-- DCE_THF (chapter 07). -/
def Reg.DCE_THF (p : Nat) (c : Nat) : Nat := 0x501028 + 0x20000 * p + 0x100 * c
/-- DCE_CHSTAT (chapter 07). -/
def Reg.DCE_CHSTAT (p : Nat) (c : Nat) : Nat := 0x50102c + 0x20000 * p + 0x100 * c
/-- DCE_CHEVTEN (chapter 07). -/
def Reg.DCE_CHEVTEN (p : Nat) (c : Nat) : Nat := 0x501030 + 0x20000 * p + 0x100 * c
/-- DCE_LASTVAL (chapter 07). -/
def Reg.DCE_LASTVAL (p : Nat) (c : Nat) : Nat := 0x501034 + 0x20000 * p + 0x100 * c
/-- DCE_LAST_TLO (chapter 07). -/
def Reg.DCE_LAST_TLO (p : Nat) (c : Nat) : Nat := 0x501038 + 0x20000 * p + 0x100 * c
/-- DCE_LAST_THI (chapter 07). -/
def Reg.DCE_LAST_THI (p : Nat) (c : Nat) : Nat := 0x50103c + 0x20000 * p + 0x100 * c
/-- DCE_FAST (chapter 07). -/
def Reg.DCE_FAST (p : Nat) (c : Nat) : Nat := 0x501040 + 0x20000 * p + 0x100 * c
/-- DCE_OVRCNT (chapter 07). -/
def Reg.DCE_OVRCNT (p : Nat) (c : Nat) : Nat := 0x501044 + 0x20000 * p + 0x100 * c
/-- DCE_WINLAST (chapter 07). -/
def Reg.DCE_WINLAST (p : Nat) (c : Nat) : Nat := 0x501048 + 0x20000 * p + 0x100 * c
/-- HD_CTL (chapter 08). -/
def Reg.HD_CTL (h : Nat) : Nat := 0x300000 + 0x8000 * h
/-- HD_PROF0 (chapter 08). -/
def Reg.HD_PROF0 (h : Nat) : Nat := 0x300004 + 0x8000 * h
/-- HD_PROF1 (chapter 08). -/
def Reg.HD_PROF1 (h : Nat) : Nat := 0x300008 + 0x8000 * h
/-- HD_PROF2 (chapter 08). -/
def Reg.HD_PROF2 (h : Nat) : Nat := 0x30000c + 0x8000 * h
/-- HD_STAT (chapter 08). -/
def Reg.HD_STAT (h : Nat) : Nat := 0x300010 + 0x8000 * h
/-- HD_BANDBASE_LO (chapter 08). -/
def Reg.HD_BANDBASE_LO (h : Nat) : Nat := 0x300014 + 0x8000 * h
/-- HD_BANDBASE_HI (chapter 08). -/
def Reg.HD_BANDBASE_HI (h : Nat) : Nat := 0x300018 + 0x8000 * h
/-- HD_BANDCFG (chapter 08). -/
def Reg.HD_BANDCFG (h : Nat) : Nat := 0x30001c + 0x8000 * h
/-- HD_NEXTSEQ (chapter 08). -/
def Reg.HD_NEXTSEQ (h : Nat) : Nat := 0x300020 + 0x8000 * h
/-- HD_BANDPOS (chapter 08). -/
def Reg.HD_BANDPOS (h : Nat) : Nat := 0x300024 + 0x8000 * h
/-- HD_CURTAG (chapter 08). -/
def Reg.HD_CURTAG (h : Nat) : Nat := 0x300028 + 0x8000 * h
/-- HD_CYCLES (chapter 08). -/
def Reg.HD_CYCLES (h : Nat) : Nat := 0x30002c + 0x8000 * h
/-- HD_PLANBASE_LO (chapter 08). -/
def Reg.HD_PLANBASE_LO (h : Nat) : Nat := 0x300030 + 0x8000 * h
/-- HD_PLANBASE_HI (chapter 08). -/
def Reg.HD_PLANBASE_HI (h : Nat) : Nat := 0x300034 + 0x8000 * h
/-- HD_PLANCFG (chapter 08). -/
def Reg.HD_PLANCFG (h : Nat) : Nat := 0x300038 + 0x8000 * h
/-- HD_PLANWR (chapter 08). -/
def Reg.HD_PLANWR (h : Nat) : Nat := 0x30003c + 0x8000 * h
/-- HD_PLANRD (chapter 08). -/
def Reg.HD_PLANRD (h : Nat) : Nat := 0x300040 + 0x8000 * h
/-- HD_PRIO (chapter 08). -/
def Reg.HD_PRIO (h : Nat) (i : Nat) : Nat := 0x300044 + 0x8000 * h + 0x4 * i
/-- HD_SWEEP (chapter 08). -/
def Reg.HD_SWEEP (h : Nat) (i : Nat) : Nat := 0x30004c + 0x8000 * h + 0x4 * i
/-- HD_SENSE (chapter 08). -/
def Reg.HD_SENSE (h : Nat) (i : Nat) : Nat := 0x300054 + 0x8000 * h + 0x4 * i
/-- HD_NMAPCMD (chapter 08). -/
def Reg.HD_NMAPCMD (h : Nat) : Nat := 0x30005c + 0x8000 * h
/-- HD_CSSTAT (chapter 08). -/
def Reg.HD_CSSTAT (h : Nat) : Nat := 0x300060 + 0x8000 * h
/-- HD_EVTEN (chapter 08). -/
def Reg.HD_EVTEN (h : Nat) : Nat := 0x300064 + 0x8000 * h
/-- HD_NMAP (chapter 08). -/
def Reg.HD_NMAP (h : Nat) (n : Nat) : Nat := 0x304000 + 0x8000 * h + 0x4 * n
/-- PL_CTL (chapter 08). -/
def Reg.PL_CTL : Nat := 0xb0000
/-- PL_CHECKS (chapter 08). -/
def Reg.PL_CHECKS : Nat := 0xb0004
/-- PL_PORTS (chapter 08). -/
def Reg.PL_PORTS : Nat := 0xb0008
/-- PL_HORIZON (chapter 08). -/
def Reg.PL_HORIZON : Nat := 0xb000c
/-- PL_CLOSEOFS_LO (chapter 08). -/
def Reg.PL_CLOSEOFS_LO : Nat := 0xb0010
/-- PL_CLOSEOFS_HI (chapter 08). -/
def Reg.PL_CLOSEOFS_HI : Nat := 0xb0014
/-- PL_REJOFS_LO (chapter 08). -/
def Reg.PL_REJOFS_LO : Nat := 0xb0018
/-- PL_REJOFS_HI (chapter 08). -/
def Reg.PL_REJOFS_HI : Nat := 0xb001c
/-- PL_REJLEAD (chapter 08). -/
def Reg.PL_REJLEAD : Nat := 0xb0020
/-- PL_REJTGT (chapter 08). -/
def Reg.PL_REJTGT : Nat := 0xb0024
/-- PL_REJDLY (chapter 08). -/
def Reg.PL_REJDLY : Nat := 0xb0028
/-- PL_NEXTTAG (chapter 08). -/
def Reg.PL_NEXTTAG : Nat := 0xb002c
/-- PL_STATUS (chapter 08). -/
def Reg.PL_STATUS : Nat := 0xb0030
/-- PL_RINGBASE_LO (chapter 08). -/
def Reg.PL_RINGBASE_LO : Nat := 0xb0034
/-- PL_RINGBASE_HI (chapter 08). -/
def Reg.PL_RINGBASE_HI : Nat := 0xb0038
/-- PL_RINGCFG (chapter 08). -/
def Reg.PL_RINGCFG : Nat := 0xb003c
/-- PL_RINGWR (chapter 08). -/
def Reg.PL_RINGWR : Nat := 0xb0040
/-- PL_RINGRD (chapter 08). -/
def Reg.PL_RINGRD : Nat := 0xb0044
/-- PL_CMDTAG (chapter 08). -/
def Reg.PL_CMDTAG : Nat := 0xb0048
/-- PL_CMDARG (chapter 08). -/
def Reg.PL_CMDARG : Nat := 0xb004c
/-- PL_CMD (chapter 08). -/
def Reg.PL_CMD : Nat := 0xb0050
/-- PL_RECSTAT (chapter 08). -/
def Reg.PL_RECSTAT : Nat := 0xb0054
/-- PL_RECCNT (chapter 08). -/
def Reg.PL_RECCNT : Nat := 0xb0058
/-- ME_CTL (chapter 09). -/
def Reg.ME_CTL (n : Nat) : Nat := 0x800000 + 0x4000 * n
/-- ME_STAT (chapter 09). -/
def Reg.ME_STAT (n : Nat) : Nat := 0x800004 + 0x4000 * n
/-- ME_BOOTPC_LO (chapter 09). -/
def Reg.ME_BOOTPC_LO (n : Nat) : Nat := 0x800008 + 0x4000 * n
/-- ME_BOOTPC_HI (chapter 09). -/
def Reg.ME_BOOTPC_HI (n : Nat) : Nat := 0x80000c + 0x4000 * n
/-- ME_FAULT (chapter 09). -/
def Reg.ME_FAULT (n : Nat) : Nat := 0x800010 + 0x4000 * n
/-- ME_FAULTPC_LO (chapter 09). -/
def Reg.ME_FAULTPC_LO (n : Nat) : Nat := 0x800014 + 0x4000 * n
/-- ME_FAULTPC_HI (chapter 09). -/
def Reg.ME_FAULTPC_HI (n : Nat) : Nat := 0x800018 + 0x4000 * n
/-- ME_FAULTADDR_LO (chapter 09). -/
def Reg.ME_FAULTADDR_LO (n : Nat) : Nat := 0x80001c + 0x4000 * n
/-- ME_FAULTADDR_HI (chapter 09). -/
def Reg.ME_FAULTADDR_HI (n : Nat) : Nat := 0x800020 + 0x4000 * n
/-- ME_WDOG (chapter 09). -/
def Reg.ME_WDOG (n : Nat) : Nat := 0x800024 + 0x4000 * n
/-- ME_EVTEN (chapter 09). -/
def Reg.ME_EVTEN (n : Nat) : Nat := 0x800028 + 0x4000 * n
/-- ME_PERF_ISSUE (chapter 09). -/
def Reg.ME_PERF_ISSUE (n : Nat) : Nat := 0x80002c + 0x4000 * n
/-- ME_PERF_STALL (chapter 09). -/
def Reg.ME_PERF_STALL (n : Nat) : Nat := 0x800030 + 0x4000 * n
/-- ME_DMASTAT (chapter 09). -/
def Reg.ME_DMASTAT (n : Nat) : Nat := 0x800034 + 0x4000 * n
/-- ME_RGN_LO (chapter 09). -/
def Reg.ME_RGN_LO (n : Nat) (r : Nat) : Nat := 0x800040 + 0x4000 * n + 0x8 * r
/-- ME_RGN_HI (chapter 09). -/
def Reg.ME_RGN_HI (n : Nat) (r : Nat) : Nat := 0x800044 + 0x4000 * n + 0x8 * r
/-- ME_DBGCTL (chapter 09). -/
def Reg.ME_DBGCTL (n : Nat) : Nat := 0x800100 + 0x4000 * n
/-- ME_DBGPC_LO (chapter 09). -/
def Reg.ME_DBGPC_LO (n : Nat) : Nat := 0x800104 + 0x4000 * n
/-- ME_DBGPC_HI (chapter 09). -/
def Reg.ME_DBGPC_HI (n : Nat) : Nat := 0x800108 + 0x4000 * n
/-- ME_BKPT_LO (chapter 09). -/
def Reg.ME_BKPT_LO (n : Nat) (i : Nat) : Nat := 0x800110 + 0x4000 * n + 0x8 * i
/-- ME_BKPT_HI (chapter 09). -/
def Reg.ME_BKPT_HI (n : Nat) (i : Nat) : Nat := 0x800114 + 0x4000 * n + 0x8 * i
/-- ME_DBGREG (chapter 09). -/
def Reg.ME_DBGREG (n : Nat) (r : Nat) : Nat := 0x800200 + 0x4000 * n + 0x4 * r
/-- JQ_CTL (chapter 11). -/
def Reg.JQ_CTL (q : Nat) : Nat := 0x600000 + 0x200 * q
/-- JQ_AFFIN (chapter 11). -/
def Reg.JQ_AFFIN (q : Nat) : Nat := 0x600004 + 0x200 * q
/-- JQ_RINGBASE_LO (chapter 11). -/
def Reg.JQ_RINGBASE_LO (q : Nat) : Nat := 0x600008 + 0x200 * q
/-- JQ_RINGBASE_HI (chapter 11). -/
def Reg.JQ_RINGBASE_HI (q : Nat) : Nat := 0x60000c + 0x200 * q
/-- JQ_RINGCFG (chapter 11). -/
def Reg.JQ_RINGCFG (q : Nat) : Nat := 0x600010 + 0x200 * q
/-- JQ_TAIL (chapter 11). -/
def Reg.JQ_TAIL (q : Nat) : Nat := 0x600014 + 0x200 * q
/-- JQ_HEAD (chapter 11). -/
def Reg.JQ_HEAD (q : Nat) : Nat := 0x600018 + 0x200 * q
/-- JQ_AGE (chapter 11). -/
def Reg.JQ_AGE (q : Nat) : Nat := 0x60001c + 0x200 * q
/-- JQ_STAT (chapter 11). -/
def Reg.JQ_STAT (q : Nat) : Nat := 0x600020 + 0x200 * q
/-- JQ_FLAGS (chapter 11). -/
def Reg.JQ_FLAGS (q : Nat) : Nat := 0x600024 + 0x200 * q
/-- JQ_HEADDL_LO (chapter 11). -/
def Reg.JQ_HEADDL_LO (q : Nat) : Nat := 0x600028 + 0x200 * q
/-- JQ_HEADDL_HI (chapter 11). -/
def Reg.JQ_HEADDL_HI (q : Nat) : Nat := 0x60002c + 0x200 * q
/-- JQ_CNT_DONE (chapter 11). -/
def Reg.JQ_CNT_DONE (q : Nat) : Nat := 0x600030 + 0x200 * q
/-- JQ_CNT_MISS (chapter 11). -/
def Reg.JQ_CNT_MISS (q : Nat) : Nat := 0x600034 + 0x200 * q
/-- JQ_CNT_RETRY (chapter 11). -/
def Reg.JQ_CNT_RETRY (q : Nat) : Nat := 0x600038 + 0x200 * q
/-- JQ_CNT_AWAY (chapter 11). -/
def Reg.JQ_CNT_AWAY (q : Nat) : Nat := 0x60003c + 0x200 * q
/-- JQ_HPOST_LO (chapter 11). -/
def Reg.JQ_HPOST_LO (q : Nat) : Nat := 0x600040 + 0x200 * q
/-- JQ_HPOST_HI (chapter 11). -/
def Reg.JQ_HPOST_HI (q : Nat) : Nat := 0x600044 + 0x200 * q
/-- JQ_HPOSTRES (chapter 11). -/
def Reg.JQ_HPOSTRES (q : Nat) : Nat := 0x600048 + 0x200 * q
/-- JQ_EVTEN (chapter 11). -/
def Reg.JQ_EVTEN (q : Nat) : Nat := 0x60004c + 0x200 * q
/-- JQ_LASTFAIL (chapter 11). -/
def Reg.JQ_LASTFAIL (q : Nat) : Nat := 0x600050 + 0x200 * q
/-- TST_CTL (chapter 12). -/
def Reg.TST_CTL : Nat := 0xc00000
/-- TST_SWEEP (chapter 12). -/
def Reg.TST_SWEEP : Nat := 0xc00004
/-- TST_ERRLOG (chapter 12). -/
def Reg.TST_ERRLOG : Nat := 0xc00010
/-- TST_ERRADDR_LO (chapter 12). -/
def Reg.TST_ERRADDR_LO : Nat := 0xc00014
/-- TST_ERRADDR_HI (chapter 12). -/
def Reg.TST_ERRADDR_HI : Nat := 0xc00018
/-- TST_WFSTAT (chapter 12). -/
def Reg.TST_WFSTAT (h : Nat) : Nat := 0xc00020 + 0x4 * h
/-- TST_CFGSTAT (chapter 12). -/
def Reg.TST_CFGSTAT : Nat := 0xc00028
/-- TST_CSSTAT (chapter 12). -/
def Reg.TST_CSSTAT (c : Nat) : Nat := 0xc00100 + 0x20 * c
/-- TST_CSEVTEN (chapter 12). -/
def Reg.TST_CSEVTEN (c : Nat) : Nat := 0xc00104 + 0x20 * c
/-- TST_COLL_LO (chapter 12). -/
def Reg.TST_COLL_LO (c : Nat) : Nat := 0xc00108 + 0x20 * c
/-- TST_COLL_HI (chapter 12). -/
def Reg.TST_COLL_HI (c : Nat) : Nat := 0xc0010c + 0x20 * c
/-- TST_COLL_WHO (chapter 12). -/
def Reg.TST_COLL_WHO (c : Nat) : Nat := 0xc00110 + 0x20 * c
/-- TST_CSCE (chapter 12). -/
def Reg.TST_CSCE (c : Nat) : Nat := 0xc00114 + 0x20 * c
/-- TST_RETCTL (chapter 12). -/
def Reg.TST_RETCTL (c : Nat) : Nat := 0xc00118 + 0x20 * c
/-- MEMC_STAT (chapter 13). -/
def Reg.MEMC_STAT : Nat := 0x80000
/-- MEMC_CFG (chapter 13). -/
def Reg.MEMC_CFG : Nat := 0x80004
/-- MEMC_SIZES (chapter 13). -/
def Reg.MEMC_SIZES : Nat := 0x80008
/-- MEMC_SCRUB (chapter 13). -/
def Reg.MEMC_SCRUB : Nat := 0x8000c
/-- MEMC_ERRADDR_LO (chapter 13). -/
def Reg.MEMC_ERRADDR_LO : Nat := 0x80010
/-- MEMC_ERRADDR_HI (chapter 13). -/
def Reg.MEMC_ERRADDR_HI : Nat := 0x80014
/-- MEMC_CHSTAT (chapter 13). -/
def Reg.MEMC_CHSTAT (k : Nat) : Nat := 0x80100 + 0x20 * k
/-- MEMC_CHFLAGS (chapter 13). -/
def Reg.MEMC_CHFLAGS (k : Nat) : Nat := 0x80104 + 0x20 * k
/-- MEMC_CHCNT (chapter 13). -/
def Reg.MEMC_CHCNT (k : Nat) : Nat := 0x80108 + 0x20 * k
/-- MEMC_CHEVTEN (chapter 13). -/
def Reg.MEMC_CHEVTEN (k : Nat) : Nat := 0x8010c + 0x20 * k
/-- HOST_LINK (chapter 13). -/
def Reg.HOST_LINK : Nat := 0x60000
/-- HOST_CTL (chapter 13). -/
def Reg.HOST_CTL : Nat := 0x60004
/-- HOST_FLAGS (chapter 13). -/
def Reg.HOST_FLAGS : Nat := 0x60008
/-- HOST_EVTEN (chapter 13). -/
def Reg.HOST_EVTEN : Nat := 0x6000c
/-- HOST_VIOL (chapter 13). -/
def Reg.HOST_VIOL : Nat := 0x60010
/-- HOST_VIOL_ADDR_LO (chapter 13). -/
def Reg.HOST_VIOL_ADDR_LO : Nat := 0x60014
/-- HOST_VIOL_ADDR_HI (chapter 13). -/
def Reg.HOST_VIOL_ADDR_HI : Nat := 0x60018
/-- HOST_BOOT_INFO (chapter 13). -/
def Reg.HOST_BOOT_INFO : Nat := 0x60100
/-- HOST_BOOT_CFG (chapter 13). -/
def Reg.HOST_BOOT_CFG : Nat := 0x60104
/-- HOST_BOOT_CMD (chapter 13). -/
def Reg.HOST_BOOT_CMD : Nat := 0x60108
/-- HOST_BOOT_FADDR (chapter 13). -/
def Reg.HOST_BOOT_FADDR : Nat := 0x6010c
/-- HOST_BOOT_MADDR_LO (chapter 13). -/
def Reg.HOST_BOOT_MADDR_LO : Nat := 0x60110
/-- HOST_BOOT_MADDR_HI (chapter 13). -/
def Reg.HOST_BOOT_MADDR_HI : Nat := 0x60114
/-- HOST_BOOT_LEN (chapter 13). -/
def Reg.HOST_BOOT_LEN : Nat := 0x60118
/-- HOST_BOOT_STAT (chapter 13). -/
def Reg.HOST_BOOT_STAT : Nat := 0x6011c
/-- DP_CTL (chapter 13). -/
def Reg.DP_CTL (n : Nat) : Nat := 0x70000 + 0x100 * n
/-- DP_ADDR_LO (chapter 13). -/
def Reg.DP_ADDR_LO (n : Nat) : Nat := 0x70004 + 0x100 * n
/-- DP_ADDR_HI (chapter 13). -/
def Reg.DP_ADDR_HI (n : Nat) : Nat := 0x70008 + 0x100 * n
/-- DP_STRIDE (chapter 13). -/
def Reg.DP_STRIDE (n : Nat) : Nat := 0x7000c + 0x100 * n
/-- DP_WRAPBASE_LO (chapter 13). -/
def Reg.DP_WRAPBASE_LO (n : Nat) : Nat := 0x70010 + 0x100 * n
/-- DP_WRAPBASE_HI (chapter 13). -/
def Reg.DP_WRAPBASE_HI (n : Nat) : Nat := 0x70014 + 0x100 * n
/-- DP_STAT (chapter 13). -/
def Reg.DP_STAT (n : Nat) : Nat := 0x70018 + 0x100 * n
/-- CFG_CTL (chapter 14). -/
def Reg.CFG_CTL : Nat := 0x90000
/-- CFG_STATUS (chapter 14). -/
def Reg.CFG_STATUS : Nat := 0x90004
/-- CFG_LOAD (chapter 14). -/
def Reg.CFG_LOAD : Nat := 0x90008
/-- CFG_SRC_LO (chapter 14). -/
def Reg.CFG_SRC_LO : Nat := 0x9000c
/-- CFG_SRC_HI (chapter 14). -/
def Reg.CFG_SRC_HI : Nat := 0x90010
/-- CFG_APPLYAT_LO (chapter 14). -/
def Reg.CFG_APPLYAT_LO : Nat := 0x90014
/-- CFG_APPLYAT_HI (chapter 14). -/
def Reg.CFG_APPLYAT_HI : Nat := 0x90018
/-- CFG_RESULT (chapter 14). -/
def Reg.CFG_RESULT : Nat := 0x9001c
/-- CFG_ERRINFO (chapter 14). -/
def Reg.CFG_ERRINFO : Nat := 0x90020
/-- CFG_ERROFS (chapter 14). -/
def Reg.CFG_ERROFS : Nat := 0x90024
/-- CFG_LASTSET (chapter 14). -/
def Reg.CFG_LASTSET : Nat := 0x90028
/-- CFG_LASTID (chapter 14). -/
def Reg.CFG_LASTID : Nat := 0x9002c
/-- CFG_PORTSTAT (chapter 14). -/
def Reg.CFG_PORTSTAT : Nat := 0x90030
/-- CFG_PORTCNT (chapter 14). -/
def Reg.CFG_PORTCNT : Nat := 0x90034
/-- CFG_PORTVIOL (chapter 14). -/
def Reg.CFG_PORTVIOL : Nat := 0x90038
/-- CFG_EVTEN (chapter 14). -/
def Reg.CFG_EVTEN : Nat := 0x9003c
/-- CFG_LASTTAG (chapter 14). -/
def Reg.CFG_LASTTAG (i : Nat) : Nat := 0x90040 + 0x4 * i
/-- CFG_SLVSTAT (chapter 14). -/
def Reg.CFG_SLVSTAT (s : Nat) : Nat := 0x91000 + 0x100 * s
/-- CFG_SLVIO (chapter 14). -/
def Reg.CFG_SLVIO (s : Nat) : Nat := 0x91004 + 0x100 * s
/-- CFG_SLVEVTEN (chapter 14). -/
def Reg.CFG_SLVEVTEN (s : Nat) : Nat := 0x91008 + 0x100 * s
/-- CFG_FPWIN_LO (chapter 14). -/
def Reg.CFG_FPWIN_LO (s : Nat) (k : Nat) : Nat := 0x91010 + 0x100 * s + 0x8 * k
/-- CFG_FPWIN_HI (chapter 14). -/
def Reg.CFG_FPWIN_HI (s : Nat) (k : Nat) : Nat := 0x91014 + 0x100 * s + 0x8 * k
/-- CFG_CUFF (chapter 14). -/
def Reg.CFG_CUFF (s : Nat) (w : Nat) : Nat := 0x91040 + 0x100 * s + 0x4 * w
/-- MNT_STATUS (chapter 15). -/
def Reg.MNT_STATUS : Nat := 0x30000
/-- MNT_CTL (chapter 15). -/
def Reg.MNT_CTL : Nat := 0x30004
/-- MNT_EVTEN (chapter 15). -/
def Reg.MNT_EVTEN : Nat := 0x30008
/-- MNT_SERIAL_LO (chapter 15). -/
def Reg.MNT_SERIAL_LO : Nat := 0x30010
/-- MNT_SERIAL_HI (chapter 15). -/
def Reg.MNT_SERIAL_HI : Nat := 0x30014
/-- MNT_NONCE (chapter 15). -/
def Reg.MNT_NONCE (i : Nat) : Nat := 0x30020 + 0x4 * i
/-- MNT_IDPUB (chapter 15). -/
def Reg.MNT_IDPUB (i : Nat) : Nat := 0x30300 + 0x4 * i
/-- MNT_FWMEAS (chapter 15). -/
def Reg.MNT_FWMEAS (i : Nat) : Nat := 0x30340 + 0x4 * i
/-- MNT_REQ_LO (chapter 15). -/
def Reg.MNT_REQ_LO : Nat := 0x30040
/-- MNT_REQ_HI (chapter 15). -/
def Reg.MNT_REQ_HI : Nat := 0x30044
/-- MNT_REQCTL (chapter 15). -/
def Reg.MNT_REQCTL : Nat := 0x30048
/-- MNT_REQSTAT (chapter 15). -/
def Reg.MNT_REQSTAT : Nat := 0x3004c
/-- MNT_RBADV (chapter 15). -/
def Reg.MNT_RBADV : Nat := 0x30050
/-- MNT_DBGEXP_LO (chapter 15). -/
def Reg.MNT_DBGEXP_LO : Nat := 0x30058
/-- MNT_DBGEXP_HI (chapter 15). -/
def Reg.MNT_DBGEXP_HI : Nat := 0x3005c
/-- MNT_FWINFO (chapter 15). -/
def Reg.MNT_FWINFO : Nat := 0x30360
/-- MNT_SLOTSTAT (chapter 15). -/
def Reg.MNT_SLOTSTAT (j : Nat) : Nat := 0x30100 + 0x40 * j
/-- MNT_SLOTHASH (chapter 15). -/
def Reg.MNT_SLOTHASH (j : Nat) (i : Nat) : Nat := 0x30104 + 0x40 * j + 0x4 * i
/-- MNT_RBCTR (chapter 15). -/
def Reg.MNT_RBCTR (i : Nat) : Nat := 0x30200 + 0x4 * i
/-- MNT_RGN_LO (chapter 15). -/
def Reg.MNT_RGN_LO (r : Nat) : Nat := 0x30400 + 0x10 * r
/-- MNT_RGN_HI (chapter 15). -/
def Reg.MNT_RGN_HI (r : Nat) : Nat := 0x30404 + 0x10 * r
/-- MNT_RGN_CTL (chapter 15). -/
def Reg.MNT_RGN_CTL (r : Nat) : Nat := 0x30408 + 0x10 * r
/-- SL_CTL (chapter 16). -/
def Reg.SL_CTL : Nat := 0xa0000
/-- SL_TSCFG (chapter 16). -/
def Reg.SL_TSCFG : Nat := 0xa0008
/-- SL_TSOFS (chapter 16). -/
def Reg.SL_TSOFS : Nat := 0xa000c
/-- SL_TSDLY (chapter 16). -/
def Reg.SL_TSDLY : Nat := 0xa0010
/-- SL_MSGBASE_LO (chapter 16). -/
def Reg.SL_MSGBASE_LO : Nat := 0xa0020
/-- SL_MSGBASE_HI (chapter 16). -/
def Reg.SL_MSGBASE_HI : Nat := 0xa0024
/-- SL_MSGCFG (chapter 16). -/
def Reg.SL_MSGCFG : Nat := 0xa0028
/-- SL_MSGWR (chapter 16). -/
def Reg.SL_MSGWR : Nat := 0xa002c
/-- SL_MSGRD (chapter 16). -/
def Reg.SL_MSGRD : Nat := 0xa0030
/-- SL_CUE_TLO (chapter 16). -/
def Reg.SL_CUE_TLO : Nat := 0xa0040
/-- SL_CUE_THI (chapter 16). -/
def Reg.SL_CUE_THI : Nat := 0xa0044
/-- SL_CUE_ARG (chapter 16). -/
def Reg.SL_CUE_ARG : Nat := 0xa0048
/-- SL_CUE_GO (chapter 16). -/
def Reg.SL_CUE_GO : Nat := 0xa004c
/-- SL_CUE_RES (chapter 16). -/
def Reg.SL_CUE_RES : Nat := 0xa0050
/-- SL_ATT_LO (chapter 16). -/
def Reg.SL_ATT_LO : Nat := 0xa0060
/-- SL_ATT_HI (chapter 16). -/
def Reg.SL_ATT_HI : Nat := 0xa0064
/-- SL_ATT_CTL (chapter 16). -/
def Reg.SL_ATT_CTL : Nat := 0xa0068
/-- SL_LOST (chapter 16). -/
def Reg.SL_LOST : Nat := 0xa0070
/-- SL_PCTL (chapter 16). -/
def Reg.SL_PCTL (k : Nat) : Nat := 0xa0100 + 0x40 * k
/-- SL_PSTAT (chapter 16). -/
def Reg.SL_PSTAT (k : Nat) : Nat := 0xa0104 + 0x40 * k
/-- SL_PFLAGS (chapter 16). -/
def Reg.SL_PFLAGS (k : Nat) : Nat := 0xa0108 + 0x40 * k
/-- SL_PEVTEN (chapter 16). -/
def Reg.SL_PEVTEN (k : Nat) : Nat := 0xa010c + 0x40 * k
/-- SL_PVIOL (chapter 16). -/
def Reg.SL_PVIOL (k : Nat) : Nat := 0xa0110 + 0x40 * k
/-- SL_PVIOLCFG (chapter 16). -/
def Reg.SL_PVIOLCFG (k : Nat) : Nat := 0xa0114 + 0x40 * k
/-- SL_PCNT (chapter 16). -/
def Reg.SL_PCNT (k : Nat) : Nat := 0xa0118 + 0x40 * k
/-- SL_WIN_LO (chapter 16). -/
def Reg.SL_WIN_LO (w : Nat) : Nat := 0xa1000 + 0x10 * w
/-- SL_WIN_HI (chapter 16). -/
def Reg.SL_WIN_HI (w : Nat) : Nat := 0xa1004 + 0x10 * w
/-- SL_WIN_CTL (chapter 16). -/
def Reg.SL_WIN_CTL (w : Nat) : Nat := 0xa1008 + 0x10 * w
/-- SL_IN_LO (chapter 16). -/
def Reg.SL_IN_LO (i : Nat) : Nat := 0xa1400 + 0x10 * i
/-- SL_IN_HI (chapter 16). -/
def Reg.SL_IN_HI (i : Nat) : Nat := 0xa1404 + 0x10 * i
/-- SL_IN_CTL (chapter 16). -/
def Reg.SL_IN_CTL (i : Nat) : Nat := 0xa1408 + 0x10 * i
/-- SL_MCAST (chapter 16). -/
def Reg.SL_MCAST (g : Nat) : Nat := 0xa1800 + 0x4 * g
/-- SL_ROUTE (chapter 16). -/
def Reg.SL_ROUTE (d : Nat) : Nat := 0xa4000 + 0x4 * d
/-- CAL_CTL (chapter 17). -/
def Reg.CAL_CTL : Nat := 0x40000
/-- CAL_WAIT (chapter 17). -/
def Reg.CAL_WAIT : Nat := 0x40004
/-- CAL_STAT (chapter 17). -/
def Reg.CAL_STAT : Nat := 0x40008
/-- CAL_TEMP (chapter 17). -/
def Reg.CAL_TEMP (i : Nat) : Nat := 0x40010 + 0x4 * i
/-- CAL_EVTEN (chapter 17). -/
def Reg.CAL_EVTEN : Nat := 0x40040
/-- CAL_TCTL (chapter 17). -/
def Reg.CAL_TCTL (t : Nat) : Nat := 0x41000 + 0x100 * t
/-- CAL_TSTAT (chapter 17). -/
def Reg.CAL_TSTAT (t : Nat) : Nat := 0x41004 + 0x100 * t
/-- CAL_COEF_MG (chapter 17). -/
def Reg.CAL_COEF_MG (t : Nat) (m : Nat) : Nat := 0x41010 + 0x100 * t + 0x10 * m
/-- CAL_COEF_MO (chapter 17). -/
def Reg.CAL_COEF_MO (t : Nat) (m : Nat) : Nat := 0x41014 + 0x100 * t + 0x10 * m
/-- CAL_COEF_ML (chapter 17). -/
def Reg.CAL_COEF_ML (t : Nat) (m : Nat) : Nat := 0x41018 + 0x100 * t + 0x10 * m
/-- CAL_COEF_DG (chapter 17). -/
def Reg.CAL_COEF_DG (t : Nat) (r : Nat) : Nat := 0x41040 + 0x100 * t + 0x10 * r
/-- CAL_COEF_DP (chapter 17). -/
def Reg.CAL_COEF_DP (t : Nat) (r : Nat) (j : Nat) : Nat := 0x41044 + 0x100 * t + 0x10 * r + 0x4 * j
/-- CAL_COEF_CO (chapter 17). -/
def Reg.CAL_COEF_CO (t : Nat) (k : Nat) : Nat := 0x41080 + 0x100 * t + 0x4 * k
/-- CAL_PGAG (chapter 17). -/
def Reg.CAL_PGAG (t : Nat) (i : Nat) : Nat := 0x41090 + 0x100 * t + 0x4 * i
/-- LIO_DATA (chapter 18). -/
def Reg.LIO_DATA (b : Nat) : Nat := 0x50000 + 0x10 * b
/-- LIO_SET (chapter 18). -/
def Reg.LIO_SET (b : Nat) : Nat := 0x50004 + 0x10 * b
/-- LIO_CLR (chapter 18). -/
def Reg.LIO_CLR (b : Nat) : Nat := 0x50008 + 0x10 * b
/-- LIO_TGL (chapter 18). -/
def Reg.LIO_TGL (b : Nat) : Nat := 0x5000c + 0x10 * b
/-- LIO_IN (chapter 18). -/
def Reg.LIO_IN (b : Nat) : Nat := 0x50080 + 0x4 * b
/-- LIO_BANKSTAT (chapter 18). -/
def Reg.LIO_BANKSTAT (b : Nat) : Nat := 0x500a0 + 0x4 * b
/-- LIO_CONFLICT (chapter 18). -/
def Reg.LIO_CONFLICT : Nat := 0x500c0
/-- LIO_FLAGS (chapter 18). -/
def Reg.LIO_FLAGS : Nat := 0x500c4
/-- LIO_CFG (chapter 18). -/
def Reg.LIO_CFG (n : Nat) : Nat := 0x51000 + 0x4 * n
/-- LIO_OWNER (chapter 18). -/
def Reg.LIO_OWNER (n : Nat) : Nat := 0x51400 + 0x4 * n
/-- LIO_UCTL (chapter 18). -/
def Reg.LIO_UCTL (u : Nat) : Nat := 0x58000 + 0x40 * u
/-- LIO_UDATA (chapter 18). -/
def Reg.LIO_UDATA (u : Nat) : Nat := 0x58004 + 0x40 * u
/-- LIO_USTAT (chapter 18). -/
def Reg.LIO_USTAT (u : Nat) : Nat := 0x58008 + 0x40 * u
/-- LIO_SCTL (chapter 18). -/
def Reg.LIO_SCTL (s : Nat) : Nat := 0x58200 + 0x40 * s
/-- LIO_SDATA (chapter 18). -/
def Reg.LIO_SDATA (s : Nat) : Nat := 0x58204 + 0x40 * s
/-- LIO_SSTAT (chapter 18). -/
def Reg.LIO_SSTAT (s : Nat) : Nat := 0x58208 + 0x40 * s
/-- LIO_ICTL (chapter 18). -/
def Reg.LIO_ICTL (i : Nat) : Nat := 0x58300 + 0x40 * i
/-- LIO_IXFER (chapter 18). -/
def Reg.LIO_IXFER (i : Nat) : Nat := 0x58304 + 0x40 * i
/-- LIO_IDATA (chapter 18). -/
def Reg.LIO_IDATA (i : Nat) : Nat := 0x58308 + 0x40 * i
/-- LIO_ISTAT (chapter 18). -/
def Reg.LIO_ISTAT (i : Nat) : Nat := 0x5830c + 0x40 * i
/-- EVT_CTL (chapter 19). -/
def Reg.EVT_CTL : Nat := 0x10000
/-- EVT_STAT (chapter 19). -/
def Reg.EVT_STAT : Nat := 0x10004
/-- EVT_RAISECNT (chapter 19). -/
def Reg.EVT_RAISECNT : Nat := 0x10008
/-- EVT_SWRAISE (chapter 19). -/
def Reg.EVT_SWRAISE : Nat := 0x1000c
/-- EVT_MONSUP (chapter 19). -/
def Reg.EVT_MONSUP : Nat := 0x10020
/-- EVT_MONTEMP (chapter 19). -/
def Reg.EVT_MONTEMP : Nat := 0x10024
/-- EVT_TEMPLIM (chapter 19). -/
def Reg.EVT_TEMPLIM : Nat := 0x10028
/-- EVT_MONEVTEN (chapter 19). -/
def Reg.EVT_MONEVTEN : Nat := 0x1002c
/-- EVT_PEND (chapter 19). -/
def Reg.EVT_PEND (i : Nat) : Nat := 0x10100 + 0x4 * i
/-- EVT_ROUTE (chapter 19). -/
def Reg.EVT_ROUTE (e : Nat) : Nat := 0x11000 + 0x4 * e
/-- JRN_STAT (chapter 20). -/
def Reg.JRN_STAT : Nat := 0x20000
/-- JRN_CTL (chapter 20). -/
def Reg.JRN_CTL : Nat := 0x20004
/-- JRN_STARTCNT (chapter 20). -/
def Reg.JRN_STARTCNT : Nat := 0x20008
/-- JRN_FAILMASK (chapter 20). -/
def Reg.JRN_FAILMASK : Nat := 0x2000c
/-- JRN_FLWR (chapter 20). -/
def Reg.JRN_FLWR : Nat := 0x20010
/-- JRN_STEP (chapter 20). -/
def Reg.JRN_STEP (n : Nat) : Nat := 0x20040 + 0x4 * n

/-! ### Fields -/

def F.SYS_DEVID_VendorCode : Fld := ⟨24, 8⟩
def F.SYS_DEVID_FamilyCode : Fld := ⟨16, 8⟩
def F.SYS_DEVID_Member : Fld := ⟨8, 8⟩
def F.SYS_DEVID_StepMajor : Fld := ⟨4, 4⟩
def F.SYS_DEVID_StepMinor : Fld := ⟨0, 4⟩
def F.SYS_FEATURE_SeamPorts : Fld := ⟨28, 4⟩
def F.SYS_FEATURE_MemChannels : Fld := ⟨24, 4⟩
def F.SYS_FEATURE_PcieWidthLog2 : Fld := ⟨20, 4⟩
def F.SYS_FEATURE_Sleeves : Fld := ⟨8, 8⟩
def F.SYS_FEATURE_Clusters : Fld := ⟨4, 4⟩
def F.SYS_FEATURE_Panels : Fld := ⟨0, 4⟩
def F.SYS_CLK_CTL_Select : Fld := ⟨0, 1⟩
def F.SYS_CLK_CTL_AutoSwitch : Fld := ⟨1, 1⟩
def F.SYS_CLK_CTL_Release : Fld := ⟨2, 1⟩
def F.SYS_CLK_STATUS_Active : Fld := ⟨0, 1⟩
def F.SYS_CLK_STATUS_XtalAValid : Fld := ⟨1, 1⟩
def F.SYS_CLK_STATUS_XtalBValid : Fld := ⟨2, 1⟩
def F.SYS_CLK_STATUS_Holdover : Fld := ⟨3, 1⟩
def F.SYS_CLK_STATUS_Switching : Fld := ⟨4, 1⟩
def F.SYS_CLK_STATUS_PllLocked : Fld := ⟨5, 1⟩
def F.SYS_CLK_STATUS_ClockLost : Fld := ⟨6, 1⟩
def F.SYS_CLK_STATUS_LoopBw : Fld := ⟨7, 1⟩
def F.SYS_CLK_FAULT_XtalALoss : Fld := ⟨0, 1⟩
def F.SYS_CLK_FAULT_XtalBLoss : Fld := ⟨1, 1⟩
def F.SYS_CLK_FAULT_Switched : Fld := ⟨2, 1⟩
def F.SYS_CLK_FAULT_HoldoverExpired : Fld := ⟨3, 1⟩
def F.SYS_CLK_FAULT_SwitchRefused : Fld := ⟨4, 1⟩
def F.SYS_CLK_FAULT_PllUnlock : Fld := ⟨5, 1⟩
def F.SYS_XTAL_MON_StandbyOffset : Fld := ⟨0, 16⟩
def F.SYS_LT_LO_LineTime : Fld := ⟨0, 32⟩
def F.SYS_LT_HI_LineTime : Fld := ⟨0, 32⟩
def F.SYS_LT_LOAD_LO_LoadValue : Fld := ⟨0, 32⟩
def F.SYS_LT_LOAD_HI_LoadValue : Fld := ⟨0, 32⟩
def F.SYS_LT_CTL_Mode : Fld := ⟨0, 2⟩
def F.SYS_LT_CTL_Load : Fld := ⟨2, 1⟩
def F.SYS_LT_CTL_SlewLimit : Fld := ⟨4, 4⟩
def F.SYS_LT_RATE_Rate : Fld := ⟨0, 32⟩
def F.SYS_LT_ADJ_Adjust : Fld := ⟨0, 32⟩
def F.SYS_LT_PENDING_Pending : Fld := ⟨0, 32⟩
def F.SYS_LT_STATUS_Aligned : Fld := ⟨0, 1⟩
def F.SYS_LT_STATUS_LoadRefused : Fld := ⟨1, 1⟩
def F.SYS_LT_STATUS_Slewing : Fld := ⟨2, 1⟩
def F.SYS_LT_STATUS_MasterOffset : Fld := ⟨8, 8⟩
def F.CQ_STATUS_LtArmed : Fld := ⟨0, 16⟩
def F.CQ_STATUS_ArmedTotal : Fld := ⟨16, 16⟩
def F.CQ_LATENCY_PathTicks : Fld := ⟨0, 8⟩
def F.CQ_TSEL_Source : Fld := ⟨0, 11⟩
def F.CQ_TSEL_Edge : Fld := ⟨11, 2⟩
def F.CQ_TCTL_Mode : Fld := ⟨0, 2⟩
def F.CQ_TCTL_LatePolicy : Fld := ⟨2, 1⟩
def F.CQ_TCTL_SrcAction : Fld := ⟨3, 2⟩
def F.CQ_SRCDLY_SrcDelay : Fld := ⟨0, 24⟩
def F.CQ_TSTAT_SlotBusy : Fld := ⟨0, 4⟩
def F.CQ_TSTAT_LateArm : Fld := ⟨4, 1⟩
def F.CQ_TSTAT_ArmRefused : Fld := ⟨5, 1⟩
def F.CQ_TSTAT_SourceOverrun : Fld := ⟨6, 1⟩
def F.CQ_TSTAT_NotOwner : Fld := ⟨7, 1⟩
def F.CQ_TSTAT_DisarmLate : Fld := ⟨8, 1⟩
def F.CQ_ARM_VLO_Value : Fld := ⟨0, 32⟩
def F.CQ_ARM_VHI_Value : Fld := ⟨0, 32⟩
def F.CQ_ARM_DLY_Delay : Fld := ⟨0, 24⟩
def F.CQ_ARM_CTL_Cond : Fld := ⟨0, 1⟩
def F.CQ_ARM_CTL_Encoder : Fld := ⟨1, 5⟩
def F.CQ_ARM_CTL_Dir : Fld := ⟨6, 2⟩
def F.CQ_ARM_CTL_Action : Fld := ⟨8, 2⟩
def F.CQ_ARM_CTL_Go : Fld := ⟨31, 1⟩
def F.CQ_SLOT_State : Fld := ⟨0, 2⟩
def F.CQ_SLOT_Cond : Fld := ⟨2, 1⟩
def F.CQ_SLOT_Encoder : Fld := ⟨3, 5⟩
def F.CQ_SLOT_Dir : Fld := ⟨8, 2⟩
def F.CQ_SLOT_Action : Fld := ⟨10, 2⟩
def F.CQ_SLOT_ArmedBy : Fld := ⟨12, 2⟩
def F.CQ_DISARM_Slots : Fld := ⟨0, 4⟩
def F.CQ_MERGE_MergeCount : Fld := ⟨0, 16⟩
def F.CQ_CAPCTL_Encoder : Fld := ⟨0, 5⟩
def F.CQ_CAPCTL_PosEnable : Fld := ⟨5, 1⟩
def F.CQ_CAPCTL_ReadyEvent : Fld := ⟨6, 1⟩
def F.CQ_CAPSTAT_Level : Fld := ⟨0, 3⟩
def F.CQ_CAPSTAT_Overflow : Fld := ⟨3, 1⟩
def F.CQ_CAP_TLO_Stamp : Fld := ⟨0, 32⟩
def F.CQ_CAP_THI_Stamp : Fld := ⟨0, 32⟩
def F.CQ_CAP_FRAC_Eighths : Fld := ⟨0, 3⟩
def F.CQ_CAP_FRAC_SourceNum : Fld := ⟨16, 11⟩
def F.CQ_CAP_PLO_Position : Fld := ⟨0, 32⟩
def F.CQ_CAP_PHI_Position : Fld := ⟨0, 8⟩
def F.CQ_CAP_POP_Pop : Fld := ⟨0, 1⟩
def F.CQ_FSEL_Source : Fld := ⟨0, 11⟩
def F.CQ_FSEL_Edge : Fld := ⟨11, 2⟩
def F.ENC_CTL_Enable : Fld := ⟨0, 1⟩
def F.ENC_CTL_Invert : Fld := ⟨1, 1⟩
def F.ENC_CTL_IndexEnable : Fld := ⟨2, 1⟩
def F.ENC_CTL_IndexLoad : Fld := ⟨3, 1⟩
def F.ENC_CTL_FilterTicks : Fld := ⟨4, 4⟩
def F.ENC_CTL_PeriodSpan : Fld := ⟨8, 2⟩
def F.ENC_CTL_Load : Fld := ⟨10, 1⟩
def F.ENC_PINS_PinA : Fld := ⟨0, 8⟩
def F.ENC_PINS_PinB : Fld := ⟨8, 8⟩
def F.ENC_PINS_PinZ : Fld := ⟨16, 8⟩
def F.ENC_STATUS_Dir : Fld := ⟨0, 1⟩
def F.ENC_STATUS_PeriodValid : Fld := ⟨1, 1⟩
def F.ENC_STATUS_Stopped : Fld := ⟨2, 1⟩
def F.ENC_STATUS_Illegal : Fld := ⟨3, 1⟩
def F.ENC_STATUS_Overspeed : Fld := ⟨4, 1⟩
def F.ENC_STATUS_Index : Fld := ⟨5, 1⟩
def F.ENC_STATUS_ConfigRefused : Fld := ⟨6, 1⟩
def F.ENC_STATUS_MatchLag : Fld := ⟨7, 1⟩
def F.ENC_STATUS_AbState : Fld := ⟨8, 2⟩
def F.ENC_POS_LO_Position : Fld := ⟨0, 32⟩
def F.ENC_POS_HI_Position : Fld := ⟨0, 8⟩
def F.ENC_PERIOD_Period : Fld := ⟨0, 32⟩
def F.ENC_LOAD_LoadCount : Fld := ⟨0, 32⟩
def F.ENC_IDXCAP_IndexCount : Fld := ⟨0, 32⟩
def F.ENC_ERRCNT_IllegalCount : Fld := ⟨0, 16⟩
def F.ENC_ERRT_LO_ErrTime : Fld := ⟨0, 32⟩
def F.ENC_ERRT_HI_ErrTime : Fld := ⟨0, 32⟩
def F.ENC_MCTL_Enable : Fld := ⟨0, 1⟩
def F.ENC_MCTL_Dir : Fld := ⟨1, 2⟩
def F.ENC_MCTL_Repeat : Fld := ⟨3, 1⟩
def F.ENC_MVAL_LO_MatchValue : Fld := ⟨0, 32⟩
def F.ENC_MVAL_HI_MatchValue : Fld := ⟨0, 8⟩
def F.ENC_MSTEP_Step : Fld := ⟨0, 32⟩
def F.PG_CTL_Mode : Fld := ⟨0, 2⟩
def F.PG_CTL_Enable : Fld := ⟨2, 1⟩
def F.PG_CTL_Retrigger : Fld := ⟨3, 2⟩
def F.PG_CTL_Follow : Fld := ⟨5, 1⟩
def F.PG_CTL_IdleLevel : Fld := ⟨6, 1⟩
def F.PG_CTL_DoneEvent : Fld := ⟨7, 1⟩
def F.PG_CTL_LedgerReport : Fld := ⟨8, 1⟩
def F.PG_STAT_Running : Fld := ⟨0, 1⟩
def F.PG_STAT_Tripped : Fld := ⟨1, 1⟩
def F.PG_STAT_Held : Fld := ⟨2, 1⟩
def F.PG_STAT_Pending : Fld := ⟨3, 1⟩
def F.PG_STAT_ActiveBank : Fld := ⟨4, 1⟩
def F.PG_STAT_TripSeen : Fld := ⟨8, 1⟩
def F.PG_STAT_StartBlocked : Fld := ⟨9, 1⟩
def F.PG_STAT_StartIgnored : Fld := ⟨10, 1⟩
def F.PG_STAT_StartOverrun : Fld := ⟨11, 1⟩
def F.PG_STAT_StartError : Fld := ⟨12, 1⟩
def F.PG_STAT_WriteRefused : Fld := ⟨13, 1⟩
def F.PG_STAT_Done : Fld := ⟨14, 1⟩
def F.PG_STAT_Chained : Fld := ⟨15, 1⟩
def F.PG_LEAD_Ticks : Fld := ⟨0, 24⟩
def F.PG_WIDTH_Ticks : Fld := ⟨0, 24⟩
def F.PG_PERIOD_Period : Fld := ⟨0, 32⟩
def F.PG_COUNT_Count : Fld := ⟨0, 24⟩
def F.PG_DONECNT_Begun : Fld := ⟨0, 24⟩
def F.PG_OUT_Pin : Fld := ⟨0, 8⟩
def F.PG_OUT_PinEnable : Fld := ⟨8, 1⟩
def F.PG_TRIP_Comparator : Fld := ⟨0, 6⟩
def F.PG_TRIP_Polarity : Fld := ⟨6, 1⟩
def F.PG_TRIP_TripEnable : Fld := ⟨7, 1⟩
def F.PG_TRIPCTL_Policy : Fld := ⟨0, 2⟩
def F.PG_TRIPCTL_TripLevel : Fld := ⟨2, 1⟩
def F.PG_TRIPCTL_ReleaseTicks : Fld := ⟨8, 8⟩
def F.PG_CMD_Start : Fld := ⟨0, 1⟩
def F.PG_CMD_Stop : Fld := ⟨1, 1⟩
def F.PG_CMD_Abort : Fld := ⟨2, 1⟩
def F.PG_CMD_Rearm : Fld := ⟨3, 1⟩
def F.PG_SEQSEL_NextBank : Fld := ⟨0, 1⟩
def F.PG_SEQ_Offset : Fld := ⟨0, 20⟩
def F.PG_SEQ_Level : Fld := ⟨20, 1⟩
def F.PG_SEQ_Last : Fld := ⟨31, 1⟩
def F.AT_PWR_Bias : Fld := ⟨0, 1⟩
def F.AT_PWR_Pga0En : Fld := ⟨1, 1⟩
def F.AT_PWR_Pga1En : Fld := ⟨2, 1⟩
def F.AT_PWR_BqEn : Fld := ⟨3, 1⟩
def F.AT_PWR_Mod0En : Fld := ⟨4, 1⟩
def F.AT_PWR_Mod1En : Fld := ⟨5, 1⟩
def F.AT_STAT_BiasReady : Fld := ⟨0, 1⟩
def F.AT_STAT_CalBusy : Fld := ⟨1, 1⟩
def F.AT_STAT_WritePending : Fld := ⟨2, 1⟩
def F.AT_STAT_PgaClip0 : Fld := ⟨8, 1⟩
def F.AT_STAT_PgaClip1 : Fld := ⟨9, 1⟩
def F.AT_STAT_BqClip : Fld := ⟨10, 1⟩
def F.AT_STAT_ModOver0 : Fld := ⟨11, 1⟩
def F.AT_STAT_ModOver1 : Fld := ⟨12, 1⟩
def F.AT_STAT_WriteRefused : Fld := ⟨13, 1⟩
def F.AT_STAT_BusConflict : Fld := ⟨14, 1⟩
def F.AT_SEL_Pga0Sel : Fld := ⟨0, 4⟩
def F.AT_SEL_Pga1Sel : Fld := ⟨4, 4⟩
def F.AT_SEL_BqSel : Fld := ⟨8, 4⟩
def F.AT_SEL_Mod0Sel : Fld := ⟨12, 4⟩
def F.AT_SEL_Mod1Sel : Fld := ⟨16, 4⟩
def F.AT_SEL_Pair0Sel : Fld := ⟨20, 4⟩
def F.AT_SEL_Pair1Sel : Fld := ⟨24, 4⟩
def F.AT_SEL_ExportSel : Fld := ⟨28, 4⟩
def F.AT_BUSDRV_Bus0Drive : Fld := ⟨0, 1⟩
def F.AT_BUSDRV_Bus1Drive : Fld := ⟨1, 1⟩
def F.AT_BUSDRV_Bus0Src : Fld := ⟨4, 4⟩
def F.AT_BUSDRV_Bus1Src : Fld := ⟨8, 4⟩
def F.AT_PBUSSTAT_Bus0Owned : Fld := ⟨0, 1⟩
def F.AT_PBUSSTAT_Bus0Owner : Fld := ⟨4, 4⟩
def F.AT_PBUSSTAT_Bus1Owned : Fld := ⟨8, 1⟩
def F.AT_PBUSSTAT_Bus1Owner : Fld := ⟨12, 4⟩
def F.AT_PGA_Gain0 : Fld := ⟨0, 4⟩
def F.AT_PGA_Gain1 : Fld := ⟨4, 4⟩
def F.AT_BQ_Type : Fld := ⟨0, 2⟩
def F.AT_BQ_Div : Fld := ⟨2, 4⟩
def F.AT_BQ_QCode : Fld := ⟨6, 4⟩
def F.AT_BQ_FreqCode : Fld := ⟨10, 13⟩
def F.AT_EVTEN_FlagEvent : Fld := ⟨8, 7⟩
def F.AT_CMPCTL_Enable : Fld := ⟨0, 1⟩
def F.AT_CMPCTL_InitState : Fld := ⟨1, 1⟩
def F.AT_CMPCTL_Hyst : Fld := ⟨2, 3⟩
def F.AT_CMPCTL_Range : Fld := ⟨5, 1⟩
def F.AT_CMPCTL_SampleDiv : Fld := ⟨6, 4⟩
def F.AT_CMPCTL_Phase : Fld := ⟨10, 12⟩
def F.AT_CMPTH_Threshold : Fld := ⟨0, 12⟩
def F.AT_CMPSTAT_Level : Fld := ⟨0, 1⟩
def F.AT_CMPSTAT_Held : Fld := ⟨1, 1⟩
def F.AT_CMPSTAT_Deciding : Fld := ⟨2, 1⟩
def F.AT_CMPSTAT_RiseCount : Fld := ⟨16, 16⟩
def F.AT_PAIRCTL_Window : Fld := ⟨0, 1⟩
def F.AT_DACCTL_Range : Fld := ⟨0, 2⟩
def F.AT_DACCTL_Source : Fld := ⟨2, 1⟩
def F.AT_DACCTL_OutMode : Fld := ⟨3, 2⟩
def F.AT_DACCTL_LedgerReport : Fld := ⟨5, 1⟩
def F.AT_DACCTL_Head : Fld := ⟨6, 5⟩
def F.AT_DACSTAT_Playing : Fld := ⟨0, 1⟩
def F.AT_DACSTAT_Clearing : Fld := ⟨1, 1⟩
def F.AT_DACSTAT_HoldingClear : Fld := ⟨2, 1⟩
def F.AT_DACSTAT_RangeBusy : Fld := ⟨3, 1⟩
def F.AT_DACSTAT_RangePending : Fld := ⟨4, 1⟩
def F.AT_DACSTAT_ActiveBank : Fld := ⟨5, 1⟩
def F.AT_DACSTAT_SwapPending : Fld := ⟨6, 1⟩
def F.AT_DACSTAT_Fading : Fld := ⟨7, 1⟩
def F.AT_DACSTAT_Driving : Fld := ⟨8, 1⟩
def F.AT_DACSTAT_SupActive : Fld := ⟨9, 1⟩
def F.AT_DACSTAT_StartOverlap : Fld := ⟨16, 1⟩
def F.AT_DACSTAT_StartCleared : Fld := ⟨17, 1⟩
def F.AT_DACSTAT_StartIgnored : Fld := ⟨18, 1⟩
def F.AT_DACSTAT_ProgError : Fld := ⟨19, 1⟩
def F.AT_DACSTAT_SwapOverrun : Fld := ⟨20, 1⟩
def F.AT_DACSTAT_DacWriteRefused : Fld := ⟨21, 1⟩
def F.AT_DACSTAT_Saturated : Fld := ⟨22, 1⟩
def F.AT_DACSTAT_Short : Fld := ⟨23, 1⟩
def F.AT_DACSTAT_SupFault : Fld := ⟨24, 1⟩
def F.AT_DACSTAT_Takeover : Fld := ⟨25, 1⟩
def F.AT_DACSTAT_StartInHold : Fld := ⟨26, 1⟩
def F.AT_DACSTAT_SwapDone : Fld := ⟨27, 1⟩
def F.AT_DACCODE_Code : Fld := ⟨0, 16⟩
def F.AT_CLRCODE_ClearCode : Fld := ⟨0, 16⟩
def F.AT_PALCTL_Swap : Fld := ⟨0, 1⟩
def F.AT_PALCTL_Target : Fld := ⟨1, 1⟩
def F.AT_PALCTL_Fade : Fld := ⟨2, 11⟩
def F.AT_DACPOS_Segment : Fld := ⟨0, 4⟩
def F.AT_DACPOS_SampleIndex : Fld := ⟨4, 18⟩
def F.AT_SUPCTL_SupEnable : Fld := ⟨0, 1⟩
def F.AT_SUPCTL_SupTol : Fld := ⟨1, 8⟩
def F.AT_SUPCTL_SupCount : Fld := ⟨9, 4⟩
def F.AT_SUPCTL_SupDelay : Fld := ⟨13, 5⟩
def F.AT_SUPCTL_ShortQual : Fld := ⟨18, 4⟩
def F.AT_SUPSTAT_LastDiff : Fld := ⟨0, 16⟩
def F.AT_SUPSTAT_PeakDiff : Fld := ⟨16, 16⟩
def F.AT_TWIN_TwinEnable : Fld := ⟨0, 1⟩
def F.AT_TWIN_Partner : Fld := ⟨1, 4⟩
def F.AT_TWIN_Role : Fld := ⟨5, 1⟩
def F.AT_TWIN_Handover : Fld := ⟨6, 1⟩
def F.AT_TWIN_TwinArmed : Fld := ⟨7, 1⟩
def F.AT_TWIN_TwinFailed : Fld := ⟨8, 1⟩
def F.AT_DACEVTEN_FlagEvent : Fld := ⟨0, 12⟩
def F.AT_PROG_SegCount : Fld := ⟨0, 5⟩
def F.AT_PROG_RestCode : Fld := ⟨16, 16⟩
def F.AT_SLOTPOS_Start : Fld := ⟨0, 14⟩
def F.AT_SLOTPOS_Length : Fld := ⟨16, 15⟩
def F.AT_SLOTCOEF_Gain : Fld := ⟨0, 16⟩
def F.AT_SLOTCOEF_Offset : Fld := ⟨16, 16⟩
def F.DCE_PSTAT_BufLevel : Fld := ⟨0, 9⟩
def F.DCE_PSTAT_BufOverrun : Fld := ⟨16, 1⟩
def F.DCE_GDELAY_DelayTicks : Fld := ⟨0, 20⟩
def F.DCE_SETTLE_SettleConv : Fld := ⟨0, 17⟩
def F.DCE_FIRROM_Coef : Fld := ⟨0, 18⟩
def F.DCE_CHCTL_Enable : Fld := ⟨0, 1⟩
def F.DCE_CHCTL_Preset : Fld := ⟨1, 3⟩
def F.DCE_CHCTL_Format : Fld := ⟨4, 1⟩
def F.DCE_CHCTL_GateMode : Fld := ⟨5, 2⟩
def F.DCE_CHCTL_SettleOnGate : Fld := ⟨7, 1⟩
def F.DCE_CHCTL_Restart : Fld := ⟨8, 1⟩
def F.DCE_GATE_GateSel : Fld := ⟨0, 6⟩
def F.DCE_GATE_GateDelay : Fld := ⟨8, 10⟩
def F.DCE_RINGBASE_LO_RingBase : Fld := ⟨0, 32⟩
def F.DCE_RINGBASE_HI_RingBase : Fld := ⟨0, 16⟩
def F.DCE_RINGCFG_SizeLog2 : Fld := ⟨0, 5⟩
def F.DCE_WRIDX_WrIdx : Fld := ⟨0, 32⟩
def F.DCE_RDIDX_RdIdx : Fld := ⟨0, 32⟩
def F.DCE_TH_Level : Fld := ⟨0, 24⟩
def F.DCE_TH_Dir : Fld := ⟨24, 1⟩
def F.DCE_TH_Qual : Fld := ⟨25, 4⟩
def F.DCE_TH_ThEnable : Fld := ⟨29, 1⟩
def F.DCE_THF_Level : Fld := ⟨0, 8⟩
def F.DCE_THF_Dir : Fld := ⟨8, 1⟩
def F.DCE_THF_Qual : Fld := ⟨9, 4⟩
def F.DCE_THF_ThEnable : Fld := ⟨13, 1⟩
def F.DCE_CHSTAT_Th0State : Fld := ⟨0, 1⟩
def F.DCE_CHSTAT_Th1State : Fld := ⟨1, 1⟩
def F.DCE_CHSTAT_ThFState : Fld := ⟨2, 1⟩
def F.DCE_CHSTAT_Settling : Fld := ⟨3, 1⟩
def F.DCE_CHSTAT_FastValid : Fld := ⟨4, 1⟩
def F.DCE_CHSTAT_Th0Hit : Fld := ⟨8, 1⟩
def F.DCE_CHSTAT_Th1Hit : Fld := ⟨9, 1⟩
def F.DCE_CHSTAT_ThFHit : Fld := ⟨10, 1⟩
def F.DCE_CHSTAT_WindowDone : Fld := ⟨11, 1⟩
def F.DCE_CHSTAT_RingOverrun : Fld := ⟨12, 1⟩
def F.DCE_CHSTAT_WriteRefused : Fld := ⟨13, 1⟩
def F.DCE_CHSTAT_ConfigRefused : Fld := ⟨14, 1⟩
def F.DCE_CHSTAT_Clipped : Fld := ⟨15, 1⟩
def F.DCE_CHEVTEN_FlagEvent : Fld := ⟨8, 8⟩
def F.DCE_LASTVAL_Word0 : Fld := ⟨0, 32⟩
def F.DCE_LAST_TLO_Stamp : Fld := ⟨0, 32⟩
def F.DCE_LAST_THI_Stamp : Fld := ⟨0, 32⟩
def F.DCE_FAST_FastSum : Fld := ⟨0, 8⟩
def F.DCE_FAST_FastValid : Fld := ⟨8, 1⟩
def F.DCE_OVRCNT_OvrCount : Fld := ⟨0, 16⟩
def F.DCE_WINLAST_WinSeq : Fld := ⟨0, 16⟩
def F.DCE_WINLAST_Records : Fld := ⟨16, 16⟩
def F.HD_CTL_Enable : Fld := ⟨0, 1⟩
def F.HD_CTL_Source : Fld := ⟨1, 1⟩
def F.HD_CTL_LatchPg : Fld := ⟨2, 4⟩
def F.HD_CTL_AuxEnable : Fld := ⟨6, 1⟩
def F.HD_CTL_AuxPolarity : Fld := ⟨7, 1⟩
def F.HD_CTL_AuxPin : Fld := ⟨8, 8⟩
def F.HD_CTL_LedgerReport : Fld := ⟨16, 1⟩
def F.HD_PROF0_Lanes : Fld := ⟨0, 2⟩
def F.HD_PROF0_BitsM1 : Fld := ⟨2, 2⟩
def F.HD_PROF0_BitOrder : Fld := ⟨4, 1⟩
def F.HD_PROF0_NozzleOrder : Fld := ⟨5, 1⟩
def F.HD_PROF0_LaneMap : Fld := ⟨6, 1⟩
def F.HD_PROF0_RateDiv : Fld := ⟨7, 2⟩
def F.HD_PROF0_ClockMode : Fld := ⟨9, 1⟩
def F.HD_PROF1_Nozzles : Fld := ⟨0, 13⟩
def F.HD_PROF1_ShiftDelay : Fld := ⟨16, 16⟩
def F.HD_PROF2_SenseChannels : Fld := ⟨0, 2⟩
def F.HD_PROF2_SenseSplit : Fld := ⟨2, 1⟩
def F.HD_PROF2_SelLane : Fld := ⟨3, 2⟩
def F.HD_PROF2_AuditValue : Fld := ⟨8, 4⟩
def F.HD_STAT_BandCurrent : Fld := ⟨0, 1⟩
def F.HD_STAT_Underrun : Fld := ⟨8, 1⟩
def F.HD_STAT_EmptyCycle : Fld := ⟨9, 1⟩
def F.HD_STAT_StartMissed : Fld := ⟨10, 1⟩
def F.HD_STAT_BandFault : Fld := ⟨11, 1⟩
def F.HD_STAT_ShiftOverrun : Fld := ⟨12, 1⟩
def F.HD_STAT_ProfileRefused : Fld := ⟨13, 1⟩
def F.HD_STAT_NmapRefused : Fld := ⟨14, 1⟩
def F.HD_STAT_NmapStale : Fld := ⟨15, 1⟩
def F.HD_STAT_PcsFull : Fld := ⟨16, 1⟩
def F.HD_STAT_PlanOverrun : Fld := ⟨17, 1⟩
def F.HD_STAT_PrioOverrun : Fld := ⟨18, 1⟩
def F.HD_STAT_NoRecord : Fld := ⟨19, 1⟩
def F.HD_BANDBASE_LO_BandBase : Fld := ⟨0, 32⟩
def F.HD_BANDBASE_HI_BandBase : Fld := ⟨0, 16⟩
def F.HD_BANDCFG_SizeLog2 : Fld := ⟨0, 4⟩
def F.HD_NEXTSEQ_NextSeq : Fld := ⟨0, 32⟩
def F.HD_BANDPOS_Cycle : Fld := ⟨0, 16⟩
def F.HD_CURTAG_Tag : Fld := ⟨0, 32⟩
def F.HD_CYCLES_Edges : Fld := ⟨0, 32⟩
def F.HD_PLANBASE_LO_PlanBase : Fld := ⟨0, 32⟩
def F.HD_PLANBASE_HI_PlanBase : Fld := ⟨0, 16⟩
def F.HD_PLANCFG_SizeLog2 : Fld := ⟨0, 5⟩
def F.HD_PLANWR_Index : Fld := ⟨0, 32⟩
def F.HD_PLANRD_Index : Fld := ⟨0, 32⟩
def F.HD_PRIO_Nozzle : Fld := ⟨0, 12⟩
def F.HD_SWEEP_Pointer : Fld := ⟨0, 12⟩
def F.HD_SWEEP_PrioLevel : Fld := ⟨12, 8⟩
def F.HD_SWEEP_SweepCount : Fld := ⟨20, 12⟩
def F.HD_SENSE_Dead : Fld := ⟨0, 1⟩
def F.HD_NMAPCMD_Nozzle : Fld := ⟨0, 12⟩
def F.HD_NMAPCMD_Unretire : Fld := ⟨12, 1⟩
def F.HD_CSSTAT_ActiveSets : Fld := ⟨0, 5⟩
def F.HD_EVTEN_FlagEvent : Fld := ⟨8, 12⟩
def F.HD_NMAP_Class : Fld := ⟨0, 4⟩
def F.HD_NMAP_Hint : Fld := ⟨4, 4⟩
def F.HD_NMAP_Stamp : Fld := ⟨8, 24⟩
def F.PL_CTL_Enable : Fld := ⟨0, 1⟩
def F.PL_CTL_DetectCap : Fld := ⟨1, 7⟩
def F.PL_CTL_Encoder : Fld := ⟨8, 5⟩
def F.PL_CHECKS_Enable : Fld := ⟨0, 5⟩
def F.PL_PORTS_Required : Fld := ⟨0, 32⟩
def F.PL_HORIZON_Horizon : Fld := ⟨0, 24⟩
def F.PL_CLOSEOFS_LO_Offset : Fld := ⟨0, 32⟩
def F.PL_CLOSEOFS_HI_Offset : Fld := ⟨0, 8⟩
def F.PL_REJOFS_LO_Offset : Fld := ⟨0, 32⟩
def F.PL_REJOFS_HI_Offset : Fld := ⟨0, 8⟩
def F.PL_REJLEAD_Lead : Fld := ⟨0, 32⟩
def F.PL_REJTGT_Target : Fld := ⟨0, 10⟩
def F.PL_REJTGT_Action : Fld := ⟨10, 2⟩
def F.PL_REJDLY_Delay : Fld := ⟨0, 24⟩
def F.PL_NEXTTAG_NextTag : Fld := ⟨0, 32⟩
def F.PL_STATUS_Occupied : Fld := ⟨0, 14⟩
def F.PL_STATUS_PendingRejects : Fld := ⟨16, 7⟩
def F.PL_STATUS_LateFlag : Fld := ⟨23, 1⟩
def F.PL_STATUS_LedgerFull : Fld := ⟨24, 1⟩
def F.PL_STATUS_RejectLate : Fld := ⟨25, 1⟩
def F.PL_STATUS_RejectRefused : Fld := ⟨26, 1⟩
def F.PL_STATUS_RejectDropped : Fld := ⟨27, 1⟩
def F.PL_STATUS_RingFull : Fld := ⟨28, 1⟩
def F.PL_STATUS_ConfigRefused : Fld := ⟨29, 1⟩
def F.PL_RINGBASE_LO_RingBase : Fld := ⟨0, 32⟩
def F.PL_RINGBASE_HI_RingBase : Fld := ⟨0, 16⟩
def F.PL_RINGCFG_SizeLog2 : Fld := ⟨0, 5⟩
def F.PL_RINGCFG_VerdictAll : Fld := ⟨5, 1⟩
def F.PL_RINGWR_Index : Fld := ⟨0, 32⟩
def F.PL_RINGRD_Index : Fld := ⟨0, 32⟩
def F.PL_CMDTAG_Value : Fld := ⟨0, 32⟩
def F.PL_CMDARG_Value : Fld := ⟨0, 32⟩
def F.PL_CMD_Op : Fld := ⟨0, 3⟩
def F.PL_RECSTAT_State : Fld := ⟨0, 2⟩
def F.PL_RECSTAT_Verdict : Fld := ⟨2, 2⟩
def F.PL_RECSTAT_Flags : Fld := ⟨16, 12⟩
def F.PL_RECCNT_Completed : Fld := ⟨0, 16⟩
def F.PL_RECCNT_Missed : Fld := ⟨16, 8⟩
def F.PL_RECCNT_Retries : Fld := ⟨24, 8⟩
def F.ME_CTL_Start : Fld := ⟨0, 1⟩
def F.ME_CTL_Drain : Fld := ⟨1, 1⟩
def F.ME_CTL_Reset : Fld := ⟨2, 1⟩
def F.ME_CTL_ForceFault : Fld := ⟨3, 1⟩
def F.ME_CTL_WdogEnable : Fld := ⟨4, 1⟩
def F.ME_CTL_LockWays : Fld := ⟨5, 2⟩
def F.ME_CTL_LockFill : Fld := ⟨7, 1⟩
def F.ME_CTL_Unlock : Fld := ⟨8, 1⟩
def F.ME_STAT_State : Fld := ⟨0, 3⟩
def F.ME_STAT_Priv : Fld := ⟨3, 1⟩
def F.ME_STAT_JobValid : Fld := ⟨4, 1⟩
def F.ME_STAT_Faulted : Fld := ⟨8, 1⟩
def F.ME_STAT_DlFired : Fld := ⟨9, 1⟩
def F.ME_STAT_DmaError : Fld := ⟨10, 1⟩
def F.ME_STAT_EvCoalesced : Fld := ⟨11, 1⟩
def F.ME_STAT_WdogExpired : Fld := ⟨12, 1⟩
def F.ME_STAT_RefusedWrite : Fld := ⟨13, 1⟩
def F.ME_STAT_Parked : Fld := ⟨14, 1⟩
def F.ME_BOOTPC_LO_BootPc : Fld := ⟨0, 32⟩
def F.ME_BOOTPC_HI_BootPc : Fld := ⟨0, 16⟩
def F.ME_FAULT_Kind : Fld := ⟨0, 3⟩
def F.ME_FAULT_Cause : Fld := ⟨8, 8⟩
def F.ME_FAULTPC_LO_Address : Fld := ⟨0, 32⟩
def F.ME_FAULTPC_HI_Address : Fld := ⟨0, 16⟩
def F.ME_FAULTADDR_LO_Address : Fld := ⟨0, 32⟩
def F.ME_FAULTADDR_HI_Address : Fld := ⟨0, 16⟩
def F.ME_WDOG_WdogLimit : Fld := ⟨0, 16⟩
def F.ME_EVTEN_FlagEvent : Fld := ⟨8, 7⟩
def F.ME_PERF_ISSUE_Count : Fld := ⟨0, 32⟩
def F.ME_PERF_STALL_Count : Fld := ⟨0, 32⟩
def F.ME_DMASTAT_Outstanding : Fld := ⟨0, 4⟩
def F.ME_DMASTAT_ErrCookie : Fld := ⟨16, 16⟩
def F.ME_RGN_LO_BaseLo : Fld := ⟨0, 32⟩
def F.ME_RGN_HI_BaseHi : Fld := ⟨0, 16⟩
def F.ME_RGN_HI_SizeLog2 : Fld := ⟨16, 6⟩
def F.ME_RGN_HI_Read : Fld := ⟨22, 1⟩
def F.ME_RGN_HI_Write : Fld := ⟨23, 1⟩
def F.ME_RGN_HI_Exec : Fld := ⟨24, 1⟩
def F.ME_RGN_HI_RgnEnable : Fld := ⟨25, 1⟩
def F.ME_DBGCTL_Halt : Fld := ⟨0, 1⟩
def F.ME_DBGCTL_Step : Fld := ⟨1, 1⟩
def F.ME_DBGCTL_Resume : Fld := ⟨2, 1⟩
def F.ME_DBGCTL_Attached : Fld := ⟨3, 1⟩
def F.ME_DBGPC_LO_Pc : Fld := ⟨0, 32⟩
def F.ME_DBGPC_HI_Pc : Fld := ⟨0, 16⟩
def F.ME_BKPT_LO_AddrLo : Fld := ⟨0, 32⟩
def F.ME_BKPT_HI_AddrHi : Fld := ⟨0, 16⟩
def F.ME_BKPT_HI_BkEnable : Fld := ⟨16, 1⟩
def F.ME_DBGREG_Value : Fld := ⟨0, 32⟩
def F.JQ_CTL_Enable : Fld := ⟨0, 1⟩
def F.JQ_CTL_Pinned : Fld := ⟨1, 1⟩
def F.JQ_CTL_BaseClass : Fld := ⟨2, 3⟩
def F.JQ_CTL_Home : Fld := ⟨5, 4⟩
def F.JQ_CTL_MissAction : Fld := ⟨9, 3⟩
def F.JQ_CTL_Bound : Fld := ⟨12, 1⟩
def F.JQ_CTL_BindEngine : Fld := ⟨13, 8⟩
def F.JQ_AFFIN_Clusters : Fld := ⟨0, 12⟩
def F.JQ_RINGBASE_LO_RingBase : Fld := ⟨0, 32⟩
def F.JQ_RINGBASE_HI_RingBase : Fld := ⟨0, 16⟩
def F.JQ_RINGCFG_SizeLog2 : Fld := ⟨0, 5⟩
def F.JQ_TAIL_Index : Fld := ⟨0, 32⟩
def F.JQ_HEAD_Index : Fld := ⟨0, 32⟩
def F.JQ_AGE_AgeStep : Fld := ⟨0, 16⟩
def F.JQ_AGE_UrgentMargin : Fld := ⟨16, 16⟩
def F.JQ_STAT_Class : Fld := ⟨0, 3⟩
def F.JQ_STAT_Urgent : Fld := ⟨3, 1⟩
def F.JQ_STAT_Ready : Fld := ⟨4, 1⟩
def F.JQ_STAT_Claimed : Fld := ⟨8, 8⟩
def F.JQ_STAT_Posted : Fld := ⟨16, 16⟩
def F.JQ_FLAGS_Full : Fld := ⟨0, 1⟩
def F.JQ_FLAGS_Refused : Fld := ⟨1, 1⟩
def F.JQ_FLAGS_Miss : Fld := ⟨2, 1⟩
def F.JQ_FLAGS_RetryUsed : Fld := ⟨3, 1⟩
def F.JQ_FLAGS_RetryOut : Fld := ⟨4, 1⟩
def F.JQ_FLAGS_FallbackLost : Fld := ⟨5, 1⟩
def F.JQ_FLAGS_ConfigRefused : Fld := ⟨6, 1⟩
def F.JQ_HEADDL_LO_HeadDl : Fld := ⟨0, 32⟩
def F.JQ_HEADDL_HI_HeadDl : Fld := ⟨0, 32⟩
def F.JQ_CNT_DONE_Count : Fld := ⟨0, 32⟩
def F.JQ_CNT_MISS_Count : Fld := ⟨0, 32⟩
def F.JQ_CNT_RETRY_Count : Fld := ⟨0, 32⟩
def F.JQ_CNT_AWAY_Count : Fld := ⟨0, 32⟩
def F.JQ_HPOST_LO_AddrLo : Fld := ⟨0, 32⟩
def F.JQ_HPOST_HI_AddrHi : Fld := ⟨0, 16⟩
def F.JQ_HPOST_HI_Go : Fld := ⟨31, 1⟩
def F.JQ_HPOSTRES_Result : Fld := ⟨0, 2⟩
def F.JQ_HPOSTRES_Busy : Fld := ⟨2, 1⟩
def F.JQ_EVTEN_FlagEvent : Fld := ⟨0, 7⟩
def F.JQ_LASTFAIL_Reason : Fld := ⟨0, 8⟩
def F.JQ_LASTFAIL_Engine : Fld := ⟨8, 8⟩
def F.TST_CTL_TestEnable : Fld := ⟨0, 1⟩
def F.TST_CTL_SweepDone : Fld := ⟨1, 1⟩
def F.TST_CTL_RepairAny : Fld := ⟨2, 1⟩
def F.TST_CTL_SweepEvent : Fld := ⟨3, 1⟩
def F.TST_CTL_WindowGap : Fld := ⟨8, 16⟩
def F.TST_SWEEP_SweepCount : Fld := ⟨0, 16⟩
def F.TST_SWEEP_SpareRowsUsed : Fld := ⟨16, 16⟩
def F.TST_ERRLOG_MemId : Fld := ⟨0, 9⟩
def F.TST_ERRLOG_Uncorrectable : Fld := ⟨9, 1⟩
def F.TST_ERRLOG_CeCount : Fld := ⟨16, 16⟩
def F.TST_ERRADDR_LO_Address : Fld := ⟨0, 32⟩
def F.TST_ERRADDR_HI_Address : Fld := ⟨0, 16⟩
def F.TST_WFSTAT_Ce : Fld := ⟨0, 1⟩
def F.TST_WFSTAT_Ue : Fld := ⟨1, 1⟩
def F.TST_WFSTAT_RowRepaired : Fld := ⟨2, 1⟩
def F.TST_WFSTAT_RepairExhausted : Fld := ⟨3, 1⟩
def F.TST_WFSTAT_FlagEvent : Fld := ⟨8, 4⟩
def F.TST_CFGSTAT_Ce : Fld := ⟨0, 1⟩
def F.TST_CFGSTAT_Ue : Fld := ⟨1, 1⟩
def F.TST_CFGSTAT_RowRepaired : Fld := ⟨2, 1⟩
def F.TST_CFGSTAT_RepairExhausted : Fld := ⟨3, 1⟩
def F.TST_CFGSTAT_FlagEvent : Fld := ⟨8, 4⟩
def F.TST_CSSTAT_Sparing : Fld := ⟨0, 1⟩
def F.TST_CSSTAT_SparedBank : Fld := ⟨1, 4⟩
def F.TST_CSSTAT_SpareUsed : Fld := ⟨5, 1⟩
def F.TST_CSSTAT_Ce : Fld := ⟨8, 1⟩
def F.TST_CSSTAT_Ue : Fld := ⟨9, 1⟩
def F.TST_CSSTAT_Collide : Fld := ⟨10, 1⟩
def F.TST_CSSTAT_RowRepaired : Fld := ⟨11, 1⟩
def F.TST_CSSTAT_RepairExhausted : Fld := ⟨12, 1⟩
def F.TST_CSSTAT_Spared : Fld := ⟨13, 1⟩
def F.TST_CSSTAT_RetAccess : Fld := ⟨14, 1⟩
def F.TST_CSSTAT_RetRefused : Fld := ⟨15, 1⟩
def F.TST_CSEVTEN_FlagEvent : Fld := ⟨8, 8⟩
def F.TST_COLL_LO_Address : Fld := ⟨0, 32⟩
def F.TST_COLL_HI_Address : Fld := ⟨0, 16⟩
def F.TST_COLL_WHO_PortAReq : Fld := ⟨0, 5⟩
def F.TST_COLL_WHO_PortBClass : Fld := ⟨8, 3⟩
def F.TST_COLL_WHO_PortBIndex : Fld := ⟨16, 8⟩
def F.TST_CSCE_CeCount : Fld := ⟨0, 16⟩
def F.TST_CSCE_RowsUsed : Fld := ⟨16, 8⟩
def F.TST_RETCTL_Retain : Fld := ⟨0, 1⟩
def F.TST_RETCTL_Wake : Fld := ⟨1, 1⟩
def F.TST_RETCTL_Retained : Fld := ⟨8, 1⟩
def F.TST_RETCTL_Waking : Fld := ⟨9, 1⟩
def F.MEMC_STAT_Active : Fld := ⟨0, 4⟩
def F.MEMC_STAT_Rate : Fld := ⟨4, 1⟩
def F.MEMC_STAT_Degraded : Fld := ⟨5, 1⟩
def F.MEMC_STAT_MapRefused : Fld := ⟨8, 1⟩
def F.MEMC_CFG_EccEnable : Fld := ⟨0, 1⟩
def F.MEMC_CFG_MirrorUnits : Fld := ⟨1, 6⟩
def F.MEMC_CFG_Lock : Fld := ⟨31, 1⟩
def F.MEMC_SIZES_PlainMiB : Fld := ⟨0, 16⟩
def F.MEMC_SIZES_MirrorMiB : Fld := ⟨16, 16⟩
def F.MEMC_SCRUB_ScrubEnable : Fld := ⟨0, 1⟩
def F.MEMC_SCRUB_ScrubHours : Fld := ⟨8, 8⟩
def F.MEMC_SCRUB_SweepCount : Fld := ⟨16, 16⟩
def F.MEMC_ERRADDR_LO_Address : Fld := ⟨0, 32⟩
def F.MEMC_ERRADDR_HI_AddressHi : Fld := ⟨0, 16⟩
def F.MEMC_ERRADDR_HI_Channel : Fld := ⟨16, 2⟩
def F.MEMC_ERRADDR_HI_Uncorrectable : Fld := ⟨18, 1⟩
def F.MEMC_ERRADDR_HI_FixedByMirror : Fld := ⟨19, 1⟩
def F.MEMC_ERRADDR_HI_Class : Fld := ⟨20, 3⟩
def F.MEMC_CHSTAT_Trained : Fld := ⟨0, 1⟩
def F.MEMC_CHSTAT_ChActive : Fld := ⟨1, 1⟩
def F.MEMC_CHSTAT_Failed : Fld := ⟨2, 1⟩
def F.MEMC_CHSTAT_CapGiB : Fld := ⟨4, 4⟩
def F.MEMC_CHSTAT_RowsRecorded : Fld := ⟨8, 8⟩
def F.MEMC_CHFLAGS_Ce : Fld := ⟨0, 1⟩
def F.MEMC_CHFLAGS_LinkEcc : Fld := ⟨1, 1⟩
def F.MEMC_CHFLAGS_RowRecorded : Fld := ⟨2, 1⟩
def F.MEMC_CHFLAGS_SweepDone : Fld := ⟨3, 1⟩
def F.MEMC_CHFLAGS_Ue : Fld := ⟨4, 1⟩
def F.MEMC_CHFLAGS_ChannelFailed : Fld := ⟨5, 1⟩
def F.MEMC_CHFLAGS_MirrorFix : Fld := ⟨6, 1⟩
def F.MEMC_CHFLAGS_PprFull : Fld := ⟨7, 1⟩
def F.MEMC_CHCNT_CeCount : Fld := ⟨0, 16⟩
def F.MEMC_CHCNT_LinkEccCount : Fld := ⟨16, 16⟩
def F.MEMC_CHEVTEN_FlagEvent : Fld := ⟨0, 8⟩
def F.HOST_LINK_Speed : Fld := ⟨0, 3⟩
def F.HOST_LINK_Width : Fld := ⟨3, 4⟩
def F.HOST_LINK_Up : Fld := ⟨7, 1⟩
def F.HOST_LINK_MsixEnabled : Fld := ⟨8, 1⟩
def F.HOST_LINK_BusMaster : Fld := ⟨9, 1⟩
def F.HOST_CTL_TargetSpeed : Fld := ⟨0, 3⟩
def F.HOST_CTL_Retrain : Fld := ⟨3, 1⟩
def F.HOST_FLAGS_Violation : Fld := ⟨0, 1⟩
def F.HOST_FLAGS_AerCorr : Fld := ⟨1, 1⟩
def F.HOST_FLAGS_AerUncorr : Fld := ⟨2, 1⟩
def F.HOST_FLAGS_LinkUp : Fld := ⟨3, 1⟩
def F.HOST_FLAGS_LinkDown : Fld := ⟨4, 1⟩
def F.HOST_FLAGS_SpeedChange : Fld := ⟨5, 1⟩
def F.HOST_FLAGS_FunctionReset : Fld := ⟨6, 1⟩
def F.HOST_FLAGS_DpFault : Fld := ⟨7, 1⟩
def F.HOST_FLAGS_BootDone : Fld := ⟨8, 1⟩
def F.HOST_FLAGS_BootError : Fld := ⟨9, 1⟩
def F.HOST_EVTEN_FlagEvent : Fld := ⟨0, 10⟩
def F.HOST_VIOL_Code : Fld := ⟨0, 8⟩
def F.HOST_VIOL_Count : Fld := ⟨16, 16⟩
def F.HOST_VIOL_ADDR_LO_Address : Fld := ⟨0, 32⟩
def F.HOST_VIOL_ADDR_HI_Address : Fld := ⟨0, 16⟩
def F.HOST_BOOT_INFO_SizeLog2 : Fld := ⟨0, 5⟩
def F.HOST_BOOT_INFO_ReadMode : Fld := ⟨5, 2⟩
def F.HOST_BOOT_INFO_SfdpValid : Fld := ⟨7, 1⟩
def F.HOST_BOOT_INFO_ActiveSlot : Fld := ⟨8, 1⟩
def F.HOST_BOOT_INFO_DirCopy : Fld := ⟨9, 1⟩
def F.HOST_BOOT_CFG_BootDiv : Fld := ⟨0, 2⟩
def F.HOST_BOOT_CMD_Op : Fld := ⟨0, 2⟩
def F.HOST_BOOT_FADDR_FAddr : Fld := ⟨0, 28⟩
def F.HOST_BOOT_MADDR_LO_MAddr : Fld := ⟨0, 32⟩
def F.HOST_BOOT_MADDR_HI_MAddr : Fld := ⟨0, 16⟩
def F.HOST_BOOT_LEN_Length : Fld := ⟨0, 29⟩
def F.HOST_BOOT_STAT_Busy : Fld := ⟨0, 1⟩
def F.HOST_BOOT_STAT_Result : Fld := ⟨1, 3⟩
def F.DP_CTL_Enable : Fld := ⟨0, 1⟩
def F.DP_CTL_AutoInc : Fld := ⟨1, 2⟩
def F.DP_CTL_WrapLog2 : Fld := ⟨3, 5⟩
def F.DP_CTL_Flush : Fld := ⟨8, 1⟩
def F.DP_ADDR_LO_Cur : Fld := ⟨0, 32⟩
def F.DP_ADDR_HI_Cur : Fld := ⟨0, 16⟩
def F.DP_STRIDE_Stride : Fld := ⟨0, 32⟩
def F.DP_WRAPBASE_LO_WrapBase : Fld := ⟨0, 32⟩
def F.DP_WRAPBASE_HI_WrapBase : Fld := ⟨0, 16⟩
def F.DP_STAT_PendingBytes : Fld := ⟨0, 13⟩
def F.DP_STAT_Fault : Fld := ⟨16, 1⟩
def F.DP_STAT_UeRead : Fld := ⟨17, 1⟩
def F.DP_STAT_SeamTimeout : Fld := ⟨18, 1⟩
def F.CFG_CTL_HostStage : Fld := ⟨0, 1⟩
def F.CFG_CTL_PortArm : Fld := ⟨1, 1⟩
def F.CFG_STATUS_State : Fld := ⟨0, 3⟩
def F.CFG_STATUS_Locked : Fld := ⟨3, 1⟩
def F.CFG_STATUS_LoadDone : Fld := ⟨8, 1⟩
def F.CFG_STATUS_LoadError : Fld := ⟨9, 1⟩
def F.CFG_STATUS_ApplyLate : Fld := ⟨10, 1⟩
def F.CFG_STATUS_Refused : Fld := ⟨11, 1⟩
def F.CFG_STATUS_PortViolation : Fld := ⟨12, 1⟩
def F.CFG_STATUS_PortReceived : Fld := ⟨13, 1⟩
def F.CFG_LOAD_Src : Fld := ⟨0, 2⟩
def F.CFG_LOAD_Abort : Fld := ⟨30, 1⟩
def F.CFG_LOAD_Go : Fld := ⟨31, 1⟩
def F.CFG_SRC_LO_SrcAddr : Fld := ⟨0, 32⟩
def F.CFG_SRC_HI_SrcAddr : Fld := ⟨0, 16⟩
def F.CFG_APPLYAT_LO_ApplyAt : Fld := ⟨0, 32⟩
def F.CFG_APPLYAT_HI_ApplyAt : Fld := ⟨0, 32⟩
def F.CFG_RESULT_Code : Fld := ⟨0, 8⟩
def F.CFG_ERRINFO_FrameAddr : Fld := ⟨0, 16⟩
def F.CFG_ERROFS_Offset : Fld := ⟨0, 32⟩
def F.CFG_LASTSET_SleeveSet : Fld := ⟨0, 16⟩
def F.CFG_LASTID_StreamId : Fld := ⟨0, 32⟩
def F.CFG_PORTSTAT_Mode : Fld := ⟨0, 2⟩
def F.CFG_PORTCNT_Bytes : Fld := ⟨0, 21⟩
def F.CFG_PORTVIOL_Code : Fld := ⟨0, 8⟩
def F.CFG_PORTVIOL_Count : Fld := ⟨16, 16⟩
def F.CFG_EVTEN_FlagEvent : Fld := ⟨8, 6⟩
def F.CFG_LASTTAG_TagWord : Fld := ⟨0, 32⟩
def F.CFG_SLVSTAT_State : Fld := ⟨0, 2⟩
def F.CFG_SLVSTAT_FaultPort : Fld := ⟨2, 2⟩
def F.CFG_SLVSTAT_PortFault : Fld := ⟨8, 1⟩
def F.CFG_SLVSTAT_Released : Fld := ⟨9, 1⟩
def F.CFG_SLVSTAT_Broken : Fld := ⟨10, 1⟩
def F.CFG_SLVIO_PinClaim : Fld := ⟨0, 16⟩
def F.CFG_SLVEVTEN_FlagEvent : Fld := ⟨8, 3⟩
def F.CFG_FPWIN_LO_BaseLo : Fld := ⟨0, 32⟩
def F.CFG_FPWIN_HI_BaseHi : Fld := ⟨0, 16⟩
def F.CFG_FPWIN_HI_SizeLog2 : Fld := ⟨16, 6⟩
def F.CFG_FPWIN_HI_Write : Fld := ⟨22, 1⟩
def F.CFG_FPWIN_HI_WinEnable : Fld := ⟨23, 1⟩
def F.CFG_CUFF_Modes : Fld := ⟨0, 32⟩
def F.MNT_STATUS_State : Fld := ⟨0, 2⟩
def F.MNT_STATUS_RgnLocked : Fld := ⟨2, 1⟩
def F.MNT_STATUS_ReqBusy : Fld := ⟨3, 1⟩
def F.MNT_STATUS_Burning : Fld := ⟨4, 1⟩
def F.MNT_STATUS_DebugScope : Fld := ⟨5, 2⟩
def F.MNT_STATUS_FwVerified : Fld := ⟨8, 1⟩
def F.MNT_STATUS_FwRejected : Fld := ⟨9, 1⟩
def F.MNT_STATUS_SlotChanged : Fld := ⟨10, 1⟩
def F.MNT_STATUS_RbAdvanced : Fld := ⟨11, 1⟩
def F.MNT_STATUS_DebugChange : Fld := ⟨12, 1⟩
def F.MNT_STATUS_AttestDone : Fld := ⟨13, 1⟩
def F.MNT_STATUS_ReqRefused : Fld := ⟨14, 1⟩
def F.MNT_STATUS_RegionViolation : Fld := ⟨15, 1⟩
def F.MNT_STATUS_FuseFault : Fld := ⟨16, 1⟩
def F.MNT_CTL_RgnLock : Fld := ⟨0, 1⟩
def F.MNT_CTL_DebugLock : Fld := ⟨1, 1⟩
def F.MNT_EVTEN_FlagEvent : Fld := ⟨8, 9⟩
def F.MNT_SERIAL_LO_Value : Fld := ⟨0, 32⟩
def F.MNT_SERIAL_HI_Value : Fld := ⟨0, 32⟩
def F.MNT_NONCE_Value : Fld := ⟨0, 32⟩
def F.MNT_IDPUB_Value : Fld := ⟨0, 32⟩
def F.MNT_FWMEAS_Value : Fld := ⟨0, 32⟩
def F.MNT_REQ_LO_Addr : Fld := ⟨0, 32⟩
def F.MNT_REQ_HI_Addr : Fld := ⟨0, 16⟩
def F.MNT_REQCTL_Op : Fld := ⟨0, 2⟩
def F.MNT_REQCTL_Go : Fld := ⟨31, 1⟩
def F.MNT_REQSTAT_Result : Fld := ⟨0, 4⟩
def F.MNT_RBADV_Index : Fld := ⟨0, 6⟩
def F.MNT_RBADV_Value : Fld := ⟨8, 7⟩
def F.MNT_RBADV_Go : Fld := ⟨31, 1⟩
def F.MNT_DBGEXP_LO_Expiry : Fld := ⟨0, 32⟩
def F.MNT_DBGEXP_HI_Expiry : Fld := ⟨0, 32⟩
def F.MNT_FWINFO_Slot : Fld := ⟨0, 1⟩
def F.MNT_FWINFO_OwnerSlot : Fld := ⟨1, 2⟩
def F.MNT_FWINFO_RollbackIdx : Fld := ⟨8, 6⟩
def F.MNT_FWINFO_RollbackVal : Fld := ⟨16, 16⟩
def F.MNT_SLOTSTAT_Enrolled : Fld := ⟨0, 1⟩
def F.MNT_SLOTSTAT_Revoked : Fld := ⟨1, 1⟩
def F.MNT_SLOTHASH_HashWord : Fld := ⟨0, 32⟩
def F.MNT_RBCTR_Value : Fld := ⟨0, 7⟩
def F.MNT_RBCTR_Shadow : Fld := ⟨8, 7⟩
def F.MNT_RGN_LO_BaseLo : Fld := ⟨0, 32⟩
def F.MNT_RGN_HI_BaseHi : Fld := ⟨0, 16⟩
def F.MNT_RGN_CTL_RgnEnable : Fld := ⟨0, 1⟩
def F.MNT_RGN_CTL_SizeLog2 : Fld := ⟨1, 5⟩
def F.MNT_RGN_CTL_EngRead : Fld := ⟨6, 1⟩
def F.MNT_RGN_CTL_EngWrite : Fld := ⟨7, 1⟩
def F.MNT_RGN_CTL_HostRead : Fld := ⟨8, 1⟩
def F.MNT_RGN_CTL_HostWrite : Fld := ⟨9, 1⟩
def F.MNT_RGN_CTL_FabRead : Fld := ⟨10, 1⟩
def F.MNT_RGN_CTL_FabWrite : Fld := ⟨11, 1⟩
def F.MNT_RGN_CTL_Loader : Fld := ⟨12, 1⟩
def F.MNT_RGN_CTL_Clusters : Fld := ⟨16, 12⟩
def F.SL_CTL_DeviceId : Fld := ⟨0, 12⟩
def F.SL_CTL_IdValid : Fld := ⟨12, 1⟩
def F.SL_CTL_MaxHops : Fld := ⟨13, 4⟩
def F.SL_CTL_TsUpPort : Fld := ⟨17, 2⟩
def F.SL_CTL_TsEnable : Fld := ⟨19, 1⟩
def F.SL_TSCFG_TsPeriod : Fld := ⟨0, 16⟩
def F.SL_TSCFG_TsAsym : Fld := ⟨16, 8⟩
def F.SL_TSOFS_Value : Fld := ⟨0, 32⟩
def F.SL_TSDLY_Value : Fld := ⟨0, 32⟩
def F.SL_MSGBASE_LO_MsgBase : Fld := ⟨0, 32⟩
def F.SL_MSGBASE_HI_MsgBase : Fld := ⟨0, 16⟩
def F.SL_MSGCFG_SizeLog2 : Fld := ⟨0, 5⟩
def F.SL_MSGWR_Index : Fld := ⟨0, 32⟩
def F.SL_MSGRD_Index : Fld := ⟨0, 32⟩
def F.SL_CUE_TLO_T : Fld := ⟨0, 32⟩
def F.SL_CUE_THI_T : Fld := ⟨0, 32⟩
def F.SL_CUE_ARG_Delay : Fld := ⟨0, 24⟩
def F.SL_CUE_ARG_Action : Fld := ⟨24, 2⟩
def F.SL_CUE_GO_Dst : Fld := ⟨0, 12⟩
def F.SL_CUE_GO_Mcast : Fld := ⟨12, 1⟩
def F.SL_CUE_GO_Target : Fld := ⟨16, 10⟩
def F.SL_CUE_GO_Go : Fld := ⟨31, 1⟩
def F.SL_CUE_RES_Busy : Fld := ⟨0, 1⟩
def F.SL_CUE_RES_Status : Fld := ⟨1, 4⟩
def F.SL_CUE_RES_CueStatus : Fld := ⟨5, 2⟩
def F.SL_CUE_RES_Slot : Fld := ⟨7, 2⟩
def F.SL_CUE_RES_ExtraAnswers : Fld := ⟨16, 8⟩
def F.SL_ATT_LO_Addr : Fld := ⟨0, 32⟩
def F.SL_ATT_HI_Addr : Fld := ⟨0, 16⟩
def F.SL_ATT_CTL_Dst : Fld := ⟨0, 12⟩
def F.SL_ATT_CTL_Busy : Fld := ⟨12, 1⟩
def F.SL_ATT_CTL_Status : Fld := ⟨13, 4⟩
def F.SL_ATT_CTL_Go : Fld := ⟨31, 1⟩
def F.SL_LOST_Window : Fld := ⟨0, 6⟩
def F.SL_LOST_Status : Fld := ⟨8, 4⟩
def F.SL_LOST_DropCount : Fld := ⟨16, 16⟩
def F.SL_PCTL_PortEnable : Fld := ⟨0, 1⟩
def F.SL_PCTL_Release : Fld := ⟨1, 1⟩
def F.SL_PCTL_Retrain : Fld := ⟨2, 1⟩
def F.SL_PCTL_LaneEnable : Fld := ⟨4, 4⟩
def F.SL_PSTAT_State : Fld := ⟨0, 2⟩
def F.SL_PSTAT_LanesActive : Fld := ⟨2, 4⟩
def F.SL_PSTAT_PeerIdValid : Fld := ⟨6, 1⟩
def F.SL_PSTAT_PeerId : Fld := ⟨8, 12⟩
def F.SL_PSTAT_PeerPort : Fld := ⟨20, 2⟩
def F.SL_PSTAT_Credits : Fld := ⟨23, 7⟩
def F.SL_PFLAGS_Up : Fld := ⟨0, 1⟩
def F.SL_PFLAGS_Down : Fld := ⟨1, 1⟩
def F.SL_PFLAGS_LaneSpared : Fld := ⟨2, 1⟩
def F.SL_PFLAGS_CrcError : Fld := ⟨3, 1⟩
def F.SL_PFLAGS_ReplayLimit : Fld := ⟨4, 1⟩
def F.SL_PFLAGS_Violation : Fld := ⟨5, 1⟩
def F.SL_PFLAGS_Quarantined : Fld := ⟨6, 1⟩
def F.SL_PFLAGS_ReadTimeout : Fld := ⟨7, 1⟩
def F.SL_PFLAGS_AnswerLost : Fld := ⟨8, 1⟩
def F.SL_PFLAGS_WriteLost : Fld := ⟨9, 1⟩
def F.SL_PFLAGS_MsgLost : Fld := ⟨10, 1⟩
def F.SL_PFLAGS_MsgRingFull : Fld := ⟨11, 1⟩
def F.SL_PFLAGS_SyncLost : Fld := ⟨12, 1⟩
def F.SL_PEVTEN_FlagEvent : Fld := ⟨0, 13⟩
def F.SL_PVIOL_Code : Fld := ⟨0, 8⟩
def F.SL_PVIOL_Count : Fld := ⟨16, 16⟩
def F.SL_PVIOLCFG_ViolLimit : Fld := ⟨0, 16⟩
def F.SL_PVIOLCFG_ViolWindow : Fld := ⟨16, 16⟩
def F.SL_PCNT_ReplayCount : Fld := ⟨0, 16⟩
def F.SL_PCNT_Discarded : Fld := ⟨16, 16⟩
def F.SL_WIN_LO_RemoteLo : Fld := ⟨0, 32⟩
def F.SL_WIN_HI_RemoteHi : Fld := ⟨0, 16⟩
def F.SL_WIN_CTL_DevId : Fld := ⟨0, 12⟩
def F.SL_WIN_CTL_Mcast : Fld := ⟨12, 1⟩
def F.SL_WIN_CTL_Read : Fld := ⟨13, 1⟩
def F.SL_WIN_CTL_Write : Fld := ⟨14, 1⟩
def F.SL_WIN_CTL_Kind : Fld := ⟨15, 1⟩
def F.SL_WIN_CTL_Event : Fld := ⟨16, 10⟩
def F.SL_WIN_CTL_WinEnable : Fld := ⟨31, 1⟩
def F.SL_IN_LO_BaseLo : Fld := ⟨0, 32⟩
def F.SL_IN_HI_BaseHi : Fld := ⟨0, 16⟩
def F.SL_IN_CTL_SizeLog2 : Fld := ⟨0, 6⟩
def F.SL_IN_CTL_Read : Fld := ⟨6, 1⟩
def F.SL_IN_CTL_Write : Fld := ⟨7, 1⟩
def F.SL_IN_CTL_InEnable : Fld := ⟨8, 1⟩
def F.SL_MCAST_Ports : Fld := ⟨0, 4⟩
def F.SL_MCAST_Local : Fld := ⟨4, 1⟩
def F.SL_ROUTE_Primary : Fld := ⟨0, 3⟩
def F.SL_ROUTE_Alternate : Fld := ⟨3, 3⟩
def F.SL_ROUTE_UseAlt : Fld := ⟨6, 1⟩
def F.CAL_CTL_Enable : Fld := ⟨0, 1⟩
def F.CAL_CTL_DeltaT : Fld := ⟨8, 7⟩
def F.CAL_CTL_GuardTicks : Fld := ⟨16, 12⟩
def F.CAL_WAIT_MaxWait : Fld := ⟨0, 16⟩
def F.CAL_STAT_PanelBusy : Fld := ⟨0, 8⟩
def F.CAL_STAT_StoredMissing : Fld := ⟨8, 1⟩
def F.CAL_TEMP_Temp : Fld := ⟨0, 16⟩
def F.CAL_EVTEN_FlagEvent : Fld := ⟨0, 4⟩
def F.CAL_EVTEN_StoredEvent : Fld := ⟨4, 1⟩
def F.CAL_TCTL_Mode : Fld := ⟨0, 2⟩
def F.CAL_TCTL_Request : Fld := ⟨2, 1⟩
def F.CAL_TCTL_Commit : Fld := ⟨3, 1⟩
def F.CAL_TSTAT_Pending : Fld := ⟨0, 1⟩
def F.CAL_TSTAT_Running : Fld := ⟨1, 1⟩
def F.CAL_TSTAT_Step : Fld := ⟨2, 5⟩
def F.CAL_TSTAT_Staged : Fld := ⟨7, 1⟩
def F.CAL_TSTAT_Done : Fld := ⟨8, 1⟩
def F.CAL_TSTAT_Starved : Fld := ⟨9, 1⟩
def F.CAL_TSTAT_Abandoned : Fld := ⟨10, 1⟩
def F.CAL_TSTAT_CalClip : Fld := ⟨11, 1⟩
def F.CAL_TSTAT_LastTemp : Fld := ⟨16, 16⟩
def F.CAL_COEF_MG_Gain : Fld := ⟨0, 32⟩
def F.CAL_COEF_MO_Offset : Fld := ⟨0, 24⟩
def F.CAL_COEF_ML_Lin : Fld := ⟨0, 24⟩
def F.CAL_COEF_DG_Gain : Fld := ⟨0, 16⟩
def F.CAL_COEF_DG_Offset : Fld := ⟨16, 16⟩
def F.CAL_COEF_DP_PreLo : Fld := ⟨0, 16⟩
def F.CAL_COEF_DP_PreHi : Fld := ⟨16, 16⟩
def F.CAL_COEF_CO_Ofs0 : Fld := ⟨0, 8⟩
def F.CAL_COEF_CO_Ofs1 : Fld := ⟨8, 8⟩
def F.CAL_PGAG_Measured : Fld := ⟨0, 32⟩
def F.LIO_DATA_Latch : Fld := ⟨0, 32⟩
def F.LIO_SET_Latch : Fld := ⟨0, 32⟩
def F.LIO_CLR_Latch : Fld := ⟨0, 32⟩
def F.LIO_TGL_Latch : Fld := ⟨0, 32⟩
def F.LIO_IN_Pad : Fld := ⟨0, 32⟩
def F.LIO_BANKSTAT_Valid : Fld := ⟨0, 1⟩
def F.LIO_BANKSTAT_Level : Fld := ⟨1, 2⟩
def F.LIO_CONFLICT_Signal : Fld := ⟨0, 6⟩
def F.LIO_CONFLICT_PinA : Fld := ⟨8, 8⟩
def F.LIO_CONFLICT_PinB : Fld := ⟨16, 8⟩
def F.LIO_FLAGS_Conflict : Fld := ⟨0, 1⟩
def F.LIO_FLAGS_Contested : Fld := ⟨1, 1⟩
def F.LIO_FLAGS_WriteRefused : Fld := ⟨2, 1⟩
def F.LIO_FLAGS_FlagEvent : Fld := ⟨8, 3⟩
def F.LIO_FLAGS_LastPin : Fld := ⟨16, 8⟩
def F.LIO_CFG_Threshold : Fld := ⟨0, 3⟩
def F.LIO_CFG_Schmitt : Fld := ⟨3, 1⟩
def F.LIO_CFG_Analog : Fld := ⟨4, 1⟩
def F.LIO_CFG_Drive : Fld := ⟨5, 2⟩
def F.LIO_CFG_OpenDrain : Fld := ⟨7, 1⟩
def F.LIO_CFG_Pull : Fld := ⟨8, 2⟩
def F.LIO_CFG_OutEnable : Fld := ⟨10, 1⟩
def F.LIO_CFG_CueDrive : Fld := ⟨11, 1⟩
def F.LIO_CFG_Func : Fld := ⟨16, 6⟩
def F.LIO_OWNER_Owner : Fld := ⟨0, 3⟩
def F.LIO_OWNER_Unit : Fld := ⟨8, 8⟩
def F.LIO_OWNER_Switching : Fld := ⟨16, 1⟩
def F.LIO_UCTL_Enable : Fld := ⟨0, 1⟩
def F.LIO_UCTL_ParityEn : Fld := ⟨1, 1⟩
def F.LIO_UCTL_Odd : Fld := ⟨2, 1⟩
def F.LIO_UCTL_TwoStop : Fld := ⟨3, 1⟩
def F.LIO_UCTL_EvEnable : Fld := ⟨4, 1⟩
def F.LIO_UCTL_Div : Fld := ⟨16, 16⟩
def F.LIO_UDATA_Data : Fld := ⟨0, 8⟩
def F.LIO_UDATA_RxValid : Fld := ⟨8, 1⟩
def F.LIO_USTAT_RxLevel : Fld := ⟨0, 5⟩
def F.LIO_USTAT_TxLevel : Fld := ⟨8, 5⟩
def F.LIO_USTAT_Framing : Fld := ⟨16, 1⟩
def F.LIO_USTAT_Parity : Fld := ⟨17, 1⟩
def F.LIO_USTAT_RxOverrun : Fld := ⟨18, 1⟩
def F.LIO_USTAT_TxOverrun : Fld := ⟨19, 1⟩
def F.LIO_SCTL_Enable : Fld := ⟨0, 1⟩
def F.LIO_SCTL_Cpol : Fld := ⟨1, 1⟩
def F.LIO_SCTL_Cpha : Fld := ⟨2, 1⟩
def F.LIO_SCTL_CsHold : Fld := ⟨3, 1⟩
def F.LIO_SCTL_EvEnable : Fld := ⟨4, 1⟩
def F.LIO_SCTL_Div : Fld := ⟨16, 16⟩
def F.LIO_SDATA_Data : Fld := ⟨0, 8⟩
def F.LIO_SSTAT_RxLevel : Fld := ⟨0, 5⟩
def F.LIO_SSTAT_TxLevel : Fld := ⟨8, 5⟩
def F.LIO_SSTAT_Busy : Fld := ⟨13, 1⟩
def F.LIO_SSTAT_RxOverrun : Fld := ⟨16, 1⟩
def F.LIO_ICTL_Enable : Fld := ⟨0, 1⟩
def F.LIO_ICTL_Speed : Fld := ⟨1, 2⟩
def F.LIO_ICTL_EvEnable : Fld := ⟨3, 1⟩
def F.LIO_IXFER_Addr : Fld := ⟨0, 7⟩
def F.LIO_IXFER_WrLen : Fld := ⟨8, 4⟩
def F.LIO_IXFER_RdLen : Fld := ⟨12, 4⟩
def F.LIO_IXFER_Go : Fld := ⟨31, 1⟩
def F.LIO_IDATA_Data : Fld := ⟨0, 8⟩
def F.LIO_ISTAT_Busy : Fld := ⟨0, 1⟩
def F.LIO_ISTAT_Done : Fld := ⟨8, 1⟩
def F.LIO_ISTAT_Nack : Fld := ⟨9, 1⟩
def F.LIO_ISTAT_ArbLost : Fld := ⟨10, 1⟩
def F.LIO_ISTAT_BusStuck : Fld := ⟨11, 1⟩
def F.EVT_CTL_FallbackEngine : Fld := ⟨0, 8⟩
def F.EVT_CTL_FallbackChannel : Fld := ⟨8, 4⟩
def F.EVT_CTL_FallbackEnable : Fld := ⟨12, 1⟩
def F.EVT_STAT_RouteDropped : Fld := ⟨0, 1⟩
def F.EVT_STAT_Redirected : Fld := ⟨1, 1⟩
def F.EVT_STAT_SeamLost : Fld := ⟨2, 1⟩
def F.EVT_STAT_SeamMerged : Fld := ⟨3, 1⟩
def F.EVT_STAT_SwRefused : Fld := ⟨4, 1⟩
def F.EVT_STAT_LastEvent : Fld := ⟨16, 10⟩
def F.EVT_RAISECNT_Raises : Fld := ⟨0, 32⟩
def F.EVT_SWRAISE_Event : Fld := ⟨0, 10⟩
def F.EVT_MONSUP_OutNow : Fld := ⟨0, 12⟩
def F.EVT_MONSUP_SupplyFault : Fld := ⟨16, 12⟩
def F.EVT_MONTEMP_WarnNow : Fld := ⟨0, 1⟩
def F.EVT_MONTEMP_CritNow : Fld := ⟨1, 1⟩
def F.EVT_MONTEMP_TempWarn : Fld := ⟨8, 1⟩
def F.EVT_MONTEMP_TempCrit : Fld := ⟨9, 1⟩
def F.EVT_MONTEMP_SensorFault : Fld := ⟨10, 1⟩
def F.EVT_TEMPLIM_WarnLimit : Fld := ⟨0, 16⟩
def F.EVT_TEMPLIM_CritLimit : Fld := ⟨16, 16⟩
def F.EVT_MONEVTEN_SupplyEvent : Fld := ⟨0, 12⟩
def F.EVT_MONEVTEN_TempEvent : Fld := ⟨16, 3⟩
def F.EVT_PEND_Raised : Fld := ⟨0, 32⟩
def F.EVT_ROUTE_Vector : Fld := ⟨0, 11⟩
def F.EVT_ROUTE_MsixEn : Fld := ⟨11, 1⟩
def F.EVT_ROUTE_Engine : Fld := ⟨12, 8⟩
def F.EVT_ROUTE_Channel : Fld := ⟨20, 4⟩
def F.EVT_ROUTE_EngEn : Fld := ⟨24, 1⟩
def F.EVT_ROUTE_SeamWin : Fld := ⟨25, 6⟩
def F.EVT_ROUTE_SeamEn : Fld := ⟨31, 1⟩
def F.JRN_STAT_Step : Fld := ⟨0, 8⟩
def F.JRN_STAT_State : Fld := ⟨8, 2⟩
def F.JRN_STAT_JournalValid : Fld := ⟨10, 1⟩
def F.JRN_STAT_Cause : Fld := ⟨11, 2⟩
def F.JRN_STAT_StartDone : Fld := ⟨16, 1⟩
def F.JRN_STAT_StepFailed : Fld := ⟨17, 1⟩
def F.JRN_STAT_StepMarked : Fld := ⟨18, 1⟩
def F.JRN_STAT_JournalError : Fld := ⟨19, 1⟩
def F.JRN_STAT_LogWrap : Fld := ⟨20, 1⟩
def F.JRN_STAT_FaultLogged : Fld := ⟨21, 1⟩
def F.JRN_CTL_FlagEvent : Fld := ⟨0, 6⟩
def F.JRN_STARTCNT_StartCount : Fld := ⟨0, 32⟩
def F.JRN_FAILMASK_Failed : Fld := ⟨0, 15⟩
def F.JRN_FAILMASK_Marked : Fld := ⟨16, 15⟩
def F.JRN_FLWR_FlWr : Fld := ⟨0, 32⟩
def F.JRN_STEP_Mode : Fld := ⟨0, 2⟩
def F.JRN_STEP_AltFails : Fld := ⟨2, 2⟩
def F.JRN_STEP_Outcome : Fld := ⟨4, 4⟩
def F.JRN_STEP_Attempts : Fld := ⟨8, 4⟩
def F.JRN_STEP_Code : Fld := ⟨16, 8⟩
def F.JRN_STEP_Revert : Fld := ⟨31, 1⟩

/-! ### Rows, block by block -/

def rowsSYS : List RegRow := [
  ⟨0x0, [], 0x0, 0x0, 0xab018001⟩,
  ⟨0x4, [], 0x0, 0x0, 0x443010c8⟩,
  ⟨0x100, [], 0x3, 0x0, 0x2⟩,
  ⟨0x104, [], 0x0, 0x0, 0x0⟩,
  ⟨0x108, [], 0x0, 0x3f, 0x0⟩,
  ⟨0x10c, [], 0x0, 0x0, 0x0⟩,
  ⟨0x120, [], 0x0, 0x0, 0x0⟩,
  ⟨0x124, [], 0x0, 0x0, 0x0⟩,
  ⟨0x128, [], 0xffffffff, 0x0, 0x0⟩,
  ⟨0x12c, [], 0xffffffff, 0x0, 0x0⟩,
  ⟨0x130, [], 0xf3, 0x0, 0xc0⟩,
  ⟨0x134, [], 0xffffffff, 0x0, 0x0⟩,
  ⟨0x138, [], 0x0, 0x0, 0x0⟩,
  ⟨0x13c, [], 0x0, 0x0, 0x0⟩,
  ⟨0x140, [], 0x0, 0x2, 0x0⟩]
def rowsCQ : List RegRow := [
  ⟨0x100000, [], 0x0, 0x0, 0x0⟩,
  ⟨0x100004, [], 0x0, 0x0, 0x40⟩,
  ⟨0x110000, [(0x40, 1024)], 0x1fff, 0x0, 0x7ff⟩,
  ⟨0x110004, [(0x40, 1024)], 0x1f, 0x0, 0x0⟩,
  ⟨0x110008, [(0x40, 1024)], 0xffffff, 0x0, 0x0⟩,
  ⟨0x11000c, [(0x40, 1024)], 0x0, 0x1f0, 0x0⟩,
  ⟨0x110010, [(0x40, 1024)], 0xffffffff, 0x0, 0x0⟩,
  ⟨0x110014, [(0x40, 1024)], 0xffffffff, 0x0, 0x0⟩,
  ⟨0x110018, [(0x40, 1024)], 0xffffff, 0x0, 0x0⟩,
  ⟨0x11001c, [(0x40, 1024)], 0x3ff, 0x0, 0x0⟩,
  ⟨0x110020, [(0x40, 1024), (0x4, 4)], 0x0, 0x0, 0x0⟩,
  ⟨0x110030, [(0x40, 1024)], 0x0, 0x0, 0x0⟩,
  ⟨0x110034, [(0x40, 1024)], 0x0, 0x0, 0x0⟩,
  ⟨0x120000, [(0x40, 128)], 0x7f, 0x0, 0x0⟩,
  ⟨0x120004, [(0x40, 128)], 0x0, 0x8, 0x0⟩,
  ⟨0x120008, [(0x40, 128)], 0x0, 0x0, 0x0⟩,
  ⟨0x12000c, [(0x40, 128)], 0x0, 0x0, 0x0⟩,
  ⟨0x120010, [(0x40, 128)], 0x0, 0x0, 0x7ff0000⟩,
  ⟨0x120014, [(0x40, 128)], 0x0, 0x0, 0x0⟩,
  ⟨0x120018, [(0x40, 128)], 0x0, 0x0, 0x0⟩,
  ⟨0x12001c, [(0x40, 128)], 0x0, 0x0, 0x0⟩,
  ⟨0x130000, [(0x4, 128)], 0x1fff, 0x0, 0x7ff⟩]
def rowsENC : List RegRow := [
  ⟨0x180000, [(0x100, 32)], 0x3ff, 0x0, 0x220⟩,
  ⟨0x180004, [(0x100, 32)], 0xffffff, 0x0, 0x0⟩,
  ⟨0x180008, [(0x100, 32)], 0x0, 0xf8, 0x0⟩,
  ⟨0x18000c, [(0x100, 32)], 0x0, 0x0, 0x0⟩,
  ⟨0x180010, [(0x100, 32)], 0x0, 0x0, 0x0⟩,
  ⟨0x180014, [(0x100, 32)], 0x0, 0x0, 0x0⟩,
  ⟨0x180018, [(0x100, 32)], 0xffffffff, 0x0, 0x0⟩,
  ⟨0x18001c, [(0x100, 32)], 0x0, 0x0, 0x0⟩,
  ⟨0x180020, [(0x100, 32)], 0x0, 0x0, 0x0⟩,
  ⟨0x180024, [(0x100, 32)], 0x0, 0x0, 0x0⟩,
  ⟨0x180028, [(0x100, 32)], 0x0, 0x0, 0x0⟩,
  ⟨0x180040, [(0x100, 32), (0x10, 2)], 0xf, 0x0, 0x0⟩,
  ⟨0x180044, [(0x100, 32), (0x10, 2)], 0xffffffff, 0x0, 0x0⟩,
  ⟨0x180048, [(0x100, 32), (0x10, 2)], 0xff, 0x0, 0x0⟩,
  ⟨0x18004c, [(0x100, 32), (0x10, 2)], 0xffffffff, 0x0, 0x0⟩]
def rowsPG : List RegRow := [
  ⟨0x200000, [(0x800, 512)], 0x1ff, 0x0, 0x0⟩,
  ⟨0x200004, [(0x800, 512)], 0x0, 0xff00, 0x0⟩,
  ⟨0x200008, [(0x800, 512)], 0xffffff, 0x0, 0x0⟩,
  ⟨0x20000c, [(0x800, 512)], 0xffffff, 0x0, 0x0⟩,
  ⟨0x200010, [(0x800, 512)], 0xffffffff, 0x0, 0x0⟩,
  ⟨0x200014, [(0x800, 512)], 0xffffff, 0x0, 0x0⟩,
  ⟨0x200018, [(0x800, 512)], 0x0, 0x0, 0x0⟩,
  ⟨0x20001c, [(0x800, 512)], 0x1ff, 0x0, 0x0⟩,
  ⟨0x200020, [(0x800, 512), (0x4, 2)], 0xff, 0x0, 0x0⟩,
  ⟨0x200028, [(0x800, 512)], 0xff07, 0x0, 0x802⟩,
  ⟨0x20002c, [(0x800, 512)], 0x0, 0x0, 0x0⟩,
  ⟨0x200030, [(0x800, 512)], 0x1, 0x0, 0x0⟩,
  ⟨0x200100, [(0x800, 512), (0x80, 2), (0x4, 32)], 0x801fffff, 0x0, 0x0⟩]
def rowsAT0 : List RegRow := [
  ⟨0x400000, [(0x2000, 128)], 0x3f, 0x0, 0x0⟩,
  ⟨0x400004, [(0x2000, 128)], 0x0, 0x7f00, 0x0⟩,
  ⟨0x400008, [(0x2000, 128)], 0xffffffff, 0x0, 0x0⟩,
  ⟨0x40000c, [(0x2000, 128)], 0xff3, 0x0, 0x0⟩,
  ⟨0x400010, [(0x2000, 128)], 0x0, 0x0, 0x0⟩,
  ⟨0x400014, [(0x2000, 128)], 0xff, 0x0, 0x33⟩,
  ⟨0x400018, [(0x2000, 128)], 0x7fffff, 0x0, 0x40080⟩,
  ⟨0x40001c, [(0x2000, 128)], 0x7f00, 0x0, 0x0⟩,
  ⟨0x400040, [(0x2000, 128), (0x10, 4)], 0x3fffff, 0x0, 0x0⟩,
  ⟨0x400044, [(0x2000, 128), (0x10, 4)], 0xfff, 0x0, 0x0⟩,
  ⟨0x400048, [(0x2000, 128), (0x10, 4)], 0x0, 0x0, 0x0⟩,
  ⟨0x400080, [(0x2000, 128), (0x4, 2)], 0x1, 0x0, 0x0⟩,
  ⟨0x400100, [(0x2000, 128)], 0x7ff, 0x0, 0x0⟩,
  ⟨0x400104, [(0x2000, 128)], 0x0, 0xfff0000, 0x0⟩,
  ⟨0x400108, [(0x2000, 128)], 0xffff, 0x0, 0x0⟩,
  ⟨0x40010c, [(0x2000, 128)], 0xffff, 0x0, 0x0⟩,
  ⟨0x400110, [(0x2000, 128)], 0x1ffe, 0x0, 0x0⟩,
  ⟨0x400114, [(0x2000, 128)], 0x0, 0x0, 0x0⟩,
  ⟨0x400118, [(0x2000, 128)], 0x3fffff, 0x0, 0xcc610⟩,
  ⟨0x40011c, [(0x2000, 128)], 0x0, 0x0, 0x0⟩,
  ⟨0x400120, [(0x2000, 128)], 0x3f, 0x100, 0x0⟩,
  ⟨0x400124, [(0x2000, 128)], 0xfff, 0x0, 0x0⟩,
  ⟨0x400200, [(0x2000, 128), (0x100, 2)], 0xffff001f, 0x0, 0x1⟩,
  ⟨0x400210, [(0x2000, 128), (0x100, 2), (0x8, 16)], 0x7fff3fff, 0x0, 0x0⟩]
def rowsAT1 : List RegRow := [
  ⟨0x400214, [(0x2000, 128), (0x100, 2), (0x8, 16)], 0xffffffff, 0x0, 0x4000⟩]
def rowsDCE : List RegRow := [
  ⟨0x500000, [(0x20000, 8)], 0x0, 0x10000, 0x0⟩,
  ⟨0x500010, [(0x20000, 8)], 0x0, 0x0, 0x47c⟩,
  ⟨0x500014, [(0x20000, 8)], 0x0, 0x0, 0x17f8⟩,
  ⟨0x500018, [(0x20000, 8)], 0x0, 0x0, 0x77f4⟩,
  ⟨0x50001c, [(0x20000, 8)], 0x0, 0x0, 0x1dff4⟩,
  ⟨0x500020, [(0x20000, 8)], 0x0, 0x0, 0x65ff4⟩,
  ⟨0x500030, [(0x20000, 8)], 0x0, 0x0, 0x11f⟩,
  ⟨0x500034, [(0x20000, 8)], 0x0, 0x0, 0x5fe⟩,
  ⟨0x500038, [(0x20000, 8)], 0x0, 0x0, 0x1dfd⟩,
  ⟨0x50003c, [(0x20000, 8)], 0x0, 0x0, 0x77fd⟩,
  ⟨0x500040, [(0x20000, 8)], 0x0, 0x0, 0x197fd⟩,
  ⟨0x500100, [(0x20000, 8), (0x4, 4)], 0x0, 0x0, 0x0⟩,
  ⟨0x500180, [(0x20000, 8), (0x4, 5)], 0x0, 0x0, 0x0⟩,
  ⟨0x500200, [(0x20000, 8), (0x4, 6)], 0x0, 0x0, 0x0⟩,
  ⟨0x500280, [(0x20000, 8), (0x4, 6)], 0x0, 0x0, 0x0⟩,
  ⟨0x500300, [(0x20000, 8), (0x4, 24)], 0x0, 0x0, 0x0⟩,
  ⟨0x501000, [(0x20000, 8), (0x100, 32)], 0xff, 0x0, 0x0⟩,
  ⟨0x501004, [(0x20000, 8), (0x100, 32)], 0x3ff3f, 0x0, 0x0⟩,
  ⟨0x501008, [(0x20000, 8), (0x100, 32)], 0xffffffff, 0x0, 0x0⟩,
  ⟨0x50100c, [(0x20000, 8), (0x100, 32)], 0xffff, 0x0, 0x0⟩,
  ⟨0x501010, [(0x20000, 8), (0x100, 32)], 0x1f, 0x0, 0xa⟩,
  ⟨0x501014, [(0x20000, 8), (0x100, 32)], 0x0, 0x0, 0x0⟩,
  ⟨0x501018, [(0x20000, 8), (0x100, 32)], 0xffffffff, 0x0, 0x0⟩,
  ⟨0x501020, [(0x20000, 8), (0x100, 32), (0x4, 2)], 0x3fffffff, 0x0, 0x0⟩,
  ⟨0x501028, [(0x20000, 8), (0x100, 32)], 0x3fff, 0x0, 0x0⟩,
  ⟨0x50102c, [(0x20000, 8), (0x100, 32)], 0x0, 0xff00, 0x0⟩,
  ⟨0x501030, [(0x20000, 8), (0x100, 32)], 0xff00, 0x0, 0x0⟩,
  ⟨0x501034, [(0x20000, 8), (0x100, 32)], 0x0, 0x0, 0x0⟩,
  ⟨0x501038, [(0x20000, 8), (0x100, 32)], 0x0, 0x0, 0x0⟩,
  ⟨0x50103c, [(0x20000, 8), (0x100, 32)], 0x0, 0x0, 0x0⟩,
  ⟨0x501040, [(0x20000, 8), (0x100, 32)], 0x0, 0x0, 0x0⟩,
  ⟨0x501044, [(0x20000, 8), (0x100, 32)], 0x0, 0x0, 0x0⟩,
  ⟨0x501048, [(0x20000, 8), (0x100, 32)], 0x0, 0x0, 0x0⟩]
def rowsHD : List RegRow := [
  ⟨0x300000, [(0x8000, 32)], 0x1ffff, 0x0, 0x0⟩,
  ⟨0x300004, [(0x8000, 32)], 0x3ff, 0x0, 0x2⟩,
  ⟨0x300008, [(0x8000, 32)], 0xffff1fff, 0x0, 0x1000⟩,
  ⟨0x30000c, [(0x8000, 32)], 0xf1f, 0x0, 0x0⟩,
  ⟨0x300010, [(0x8000, 32)], 0x0, 0xfff00, 0x0⟩,
  ⟨0x300014, [(0x8000, 32)], 0xffffffff, 0x0, 0x0⟩,
  ⟨0x300018, [(0x8000, 32)], 0xffff, 0x0, 0x0⟩,
  ⟨0x30001c, [(0x8000, 32)], 0xf, 0x0, 0x4⟩,
  ⟨0x300020, [(0x8000, 32)], 0xffffffff, 0x0, 0x0⟩,
  ⟨0x300024, [(0x8000, 32)], 0x0, 0x0, 0x0⟩,
  ⟨0x300028, [(0x8000, 32)], 0x0, 0x0, 0x0⟩,
  ⟨0x30002c, [(0x8000, 32)], 0x0, 0x0, 0x0⟩,
  ⟨0x300030, [(0x8000, 32)], 0xffffffff, 0x0, 0x0⟩,
  ⟨0x300034, [(0x8000, 32)], 0xffff, 0x0, 0x0⟩,
  ⟨0x300038, [(0x8000, 32)], 0x1f, 0x0, 0xa⟩,
  ⟨0x30003c, [(0x8000, 32)], 0x0, 0x0, 0x0⟩,
  ⟨0x300040, [(0x8000, 32)], 0xffffffff, 0x0, 0x0⟩,
  ⟨0x300044, [(0x8000, 32), (0x4, 2)], 0x0, 0x0, 0x0⟩,
  ⟨0x30004c, [(0x8000, 32), (0x4, 2)], 0x0, 0x0, 0x0⟩,
  ⟨0x300054, [(0x8000, 32), (0x4, 2)], 0x1, 0x0, 0x0⟩,
  ⟨0x30005c, [(0x8000, 32)], 0x0, 0x0, 0x0⟩,
  ⟨0x300060, [(0x8000, 32)], 0x0, 0x0, 0x0⟩,
  ⟨0x300064, [(0x8000, 32)], 0xfff00, 0x0, 0x0⟩,
  ⟨0x304000, [(0x8000, 32), (0x4, 4096)], 0xffffffff, 0x0, 0x0⟩]
def rowsPL : List RegRow := [
  ⟨0xb0000, [], 0x1fff, 0x0, 0x0⟩,
  ⟨0xb0004, [], 0x1f, 0x0, 0x1f⟩,
  ⟨0xb0008, [], 0xffffffff, 0x0, 0x0⟩,
  ⟨0xb000c, [], 0xffffff, 0x0, 0x4c5⟩,
  ⟨0xb0010, [], 0xffffffff, 0x0, 0x0⟩,
  ⟨0xb0014, [], 0xff, 0x0, 0x0⟩,
  ⟨0xb0018, [], 0xffffffff, 0x0, 0x0⟩,
  ⟨0xb001c, [], 0xff, 0x0, 0x0⟩,
  ⟨0xb0020, [], 0xffffffff, 0x0, 0x1f400⟩,
  ⟨0xb0024, [], 0xfff, 0x0, 0x0⟩,
  ⟨0xb0028, [], 0xffffff, 0x0, 0x0⟩,
  ⟨0xb002c, [], 0xffffffff, 0x0, 0x0⟩,
  ⟨0xb0030, [], 0x0, 0x3f800000, 0x0⟩,
  ⟨0xb0034, [], 0xffffffff, 0x0, 0x0⟩,
  ⟨0xb0038, [], 0xffff, 0x0, 0x0⟩,
  ⟨0xb003c, [], 0x3f, 0x0, 0xa⟩,
  ⟨0xb0040, [], 0x0, 0x0, 0x0⟩,
  ⟨0xb0044, [], 0xffffffff, 0x0, 0x0⟩,
  ⟨0xb0048, [], 0xffffffff, 0x0, 0x0⟩,
  ⟨0xb004c, [], 0xffffffff, 0x0, 0x0⟩,
  ⟨0xb0050, [], 0x0, 0x0, 0x0⟩,
  ⟨0xb0054, [], 0x0, 0x0, 0x0⟩,
  ⟨0xb0058, [], 0x0, 0x0, 0x0⟩]
def rowsME : List RegRow := [
  ⟨0x800000, [(0x4000, 192)], 0xf2, 0x0, 0x0⟩,
  ⟨0x800004, [(0x4000, 192)], 0x0, 0x7f00, 0x0⟩,
  ⟨0x800008, [(0x4000, 192)], 0xffffffff, 0x0, 0x0⟩,
  ⟨0x80000c, [(0x4000, 192)], 0xffff, 0x0, 0x0⟩,
  ⟨0x800010, [(0x4000, 192)], 0x0, 0x0, 0x0⟩,
  ⟨0x800014, [(0x4000, 192)], 0x0, 0x0, 0x0⟩,
  ⟨0x800018, [(0x4000, 192)], 0x0, 0x0, 0x0⟩,
  ⟨0x80001c, [(0x4000, 192)], 0x0, 0x0, 0x0⟩,
  ⟨0x800020, [(0x4000, 192)], 0x0, 0x0, 0x0⟩,
  ⟨0x800024, [(0x4000, 192)], 0xffff, 0x0, 0x64⟩,
  ⟨0x800028, [(0x4000, 192)], 0x7f00, 0x0, 0x100⟩,
  ⟨0x80002c, [(0x4000, 192)], 0x0, 0x0, 0x0⟩,
  ⟨0x800030, [(0x4000, 192)], 0x0, 0x0, 0x0⟩,
  ⟨0x800034, [(0x4000, 192)], 0x0, 0x0, 0x0⟩,
  ⟨0x800040, [(0x4000, 192), (0x8, 8)], 0xffffffff, 0x0, 0x0⟩,
  ⟨0x800044, [(0x4000, 192), (0x8, 8)], 0x3ffffff, 0x0, 0xc0000⟩,
  ⟨0x800100, [(0x4000, 192)], 0x8, 0x0, 0x0⟩,
  ⟨0x800104, [(0x4000, 192)], 0x0, 0x0, 0x0⟩,
  ⟨0x800108, [(0x4000, 192)], 0x0, 0x0, 0x0⟩,
  ⟨0x800110, [(0x4000, 192), (0x8, 4)], 0xffffffff, 0x0, 0x0⟩,
  ⟨0x800114, [(0x4000, 192), (0x8, 4)], 0x1ffff, 0x0, 0x0⟩,
  ⟨0x800200, [(0x4000, 192), (0x4, 64)], 0xffffffff, 0x0, 0x0⟩]
def rowsJQ : List RegRow := [
  ⟨0x600000, [(0x200, 4096)], 0x1fffff, 0x0, 0x210⟩,
  ⟨0x600004, [(0x200, 4096)], 0xfff, 0x0, 0xfff⟩,
  ⟨0x600008, [(0x200, 4096)], 0xffffffff, 0x0, 0x0⟩,
  ⟨0x60000c, [(0x200, 4096)], 0xffff, 0x0, 0x0⟩,
  ⟨0x600010, [(0x200, 4096)], 0x1f, 0x0, 0x4⟩,
  ⟨0x600014, [(0x200, 4096)], 0x0, 0x0, 0x0⟩,
  ⟨0x600018, [(0x200, 4096)], 0x0, 0x0, 0x0⟩,
  ⟨0x60001c, [(0x200, 4096)], 0xffffffff, 0x0, 0x3e8⟩,
  ⟨0x600020, [(0x200, 4096)], 0x0, 0x0, 0x4⟩,
  ⟨0x600024, [(0x200, 4096)], 0x0, 0x7f, 0x0⟩,
  ⟨0x600028, [(0x200, 4096)], 0x0, 0x0, 0xffffffff⟩,
  ⟨0x60002c, [(0x200, 4096)], 0x0, 0x0, 0xffffffff⟩,
  ⟨0x600030, [(0x200, 4096)], 0x0, 0x0, 0x0⟩,
  ⟨0x600034, [(0x200, 4096)], 0x0, 0x0, 0x0⟩,
  ⟨0x600038, [(0x200, 4096)], 0x0, 0x0, 0x0⟩,
  ⟨0x60003c, [(0x200, 4096)], 0x0, 0x0, 0x0⟩,
  ⟨0x600040, [(0x200, 4096)], 0xffffffff, 0x0, 0x0⟩,
  ⟨0x600044, [(0x200, 4096)], 0xffff, 0x0, 0x0⟩,
  ⟨0x600048, [(0x200, 4096)], 0x0, 0x0, 0x0⟩,
  ⟨0x60004c, [(0x200, 4096)], 0x7f, 0x0, 0x0⟩,
  ⟨0x600050, [(0x200, 4096)], 0x0, 0x0, 0x0⟩]
def rowsTST : List RegRow := [
  ⟨0xc00000, [], 0xffff09, 0x6, 0x6401⟩,
  ⟨0xc00004, [], 0x0, 0x0, 0x0⟩,
  ⟨0xc00010, [], 0x0, 0x0, 0x0⟩,
  ⟨0xc00014, [], 0x0, 0x0, 0x0⟩,
  ⟨0xc00018, [], 0x0, 0x0, 0x0⟩,
  ⟨0xc00020, [(0x4, 2)], 0xf00, 0xf, 0x0⟩,
  ⟨0xc00028, [], 0xf00, 0xf, 0x0⟩,
  ⟨0xc00100, [(0x20, 12)], 0x0, 0xff00, 0x0⟩,
  ⟨0xc00104, [(0x20, 12)], 0xff00, 0x0, 0x0⟩,
  ⟨0xc00108, [(0x20, 12)], 0x0, 0x0, 0x0⟩,
  ⟨0xc0010c, [(0x20, 12)], 0x0, 0x0, 0x0⟩,
  ⟨0xc00110, [(0x20, 12)], 0x0, 0x0, 0x0⟩,
  ⟨0xc00114, [(0x20, 12)], 0x0, 0x0, 0x0⟩,
  ⟨0xc00118, [(0x20, 12)], 0x0, 0x0, 0x0⟩]
def rowsMEMC : List RegRow := [
  ⟨0x80000, [], 0x0, 0x100, 0x0⟩,
  ⟨0x80004, [], 0x7f, 0x0, 0x1⟩,
  ⟨0x80008, [], 0x0, 0x0, 0x0⟩,
  ⟨0x8000c, [], 0xff01, 0x0, 0x1801⟩,
  ⟨0x80010, [], 0x0, 0x0, 0x0⟩,
  ⟨0x80014, [], 0x0, 0x0, 0x0⟩,
  ⟨0x80100, [(0x20, 4)], 0x0, 0x0, 0x0⟩,
  ⟨0x80104, [(0x20, 4)], 0x0, 0xff, 0x0⟩,
  ⟨0x80108, [(0x20, 4)], 0x0, 0x0, 0x0⟩,
  ⟨0x8010c, [(0x20, 4)], 0xff, 0x0, 0xf0⟩]
def rowsHOST : List RegRow := [
  ⟨0x60000, [], 0x0, 0x0, 0x0⟩,
  ⟨0x60004, [], 0x7, 0x0, 0x4⟩,
  ⟨0x60008, [], 0x0, 0x3ff, 0x0⟩,
  ⟨0x6000c, [], 0x3ff, 0x0, 0x0⟩,
  ⟨0x60010, [], 0x0, 0x0, 0x0⟩,
  ⟨0x60014, [], 0x0, 0x0, 0x0⟩,
  ⟨0x60018, [], 0x0, 0x0, 0x0⟩,
  ⟨0x60100, [], 0x0, 0x0, 0x0⟩,
  ⟨0x60104, [], 0x3, 0x0, 0x3⟩,
  ⟨0x60108, [], 0x0, 0x0, 0x0⟩,
  ⟨0x6010c, [], 0xfffffff, 0x0, 0x0⟩,
  ⟨0x60110, [], 0xffffffff, 0x0, 0x0⟩,
  ⟨0x60114, [], 0xffff, 0x0, 0x0⟩,
  ⟨0x60118, [], 0x1fffffff, 0x0, 0x0⟩,
  ⟨0x6011c, [], 0x0, 0x0, 0x0⟩]
def rowsDP : List RegRow := [
  ⟨0x70000, [(0x100, 16)], 0xff, 0x0, 0x0⟩,
  ⟨0x70004, [(0x100, 16)], 0xffffffff, 0x0, 0x0⟩,
  ⟨0x70008, [(0x100, 16)], 0xffff, 0x0, 0x0⟩,
  ⟨0x7000c, [(0x100, 16)], 0xffffffff, 0x0, 0x0⟩,
  ⟨0x70010, [(0x100, 16)], 0xffffffff, 0x0, 0x0⟩,
  ⟨0x70014, [(0x100, 16)], 0xffff, 0x0, 0x0⟩,
  ⟨0x70018, [(0x100, 16)], 0x0, 0x70000, 0x0⟩]
def rowsCFG : List RegRow := [
  ⟨0x90000, [], 0x3, 0x0, 0x0⟩,
  ⟨0x90004, [], 0x0, 0x3f00, 0x0⟩,
  ⟨0x90008, [], 0x3, 0x0, 0x0⟩,
  ⟨0x9000c, [], 0xffffffff, 0x0, 0x0⟩,
  ⟨0x90010, [], 0xffff, 0x0, 0x0⟩,
  ⟨0x90014, [], 0xffffffff, 0x0, 0x0⟩,
  ⟨0x90018, [], 0xffffffff, 0x0, 0x0⟩,
  ⟨0x9001c, [], 0x0, 0x0, 0x0⟩,
  ⟨0x90020, [], 0x0, 0x0, 0x0⟩,
  ⟨0x90024, [], 0x0, 0x0, 0x0⟩,
  ⟨0x90028, [], 0x0, 0x0, 0x0⟩,
  ⟨0x9002c, [], 0x0, 0x0, 0x0⟩,
  ⟨0x90030, [], 0x0, 0x0, 0x0⟩,
  ⟨0x90034, [], 0x0, 0x0, 0x0⟩,
  ⟨0x90038, [], 0x0, 0x0, 0x0⟩,
  ⟨0x9003c, [], 0x3f00, 0x0, 0x300⟩,
  ⟨0x90040, [(0x4, 8)], 0x0, 0x0, 0x0⟩,
  ⟨0x91000, [(0x100, 16)], 0x0, 0x700, 0x0⟩,
  ⟨0x91004, [(0x100, 16)], 0xffff, 0x0, 0x0⟩,
  ⟨0x91008, [(0x100, 16)], 0x700, 0x0, 0x500⟩,
  ⟨0x91010, [(0x100, 16), (0x8, 4)], 0xffffffff, 0x0, 0x0⟩,
  ⟨0x91014, [(0x100, 16), (0x8, 4)], 0xffffff, 0x0, 0xc0000⟩,
  ⟨0x91040, [(0x100, 16), (0x4, 32)], 0xffffffff, 0x0, 0x0⟩]
def rowsMNT : List RegRow := [
  ⟨0x30000, [], 0x0, 0x1ff00, 0x0⟩,
  ⟨0x30004, [], 0x0, 0x0, 0x0⟩,
  ⟨0x30008, [], 0x1ff00, 0x0, 0x1e200⟩,
  ⟨0x30010, [], 0x0, 0x0, 0x0⟩,
  ⟨0x30014, [], 0x0, 0x0, 0x0⟩,
  ⟨0x30020, [(0x4, 8)], 0x0, 0x0, 0x0⟩,
  ⟨0x30300, [(0x4, 16)], 0x0, 0x0, 0x0⟩,
  ⟨0x30340, [(0x4, 8)], 0x0, 0x0, 0x0⟩,
  ⟨0x30040, [], 0xffffffff, 0x0, 0x0⟩,
  ⟨0x30044, [], 0xffff, 0x0, 0x0⟩,
  ⟨0x30048, [], 0x3, 0x0, 0x0⟩,
  ⟨0x3004c, [], 0x0, 0x0, 0x0⟩,
  ⟨0x30050, [], 0x0, 0x0, 0x0⟩,
  ⟨0x30058, [], 0x0, 0x0, 0x0⟩,
  ⟨0x3005c, [], 0x0, 0x0, 0x0⟩,
  ⟨0x30360, [], 0x0, 0x0, 0x0⟩,
  ⟨0x30100, [(0x40, 4)], 0x0, 0x0, 0x0⟩,
  ⟨0x30104, [(0x40, 4), (0x4, 8)], 0x0, 0x0, 0x0⟩,
  ⟨0x30200, [(0x4, 64)], 0x0, 0x0, 0x0⟩,
  ⟨0x30400, [(0x10, 8)], 0xffffffff, 0x0, 0x0⟩,
  ⟨0x30404, [(0x10, 8)], 0xffff, 0x0, 0x0⟩,
  ⟨0x30408, [(0x10, 8)], 0xfff1fff, 0x0, 0x28⟩]
def rowsSL0 : List RegRow := [
  ⟨0xa0000, [], 0xfffff, 0x0, 0x1e000⟩,
  ⟨0xa0008, [], 0xffffff, 0x0, 0x64⟩,
  ⟨0xa000c, [], 0x0, 0x0, 0x0⟩,
  ⟨0xa0010, [], 0x0, 0x0, 0x0⟩,
  ⟨0xa0020, [], 0xffffffff, 0x0, 0x0⟩,
  ⟨0xa0024, [], 0xffff, 0x0, 0x0⟩,
  ⟨0xa0028, [], 0x1f, 0x0, 0xc⟩,
  ⟨0xa002c, [], 0x0, 0x0, 0x0⟩,
  ⟨0xa0030, [], 0xffffffff, 0x0, 0x0⟩,
  ⟨0xa0040, [], 0xffffffff, 0x0, 0x0⟩,
  ⟨0xa0044, [], 0xffffffff, 0x0, 0x0⟩,
  ⟨0xa0048, [], 0x3ffffff, 0x0, 0x0⟩,
  ⟨0xa004c, [], 0x3ff1fff, 0x0, 0x0⟩,
  ⟨0xa0050, [], 0x0, 0x0, 0x0⟩,
  ⟨0xa0060, [], 0xffffffff, 0x0, 0x0⟩,
  ⟨0xa0064, [], 0xffff, 0x0, 0x0⟩,
  ⟨0xa0068, [], 0xfff, 0x0, 0x0⟩,
  ⟨0xa0070, [], 0x0, 0x0, 0x0⟩,
  ⟨0xa0100, [(0x40, 4)], 0xf1, 0x0, 0xf0⟩,
  ⟨0xa0104, [(0x40, 4)], 0x0, 0x0, 0x0⟩,
  ⟨0xa0108, [(0x40, 4)], 0x0, 0x1fff, 0x0⟩,
  ⟨0xa010c, [(0x40, 4)], 0x1fff, 0x0, 0x62⟩,
  ⟨0xa0110, [(0x40, 4)], 0x0, 0x0, 0x0⟩,
  ⟨0xa0114, [(0x40, 4)], 0xffffffff, 0x0, 0x3e80040⟩]
def rowsSL1 : List RegRow := [
  ⟨0xa0118, [(0x40, 4)], 0x0, 0x0, 0x0⟩,
  ⟨0xa1000, [(0x10, 64)], 0xffffffff, 0x0, 0x0⟩,
  ⟨0xa1004, [(0x10, 64)], 0xffff, 0x0, 0x0⟩,
  ⟨0xa1008, [(0x10, 64)], 0x83ffffff, 0x0, 0x0⟩,
  ⟨0xa1400, [(0x10, 8)], 0xffffffff, 0x0, 0x0⟩,
  ⟨0xa1404, [(0x10, 8)], 0xffff, 0x0, 0x0⟩,
  ⟨0xa1408, [(0x10, 8)], 0x1ff, 0x0, 0xc⟩,
  ⟨0xa1800, [(0x4, 256)], 0x1f, 0x0, 0x0⟩,
  ⟨0xa4000, [(0x4, 4096)], 0x3f, 0x0, 0x3f⟩]
def rowsCAL : List RegRow := [
  ⟨0x40000, [], 0xfff7f01, 0x0, 0x1900801⟩,
  ⟨0x40004, [], 0xffff, 0x0, 0x64⟩,
  ⟨0x40008, [], 0x0, 0x100, 0x0⟩,
  ⟨0x40010, [(0x4, 12)], 0x0, 0x0, 0x0⟩,
  ⟨0x40040, [], 0x1f, 0x0, 0x16⟩,
  ⟨0x41000, [(0x100, 128)], 0x3, 0x0, 0x0⟩,
  ⟨0x41004, [(0x100, 128)], 0x0, 0xf00, 0x0⟩,
  ⟨0x41010, [(0x100, 128), (0x10, 2)], 0xffffffff, 0x0, 0x40000000⟩,
  ⟨0x41014, [(0x100, 128), (0x10, 2)], 0xffffff, 0x0, 0x0⟩,
  ⟨0x41018, [(0x100, 128), (0x10, 2)], 0xffffff, 0x0, 0x0⟩,
  ⟨0x41040, [(0x100, 128), (0x10, 4)], 0xffffffff, 0x0, 0x4000⟩,
  ⟨0x41044, [(0x100, 128), (0x10, 4), (0x4, 2)], 0xffffffff, 0x0, 0x0⟩,
  ⟨0x4104c, [(0x100, 128), (0x10, 4)], 0xffff, 0x0, 0x0⟩,
  ⟨0x41080, [(0x100, 128), (0x4, 4)], 0xffff, 0x0, 0x0⟩,
  ⟨0x41090, [(0x100, 128), (0x4, 2)], 0x0, 0x0, 0x40000000⟩]
def rowsLIO : List RegRow := [
  ⟨0x50000, [(0x10, 8)], 0xffffffff, 0x0, 0x0⟩,
  ⟨0x50004, [(0x10, 8)], 0x0, 0x0, 0x0⟩,
  ⟨0x50008, [(0x10, 8)], 0x0, 0x0, 0x0⟩,
  ⟨0x5000c, [(0x10, 8)], 0x0, 0x0, 0x0⟩,
  ⟨0x50080, [(0x4, 8)], 0x0, 0x0, 0x0⟩,
  ⟨0x500a0, [(0x4, 8)], 0x0, 0x0, 0x0⟩,
  ⟨0x500c0, [], 0x0, 0x0, 0x0⟩,
  ⟨0x500c4, [], 0x700, 0x7, 0x0⟩,
  ⟨0x51000, [(0x4, 256)], 0x3f0fff, 0x0, 0x200⟩,
  ⟨0x51400, [(0x4, 256)], 0x0, 0x0, 0x6⟩,
  ⟨0x58000, [(0x40, 8)], 0xffff001f, 0x0, 0x6c70000⟩,
  ⟨0x58004, [(0x40, 8)], 0xff, 0x0, 0x0⟩,
  ⟨0x58008, [(0x40, 8)], 0x0, 0xf0000, 0x0⟩,
  ⟨0x58200, [(0x40, 4)], 0xffff001f, 0x0, 0x90000⟩,
  ⟨0x58204, [(0x40, 4)], 0xff, 0x0, 0x0⟩,
  ⟨0x58208, [(0x40, 4)], 0x0, 0x10000, 0x0⟩,
  ⟨0x58300, [(0x40, 4)], 0xf, 0x0, 0x0⟩,
  ⟨0x58304, [(0x40, 4)], 0xff7f, 0x0, 0x0⟩,
  ⟨0x58308, [(0x40, 4)], 0xff, 0x0, 0x0⟩,
  ⟨0x5830c, [(0x40, 4)], 0x0, 0xf00, 0x0⟩]
def rowsEVT : List RegRow := [
  ⟨0x10000, [], 0x1fff, 0x0, 0x0⟩,
  ⟨0x10004, [], 0x0, 0x1f, 0x0⟩,
  ⟨0x10008, [], 0x0, 0x0, 0x0⟩,
  ⟨0x1000c, [], 0x0, 0x0, 0x0⟩,
  ⟨0x10020, [], 0x0, 0xfff0000, 0x0⟩,
  ⟨0x10024, [], 0x0, 0x700, 0x0⟩,
  ⟨0x10028, [], 0xffffffff, 0x0, 0x6e00690⟩,
  ⟨0x1002c, [], 0x70fff, 0x0, 0x70fff⟩,
  ⟨0x10100, [(0x4, 32)], 0x0, 0xffffffff, 0x0⟩,
  ⟨0x11000, [(0x4, 1024)], 0xffffffff, 0x0, 0x0⟩]
def rowsJRN : List RegRow := [
  ⟨0x20000, [], 0x0, 0x3f0000, 0x0⟩,
  ⟨0x20004, [], 0x3f, 0x0, 0x1f⟩,
  ⟨0x20008, [], 0x0, 0x0, 0x0⟩,
  ⟨0x2000c, [], 0x0, 0x0, 0x0⟩,
  ⟨0x20010, [], 0x0, 0x0, 0x0⟩,
  ⟨0x20040, [(0x4, 15)], 0x0, 0x0, 0x0⟩]

/-- The rows of the block whose range holds address `a` (R462); none outside every block (R463). -/
def blockRows (a : Nat) : List RegRow :=
  if a < 0x10000 then rowsSYS else
  if a < 0x20000 then rowsEVT else
  if a < 0x30000 then rowsJRN else
  if a < 0x40000 then rowsMNT else
  if a < 0x50000 then rowsCAL else
  if a < 0x60000 then rowsLIO else
  if a < 0x70000 then rowsHOST else
  if a < 0x80000 then rowsDP else
  if a < 0x90000 then rowsMEMC else
  if a < 0xa0000 then rowsCFG else
  if a < 0xb0000 then rowsSL0 ++ rowsSL1 else
  if a < 0xc0000 then rowsPL else
  if a < 0x100000 then [] else
  if a < 0x200000 then rowsCQ ++ rowsENC else
  if a < 0x300000 then rowsPG else
  if a < 0x400000 then rowsHD else
  if a < 0x500000 then rowsAT0 ++ rowsAT1 else
  if a < 0x600000 then rowsDCE else
  if a < 0x800000 then rowsJQ else
  if a < 0xc00000 then rowsME else
  if a < 0xd00000 then rowsTST else
  []

/-- The row of the register at `a`, or none for an unassigned address (R463). -/
def regRow (a : Nat) : Option RegRow := (blockRows a).find? (fun r => r.hit a)

/-- The whole-word reset value of the register at `a` (chapter 21, column Reset). -/
def regReset (a : Nat) : Word :=
  match regRow a with
  | some r => BitVec.ofNat 32 r.reset
  | none => 0

end Sys2Proof.Machine
end

