-- ==== Sys2Proof/Machine/State.lean ====
section
/-!
DEFINITION. The state of the F128 block as plain data: the control-register file, the byte memory,
the internal state of every block, the line time, and the queue of waiting commands.
-/
namespace Sys2Proof.Machine

/-- A sparse table of per-instance state, its keys strictly rising. An instance that is not listed
holds the default value that its block's accessors name (the value at reset). -/
structure Tab (α : Type) where
  cells : List (Nat × α)
  deriving DecidableEq, Repr

/-- Why the machine stops with a fault. Safe: no state follows. -/
inductive Fault where
  /-- No meaning raises it: the spec names no happening that stops the part. Kept so that the
  outcome type is inhabited; safe. -/
  | none
  deriving DecidableEq, Repr

/-- Why a command has no meaning. -/
inductive Refusal where
  /-- Raised by an arm of `exec` whose command has no meaning in this model yet; safe. -/
  | notModelled (mnemonic : String)
  deriving DecidableEq, Repr

/-! ### Clocks and line time (chapter 02) -/

/-- The tick index, LINETIME with its trims, the crystal monitors and the root PLL. -/
structure Clock where
  /-- Tick index: CUE edges since lock (R16). -/
  tick : Nat
  /-- LINETIME in ticks (R26). -/
  lt : Nat
  /-- LINETIME in the last tick of the previous ENG cycle and in the first tick of this one (R29, R197). -/
  ltEnd : Nat
  ltStart : Nat
  /-- Fraction accumulator of R30 in 2^-40 tick. -/
  rateAcc : Int
  /-- SYS_LT_PENDING (R31). -/
  slew : BitVec 32
  /-- Ticks counted by the slew counter of R31. -/
  slewCnt : Nat
  /-- Tick of a write of Load that waits for the next CONV edge (R33). -/
  loadReq : Option Nat
  aValid : Bool
  bValid : Bool
  /-- Tick at which each crystal last became valid (R24, R487). -/
  aSince : Nat
  bSince : Nat
  /-- Tick after the one in which each crystal was last declared lost; 0 for none (R487). -/
  aLost : Nat
  bLost : Nat
  /-- The crystal in use: false A, true B. -/
  active : Bool
  /-- The crystal being switched to while Switching is 1 (R20, R23). -/
  switching : Option Bool
  /-- Tick at which the switch in progress began (R20, R23). -/
  switchAt : Nat
  holdover : Bool
  /-- Tick of the declaration that started holdover (R24). -/
  lossTick : Nat
  /-- LINETIME of that declaration, for the fault log. -/
  lossLt : Nat
  /-- The crystal whose loss started holdover. -/
  lostXtal : Bool
  pllLocked : Bool
  clockLost : Bool
  /-- A reference has been reacquired after the expiry of R24. -/
  reacquired : Bool
  /-- Release has been written since ClockLost (R24). -/
  released : Bool
  loopBw : Bool
  /-- Step 0x03 has declared lock since the reset: CUE edges come (R16). -/
  run : Bool
  deriving DecidableEq, Repr

/-! ### Cue fabric and encoders (chapter 03) -/

/-- State of an armed slot. -/
inductive SlotSt where
  | free | armed | inFlight
  deriving DecidableEq, Repr

/-- One slot of a cue target (R43 to R46). -/
structure Slot where
  st : SlotSt
  /-- true POSITION, false TIME. -/
  position : Bool
  /-- T, or E in the 40-bit position format. -/
  value : Nat
  enc : Nat
  /-- 0 UP, 1 DOWN, 2 EITHER. -/
  dir : Nat
  delay : Nat
  action : Nat
  /-- 0 engine, 1 host, 2 Seam, 3 SOURCE edge. -/
  armedBy : Nat
  /-- Tick index of the effect while IN_FLIGHT: the slot is free in the tick after it (R46). While ARMED,
  the tick of the arming. -/
  due : Nat
  deriving DecidableEq, Repr

def Slot.init : Slot :=
  { st := .free, position := false, value := 0, enc := 0, dir := 0, delay := 0, action := 0, armedBy := 0, due := 0 }

/-- An effect on its way through the 64-tick path of R34. -/
structure Flight where
  /-- The slot it holds, or none for a SOURCE edge with SrcDelay 0. -/
  slot : Option Nat
  /-- The sampling tick, and the delay D added to the path. -/
  start : Nat
  delay : Nat
  /-- Tick index of the effect. -/
  due : Nat
  action : Nat
  /-- Level carried under FOLLOW (R50). -/
  level : Option Bool
  /-- Stamp of R36 or the satisfying tick minus 1 (R51), in ticks. -/
  stamp : Nat
  frac : Nat
  /-- Source number, or 0x7FF for a slot. -/
  source : Nat
  /-- Position of the capture unit's encoder at the sampling tick. -/
  pos : Nat
  deriving DecidableEq, Repr

/-- A capture record (R51). -/
structure CapRec where
  stamp : Nat
  frac : Nat
  source : Nat
  pos : Nat
  deriving DecidableEq, Repr

/-- Internal state of one cue target. -/
structure Target where
  slots : List Slot
  flights : List Flight
  /-- CQ_TSEL and CQ_TCTL before a write of this tick, with that tick (R49). -/
  old : Option (Nat × Word × Word)
  deriving DecidableEq, Repr

def Target.init : Target :=
  { slots := [Slot.init, Slot.init, Slot.init, Slot.init], flights := [], old := none }

/-- The cue fabric: targets, capture FIFOs, source reference levels and taps. -/
structure Cue where
  targets : Tab Target
  caps : Tab (List CapRec)
  /-- Reference level of each source that has a level (R38). -/
  levels : Tab Bool
  /-- Effects under way to the fabric taps (R52). -/
  taps : Tab (List Flight)
  /-- Phase code and end tick of the last level at a tap (R52). -/
  tapOut : Tab (Nat × Nat)
  deriving DecidableEq, Repr

/-- One input of an encoder between its samples and its acceptance (R54): the accepted level, how many
consecutive samples have shown the other level, and the stamp of the first of them in eighths of a tick. -/
structure EncIn where
  level : Bool
  /-- The first level sampled as owner becomes the accepted level (R61). -/
  fresh : Bool
  run : Nat
  stamp : Nat
  deriving DecidableEq, Repr

/-- A match unit (R59): the tick after which it was last written, the tick after that of its last event,
and whether a further event is due a tick later. -/
structure EncMatch where
  written : Nat
  fired : Nat
  again : Bool
  deriving DecidableEq, Repr

/-- Internal state of one encoder unit (R54 to R62). -/
structure Enc where
  count : BitVec 32
  est : BitVec 40
  /-- Estimate of the previous tick (R58). -/
  prevEst : BitVec 40
  /-- Stamps of the accepted changes in one direction, newest first, in eighths of a tick. -/
  hist : List Nat
  /-- ENC_PERIOD in eighths of a tick. -/
  period : Nat
  dirDown : Bool
  periodValid : Bool
  stopped : Bool
  /-- The estimate is held after an illegal transition (R56). -/
  held : Bool
  a : EncIn
  b : EncIn
  z : EncIn
  /-- Tick of the last accepted change of A or B, none before the first (R54). -/
  last : Option Nat
  /-- Tick of a write of Load, or of an index with IndexLoad, that waits for the next CONV edge, and whether
  it loads 0 (R60, R62). -/
  loadReq : Option (Nat × Bool)
  m0 : EncMatch
  m1 : EncMatch
  deriving DecidableEq, Repr

def EncIn.init : EncIn := { level := false, fresh := false, run := 0, stamp := 0 }

def EncMatch.init : EncMatch := { written := 0, fired := 0, again := false }

def Enc.init : Enc :=
  { count := 0, est := 0, prevEst := 0, hist := [], period := 0, dirDown := false, periodValid := false,
    stopped := false, held := false, a := EncIn.init, b := EncIn.init, z := EncIn.init, last := none,
    loadReq := none, m0 := EncMatch.init, m1 := EncMatch.init }

/-- The clock block after reset: no crystal valid yet, tick 0, LINETIME 0 (R16, R26, R487). -/
def Clock.init : Clock :=
  { tick := 0, lt := 0, ltEnd := 0, ltStart := 0, rateAcc := 0, slew := 0, slewCnt := 0, loadReq := none, aValid := false, bValid := false,
    aSince := 0, bSince := 0, aLost := 0, bLost := 0, active := false, switching := none, switchAt := 0, holdover := false, lossTick := 0, lossLt := 0, lostXtal := false,
    pllLocked := false, clockLost := false, reacquired := false, released := false, loopBw := false, run := false }


/-! ### Pulse generators (chapter 04) -/

/-- A run in progress (R68 to R72): the settings in effect and the cycles begun. -/
structure PgRun where
  /-- The start tick. -/
  start  : Nat
  /-- 0 ONE_SHOT, 1 TRAIN, 2 PWM, 3 SEGSTROBE. -/
  mode   : Nat
  /-- Tick of the first period or cycle start: the start tick plus Lead. -/
  first  : Nat
  width  : Nat
  period : Nat
  count  : Nat
  /-- Tick of the last period or cycle start; the first one before it has come. -/
  cyc    : Nat
  /-- Pulses or cycles begun. -/
  begun  : Nat
  /-- SEGSTROBE: the level left by the previous cycle (R71). -/
  carry  : Bool
  /-- Stop has been written (R74). -/
  stop   : Bool
  /-- A ONE_SHOT pulse cut off by a trip under NEXT: IdleLevel to its end (R76). -/
  mute   : Bool
  deriving DecidableEq, Repr

/-- The trip of a generator (R75 to R80). -/
structure PgTrip where
  /-- The combined trip is active. -/
  active : Bool
  /-- The output is forced: active, or the release has not come. -/
  on     : Bool
  /-- First tick of inactivity after the last activity. -/
  quiet  : Nat
  /-- Tick at which the forcing reaches the ball, at most 19 ticks after the assertion. -/
  reach  : Nat
  /-- TripLevel, Policy and ReleaseTicks as taken at the assertion (R76). -/
  level  : Bool
  policy : Nat
  rel    : Nat
  /-- The level that an earlier assertion still forces until `reach`: none where the output was not forced. -/
  prev   : Option Bool
  /-- NEXT after the release: TripLevel stays until the next period or cycle start. -/
  next   : Bool
  deriving DecidableEq, Repr

structure Pg where
  run   : Option PgRun
  /-- A CHAIN start is pending. -/
  chain : Bool
  /-- Tick after the one in which the last run ended at its end tick; 0 for none. -/
  ended : Nat
  /-- A bank change waits (R72). -/
  bankPend : Option Nat
  bank  : Nat
  /-- IdleLevel in effect (R70). -/
  idle  : Bool
  held  : Bool
  /-- Start tick of a software Start that has not come yet; 0 for none (R66). -/
  soft  : Nat
  /-- Tick from which the output is at IdleLevel after an accepted Rearm (R77). -/
  rearm : Nat
  /-- An Abort, and a written IdleLevel, that take effect in the next tick (R70, R74). -/
  abort : Bool
  reIdle : Bool
  trip  : PgTrip
  deriving DecidableEq, Repr

def PgTrip.init : PgTrip :=
  { active := false, on := false, quiet := 0, reach := 0, level := false, policy := 2, rel := 8, prev := none, next := false }

def Pg.init : Pg :=
  { run := none, chain := false, ended := 0, bankPend := none, bank := 0, idle := false, held := false, soft := 0, rearm := 0,
    abort := false, reIdle := false, trip := PgTrip.init }

/-! ### Analogue tiles (chapter 05) -/

/-- One comparator (R97 to R104). -/
structure Cmp where
  /-- The Range in effect (R99), and the Hyst that acts in the tick before `hystAt` (R100): the tick after that
  of the last write. -/
  range  : Bool
  hyst   : Nat
  hystAt : Nat
  /-- The enable in effect. -/
  on     : Bool
  state  : Bool
  /-- The reported level (R101, R102). -/
  level  : Bool
  /-- CONV edge at which an enable, a selection or a Range takes effect (R99): 0 for none waiting. -/
  initAt : Nat
  /-- Tick of the second CONV edge after the last such edge: no decision before it. -/
  ready  : Nat
  /-- The threshold in effect, and written thresholds with the first tick at which each may act (R100). -/
  th     : Nat
  thPend : List (Nat × Nat)
  deriving DecidableEq, Repr

/-- A selector field between its old and its new connection (R87): fields 0 to 7 of AT_SEL, 8 and 9 for
Bus0Src and Bus1Src; it is open from `opens` and the new code closes at `closes`. -/
structure SelSwitch where
  field  : Nat
  opens  : Nat
  closes : Nat
  code   : Nat
  deriving DecidableEq, Repr

/-- The codes of a modulator (R94): the last CONV edge that gave one, as a tick, how many extreme codes of one
sign have come in a row, and that sign. -/
structure ModSat where
  edge : Nat
  run  : Nat
  high : Bool
  deriving DecidableEq, Repr

def ModSat.init : ModSat := { edge := 0, run := 0, high := false }

/-- The input side of one tile. -/
structure Tile where
  /-- Tick of the write of Bias 1; the bias is ready 20 µs later (R103). -/
  biasAt : Option Nat
  bias   : Bool
  sel    : Word
  /-- Bus sources in effect, in the layout of AT_BUSDRV. -/
  src    : Word
  moves  : List SelSwitch
  /-- AT_PGA in effect, and the word waiting for its CONV edge with that tick (R89). -/
  pga    : Word
  pgaNext : Option (Nat × Word)
  /-- The biquad's output as the fBQ edge of this tick left it, in microvolts (R92). -/
  bqHeld : Option (Nat × Int)
  sat0   : ModSat
  sat1   : ModSat
  /-- AT_BQ in effect, the word waiting for its edge and that tick (R93). -/
  bq     : Word
  bqNext : Option (Nat × Word)
  /-- Tick from which the biquad's output starts from 0 V after a change of Type (R93). -/
  bqZero : Nat
  /-- Tick at which an overloaded modulator resumes (R94); 0 for none. -/
  over0  : Nat
  over1  : Nat
  /-- Window in effect for the odd comparator of each pair, and the tick after that of the last write (R101). -/
  win0   : Bool
  win1   : Bool
  winAt0 : Nat
  winAt1 : Nat
  cmp0   : Cmp
  cmp1   : Cmp
  cmp2   : Cmp
  cmp3   : Cmp
  /-- A calibration step is running (R104), and the comparator it holds. -/
  calBusy : Bool
  calHeld : Option Nat
  /-- Writes held by the step: address and word. -/
  calPend : List (Nat × Word)
  deriving DecidableEq, Repr

/-- One panel bus (R88): the local index of its driver, the tick from which it drives, the tick from which
the bus is released. -/
structure BusOwn where
  tile  : Nat
  start : Nat
  stop  : Option Nat
  deriving DecidableEq, Repr

/-- A clear pin, PCLRp or ALLCLR_N (R125, R126). -/
structure ClrPin where
  low    : Bool
  active : Bool
  /-- Tick of the pin's last return to high. -/
  rise   : Nat
  /-- Tick by which the outputs have reached the clear code. -/
  reach  : Nat
  deriving DecidableEq, Repr

def Cmp.init : Cmp :=
  { range := false, hyst := 0, hystAt := 0, on := false, state := false, level := false, initAt := 0, ready := 0, th := 0, thPend := [] }

def Tile.init : Tile :=
  { biasAt := none, bias := false, sel := 0, src := 0, moves := [], pga := BitVec.ofNat 32 0x33, pgaNext := none, bqHeld := none, sat0 := ModSat.init,
    sat1 := ModSat.init, bq := BitVec.ofNat 32 0x40080, bqNext := none,
    bqZero := 0, over0 := 0, over1 := 0, win0 := false, win1 := false, winAt0 := 0, winAt1 := 0,
    cmp0 := Cmp.init, cmp1 := Cmp.init, cmp2 := Cmp.init, cmp3 := Cmp.init, calBusy := false, calHeld := none,
    calPend := [] }

def ClrPin.init : ClrPin := { low := false, active := false, rise := 0, reach := 0 }

/-! ### Waveform drive (chapter 06) -/

/-- A program playing (R111): its start tick and length in samples. -/
structure DacPlay where
  start : Nat
  len   : Nat
  deriving DecidableEq, Repr

/-- A cross-fade (R120): the old bank, F, and the fade samples played before the current program. -/
structure DacFade where
  old   : Nat
  len   : Nat
  count : Nat
  deriving DecidableEq, Repr

/-- A swap request (R119, R121): its target and fade, and the tick in which it landed. -/
structure DacSwap where
  target : Nat
  fade   : Nat
  at'    : Nat
  deriving DecidableEq, Repr

/-- A waveform word before a write: the write's tick, the word's index, its eight bytes, and whether it read
uncorrectable (R114, R115). -/
structure WaveOld where
  at'   : Nat
  word  : Nat
  bytes : List Byte
  ue    : Bool
  deriving DecidableEq, Repr

/-- The DAC of one tile. -/
structure Dac where
  play    : Option DacPlay
  /-- Tick after the one in which a start reached the tile: it is judged at the tick's end (R126, R133). -/
  go      : Nat
  /-- Tick after the one in which the last program ended; 0 for none. -/
  ended   : Nat
  bank    : Nat
  fade    : Option DacFade
  /-- Tick after the one in which the last cross-fade ended: the old bank is in use in it. -/
  fadeEnd : Nat
  swap    : Option DacSwap
  clearing : Bool
  /-- Normal output has begun: HoldingClear is over (R124). -/
  normal  : Bool
  /-- Source and Range in effect. -/
  prog    : Bool
  range   : Nat
  /-- Even CONV edges at which a written Source, Range or DIRECT code takes effect; 0 for none. -/
  srcAt   : Nat
  rangeAt : Nat
  codeAt  : Nat
  /-- The DIRECT code presented. -/
  code    : Nat
  /-- The Range that `rangeAt` brings. -/
  rangeTo : Nat
  /-- A written Range waits (R127): 1 for the end of the hold, 2 for the end of the program; 0 for none. -/
  rangePend : Nat
  /-- Tick at which the range hold ends; 0 for none. -/
  holdEnd : Nat
  /-- The correction words in effect where a commit waits for them to change (R123). -/
  coef    : Option (List Word)
  /-- Old contents of waveform words written lately (R114, R115). -/
  writes  : List WaveOld
  /-- Consecutive CONV edges in current limit (R128). -/
  short   : Nat
  /-- Tick after that of the last CONV edge judged for current limit, and that the supervisor ran at. -/
  shortAt : Nat
  supEdge : Nat
  /-- Supervisor (R129): mismatches in a row, MOD1 codes newest first, presented codes in units of
  1/102,400 comparison unit at the CONV edges, newest first. -/
  supRun  : Nat
  supCodes : List Int
  noms    : List Int
  /-- Tick after the last clear, range hold or overload reset ended (R130). -/
  supQuiet : Nat
  /-- CONV edge of an accepted Handover; 0 for none. -/
  handAt  : Nat
  /-- Ticks from which the former ACTIVE tile is high-impedance and the former STANDBY tile drives; 0 for
  none (R134, R135). -/
  offAt   : Nat
  onAt    : Nat
  /-- LINETIME of the takeover in progress, for the fault log. -/
  takeLt  : Option Nat
  deriving DecidableEq, Repr

def Dac.init : Dac :=
  { play := none, go := 0, ended := 0, bank := 0, fade := none, fadeEnd := 0, swap := none, clearing := false, normal := false,
    prog := false, range := 0, srcAt := 0, rangeAt := 0, codeAt := 0, code := 0, rangeTo := 0, rangePend := 0, holdEnd := 0,
    coef := none, writes := [], short := 0, shortAt := 0, supEdge := 0, supRun := 0, supCodes := [], noms := [], supQuiet := 0, handAt := 0, offAt := 0,
    onAt := 0, takeLt := none }

/-- The analogue array: tiles, DACs, panel buses (2 × panel + bus), clear pins (0 to 7 the panels', 8
ALLCLR_N), the validity of VDDA33, and the reference. -/
structure Array' where
  tiles : Tab Tile
  dacs  : Tab Dac
  buses : Tab (Option BusOwn)
  clrs  : Tab ClrPin
  vdda  : Bool
  /-- VREFP − VREFN in microvolts (R107). -/
  vref  : Nat
  deriving DecidableEq, Repr

/-! ### Decimation Engines (chapter 07) -/

/-- A threshold (R148): its state, the values counted in a row for or against a change, and the slot tick at
which a write clears it; 0 for none. -/
structure DceTh where
  state  : Bool
  run    : Nat
  clrAt  : Nat
  deriving DecidableEq, Repr

/-- A boundary whose output is not yet valid (R138): its CONV edge, and what was latched there. -/
structure DceBound where
  edge   : Nat
  /-- LINETIME of the boundary. -/
  lt     : Nat
  settling : Bool
  cal    : Bool
  fast   : Int
  thf    : Bool
  /-- The filter history at the boundary and the coefficients Gain, Offset and Lin. -/
  hist   : List Int
  gain   : Word
  offset : Word
  lin    : Word
  preset : Nat
  /-- WinSeq at the boundary, and whether a window held it (R150, R152). -/
  win    : Nat
  inWin  : Bool
  deriving DecidableEq, Repr

/-- A record in a panel's write buffer (R153). -/
structure DceRec where
  chan   : Nat
  words  : List Word
  win    : Nat
  inWin  : Bool
  deriving DecidableEq, Repr

/-- A closed window that waits for its records (R154). -/
structure DceWin where
  seq     : Nat
  /-- Its first CONV edge. -/
  first   : Nat
  records : Nat
  /-- No record of it has carried WinFirst yet. -/
  fresh   : Bool
  deriving DecidableEq, Repr

structure DceCh where
  on     : Bool
  preset : Nat
  /-- Slot tick at which a write of Enable, Preset or Restart takes effect; 0 for none (R146). -/
  ctlAt  : Nat
  ints   : List (BitVec 60)
  combs  : List (BitVec 60)
  /-- CIC outputs scaled to 2^31 per volt, newest first. -/
  hist   : List Int
  /-- CONV edge index of the last switch W (R144), and of the last start under R146. -/
  sw     : Nat
  start  : Nat
  /-- CONV edge of a switch that is still to come; 0 for none. -/
  swNext : Nat
  /-- Modulator codes, newest first (R147). -/
  codes  : List Int
  /-- The edge after the last that gave a code, and the first edge whose FastSum rests on known codes only. -/
  codeAt : Nat
  known  : Nat
  th0    : DceTh
  th1    : DceTh
  thf    : DceTh
  /-- FastSum and its validity as they read, and the edge, sum and validity that become readable next. -/
  fast   : Int
  fastOk : Bool
  next   : Option (Nat × Int × Bool)
  bounds : List DceBound
  /-- Gate generators by the CONV edge from which each is selected, newest first (R152). -/
  sels   : List (Nat × Nat)
  /-- The delayed gate reads 1: a window is open. -/
  open'  : Bool
  winSeq : Nat
  /-- First CONV edge of the window. -/
  winEdge : Nat
  /-- The next record of the window carries WinFirst; the records written from it. -/
  first  : Bool
  records : Nat
  gap    : Bool
  closed : List DceWin
  deriving DecidableEq, Repr

def DceTh.init : DceTh := { state := false, run := 0, clrAt := 0 }

def DceCh.init : DceCh :=
  { on := false, preset := 0, ctlAt := 0, ints := [], combs := [], hist := [], sw := 0, start := 0, codes := [], th0 := DceTh.init,
    th1 := DceTh.init, thf := DceTh.init, codeAt := 0, known := 0, swNext := 0, fast := 0, fastOk := false, next := none, bounds := [], sels := [], open' := false, winSeq := 0, winEdge := 0, first := false,
    records := 0, gap := false, closed := [] }

/-- Channels by global number g = 32p + c, and the write buffer of each panel. -/
structure Dce where
  chans : Tab DceCh
  bufs  : Tab (List DceRec)
  /-- Output level of each generator at CONV edges: (edge, level) at each change, newest first (R152). -/
  gates : Tab (List (Nat × Bool))
  deriving DecidableEq, Repr

/-! ### Head ports and Proof Ledger (chapter 08) -/

/-- The current band (R163, R164). -/
structure HBand where
  seq      : Nat
  tag      : Nat
  cycles   : Nat
  critical : Bool
  service  : Bool
  start    : Bool
  base     : Nat
  notBefore : Nat
  notAfter : Nat
  deriving DecidableEq, Repr

/-- One selection of the audit scheduler (R169, R170): channel, nozzle, Filled and the value shifted. -/
structure HAudit where
  chan   : Nat
  nozzle : Nat
  filled : Bool
  value  : Nat
  deriving DecidableEq, Repr

/-- A cycle on its way to the head: shifted since the previous latch timing edge. -/
structure HCycle where
  /-- A blank cycle of no band. -/
  blank   : Bool
  tag     : Nat
  service : Bool
  /-- Sequence number of its band. -/
  seq     : Nat
  /-- Last cycle of its band. -/
  last    : Bool
  under   : Bool
  /-- The nozzle values shifted, as the block of R160; empty where every value is 0. -/
  block   : List Byte
  /-- The 32-bit sense field (R161). -/
  field   : Word
  audits  : List HAudit
  deriving DecidableEq, Repr

/-- A fetched block in the line buffer (R165). -/
structure HLine where
  seq   : Nat
  cycle : Nat
  block : List Byte
  /-- The block was read without an uncorrectable word (R284). -/
  ok    : Bool
  deriving DecidableEq, Repr

/-- A critical set (R183). Nozzle n is in the set where bit n of `bits` is 1. -/
structure HSet where
  tag    : Nat
  start  : Nat
  stop   : Nat
  expiry : Nat
  bits   : Nat
  horizon : Nat
  deriving DecidableEq, Repr

/-- The interval of a Tag on the port (R182): its ticks, open where no end is known yet. -/
structure HTag where
  tag   : Nat
  start : Nat
  stop  : Option Nat
  deriving DecidableEq, Repr

/-- A trip or supervision span in progress on the port (R182): the Ledger flag it sets, which source opened
it, its stamp, and whether it has met an interval. -/
structure HSpan where
  flag  : Nat
  src   : Nat
  start : Nat
  hit   : Bool
  /-- Tick at which the span ends by itself (R438). -/
  ends  : Option Nat
  deriving DecidableEq, Repr

structure Head where
  cur     : Option HBand
  /-- The cycle shifted since the previous latch timing edge. -/
  shifted : Option HCycle
  /-- The cycle the head last fired. -/
  fired   : Option HCycle
  /-- Tick at which the next shift begins. -/
  shiftAt : Option Nat
  /-- Tick at which the shift in progress ends. -/
  shiftEnd : Option Nat
  /-- Tick after that of the last latch timing edge; 0 before the first. -/
  edge    : Nat
  prio0   : List Nat
  prio1   : List Nat
  /-- Visited nozzles of each channel: bit n of the number. -/
  vis0    : Nat
  vis1    : Nat
  lines   : List HLine
  /-- Sequence numbers of the entries whose Ready word has matched, and the tick of the next read (R165). -/
  ready   : List Nat
  poll    : Nat
  sets    : List HSet
  tags    : List HTag
  spans   : List HSpan
  /-- Reports that ended while an interval had ended: flag and tick. They count if its Tag fires again (R182). -/
  past    : List (Nat × Nat)
  /-- AuxPin was last seen at its active level (R182). -/
  aux     : Bool
  /-- Tags whose Start entry was missed, newest first: their entries are discarded (R164). -/
  missed  : List Nat
  deriving DecidableEq, Repr

def Head.init : Head :=
  { cur := none, shifted := none, fired := none, shiftAt := none, shiftEnd := none, edge := 0, prio0 := [],
    prio1 := [], vis0 := 0, vis1 := 0, lines := [], ready := [], poll := 0, sets := [], tags := [], spans := [], past := [], aux := false, missed := [] }

/-- An occupied record of the Proof Ledger (R179 to R187). -/
structure PRec where
  tag     : Nat
  /-- Stamp in ticks and fraction in eighths (R51). -/
  t0      : Nat
  frac    : Nat
  p0      : Nat
  horizon : Nat
  closed  : Bool
  /-- Tick and LINETIME of the close. -/
  closeTick : Nat
  closeLt : Nat
  /-- 0 none, 1 PROVEN, 2 DOUBTFUL, 3 FAILED. -/
  verdict : Nat
  flags   : Nat
  /-- Ports that have played a cycle of the Tag: bit h. -/
  played  : Nat
  done    : Nat
  missed  : Nat
  retries : Nat
  deriving DecidableEq, Repr

/-- A pending reject (R189): the position E, the tick of the next arming request once the estimate has
reached E − RejectLead, and whether E was crossed. -/
structure PReject where
  tag  : Nat
  pos  : Nat
  next : Option Nat
  deriving DecidableEq, Repr

structure Ledger where
  recs    : List PRec
  rejects : List PReject
  deriving DecidableEq, Repr
/-! ### Mark Engines (chapters 09 and 10) -/

/-- The states of an engine (table "Engine states"; codes 0 to 6 in ME_STAT). -/
inductive EngSt where
  | held | run | wait | parked | halted | faulted | retained
  deriving DecidableEq, Repr

/-- What a WAIT engine waits for (R210, R240, R249). -/
inductive EngWait where
  /-- It waits for nothing. -/
  | none
  /-- TWAIT until LINETIME reaches `t`. -/
  | time (t : Nat)
  /-- EWAIT into `rd` under `mask`; `timeout` 0 is none (R248). -/
  | event (rd : Nat) (mask : BitVec 16) (timeout : Nat)
  /-- QGET into `rd`; `timeout` 0 is none (R240). -/
  | job (rd : Nat) (timeout : Nat)
  /-- DMAWAIT into `rd` for a ticket (R249). -/
  | ticket (rd : Nat) (t : Nat)
  deriving DecidableEq, Repr

/-- What instructions behind a load may change before it returns: the register files and the exception registers as
they stood when the load issued (R205). -/
structure EngCtx where
  g  : Tab Word
  a  : Tab Addr
  v  : Tab Vec
  p  : Tab Bool
  priv : Bool
  exl  : Bool
  ie   : Bool
  prevPriv : Bool
  prevIe   : Bool
  epc  : Addr
  ecause : Word
  eaddr : Addr
  deriving DecidableEq, Repr

/-- A load issued and not yet returned (R201). -/
structure EngLoad where
  pc   : Addr
  addr : Nat
  /-- Access size in bytes: 1, 2, 4 or 16. -/
  size : Nat
  signed : Bool
  vec  : Bool
  rd   : Nat
  /-- Port and Tid of the READ of a load from a Seam window. -/
  seam : Option (Nat × Nat)
  /-- How many stores of the store buffer came before it. -/
  after : Nat
  /-- It has failed and waits for the loads before it, so that its BUS is precise (R205). -/
  bad  : Bool
  ctx  : EngCtx
  deriving DecidableEq, Repr

/-- A store in the store buffer (R207, R208). -/
structure EngStore where
  addr : Nat
  bytes : List Byte
  deriving DecidableEq, Repr

/-- The answer of QPUT, QDONE, QFAIL, CARM or CDISARM on its way to `g[rd]` (R247); none until the request has
been applied. -/
structure EngAnswer where
  rd  : Nat
  val : Option Word
  deriving DecidableEq, Repr

/-- A DMA descriptor copied at issue (R215, R216). -/
structure EngDma where
  ticket : Nat
  words  : List Word
  user   : Bool
  /-- Bytes moved, and the port and Tid of a READ that it waits for (a source in a Seam window). -/
  moved  : Nat
  read   : Option (Nat × Nat)
  deriving DecidableEq, Repr

/-- A job on its way back to its queue (R219, R220): with its retry count decremented, or unchanged, and
with the fault-log entry of an engine fault. -/
structure EngReturn where
  parked : Bool
  queue  : Nat
  idx    : Nat
  faultLt : Nat
  logged : Bool
  deriving DecidableEq, Repr

/-- The last instruction issued: its address, ENG cycle, pairing class and what it wrote (R200). -/
structure EngIssue where
  pc  : Addr
  cyc : Nat
  cls : Nat
  wr  : List Nat
  deriving DecidableEq, Repr

/-- One filled line of the instruction cache (R222). -/
structure ICLine where
  line   : Nat
  way    : Nat
  deriving DecidableEq, Repr

/-- An engine fault whose effects come with the next ENG cycle (R220): that tick, the kind as ME_FAULT codes it, the
second cause of a double exception, where, and the LINETIME of its detection. -/
structure EngFlt where
  at'   : Nat
  kind  : Nat
  cause : Nat
  pc    : Addr
  eaddr : Addr
  lt    : Nat
  deriving DecidableEq, Repr

/-- The internal state of one Mark Engine. -/
structure Engine where
  st : EngSt
  /-- The state a RETAINED engine returns to (R290, R291). -/
  kept : EngSt
  g  : Tab Word
  a  : Tab Addr
  v  : Tab Vec
  p  : Tab Bool
  pc : Addr
  ltHi : Word
  /-- Tick of the release, from which CYCLE counts (R197). -/
  relTick : Nat
  priv : Bool
  exl  : Bool
  ie   : Bool
  prevPriv : Bool
  prevIe   : Bool
  epc  : Addr
  ecause : Word
  eaddr : Addr
  evec : Addr
  evmask : BitVec 16
  evpend : BitVec 16
  dl : Nat
  dlArmed : Bool
  dlAction : Nat
  ctLo : Word
  ctHi : Word
  /-- The value that the last write of CT_HI armed the timer with (R212). -/
  ctVal : Nat
  ctArmed : Bool
  ctLocal : Bool
  /-- The tick in which an armed cue timer was written: a value already reached fires in the next. -/
  ctTick : Nat
  jobValid : Bool
  jobQueue : Nat
  /-- Index of the current job's entry in its queue's ring. -/
  jobIdx : Nat
  jobd : List Word
  /-- DEADLINE waits to be taken (R213). -/
  dlPend : Bool
  /-- DMAERR waits to be taken, with its cookie (R217). -/
  dmaPend : Option Nat
  wait : EngWait
  /-- ENG cycle in which it began to wait (R259). -/
  waitAt : Nat
  /-- Tick from which it issues again after TWAIT or EWAIT (R210). -/
  issueAt : Nat
  loads : List EngLoad
  stores : List EngStore
  answers : List EngAnswer
  dmas : List EngDma
  nextTicket : Nat
  /-- Ticket and error status of the completed ones among the 16 most recent (R249). -/
  tickets : List (Nat × Bool)
  /-- Ticks of watchdog time already counted, and the tick from which it counts on (R221). -/
  wdogTick : Nat
  icache : List ICLine
  /-- The next IINV also clears locked ways (R222). -/
  unlockIinv : Bool
  /-- QSTEAL's hint for the next QGET (R242). -/
  hint : Option Nat
  returns : List EngReturn
  flt : Option EngFlt
  last : Option EngIssue
  /-- R223's Step: 1 asked for, 2 the first word of a pair has issued. -/
  step : Nat
  /-- A breakpoint at the next address has been passed by Resume or Step. -/
  passed : Bool
  deriving DecidableEq, Repr

/-- An engine at reset: HELD, every register 0 (R218). -/
def Engine.init : Engine where
  st := .held
  kept := .held
  g := ⟨[]⟩
  a := ⟨[]⟩
  v := ⟨[]⟩
  p := ⟨[]⟩
  pc := 0
  ltHi := 0
  relTick := 0
  priv := false
  exl := false
  ie := false
  prevPriv := false
  prevIe := false
  epc := 0
  ecause := 0
  eaddr := 0
  evec := 0
  evmask := 0
  evpend := 0
  dl := 0
  dlArmed := false
  dlAction := 0
  ctLo := 0
  ctHi := 0
  ctVal := 0
  ctArmed := false
  ctLocal := false
  ctTick := 0
  jobValid := false
  jobQueue := 0
  jobIdx := 0
  jobd := []
  dlPend := false
  dmaPend := none
  wait := .none
  waitAt := 0
  issueAt := 0
  loads := []
  stores := []
  answers := []
  dmas := []
  nextTicket := 0
  tickets := []
  wdogTick := 0
  icache := []
  unlockIinv := false
  hint := none
  returns := []
  flt := none
  last := none
  step := 0
  passed := false


/-! ### Job queues (chapter 11) -/

/-- State of a queue entry (R251). -/
inductive JqSt where
  | posted | claimed | retired
  deriving DecidableEq, Repr

/-- An entry between Head and Tail. -/
structure JqEnt where
  /-- Its index: Tail at its post. -/
  idx    : Nat
  st     : JqSt
  /-- The engine that holds it. -/
  claim  : Nat
  /-- Effective miss action, fixed at the post (R254). -/
  action : Nat
  /-- Its miss has been recorded (R265). -/
  missed : Bool
  /-- Tick of its retirement. -/
  done   : Nat
  /-- The 16 words of the entry. -/
  words  : List Word
  deriving DecidableEq, Repr

/-- Internal state of one queue. -/
structure JobQ where
  /-- Entries from Head to Tail, oldest first. -/
  ents   : List JqEnt
  /-- Class that aging gives (R263). -/
  cls    : Nat
  /-- Tick from which the present age step runs. -/
  since  : Nat
  /-- A deliverable entry was there when the queue last acted. -/
  live   : Bool
  /-- Class 0 is in effect. -/
  urgent : Bool
  /-- ENG cycle after that of the last claim (R262); 0 for none. -/
  claimAt : Nat
  deriving DecidableEq, Repr

def JobQ.init : JobQ := { ents := [], cls := 4, since := 0, live := false, urgent := false, claimAt := 0 }

/-- A Steal Broker (R259, R260): its rotation pointers, and the ENG cycle after that of its last selection. -/
structure Broker where
  rot0  : Nat
  /-- rot(lvl, k) at key 8 × lvl + k. -/
  rots  : Tab Nat
  selAt : Nat
  deriving DecidableEq, Repr

def Broker.init : Broker := { rot0 := 4095, rots := ⟨[]⟩, selAt := 0 }

/-- A fallback job on its way to FallbackQueue (R266): the queue of the missed entry, the queue it goes to. -/
structure JqFall where
  origin : Nat
  target : Nat
  words  : List Word
  deriving DecidableEq, Repr

structure Queues where
  qs      : Tab JobQ
  brokers : Tab Broker
  falls   : List JqFall
  deriving DecidableEq, Repr

/-! ### On-chip memory test, repair and retention (chapter 12) -/

/-- A background tester (R285 to R287). -/
structure Tester where
  /-- The row under test, and whether its window has been abandoned and waits for its restore. -/
  row     : Option Nat
  left    : Bool
  /-- The next row in ascending order, and the marked rows, which come first. -/
  next    : Nat
  marked  : List Nat
  /-- Tick of the last start of a window, plus one. -/
  startAt : Nat
  /-- Sweeps completed, and whether one has been since the last clear of SweepDone. -/
  sweeps  : Nat
  swept   : Bool
  deriving DecidableEq, Repr

def Tester.init : Tester :=
  { row := none, left := false, next := 0, marked := [], startAt := 0, sweeps := 0, swept := false }

/-- The copy of a Cluster Store bank (R288). -/
structure BankCopy where
  bank  : Nat
  start : Nat
  lt    : Nat
  deriving DecidableEq, Repr

/-- A write of this ENG cycle to a Cluster Store (R280): its port, who wrote (a port A requestor, or port B
class + 8 × index), its address, the bytes before it, the words that were poisoned and the bytes it wrote. -/
structure PortWrite where
  cyc   : Nat
  portA : Bool
  who   : Nat
  addr  : Nat
  old   : List Byte
  bad   : List Nat
  new   : List Byte
  deriving DecidableEq, Repr

/-- A write that waits for a bank of Cluster Store `store` (R288). -/
structure HeldWrite where
  store : Nat
  portA : Bool
  who   : Nat
  addr  : Nat
  bytes : List Byte
  deriving DecidableEq, Repr

structure MemTest where
  testers : Tab Tester
  /-- Spare rows in use, by bank: 32 × MemId + bank. -/
  spares  : Tab Nat
  /-- Repaired rows, as the Journal records them: MemId and row. -/
  repairs : List (Nat × Nat)
  /-- Spared banks, as the Journal records them: cluster and bank. -/
  banks   : List (Nat × Nat)
  copies  : Tab (Option BankCopy)
  /-- Uncorrectable words of the Cluster Stores: address and tick, newest first (R439). -/
  ues     : List (Nat × Nat)
  /-- Tick of a Retain, and of a Wake, that is under way in each cluster. -/
  retain  : Tab (Option Nat)
  wake    : Tab (Option Nat)
  writes  : List PortWrite
  /-- Writes that wait for a frozen bank, oldest first (R288). -/
  held    : List HeldWrite
  /-- Poisoned words that the merge of a narrow store has met, with the class of the store (R275). -/
  merges  : List (Nat × Nat)
  deriving DecidableEq, Repr

/-! ### LPDDR5X, host port, Data Ports, Boot Port (chapter 13) -/

structure Lpddr where
  /-- Ticks of the uncorrectable blocks of each channel within the last 1 ms, newest first (R300). -/
  ues    : Tab (List Nat)
  /-- Repair candidates, as the Journal records them: channel and row (R302). -/
  cands  : List (Nat × Nat)
  /-- Next block of the scrubber's sweep (R301). -/
  scrub  : Nat
  locked : Bool
  deriving DecidableEq, Repr

/-- The pending burst of a Data Port (R315). -/
structure DpBurst where
  start : Nat
  /-- none where the byte was not enabled. -/
  bytes : List (Option Byte)
  last  : Nat
  deriving DecidableEq, Repr

/-- A command of the Boot Port (R320). -/
structure BootCmd where
  op    : Nat
  flash : Nat
  mem   : Nat
  len   : Nat
  deriving DecidableEq, Repr

structure HostPort where
  /-- MSI-X table by word: four words an entry (R307). -/
  table  : Tab Word
  msixEn : Bool
  fnMask : Bool
  busMaster : Bool
  d3     : Bool
  /-- The AER uncorrectable error status of configuration space (R306, R312). -/
  aer    : Nat
  /-- Retrain has been written and the link has not trained since (R309). -/
  retrain : Bool
  aperture : Tab (Option DpBurst)
  boot   : Option BootCmd
  /-- The flash on the Boot Port; a byte not listed is erased. -/
  flash  : List Host.Cell
  /-- Erase size and page size of the flash (R318). -/
  eraseLog : Nat
  pageLog  : Nat
  deriving DecidableEq, Repr

/-! ### Fabric and configuration (chapter 14) -/

/-- The stream in the loader. -/
structure CfgLoad where
  /-- 0 STAGING, 1 MEMORY, 2 PORT. -/
  src    : Nat
  addr   : Nat
  full   : Bool
  set    : Nat
  id     : Word
  tag    : List Byte
  rbIdx  : Nat
  rbVal  : Nat
  /-- Mantle region that holds a full-device stream; 8 is the boot stream region. -/
  region : Option Nat
  deriving DecidableEq, Repr

/-- The Config Port (R347, R348). -/
structure CfgPort where
  /-- CFG_CS_N is low. -/
  low    : Bool
  /-- A QSPI period after its command byte, and an ignored one. -/
  begun  : Bool
  ignore : Bool
  /-- After a reception: data is discarded until CFG_CS_N has been high for 1 µs. -/
  shut   : Bool
  /-- Tick of the last rise of CFG_CS_N, and of the last byte. -/
  rise   : Nat
  last   : Nat
  deriving DecidableEq, Repr

/-- A Sleeve's Cuffs under HOLD_LAST: none before it has run, else the free value that its signals left. -/
structure Sleeve where
  hold : Option Nat
  deriving DecidableEq, Repr

structure Cfg where
  load    : Option CfgLoad
  port    : CfgPort
  sleeves : Tab Sleeve
  /-- Edge E of the apply under way, and the last edge R of each Sleeve (R329, R344). -/
  edge    : Option Nat
  released : Tab Nat
  /-- Frames as written, by frame address (R332). -/
  frames  : Tab (List Word)
  /-- Tag of the stream that last applied each Sleeve (R363). -/
  tags    : Tab (List Byte)
  deriving DecidableEq, Repr

/-! ### Mantle (chapter 15) -/

structure OwnerSlot where
  enrolled : Bool
  revoked  : Bool
  hash     : List Byte
  deriving DecidableEq, Repr

/-- What fuses hold: they keep it through resets and power losses (R353, R354). -/
structure Fuses where
  slots : Tab OwnerSlot
  ctrs  : Tab Nat
  deriving DecidableEq, Repr

/-- An operation of R360 in progress. -/
structure MntOp where
  op   : Nat
  addr : Nat
  /-- Another device asked for it over the Seam Link (R391). -/
  seam : Bool
  /-- What an ATTEST sampled at its start (R364). -/
  body : List Byte
  deriving DecidableEq, Repr

structure Mantle where
  fuses   : Fuses
  shadows : Tab Nat
  op      : Option MntOp
  /-- Ticks at which the operation and the burn began. -/
  opAt    : Nat
  burnAt  : Nat
  /-- Counter and target of a burn (R354). -/
  burn    : Option (Nat × Nat)
  reqs    : Nat
  expiry  : Nat
  /-- The boot stream region is fenced (R367). -/
  fence   : Bool
  /-- RollbackVal of the verified image (R363). -/
  fwRb    : Nat
  deriving DecidableEq, Repr

def OwnerSlot.init : OwnerSlot := { enrolled := false, revoked := false, hash := [] }

/-! ### Seam Link (chapter 16) -/

/-- Internal state of one Seam port. -/
structure SeamPort where
  /-- Next expected Seq, and the Seq of the next new DATA flit (R377). -/
  expect  : Nat
  nextSeq : Nat
  /-- Unacknowledged DATA flits, oldest first, and those that wait for a credit or for room. -/
  replay  : List Flit
  waiting : List Flit
  /-- Send credits; credits that the partner holds; credits to return (R378). -/
  credits : Nat
  given   : Nat
  owed    : Nat
  /-- A Nak waits to be sent, with its reason. -/
  nak     : Option Nat
  /-- The last flit sent that is not DATA. -/
  sent    : Option Flit
  /-- Ticks of the last flit sent, of the last good flit received, of the last acknowledgement progress, and
  of the last entry into TRAINING. -/
  sentAt  : Nat
  gotAt   : Nat
  progAt  : Nat
  trainAt : Nat
  /-- Replays of the oldest flit in a row (R374). -/
  replays : Nat
  /-- Ticks of the violations of the present window (R398). -/
  viols   : List Nat
  /-- LINETIME of the port's last loss of UP. -/
  downLt  : Nat
  deriving DecidableEq, Repr

/-- An outstanding READ, CUE_AT or ATTEST (R388), by its class. -/
structure SeamReq where
  port : Nat
  tid  : Nat
  cls  : Nat
  req  : Req
  win  : Nat
  addr : Nat
  at'  : Nat
  /-- A multicast CUE_AT, and whether its first answer has come. -/
  mcast : Bool
  got  : Bool
  deriving DecidableEq, Repr

/-- The answer of a READ that an engine or a Data Port waits for. -/
structure SeamDone where
  req    : Req
  port   : Nat
  tid    : Nat
  addr   : Nat
  status : Nat
  data   : List Byte
  deriving DecidableEq, Repr

/-- A remote ATTEST that this device serves (R391). -/
structure SeamServe where
  src   : Nat
  tid   : Nat
  reply : Nat
  deriving DecidableEq, Repr

structure Seam where
  ports   : Tab SeamPort
  reqs    : List SeamReq
  dones   : List SeamDone
  /-- Window of the last WRITE or MSG of each Tid, plus one. -/
  wtids   : Tab Nat
  nextTid : Nat
  /-- Flits of the device to itself, oldest first. -/
  loop    : List Flit
  serve   : Option SeamServe
  /-- t1 of the exchange under way, in 1/8 tick; tick of the last exchange and of the last valid one. -/
  ts1     : Option Nat
  tsAt    : Nat
  validAt : Nat
  /-- Exchanges in a row within, and beyond, 2 ticks (R395). -/
  good    : Nat
  bad     : Nat
  deriving DecidableEq, Repr

def SeamPort.init : SeamPort :=
  { expect := 0, nextSeq := 0, replay := [], waiting := [], credits := 0, given := 0, owed := 0, nak := none, sent := none,
    sentAt := 0, gotAt := 0, progAt := 0, trainAt := 0, replays := 0, viols := [], downLt := 0 }

/-! ### Calibration (chapter 17) -/

structure CalTile where
  /-- Tick since which a run is pending. -/
  since   : Option Nat
  /-- The run's next step; a step of it has started. -/
  step    : Nat
  running : Bool
  /-- Start tick of the step under way. -/
  busy    : Option Nat
  /-- What the run has measured: coefficient addresses and words. -/
  meas    : List (Nat × Word)
  /-- Staging set, where it differs from the committed values. -/
  staging : List (Nat × Word)
  /-- CONV edge at which a commit takes effect, and whether it is the staging set's. -/
  commitAt : Nat
  runCommit : Nat
  /-- A Commit written during the run. -/
  held    : Bool
  /-- The Starved flag of this pending run has been set. -/
  late    : Bool
  /-- Tick after the one in which the last step ended; 0 once the held writes have been applied (R104). -/
  endAt   : Nat
  deriving DecidableEq, Repr

def CalTile.init : CalTile :=
  { since := none, step := 0, running := false, busy := none, meas := [], staging := [], commitAt := 0, runCommit := 0,
    held := false, late := false, endAt := 0 }

structure Cal where
  tiles : Tab CalTile
  deriving DecidableEq, Repr

/-! ### Start-up (chapter 20) -/

/-- The start sequencer (R447 to R455). -/
structure StartUp where
  /-- The step under way; 0 before the start begins. -/
  step    : Nat
  /-- It runs its alternative. -/
  alt     : Bool
  /-- HkTime at the start of the step, and at the start and end of the steps that ended before step 0x04
  opened the start record. -/
  hk      : Word
  times   : List (Nat × Word × Word)
  /-- The start record has been opened. -/
  opened  : Bool
  /-- The start ends in HALTED after step 0x0D (R452). -/
  halt    : Bool
  /-- A failure calls for an internal restart (R451). -/
  restart : Bool
  /-- Why this start began: 0 power-up, 1 SYS_RST_N, 2 internal restart (R448). -/
  cause   : Nat
  /-- Flash offset and header of the verified image (R358). -/
  image   : Option (Nat × List Byte)
  deriving DecidableEq, Repr

/-! ### Requests of this tick and of this ENG cycle (R43, R256) -/

/-- What an arming request asks for (R43, R244). -/
structure Arm where
  position : Bool
  value : Nat
  enc : Nat
  dir : Nat
  delay : Nat
  action : Nat
  armedBy : Nat
  deriving DecidableEq, Repr

/-- Who asks, and where the answer goes: CARM or QPUT of an engine with its destination g[rd], a Go of staging
registers, a reject of the Proof Ledger by its Tag, a CUE_AT that port `k` brought, a fallback job. -/
inductive Asker where
  | instr (n rd : Nat)
  | staged (req : Req)
  | reject (tag : Nat)
  | cueAt (k : Nat) (f : Flit)
  | fallback (q : Nat)
  deriving DecidableEq, Repr

/-- An arming request that waits for the end of its tick (R43). -/
structure ArmAsk where
  who    : Asker
  target : Nat
  arm    : Arm
  deriving DecidableEq, Repr

/-- A post that waits for the end of its ENG cycle (R256). -/
structure PostAsk where
  who   : Asker
  queue : Nat
  words : List Word
  deriving DecidableEq, Repr

/-- A read of the host that waits for its earlier posted writes (R308). -/
inductive HostRead where
  | bar0 (a n : Nat) (part : Bool)
  | bar2 (n o len : Nat) (fresh : List Nat)
  deriving DecidableEq, Repr

/-- A CUE_AT or an ATTEST that waits for a free Tid (R388): what it sends, and the address of its report. -/
structure TidAsk where
  cls   : Nat
  req   : Req
  addr  : Nat
  dst   : Nat
  mcast : Bool
  pl    : List Byte
  deriving DecidableEq, Repr

structure Asks where
  arms  : List ArmAsk
  posts : List PostAsk
  reads : List HostRead
  /-- Seam READs whose bytes lie in a frozen bank: port, flit and words that turn out uncorrectable (R288). -/
  seams : List (Nat × Flit × List Nat)
  tids  : List TidAsk
  deriving DecidableEq, Repr
/-! ### Line I/O pins and serial units (chapter 18) -/

structure Uart where
  rx : List Byte
  tx : List Byte
  deriving DecidableEq, Repr

structure Spi where
  rx : List Byte
  tx : List Byte
  deriving DecidableEq, Repr

structure I2c where
  fifo : List Byte
  busy : Bool
  /-- WrLen and RdLen of the transfer under way. -/
  wr   : Nat
  rd   : Nat
  deriving DecidableEq, Repr

def I2c.init : I2c := { fifo := [], busy := false, wr := 0, rd := 0 }

/-- The four ways to write a bank's latch (R416). -/
inductive LatchOp where
  | data | set | clr | tgl
  deriving DecidableEq, Repr

/-- The pads, the change of owners and the serial units. -/
structure Lio where
  /-- Pad voltage in mV; none where nothing drives the pin (R418). -/
  pads : Tab (Option Int)
  /-- Thresholded pad level, before Analog and the bank supply (R414). -/
  lvl : Tab Bool
  /-- Tick after the FAB edge n of the last change of owner (R423); 0 for none. -/
  chg : Tab Nat
  /-- A tie at the owner's rank was seen at the last evaluation (R420). -/
  tie : Tab Bool
  /-- Func codes of the input signals that two owned pins carried at the last evaluation (R422). -/
  clash : List Nat
  /-- The generator that owns the pin, plus 1: LIO_OWNER has 8 bits for its number. -/
  gen : Tab Nat
  /-- Latch writes that take effect at the next FAB edge, in order: operation, bank, value (R416). -/
  writes : List (LatchOp × Nat × Word)
  /-- A write of LIO_CFG whose Analog, OutEnable and CueDrive wait for the next FAB edge (R423): the three bits
  in effect, as a number, plus 1; 0 where the register's own are in effect. -/
  late : Tab Nat
  uarts : Tab Uart
  spis : Tab Spi
  i2cs : Tab I2c
  deriving DecidableEq, Repr

/-! ### Fault log (chapter 20) -/

/-- One fault-log entry waiting to be written (R443, R460). -/
structure LogEnt where
  source : Nat
  cls    : Nat
  action : Nat
  info   : Nat
  start  : Nat
  stop   : Nat
  /-- ENG cycle of the fault's end. -/
  cyc    : Nat
  deriving DecidableEq, Repr

/-! ### Events and monitors (chapter 19) -/

/-- The one MSG of an event that waits to leave over the Seam Link (R432). -/
structure SeamEvt where
  win : Nat
  count : Nat
  lt : Nat
  deriving DecidableEq, Repr

/-! ### The whole state -/

/-- The state of the block. -/
structure State where
  /-- Control registers at their addresses, those at their reset value left out (R3, chapter 21). -/
  regs : List (Nat × Word)
  /-- Each requester's own copies of the registers of R464, by requester and address. -/
  perReq : Tab (Tab Word)
  /-- What the last read of each requester returned: the words on their way back to it. -/
  rdata : Tab (List Word)
  /-- Bytes of the memories of R462, in canonical form. -/
  mem : List Host.Cell
  /-- Memory words (8-byte words on chip, 64-byte blocks of LPDDR5X) marked uncorrectable (R284, R298). -/
  poison : Tab Bool
  clock : Clock
  cue : Cue
  encs : Tab Enc
  lio : Lio
  pgs : Tab Pg
  arr : Array'
  dce : Dce
  heads : Tab Head
  ledger : Ledger
  engs : Tab Engine
  jobs : Queues
  memt : MemTest
  lpddr : Lpddr
  host : HostPort
  cfg : Cfg
  mantle : Mantle
  seam : Seam
  cal : Cal
  startup : StartUp
  /-- LINETIME at which each supply group was last found outside its window (R435). -/
  supLt : Tab Nat
  /-- Event routes before a write of this ENG cycle: event, ENG cycle and word (R433). -/
  oldRoutes : List (Nat × Nat × Word)
  /-- The MSGs of events that wait to leave (R432). -/
  seamEvts : Tab SeamEvt
  /-- Pending bits of the MSI-X vectors (R310). -/
  msixPend : Tab Bool
  /-- Fault-log entries not yet written, oldest first (R460). -/
  logQ : List LogEnt
  /-- Requests that wait for the end of their tick or ENG cycle (R43, R256, R308). -/
  asks : Asks
  /-- The model's own counter of free values taken (values the spec leaves open). -/
  free : Nat
  /-- Commands waiting, first in first out. -/
  pending : List Instr
  deriving DecidableEq, Repr

/-- The machine right after reset. -/
def State.reset : State where
  regs := []
  perReq := ⟨[]⟩
  rdata := ⟨[]⟩
  mem := []
  poison := ⟨[]⟩
  clock := Clock.init
  cue := { targets := ⟨[]⟩, caps := ⟨[]⟩, levels := ⟨[]⟩, taps := ⟨[]⟩, tapOut := ⟨[]⟩ }
  encs := ⟨[]⟩
  lio :=
    { pads := ⟨[]⟩, lvl := ⟨[]⟩, chg := ⟨[]⟩, tie := ⟨[]⟩, clash := [], gen := ⟨[]⟩, writes := [], late := ⟨[]⟩, uarts := ⟨[]⟩,
      spis := ⟨[]⟩, i2cs := ⟨[]⟩ }
  pgs := ⟨[]⟩
  arr := { tiles := ⟨[]⟩, dacs := ⟨[]⟩, buses := ⟨[]⟩, clrs := ⟨[]⟩, vdda := false, vref := 2500000 }
  dce := { chans := ⟨[]⟩, bufs := ⟨[]⟩, gates := ⟨[]⟩ }
  heads := ⟨[]⟩
  ledger := { recs := [], rejects := [] }
  engs := ⟨[]⟩
  jobs := { qs := ⟨[]⟩, brokers := ⟨[]⟩, falls := [] }
  memt := { testers := ⟨[]⟩, spares := ⟨[]⟩, repairs := [], banks := [], copies := ⟨[]⟩, ues := [], retain := ⟨[]⟩, wake := ⟨[]⟩, writes := [],
            held := [], merges := [] }
  lpddr := { ues := ⟨[]⟩, cands := [], scrub := 0, locked := false }
  host := { table := ⟨[]⟩, msixEn := false, fnMask := false, busMaster := false, d3 := false, aer := 0, retrain := false, aperture := ⟨[]⟩, boot := none,
            flash := [], eraseLog := 12, pageLog := 8 }
  cfg := { load := none,
           port := { low := false, begun := false, ignore := false, shut := false, rise := 0, last := 0 },
           sleeves := ⟨[]⟩, edge := none, released := ⟨[]⟩, frames := ⟨[]⟩, tags := ⟨[]⟩ }
  mantle := { fuses := { slots := ⟨[]⟩, ctrs := ⟨[]⟩ }, shadows := ⟨[]⟩, op := none, opAt := 0, burnAt := 0, burn := none, reqs := 0, expiry := 0,
              fence := false, fwRb := 0 }
  seam := { ports := ⟨[]⟩, reqs := [], dones := [], wtids := ⟨[]⟩, nextTid := 0, loop := [], serve := none, ts1 := none, tsAt := 0,
            validAt := 0, good := 0, bad := 0 }
  cal := { tiles := ⟨[]⟩ }
  startup := { step := 0, alt := false, hk := 0, times := [], opened := false, halt := false, restart := false, cause := 0,
               image := none }
  supLt := ⟨[]⟩
  oldRoutes := []
  seamEvts := ⟨[]⟩
  msixPend := ⟨[]⟩
  logQ := []
  asks := { arms := [], posts := [], reads := [], seams := [], tids := [] }
  free := 0
  pending := []

/-- What a command answers. -/
abbrev Out := Host.Outcome State Fault Refusal

end Sys2Proof.Machine
end

