-- ==== Sys2Proof/Machine/Ops.lean ====
section
/-!
DEFINITION. The named operations over the state that every block shares: sparse tables, control
registers and their fields, requester copies, memory bytes, free values, sticky flags with their
events (R429 to R433), and the fault log's waiting entries (R460).
-/
namespace Sys2Proof.Machine

/-! ### Sparse lists: keys strictly rising -/

/-- The value listed at key `i`. -/
def lookupCell {α : Type} (i : Nat) : List (Nat × α) → Option α
  | [] => none
  | (k, v) :: rest => if k = i then some v else lookupCell i rest

/-- The list with key `i` holding `x`. -/
def insertCell {α : Type} (i : Nat) (x : α) : List (Nat × α) → List (Nat × α)
  | [] => [(i, x)]
  | (k, w) :: rest =>
    if i < k then (i, x) :: (k, w) :: rest
    else if i = k then (i, x) :: rest
    else (k, w) :: insertCell i x rest

/-- The list with key `i` holding `v`, or not listed where `v` is none. -/
def putCell {α : Type} (i : Nat) (v : Option α) (l : List (Nat × α)) : List (Nat × α) :=
  match v with
  | some x => insertCell i x l
  | none => l.filter (fun c => c.1 != i)

/-- Keys strictly rising. -/
def sortedKeys {α : Type} : List (Nat × α) → Bool
  | [] => true
  | [_] => true
  | (a, _) :: (b, y) :: rest => decide (a < b) && sortedKeys ((b, y) :: rest)

def Tab.get {α : Type} (t : Tab α) (d : α) (i : Nat) : α := (lookupCell i t.cells).getD d

def Tab.set {α : Type} [DecidableEq α] (t : Tab α) (d : α) (i : Nat) (v : α) : Tab α :=
  ⟨putCell i (if v = d then none else some v) t.cells⟩

/-- The keys of the listed entries. -/
def Tab.keys {α : Type} (t : Tab α) : List Nat := t.cells.map (·.1)

/-! ### Numbers -/

/-- The signed value of the low `w` bits of `x`. -/
def sx (w x : Nat) : Int :=
  if x % 2 ^ w < 2 ^ (w - 1) then (x % 2 ^ w : Nat) else (x % 2 ^ w : Nat) - (2 ^ w : Nat)

/-- The low `w` bits of an integer. -/
def ux (w : Nat) (x : Int) : Nat := (x % (2 ^ w : Nat)).toNat

/-- `x` held between `lo` and `hi`. -/
def clampInt (lo hi x : Int) : Int := if x < lo then lo else if hi < x then hi else x

def clampNat (lo hi x : Nat) : Nat := if x < lo then lo else if hi < x then hi else x

/-- `x + 1` held at the greatest value of `w` bits. -/
def satInc (w x : Nat) : Nat := if x + 1 < 2 ^ w then x + 1 else 2 ^ w - 1

/-- Bit `i` of `x`. -/
def bitN (x i : Nat) : Bool := x.testBit i

def b2n (b : Bool) : Nat := if b then 1 else 0

/-- Bits `lo` to `lo + w - 1` of `x`. -/
def slice (x lo w : Nat) : Nat := x / 2 ^ lo % 2 ^ w

/-! ### Control registers -/

def Fld.get (f : Fld) (w : Word) : Nat := slice w.toNat f.lsb f.width

def Fld.mask (f : Fld) : Nat := (2 ^ f.width - 1) * 2 ^ f.lsb

/-- `w` with the field holding the low bits of `x`. -/
def Fld.put (f : Fld) (w : Word) (x : Nat) : Word :=
  (w &&& ~~~ BitVec.ofNat 32 f.mask) ||| BitVec.ofNat 32 (x % 2 ^ f.width * 2 ^ f.lsb)

/-- The stored word of the register at `a`. -/
def State.reg (s : State) (a : Nat) : Word := (lookupCell a s.regs).getD (regReset a)

def State.setReg (s : State) (a : Nat) (v : Word) : State :=
  { s with regs := putCell a (if v = regReset a then none else some v) s.regs }

def State.fld (s : State) (a : Nat) (f : Fld) : Nat := f.get (s.reg a)

def State.setFld (s : State) (a : Nat) (f : Fld) (x : Nat) : State := s.setReg a (f.put (s.reg a) x)

def State.bit (s : State) (a : Nat) (f : Fld) : Bool := s.fld a f != 0

def State.setBit (s : State) (a : Nat) (f : Fld) : State := s.setFld a f 1

def State.clrBit (s : State) (a : Nat) (f : Fld) : State := s.setFld a f 0

def State.putBit (s : State) (a : Nat) (f : Fld) (b : Bool) : State := s.setFld a f (b2n b)

/-- A 64-bit quantity in two consecutive registers, low word first (R3). -/
def State.reg64 (s : State) (a : Nat) : Nat := (s.reg a).toNat + 2 ^ 32 * (s.reg (a + 4)).toNat

def State.setReg64 (s : State) (a : Nat) (x : Nat) : State :=
  (s.setReg a (BitVec.ofNat 32 x)).setReg (a + 4) (BitVec.ofNat 32 (x / 2 ^ 32))

/-- A register counts up and stays at the greatest value of its field. -/
def State.countUp (s : State) (a : Nat) (f : Fld) : State := s.setFld a f (satInc f.width (s.fld a f))

/-- The word that a write of `v` leaves in a register holding `old`: RW bits take `v`, written 1s clear
W1C bits, every other bit stays (R2, 00_scope "Access"). -/
def RegRow.write (r : RegRow) (old v : Word) : Word :=
  ((old &&& ~~~ BitVec.ofNat 32 r.rw) ||| (v &&& BitVec.ofNat 32 r.rw)) &&&
    ~~~ (v &&& BitVec.ofNat 32 r.w1c)

/-- A write that has no rule of its own (R465). An unassigned address discards it (R463). -/
def State.plainWrite (s : State) (a : Nat) (v : Word) : State :=
  match regRow a with
  | some r => s.setReg a (r.write (s.reg a) v)
  | none => s

/-! ### Requesters -/

def reqKey : Req → Nat
  | .host => 0
  | .engine n => 1 + n
  | .seam k => 193 + k

/-- A requester's own copy of a register of R464. -/
def State.preg (s : State) (r : Req) (a : Nat) : Word :=
  (lookupCell a (s.perReq.get ⟨[]⟩ (reqKey r)).cells).getD (regReset a)

def State.setPreg (s : State) (r : Req) (a : Nat) (v : Word) : State :=
  let own : Tab Word :=
    Tab.mk (putCell a (if v = regReset a then none else some v) (s.perReq.get ⟨[]⟩ (reqKey r)).cells)
  { s with perReq := s.perReq.set ⟨[]⟩ (reqKey r) own }

/-- The words a read returns to its requester. -/
def State.give (s : State) (r : Req) (ws : List Word) : State :=
  { s with rdata := s.rdata.set [] (reqKey r) ws }

/-! ### Free values -/

/-- A value that the spec leaves open, and the state with the counter advanced. -/
def State.takeFree (s : State) : Word × State := (Config.freeWord s.free, { s with free := s.free + 1 })

/-! ### Memory bytes -/

/-- What an address that nothing has written reads as. -/
def unwritten : Byte := 0

def memByte (m : List Host.Cell) (a : Nat) : Byte := (lookupCell a m).getD unwritten

def memSetByte (m : List Host.Cell) (a : Nat) (b : Byte) : List Host.Cell :=
  putCell a (if b = unwritten then none else some b) m

def memSetBytes (m : List Host.Cell) (a : Nat) : List Byte → List Host.Cell
  | [] => m
  | b :: bs => memSetBytes (memSetByte m a b) (a + 1) bs

/-- The canonical form: addresses strictly rising, no entry equal to what an unlisted address reads as. -/
def memWf (m : List Host.Cell) : Bool := sortedKeys m && m.all (fun c => c.2 != unwritten)

def State.byte (s : State) (a : Nat) : Byte := memByte s.mem a

def State.bytes (s : State) (a n : Nat) : List Byte := (List.range n).map (fun i => s.byte (a + i))

def State.store (s : State) (a : Nat) (bs : List Byte) : State := { s with mem := memSetBytes s.mem a bs }

/-- The number whose little-endian bytes are `bs`. -/
def leNat : List Byte → Nat
  | [] => 0
  | b :: bs => b.toNat + 256 * leNat bs

/-- The `n` little-endian bytes of `x`. -/
def leBytes : Nat → Nat → List Byte
  | 0, _ => []
  | n + 1, x => BitVec.ofNat 8 x :: leBytes n (x / 256)

/-- The 32-bit little-endian word at `a` (R3). -/
def State.word (s : State) (a : Nat) : Word := BitVec.ofNat 32 (leNat (s.bytes a 4))

def State.words (s : State) (a n : Nat) : List Word := (List.range n).map (fun i => s.word (a + 4 * i))

def wordBytes (ws : List Word) : List Byte := ws.flatMap (fun w => leBytes 4 w.toNat)

def State.storeWords (s : State) (a : Nat) (ws : List Word) : State := s.store a (wordBytes ws)

/-! ### Time -/

def State.tick (s : State) : Nat := s.clock.tick

def State.lt (s : State) : Nat := s.clock.lt

/-! ### Fault log -/

/-- A fault-log entry comes to be written (R443, R460). -/
def State.logFault (s : State) (source cls action info start stop : Nat) : State :=
  { s with logQ := s.logQ ++ [LogEnt.mk source cls action info start stop (s.clock.tick / 2)] }

/-- A point event of the fault log: its end reads 0 (R460). -/
def State.logPoint (s : State) (source cls action info : Nat) : State :=
  s.logFault source cls action info s.lt 0

/-! ### Engines and events -/

def State.eng (s : State) (n : Nat) : Engine := s.engs.get Engine.init n

def State.setEng (s : State) (n : Nat) (e : Engine) : State :=
  { s with engs := s.engs.set Engine.init n e }

/-- Sets a flag of EVT_STAT and names its event (EVT_STAT LastEvent). -/
def State.evtStat (s : State) (f : Fld) (e : Nat) : State :=
  (s.setBit Reg.EVT_STAT f).setFld Reg.EVT_STAT F.EVT_STAT_LastEvent e

/-- Can an engine route deliver to an engine in this state (R431)? A HALTED engine receives as usual. -/
def EngSt.takesEvents : EngSt → Bool
  | .run | .wait | .halted => true
  | _ => false

/-- The event enters channel `c` of engine `n` (R209). A bit already set sets EvCoalesced, which answers
true where that flag was clear and raises the engine's own event. -/
def engArrive (n c : Nat) (s : State) : State × Bool :=
  let e := s.eng n
  if e.evpend.getLsbD c then
    let was := s.bit (Reg.ME_STAT n) F.ME_STAT_EvCoalesced
    (s.setBit (Reg.ME_STAT n) F.ME_STAT_EvCoalesced,
      !was && bitN (s.fld (Reg.ME_EVTEN n) F.ME_EVTEN_FlagEvent) 3)
  else (s.setEng n { e with evpend := e.evpend ||| BitVec.ofNat 16 (2 ^ c) }, false)

/-- The route of event `e` in this ENG cycle: a write acts from the next one on (R433). -/
def routeOf (e : Nat) (s : State) : Word :=
  match s.oldRoutes.find? (fun r => r.1 = e && r.2.1 = s.clock.tick / 2) with
  | some r => r.2.2
  | none => s.reg (Reg.EVT_ROUTE e)

/-- Delivery of event `e` to its engine route (R431): the engine the event entered, and whether it raised
that engine's event. -/
def evtToEngine (e : Nat) (s : State) : State × Option Nat :=
  let r := routeOf e s
  let n := F.EVT_ROUTE_Engine.get r
  if (s.eng n).st.takesEvents then
    let (s', again) := engArrive n (F.EVT_ROUTE_Channel.get r) s
    (s', if again then some n else none)
  else
    let fb := s.fld Reg.EVT_CTL F.EVT_CTL_FallbackEngine
    let st := (s.eng fb).st
    if s.bit Reg.EVT_CTL F.EVT_CTL_FallbackEnable && (st == .run || st == .wait) then
      let (s', again) := engArrive fb (s.fld Reg.EVT_CTL F.EVT_CTL_FallbackChannel)
        (s.evtStat F.EVT_STAT_Redirected e)
      (s', if again then some fb else none)
    else (s.evtStat F.EVT_STAT_RouteDropped e, none)

/-- The Seam route: one MSG per event waits; a further raise merges into it (R432). -/
def evtToSeam (e : Nat) (s : State) : State :=
  match lookupCell e s.seamEvts.cells with
  | some w => ({ s with seamEvts := ⟨putCell e (some { w with count := w.count + 1 }) s.seamEvts.cells⟩ }).evtStat
      F.EVT_STAT_SeamMerged e
  | none =>
    let win := F.EVT_ROUTE_SeamWin.get (routeOf e s)
    if s.bit (Reg.SL_WIN_CTL win) F.SL_WIN_CTL_WinEnable && s.bit (Reg.SL_WIN_CTL win) F.SL_WIN_CTL_Kind &&
        s.bit (Reg.SL_WIN_CTL win) F.SL_WIN_CTL_Write then
      { s with seamEvts := ⟨putCell e (some { win := win, count := 1, lt := s.lt }) s.seamEvts.cells⟩ }
    else s.evtStat F.EVT_STAT_SeamLost e

/-- One raise of event `e` (R429): its EVT_PEND bit, the count of raises, and its routes. Answers the
engine whose own event this raise brings about through EvCoalesced. -/
def raiseOne (e : Nat) (s : State) : State × Option Nat :=
  let p := Reg.EVT_PEND (e / 32)
  let s := s.setReg p (s.reg p ||| BitVec.ofNat 32 (2 ^ (e % 32)))
  let s := s.countUp Reg.EVT_RAISECNT F.EVT_RAISECNT_Raises
  let r := routeOf e s
  let s := if F.EVT_ROUTE_MsixEn.get r = 1 then
      { s with msixPend := s.msixPend.set false (F.EVT_ROUTE_Vector.get r) true } else s
  let s := if F.EVT_ROUTE_SeamEn.get r = 1 then evtToSeam e s else s
  if F.EVT_ROUTE_EngEn.get r = 1 then evtToEngine e s else (s, none)

/-- A raise with the raises it brings about: each sets a clear EvCoalesced, so 193 links suffice. -/
def raiseChain : Nat → Nat → State → State
  | 0, _, s => s
  | k + 1, e, s =>
    match raiseOne e s with
    | (s', some n) => raiseChain k n s'
    | (s', none) => s'

/-- Raises event `e` (R429 to R433). -/
def State.raise (s : State) (e : Nat) : State := raiseChain 193 e s

/-- Raises event `e` where `on` holds. -/
def State.raiseIf (s : State) (on : Bool) (e : Nat) : State := if on then s.raise e else s

/-- Sets a sticky flag and raises its event where the flag's enable is 1. -/
def State.flag (s : State) (a : Nat) (f : Fld) (on : Bool) (e : Nat) : State :=
  (s.setBit a f).raiseIf on e

/-! ### Requests in the order of R43 and R256 -/

/-- The rank of a requester among those of one tick or ENG cycle: engines by index, the host (with a fallback job
and a reject), Seam ports by index. -/
def reqRank : Req → Nat
  | .engine n => n
  | .host => 192
  | .seam k => 193 + k

def Asker.rank : Asker → Nat
  | .instr n _ => n
  | .staged r => reqRank r
  | .reject _ => 192
  | .cueAt k _ => 193 + k
  | .fallback _ => 192

/-- `x` behind the elements of its rank or below. -/
def putRanked {α : Type} (rank : α → Nat) (x : α) : List α → List α
  | [] => [x]
  | y :: l => if rank y ≤ rank x then y :: putRanked rank x l else x :: y :: l

/-- A list by rank; equal ranks keep their order. -/
def byRank {α : Type} (rank : α → Nat) (l : List α) : List α := l.foldl (fun r x => putRanked rank x r) []

def State.setAsks (s : State) (x : Asks) : State := { s with asks := x }

/-- An arming request comes (R43): it is applied at the end of its tick. -/
def askArm (who : Asker) (n : Nat) (r : Arm) (s : State) : State :=
  s.setAsks { s.asks with arms := s.asks.arms ++ [ArmAsk.mk who n r] }

/-- A post comes (R256): it is applied at the end of its ENG cycle. -/
def askPost (who : Asker) (q : Nat) (l : List Word) (s : State) : State :=
  s.setAsks { s.asks with posts := s.asks.posts ++ [PostAsk.mk who q l] }

/-- Has a write of the host not yet taken effect, or does a read wait before this one (R308)? A latch write counts
whoever sent it. -/
def hostWaits (s : State) : Bool :=
  !s.lio.writes.isEmpty || s.asks.arms.any (fun x => x.who == .staged .host) || !s.asks.reads.isEmpty

/-- A read of the host waits for its earlier posted writes. -/
def askRead (r : HostRead) (s : State) : State := s.setAsks { s.asks with reads := s.asks.reads ++ [r] }

end Sys2Proof.Machine
end

