-- ==== Sys2Proof/Machine/Cue.lean ====
section
/-!
DEFINITION. The cue fabric (chapter 03): source edges, targets, slots, arming and disarming, the 64-tick
path of R34, capture FIFOs and fabric taps.
-/
namespace Sys2Proof.Machine

def State.target (s : State) (n : Nat) : Target := s.cue.targets.get Target.init n

def State.setTarget (s : State) (n : Nat) (t : Target) : State :=
  { s with cue := { s.cue with targets := s.cue.targets.set Target.init n t } }

def State.encOf (s : State) (e : Nat) : Enc := s.encs.get Enc.init e

def State.setEnc (s : State) (e : Nat) (x : Enc) : State := { s with encs := s.encs.set Enc.init e x }

/-- The ticks of every cue path from its sampling tick, before the target's delay (R34). -/
def pathTicks : Nat := 64

/-- The event of a target's flags (R63); a capture unit's target raises none for them. -/
def targetEvent (n : Nat) : Option Nat :=
  if n < 512 then some (704 + n / 8)
  else if n < 640 then some (320 + (n - 512))
  else if n < 896 then some (768 + (n - 640) / 8)
  else none

/-- Sets a flag of CQ_TSTAT and raises the target's event (R63). -/
def targetFlag (n : Nat) (f : Fld) (s : State) : State :=
  match targetEvent n with
  | some e => s.flag (Reg.CQ_TSTAT n) f true e
  | none => s.setBit (Reg.CQ_TSTAT n) f

/-- Signed distance of an estimate from a position, modulo 2^40 (R58). -/
def posDiff (est : BitVec 40) (v : Nat) : Int := (est - BitVec.ofNat 40 v).toInt

/-- Does the estimate cross `v` in direction `dir` in this tick (R58)? 0 UP, 1 DOWN, 2 EITHER. -/
def crossed (x : Enc) (v dir : Nat) : Bool :=
  let p := posDiff x.prevEst v
  let c := posDiff x.est v
  let up := decide (p < 0) && decide (0 ≤ c)
  let down := decide (0 < p) && decide (c ≤ 0)
  if dir = 0 then up else if dir = 1 then down else up || down

/-! ### An encoder in this tick -/

def encEnabled (e : Nat) (s : State) : Bool := s.bit (Reg.ENC_CTL e) F.ENC_CTL_Enable

/-- FilterTicks + 1 samples accept a level (R54). -/
def encNeed (e : Nat) (s : State) : Nat := s.fld (Reg.ENC_CTL e) F.ENC_CTL_FilterTicks + 1

/-- PeriodSpan in counts. -/
def encSpan (e : Nat) (s : State) : Nat := 2 ^ s.fld (Reg.ENC_CTL e) F.ENC_CTL_PeriodSpan

/-- The position format of R55: the count in bits [39:8]. -/
def countPos (c : BitVec 32) : BitVec 40 := c.setWidth 40 <<< 8

/-- ENC_PERIOD: rounded to the nearest eighth of a tick, halves up (R55). -/
def roundPeriod (d span : Nat) : Nat := (2 * d + span) / (2 * span)

def EncIn.accept (x : EncIn) : EncIn := { x with level := !x.level, run := 0 }

/-- One legal accepted change (R54, R55, R57). `down` is its direction. A stamp difference that a step of LINETIME
backwards makes negative counts as 0 (DESIGN CHOICE, log entry 222). -/
def Enc.change (x : Enc) (down : Bool) (stamp span tick : Nat) : Enc :=
  let hist := (stamp :: (if down = x.dirDown then x.hist else [])).take (span + 1)
  let valid := decide (hist.length = span + 1)
  let count := if down then x.count - 1 else x.count + 1
  { x with
    count := count, est := countPos count, hist := hist, periodValid := valid,
    period := if valid then roundPeriod (stamp - hist.getLastD 0) span else x.period,
    dirDown := down, stopped := false, held := false, last := some tick }

/-- A and B accepted in one tick (R56). -/
def Enc.illegal (x : Enc) (tick : Nat) : Enc :=
  { x with
    a := x.a.accept, b := x.b.accept, hist := [], periodValid := false, held := true, stopped := false,
    last := some tick }

/-- Is the filter of A, of B full in this tick (R54)? -/
def encAccepts (e : Nat) (s : State) : Bool × Bool :=
  let x := s.encOf e
  (encEnabled e s && decide (encNeed e s ≤ x.a.run), encEnabled e s && decide (encNeed e s ≤ x.b.run))

/-- The unit after the changes of A and B that this tick accepts (R54 to R57). -/
def encCounted (e : Nat) (s : State) : Enc :=
  let x := s.encOf e
  let inv := s.bit (Reg.ENC_CTL e) F.ENC_CTL_Invert
  match encAccepts e s with
  | (true, true) => x.illegal s.tick
  | (true, false) =>
    let up := (!x.a.level) != x.b.level
    Enc.change { x with a := x.a.accept } (up == inv) x.a.stamp (encSpan e s) s.tick
  | (false, true) =>
    let up := (!x.b.level) == x.a.level
    Enc.change { x with b := x.b.accept } (up == inv) x.b.stamp (encSpan e s) s.tick
  | (false, false) => x

/-- The unit after the load that this tick brings: at the first CONV edge after its request (R60). It is no
crossing. -/
def encLoaded (e : Nat) (s : State) (x : Enc) : Enc :=
  match x.loadReq with
  | none => x
  | some (t, zero) =>
    if !(s.tick % 8 = 0 && decide (t < s.tick)) then x else
    let c : BitVec 32 := if zero then 0 else s.reg (Reg.ENC_LOAD e)
    { x with count := c, est := countPos c, prevEst := countPos c, hist := [], periodValid := false, loadReq := none }

/-- The unit with what this tick brings: its estimate is that of the tick (R55, R58). -/
def State.encNow (s : State) (e : Nat) : Enc := encLoaded e s (encCounted e s)

/-! ### Slots -/

/-- Is a condition already met in the tick of its arming (R45)? -/
def condMet (s : State) (position : Bool) (value enc dir : Nat) : Bool :=
  if position then
    let d := posDiff (s.encNow enc).est value
    if dir = 0 then decide (0 ≤ d) else if dir = 1 then decide (d ≤ 0) else false
  else decide (value ≤ s.lt)

/-- Has the armed slot's condition come true in this tick (R44)? Its arming tick is judged by R45 alone. -/
def slotMet (s : State) (sl : Slot) : Bool :=
  sl.st == .armed && decide (sl.due < s.tick) &&
    (if sl.position then crossed (s.encNow sl.enc) sl.value sl.dir else decide (sl.value ≤ s.lt))

/-- Is a slot that was armed in this tick late by what the tick has brought since (R45)? -/
def slotLate (s : State) (sl : Slot) : Bool :=
  sl.st == .armed && decide (sl.due = s.tick) && condMet s sl.position sl.value sl.enc sl.dir

/-- A slot is free, or its effect lies in an earlier tick (R46). -/
def slotFree (s : State) (sl : Slot) : Bool :=
  sl.st == .free || (sl.st == .inFlight && decide (sl.due < s.tick))

/-- The first free slot, counted from `k`. DESIGN CHOICE (log entry 223): the spec does not say which of several
free slots a request or a SOURCE edge takes. -/
def firstFree (s : State) : Nat → List Slot → Option Nat
  | _, [] => none
  | k, sl :: rest => if slotFree s sl then some k else firstFree s (k + 1) rest

/-- CQ_TSEL and CQ_TCTL as they act on sampling ticks of this tick (R49). -/
def actingCfg (n : Nat) (s : State) : Word × Word :=
  match (s.target n).old with
  | some (t, sel, ctl) => if t = s.tick then (sel, ctl) else (s.reg (Reg.CQ_TSEL n), s.reg (Reg.CQ_TCTL n))
  | none => (s.reg (Reg.CQ_TSEL n), s.reg (Reg.CQ_TCTL n))

/-- The position a capture unit records: the estimate of its encoder at the sampling tick (R51). -/
def capPos (n : Nat) (s : State) : Nat :=
  if n < 896 then 0
  else (s.encNow (s.fld (Reg.CQ_CAPCTL (n - 896)) F.CQ_CAPCTL_Encoder)).est.toNat

/-- The stamp of R36 in ticks: LINETIME of the sampling tick minus 1. -/
def stampNow (s : State) : Nat := (s.lt + 2 ^ 64 - 1) % 2 ^ 64

/-- Slot `k` of target `n` is satisfied in this tick: IN_FLIGHT until its effect 64 + D ticks later (R44). -/
def launchSlot (n k : Nat) (sl : Slot) (s : State) : State :=
  let t := s.target n
  let due := s.tick + pathTicks + sl.delay
  s.setTarget n { t with
    slots := t.slots.set k { sl with st := .inFlight, due := due },
    flights := t.flights ++ [Flight.mk (some k) s.tick sl.delay due sl.action none (stampNow s) 0 0x7FF (capPos n s)] }

/-- A late slot: LateArm, and FIRE_LATE satisfies it in this tick where DISCARD frees it (R45). The policy is the
one that acts in this tick (R49). -/
def fireLate (n k : Nat) (sl : Slot) (s : State) : State :=
  let s := targetFlag n F.CQ_TSTAT_LateArm s
  if F.CQ_TCTL_LatePolicy.get (actingCfg n s).2 = 1 then
    s.setTarget n { s.target n with slots := (s.target n).slots.set k Slot.init }
  else launchSlot n k sl s

/-- An armed slot whose condition holds becomes IN_FLIGHT (R44, R45). -/
def satisfySlot (n k : Nat) (s : State) : State :=
  match (s.target n).slots[k]? with
  | some sl => if slotMet s sl then launchSlot n k sl s else if slotLate s sl then fireLate n k sl s else s
  | none => s

/-- Is the condition already met in the tick of the arming (R45)? -/
def armLate (s : State) (r : Arm) : Bool := condMet s r.position r.value r.enc r.dir

/-- An arming request at target `n` (R43, R45). Answers the status of R245 (0 ARMED, 1 REFUSED, 2 LATE,
3 DISCARDED) and the slot. In the tick of a write to CQ_TCTL the configuration before the write judges it (R49);
DESIGN CHOICE (log entry 224): where that write leaves ARMED mode, a request that this tick does not satisfy is
refused, since the write would free its slot. -/
def armTarget (n : Nat) (r : Arm) (s : State) : (Nat × Nat) × State :=
  let sl : Slot := Slot.mk .armed r.position r.value r.enc r.dir r.delay r.action r.armedBy s.tick
  let ctl := (actingCfg n s).2
  match firstFree s 0 (s.target n).slots with
  | none => ((1, 0), targetFlag n F.CQ_TSTAT_ArmRefused s)
  | some k =>
    if F.CQ_TCTL_Mode.get ctl != 2 || (s.fld (Reg.CQ_TCTL n) F.CQ_TCTL_Mode != 2 && !armLate s r) then
      ((1, 0), targetFlag n F.CQ_TSTAT_ArmRefused s)
    else if armLate s r then ((if F.CQ_TCTL_LatePolicy.get ctl = 1 then 3 else 2, k), fireLate n k sl s)
    else ((0, k), s.setTarget n { s.target n with slots := (s.target n).slots.set k sl })

/-- Disarms slot `k`: answers whether it was disarmed, and whether it was too late (R47). -/
def disarmSlot (n k : Nat) (s : State) : (Bool × Bool) × State :=
  let t := s.target n
  match t.slots[k]? with
  | none => ((false, false), s)
  | some sl =>
    if slotFree s sl then ((false, false), s)
    else if sl.st == .armed && !slotMet s sl && !slotLate s sl then
      ((true, false), s.setTarget n { t with slots := t.slots.set k Slot.init })
    else ((false, true), s.setBit (Reg.CQ_TSTAT n) F.CQ_TSTAT_DisarmLate)

/-- Disarms the slots of a mask: the masks disarmed and too late (R246). -/
def disarmMask (n mask : Nat) (s : State) : (Nat × Nat) × State :=
  [0, 1, 2, 3].foldl (fun acc k =>
    if bitN mask k then
      let r := disarmSlot n k acc.2
      ((acc.1.1 + (if r.1.1 then 2 ^ k else 0), acc.1.2 + (if r.1.2 then 2 ^ k else 0)), r.2)
    else acc) ((0, 0), s)

/-- The staged arm of the host (CQ_ARM registers). -/
def stagedArm (n : Nat) (s : State) : Arm :=
  let c := s.reg (Reg.CQ_ARM_CTL n)
  let pos := F.CQ_ARM_CTL_Cond.get c = 1
  let v := s.reg64 (Reg.CQ_ARM_VLO n)
  Arm.mk pos (if pos then v % 2 ^ 40 else v) (F.CQ_ARM_CTL_Encoder.get c) (F.CQ_ARM_CTL_Dir.get c)
    (s.fld (Reg.CQ_ARM_DLY n) F.CQ_ARM_DLY_Delay) (F.CQ_ARM_CTL_Action.get c) 1

/-- A write to CQ_ARM_CTL(n): Dir 0b11 stores UP, and Go arms one slot from the staging registers (R43). -/
def writeArmCtl (n : Nat) (v : Word) (s : State) : State :=
  let v' := if F.CQ_ARM_CTL_Dir.get v = 3 then F.CQ_ARM_CTL_Dir.put v 0 else v
  let s := s.plainWrite (Reg.CQ_ARM_CTL n) v'
  if F.CQ_ARM_CTL_Go.get v = 1 then askArm (.staged .host) n (stagedArm n s) s else s

/-- A source selector stores 0x7FF for a number that names no source, and RISE for Edge 0b11 (R39). -/
def fixSel (v : Word) : Word :=
  let src := F.CQ_TSEL_Source.get v
  let v := if 1152 ≤ src && src ≤ 2046 then F.CQ_TSEL_Source.put v 0x7FF else v
  if F.CQ_TSEL_Edge.get v = 3 then F.CQ_TSEL_Edge.put v 0 else v

/-- The configuration before the first write of this tick still acts in it (R49). -/
def keepOldCfg (n : Nat) (s : State) : State :=
  let t := s.target n
  let (sel, ctl) := actingCfg n s
  s.setTarget n { t with old := some (s.tick, sel, ctl) }

/-- A write to CQ_TSEL(n) (R39, R49). -/
def writeTsel (n : Nat) (v : Word) (s : State) : State :=
  (keepOldCfg n s).plainWrite (Reg.CQ_TSEL n) (fixSel v)

/-- A write to CQ_TCTL(n): Mode 0b11 is ignored; OFF or SOURCE frees every ARMED slot that this tick does
not satisfy (R49). -/
def writeTctl (n : Nat) (v : Word) (s : State) : State :=
  let m := F.CQ_TCTL_Mode.get v
  let v := if m = 3 then F.CQ_TCTL_Mode.put v (s.fld (Reg.CQ_TCTL n) F.CQ_TCTL_Mode) else v
  let s := (keepOldCfg n s).plainWrite (Reg.CQ_TCTL n) v
  if m = 0 || m = 1 then
    let t := s.target n
    s.setTarget n { t with
      slots := t.slots.map (fun sl =>
        if sl.st == .armed && !slotMet s sl && !slotLate s sl then Slot.init else sl) }
  else s

/-! ### Source edges -/

/-- A source event: its number, its new level where it has one, and the fraction in eighths (R35, R36). -/
structure Edge where
  src : Nat
  level : Option Bool
  frac : Nat
  deriving DecidableEq, Repr

/-- Does the edge qualify under the selector's Edge field (R41)? A source without a level always does. -/
def edgeQualifies (edge : Nat) (lvl : Option Bool) : Bool :=
  match lvl with
  | none => true
  | some true => edge = 0 || edge = 2
  | some false => edge = 1 || edge = 2

/-- The targets whose selector names source `src`. Only a selector that is not at reset names one. -/
def selectedTargets (src : Nat) (s : State) : List Nat :=
  s.regs.filterMap (fun c =>
    let o := ofs (Reg.CQ_TSEL 0) c.1
    if Reg.CQ_TSEL 0 ≤ c.1 && c.1 < Reg.CQ_TSEL 1024 && o % 0x40 = 0 && F.CQ_TSEL_Source.get c.2 = src then
      some (o / 0x40) else none)

/-- The targets that were written in this tick and still act on their old selector (R49). -/
def shadowTargets (src : Nat) (s : State) : List Nat :=
  s.cue.targets.cells.filterMap (fun c =>
    match c.2.old with
    | some (t, sel, _) => if t = s.tick && F.CQ_TSEL_Source.get sel = src then some c.1 else none
    | none => none)

def selectedTaps (src : Nat) (s : State) : List Nat :=
  s.regs.filterMap (fun c =>
    let o := ofs (Reg.CQ_FSEL 0) c.1
    if Reg.CQ_FSEL 0 ≤ c.1 && c.1 < Reg.CQ_FSEL 128 && o % 4 = 0 && F.CQ_FSEL_Source.get c.2 = src then
      some (o / 4) else none)

/-- A source edge at one target (R41, R42, R50). -/
def edgeAtTarget (e : Edge) (n : Nat) (s : State) : State :=
  let (sel, ctl) := actingCfg n s
  if F.CQ_TSEL_Source.get sel != e.src || F.CQ_TCTL_Mode.get ctl != 1 then s else
  let d := s.fld (Reg.CQ_SRCDLY n) F.CQ_SRCDLY_SrcDelay
  let act := F.CQ_TCTL_SrcAction.get ctl
  let lio := decide (640 ≤ n) && decide (n < 896)
  let follow := lio && act = 3 && d = 0 && e.level.isSome
  if !(follow || edgeQualifies (F.CQ_TSEL_Edge.get sel) e.level) then s else
  let t := s.target n
  let due := s.tick + pathTicks + d
  let fl (slot : Option Nat) : Flight :=
    Flight.mk slot s.tick d due act (if follow then e.level else none) (stampNow s) e.frac e.src (capPos n s)
  if d = 0 then s.setTarget n { t with flights := t.flights ++ [fl none] }
  else
    match firstFree s 0 t.slots with
    | none => targetFlag n F.CQ_TSTAT_SourceOverrun s
    | some k => s.setTarget n { t with
        slots := t.slots.set k { Slot.init with st := .inFlight, action := act, delay := d, armedBy := 3, due := due },
        flights := t.flights ++ [fl (some k)] }

/-- A source edge at one fabric tap (R52). -/
def edgeAtTap (e : Edge) (i : Nat) (s : State) : State :=
  if !edgeQualifies (s.fld (Reg.CQ_FSEL i) F.CQ_FSEL_Edge) e.level then s else
  let fl : Flight := Flight.mk none s.tick 0 (s.tick + pathTicks) 0 none (stampNow s) e.frac e.src 0
  { s with cue := { s.cue with taps := s.cue.taps.set [] i (s.cue.taps.get [] i ++ [fl]) } }

/-- A source event reaches every target and tap that selects it (R41, R42, R52). -/
def sourceEvent (e : Edge) (s : State) : State :=
  let ts := selectedTargets e.src s
  let ts := ts ++ (shadowTargets e.src s).filter (fun n => !ts.contains n)
  let s' := ts.foldl (fun s n => edgeAtTarget e n s) s
  (selectedTaps e.src s).foldl (fun s i => edgeAtTap e i s) s'

/-- A source's level as it was last seen (R38). -/
def srcLevel (src : Nat) (s : State) : Bool := s.cue.levels.get false src

def setSrcLevel (src : Nat) (l : Bool) (s : State) : State :=
  { s with cue := { s.cue with levels := s.cue.levels.set false src l } }

/-- A source takes a level: an edge where it differs from the reference. -/
def sourceLevel (src : Nat) (l : Bool) (frac : Nat) (s : State) : State :=
  if srcLevel src s = l then s
  else sourceEvent { src := src, level := some l, frac := frac } (setSrcLevel src l s)

/-! ### Fabric taps, captures -/

/-- State of Sleeve `k` (R327). -/
def slvState (k : Nat) (s : State) : Nat := s.fld (Reg.CFG_SLVSTAT k) F.CFG_SLVSTAT_State

def slvCuffed : Nat := 2

/-- A tap's effect: a high level of 4 ticks with the phase code of its tick within the FAB cycle (R52). The Cuffs
of a Sleeve under reconfiguration ignore it (R37, R52). -/
def tapEffect (i : Nat) (s : State) : State :=
  let fs := s.cue.taps.get [] i
  if fs.any (fun f => f.due = s.tick) then
    { s with cue := { s.cue with
        taps := s.cue.taps.set [] i (fs.filter (fun f => f.due != s.tick)),
        tapOut := if slvState (i / 8) s = slvCuffed then s.cue.tapOut
          else s.cue.tapOut.set (0, 0) i (s.tick % 4, s.tick + 4) } }
  else s

def State.capFifo (s : State) (u : Nat) : List CapRec := s.cue.caps.get [] u

def State.setCap (s : State) (u : Nat) (l : List CapRec) : State :=
  { s with cue := { s.cue with caps := s.cue.caps.set [] u l } }

/-- The record of a capture unit's effect (R51). -/
def captureOf (u : Nat) (f : Flight) (s : State) : CapRec :=
  CapRec.mk f.stamp f.frac f.source (if s.bit (Reg.CQ_CAPCTL u) F.CQ_CAPCTL_PosEnable then f.pos else 0)

/-- A capture unit's effect writes its record into the FIFO, or sets Overflow where that holds four (R51). -/
def captureRecord (u : Nat) (f : Flight) (s : State) : State :=
  if 4 ≤ (s.capFifo u).length then s.flag (Reg.CQ_CAPSTAT u) F.CQ_CAPSTAT_Overflow true (768 + u / 4)
  else
    (s.setCap u (s.capFifo u ++ [captureOf u f s])).raiseIf (s.bit (Reg.CQ_CAPCTL u) F.CQ_CAPCTL_ReadyEvent) (768 + u / 4)

/-- The head record of a capture unit, as its registers read it (R51). -/
def capHead (u : Nat) (s : State) : CapRec :=
  (s.capFifo u).headD { stamp := 0, frac := 0, source := 0x7FF, pos := 0 }

/-- The number of slots that are ARMED with a TIME condition (CQ_STATUS LtArmed). -/
def ltArmed (s : State) : Nat :=
  (s.cue.targets.cells.map (fun c => c.2.slots.countP (fun sl => sl.st == .armed && !sl.position))).sum

/-- The number of slots that are ARMED or IN_FLIGHT (CQ_STATUS ArmedTotal). -/
def armedTotal (s : State) : Nat :=
  (s.cue.targets.cells.map (fun c => c.2.slots.countP (fun sl => !slotFree s sl))).sum

/-- CQ_SLOT(n,k) as the slot stands. -/
def slotWord (n k : Nat) (s : State) : Word :=
  match (s.target n).slots[k]? with
  | none => 0
  | some sl =>
    if slotFree s sl then 0
    else BitVec.ofNat 32 ((if sl.st == .armed then 1 else 2) + 4 * b2n sl.position + 8 * sl.enc + 256 * sl.dir +
      1024 * sl.action + 4096 * sl.armedBy)

/-- CQ_TSTAT SlotBusy. -/
def slotBusy (n : Nat) (s : State) : Nat :=
  (List.range 4).foldl (fun m k => m + (match (s.target n).slots[k]? with
    | some sl => if slotFree s sl then 0 else 2 ^ k
    | none => 0)) 0

/-- CQ_FSEL(i) is written as CQ_TSEL is. -/
def writeFsel (i : Nat) (v : Word) (s : State) : State := s.plainWrite (Reg.CQ_FSEL i) (fixSel v)

/-! ### The commands -/

/-- SLOT_SATISFIED. -/
def execSlotSatisfied (n k : Nat) (s : State) : Out := .next (satisfySlot n k s)

/-- HOST_ARM_GO: a write to CQ_ARM_CTL(n) with Go 1. -/
def execHostArmGo (n : Nat) (v : Word) (s : State) : Out :=
  .next (writeArmCtl n (F.CQ_ARM_CTL_Go.put v 1) s)

/-- DISARM: a write to CQ_DISARM(n). -/
def execDisarm (n : Nat) (v : Word) (s : State) : Out :=
  .next (disarmMask n (F.CQ_DISARM_Slots.get v) s).2

/-- TARGET_CONFIG_WRITE: a write to CQ_TCTL(n) (`ctl`) or to CQ_TSEL(n). -/
def execTargetConfigWrite (n : Nat) (ctl : Bool) (v : Word) (s : State) : Out :=
  .next (if ctl then writeTctl n v s else writeTsel n v s)

/-- CAPTURE_POP: a write to CQ_CAP_POP(u). -/
def popCapture (u : Nat) (v : Word) (s : State) : State :=
  if F.CQ_CAP_POP_Pop.get v = 1 then s.setCap u ((s.capFifo u).drop 1) else s

def execCapturePop (u : Nat) (v : Word) (s : State) : Out := .next (popCapture u v s)

/-- A count that reading clears: the word it reads, and the state with the field 0 (access RC). -/
def readClear (a : Nat) (f : Fld) (s : State) : Word × State := (s.reg a, s.setFld a f 0)

/-- MERGE_COUNT_READ. -/
def execMergeCountRead (req : Req) (n : Nat) (s : State) : Out :=
  .next ((readClear (Reg.CQ_MERGE n) F.CQ_MERGE_MergeCount s).2.give req
    [(readClear (Reg.CQ_MERGE n) F.CQ_MERGE_MergeCount s).1])

/-- FABRIC_TAP_EFFECT. -/
def execFabricTapEffect (i : Nat) (s : State) : Out := .next (tapEffect i s)

end Sys2Proof.Machine
end

