-- ==== Sys2Proof/Machine/MemMap.lean ====
section
/-!
DEFINITION. The memory ranges of the address space (R462) and the rules that every ring in memory follows
(R151).
-/
namespace Sys2Proof.Machine

/-- What an address belongs to (R462). -/
inductive Region where
  | control
  | wave (t : Nat)
  | staging
  | journal
  | bram (s : Nat)
  | store (c : Nat)
  | pocket (n : Nat)
  /-- A memory of cluster `c` while it is retained (R291): it answers as an unmapped address. -/
  | asleep (c : Nat)
  | lpddr
  | seam (w : Nat)
  | unmapped
  deriving DecidableEq, Repr

def lpddrBase : Nat := 0x1000000000

/-- Size of the LPDDR5X region in bytes, the plain and the mirrored part (R297). -/
def lpddrSize (s : State) : Nat :=
  2 ^ 20 * (s.fld Reg.MEMC_SIZES F.MEMC_SIZES_PlainMiB + s.fld Reg.MEMC_SIZES F.MEMC_SIZES_MirrorMiB)

/-- Is cluster `c` in retention (R290, R291)? -/
def retained (c : Nat) (s : State) : Bool := s.bit (Reg.TST_RETCTL c) F.TST_RETCTL_Retained

def storeAt (a : Nat) (s : State) : Region :=
  let c := (ofs 0x100000000 a) / 0x400000
  if retained c s then .asleep c else .store c

def pocketAt (a : Nat) (s : State) : Region :=
  let n := (ofs 0x200000000 a) / 0x10000
  if retained (n / 16) s then .asleep (n / 16) else .pocket n

/-- The range that holds an address (R462, R274, R297). -/
def regionOf (a : Nat) (s : State) : Region :=
  if a < 0x1000000 then .control
  else if a < 0x1400000 then .wave ((ofs 0x1000000 a) / 0x8000)
  else if 0x2000000 ≤ a && a < 0x2200000 then .staging
  else if 0x3000000 ≤ a && a < 0x3040000 then .journal
  else if 0x4000000 ≤ a && a < 0x4800000 && a % 0x80000 < 0x40000 then .bram ((ofs 0x4000000 a) / 0x80000)
  else if 0x100000000 ≤ a && a < 0x103000000 && a % 0x400000 < 0x200000 then storeAt a s
  else if 0x200000000 ≤ a && a < 0x200c00000 then pocketAt a s
  else if lpddrBase ≤ a && a < lpddrBase + lpddrSize s then .lpddr
  else if 0x400000000000 ≤ a && a < 0x404000000000 then .seam ((ofs 0x400000000000 a) / 0x100000000)
  else .unmapped

def Region.isStore : Region → Bool
  | .store _ => true
  | _ => false

/-- The Cluster Store that an address lies in, retained or not (R274). -/
def storeNo (a : Nat) : Option Nat :=
  if 0x100000000 ≤ a ∧ a < 0x103000000 ∧ a % 0x400000 < 0x200000 then some ((ofs 0x100000000 a) / 0x400000) else none

def Region.isAsleep : Region → Bool
  | .asleep _ => true
  | _ => false

/-- Do `n` bytes at `a` lie wholly in one Cluster Store or wholly in the LPDDR5X region (R151)? -/
def inRingMemory (a n : Nat) (s : State) : Bool :=
  match storeNo a with
  | some c => decide (storeNo (a + n - 1) = some c) && decide (n ≤ 0x200000)
  | none => decide (regionOf a s = .lpddr) && decide (regionOf (a + n - 1) s = .lpddr)

/-! ### LPDDR5X channels (R296, R297, R300) -/

/-- The active channels in rising order. -/
def activeChannels (s : State) : List Nat :=
  (List.range 4).filter (fun k => bitN (s.fld Reg.MEMC_STAT F.MEMC_STAT_Active) k)

def channelFailed (k : Nat) (s : State) : Bool := s.bit (Reg.MEMC_CHSTAT k) F.MEMC_CHSTAT_Failed

/-- Does the address lie in the mirrored region? -/
def isMirrored (a : Nat) (s : State) : Bool :=
  decide (lpddrBase + 2 ^ 20 * s.fld Reg.MEMC_SIZES F.MEMC_SIZES_PlainMiB ≤ a)

/-- The channels that hold an address: one, or both of a pair in the mirrored region. -/
def channelsOf (a : Nat) (s : State) : List Nat :=
  let l := activeChannels s
  let g := (ofs lpddrBase a) / 256
  if isMirrored a s then
    let p := g % (l.length / 2)
    (l.drop (2 * p)).take 2
  else ((l[g % l.length]?).map (fun k => [k])).getD []

/-- Every copy of the address lies on a failed channel: it answers as uncorrectable (R300). -/
def channelDead (a : Nat) (s : State) : Bool :=
  decide (lpddrBase ≤ a) && decide (a < lpddrBase + lpddrSize s) && (channelsOf a s).all (fun k => channelFailed k s)

/-! ### Poisoned words (R284, R298) and plain writes -/

/-- The bytes that one check word covers: 8 on chip, 64 in LPDDR5X. -/
def checkSpan (a : Nat) : Nat := if lpddrBase ≤ a then 64 else 8

/-- The key of the check word that holds address `a`: its first address over 8. -/
def poisonKey (a : Nat) : Nat := a / checkSpan a * checkSpan a / 8

def State.poisoned (s : State) (a : Nat) : Bool := s.poison.get false (poisonKey a) || channelDead a s

def setPoison (a : Nat) (p : Bool) (s : State) : State := { s with poison := s.poison.set false (poisonKey a) p }

/-- Is any of the `n` bytes at `a` in a poisoned word? -/
def anyPoison (a n : Nat) (s : State) : Bool :=
  (List.range (n / checkSpan a + 2)).any (fun i =>
    let w := (a / checkSpan a + i) * checkSpan a
    decide (w < a + n) && s.poisoned w)

/-- The check words that lie wholly in the `n` bytes at `a` lose their poison. -/
def clearPoison (a n : Nat) (s : State) : State :=
  (List.range (n / checkSpan a + 1)).foldl (fun s i =>
    let w := ((a + checkSpan a - 1) / checkSpan a + i) * checkSpan a
    if w + checkSpan a ≤ a + n then setPoison w false s else s) s

/-! ### Memories by MemId, and accesses to a row under test (R286) -/

def State.setMemt (s : State) (x : MemTest) : State := { s with memt := x }

/-- MemId of the memory that holds an address (Memory test registers). -/
def memIdOf (a : Nat) (s : State) : Option Nat :=
  match regionOf a s with
  | .pocket n => some n
  | .store c => some (0xC0 + c)
  | .wave t => some (0x100 + t)
  | .staging => some 0x180
  | .journal => some 0x181
  | _ => none

/-- Cluster of a Pocket or a Cluster Store. -/
def memCluster (m : Nat) : Option Nat := if m < 0xC0 then some (m / 16) else if m < 0xCC then some (m - 0xC0) else none

/-- Rows that a tester sweeps, and rows of one bank (R273, R285). -/
def memRows (m : Nat) : Nat :=
  if m < 0xC0 then 256 else if m < 0xCC then 8704 else if m < 0x180 then 128 else if m = 0x180 then 8192 else 0

def bankRows (m : Nat) : Nat := if m < 0xC0 then 256 else if m < 0xCC then 512 else if m < 0x180 then 128 else 1024

/-- Row of an address in its memory. -/
def rowOf (m a : Nat) : Nat :=
  if m < 0xC0 then a % 0x10000 / 256
  else if m < 0xCC then (a / 8 % 16) * 512 + (a % 0x200000) / 128 / 32
  else if m < 0x180 then a % 0x8000 / 256
  else a % 0x200000 / 256

def State.tester (s : State) (m : Nat) : Tester := s.memt.testers.get Tester.init m

def State.setTester (s : State) (m : Nat) (t : Tester) : State :=
  s.setMemt { s.memt with testers := s.memt.testers.set Tester.init m t }

/-- An access to the word at `w`: a tester that has its row under test abandons the window. -/
def touchWord (w : Nat) (s : State) : State :=
  match memIdOf w s with
  | none => s
  | some m =>
    let t := s.tester m
    if t.row = some (rowOf m w) && !t.left then s.setTester m { t with left := true } else s

/-- The words of 8 bytes that `n` bytes at `a` touch. -/
def wordsIn (a n : Nat) : List Nat :=
  ((List.range (n / 8 + 2)).map (fun i => (a / 8 + i) * 8)).filter (fun w => decide (w < a + n))

/-- An access to `n` bytes at `a` (R286). -/
def touchRow (a n : Nat) (s : State) : State := (wordsIn a n).foldl (fun s w => touchWord w s) s

/-- The check words that a write of `n` bytes at `a` covers in part. -/
def partWords (a n : Nat) : List Nat :=
  ([a / checkSpan a * checkSpan a, (a + n - 1) / checkSpan a * checkSpan a].eraseDups).filter
    (fun w => decide (0 < n) && !(decide (a ≤ w) && decide (w + checkSpan a ≤ a + n)))

/-- The merge of a narrow store reads its words as any read does: the poisoned ones are noted (R275). -/
def noteMerge (cls a n : Nat) (s : State) : State :=
  s.setMemt { s.memt with merges := s.memt.merges ++
    ((partWords a n).filter (fun w => s.poison.get false (poisonKey w))).map (fun w => (w, cls)) }

/-- A write of bytes to a memory: a whole check word loses its poison, a part of one does not (R284, R298). On chip
the merge of a narrow write is noted here, in LPDDR5X by the controller (`readError`). -/
def State.put (s : State) (a : Nat) (bs : List Byte) : State :=
  let s := if a < lpddrBase then noteMerge 0 a bs.length (touchRow a bs.length s) else s
  (clearPoison a bs.length s).store a bs

def State.putWords (s : State) (a : Nat) (ws : List Word) : State := s.put a (wordBytes ws)

/-- A ring base of 48 bits in two registers. -/
def State.base48 (s : State) (a : Nat) : Nat := s.reg64 a % 2 ^ 48

/-- The base that acts: its low bits are taken as 0. -/
def ringStart (base size : Nat) : Nat := base - base % 2 ^ size

/-! ### Mantle's protected regions (R365, R367) -/

/-- Who makes an access to the LPDDR5X region. -/
inductive Accessor where
  | engine (n : Nat) (super : Bool)
  | dataPort
  | fabric
  | loader
  | boot
  | mantle
  /-- Rings and records of the hardware blocks, Seam requests. -/
  | other
  deriving DecidableEq, Repr

/-- First byte and size of region `r`. -/
def rgnSpan (r : Nat) (s : State) : Nat × Nat :=
  let k := s.fld (Reg.MNT_RGN_CTL r) F.MNT_RGN_CTL_SizeLog2
  (ringStart (s.base48 (Reg.MNT_RGN_LO r)) k, 2 ^ k)

def meets (a n b m : Nat) : Bool := decide (a < b + m) && decide (b < a + n)

def rgnHit (r a n : Nat) (s : State) : Bool :=
  s.bit (Reg.MNT_RGN_CTL r) F.MNT_RGN_CTL_RgnEnable && meets a n (rgnSpan r s).1 (rgnSpan r s).2

/-- The rights of region `r`. -/
def rgnAllows (u : Accessor) (write : Bool) (r : Nat) (s : State) : Bool :=
  let c := Reg.MNT_RGN_CTL r
  match u with
  | .engine n super =>
    super && bitN (s.fld c F.MNT_RGN_CTL_Clusters) (n / 16) &&
      s.bit c (if write then F.MNT_RGN_CTL_EngWrite else F.MNT_RGN_CTL_EngRead)
  | .dataPort => s.bit c (if write then F.MNT_RGN_CTL_HostWrite else F.MNT_RGN_CTL_HostRead)
  | .fabric => s.bit c (if write then F.MNT_RGN_CTL_FabWrite else F.MNT_RGN_CTL_FabRead)
  | .loader => !write && s.bit c F.MNT_RGN_CTL_Loader
  | .mantle => true
  | .boot => false
  | .other => false

/-- A full-device stream in the loader keeps its region unwritable (R339). -/
def rgnHeld (r : Nat) (s : State) : Bool := (s.cfg.load.bind (·.region)) = some r

/-- The boot stream region: the highest 8 MiB of the plain region (R367). -/
def bootHit (a n : Nat) (s : State) : Bool :=
  let top := lpddrBase + 2 ^ 20 * s.fld Reg.MEMC_SIZES F.MEMC_SIZES_PlainMiB
  s.mantle.fence && meets a n (ofs (2 ^ 23) top) (2 ^ 23)

def bootAllows (u : Accessor) (write : Bool) : Bool :=
  match u with
  | .boot => true
  | .mantle => true
  | .loader => !write
  | _ => false

/-- May the requestor reach the `n` bytes at `a`, as far as Mantle's fences go? -/
def fenceOk (u : Accessor) (write : Bool) (a n : Nat) (s : State) : Bool :=
  (List.range 8).all (fun r => !rgnHit r a n s || (rgnAllows u write r s && !(write && rgnHeld r s))) &&
    (!bootHit a n s || bootAllows u write)

def mntFlag (f : Fld) (e : Nat) (s : State) : State :=
  s.flag Reg.MNT_STATUS f (bitN (s.reg Reg.MNT_EVTEN).toNat f.lsb) e

/-- A fenced access is answered as an unmapped one and sets RegionViolation. -/
def noteFence (u : Accessor) (write : Bool) (a n : Nat) (s : State) : State :=
  if fenceOk u write a n s then s else mntFlag F.MNT_STATUS_RegionViolation 910 s

/-! ### The ports of a Cluster Store (R276, R278, R280) -/

/-- Port A requestors: an engine's local index, 16 job fetch, 17 instruction refill. Port B requestors: class
and instance. -/
def portB (cls i : Nat) : Nat := cls + 8 * i

/-- Do two accesses share an 8-byte word? -/
def sameWord (a n b m : Nat) : Bool := decide (a / 8 * 8 < b + m) && decide (b / 8 * 8 < a + n)

/-- Writes of this ENG cycle. -/
def writesNow (s : State) : List PortWrite := s.memt.writes.filter (fun w => w.cyc = s.clock.tick / 2)

/-- Sets a flag of TST_CSSTAT(c) (R293). -/
def csFlag (c : Nat) (f : Fld) (s : State) : State :=
  s.flag (Reg.TST_CSSTAT c) f (bitN (s.reg (Reg.TST_CSEVTEN c)).toNat f.lsb) (880 + c)

/-- The collision of R280 is recorded where the discarded write would have changed the word. -/
def noteCollide (c a whoA whoB : Nat) (s : State) : State :=
  let w := F.TST_COLL_WHO_PortAReq.put 0 whoA
  let w := F.TST_COLL_WHO_PortBIndex.put (F.TST_COLL_WHO_PortBClass.put w (whoB % 8)) (whoB / 8)
  let s := (s.setReg64 (Reg.TST_COLL_LO c) (a / 8 * 8)).setReg (Reg.TST_COLL_WHO c) w
  csFlag c F.TST_CSSTAT_Collide s

def logWrite (pa : Bool) (who a : Nat) (bs : List Byte) (s : State) : State :=
  { s with memt := { s.memt with
      writes := writesNow s ++ [PortWrite.mk (s.clock.tick / 2) pa who a (s.bytes a bs.length)
        ((wordsIn a bs.length).filter (fun w => s.poison.get false (poisonKey w))) bs] } }

/-- A discarded write leaves the bytes and the poison that stood before it. -/
def undoWrite (w : PortWrite) (s : State) : State :=
  w.bad.foldl (fun s x => setPoison x true s) (s.store w.addr w.old)

/-- The first word shared with the `n` bytes at `a` that a write of `bs` at `b` would change. -/
def changedWord (b : Nat) (bs : List Byte) (a n : Nat) (s : State) : Option Nat :=
  (wordsIn b bs.length).find? (fun x => decide (x < a + n) && decide (a < x + 8) &&
    (s.store b bs).bytes x 8 != s.bytes x 8)

/-- Does the word at `w` lie in a frozen bank (R288)? -/
def frozenWord (w : Nat) (s : State) : Bool :=
  match regionOf w s with
  | .store c =>
    match s.memt.copies.get none c with
    | some k => w / 8 % 16 = k.bank
    | none => false
  | _ => false

/-- Do the `n` bytes at `a` meet a frozen bank? -/
def frozenIn (a n : Nat) (s : State) : Bool :=
  s.memt.copies.cells.any (fun c => c.2.isSome) && (wordsIn a n).any (fun w => frozenWord w s)

/-- A write to Cluster Store `c`: with a write of the other port to the same word in the same ENG cycle, the
port A write stands and the port B write is discarded whole (R280). -/
def grantWrite (c : Nat) (pa : Bool) (who a : Nat) (bs : List Byte) (s : State) : State :=
  match (writesNow s).find? (fun w => w.portA != pa && sameWord a bs.length w.addr w.new.length) with
  | none => (logWrite pa who a bs s).put a bs
  | some w =>
    if pa then
      let s' := (logWrite pa who a bs (undoWrite w s)).put a bs
      match changedWord w.addr w.new a bs.length s' with
      | none => s'
      | some x => noteCollide c x who w.who s'
    else match changedWord a bs w.addr w.new.length s with
      | none => s
      | some x => noteCollide c x w.who who s

/-- A write to Cluster Store `c`; one that meets a frozen bank waits (R288). -/
def storeWrite (c : Nat) (pa : Bool) (who a : Nat) (bs : List Byte) (s : State) : State :=
  if frozenIn a bs.length s then
    s.setMemt { s.memt with held := s.memt.held ++ [HeldWrite.mk c pa who a bs] }
  else grantWrite c pa who a bs s

/-- A byte as the given port reads it: the word before a write of the other port in this ENG cycle. -/
def portByte (pa : Bool) (a : Nat) (s : State) : Byte :=
  match (writesNow s).find? (fun w => w.portA != pa && decide (w.addr ≤ a) && decide (a < w.addr + w.new.length)) with
  | some w => (w.old[a - w.addr]?).getD 0
  | none => s.byte a

def portBytes (pa : Bool) (a n : Nat) (s : State) : List Byte := (List.range n).map (fun i => portByte pa (a + i) s)

/-- An access to a retained cluster's memories sets RetAccess (R291). -/
def noteAsleep (a : Nat) (s : State) : State :=
  match regionOf a s with
  | .asleep c => csFlag c F.TST_CSSTAT_RetAccess s
  | _ => s

/-- The bytes that a requestor of the system side reads: those of a Cluster Store on port B. -/
def sysBytes (a n : Nat) (s : State) : List Byte :=
  (List.range n).map (fun i => if (regionOf (a + i) s).isStore then portByte false (a + i) s else s.byte (a + i))

def sysWord (a : Nat) (s : State) : Word := BitVec.ofNat 32 (leNat (sysBytes a 4 s))

/-- A record that a hardware block writes to its ring, as port B class `cls`, instance `i`. Rings lie in a Cluster
Store or in LPDDR5X (R151), and no record reaches another range. -/
def State.hwPut (s : State) (cls i a : Nat) (ws : List Word) : State :=
  if fenceOk .other true a (4 * ws.length) s then
    match regionOf a s with
    | .store c => storeWrite c false (portB cls i) a (wordBytes ws) s
    | .asleep c => csFlag c F.TST_CSSTAT_RetAccess s
    | .lpddr => if channelDead a s then s else (noteMerge cls a (4 * ws.length) s).putWords a ws
    | _ => s
  else noteFence .other true a (4 * ws.length) s

/-! ### Rings (R151) -/

/-- Records written and not consumed, modulo 2^32. -/
def ringHeld (wr rd : Nat) : Nat := (wr + 2 ^ 32 - rd) % 2 ^ 32

/-- The address of the record with index `i`. -/
def ringSlot (base size rec i : Nat) : Nat := ringStart base size + i * rec % 2 ^ size

/-- Does a write of the read index stand: not after the write index, not more than a capacity behind it? -/
def rdIdxOk (wr cap v : Nat) : Bool := decide (ringHeld wr v ≤ cap)

/-- SizeLog2 of a ring of bytes: the nearer limit of 10 to 24. -/
def clampRingSize (f : Fld) (v : Word) : Word := f.put v (clampNat 10 24 (f.get v))

end Sys2Proof.Machine
end

