-- ==== Sys2Proof/Machine/Ledger.lean ====
section
/-!
DEFINITION. The Proof Ledger (chapter 08, R179 to R192, and R7 to R12): records, flags and verdicts, notices,
rejects, and the attribution of trips, supervision faults and critical sets to Tags (R182 to R187).
-/
namespace Sys2Proof.Machine

def State.head (s : State) (h : Nat) : Head := s.heads.get Head.init h

def State.setHead (s : State) (h : Nat) (x : Head) : State := { s with heads := s.heads.set Head.init h x }

/-- Sets a flag of HD_STAT(h); its bit in HD_EVTEN(h) enables event 800 + h (R192). -/
def headFlag (h : Nat) (f : Fld) (s : State) : State :=
  s.flag (Reg.HD_STAT h) f (bitN (s.reg (Reg.HD_EVTEN h)).toNat f.lsb) (800 + h)

/-- Sets a flag of PL_STATUS: each setting raises event 1022 (R192). -/
def plFlag (f : Fld) (s : State) : State := s.flag Reg.PL_STATUS f true 1022

/-! ### Flags of R186, by their bit in a notice (R190) -/

def flagMissReject : Nat := 0
def flagMissOther : Nat := 1
def flagUnderrun : Nat := 2
def flagIncomplete : Nat := 3
def flagTrip : Nat := 4
def flagSupFault : Nat := 5
def flagAuditFail : Nat := 6
def flagAuditGap : Nat := 7
def flagUserFail : Nat := 8
def flagUserDoubt : Nat := 9
def flagRetried : Nat := 10
def flagNoRecord : Nat := 11

/-! ### Records -/

def State.setRecs (s : State) (l : List PRec) : State := { s with ledger := { s.ledger with recs := l } }

def State.setRejects (s : State) (l : List PReject) : State := { s with ledger := { s.ledger with rejects := l } }

/-- The occupied record of a Tag. -/
def findRec (tag : Nat) (s : State) : Option PRec := s.ledger.recs.find? (fun r => r.tag = tag)

def updRec (tag : Nat) (f : PRec → PRec) (s : State) : State :=
  s.setRecs (s.ledger.recs.map (fun r => if r.tag = tag then f r else r))

/-- Does a flag of this tick still count: before the close, or in the ENG cycle of the close (R10)? -/
def countsNow (s : State) (r : PRec) : Bool := !r.closed || (r.verdict = 0 && r.closeTick / 2 = s.tick / 2)

def withFlag (f n : Nat) : Nat := if bitN n f then n else n + 2 ^ f

/-- Records flag `f` against the record of a Tag; after its close the flag goes to the fault log (R10). -/
def markRec (f : Nat) (r : PRec) (s : State) : State :=
  if countsNow s r then updRec r.tag (fun r => { r with flags := withFlag f r.flags }) s
  else plFlag F.PL_STATUS_LateFlag (s.logPoint 1022 0x0B 0x00 r.tag)

/-- A report with no occupied record goes to the fault log only (R270). -/
def ledgerMark (f tag : Nat) (s : State) : State :=
  match findRec tag s with
  | some r => markRec f r s
  | none => s.logPoint 1022 0x0B 0x00 tag

/-- A report of head port `h`: without an occupied record it also sets NoRecord on the port (R182). -/
def portMark (h f tag : Nat) (s : State) : State :=
  match findRec tag s with
  | some r => markRec f r s
  | none => headFlag h F.HD_STAT_NoRecord (s.logPoint 1022 0x0B 0x00 tag)

/-- A supervision fault in every open record (R24). -/
def markAllOpen (f : Nat) (s : State) : State :=
  s.setRecs (s.ledger.recs.map (fun r => if r.closed then r else { r with flags := withFlag f r.flags }))

/-! ### Spans (R182) -/

/-- Does the Tag's interval meet the last `back` ticks up to this one? -/
def tagSince (now back : Nat) (x : HTag) : Bool :=
  decide (x.start ≤ now) && (match x.stop with
    | some e => decide (now < e + back)
    | none => true)

/-- The Tags whose interval on port `h` meets the last `back` ticks. -/
def tagsSince (h back : Nat) (s : State) : List Nat :=
  (((s.head h).tags.filter (tagSince s.tick back)).map (·.tag)).eraseDups

def markTags (h f : Nat) (tags : List Nat) (s : State) : State :=
  tags.foldl (fun s g => portMark h f g s) s

/-- A report that has ended stays known while a Tag whose interval has ended may fire again. -/
def notePast (h f : Nat) (s : State) : State :=
  let x := s.head h
  if x.tags.any (fun t => t.stop.isSome) then s.setHead h { x with past := x.past ++ [(f, s.tick)] } else s

/-- A report of one tick on port `h`; outside every interval it goes only to the fault log. -/
def pointReport (h f : Nat) (s : State) : State :=
  let g := tagsSince h 0 s
  let s := notePast h f s
  if g.isEmpty then s.logPoint (800 + h) 0x0B 0x00 h else markTags h f g s

/-- A span on port `h`, reported by source `src`: it began `back` ticks ago and ends by itself at `ends`. -/
def openSpanFor (h f src back : Nat) (ends : Option Nat) (s : State) : State :=
  let g := tagsSince h back s
  let x := s.head h
  markTags h f g (s.setHead h { x with spans := x.spans ++ [HSpan.mk f src (s.lt - back) (!g.isEmpty) ends] })

/-- A span begins on port `h` in this tick. -/
def openSpan (h f src : Nat) (s : State) : State := openSpanFor h f src 0 none s

/-- The spans of port `h` that meet `p` end. -/
def endSpans (h : Nat) (p : HSpan → Bool) (s : State) : State :=
  let x := s.head h
  let lost := x.spans.filter (fun q => p q && !q.hit)
  let s := (x.spans.filter p).foldl (fun s q => notePast h q.flag s) s
  let x := s.head h
  let s := s.setHead h { x with spans := x.spans.filter (fun q => !p q) }
  lost.foldl (fun s q => s.logFault (800 + h) 0x0B 0x00 h q.start s.lt) s

/-- The spans of source `src` on port `h` end. -/
def closeSpan (h src : Nat) (s : State) : State := endSpans h (fun q => q.src = src) s

/-- The spans of port `h` whose own end has come. -/
def tickSpans (h : Nat) (s : State) : State :=
  if (s.head h).spans.any (fun q => q.ends = some s.tick) then endSpans h (fun q => q.ends = some s.tick) s else s

/-- The interval of a Tag begins on port `h`: the spans in progress overlap it. -/
def openTag (h tag : Nat) (s : State) : State :=
  let x := s.head h
  let fs := x.spans.map (·.flag)
  let s := s.setHead h { x with
    tags := x.tags ++ [HTag.mk tag s.tick none], spans := x.spans.map (fun p => { p with hit := true }) }
  fs.foldl (fun s f => portMark h f tag s) s

/-- A Tag whose interval had ended fires again on port `h`: it is one interval up to its last cycle (R182), so what
was reported since its end counts. -/
def resumeTag (h tag e : Nat) (s : State) : State :=
  let x := s.head h
  let fs := (x.past.filter (fun p => decide (e ≤ p.2))).map (·.1) ++ x.spans.map (·.flag)
  let s := s.setHead h { x with
    tags := x.tags.map (fun t => if t.tag = tag then { t with stop := none } else t),
    spans := x.spans.map (fun p => { p with hit := true }) }
  fs.foldl (fun s f => portMark h f tag s) s

/-- A cycle of a Tag fires on port `h`: its interval begins, or goes on. -/
def fireTag (h tag : Nat) (s : State) : State :=
  match (s.head h).tags.find? (fun x => x.tag = tag) with
  | none => openTag h tag s
  | some x => match x.stop with
    | none => s
    | some e => resumeTag h tag e s

/-- Source keys of spans: generators by their number, AuxPin, the clusters' bank freezes, the tiles' takeovers,
the memory channels. -/
def srcAux : Nat := 1000

def srcFreeze (c : Nat) : Nat := 1100 + c

def srcTwin (t : Nat) : Nat := 1200 + t

def srcChannel (k : Nat) : Nat := 1400 + k

def srcSupply (i : Nat) : Nat := 1500 + i

/-! ### Nozzle map classes (R175) -/

def nmapClass (h n : Nat) (s : State) : Nat := s.fld (Reg.HD_NMAP h n) F.HD_NMAP_Class

def nmapStamp (h n : Nat) (s : State) : Nat := s.fld (Reg.HD_NMAP h n) F.HD_NMAP_Stamp

/-- BUBBLE, CLOG, DRY and RETIRED. -/
def failing (c : Nat) : Bool := decide (3 ≤ c) && decide (c ≤ 6)

/-- LINETIME[39:16]. -/
def stamp24 (t : Nat) : Nat := t / 65536 % 2 ^ 24

/-! ### Critical sets (R183 to R185) -/

/-- An accepted map write of nozzle `n` meets the active sets of its port (R184). -/
def criticalMapCheck (h n cls : Nat) (s : State) : State :=
  (s.head h).sets.foldl (fun s c =>
    if bitN c.bits n then
      if failing cls then portMark h flagAuditFail c.tag s
      else if cls = 0 then portMark h flagAuditGap c.tag s else s
    else s) s

/-- Does the set hold a nozzle whose audit is older than the horizon (R185)? -/
def setStale (h : Nat) (c : HSet) (s : State) : Bool :=
  (List.range 4096).any (fun n => bitN c.bits n &&
    decide ((c.horizon : Int) < sx 24 (stamp24 c.start + 2 ^ 24 - nmapStamp h n s)))

/-- The expiry of the set of a Tag on port `h` (R185): its check, and it is freed. -/
def expireSet (h tag : Nat) (s : State) : State :=
  match (s.head h).sets.find? (fun c => c.tag = tag) with
  | none => s
  | some c =>
    let s := if setStale h c s then portMark h flagAuditGap tag s else s
    s.setHead h { s.head h with sets := (s.head h).sets.filter (fun c => c.tag != tag) }

/-! ### Notices (R190) -/

def plRingCap (s : State) : Nat := 2 ^ s.fld Reg.PL_RINGCFG F.PL_RINGCFG_SizeLog2 / 32

/-- A notice enters the ring and raises event `e`, or is dropped with RingFull. -/
def notice (ws : List Word) (e : Nat) (s : State) : State :=
  let wr := (s.reg Reg.PL_RINGWR).toNat
  if ringHeld wr (s.reg Reg.PL_RINGRD).toNat = plRingCap s then plFlag F.PL_STATUS_RingFull s
  else
    let a := ringSlot (s.base48 Reg.PL_RINGBASE_LO) (s.fld Reg.PL_RINGCFG F.PL_RINGCFG_SizeLog2) 32 wr
    ((s.hwPut 7 0 a ws).setReg Reg.PL_RINGWR (BitVec.ofNat 32 (wr + 1))).raise e

def lowWord (x : Nat) : Word := BitVec.ofNat 32 x

def highWord (x : Nat) : Word := BitVec.ofNat 32 (x / 2 ^ 32)

/-- Words 1 to 5 of a notice: Tag, T0 in eighths of a tick, P0. -/
def noticeBody (tag t0 frac p0 : Nat) : List Word :=
  [lowWord tag, lowWord (8 * t0 + frac), highWord (8 * t0 + frac), lowWord p0, highWord p0]

def detectNotice (tag t0 frac p0 : Nat) : List Word := (1 : Word) :: noticeBody tag t0 frac p0 ++ [0, 0]

def verdictNotice (tag t0 frac p0 verdict flags closeLt : Nat) : List Word :=
  BitVec.ofNat 32 (2 + 4 * verdict + 65536 * flags) :: noticeBody tag t0 frac p0 ++ [lowWord closeLt, highWord closeLt]

/-! ### Detection (R180, R7, R12) -/

/-- A signed 40-bit offset in two registers. -/
def plOffset (a : Nat) (s : State) : Int := sx 40 (s.reg64 a)

/-- A position plus a signed offset, modulo 2^40. -/
def posPlus (p : Nat) (o : Int) : Nat := ux 40 ((p : Int) + o)

/-- A pending reject of the product at P0 (R189). -/
def addReject (tag p0 : Nat) (s : State) : State :=
  if 64 ≤ s.ledger.rejects.length then plFlag F.PL_STATUS_RejectDropped s
  else s.setRejects (s.ledger.rejects ++ [PReject.mk tag (posPlus p0 (plOffset Reg.PL_REJOFS_LO s)) none])

/-- A detection: the next Tag, a record or LedgerFull, and its notices. -/
def productDetect (r : CapRec) (s : State) : State :=
  let tag := (s.reg Reg.PL_NEXTTAG).toNat
  let s := s.setReg Reg.PL_NEXTTAG (BitVec.ofNat 32 (tag + 1))
  if 8192 ≤ s.ledger.recs.length then
    let s := notice (detectNotice tag r.stamp r.frac r.pos) 1020 s
    let s := notice (verdictNotice tag r.stamp r.frac r.pos 3 (2 ^ flagNoRecord) s.lt) 1021 s
    addReject tag r.pos (plFlag F.PL_STATUS_LedgerFull s)
  else
    let x : PRec := PRec.mk tag r.stamp r.frac r.pos (s.fld Reg.PL_HORIZON F.PL_HORIZON_Horizon) false 0 0 0 0 0 0 0 0
    notice (detectNotice tag r.stamp r.frac r.pos) 1020 (s.setRecs (s.ledger.recs ++ [x]))

/-! ### Close, verdict, free (R181, R186, R187) -/

def plEncoder (s : State) : Enc := s.encOf (s.fld Reg.PL_CTL F.PL_CTL_Encoder)

/-- Does the estimate cross P0 plus the offset in direction UP in this tick? -/
def plCrosses (r : PRec) (ofs : Nat) (s : State) : Bool :=
  crossed (plEncoder s) (posPlus r.p0 (plOffset ofs s)) 0

/-- The flags that the enabled checks count, among those that give FAILED and those that give DOUBTFUL. -/
def failMask (checks : Nat) : Nat :=
  (if bitN checks 0 then 2 ^ flagMissReject else 0) +
  (if bitN checks 1 then 2 ^ flagUnderrun + 2 ^ flagIncomplete else 0) +
  (if bitN checks 2 then 2 ^ flagTrip + 2 ^ flagSupFault else 0) +
  (if bitN checks 3 then 2 ^ flagAuditFail else 0) +
  (if bitN checks 4 then 2 ^ flagUserFail else 0)

def doubtMask (checks : Nat) : Nat :=
  (if bitN checks 3 then 2 ^ flagAuditGap else 0) + (if bitN checks 4 then 2 ^ flagUserDoubt else 0)

/-- The verdict of R187: 1 PROVEN, 2 DOUBTFUL, 3 FAILED. -/
def verdictOf (checks flags : Nat) : Nat :=
  if flags &&& failMask checks ≠ 0 then 3 else if flags &&& doubtMask checks ≠ 0 then 2 else 1

/-- The verdict is fixed: its notice and its reject (R187, R189). -/
def fixVerdict (r : PRec) (s : State) : State :=
  let v := verdictOf (s.fld Reg.PL_CHECKS F.PL_CHECKS_Enable) r.flags
  let s := updRec r.tag (fun r => { r with verdict := v }) s
  let s := if v != 1 || s.bit Reg.PL_RINGCFG F.PL_RINGCFG_VerdictAll then
      notice (verdictNotice r.tag r.t0 r.frac r.p0 v r.flags r.closeLt) 1021 s else s
  if v = 1 then s else addReject r.tag r.p0 s

/-- A port of PL_PORTS has played no cycle of the Tag (R186). -/
def portMissing (r : PRec) (s : State) : Bool :=
  (List.range 32).any (fun h => bitN (s.reg Reg.PL_PORTS).toNat h && !bitN r.played h)

/-- An OPEN record is closed: the expiry of its sets and the missing ports count as flags of the close. -/
def closeNow (r : PRec) (s : State) : State :=
  let s := updRec r.tag (fun r => { r with closed := true, closeTick := s.tick, closeLt := s.lt }) s
  let s := if portMissing r s then ledgerMark flagIncomplete r.tag s else s
  (List.range 32).foldl (fun s h => expireSet h r.tag s) s

/-- The close at its crossing; the verdict once the ENG cycle of the close is over (R10, R181, R187). -/
def recordClose (tag : Nat) (s : State) : State :=
  match findRec tag s with
  | none => s
  | some r =>
    if !r.closed then
      if plCrosses r Reg.PL_CLOSEOFS_LO s then closeNow r s else s
    else if r.verdict = 0 && decide (r.closeTick / 2 < s.tick / 2) then fixVerdict r s
    else s

/-- A record becomes FREE at the crossing of P0 + RejectOfs (R181). -/
def recordFree (tag : Nat) (s : State) : State :=
  match findRec tag s with
  | none => s
  | some r =>
    if plCrosses r Reg.PL_REJOFS_LO s then
      let s := if r.closed && r.verdict = 0 then fixVerdict r s else s
      s.setRecs (s.ledger.recs.filter (fun r => r.tag != tag))
    else s

/-! ### Rejects (R189) -/

/-- Has the estimate reached the position? -/
def plReached (pos : Nat) (s : State) : Bool := decide (0 ≤ posDiff (plEncoder s).est pos)

def rejectArmOf (x : PReject) (s : State) : Nat × Arm :=
  let t := s.reg Reg.PL_REJTGT
  let n := F.PL_REJTGT_Target.get t
  (n, Arm.mk true x.pos (s.fld Reg.PL_CTL F.PL_CTL_Encoder) 0 (s.fld Reg.PL_REJDLY F.PL_REJDLY_Delay)
    (if 640 ≤ n && n < 896 then F.PL_REJTGT_Action.get t else 0) 1)

def dropReject (tag : Nat) (s : State) : State := s.setRejects (s.ledger.rejects.filter (fun x => x.tag != tag))

/-- The next request of a pending reject comes at tick `t`. -/
def rejectAgain (tag t : Nat) (s : State) : State :=
  s.setRejects (s.ledger.rejects.map (fun y => if y.tag = tag then { y with next := some t } else y))

/-- One arming request of a pending reject; were it refused, the next comes 1 µs later. -/
def requestReject (x : PReject) (s : State) : State :=
  let (n, arm) := rejectArmOf x s
  rejectAgain x.tag (s.tick + 1600) (askArm (.reject x.tag) n arm s)

/-- The answer to the arming request of a reject: a status of R245. -/
def rejectAnswer (tag status : Nat) (s : State) : State :=
  if status = 1 then s
  else if status = 0 then dropReject tag s
  else dropReject tag (plFlag F.PL_STATUS_RejectLate s)

def findReject (tag : Nat) (s : State) : Option PReject := s.ledger.rejects.find? (fun x => x.tag = tag)

def rejectArm (tag : Nat) (s : State) : State :=
  match findReject tag s with
  | some x =>
    if x.next.isNone && plReached (posPlus x.pos (-((s.reg Reg.PL_REJLEAD).toNat : Int))) s then requestReject x s else s
  | none => s

/-- A request of the pending reject waits for its answer, which comes at the end of the tick. -/
def rejectAsked (tag : Nat) (s : State) : Bool := s.asks.arms.any (fun x => x.who == .reject tag)

/-- The repetition of a refused arm every 1 µs (1,600 ticks). -/
def rejectRetry (tag : Nat) (s : State) : State :=
  match findReject tag s with
  | some x =>
    match x.next with
    | some t =>
      if rejectAsked tag s then s
      else if plReached x.pos s then dropReject tag (plFlag F.PL_STATUS_RejectRefused s)
      else if t ≤ s.tick then requestReject x s else s
    | none => s
  | none => s

/-! ### Registers -/

/-- The conditions of R179 under which Enable 1 is refused, for the PL_CTL word `v`. -/
def plConfigBad (v : Word) (s : State) : Bool :=
  let cap := s.reg (Reg.CQ_CAPCTL (F.PL_CTL_DetectCap.get v))
  let close := plOffset Reg.PL_CLOSEOFS_LO s
  let rej := plOffset Reg.PL_REJOFS_LO s
  let sz := s.fld Reg.PL_RINGCFG F.PL_RINGCFG_SizeLog2
  F.CQ_CAPCTL_PosEnable.get cap = 0 || F.CQ_CAPCTL_Encoder.get cap != F.PL_CTL_Encoder.get v ||
    decide (close ≤ 0) || decide (rej - ((s.reg Reg.PL_REJLEAD).toNat : Int) ≤ close) ||
    !inRingMemory (ringStart (s.base48 Reg.PL_RINGBASE_LO) sz) (2 ^ sz) s

def plEnabled (s : State) : Bool := s.bit Reg.PL_CTL F.PL_CTL_Enable

/-- A write to PL_CTL (R179). -/
def writePlCtl (v : Word) (s : State) : State :=
  let on := F.PL_CTL_Enable.get v = 1
  if plEnabled s then
    let s := if F.PL_CTL_DetectCap.get v != s.fld Reg.PL_CTL F.PL_CTL_DetectCap ||
        F.PL_CTL_Encoder.get v != s.fld Reg.PL_CTL F.PL_CTL_Encoder then plFlag F.PL_STATUS_ConfigRefused s else s
    if on || !s.ledger.recs.isEmpty then s else s.clrBit Reg.PL_CTL F.PL_CTL_Enable
  else
    let s := s.plainWrite Reg.PL_CTL v
    if on && plConfigBad v s then plFlag F.PL_STATUS_ConfigRefused (s.clrBit Reg.PL_CTL F.PL_CTL_Enable) else s

/-- A write to an offset, reject, ring-placement or Tag register: ignored with ConfigRefused while Enable
is 1 (R179). -/
def writePlGuarded (a : Nat) (v : Word) (s : State) : State :=
  if plEnabled s then plFlag F.PL_STATUS_ConfigRefused s
  else
    let v := if a = Reg.PL_REJTGT && F.PL_REJTGT_Action.get v = 3 then F.PL_REJTGT_Action.put v 2
      else if a = Reg.PL_RINGCFG then clampRingSize F.PL_RINGCFG_SizeLog2 v else v
    s.plainWrite a v

/-- A write to CQ_CAPCTL(u): ignored with ConfigRefused for the detect unit of an enabled Ledger (R179). -/
def writeCapCtl (u : Nat) (v : Word) (s : State) : State :=
  if plEnabled s && s.fld Reg.PL_CTL F.PL_CTL_DetectCap = u then plFlag F.PL_STATUS_ConfigRefused s
  else s.plainWrite (Reg.CQ_CAPCTL u) v

/-- A write of RingRd (R190). -/
def writePlRd (v : Word) (s : State) : State :=
  if rdIdxOk (s.reg Reg.PL_RINGWR).toNat (plRingCap s) v.toNat then s.setReg Reg.PL_RINGRD v else s

/-- PL_STATUS as the Ledger stands. -/
def plStatus (s : State) : Word :=
  F.PL_STATUS_PendingRejects.put (F.PL_STATUS_Occupied.put (s.reg Reg.PL_STATUS) s.ledger.recs.length)
    s.ledger.rejects.length

/-- PL_RECSTAT and PL_RECCNT of a record. -/
def recStat (r : PRec) : Word := BitVec.ofNat 32 ((if r.closed then 2 else 1) + 4 * r.verdict + 65536 * r.flags)

def recCnt (r : PRec) : Word := BitVec.ofNat 32 (r.done + 65536 * r.missed + 2 ^ 24 * r.retries)

/-- PL_CMD (R191): `op` is applied to the record of the requester's PL_CMDTAG. -/
def plCommand (req : Req) (op : Nat) (s : State) : State :=
  let tag := (s.preg req Reg.PL_CMDTAG).toNat
  match findRec tag s with
  | none => if op = 4 then (s.setPreg req Reg.PL_RECSTAT 0).setPreg req Reg.PL_RECCNT 0 else s
  | some r =>
    if op = 1 then markRec flagUserFail r s
    else if op = 2 then markRec flagUserDoubt r s
    else if op = 3 then updRec tag (fun r => { r with horizon := (s.preg req Reg.PL_CMDARG).toNat % 2 ^ 24 }) s
    else if op = 4 then (s.setPreg req Reg.PL_RECSTAT (recStat r)).setPreg req Reg.PL_RECCNT (recCnt r)
    else s

/-! ### Reports of the job queues (R9, R270) -/

def satTo (m n : Nat) : Nat := if n < m then n + 1 else m

def jobDone (tag : Nat) (s : State) : State :=
  match findRec tag s with
  | some _ => updRec tag (fun r => { r with done := satTo 0xFFFF r.done }) s
  | none => s.logPoint 1022 0x0B 0x00 tag

def jobMissed (tag : Nat) (reject : Bool) (s : State) : State :=
  ledgerMark (if reject then flagMissReject else flagMissOther) tag
    (updRec tag (fun r => { r with missed := satTo 0xFF r.missed }) s)

def jobRetried (tag : Nat) (s : State) : State :=
  ledgerMark flagRetried tag (updRec tag (fun r => { r with retries := satTo 0xFF r.retries }) s)

/-! ### The commands -/

/-- LEDGER_CTL_WRITE. -/
def execLedgerCtlWrite (v : Word) (s : State) : Out := .next (writePlCtl v s)

/-- RECORD_CLOSE. -/
def execRecordClose (tag : Nat) (s : State) : Out := .next (recordClose tag s)

/-- RECORD_FREE. -/
def execRecordFree (tag : Nat) (s : State) : Out := .next (recordFree tag s)

/-- REJECT_ARM. -/
def execRejectArm (tag : Nat) (s : State) : Out := .next (rejectArm tag s)

/-- REJECT_ARM_RETRY. -/
def execRejectArmRetry (tag : Nat) (s : State) : Out := .next (rejectRetry tag s)

/-- RAISE_FAIL. -/
def execRaiseFail (req : Req) (s : State) : Out := .next (plCommand req 1 s)

/-- RAISE_DOUBT. -/
def execRaiseDoubt (req : Req) (s : State) : Out := .next (plCommand req 2 s)

/-- SET_HORIZON. -/
def execSetHorizon (req : Req) (s : State) : Out := .next (plCommand req 3 s)

/-- LEDGER_READ. -/
def execLedgerRead (req : Req) (s : State) : Out := .next (plCommand req 4 s)

/-- RINGRD_WRITE. -/
def execRingrdWrite (v : Word) (s : State) : Out := .next (writePlRd v s)

end Sys2Proof.Machine
end

