-- ==== Sys2Proof/Machine/Memory.lean ====
section
/-!
DEFINITION. On-chip memory (chapter 12, R273 to R294): errors and their flags, uncorrectable words, the
background test, repair, bank sparing and retention.
-/
namespace Sys2Proof.Machine

/-- Sets flag `i` of a memory (0 Ce, 1 Ue, 2 RowRepaired, 3 RepairExhausted), with its event (R293). -/
def memFlag (m i : Nat) (s : State) : State :=
  match memCluster m with
  | some c =>
    csFlag c (if i = 0 then F.TST_CSSTAT_Ce else if i = 1 then F.TST_CSSTAT_Ue else if i = 2 then F.TST_CSSTAT_RowRepaired
      else F.TST_CSSTAT_RepairExhausted) s
  | none =>
    if m < 0x180 then
      let h := if m < 0x140 then 0 else 1
      s.flag (Reg.TST_WFSTAT h) (Fld.mk i 1) (bitN (s.reg (Reg.TST_WFSTAT h)).toNat (8 + i)) (892 + h)
    else s.flag Reg.TST_CFGSTAT (Fld.mk i 1) (bitN (s.reg Reg.TST_CFGSTAT).toNat (8 + i)) 894

/-- TST_ERRLOG and TST_ERRADDR of an error. -/
def logError (m a : Nat) (unc : Bool) (s : State) : State :=
  let s := (s.setFld Reg.TST_ERRLOG F.TST_ERRLOG_MemId m).putBit Reg.TST_ERRLOG F.TST_ERRLOG_Uncorrectable unc
  s.setReg64 Reg.TST_ERRADDR_LO a

/-! ### The Journal's records of repairs (R287, R288, R458)

16 bytes each from offset 0x2000 on, in their order: valid [31] and kind [16] (0 a row, 1 a bank) with the MemId or
cluster, then the row or bank. The spec gives the area and no layout: the model's choice (log entry 246). -/

def repairRecord (kind m r : Nat) : List Word := [BitVec.ofNat 32 (2 ^ 31 + 2 ^ 16 * kind + m), BitVec.ofNat 32 r, 0, 0]

/-- A repair is recorded behind those that stand. -/
def noteRepair (kind m r : Nat) (s : State) : State :=
  s.putWords (0x3002000 + 16 * (s.memt.repairs.length + s.memt.banks.length - 1)) (repairRecord kind m r)

/-! ### Bank sparing (R288, R438, R439) -/

/-- The writes that waited for the frozen bank take effect, in their order. -/
def thawWrites (c : Nat) (s : State) : State :=
  let l := s.memt.held.filter (fun w => w.store = c)
  let s := s.setMemt { s.memt with held := s.memt.held.filter (fun w => w.store != c) }
  l.foldl (fun s w => storeWrite w.store w.portA w.who w.addr w.bytes s) s

/-- Does head port `h` keep its band ring or its current band's data in Cluster Store `c`? -/
def portUsesStore (h c : Nat) (s : State) : Bool :=
  let base := 0x100000000 + 0x400000 * c
  s.bit (Reg.HD_CTL h) F.HD_CTL_Enable &&
    (meets (s.base48 (Reg.HD_BANDBASE_LO h)) (64 * 2 ^ s.fld (Reg.HD_BANDCFG h) F.HD_BANDCFG_SizeLog2) base 0x200000 ||
      match (s.head h).cur with
      | some b => meets b.base 1 base 0x200000
      | none => false)

/-- The spare bank takes over: the bank freezes, and the heads that use the Store are covered. -/
def spareBank (c bank : Nat) (s : State) : State :=
  if s.bit (Reg.TST_CSSTAT c) F.TST_CSSTAT_SpareUsed || s.bit (Reg.TST_CSSTAT c) F.TST_CSSTAT_Sparing then s
  else
    let s := s.setBit (Reg.TST_CSSTAT c) F.TST_CSSTAT_Sparing
    let s := s.setMemt { s.memt with copies := s.memt.copies.set none c (some (BankCopy.mk bank s.tick s.lt)) }
    ((List.range 32).filter (fun h => portUsesStore h c s)).foldl (fun s h => openSpan h flagSupFault (srcFreeze c) s) s

/-- The copy has ended, 16,384 ENG cycles after its start at the earliest. -/
def spareDone (c : Nat) (s : State) : State :=
  match s.memt.copies.get none c with
  | none => s
  | some k =>
    if s.tick < k.start + 32768 then s
    else
      let s := s.setMemt { s.memt with
        copies := s.memt.copies.set none c none, banks := s.memt.banks ++ [(c, k.bank)] }
      let s := s.clrBit (Reg.TST_CSSTAT c) F.TST_CSSTAT_Sparing
      let s := (s.setBit (Reg.TST_CSSTAT c) F.TST_CSSTAT_SpareUsed).setFld (Reg.TST_CSSTAT c) F.TST_CSSTAT_SparedBank k.bank
      let s := csFlag c F.TST_CSSTAT_Spared s
      let s := (List.range 32).foldl (fun s h => closeSpan h (srcFreeze c) s) s
      let s := noteRepair 1 c k.bank s
      thawWrites c (s.logFault (880 + c) 0x03 0x03 k.bank k.lt s.lt)

/-! ### Uncorrectable words (R284) -/

/-- The words of one bank that proved uncorrectable within the last 10 µs (R439). -/
def bankUes (a : Nat) (s : State) : List Nat :=
  ((s.memt.ues.filter (fun u => u.1 / 0x400000 = a / 0x400000 && u.1 / 8 % 16 = a / 8 % 16 &&
    decide (s.tick ≤ u.2 + 16000))).map (·.1)).eraseDups

/-- A read finds the on-chip word at `a` uncorrectable. -/
def ueChip (m a : Nat) (s : State) : State :=
  let a := a / 8 * 8
  let s := memFlag m 1 (logError m a true (setPoison a true s))
  if 0xC0 ≤ m && m < 0xCC then
    let s := s.setMemt { s.memt with
      ues := (a, s.tick) :: (s.memt.ues.filter (fun u => decide (s.tick ≤ u.2 + 16000))) }
    if 4 ≤ (bankUes a s).length then spareBank (m - 0xC0) (a / 8 % 16) s else s
  else s

/-! ### Corrected words (R283) -/

/-- The write-back of a corrected word; `again` where the same word showed an error at its last read too. -/
def corrected (a : Nat) (again : Bool) (s : State) : State :=
  match memIdOf a s with
  | none => s
  | some m =>
    let s := memFlag m 0 (s.countUp Reg.TST_ERRLOG F.TST_ERRLOG_CeCount)
    let s := match memCluster m with
      | some c => s.countUp (Reg.TST_CSCE c) F.TST_CSCE_CeCount
      | none => s
    if again then
      let t := s.memt.testers.get Tester.init m
      let r := rowOf m a
      let t := if t.marked.contains r then t else { t with marked := t.marked ++ [r] }
      (logError m (a / 8 * 8) false s).setMemt { s.memt with testers := s.memt.testers.set Tester.init m t }
    else s

/-! ### The background test (R285 to R289) -/

def hasTester (m : Nat) : Bool := decide (m < 0xCC) || (decide (0x100 ≤ m) && decide (m ≤ 0x180))

def memRetained (m : Nat) (s : State) : Bool :=
  match memCluster m with
  | some c => retained c s || (s.memt.retain.get none c).isSome
  | none => false

/-- A window starts: on a marked row first, else on the next row. -/
def windowStart (m : Nat) (s : State) : State :=
  let t := s.tester m
  let gap := 1600 * s.fld Reg.TST_CTL F.TST_CTL_WindowGap
  if hasTester m && s.bit Reg.TST_CTL F.TST_CTL_TestEnable && t.row.isNone && !memRetained m s &&
      (t.startAt = 0 || decide (t.startAt - 1 + gap ≤ s.tick)) then
    s.setTester m { t with row := some (t.marked.head?.getD t.next), left := false, startAt := s.tick + 1 }
  else s

/-- An access meets the row under test (R286). -/
def windowAbandon (m : Nat) (s : State) : State :=
  let t := s.tester m
  if t.row.isSome then s.setTester m { t with left := true } else s

def rowRestore (m : Nat) (s : State) : State :=
  let t := s.tester m
  if t.left then s.setTester m { t with row := none, left := false } else s

def allTesters : List Nat := List.range 0xCC ++ (List.range 0x81).map (· + 0x100)

/-- A flag of TST_CTL, with event 895 where SweepEvent is 1. -/
def testFlag (f : Fld) (s : State) : State := s.flag Reg.TST_CTL f (s.bit Reg.TST_CTL F.TST_CTL_SweepEvent) 895

/-- The tester has finished a row: a sweep ends with the last. -/
def rowDone (m r : Nat) (s : State) : State :=
  let t := { s.tester m with row := none, left := false }
  if t.marked.contains r then s.setTester m { t with marked := t.marked.erase r }
  else if r + 1 < memRows m then s.setTester m { t with next := r + 1 }
  else
    let s := s.setTester m { t with next := 0, sweeps := t.sweeps + 1, swept := true }
    if allTesters.all (fun k => (s.tester k).swept) && !s.bit Reg.TST_CTL F.TST_CTL_SweepDone then
      testFlag F.TST_CTL_SweepDone s else s

/-- A row that fails its comparison (R287 to R289). -/
def rowFail (m r : Nat) (s : State) : State :=
  let bank := r / bankRows m
  let key := 32 * m + bank
  let used := s.memt.spares.get 0 key
  if used < 4 then
    let s := s.setMemt { s.memt with spares := s.memt.spares.set 0 key (used + 1), repairs := s.memt.repairs ++ [(m, r)] }
    let s := noteRepair 0 m r s
    let s := match memCluster m with
      | some c => s.countUp (Reg.TST_CSCE c) F.TST_CSCE_RowsUsed
      | none => s
    let s := memFlag m 2 (s.setFld Reg.TST_SWEEP F.TST_SWEEP_SpareRowsUsed (s.fld Reg.TST_SWEEP F.TST_SWEEP_SpareRowsUsed + 1))
    let src := match memCluster m with
      | some c => 880 + c
      | none => if m < 0x140 then 892 else if m < 0x180 then 893 else 894
    s.logFault src 0x02 0x02 bank s.lt s.lt
  else
    let s := testFlag F.TST_CTL_RepairAny (memFlag m 3 s)
    if 0xC0 ≤ m && m < 0xCC && bank < 16 then spareBank (m - 0xC0) bank s else s

/-- A window completes its comparison; `fresh` lists words of its row that its read found uncorrectable (R294). -/
def windowEnd (m : Nat) (pass : Bool) (fresh : List Nat) (s : State) : State :=
  let t := s.tester m
  match t.row with
  | some r =>
    if t.left then s
    else
      let s := (fresh.filter (fun a => memIdOf a s = some m && rowOf m a = r)).foldl (fun s a => ueChip m a s) s
      rowDone m r (if pass then s else rowFail m r s)
  | none => s

/-- TST_SWEEP: the sweeps of the slowest tester. -/
def sweepWord (s : State) : Word :=
  F.TST_SWEEP_SweepCount.put (s.reg Reg.TST_SWEEP)
    (allTesters.foldl (fun x m => Nat.min x (s.tester m).sweeps) ((s.tester 0).sweeps))

/-- A write to TST_CTL: WindowGap 0 stores 1, and clearing SweepDone starts its sweeps anew. -/
def writeTstCtl (v : Word) (s : State) : State :=
  let v' := if F.TST_CTL_WindowGap.get v = 0 then F.TST_CTL_WindowGap.put v 1 else v
  let s := s.plainWrite Reg.TST_CTL v'
  if F.TST_CTL_SweepDone.get v = 1 then
    s.setMemt { s.memt with testers := Tab.mk (s.memt.testers.cells.map (fun c => (c.1, { c.2 with swept := false }))) }
  else s

/-! ### Retention (R290, R291) -/

/-- Engines of a cluster. -/
def clusterEngines (c : Nat) : List Nat := (List.range 16).map (· + 16 * c)

/-- A write of Retain: refused unless every engine is HELD or PARKED, so also while they are RETAINED (R290). -/
def retainCluster (c : Nat) (s : State) : State :=
  if (clusterEngines c).all (fun n => (s.eng n).st = .held || (s.eng n).st = .parked) then
    let s := (clusterEngines c).foldl (fun s n => s.setEng n { s.eng n with st := .retained, kept := (s.eng n).st }) s
    s.setMemt { s.memt with
      retain := s.memt.retain.set none c (some s.tick),
      testers := Tab.mk (s.memt.testers.cells.map (fun t =>
        if memCluster t.1 = some c then (t.1, { t.2 with row := none, left := false }) else t)) }
  else csFlag c F.TST_CSSTAT_RetRefused s

/-- Retained sets, within 1 µs of the write. -/
def retainDone (c : Nat) (s : State) : State :=
  if (s.memt.retain.get none c).isSome then
    (s.setBit (Reg.TST_RETCTL c) F.TST_RETCTL_Retained).setMemt { s.memt with retain := s.memt.retain.set none c none }
  else s

/-- A write of Wake. -/
def wakeCluster (c : Nat) (s : State) : State :=
  if retained c s && !s.bit (Reg.TST_RETCTL c) F.TST_RETCTL_Waking then
    (s.setBit (Reg.TST_RETCTL c) F.TST_RETCTL_Waking).setMemt { s.memt with wake := s.memt.wake.set none c (some s.tick) }
  else s

/-- 3 µs later the memories are accessible and the engines are as they were. -/
def wakeDone (c : Nat) (s : State) : State :=
  match s.memt.wake.get none c with
  | none => s
  | some t =>
    if t + 4800 ≤ s.tick then
      let s := s.setMemt { s.memt with wake := s.memt.wake.set none c none }
      let s := (s.clrBit (Reg.TST_RETCTL c) F.TST_RETCTL_Retained).clrBit (Reg.TST_RETCTL c) F.TST_RETCTL_Waking
      (clusterEngines c).foldl (fun s n =>
        if (s.eng n).st = .retained then s.setEng n { s.eng n with st := (s.eng n).kept } else s) s
    else s

/-- A write to TST_RETCTL(c): Retain, then Wake. -/
def writeRetctl (c : Nat) (v : Word) (s : State) : State :=
  let s := if F.TST_RETCTL_Retain.get v = 1 then retainCluster c s else s
  if F.TST_RETCTL_Wake.get v = 1 then wakeCluster c s else s

/-! ### The commands -/

/-- CORRECTED_WRITEBACK. -/
def execCorrectedWriteback (a : Nat) (again : Bool) (s : State) : Out := .next (corrected a again s)

/-- TEST_WINDOW_START. -/
def execTestWindowStart (m : Nat) (s : State) : Out := .next (windowStart m s)

/-- TEST_WINDOW_ABANDON. -/
def execTestWindowAbandon (m : Nat) (s : State) : Out := .next (windowAbandon m s)

/-- ROW_RESTORE. -/
def execRowRestore (m : Nat) (s : State) : Out := .next (rowRestore m s)

/-- TEST_WINDOW_END. -/
def execTestWindowEnd (m : Sweep) (pass : Bool) (s : State) : Out := .next (windowEnd m.num pass m.fresh s)

/-- BANK_SPARE_COMPLETE. -/
def execBankSpareComplete (c : Nat) (s : State) : Out := .next (spareDone c s)

/-- RETAIN: a write to TST_RETCTL(c) with Retain 1. -/
def execRetain (c : Nat) (v : Word) (s : State) : Out := .next (writeRetctl c (F.TST_RETCTL_Retain.put v 1) s)

/-- RETAIN_COMPLETE. -/
def execRetainComplete (c : Nat) (s : State) : Out := .next (retainDone c s)

/-- WAKE: a write to TST_RETCTL(c) with Wake 1. -/
def execWake (c : Nat) (v : Word) (s : State) : Out := .next (writeRetctl c (F.TST_RETCTL_Wake.put v 1) s)

/-- WAKE_COMPLETE. -/
def execWakeComplete (c : Nat) (s : State) : Out := .next (wakeDone c s)

/-- CE_COUNT_READ: TST_CSCE(c) for a cluster, TST_ERRLOG otherwise. -/
def execCeCountRead (req : Req) (c : Nat) (s : State) : Out :=
  .next (if c < 12 then (s.setFld (Reg.TST_CSCE c) F.TST_CSCE_CeCount 0).give req [s.reg (Reg.TST_CSCE c)]
    else (s.setFld Reg.TST_ERRLOG F.TST_ERRLOG_CeCount 0).give req [s.reg Reg.TST_ERRLOG])

end Sys2Proof.Machine
end

