-- ==== Sys2Proof/Machine/Lpddr.lean ====
section
/-!
DEFINITION. LPDDR5X (chapter 13, R295 to R305): checked reads and writes, mirroring, failed channels, repair
candidates, the scrubber and MEMC_CFG.
-/
namespace Sys2Proof.Machine

def State.setLpddr (s : State) (x : Lpddr) : State := { s with lpddr := x }

/-- Sets a flag of MEMC_CHFLAGS(k), with its event (R322). -/
def memcFlag (k : Nat) (f : Fld) (s : State) : State :=
  s.flag (Reg.MEMC_CHFLAGS k) f (bitN (s.reg (Reg.MEMC_CHEVTEN k)).toNat f.lsb) (864 + 2 * k + if f.lsb < 4 then 0 else 1)

def eccOn (s : State) : Bool := s.bit Reg.MEMC_CFG F.MEMC_CFG_EccEnable

def inLpddr (a : Nat) (s : State) : Bool := decide (lpddrBase ≤ a) && decide (a < lpddrBase + lpddrSize s)

def blockOf (a : Nat) : Nat := a / 64 * 64

/-- MEMC_ERRADDR: the last logged error. -/
def logLpddr (a k cls : Nat) (unc fixed : Bool) (s : State) : State :=
  let hi := BitVec.ofNat 32 (a / 2 ^ 32 % 2 ^ 16)
  let hi := F.MEMC_ERRADDR_HI_Uncorrectable.put (F.MEMC_ERRADDR_HI_Channel.put hi k) (b2n unc)
  let hi := F.MEMC_ERRADDR_HI_Class.put (F.MEMC_ERRADDR_HI_FixedByMirror.put hi (b2n fixed)) cls
  (s.setReg Reg.MEMC_ERRADDR_LO (BitVec.ofNat 32 a)).setReg Reg.MEMC_ERRADDR_HI hi

/-! ### Failed channels (R300, R438) -/

/-- Sizes of the two regions in bytes: (plain, mirrored). -/
def regionSplit (s : State) : Nat × Nat :=
  (2 ^ 20 * s.fld Reg.MEMC_SIZES F.MEMC_SIZES_PlainMiB, 2 ^ 20 * s.fld Reg.MEMC_SIZES F.MEMC_SIZES_MirrorMiB)

/-- The other channel of the pair of `k` among the active ones. -/
def partnerOf (k : Nat) (s : State) : Option Nat :=
  let l := activeChannels s
  match l.findIdx? (· = k) with
  | some i => l[if i % 2 = 0 then i + 1 else i - 1]?
  | none => none

/-- Does any block of the `n` bytes at `a` lie in the mirrored share of channel `k`? -/
def inShare (k a n : Nat) (s : State) : Bool :=
  (List.range (n / 256 + 2)).any (fun i =>
    let x := (a / 256 + i) * 256
    decide (x < a + n) && inLpddr x s && isMirrored x s && (channelsOf x s).contains k)

/-- Head ports whose band ring or current data lies in the share of channel `k`. A port with Enable 0 uses none, its
ring and its DataBase are not read: the model's choice (log entry 240). -/
def portUsesShare (h k : Nat) (s : State) : Bool :=
  s.bit (Reg.HD_CTL h) F.HD_CTL_Enable &&
    (inShare k (s.base48 (Reg.HD_BANDBASE_LO h)) (64 * 2 ^ s.fld (Reg.HD_BANDCFG h) F.HD_BANDCFG_SizeLog2) s ||
      match (s.head h).cur with
      | some b => inShare k b.base 1 s
      | none => false)

/-- A channel is declared failed. -/
def failChannel (k : Nat) (s : State) : State :=
  if !(activeChannels s).contains k || channelFailed k s then s
  else
    let mirrored := decide (0 < (regionSplit s).2)
    let alive := match partnerOf k s with
      | some p => !channelFailed p s
      | none => false
    let heads := (List.range 32).filter (fun h => portUsesShare h k s)
    let s := s.setBit (Reg.MEMC_CHSTAT k) F.MEMC_CHSTAT_Failed
    let s := memcFlag k F.MEMC_CHFLAGS_ChannelFailed s
    let s := if mirrored && alive then s.setBit Reg.MEMC_STAT F.MEMC_STAT_Degraded else s
    let s := heads.foldl (fun s h => openSpanFor h flagSupFault (srcChannel k) 16000 (some (s.tick + 3200)) s) s
    if mirrored && alive then s.logFault (865 + 2 * k) 0x09 0x05 k s.lt (s.lt + 3200)
    else s.logPoint (865 + 2 * k) 0x09 0x00 k

/-- One uncorrectable block more on a channel: 16 within 1 ms fail it. -/
def channelUe (k : Nat) (s : State) : State :=
  let l := s.tick :: ((s.lpddr.ues.get [] k).filter (fun t => decide (s.tick < t + 1600000)))
  let s := s.setLpddr { s.lpddr with ues := s.lpddr.ues.set [] k l }
  if 16 ≤ l.length then failChannel k s else s

/-! ### Errors of a read (R298, R299, R302, R303) -/

/-- A block handled as uncorrectable: it is poisoned. -/
def lpddrBad (a cls : Nat) (s : State) : State :=
  let a := blockOf a
  let ks := (channelsOf a s).filter (fun k => !channelFailed k s)
  let s := setPoison a true s
  ks.foldl (fun s k => channelUe k (memcFlag k F.MEMC_CHFLAGS_Ue (logLpddr a k cls true false s))) s

/-- The code finds a block uncorrectable: only with EccEnable 1 (R298). -/
def lpddrUe (a cls : Nat) (s : State) : State := if eccOn s then lpddrBad a cls s else s

/-- A repair candidate in the Journal, 16 bytes from offset 0x6000 on (R458): valid [31] with the channel, then the row.
The spec gives no layout: the model's choice (log entry 246). -/
def candRecord (r : Nat × Nat) : List Word :=
  [BitVec.ofNat 32 (2 ^ 31 + r.1), BitVec.ofNat 32 r.2, BitVec.ofNat 32 (r.2 / 2 ^ 32), 0]

/-- A row is recorded once; a 65th candidate sets PprFull. -/
def repairCandidate (k a : Nat) (s : State) : State :=
  let r := (k, Config.lpddrRow (blockOf a))
  if s.lpddr.cands.contains r then s
  else if 64 ≤ s.lpddr.cands.length then memcFlag k F.MEMC_CHFLAGS_PprFull s
  else
    let s := s.putWords (0x3006000 + 16 * s.lpddr.cands.length) (candRecord r)
    let s := s.setLpddr { s.lpddr with cands := s.lpddr.cands ++ [r] }
    memcFlag k F.MEMC_CHFLAGS_RowRecorded
      (s.setFld (Reg.MEMC_CHSTAT k) F.MEMC_CHSTAT_RowsRecorded ((s.lpddr.cands.filter (fun c => c.1 = k)).length))

/-- A correctable error of channel `k`; `again` where it recurs at the next read. -/
def lpddrCe (a k cls : Nat) (again : Bool) (s : State) : State :=
  if !eccOn s then s
  else
    let s := memcFlag k F.MEMC_CHFLAGS_Ce (logLpddr (blockOf a) k cls false false s)
    let s := s.countUp (Reg.MEMC_CHCNT k) F.MEMC_CHCNT_CeCount
    if again then repairCandidate k a s else s

/-- One copy of a mirrored block, that of channel `k`, is uncorrectable and the other is good: it is rewritten. -/
def mirrorFix (a k cls : Nat) (s : State) : State :=
  channelUe k (memcFlag k F.MEMC_CHFLAGS_MirrorFix (logLpddr (blockOf a) k cls false true s))

/-- What the controller finds in a read of the block at `a`, on channel `k`: 1 a correctable error, 2 an uncorrectable
one in every copy, 3 one that the other copy makes good, 4 a corrected link error, 5 a link error gone at the repeat, 6
one that the repeat shows again, where the other copy is good. Without a living other copy 3 is as 2, and 6 is handled
as uncorrectable whatever EccEnable is (R298, R299, R303). -/
def copyError (a k cls err : Nat) (again : Bool) (s : State) : State :=
  let other := isMirrored a s && decide (2 ≤ ((channelsOf a s).filter (fun k => !channelFailed k s)).length)
  let s := if err = 4 then memcFlag k F.MEMC_CHFLAGS_LinkEcc (s.countUp (Reg.MEMC_CHCNT k) F.MEMC_CHCNT_LinkEccCount) else s
  if s.poison.get false (poisonKey a) then lpddrUe a cls s
  else if err = 1 then lpddrCe a k cls again s
  else if err = 2 then lpddrUe a cls s
  else if err = 3 then (if !other then lpddrUe a cls s else if eccOn s then mirrorFix a k cls s else s)
  else if err = 6 then (if other then mirrorFix a k cls s else lpddrBad a cls s)
  else s

/-- A read of the block at `a`: the even channel of its pair, or the one that is left (R299, R300). -/
def readError (a cls err : Nat) (again : Bool) (s : State) : State :=
  match (channelsOf a s).filter (fun k => !channelFailed k s) with
  | [] => s
  | k :: _ => copyError a k cls err again s

/-- The requestor of a class of R278: `who` and `super` name an engine or its DMA. -/
def classAccessor (cls who : Nat) (super : Bool) : Accessor :=
  if cls = 0 then .dataPort else if cls = 4 || cls = 5 then .engine who super else .other

/-- A read request at the controller. -/
def lpddrReadReq (a cls who : Nat) (super : Bool) (err : Nat) (again : Bool) (s : State) : State :=
  if !inLpddr a s then s
  else if fenceOk (classAccessor cls who super) false a 1 s then readError a cls err again s
  else noteFence (classAccessor cls who super) false a 1 s

/-- A write request of at most 64 bytes within one block: a narrow one reads the block first. -/
def lpddrWriteReq (a cls who : Nat) (super : Bool) (bs : List Byte) (err : Nat) (s : State) : State :=
  if !inLpddr a s || bs.length = 0 || decide (64 < a % 64 + bs.length) then s
  else if fenceOk (classAccessor cls who super) true a bs.length s then
    if channelDead a s then s
    else (if bs.length < 64 then readError a cls err false s else s).put a bs
  else noteFence (classAccessor cls who super) true a bs.length s

/-- The uncorrectable words that a read of `n` bytes at `a` meets are noted in their memories (R284, R298). -/
def noteUes (a n cls : Nat) (s : State) : State :=
  if a < lpddrBase then (wordsIn a n).foldl (fun s w =>
    match memIdOf w s with
    | some m => if s.poison.get false (w / 8) then ueChip m w s else s
    | none => s) s
  else if inLpddr a s then (List.range (n / 64 + 2)).foldl (fun s i =>
    let w := (a / 64 + i) * 64
    if w < a + n && s.poison.get false (w / 8) then lpddrUe w cls s else s) s
  else s

/-- The words at the addresses `l` turn out uncorrectable at this read, one of a word never written among them (R284,
R294, R298, R305): they are poisoned, and the read finds them so. -/
def foundBad (l : List Nat) (s : State) : State :=
  l.foldl (fun s a => if (memIdOf a s).isSome || (inLpddr a s && eccOn s) then setPoison a true s else s) s

/-- The same for the addresses of `l` among the `n` bytes at `a`. -/
def foundIn (a n : Nat) (l : List Nat) (s : State) : State :=
  foundBad (l.filter (fun x => decide (a ≤ x) && decide (x < a + n))) s

/-- Poisoned words that merges have met are noted as at any read (R275). -/
def dueMerges (s : State) : State :=
  let l := s.memt.merges
  l.foldl (fun s x => noteUes x.1 1 x.2 s) (s.setMemt { s.memt with merges := [] })

/-! ### The scrubber (R301) -/

/-- Reads of one sweep: each plain block once, each mirrored block on both channels of its pair. -/
def sweepReads (s : State) : Nat := ((regionSplit s).1 + 2 * (regionSplit s).2) / 64

/-- Address and channel of read `i` of the sweep, in ascending address order. -/
def sweepPlace (i : Nat) (s : State) : Nat × Option Nat :=
  let p := (regionSplit s).1 / 64
  if i < p then (lpddrBase + 64 * i, (channelsOf (lpddrBase + 64 * i) s).head?)
  else
    let a := lpddrBase + 64 * (p + (i - p) / 2)
    (a, (channelsOf a s)[(i - p) % 2]?)

/-- The next read of the sweep; the last one ends it. -/
def scrubNext (err : Nat) (again : Bool) (s : State) : State :=
  let n := sweepReads s
  if !s.bit Reg.MEMC_SCRUB F.MEMC_SCRUB_ScrubEnable || n = 0 then s
  else
    let i := s.lpddr.scrub
    let (a, k) := sweepPlace i s
    let s := match k with
      | some k => if channelFailed k s then s else copyError a k 7 err again s
      | none => s
    if i + 1 < n then s.setLpddr { s.lpddr with scrub := i + 1 }
    else
      let s := s.setLpddr { s.lpddr with scrub := 0 }
      let s := s.setFld Reg.MEMC_SCRUB F.MEMC_SCRUB_SweepCount (s.fld Reg.MEMC_SCRUB F.MEMC_SCRUB_SweepCount + 1)
      (activeChannels s).foldl (fun s k => memcFlag k F.MEMC_CHFLAGS_SweepDone s) s

/-- Ticks from one read of the sweep to the next, evenly over ScrubHours hours. -/
def scrubGap (s : State) : Nat :=
  3600 * 1600000000 * s.fld Reg.MEMC_SCRUB F.MEMC_SCRUB_ScrubHours / Nat.max 1 (sweepReads s)

/-- A read of the sweep comes once in that time. -/
def dueScrub (s : State) : State := if s.tick % Nat.max 1 (scrubGap s) = 0 then scrubNext 0 false s else s

/-! ### Layout (R297, R305) -/

/-- Usable MiB of one channel: C × 31/32 with EccEnable 1. -/
def usableMiB (ecc : Bool) (s : State) : Nat :=
  match activeChannels s with
  | k :: _ =>
    let c := s.fld (Reg.MEMC_CHSTAT k) F.MEMC_CHSTAT_CapGiB * 1024
    if ecc then c * 31 / 32 else c
  | [] => 0

/-- MEMC_SIZES from the active channels and MEMC_CFG. -/
def setSizes (s : State) : State :=
  let n := (activeChannels s).length
  let u := usableMiB (eccOn s) s
  let m := 256 * s.fld Reg.MEMC_CFG F.MEMC_CFG_MirrorUnits
  (s.setFld Reg.MEMC_SIZES F.MEMC_SIZES_PlainMiB (n * (u - m))).setFld Reg.MEMC_SIZES F.MEMC_SIZES_MirrorMiB (n / 2 * m)

/-- The whole region becomes undefined. -/
def forgetLpddr (s : State) : State :=
  { s with
    mem := s.mem.filter (fun c => decide (c.1 < lpddrBase) || decide (0x400000000000 ≤ c.1)),
    poison := ⟨s.poison.cells.filter (fun c => decide (c.1 < lpddrBase / 8))⟩ }

/-- A write to MEMC_CFG. -/
def writeMemcCfg (v : Word) (s : State) : State :=
  if s.bit Reg.MEMC_CFG F.MEMC_CFG_Lock then s
  else
    let m := F.MEMC_CFG_MirrorUnits.get v
    let ecc := F.MEMC_CFG_EccEnable.get v
    if 0 < m && ((activeChannels s).length = 1 || decide (usableMiB (ecc = 1) s < 256 * m)) then
      s.setBit Reg.MEMC_STAT F.MEMC_STAT_MapRefused
    else
      let same := ecc = s.fld Reg.MEMC_CFG F.MEMC_CFG_EccEnable && m = s.fld Reg.MEMC_CFG F.MEMC_CFG_MirrorUnits
      let s := s.plainWrite Reg.MEMC_CFG v
      let s := if F.MEMC_CFG_Lock.get v = 1 then s.setBit Reg.MEMC_CFG F.MEMC_CFG_Lock else s
      if same then s else setSizes (forgetLpddr s)

/-- MEMC_SCRUB: a period of 0 stores 1. -/
def writeScrub (v : Word) (s : State) : State :=
  s.plainWrite Reg.MEMC_SCRUB (if F.MEMC_SCRUB_ScrubHours.get v = 0 then F.MEMC_SCRUB_ScrubHours.put v 1 else v)

/-! ### The commands -/

/-- LPDDR_READ. -/
def execLpddrRead (a cls who : Nat) (super : Bool) (err : Nat) (again : Bool) (s : State) : Out :=
  .next (lpddrReadReq a cls who super err again s)

/-- LPDDR_WRITE. -/
def execLpddrWrite (a cls who : Nat) (super : Bool) (data : List Byte) (err : Nat) (s : State) : Out :=
  .next (lpddrWriteReq a cls who super data err s)

/-- CHANNEL_FAILED: a silent read or a failed retraining. -/
def execChannelFailed (k : Nat) (s : State) : Out := .next (failChannel k s)

/-- SCRUB_READ. -/
def execScrubRead (err : Nat) (again : Bool) (s : State) : Out := .next (scrubNext err again s)

/-- MEMC_CFG_WRITE. -/
def execMemcCfgWrite (v : Word) (s : State) : Out := .next (writeMemcCfg v s)

/-- MEMC_COUNT_READ. -/
def execMemcCountRead (req : Req) (k : Nat) (s : State) : Out :=
  .next ((s.setReg (Reg.MEMC_CHCNT k) 0).give req [s.reg (Reg.MEMC_CHCNT k)])

end Sys2Proof.Machine
end

