-- ==== Sys2Proof/Machine/OpMap.lean ====
section
/-!
DEFINITION. The opcode map of Hennath (R226) and the reserved fields of each format (R199): which 32-bit words are
an assigned encoding. The word that a Mark Engine fetches is judged here before its instruction issues.
-/
namespace Sys2Proof.Machine

/-- Format A, op 0x00 to 0x06 and 0x31 (R227 to R232, R239). -/
def legalA (op rd rs rt fn : Nat) : Bool :=
  match op with
  | 0x00 => decide (fn < 0x0F)
  | 0x01 => decide (fn < 5)
  | 0x02 => decide (fn < 5) && decide (rt = 0)
  | 0x03 => decide (rd < 8) && (decide (fn < 6) || (decide (0x10 ≤ fn) && decide (fn < 0x14) && decide (rs < 8) && decide (rt < 8)))
  | 0x04 => decide (fn % 64 < 2)
  | 0x05 =>
    match fn with
    | 0 => decide (rd < 16) && decide (rs < 16)
    | 1 => decide (rd < 16) && decide (rt = 0)
    | 2 => decide (rd < 16) && decide (rt = 0)
    | 3 => decide (rs < 16) && decide (rt = 0)
    | 4 => decide (rs < 16) && decide (rt = 0)
    | _ => false
  | 0x06 => decide (fn < 8)
  | 0x31 => decide (rs < 16) && decide (rt = 0) && (decide (fn = 0 ∧ rd = 0) || decide (fn = 1 ∧ rd < 16))
  | _ => false

/-- Format I, op 0x08 to 0x16 (R227, R228, R231, R232). -/
def legalI (op rd rs imm : Nat) : Bool :=
  if op < 0x0E then true
  else if op < 0x11 then decide (imm < 32)
  else match op with
    | 0x11 => decide (rd < 16) && decide (rs < 16)
    | 0x12 => decide (rd < 48)
    | _ => op != 0x13 && decide (imm < 1024) && decide (imm % 32 + (imm / 32 + 1) ≤ 32)

/-- Format M, op 0x18 to 0x1B (R233, R234). -/
def legalM (op rd sz : Nat) : Bool :=
  match op with
  | 0x19 => decide (sz < 2)
  | 0x1B => decide (sz = 0)
  | _ => sz != 3 || decide (rd < 32)

/-- Format B, op 0x30 (R239). -/
def legalB (pr cnd : Nat) : Bool := decide (cnd < 2) || (decide (cnd < 4) && decide (pr = 0))

/-- Op 0x28 by function (R235): the es values that it accepts. -/
def legalV28 (f es : Nat) : Bool :=
  if f = 6 then es = 1 || es = 2
  else if f = 7 then es = 1
  else if f = 0x0C then decide (es < 2)
  else if 0x10 ≤ f ∧ f < 0x14 then es = 3
  else decide (es < 3) && (decide (f < 0x0C) || decide (0x18 ≤ f ∧ f < 0x1B) || decide (0x20 ≤ f ∧ f < 0x23))

/-- Op 0x29 by function (R236): es and what the vt field may hold. -/
def legalV29 (f es vt : Nat) : Bool :=
  match f with
  | 0 => es = 3
  | 1 => es = 3 && vt = 0
  | 2 => decide (es < 3) && decide (vt < 16 / 2 ^ es)
  | 3 => decide (es < 3) && decide (vt < 16 / 2 ^ es)
  | 4 => decide (es < 3) && vt = 0
  | 5 => es = 3 && decide (vt < 16)
  | 6 => es = 3 && decide (vt < 16)
  | 7 => es = 3
  | 8 => decide (es < 2) && vt = 0
  | _ => false

/-- Format V, op 0x28 to 0x2B (R235 to R238). -/
def legalV (op vt fn : Nat) : Bool :=
  match op with
  | 0x28 => legalV28 (fn % 512) (fn / 512)
  | 0x29 => legalV29 (fn % 512) (fn / 512) vt
  | 0x2A => decide (fn < 2)
  | _ => decide (fn < 512) && decide (fn % 128 < 3)

/-- Format S, op 0x38 to 0x3B: the fields that an instruction does not name are 0, and a pair field is even (R225). -/
def legalS (op rd rs sub imm : Nat) : Bool :=
  match op, sub with
  | 0x38, 0 => rs % 2 = 0 && decide (imm < 2)
  | 0x38, 1 => decide (rs < 16) && imm = 0
  | 0x38, 2 => rd = 0 && imm = 0
  | 0x38, 3 => rs = 0 && imm = 0
  | 0x38, 4 => imm = 0
  | 0x39, 0 => decide (rs < 32) && imm = 0
  | 0x39, 1 => decide (rs < 32) && imm = 0
  | 0x39, 2 => imm = 0
  | 0x3A, 0 => rd = 0 && rs % 2 = 0 && imm = 0
  | 0x3A, 1 => rd = 0 && rs % 2 = 0 && imm = 0
  | 0x3A, 2 => rs % 2 = 0 && imm = 0
  | 0x3A, 3 => rd = 0 && imm = 0
  | 0x3B, 0 => rs = 0 && decide (imm < 64)
  | 0x3B, 1 => rd = 0 && decide (imm < 64)
  | 0x3B, 8 => rd = 0 && rs = 0
  | 0x3B, 0x0A => imm = 0
  | 0x3B, _ => decide (2 ≤ sub) && decide (sub < 10) && rd = 0 && rs = 0 && imm = 0
  | _, _ => false

/-- Is the instruction word `w` an assigned encoding whose reserved fields are 0 (R199, R226)? -/
def wordLegal (w : Word) : Bool :=
  let x := w.toNat
  let op := slice x 26 6
  let rd := slice x 20 6
  let rs := slice x 14 6
  if op < 0x07 ∨ op = 0x31 then legalA op rd rs (slice x 8 6) (slice x 0 8)
  else if 0x08 ≤ op ∧ op < 0x17 then legalI op rd rs (slice x 0 14)
  else if 0x18 ≤ op ∧ op < 0x1C then legalM op rd (slice x 14 2)
  else if 0x28 ≤ op ∧ op < 0x2C then legalV op (slice x 11 5) (slice x 0 11)
  else if op = 0x30 then legalB (slice x 23 3) (slice x 20 3)
  else if 0x38 ≤ op ∧ op < 0x3C then legalS op rd rs (slice x 8 6) (slice x 0 8)
  else false

end Sys2Proof.Machine
end

