-- ==== Sys2Proof/Machine/Queue.lean ====
section
/-!
DEFINITION. Job queues (chapter 11, R250 to R258 and R263 to R272): posts, retirement, misses and their
actions, returns, aging and urgency. Delivery stands in Broker.lean.
-/
namespace Sys2Proof.Machine

def State.setJobs (s : State) (x : Queues) : State := { s with jobs := x }

def State.jq (s : State) (q : Nat) : JobQ := s.jobs.qs.get JobQ.init q

def State.setJq (s : State) (q : Nat) (x : JobQ) : State :=
  s.setJobs { s.jobs with qs := s.jobs.qs.set JobQ.init q x }

/-- Sets a flag of JQ_FLAGS(q) (R272). -/
def jqFlag (q : Nat) (f : Fld) (s : State) : State :=
  s.flag (Reg.JQ_FLAGS q) f (bitN (s.reg (Reg.JQ_EVTEN q)).toNat f.lsb) (192 + q / 32)

/-! ### Times of R29 -/

/-- Has the ENG cycle of a LINETIME value passed? -/
def cyclePassed (t : Nat) (s : State) : Bool := decide (t ≤ s.clock.ltEnd)

/-- The deadline that means none. -/
def noDeadline : Nat := 2 ^ 64 - 1

/-! ### Entries (R254) -/

def wordAt (l : List Word) (i : Nat) : Word := (l[i]?).getD 0

def descDeadline (l : List Word) : Nat := (wordAt l 2).toNat + 2 ^ 32 * (wordAt l 3).toNat

def descTag (l : List Word) : Nat := (wordAt l 1).toNat

def descNoTag (l : List Word) : Bool := (wordAt l 5).getLsbD 28

def descRetries (l : List Word) : Nat := slice (wordAt l 0).toNat 19 3

def descMiss (l : List Word) : Nat := slice (wordAt l 0).toNat 16 3

def descFallback (l : List Word) : Nat := slice (wordAt l 5).toNat 16 12

def descReturns (l : List Word) : Nat := slice (wordAt l 7).toNat 16 8

def missAbandon : Nat := 1
def missFinish : Nat := 2
def missFallback : Nat := 3
def missReject : Nat := 4

/-- Has the deadline's ENG cycle passed? A deadline none never does. -/
def entLate (e : JqEnt) (s : State) : Bool :=
  descDeadline e.words != noDeadline && cyclePassed (descDeadline e.words) s

/-- A deliverable entry (R260). -/
def deliverable (s : State) (e : JqEnt) : Bool := e.st = .posted && (!entLate e s || e.action = missFinish)

def oldestDeliverable (q : Nat) (s : State) : Option JqEnt := (s.jq q).ents.find? (deliverable s)

def findEnt (q idx : Nat) (s : State) : Option JqEnt := (s.jq q).ents.find? (fun e => e.idx = idx)

def jqSize (q : Nat) (s : State) : Nat := s.fld (Reg.JQ_RINGCFG q) F.JQ_RINGCFG_SizeLog2

def jqBase (q : Nat) (s : State) : Nat := ringStart (s.base48 (Reg.JQ_RINGBASE_LO q)) (jqSize q s + 6)

/-- The ring slot of an entry (R250). -/
def entSlot (q idx : Nat) (s : State) : Nat := jqBase q s + 64 * (idx % 2 ^ jqSize q s)

def jqHome (q : Nat) (s : State) : Nat := s.fld (Reg.JQ_CTL q) F.JQ_CTL_Home

def stCode : JqSt → Nat
  | .posted => 0
  | .claimed => 1
  | .retired => 2

/-- Word 7 as the part keeps it (R251, R254). -/
def stateWord (e : JqEnt) (returns : Nat) : Word :=
  BitVec.ofNat 32 (stCode e.st + 2 ^ 8 * (if e.st = .claimed then e.claim else 0) + 2 ^ 16 * returns)

def setWord (l : List Word) (i : Nat) (w : Word) : List Word := l.set i w

/-- An entry changes: in the queue and in words 0 and 7 of its ring slot. -/
def putEnt (q : Nat) (e : JqEnt) (s : State) : State :=
  let e := { e with words := setWord e.words 7 (stateWord e (descReturns e.words)) }
  let x := s.jq q
  let s := s.setJq q { x with ents := x.ents.map (fun y => if y.idx = e.idx then e else y) }
  let a := entSlot q e.idx s
  (s.hwPut 3 (jqHome q s) a [wordAt e.words 0]).hwPut 3 (jqHome q s) (a + 28) [wordAt e.words 7]

/-! ### Class, aging, urgency (R263) -/

/-- HeadDl: the deadline of the oldest deliverable entry. -/
def headDl (q : Nat) (s : State) : Nat :=
  match oldestDeliverable q s with
  | some e => descDeadline e.words
  | none => noDeadline

def ageStep (q : Nat) (s : State) : Nat := 1600 * s.fld (Reg.JQ_AGE q) F.JQ_AGE_AgeStep

/-- The condition of urgency. -/
def urgentNow (q : Nat) (s : State) : Bool :=
  let m := s.fld (Reg.JQ_AGE q) F.JQ_AGE_UrgentMargin
  let d := headDl q s
  m != 0 && d != noDeadline && decide (d ≤ s.lt + 1600 * m)

/-- The queue as it stands: its waiting clock starts with its first deliverable entry. -/
def jqRefresh (q : Nat) (s : State) : State :=
  let x := s.jq q
  let live := (oldestDeliverable q s).isSome
  s.setJq q { x with live := live, urgent := urgentNow q s, since := if live && !x.live then s.tick else x.since }

/-- A change of a queue, seen from the queue as it stood and as it stands. -/
def onQueue (q : Nat) (f : State → State) (s : State) : State := jqRefresh q (f (jqRefresh q s))

/-- The current Class. -/
def jqClass (q : Nat) (s : State) : Nat := if urgentNow q s then 0 else (s.jq q).cls

/-- One age step passes (R263). -/
def ageQueue (q : Nat) (s : State) : State :=
  let s := jqRefresh q s
  let x := s.jq q
  if x.live && decide (x.since + ageStep q s ≤ s.tick) then
    s.setJq q { x with cls := if x.cls ≤ 1 then 1 else x.cls - 1, since := x.since + ageStep q s }
  else s

/-! ### Misses (R264 to R266) -/

/-- The fallback job of a missed descriptor (R266). -/
def fallbackJob (l : List Word) : List Word :=
  let w0 := wordAt l 0
  let act := if descNoTag l then missAbandon else missReject
  let d := descDeadline l + (wordAt l 6).toNat
  let w0' := (w0 &&& BitVec.ofNat 32 0x00F8FF00) ||| BitVec.ofNat 32 (slice w0.toNat 24 8 + 2 ^ 16 * act)
  setWord (setWord (setWord (setWord (setWord l 0 w0') 2 (lowWord d)) 3 (highWord d)) 5
    (wordAt l 5 &&& BitVec.ofNat 32 0xF000FFFF)) 6 0

def addFallback (q : Nat) (l : List Word) (s : State) : State :=
  s.setJobs { s.jobs with falls := s.jobs.falls ++ [JqFall.mk q (descFallback l) (fallbackJob l)] }

def retireEnt (q : Nat) (e : JqEnt) (s : State) : State := putEnt q { e with st := .retired, done := s.tick } s

/-- The miss of an entry: its flag, count and report (R265, R270). -/
def recordMiss (q : Nat) (e : JqEnt) (s : State) : State :=
  let s := (jqFlag q F.JQ_FLAGS_Miss s).countUp (Reg.JQ_CNT_MISS q) F.JQ_CNT_MISS_Count
  if descNoTag e.words then s else jobMissed (descTag e.words) (e.action = missReject) s

/-- The effective action on a missed entry (R265). -/
def applyMiss (q : Nat) (e : JqEnt) (s : State) : State :=
  let s := if e.action = missFallback then addFallback q e.words s else s
  if e.st = .posted && e.action != missFinish then retireEnt q { e with missed := true } s
  else putEnt q { e with missed := true } s

def missEnt (q : Nat) (e : JqEnt) (s : State) : State := applyMiss q e (recordMiss q e s)

/-! ### Posting (R255) -/

/-- Does the part refuse the descriptor? -/
def postRefused (q : Nat) (l : List Word) (s : State) : Bool :=
  let w0 := (wordAt l 0).toNat
  let own := descMiss l
  let act := if own = 0 then s.fld (Reg.JQ_CTL q) F.JQ_CTL_MissAction else own
  !s.bit (Reg.JQ_CTL q) F.JQ_CTL_Enable || decide (4 < own) || slice w0 22 2 != 0 ||
    slice (wordAt l 5).toNat 29 3 != 0 || (act = missReject && descNoTag l) ||
    (act = missFallback && !s.bit (Reg.JQ_CTL (descFallback l)) F.JQ_CTL_Enable)

def jqTail (q : Nat) (s : State) : Nat := (s.reg (Reg.JQ_TAIL q)).toNat

def jqHead (q : Nat) (s : State) : Nat := (s.reg (Reg.JQ_HEAD q)).toNat

/-- A post: its result (0 POSTED, 1 FULL, 2 REFUSED) and the state after it. An entry whose deadline has passed is
missed at once (R258). -/
def postJob (q : Nat) (l : List Word) (s : State) : Nat × State :=
  if postRefused q l s then (2, jqFlag q F.JQ_FLAGS_Refused s)
  else if ringHeld (jqTail q s) (jqHead q s) = 2 ^ jqSize q s then (1, jqFlag q F.JQ_FLAGS_Full s)
  else
    let t := jqTail q s
    let act := if descMiss l = 0 then s.fld (Reg.JQ_CTL q) F.JQ_CTL_MissAction else descMiss l
    let ws := setWord (setWord (setWord ((l ++ List.replicate 16 0).take 16) 7 0) 14 (lowWord s.lt)) 15 (highWord s.lt)
    let add := fun (s : State) =>
      let x := s.jq q
      let e := JqEnt.mk t .posted 0 act false 0 ws
      let s := s.setJq q { x with ents := x.ents ++ [e] }
      let s := (s.hwPut 3 (jqHome q s) (entSlot q t s) ws).setReg (Reg.JQ_TAIL q) (BitVec.ofNat 32 (t + 1))
      if entLate e s then missEnt q e s else s
    (0, onQueue q add s)

/-! ### Detection (R264, R266) -/

/-- The oldest POSTED entry that a miss may still meet (R264). -/
def oldestPosted (q : Nat) (s : State) : Option JqEnt :=
  (s.jq q).ents.find? (fun e => e.st = .posted && !(e.missed && e.action = missFinish))

/-- Is the miss of this entry due? -/
def missDue (q : Nat) (e : JqEnt) (s : State) : Bool :=
  entLate e s && match e.st with
    | .claimed => !e.missed
    | .posted => decide (oldestPosted q s = some e)
    | .retired => false

/-- The miss of entry `idx`. A returned entry whose miss is recorded already only retires. -/
def missDetect (q idx : Nat) (s : State) : State :=
  match findEnt q idx s with
  | some e => if missDue q e s then
      onQueue q (fun s => if e.missed then retireEnt q e s else missEnt q e s) s else s
  | none => s

/-- The fallback job comes to its queue, ranked with the host (R256, R266). -/
def fallbackPost (q : Nat) (s : State) : State :=
  match s.jobs.falls.find? (fun f => f.origin = q) with
  | none => s
  | some f => askPost (.fallback q) f.target f.words (s.setJobs { s.jobs with falls := s.jobs.falls.erase f })

/-- A fallback job that was not POSTED (R266). -/
def fallbackLost (q : Nat) (l : List Word) (s : State) : State :=
  let s := jqFlag q F.JQ_FLAGS_FallbackLost s
  if descNoTag l then s else jobMissed (descTag l) true s

/-! ### Retirement and returns (R243, R264, R267, R268) -/

/-- A claimed entry's miss is recorded before it retires in a later ENG cycle (R264). -/
def lateFirst (q idx : Nat) (s : State) : State :=
  match findEnt q idx s with
  | some e => if e.st = .claimed && entLate e s && !e.missed then missEnt q e s else s
  | none => s

/-- QDONE of entry `idx`: its result (0 MET, 1 MISSED) and the state after it. -/
def doneEnt (q idx : Nat) (s : State) : Nat × State :=
  let s := lateFirst q idx (jqRefresh q s)
  match findEnt q idx s with
  | none => (0, s)
  | some e =>
    let silent := e.missed && (e.action = missAbandon || e.action = missReject)
    let s := retireEnt q e s
    let s := if silent then s else
      let s := s.countUp (Reg.JQ_CNT_DONE q) F.JQ_CNT_DONE_Count
      if descNoTag e.words then s else jobDone (descTag e.words) s
    (b2n e.missed, jqRefresh q s)

/-- Retries left, and Returns counted, in words 0 and 7. -/
def returnWords (l : List Word) : List Word :=
  setWord (setWord l 0 (wordAt l 0 - BitVec.ofNat 32 (2 ^ 19))) 7
    (BitVec.ofNat 32 (2 ^ 16 * satInc 8 (descReturns l)))

/-- A failure of entry `e` (R267). -/
def failEnt (q : Nat) (e : JqEnt) (reason eng : Nat) (s : State) : State :=
  let s := s.setReg (Reg.JQ_LASTFAIL q) (BitVec.ofNat 32 (reason % 256 + 256 * (eng % 256)))
  if e.missed && e.action != missFinish then retireEnt q e s
  else if descRetries e.words = 0 then
    let s := jqFlag q F.JQ_FLAGS_RetryOut s
    if e.missed then retireEnt q e s
    else
      let s := recordMiss q e s
      let s := if e.action = missFallback then addFallback q e.words s else s
      retireEnt q { e with missed := true } s
  else
    let s := putEnt q { e with st := .posted, claim := 0, words := returnWords e.words } s
    let s := (jqFlag q F.JQ_FLAGS_RetryUsed s).countUp (Reg.JQ_CNT_RETRY q) F.JQ_CNT_RETRY_Count
    if descNoTag e.words then s else jobRetried (descTag e.words) s

/-- QFAIL of entry `idx`, which engine `eng` held. -/
def failJob (q idx reason eng : Nat) (s : State) : State :=
  let s := lateFirst q idx (jqRefresh q s)
  match findEnt q idx s with
  | none => s
  | some e => jqRefresh q (failEnt q e reason eng s)

/-- The return of a PARK (R268): Retries and Returns stay. -/
def unclaim (q idx : Nat) (s : State) : State :=
  let s := lateFirst q idx (jqRefresh q s)
  match findEnt q idx s with
  | none => s
  | some e => jqRefresh q (putEnt q { e with st := .posted, claim := 0 } s)

/-- Head passes the retired entries at the front, in the ENG cycle after their retirement (R251). -/
def headAdvance (q : Nat) (s : State) : State :=
  let x := s.jq q
  let n := (x.ents.takeWhile (fun e => e.st = .retired && decide (e.done / 2 < s.tick / 2))).length
  if n = 0 then s
  else (s.setJq q { x with ents := x.ents.drop n }).setReg (Reg.JQ_HEAD q) (BitVec.ofNat 32 (jqHead q s + n))

/-! ### Registers -/

/-- JQ_CTL(q) as a write stores it. -/
def fitJqCtl (v : Word) : Word :=
  let v := if F.JQ_CTL_BaseClass.get v = 0 then F.JQ_CTL_BaseClass.put v 1 else v
  let v := F.JQ_CTL_Home.put v (clampNat 0 11 (F.JQ_CTL_Home.get v))
  let m := F.JQ_CTL_MissAction.get v
  if m = 0 || decide (4 < m) then F.JQ_CTL_MissAction.put v 1 else v

/-- The checks of R252 on a write of Enable 1. -/
def jqConfigBad (q : Nat) (v : Word) (s : State) : Bool :=
  !inRingMemory (jqBase q s) (64 * 2 ^ jqSize q s) s ||
    (F.JQ_CTL_Bound.get v = 1 && decide (191 < F.JQ_CTL_BindEngine.get v))

/-- A write to JQ_CTL(q) (R252, R263). -/
def writeJqCtl (q : Nat) (v : Word) (s : State) : State :=
  let v := fitJqCtl v
  let bad := F.JQ_CTL_Enable.get v = 1 && jqConfigBad q v s
  let base := F.JQ_CTL_BaseClass.get v
  let set := fun (s : State) =>
    let s := if base != s.fld (Reg.JQ_CTL q) F.JQ_CTL_BaseClass then s.setJq q { s.jq q with cls := base } else s
    s.plainWrite (Reg.JQ_CTL q) (if bad then F.JQ_CTL_Enable.put v 0 else v)
  let s := onQueue q set s
  if bad then jqFlag q F.JQ_FLAGS_ConfigRefused s else s

/-- The ring-placement registers: ignored while Enable is 1 or entries stand (R252). -/
def writeJqRing (q a : Nat) (v : Word) (s : State) : State :=
  if s.bit (Reg.JQ_CTL q) F.JQ_CTL_Enable || jqTail q s != jqHead q s then jqFlag q F.JQ_FLAGS_ConfigRefused s
  else s.plainWrite a (if a = Reg.JQ_RINGCFG q then
    F.JQ_RINGCFG_SizeLog2.put v (clampNat 4 16 (F.JQ_RINGCFG_SizeLog2.get v)) else v)

def writeJqAge (q : Nat) (v : Word) (s : State) : State :=
  onQueue q (fun s => s.plainWrite (Reg.JQ_AGE q) (F.JQ_AGE_AgeStep.put v (clampNat 1 16384 (F.JQ_AGE_AgeStep.get v)))) s

/-- JQ_STAT(q) (chapter 11, table). -/
def jqStat (q : Nat) (s : State) : Word :=
  let x := s.jq q
  let c := jqClass q s
  let posted := (x.ents.filter (fun e => e.st = .posted)).length
  let claimed := (x.ents.filter (fun e => e.st = .claimed)).length
  BitVec.ofNat 32 (c + 8 * b2n (c = 0) + 16 * b2n (oldestDeliverable q s).isSome + 2 ^ 8 * claimed +
    2 ^ 16 * clampNat 0 0xFFFF posted)

/-- A read of JQ_HEADDL_LO(q), with its snapshot. -/
def readHeadDl (req : Req) (q : Nat) (s : State) : Word × State :=
  (lowWord (headDl q s), s.setPreg req (Reg.JQ_HEADDL_HI q) (highWord (headDl q s)))

/-- The count register `i` of queue `q`: 0 DONE, 1 MISS, 2 RETRY, 3 AWAY. -/
def jqCnt (q i : Nat) : Nat := Reg.JQ_CNT_DONE q + 4 * i

/-- A read of a count, which clears it. -/
def readCnt (a : Nat) (s : State) : Word × State := (s.reg a, s.setReg a 0)

/-- May a post's descriptor be read there (JQ_HPOSTRES)? -/
def postAddrOk (a : Nat) (s : State) : Bool := a % 64 = 0 && inRingMemory a 64 s && !(regionOf a s).isAsleep && !anyPoison a 64 s

/-- Go of the staging registers (R256): `v` is the word written to JQ_HPOST_HI(q). The post is in progress until the
end of its ENG cycle, and a Go meanwhile is ignored (JQ_HPOSTRES). -/
def hostPost (req : Req) (q : Nat) (v : Word) (s : State) : State :=
  let s := s.setPreg req (Reg.JQ_HPOST_HI q) (BitVec.ofNat 32 (F.JQ_HPOST_HI_AddrHi.get v))
  let a := (s.preg req (Reg.JQ_HPOST_LO q)).toNat + 2 ^ 32 * F.JQ_HPOST_HI_AddrHi.get v
  let res := s.preg req (Reg.JQ_HPOSTRES q)
  if F.JQ_HPOSTRES_Busy.get res = 1 then s
  else if postAddrOk a s then
    askPost (.staged req) q (s.words a 16) (s.setPreg req (Reg.JQ_HPOSTRES q) (F.JQ_HPOSTRES_Busy.put 0 1))
  else (jqFlag q F.JQ_FLAGS_Refused (noteAsleep a s)).setPreg req (Reg.JQ_HPOSTRES q) 2

/-! ### The commands -/

/-- HOST_POST_GO. -/
def execHostPostGo (req : Req) (q : Nat) (v : Word) (s : State) : Out := .next (hostPost req q v s)

/-- MISS_DETECTION. -/
def execMissDetection (q idx : Nat) (s : State) : Out := .next (missDetect q idx s)

/-- FALLBACK_POST. -/
def execFallbackPost (q : Nat) (s : State) : Out := .next (fallbackPost q s)

/-- HEAD_ADVANCE. -/
def execHeadAdvance (q : Nat) (s : State) : Out := .next (headAdvance q s)

/-- CLASS_AGING. -/
def execClassAging (q : Nat) (s : State) : Out := .next (ageQueue q s)

/-- URGENCY_ONSET. -/
def execUrgencyOnset (q : Nat) (s : State) : Out := .next (jqRefresh q s)

/-- QUEUE_CTL_WRITE. -/
def execQueueCtlWrite (q : Nat) (v : Word) (s : State) : Out := .next (writeJqCtl q v s)

/-- QUEUE_COUNT_READ. -/
def execQueueCountRead (req : Req) (q i : Nat) (s : State) : Out :=
  let (w, s) := readCnt (jqCnt q i) s
  .next (s.give req [w])

/-- HEADDL_READ. -/
def execHeaddlRead (req : Req) (q : Nat) (s : State) : Out :=
  let (w, s) := readHeadDl req q s
  .next (s.give req [w])

end Sys2Proof.Machine
end

