-- ==== Sys2Proof/Machine/EngCore.lean ====
section
/-!
DEFINITION. What every Mark Engine instruction shares (chapter 09): the register files, the checks of an
access (R194, R195, R203), exceptions and engine faults (R204 to R206, R220), and issue (R200, R201).
-/
namespace Sys2Proof.Machine

/-! ### Register files -/

def State.g (s : State) (n r : Nat) : Word := if r = 0 then 0 else (s.eng n).g.get 0 r

/-- Writes to g0 are discarded. -/
def setG (n r : Nat) (v : Word) (s : State) : State :=
  if r = 0 then s else s.setEng n { s.eng n with g := (s.eng n).g.set 0 r v }

def State.a (s : State) (n r : Nat) : Addr := (s.eng n).a.get 0 r

def setA (n r : Nat) (v : Addr) (s : State) : State := s.setEng n { s.eng n with a := (s.eng n).a.set 0 r v }

def State.v (s : State) (n r : Nat) : Vec := (s.eng n).v.get 0 r

def setV (n r : Nat) (v : Vec) (s : State) : State := s.setEng n { s.eng n with v := (s.eng n).v.set 0 r v }

def State.p (s : State) (n r : Nat) : Bool := if r = 0 then true else (s.eng n).p.get false r

/-- Writes to p0 are discarded. -/
def setP (n r : Nat) (v : Bool) (s : State) : State :=
  if r = 0 then s else s.setEng n { s.eng n with p := (s.eng n).p.set false r v }

/-- pair(r). -/
def State.gPair (s : State) (n r : Nat) : Nat := (s.g n r).toNat + 2 ^ 32 * (s.g n (r + 1)).toNat

/-- A register of any file as one number: g from 0, a from 64, v from 128, p from 160. -/
def regA (r : Nat) : Nat := 64 + r

def regV (r : Nat) : Nat := 128 + r

def regP (r : Nat) : Nat := 160 + r

/-! ### Flags and events of an engine (R209, R211) -/

def meFlag (n : Nat) (f : Fld) (s : State) : State :=
  s.flag (Reg.ME_STAT n) f (bitN (s.reg (Reg.ME_EVTEN n)).toNat f.lsb) n

/-- An event of the engine itself in channel `c`: bit 14 of a DMA, bit 15 of the cue timer. -/
def localEvent (n c : Nat) (s : State) : State :=
  let (s, again) := engArrive n c s
  s.raiseIf again n

/-! ### Engine faults (R220) -/

/-- The job of an engine goes on its way back to its queue. -/
def sendBack (parked logged : Bool) (e : Engine) (lt : Nat) : List EngReturn :=
  if e.jobValid then e.returns ++ [EngReturn.mk parked e.jobQueue e.jobIdx lt logged] else e.returns

def setAddr48 (a : Nat) (v : Addr) (s : State) : State := s.setReg64 a v.toNat

/-- An engine fault is detected: `kind` as ME_FAULT codes it, the second cause of a double exception, and where. The
engine is FAULTED and issues nothing; the rest comes with the next ENG cycle. -/
def engFault (n kind cause : Nat) (pc eaddr : Addr) (s : State) : State :=
  let e := s.eng n
  if e.flt.isSome then s
  else s.setEng n { e with
    st := .faulted, wait := .none, loads := [], step := 0,
    flt := some (EngFlt.mk (2 * (s.tick / 2) + 2) kind cause pc eaddr s.lt) }

/-- The effects of a detected fault: the timer and the watch are disarmed, the job goes back, descriptors not started
are discarded, Faulted and ME_FAULT are set. -/
def faultEnd (n : Nat) (s : State) : State :=
  let e := s.eng n
  match e.flt with
  | none => s
  | some f =>
    let s := s.setEng n { e with
      flt := none, ctArmed := false, dlArmed := false, dmas := e.dmas.take 1, jobValid := false,
      returns := sendBack false true e f.lt }
    let s := s.setReg (Reg.ME_FAULT n) (BitVec.ofNat 32 (f.kind + 256 * f.cause))
    let s := setAddr48 (Reg.ME_FAULTADDR_LO n) f.eaddr (setAddr48 (Reg.ME_FAULTPC_LO n) f.pc s)
    let s := if e.jobValid then s else s.logFault n 1 0 n f.lt s.lt
    meFlag n F.ME_STAT_Faulted s

/-- Two ticks after the detection's ENG cycle began. -/
def faultDue (n : Nat) (s : State) : State :=
  match (s.eng n).flt with
  | some f => if f.at' ≤ s.tick then faultEnd n s else s
  | none => s

/-! ### Exceptions (R204 to R206) -/

def excIllegal : Nat := 0x01
def excPriv : Nat := 0x02
def excAlign : Nat := 0x03
def excAccess : Nat := 0x04
def excBus : Nat := 0x05
def excFetch : Nat := 0x06
def excDeadline : Nat := 0x07
def excTrap : Nat := 0x08
def excBreak : Nat := 0x09
def excDmaErr : Nat := 0x0A
def excEvent : Nat := 0x10

/-- Exception entry, cause `k` (R205). -/
def excEntry (n k cookie : Nat) (epc eaddr : Addr) (s : State) : State :=
  let e := s.eng n
  s.setEng n { e with
    st := .run, wait := .none, epc := epc, ecause := BitVec.ofNat 32 (k + 256 * (cookie % 256)), eaddr := eaddr,
    prevPriv := e.priv, prevIe := e.ie, priv := true, exl := true, ie := false,
    pc := e.evec + BitVec.ofNat 48 (0x40 * k) }

/-- A synchronous exception of the instruction at `pc`; while Exl is 1 an engine fault (R206). -/
def syncExc (n k : Nat) (pc epc eaddr : Addr) (s : State) : State :=
  if (s.eng n).exl then engFault n 1 k pc eaddr s else excEntry n k 0 epc eaddr s

/-- An exception of the next instruction to issue, with its data address. -/
def raiseExc (n k : Nat) (eaddr : Addr) (s : State) : State := syncExc n k (s.eng n).pc (s.eng n).pc eaddr s

/-- The asynchronous cause taken next, with its cookie (R206). -/
def asyncCause (e : Engine) : Option (Nat × Nat) :=
  if e.exl then none
  else if e.dlPend then some (excDeadline, 0)
  else match e.dmaPend with
    | some c => some (excDmaErr, c)
    | none => if e.ie && e.evpend &&& e.evmask != 0 then some (excEvent, 0) else none

/-- The pending cause is taken at an instruction boundary. -/
def takeAsync (n k cookie : Nat) (s : State) : State :=
  let e := s.eng n
  let e := if k = excDeadline then { e with dlPend := false }
    else if k = excDmaErr then { e with dmaPend := none } else e
  excEntry n k cookie e.pc 0 (s.setEng n e)

/-! ### Protection regions and the memory map of an engine (R194, R195, R203) -/

/-- Does region `r` hold the `size` bytes at `a` whole? -/
def meRgnHolds (n r a size : Nat) (s : State) : Bool :=
  let hi := Reg.ME_RGN_HI n r
  let k := s.fld hi F.ME_RGN_HI_SizeLog2
  let base := ringStart (s.fld (Reg.ME_RGN_LO n r) F.ME_RGN_LO_BaseLo + 2 ^ 32 * s.fld hi F.ME_RGN_HI_BaseHi) k
  s.bit hi F.ME_RGN_HI_RgnEnable && decide (base ≤ a) && decide (a + size ≤ base + 2 ^ k)

/-- The lowest-numbered region that holds the bytes grants the right. -/
def meRgnAllows (n a size : Nat) (f : Fld) (s : State) : Bool :=
  match (List.range 8).find? (fun r => meRgnHolds n r a size s) with
  | some r => s.bit (Reg.ME_RGN_HI n r) f
  | none => false

/-- Config Staging is locked while a load is under way (R339). -/
def stagingLocked (s : State) : Bool := s.bit Reg.CFG_STATUS F.CFG_STATUS_Locked

/-- Seam window `w` refuses an access (R387). -/
def windowRefuses (w : Nat) (write : Bool) (s : State) : Bool :=
  let c := Reg.SL_WIN_CTL w
  !s.bit c F.SL_WIN_CTL_WinEnable || !s.bit c (if write then F.SL_WIN_CTL_Write else F.SL_WIN_CTL_Read) ||
    (!write && (s.bit c F.SL_WIN_CTL_Mcast || s.bit c F.SL_WIN_CTL_Kind))

/-- The cause that the place of an access gives, at SUPER or with the region's leave. -/
def placeCause (n : Nat) (super write : Bool) (a size : Nat) (s : State) : Option Nat :=
  match regionOf a s with
  | .control => none
  | .wave _ => none
  | .staging => if write || stagingLocked s || decide (0x2180000 ≤ a) then some excAccess else none
  | .journal => if write then some excAccess else none
  | .bram _ => none
  | .store _ => none
  | .pocket m => if m = n then none else some excAccess
  | .asleep _ => some excBus
  | .lpddr => if fenceOk (.engine n super) write a size s then none else some excAccess
  | .seam w => if windowRefuses w write s then some excBus else none
  | .unmapped => some excBus

def superOnly : Region → Bool
  | .control => true
  | .staging => true
  | .journal => true
  | _ => false

/-- The exception of a load or store of `size` bytes at `a` (table of R233), none where it may go on. -/
def accessCause (n : Nat) (write : Bool) (a size : Nat) (s : State) : Option Nat :=
  let super := (s.eng n).priv
  if a % size != 0 then some excAlign
  else if !super && superOnly (regionOf a s) then some excPriv
  else if !super && !meRgnAllows n a size (if write then F.ME_RGN_HI_Write else F.ME_RGN_HI_Read) s then some excAccess
  else placeCause n super write a size s

/-- What a refused access leaves beside the exception: RegionViolation and RetAccess. -/
def noteRefused (n : Nat) (write : Bool) (a size : Nat) (s : State) : State :=
  noteAsleep a (noteFence (.engine n (s.eng n).priv) write a size s)

def executable : Region → Bool
  | .store _ => true
  | .lpddr => true
  | _ => false

/-- Does the instruction cache hold the line of `a` (R222)? -/
def cached (n a : Nat) (s : State) : Bool := (s.eng n).icache.any (fun x => x.line = a / 64)

/-- The exception of a fetch at `a`. A line that is not in the cache is refilled, and an uncorrectable word of it
raises FETCH (R204). -/
def fetchCause (n a : Nat) (s : State) : Option Nat :=
  let r := regionOf a s
  if a % 4 != 0 then some excFetch
  else match r with
    | .unmapped => some excBus
    | .asleep _ => some excBus
    | _ =>
      if !executable r || !meRgnAllows n a 4 F.ME_RGN_HI_Exec s then some excFetch
      else if !fenceOk (.engine n (s.eng n).priv) false a 4 s then some excAccess
      else if !cached n a s && anyPoison (a / 64 * 64) 64 s then some excFetch
      else none

/-- What a fetch turned away leaves beside the exception. -/
def noteFetch (n a : Nat) (s : State) : State :=
  let s := noteRefused n false a 4 s
  if executable (regionOf a s) && !cached n a s then noteUes (a / 64 * 64) 64 5 s else s

/-- A refill from a frozen bank waits (R288). -/
def fetchWaits (n a : Nat) (s : State) : Bool := !cached n a s && frozenIn (a / 64 * 64) 64 s

/-- Sets of the instruction cache: 16 KiB in 4 ways of 64-byte lines. -/
def icacheSets : Nat := 64

/-- Is the way one of the locked ways 0 to LockWays − 1 (R222)? -/
def wayLocked (n way : Nat) (s : State) : Bool := decide (way < s.fld (Reg.ME_CTL n) F.ME_CTL_LockWays)

/-- Is `x` the line in way `way` of the set of `line`? -/
def sameWay (line way : Nat) (x : ICLine) : Bool := x.line % icacheSets = line % icacheSets && x.way = way

/-- May a miss of `line` fill way `way`? A locked way fills only while LockFill is 1, and keeps its line. -/
def mayFill (n line way : Nat) (s : State) : Bool :=
  decide (way < 4) && (!wayLocked n way s ||
    (s.bit (Reg.ME_CTL n) F.ME_CTL_LockFill && !(s.eng n).icache.any (sameWay line way)))

/-- The line fills the way. -/
def fillWay (n line way : Nat) (s : State) : State :=
  s.setEng n { s.eng n with icache := (s.eng n).icache.filter (fun x => !sameWay line way x) ++ [ICLine.mk line way] }

/-- A miss at `a` fills one line, in a way that the spec leaves open. -/
def fetchLine (n a : Nat) (s : State) : State :=
  if cached n a s then s
  else
    let ways := (List.range 4).filter (fun w => mayFill n (a / 64) w s)
    fillWay n (a / 64) (ways.getD (Config.icWay n (a / 64) s.tick % ways.length) 3) (touchRow (a / 64 * 64) 64 s)

/-! ### Debug (R223) -/

def debugOpen (s : State) : Bool := bitN (s.fld Reg.MNT_STATUS F.MNT_STATUS_DebugScope) 0

def haltEng (n : Nat) (s : State) : State :=
  s.setEng n { s.eng n with st := .halted, wait := .none, step := 0 }

/-- Is breakpoint `i` set on the next instruction? -/
def bkptAt (n i : Nat) (s : State) : Bool :=
  let hi := Reg.ME_BKPT_HI n i
  s.bit hi F.ME_BKPT_HI_BkEnable &&
    decide ((s.eng n).pc.toNat = (s.reg (Reg.ME_BKPT_LO n i)).toNat + 2 ^ 32 * s.fld hi F.ME_BKPT_HI_AddrHi)

def takeBkpt (n : Nat) (s : State) : State :=
  if s.bit (Reg.ME_DBGCTL n) F.ME_DBGCTL_Attached then haltEng n s else raiseExc n excBreak 0 s

/-! ### Issue (R200, R201) -/

def clsAlu : Nat := 0
def clsMul : Nat := 1
def clsMem : Nat := 2
def clsVec : Nat := 3
def clsBr : Nat := 4
def clsSys : Nat := 5

/-- What an instruction is to issue: its class, the registers it reads and writes, whether its encoding is
assigned, and whether the engine has room for it (8 loads, 8 stores, 8 descriptors, 4 answers). -/
structure Op where
  cls   : Nat
  rds   : List Nat
  wrs   : List Nat
  legal : Bool
  room  : Bool

/-- Registers whose values are on their way. -/
def busyRegs (e : Engine) : List Nat :=
  e.loads.map (fun l => if l.vec then regV l.rd else l.rd) ++ e.answers.map (·.rd)

/-- A register that stands for a constant never waits. -/
def waitsOn (e : Engine) (r : Nat) : Bool := r != 0 && (busyRegs e).contains r

/-- Does the instruction issue as the second of a pair with the one that issued last (R200)? -/
def pairs (e : Engine) (o : Op) (cyc : Nat) : Bool :=
  match e.last with
  | none => false
  | some l =>
    l.pc.toNat % 8 = 0 && e.pc = l.pc + 4 && l.cyc = cyc && l.cls != clsSys && o.cls != clsSys && l.cls != clsBr &&
      (l.cls != o.cls || o.cls = clsAlu) && l.wr.all (fun r => !o.rds.contains r && !o.wrs.contains r)

def breakNow (n : Nat) (s : State) : Bool := !(s.eng n).passed && (List.range 4).any (fun i => bkptAt n i s)

/-- After an instruction has issued: R223's Step halts the engine after one pair. -/
def stepAfter (n : Nat) (before : Engine) (s : State) : State :=
  let e := s.eng n
  if before.step = 0 || e.st != .run then s
  else if before.step = 1 && before.pc.toNat % 8 = 0 && e.pc = before.pc + 4 then s.setEng n { e with step := 2 }
  else haltEng n s

/-- The instruction issues: it becomes the last one issued, has its effect, and R223's Step follows. -/
def issueNow (n : Nat) (o : Op) (f : State → State) (s : State) : State :=
  let e := s.eng n
  stepAfter n e (f (s.setEng n { e with last := some (EngIssue.mk e.pc (s.tick / 2) o.cls o.wrs), passed := false }))

/-- TWAIT or EWAIT is satisfied in this ENG cycle: the next instruction issues in the second after it (R210). -/
def setIssueAt (n : Nat) (s : State) : State := s.setEng n { s.eng n with issueAt := 2 * (s.tick / 2 + 2) }

/-- An instruction of engine `n` comes to issue: a pending cause, the end of a Step, a breakpoint, the
exceptions of its fetch and of the word fetched come first; an operand or a place that is not ready makes it wait. While a
load is outstanding, whose BUS must be precise, a pending cause and a SYS instruction wait for it (R205, log entry 92). -/
def issue (n : Nat) (o : Op) (f : State → State) (s : State) : State :=
  let e := s.eng n
  if e.st != .run || decide (s.tick < e.issueAt) then s
  else match asyncCause e with
    | some (k, c) => if e.loads.isEmpty then takeAsync n k c s else s
    | none =>
      if e.step = 2 && !pairs e o (s.tick / 2) then haltEng n s
      else if breakNow n s then takeBkpt n s
      else match fetchCause n e.pc.toNat s with
        | some k => raiseExc n k 0 (noteFetch n e.pc.toNat s)
        | none =>
          if !o.legal || !wordLegal (s.word e.pc.toNat) then raiseExc n excIllegal 0 s
          else if fetchWaits n e.pc.toNat s || (o.rds ++ o.wrs).any (waitsOn e) || !o.room || (o.cls = clsSys && !e.loads.isEmpty) then s
          else issueNow n o f (fetchLine n e.pc.toNat s)

/-- The instruction retires and the next one follows it. -/
def retireTo (n : Nat) (pc : Addr) (s : State) : State :=
  (s.setEng n { s.eng n with pc := pc }).countUp (Reg.ME_PERF_ISSUE n) F.ME_PERF_ISSUE_Count

def retireNext (n : Nat) (s : State) : State := retireTo n ((s.eng n).pc + 4) s

/-- A wait ends: the engine issues on behind the waiting instruction (R210). -/
def wakeEng (n : Nat) (s : State) : State :=
  let e := s.eng n
  let s := retireNext n (s.setEng n { e with st := .run, wait := .none })
  if e.step = 0 then s else haltEng n s

def waitEng (n : Nat) (w : EngWait) (s : State) : State :=
  s.setEng n { s.eng n with st := .wait, wait := w, waitAt := s.tick / 2 }

/-! ### Register numbers of the fields -/

def isG (r : Nat) : Bool := decide (r < 64)

/-- g registers that a format V field names. -/
def isGv (r : Nat) : Bool := decide (r < 32)

def isA (r : Nat) : Bool := decide (r < 16)

def isV (r : Nat) : Bool := decide (r < 32)

def isP (r : Nat) : Bool := decide (r < 8)

/-! ### The deadline watch and its disarming (R214) -/

def disarmWatch (n : Nat) (s : State) : State := s.setEng n { s.eng n with dlArmed := false }

/-! ### Control of an engine (R218 to R223) -/

/-- Start: from HELD or PARKED (R218). Stores and descriptors under way go on; the tickets of the latter are
marked, since the next DMA receives ticket 0 again. -/
def startEng (n : Nat) (s : State) : State :=
  let e := s.eng n
  if e.st = .held || e.st = .parked then
    let pc := BitVec.ofNat 48 (s.base48 (Reg.ME_BOOTPC_LO n))
    s.setEng n { Engine.init with
      st := .run, priv := true, exl := true, pc := pc, relTick := s.tick, returns := e.returns, stores := e.stores,
      dmas := e.dmas.map (fun d => { d with ticket := d.ticket % 2 ^ 16 + 2 ^ 16 }) }
  else meFlag n F.ME_STAT_RefusedWrite s

/-- Reset: HELD from any state; R220 applies to the current job (R219). -/
def resetEng (n : Nat) (s : State) : State :=
  let s := faultEnd n s
  let e := s.eng n
  s.setEng n { e with
    st := .held, kept := .held, wait := .none, ctArmed := false, dlArmed := false, dmas := e.dmas.take 1, loads := [],
    answers := [], step := 0, jobValid := false, returns := sendBack false false e s.lt }

/-- ForceFault (R220). -/
def forceFault (n : Nat) (s : State) : State := engFault n 4 0 (s.eng n).pc 0 s

/-- Drain ends a waiting QGET with the result DRAIN (R219). -/
def drainWait (n : Nat) (s : State) : State :=
  match (s.eng n).wait with
  | .job rd _ => wakeEng n (setG n rd 2 (s.setEng n { s.eng n with hint := none }))
  | _ => s

/-- A write to ME_CTL(n): the stored bits, then Start, Reset, ForceFault and Unlock. -/
def writeMeCtl (n : Nat) (v : Word) (s : State) : State :=
  let wd := F.ME_CTL_WdogEnable.get v = 1 && !s.bit (Reg.ME_CTL n) F.ME_CTL_WdogEnable
  let s := s.plainWrite (Reg.ME_CTL n) v
  let s := if wd then s.setEng n { s.eng n with wdogTick := 0 } else s
  let s := if F.ME_CTL_Drain.get v = 1 then drainWait n s else s
  let s := if F.ME_CTL_Start.get v = 1 then startEng n s else s
  let s := if F.ME_CTL_Reset.get v = 1 then resetEng n s else s
  let s := if F.ME_CTL_ForceFault.get v = 1 then forceFault n s else s
  if F.ME_CTL_Unlock.get v = 1 then s.setEng n { s.eng n with unlockIinv := true } else s

def isRunning (e : Engine) : Bool := e.st = .run || e.st = .wait

def resumeEng (n : Nat) (s : State) : State :=
  if (s.eng n).st = .halted then s.setEng n { s.eng n with st := .run, step := 0, passed := true } else s

def stepEng (n : Nat) (s : State) : State :=
  if (s.eng n).st = .halted then s.setEng n { s.eng n with st := .run, step := 1, passed := true } else s

/-- A write to ME_DBGCTL(n) (R223). -/
def writeDbgCtl (n : Nat) (v : Word) (s : State) : State :=
  if !debugOpen s then meFlag n F.ME_STAT_RefusedWrite s
  else
    let s := s.plainWrite (Reg.ME_DBGCTL n) v
    let s := if F.ME_DBGCTL_Halt.get v = 1 && isRunning (s.eng n) then haltEng n s else s
    let s := if F.ME_DBGCTL_Step.get v = 1 then stepEng n s else s
    if F.ME_DBGCTL_Resume.get v = 1 then resumeEng n s else s

/-- A write to another debug register at `a`; `r` is the g register where it is ME_DBGREG(n,r). -/
def writeDbg (n a : Nat) (r : Option Nat) (v : Word) (s : State) : State :=
  if !debugOpen s then meFlag n F.ME_STAT_RefusedWrite s
  else match r with
    | some r => if (s.eng n).st = .halted then setG n r v s else s
    | none => s.plainWrite a v

def readDbg (n a : Nat) (r : Option Nat) (s : State) : Word :=
  if !debugOpen s then 0
  else match r with
    | some r => if (s.eng n).st = .halted then s.g n r else 0
    | none =>
      if a = Reg.ME_DBGPC_LO n then (s.eng n).pc.setWidth 32
      else if a = Reg.ME_DBGPC_HI n then BitVec.ofNat 32 ((s.eng n).pc.toNat / 2 ^ 32)
      else s.reg a

/-- The unlock ends: HALTED engines resume, breakpoints and Attached clear (R362). -/
def closeDebug (s : State) : State :=
  (s.engs.keys ++ List.range 192).eraseDups.foldl (fun s n =>
    let s := resumeEng n (s.clrBit (Reg.ME_DBGCTL n) F.ME_DBGCTL_Attached)
    (List.range 4).foldl (fun s i =>
      (s.setReg (Reg.ME_BKPT_LO n i) 0).setReg (Reg.ME_BKPT_HI n i) 0) s) s

/-- ME_WDOG(n): a limit of 0 stores 1. -/
def writeMeWdog (n : Nat) (v : Word) (s : State) : State :=
  s.plainWrite (Reg.ME_WDOG n) (if F.ME_WDOG_WdogLimit.get v = 0 then F.ME_WDOG_WdogLimit.put v 1 else v)

/-- ME_RGN_HI(n,r): a size outside 12 to 36 stores the nearer limit. -/
def writeMeRgn (n r : Nat) (v : Word) (s : State) : State :=
  s.plainWrite (Reg.ME_RGN_HI n r) (F.ME_RGN_HI_SizeLog2.put v (clampNat 12 36 (F.ME_RGN_HI_SizeLog2.get v)))

/-- ME_BOOTPC_LO(n): bits [1:0] are stored as 0. -/
def writeBootPc (n : Nat) (v : Word) (s : State) : State := s.plainWrite (Reg.ME_BOOTPC_LO n) (v &&& ~~~ 3#32)

def stNum : EngSt → Nat
  | .held => 0
  | .run => 1
  | .wait => 2
  | .parked => 3
  | .halted => 4
  | .faulted => 5
  | .retained => 6

/-- ME_STAT(n) as it reads. -/
def meStat (n : Nat) (s : State) : Word :=
  let e := s.eng n
  F.ME_STAT_JobValid.put (F.ME_STAT_Priv.put (F.ME_STAT_State.put (s.reg (Reg.ME_STAT n)) (stNum e.st)) (b2n e.priv))
    (b2n e.jobValid)

def meDmaStat (n : Nat) (s : State) : Word :=
  F.ME_DMASTAT_Outstanding.put (s.reg (Reg.ME_DMASTAT n)) (s.eng n).dmas.length

end Sys2Proof.Machine
end

