-- ==== Sys2Proof/Machine/PulseGen.lean ====
section
/-!
DEFINITION. The pulse generators and their trip inputs (chapter 04, R64 to R82).
-/
namespace Sys2Proof.Machine

def State.pg (s : State) (n : Nat) : Pg := s.pgs.get Pg.init n

def State.setPg (s : State) (n : Nat) (x : Pg) : State := { s with pgs := s.pgs.set Pg.init n x }

/-- Sets a flag of PG_STAT(n) and raises event 704 + n div 8 (R82). -/
def pgFlag (n : Nat) (f : Fld) (s : State) : State := s.flag (Reg.PG_STAT n) f true (704 + n / 8)

/-! ### Settings (R69, R71) -/

def seqEntries (n b : Nat) (s : State) : List Word := (List.range 32).map (fun i => s.reg (Reg.PG_SEQ n b i))

/-- The entries up to the first with Last 1; none where no entry has it. -/
def upToLast : List Word → Option (List Word)
  | [] => none
  | w :: rest => if F.PG_SEQ_Last.get w = 1 then some [w] else (upToLast rest).map (w :: ·)

def offsetsRise : List Word → Bool
  | a :: b :: rest => decide (F.PG_SEQ_Offset.get a < F.PG_SEQ_Offset.get b) && offsetsRise (b :: rest)
  | _ => true

/-- Offset of the sequence's last entry. -/
def lastOffset (l : List Word) : Nat :=
  match l.getLast? with
  | some w => F.PG_SEQ_Offset.get w
  | none => 0

/-- Are these settings valid (R69)? -/
def pgSettingsOk (n mode width period bank : Nat) (s : State) : Bool :=
  if mode = 0 then decide (0 < width)
  else if mode = 1 then decide (0 < width) && decide (width < period)
  else if mode = 2 then decide (0 < period)
  else
    match upToLast (seqEntries n bank s) with
    | none => false
    | some l => offsetsRise l && decide (lastOffset l < period)

def idleReg (n : Nat) (s : State) : Bool := s.bit (Reg.PG_CTL n) F.PG_CTL_IdleLevel

/-! ### Levels (R68, R71, R75 to R77, R80) -/

/-- Level of the last entry at or before offset `o` of a cycle, else the level carried in. -/
def seqLevel (l : List Word) (o : Nat) (carry : Bool) : Bool :=
  l.foldl (fun lv w => if F.PG_SEQ_Offset.get w ≤ o then F.PG_SEQ_Level.get w = 1 else lv) carry

def seqOf (n : Nat) (x : Pg) (s : State) : List Word := (upToLast (seqEntries n x.bank s)).getD []

/-- The level that the timing of the run gives in tick `t`. -/
def pgTiming (n t : Nat) (s : State) : Bool :=
  let x := s.pg n
  match x.run with
  | none => x.idle
  | some r =>
    if r.begun = 0 || r.mute then x.idle
    else if r.mode = 3 then seqLevel (seqOf n x s) (t - r.cyc) r.carry
    else if t < r.cyc + r.width then !x.idle else x.idle

/-! ### Starts (R65 to R67, R69, R73) -/

/-- A run begins with start tick `t`, or is refused with StartError. Answers whether it began. -/
def pgBegin (n t : Nat) (s : State) : Bool × State :=
  let x := s.pg n
  let mode := s.fld (Reg.PG_CTL n) F.PG_CTL_Mode
  let width := s.fld (Reg.PG_WIDTH n) F.PG_WIDTH_Ticks
  let period := s.fld (Reg.PG_PERIOD n) F.PG_PERIOD_Period
  let bank := x.bankPend.getD x.bank
  if !pgSettingsOk n mode width period bank s then (false, pgFlag n F.PG_STAT_StartError s)
  else
    let first := t + s.fld (Reg.PG_LEAD n) F.PG_LEAD_Ticks
    let count := s.fld (Reg.PG_COUNT n) F.PG_COUNT_Count
    let r : PgRun := PgRun.mk t mode first width period count first 0 x.idle false false
    (true, (s.setPg n { x with run := some r, bank := bank, bankPend := none }).setFld (Reg.PG_DONECNT n)
      F.PG_DONECNT_Begun 0)

/-- While Held, and while ClockLost holds the generators, every start is dropped (R77, R80). -/
def pgBlocked (n : Nat) (s : State) : Bool := s.clock.clockLost || (s.pg n).held

/-- A start with start tick `t` at one generator. Answers whether a run began. A run that ended in this tick is a
run in progress for it, and CHAIN begins in the tick after that end (R73). -/
def pgStartOne (n t : Nat) (s : State) : Bool × State :=
  let x := s.pg n
  let how := s.fld (Reg.PG_CTL n) F.PG_CTL_Retrigger
  if pgBlocked n s then (false, pgFlag n F.PG_STAT_StartBlocked s)
  else if !s.bit (Reg.PG_CTL n) F.PG_CTL_Enable then (false, s)
  else if !(x.run.isSome || x.ended = t + 1) || how = 1 then pgBegin n t s
  else if how = 0 then (false, pgFlag n F.PG_STAT_StartIgnored s)
  else if x.chain then (false, pgFlag n F.PG_STAT_StartOverrun s)
  else (false, pgFlag n F.PG_STAT_Chained (s.setPg n { x with chain := true }))

/-- Does a pending CHAIN start begin in tick `t` (R73)? -/
def chainDue (n t : Nat) (s : State) : Bool := (s.pg n).chain && (s.pg n).run.isNone && (s.pg n).ended = t

/-- The pending CHAIN start begins with start tick `t`; it is reported to the Ledger as a supervision fault (R73,
R79). -/
def pgChained (n t : Nat) (s : State) : Bool × State :=
  let s := s.setPg n { s.pg n with chain := false }
  if pgBlocked n s then (false, pgFlag n F.PG_STAT_StartBlocked s)
  else
    let r := pgBegin n t s
    if r.1 && s.bit (Reg.PG_CTL n) F.PG_CTL_LedgerReport then (true, pointReport (n / 16) flagSupFault r.2) else r

def follows (n : Nat) (s : State) : Bool := n % 8 != 0 && s.bit (Reg.PG_CTL n) F.PG_CTL_Follow

/-- Has generator `m` a start with start tick `t` to come: a cue effect, a software Start or a pending CHAIN start? -/
def startComes (m t : Nat) (s : State) : Bool :=
  (s.target m).flights.any (fun f => f.due = t) || (s.pg m).soft = t || chainDue m t s

/-- Under RESTART the run ends in the tick before the new start tick (R73): IdleLevel in it. -/
def pgCut (n t : Nat) (s : State) : Bool :=
  let m := if follows n s then n - n % 8 else n
  (s.pg n).run.isSome && s.fld (Reg.PG_CTL n) F.PG_CTL_Retrigger = 1 && startComes m (t + 1) s &&
    (m = n || (if chainDue m (t + 1) s then pgChained m (t + 1) s else pgStartOne m (t + 1) s).1) && (pgStartOne n (t + 1) s).1

/-- The level that a trip or Held forces in tick `t`: none where the output follows the timing (R75 to R77, R80). -/
def pgForced (n t : Nat) (s : State) : Option Bool :=
  let x := s.pg n
  if s.clock.clockLost || x.trip.next || decide (t < x.rearm) then some x.trip.level
  else if x.trip.on || x.held then if x.trip.reach ≤ t then some x.trip.level else x.trip.prev
  else none

/-- The generator's output in tick `t`. -/
def pgLevel (n t : Nat) (s : State) : Bool :=
  match pgForced n t s with
  | some l => l
  | none => if pgCut n t s then (s.pg n).idle else pgTiming n t s

/-- The followers of leader `n` take its start tick (R67). -/
def pgFollowers (n t : Nat) (s : State) : State :=
  if n % 8 != 0 then s
  else (List.range 7).foldl (fun s i => if follows (n + 1 + i) s then (pgStartOne (n + 1 + i) t s).2 else s) s

/-- A start that generator `n` took begins its followers too. -/
def pgLead (n t : Nat) (ran : Bool) (s : State) : State := if ran then pgFollowers n t s else s

/-- A start of generator `n` by its own cue or Start write (R65 to R67). A follower drops it, and while Held with
StartBlocked too (R77). -/
def pgStart (n t : Nat) (s : State) : State :=
  if follows n s then
    let s := if pgBlocked n s then pgFlag n F.PG_STAT_StartBlocked s else s
    pgFlag n F.PG_STAT_StartIgnored s
  else
    let r := pgStartOne n t s
    pgLead n t r.1 r.2

/-- The starts of this tick that waited for it: a pending CHAIN start after the end of its run, and a software
Start (R66, R73). -/
def pgWaiting (n : Nat) (s : State) : State :=
  let r := pgChained n s.tick s
  let s := if chainDue n s.tick s then pgLead n s.tick r.1 r.2 else s
  if (s.pg n).soft != 0 && (s.pg n).soft = s.tick then pgStart n s.tick (s.setPg n { s.pg n with soft := 0 }) else s

/-! ### Ends (R68, R74) -/

/-- The run ends without Done: IdleLevel, nothing pending (R74 Abort, R76 HOLD, R80). -/
def pgAbandon (n : Nat) (s : State) : State :=
  let x := s.pg n
  s.setPg n { x with run := none, chain := false, abort := false, idle := idleReg n s, trip := { x.trip with next := false } }

/-- The run ends at its end tick, which is this tick (R68). -/
def pgFinish (n : Nat) (s : State) : State :=
  let x := s.pg n
  let s := s.setPg n { x with
    run := none, ended := s.tick + 1, idle := idleReg n s, trip := { x.trip with next := false } }
  if s.bit (Reg.PG_CTL n) F.PG_CTL_DoneEvent then pgFlag n F.PG_STAT_Done s else s

/-- The end tick of a run, once its last pulse or cycle has begun. -/
def pgEndTick (n : Nat) (x : Pg) (r : PgRun) (s : State) : Option Nat :=
  if r.mode = 0 then (if r.begun = 1 then some (r.cyc + r.width) else none)
  else if r.mode = 2 || r.count = 0 || r.begun != r.count then none
  else if r.mode = 1 then some (r.cyc + r.width)
  else some (r.cyc + lastOffset (seqOf n x s))

/-- The tick of the next period or cycle start. -/
def pgNextCycle (r : PgRun) : Option Nat :=
  if r.begun = 0 then some r.first
  else if r.mode = 0 then none
  else if r.mode != 2 && r.count != 0 && r.begun = r.count then none
  else some (r.cyc + r.period)

/-- Does the run end in this tick, at its end tick or by Stop at a period or cycle start? -/
def pgEnds (n : Nat) (s : State) : Bool :=
  let x := s.pg n
  match x.run with
  | none => false
  | some r => pgEndTick n x r s = some s.tick ||
      (r.stop && r.mode != 0 && pgNextCycle r = some s.tick)

def pgRunEnd (n : Nat) (s : State) : State := if pgEnds n s then pgFinish n s else s

/-! ### Period and cycle starts (R70 to R72) -/

/-- The run with the pending period, width and bank taken, where they are valid together (R70, R72). -/
def pgTakeShadow (n : Nat) (x : Pg) (r : PgRun) (s : State) : Pg × PgRun × Bool :=
  let w := s.fld (Reg.PG_WIDTH n) F.PG_WIDTH_Ticks
  let p := s.fld (Reg.PG_PERIOD n) F.PG_PERIOD_Period
  if w = r.width && p = r.period && x.bankPend.isNone then (x, r, true)
  else if pgSettingsOk n r.mode w p (x.bankPend.getD x.bank) s then
    ({ x with bank := x.bankPend.getD x.bank, bankPend := none }, { r with width := w, period := p }, true)
  else (x, r, false)

/-- A period or cycle begins in this tick. DESIGN CHOICE (log entry 229): PG_DONECNT wraps past its 24 bits. -/
def pgCycle (n : Nat) (r : PgRun) (s : State) : State :=
  let x := s.pg n
  let left := if r.begun = 0 then idleReg n s else seqLevel (seqOf n x s) (s.tick - r.cyc) r.carry
  let (x, r, ok) := pgTakeShadow n x r s
  let r := { r with cyc := s.tick, begun := r.begun + 1, carry := left, mute := false }
  let s := (s.setPg n { x with
    run := some r, idle := idleReg n s, trip := { x.trip with next := false } }).setFld (Reg.PG_DONECNT n)
      F.PG_DONECNT_Begun r.begun
  if ok then s else pgFlag n F.PG_STAT_WriteRefused s

def pgCycleStart (n : Nat) (s : State) : State :=
  match (s.pg n).run with
  | none => s
  | some r => if pgNextCycle r = some s.tick then (if r.stop && r.mode != 0 then pgFinish n s else pgCycle n r s) else s

/-! ### Trips (R75 to R80) -/

/-- Does the input see its comparator at its asserting level? -/
def tripInput (n i : Nat) (s : State) : Bool :=
  let w := s.reg (Reg.PG_TRIP n i)
  F.PG_TRIP_TripEnable.get w = 1 &&
    srcLevel (256 + 64 * (n / 64) + F.PG_TRIP_Comparator.get w) s != (F.PG_TRIP_Polarity.get w = 1)

def combinedTrip (n : Nat) (s : State) : Bool := tripInput n 0 s || tripInput n 1 s

/-- The trip state after an assertion whose forcing reaches the ball `d` ticks later: an output that is forced now
stays at its level until then, and one that waits for an earlier assertion's forcing takes that tick (R75, R76). -/
def PgTrip.assert (x : PgTrip) (forced : Option Bool) (now d : Nat) (ctl : Word) : PgTrip :=
  let waits := x.on && decide (now < x.reach)
  { active := true, on := true, quiet := 0, reach := if waits then x.reach else now + d,
    level := F.PG_TRIPCTL_TripLevel.get ctl = 1, policy := F.PG_TRIPCTL_Policy.get ctl,
    rel := F.PG_TRIPCTL_ReleaseTicks.get ctl, prev := if waits then x.prev else forced, next := false }

/-- The combined trip asserts: the settings of PG_TRIPCTL are taken, and HOLD ends the run (R75, R76, R79). A start
whose start tick is this tick is dropped under HOLD (R77, R78). The forcing reaches the ball within 12 ns, at a
time the spec leaves open. -/
def tripAssert (n : Nat) (s : State) : State :=
  let (w, s) := s.takeFree
  let x := s.pg n
  let c := s.reg (Reg.PG_TRIPCTL n)
  let t := x.trip.assert (pgForced n s.tick s) s.tick (w.toNat % 20) c
  let began : Bool := match x.run with
    | some r => r.start = s.tick
    | none => false
  let s := if F.PG_TRIPCTL_Policy.get c = 2 then
      let s := s.setPg n { x with
        run := none, chain := chainDue n s.tick s, idle := idleReg n s, held := true, trip := t }
      if began then pgFlag n F.PG_STAT_StartBlocked s else s
    else s.setPg n { x with trip := t }
  let s := pgFlag n F.PG_STAT_TripSeen s
  if s.bit (Reg.PG_CTL n) F.PG_CTL_LedgerReport && !((s.head (n / 16)).spans.any (fun p => p.src = n)) then
    openSpan (n / 16) flagTrip n s
  else s

/-- The combined trip of generator `n` is formed anew after a comparator or a trip input changed. -/
def tripEval (n : Nat) (s : State) : State :=
  if s.clock.clockLost then s else
  let x := s.pg n
  let a := combinedTrip n s
  if a && !x.trip.active then tripAssert n s
  else if !a && x.trip.active then s.setPg n { x with trip := { x.trip with active := false, quiet := s.tick } }
  else s

/-- The generators with an enabled trip input. -/
def tripUsers (s : State) : List Nat :=
  let a := listed' (fun n => Reg.PG_TRIP n 0) s
  a ++ (listed' (fun n => Reg.PG_TRIP n 1) s).filter (fun n => !a.contains n)
where
  listed' (r : Nat → Nat) (s : State) : List Nat :=
    s.regs.filterMap (fun c =>
      let o := c.1 - r 0
      if r 0 ≤ c.1 && o / 0x800 < 512 && o % 0x800 = 0 && F.PG_TRIP_TripEnable.get c.2 = 1 then some (o / 0x800) else none)

/-- Comparator `c` of the part (4t + k) changed its reported level: the trips that select it. -/
def tripsOf (c : Nat) (s : State) : State :=
  ((tripUsers s).filter (fun n => n / 64 = c / 64)).foldl (fun s n => tripEval n s) s

/-- The release of R76. DESIGN CHOICE (log entry 230): under NEXT a ONE_SHOT pulse that starts in or after the
release tick appears; one that the trip has cut stays at IdleLevel (log entry 52). -/
def tripRelease (n : Nat) (s : State) : State :=
  let x := s.pg n
  if !(x.trip.on && !x.trip.active && decide (x.trip.quiet + x.trip.rel ≤ s.tick) && decide (x.trip.reach < s.tick)) then s
  else if x.held then s.setPg n { x with trip := { x.trip with on := false } }
  else
    let x := { x with idle := idleReg n s, trip := { x.trip with on := false } }
    let x := if x.trip.policy != 1 then x
      else
        match x.run with
        | none => x
        | some r =>
          if r.mode = 0 then { x with run := some { r with mute := decide (0 < r.begun) && r.cyc != s.tick } }
          else if 0 < r.begun && r.cyc = s.tick then x
          else { x with trip := { x.trip with next := true } }
    closeSpan (n / 16) n (s.setPg n x)

/-- Does Tripped read 1 (R77)? -/
def pgTripped (n : Nat) (s : State) : Bool := s.clock.clockLost || (s.pg n).trip.on

/-- An accepted Rearm, which ends the trip's span: IdleLevel from the next tick (R77, R182). -/
def pgRearm (n : Nat) (s : State) : State :=
  if pgTripped n s then pgFlag n F.PG_STAT_WriteRefused s
  else if (s.pg n).held then
    closeSpan (n / 16) n (s.setPg n { s.pg n with held := false, idle := idleReg n s, rearm := s.tick + 1 })
  else s

/-- ClockLost begins: every run ends, and every output takes the TripLevel that its register then holds (R76, R80). -/
def pgClockLost (s : State) : State :=
  (List.range 512).foldl (fun s n =>
    let s := pgAbandon n s
    s.setPg n { s.pg n with
      trip := { (s.pg n).trip with level := F.PG_TRIPCTL_TripLevel.get (s.reg (Reg.PG_TRIPCTL n)) = 1 } }) s

/-- ClockLost ends: every generator is stopped at IdleLevel with Held clear, and trips apply again at once (R80). -/
def pgClockBack (s : State) : State :=
  let s := s.pgs.keys.foldl (fun s n =>
    closeSpan (n / 16) n (s.setPg n { pgAbandonOf n s with held := false, trip := PgTrip.init })) s
  (tripUsers s).foldl (fun s n =>
    let s := tripEval n s
    if (s.pg n).trip.on then s.setPg n { s.pg n with trip := { (s.pg n).trip with reach := s.tick } } else s) s
where
  pgAbandonOf (n : Nat) (s : State) : Pg := { s.pg n with run := none, chain := false, idle := idleReg n s }

/-! ### Register writes -/

/-- Abort takes effect in the next tick (R74). A software Start written before it in this tick would begin in that
tick, and does not come. -/
def pgAbort (n : Nat) (s : State) : State := s.setPg n { s.pg n with abort := true, soft := 0 }

/-- A software Start begins in the first tick after the write (R66). -/
def pgSoftStart (n : Nat) (s : State) : State := s.setPg n { s.pg n with soft := s.tick + 1 }

def pgStop (n : Nat) (s : State) : State :=
  let x := s.pg n
  match x.run with
  | some r => s.setPg n { x with run := some { r with stop := true } }
  | none => s

/-- A write to PG_CMD(n): its bits act in bit order (R66, R74, R77). -/
def writePgCmd (n : Nat) (v : Word) (s : State) : State :=
  let s := if F.PG_CMD_Start.get v = 1 then pgSoftStart n s else s
  let s := if F.PG_CMD_Stop.get v = 1 then pgStop n s else s
  let s := if F.PG_CMD_Abort.get v = 1 then pgAbort n s else s
  if F.PG_CMD_Rearm.get v = 1 then pgRearm n s else s

/-- IdleLevel takes effect where the output is not timed, forced or held (R70). -/
def settleIdle (n : Nat) (s : State) : State :=
  let x := s.pg n
  if x.run.isNone && !x.trip.on && !x.held then s.setPg n { x with idle := idleReg n s } else s

/-- What takes effect in the first tick after a write: an Abort, and IdleLevel (R70, R74). -/
def tickPg (n : Nat) (s : State) : State :=
  let s := if (s.pg n).abort then pgAbandon n s else s
  if (s.pg n).reIdle then settleIdle n (s.setPg n { s.pg n with reIdle := false }) else s

/-- A write to PG_CTL(n) (R70). -/
def writePgCtl (n : Nat) (v : Word) (s : State) : State :=
  let old := s.reg (Reg.PG_CTL n)
  let v := if F.PG_CTL_Retrigger.get v = 3 then F.PG_CTL_Retrigger.put v 0 else v
  let clash := (s.pg n).run.isSome &&
    (F.PG_CTL_Mode.get v != F.PG_CTL_Mode.get old || F.PG_CTL_Follow.get v != F.PG_CTL_Follow.get old)
  let v := if clash then F.PG_CTL_Mode.put (F.PG_CTL_Follow.put v (F.PG_CTL_Follow.get old)) (F.PG_CTL_Mode.get old) else v
  let s := s.plainWrite (Reg.PG_CTL n) v
  let s := if clash then pgFlag n F.PG_STAT_WriteRefused s else s
  let s := if F.PG_CTL_Enable.get v = 0 && ((s.pg n).run.isSome || (s.pg n).chain) then pgAbort n s else s
  if (s.pg n).idle != idleReg n s then s.setPg n { s.pg n with reIdle := true } else s

/-- A write to PG_SEQSEL(n) (R72). -/
def writePgSeqsel (n : Nat) (v : Word) (s : State) : State :=
  (s.plainWrite (Reg.PG_SEQSEL n) v).setPg n { s.pg n with bankPend := some (F.PG_SEQSEL_NextBank.get v) }

/-- A write to PG_SEQ(n,b,i) (R72). -/
def writePgSeq (n b i : Nat) (v : Word) (s : State) : State :=
  if (s.pg n).run.isSome && (s.pg n).bank = b then pgFlag n F.PG_STAT_WriteRefused s
  else s.plainWrite (Reg.PG_SEQ n b i) v

/-- A write to PG_TRIPCTL(n): it acts from the next assertion (R76). -/
def writePgTripCtl (n : Nat) (v : Word) (s : State) : State :=
  s.plainWrite (Reg.PG_TRIPCTL n) (if F.PG_TRIPCTL_Policy.get v = 3 then F.PG_TRIPCTL_Policy.put v 2 else v)

/-- A write to PG_TRIP(n,i). -/
def writePgTrip (n i : Nat) (v : Word) (s : State) : State := tripEval n (s.plainWrite (Reg.PG_TRIP n i) v)

/-- PG_STAT(n) as the generator stands. -/
def pgStat (n : Nat) (s : State) : Word :=
  let x := s.pg n
  let w := F.PG_STAT_Running.put (s.reg (Reg.PG_STAT n)) (b2n x.run.isSome)
  let w := F.PG_STAT_Tripped.put w (b2n (pgTripped n s))
  let w := F.PG_STAT_Held.put w (b2n (x.held || s.clock.clockLost))
  F.PG_STAT_ActiveBank.put (F.PG_STAT_Pending.put w (b2n x.chain)) x.bank

/-- Does an active pulse of the timing start in this tick (R162)? -/
def pgPulseStarts (n : Nat) (s : State) : Bool :=
  let x := s.pg n
  match x.run with
  | none => false
  | some r =>
    if r.begun = 0 then false
    else if r.mode = 3 then
      let l := seqOf n x s
      let o := s.tick - r.cyc
      l.any (fun w => F.PG_SEQ_Offset.get w = o) && seqLevel l o r.carry != x.idle &&
        (if o = 0 then r.carry = x.idle else seqLevel l (o - 1) r.carry = x.idle)
    else r.cyc = s.tick && decide (0 < r.width)

/-! ### The commands -/

/-- PG_SOFTWARE_START: a write to PG_CMD(n) with Start 1. -/
def execPgSoftwareStart (n : Nat) (v : Word) (s : State) : Out := .next (writePgCmd n (F.PG_CMD_Start.put v 1) s)

/-- PG_CYCLE_START. -/
def execPgCycleStart (n : Nat) (s : State) : Out := .next (pgCycleStart n s)

/-- PG_RUN_END. -/
def execPgRunEnd (n : Nat) (s : State) : Out := .next (pgRunEnd n s)

/-- PG_STOP: a write to PG_CMD(n) with Stop 1. -/
def execPgStop (n : Nat) (v : Word) (s : State) : Out := .next (writePgCmd n (F.PG_CMD_Stop.put v 1) s)

/-- PG_ABORT: a write to PG_CMD(n) with Abort 1. -/
def execPgAbort (n : Nat) (v : Word) (s : State) : Out := .next (writePgCmd n (F.PG_CMD_Abort.put v 1) s)

/-- PG_REARM: a write to PG_CMD(n) with Rearm 1. -/
def execPgRearm (n : Nat) (v : Word) (s : State) : Out := .next (writePgCmd n (F.PG_CMD_Rearm.put v 1) s)

/-- PG_CTL_WRITE. -/
def execPgCtlWrite (n : Nat) (v : Word) (s : State) : Out := .next (writePgCtl n v s)

/-- PG_SHADOW_WRITE: a write to PG_WIDTH(n) (`width`) or to PG_PERIOD(n). -/
def execPgShadowWrite (n : Nat) (width : Bool) (v : Word) (s : State) : Out :=
  .next (s.plainWrite (if width then Reg.PG_WIDTH n else Reg.PG_PERIOD n) v)

/-- PG_SEQSEL_WRITE. -/
def execPgSeqselWrite (n : Nat) (v : Word) (s : State) : Out := .next (writePgSeqsel n v s)

/-- PG_SEQ_WRITE. -/
def execPgSeqWrite (n b i : Nat) (v : Word) (s : State) : Out := .next (writePgSeq n b i v s)

/-- TRIP_RELEASE. -/
def execTripRelease (n : Nat) (s : State) : Out := .next (tripRelease n s)

end Sys2Proof.Machine
end

