-- ==== Sys2Proof/Machine/Lio.lean ====
section
/-!
DEFINITION. Line I/O pins (chapter 18): pad levels and thresholds, bank supplies, output latches, owners,
and the serial units.
-/
namespace Sys2Proof.Machine

/-! ### Levels -/

/-- Level of LIO_BANKSTAT in mV; none while not measured (R413). -/
def bankMv (code : Nat) : Option Int :=
  if code = 1 then some 1800 else if code = 2 then some 2500 else if code = 3 then some 3300 else none

/-- The fixed thresholds of R414 in mV; none for LVCMOS. -/
def fixedThreshold (code : Nat) : Option Int :=
  if code = 1 then some 800 else if code = 2 then some 1200 else if code = 3 then some 1600
  else if code = 4 then some 2000 else none

/-- The threshold that acts on a pin, in mV (R414). -/
def thresholdMv (cfg : Word) (bank : Nat) : Option Int :=
  match bankMv bank with
  | none => none
  | some v =>
    match fixedThreshold (F.LIO_CFG_Threshold.get cfg) with
    | some t => some t
    | none => some (if v = 1800 then 900 else if v = 2500 then 1200 else 1400)

def bankLevel (pin : Nat) (s : State) : Nat := s.fld (Reg.LIO_BANKSTAT (pin / 32)) F.LIO_BANKSTAT_Level

def bankValid (pin : Nat) (s : State) : Bool := s.bit (Reg.LIO_BANKSTAT (pin / 32)) F.LIO_BANKSTAT_Valid

def pinCfg (pin : Nat) (s : State) : Word := s.reg (Reg.LIO_CFG pin)

/-- Analog, OutEnable and CueDrive of a configuration, as a number. -/
def lateBits (w : Word) : Nat :=
  F.LIO_CFG_Analog.get w + 2 * F.LIO_CFG_OutEnable.get w + 4 * F.LIO_CFG_CueDrive.get w

/-- The configuration in effect: Analog, OutEnable and CueDrive follow a write at the next FAB edge (R423). -/
def effCfg (pin : Nat) (s : State) : Word :=
  match s.lio.late.get 0 pin with
  | 0 => pinCfg pin s
  | b + 1 => F.LIO_CFG_CueDrive.put (F.LIO_CFG_OutEnable.put (F.LIO_CFG_Analog.put (pinCfg pin s) (b % 2)) (b / 2 % 2)) (b / 4)

/-- The thresholded level of a pad, from its voltage, configuration and last level (R414, R418). A pad that
nothing drives takes its pull's level, keeps its last level under the keeper, and reads `open'` without a pull. -/
def padLevel (mv : Option Int) (cfg : Word) (bank : Nat) (last open' : Bool) : Bool :=
  match mv with
  | none =>
    let p := F.LIO_CFG_Pull.get cfg
    if p = 1 then true else if p = 2 then false else if p = 3 then last else open'
  | some v =>
    match thresholdMv cfg bank with
    | none => false
    | some t =>
      if F.LIO_CFG_Schmitt.get cfg = 1 then
        if last then decide (t - 75 < v) else decide (t + 75 ≤ v)
      else decide (t ≤ v)

/-- The level that LIO_IN, a cue source and an owner see: 0 with Analog 1 or without bank supply (R38, R413, R415). -/
def pinLevel (pin : Nat) (s : State) : Bool :=
  bankValid pin s && F.LIO_CFG_Analog.get (effCfg pin s) = 0 && s.lio.lvl.get false pin

/-! ### What the part drives (R413, R415, R416, R421, R423) -/

/-- The owner of a pin: its code and unit. -/
def ownerOf (pin : Nat) (s : State) : Nat × Nat :=
  (s.fld (Reg.LIO_OWNER pin) F.LIO_OWNER_Owner, s.fld (Reg.LIO_OWNER pin) F.LIO_OWNER_Unit)

/-- Does plain I/O own the pin? -/
def plainOwned (pin : Nat) (s : State) : Bool := s.fld (Reg.LIO_OWNER pin) F.LIO_OWNER_Owner = 6

/-- Cycles n and n + 1 of R423: the pin is high-impedance. -/
def ownerSwitching (pin : Nat) (s : State) : Bool :=
  let c := s.lio.chg.get 0 pin
  decide (0 < c) && decide (s.tick < c - 1 + 8)

/-- What plain I/O drives onto a pin: none is high-impedance (R413, R415, R416). -/
def plainDrive (pin : Nat) (s : State) : Option Bool :=
  let c := effCfg pin s
  let l := (s.reg (Reg.LIO_DATA (pin / 32))).getLsbD (pin % 32)
  if !bankValid pin s || F.LIO_CFG_Analog.get c = 1 || F.LIO_CFG_OutEnable.get c = 0 then none
  else if F.LIO_CFG_OpenDrain.get c = 1 && l then none else some l

/-- What the owner drives onto the pin: none is high-impedance. The lines of serial units and of Sleeves are known
from outside only. -/
def pinDrive (pin : Nat) (s : State) : Option Bool :=
  if ownerSwitching pin s then none
  else if plainOwned pin s then plainDrive pin s
  else if !bankValid pin s || F.LIO_CFG_Analog.get (effCfg pin s) = 1 then none
  else
    match s.lio.gen.get 0 pin with
    | 0 => none
    | m + 1 => if (ownerOf pin s).1 = 1 then some (pgLevel m s.tick s) else none

/-- Nothing drives the pin and nothing holds it: its level is undefined (R418). -/
def floating (pin : Nat) (s : State) : Bool :=
  (pinDrive pin s).isNone && (s.lio.pads.get none pin).isNone && !ownerSwitching pin s && F.LIO_CFG_Pull.get (pinCfg pin s) = 0

/-- The level that the pad has: the part's own drive, else the outside's, else the pull or the keeper, which holds
the pad while the owner changes. `open'` stands for the level of a floating pin. -/
def levelNow (pin : Nat) (open' : Bool) (s : State) : Bool :=
  let last := s.lio.lvl.get false pin
  match pinDrive pin s with
  | some l => l
  | none =>
    if ownerSwitching pin s && (s.lio.pads.get none pin).isNone then last
    else padLevel (s.lio.pads.get none pin) (pinCfg pin s) (bankLevel pin s) last open'

/-- The pad's thresholded level is formed anew. That of a floating pin is a free value. -/
def relevel (pin : Nat) (s : State) : State :=
  let (w, s) := if floating pin s then s.takeFree else (0, s)
  { s with lio := { s.lio with lvl := s.lio.lvl.set false pin (levelNow pin (w.getLsbD 0) s) } }

/-- The pad follows what drives it now; a change is an edge at the pin's cue source. DESIGN CHOICE (log entry 228):
an edge that the part itself drives is sampled in the tick of the change, with fraction 0. -/
def refreshPin (pin : Nat) (s : State) : State :=
  let s := relevel pin s
  sourceLevel pin (pinLevel pin s) 0 s

def setPad (pin : Nat) (mv : Option Int) (s : State) : State :=
  { s with lio := { s.lio with pads := s.lio.pads.set none pin mv } }

/-- The level now seen becomes the source's reference, without an edge (R38). -/
def quietLevel (pin : Nat) (s : State) : State := setSrcLevel pin (pinLevel pin s) s

/-! ### Flags -/

/-- Sets WriteRefused or Contested for a pin: LastPin names it (R414, R420, R427). -/
def lioPinFlag (f : Fld) (bit pin : Nat) (s : State) : State :=
  (s.setFld Reg.LIO_FLAGS F.LIO_FLAGS_LastPin pin).flag Reg.LIO_FLAGS f
    (bitN (s.fld Reg.LIO_FLAGS F.LIO_FLAGS_FlagEvent) bit) (768 + pin / 8)

/-! ### Configuration and bank supplies -/

/-- The values that LIO_CFG stores in place of reserved ones. -/
def fixLioCfg (v : Word) : Word :=
  let v := if 4 < F.LIO_CFG_Threshold.get v then F.LIO_CFG_Threshold.put v 0 else v
  let v := if F.LIO_CFG_Drive.get v = 3 then F.LIO_CFG_Drive.put v 2 else v
  if 0x28 < F.LIO_CFG_Func.get v then F.LIO_CFG_Func.put v 0 else v

/-- Does the configuration select a fixed threshold at or above the bank's Level (R414)? -/
def badThreshold (cfg : Word) (bank : Nat) : Bool :=
  match bankMv bank, fixedThreshold (F.LIO_CFG_Threshold.get cfg) with
  | some v, some t => decide (v ≤ t)
  | _, _ => false

/-- The three late bits of a pin come into effect (R423). A change of Analog makes no edge; another change may. -/
def lateCfg (pin : Nat) (s : State) : State :=
  let was := F.LIO_CFG_Analog.get (effCfg pin s)
  let s := relevel pin { s with lio := { s.lio with late := s.lio.late.set 0 pin 0 } }
  if was != F.LIO_CFG_Analog.get (effCfg pin s) then quietLevel pin s else sourceLevel pin (pinLevel pin s) 0 s

/-- A write to LIO_CFG(pin) (R414, R415, R423). -/
def writeLioCfg (pin : Nat) (v : Word) (s : State) : State :=
  let v := fixLioCfg v
  if badThreshold v (bankLevel pin s) then lioPinFlag F.LIO_FLAGS_WriteRefused 2 pin s
  else
    let was := lateBits (effCfg pin s)
    let s := s.plainWrite (Reg.LIO_CFG pin) v
    let late := if was = lateBits v then 0 else was + 1
    refreshPin pin { s with lio := { s.lio with late := s.lio.late.set 0 pin late } }

/-- A pin when its bank's supply changes: a threshold found at or above a Level just measured becomes LVCMOS
with WriteRefused, and the level seen becomes the reference (R38, R413, R414). -/
def pinSupply (pin : Nat) (s : State) : State :=
  let s := if badThreshold (pinCfg pin s) (bankLevel pin s) then
      lioPinFlag F.LIO_FLAGS_WriteRefused 2 pin
        (s.setReg (Reg.LIO_CFG pin) (F.LIO_CFG_Threshold.put (pinCfg pin s) 0))
    else s
  quietLevel pin (relevel pin s)

/-- The supply of bank `b` becomes valid or stops being valid (R413). -/
def bankSupply (b : Nat) (valid : Bool) (level : Nat) (s : State) : State :=
  let s := s.putBit (Reg.LIO_BANKSTAT b) F.LIO_BANKSTAT_Valid valid
  let s := if valid && s.fld (Reg.LIO_BANKSTAT b) F.LIO_BANKSTAT_Level = 0 then
      s.setFld (Reg.LIO_BANKSTAT b) F.LIO_BANKSTAT_Level (clampNat 1 3 level) else s
  (List.range 32).foldl (fun s i => pinSupply (32 * b + i) s) s

/-! ### Latches (R416, R417) -/

/-- What a latch write leaves in the latch (R416). -/
def LatchOp.apply (op : LatchOp) (old v : Word) : Word :=
  match op with
  | .data => v
  | .set => old ||| v
  | .clr => old &&& ~~~ v
  | .tgl => old ^^^ v

/-- A write of bank `b`'s latch: the pins that plain I/O drives follow the bits that change. -/
def writeLatch (op : LatchOp) (b : Nat) (v : Word) (s : State) : State :=
  let old := s.reg (Reg.LIO_DATA b)
  let new := op.apply old v
  (List.range 32).foldl (fun s i =>
    if old.getLsbD i != new.getLsbD i && plainOwned (32 * b + i) s && F.LIO_CFG_OutEnable.get (effCfg (32 * b + i) s) = 1 then
      refreshPin (32 * b + i) s
    else s) (s.setReg (Reg.LIO_DATA b) new)

/-- A register write of a latch waits for the next FAB edge (R416). -/
def queueLatch (op : LatchOp) (b : Nat) (v : Word) (s : State) : State :=
  { s with lio := { s.lio with writes := s.lio.writes ++ [(op, b, v)] } }

/-- At a FAB edge the writes that have reached the block take effect, before the cue effects of the tick (R416,
R417, R423). -/
def fabLio (s : State) : State :=
  if s.tick % 4 != 0 then s
  else
    let ws := s.lio.writes
    let s := { s with lio := { s.lio with writes := [] } }
    s.lio.late.keys.foldl (fun s pin => lateCfg pin s) (ws.foldl (fun s w => writeLatch w.1 w.2.1 w.2.2 s) s)

/-- A cue effect at the direct target of a pin (R50, R417): SET, CLEAR or TOGGLE of the latch bit, or the
level carried under FOLLOW. It is dropped with NotOwner unless plain I/O owns the pin with CueDrive 1. -/
def lioCueAction (pin action : Nat) (level : Option Bool) (s : State) : State :=
  if plainOwned pin s && F.LIO_CFG_CueDrive.get (effCfg pin s) = 1 then
    let m : Word := BitVec.ofNat 32 (2 ^ (pin % 32))
    let op : LatchOp := match level with
      | some true => .set
      | some false => .clr
      | none => if action = 0 then .set else if action = 1 then .clr else .tgl
    writeLatch op (pin / 32) m s
  else targetFlag (640 + pin) F.CQ_TSTAT_NotOwner s

/-! ### Owners (R419 to R423) -/

/-- The instances of a register listed with a value that meets `p`, in rising order. -/
def listed (first stride count : Nat) (s : State) (p : Nat → Word → Bool) : List Nat :=
  s.regs.filterMap (fun c =>
    let o := c.1 - first
    if first ≤ c.1 && o / stride < count && o % stride = 0 && p (o / stride) c.2 then some (o / stride) else none)

def pgClaims (pin : Nat) (s : State) : List Nat :=
  listed (Reg.PG_OUT 0) 0x800 512 s (fun _ w => F.PG_OUT_PinEnable.get w = 1 && F.PG_OUT_Pin.get w = pin)

def encClaims (pin : Nat) (s : State) : List Nat :=
  listed (Reg.ENC_CTL 0) 0x100 32 s (fun e w =>
    let p := s.reg (Reg.ENC_PINS e)
    F.ENC_CTL_Enable.get w = 1 && (F.ENC_PINS_PinA.get p = pin || F.ENC_PINS_PinB.get p = pin ||
      (F.ENC_CTL_IndexEnable.get w = 1 && F.ENC_PINS_PinZ.get p = pin)))

def headClaims (pin : Nat) (s : State) : List Nat :=
  listed (Reg.HD_CTL 0) 0x8000 32 s (fun _ w => F.HD_CTL_AuxEnable.get w = 1 && F.HD_CTL_AuxPin.get w = pin)

/-- The serial unit that a Func code belongs to: UARTs 0 to 7, SPI 8 to 11, I²C 12 to 15. -/
def funcUnit (f : Nat) : Option Nat :=
  if f = 0 then none
  else if f ≤ 0x10 then some ((f - 1) / 2)
  else if f ≤ 0x20 then some (8 + (f - 0x11) / 4)
  else if f ≤ 0x28 then some (12 + (f - 0x21) / 2)
  else none

def serialEnabled (u : Nat) (s : State) : Bool :=
  if u < 8 then s.bit (Reg.LIO_UCTL u) F.LIO_UCTL_Enable
  else if u < 12 then s.bit (Reg.LIO_SCTL (u - 8)) F.LIO_SCTL_Enable
  else s.bit (Reg.LIO_ICTL (u - 12)) F.LIO_ICTL_Enable

/-- The owner of a pin by the ranks of R419: its code and unit, and whether a tie holds at its rank (R420). -/
def rankOwner (pin : Nat) (s : State) : Nat × Nat × Bool :=
  match pgClaims pin s with
  | m :: rest => (1, m % 256, !rest.isEmpty)
  | [] =>
  match encClaims pin s with
  | e :: rest => (2, e, !rest.isEmpty)
  | [] =>
  match headClaims pin s with
  | h :: rest => (3, h, !rest.isEmpty)
  | [] =>
  match funcUnit (F.LIO_CFG_Func.get (pinCfg pin s)) with
  | some u =>
    if serialEnabled u s then (4, u, false)
    else if (s.reg (Reg.CFG_SLVIO (pin / 16))).getLsbD (pin % 16) then (5, pin / 16, false) else (6, 0, false)
  | none => if (s.reg (Reg.CFG_SLVIO (pin / 16))).getLsbD (pin % 16) then (5, pin / 16, false) else (6, 0, false)

/-- The level that a pin gives the block that owns it: from cycle n + 1 of its ownership (R421, R423), else
the default. -/
def ownedInput (pin code unit : Nat) (dflt : Bool) (s : State) : Bool :=
  let c := s.lio.chg.get 0 pin
  if ownerOf pin s = (code, unit) && (c = 0 || decide (c - 1 + 4 ≤ s.tick)) &&
      bankValid pin s && F.LIO_CFG_Analog.get (effCfg pin s) = 0 then s.lio.lvl.get false pin
  else dflt

/-- The pins owned by a serial unit that carry the signal of code `f`, in rising order. -/
def signalPins (f : Nat) (s : State) : List Nat :=
  listed (Reg.LIO_CFG 0) 4 256 s (fun pin w =>
    F.LIO_CFG_Func.get w = f && s.fld (Reg.LIO_OWNER pin) F.LIO_OWNER_Owner = 4)

/-- The Func codes whose signal a serial unit takes in: RX, MISO, SCL and SDA. -/
def isInputSignal (f : Nat) : Bool :=
  (decide (2 ≤ f) && decide (f ≤ 0x10) && f % 2 = 0) ||
  (decide (0x11 ≤ f) && decide (f ≤ 0x20) && (f - 0x11) % 4 = 2) ||
  (decide (0x21 ≤ f) && decide (f ≤ 0x28))

def setClash (l : List Nat) (s : State) : State := { s with lio := { s.lio with clash := l } }

/-- A second owned pin carries an input signal: the signal takes its default and Conflict names the pins, once for
as long as two of them carry it (R422). -/
def serialConflict (pin : Nat) (s : State) : State :=
  let f := F.LIO_CFG_Func.get (pinCfg pin s)
  let s := if s.lio.clash.isEmpty then s else setClash (s.lio.clash.filter (fun g => decide (2 ≤ (signalPins g s).length))) s
  if !isInputSignal f || s.lio.clash.contains f then s
  else
    match signalPins f s with
    | a :: b :: _ =>
      let w := F.LIO_CONFLICT_Signal.put (F.LIO_CONFLICT_PinA.put (F.LIO_CONFLICT_PinB.put 0 b) a) f
      ((setClash (f :: s.lio.clash) s).setReg Reg.LIO_CONFLICT w).flag Reg.LIO_FLAGS F.LIO_FLAGS_Conflict
        (bitN (s.fld Reg.LIO_FLAGS F.LIO_FLAGS_FlagEvent) 0) (768 + a / 8)
    | _ => s

/-- The owner evaluation of one pin at a FAB edge (R420 to R423). -/
def evalOwner (pin : Nat) (s : State) : State :=
  if s.tick % 4 != 0 then s else
  let (code, unit, tie) := rankOwner pin s
  let was := s.lio.tie.get false pin
  let gen := if code = 1 then ((pgClaims pin s).head?.getD 0) + 1 else 0
  let changed := decide (ownerOf pin s ≠ (code, unit)) || s.lio.gen.get 0 pin != gen
  let s := { s with lio := { s.lio with tie := s.lio.tie.set false pin tie } }
  let s := if tie && !was then lioPinFlag F.LIO_FLAGS_Contested 1 pin s else s
  let s := if changed then
      let s := (s.setFld (Reg.LIO_OWNER pin) F.LIO_OWNER_Owner code).setFld (Reg.LIO_OWNER pin) F.LIO_OWNER_Unit unit
      refreshPin pin { s with lio := { s.lio with chg := s.lio.chg.set 0 pin (s.tick + 1), gen := s.lio.gen.set 0 pin gen } }
    else s
  serialConflict pin s

/-- LIO_OWNER(pin) as it reads. -/
def ownerWord (pin : Nat) (s : State) : Word :=
  F.LIO_OWNER_Switching.put (s.reg (Reg.LIO_OWNER pin)) (b2n (ownerSwitching pin s))

/-- LIO_IN(b): an undriven pin without a pull may read either way (R418). -/
def readLioIn (b : Nat) (s : State) : Word × State :=
  let isOpen (i : Nat) : Bool :=
    let pin := 32 * b + i
    floating pin s && bankValid pin s && F.LIO_CFG_Analog.get (effCfg pin s) = 0
  let openMask := (List.range 32).foldl (fun m i => m + (if isOpen i then 2 ^ i else 0)) 0
  let lv := (List.range 32).foldl (fun m i => m + (if pinLevel (32 * b + i) s then 2 ^ i else 0)) 0
  if openMask = 0 then (BitVec.ofNat 32 lv, s)
  else
    let (w, s) := s.takeFree
    ((BitVec.ofNat 32 lv &&& ~~~ BitVec.ofNat 32 openMask) ||| (w &&& BitVec.ofNat 32 openMask), s)

/-! ### Serial units (R424 to R427) -/

/-- The lowest owned pin that carries a signal of the unit (R427). -/
def unitPin (u : Nat) (s : State) : Option Nat :=
  (listed (Reg.LIO_CFG 0) 4 256 s (fun pin w =>
    funcUnit (F.LIO_CFG_Func.get w) = some u && ownerOf pin s = (4, u))).head?

/-- Sets a flag of a serial unit and raises its event where enabled (R427). -/
def unitFlag (a : Nat) (f : Fld) (u : Nat) (en : Bool) (s : State) : State :=
  match unitPin u s with
  | some p => s.flag a f en (768 + p / 8)
  | none => s.setBit a f

/-- Exactly one owned pin carries the input signal, so it comes from a pad (R421, R422). -/
def signalFed (f : Nat) (s : State) : Bool := (signalPins f s).length = 1

def State.uart (s : State) (u : Nat) : Uart := s.lio.uarts.get ⟨[], []⟩ u

def State.setUart (s : State) (u : Nat) (x : Uart) : State :=
  { s with lio := { s.lio with uarts := s.lio.uarts.set ⟨[], []⟩ u x } }

def State.spi (s : State) (i : Nat) : Spi := s.lio.spis.get ⟨[], []⟩ i

def State.setSpi (s : State) (i : Nat) (x : Spi) : State :=
  { s with lio := { s.lio with spis := s.lio.spis.set ⟨[], []⟩ i x } }

def State.i2c (s : State) (i : Nat) : I2c := s.lio.i2cs.get I2c.init i

def State.setI2c (s : State) (i : Nat) (x : I2c) : State :=
  { s with lio := { s.lio with i2cs := s.lio.i2cs.set I2c.init i x } }

def uartFlag (u : Nat) (f : Fld) (s : State) : State :=
  unitFlag (Reg.LIO_USTAT u) f u (s.bit (Reg.LIO_UCTL u) F.LIO_UCTL_EvEnable) s

/-- A write to LIO_UDATA pushes a byte, or sets TxOverrun where the FIFO holds 16 (R424). -/
def uartPush (u : Nat) (v : Word) (s : State) : State :=
  let x := s.uart u
  if 16 ≤ x.tx.length then uartFlag u F.LIO_USTAT_TxOverrun s
  else s.setUart u { x with tx := x.tx ++ [v.setWidth 8] }

/-- A read of LIO_UDATA pops a byte with RxValid 1, or reads 0 (R424). -/
def uartPop (u : Nat) (s : State) : Word × State :=
  let x := s.uart u
  match x.rx with
  | [] => (0, s)
  | b :: rest => (b.setWidth 32 ||| 0x100, s.setUart u { x with rx := rest })

/-- A byte arrives at an enabled UART whose RX is fed (R424). The byte is kept whatever its stop and parity. -/
def uartArrive (u : Nat) (b : Byte) (noStop badParity : Bool) (s : State) : State :=
  if !(s.bit (Reg.LIO_UCTL u) F.LIO_UCTL_Enable && signalFed (2 + 2 * u) s) then s else
  let s := if noStop then uartFlag u F.LIO_USTAT_Framing s else s
  let s := if badParity && s.bit (Reg.LIO_UCTL u) F.LIO_UCTL_ParityEn then uartFlag u F.LIO_USTAT_Parity s else s
  let x := s.uart u
  if 16 ≤ x.rx.length then uartFlag u F.LIO_USTAT_RxOverrun s
  else s.setUart u { x with rx := x.rx ++ [b] }

/-- The oldest byte of an enabled UART has left (R424). -/
def uartSent (u : Nat) (s : State) : State :=
  if s.bit (Reg.LIO_UCTL u) F.LIO_UCTL_Enable then s.setUart u { s.uart u with tx := (s.uart u).tx.drop 1 } else s

/-- A write to LIO_SDATA pushes a byte (R425). A write to a full FIFO is dropped. -/
def spiPush (i : Nat) (v : Word) (s : State) : State :=
  let x := s.spi i
  if 16 ≤ x.tx.length then s else s.setSpi i { x with tx := x.tx ++ [v.setWidth 8] }

/-- A read of LIO_SDATA pops a received byte; an empty read returns 0 (R425). -/
def spiPop (i : Nat) (s : State) : Word × State :=
  let x := s.spi i
  match x.rx with
  | [] => (0, s)
  | b :: rest => (b.setWidth 32, s.setSpi i { x with rx := rest })

/-- Is a byte in transfer? The master sends none while the receive FIFO is full (R425). -/
def spiBusy (i : Nat) (s : State) : Bool :=
  s.bit (Reg.LIO_SCTL i) F.LIO_SCTL_Enable && !(s.spi i).tx.isEmpty && decide ((s.spi i).rx.length < 16)

/-- One byte sent and the byte received with it stored; MISO without a fed pin gives 0 (R421, R425). -/
def spiTransfer (i : Nat) (miso : Byte) (s : State) : State :=
  if spiBusy i s then
    let x := s.spi i
    s.setSpi i { tx := x.tx.drop 1, rx := x.rx ++ [if signalFed (0x13 + 4 * i) s then miso else 0] }
  else s

def i2cFlag (i : Nat) (f : Fld) (s : State) : State :=
  unitFlag (Reg.LIO_ISTAT i) f (12 + i) (s.bit (Reg.LIO_ICTL i) F.LIO_ICTL_EvEnable) s

/-- A write to LIO_IXFER: Go starts one transfer unless Busy (R426). -/
def writeIxfer (i : Nat) (v : Word) (s : State) : State :=
  let x := s.i2c i
  let s := s.plainWrite (Reg.LIO_IXFER i) v
  if F.LIO_IXFER_Go.get v = 1 && !x.busy && s.bit (Reg.LIO_ICTL i) F.LIO_ICTL_Enable then
    s.setI2c i { x with busy := true, wr := F.LIO_IXFER_WrLen.get v, rd := F.LIO_IXFER_RdLen.get v }
  else s

/-- A transfer ends with Done (R426): the bytes sent leave the FIFO, the bytes read enter it. -/
def i2cEnd (i sent : Nat) (rd : List Byte) (s : State) : State :=
  let x := s.i2c i
  i2cFlag i F.LIO_ISTAT_Done (s.setI2c i { I2c.init with
    fifo := (x.fifo.drop (Nat.min sent x.wr) ++ rd.take x.rd).take 16 })

def i2cDone (i sent : Nat) (rd : List Byte) (nack arbLost : Bool) (s : State) : State :=
  if !(s.i2c i).busy then s else
  let s := if nack then i2cFlag i F.LIO_ISTAT_Nack s else s
  let s := if arbLost then i2cFlag i F.LIO_ISTAT_ArbLost s else s
  i2cEnd i sent (if nack then [] else rd) s

def i2cStuck (i : Nat) (s : State) : State :=
  if !(s.i2c i).busy then s else i2cEnd i 0 [] (i2cFlag i F.LIO_ISTAT_BusStuck s)

/-- A write to LIO_IDATA pushes a byte; a full FIFO drops it. -/
def i2cPush (i : Nat) (v : Word) (s : State) : State :=
  let x := s.i2c i
  if 16 ≤ x.fifo.length then s else s.setI2c i { x with fifo := x.fifo ++ [v.setWidth 8] }

/-- A read of LIO_IDATA pops a byte. -/
def i2cPop (i : Nat) (s : State) : Word × State :=
  let x := s.i2c i
  match x.fifo with
  | [] => (0, s)
  | b :: rest => (b.setWidth 32, s.setI2c i { x with fifo := rest })

/-- LIO_UCTL: Div below 15 stores 15. LIO_SCTL: Div 0 stores 1. LIO_ICTL: Speed 0b11 stores 0b10. -/
def fixUctl (v : Word) : Word := F.LIO_UCTL_Div.put v (Nat.max 15 (F.LIO_UCTL_Div.get v))

def fixSctl (v : Word) : Word := F.LIO_SCTL_Div.put v (Nat.max 1 (F.LIO_SCTL_Div.get v))

def fixIctl (v : Word) : Word := F.LIO_ICTL_Speed.put v (Nat.min 2 (F.LIO_ICTL_Speed.get v))

/-- The status registers of the serial units with their FIFO levels. -/
def ustatWord (u : Nat) (s : State) : Word :=
  F.LIO_USTAT_RxLevel.put (F.LIO_USTAT_TxLevel.put (s.reg (Reg.LIO_USTAT u)) (s.uart u).tx.length) (s.uart u).rx.length

def sstatWord (i : Nat) (s : State) : Word :=
  F.LIO_SSTAT_Busy.put (F.LIO_SSTAT_RxLevel.put (F.LIO_SSTAT_TxLevel.put (s.reg (Reg.LIO_SSTAT i))
    (s.spi i).tx.length) (s.spi i).rx.length) (b2n (spiBusy i s))

def istatWord (i : Nat) (s : State) : Word := F.LIO_ISTAT_Busy.put (s.reg (Reg.LIO_ISTAT i)) (b2n (s.i2c i).busy)

/-! ### The commands -/

/-- OWNER_CHANGE: the owner evaluation of one pin. -/
def execOwnerChange (pin : Nat) (s : State) : Out := .next (evalOwner pin s)

/-- LIO_DATA_WRITE. -/
def execLioDataWrite (b : Nat) (v : Word) (s : State) : Out := .next (queueLatch .data b v s)

/-- LIO_SET. -/
def execLioSet (b : Nat) (v : Word) (s : State) : Out := .next (queueLatch .set b v s)

/-- LIO_CLR. -/
def execLioClr (b : Nat) (v : Word) (s : State) : Out := .next (queueLatch .clr b v s)

/-- LIO_TGL. -/
def execLioTgl (b : Nat) (v : Word) (s : State) : Out := .next (queueLatch .tgl b v s)

/-- LIO_CFG_WRITE. -/
def execLioCfgWrite (pin : Nat) (v : Word) (s : State) : Out := .next (writeLioCfg pin v s)

/-- BANK_SUPPLY_CHANGE. -/
def execBankSupplyChange (b : Nat) (valid : Bool) (level : Nat) (s : State) : Out :=
  .next (bankSupply b valid level s)

/-- UART_DATA_WRITE. -/
def execUartDataWrite (u : Nat) (v : Word) (s : State) : Out := .next (uartPush u v s)

/-- UART_DATA_READ. -/
def execUartDataRead (req : Req) (u : Nat) (s : State) : Out := .next ((uartPop u s).2.give req [(uartPop u s).1])

/-- UART_RECEIVE. -/
def execUartReceive (u : Nat) (b : Byte) (noStop badParity : Bool) (s : State) : Out :=
  .next (uartArrive u b noStop badParity s)

/-- UART_BYTE_SENT. -/
def execUartByteSent (u : Nat) (s : State) : Out := .next (uartSent u s)

/-- SPI_DATA_WRITE. -/
def execSpiDataWrite (i : Nat) (v : Word) (s : State) : Out := .next (spiPush i v s)

/-- SPI_DATA_READ. -/
def execSpiDataRead (req : Req) (i : Nat) (s : State) : Out := .next ((spiPop i s).2.give req [(spiPop i s).1])

/-- SPI_BYTE_DONE. -/
def execSpiByteDone (i : Nat) (miso : Byte) (s : State) : Out := .next (spiTransfer i miso s)

/-- I2C_GO: a write to LIO_IXFER(i) with Go 1. -/
def execI2cGo (i : Nat) (v : Word) (s : State) : Out := .next (writeIxfer i (F.LIO_IXFER_Go.put v 1) s)

/-- I2C_TRANSFER_DONE. -/
def execI2cTransferDone (i sent : Nat) (rd : List Byte) (nack arbLost : Bool) (s : State) : Out :=
  .next (i2cDone i sent rd nack arbLost s)

/-- I2C_BUS_STUCK. -/
def execI2cBusStuck (i : Nat) (s : State) : Out := .next (i2cStuck i s)

/-- I2C_DATA_READ. -/
def execI2cDataRead (req : Req) (i : Nat) (s : State) : Out := .next ((i2cPop i s).2.give req [(i2cPop i s).1])

end Sys2Proof.Machine
end

