-- ==== Sys2Proof/Machine/Head.lean ====
section
/-!
DEFINITION. Head ports (chapter 08, R158 to R178 and R182 to R185): profiles and framing, bands, the cycle
on the port, the audit scheduler, plan records, critical sets and the nozzle map.
-/
namespace Sys2Proof.Machine

/-! ### Profile (R158 to R161) -/

def hdEnabled (h : Nat) (s : State) : Bool := s.bit (Reg.HD_CTL h) F.HD_CTL_Enable

def hdSleeve (h : Nat) (s : State) : Bool := s.bit (Reg.HD_CTL h) F.HD_CTL_Source

def lanesOf (prof0 : Word) : Nat := 2 ^ F.HD_PROF0_Lanes.get prof0

def hdLanes (h : Nat) (s : State) : Nat := lanesOf (s.reg (Reg.HD_PROF0 h))

/-- BitsPerNozzle. -/
def hdBits (h : Nat) (s : State) : Nat := s.fld (Reg.HD_PROF0 h) F.HD_PROF0_BitsM1 + 1

def hdNozzles (h : Nat) (s : State) : Nat := s.fld (Reg.HD_PROF1 h) F.HD_PROF1_Nozzles

/-- BlockBytes (R160). -/
def blockBytes (h : Nat) (s : State) : Nat := 64 * ((hdNozzles h s * hdBits h s + 511) / 512)

/-- Bit `i` of a little-endian bit string. -/
def blockBit (block : List Byte) (i : Nat) : Bool := ((block[i / 8]?).getD 0).getLsbD (i % 8)

/-- The value v(n) of a nozzle of `b` bits (R160). -/
def nozzleValue (block : List Byte) (b n : Nat) : Nat :=
  (List.range b).foldl (fun x k => x + b2n (blockBit block (n * b + k)) * 2 ^ k) 0

/-- The value that a cycle shifts for nozzle `n`: AuditValue where the audit fills it (R170). -/
def shiftedValue (c : HCycle) (b n : Nat) : Nat :=
  match c.audits.find? (fun a => a.nozzle = n && a.filled) with
  | some a => a.value
  | none => nozzleValue c.block b n

/-- The `w` bits of a number in the order of BitOrder (R160). -/
def bitsOf (lsbFirst : Bool) (w x : Nat) : List Bool :=
  (List.range w).map (fun k => bitN x (if lsbFirst then k else w - 1 - k))

/-- The nozzles of a lane in the order in which it sends them (R160). -/
def laneNozzles (h lane : Nat) (s : State) : List Nat :=
  let per := hdNozzles h s / hdLanes h s
  let l := (List.range per).map (fun p =>
    if s.bit (Reg.HD_PROF0 h) F.HD_PROF0_LaneMap then lane * per + p else p * hdLanes h s + lane)
  if s.bit (Reg.HD_PROF0 h) F.HD_PROF0_NozzleOrder then l.reverse else l

/-- The bits that a data lane sends for a cycle: its nozzles, then the sense field on lane SelLane (R160). -/
def laneStream (h lane : Nat) (c : HCycle) (s : State) : List Bool :=
  let lsb := s.bit (Reg.HD_PROF0 h) F.HD_PROF0_BitOrder
  let data := if lane < hdLanes h s then
      (laneNozzles h lane s).flatMap (fun n => bitsOf lsb (hdBits h s) (shiftedValue c (hdBits h s) n))
    else List.replicate (hdNozzles h s / hdLanes h s * hdBits h s) false
  data ++ (if s.fld (Reg.HD_PROF2 h) F.HD_PROF2_SelLane = lane then bitsOf lsb 32 c.field.toNat
    else List.replicate 32 false)

/-- Ticks of one bit on a lane (R158). -/
def bitTicks (h : Nat) (s : State) : Nat := 2 ^ s.fld (Reg.HD_PROF0 h) F.HD_PROF0_RateDiv

/-- Length of a shift in ticks. -/
def shiftTicks (h : Nat) (s : State) : Nat :=
  (hdNozzles h s / hdLanes h s * hdBits h s + 32) * bitTicks h s

/-- Level of data lane `lane` of HDh in this tick: 0 outside a shift and while Enable is 0 (R158). The lanes of a
Sleeve-fed port are the Sleeve's own, and 0 while it is not running (R167). -/
def laneLevel (h lane : Nat) (s : State) : Bool :=
  if !hdEnabled h s then false
  else if hdSleeve h s then
    decide (s.fld (Reg.CFG_SLVSTAT (h / 2)) F.CFG_SLVSTAT_State = 1) && Config.sleeveLane h lane s.tick
  else match (s.head h).shifted, (s.head h).shiftEnd with
  | some c, some e =>
    decide (s.tick < e) &&
      ((laneStream h lane c s)[(s.tick + shiftTicks h s - e) / bitTicks h s]?).getD false
  | _, _ => false

/-- Level of clock lane HLCh in half `half` (0 or 1) of this tick: half the bit rate, its edges at the middle of each
bit; it runs in a shift, with CONTINUOUS whenever Enable is 1 (R158). Its phase outside a shift and the level it rests
at are the model's choice (log entry 244). -/
def clockLevel (h half : Nat) (s : State) : Bool :=
  let edges (u : Nat) : Bool := (u + bitTicks h s) / (2 * bitTicks h s) % 2 = 1
  if !hdEnabled h s then false
  else match (s.head h).shiftEnd with
  | some e =>
    if s.tick < e then edges (2 * (s.tick + shiftTicks h s - e) + half)
    else s.bit (Reg.HD_PROF0 h) F.HD_PROF0_ClockMode && edges (2 * s.tick + half)
  | none => s.bit (Reg.HD_PROF0 h) F.HD_PROF0_ClockMode && edges (2 * s.tick + half)

/-! ### Flags and reports -/

/-- A report of the port to the Ledger, where LedgerReport is 1. -/
def portReport (h f tag : Nat) (s : State) : State :=
  if s.bit (Reg.HD_CTL h) F.HD_CTL_LedgerReport then portMark h f tag s else s

/-- An underrun of a cycle of the band (R165, R13). -/
def underrunOf (h tag : Nat) (service : Bool) (s : State) : State :=
  let s := headFlag h F.HD_STAT_Underrun s
  if service then s else portReport h flagUnderrun tag s

/-! ### Band entries (R163, R164) -/

/-- What the port finds at an entry's place in the ring. -/
inductive HEntry where
  /-- Seq does not match, or no memory. -/
  | absent
  /-- The entry cannot be read, Cycles is 0 or DataBase is bad: it is skipped. -/
  | bad (tag : Option Nat)
  | posted (b : HBand)
  deriving DecidableEq, Repr

def entryAddr (h seq : Nat) (s : State) : Nat :=
  s.base48 (Reg.HD_BANDBASE_LO h) + 64 * (seq % 2 ^ s.fld (Reg.HD_BANDCFG h) F.HD_BANDCFG_SizeLog2)

/-- Is the address in a memory that a port reads? -/
def portReads (a : Nat) (s : State) : Bool :=
  match regionOf a s with
  | .store _ => true
  | .lpddr => fenceOk .other false a 1 s
  | _ => false

/-- What a read of `n` bytes by a head port leaves beside its data: uncorrectable words, a fenced region, a
retained Store, a row under test. -/
def portNotes (a n : Nat) (s : State) : State := touchRow a n (noteUes a n 6 (noteAsleep a (noteFence .other false a n s)))

def bandOf (seq a : Nat) (s : State) : HBand :=
  let w2 := (sysWord (a + 8) s).toNat
  let w64 := fun o => (sysWord (a + o) s).toNat + 2 ^ 32 * (sysWord (a + o + 4) s).toNat
  HBand.mk seq (sysWord (a + 4) s).toNat (w2 % 65536) (bitN w2 16) (bitN w2 18) (bitN w2 17)
    (w64 16 % 2 ^ 48) (w64 24) (w64 32)

/-- Is DataBase aligned and in a Cluster Store or the LPDDR5X region? -/
def dataBaseOk (a : Nat) (s : State) : Bool :=
  a % 64 = 0 && (match regionOf a s with
    | .store _ => true
    | .lpddr => true
    | _ => false)

/-- The entry of sequence `seq`. One in a frozen bank, whose read waits, is not there yet (R288). -/
def readEntry (h seq : Nat) (s : State) : HEntry :=
  let a := entryAddr h seq s
  if !portReads a s || frozenIn a 64 s then .absent
  else if anyPoison a 64 s then .bad none
  else if (sysWord a s).toNat != seq then .absent
  else
    let b := bandOf seq a s
    if b.cycles = 0 || !dataBaseOk b.base s then .bad (if b.service then none else some b.tag) else .posted b

def nextSeq (h : Nat) (s : State) : Nat := (s.reg (Reg.HD_NEXTSEQ h)).toNat

def setNextSeq (h n : Nat) (s : State) : State := s.setReg (Reg.HD_NEXTSEQ h) (BitVec.ofNat 32 n)

def seqAfter (n : Nat) : Nat := (n + 1) % 2 ^ 32

/-- The entry at HD_NEXTSEQ is left behind; what was read of it goes. -/
def passEntry (h : Nat) (s : State) : State :=
  let q := nextSeq h s
  let x := s.head h
  (setNextSeq h (q + 1) s).setHead h
    { x with ready := x.ready.filter (· != q), lines := x.lines.filter (fun l => l.seq != q) }

/-- A faulty entry is skipped (R164). -/
def skipEntry (h : Nat) (tag : Option Nat) (s : State) : State :=
  let s := portNotes (entryAddr h (nextSeq h s) s) 64 s
  let s := headFlag h F.HD_STAT_BandFault (passEntry h s)
  match tag with
  | some g => portReport h flagIncomplete g s
  | none => s

/-- The Start entry of a Tag is missed: the entries that follow with the same Tag are discarded where the port meets
them (R164, log entry 241). -/
def missTag (h tag : Nat) (s : State) : State :=
  s.setHead h { s.head h with missed := (tag :: (s.head h).missed).take 4096 }

/-- An entry becomes current; the band of a Tag without a record is reported (R182). -/
def becomeCurrent (h : Nat) (b : HBand) (s : State) : State :=
  let s := (s.setHead h { s.head h with cur := some b }).setFld (Reg.HD_BANDPOS h) F.HD_BANDPOS_Cycle 0
  if b.service || (findRec b.tag s).isSome then s
  else headFlag h F.HD_STAT_NoRecord (s.logPoint 1022 0x0B 0x00 b.tag)

/-- The port reads entries at a shift start without a current band (R164). -/
def findBand : Nat → Nat → State → State
  | 0, h, s => headFlag h F.HD_STAT_EmptyCycle s
  | k + 1, h, s =>
    let a := entryAddr h (nextSeq h s) s
    match readEntry h (nextSeq h s) s with
    | .absent => headFlag h F.HD_STAT_EmptyCycle (noteAsleep a (noteFence .other false a 64 s))
    | .bad tag => findBand k h (skipEntry h tag s)
    | .posted b =>
      if !b.service && (s.head h).missed.contains b.tag then findBand k h (passEntry h s)
      else if b.service || !b.start then becomeCurrent h b s
      else if s.lt < b.notBefore then s
      else if s.lt ≤ b.notAfter then becomeCurrent h b s
      else
        let s := missTag h b.tag (passEntry h s)
        findBand k h (portReport h flagIncomplete b.tag (headFlag h F.HD_STAT_StartMissed s))

/-! ### Ready words and the line buffer (R165) -/

/-- The bands that the port looks at: the one at HD_NEXTSEQ and, behind a current one, the next posted. -/
def bandsAhead (h : Nat) (s : State) : List HBand :=
  let q := nextSeq h s
  let next := fun q => match readEntry h q s with
    | .posted b => if !b.service && (s.head h).missed.contains b.tag then [] else [b]
    | _ => []
  match (s.head h).cur with
  | some b => b :: next (seqAfter q)
  | none => (next q).flatMap (fun b => b :: next (seqAfter q))

/-- Bands ahead whose Ready word has not matched. -/
def unready (h : Nat) (s : State) : List HBand :=
  (bandsAhead h s).filter (fun b => !(s.head h).ready.contains b.seq)

/-- The current band's Ready word is uncorrectable: the entry is skipped (R164, R284). -/
def skipCurrent (h : Nat) (s : State) : State :=
  match (s.head h).cur with
  | some b =>
    if s.poisoned (entryAddr h b.seq s + 12) then
      let s := skipEntry h (if b.service then none else some b.tag) s
      s.setHead h { s.head h with cur := none }
    else s
  | none => s

/-- One read of the Ready words. That of an entry ahead of the current one which is uncorrectable counts as not
matched; the entry is skipped when the port comes to it. -/
def readyPoll (h : Nat) (s : State) : State :=
  if hdEnabled h s && decide ((s.head h).poll ≤ s.tick) then
    let open' := (unready h s).filter (fun b => !frozenIn (entryAddr h b.seq s + 12) 4 s)
    let now := open'.filter (fun b =>
      let a := entryAddr h b.seq s + 12
      portReads a s && !s.poisoned a && (sysWord a s).toNat = b.seq)
    let s := open'.foldl (fun s b => portNotes (entryAddr h b.seq s + 12) 4 s) s
    let x := s.head h
    let s := s.setHead h { x with ready := x.ready ++ now.map (·.seq), poll := s.tick + 1600 }
    if open'.any (fun b => x.cur = some b) then skipCurrent h s else s
  else s

def latchPg (h : Nat) (s : State) : Nat := 16 * h + s.fld (Reg.HD_CTL h) F.HD_CTL_LatchPg

/-- The period in effect on the latch generator (R182). -/
def latchPeriod (h : Nat) (s : State) : Nat :=
  match (s.pg (latchPg h s)).run with
  | some r => r.period
  | none => (s.reg (Reg.PG_PERIOD (latchPg h s))).toNat

/-- LINETIME of the port's next shift start by the latch generator's period; now, before a latch timing edge. -/
def nextShiftLt (h : Nat) (s : State) : Nat :=
  let x := s.head h
  let at' := match x.shiftAt with
    | some t => t
    | none => if x.edge = 0 then s.tick else x.edge - 1 + latchPeriod h s + s.fld (Reg.HD_PROF1 h) F.HD_PROF1_ShiftDelay
  s.lt + (at' - s.tick)

/-- How many shifts from now, at least `k`, the first cycle of band `b` is shifted, by that prediction (log entry 242). -/
def cyclesTo (h k : Nat) (b : HBand) (s : State) : Nat :=
  let l := nextShiftLt h s
  let p := Nat.max 1 (latchPeriod h s)
  if b.service || !b.start || decide (b.notBefore ≤ l) then k else Nat.max k (1 + (b.notBefore - l + p - 1) / p)

/-- The cycles that the line buffer may hold: those of the bands ahead whose shift is one of the next four (R165). -/
def cyclesAhead (h : Nat) (s : State) : List (HBand × Nat) :=
  let pos := s.fld (Reg.HD_BANDPOS h) F.HD_BANDPOS_Cycle
  ((bandsAhead h s).foldl (fun (r : Nat × List (HBand × Nat)) b =>
    let isCur := (s.head h).cur.isSome && (s.head h).cur = some b
    let from' := if isCur then pos else 0
    let k := if isCur then r.1 else cyclesTo h r.1 b s
    (k + (b.cycles - from'), r.2 ++ ((List.range (5 - k)).map (fun i => (b, from' + i))).filter
      (fun c => decide (c.2 < b.cycles)))) (1, [])).2

/-- The next block to fetch, blocks in order. -/
def nextBlock (h : Nat) (s : State) : Option (HBand × Nat) :=
  match (cyclesAhead h s).find? (fun c => !(s.head h).lines.any (fun l => l.seq = c.1.seq && l.cycle = c.2)) with
  | some c => if (s.head h).ready.contains c.1.seq then some c else none
  | none => none

/-- Fetch of one block into the line buffer; one in a frozen bank waits (R288). -/
def blockFetch (h : Nat) (s : State) : State :=
  if hdEnabled h s && !hdSleeve h s then
    match nextBlock h s with
    | some (b, j) =>
      let n := blockBytes h s
      let a := b.base + j * n
      let x := s.head h
      let ok := portReads a s && portReads (a + n - 1) s && !anyPoison a n s
      if frozenIn a n s then s
      else portNotes a n (s.setHead h { x with lines := x.lines ++ [HLine.mk b.seq j (sysBytes a n s) ok] })
    | none => s
  else s

/-- What the next read of a Ready word, of a block or of the entry at HD_NEXTSEQ finds uncorrectable. -/
def readyBad (h : Nat) (ue : Bool) (s : State) : State :=
  match (s.head h).cur with
  | some b => if ue && hdEnabled h s && decide ((s.head h).poll ≤ s.tick) && (unready h s).contains b then foundBad [entryAddr h b.seq s + 12] s else s
  | none => s

def blockBad (h : Nat) (ue : Bool) (s : State) : State :=
  match nextBlock h s with
  | some (b, j) => if ue && hdEnabled h s && !hdSleeve h s then foundBad [b.base + j * blockBytes h s] s else s
  | none => s

def entryBad (h : Nat) (ue : Bool) (s : State) : State :=
  if ue && hdEnabled h s && (s.head h).shiftAt = some s.tick && (s.head h).cur.isNone &&
      portReads (entryAddr h (nextSeq h s) s) s then foundBad [entryAddr h (nextSeq h s) s] s else s

/-! ### Audit scheduler (R168 to R170) -/

/-- First member, step and number of the set of channel `i`. -/
def setShape (h i : Nat) (s : State) : Nat × Nat × Nat :=
  let n := hdNozzles h s
  let c := s.fld (Reg.HD_PROF2 h) F.HD_PROF2_SenseChannels
  if c = 2 then
    if s.bit (Reg.HD_PROF2 h) F.HD_PROF2_SenseSplit then (i, 2, n / 2) else (i * (n / 2), 1, n / 2)
  else if c = 1 && i = 0 then (0, 1, n)
  else (0, 1, 0)

def setMembers (h i : Nat) (s : State) : List Nat :=
  let (f, d, n) := setShape h i s
  (List.range n).map (fun k => f + d * k)

def inSet (h i m : Nat) (s : State) : Bool :=
  let (f, d, n) := setShape h i s
  decide (f ≤ m) && (m - f) % d = 0 && decide ((m - f) / d < n)

/-- The next member after `m`, wrapping. -/
def memberAfter (h i m : Nat) (s : State) : Nat :=
  let (f, d, n) := setShape h i s
  if (m - f) / d + 1 < n then m + d else f

/-- The bits of every member. -/
def setBits (h i : Nat) (s : State) : Nat := (setMembers h i s).foldl (fun x m => x + 2 ^ m) 0

/-- The first member not visited from `m` on. -/
def unvisited : Nat → Nat → Nat → Nat → Nat → State → Nat
  | 0, _, _, m, _, _ => m
  | k + 1, h, i, m, vis, s => if bitN vis m then unvisited k h i (memberAfter h i m s) vis s else m

/-- Pops priority entries up to one that is a member and not visited. -/
def popPrio (h i vis : Nat) (s : State) : List Nat → Option Nat × List Nat
  | [] => (none, [])
  | m :: rest => if inSet h i m s && !bitN vis m then (some m, rest) else popPrio h i vis s rest

def visOf (i : Nat) (x : Head) : Nat := if i = 0 then x.vis0 else x.vis1

def prioOf (i : Nat) (x : Head) : List Nat := if i = 0 then x.prio0 else x.prio1

def setAuditOf (i vis : Nat) (prio : List Nat) (x : Head) : Head :=
  if i = 0 then { x with vis0 := vis, prio0 := prio } else { x with vis1 := vis, prio1 := prio }

/-- The choice of one channel's nozzle (R169). -/
def auditSelect (h i : Nat) (s : State) : Option Nat × State :=
  let (_, _, size) := setShape h i s
  if s.fld (Reg.HD_PROF2 h) F.HD_PROF2_SenseChannels ≤ i || s.bit (Reg.HD_SENSE h i) F.HD_SENSE_Dead || size = 0 then
    (none, s)
  else
    let x := s.head h
    let (hit, rest) := popPrio h i (visOf i x) s (prioOf i x)
    let ptr := s.fld (Reg.HD_SWEEP h i) F.HD_SWEEP_Pointer
    let p := if hit.isSome then ptr else unvisited 4096 h i ptr (visOf i x) s
    let n := hit.getD p
    let vis := visOf i x ||| 2 ^ n
    let s := s.setFld (Reg.HD_SWEEP h i) F.HD_SWEEP_Pointer p
    if vis = setBits h i s then
      (some n, (s.setHead h (setAuditOf i 0 rest x)).setFld (Reg.HD_SWEEP h i) F.HD_SWEEP_SweepCount
        (s.fld (Reg.HD_SWEEP h i) F.HD_SWEEP_SweepCount + 1))
    else (some n, s.setHead h (setAuditOf i vis rest x))

/-- What is shifted for the selected nozzle (R170). A Sleeve's own data the port does not see. -/
def auditFill (h i n : Nat) (block : Option (List Byte)) (s : State) : HAudit × State :=
  let b := hdBits h s
  match block with
  | some l =>
    let v := nozzleValue l b n
    let a := s.fld (Reg.HD_PROF2 h) F.HD_PROF2_AuditValue
    if v = 0 && a != 0 then (HAudit.mk i n true (a % 2 ^ b), s) else (HAudit.mk i n false v, s)
  | none =>
    let (w, s) := s.takeFree
    (HAudit.mk i n (bitN w.toNat 8) (w.toNat % 2 ^ b), s)

/-- Both channels' selections for a cycle with data. -/
def auditCycle (h : Nat) (block : Option (List Byte)) (s : State) : List HAudit × State :=
  (List.range 2).foldl (fun r i =>
    match auditSelect h i r.2 with
    | (some n, s) =>
      let (a, s) := auditFill h i n block s
      (r.1 ++ [a], s)
    | (none, s) => (r.1, s)) ([], s)

/-- The sense field of the selections (R161). -/
def senseField (l : List HAudit) : Word :=
  BitVec.ofNat 32 (l.foldl (fun x a => x + (a.nozzle + 0x1000) * 2 ^ (16 * a.chan)) 0)

/-! ### Critical cycles (R183) -/

/-- The nozzles that a block fires. -/
def firedNozzles (h : Nat) (block : List Byte) (s : State) : List Nat :=
  (List.range (hdNozzles h s)).filter (fun n => nozzleValue block (hdBits h s) n != 0)

/-- A Critical cycle opens or extends its set and checks the map (R183). -/
def criticalCycle (h tag : Nat) (block : List Byte) (s : State) : State :=
  let x := s.head h
  if !x.sets.any (fun c => c.tag = tag) && decide (16 ≤ x.sets.length) then
    headFlag h F.HD_STAT_PcsFull (portMark h flagAuditGap tag s)
  else
    let fired := firedNozzles h block s
    let bits := fired.foldl (fun b n => b ||| 2 ^ n) 0
    let hor := ((findRec tag s).map (·.horizon)).getD 0x4C5
    let sets := if x.sets.any (fun c => c.tag = tag) then x.sets
      else x.sets ++ [HSet.mk tag s.lt s.lt s.lt 0 hor]
    let sets := sets.map (fun c => if c.tag = tag then
      { c with stop := s.lt, expiry := s.lt + 65536 * c.horizon, bits := c.bits ||| bits } else c)
    let s := s.setHead h { x with sets := sets }
    let s := if fired.any (fun n => failing (nmapClass h n s)) then portMark h flagAuditFail tag s else s
    if fired.any (fun n => nmapClass h n s = 0) then portMark h flagAuditGap tag s else s

/-! ### The shift (R162, R164, R165, R167) -/

def blankCycle : HCycle := HCycle.mk true 0 false 0 false false [] 0 []

/-- A high Ready border signal of a running Sleeve: its own level is the Sleeve's (R167). -/
def sleeveReady (h : Nat) (s : State) : Bool × State :=
  let (w, s') := s.takeFree
  if s.fld (Reg.CFG_SLVSTAT (h / 2)) F.CFG_SLVSTAT_State = 1 then (w.getLsbD 0, s') else (false, s)

/-- Is the cycle the last of its Tag on the port, as the ring stands? -/
def lastOfTag (h : Nat) (b : HBand) (s : State) : Bool :=
  match readEntry h (seqAfter b.seq) s with
  | .posted n => n.service || n.start || n.tag != b.tag
  | _ => true

/-- The port composes the next cycle of its band. -/
def bandCycle (h : Nat) (b : HBand) (s : State) : HCycle × State :=
  let j := s.fld (Reg.HD_BANDPOS h) F.HD_BANDPOS_Cycle
  let s := s.setFld (Reg.HD_BANDPOS h) F.HD_BANDPOS_Cycle (j + 1)
  let s := if b.service then s else updRec b.tag (fun r => { r with played := withFlag h r.played }) s
  let line := (s.head h).lines.find? (fun l => l.seq = b.seq && l.cycle = j)
  let s := s.setHead h { s.head h with
    lines := (s.head h).lines.filter (fun l => !(l.seq = b.seq && decide (l.cycle ≤ j))) }
  let last := decide (b.cycles ≤ j + 1)
  let tagEnds := last && lastOfTag h b s
  let cyc := fun under block audits =>
    HCycle.mk false b.tag b.service b.seq tagEnds under block (senseField audits) audits
  if hdSleeve h s then
    let (up, s) := sleeveReady h s
    let s := if b.critical && !b.service then portMark h flagAuditGap b.tag s else s
    if up then
      let (l, s) := auditCycle h none s
      (cyc false [] l, s)
    else (cyc true [] [], underrunOf h b.tag b.service s)
  else
    match line with
    | some l =>
      if l.ok then
        let (au, s) := auditCycle h (some l.block) s
        let s := if b.critical && !b.service then criticalCycle h b.tag l.block s else s
        (cyc false l.block au, s)
      else
        let s := if b.critical && !b.service then criticalCycle h b.tag [] s else s
        (cyc true [] [], underrunOf h b.tag b.service s)
    | none =>
      let s := if b.critical && !b.service then criticalCycle h b.tag [] s else s
      (cyc true [] [], underrunOf h b.tag b.service s)

/-- An entry that has just become current and was not ahead before (R164's missed entries stood before it) has
its Ready word and its first block read at once, so that an early Ready is no underrun (R165). -/
def firstReads (h : Nat) (s : State) : State :=
  match (s.head h).cur with
  | some b =>
    if (s.head h).ready.contains b.seq then s
    else blockFetch h (readyPoll h (s.setHead h { s.head h with poll := s.tick }))
  | none => s

/-- The shift of the next cycle begins. -/
def shiftStart (h : Nat) (s : State) : State :=
  if hdEnabled h s && (s.head h).shiftAt = some s.tick then
    let s := if (s.head h).cur.isNone then firstReads h (findBand 4096 h s) else s
    let (c, s) := match (s.head h).cur with
      | some b => bandCycle h b s
      | none => (blankCycle, s)
    s.setHead h { s.head h with shifted := some c, shiftAt := none, shiftEnd := some (s.tick + shiftTicks h s) }
  else s

/-- After its last cycle the band is over (R164). -/
def bandOver (h : Nat) (s : State) : State :=
  match (s.head h).cur with
  | some b =>
    if b.cycles ≤ s.fld (Reg.HD_BANDPOS h) F.HD_BANDPOS_Cycle then
      let s := passEntry h s
      s.setHead h { s.head h with cur := none }
    else s
  | none => s

/-- The shift in progress has ended. -/
def shiftEnd (h : Nat) (s : State) : State :=
  match (s.head h).shiftEnd with
  | some e => if e ≤ s.tick then bandOver h (s.setHead h { s.head h with shiftEnd := none }) else s
  | none => s

/-! ### The latch timing edge (R162, R171, R182) -/

def planCap (h : Nat) (s : State) : Nat := 2 ^ s.fld (Reg.HD_PLANCFG h) F.HD_PLANCFG_SizeLog2 / 16

/-- One audit plan record (R171). -/
def planRecord (h : Nat) (c : HCycle) (a : HAudit) (s : State) : State :=
  let wr := (s.reg (Reg.HD_PLANWR h)).toNat
  let size := s.fld (Reg.HD_PLANCFG h) F.HD_PLANCFG_SizeLog2
  let base := s.base48 (Reg.HD_PLANBASE_LO h)
  if ringHeld wr (s.reg (Reg.HD_PLANRD h)).toNat = planCap h s then headFlag h F.HD_STAT_PlanOverrun s
  else if inRingMemory (ringStart base size) (2 ^ size) s then
    let w0 := a.nozzle + 2 ^ 12 * a.chan + 2 ^ 13 * b2n a.filled + 2 ^ 14 * b2n c.service + 2 ^ 16 * a.value
    (s.hwPut 7 h (ringSlot base size 16 wr) [BitVec.ofNat 32 w0, if c.service then 0 else lowWord c.tag, lowWord s.lt,
      highWord s.lt]).setReg (Reg.HD_PLANWR h) (BitVec.ofNat 32 (wr + 1))
  else s

/-- The intervals at a latch timing edge at which `c` fires: one that would end later ends here, another
Tag's open one ends here. One of a Tag whose record is open may still go on; others long past are forgotten. -/
def tagEdge (h : Nat) (c : Option HCycle) (s : State) : State :=
  let t := s.tick
  let tagged := match c with
    | some c => if c.blank || c.service then none else some c
    | none => none
  let close := fun (x : HTag) =>
    match x.stop with
    | some e => if t < e then { x with stop := some t } else x
    | none => if tagged.any (fun c => c.tag != x.tag) then { x with stop := some t } else x
  let keep := fun (x : HTag) => match x.stop with
    | some e => decide (t < e + 16000) || (findRec x.tag s).any (fun r => !r.closed)
    | none => true
  let tags := ((s.head h).tags.map close).filter keep
  let since := fun (p : Nat × Nat) => tags.any (fun x => match x.stop with
    | some e => decide (e ≤ p.2)
    | none => false)
  let s := s.setHead h { s.head h with tags := tags, past := (s.head h).past.filter since }
  match tagged with
  | none => s
  | some c =>
    let s := fireTag h c.tag s
    if c.last then
      s.setHead h { s.head h with tags := (s.head h).tags.map (fun x =>
        if x.tag = c.tag && x.stop.isNone then { x with stop := some (t + latchPeriod h s) } else x) }
    else s

/-- A shift that the edge cuts off is an underrun, and its data is gone (R162). -/
def cutShift (h : Nat) (s : State) : State :=
  match (s.head h).shifted, (s.head h).shiftEnd with
  | some c, some e =>
    if s.tick < e then
      let s := headFlag h F.HD_STAT_ShiftOverrun s
      let s := if c.blank || c.under then s else underrunOf h c.tag c.service s
      bandOver h (s.setHead h { s.head h with
        shiftEnd := none, shifted := some { c with under := !c.blank, block := [], field := 0, audits := [] } })
    else shiftEnd h s
  | _, _ => s

/-- The latch timing edge: the head fires what was shifted, and the next shift is due ShiftDelay later. -/
def latchEdge (h : Nat) (s : State) : State :=
  if hdEnabled h s && pgPulseStarts (latchPg h s) s && (s.head h).edge != s.tick + 1 then
    let s := s.setReg (Reg.HD_CYCLES h) (s.reg (Reg.HD_CYCLES h) + 1)
    let s := if (s.head h).shiftAt.isSome then headFlag h F.HD_STAT_ShiftOverrun s else s
    let s := cutShift h s
    let c := (s.head h).shifted
    let s := s.setHead h { s.head h with
      edge := s.tick + 1, fired := c, shifted := none,
      shiftAt := some (s.tick + s.fld (Reg.HD_PROF1 h) F.HD_PROF1_ShiftDelay) }
    let s := match c with
      | some c => c.audits.foldl (fun s a => planRecord h c a s) s
      | none => s
    tagEdge h c s
  else s

/-! ### Enable, profile and the other registers -/

/-- AuxPin as the port sees it (R182): its active level opens a supervision span. -/
def auxEval (h : Nat) (s : State) : State :=
  let c := s.reg (Reg.HD_CTL h)
  let pol := F.HD_CTL_AuxPolarity.get c = 1
  let on := F.HD_CTL_AuxEnable.get c = 1 && F.HD_CTL_LedgerReport.get c = 1 &&
    ownedInput (F.HD_CTL_AuxPin.get c) 3 h (!pol) s = pol
  let was := (s.head h).aux
  let s := s.setHead h { s.head h with aux := on }
  if on && !was then openSpan h flagSupFault srcAux s
  else if was && !on then closeSpan h srcAux s
  else s

/-- The supply groups whose excursion is a span on every enabled port, and that are out of their windows (R435). -/
def groupsOut (s : State) : List Nat :=
  [0, 1, 2, 3, 6].filter (fun i => bitN (s.fld Reg.EVT_MONSUP F.EVT_MONSUP_OutNow) i)

/-- Each write of Enable 1 clears the visited bits and sets each pointer to its set's lowest member (R169). -/
def auditRestart (h : Nat) (s : State) : State :=
  let s := s.setHead h { s.head h with vis0 := 0, vis1 := 0 }
  (List.range 2).foldl (fun s i => s.setFld (Reg.HD_SWEEP h i) F.HD_SWEEP_Pointer (setShape h i s).1) s

/-- Enable goes from 0 to 1. A supply excursion in progress covers the port from here on. -/
def portOn (h : Nat) (s : State) : State :=
  let x := s.head h
  let s := s.setHead h { x with
    cur := none, shifted := none, fired := none, shiftAt := none, shiftEnd := none, edge := 0,
    lines := [], ready := [], poll := s.tick, missed := [] }
  let s := (s.setReg (Reg.HD_CYCLES h) 0).setFld (Reg.HD_BANDPOS h) F.HD_BANDPOS_Cycle 0
  (groupsOut s).foldl (fun s i => openSpan h flagSupFault (srcSupply i) s) s

/-- The Tags of the posted bands from sequence number `q` on. -/
def postedTags : Nat → Nat → Nat → State → List Nat
  | 0, _, _, _ => []
  | k + 1, h, q, s =>
    match readEntry h q s with
    | .posted b => (if b.service then [] else [b.tag]) ++ postedTags k h (seqAfter q) s
    | .bad g => g.toList ++ postedTags k h (seqAfter q) s
    | .absent => []

/-- A write of Enable 0 (R166): Incomplete for every band not finished. -/
def portOff (h : Nat) (s : State) : State :=
  let x := s.head h
  let cur := match x.cur with
    | some b => if b.service then [] else [b.tag]
    | none => []
  let s := if x.cur.isSome then passEntry h s else s
  let tags := (cur ++ postedTags (2 ^ s.fld (Reg.HD_BANDCFG h) F.HD_BANDCFG_SizeLog2) h (nextSeq h s) s).eraseDups
  let stop := x.edge - 1 + latchPeriod h s
  let s := s.setHead h { s.head h with
    cur := none, shifted := none, fired := none, shiftAt := none, shiftEnd := none, lines := [], ready := [],
    tags := x.tags.map (fun t => if t.stop.isNone then { t with stop := some stop } else t) }
  let s := s.setFld (Reg.HD_BANDPOS h) F.HD_BANDPOS_Cycle 0
  let s := (groupsOut s).foldl (fun s i => closeSpan h (srcSupply i) s) s
  tags.foldl (fun s g => portReport h flagIncomplete g s) s

/-- A write to HD_CTL(h). -/
def writeHdCtl (h : Nat) (v : Word) (s : State) : State :=
  let was := hdEnabled h s
  let on := F.HD_CTL_Enable.get v = 1
  let s := if was && !on then portOff h s else s
  let s := s.plainWrite (Reg.HD_CTL h) v
  let s := if on && !was then portOn h s else s
  auxEval h (if on then auditRestart h s else s)

/-- The profile words as they would stand. -/
def profileOk (p0 p1 : Word) : Bool :=
  let n := F.HD_PROF1_Nozzles.get p1
  n % 2 = 0 && decide (2 ≤ n) && decide (n ≤ 4096) && n % lanesOf p0 = 0

/-- A write to HD_PROF0(h) to HD_PROF2(h) (R159). -/
def writeProfile (h i : Nat) (v : Word) (s : State) : State :=
  let a := Reg.HD_PROF0 h + 4 * i
  let v := if i = 0 && F.HD_PROF0_Lanes.get v = 3 then F.HD_PROF0_Lanes.put v 2
    else if i = 2 && F.HD_PROF2_SenseChannels.get v = 3 then F.HD_PROF2_SenseChannels.put v 2 else v
  let s' := s.plainWrite a v
  if hdEnabled h s || !profileOk (s'.reg (Reg.HD_PROF0 h)) (s'.reg (Reg.HD_PROF1 h)) then
    headFlag h F.HD_STAT_ProfileRefused s
  else s'

/-- HD_BANDBASE, HD_PLANBASE and HD_NEXTSEQ: ignored while Enable is 1. -/
def writeHdIdle (h a : Nat) (v : Word) (s : State) : State := if hdEnabled h s then s else s.plainWrite a v

def writeBandCfg (h : Nat) (v : Word) (s : State) : State :=
  s.plainWrite (Reg.HD_BANDCFG h) (F.HD_BANDCFG_SizeLog2.put v (clampNat 4 12 (F.HD_BANDCFG_SizeLog2.get v)))

def writePlanCfg (h : Nat) (v : Word) (s : State) : State :=
  s.plainWrite (Reg.HD_PLANCFG h) (clampRingSize F.HD_PLANCFG_SizeLog2 v)

/-- HD_PRIO(h,i): a push (R169). -/
def prioPush (h i : Nat) (v : Word) (s : State) : State :=
  let x := s.head h
  let l := prioOf i x
  if 128 ≤ l.length then headFlag h F.HD_STAT_PrioOverrun s
  else s.setHead h (setAuditOf i (visOf i x) (l ++ [F.HD_PRIO_Nozzle.get v]) x)

/-- One accepted change of a map entry (R177). -/
def nmapSet (h n : Nat) (w : Word) (s : State) : State :=
  criticalMapCheck h n (F.HD_NMAP_Class.get w) (s.setReg (Reg.HD_NMAP h n) w)

/-- An entry becomes UNKNOWN, with its stamp. -/
def nmapForget (h n : Nat) (s : State) : State := nmapSet h n (F.HD_NMAP_Class.put (s.reg (Reg.HD_NMAP h n)) 0) s

/-- HD_SENSE(h,i) (R174). -/
def writeSense (h i : Nat) (v : Word) (s : State) : State :=
  let s := s.plainWrite (Reg.HD_SENSE h i) v
  if F.HD_SENSE_Dead.get v = 1 then
    (setMembers h i s).foldl (fun s n =>
      if nmapClass h n s = 0 || nmapClass h n s = 6 then s else nmapForget h n s) s
  else s

/-- HD_NMAP(h,n) (R175, R176). -/
def writeNmap (h n : Nat) (v : Word) (s : State) : State :=
  let c := F.HD_NMAP_Class.get v
  if hdNozzles h s ≤ n then s
  else if 7 ≤ c then headFlag h F.HD_STAT_NmapRefused s
  else if c = 6 then nmapSet h n v s
  else if nmapClass h n s = 6 then headFlag h F.HD_STAT_NmapRefused s
  else if 0 ≤ sx 24 (F.HD_NMAP_Stamp.get v + 2 ^ 24 - nmapStamp h n s) then nmapSet h n v s
  else headFlag h F.HD_STAT_NmapStale s

/-- HD_NMAPCMD(h) (R176). -/
def writeNmapCmd (h : Nat) (v : Word) (s : State) : State :=
  let n := F.HD_NMAPCMD_Nozzle.get v
  if F.HD_NMAPCMD_Unretire.get v = 1 && decide (n < hdNozzles h s) && nmapClass h n s = 6 then nmapForget h n s else s

/-- HD_NMAP(h,n) as it reads (R175). -/
def readNmap (h n : Nat) (s : State) : Word := if n < hdNozzles h s then s.reg (Reg.HD_NMAP h n) else 0

/-- One pass of the walker over a port's entries (R178). -/
def nmapWalk (h : Nat) (s : State) : State :=
  (listed (Reg.HD_NMAP h 0) 4 4096 s (fun _ w =>
    let c := F.HD_NMAP_Class.get w
    c != 0 && c != 6 && decide (2 ^ 23 < (stamp24 s.lt + 2 ^ 24 - F.HD_NMAP_Stamp.get w) % 2 ^ 24))).foldl
    (fun s n => nmapForget h n s) s

/-- A set whose expiry LINETIME has reached (R185). -/
def setExpired (h tag : Nat) (s : State) : Bool :=
  (s.head h).sets.any (fun c => c.tag = tag && decide (c.expiry ≤ s.lt))

def writePlanRd (h : Nat) (v : Word) (s : State) : State :=
  if rdIdxOk (s.reg (Reg.HD_PLANWR h)).toNat (planCap h s) v.toNat then s.setReg (Reg.HD_PLANRD h) v else s

/-- HD_STAT(h) as the port stands. -/
def hdStat (h : Nat) (s : State) : Word :=
  F.HD_STAT_BandCurrent.put (s.reg (Reg.HD_STAT h)) (b2n (s.head h).cur.isSome)

/-- HD_CURTAG(h): the Tag of the current band, 0 for a Service band and for none. -/
def hdCurTag (h : Nat) (s : State) : Word :=
  match (s.head h).cur with
  | some b => if b.service then 0 else lowWord b.tag
  | none => 0

/-- HD_SWEEP(h,i) as it reads. -/
def hdSweep (h i : Nat) (s : State) : Word :=
  F.HD_SWEEP_PrioLevel.put (s.reg (Reg.HD_SWEEP h i)) (prioOf i (s.head h)).length

/-- HD_CSSTAT(h). -/
def hdCsStat (h : Nat) (s : State) : Word := F.HD_CSSTAT_ActiveSets.put 0 (s.head h).sets.length

/-! ### The commands -/

/-- LATCH_TIMING_EDGE. -/
def execLatchTimingEdge (h : Nat) (s : State) : Out := .next (latchEdge h s)

/-- SHIFT_START. -/
def execShiftStart (h : Probe) (s : State) : Out := .next (shiftStart h.num (entryBad h.num h.ue s))

/-- SHIFT_END. -/
def execShiftEnd (h : Nat) (s : State) : Out := .next (shiftEnd h s)

/-- READY_POLL. -/
def execReadyPoll (h : Probe) (s : State) : Out := .next (readyPoll h.num (readyBad h.num h.ue s))

/-- BLOCK_FETCH. -/
def execBlockFetch (h : Probe) (s : State) : Out := .next (blockFetch h.num (blockBad h.num h.ue s))

/-- PORT_ENABLE_WRITE. -/
def execPortEnableWrite (h : Nat) (v : Word) (s : State) : Out := .next (writeHdCtl h v s)

/-- PROFILE_WRITE. -/
def execProfileWrite (h i : Nat) (v : Word) (s : State) : Out := .next (writeProfile h i v s)

/-- PRIO_PUSH. -/
def execPrioPush (h i : Nat) (v : Word) (s : State) : Out := .next (prioPush h i v s)

/-- SENSE_DEAD_WRITE. -/
def execSenseDeadWrite (h i : Nat) (v : Word) (s : State) : Out := .next (writeSense h i v s)

/-- NOZZLE_MAP_WRITE. -/
def execNozzleMapWrite (h k : Nat) (v : Word) (s : State) : Out := .next (writeNmap h k v s)

/-- UNRETIRE: a write of HD_NMAPCMD with Unretire 1. -/
def execUnretire (h : Nat) (v : Word) (s : State) : Out := .next (writeNmapCmd h (F.HD_NMAPCMD_Unretire.put v 1) s)

/-- NOZZLE_MAP_WALK. -/
def execNozzleMapWalk (h : Nat) (s : State) : Out := .next (nmapWalk h s)

/-- CRITICAL_SET_EXPIRY. -/
def execCriticalSetExpiry (h tag : Nat) (s : State) : Out :=
  .next (if setExpired h tag s then expireSet h tag s else s)

/-- AUX_PIN_CHANGE. -/
def execAuxPinChange (h : Nat) (s : State) : Out := .next (auxEval h s)

/-- PLANRD_WRITE. -/
def execPlanrdWrite (h : Nat) (v : Word) (s : State) : Out := .next (writePlanRd h v s)

end Sys2Proof.Machine
end

