-- ==== Sys2Proof/Machine/Tile.lean ====
section
/-!
DEFINITION. The input side of the analogue tiles (chapter 05, R83 to R109): switch matrix, panel buses,
amplifiers and filter, modulator inputs, comparators.
-/
namespace Sys2Proof.Machine

def State.tile (s : State) (t : Nat) : Tile := s.arr.tiles.get Tile.init t

def State.setTile (s : State) (t : Nat) (x : Tile) : State :=
  { s with arr := { s.arr with tiles := s.arr.tiles.set Tile.init t x } }

def State.dch (s : State) (g : Nat) : DceCh := s.dce.chans.get DceCh.init g

def State.setDch (s : State) (g : Nat) (x : DceCh) : State :=
  { s with dce := { s.dce with chans := s.dce.chans.set DceCh.init g x } }

/-- Sets a flag of AT_STAT(t); its bit in AT_EVTEN(t) enables event 320 + t (R109). -/
def tileFlag (t : Nat) (f : Fld) (s : State) : State :=
  s.flag (Reg.AT_STAT t) f (bitN (s.reg (Reg.AT_EVTEN t)).toNat f.lsb) (320 + t)

/-- The first CONV edge after this tick. -/
def nextConv (s : State) : Nat := (s.tick / 8 + 1) * 8

/-- A switch of channel `g` at CONV edge `w` (R144). From that edge on FastSum is not valid and outputs are
Settling, also where edge `w` has given its code already (R145, R147). -/
def dceSwitch (g w : Nat) (s : State) : State :=
  let x := s.dch g
  if s.tick < 8 * w then s.setDch g { x with swNext := w }
  else s.setDch g { x with
    sw := w, next := x.next.map (fun e => if w ≤ e.1 then (e.1, e.2.1, false) else e),
    bounds := x.bounds.map (fun b => if w ≤ b.edge then { b with settling := true } else b) }

/-- The modulator of channel `g` gives its first code at edge `w` (R144). It gave 0 before. -/
def modStart (g w : Nat) (s : State) : State :=
  dceSwitch g w (s.setDch g { s.dch g with codeAt := if (s.dch g).codeAt = 0 then w else (s.dch g).codeAt })

/-- A switch that this tick brings: at this CONV edge, else at the next. -/
def edgeSwitch (g : Nat) (s : State) : State := dceSwitch g ((s.tick + 7) / 8) s

/-! ### Writes during a calibration step (R104) -/

/-- A write to a register of R104's list: during a step it is held, else it is applied by `f`. -/
def calGate (t a : Nat) (v : Word) (f : State → State) (s : State) : State :=
  let x := s.tile t
  if x.calBusy then s.setTile t { x with calPend := x.calPend.filter (fun p => p.1 != a) ++ [(a, v)] } else f s

/-! ### Switch matrix (R85 to R88) -/

/-- Does a consumer accept a code? 0 PGA0, 1 PGA1, 2 biquad, 3 modulators and pairs, 4 export and bus (R85). -/
def codeOk (kind code : Nat) : Bool :=
  if code = 15 then false
  else if code ≤ 6 || code = 10 then true
  else if code = 7 then kind != 0
  else if code = 8 then kind != 0 && kind != 1
  else if code = 9 then kind = 3 || kind = 4
  else kind != 4

/-- Neighbour links do not cross a panel edge (R86). -/
def linkOk (t code : Nat) : Bool := !(code = 13 && t % 16 = 0) && !(code = 14 && t % 16 = 15)

/-- The kind of consumer of selector field `i` of AT_SEL. -/
def selKind (i : Nat) : Nat := if i < 3 then i else if i = 7 then 4 else 3

/-- May AT_SEL(t) hold `v`? -/
def selOk (t : Nat) (v : Word) : Bool :=
  (List.range 8).all (fun i => codeOk (selKind i) (slice v.toNat (4 * i) 4) && linkOk t (slice v.toNat (4 * i) 4))

/-- May AT_BUSDRV(t) hold `v`? -/
def drvOk (t : Nat) (v : Word) : Bool :=
  [F.AT_BUSDRV_Bus0Src.get v, F.AT_BUSDRV_Bus1Src.get v].all (fun c => codeOk 4 c && linkOk t c)

/-- The code that field `i` (0 to 7 of AT_SEL, 8 and 9 of AT_BUSDRV) holds in the two words. -/
def fieldOf (sel src : Word) (i : Nat) : Nat :=
  if i < 8 then slice sel.toNat (4 * i) 4 else slice src.toNat (4 + 4 * (i - 8)) 4

def setField (x : Tile) (i code : Nat) : Tile :=
  if i < 8 then { x with sel := Fld.put (Fld.mk (4 * i) 4) x.sel code }
  else { x with src := Fld.put (Fld.mk (4 + 4 * (i - 8)) 4) x.src code }

/-- The code that field `i` last was told to take: the last waiting one, else the one in effect. -/
def askedCode (x : Tile) (i : Nat) : Nat :=
  match x.moves.reverse.find? (fun m => m.field = i) with
  | some m => m.code
  | none => fieldOf x.sel x.src i

/-- Break-before-make: each field of the list that changes opens at the next CONV edge and closes one later (R87).
A change that is open already closes as it was to; one still waiting to open gives way (log entry 231). -/
def startMoves (t : Nat) (fields : List Nat) (sel src : Word) (s : State) : State :=
  let e := nextConv s
  fields.foldl (fun s i =>
    let x := s.tile t
    let c := fieldOf sel src i
    if c = askedCode x i then s
    else s.setTile t { x with
      moves := x.moves.filter (fun m => m.field != i || decide (m.opens ≤ s.tick)) ++ [SelSwitch.mk i e (e + 8) c] }) s

/-- A write to AT_SEL(t), applied (R86, R87). -/
def applySel (t : Nat) (v : Word) (s : State) : State :=
  if selOk t v then startMoves t (List.range 8) v 0 (s.setReg (Reg.AT_SEL t) v)
  else tileFlag t F.AT_STAT_WriteRefused s

def writeSel (t : Nat) (v : Word) (s : State) : State := calGate t (Reg.AT_SEL t) v (applySel t v) s

/-- The bus of a panel, by 2 × panel + bus. -/
def State.bus (s : State) (i : Nat) : Option BusOwn := s.arr.buses.get none i

def State.setBus (s : State) (i : Nat) (o : Option BusOwn) : State :=
  { s with arr := { s.arr with buses := s.arr.buses.set none i o } }

/-- Does another tile own the bus (R88)? -/
def busTaken (t i : Nat) (s : State) : Bool :=
  match s.bus i with
  | none => false
  | some o => o.tile != t % 16 && (match o.stop with
    | none => true
    | some e => decide (s.tick < e))

/-- The drive bit of one bus, as a write leaves it. A tile whose release is still to come keeps the bus; one that
has released it drives again from the next CONV edge. -/
def driveBus (t i : Nat) (on : Bool) (s : State) : State :=
  match s.bus i with
  | some o =>
    if o.tile = t % 16 then
      if on then
        match o.stop with
        | none => s
        | some e => s.setBus i (some (if s.tick < e then { o with stop := none } else BusOwn.mk (t % 16) (nextConv s) none))
      else if o.stop.isNone then s.setBus i (some { o with stop := some (nextConv s) }) else s
    else if on then s.setBus i (some (BusOwn.mk (t % 16) (nextConv s) none)) else s
  | none => if on then s.setBus i (some (BusOwn.mk (t % 16) (nextConv s) none)) else s

/-- A write to AT_BUSDRV(t), applied (R86, R88). A refused code is judged before the owner of a bus, and then
WriteRefused alone is set: the model's choice (log entry 232). -/
def applyDrv (t : Nat) (v : Word) (s : State) : State :=
  let i := 2 * (t / 16)
  let d0 := F.AT_BUSDRV_Bus0Drive.get v = 1
  let d1 := F.AT_BUSDRV_Bus1Drive.get v = 1
  if !drvOk t v then tileFlag t F.AT_STAT_WriteRefused s
  else if (d0 && busTaken t i s) || (d1 && busTaken t (i + 1) s) then tileFlag t F.AT_STAT_BusConflict s
  else
    let s := s.plainWrite (Reg.AT_BUSDRV t) v
    driveBus t (i + 1) d1 (driveBus t i d0 (startMoves t [8, 9] 0 v s))

def writeDrv (t : Nat) (v : Word) (s : State) : State := calGate t (Reg.AT_BUSDRV t) v (applyDrv t v) s

/-- Does the bus have a driving tile in this tick? -/
def busDriver (i : Nat) (s : State) : Option Nat :=
  match s.bus i with
  | none => none
  | some o =>
    if o.start ≤ s.tick && (match o.stop with
      | none => true
      | some e => decide (s.tick < e)) then some o.tile else none

/-- AT_PBUSSTAT of a panel. -/
def pbusStat (p : Nat) (s : State) : Word :=
  let one (i : Nat) : Nat := match busDriver (2 * p + i) s with
    | some o => 1 + 16 * o
    | none => 0
  BitVec.ofNat 32 (one 0 + 256 * one 1)

/-- Is field `i` open between its old and its new connection (R87)? -/
def fieldOpen (x : Tile) (i now : Nat) : Bool :=
  x.moves.any (fun m => m.field = i && decide (m.opens ≤ now) && decide (now < m.closes))

/-! ### Amplifiers and filter as the matrix sees them (R89 to R93) -/

/-- Gains of R89 by code, in hundredths. -/
def pgaGains : List Nat := [25, 50, 75, 100, 150, 200, 300, 400, 600, 800, 1200, 1600, 2400, 3200, 4800, 6400]

/-- AT_PGA as it acts: a change waits for its CONV edge (R89). -/
def pgaNow (t : Nat) (s : State) : Word :=
  match (s.tile t).pgaNext with
  | some (e, w) => if e ≤ s.tick then w else (s.tile t).pga
  | none => (s.tile t).pga

/-- The gain of PGA `i` of tile `t`, in hundredths. -/
def pgaGain (t i : Nat) (s : State) : Nat :=
  pgaGains.getD ((if i = 0 then F.AT_PGA_Gain0 else F.AT_PGA_Gain1).get (pgaNow t s)) 100

/-- The biquad's word in effect. -/
def bqNow (t : Nat) (s : State) : Word :=
  match (s.tile t).bqNext with
  | some (e, w) => if e ≤ s.tick then w else (s.tile t).bq
  | none => (s.tile t).bq

/-- Ticks of one fBQ cycle: fBQ = 200 MHz ÷ 2^Div (R90). -/
def bqStep (w : Word) : Nat := 8 * 2 ^ F.AT_BQ_Div.get w

/-- The corner f0 = fBQ × FreqCode ÷ 262,144, as hertz times 2^(18 + Div) (R90). -/
def bqCorner (w : Word) : Nat := 200000000 * F.AT_BQ_FreqCode.get w

/-- Q by QCode, in thousandths (R91). -/
def bqQs : List Nat := [500, 600, 707, 800, 1000, 1200, 1500, 1800, 2200, 2700, 3300, 4000, 4700, 5600, 6800, 8000]

def bqQ (w : Word) : Nat := bqQs.getD (F.AT_BQ_QCode.get w) 500

/-- The gain in thousandths that R92 gives at DC (0), at f0 (1) or far above f0 (2); none where it gives none. -/
def bqGain (w : Word) (at' : Nat) : Option Nat :=
  let ty := F.AT_BQ_Type.get w
  if ty = 0 then some 1000
  else if at' = 1 then some (if ty = 2 then 1000 else bqQ w)
  else if (ty = 1 && at' = 0) || (ty = 3 && at' = 2) then some 1000
  else none

/-- The fBQ edge of tile `t` that holds its output now (R92). -/
def bqEdge (t : Nat) (s : State) : Nat := s.tick / bqStep (bqNow t s) * bqStep (bqNow t s)

/-- The output of tile `t`'s biquad where it samples: 0 V from a change of Type to the next fBQ edge (R93), else
what its last fBQ edge holds; `uv` where that edge has shown no value yet. -/
def bqOut (t : Nat) (uv : Int) (s : State) : Int :=
  let x := s.tile t
  if x.bqZero != 0 && decide (x.bqZero ≤ s.tick) && decide (bqEdge t s ≤ x.bqZero) then 0
  else match x.bqHeld with
    | some (e, v) => if e = bqEdge t s then v else uv
    | none => uv

/-- Where a node's voltage comes from (R85, R87, R88, R92, R95): the tile and the code of a pin, of a readback or
of a biquad that samples, and the gain on the way as a fraction; none for 0 V, because it is OFF, open, disabled or
undriven. A chain of more than `fuel` links, which R86 forbids, is taken as a pin. -/
def nodeFrom : Nat → Nat → Nat → State → Option ((Nat × Nat) × (Nat × Nat))
  | 0, t, code, _ => some ((t, code), (1, 1))
  | k + 1, t, code, s =>
    let x := s.tile t
    let pwr := s.reg (Reg.AT_PWR t)
    let via (u i : Nat) : Option ((Nat × Nat) × (Nat × Nat)) :=
      if fieldOpen (s.tile u) i s.tick then none else nodeFrom k u (fieldOf (s.tile u).sel (s.tile u).src i) s
    let viaBus (b : Nat) : Option ((Nat × Nat) × (Nat × Nat)) := match busDriver (2 * (t / 16) + b) s with
      | none => none
      | some o => via (16 * (t / 16) + o) (8 + b)
    let viaPga (i : Nat) : Option ((Nat × Nat) × (Nat × Nat)) :=
      (via t i).map (fun c => (c.1, (c.2.1 * pgaGain t i s, c.2.2 * 100)))
    if code = 0 then none
    else if code = 7 then if x.bias && F.AT_PWR_Pga0En.get pwr = 1 then viaPga 0 else none
    else if code = 8 then if x.bias && F.AT_PWR_Pga1En.get pwr = 1 then viaPga 1 else none
    else if code = 9 then
      if !(x.bias && F.AT_PWR_BqEn.get pwr = 1) then none
      else if F.AT_BQ_Type.get (bqNow t s) = 0 then via t 2
      else some ((t, code), (1, 1))
    else if code = 11 then viaBus 0
    else if code = 12 then viaBus 1
    else if code = 13 then via (t - 1) 7
    else if code = 14 then via (t + 1) 7
    else some ((t, code), (1, 1))

/-- Microvolts at the end of a chain where its pin, its output balls (a readback) or its biquad carry `uv`. The
readback is 0.4 × the balls at a reference of 2.5 V and scales with it (R96, R107). -/
def chainUv (c : (Nat × Nat) × (Nat × Nat)) (uv : Int) (s : State) : Int :=
  let v : Int := if c.1.2 = 9 then bqOut c.1.1 uv s
    else if c.1.2 = 10 then uv * (s.arr.vref : Int) / 6250000
    else uv
  v * (c.2.1 : Int) / (c.2.2 : Int)

/-- What consumer field `i` of tile `t` takes its input from. -/
def inputFrom (t i : Nat) (s : State) : Option ((Nat × Nat) × (Nat × Nat)) :=
  if fieldOpen (s.tile t) i s.tick then none else nodeFrom 8 t (fieldOf (s.tile t).sel (s.tile t).src i) s

/-- What consumer field `i` of tile `t` sees where the source of its node carries `uv` microvolts: a pin, the
output balls of a readback or a biquad's filter (log entry 233). -/
def consumerInput (t i : Nat) (uv : Int) (s : State) : Int :=
  match inputFrom t i s with
  | none => 0
  | some c => chainUv c uv s

/-- A biquad that a consumer reads holds its output until its next fBQ edge (R92). -/
def holdBiquad (t i : Nat) (uv : Int) (s : State) : State :=
  match inputFrom t i s with
  | none => s
  | some c =>
    if c.1.2 = 9 then s.setTile c.1.1 { s.tile c.1.1 with bqHeld := some (bqEdge c.1.1 s, bqOut c.1.1 uv s) } else s

/-! ### Comparators (R97 to R102) -/

def Tile.cmp (x : Tile) (k : Nat) : Cmp :=
  if k = 0 then x.cmp0 else if k = 1 then x.cmp1 else if k = 2 then x.cmp2 else x.cmp3

def Tile.setCmp (x : Tile) (k : Nat) (c : Cmp) : Tile :=
  if k = 0 then { x with cmp0 := c } else if k = 1 then { x with cmp1 := c }
  else if k = 2 then { x with cmp2 := c } else { x with cmp3 := c }

def Tile.win (x : Tile) (j : Nat) : Bool := if j = 0 then x.win0 else x.win1

def Tile.setWin (x : Tile) (j : Nat) (w : Bool) : Tile := if j = 0 then { x with win0 := w } else { x with win1 := w }

def Tile.winAt (x : Tile) (j : Nat) : Nat := if j = 0 then x.winAt0 else x.winAt1

def Tile.setWinAt (x : Tile) (j : Nat) (t : Nat) : Tile :=
  if j = 0 then { x with winAt0 := t } else { x with winAt1 := t }

/-- The CONV edge of this tick is a sampling edge of the comparator (R97). -/
def samplingEdge (t k : Nat) (s : State) : Bool :=
  let c := s.reg (Reg.AT_CMPCTL t k)
  let m := 2 ^ F.AT_CMPCTL_SampleDiv.get c
  s.tick % 8 = 0 && s.tick / 8 % m = F.AT_CMPCTL_Phase.get c % m

/-- Enabled, biased and past the settling of R99. -/
def deciding (t k : Nat) (s : State) : Bool :=
  let x := s.tile t
  let c := x.cmp k
  s.arr.vdda && x.bias && c.on && decide (c.ready ≤ s.tick)

/-- The level that the comparator's state gives: OUTSIDE for an enabled odd comparator with Window 1 (R101). -/
def cmpFormula (x : Tile) (k : Nat) : Bool :=
  let c := x.cmp k
  if k % 2 = 1 && x.win (k / 2) && c.on then c.state || !(x.cmp (k - 1)).state else c.state

/-- The reported level takes a value: an edge of its cue source, the rise count, the trips that select it
(R102, R35, R75). A comparator that a calibration step holds keeps its level (R104). -/
def reportLevel (t k : Nat) (l : Bool) (s : State) : State :=
  let x := s.tile t
  let c := x.cmp k
  if c.level = l || x.calHeld = some k then s
  else
    let s := s.setTile t (x.setCmp k { c with level := l })
    let s := if l then s.countUp (Reg.AT_CMPSTAT t k) F.AT_CMPSTAT_RiseCount else s
    tripsOf (4 * t + k) (sourceLevel (256 + 4 * t + k) l 0 s)

/-- Twice the hysteresis band's half in units of a threshold step's 2,048th part: H in microvolts. -/
def hystUv (h : Nat) : Int :=
  if h = 1 then 4000 else if h = 2 then 8000 else if h = 3 then 16000 else if h = 4 then 32000 else if h = 5 then 64000 else 0

/-- The Hyst that acts: a write acts from the next sampling edge on (R100). -/
def hystNow (t k : Nat) (s : State) : Nat :=
  let c := (s.tile t).cmp k
  if s.tick < c.hystAt then c.hyst else s.fld (Reg.AT_CMPCTL t k) F.AT_CMPCTL_Hyst

/-- The threshold DAC code: the threshold `th` and the offset of the Range in use (R98, R400). -/
def thCode (t k th : Nat) (s : State) : Int :=
  let w := s.reg (Reg.CAL_COEF_CO t k)
  sx 12 th + sx 8 ((if ((s.tile t).cmp k).range then F.CAL_COEF_CO_Ofs1 else F.CAL_COEF_CO_Ofs0).get w)

/-- The input less a band edge, in units of 1/4,096 µV. The full scale is half the reference in Range 0 and the
whole of it in Range 1 (R107). -/
def bandGap (vref : Nat) (range : Bool) (hyst : Nat) (code : Int) (upper : Bool) (uv : Int) : Int :=
  let fs : Int := if range then 2 * vref else vref
  let h := hystUv hyst * 2048
  4096 * uv - code * fs - (if upper then h else -h)

/-- 2 mV in the same units: within it of a band edge an input may be decided either way (R98). -/
def bandSlack : Int := 4096 * 2000

/-- Is the input beyond the band edge? Near it, the free bit says. -/
def beyondEdge (gap : Int) (upper free : Bool) : Bool :=
  if -bandSlack ≤ gap && gap ≤ bandSlack then free
  else if upper then decide (0 < gap) else decide (gap < 0)

/-- The state after a decision whose input lies at `up` and `down` from the two band edges (R98). -/
def decideState (up down : Int) (old : Bool) (free : Word) : Bool :=
  if beyondEdge up true (free.getLsbD 0) then true
  else if beyondEdge down false (free.getLsbD 1) then false
  else old

/-- The state after comparator `k` of tile `t`, with threshold `th`, decides on an input of `uv` microvolts. -/
def cmpDecide (t k th : Nat) (old : Bool) (uv : Int) (free : Word) (s : State) : Bool :=
  let gap (upper : Bool) : Int :=
    bandGap s.arr.vref ((s.tile t).cmp k).range (hystNow t k s) (thCode t k th s) upper uv
  decideState (gap true) (gap false) old free

/-- Written thresholds whose tenth CONV edge has come apply at this sampling edge (R100). -/
def settleThreshold (c : Cmp) (now : Nat) : Cmp :=
  c.thPend.foldl (fun c p =>
    if p.1 ≤ now then { c with th := p.2, thPend := c.thPend.filter (fun q => q.1 != p.1) } else c) c

/-- One decision (R98, R100 to R102): the source of the pair's node carries `uv` microvolts. -/
def compareNow (t k : Nat) (uv : Int) (s : State) : State :=
  if !(samplingEdge t k s && deciding t k s) then s else
  let x := s.tile t
  let c := settleThreshold (x.cmp k) s.tick
  let (free, s) := s.takeFree
  let i := 5 + k / 2
  let st := if x.calHeld = some k then c.state else cmpDecide t k c.th c.state (consumerInput t i uv s) free s
  let s := holdBiquad t i uv s
  let x := (s.tile t).setCmp k { c with state := st }
  reportLevel t k (cmpFormula x k) (s.setTile t x)

/-- THRESHOLD_SETTLED: the sampling edge at which a written threshold applies. -/
def thresholdSettled (t k : Nat) (s : State) : State :=
  if samplingEdge t k s then s.setTile t ((s.tile t).setCmp k (settleThreshold ((s.tile t).cmp k) s.tick)) else s

/-- The level of a comparator that does not decide: 0 before VDDA33 is valid (R105), else by its state. -/
def idleReport (t k : Nat) (s : State) : State := reportLevel t k (s.arr.vdda && cmpFormula (s.tile t) k) s

/-- At its sampling edge the odd comparator of a window reports by the states that both have after that edge (R101). -/
def windowReport (t j : Nat) (s : State) : State :=
  if samplingEdge t (2 * j + 1) s && deciding t (2 * j + 1) s && (s.tile t).win j then idleReport t (2 * j + 1) s else s

/-- A written Window takes effect at the odd comparator's first sampling edge after the write (R101). -/
def takeWindow (t j : Nat) (s : State) : State :=
  let x := s.tile t
  let w := s.bit (Reg.AT_PAIRCTL t j) F.AT_PAIRCTL_Window
  if samplingEdge t (2 * j + 1) s && decide (x.winAt j ≤ s.tick) && w != x.win j then
    let s := s.setTile t (x.setWin j w)
    if deciding t (2 * j + 1) s then s else idleReport t (2 * j + 1) s
  else s

/-- The CONV edge of R99: the enable and the Range take effect, and the state becomes InitState. -/
def initCmp (t k : Nat) (s : State) : State :=
  let x := s.tile t
  let ctl := s.reg (Reg.AT_CMPCTL t k)
  let c := x.cmp k
  s.setTile t (x.setCmp k { c with
    on := F.AT_CMPCTL_Enable.get ctl = 1, range := F.AT_CMPCTL_Range.get ctl = 1,
    state := if x.calHeld = some k then c.state else F.AT_CMPCTL_InitState.get ctl = 1, initAt := 0, ready := s.tick + 16 })

/-- Both comparators of a pair are set to InitState at this edge. -/
def initPair (t j : Nat) (s : State) : State :=
  idleReport t (2 * j + 1) (idleReport t (2 * j) (initCmp t (2 * j + 1) (initCmp t (2 * j) s)))

/-- The comparators whose edge of R99 is this tick. -/
def tickCmps (t : Nat) (s : State) : State :=
  let due := (List.range 4).filter (fun k => ((s.tile t).cmp k).initAt = s.tick && s.tick != 0)
  let s := due.foldl (fun s k => initCmp t k s) s
  due.foldl (fun s k => idleReport t k s) s

/-- A comparator's edge of R99 is the next CONV edge. -/
def planInit (t k : Nat) (s : State) : State :=
  let x := s.tile t
  s.setTile t (x.setCmp k { x.cmp k with initAt := nextConv s })

/-- A write to AT_CMPCTL(t,k), applied. -/
def applyCmpCtl (t k : Nat) (v : Word) (s : State) : State :=
  if 6 ≤ F.AT_CMPCTL_Hyst.get v then tileFlag t F.AT_STAT_WriteRefused s
  else
    let old := s.reg (Reg.AT_CMPCTL t k)
    let v := if 12 < F.AT_CMPCTL_SampleDiv.get v then F.AT_CMPCTL_SampleDiv.put v 12 else v
    let x := s.tile t
    let c := x.cmp k
    let s := s.setTile t (x.setCmp k { c with hyst := hystNow t k s, hystAt := s.tick + 1 })
    let s := s.plainWrite (Reg.AT_CMPCTL t k) v
    let en := F.AT_CMPCTL_Enable.get v
    if en != F.AT_CMPCTL_Enable.get old || F.AT_CMPCTL_Range.get v != F.AT_CMPCTL_Range.get old || en = 0 then
      planInit t k s
    else s

def writeCmpCtl (t k : Nat) (v : Word) (s : State) : State :=
  calGate t (Reg.AT_CMPCTL t k) v (applyCmpCtl t k v) s

/-- A write to AT_CMPTH(t,k), applied: it settles for ten CONV edges (R100). -/
def applyCmpTh (t k : Nat) (v : Word) (s : State) : State :=
  let x := s.tile t
  let c := x.cmp k
  let at' := nextConv s + 80
  (s.plainWrite (Reg.AT_CMPTH t k) v).setTile t (x.setCmp k { c with
    thPend := c.thPend.filter (fun p => p.1 != at') ++ [(at', F.AT_CMPTH_Threshold.get v)] })

def writeCmpTh (t k : Nat) (v : Word) (s : State) : State := calGate t (Reg.AT_CMPTH t k) v (applyCmpTh t k v) s

/-- A write to AT_PAIRCTL(t,j) (R101). -/
def writePairCtl (t j : Nat) (v : Word) (s : State) : State :=
  (s.plainWrite (Reg.AT_PAIRCTL t j) v).setTile t ((s.tile t).setWinAt j (s.tick + 1))

/-- AT_CMPSTAT(t,k) as the comparator stands. -/
def cmpStat (t k : Nat) (s : State) : Word :=
  let x := s.tile t
  let w := F.AT_CMPSTAT_Level.put (s.reg (Reg.AT_CMPSTAT t k)) (b2n (x.cmp k).level)
  F.AT_CMPSTAT_Deciding.put (F.AT_CMPSTAT_Held.put w (b2n (x.calHeld = some k))) (b2n (deciding t k s))

/-- AT_STAT(t) as the tile stands. -/
def tileStat (t : Nat) (s : State) : Word :=
  let x := s.tile t
  let w := F.AT_STAT_BiasReady.put (s.reg (Reg.AT_STAT t)) (b2n x.bias)
  F.AT_STAT_WritePending.put (F.AT_STAT_CalBusy.put w (b2n x.calBusy)) (b2n !x.calPend.isEmpty)

/-! ### Selections take effect (R87) -/

/-- The connections that close in this tick. A modulator sees a channel switch, a pair restarts. -/
def switchClose (t : Nat) (s : State) : State :=
  let x := s.tile t
  let due := x.moves.filter (fun m => m.closes = s.tick)
  let x := due.foldl (fun x m => setField x m.field m.code) { x with moves := x.moves.filter (fun m => m.closes != s.tick) }
  let s := s.setTile t x
  due.foldl (fun s m =>
    if m.field = 3 || m.field = 4 then dceSwitch (2 * t + (m.field - 3)) (s.tick / 8) s
    else if m.field = 5 || m.field = 6 then initPair t (m.field - 5) s
    else s) s

/-! ### Power, amplifiers, filter, modulators -/

/-- The first CONV edge at or after tick `t`. -/
def convFrom (t : Nat) : Nat := (t + 7) / 8 * 8

/-- 20 µs after Bias was written 1 (R103). -/
def biasTicks : Nat := 32000

def modOn (t m : Nat) (s : State) : Bool :=
  (s.tile t).bias && s.bit (Reg.AT_PWR t) (if m = 0 then F.AT_PWR_Mod0En else F.AT_PWR_Mod1En)

/-- BiasReady sets; enabled comparators start (R99) and enabled modulators see a channel switch (R144). -/
def biasUp (t : Nat) (s : State) : State :=
  let s := s.setTile t { s.tile t with bias := true }
  let s := initPair t 1 (initPair t 0 s)
  [0, 1].foldl (fun s m => if modOn t m s then modStart (2 * t + m) (s.tick / 8) s else s) s

/-- Is the bias ready 20 µs after Bias was written (R103)? -/
def biasDue (t : Nat) (s : State) : Bool :=
  match (s.tile t).biasAt with
  | none => false
  | some b => !(s.tile t).bias && decide (convFrom (b + biasTicks) ≤ s.tick)

def biasReady (t : Nat) (s : State) : State := if biasDue t s then biasUp t s else s

/-- The edge of the first code of a modulator enabled now: this tick's, where it has not given its code yet. -/
def firstCode (g : Nat) (s : State) : Nat :=
  let n := (s.tick + 7) / 8
  if (s.dch g).codeAt = n + 1 then n + 1 else n

/-- A write to AT_PWR(t) (R95, R103, R144). -/
def writePwr (t : Nat) (v : Word) (s : State) : State :=
  let old := s.reg (Reg.AT_PWR t)
  let s := s.plainWrite (Reg.AT_PWR t) v
  let x := s.tile t
  let on := F.AT_PWR_Bias.get v = 1
  if on && F.AT_PWR_Bias.get old = 0 then s.setTile t { x with biasAt := some s.tick }
  else if !on then
    let s := s.setTile t { x with biasAt := none, bias := false }
    if x.bias then (List.range 4).foldl (fun s k => planInit t k s) s else s
  else
    [0, 1].foldl (fun s m =>
      let f := if m = 0 then F.AT_PWR_Mod0En else F.AT_PWR_Mod1En
      if f.get old = 0 && f.get v = 1 && x.bias then modStart (2 * t + m) (firstCode (2 * t + m) s) s else s) s

/-- May AT_BQ hold `v` (R90)? -/
def bqOk (v : Word) : Bool :=
  decide (F.AT_BQ_Div.get v ≤ 8) &&
    (F.AT_BQ_Type.get v = 0 || (decide (256 ≤ F.AT_BQ_FreqCode.get v) && decide (F.AT_BQ_FreqCode.get v ≤ 6553)))

/-- A write to AT_BQ(t), applied: a change of Type acts at the next CONV edge and clears the filter, another
at the next fBQ edge (R90, R93). -/
def applyBq (t : Nat) (v : Word) (s : State) : State :=
  if !bqOk v then tileFlag t F.AT_STAT_WriteRefused s
  else
    let was := bqNow t s
    let retype := F.AT_BQ_Type.get v != F.AT_BQ_Type.get was
    let step := bqStep was
    let e := if retype then nextConv s else (s.tick / step + 1) * step
    let s := s.plainWrite (Reg.AT_BQ t) v
    let x := s.tile t
    s.setTile t { x with
      bq := was, bqNext := some (e, s.reg (Reg.AT_BQ t)), bqZero := if retype then e else x.bqZero }

def writeBq (t : Nat) (v : Word) (s : State) : State := calGate t (Reg.AT_BQ t) v (applyBq t v) s

/-- A write to AT_PGA(t), applied: the gain changes at the next CONV edge (R89). -/
def applyPga (t : Nat) (v : Word) (s : State) : State :=
  let was := pgaNow t s
  let s := s.plainWrite (Reg.AT_PGA t) v
  s.setTile t { s.tile t with pga := was, pgaNext := some (nextConv s, s.reg (Reg.AT_PGA t)) }

def writePga (t : Nat) (v : Word) (s : State) : State := calGate t (Reg.AT_PGA t) v (applyPga t v) s

/-- Beyond ±1.25 V. -/
def overRange (uv : Int) : Bool := decide (1250000 < uv) || decide (uv < -1250000)

/-- PGA_CLIP: the output of an enabled PGA at a CONV edge, its input's source at `uv` microvolts (R89, R95). -/
def pgaClip (t i : Nat) (uv : Int) (s : State) : State :=
  let en := s.bit (Reg.AT_PWR t) (if i = 0 then F.AT_PWR_Pga0En else F.AT_PWR_Pga1En)
  let out := consumerInput t i uv s * (pgaGain t i s : Int) / 100
  if (s.tile t).bias && en && overRange out && s.tick % 8 = 0 then
    tileFlag t (if i = 0 then F.AT_STAT_PgaClip0 else F.AT_STAT_PgaClip1) s
  else s

/-- BIQUAD_CLIP: an internal node of `uv` microvolts at an fBQ edge (R92). BYPASS does not sample. -/
def biquadClip (t : Nat) (uv : Int) (s : State) : State :=
  let w := bqNow t s
  if (s.tile t).bias && s.bit (Reg.AT_PWR t) F.AT_PWR_BqEn && F.AT_BQ_Type.get w != 0 &&
      s.tick % (8 * 2 ^ F.AT_BQ_Div.get w) = 0 && overRange uv then tileFlag t F.AT_STAT_BqClip s
  else s

def Tile.over (x : Tile) (m : Nat) : Nat := if m = 0 then x.over0 else x.over1

def Tile.setOver (x : Tile) (m n : Nat) : Tile := if m = 0 then { x with over0 := n } else { x with over1 := n }

/-- Is the modulator held at code 0 by an overload reset? Code 0 comes at the two CONV edges before it resumes. -/
def modReset (t m : Nat) (s : State) : Bool := (s.tile t).over m != 0 && decide ((s.tile t).over m ≤ s.tick + 16)

/-- The code that a modulator emits where its quantiser gives `code` (R94, R95, R103). -/
def modCode (t m : Nat) (code : Int) (s : State) : Int :=
  if modOn t m s && !modReset t m s then clampInt (-8) 7 code else 0

/-- Overload is declared at this CONV edge: code 0 comes at the next two (R94). -/
def declareOver (t m : Nat) (s : State) : State :=
  tileFlag t (if m = 0 then F.AT_STAT_ModOver0 else F.AT_STAT_ModOver1)
    (s.setTile t ((s.tile t).setOver m (nextConv s + 16)))

/-- MODULATOR_OVERLOAD: the last eight codes are all +7 or all −8. -/
def modOverload (t m : Nat) (codes : List Int) (s : State) : State :=
  if modOn t m s && (s.tile t).over m = 0 && s.tick % 8 = 0 && codes.length = 8 &&
      (codes.all (· = 7) || codes.all (· = -8)) then declareOver t m s
  else s

def Tile.sat (x : Tile) (m : Nat) : ModSat := if m = 0 then x.sat0 else x.sat1

def Tile.setSat (x : Tile) (m : Nat) (o : ModSat) : Tile := if m = 0 then { x with sat0 := o } else { x with sat1 := o }

/-- The modulator emits `code` at this CONV edge: the eighth extreme code of one sign in a row is an overload (R94). -/
def modEmit (t m : Nat) (code : Int) (s : State) : State :=
  let x := s.tile t
  let o := x.sat m
  let high := decide (0 < code)
  if o.edge = s.tick && o.run != 0 then s
  else
    let run := if !(code = 7 || code = -8) then 0
      else if o.run != 0 && o.edge + 8 = s.tick && o.high = high then o.run + 1 else 1
    let s := s.setTile t (x.setSat m (if run = 0 then ModSat.init else ModSat.mk s.tick run high))
    if run = 8 && (s.tile t).over m = 0 then declareOver t m s else s

/-- The last forced code of an overload reset comes at this CONV edge: the channel's switch (R144). -/
def modSwitch (t m : Nat) (s : State) : State :=
  if (s.tile t).over m != 0 && (s.tile t).over m = s.tick + 8 then dceSwitch (2 * t + m) (s.tick / 8) s else s

/-! ### The commands -/

/-- COMPARATOR_DECISION: the pair's selected node carries `uv` microvolts in the aperture. -/
def execComparatorDecision (t k : Nat) (uv : Int) (s : State) : Out := .next (compareNow t k uv s)

/-- SELECTOR_WRITE. -/
def execSelectorWrite (t : Nat) (v : Word) (s : State) : Out := .next (writeSel t v s)

/-- SWITCH_CLOSE. -/
def execSwitchClose (t : Nat) (s : State) : Out := .next (switchClose t s)

/-- BUS_DRIVE_WRITE. -/
def execBusDriveWrite (t : Nat) (v : Word) (s : State) : Out := .next (writeDrv t v s)

/-- BIQUAD_WRITE. -/
def execBiquadWrite (t : Nat) (v : Word) (s : State) : Out := .next (writeBq t v s)

/-- MODULATOR_OVERLOAD. -/
def execModulatorOverload (t m : Nat) (codes : List Int) (s : State) : Out := .next (modOverload t m codes s)

/-- BIAS_READY. -/
def execBiasReady (t : Nat) (s : State) : Out := .next (biasReady t s)

/-- COMPARATOR_CTL_WRITE. -/
def execComparatorCtlWrite (t k : Nat) (v : Word) (s : State) : Out := .next (writeCmpCtl t k v s)

/-- COMPARATOR_THRESHOLD_WRITE. -/
def execComparatorThresholdWrite (t k : Nat) (v : Word) (s : State) : Out := .next (writeCmpTh t k v s)

/-- THRESHOLD_SETTLED. -/
def execThresholdSettled (t k : Nat) (s : State) : Out := .next (thresholdSettled t k s)

/-- WINDOW_WRITE. -/
def execWindowWrite (t j : Nat) (v : Word) (s : State) : Out := .next (writePairCtl t j v s)

/-- RISE_COUNT_READ. -/
def execRiseCountRead (req : Req) (t k : Nat) (s : State) : Out :=
  .next ((s.setFld (Reg.AT_CMPSTAT t k) F.AT_CMPSTAT_RiseCount 0).give req [cmpStat t k s])

/-- PGA_CLIP. -/
def execPgaClip (t i : Nat) (uv : Int) (s : State) : Out := .next (pgaClip t i uv s)

/-- BIQUAD_CLIP. -/
def execBiquadClip (t : Nat) (uv : Int) (s : State) : Out := .next (biquadClip t uv s)

end Sys2Proof.Machine
end

