-- ==== Sys2Proof/Machine/Drive.lean ====
section
/-!
DEFINITION. Waveform drive (chapter 06, R110 to R137): the DAC, its sources and ranges, firing programs,
Palette banks and cross-fade, clear, current limit, supervision and twin-wired drive; and the DAC correction
of R401.
-/
namespace Sys2Proof.Machine

def State.dac (s : State) (t : Nat) : Dac := s.arr.dacs.get Dac.init t

def State.setDac (s : State) (t : Nat) (x : Dac) : State :=
  { s with arr := { s.arr with dacs := s.arr.dacs.set Dac.init t x } }

/-- Sets a flag of AT_DACSTAT(t); bit i of AT_DACEVTEN(t) enables bit 16 + i (R137). -/
def dacFlag (t : Nat) (f : Fld) (s : State) : State :=
  s.flag (Reg.AT_DACSTAT t) f (bitN (s.reg (Reg.AT_DACEVTEN t)).toNat (f.lsb - 16)) (320 + t)

/-- A report to the Ledger as a supervision fault on Head (R131). -/
def dacReport (t : Nat) (s : State) : State :=
  if s.bit (Reg.AT_DACCTL t) F.AT_DACCTL_LedgerReport then
    pointReport (s.fld (Reg.AT_DACCTL t) F.AT_DACCTL_Head) flagSupFault s
  else s

/-- A flag of R131's list: set and reported. -/
def dacFault (t : Nat) (f : Fld) (s : State) : State := dacReport t (dacFlag t f s)

/-- Sets a flag of CAL_TSTAT(t); bit i of CAL_EVTEN enables bit 8 + i (R411). -/
def calFlag (t : Nat) (f : Fld) (s : State) : State :=
  s.flag (Reg.CAL_TSTAT t) f (bitN (s.fld Reg.CAL_EVTEN F.CAL_EVTEN_FlagEvent) (f.lsb - 8)) (896 + t / 16)

/-- The first even CONV edge after this tick. -/
def nextEven (s : State) : Nat := (s.tick / 16 + 1) * 16

/-! ### Banks and samples (R113 to R120) -/

def slotLen (t b k : Nat) (s : State) : Nat := s.fld (Reg.AT_SLOTPOS t b k) F.AT_SLOTPOS_Length

def slotStart (t b k : Nat) (s : State) : Nat := s.fld (Reg.AT_SLOTPOS t b k) F.AT_SLOTPOS_Start

def segCount (t b : Nat) (s : State) : Nat := s.fld (Reg.AT_PROG t b) F.AT_PROG_SegCount

/-- Is the bank valid (R116)? -/
def bankOk (t b : Nat) (s : State) : Bool :=
  decide (1 ≤ segCount t b s) && decide (segCount t b s ≤ 16) && (List.range (segCount t b s)).all (fun k =>
    decide (1 ≤ slotLen t b k s) && decide (slotLen t b k s ≤ 16384) &&
      decide (slotStart t b k s + slotLen t b k s ≤ 16384))

/-- Samples of the bank's program. -/
def bankLen (t b : Nat) (s : State) : Nat := ((List.range (segCount t b s)).map (fun k => slotLen t b k s)).sum

/-- The segment and the sample within it of program sample `j`; none past the last. -/
def findSample (t b : Nat) (s : State) : Nat → List Nat → Nat → Option (Nat × Nat)
  | _, [], _ => none
  | j, k :: rest, acc =>
    if j < acc + slotLen t b k s then some (k, j - acc) else findSample t b s j rest (acc + slotLen t b k s)

def sampleAt (t b j : Nat) (s : State) : Option (Nat × Nat) := findSample t b s j (List.range (segCount t b s)) 0

def waveBase (t : Nat) : Nat := 0x1000000 + 0x8000 * t

/-- The eight bytes of word `w` of the waveform memory as they stood at tick `at'`, and whether the word read
uncorrectable then (R114, R284). -/
def waveWord (t w at' : Nat) (s : State) : List Byte × Bool :=
  match (s.dac t).writes.find? (fun r => decide (at' < r.at') && r.word = w) with
  | some r => (r.bytes, r.ue)
  | none => (s.bytes (waveBase t + 8 * w) 8, s.poisoned (waveBase t + 8 * w))

/-- The tick at which the DAC port has read what it presents at tick `pres`: 40 to 80 ns before (R114). -/
def fetchTick (t pres : Nat) : Nat := pres - 64 - Config.dacFetch t pres % 65

/-- Sample `i` of the waveform memory for a presentation at tick `pres`; a word that read uncorrectable when it
was fetched gives 0 (R115). -/
def waveSample (t i pres : Nat) (s : State) : Int :=
  let w := waveWord t (i / 4) (fetchTick t pres) s
  if w.2 then 0 else sx 16 (leNat ((w.1.drop (2 * (i % 4))).take 2))

/-- R115: the code of one sample before saturation. -/
def scaleSample (x gain offset : Int) : Int := (x * gain + 0x2000) / 2 ^ 14 + offset

/-- A code held within 16 bits, and whether it saturated. -/
def satCode (y : Int) : Int × Bool := (clampInt (-32768) 32767 y, decide (y < -32768) || decide (32767 < y))

def restCode (t b : Nat) (s : State) : Int := sx 16 (s.fld (Reg.AT_PROG t b) F.AT_PROG_RestCode)

/-- Bank `b`'s value for program sample `j` presented at tick `pres`, and whether it saturated. A bank whose
program has ended contributes its RestCode. -/
def bankCode (t b j pres : Nat) (s : State) : Int × Bool :=
  match sampleAt t b j s with
  | none => (restCode t b s, false)
  | some (k, i) =>
    let c := s.reg (Reg.AT_SLOTCOEF t b k)
    satCode (scaleSample (waveSample t (slotStart t b k s + i) pres s) (sx 16 (F.AT_SLOTCOEF_Gain.get c))
      (sx 16 (F.AT_SLOTCOEF_Offset.get c)))

/-- Division rounded half away from zero. -/
def roundDiv (x : Int) (d : Nat) : Int :=
  if x < 0 then -((2 * (-x) + d) / (2 * d)) else (2 * x + d) / (2 * d)

/-- The cross-fade mix of fade sample `n` of `f` (R120). -/
def fadeMix (a b : Int) (n f : Nat) : Int := a + roundDiv ((b - a) * ((n : Int) + 1)) f

/-- The code of program sample `j`, and whether a sample saturated. -/
def programCode (t j pres : Nat) (s : State) : Int × Bool :=
  let x := s.dac t
  let b := bankCode t x.bank j pres s
  match x.fade with
  | none => b
  | some f =>
    if f.count + j < f.len then
      let a := bankCode t f.old j pres s
      (fadeMix a.1 b.1 (f.count + j) f.len, a.2 || b.2)
    else b

/-- The code between programs (R111, R120). -/
def restMix (t : Nat) (s : State) : Int :=
  let x := s.dac t
  match x.fade with
  | none => restCode t x.bank s
  | some f => if f.count = 0 then restCode t f.old s
    else fadeMix (restCode t f.old s) (restCode t x.bank s) (f.count - 1) f.len

/-! ### The output (R110 to R112, R123 to R127) -/

/-- HoldingClear reads 1 from the moment VDDA33 is valid (R124). -/
def holdingClear (t : Nat) (s : State) : Bool := s.arr.vdda && !(s.dac t).normal

def clearCode (t : Nat) (s : State) : Int := sx 16 (s.fld (Reg.AT_CLRCODE t) F.AT_CLRCODE_ClearCode)

/-- The code presented before correction, and whether its sample saturated. -/
def dacCode (t : Nat) (s : State) : Int × Bool :=
  let x := s.dac t
  if x.clearing || holdingClear t s || x.holdEnd != 0 then (clearCode t s, false)
  else if !x.prog then (sx 16 x.code, false)
  else
    match x.play with
    | some p => programCode t ((s.tick - p.start) / 16) (s.tick - (s.tick - p.start) % 16) s
    | none => (restMix t s, false)

/-- The correction words in effect: CAL_COEF_DG and the three CAL_COEF_DP of the range (R123). -/
def dacCoef (t : Nat) (s : State) : List Word :=
  let r := (s.dac t).range
  (s.dac t).coef.getD (s.reg (Reg.CAL_COEF_DG t r) :: (List.range 3).map (fun j => s.reg (Reg.CAL_COEF_DP t r j)))

/-- The predistortion of R401: the powers of `c` from the second up, with Pre2 to Pre6. -/
def predistort (c : Int) : List Int → Int → Int
  | [], _ => 0
  | p :: rest, xp => let xp := xp * c / 2 ^ 15; xp * p / 2 ^ 15 + predistort c rest xp

/-- R401: the code converted, and whether it was clipped. -/
def correctCode (coef : List Word) (c : Int) : Int × Bool :=
  let dg := coef.headD 0
  let pre := (coef.drop 1).flatMap (fun w => [sx 16 (F.CAL_COEF_DP_PreLo.get w), sx 16 (F.CAL_COEF_DP_PreHi.get w)])
  let y := ((c + predistort c (pre.take 5) c) * sx 16 (F.CAL_COEF_DG_Gain.get dg) + 0x2000) / 2 ^ 14 +
    sx 16 (F.CAL_COEF_DG_Offset.get dg)
  satCode y

/-- The code converted now. -/
def dacOut (t : Nat) (s : State) : Int := (correctCode (dacCoef t s) (dacCode t s).1).1

/-- The corrected clear code is computed anew: at a change of AT_CLRCODE(t), of the Range or of a coefficient (R123). -/
def clipClear (t : Nat) (s : State) : State :=
  if (correctCode (dacCoef t s) (clearCode t s)).2 then calFlag t F.CAL_TSTAT_CalClip s else s

/-- A new code is presented: Saturated and CalClip (R115, R401). -/
def presentCode (t : Nat) (s : State) : State :=
  let c := dacCode t s
  let s := if c.2 then dacFlag t F.AT_DACSTAT_Saturated s else s
  if (correctCode (dacCoef t s) c.1).2 then calFlag t F.CAL_TSTAT_CalClip s else s

/-! ### Twin pairs (R132, R133) -/

def twinPartner (t : Nat) (s : State) : Nat := 16 * (t / 16) + s.fld (Reg.AT_TWIN t) F.AT_TWIN_Partner

def twinEnabled (t : Nat) (s : State) : Bool := s.bit (Reg.AT_TWIN t) F.AT_TWIN_TwinEnable

/-- Two tiles with TwinEnable 1 that name each other. -/
def twinPair (t : Nat) (s : State) : Bool :=
  let u := twinPartner t s
  twinEnabled t s && twinEnabled u s && twinPartner u s = t && u != t

def twinStandby (t : Nat) (s : State) : Bool := s.bit (Reg.AT_TWIN t) F.AT_TWIN_Role

/-- TwinArmed (R132). -/
def twinArmed (t : Nat) (s : State) : Bool :=
  let u := twinPartner t s
  let a := s.reg (Reg.AT_DACCTL t)
  let b := s.reg (Reg.AT_DACCTL u)
  twinPair t s && twinStandby t s != twinStandby u s && F.AT_DACCTL_Range.get a = F.AT_DACCTL_Range.get b &&
    F.AT_DACCTL_Source.get a = F.AT_DACCTL_Source.get b && !s.bit (Reg.AT_TWIN t) F.AT_TWIN_TwinFailed &&
    !s.bit (Reg.AT_TWIN u) F.AT_TWIN_TwinFailed

/-- The output stage drives (R112, R132, R134). -/
def dacDriving (t : Nat) (s : State) : Bool :=
  let x := s.dac t
  s.arr.vdda && s.fld (Reg.AT_DACCTL t) F.AT_DACCTL_OutMode != 1 && x.onAt = 0 &&
    (!(twinEnabled t s && twinStandby t s) || decide (s.tick < x.offAt))

/-! ### Starts (R111, R116, R117, R119) -/

/-- Both banks' contribution to the length of a program that starts now. -/
def programLen (t : Nat) (s : State) : Nat :=
  let x := s.dac t
  match x.fade with
  | some f => Nat.max (bankLen t f.old s) (bankLen t x.bank s)
  | none => bankLen t x.bank s

/-- A pending swap at a program start (R119, R121). -/
def takeSwap (t : Nat) (s : State) : State :=
  let x := s.dac t
  match x.swap with
  | none => s
  | some w =>
    if x.fade.isSome || decide (s.tick ≤ w.at') then s
    else
      let s := s.setDac t { x with swap := none }
      if w.target = x.bank then dacFlag t F.AT_DACSTAT_SwapDone s
      else if !bankOk t w.target s then dacFault t F.AT_DACSTAT_ProgError s
      else if w.fade = 0 then dacFlag t F.AT_DACSTAT_SwapDone (s.setDac t { s.dac t with bank := w.target })
      else s.setDac t { s.dac t with bank := w.target, fade := some (DacFade.mk x.bank w.fade 0) }

/-- The start of this tick at one tile, as the tick's end judges it: after every clear, beside the other target
of a twin pair (R126, R133). -/
def dacStartOne (t : Nat) (s : State) : State :=
  let x := s.dac t
  if x.clearing then dacFault t F.AT_DACSTAT_StartCleared s
  else if !x.prog then dacFlag t F.AT_DACSTAT_StartIgnored s
  else if x.play.isSome || x.ended = s.tick + 1 then dacFault t F.AT_DACSTAT_StartOverlap s
  else
    let s := takeSwap t s
    if !bankOk t (s.dac t).bank s then dacFault t F.AT_DACSTAT_ProgError s
    else
      let s := s.setDac t { s.dac t with
        play := some (DacPlay.mk s.tick (programLen t s)), normal := true, coef := none }
      let s := clipClear t s
      if x.holdEnd != 0 then dacFault t F.AT_DACSTAT_StartInHold s else presentCode t s

/-- A start that reached the tile in this tick. -/
def dacGo (t : Nat) (s : State) : State :=
  if (s.dac t).go = s.tick + 1 then dacStartOne t (s.setDac t { s.dac t with go := 0 }) else s

def setGo (t : Nat) (s : State) : State := s.setDac t { s.dac t with go := s.tick + 1 }

/-- A cue effect at the tile's DAC waveform start target reaches the tile, and the partner of a twin pair (R111,
R133). -/
def dacStart (t : Nat) (s : State) : State :=
  if twinPair t s then setGo (twinPartner t s) (setGo t s) else setGo t s

/-! ### Range (R127) -/

/-- Range `r` takes effect: the clear code of the new range for 3,200 ticks. -/
def applyRange (t r : Nat) (s : State) : State :=
  let x := s.dac t
  if r = x.range then s
  else presentCode t (clipClear t (s.setDac t { x with range := r, coef := none, holdEnd := s.tick + 3200 }))

/-- The Range that waits, as the register holds it, takes effect. -/
def applyPend (t : Nat) (s : State) : State :=
  let r := s.fld (Reg.AT_DACCTL t) F.AT_DACCTL_Range
  let s := s.setDac t { s.dac t with rangePend := 0 }
  if r = (s.dac t).range then presentCode t s else applyRange t r s

/-- Does a Range wait for the hold's end, or for that of a program which plays no more? -/
def rangeWaits (x : Dac) : Bool := x.rangePend = 1 || (x.rangePend = 2 && x.play.isNone)

def rangeHoldEnd (t : Nat) (s : State) : State :=
  let x := s.dac t
  if x.holdEnd = 0 || decide (s.tick < x.holdEnd) then s
  else
    let s := s.setDac t { x with holdEnd := 0, supQuiet := s.tick + 1 }
    if rangeWaits x then applyPend t s else presentCode t s

/-! ### Ends -/

/-- The program's end tick (R111). -/
def programEnd (t : Nat) (s : State) : State :=
  let x := s.dac t
  match x.play with
  | none => s
  | some p =>
    if s.tick != p.start + 16 * p.len then s
    else
      let fade := x.fade.map (fun f => { f with count := f.count + p.len })
      let s := s.setDac t { x with play := none, ended := s.tick + 1, fade := fade }
      if x.rangePend = 2 && x.holdEnd = 0 then applyPend t s else presentCode t s

/-- Fade sample F − 1 is presented (R120). -/
def crossFadeEnd (t : Nat) (s : State) : State :=
  let x := s.dac t
  match x.fade, x.play with
  | some f, some p =>
    if s.tick = p.start + 16 * (f.len - 1 - f.count) && decide (f.count < f.len) then
      dacFlag t F.AT_DACSTAT_SwapDone (s.setDac t { x with fade := none, fadeEnd := s.tick + 1 })
    else s
  | _, _ => s

/-! ### Clear (R122, R125, R126) -/

/-- The clear pins that reach tile `t`, and ClockLost. -/
def clearSource (t : Nat) (s : State) : Bool :=
  (s.arr.clrs.get ClrPin.init (t / 16)).active || (s.arr.clrs.get ClrPin.init 8).active || s.clock.clockLost

/-- A clear begins at a tile. -/
def beginClear (t : Nat) (s : State) : State :=
  let x := s.dac t
  if x.clearing then s
  else
    let s := s.setDac t { x with clearing := true, normal := false, play := none, fade := none }
    let s := if x.fade.isSome then dacFlag t F.AT_DACSTAT_SwapDone s else s
    let s := if x.rangePend = 2 && x.holdEnd = 0 then applyPend t s else s
    if x.play.isSome then dacReport t s else s

/-- A clear ends at a tile once no source is active; the clear code stays with HoldingClear (R126). -/
def endClear (t : Nat) (s : State) : State :=
  let x := s.dac t
  if x.clearing && !clearSource t s then s.setDac t { x with clearing := false, supQuiet := s.tick + 1 } else s

/-- The tiles of clear pin `p`: a panel's, or all for ALLCLR_N (8). -/
def clearTiles (p : Nat) : List Nat := if p = 8 then List.range 128 else (List.range 16).map (fun i => 16 * p + i)

def setClr (p : Nat) (x : ClrPin) (s : State) : State :=
  { s with arr := { s.arr with clrs := s.arr.clrs.set ClrPin.init p x } }

/-- A clear pin goes low and clears, or returns high. The output reaches the clear code within 30 ns (48
ticks) of the fall, at a time the spec leaves open. -/
def panelClear (p : Nat) (low : Bool) (s : State) : State :=
  let x := s.arr.clrs.get ClrPin.init p
  if !low then setClr p { x with low := false, rise := s.tick } s
  else if x.active then setClr p { x with low := true } s
  else
    let (w, s) := s.takeFree
    let s := setClr p { x with low := true, active := true, reach := s.tick + w.toNat % 49 } s
    (clearTiles p).foldl (fun s t => beginClear t s) s

/-- The CONV edge at which a pin's clear is released (R126). -/
def releaseEdge (x : ClrPin) : Nat :=
  let e := (x.rise / 8 + 2) * 8
  if x.reach ≤ e then e else (x.reach / 8 + 1) * 8

def clearRelease (p : Nat) (s : State) : State :=
  let x := s.arr.clrs.get ClrPin.init p
  if x.active && !x.low && decide (releaseEdge x ≤ s.tick) then
    (clearTiles p).foldl (fun s t => endClear t s) (setClr p { x with active := false } s)
  else s

/-- ClockLost acts as a fall of ALLCLR_N, and its end releases it (R125, R126). -/
def drvClockLost (s : State) : State := (List.range 128).foldl (fun s t => beginClear t s) s

def drvClockBack (s : State) : State := (List.range 128).foldl (fun s t => endClear t s) s

/-- VDDA33 becomes valid: the DACs drive the clear code, the comparators report their states (R105, R124). -/
def supplyValid (s : State) : State :=
  if s.arr.vdda then s
  else
    let s := { s with arr := { s.arr with vdda := true } }
    s.arr.tiles.keys.foldl (fun s t => (List.range 4).foldl (fun s k => idleReport t k s) s) s

/-! ### Takeover and Handover (R134, R135, R440) -/

/-- The roles of a pair change at CONV edge `d`: `t` was ACTIVE, `u` STANDBY. -/
def exchangeRoles (t u d : Nat) (s : State) : State :=
  let s := (s.setFld (Reg.AT_TWIN t) F.AT_TWIN_Role 1).setFld (Reg.AT_TWIN u) F.AT_TWIN_Role 0
  let s := s.setDac t { s.dac t with offAt := d + 16, onAt := 0, handAt := 0 }
  s.setDac u { s.dac u with onAt := d + 176, offAt := 0, handAt := 0 }

/-- A takeover at this CONV edge. Its Ledger span runs from `back` ticks before to 3 µs after (R438). -/
def takeover (t u back : Nat) (s : State) : State :=
  let s := exchangeRoles t u s.tick s
  let s := s.setBit (Reg.AT_TWIN t) F.AT_TWIN_TwinFailed
  let s := s.setDac u { s.dac u with takeLt := some s.lt }
  let s := dacFault u F.AT_DACSTAT_Takeover (dacFault t F.AT_DACSTAT_Takeover s)
  openSpanFor (s.fld (Reg.AT_DACCTL t) F.AT_DACCTL_Head) flagSupFault (srcTwin t) back (some (s.tick + 4800)) s

/-- A Short or SupFault of tile `t` in an armed pair: the ACTIVE tile's own, or the STANDBY tile's SupFault (R134). -/
def twinFault (t : Nat) (sup : Bool) (s : State) : State :=
  if !twinArmed t s then s
  else
    let u := twinPartner t s
    let back := 8 * (s.fld (Reg.AT_SUPCTL t) F.AT_SUPCTL_SupCount + 18)
    if !twinStandby t s then takeover t u back s
    else if sup then takeover u t back s else s

/-- Driving from now on where `was` is 0: the current-limit count restarts (R128). -/
def driveAnew (t : Nat) (was : Bool) (s : State) : State :=
  if !was && dacDriving t s then s.setDac t { s.dac t with short := 0 } else s

/-- A write to AT_TWIN(t): Handover of an armed pair, timed from the next CONV edge (R135). -/
def writeTwin (t : Nat) (v : Word) (s : State) : State :=
  let s := driveAnew t (dacDriving t s) (s.plainWrite (Reg.AT_TWIN t) v)
  if F.AT_TWIN_Handover.get v = 0 then s
  else if !twinArmed t s then dacFlag t F.AT_DACSTAT_DacWriteRefused s
  else
    let a := if twinStandby t s then twinPartner t s else t
    s.setDac a { s.dac a with handAt := nextConv s }

/-- AT_TWIN(t) as it reads. -/
def twinWord (t : Nat) (s : State) : Word :=
  F.AT_TWIN_TwinArmed.put (s.reg (Reg.AT_TWIN t)) (b2n (twinArmed t s))

/-- STANDBY_DRIVE: 110 ns after D the former STANDBY tile drives. -/
def standbyDrive (t : Nat) (s : State) : State :=
  let x := s.dac t
  if x.onAt = 0 || decide (s.tick < x.onAt) then s
  else
    let s := s.setDac t { x with onAt := 0, short := 0, takeLt := none }
    match x.takeLt with
    | some l => s.logFault (320 + t) 0x04 0x04 t l s.lt
    | none => s

/-- The samples of the waveform memory that this tick presents: number, and whether it is the first of its segment. -/
def presented (t : Nat) (s : State) : List (Nat × Bool) :=
  let x := s.dac t
  match x.play with
  | none => []
  | some p =>
    let j := (s.tick - p.start) / 16
    let at' (b : Nat) : List (Nat × Bool) := match sampleAt t b j s with
      | some (k, i) => [(slotStart t b k s + i, i = 0)]
      | none => []
    if (s.tick - p.start) % 16 != 0 then []
    else at' x.bank ++ (match x.fade with
      | some f => at' f.old
      | none => [])

/-- The words of which this tick presents the first sample and which read uncorrectable when they were fetched. -/
def samplePoison (t : Nat) (s : State) : List Nat :=
  ((presented t s).filter (fun n =>
    (waveWord t (n.1 / 4) (fetchTick t s.tick) s).2 && (n.2 || n.1 % 4 = 0))).map (fun n => waveBase t + 2 * n.1)

/-- The DAC port's reads meet a row under test (R286). -/
def touchSamples (t : Nat) (s : State) : State :=
  (presented t s).foldl (fun s n => touchWord (waveBase t + 8 * (n.1 / 4)) s) s

/-- DAC_PORT_UNCORRECTABLE_READ (R284, R440): the report; a takeover where the tile is ACTIVE in an armed pair,
TwinFailed where it is STANDBY. -/
def dacPoison (t : Nat) (s : State) : State :=
  let s := touchSamples t s
  if (samplePoison t s).isEmpty then s
  else
    let s := dacReport t ((samplePoison t s).foldl (fun s a => noteUes a 2 6 s) s)
    if !twinArmed t s then s
    else if twinStandby t s then s.setBit (Reg.AT_TWIN t) F.AT_TWIN_TwinFailed
    else takeover t (twinPartner t s) 0 s

/-! ### Current limit and supervision (R128 to R130) -/

/-- One CONV edge of the current-limit judge, once an edge. An edge that no command judges breaks the row. -/
def currentLimit (t : Nat) (limited : Bool) (s : State) : State :=
  let x := s.dac t
  if s.tick % 8 != 0 || x.shortAt = s.tick + 1 then s
  else if !(dacDriving t s && limited) then s.setDac t { x with short := 0, shortAt := s.tick + 1 }
  else
    let n := if x.shortAt + 8 = s.tick + 1 then x.short + 1 else 1
    let s := s.setDac t { x with short := n, shortAt := s.tick + 1 }
    if s.fld (Reg.AT_SUPCTL t) F.AT_SUPCTL_ShortQual + 1 ≤ n then
      if s.bit (Reg.AT_DACSTAT t) F.AT_DACSTAT_Short then s
      else twinFault t false (dacFault t F.AT_DACSTAT_Short s)
    else s

/-- FS of a range in tenths of a volt (R110). -/
def rangeFs (r : Nat) : Int := if r = 0 then 5 else if r = 1 then 10 else if r = 2 then 20 else 25

/-- SupActive (R130). -/
def supActive (t : Nat) (s : State) : Bool :=
  let x := s.dac t
  s.bit (Reg.AT_SUPCTL t) F.AT_SUPCTL_SupEnable && modOn t 1 s && F.AT_SEL_Mod1Sel.get (s.tile t).sel = 10 &&
    !fieldOpen (s.tile t) 4 s.tick && (dacDriving t s || (twinArmed t s && twinStandby t s)) && !x.clearing &&
    x.holdEnd = 0 && !modReset t 1 s && (x.supQuiet = 0 || decide (x.supQuiet - 1 + 256 ≤ s.tick))

/-- What falls due at the output in this tick: the end of a range hold, the start, the ends (R111, R117, R120, R127). -/
def dacDue (t : Nat) (s : State) : State := crossFadeEnd t (programEnd t (dacGo t (rangeHoldEnd t s)))

/-- Does a cue effect start the tile's program in this tick? -/
def startDue (t : Nat) (s : State) : Bool :=
  let hits (u : Nat) : Bool := (s.target (512 + u)).flights.any (fun f => f.due = s.tick)
  hits t || (twinPair t s && hits (twinPartner t s))

/-- The code presented at this CONV edge times FS, with what the tick still brings to the output (R129). -/
def nominalNow (t : Nat) (s : State) : Int :=
  let s := dacDue t (if startDue t s then setGo t s else s)
  (dacCode t s).1 * rangeFs (s.dac t).range

/-- At a CONV edge the supervisor's history takes the code presented. -/
def noteNominal (t : Nat) (s : State) : State :=
  if s.tick % 8 != 0 then s
  else s.setDac t { s.dac t with
    noms := ((dacCode t s).1 * rangeFs (s.dac t).range :: (s.dac t).noms).take 47 }

/-- The readback sum less the expected sum in units of 1/102,400 of a comparison unit (R129). -/
def supDiff (codes noms : List Int) (delay : Nat) : Int := codes.sum * 102400 - ((noms.drop delay).take 16).sum

/-- While SupActive is 0, run is held at 0 (R130). -/
def supHold (t : Nat) (s : State) : State :=
  if supActive t s || (s.dac t).supRun = 0 then s else s.setDac t { s.dac t with supRun := 0 }

/-- The supervisor's comparison at this CONV edge, with the codes of the last 16. A fraction of the difference may
be dropped or rounded up in LastDiff and PeakDiff: the spec does not say. -/
def superviseEdge (t : Nat) (s : State) : State :=
  let x := s.dac t
  let c := s.reg (Reg.AT_SUPCTL t)
  let d := supDiff x.supCodes (nominalNow t s :: x.noms) (F.AT_SUPCTL_SupDelay.get c)
  let (w, s) := s.takeFree
  let q : Int := if d % 102400 = 0 then d / 102400 else d / 102400 + (b2n (w.getLsbD 0) : Int)
  let far := decide (((F.AT_SUPCTL_SupTol.get c : Nat) : Int) * 102400 < (d.natAbs : Int))
  let run := if far then x.supRun + 1 else 0
  let s := s.setDac t { x with supRun := run }
  let s := s.setFld (Reg.AT_SUPSTAT t) F.AT_SUPSTAT_PeakDiff
    (Nat.max (s.fld (Reg.AT_SUPSTAT t) F.AT_SUPSTAT_PeakDiff) q.natAbs)
  if F.AT_SUPCTL_SupCount.get c + 1 ≤ run then
    let s := s.setFld (Reg.AT_SUPSTAT t) F.AT_SUPSTAT_LastDiff (ux 16 q)
    if s.bit (Reg.AT_DACSTAT t) F.AT_DACSTAT_SupFault then s
    else twinFault t true (dacFault t F.AT_DACSTAT_SupFault s)
  else s

/-- One CONV edge of the supervisor, with the code that MOD1's quantiser gives at it (R129). The sum needs the
codes of 16 edges in a row. -/
def supervise (t : Nat) (code : Int) (s : State) : State :=
  let x := s.dac t
  if s.tick % 8 != 0 || x.supEdge = s.tick + 1 then s else
  let code := modCode t 1 code s
  let codes := if x.supEdge + 8 = s.tick + 1 then (code :: x.supCodes).take 16 else [code]
  let s := modEmit t 1 code (s.setDac t { x with supCodes := codes, supEdge := s.tick + 1 })
  if !supActive t s then s.setDac t { s.dac t with supRun := 0 }
  else if codes.length < 16 then s
  else superviseEdge t s

/-- MODULATOR_RESUME (R94): the modulator gives codes again. Its channel's switch was the edge before (R144). -/
def modResume (t m : Nat) (s : State) : State :=
  let o := (s.tile t).over m
  if o = 0 || decide (s.tick < o) then s
  else
    let s := s.setTile t ((s.tile t).setOver m 0)
    if m = 1 then s.setDac t { s.dac t with supQuiet := s.tick + 1 } else s

/-! ### One tick of a DAC -/

/-- A written Source takes effect (R112). -/
def tickSource (t : Nat) (s : State) : State :=
  let x := s.dac t
  if x.srcAt = s.tick && x.srcAt != 0 then
    let prog := s.bit (Reg.AT_DACCTL t) F.AT_DACCTL_Source
    let code := s.fld (Reg.AT_DACCODE t) F.AT_DACCODE_Code
    presentCode t (s.setDac t { x with prog := prog, srcAt := 0, code := if prog then x.code else code })
  else s

/-- A written DIRECT code is presented (R112, R124). -/
def tickDirect (t : Nat) (s : State) : State :=
  let x := s.dac t
  if x.codeAt = s.tick && x.codeAt != 0 then
    let s := s.setDac t { x with codeAt := 0 }
    if x.prog then s
    else
      let s := s.setDac t { s.dac t with code := s.fld (Reg.AT_DACCODE t) F.AT_DACCODE_Code }
      if x.clearing then s else presentCode t (s.setDac t { s.dac t with normal := true })
  else s

def tickRange (t : Nat) (s : State) : State :=
  let x := s.dac t
  if x.rangeAt = s.tick && x.rangeAt != 0 then applyRange t x.rangeTo (s.setDac t { x with rangeAt := 0 }) else s

/-- New samples, new coefficients, the Handover, and a supervisor that does not run. -/
def tickDacRest (t : Nat) (s : State) : State :=
  let x := s.dac t
  let s := if x.coef.isSome && x.play.isNone && s.tick % 16 = 0 then
      presentCode t (clipClear t (s.setDac t { s.dac t with coef := none })) else s
  let s := match x.play with
    | some p => if (s.tick - p.start) % 16 = 0 && decide (s.tick < p.start + 16 * p.len) then presentCode t s else s
    | none => s
  let s := if x.handAt != 0 && s.tick = x.handAt + 1 then exchangeRoles t (twinPartner t s) x.handAt s else s
  supHold t s

def tickDac (t : Nat) (s : State) : State := tickDacRest t (tickRange t (tickDirect t (tickSource t s)))

/-! ### Register writes -/

/-- A write to AT_DACCTL(t) (R112, R127). -/
def writeDacCtl (t : Nat) (v : Word) (s : State) : State :=
  let old := s.reg (Reg.AT_DACCTL t)
  let x := s.dac t
  let v := if 2 ≤ F.AT_DACCTL_OutMode.get v then F.AT_DACCTL_OutMode.put v 0 else v
  let resource := F.AT_DACCTL_Source.get v != F.AT_DACCTL_Source.get old
  let refuse := resource && x.play.isSome
  let v := if refuse then F.AT_DACCTL_Source.put v (F.AT_DACCTL_Source.get old) else v
  let s := driveAnew t (dacDriving t s) (s.plainWrite (Reg.AT_DACCTL t) v)
  let s := if refuse then dacFlag t F.AT_DACSTAT_DacWriteRefused s else s
  let s := if resource && !refuse then s.setDac t { s.dac t with srcAt := nextEven s } else s
  if F.AT_DACCTL_Range.get v = F.AT_DACCTL_Range.get old then s
  else if x.play.isSome then s.setDac t { s.dac t with rangePend := 2 }
  else if x.holdEnd != 0 then s.setDac t { s.dac t with rangePend := 1 }
  else s.setDac t { s.dac t with rangeAt := nextEven s, rangeTo := F.AT_DACCTL_Range.get v }

/-- A write to AT_CLRCODE(t): the corrected clear code is computed (R123). -/
def writeClrCode (t : Nat) (v : Word) (s : State) : State := clipClear t (s.plainWrite (Reg.AT_CLRCODE t) v)

/-- A write to AT_DACCODE(t) (R112). -/
def writeDacCode (t : Nat) (v : Word) (s : State) : State :=
  let s := s.plainWrite (Reg.AT_DACCODE t) v
  s.setDac t { s.dac t with codeAt := nextEven s }

/-- Is the bank in use (R118, R120)? -/
def bankInUse (t b : Nat) (s : State) : Bool :=
  let x := s.dac t
  b = x.bank || x.fade.isSome || x.fadeEnd = s.tick + 1

/-- A write to word `i` of bank `b`'s program registers: AT_PROG, then AT_SLOTPOS and AT_SLOTCOEF (R118). -/
def writePalette (t b i : Nat) (v : Word) (s : State) : State :=
  if bankInUse t b s then dacFlag t F.AT_DACSTAT_DacWriteRefused s
  else s.plainWrite (Reg.AT_PROG t b + 4 * i) v

/-- A swap request at one tile (R119, R121). -/
def requestSwap (t target fade : Nat) (s : State) : State :=
  let x := s.dac t
  let s := s.setDac t { x with swap := some (DacSwap.mk target fade s.tick) }
  if x.swap.isSome then dacFlag t F.AT_DACSTAT_SwapOverrun s else s

/-- A write to AT_PALCTL(t) (R119, R133). -/
def writePalCtl (t : Nat) (v : Word) (s : State) : State :=
  let fade := Nat.min 1024 (F.AT_PALCTL_Fade.get v)
  let s := s.plainWrite (Reg.AT_PALCTL t) (F.AT_PALCTL_Fade.put v fade)
  if F.AT_PALCTL_Swap.get v = 0 then s
  else
    let s := requestSwap t (F.AT_PALCTL_Target.get v) fade s
    if twinPair t s then requestSwap (twinPartner t s) (F.AT_PALCTL_Target.get v) fade s else s

/-- A write to AT_SUPCTL(t): a SupTol of 0 stores 1. -/
def writeSupCtl (t : Nat) (v : Word) (s : State) : State :=
  s.plainWrite (Reg.AT_SUPCTL t) (if F.AT_SUPCTL_SupTol.get v = 0 then F.AT_SUPCTL_SupTol.put v 1 else v)

/-- A system write to a waveform memory: the old contents stay known for 80 ns (R114). -/
def noteWave (a n : Nat) (s : State) : State :=
  let t := (ofs 0x1000000 a) / 0x8000
  let x := s.dac t
  let first := (ofs (waveBase t) a) / 8
  let last := (ofs (waveBase t) (a + n - 1)) / 8
  let new := (List.range (last + 1 - first)).map (fun i =>
    let b := waveBase t + 8 * (first + i)
    WaveOld.mk s.tick (first + i) (s.bytes b 8) (s.poisoned b))
  s.setDac t { x with writes := x.writes.filter (fun r => decide (s.tick < r.at' + 129)) ++ new }

/-- AT_DACSTAT(t) as the tile stands. -/
def dacStat (t : Nat) (s : State) : Word :=
  let x := s.dac t
  let ro := b2n x.play.isSome + 2 * b2n x.clearing + 4 * b2n (holdingClear t s) + 8 * b2n (x.holdEnd != 0) +
    16 * b2n (x.rangePend != 0) + 32 * x.bank + 64 * b2n x.swap.isSome + 128 * b2n x.fade.isSome +
    256 * b2n (dacDriving t s) + 512 * b2n (supActive t s)
  (s.reg (Reg.AT_DACSTAT t) &&& BitVec.ofNat 32 0x0fff0000) ||| BitVec.ofNat 32 ro

/-- AT_DACPOS(t) as the tile stands. -/
def dacPos (t : Nat) (s : State) : Word :=
  match (s.dac t).play with
  | none => 0
  | some p =>
    let j := (s.tick - p.start) / 16
    let k := match sampleAt t (s.dac t).bank j s with
      | some (k, _) => k
      | none => 0
    BitVec.ofNat 32 (k + 16 * j)

/-! ### The commands -/

/-- PROGRAM_END. -/
def execProgramEnd (t : Nat) (s : State) : Out := .next (programEnd t s)

/-- DAC_CODE_WRITE. -/
def execDacCodeWrite (t : Nat) (v : Word) (s : State) : Out := .next (writeDacCode t v s)

/-- DAC_SOURCE_WRITE. -/
def execDacSourceWrite (t : Nat) (v : Word) (s : State) : Out := .next (writeDacCtl t v s)

/-- RANGE_HOLD_END. -/
def execRangeHoldEnd (t : Nat) (s : State) : Out := .next (rangeHoldEnd t s)

/-- PALETTE_WRITE. -/
def execPaletteWrite (t b i : Nat) (v : Word) (s : State) : Out := .next (writePalette t b i v s)

/-- SWAP_REQUEST: a write to AT_PALCTL(t) with Swap 1. -/
def execSwapRequest (t : Nat) (v : Word) (s : State) : Out := .next (writePalCtl t (F.AT_PALCTL_Swap.put v 1) s)

/-- CROSS_FADE_END. -/
def execCrossFadeEnd (t : Nat) (s : State) : Out := .next (crossFadeEnd t s)

/-- PANEL_CLEAR. -/
def execPanelClear (p : Nat) (low : Bool) (s : State) : Out := .next (panelClear p low s)

/-- CLEAR_RELEASE. -/
def execClearRelease (p : Nat) (s : State) : Out := .next (clearRelease p s)

/-- CURRENT_LIMIT_SHORT: one CONV edge, at which the output is in current limit or not. -/
def execCurrentLimitShort (t : Nat) (limited : Bool) (s : State) : Out := .next (currentLimit t limited s)

/-- SUPERVISION_FAULT: one CONV edge of the supervisor, with MOD1's code. -/
def execSupervisionFault (t : Nat) (code : Int) (s : State) : Out := .next (supervise t code s)

/-- STANDBY_DRIVE. -/
def execStandbyDrive (t : Nat) (s : State) : Out := .next (standbyDrive t s)

/-- HANDOVER: a write to AT_TWIN(t) with Handover 1. -/
def execHandover (t : Nat) (v : Word) (s : State) : Out := .next (writeTwin t (F.AT_TWIN_Handover.put v 1) s)

/-- ANALOGUE_SUPPLY_VALID. -/
def execAnalogueSupplyValid (s : State) : Out := .next (supplyValid s)

/-- PEAK_DIFF_READ. -/
def execPeakDiffRead (req : Req) (t : Nat) (s : State) : Out :=
  .next ((readClear (Reg.AT_SUPSTAT t) F.AT_SUPSTAT_PeakDiff s).2.give req
    [(readClear (Reg.AT_SUPSTAT t) F.AT_SUPSTAT_PeakDiff s).1])

/-- DAC_PORT_UNCORRECTABLE_READ. -/
def execDacPortUncorrectableRead (t : Nat) (s : State) : Out := .next (dacPoison t s)

/-- MODULATOR_RESUME. -/
def execModulatorResume (t m : Nat) (s : State) : Out := .next (modResume t m s)

end Sys2Proof.Machine
end

