-- ==== Sys2Proof/Machine/Clock.lean ====
section
/-!
DEFINITION. Clocks and line time (chapter 02): the crystal monitors, switchover and holdover, the rate
trim and the slew of LINETIME, and the registers of the SYS block that have a rule of their own.
-/
namespace Sys2Proof.Machine

def State.setClock (s : State) (c : Clock) : State := { s with clock := c }

/-- Is this crystal valid (R487)? false is XTAL_A, true XTAL_B. -/
def Clock.valid (c : Clock) (x : Bool) : Bool := if x then c.bValid else c.aValid

def Clock.setValid (c : Clock) (x v : Bool) : Clock := if x then { c with bValid := v } else { c with aValid := v }

def Clock.since (c : Clock) (x : Bool) : Nat := if x then c.bSince else c.aSince

def Clock.setSince (c : Clock) (x : Bool) (t : Nat) : Clock :=
  if x then { c with bSince := t } else { c with aSince := t }

def Clock.lost (c : Clock) (x : Bool) : Nat := if x then c.bLost else c.aLost

def Clock.setLost (c : Clock) (x : Bool) (t : Nat) : Clock :=
  if x then { c with bLost := t } else { c with aLost := t }

/-- Events 912 to 915 of the clocks have no enable. -/
def clkFlag (f : Fld) (e : Nat) (s : State) : State := s.flag Reg.SYS_CLK_FAULT f true e

/-- Select names crystal `x` (R23). -/
def setSelect (x : Bool) (s : State) : State := s.putBit Reg.SYS_CLK_CTL F.SYS_CLK_CTL_Select x

/-- A switch to crystal `x` begins: Switching reads 1 until the switch instant (R20, R23). -/
def beginSwitch (x : Bool) (s : State) : State :=
  setSelect x (s.setClock { s.clock with switching := some x, switchAt := s.tick })

/-- The declaration that crystal `x` is lost (R19, R20, R25). A reference that is lost before the PLL has locked
to it after an expiry leaves no reference, so the next valid crystal is taken (R24, log entry 219). DESIGN CHOICE
(log entry 220): a switch to the crystal that is lost ends, Select names the active crystal again, and
SwitchRefused stays as it is. -/
def loseCrystal (x : Bool) (s : State) : State :=
  if !s.clock.valid x then s else
  let s := s.setClock ((s.clock.setValid x false).setLost x (s.tick + 1))
  let s := clkFlag (if x then F.SYS_CLK_FAULT_XtalBLoss else F.SYS_CLK_FAULT_XtalALoss) (if x then 913 else 912) s
  if x = s.clock.active && s.clock.clockLost && !s.clock.pllLocked then
    s.setClock { s.clock with reacquired := false }
  else if x = s.clock.active then
    let s := s.setClock { s.clock with holdover := true, lossTick := s.tick, lossLt := s.lt, lostXtal := x }
    if s.clock.switching.isNone && s.bit Reg.SYS_CLK_CTL F.SYS_CLK_CTL_AutoSwitch && s.clock.valid (!x) then
      beginSwitch (!x) s
    else s
  else if s.clock.switching = some x then
    setSelect s.clock.active (s.setClock { s.clock with switching := none })
  else s

/-- Has R24 let the outputs go: the reference valid for 1 ms, PllLocked, and Release written? -/
def tryRelease (s : State) : State :=
  let c := s.clock
  if c.clockLost && c.released && c.pllLocked && c.valid c.active && decide (c.since c.active + 1600000 ≤ c.tick) then
    s.setClock { c with clockLost := false, released := false, reacquired := false }
  else s

/-- The first crystal to become valid after the expiry is taken as the reference (R24). -/
def reacquire (x : Bool) (s : State) : State :=
  let s := setSelect x (s.setClock { s.clock with active := x, reacquired := true, switching := none })
  if x = s.clock.lostXtal then s else clkFlag F.SYS_CLK_FAULT_Switched 914 s

/-- Has crystal `x` met both checks for 1 ms since its loss (R487)? -/
def mayGain (x : Bool) (s : State) : Bool :=
  !s.clock.valid x && (s.clock.lost x = 0 || decide (s.clock.lost x - 1 + 1600000 ≤ s.tick))

/-- XTAL_B is taken as the reference at the end of the tick in which it becomes valid: XTAL_A, valid in the same
tick, is taken before it (R24). -/
def reacquireLate (s : State) : State :=
  if s.clock.clockLost && !s.clock.reacquired && s.clock.bValid && s.clock.bSince = s.tick then reacquire true s else s

/-- Crystal `x` becomes valid (R487). XTAL_A is taken as the reference at once (R24). DESIGN CHOICE (log entry
221): a standby that is valid at the expiry with AutoSwitch 0 has become valid before it and is not taken by itself. -/
def gainCrystal (x : Bool) (s : State) : State :=
  if !mayGain x s then s else
  let s := s.setClock ((s.clock.setValid x true).setSince x s.tick)
  if s.clock.clockLost && !s.clock.reacquired then if x then s else reacquire x s
  else if s.clock.holdover && s.clock.switching.isNone && x != s.clock.active &&
      s.bit Reg.SYS_CLK_CTL F.SYS_CLK_CTL_AutoSwitch then beginSwitch x s
  else s

/-- A cue whose 64-tick path spans the switch instant takes effect 64 ticks ± 1 tick after its sampling tick, plus
its delay; every other keeps its tick (R22). -/
def shiftFlight (now : Nat) (d : Int) (f : Flight) : Flight :=
  if f.due ≤ now || now < f.start || f.start + pathTicks ≤ now then f
  else
    let nominal : Int := (f.start + pathTicks + f.delay : Nat)
    { f with due := Nat.max now (nominal + clampInt (-1) 1 ((f.due : Int) - nominal + clampInt (-1) 1 d)).toNat }

/-- A slot is held to its own effect (R42, R46). -/
def shiftSlot (fs : List Flight) (k : Nat) (sl : Slot) : Slot :=
  match fs.find? (fun f => f.slot = some k) with
  | some f => if sl.st == .inFlight then { sl with due := f.due } else sl
  | none => sl

def shiftTarget (now : Nat) (d : Int) (t : Target) : Target :=
  let fs := t.flights.map (shiftFlight now d)
  { t with flights := fs, slots := t.slots.mapIdx (shiftSlot fs) }

def shiftCues (d : Int) (s : State) : State :=
  { s with cue := { s.cue with
      targets := Tab.mk (s.cue.targets.cells.map (fun c => (c.1, shiftTarget s.tick d c.2)))
      taps := Tab.mk (s.cue.taps.cells.map (fun c => (c.1, c.2.map (shiftFlight s.tick d)))) } }

/-- The switch instant (R20, R22, R23). After an expiry a switch asked for under R23 gives the PLL its reference
(log entry 221). -/
def switchNow (d : Int) (s : State) : State :=
  match s.clock.switching with
  | none => s
  | some x =>
    if !s.clock.valid x then s else
    let was := s.clock
    let s := s.setClock { s.clock with active := x, switching := none, holdover := false, reacquired := was.reacquired || was.clockLost }
    let s := clkFlag F.SYS_CLK_FAULT_Switched 914 (shiftCues d s)
    if was.holdover then s.logFault (if was.lostXtal then 913 else 912) 0x07 0x05 (b2n was.lostXtal) was.lossLt s.lt
    else s

/-- The switch instant comes at most 2 µs after the declaration or the write (R20, R21, R23). Where no command
has brought it by then it comes in that tick, its shift of the CUE edges a free value of R22. -/
def switchDue (s : State) : State :=
  if s.clock.switching.isSome && decide (s.clock.switchAt + 3200 ≤ s.tick) then
    switchNow (((s.takeFree.1.toNat % 3 : Nat) : Int) - 1) s.takeFree.2
  else s

/-- SYS_XTAL_MON.StandbyOffset is updated every 2 µs. The spec states no value and no phase: a free value, taken
in each tick that 3,200 divides (DESIGN CHOICE, log entry 30). -/
def measureStandby (s : State) : State :=
  if s.tick % 3200 = 0 && s.tick != 0 then
    s.takeFree.2.setFld Reg.SYS_XTAL_MON F.SYS_XTAL_MON_StandbyOffset s.takeFree.1.toNat
  else s

/-- The value of Select in a write (R23): each write of SYS_CLK_CTL is one. While Switching is 1 it is ignored and
sets SwitchRefused, whichever crystal it names. -/
def writeSelect (x : Bool) (s : State) : State :=
  if s.clock.switching.isSome then clkFlag F.SYS_CLK_FAULT_SwitchRefused 914 s
  else if x = s.bit Reg.SYS_CLK_CTL F.SYS_CLK_CTL_Select then s
  else if !s.clock.valid x then clkFlag F.SYS_CLK_FAULT_SwitchRefused 914 s
  else beginSwitch x s

/-- A write to SYS_CLK_CTL (R23, R24). -/
def writeClkCtl (v : Word) (s : State) : State :=
  let s := s.setFld Reg.SYS_CLK_CTL F.SYS_CLK_CTL_AutoSwitch (F.SYS_CLK_CTL_AutoSwitch.get v)
  let s := writeSelect (F.SYS_CLK_CTL_Select.get v != 0) s
  if F.SYS_CLK_CTL_Release.get v = 1 && s.clock.clockLost then
    tryRelease (s.setClock { s.clock with released := true })
  else s

/-- The PLL locks to the reacquired crystal (R24). -/
def relockPll (s : State) : State :=
  if s.clock.clockLost && s.clock.reacquired && !s.clock.pllLocked && s.clock.valid s.clock.active then
    tryRelease (s.setClock { s.clock with pllLocked := true })
  else s

/-! ### LINETIME -/

/-- FOLLOW mode, in which the TIME_SYNC servo owns the trims (R32). -/
def following (s : State) : Bool := s.fld Reg.SYS_LT_CTL F.SYS_LT_CTL_Mode = 1

/-- The correction of R30 that falls on the next tick: its direction, and the accumulator after it. -/
def rateStep (s : State) : Int × Int :=
  let acc := s.clock.rateAcc + (s.reg Reg.SYS_LT_RATE).toInt
  if (2 ^ 40 : Int) ≤ acc then (1, acc - 2 ^ 40)
  else if acc ≤ -(2 ^ 40 : Int) then (-1, acc + 2 ^ 40)
  else (0, acc)

/-- The slew tick of R31 that falls on the next tick: its direction (0 none), SYS_LT_PENDING after it and
the slew counter after it. Two holds on one tick defer the slew tick. -/
def slewStep (rate : Int) (s : State) : Int × BitVec 32 × Nat :=
  let c := s.clock
  if c.slew = 0 then (0, 0, 0)
  else
    let cnt := c.slewCnt + 1
    let dir : Int := if c.slew.toInt < 0 then -1 else 1
    if cnt < 2 ^ s.fld Reg.SYS_LT_CTL F.SYS_LT_CTL_SlewLimit then (0, c.slew, cnt)
    else if rate = -1 && dir = -1 then (0, c.slew, cnt)
    else (dir, c.slew - BitVec.ofInt 32 dir, 0)

/-- The clocks over one tick: the tick index, LINETIME and its trims (R16, R26, R30, R31). -/
def tickClock (s : State) : State :=
  let (r, acc) := rateStep s
  let (d, slew, cnt) := slewStep r s
  let lt := (s.clock.lt + (1 + r + d).toNat) % 2 ^ 64
  let eng := (s.clock.tick + 1) % 2 = 0
  s.setClock { s.clock with
    tick := s.clock.tick + 1, lt := lt, rateAcc := acc, slew := slew, slewCnt := cnt,
    ltEnd := if eng then s.clock.lt else s.clock.ltEnd, ltStart := if eng then lt else s.clock.ltStart }

/-- A read of SYS_LT_LO: the low word, with the high word snapshotted for the requester (R27). -/
def readLineTime (req : Req) (s : State) : Word × State :=
  (BitVec.ofNat 32 s.lt, s.setPreg req Reg.SYS_LT_HI (BitVec.ofNat 32 (s.lt / 2 ^ 32)))

/-- A write to SYS_LT_ADJ adds to SYS_LT_PENDING (R31, R32). The spec states no sum outside 32 bits: a
free value stands there. -/
def adjustLineTime (v : Word) (s : State) : State :=
  if following s then s else
  let sum := s.clock.slew.toInt + v.toInt
  let (p, s) := if -(2 ^ 31 : Int) ≤ sum && sum < 2 ^ 31 then (BitVec.ofInt 32 sum, s) else s.takeFree
  s.setClock { s.clock with slew := p, slewCnt := if s.clock.slew = 0 then 0 else s.clock.slewCnt }

/-- A write to SYS_LT_CTL: Mode 0b11 is ignored, SlewLimit below 8 stores 8, Load waits for the next CONV
edge (R33). -/
def writeLtCtl (v : Word) (s : State) : State :=
  let s := if F.SYS_LT_CTL_Mode.get v = 3 then s
    else s.setFld Reg.SYS_LT_CTL F.SYS_LT_CTL_Mode (F.SYS_LT_CTL_Mode.get v)
  let s := s.setFld Reg.SYS_LT_CTL F.SYS_LT_CTL_SlewLimit (Nat.max 8 (F.SYS_LT_CTL_SlewLimit.get v))
  if F.SYS_LT_CTL_Load.get v = 1 && s.clock.loadReq.isNone then
    (s.setBit Reg.SYS_LT_CTL F.SYS_LT_CTL_Load).setClock { s.clock with loadReq := some s.tick }
  else s

/-- A write to SYS_LT_RATE is ignored in FOLLOW mode. -/
def writeLtRate (v : Word) (s : State) : State := if following s then s else s.setReg Reg.SYS_LT_RATE v

/-- SYS_CLK_STATUS as the clock block stands. -/
def clkStatus (s : State) : Word :=
  let c := s.clock
  BitVec.ofNat 32 (b2n c.active + 2 * b2n c.aValid + 4 * b2n c.bValid + 8 * b2n c.holdover +
    16 * b2n c.switching.isSome + 32 * b2n c.pllLocked + 64 * b2n c.clockLost + 128 * b2n c.loopBw)

/-- Is this tick a CONV edge strictly after tick `t` (R16, R17)? -/
def convAfter (t : Nat) (s : State) : Bool := s.tick % 8 = 0 && decide (t < s.tick)

/-! ### The commands -/

/-- CRYSTAL_LOSS. -/
def execCrystalLoss (x : Bool) (s : State) : Out := .next (loseCrystal x s)

/-- CRYSTAL_VALID. -/
def execCrystalValid (x : Bool) (s : State) : Out := .next (gainCrystal x s)

/-- SWITCHOVER. The operand is the shift of the CUE edges, -1, 0 or 1 tick. -/
def execSwitchover (d : Int) (s : State) : Out := .next (switchNow d s)

/-- LINETIME_READ. -/
def execLinetimeRead (req : Req) (s : State) : Out :=
  .next ((readLineTime req s).2.give req [(readLineTime req s).1])

/-- SLEW_ADJUST. -/
def execSlewAdjust (_req : Req) (v : Word) (s : State) : Out :=
  .next (adjustLineTime v s)

end Sys2Proof.Machine
end

