-- ==== Sys2Proof/Machine/HostFlags.lean ====
section
/-!
DEFINITION. The flags of the host port and the record of a host protocol violation (R312, R322).
-/
namespace Sys2Proof.Machine

/-- Sets a flag of HOST_FLAGS, with its event (R322). -/
def hostFlag (f : Fld) (s : State) : State :=
  let i := f.lsb
  let e := if i = 0 then 872 else if i ≤ 2 then 873 else if i ≤ 5 then 874 else if i = 6 then 875 else if i = 7 then 876 else 877
  s.flag Reg.HOST_FLAGS f (bitN (s.reg Reg.HOST_EVTEN).toNat i) e

/-- A violation of code `c` at an internal address (R312). -/
def hostViol (c a : Nat) (s : State) : State :=
  let s := (s.setFld Reg.HOST_VIOL F.HOST_VIOL_Code c).countUp Reg.HOST_VIOL F.HOST_VIOL_Count
  hostFlag F.HOST_FLAGS_Violation (s.setReg64 Reg.HOST_VIOL_ADDR_LO (a % 2 ^ 48))

/-- A Data Port's own flag with DpFault. -/
def dpFault (n : Nat) (f : Fld) (s : State) : State := hostFlag F.HOST_FLAGS_DpFault (s.setBit (Reg.DP_STAT n) f)

end Sys2Proof.Machine
end

