-- ==== Sys2Proof/Machine/SeamOut.lean ====
section
/-!
DEFINITION. The Seam Link (chapter 16): ports, the link layer, routing, the issue of requests and answers, and
the time path. What the device does with a request that reaches it stands in SeamIn.lean.
-/
namespace Sys2Proof.Machine

def State.setSeam (s : State) (x : Seam) : State := { s with seam := x }

def State.sport (s : State) (k : Nat) : SeamPort := s.seam.ports.get SeamPort.init k

def State.setSport (s : State) (k : Nat) (x : SeamPort) : State :=
  s.setSeam { s.seam with ports := s.seam.ports.set SeamPort.init k x }

/-- Sets a flag of SL_PFLAGS(k), with its event (R399). -/
def seamFlag (k : Nat) (f : Fld) (s : State) : State :=
  let i := f.lsb
  let j := if i ≤ 2 then 0 else if i ≤ 4 then 1 else if i ≤ 6 then 2 else 3
  s.flag (Reg.SL_PFLAGS k) f (bitN (s.reg (Reg.SL_PEVTEN k)).toNat i) (848 + 4 * k + j)

/-! ### Port states (R371) -/

def spOff : Nat := 0
def spTraining : Nat := 1
def spUp : Nat := 2
def spQuarantine : Nat := 3

def spState (k : Nat) (s : State) : Nat := s.fld (Reg.SL_PSTAT k) F.SL_PSTAT_State

def spIsUp (k : Nat) (s : State) : Bool := decide (k < 4) && spState k s = spUp

/-- UP or QUARANTINE. -/
def spOpen (k : Nat) (s : State) : Bool := spState k s = spUp || spState k s = spQuarantine

def setSpState (k x : Nat) (s : State) : State := s.setFld (Reg.SL_PSTAT k) F.SL_PSTAT_State x

def popLanes (m : Nat) : Nat := ((List.range 4).filter (fun i => bitN m i)).length

/-- IdValid on both sides of the port (R380). -/
def idsOk (k : Nat) (s : State) : Bool :=
  s.bit Reg.SL_CTL F.SL_CTL_IdValid && s.bit (Reg.SL_PSTAT k) F.SL_PSTAT_PeerIdValid

def deviceId (s : State) : Nat := s.fld Reg.SL_CTL F.SL_CTL_DeviceId

/-! ### Sending (R376 to R378) -/

def noFlit : Flit :=
  { crcOk := true, stomped := false, kind := 0, cls := 0, ans := false, mcast := false, hops := 0, clean := true, dst := 0,
    src := 0, tid := 0, len := 0, status := 0, seq := 0, ack := 0, nak := false, reason := 0, credit := 0, payload := [] }

/-- The sequence word's Ack, Nak and CreditRet as the port sends them now. -/
def withAck (k : Nat) (f : Flit) (s : State) : Flit :=
  let x := s.sport k
  { f with
    ack := (x.expect + 4095) % 4096, nak := x.nak.isSome, reason := x.nak.getD 0, credit := Nat.min 15 x.owed }

/-- A flit leaves: the Nak and the credits it carried have gone with it. -/
def leaves (k : Nat) (s : State) : State :=
  let x := s.sport k
  s.setSport k { x with
    nak := none, owed := x.owed - Nat.min 15 x.owed, given := x.given + Nat.min 15 x.owed, sentAt := s.tick }

/-- A flit that is not DATA is sent. -/
def sendOther (k : Nat) (f : Flit) (s : State) : State :=
  let f := withAck k f s
  let s := leaves k s
  s.setSport k { s.sport k with sent := some f }

/-- One waiting DATA flit leaves where a credit and room for it are there. -/
def sendOne (k : Nat) (s : State) : State :=
  let x := s.sport k
  match x.waiting with
  | [] => s
  | f :: rest =>
    if !spIsUp k s || x.credits = 0 || decide (512 ≤ x.replay.length) then s
    else
      let f := { withAck k f s with seq := x.nextSeq }
      let s := leaves k s
      let x := s.sport k
      s.setSport k { x with
        waiting := rest, replay := x.replay ++ [f], credits := x.credits - 1, nextSeq := (x.nextSeq + 1) % 4096,
        progAt := if x.replay.isEmpty then s.tick else x.progAt }

/-- As many waiting flits leave as may. -/
def pump (k : Nat) (s : State) : State := (List.range (s.sport k).waiting.length).foldl (fun s _ => sendOne k s) s

def sendData (k : Nat) (f : Flit) (s : State) : State :=
  pump k (s.setSport k { s.sport k with waiting := (s.sport k).waiting ++ [f] })

/-- SL_PSTAT(k) as it reads. -/
def seamStat (k : Nat) (s : State) : Word := F.SL_PSTAT_Credits.put (s.reg (Reg.SL_PSTAT k)) (s.sport k).credits

/-! ### Classes -/

def clsWrite : Nat := 1
def clsRead : Nat := 2
def clsResp : Nat := 3
def clsMsg : Nat := 4
def clsCue : Nat := 5
def clsTime : Nat := 6
def clsAttest : Nat := 7

def stOk : Nat := 0
def stUnreachable : Nat := 1
def stAccess : Nat := 2
def stUncorrectable : Nat := 3
def stBusy : Nat := 4
def stHops : Nat := 5
def stTimeout : Nat := 6

/-- `n` bytes of the payload from offset `o`, as a number. -/
def plNat (f : Flit) (o n : Nat) : Nat := leNat ((f.payload.drop o).take n)

/-- A DATA flit of this device. -/
def mkData (cls : Nat) (ans mcast : Bool) (dst tid status : Nat) (pl : List Byte) (s : State) : Flit :=
  { noFlit with
    kind := 2, cls := cls, ans := ans, mcast := mcast, dst := dst, tid := tid, status := status, payload := pl,
    len := pl.length, src := deviceId s, hops := s.fld Reg.SL_CTL F.SL_CTL_MaxHops }

def zeros (n : Nat) : List Byte := List.replicate n 0

/-- Payload of a WRITE. -/
def writePayload (a : Nat) (bs : List Byte) : List Byte := leBytes 8 a ++ leBytes 2 bs.length ++ zeros 6 ++ bs

def readPayload (a n : Nat) : List Byte := leBytes 8 a ++ leBytes 2 n

def msgPayload (event : Nat) (bs : List Byte) : List Byte := leBytes 2 event ++ leBytes 2 bs.length ++ zeros 12 ++ bs

/-! ### Routing (R381, R393) -/

/-- The route to device `d`: the port, and UseAlt set by the first lookup that finds the primary not UP. -/
def lookupRoute (d : Nat) (s : State) : Option Nat × State :=
  let r := Reg.SL_ROUTE d
  let p := s.fld r F.SL_ROUTE_Primary
  let a := s.fld r F.SL_ROUTE_Alternate
  let alt := if spIsUp a s then some a else none
  if 4 ≤ p then (alt, s)
  else if s.bit r F.SL_ROUTE_UseAlt then (alt, s)
  else if spIsUp p s then (some p, s)
  else (alt, s.setBit r F.SL_ROUTE_UseAlt)

/-- Does no route of device `d` name a port? -/
def unknownDst (d : Nat) (s : State) : Bool :=
  decide (4 ≤ s.fld (Reg.SL_ROUTE d) F.SL_ROUTE_Primary) && decide (4 ≤ s.fld (Reg.SL_ROUTE d) F.SL_ROUTE_Alternate)

def dropAnswer (s : State) : State := s.countUp Reg.SL_LOST F.SL_LOST_DropCount

/-! ### Requests of the device (R387 to R389) -/

/-- A WRITE or MSG is lost: the flag and SL_LOST. -/
def lostFlit (k tid : Nat) (cls status : Nat) (s : State) : State :=
  let w := s.seam.wtids.get 0 tid
  let s := if w = 0 || decide (64 < w) then s else s.setFld Reg.SL_LOST F.SL_LOST_Window (w - 1)
  let s := s.setFld Reg.SL_LOST F.SL_LOST_Status status
  seamFlag k (if cls = clsMsg then F.SL_PFLAGS_MsgLost else F.SL_PFLAGS_WriteLost) s

def dropReq (r : SeamReq) (s : State) : State := s.setSeam { s.seam with reqs := s.seam.reqs.erase r }

/-- The outstanding request that an answer of class `cls` and Tid `tid` on port `k` names. -/
def findReq (k tid cls : Nat) (s : State) : Option SeamReq :=
  match s.seam.reqs.find? (fun r => r.port = k && r.tid = tid && r.cls = cls) with
  | some r => some r
  | none => s.seam.reqs.find? (fun r => r.tid = tid && r.cls = cls)

/-- SL_CUE_RES of a requester at an answer. -/
def cueResult (r : SeamReq) (status : Nat) (pl : List Byte) (s : State) : State :=
  let b := (pl.headD 0).toNat
  let w := F.SL_CUE_RES_Status.put (F.SL_CUE_RES_Busy.put (s.preg r.req Reg.SL_CUE_RES) 0) status
  s.setPreg r.req Reg.SL_CUE_RES (F.SL_CUE_RES_Slot.put (F.SL_CUE_RES_CueStatus.put w (b % 4)) (b / 4 % 4))

/-- The READs of the host's present read, answered in issue order: the words go to it, or the violation does. -/
def hostReadDone (n : Nat) (s : State) : State :=
  if s.seam.reqs.any (fun r => r.req = .host && r.cls = clsRead) then s
  else
    let mine := s.seam.dones.filter (fun d => d.req = .host)
    let s := s.setSeam { s.seam with dones := s.seam.dones.filter (fun d => d.req != .host) }
    match mine.find? (fun d => d.status != stOk) with
    | none => s.give .host ((List.range (mine.flatMap (·.data)).length).filterMap (fun i =>
        if i % 4 = 0 then some (BitVec.ofNat 32 (leNat (((mine.flatMap (·.data)).drop i).take 4))) else none))
    | some d =>
      if d.status = stTimeout then dpFault n F.DP_STAT_SeamTimeout (hostViol 0x07 d.addr s)
      else if d.status = stUncorrectable then dpFault n F.DP_STAT_UeRead (hostViol 0x06 d.addr s)
      else dpFault n F.DP_STAT_Fault (hostViol 0x05 d.addr s)

/-- The requester of a host read that a reset of R311 has dropped: its answer goes to nobody. -/
def dropped : Req := .seam 4

/-- An outstanding request ends with a Status. -/
def finishReq (r : SeamReq) (status : Nat) (pl : List Byte) (s : State) : State :=
  let s := dropReq r s
  if r.cls = clsRead then
    if r.req = dropped then s
    else
      let s := s.setSeam { s.seam with
        dones := s.seam.dones ++ [SeamDone.mk r.req r.port r.tid r.addr status (if status = stOk then pl.drop 16 else [])] }
      if r.req = .host then hostReadDone r.win s else s
  else if r.cls = clsCue then
    if r.got then s
    else
      let s := cueResult r status pl s
      if r.mcast && status != stTimeout then s.setSeam { s.seam with reqs := s.seam.reqs ++ [{ r with got := true }] } else s
  else s.setPreg r.req Reg.SL_ATT_CTL
    (F.SL_ATT_CTL_Status.put (F.SL_ATT_CTL_Busy.put (s.preg r.req Reg.SL_ATT_CTL) 0) status)

/-- A request of the device that could not leave is answered locally. -/
def localAnswer (k : Nat) (f : Flit) (status : Nat) (s : State) : State :=
  if f.ans then dropAnswer s
  else if f.cls = clsWrite || f.cls = clsMsg then lostFlit k f.tid f.cls status s
  else match findReq k f.tid f.cls s with
    | some r => finishReq r status [] s
    | none => s

/-- The port that a local failure is booked on. -/
def nominalPort (d : Nat) (s : State) : Nat :=
  let p := s.fld (Reg.SL_ROUTE d) F.SL_ROUTE_Primary
  if p < 4 then p else 0

/-- The ports of a multicast group that a flit from `k` leaves by. -/
def mcastPorts (g : Nat) (k : Option Nat) (s : State) : List Nat :=
  (List.range 4).filter (fun j => bitN (s.fld (Reg.SL_MCAST g) F.SL_MCAST_Ports) j && spIsUp j s && idsOk j s && k != some j)

/-- A flit that the device issues itself (R381, k = local); one for the device itself goes to its own loop. -/
def issueFlit (f : Flit) (s : State) : State :=
  let toSelf := fun (s : State) => s.setSeam { s.seam with loop := s.seam.loop ++ [f] }
  if f.mcast then
    let g := f.dst % 256
    let s := if s.bit (Reg.SL_MCAST g) F.SL_MCAST_Local then toSelf s else s
    if f.hops = 0 then s
    else (mcastPorts g none s).foldl (fun s j => sendData j { f with hops := f.hops - 1 } s) s
  else if f.dst = deviceId s then toSelf s
  else
    match lookupRoute f.dst s with
    | (some j, s) => if idsOk j s then sendData j f s else localAnswer j f stUnreachable s
    | (none, s) => localAnswer (nominalPort f.dst s) f stUnreachable s

/-- An answer to request `f`. -/
def answerTo (f : Flit) (status : Nat) (pl : List Byte) (s : State) : State :=
  if f.ans then dropAnswer s
  else issueFlit (mkData (if f.cls = clsRead then clsResp else f.cls) true false f.src f.tid status pl s) s

/-- The port that a request to `d` will leave by, for its Tid. -/
def portFor (d : Nat) (s : State) : Nat :=
  match (lookupRoute d s).1 with
  | some j => j
  | none => nominalPort d s

/-- The first Tid from nextTid on that is free on port `k`. -/
def freeTid (k : Nat) (s : State) : Option Nat :=
  ((List.range 256).map (fun i => (s.seam.nextTid + i) % 256)).find? (fun t =>
    !s.seam.reqs.any (fun r => r.port = k && r.tid = t))

def bumpTid (t : Nat) (s : State) : State := s.setSeam { s.seam with nextTid := (t + 1) % 256 }

/-- A READ, CUE_AT or ATTEST of a requester; it waits where all 256 Tids are in use. Answers its Tid. -/
def issueReq (cls : Nat) (req : Req) (win addr dst : Nat) (mcast : Bool) (pl : List Byte) (s : State) :
    Option (Nat × Nat) × State :=
  let k := if mcast then 0 else portFor dst s
  match freeTid k s with
  | none => (none, s)
  | some t =>
    let s := bumpTid t s
    let s := s.setSeam { s.seam with reqs := s.seam.reqs ++ [SeamReq.mk k t cls req win addr s.tick mcast false] }
    (some (k, t), issueFlit (mkData cls false mcast dst t 0 pl s) s)

/-- A CUE_AT or an ATTEST leaves, or waits for a Tid (R388). -/
def issueOrWait (x : TidAsk) (s : State) : State :=
  match issueReq x.cls x.req 0 x.addr x.dst x.mcast x.pl s with
  | (some _, s') => s'
  | (none, _) => s.setAsks { s.asks with tids := s.asks.tids ++ [x] }

/-- A WRITE or MSG of window `w` (none for one of the device's own). -/
def issuePost (cls : Nat) (w : Option Nat) (dst : Nat) (mcast : Bool) (pl : List Byte) (s : State) : State :=
  let t := s.seam.nextTid
  let s := bumpTid t (s.setSeam { s.seam with wtids := s.seam.wtids.set 0 t ((w.map (· + 1)).getD 0) })
  issueFlit (mkData cls false mcast dst t 0 pl s) s

/-! ### Windows (R387) -/

/-- Window and remote address of a local address. -/
def winOf (a : Nat) : Nat := (ofs 0x400000000000 a) / 0x100000000

def remoteOf (a : Nat) (s : State) : Nat :=
  let w := winOf a
  ((s.reg (Reg.SL_WIN_LO w)).toNat + 2 ^ 32 * s.fld (Reg.SL_WIN_HI w) F.SL_WIN_HI_RemoteHi +
    (ofs 0x400000000000 a) % 0x100000000) % 2 ^ 48

/-- The pieces (offset, length) of `n` bytes at `a`: at most 224 bytes, across no multiple of `m`. -/
def piecesOf (m : Nat) : Nat → Nat → Nat → Nat → List (Nat × Nat)
  | 0, _, _, _ => []
  | fuel + 1, a, o, n =>
    if n = 0 then []
    else
      let k := Nat.min (Nat.min n 224) (m - (a + o) % m)
      (o, k) :: piecesOf m fuel a (o + k) (n - k)

/-- A write through a window that takes it: WRITEs, or MSGs of a MESSAGE window. -/
def windowWrite (a : Nat) (bs : List Byte) (s : State) : State :=
  let w := winOf a
  let c := Reg.SL_WIN_CTL w
  let dst := s.fld c F.SL_WIN_CTL_DevId
  let mc := s.bit c F.SL_WIN_CTL_Mcast
  if s.bit c F.SL_WIN_CTL_Kind then
    (piecesOf (2 ^ 48) bs.length 0 0 bs.length).foldl (fun s p =>
      issuePost clsMsg (some w) dst mc (msgPayload (s.fld c F.SL_WIN_CTL_Event) ((bs.drop p.1).take p.2)) s) s
  else
    (piecesOf 4096 bs.length (remoteOf a s) 0 bs.length).foldl (fun s p =>
      issuePost clsWrite (some w) dst mc (writePayload (remoteOf a s + p.1) ((bs.drop p.1).take p.2)) s) s

/-- A read through a window that takes it; `tag` names the Data Port of a host's read. Answers the port and
Tid of its first READ. -/
def windowRead (req : Req) (tag a n : Nat) (s : State) : Option (Nat × Nat) × State :=
  let c := Reg.SL_WIN_CTL (winOf a)
  (piecesOf 4096 n (remoteOf a s) 0 n).foldl (fun (acc : Option (Nat × Nat) × State) p =>
    let r := issueReq clsRead req tag (a + p.1) (acc.2.fld c F.SL_WIN_CTL_DevId) false (readPayload (remoteOf a acc.2 + p.1) p.2) acc.2
    (acc.1.or r.1, r.2)) (none, s)

/-! ### Violations and quarantine (R397, R398) -/

def seamViol (k c : Nat) (s : State) : State :=
  if spState k s != spUp then s
  else
    let s := (s.setFld (Reg.SL_PVIOL k) F.SL_PVIOL_Code c).countUp (Reg.SL_PVIOL k) F.SL_PVIOL_Count
    let s := seamFlag k F.SL_PFLAGS_Violation s
    let win := 1600 * s.fld (Reg.SL_PVIOLCFG k) F.SL_PVIOLCFG_ViolWindow
    let l := s.tick :: (s.sport k).viols.filter (fun t => decide (s.tick < t + win))
    let s := s.setSport k { s.sport k with viols := l }
    if s.fld (Reg.SL_PVIOLCFG k) F.SL_PVIOLCFG_ViolLimit < l.length then
      seamFlag k F.SL_PFLAGS_Quarantined (setSpState k spQuarantine s)
    else s

/-! ### Loss of a port (R374, R392) -/

/-- The unacknowledged flits are discarded; the device's own are answered locally. -/
def discardReplay (k : Nat) (s : State) : State :=
  let x := s.sport k
  let cnt := s.fld (Reg.SL_PCNT k) F.SL_PCNT_Discarded + x.replay.length
  let s := s.setFld (Reg.SL_PCNT k) F.SL_PCNT_Discarded (Nat.min cnt 0xFFFF)
  let s := s.setSport k { x with replay := [], credits := 0, given := 0, owed := 0, nak := none }
  (x.replay.filter (fun f => f.src = deviceId s)).foldl (fun s f =>
    if f.ans then s else localAnswer k f stUnreachable s) s

/-- A flit that had not left goes by the routes as they stand now; a copy for a group is lost. -/
def reroute (f : Flit) (s : State) : State :=
  if f.mcast then s
  else if f.src = deviceId s then issueFlit f s
  else
    match lookupRoute f.dst s with
    | (some j, s) => if idsOk j s then sendData j f s else answerTo f stUnreachable [] s
    | (none, s) => answerTo f stUnreachable [] s

def rerouteWaiting (k : Nat) (s : State) : State :=
  let w := (s.sport k).waiting
  let s := s.setSport k { s.sport k with waiting := [] }
  w.foldl (fun s f => reroute f s) s

/-- The port leaves UP for another state. -/
def leavePort (k st : Nat) (s : State) : State :=
  let s := setSpState k st (discardReplay k s)
  rerouteWaiting k (s.setSport k { s.sport k with trainAt := s.tick, viols := [], downLt := s.lt })

/-- Port k goes to TRAINING by itself. -/
def portDown (k : Nat) (s : State) : State :=
  if !spOpen k s then s
  else
    let s := leavePort k spTraining s
    (seamFlag k F.SL_PFLAGS_Down s).logFault (848 + 4 * k) 0x06 0x05 k s.lt s.lt

/-- The unacknowledged flits are sent again; the eighth time without progress brings the port down. -/
def replayAll (k : Nat) (s : State) : State :=
  let x := s.sport k
  if x.replay.isEmpty then s
  else if 8 ≤ x.replays then portDown k (seamFlag k F.SL_PFLAGS_ReplayLimit s)
  else
    let s := s.countUp (Reg.SL_PCNT k) F.SL_PCNT_ReplayCount
    let s := leaves k s
    s.setSport k { s.sport k with replays := x.replays + 1, progAt := s.tick }

/-! ### Receiving (R376 to R379, R397) -/

/-- Ack of a received flit. -/
def takeAck (k : Nat) (f : Flit) (s : State) : State :=
  let x := s.sport k
  let n := (f.ack + 1 + 4096 + x.replay.length - x.nextSeq) % 4096
  if n = 0 then s
  else if n ≤ x.replay.length then
    s.setSport k { x with replay := x.replay.drop n, progAt := s.tick, replays := 0 }
  else if n < 2048 then seamViol k 0x06 s
  else s

def takeCredit (k : Nat) (f : Flit) (s : State) : State :=
  let x := s.sport k
  let c := x.credits + f.credit
  if 64 < c then seamViol k 0x07 (s.setSport k { x with credits := 64 }) else s.setSport k { x with credits := c }

/-- What every good flit carries: Ack, CreditRet, Nak. -/
def takeLink (k : Nat) (f : Flit) (s : State) : State :=
  let s := s.setSport k { s.sport k with gotAt := s.tick }
  if spOpen k s then
    let s := takeCredit k f (takeAck k f s)
    pump k (if f.nak then replayAll k s else s)
  else s

def setNak (k reason : Nat) (s : State) : State := s.setSport k { s.sport k with nak := some reason }

/-- The start of every arrival: a flit with a bad CRC is discarded. Answers whether the flit goes on. -/
def rxBegin (k : Nat) (f : Flit) (s : State) : Bool × State :=
  if 4 ≤ k || spState k s = spOff then (false, s)
  else if f.crcOk then (true, takeLink k f s)
  else if f.stomped then (false, s)
  else if spOpen k s then
    let s := if spState k s = spUp then seamFlag k F.SL_PFLAGS_CrcError s else s
    (false, seamViol k 0x01 (setNak k 1 s))
  else (false, s)

/-- A header that R397 calls malformed. -/
def malformed (f : Flit) : Bool :=
  let known := [1, 2, 3, 4, 5, 7].contains f.cls
  let n := if f.cls = clsMsg then plNat f 2 2 else plNat f 8 2
  let sized := !f.ans && (f.cls = clsWrite || f.cls = clsRead || f.cls = clsMsg)
  !f.clean || decide (240 < f.len) || f.kind != 2 || !known ||
    (f.mcast && (f.cls = clsRead || f.cls = clsResp || f.cls = clsAttest)) || (sized && (n = 0 || decide (224 < n)))

/-- The link layer's part of a DATA flit: answers whether the flit is accepted. -/
def rxSeq (k : Nat) (f : Flit) (s : State) : Bool × State :=
  let x := s.sport k
  let back := (x.expect + 4096 - f.seq) % 4096
  if back = 0 then
    if x.given = 0 then (false, seamViol k 0x04 s)
    else (true, s.setSport k { x with expect := (x.expect + 1) % 4096, given := x.given - 1, owed := x.owed + 1 })
  else if back ≤ 512 then (false, s)
  else (false, seamViol k 0x02 (setNak k 2 s))

/-- A DATA flit in transit or for the device: forwarded, answered, or to be delivered here (R381). -/
def rxRoute (k : Nat) (f : Flit) (s : State) : Bool × State :=
  if f.mcast then
    let g := f.dst % 256
    let s' := if f.hops = 0 then s
      else (mcastPorts g (some k) s).foldl (fun s j => sendData j { f with hops := f.hops - 1 } s) s
    (s.bit (Reg.SL_MCAST g) F.SL_MCAST_Local, s')
  else if f.dst = deviceId s then (true, s)
  else if f.hops = 0 then (false, answerTo f stHops [] s)
  else if unknownDst f.dst s then (false, answerTo f stUnreachable [] (seamViol k 0x09 s))
  else
    match lookupRoute f.dst s with
    | (some j, s) =>
      if idsOk j s then (false, sendData j { f with hops := f.hops - 1 } s)
      else (false, answerTo f stUnreachable [] (seamViol k 0x09 s))
    | (none, s) => (false, answerTo f stUnreachable [] s)

/-- A DATA flit of class `cls` (and Ans `ans`) arrives on port `k`; port 4 is the device's own loop. Answers
whether it is delivered here. -/
def rxData (k cls : Nat) (ans : Bool) (f : Flit) (s : State) : Bool × State :=
  if k = 4 then
    if s.seam.loop.head? = some f && f.cls = cls && f.ans = ans then (true, s.setSeam { s.seam with loop := s.seam.loop.drop 1 })
    else (false, s)
  else
    match rxBegin k f s with
    | (false, s) => (false, s)
    | (true, s) =>
      if !spOpen k s then (false, s)
      else
        match rxSeq k f s with
        | (false, s) => (false, s)
        | (true, s) =>
          if spState k s = spQuarantine then (false, s)
          else if malformed f || f.cls != cls || f.ans != ans then (false, seamViol k 0x03 s)
          else if !idsOk k s then (false, answerTo f stUnreachable [] (seamViol k 0x09 s))
          else rxRoute k f s

/-! ### Port control (R371 to R374, R398) -/

/-- SL_PCTL(k) as written, with its actions. -/
def writeSeamPctl (k : Nat) (v : Word) (s : State) : State :=
  let was := s.bit (Reg.SL_PCTL k) F.SL_PCTL_PortEnable
  let s := s.plainWrite (Reg.SL_PCTL k) v
  let on := F.SL_PCTL_PortEnable.get v = 1
  let s := if was && !on then leavePort k spOff s
    else if on && !was then setSpState k spTraining (s.setSport k { s.sport k with trainAt := s.tick })
    else s
  let s := if F.SL_PCTL_Release.get v = 1 && spState k s = spQuarantine then
    pump k (setSpState k spUp (s.setSport k { s.sport k with viols := [] })) else s
  if F.SL_PCTL_Retrain.get v = 1 && on then leavePort k spTraining s else s

/-- What the partner's HELLO tells. -/
def setPeer (k id : Nat) (valid : Bool) (port : Nat) (s : State) : State :=
  let w := F.SL_PSTAT_PeerIdValid.put (s.reg (Reg.SL_PSTAT k)) (b2n valid)
  s.setReg (Reg.SL_PSTAT k) (F.SL_PSTAT_PeerPort.put (F.SL_PSTAT_PeerId.put w id) port)

/-- Training completes on the lanes `m`. -/
def trainDone (k m id : Nat) (valid : Bool) (port : Nat) (s : State) : State :=
  let lanes := m &&& s.fld (Reg.SL_PCTL k) F.SL_PCTL_LaneEnable
  if spState k s != spTraining || decide (popLanes lanes < 2) then s
  else
    let s := setPeer k id valid port (setSpState k spUp s)
    let s := s.setFld (Reg.SL_PSTAT k) F.SL_PSTAT_LanesActive lanes
    let x := s.sport k
    let s := s.setSport k { x with
      expect := 0, nextSeq := 0, replay := [], credits := 64, given := 64, owed := 0, nak := none, sentAt := s.tick,
      gotAt := s.tick, progAt := s.tick, replays := 0, viols := [] }
    pump k (seamFlag k F.SL_PFLAGS_Up s)

/-- Training starts again 1 ms after its last start. -/
def trainAgain (k : Nat) (s : State) : State :=
  if spState k s = spTraining && decide ((s.sport k).trainAt + 1600000 ≤ s.tick) then
    s.setSport k { s.sport k with trainAt := s.tick }
  else s

/-- A lane is spared; fewer than two left bring the port down. -/
def spareLane (k lane : Nat) (s : State) : State :=
  let m := s.fld (Reg.SL_PSTAT k) F.SL_PSTAT_LanesActive
  if spState k s != spUp || decide (4 ≤ lane) || !bitN m lane then s
  else
    let m' := m - 2 ^ lane
    if popLanes m' < 2 then portDown k s
    else
      let s := s.setFld (Reg.SL_PSTAT k) F.SL_PSTAT_LanesActive m'
      let s := sendOther k { noFlit with kind := 1, len := 2, payload := [2, BitVec.ofNat 8 m'] } s
      (seamFlag k F.SL_PFLAGS_LaneSpared s).logFault (848 + 4 * k) 0x05 0x03 k s.lt s.lt

/-- The port's own reasons to go to TRAINING (R374): 0 no good flit for 2 µs, 1 eight replays, 2 too few lanes. -/
def downDue (k why : Nat) (s : State) : Bool :=
  let x := s.sport k
  if why = 0 then decide (x.gotAt + 3200 ≤ s.tick)
  else if why = 1 then decide (8 ≤ x.replays)
  else true

def downFor (k why : Nat) (s : State) : State :=
  if spOpen k s && downDue k why s then portDown k (if why = 1 then seamFlag k F.SL_PFLAGS_ReplayLimit s else s) else s

/-- A flit of kind `kind` and class `cls` that is not DATA, as R397 takes its header. -/
def oddHeader (kind cls : Nat) (f : Flit) : Bool := f.kind != kind || f.cls != cls || !f.clean || decide (240 < f.len) || f.mcast

/-- An IDLE flit carries what every good flit carries. -/
def takeIdle (k : Nat) (f : Flit) (s : State) : State :=
  match rxBegin k f s with
  | (false, s) => s
  | (true, s) => if oddHeader 0 0 f then seamViol k 0x03 s else s

/-- A HELLO: in TRAINING the partner's data, while UP a violation. Byte 0 is Op; DeviceId, IdValid and the port
number follow. -/
def takeHello (k : Nat) (f : Flit) (s : State) : State :=
  match rxBegin k f s with
  | (false, s) => s
  | (true, s) =>
    if oddHeader 1 0 f then seamViol k 0x03 s
    else if spState k s = spTraining then
      let w := plNat f 1 3
      setPeer k (w % 4096) (bitN w 12) (w / 2 ^ 13 % 4) s
    else seamViol k 0x0A s

/-- A LANE_MAP: the new lane mask. -/
def takeLaneMap (k : Nat) (f : Flit) (s : State) : State :=
  match rxBegin k f s with
  | (false, s) => s
  | (true, s) =>
    let m := plNat f 1 1
    if oddHeader 1 0 f then seamViol k 0x03 s
    else if popLanes m < 2 || m != m &&& s.fld (Reg.SL_PCTL k) F.SL_PCTL_LaneEnable then seamViol k 0x0A s
    else s.setFld (Reg.SL_PSTAT k) F.SL_PSTAT_LanesActive m

/-- An IDLE flit sent where nothing has been for 1 µs, or a Nak or credits wait. -/
def idleSend (k : Nat) (s : State) : State :=
  let x := s.sport k
  if spOpen k s && (decide (x.sentAt + 1600 ≤ s.tick) || x.nak.isSome || x.owed != 0) then sendOther k noFlit s else s

/-- 4 µs without acknowledgement progress. -/
def replayTimeout (k : Nat) (s : State) : State :=
  let x := s.sport k
  if spOpen k s && !x.replay.isEmpty && decide (x.progAt + 6400 ≤ s.tick) then replayAll k s else s

/-! ### Answers (R386 to R389) -/

/-- An answer that matches no outstanding request. -/
def strayAnswer (k : Nat) (s : State) : State := if k < 4 then seamViol k 0x05 s else s

def takeAnswer (k cls : Nat) (f : Flit) (s : State) : State :=
  match findReq k f.tid cls s with
  | none => strayAnswer k s
  | some r =>
    if r.got then
      s.setPreg r.req Reg.SL_CUE_RES (F.SL_CUE_RES_ExtraAnswers.put (s.preg r.req Reg.SL_CUE_RES)
        (satInc 8 (F.SL_CUE_RES_ExtraAnswers.get (s.preg r.req Reg.SL_CUE_RES))))
    else finishReq r f.status f.payload s

/-- A request without an answer: 40 µs, or 1 s for an ATTEST (R388). -/
def requestTimeout (k tid : Nat) (s : State) : State :=
  match s.seam.reqs.find? (fun r => r.port = k && r.tid = tid) with
  | none => s
  | some r =>
    if s.tick < r.at' + (if r.cls = clsAttest then 1600000000 else 64000) then s
    else if r.got then dropReq r s
    else seamFlag k (if r.cls = clsRead then F.SL_PFLAGS_ReadTimeout else F.SL_PFLAGS_AnswerLost)
      (finishReq r stTimeout [] s)

/-- Is the flit the final answer of a report of this device to device `d` (R391), still OK? -/
def isReportEnd (d : Nat) (x : Flit) (s : State) : Bool :=
  x.cls = clsAttest && x.ans && x.dst = d && x.src = deviceId s && x.status = stOk

/-- Is it one of the WRITEs of such a report, which belong to no window? -/
def isReportWrite (d : Nat) (x : Flit) (s : State) : Bool :=
  x.cls = clsWrite && !x.ans && x.dst = d && x.src = deviceId s && s.seam.wtids.get 0 x.tid = 0

/-- The report to device `d` goes no further: its waiting WRITEs are dropped and its answer takes the Status. -/
def cutReport (d status : Nat) (s : State) : State :=
  (List.range 4).foldl (fun s k =>
    let w := (s.sport k).waiting
    if w.any (fun x => isReportEnd d x s) then
      s.setSport k { s.sport k with
        waiting := (w.filter (fun x => !isReportWrite d x s)).map (fun x =>
          if isReportEnd d x s then { x with status := status } else x) }
    else s) s

/-- A failure answer to a WRITE or MSG. One to a report's WRITE ends the report (R391). -/
def takeFailure (k : Nat) (f : Flit) (s : State) : State :=
  if f.status = stOk then s
  else
    let s := if f.cls = clsWrite && s.seam.wtids.get 0 f.tid = 0 then cutReport f.src f.status s else s
    lostFlit k f.tid f.cls f.status s

/-! ### Requests through staging registers (R389, R391) -/

/-- SL_CUE_GO of a requester. -/
def cueAtGo (req : Req) (v : Word) (s : State) : State :=
  let s := s.setPreg req Reg.SL_CUE_GO (v &&& BitVec.ofNat 32 0x03FF1FFF)
  if F.SL_CUE_GO_Go.get v = 0 || F.SL_CUE_RES_Busy.get (s.preg req Reg.SL_CUE_RES) = 1 then s
  else
    let t := (s.preg req Reg.SL_CUE_TLO).toNat + 2 ^ 32 * (s.preg req Reg.SL_CUE_THI).toNat
    let arg := s.preg req Reg.SL_CUE_ARG
    let pl := leBytes 8 t ++ leBytes 3 (F.SL_CUE_ARG_Delay.get arg) ++ leBytes 1 (F.SL_CUE_ARG_Action.get arg) ++
      leBytes 2 (F.SL_CUE_GO_Target.get v)
    issueOrWait (TidAsk.mk clsCue req 0 (F.SL_CUE_GO_Dst.get v) (F.SL_CUE_GO_Mcast.get v = 1) pl)
      (s.setPreg req Reg.SL_CUE_RES (F.SL_CUE_RES_Busy.put 0 1))

/-- May the nonce's 32 bytes be read there? -/
def nonceOk (a : Nat) (s : State) : Bool :=
  match regionOf a s with
  | .store _ => decide (regionOf (a + 31) s = regionOf a s) && !anyPoison a 32 s
  | .lpddr => decide (regionOf (a + 31) s = .lpddr) && !anyPoison a 32 s && fenceOk .mantle false a 32 s
  | _ => false

/-- SL_ATT_CTL of a requester. -/
def attestGo (req : Req) (v : Word) (s : State) : State :=
  let old := s.preg req Reg.SL_ATT_CTL
  let w := F.SL_ATT_CTL_Dst.put old (F.SL_ATT_CTL_Dst.get v)
  if F.SL_ATT_CTL_Go.get v = 0 then s.setPreg req Reg.SL_ATT_CTL w
  else if F.SL_ATT_CTL_Busy.get old = 1 then s
  else
    let a := (s.preg req Reg.SL_ATT_LO).toNat + 2 ^ 32 * F.SL_ATT_HI_Addr.get (s.preg req Reg.SL_ATT_HI)
    if nonceOk a s then
      issueOrWait (TidAsk.mk clsAttest req a (F.SL_ATT_CTL_Dst.get v) false (s.bytes a 32 ++ leBytes 8 a))
        (s.setPreg req Reg.SL_ATT_CTL (F.SL_ATT_CTL_Status.put (F.SL_ATT_CTL_Busy.put w 1) 0))
    else s.setPreg req Reg.SL_ATT_CTL (F.SL_ATT_CTL_Status.put w stAccess)

/-- The MSG of an event that waits to leave (R432). -/
def eventMsg (e : Nat) (s : State) : State :=
  match lookupCell e s.seamEvts.cells with
  | none => s
  | some m =>
    let s := { s with seamEvts := ⟨putCell e none s.seamEvts.cells⟩ }
    let c := Reg.SL_WIN_CTL m.win
    let data := leBytes 2 e ++ zeros 2 ++ leBytes 4 m.count ++ leBytes 8 m.lt
    issuePost clsMsg (some m.win) (s.fld c F.SL_WIN_CTL_DevId) (s.bit c F.SL_WIN_CTL_Mcast)
      (msgPayload (s.fld c F.SL_WIN_CTL_Event) data) s

/-! ### Line time (R394, R395) -/

/-- LINETIME in 1/8 tick. -/
def stampEighths (eighth : Nat) (s : State) : Nat := (8 * s.lt + eighth % 8) % 2 ^ 64

def seamAligned (s : State) : Bool := s.bit Reg.SYS_LT_STATUS F.SYS_LT_STATUS_Aligned

def setAligned (b : Bool) (s : State) : State := s.putBit Reg.SYS_LT_STATUS F.SYS_LT_STATUS_Aligned b

def ltMode (s : State) : Nat := s.fld Reg.SYS_LT_CTL F.SYS_LT_CTL_Mode

def ltFree : Nat := 0
def ltFollow : Nat := 1
def ltMaster : Nat := 2

def tsPort (s : State) : Nat := s.fld Reg.SL_CTL F.SL_CTL_TsUpPort

def tsPeriod (s : State) : Nat := 1600 * s.fld Reg.SL_TSCFG F.SL_TSCFG_TsPeriod

/-- A TIME_SYNC request: the reply carries t2, t3 and Valid. -/
def takeTimeSync (k : Nat) (f : Flit) (eighth : Nat) (s : State) : State :=
  match rxBegin k f s with
  | (false, s) => s
  | (true, s) =>
    if oddHeader 3 clsTime f then seamViol k 0x03 s
    else if !spOpen k s then s
    else
      let t := stampEighths eighth s
      let valid := ltMode s = ltMaster || (ltMode s = ltFollow && seamAligned s)
      sendOther k { noFlit with kind := 3, cls := clsTime, ans := true, len := 17, payload := leBytes 8 t ++ leBytes 8 t ++ [BitVec.ofNat 8 (b2n valid)] } s

/-- Four periods without a valid exchange clear Aligned. -/
def alignmentLost (s : State) : State :=
  if seamAligned s && decide (s.seam.validAt + 4 * tsPeriod s ≤ s.tick) then setAligned false s else s

/-- Is an exchange due? -/
def tsDue (s : State) : Bool :=
  (ltMode s = ltFree || ltMode s = ltFollow) && s.bit Reg.SL_CTL F.SL_CTL_TsEnable &&
    decide (s.seam.tsAt + tsPeriod s ≤ s.tick) && spOpen (tsPort s) s

/-- The start of an exchange. -/
def tsExchange (eighth : Nat) (s : State) : State :=
  let s := alignmentLost s
  if !tsDue s then s
  else
    let t := stampEighths eighth s
    let s := s.setSeam { s.seam with ts1 := some t, tsAt := s.tick }
    sendOther (tsPort s) { noFlit with kind := 3, cls := clsTime, len := 8, payload := leBytes 8 t } s

/-- An exchange that is due starts; its stamp's eighth of a tick is a free value. -/
def exchangeDue (s : State) : State :=
  if tsDue s then
    let (w, s) := s.takeFree
    tsExchange (w.toNat % 8) s
  else s

/-- `x` ÷ `d` to the nearest integer. R395 does not say which way a half goes: a free choice. -/
def roundFree (x : Int) (d : Nat) (s : State) : Int × State :=
  let q := x / (d : Int)
  let r := 2 * (x % (d : Int))
  if r < (d : Int) then (q, s)
  else if (d : Int) < r then (q + 1, s)
  else
    let (w, s) := s.takeFree
    (q + (b2n (w.getLsbD 0) : Nat), s)

/-- Signed difference of two stamps. -/
def stampDiff (a b : Nat) : Int := (BitVec.ofNat 64 a - BitVec.ofNat 64 b).toInt

/-- SYS_LT_ADJ and SYS_LT_RATE take the servo's corrections: `adj` is the offset in ticks. -/
def servoTrim (ofs adj : Int) (s : State) : State :=
  let sum := s.clock.slew.toInt + adj
  let (p, s) := if -(2 ^ 31 : Int) ≤ sum && sum < 2 ^ 31 then (BitVec.ofInt 32 sum, s) else s.takeFree
  let s := s.setClock { s.clock with slew := p, slewCnt := if s.clock.slew = 0 then 0 else s.clock.slewCnt }
  let (trim, s) := roundFree (ofs * 2 ^ 40) (32 * tsPeriod s) s
  let rate := (s.reg Reg.SYS_LT_RATE).toInt + trim
  let (r, s) := if -(2 ^ 31 : Int) ≤ rate && rate < 2 ^ 31 then (BitVec.ofInt 32 rate, s) else s.takeFree
  s.setReg Reg.SYS_LT_RATE r

/-- Four exchanges in a row within 2 ticks set Aligned, four beyond clear it. -/
def countAlign (ofs : Int) (s : State) : State :=
  let near := decide (-16 ≤ ofs) && decide (ofs ≤ 16)
  let g := if near then s.seam.good + 1 else 0
  let b := if near then 0 else s.seam.bad + 1
  let s := s.setSeam { s.seam with good := Nat.min g 4, bad := Nat.min b 4 }
  if 4 ≤ g then setAligned true s else if 4 ≤ b then setAligned false s else s

/-- The servo of R395 after a valid exchange. -/
def servo (t1 t2 t3 t4 : Nat) (s : State) : State :=
  let (delay, s) := roundFree (stampDiff t4 t1 - stampDiff t3 t2) 2 s
  let (half, s) := roundFree (stampDiff t2 t1 - stampDiff t4 t3) 2 s
  let ofs := half + sx 8 (s.fld Reg.SL_TSCFG F.SL_TSCFG_TsAsym)
  let (ticks, s) := roundFree ofs 8 s
  let s := (s.setReg Reg.SL_TSDLY (BitVec.ofInt 32 delay)).setReg Reg.SL_TSOFS (BitVec.ofInt 32 ofs)
  let s := s.setFld Reg.SYS_LT_STATUS F.SYS_LT_STATUS_MasterOffset (ux 8 (clampInt (-127) 127 ticks))
  let s := s.setSeam { s.seam with validAt := s.tick }
  if ltMode s != ltFollow then s
  else if decide (-8192 ≤ ofs) && decide (ofs ≤ 8192) then countAlign ofs (servoTrim ofs ticks s)
  else setAligned false (seamFlag (tsPort s) F.SL_PFLAGS_SyncLost (s.setSeam { s.seam with good := 0, bad := 0 }))

/-- A reply: bytes 0 to 7 t2, 8 to 15 t3, 16 Valid. -/
def takeReply (k : Nat) (f : Flit) (eighth : Nat) (s : State) : State :=
  match rxBegin k f s with
  | (false, s) => s
  | (true, s) =>
    match s.seam.ts1 with
    | none => if oddHeader 3 clsTime f then seamViol k 0x03 s else s
    | some t1 =>
      if oddHeader 3 clsTime f then seamViol k 0x03 s
      else if k != tsPort s || !spOpen k s then s
      else
        let s := s.setSeam { s.seam with ts1 := none }
        if plNat f 16 1 % 2 = 1 then servo t1 (plNat f 0 8) (plNat f 8 8) (stampEighths eighth s) s
        else setAligned false s

/-! ### Registers -/

/-- SL_CTL: DeviceId is ignored while IdValid is 1. -/
def writeSlCtl (v : Word) (s : State) : State :=
  s.plainWrite Reg.SL_CTL (if s.bit Reg.SL_CTL F.SL_CTL_IdValid then F.SL_CTL_DeviceId.put v (deviceId s) else v)

def fixPort (p : Nat) : Nat := if p < 4 then p else 7

/-- SL_ROUTE(d): any write clears UseAlt. -/
def writeRoute (d : Nat) (v : Word) (s : State) : State :=
  let w := F.SL_ROUTE_Alternate.put (F.SL_ROUTE_Primary.put 0 (fixPort (F.SL_ROUTE_Primary.get v))) (fixPort (F.SL_ROUTE_Alternate.get v))
  s.setReg (Reg.SL_ROUTE d) w

def msgRingCap (s : State) : Nat := 2 ^ s.fld Reg.SL_MSGCFG F.SL_MSGCFG_SizeLog2 / 256

/-- SL_MSGRD: a write that R151 refuses is ignored. -/
def writeMsgRd (v : Word) (s : State) : State :=
  if rdIdxOk (s.reg Reg.SL_MSGWR).toNat (msgRingCap s) v.toNat then s.setReg Reg.SL_MSGRD v else s

end Sys2Proof.Machine
end

