-- ==== Sys2Proof/Machine/Access.lean ====
section
/-!
DEFINITION. Reads and writes of memory by the system's requestors (R278, R279, R304, R314): runs of bytes,
64-byte requests, and what each memory does with them. CRC-32C.
-/
namespace Sys2Proof.Machine

/-- Bytes at consecutive addresses joined into runs, cut at every multiple of `m`. -/
def runsAt {α : Type} (m : Nat) : List (Nat × α) → List (Nat × List α)
  | [] => []
  | (a, x) :: rest =>
    match runsAt m rest with
    | [] => [(a, [x])]
    | (b, ys) :: more => if b = a + 1 && b % m != 0 then (a, x :: ys) :: more else (a, [x]) :: (b, ys) :: more

/-- The bytes `bs` from address `a` on, each with its address. -/
def atAddrs {α : Type} (a : Nat) : List α → List (Nat × α)
  | [] => []
  | x :: xs => (a, x) :: atAddrs (a + 1) xs

/-- One request of at most 64 bytes within a 64-byte block, of class `cls` and instance `who`, whose target
has been found allowed. -/
def putPiece (cls who a : Nat) (bs : List Byte) (s : State) : State :=
  match regionOf a s with
  | .control => s
  | .wave _ => (noteWave a bs.length s).put a bs
  | .staging => s.put a bs
  | .journal => s
  | .bram _ => s.put a bs
  | .store c => storeWrite c false (portB cls who) a bs s
  | .pocket _ => s
  | .asleep _ => noteAsleep a s
  | .lpddr => if channelDead a s then s else (if bs.length < 64 then readError a cls 0 false s else s).put a bs
  | .seam _ => windowWrite a bs s
  | .unmapped => s

def isSeam (a : Nat) (s : State) : Bool :=
  match regionOf a s with
  | .seam _ => true
  | _ => false

/-- Bytes with their addresses, in ascending order, written as 64-byte aligned requests; through a Seam window
as its WRITEs or MSGs. -/
def putCells (cls who : Nat) (l : List (Nat × Byte)) (s : State) : State :=
  (runsAt 4096 l).foldl (fun s r =>
    if isSeam r.1 s then windowWrite r.1 r.2 s
    else (runsAt 64 (atAddrs r.1 r.2)).foldl (fun s p => putPiece cls who p.1 p.2 s) s) s

/-- The bytes that a system read (port B) returns. -/
def fetchBytes (l : List Nat) (s : State) : List Byte :=
  l.map (fun a => if (regionOf a s).isStore then portByte false a s else s.byte a)

/-- Is any of the addresses in a poisoned word? -/
def poisonedAt (l : List Nat) (s : State) : Bool := l.any (fun a => s.poisoned a)

/-- The words of a list of bytes. -/
def wordsOf (bs : List Byte) : List Word :=
  (List.range (bs.length / 4)).map (fun i => BitVec.ofNat 32 (leNat ((bs.drop (4 * i)).take 4)))

/-! ### CRC-32C -/

def crcBit (c : BitVec 32) : BitVec 32 := if c.getLsbD 0 then (c >>> 1) ^^^ 0x82F63B78#32 else c >>> 1

def crcByte (c : BitVec 32) (b : Byte) : BitVec 32 :=
  (List.range 8).foldl (fun c _ => crcBit c) (c ^^^ b.setWidth 32)

/-- CRC-32C of a list of bytes: reflected, initial value and final mask all ones. -/
def crc32c (bs : List Byte) : BitVec 32 := ~~~ (bs.foldl crcByte 0xFFFFFFFF#32)

end Sys2Proof.Machine
end

