-- ==== Sys2Proof/Machine/Journal.lean ====
section
/-!
DEFINITION. The Journal (chapter 20): its records in the Journal window, the fault log (R460) and the
step-state record (R450, R453, R458).
-/
namespace Sys2Proof.Machine

def jrnBase : Nat := 0x3000000

/-- Sets a flag of JRN_STAT, with its event (R461). -/
def jrnFlag (f : Fld) (s : State) : State :=
  let i := f.lsb
  let e := if i = 16 then 932 else if i ≤ 18 then 933 else if i ≤ 20 then 934 else 935
  s.flag Reg.JRN_STAT f (bitN (s.fld Reg.JRN_CTL F.JRN_CTL_FlagEvent) (i - 16)) e

def jrnWord (o : Nat) (s : State) : Word := s.word (jrnBase + o)

def jrnPut (o : Nat) (ws : List Word) (s : State) : State := s.putWords (jrnBase + o) ws

/-- A record of words with its CRC-32C as the last word. -/
def withCrc (ws : List Word) : List Word := ws ++ [crc32c (wordBytes ws)]

/-- Does the record of `n` words at `o` carry the CRC of its other words? -/
def crcOk (o n : Nat) (s : State) : Bool :=
  decide (jrnWord (o + 4 * (n - 1)) s = crc32c (s.bytes (jrnBase + o) (4 * (n - 1))))

/-- Of two copies with Seq `a` and `b`, is copy 1 the one to read? -/
def laterSeq (v0 v1 : Bool) (a b : Word) : Nat := if v1 && (!v0 || (b - a).toInt > 0) then 1 else 0

/-! ### Fault log (R460) -/

def logBase : Nat := 0x20000

def entryWords (e : LogEnt) (seq : Nat) : List Word :=
  withCrc [BitVec.ofNat 32 (e.source % 1024 + 2 ^ 16 * (e.cls % 256) + 2 ^ 24 * (e.action % 256)), BitVec.ofNat 32 e.info,
    BitVec.ofNat 32 e.start, BitVec.ofNat 32 (e.start / 2 ^ 32), BitVec.ofNat 32 e.stop, BitVec.ofNat 32 (e.stop / 2 ^ 32),
    BitVec.ofNat 32 seq]

/-- The entry to write next: of those of the same ENG cycle the one with the lowest Source. -/
def nextEntry (s : State) : Option LogEnt :=
  match s.logQ with
  | [] => none
  | e :: rest => some (rest.foldl (fun m x => if x.cyc = e.cyc && decide (x.source < m.source) then x else m) e)

/-- The next entry is written; `ok` is false where the MRAM write and its retry fail (R459). -/
def writeLog (ok : Bool) (s : State) : State :=
  match nextEntry s with
  | none => s
  | some e =>
    let s := { s with logQ := s.logQ.erase e }
    if !ok then jrnFlag F.JRN_STAT_JournalError s
    else
      let n := (s.reg Reg.JRN_FLWR).toNat
      let s := jrnPut (logBase + 32 * (n % 4096)) (entryWords e n) s
      let s := s.setReg Reg.JRN_FLWR (BitVec.ofNat 32 (n + 1))
      let s := if (n + 1) % 4096 = 0 then jrnFlag F.JRN_STAT_LogWrap s else s
      jrnFlag F.JRN_STAT_FaultLogged s

/-! ### Header and step-state record (R453, R458, R459)

Header copy: Magic, StartCount, Seq, CRC. Step-state copy: a byte per step from byte 0 on, Seq in word 30 and
the CRC in word 31. -/

def hdrOfs (c : Nat) : Nat := 64 * c

def hdrValid (c : Nat) (s : State) : Bool :=
  decide (jrnWord (hdrOfs c) s = 0xAB014A52#32) && crcOk (hdrOfs c) 4 s

def hdrCopy (s : State) : Nat :=
  laterSeq (hdrValid 0 s) (hdrValid 1 s) (jrnWord (hdrOfs 0 + 8) s) (jrnWord (hdrOfs 1 + 8) s)

def journalOk (s : State) : Bool := hdrValid 0 s || hdrValid 1 s

/-- StartCount of the header. -/
def startCount (s : State) : Word := if journalOk s then jrnWord (hdrOfs (hdrCopy s) + 4) s else 0

def writeHdr (count : Word) (s : State) : State :=
  let c := if journalOk s then 1 - hdrCopy s else 0
  let seq := if journalOk s then jrnWord (hdrOfs (hdrCopy s) + 8) s + 1 else 0
  jrnPut (hdrOfs c) (withCrc [0xAB014A52#32, count, seq]) s

def ssOfs (c : Nat) : Nat := 0x80 + 128 * c

def ssValid (c : Nat) (s : State) : Bool := crcOk (ssOfs c) 32 s

def ssCopy (s : State) : Nat :=
  laterSeq (ssValid 0 s) (ssValid 1 s) (jrnWord (ssOfs 0 + 0x78) s) (jrnWord (ssOfs 1 + 0x78) s)

/-- Mode and AltFails of step `n` as the record holds them, in the layout of JRN_STEP: [1:0] and [3:2]. -/
def stepByte (n : Nat) (s : State) : Nat :=
  if ssValid 0 s || ssValid 1 s then (s.byte (jrnBase + ssOfs (ssCopy s) + (n - 1))).toNat % 16 else 0

/-- The step-state record with the entry of step `n` replaced. -/
def setStepByte (n x : Nat) (s : State) : State :=
  let valid := ssValid 0 s || ssValid 1 s
  let seq := if valid then jrnWord (ssOfs (ssCopy s) + 0x78) s + 1 else 0
  let c := if valid then 1 - ssCopy s else 0
  let bytes := (List.range 14).map (fun i => BitVec.ofNat 8 (if i + 1 = n then x else stepByte (i + 1) s))
  jrnPut (ssOfs c) (withCrc (wordsOf (bytes ++ List.replicate 106 0) ++ [seq])) s

/-- A write of Revert to JRN_STEP(n): Mode NORMAL and AltFails 0 from the next start. -/
def revertStep (n : Nat) (v : Word) (s : State) : State :=
  if decide (1 ≤ n) && decide (n ≤ 14) && F.JRN_STEP_Revert.get v = 1 then setStepByte n 0 s else s

/-! ### Mantle's part (R362, R366)

Eight regions of three words (LO, HI, CTL) at 0x6400; the counts of debug unlocks, of apply faults and of
unlocks that have ended after them; then the CRC. -/

def mntOfs : Nat := 0x6400

def mntValid (s : State) : Bool := crcOk mntOfs 28 s

def mntWords (s : State) : List Word :=
  if mntValid s then s.words (jrnBase + mntOfs) 27 else List.replicate 27 0

def unlockCount (s : State) : Word := (mntWords s).getD 24 0

def unlockEnds (s : State) : Word := (mntWords s).getD 26 0

def applyFaults (s : State) : Word := (mntWords s).getD 25 0

def setMntWord (i : Nat) (w : Word) (s : State) : State := jrnPut mntOfs (withCrc ((mntWords s).set i w)) s

/-! ### The commands -/

/-- FAULT_LOG_WRITE. -/
def execFaultLogWrite (ok : Bool) (s : State) : Out := .next (writeLog ok s)

/-- STEP_REVERT. -/
def execStepRevert (n : Nat) (v : Word) (s : State) : Out := .next (revertStep n (F.JRN_STEP_Revert.put v 1) s)

end Sys2Proof.Machine
end

