-- ==== Sys2Proof/Machine/Events.lean ====
section
/-!
DEFINITION. Raises by software, and the supply and temperature monitors (chapter 19, R434 and R435).
-/
namespace Sys2Proof.Machine

/-- A write to EVT_SWRAISE: a doorbell, or SwRefused (R434). -/
def swRaise (v : Word) (s : State) : State :=
  let e := F.EVT_SWRAISE_Event.get v
  if e < 940 then s.evtStat F.EVT_STAT_SwRefused e else s.raise e

/-- EVT_CTL: a FallbackEngine above 191 stores 191. -/
def writeEvtCtl (v : Word) (s : State) : State :=
  s.plainWrite Reg.EVT_CTL
    (F.EVT_CTL_FallbackEngine.put v (Nat.min 191 (F.EVT_CTL_FallbackEngine.get v)))

/-- EVT_ROUTE(e): an Engine above 191 stores EngEn 0. Raises of this ENG cycle use the old route (R433). -/
def writeEvtRoute (e : Nat) (v : Word) (s : State) : State :=
  let v := if 191 < F.EVT_ROUTE_Engine.get v then F.EVT_ROUTE_EngEn.put v 0 else v
  let cyc := s.tick / 2
  let kept := s.oldRoutes.filter (fun r => r.2.1 = cyc)
  let old := if kept.any (fun r => r.1 = e) then kept else kept ++ [(e, cyc, s.reg (Reg.EVT_ROUTE e))]
  State.plainWrite { s with oldRoutes := old } (Reg.EVT_ROUTE e) v

/-! ### Supplies -/

/-- Groups whose excursion is a supervision fault span on every enabled port. -/
def spanGroup (i : Nat) : Bool := decide (i < 4) || i = 6

def setOutNow (i : Nat) (b : Bool) (s : State) : State :=
  let w := s.fld Reg.EVT_MONSUP F.EVT_MONSUP_OutNow
  s.setFld Reg.EVT_MONSUP F.EVT_MONSUP_OutNow (if b then w ||| 2 ^ i else w - (w &&& 2 ^ i))

def groupOut (i : Nat) (s : State) : Bool := bitN (s.fld Reg.EVT_MONSUP F.EVT_MONSUP_OutNow) i

/-- A group has been outside its window for 1 µs. -/
def supplyOut (i : Nat) (s : State) : State :=
  if decide (12 ≤ i) || groupOut i s then s
  else
    let s := setOutNow i true { s with supLt := s.supLt.set 0 i s.lt }
    let s := s.setFld Reg.EVT_MONSUP F.EVT_MONSUP_SupplyFault (s.fld Reg.EVT_MONSUP F.EVT_MONSUP_SupplyFault ||| 2 ^ i)
    let s := s.raiseIf (bitN (s.fld Reg.EVT_MONEVTEN F.EVT_MONEVTEN_SupplyEvent) i) (916 + i)
    if spanGroup i then
      (List.range 32).foldl (fun s h => if hdEnabled h s then openSpan h flagSupFault (srcSupply i) s else s) s
    else s

/-- It has been back inside for 1 µs; the fault log takes the excursion. -/
def supplyIn (i : Nat) (s : State) : State :=
  if !groupOut i s then s
  else
    let s := setOutNow i false s
    let s := if spanGroup i then (List.range 32).foldl (fun s h => closeSpan h (srcSupply i) s) s else s
    State.logFault { s with supLt := s.supLt.set 0 i 0 } (916 + i) 0x0D 0x00 i (s.supLt.get 0 i) s.lt

/-! ### Temperatures -/

def tempFlag (i : Nat) (f : Fld) (s : State) : State :=
  s.flag Reg.EVT_MONTEMP f (bitN (s.fld Reg.EVT_MONEVTEN F.EVT_MONEVTEN_TempEvent) i) (928 + i)

/-- The twelve temperatures of CAL_TEMP in 1/16 °C. -/
def temps (s : State) : List Int := (List.range 12).map (fun i => sx 16 (s.fld (Reg.CAL_TEMP i) F.CAL_TEMP_Temp))

/-- One of WarnNow and CritNow is judged against its limit. -/
def judgeTemp (i : Nat) (now flag lim : Fld) (s : State) : State :=
  let l := sx 16 (s.fld Reg.EVT_TEMPLIM lim)
  if s.bit Reg.EVT_MONTEMP now then
    if (temps s).all (fun t => decide (t + 32 ≤ l)) then s.clrBit Reg.EVT_MONTEMP now else s
  else if (temps s).any (fun t => decide (l ≤ t)) then tempFlag i flag (s.setBit Reg.EVT_MONTEMP now)
  else s

def sensorFault (s : State) : State := tempFlag 2 F.EVT_MONTEMP_SensorFault s

/-- Sensor `i` updates its register, in 1/16 °C. -/
def sensorUpdate (i : Nat) (temp : Int) (s : State) : State :=
  if 12 ≤ i then s
  else
    let s := s.setFld (Reg.CAL_TEMP i) F.CAL_TEMP_Temp (ux 16 temp)
    let s := if temp < -880 || 2400 < temp then sensorFault s else s
    let s := judgeTemp 0 F.EVT_MONTEMP_WarnNow F.EVT_MONTEMP_TempWarn F.EVT_TEMPLIM_WarnLimit s
    judgeTemp 1 F.EVT_MONTEMP_CritNow F.EVT_MONTEMP_TempCrit F.EVT_TEMPLIM_CritLimit s

/-! ### The commands -/

/-- SWRAISE. -/
def execSwraise (v : Word) (s : State) : Out := .next (swRaise v s)

/-- SEAM_EVENT_MSG: the waiting MSG of event `e` leaves. -/
def execSeamEventMsg (e : Nat) (s : State) : Out := .next (eventMsg e s)

/-- RAISE_COUNT_READ. -/
def execRaiseCountRead (req : Req) (s : State) : Out :=
  .next ((readClear Reg.EVT_RAISECNT F.EVT_RAISECNT_Raises s).2.give req [s.reg Reg.EVT_RAISECNT])

/-- SUPPLY_OUT. -/
def execSupplyOut (i : Nat) (s : State) : Out := .next (supplyOut i s)

/-- SUPPLY_IN. -/
def execSupplyIn (i : Nat) (s : State) : Out := .next (supplyIn i s)

/-- SENSOR_UPDATE. -/
def execSensorUpdate (i : Nat) (temp : Int) (s : State) : Out := .next (sensorUpdate i temp s)

/-- SENSOR_FAULT: sensor `i` reads outside its range or has not updated for 1 ms. -/
def execSensorFault (i : Nat) (s : State) : Out := .next (if i < 12 then sensorFault s else s)

end Sys2Proof.Machine
end

