-- ==== Sys2Proof/Machine/DataPort.lean ====
section
/-!
DEFINITION. The host port (chapter 13): Data Ports (R313 to R317), MSI-X (R307, R310), link and function
resets (R309, R311), and the Boot Port (R318 to R321).
-/
namespace Sys2Proof.Machine

def State.setHost (s : State) (x : HostPort) : State := { s with host := x }

/-! ### Allowed targets (R314) -/

/-- The part of Config Staging that requestors reach (R338). -/
def stagingArea (a : Nat) : Bool := decide (0x2000000 ≤ a) && decide (a < 0x2180000)

/-- May the Data Ports, or the Boot Port, access the byte at `a`? -/
def dpAllowed (u : Accessor) (write : Bool) (a : Nat) (s : State) : Bool :=
  match regionOf a s with
  | .control => false
  | .wave _ => true
  | .staging => stagingArea a && !stagingLocked s && (!write || s.bit Reg.CFG_CTL F.CFG_CTL_HostStage)
  | .journal => !write
  | .bram _ => true
  | .store _ => true
  | .pocket _ => false
  | .asleep _ => false
  | .lpddr => fenceOk u write a 1 s
  | .seam w => !windowRefuses w write s
  | .unmapped => false

/-- RetAccess and RegionViolation of a byte that is turned away. -/
def noteTurned (u : Accessor) (write : Bool) (a : Nat) (s : State) : State := noteAsleep a (noteFence u write a 1 s)

/-! ### The cursor (R313) -/

def dpEnabled (n : Nat) (s : State) : Bool := decide (n < 16) && s.bit (Reg.DP_CTL n) F.DP_CTL_Enable

def dpCur (n : Nat) (s : State) : Nat := s.base48 (Reg.DP_ADDR_LO n)

/-- An address folded into the port's window. -/
def dpFold (n : Nat) (x : Int) (s : State) : Nat :=
  let k := s.fld (Reg.DP_CTL n) F.DP_CTL_WrapLog2
  let base := ringStart (s.base48 (Reg.DP_WRAPBASE_LO n)) k
  if k = 0 then ux 48 x else (base + ux k (x - base)) % 2 ^ 48

/-- Does an access of this direction use and advance the cursor? -/
def dpAuto (n : Nat) (write : Bool) (s : State) : Bool :=
  bitN (s.fld (Reg.DP_CTL n) F.DP_CTL_AutoInc) (if write then 1 else 0)

/-- The target of each of the `len` bytes of an access at aperture offset `o`. -/
def dpTargets (n o len : Nat) (write : Bool) (s : State) : List Nat :=
  let start := if dpAuto n write s then dpCur n s else dpCur n s + o
  (List.range len).map (fun i => dpFold n (start + i : Nat) s)

/-- The cursor after an access of `len` bytes. -/
def dpAdvance (n len : Nat) (write : Bool) (s : State) : State :=
  if !dpAuto n write s then s
  else
    let st := (s.reg (Reg.DP_STRIDE n)).toInt
    s.setReg64 (Reg.DP_ADDR_LO n) (dpFold n ((dpCur n s : Int) + if st = 0 then (len : Int) else st) s)

/-! ### Pending bursts (R315) -/

/-- The pending burst is written out. -/
def writeOut (n : Nat) (s : State) : State :=
  match s.host.aperture.get none n with
  | none => s
  | some b =>
    let s := s.setHost { s.host with aperture := s.host.aperture.set none n none }
    let l := (atAddrs b.start b.bytes).filterMap (fun c => c.2.map (fun x => (c.1, x)))
    putCells 0 n (l.filter (fun c => dpAllowed .dataPort true c.1 s)) s

def writeOutAll (s : State) : State := (List.range 16).foldl (fun s n => writeOut n s) s

/-- A run of bytes within one 4 KiB block joins the burst that it continues, or starts a new one. -/
def burstAdd (n a : Nat) (bs : List (Option Byte)) (s : State) : State :=
  let put := fun (s : State) (b : DpBurst) =>
    let s := s.setHost { s.host with aperture := s.host.aperture.set none n (some b) }
    if (b.start + b.bytes.length) % 4096 = 0 then writeOut n s else s
  match s.host.aperture.get none n with
  | some b =>
    if b.start + b.bytes.length = a then put s (DpBurst.mk b.start (b.bytes ++ bs) s.tick)
    else put (writeOut n s) (DpBurst.mk a bs s.tick)
  | none => put s (DpBurst.mk a bs s.tick)

/-- 1 µs without a write to the port. -/
def burstIdle (n : Nat) (s : State) : State :=
  match s.host.aperture.get none n with
  | some b => if b.last + 1600 ≤ s.tick then writeOut n s else s
  | none => s

/-! ### Accesses (R312 to R316) -/

/-- Bits of the AER uncorrectable error status, as the PCIe specification numbers them (log entry 247). -/
def aerPoisoned : Nat := 12
def aerMalformed : Nat := 18
def aerUnsupported : Nat := 20

/-- A violation of code 0x05 at `a`. -/
def dpRefuse (n a : Nat) (write : Bool) (l : List Nat) (s : State) : State :=
  let s := (l.filter (fun x => !dpAllowed .dataPort write x s)).foldl (fun s x => noteTurned .dataPort write x s) s
  dpFault n F.DP_STAT_Fault (hostViol 0x05 a s)

def aerUncorr (bit : Nat) (s : State) : State :=
  hostFlag F.HOST_FLAGS_AerUncorr { s with host := { s.host with aer := s.host.aer ||| 2 ^ bit } }

/-- The bytes of the DWORDs of a write, none where a byte is not enabled. -/
def writeBytes : List Nat → List Word → List (Option Byte)
  | _, [] => []
  | be, w :: ws =>
    (leBytes 4 w.toNat).zipIdx.map (fun b => if bitN (be.headD 15) b.2 then some b.1 else none) ++ writeBytes (be.drop 1) ws

/-- A BAR2 write. -/
def dpWrite (n o : Nat) (be : List Nat) (ws : List Word) (ep : Bool) (s : State) : State :=
  if s.host.d3 || decide (16 ≤ n) || ws.isEmpty then s
  else
    let l := dpTargets n o (4 * ws.length) true s
    let first := l.headD 0
    if ep then aerUncorr aerPoisoned (hostViol 0x04 first s)
    else
      let cells := l.zip (writeBytes be ws)
      let used := (cells.filter (fun c => c.2.isSome)).map (·.1)
      if !dpEnabled n s || !used.all (fun a => dpAllowed .dataPort true a s) then dpRefuse n first true used s
      else
        let s := dpAdvance n (4 * ws.length) true s
        (runsAt 4096 cells).foldl (fun s r => burstAdd n r.1 r.2 s) s

/-- The completion of a BAR2 read of `len` DWORDs; `fresh` lists addresses whose words turn out uncorrectable. -/
def dpAnswer (n o len : Nat) (fresh : List Nat) (s : State) : State :=
  let s := writeOutAll s
  let l := dpTargets n o (4 * len) false s
  let first := l.headD 0
  if !dpEnabled n s || !l.all (fun a => dpAllowed .dataPort false a s) then (dpRefuse n first false l s).give .host []
  else
    let s := dpAdvance n (4 * len) false s
    if isSeam first s then
      (runsAt 4096 (l.map (fun a => (a, ())))).foldl (fun s r => (windowRead .host n r.1 r.2.length s).2) (s.give .host [])
    else
      let s := foundBad (fresh.filter (fun a => l.contains a)) s
      let s := l.foldl (fun s a => if a % 8 = 0 || a = first then touchWord (a / 8 * 8) s else s) s
      if poisonedAt l s then
        let s := (runsAt 64 (l.map (fun a => (a, ())))).foldl (fun s r => noteUes r.1 r.2.length 0 s) s
        dpFault n F.DP_STAT_UeRead (hostViol 0x06 first (s.give .host []))
      else s.give .host (wordsOf (fetchBytes l s))

/-- Is a Tid free for a READ through the window at `a`? -/
def readRoom (a : Nat) (s : State) : Bool :=
  !isSeam a s || (freeTid (portFor (s.fld (Reg.SL_WIN_CTL (winOf a)) F.SL_WIN_CTL_DevId) s) s).isSome

/-- Does a read of the port meet a frozen bank, or no free Tid (R288, R388)? -/
def dpFrozen (n o len : Nat) (s : State) : Bool :=
  (dpTargets n o (4 * len) false s).any (fun a => !readRoom a s) ||
  s.memt.copies.cells.any (fun c => c.2.isSome) && (dpTargets n o (4 * len) false s).any (fun a => frozenWord (a / 8 * 8) s)

/-- A BAR2 read: it completes after every posted write of the host has taken effect (R308). -/
def dpRead (n o len : Nat) (fresh : List Nat) (s : State) : State :=
  if s.host.d3 || decide (16 ≤ n) || len = 0 then s
  else if hostWaits s || dpFrozen n o len s then askRead (.bar2 n o len fresh) s
  else dpAnswer n o len fresh s

/-- A read into a Seam window, 40 µs after its issue. -/
def dpSeamTimeout (n a : Nat) (s : State) : State :=
  match s.seam.reqs.find? (fun r => r.req = .host && r.cls = clsRead && r.win = n && r.addr = a) with
  | some r => requestTimeout r.port r.tid s
  | none => s

/-- A write to a register of port `n`: it follows every earlier access (R317). -/
def writeDp (n a : Nat) (v : Word) (s : State) : State :=
  let s := writeOut n s
  if a = Reg.DP_CTL n then
    let k := F.DP_CTL_WrapLog2.get v
    s.plainWrite a (F.DP_CTL_WrapLog2.put v (if k = 0 then 0 else clampNat 12 36 k))
  else if a = Reg.DP_ADDR_LO n || a = Reg.DP_STRIDE n then s.plainWrite a (v &&& ~~~ 3#32)
  else s.plainWrite a v

def dpStat (n : Nat) (s : State) : Word :=
  F.DP_STAT_PendingBytes.put (s.reg (Reg.DP_STAT n))
    (match s.host.aperture.get none n with
      | some b => b.bytes.length
      | none => 0)

/-! ### MSI-X (R307, R310) -/

/-- Word `i` of the MSI-X table: at reset the Mask bit of each Vector Control word is 1. -/
def tableWord (i : Nat) (s : State) : Word := s.host.table.get (if i % 4 = 3 then 1 else 0) i

/-- Vector Control holds the Mask bit; the address is a multiple of 4. -/
def setTableWord (i : Nat) (v : Word) (s : State) : State :=
  let v := if i % 4 = 3 then v &&& 1#32 else if i % 4 = 0 then v &&& ~~~ 3#32 else v
  s.setHost { s.host with table := s.host.table.set (if i % 4 = 3 then 1 else 0) i v }

/-- Word `i` of the pending bit array. -/
def pbaWord (i : Nat) (s : State) : Word :=
  BitVec.ofNat 32 ((List.range 32).foldl (fun x j => x + b2n (s.msixPend.get false (32 * i + j)) * 2 ^ j) 0)

def msixReady (k : Nat) (s : State) : Bool :=
  s.msixPend.get false k && !(tableWord (4 * k + 3) s).getLsbD 0 && !s.host.fnMask && s.host.msixEn && s.host.busMaster &&
    s.bit Reg.HOST_LINK F.HOST_LINK_Up

/-- The message of vector `k` leaves, and its pending bit clears. -/
def msixSend (k : Nat) (s : State) : State :=
  if decide (k < 2048) && msixReady k s then { s with msixPend := s.msixPend.set false k false } else s

/-- The words of configuration space that R306 and R355 fix or that State holds, by number: 0 Device and Vendor ID, 1
class code and Revision ID, 2 Subsystem IDs, 3 Interrupt Pin and Line, 4 and 5 the Device Serial Number, 6 the AER
uncorrectable error status, 7 the largest payload in bytes, 8 the vectors of MSI-X. No row of the table reads them. -/
def configWord (i : Nat) (s : State) : Word :=
  match i with
  | 0 => 0x01281FA7
  | 1 => 0x11800001
  | 2 => 0x01281FA7
  | 3 => 0
  | 4 => s.reg Reg.MNT_SERIAL_LO
  | 5 => s.reg Reg.MNT_SERIAL_HI
  | 6 => BitVec.ofNat 32 s.host.aer
  | 7 => 512
  | 8 => 2048
  | _ => 0

/-- The bits of configuration space that the part acts on. -/
def configSpace (msix mask master d3 : Bool) (s : State) : State :=
  let s := s.setHost { s.host with msixEn := msix, fnMask := mask, busMaster := master, d3 := d3 }
  (s.putBit Reg.HOST_LINK F.HOST_LINK_MsixEnabled msix).putBit Reg.HOST_LINK F.HOST_LINK_BusMaster master

/-! ### Link and resets (R309, R311) -/

def dpRegs (n : Nat) : List Nat := (List.range 7).map (fun i => Reg.DP_CTL n + 4 * i)

/-- JQ_HPOST_LO(q), JQ_HPOST_HI(q) or JQ_HPOSTRES(q). -/
def isHostPost (a : Nat) : Bool :=
  decide (Reg.JQ_HPOST_LO 0 ≤ a) && decide (a < Reg.JQ_HPOST_LO 4096) && decide ((ofs (Reg.JQ_HPOST_LO 0) a) % 0x200 < 12)

/-- The host's own copies of the staging registers of R256. -/
def dropHostStaging (s : State) : State :=
  let t := s.perReq.get ⟨[]⟩ (reqKey .host)
  let own := Tab.mk (t.cells.filter (fun c => !isHostPost c.1))
  { s with perReq := s.perReq.set ⟨[]⟩ (reqKey .host) own }

/-- What an FLR, a hot reset or a link down resets. -/
def hostReset (s : State) : State :=
  let s := writeOutAll s
  let s := configSpace false false false false { s with host := { s.host with aer := 0 } }
  let s := s.setAsks { s.asks with reads := [] }
  let s := dropHostStaging (State.give { s with msixPend := ⟨[]⟩, host := { s.host with table := ⟨[]⟩ } } .host [])
  let s := ((List.range 16).flatMap dpRegs).foldl (fun s a => s.setReg a (regReset a)) s
  s.setSeam { s.seam with
    reqs := s.seam.reqs.map (fun r => if r.req = .host && r.cls = clsRead then { r with req := dropped } else r),
    dones := s.seam.dones.filter (fun d => d.req != .host) }

def functionReset (s : State) : State := hostFlag F.HOST_FLAGS_FunctionReset (hostReset s)

def widthOk (w : Nat) : Bool := [1, 2, 4, 8].contains w

def targetSpeed (s : State) : Nat := s.fld Reg.HOST_CTL F.HOST_CTL_TargetSpeed

def speedOk (x : Nat) (s : State) : Bool := decide (1 ≤ x) && decide (x ≤ targetSpeed s)

/-- The link has trained to a speed up to TargetSpeed. -/
def linkUp (speed width : Nat) (s : State) : State :=
  if s.bit Reg.HOST_LINK F.HOST_LINK_Up || !speedOk speed s || !widthOk width then s
  else
    let s := s.setHost { s.host with retrain := false }
    let s := (s.setFld Reg.HOST_LINK F.HOST_LINK_Speed speed).setFld Reg.HOST_LINK F.HOST_LINK_Width width
    hostFlag F.HOST_FLAGS_LinkUp (s.setBit Reg.HOST_LINK F.HOST_LINK_Up)

def linkDown (s : State) : State :=
  if !s.bit Reg.HOST_LINK F.HOST_LINK_Up then s
  else
    let s := (s.setFld Reg.HOST_LINK F.HOST_LINK_Speed 0).setFld Reg.HOST_LINK F.HOST_LINK_Width 0
    functionReset (hostFlag F.HOST_FLAGS_LinkDown (s.clrBit Reg.HOST_LINK F.HOST_LINK_Up))

def speedChange (speed : Nat) (s : State) : State :=
  if !s.bit Reg.HOST_LINK F.HOST_LINK_Up || !speedOk speed s || speed = s.fld Reg.HOST_LINK F.HOST_LINK_Speed then s
  else hostFlag F.HOST_FLAGS_SpeedChange
    ((s.setHost { s.host with retrain := false }).setFld Reg.HOST_LINK F.HOST_LINK_Speed speed)

/-- HOST_CTL: TargetSpeed 0 stores 1 and above 4 stores 4; Retrain reads 0. -/
def writeHostCtl (v : Word) (s : State) : State :=
  let s := s.plainWrite Reg.HOST_CTL (F.HOST_CTL_TargetSpeed.put v (clampNat 1 4 (F.HOST_CTL_TargetSpeed.get v)))
  if F.HOST_CTL_Retrain.get v = 1 then s.setHost { s.host with retrain := true } else s

/-! ### Boot Port (R318 to R321) -/

/-- A byte of the flash; one that nothing has programmed is erased. -/
def flashByte (a : Nat) (s : State) : Byte := (lookupCell a s.host.flash).getD 0xFF

def flashBytes (a n : Nat) (s : State) : List Byte := (List.range n).map (fun i => flashByte (a + i) s)

def setFlashByte (a : Nat) (b : Byte) (s : State) : State :=
  s.setHost { s.host with flash := putCell a (if b = 0xFF then none else some b) s.host.flash }

def flashWord (a : Nat) (s : State) : Nat := leNat (flashBytes a 4 s)

/-- Offset of a directory copy (R319). -/
def dirBase (c : Nat) : Nat := 0x10000 * c

/-- A directory copy is valid: magic, version and CRC. -/
def dirValid (c : Nat) (s : State) : Bool :=
  let b := dirBase c
  flashWord b s = 0xAB010D17 && flashWord (b + 4) s % 2 ^ 16 = 1 &&
    BitVec.ofNat 32 (flashWord (b + 0x7C) s) = crc32c (flashBytes b 0x7C s)

/-- Offset and length of the entry of kind `k` in copy `c`. -/
def dirEntry (c k : Nat) (s : State) : Option (Nat × Nat) :=
  ((List.range 7).map (fun i => dirBase c + 8 + 16 * i)).findSome? (fun e =>
    if flashWord e s % 256 = k then some (flashWord (e + 4) s, flashWord (e + 8) s) else none)

def bootBusy (s : State) : Bool := s.bit Reg.HOST_BOOT_STAT F.HOST_BOOT_STAT_Busy

def bootOk : Nat := 0
def bootRefused : Nat := 1
def bootTimeout : Nat := 2
def bootMemFault : Nat := 3

/-- The flash range that a command touches: an erase takes whole smallest sectors. -/
def bootRange (c : BootCmd) (s : State) : Nat × Nat :=
  let k := 2 ^ s.host.eraseLog
  if c.op = 3 && c.len != 0 then
    let a := c.flash / k * k
    (a, (c.flash + c.len - a + k - 1) / k * k)
  else (c.flash, c.len)

/-- Does a command touch the slot or the directory copy in use? -/
def touchesUse (c : BootCmd) (s : State) : Bool :=
  let r := bootRange c s
  let d := s.fld Reg.HOST_BOOT_INFO F.HOST_BOOT_INFO_DirCopy
  let hit := fun (x : Nat × Nat) => r.2 != 0 && x.2 != 0 && meets r.1 r.2 x.1 x.2
  hit (dirBase d, 128) ||
    match dirEntry d (1 + s.fld Reg.HOST_BOOT_INFO F.HOST_BOOT_INFO_ActiveSlot) s with
    | some e => hit e
    | none => false

def bootRefuses (c : BootCmd) (s : State) : Bool :=
  decide (2 ^ s.fld Reg.HOST_BOOT_INFO F.HOST_BOOT_INFO_SizeLog2 < c.flash + c.len) || (c.op != 1 && touchesUse c s)

/-- A command ends. -/
def bootEnd (result : Nat) (s : State) : State :=
  let s := s.setFld Reg.HOST_BOOT_STAT F.HOST_BOOT_STAT_Result result
  hostFlag (if result = bootOk then F.HOST_FLAGS_BootDone else F.HOST_FLAGS_BootError) s

/-- A write to HOST_BOOT_CMD. -/
def bootCmd (v : Word) (s : State) : State :=
  let op := F.HOST_BOOT_CMD_Op.get v
  let c := BootCmd.mk op (s.fld Reg.HOST_BOOT_FADDR F.HOST_BOOT_FADDR_FAddr) (s.base48 Reg.HOST_BOOT_MADDR_LO)
    (s.fld Reg.HOST_BOOT_LEN F.HOST_BOOT_LEN_Length)
  if op = 0 then s
  else if bootBusy s || bootRefuses c s then bootEnd bootRefused s
  else (s.setHost { s.host with boot := some c }).setFld Reg.HOST_BOOT_STAT F.HOST_BOOT_STAT_Busy 1

def bootIdle (s : State) : State :=
  (s.setHost { s.host with boot := none }).clrBit Reg.HOST_BOOT_STAT F.HOST_BOOT_STAT_Busy

/-- Flash to memory: the bytes before the first one that may not be written are written. -/
def bootCopy (c : BootCmd) (s : State) : Nat × State :=
  let l := atAddrs c.mem (flashBytes c.flash c.len s)
  let ok := l.takeWhile (fun x => dpAllowed .boot true x.1 s)
  let s' := putCells 4 0 ok s
  match l.drop ok.length with
  | [] => (bootOk, s')
  | x :: _ => (bootMemFault, noteTurned .boot true x.1 s')

/-- A program clears bits of the flash and sets none. -/
def programFlash (a : Nat) (bs : List Byte) (s : State) : State :=
  (atAddrs a bs).foldl (fun s x => setFlashByte x.1 (flashByte x.1 s &&& x.2) s) s

def eraseFlash (a n : Nat) (s : State) : State :=
  s.setHost { s.host with flash := s.host.flash.filter (fun c => decide (c.1 < a) || decide (a + n ≤ c.1)) }

/-- Memory to flash, `n` bytes at most; `remote` stands for the data that a Seam window returned. -/
def bootProgram (c : BootCmd) (n : Nat) (remote : List Byte) (s : State) : Nat × State :=
  let l := (List.range (Nat.min n c.len)).map (fun i => (c.mem + i) % 2 ^ 48)
  let ok := l.takeWhile (fun x => dpAllowed .boot false x s && !s.poisoned x)
  let data := (ok.zip (fetchBytes ok s)).zipIdx.map (fun x => if isSeam x.1.1 s then (remote[x.2]?).getD 0 else x.1.2)
  let s' := programFlash c.flash data s
  match l.drop ok.length with
  | [] => (bootOk, s')
  | x :: _ => (bootMemFault, noteTurned .boot false x (noteUes x 1 4 s'))

/-- A command comes to its end; `fail` where a Seam window on its memory side did not answer. -/
def bootDone (remote : List Byte) (fail : Bool) (s : State) : State :=
  match s.host.boot with
  | none => s
  | some c =>
    let s := bootIdle s
    let r := if c.op = 1 then bootCopy c s
      else if c.op = 3 then (bootOk, eraseFlash (bootRange c s).1 (bootRange c s).2 s)
      else if fail && isSeam c.mem s then (bootMemFault, s)
      else bootProgram c c.len remote s
    bootEnd r.1 r.2

/-- The flash stays busy too long; `done` bytes had been programmed or erased. -/
def flashTimeout (done : Nat) (s : State) : State :=
  match s.host.boot with
  | none => s
  | some c =>
    if c.op = 1 then s
    else
      let s := bootIdle s
      let s := if c.op = 3 then eraseFlash (bootRange c s).1 (Nat.min done (bootRange c s).2) s
        else (bootProgram c done [] s).2
      bootEnd bootTimeout s

/-! ### The commands -/

/-- DATA_PORT_WRITE. -/
def execDataPortWrite (n o : Nat) (be : List Nat) (ws : List Word) (ep : Bool) (s : State) : Out :=
  .next (dpWrite n o be ws ep s)

/-- BURST_IDLE_TIMEOUT. -/
def execBurstIdleTimeout (n : Nat) (s : State) : Out := .next (burstIdle n s)

/-- FLUSH: a write to DP_CTL(n) with Flush 1. -/
def execFlush (n : Nat) (v : Word) (s : State) : Out := .next (writeDp n (Reg.DP_CTL n) (F.DP_CTL_Flush.put v 1) s)

/-- DATA_PORT_READ of `len` DWORDs. -/
def execDataPortRead (n : Sweep) (o len : Nat) (s : State) : Out := .next (dpRead n.num o len n.fresh s)

/-- DATA_PORT_SEAM_TIMEOUT. -/
def execDataPortSeamTimeout (n a : Nat) (s : State) : Out := .next (dpSeamTimeout n a s)

/-- MSIX_SEND. -/
def execMsixSend (k : Nat) (s : State) : Out := .next (msixSend k s)

/-- FUNCTION_RESET: an FLR or a hot reset. -/
def execFunctionReset (s : State) : Out := .next (functionReset s)

/-- RETRAIN: a write to HOST_CTL with Retrain 1. -/
def execRetrain (v : Word) (s : State) : Out := .next (writeHostCtl (F.HOST_CTL_Retrain.put v 1) s)

/-- LINK_UP. -/
def execLinkUp (speed width : Nat) (s : State) : Out := .next (linkUp speed width s)

/-- LINK_DOWN. -/
def execLinkDown (s : State) : Out := .next (linkDown s)

/-- SPEED_CHANGE. -/
def execSpeedChange (speed : Nat) (s : State) : Out := .next (speedChange speed s)

/-- VIOLATION_COUNT_READ. -/
def execViolationCountRead (req : Req) (s : State) : Out :=
  .next ((s.setFld Reg.HOST_VIOL F.HOST_VIOL_Count 0).give req [s.reg Reg.HOST_VIOL])

/-- BOOT_READ: a write of READ to HOST_BOOT_CMD. -/
def execBootRead (v : Word) (s : State) : Out := .next (bootCmd (F.HOST_BOOT_CMD_Op.put v 1) s)

/-- BOOT_PROGRAM. -/
def execBootProgram (v : Word) (s : State) : Out := .next (bootCmd (F.HOST_BOOT_CMD_Op.put v 2) s)

/-- BOOT_ERASE. -/
def execBootErase (v : Word) (s : State) : Out := .next (bootCmd (F.HOST_BOOT_CMD_Op.put v 3) s)

/-- BOOT_DONE. -/
def execBootDone (remote : List Byte) (fail : Bool) (s : State) : Out := .next (bootDone remote fail s)

/-- FLASH_BUSY_TIMEOUT. -/
def execFlashBusyTimeout (done : Nat) (s : State) : Out := .next (flashTimeout done s)

/-- CONFIGURATION_SPACE_WRITE. -/
def execConfigurationSpaceWrite (msix mask master d3 : Bool) (s : State) : Out :=
  .next (configSpace msix mask master d3 s)

end Sys2Proof.Machine
end

