-- ==== Sys2Proof/Machine/Mantle.lean ====
section
/-!
DEFINITION. Mantle (chapter 15): keys, owner slots, rollback counters, firmware images, signed requests, the
debug unlock, attestation and the protected regions.
-/
namespace Sys2Proof.Machine

def State.setMnt (s : State) (x : Mantle) : State := { s with mantle := x }

/-- The bytes of an ASCII string. -/
def ascii (t : String) : List Byte := t.toList.map (fun c => BitVec.ofNat 8 c.toNat)

/-- `n` bytes of a list, 0 where it has none. -/
def fit (n : Nat) (l : List Byte) : List Byte := (List.range n).map (fun i => (l[i]?).getD 0)

/-! ### State and keys (R351, R352, R355) -/

def mntReady (s : State) : Bool := s.fld Reg.MNT_STATUS F.MNT_STATUS_State = 1

def mntFailsafe (s : State) : Bool := s.fld Reg.MNT_STATUS F.MNT_STATUS_State = 2

def deriveKey (label : String) : List Byte := Config.kmac256 Config.dus (ascii label) 256 (ascii "FILROS-DERIVE")

def identityPub : List Byte := fit 64 (Config.slhPublic (deriveKey "identity"))

/-- The hash of R353: the first 32 bytes of SHAKE256. -/
def shake32 (l : List Byte) : List Byte := fit 32 (Config.shake256 l 32)

/-- Consecutive registers from `a` on take the words of a list of bytes. -/
def setRegWords (a : Nat) (bs : List Byte) (s : State) : State :=
  (wordsOf bs).zipIdx.foldl (fun s w => s.setReg (a + 4 * w.2) w.1) s

/-- The nonce after a REQUEST (R360). -/
def nonceOf (start reqs : Nat) : List Byte :=
  fit 32 (Config.kmac256 (deriveKey "nonce") (leBytes 4 start ++ leBytes 4 reqs) 256 (ascii "FILROS-NONCE"))

/-- Step 0x05: the device secret, the identity and the serial number, or FAILSAFE. -/
def mantleStart (ok : Bool) (s : State) : State :=
  if ok then
    let s := s.setFld Reg.MNT_STATUS F.MNT_STATUS_State 1
    let s := setRegWords (Reg.MNT_IDPUB 0) identityPub s
    setRegWords Reg.MNT_SERIAL_LO (fit 8 (Config.shake256 identityPub 8)) s
  else mntFlag F.MNT_STATUS_FuseFault 911 (s.setFld Reg.MNT_STATUS F.MNT_STATUS_State 2)

/-! ### Fuses (R353, R354) -/

def ownerSlot (j : Nat) (s : State) : OwnerSlot := s.mantle.fuses.slots.get OwnerSlot.init j

def setSlotFuses (j : Nat) (x : OwnerSlot) (s : State) : State :=
  s.setMnt { s.mantle with fuses := { s.mantle.fuses with slots := s.mantle.fuses.slots.set OwnerSlot.init j x } }

def slotLive (j : Nat) (s : State) : Bool := (ownerSlot j s).enrolled && !(ownerSlot j s).revoked

/-- Is the public key accepted under the slot? -/
def keyAccepted (j : Nat) (pk : List Byte) (s : State) : Bool :=
  !mntFailsafe s && slotLive j s && decide (shake32 pk = (ownerSlot j s).hash)

def rbCounter (i : Nat) (s : State) : Nat := s.mantle.fuses.ctrs.get 0 i

def setCounter (i v : Nat) (s : State) : State :=
  s.setMnt { s.mantle with fuses := { s.mantle.fuses with ctrs := s.mantle.fuses.ctrs.set 0 i v } }

def rbShadow (i : Nat) (s : State) : Nat := s.mantle.shadows.get 0 i

/-- An accepted image or stream raises the shadow of its counter. -/
def raiseShadow (i v : Nat) (s : State) : State :=
  if rbShadow i s < v then s.setMnt { s.mantle with shadows := s.mantle.shadows.set 0 i v } else s

def mntRefused (s : State) : State := mntFlag F.MNT_STATUS_ReqRefused 909 s

def mntBurning (s : State) : Bool := s.bit Reg.MNT_STATUS F.MNT_STATUS_Burning

/-- A write to MNT_RBADV. -/
def writeRbadv (v : Word) (s : State) : State :=
  let i := F.MNT_RBADV_Index.get v
  let x := F.MNT_RBADV_Value.get v
  if mntBurning s then mntRefused s
  else if F.MNT_RBADV_Go.get v = 0 then s
  else if decide (64 < x) || decide (rbShadow i s < x) then mntRefused s
  else if x ≤ rbCounter i s then s
  else (s.setMnt { s.mantle with burn := some (i, x), burnAt := s.tick }).setBit Reg.MNT_STATUS F.MNT_STATUS_Burning

/-- Fuses blown when a burn from `old` to `new` ends before its time: the spec does not say how many. -/
def partBurn (i new : Nat) (s : State) : State :=
  let (w, s) := s.takeFree
  let old := rbCounter i s
  setCounter i (old + w.toNat % (new - old)) s

/-- A burn ends: the counter reads its new value, or a fuse did not read back blown after 4 attempts. -/
def burnDone (ok : Bool) (s : State) : State :=
  match s.mantle.burn with
  | none => s
  | some (i, v) =>
    let s := (s.setMnt { s.mantle with burn := none }).clrBit Reg.MNT_STATUS F.MNT_STATUS_Burning
    if ok then mntFlag F.MNT_STATUS_RbAdvanced 906 (setCounter i v s)
    else mntFlag F.MNT_STATUS_FuseFault 911 (partBurn i v s)

/-- A burn that has met no failure ends after 50 µs a fuse. -/
def burnDue (s : State) : State :=
  match s.mantle.burn with
  | none => s
  | some (i, v) => if s.mantle.burnAt + 80000 * (v - rbCounter i s) ≤ s.tick then burnDone true s else s

/-- MNT_SLOTSTAT(j), MNT_SLOTHASH(j,i) and MNT_RBCTR(i) as the fuses stand. -/
def slotStat (j : Nat) (s : State) : Word :=
  BitVec.ofNat 32 (b2n (ownerSlot j s).enrolled + 2 * b2n (ownerSlot j s).revoked)

def slotHashWord (j i : Nat) (s : State) : Word := (wordsOf (fit 32 (ownerSlot j s).hash)).getD i 0

def rbCtrWord (i : Nat) (s : State) : Word :=
  BitVec.ofNat 32 (rbCounter i s % 128 + 256 * Nat.min 64 (rbShadow i s))

/-! ### What Mantle reads and writes (R359, R365) -/

/-- Does Mantle find the byte at `a` in a Cluster Store or the LPDDR5X region? -/
def mntReach (a : Nat) (s : State) : Bool :=
  match regionOf a s with
  | .store _ => true
  | .lpddr => true
  | _ => false

def mntReachAll (a n : Nat) (s : State) : Bool := (List.range n).all (fun i => mntReach (a + i) s)

/-- Mantle met an uncorrectable word among `n` bytes at `a`, or did not reach them (R284, R291). -/
def noteMnt (a n : Nat) (s : State) : State :=
  match (List.range n).find? (fun i => !mntReach (a + i) s) with
  | some i => noteAsleep (a + i) s
  | none => noteUes a n 4 s

/-! ### The debug unlock (R361, R362) -/

def debugScope (s : State) : Nat := s.fld Reg.MNT_STATUS F.MNT_STATUS_DebugScope

/-- The unlock ends. -/
def endUnlock (s : State) : State :=
  if debugScope s = 0 then s
  else
    let s := s.setFld Reg.MNT_STATUS F.MNT_STATUS_DebugScope 0
    let s := s.setMnt { s.mantle with expiry := 0 }
    mntFlag F.MNT_STATUS_DebugChange 907 (closeDebug (setMntWord 26 (unlockEnds s + 1) (s.setReg64 Reg.MNT_DBGEXP_LO 0)))

def startUnlock (scope expiry : Nat) (s : State) : State :=
  let s := s.setFld Reg.MNT_STATUS F.MNT_STATUS_DebugScope scope
  let s := (s.setMnt { s.mantle with expiry := expiry }).setReg64 Reg.MNT_DBGEXP_LO expiry
  mntFlag F.MNT_STATUS_DebugChange 907 (setMntWord 24 (unlockCount s + 1) s)

/-- The first tick at which LINETIME has reached Expiry. -/
def unlockExpiry (s : State) : State :=
  if debugScope s != 0 && decide (s.mantle.expiry ≤ s.lt) then endUnlock s else s

/-! ### Results (MNT_REQSTAT) -/

def mrOk : Nat := 0
def mrBadFormat : Nat := 2
def mrWrongDevice : Nat := 3
def mrStaleNonce : Nat := 4
def mrKeyRejected : Nat := 5
def mrSigInvalid : Nat := 6
def mrRollback : Nat := 7
def mrNotAllowed : Nat := 8
def mrFuseFault : Nat := 9
def mrMemFault : Nat := 0xA
def mrFailsafe : Nat := 0xB

/-! ### Signed requests (R359 to R361) -/

def reqSize : Nat := 29952

def reqCmd (a : Nat) (s : State) : Nat := (s.byte (a + 4)).toNat

def reqSigner (a : Nat) (s : State) : Nat := (s.word (a + 4)).toNat / 2 ^ 8 % 4

def reqTarget (a : Nat) (s : State) : Nat := (s.word (a + 4)).toNat / 2 ^ 10 % 4

def reqArg (a : Nat) (s : State) : Nat := (s.word (a + 8)).toNat

def reqExpiry (a : Nat) (s : State) : Nat := leNat (s.bytes (a + 0x18) 8)

def isZero (l : List Byte) : Bool := l.all (· = 0)

/-- The Magic, the reserved fields, the fields that are to be 0 for this Cmd, and Cmd. -/
def reqFormOk (a : Nat) (s : State) : Bool :=
  let c := reqCmd a s
  decide (s.word a = 0xAB014D43#32) && decide ((s.word (a + 4)).toNat < 2 ^ 12) && (c = 1 || c = 2 || c = 3) &&
    decide (s.word (a + 0xC) = 0) && (c = 3 || reqExpiry a s = 0) && (c = 1 || isZero (s.bytes (a + 0x40) 32))

def nonceBytes (s : State) : List Byte := wordBytes ((List.range 8).map (fun i => s.reg (Reg.MNT_NONCE i)))

def serialBytes (s : State) : List Byte := wordBytes [s.reg Reg.MNT_SERIAL_LO, s.reg Reg.MNT_SERIAL_HI]

/-- The key check; before any slot is Enrolled an ENROL is signed by the key that it enrols. -/
def reqKeyOk (a : Nat) (s : State) : Bool :=
  let pk := s.bytes (a + 0x60) 64
  if reqCmd a s = 1 && (List.range 4).all (fun j => !(ownerSlot j s).enrolled) then
    decide (shake32 pk = s.bytes (a + 0x40) 32)
  else keyAccepted (reqSigner a s) pk s

def reqSigned (a : Nat) (s : State) : Bool :=
  Config.slhVerify (s.bytes (a + 0x60) 64) (ascii "FILROS-MNTCMD") (s.bytes a 0x60) (s.bytes (a + 0xA0) 29792)

/-- The command's own condition (R361). -/
def reqAllowed (a : Nat) (s : State) : Bool :=
  let j := reqTarget a s
  if reqCmd a s = 1 then !(ownerSlot j s).enrolled
  else if reqCmd a s = 2 then slotLive j s && (List.range 4).any (fun i => i != j && slotLive i s)
  else
    let d := (reqExpiry a s + 2 ^ 64 - s.lt) % 2 ^ 64
    reqArg a s != 0 && decide (reqArg a s < 4) && decide (1 ≤ d) && decide (d ≤ 2 ^ 42)

/-- The checks of a REQUEST in their order. -/
def reqResult (a : Nat) (s : State) : Nat :=
  if mntFailsafe s then mrFailsafe
  else if a % 64 != 0 then mrBadFormat
  else if !mntReachAll a reqSize s || anyPoison a reqSize s then mrMemFault
  else if !reqFormOk a s then mrBadFormat
  else if s.bytes (a + 0x10) 8 != serialBytes s then mrWrongDevice
  else if s.bytes (a + 0x20) 32 != nonceBytes s then mrStaleNonce
  else if !reqKeyOk a s then mrKeyRejected
  else if !reqSigned a s then mrSigInvalid
  else if !reqAllowed a s then mrNotAllowed
  else mrOk

/-- What a fuse that failed leaves of a hash: the spec does not say. -/
def brokenHash (s : State) : List Byte × State :=
  (List.range 8).foldl (fun (x : List Byte × State) _ =>
    let (w, s) := x.2.takeFree
    (x.1 ++ leBytes 4 w.toNat, s)) ([], s)

/-- The effect of an accepted command; `fuseOk` is false where a fuse does not read back blown. -/
def reqEffect (a : Nat) (fuseOk : Bool) (s : State) : Nat × State :=
  let j := reqTarget a s
  if reqCmd a s = 1 then
    if fuseOk then
      (mrOk, mntFlag F.MNT_STATUS_SlotChanged 905 (setSlotFuses j (OwnerSlot.mk true (ownerSlot j s).revoked (s.bytes (a + 0x40) 32)) s))
    else
      let (h, s) := brokenHash s
      (mrFuseFault, setSlotFuses j { ownerSlot j s with hash := h } s)
  else if reqCmd a s = 2 then
    if fuseOk then (mrOk, mntFlag F.MNT_STATUS_SlotChanged 905 (setSlotFuses j { ownerSlot j s with revoked := true } s))
    else (mrFuseFault, s)
  else (mrOk, startUnlock (reqArg a s) (reqExpiry a s) s)

/-- The end of a REQUEST: its effect and the new nonce. -/
def runRequest (a : Nat) (fuseOk : Bool) (s : State) : Nat × State :=
  let r := reqResult a s
  let (r, s') := if r = mrOk then reqEffect a fuseOk s else (r, if r = mrMemFault then noteMnt a reqSize s else s)
  if mntFailsafe s' then (r, s')
  else
    let n := s'.mantle.reqs + 1
    let s' := s'.setMnt { s'.mantle with reqs := n }
    (r, setRegWords (Reg.MNT_NONCE 0) (nonceOf (startCount s').toNat n) s')

/-! ### Firmware images (R356 to R358) -/

/-- A header of an image: its 128 bytes. -/
def imgWord (h : List Byte) (o : Nat) : Nat := leNat ((h.drop o).take 4)

def imgBodyLen (h : List Byte) : Nat := imgWord h 8

def imgIndex (h : List Byte) : Nat := imgWord h 0xC % 64

def imgSlot (h : List Byte) : Nat := imgWord h 0xC / 64 % 4

def imgVal (h : List Byte) : Nat := imgWord h 0x10

def imgBase (h : List Byte) : Nat := leNat ((h.drop 0x18).take 8)

def imgEntry (h : List Byte) : Nat := leNat ((h.drop 0x20).take 8)

def imgFormOk (h : List Byte) : Bool :=
  let n := imgBodyLen h
  decide (imgWord h 0 = 0xAB01F1A5) && decide (imgWord h 4 = 1) && decide (imgWord h 0xC < 2 ^ 8) && n % 64 = 0 &&
    decide (64 ≤ n) && decide (n ≤ 16777216) && decide (imgWord h 0x14 = 0) && decide (imgBase h < 2 ^ 48) &&
    decide (imgEntry h < 2 ^ 48) && isZero ((h.drop 0x48).take 56)

/-- The checks of R357 on an image. -/
def imgResult (h body pk sig : List Byte) (s : State) : Nat :=
  if mntFailsafe s then mrFailsafe
  else if !imgFormOk h then mrBadFormat
  else if !keyAccepted (imgSlot h) pk s then mrKeyRejected
  else if shake32 body != (h.drop 0x28).take 32 then mrSigInvalid
  else if !Config.slhVerify pk (ascii "FILROS-FIRMWARE") h sig then mrSigInvalid
  else if imgVal h < rbCounter (imgIndex h) s then mrRollback
  else mrOk

/-- A genuine image: MNT_FWMEAS, MNT_FWINFO, the shadow. -/
def imgAccept (h : List Byte) (flashSlot : Nat) (s : State) : State :=
  let s := setRegWords (Reg.MNT_FWMEAS 0) (shake32 h) s
  let w := F.MNT_FWINFO_OwnerSlot.put (F.MNT_FWINFO_Slot.put 0 flashSlot) (imgSlot h)
  let w := F.MNT_FWINFO_RollbackVal.put (F.MNT_FWINFO_RollbackIdx.put w (imgIndex h)) (imgVal h)
  let s := (s.setReg Reg.MNT_FWINFO w).setMnt { s.mantle with fwRb := imgVal h }
  mntFlag F.MNT_STATUS_FwVerified 904 (raiseShadow (imgIndex h) (imgVal h) s)

def imgReject (s : State) : State := mntFlag F.MNT_STATUS_FwRejected 904 s

/-- VERIFY_IMAGE of an image in memory at `a`. The spec gives no Slot for one: a free value. -/
def verifyImage (a : Nat) (s : State) : Nat × State :=
  let h := s.bytes a 128
  let n := imgBodyLen h
  let whole := 128 + (if imgFormOk h then n + 64 + 29792 else 0)
  if mntFailsafe s then (mrFailsafe, imgReject s)
  else if !mntReachAll a whole s || anyPoison a whole s then (mrMemFault, imgReject (noteMnt a whole s))
  else
    let r := imgResult h (s.bytes (a + 128) n) (s.bytes (a + 128 + n) 64) (s.bytes (a + 192 + n) 29792) s
    if r = mrOk then
      let (w, s) := s.takeFree
      (mrOk, imgAccept h (w.toNat % 2) s)
    else (r, imgReject s)

/-! ### Attestation (R363, R364) -/

def reportSize : Nat := 50768

/-- Bits of the slot status: 2 per slot, Enrolled then Revoked. -/
def slotBits (s : State) : Nat := (List.range 4).foldl (fun x j => x + (slotStat j s).toNat * 4 ^ j) 0

def sleeveBits (s : State) : Nat :=
  (List.range 16).foldl (fun x k => x + s.fld (Reg.CFG_SLVSTAT k) F.CFG_SLVSTAT_State * 4 ^ k) 0

/-- The body of a report, 912 bytes. -/
def attestBody (nonce : List Byte) (s : State) : List Byte :=
  leBytes 4 0xAB01A77E ++ leBytes 4 (1 + 2 ^ 16 * b2n (debugScope s != 0)) ++
  wordBytes [s.reg Reg.SYS_DEVID, s.reg Reg.SYS_FEATURE] ++ serialBytes s ++ leBytes 8 s.lt ++ fit 32 nonce ++
  wordBytes ((List.range 16).map (fun i => s.reg (Reg.MNT_IDPUB i))) ++
  wordBytes ((List.range 8).map (fun i => s.reg (Reg.MNT_FWMEAS i))) ++
  wordBytes [s.reg Reg.MNT_FWINFO] ++ leBytes 4 s.mantle.fwRb ++ leBytes 4 (slotBits s) ++ leBytes 4 (sleeveBits s) ++
  (List.range 4).flatMap (fun j => fit 32 (ownerSlot j s).hash) ++
  (List.range 64).map (fun i => BitVec.ofNat 8 (rbCounter i s)) ++
  (List.range 16).flatMap (fun k => fit 32 (s.cfg.tags.get [] k)) ++
  wordBytes [s.reg Reg.JRN_STARTCNT, s.reg Reg.JRN_FLWR, BitVec.ofNat 32 (s.fld Reg.JRN_FAILMASK F.JRN_FAILMASK_Failed),
    unlockCount s, applyFaults s, 0, 0, 0]

/-- The report: body and signature. -/
def attestReport (body : List Byte) : List Byte :=
  body ++ fit 49856 (Config.slhSign (deriveKey "identity") (ascii "FILROS-ATTEST") body)

/-- The end of an ATTEST of this device's own requesters. -/
def attestLocal (a : Nat) (body : List Byte) (s : State) : Nat × State :=
  if mntFailsafe s then (mrFailsafe, s)
  else if body.isEmpty then (mrMemFault, noteMnt a 32 s)
  else if !mntReachAll (a + 0x40) reportSize s then (mrMemFault, noteMnt (a + 0x40) reportSize s)
  else (mrOk, mntFlag F.MNT_STATUS_AttestDone 908 (putCells 4 0 (atAddrs (a + 0x40) (attestReport body)) s))

/-- The end of an ATTEST that another device asked for (R391): its WRITEs and the final answer. -/
def attestSeam (body : List Byte) (s : State) : Nat × State :=
  match s.seam.serve with
  | none => (mrOk, s)
  | some v =>
    let s := s.setSeam { s.seam with serve := none }
    let answer := fun (st : Nat) (s : State) => issueFlit (mkData clsAttest true false v.src v.tid st [] s) s
    if mntFailsafe s then (mrFailsafe, answer stAccess s)
    else
      let rep := attestReport body
      let s := (piecesOf (2 ^ 48) reportSize 0 0 reportSize).foldl (fun s p =>
        issuePost clsWrite none v.src false (writePayload (v.reply + 0x40 + p.1) ((rep.drop p.1).take p.2)) s) s
      (mrOk, mntFlag F.MNT_STATUS_AttestDone 908 (answer stOk s))

/-! ### The request channel (R360) -/

def mntBusy (s : State) : Bool := s.bit Reg.MNT_STATUS F.MNT_STATUS_ReqBusy

def setMntBusy (b : Bool) (s : State) : State := s.putBit Reg.MNT_STATUS F.MNT_STATUS_ReqBusy b

/-- The longest time that an operation takes, in ticks (R364, R368): 5 ms, 2 ms and the body at 25 Gbit/s, 0.5 s. -/
def opTicks (o : MntOp) (s : State) : Nat :=
  if o.op = 1 then 8000000
  else if o.op = 2 then 3200000 + Nat.min 16777216 (imgBodyLen (s.bytes o.addr 128)) * 64 / 125
  else 800000000

/-- An operation starts; an ATTEST samples its body at once, empty where its nonce cannot be read. -/
def startOp (op a : Nat) (s : State) : State :=
  let body := if op = 3 && mntReachAll a 32 s && !anyPoison a 32 s then attestBody (s.bytes a 32) s else []
  setMntBusy true (s.setMnt { s.mantle with op := some (MntOp.mk op a false body), opAt := s.tick })

/-- A write to MNT_REQCTL. -/
def writeReqctl (v : Word) (s : State) : State :=
  let s := s.plainWrite Reg.MNT_REQCTL v
  let op := F.MNT_REQCTL_Op.get v
  if F.MNT_REQCTL_Go.get v = 0 then s
  else if mntBusy s then mntRefused s
  else if op = 0 then s
  else startOp op (s.base48 Reg.MNT_REQ_LO) s

/-- The operation ends with its Result. A Seam ATTEST leaves Result as it is. -/
def opDone (fuseOk : Bool) (s : State) : State :=
  match s.mantle.op with
  | none => s
  | some o =>
    let s := setMntBusy false (s.setMnt { s.mantle with op := none })
    if o.seam then (attestSeam o.body s).2
    else
      let (r, s) := if o.op = 1 then runRequest o.addr fuseOk s
        else if o.op = 2 then verifyImage o.addr s
        else attestLocal o.addr o.body s
      let s := s.setFld Reg.MNT_REQSTAT F.MNT_REQSTAT_Result r
      if r = mrOk then s else mntRefused s

/-- What Mantle has under way ends by itself at the latest then. -/
def opDue (s : State) : State :=
  match s.mantle.op with
  | none => s
  | some o => if s.mantle.opAt + opTicks o s ≤ s.tick then opDone true s else s

/-! ### Regions (R365 to R367) -/

/-- A write to a region register; none once RgnLock has been written. -/
def writeMntRgn (a : Nat) (v : Word) (s : State) : State :=
  if s.bit Reg.MNT_STATUS F.MNT_STATUS_RgnLocked then s
  else if (ofs (Reg.MNT_RGN_LO 0) a) % 16 = 8 then
    s.plainWrite a (F.MNT_RGN_CTL_SizeLog2.put v (clampNat 20 28 (F.MNT_RGN_CTL_SizeLog2.get v)))
  else s.plainWrite a v

/-- The Journal's record of the regions: the registers of the enabled ones, 0 for the others. -/
def recordRegions (s : State) : State :=
  let ws := (List.range 8).flatMap (fun r =>
    if s.bit (Reg.MNT_RGN_CTL r) F.MNT_RGN_CTL_RgnEnable then
      [s.reg (Reg.MNT_RGN_LO r), s.reg (Reg.MNT_RGN_HI r), s.reg (Reg.MNT_RGN_CTL r)] else [0, 0, 0])
  jrnPut mntOfs (withCrc (ws ++ (mntWords s).drop 24)) s

/-- A write to MNT_CTL: RgnLock, then DebugLock. -/
def writeMntCtl (v : Word) (s : State) : State :=
  let s := if F.MNT_CTL_RgnLock.get v = 1 then recordRegions (s.setBit Reg.MNT_STATUS F.MNT_STATUS_RgnLocked) else s
  if F.MNT_CTL_DebugLock.get v = 1 then endUnlock s else s

/-- Zeros over the part of a range that the LPDDR5X region holds. -/
def zeroRange (a n : Nat) (s : State) : State :=
  let lo := Nat.max a lpddrBase
  let hi := Nat.min (a + n) (lpddrBase + lpddrSize s)
  { s with
    mem := s.mem.filter (fun c => decide (c.1 < lo) || decide (hi ≤ c.1)),
    poison := ⟨s.poison.cells.filter (fun c => decide (c.1 * 8 < lo) || decide (hi ≤ c.1 * 8))⟩ }

/-- Step 0x08: zeros over every region that the Journal records. -/
def zeroRecorded (s : State) : State :=
  (List.range 8).foldl (fun s r =>
    let ws := mntWords s
    let c := ws.getD (3 * r + 2) 0
    let k := F.MNT_RGN_CTL_SizeLog2.get c
    if F.MNT_RGN_CTL_RgnEnable.get c = 1 then
      zeroRange (ringStart ((ws.getD (3 * r) 0).toNat + 2 ^ 32 * ((ws.getD (3 * r + 1) 0).toNat % 2 ^ 16)) k) (2 ^ k) s
    else s) s

/-! ### The commands -/

/-- VERIFY_IMAGE: a write of Go with Op VERIFY_IMAGE to MNT_REQCTL. -/
def execVerifyImage (v : Word) (s : State) : Out :=
  .next (writeReqctl (F.MNT_REQCTL_Go.put (F.MNT_REQCTL_Op.put v 2) 1) s)

/-- ATTEST. -/
def execAttest (v : Word) (s : State) : Out := .next (writeReqctl (F.MNT_REQCTL_Go.put (F.MNT_REQCTL_Op.put v 3) 1) s)

/-- ENROL: a write of Go with Op REQUEST; the block at MNT_REQ names the command. -/
def execEnrol (v : Word) (s : State) : Out := .next (writeReqctl (F.MNT_REQCTL_Go.put (F.MNT_REQCTL_Op.put v 1) 1) s)

/-- REVOKE. -/
def execRevoke (v : Word) (s : State) : Out := .next (writeReqctl (F.MNT_REQCTL_Go.put (F.MNT_REQCTL_Op.put v 1) 1) s)

/-- DEBUG_UNLOCK. -/
def execDebugUnlock (v : Word) (s : State) : Out :=
  .next (writeReqctl (F.MNT_REQCTL_Go.put (F.MNT_REQCTL_Op.put v 1) 1) s)

/-- MANTLE_OPERATION_DONE. -/
def execMantleOperationDone (fuseOk : Bool) (s : State) : Out := .next (opDone fuseOk s)

/-- ROLLBACK_ADVANCE: a write of Go to MNT_RBADV. -/
def execRollbackAdvance (v : Word) (s : State) : Out := .next (writeRbadv (F.MNT_RBADV_Go.put v 1) s)

/-- FUSE_BURN_DONE. -/
def execFuseBurnDone (ok : Bool) (s : State) : Out := .next (burnDone ok s)

/-- DEBUG_LOCK: a write of DebugLock to MNT_CTL. -/
def execDebugLock (v : Word) (s : State) : Out := .next (writeMntCtl (F.MNT_CTL_DebugLock.put v 1) s)

/-- UNLOCK_EXPIRY. -/
def execUnlockExpiry (s : State) : Out := .next (unlockExpiry s)

/-- RGN_LOCK: a write of RgnLock to MNT_CTL. -/
def execRgnLock (v : Word) (s : State) : Out := .next (writeMntCtl (F.MNT_CTL_RgnLock.put v 1) s)

end Sys2Proof.Machine
end

