-- ==== Sys2Proof/Machine/Stream.lean ====
section
/-!
DEFINITION. Configuration streams (chapter 14): frame addresses (R332), the header (R333), the packets (R334,
R335), the key segments (R336) and the checks of a stream (R337, R340, R341).
-/
namespace Sys2Proof.Machine

/-! ### Frame addresses (R332) -/

/-- Minors of a block type. -/
def minorCount (typ : Nat) : Nat := if typ = 0 then 28 else if typ = 1 then 16 else if typ = 2 then 4 else 0

def frameCol (fa : Nat) : Nat := fa / 2 ^ 8 % 2 ^ 8

def frameOk (fa : Nat) : Bool := decide (fa < 2 ^ 16) && decide (fa % 64 < minorCount (fa / 64 % 4))

/-- The frame address after `fa`; none after the last. -/
def nextFrame (fa : Nat) : Option Nat :=
  let typ := fa / 64 % 4
  if fa % 64 + 1 < minorCount typ then some (fa + 1)
  else if typ < 2 then some (frameCol fa * 2 ^ 8 + (typ + 1) * 64)
  else if frameCol fa < 255 then some ((frameCol fa + 1) * 2 ^ 8)
  else none

/-- The frames of a column. -/
def columnFrames (col : Nat) : List Nat :=
  [0, 1, 2].flatMap (fun typ => (List.range (minorCount typ)).map (fun m => col * 2 ^ 8 + typ * 64 + m))

/-- The frames of the Sleeves of a set. -/
def setFrames (set : Nat) : List Nat :=
  ((List.range 256).filter (fun col => bitN set (col / 16))).flatMap columnFrames

/-! ### The header (R333) -/

def hdrWord (src o : Nat) (s : State) : Nat := (s.word (src + o)).toNat

def hdrFull (src : Nat) (s : State) : Bool := bitN (hdrWord src 4 s) 16

def payLen (src : Nat) (s : State) : Nat := hdrWord src 0xC s

def streamLen (src : Nat) (s : State) : Nat := hdrWord src 8 s

def hdrOk (src : Nat) (s : State) : Bool :=
  let n := payLen src s
  decide (hdrWord src 0 s = 0xAB01C0F5) && hdrWord src 4 s % 2 ^ 16 = 1 && decide (hdrWord src 4 s < 2 ^ 17) &&
    n % 4 = 0 && decide (16 ≤ n) && decide (streamLen src s = 128 + n + 29888) && decide (hdrWord src 0x10 s < 2 ^ 8) &&
    decide (hdrWord src 0x24 s = 0) && isZero (s.bytes (src + 0x50) 48)

def hdrRbIdx (src : Nat) (s : State) : Nat := hdrWord src 0x10 s % 64

def hdrSlot (src : Nat) (s : State) : Nat := hdrWord src 0x10 s / 64 % 4

def hdrRbVal (src : Nat) (s : State) : Nat := hdrWord src 0x14 s

def hdrNonce (src : Nat) (s : State) : List Byte := s.bytes (src + 0x18) 12

/-- Where the trailer begins. -/
def trailerOf (src : Nat) (s : State) : Nat := src + 128 + payLen src s

def streamTag (src : Nat) (s : State) : List Byte := s.bytes (trailerOf src s) 32

def streamKey (src : Nat) (s : State) : List Byte := s.bytes (trailerOf src s + 32) 64

def streamSig (src : Nat) (s : State) : List Byte := s.bytes (trailerOf src s + 96) 29792

/-! ### Keys and decryption (R336) -/

/-- K0 of the stream, none where the unwrap fails. -/
def firstKey (src : Nat) (s : State) : Option (List Byte) :=
  Config.kwUnwrap (deriveKey "stream-kek") (s.bytes (src + 0x28) 40)

def rollKey (k : List Byte) (i : Nat) : List Byte := fit 32 (Config.kmac256 k (leBytes 4 i) 256 (ascii "FILROS-ROLL"))

def be32 (x : Nat) : List Byte := (leBytes 4 x).reverse

/-- Byte `j` of the key stream of a segment. -/
def keyByte (k nonce : List Byte) (j : Nat) : Byte := ((Config.aesEnc k (nonce ++ be32 (j / 16)))[j % 16]?).getD 0

/-- The tag of R336 over header and ciphertext. -/
def computedTag (src : Nat) (k0 : List Byte) (s : State) : List Byte :=
  fit 32 (Config.kmac256 (Config.kmac256 k0 [] 256 (ascii "FILROS-TAG")) (s.bytes src (128 + payLen src s)) 256
    (ascii "FILROS-STREAM"))

/-! ### Packets (R334, R335) -/

/-- A pass over the payload: byte offset, the key segment, the current frame address (none where it has none),
and what the packets have said so far. -/
structure Pass where
  ofs     : Nat
  seg     : Nat
  segNo   : Nat
  key     : List Byte
  cur     : Option Nat
  faddr   : Bool
  set     : Option Nat
  id      : Word
  started : Bool
  ended   : Bool
  frames  : List (Nat × List Word)

def Pass.init (k0 : List Byte) : Pass :=
  { ofs := 0, seg := 0, segNo := 0, key := k0, cur := none, faddr := false, set := none, id := 0, started := false, ended := false,
    frames := [] }

/-- Why a stream fails: the code, the frame address at fault, and whether an address without a number is. -/
structure PassErr where
  code : Nat
  addr : Option Nat
  past : Bool

def passErr (code : Nat) : PassErr := { code := code, addr := none, past := false }

def ceMemFault : Nat := 0x12
def ceBadPacket : Nat := 0x09
def ceSleeveSet : Nat := 0x0B

def plainByte (src : Nat) (p : Pass) (s : State) (o : Nat) : Byte :=
  s.byte (src + 128 + o) ^^^ keyByte p.key (hdrNonce src s) (o - p.seg)

def plainWord (src : Nat) (p : Pass) (s : State) (o : Nat) : Word :=
  BitVec.ofNat 32 (leNat ((List.range 4).map (fun i => plainByte src p s (o + i))))

/-- One frame at the current address. -/
def putFrame (ws : List Word) (p : Pass) : Except PassErr Pass :=
  match p.set, p.cur with
  | none, _ => .error (passErr ceSleeveSet)
  | some _, none => .error { code := 0x0C, addr := none, past := true }
  | some set, some fa =>
    if !frameOk fa then .error { code := 0x0C, addr := some fa, past := false }
    else if !bitN set (frameCol fa / 16) then .error { code := 0x0D, addr := some fa, past := false }
    else if p.frames.any (fun f => f.1 = fa) then .error { code := 0x0E, addr := some fa, past := false }
    else .ok { p with frames := p.frames ++ [(fa, ws)], cur := nextFrame fa }

/-- `n` frames whose words lie from payload byte `o` on. -/
def putFrames (src : Nat) (s : State) : Nat → Nat → Pass → Except PassErr Pass
  | 0, _, p => .ok p
  | n + 1, o, p =>
    match putFrame ((List.range 128).map (fun i => plainWord src p s (o + 4 * i))) p with
    | .error e => .error e
    | .ok p => putFrames src s n (o + 512) p

/-- REGW. -/
def regwPacket (r v : Word) (p : Pass) : Except PassErr Pass :=
  if r = 1 then (if v = 0xAB018001#32 then .ok p else .error (passErr 0x0A))
  else if r = 2 then .ok { p with id := v }
  else .error (passErr ceBadPacket)

/-- SLEEVE. -/
def sleevePacket (full : Bool) (w : Word) (p : Pass) : Except PassErr Pass :=
  let set := w.toNat % 2 ^ 16
  if p.set.isSome || p.faddr || set = 0 || (full && set != 0xFFFF) then .error (passErr ceSleeveSet)
  else if 2 ^ 16 ≤ w.toNat then .error (passErr ceBadPacket)
  else .ok { p with set := some set }

/-- FADDR. -/
def faddrPacket (w : Word) (p : Pass) : Except PassErr Pass :=
  if 2 ^ 16 ≤ w.toNat then .error (passErr ceBadPacket) else .ok { p with cur := some w.toNat, faddr := true }

/-- END: at PayloadLen, after START, with every frame of the set written. -/
def endPacket (last : Bool) (p : Pass) : Except PassErr Pass :=
  if !last || !p.started then .error (passErr ceBadPacket)
  else match p.set with
    | none => .error (passErr ceSleeveSet)
    | some set =>
      if (setFrames set).all (fun fa => p.frames.any (fun f => f.1 = fa)) then .ok { p with ended := true }
      else .error (passErr 0x0E)

/-- What a packet does; `w` gives its words. -/
def packetBody (src op cnt : Nat) (full last : Bool) (w : Nat → Word) (s : State) (p : Pass) : Except PassErr Pass :=
  if op = 0x08 && cnt = 0 then endPacket last p
  else if p.started then .error (passErr ceBadPacket)
  else if op = 0x00 then .ok p
  else if op = 0x02 && cnt = 2 then regwPacket (w 0) (w 1) p
  else if op = 0x03 && cnt = 1 then faddrPacket (w 0) p
  else if op = 0x04 && cnt % 128 = 0 then putFrames src s (cnt / 128) (p.ofs + 4) p
  else if op = 0x05 && cnt = 1 then sleevePacket full (w 0) p
  else if op = 0x06 && cnt = 0 then .ok p
  else if op = 0x07 && cnt = 0 then .ok { p with started := true }
  else .error (passErr ceBadPacket)

/-- One packet: its place, its words' integrity, its rules, the length of its segment. -/
def packet (src : Nat) (full : Bool) (s : State) (p : Pass) : Except PassErr Pass :=
  let n := payLen src s
  let h := plainWord src p s p.ofs
  let op := h.toNat / 2 ^ 24
  let cnt := h.toNat % 2 ^ 24
  let stop := p.ofs + 4 + 4 * cnt
  if anyPoison (src + 128 + p.ofs) 4 s then .error (passErr ceMemFault)
  else if p.ofs = 0 && (op != 1 || cnt != 1 || plainWord src p s 4 != 0xA55A0F1E#32) then .error (passErr 0x08)
  else if n < stop then .error (passErr ceBadPacket)
  else if anyPoison (src + 128 + p.ofs) (stop - p.ofs) s then .error (passErr ceMemFault)
  else
    let r := if p.ofs = 0 then .ok p
      else packetBody src op cnt full (stop = n) (fun i => plainWord src p s (p.ofs + 4 + 4 * i)) s p
    match r with
    | .error e => .error e
    | .ok p =>
      if 262144 < stop - p.seg then .error (passErr 0x0F)
      else if op = 0x06 then .ok { p with ofs := stop, seg := stop, segNo := p.segNo + 1, key := rollKey p.key p.segNo }
      else .ok { p with ofs := stop }

/-- The packets of a payload in order, with the pass as the last good packet left it. -/
def packets (src : Nat) (full : Bool) (s : State) : Nat → Pass → Pass × Option PassErr
  | 0, p => (p, if p.ended then none else some (passErr ceBadPacket))
  | fuel + 1, p =>
    if p.ended then (p, none)
    else if payLen src s ≤ p.ofs then (p, some (passErr ceBadPacket))
    else match packet src full s p with
      | .error e => (p, some e)
      | .ok p => packets src full s fuel p

def runPackets (src : Nat) (k0 : List Byte) (s : State) : Pass × Option PassErr :=
  packets src (hdrFull src s) s (payLen src s / 4 + 1) (Pass.init k0)

end Sys2Proof.Machine
end

