-- ==== Sys2Proof/Machine/Fabric.lean ====
section
/-!
DEFINITION. Fabric and configuration (chapter 14): fabric ports (R326), Cuffs and Sleeve states (R327 to R330),
the load and the apply of a stream (R338 to R346), and the Config Port (R347, R348).
-/
namespace Sys2Proof.Machine

def State.setCfg (s : State) (x : Cfg) : State := { s with cfg := x }

/-- Sets a flag of CFG_STATUS, with its event (R349). -/
def cfgFlag (f : Fld) (s : State) : State :=
  let i := f.lsb
  let e := if i = 8 then 936 else if i ≤ 11 then 937 else if i = 12 then 938 else 939
  s.flag Reg.CFG_STATUS f (bitN (s.reg Reg.CFG_EVTEN).toNat i) e

/-- Sets a flag of CFG_SLVSTAT(k), with its event. -/
def slvFlag (k : Nat) (f : Fld) (s : State) : State :=
  s.flag (Reg.CFG_SLVSTAT k) f (bitN (s.reg (Reg.CFG_SLVEVTEN k)).toNat f.lsb) (832 + k)

/-! ### Sleeves (R327 to R330) -/

def slvBlank : Nat := 0
def slvRunning : Nat := 1
def slvBroken : Nat := 3

def setSlv (k x : Nat) (s : State) : State := s.setFld (Reg.CFG_SLVSTAT k) F.CFG_SLVSTAT_State x

/-- The Sleeves of a set. -/
def slvOf (set : Nat) : List Nat := (List.range 16).filter (fun k => bitN set k)

/-- A Sleeve engages its Cuffs: HOLD_LAST keeps the levels that its logic had, which the spec does not give. -/
def engage (k : Nat) (s : State) : State :=
  if slvState k s = slvRunning then
    let (w, s) := s.takeFree
    setSlv k slvCuffed (s.setCfg { s.cfg with sleeves := s.cfg.sleeves.set (Sleeve.mk none) k (Sleeve.mk (some w.toNat)) })
  else setSlv k slvCuffed s

/-- A Sleeve releases: the levels of its cue outputs, which its logic sets, become their references. -/
def releaseSlv (k : Nat) (s : State) : State :=
  let (w, s) := s.takeFree
  let s := (List.range 8).foldl (fun s j => setSrcLevel (768 + 8 * k + j) (w.getLsbD j) s) s
  let s := s.setCfg { s.cfg with released := s.cfg.released.set 0 k s.tick }
  slvFlag k F.CFG_SLVSTAT_Released (setSlv k slvRunning s)

/-- A cue output of a running Sleeve, sampled in the tick after a FAB edge (R35); the first change after a release
comes from the FAB edge after R (R329). -/
def cueOutput (o : Nat) (level : Bool) (s : State) : State :=
  if decide (o < 128) && slvState (o / 8) s = slvRunning && s.tick % 4 = 1 && s.tick != s.cfg.released.get 0 (o / 8) + 1 then
    sourceLevel (768 + o) level 0 s
  else s

/-- Two mode bits per Cuff: 0b11 stores 0b00. -/
def fixModes (v : Word) : Word :=
  (List.range 16).foldl (fun w i => if slice v.toNat (2 * i) 2 = 3 then w &&& ~~~ BitVec.ofNat 32 (3 * 4 ^ i) else w) v

/-- A write to CFG_CUFF(k,w). -/
def writeCuff (k w : Nat) (v : Word) (s : State) : State :=
  if slvState k s = slvCuffed || slvState k s = slvBroken then cfgFlag F.CFG_STATUS_Refused s
  else s.plainWrite (Reg.CFG_CUFF k w) (fixModes v)

/-! ### Fabric ports (R326) -/

def writeFpwinHi (k p : Nat) (v : Word) (s : State) : State :=
  s.plainWrite (Reg.CFG_FPWIN_HI k p) (F.CFG_FPWIN_HI_SizeLog2.put v (clampNat 12 36 (F.CFG_FPWIN_HI_SizeLog2.get v)))

def fabricMemory (write : Bool) (a n : Nat) (s : State) : Bool :=
  match regionOf a s with
  | .wave _ => true
  | .store _ => true
  | .lpddr => fenceOk .fabric write a n s
  | _ => false

/-- Is a request of `n` bytes at `a` accepted? -/
def fabricOk (k p : Nat) (write : Bool) (a n : Nat) (s : State) : Bool :=
  let hi := Reg.CFG_FPWIN_HI k p
  let z := s.fld hi F.CFG_FPWIN_HI_SizeLog2
  let base := ringStart ((s.reg (Reg.CFG_FPWIN_LO k p)).toNat + 2 ^ 32 * s.fld hi F.CFG_FPWIN_HI_BaseHi) z
  s.bit hi F.CFG_FPWIN_HI_WinEnable && (!write || s.bit hi F.CFG_FPWIN_HI_Write) && decide (base ≤ a) &&
    decide (a + n ≤ base + 2 ^ z) && fabricMemory write a n s

/-- A request of a running Sleeve of 1 to 64 bytes within an aligned block; a read is of as many bytes as `data`
has. -/
def fabricRequest (k p : Nat) (write : Bool) (a : Nat) (data : List Byte) (s : State) : State :=
  let n := data.length
  if slvState k s != slvRunning || n = 0 || decide (64 < a % 64 + n) || decide (4 ≤ p) || decide (16 ≤ k) then s
  else if fabricOk k p write a n s then
    if write then putPiece 4 (4 * k + p) a data s else noteUes a n 4 s
  else
    let s := noteTurned .fabric write a s
    slvFlag k F.CFG_SLVSTAT_PortFault (s.setFld (Reg.CFG_SLVSTAT k) F.CFG_SLVSTAT_FaultPort p)

/-! ### Load states and results (R340, R341) -/

def csIdle : Nat := 0
def csReceiving : Nat := 1
def csChecking : Nat := 2
def csVerified : Nat := 3
def csApplying : Nat := 4

def cfgState (s : State) : Nat := s.fld Reg.CFG_STATUS F.CFG_STATUS_State

def setCfgState (x : Nat) (s : State) : State := s.setFld Reg.CFG_STATUS F.CFG_STATUS_State x

def setResult (code : Nat) (s : State) : State := s.setFld Reg.CFG_RESULT F.CFG_RESULT_Code code

def ceOk : Nat := 0x00
def ceBusy : Nat := 0x01
def ceHeader : Nat := 0x02
def ceKey : Nat := 0x03
def ceRollback : Nat := 0x04
def ceWrap : Nat := 0x05
def ceLocation : Nat := 0x06
def ceLarge : Nat := 0x07
def ceTag : Nat := 0x10
def ceSig : Nat := 0x11
def cePort : Nat := 0x13
def ceApply : Nat := 0x14
def ceAborted : Nat := 0x15

/-- The loader returns to IDLE. -/
def loaderIdle (s : State) : State :=
  (setCfgState csIdle (s.setCfg { s.cfg with load := none, edge := none })).clrBit Reg.CFG_STATUS F.CFG_STATUS_Locked

/-- A load or a reception fails. -/
def failLoad (code : Nat) (s : State) : State := cfgFlag F.CFG_STATUS_LoadError (loaderIdle (setResult code s))

/-! ### Go and Abort (R338 to R342) -/

def stagingBase : Nat := 0x2000000
def stagingBytes : Nat := 1572864

/-- Where a load reads its stream: the staging area, or CFG_SRC. -/
def sourceAddr (src : Nat) (s : State) : Nat := if src = 1 then s.base48 Reg.CFG_SRC_LO else stagingBase

/-- The protected region, 8 for the boot stream region, that holds `n` bytes at `a` whole and lets the loader
read them. -/
def heldRegion (a n : Nat) (s : State) : Option Nat :=
  let within := fun (b m : Nat) => decide (b ≤ a) && decide (a + n ≤ b + m)
  match (List.range 8).find? (fun r =>
      s.bit (Reg.MNT_RGN_CTL r) F.MNT_RGN_CTL_RgnEnable && s.bit (Reg.MNT_RGN_CTL r) F.MNT_RGN_CTL_Loader &&
        within (rgnSpan r s).1 (rgnSpan r s).2) with
  | some r => some r
  | none =>
    let top := lpddrBase + 2 ^ 20 * s.fld Reg.MEMC_SIZES F.MEMC_SIZES_PlainMiB
    if s.mantle.fence && within (ofs (2 ^ 23) top) (2 ^ 23) then some 8 else none

/-- A load of the stream at `a` starts: CHECKING, Locked. -/
def startLoadAt (src a : Nat) (s : State) : State :=
  let full := hdrFull a s
  let rgn := if src = 1 && full then heldRegion a (streamLen a s) s else none
  let s := s.setCfg { s.cfg with load := some (CfgLoad.mk src a full 0 0 [] 0 0 rgn) }
  (setCfgState csChecking s).setBit Reg.CFG_STATUS F.CFG_STATUS_Locked

def startLoad (src : Nat) (s : State) : State := startLoadAt src (sourceAddr src s) s

def goLoad (src : Nat) (s : State) : State :=
  if cfgState s = csIdle then startLoad src s
  else cfgFlag F.CFG_STATUS_Refused (setResult ceBusy s)

/-- A reception ends: the port discards data until CFG_CS_N has been high for 1 µs. -/
def shutPort (s : State) : State := s.setCfg { s.cfg with port := { s.cfg.port with shut := true } }

def abortLoad (s : State) : State :=
  let st := cfgState s
  if st = csApplying then cfgFlag F.CFG_STATUS_Refused s
  else if st = csReceiving then shutPort (failLoad ceAborted s)
  else if st = csIdle then s
  else failLoad ceAborted s

/-- A write to CFG_LOAD: Src, then Abort, then Go. -/
def writeCfgLoad (v : Word) (s : State) : State :=
  let src := if F.CFG_LOAD_Src.get v = 1 then 1 else 0
  let s := s.setFld Reg.CFG_LOAD F.CFG_LOAD_Src src
  let s := if F.CFG_LOAD_Abort.get v = 1 then abortLoad s else s
  if F.CFG_LOAD_Go.get v = 1 then goLoad src s else s

/-- A write to CFG_CTL: PortArm 0 ends a reception. -/
def writeCfgCtl (v : Word) (s : State) : State :=
  let s := s.plainWrite Reg.CFG_CTL v
  if F.CFG_CTL_PortArm.get v = 0 && cfgState s = csReceiving then shutPort (failLoad ceAborted s) else s

/-- CFG_APPLYAT: no writes while VERIFIED or APPLYING. -/
def writeApplyAt (a : Nat) (v : Word) (s : State) : State :=
  if cfgState s = csVerified || cfgState s = csApplying then s else s.plainWrite a v

/-! ### The checks (R337, R340) -/

/-- May the loader read the byte at `a` for a copy into the staging area? -/
def loaderReads (a : Nat) (s : State) : Bool :=
  match regionOf a s with
  | .wave _ => true
  | .bram _ => true
  | .store _ => true
  | .lpddr => fenceOk .loader false a 1 s
  | .staging => true
  | _ => false

/-- Step 2: the header, the key slot, the rollback value, the unwrap, the size and the location. -/
def headCheck (l : CfgLoad) (s : State) : Nat :=
  let a := l.addr
  if anyPoison a 128 s then ceMemFault
  else if !hdrOk a s then ceHeader
  else if anyPoison (trailerOf a s) 29888 s then ceMemFault
  else if !keyAccepted (hdrSlot a s) (streamKey a s) s then ceKey
  else if hdrRbVal a s < rbCounter (hdrRbIdx a s) s then ceRollback
  else if (firstKey a s).isNone then ceWrap
  else if !l.full && decide (stagingBytes < streamLen a s) then ceLarge
  else if l.src = 1 && a % 4 != 0 then ceLocation
  else if l.full && l.region.isNone then ceLocation
  else if l.src = 1 && !l.full && !(List.range (streamLen a s)).all (fun i => loaderReads (a + i) s) then ceLocation
  else ceOk

/-- A partial stream from memory is copied into the staging area; none where a word of it is uncorrectable. -/
def stageCopy (l : CfgLoad) (s : State) : Option (CfgLoad × State) :=
  if l.src = 1 && !l.full then
    let n := streamLen l.addr s
    if anyPoison l.addr n s then none
    else
      let s := s.put stagingBase (fetchBytes ((List.range n).map (l.addr + ·)) s)
      some ({ l with addr := stagingBase }, s.setCfg { s.cfg with load := some { l with addr := stagingBase } })
  else some (l, s)

/-- A failing packet: its offset, its frame address, its code. -/
def packetFail (p : Pass) (e : PassErr) (s : State) : State :=
  let s := s.setReg Reg.CFG_ERROFS (BitVec.ofNat 32 (128 + p.ofs))
  let s := match e.addr with
    | some fa => s.setFld Reg.CFG_ERRINFO F.CFG_ERRINFO_FrameAddr fa
    | none =>
      if e.past then
        let (w, s) := s.takeFree
        s.setFld Reg.CFG_ERRINFO F.CFG_ERRINFO_FrameAddr (w.toNat % 2 ^ 16)
      else s
  failLoad e.code s

/-- The load enters VERIFIED. -/
def enterVerified (l : CfgLoad) (p : Pass) (s : State) : State :=
  let a := l.addr
  let l := { l with
    set := p.set.getD 0, id := p.id, tag := streamTag a s, rbIdx := hdrRbIdx a s, rbVal := hdrRbVal a s }
  let s := raiseShadow l.rbIdx l.rbVal (setCfgState csVerified (s.setCfg { s.cfg with load := some l }))
  let t := s.reg64 Reg.CFG_APPLYAT_LO
  if t != 0 && decide (t < s.lt) then cfgFlag F.CFG_STATUS_ApplyLate s else s

/-- Steps 3 and 4: the packets, the tag, the signature. -/
def bodyCheck (l : CfgLoad) (s : State) : State :=
  let k0 := (firstKey l.addr s).getD []
  let (p, e) := runPackets l.addr k0 s
  match e with
  | some e => packetFail p e s
  | none =>
    let tag := streamTag l.addr s
    if computedTag l.addr k0 s != tag then failLoad ceTag s
    else if !Config.slhVerify (streamKey l.addr s) [] (s.bytes l.addr 128 ++ tag) (streamSig l.addr s) then failLoad ceSig s
    else enterVerified l p s

/-- The checks end. -/
def checkDone (s : State) : State :=
  match s.cfg.load with
  | none => s
  | some l =>
    if cfgState s != csChecking then s
    else
      let c := headCheck l s
      if c = ceMemFault then failLoad c (noteUes l.addr (streamLen l.addr s) 4 s)
      else if c != ceOk then failLoad c s
      else match stageCopy l s with
        | none => failLoad ceMemFault (noteUes l.addr (streamLen l.addr s) 4 s)
        | some (l, s) => bodyCheck l s

/-! ### The apply (R343 to R345) -/

def fabEdge (s : State) : Bool := s.tick % 4 = 0

/-- At ApplyAt the apply begins, and at the first FAB edge of it, edge E, the Sleeves of the set engage. -/
def applyStart (s : State) : State :=
  match s.cfg.load with
  | none => s
  | some l =>
    let t := s.reg64 Reg.CFG_APPLYAT_LO
    let s := if cfgState s = csVerified && (t = 0 || decide (t ≤ s.lt)) then setCfgState csApplying s else s
    if cfgState s = csApplying && fabEdge s && s.cfg.edge.isNone then
      (slvOf l.set).foldl (fun s k => engage k s) (s.setCfg { s.cfg with edge := some s.tick })
    else s

/-- The frames of the second pass, as far as it went. -/
def writeFrames (l : List (Nat × List Word)) (s : State) : State :=
  l.foldl (fun s f => s.setCfg { s.cfg with frames := s.cfg.frames.set [] f.1 f.2 }) s

/-- A tag that differs or an uncorrectable word: the Sleeves are BROKEN. -/
def applyFault (l : CfgLoad) (s : State) : State :=
  let s := (slvOf l.set).foldl (fun s k => slvFlag k F.CFG_SLVSTAT_Broken (setSlv k slvBroken s)) s
  let s := setMntWord 25 (applyFaults s + 1) (s.logPoint 937 0x0A 0x00 l.set)
  failLoad ceApply s

/-- The Sleeves release, and the load has been applied. -/
def applyDone (l : CfgLoad) (s : State) : State :=
  let s := (slvOf l.set).foldl (fun s k => releaseSlv k s) s
  let tags := (slvOf l.set).foldl (fun t k => Tab.set t [] k l.tag) s.cfg.tags
  let s := setRegWords (Reg.CFG_LASTTAG 0) l.tag (s.setCfg { s.cfg with tags := tags })
  let s := (s.setReg Reg.CFG_LASTSET (BitVec.ofNat 32 l.set)).setReg Reg.CFG_LASTID l.id
  cfgFlag F.CFG_STATUS_LoadDone (loaderIdle (setResult ceOk s))

/-- The second pass over the stream: its frames, and then the release or an apply fault. -/
def applyPass (l : CfgLoad) (s : State) : State :=
  let k0 := (firstKey l.addr s).getD []
  let (p, e) := runPackets l.addr k0 s
  let s := writeFrames p.frames s
  if anyPoison l.addr (streamLen l.addr s) s then applyFault l (noteUes l.addr (streamLen l.addr s) 4 s)
  else if e.isSome || computedTag l.addr k0 s != l.tag then applyFault l s
  else applyDone l s

/-- The second pass has been written: at a FAB edge after E the Sleeves release, or the apply has failed. -/
def sleeveRelease (s : State) : State :=
  match s.cfg.load, s.cfg.edge with
  | some l, some e => if cfgState s = csApplying && fabEdge s && decide (e < s.tick) then applyPass l s else s
  | _, _ => s

/-! ### Config Port (R347, R348) -/

def cpMode (s : State) : Nat := s.fld Reg.CFG_PORTSTAT F.CFG_PORTSTAT_Mode

def setPort (p : CfgPort) (s : State) : State := s.setCfg { s.cfg with port := p }

/-- A violation of code `c`. -/
def portViol (c : Nat) (s : State) : State :=
  cfgFlag F.CFG_STATUS_PortViolation
    ((s.setFld Reg.CFG_PORTVIOL F.CFG_PORTVIOL_Code c).countUp Reg.CFG_PORTVIOL F.CFG_PORTVIOL_Count)

def portCnt (s : State) : Nat := s.fld Reg.CFG_PORTCNT F.CFG_PORTCNT_Bytes

/-- CFG_CS_N is low: where it was high, a period begins, and 1 µs of high ends the discarding. -/
def csLow (s : State) : State :=
  let p := s.cfg.port
  if p.low then s
  else setPort { p with
    low := true, begun := false, ignore := false, shut := p.shut && decide (s.tick < p.rise + 1600) } s

def accepting (s : State) : Bool :=
  s.bit Reg.CFG_CTL F.CFG_CTL_PortArm && (cfgState s = csIdle || cfgState s = csReceiving)

/-- One byte of a stream arrives; nothing more is taken once the reception has ended. -/
def takeByte (s : State) (b : Byte) : State :=
  if s.cfg.port.shut || !accepting s then s
  else
    let s := if cfgState s = csIdle then (setCfgState csReceiving s).setFld Reg.CFG_PORTCNT F.CFG_PORTCNT_Bytes 0 else s
    let n := portCnt s
    let s := (s.put (stagingBase + n) [b]).setFld Reg.CFG_PORTCNT F.CFG_PORTCNT_Bytes (n + 1)
    let s := setPort { s.cfg.port with last := s.tick } s
    if n + 1 = 128 && (decide (stagingBytes < streamLen stagingBase s) || hdrFull stagingBase s) then
      shutPort (failLoad ceLarge (portViol 0x05 s))
    else if 128 ≤ n + 1 && decide (streamLen stagingBase s ≤ n + 1) then
      startLoad 2 (shutPort (cfgFlag F.CFG_STATUS_PortReceived s))
    else s

/-- Data reach the port. -/
def portData (bs : List Byte) (s : State) : State :=
  if s.cfg.port.shut || s.cfg.port.ignore then s
  else if accepting s then bs.foldl takeByte s
  else portViol 0x04 s

/-- A QSPI period begins with its command byte. -/
def beginPeriod (ignore : Bool) (s : State) : State := setPort { s.cfg.port with begun := true, ignore := ignore } s

/-- Command 0x32 with data; within its period more data. -/
def qspiData (bs : List Byte) (s : State) : State :=
  if cpMode s != 1 then s
  else
    let s := csLow s
    portData bs (if s.cfg.port.begun then s else beginPeriod false s)

/-- Command 0x0F, which returns CFG_STATUS; the rest of the period brings no data. -/
def qspiStatus (s : State) : State :=
  if cpMode s != 1 then s
  else
    let s := csLow s
    if s.cfg.port.begun then s else beginPeriod true s

def qspiUnknown (s : State) : State :=
  if cpMode s != 1 then s
  else
    let s := csLow s
    if s.cfg.port.begun then s else portViol 0x03 (beginPeriod true s)

/-- A word of the parallel port; `rdy` is CFG_RDY at its clock edge. -/
def parallelWord (w : BitVec 16) (rdy : Bool) (s : State) : State :=
  if cpMode s != 2 then s
  else
    let s := csLow s
    if rdy || !accepting s then portData (leBytes 2 w.toNat) s
    else if s.cfg.port.shut then s
    else
      let s := portViol 0x01 s
      if cfgState s = csReceiving then shutPort (failLoad cePort s) else s

def csRise (part : Bool) (s : State) : State :=
  if !s.cfg.port.low then s
  else
    let s := setPort { s.cfg.port with low := false, begun := false, ignore := false, rise := s.tick } s
    if part then portViol 0x02 s else s

/-- 10 ms without a byte during RECEIVING. -/
def portSilence (s : State) : State :=
  if cfgState s = csReceiving && decide (s.cfg.port.last + 16000000 ≤ s.tick) then
    shutPort (failLoad cePort (portViol 0x06 s))
  else s

/-! ### The commands -/

/-- FABRIC_PORT_REQUEST. -/
def execFabricPortRequest (k p : Nat) (write : Bool) (a : Nat) (data : List Byte) (s : State) : Out :=
  .next (fabricRequest k p write a data s)

/-- CUFF_WRITE. -/
def execCuffWrite (k w : Nat) (v : Word) (s : State) : Out := .next (writeCuff k w v s)

/-- LOAD_GO: a write of Go to CFG_LOAD. -/
def execLoadGo (v : Word) (s : State) : Out := .next (writeCfgLoad (F.CFG_LOAD_Go.put v 1) s)

/-- LOAD_CHECK_DONE. -/
def execLoadCheckDone (s : State) : Out := .next (checkDone s)

/-- LOAD_ABORT: a write of Abort to CFG_LOAD. -/
def execLoadAbort (v : Word) (s : State) : Out := .next (writeCfgLoad (F.CFG_LOAD_Abort.put v 1) s)

/-- APPLY_START. -/
def execApplyStart (s : State) : Out := .next (applyStart s)

/-- SLEEVE_RELEASE. -/
def execSleeveRelease (s : State) : Out := .next (sleeveRelease s)

/-- CONFIG_WRITE_DATA. -/
def execConfigWriteData (data : List Byte) (s : State) : Out := .next (qspiData data s)

/-- CONFIG_READ_STATUS. -/
def execConfigReadStatus (s : State) : Out := .next (qspiStatus s)

/-- CONFIG_PARALLEL_WORD. -/
def execConfigParallelWord (w : BitVec 16) (rdy : Bool) (s : State) : Out := .next (parallelWord w rdy s)

/-- CONFIG_CS_RISE; `part` where it falls inside a byte or word. -/
def execConfigCsRise (part : Bool) (s : State) : Out := .next (csRise part s)

/-- PORT_SILENCE_TIMEOUT. -/
def execPortSilenceTimeout (s : State) : Out := .next (portSilence s)

/-- PORT_VIOLATION_READ. -/
def execPortViolationRead (req : Req) (s : State) : Out :=
  .next ((s.setFld Reg.CFG_PORTVIOL F.CFG_PORTVIOL_Count 0).give req [s.reg Reg.CFG_PORTVIOL])

/-- FABRIC_CUE_OUTPUT. -/
def execFabricCueOutput (o : Nat) (level : Bool) (s : State) : Out := .next (cueOutput o level s)

/-- UNKNOWN_QSPI_COMMAND. -/
def execUnknownQspiCommand (s : State) : Out := .next (qspiUnknown s)

end Sys2Proof.Machine
end

