-- ==== Sys2Proof/Machine/LineTime.lean ====
section
/-!
DEFINITION. The parts of chapter 02 that reach the whole part: the expiry of holdover and the release after it
(R24), and the load of LINETIME (R33).
-/
namespace Sys2Proof.Machine

/-! ### Holdover (R24) -/

/-- Holdover lasts 100 µs. -/
def holdoverDue (s : State) : Bool :=
  s.clock.holdover && decide (s.clock.lossTick + 160000 ≤ s.tick)

/-- Panels clear, generators trip, open records take a supervision fault. -/
def letGo (s : State) : State := markAllOpen flagSupFault (pgClockLost (drvClockLost s))

/-- The holdover expires. -/
def expireHoldover (s : State) : State :=
  if holdoverDue s then
    let c := s.clock
    let s := s.setClock { c with
      holdover := false, clockLost := true, pllLocked := false, switching := none, reacquired := false, released := false }
    let s := (setSelect c.active s).setBit Reg.SYS_CLK_FAULT F.SYS_CLK_FAULT_PllUnlock
    let s := clkFlag F.SYS_CLK_FAULT_HoldoverExpired 915 s
    letGo (s.logFault 915 0x08 0x00 (b2n c.lostXtal) c.lossLt 0)
  else s

/-- Where `f` ends ClockLost, the panels and the generators come back (R80, R126). -/
def withClockBack (f : State → State) (s : State) : State :=
  let s' := f s
  if s.clock.clockLost && !s'.clock.clockLost then drvClockBack (pgClockBack s') else s'

/-! ### Loading LINETIME (R33) -/

/-- Does something depend on LINETIME? -/
def loadRefused (s : State) : Bool :=
  following s || decide (0 < ltArmed s) || s.engs.cells.any (fun c => c.2.ctArmed) || !s.ledger.recs.isEmpty ||
    ((cfgState s = csVerified || cfgState s = csApplying) && s.reg64 Reg.CFG_APPLYAT_LO != 0) || debugScope s != 0

/-- The step of LINETIME. -/
def setLineTime (t : Nat) (s : State) : State :=
  s.setClock { s.clock with lt := t, ltStart := t, rateAcc := 0, slew := 0, slewCnt := 0 }

/-- A load that was asked for before this CONV edge. -/
def loadDue (s : State) : Bool :=
  match s.clock.loadReq with
  | some t => convAfter t s
  | none => false

def loadLineTime (s : State) : State :=
  if loadDue s then
    let s := (s.setClock { s.clock with loadReq := none }).clrBit Reg.SYS_LT_CTL F.SYS_LT_CTL_Load
    if loadRefused s then s.setBit Reg.SYS_LT_STATUS F.SYS_LT_STATUS_LoadRefused
    else setLineTime (s.reg64 Reg.SYS_LT_LOAD_LO) s
  else s

/-! ### The commands -/

/-- HOLDOVER_EXPIRED. -/
def execHoldoverExpired (s : State) : Out := .next (expireHoldover s)

/-- LINETIME_LOAD. -/
def execLinetimeLoad (s : State) : Out := .next (loadLineTime s)

/-- SELECT_WRITE. -/
def execSelectWrite (v : Word) (s : State) : Out := .next (withClockBack (writeClkCtl v) s)

/-- PLL_RELOCK. -/
def execPllRelock (s : State) : Out := .next (withClockBack relockPll s)

/-- CLOCK_RELEASE: a write to SYS_CLK_CTL with Release 1. -/
def execClockRelease (v : Word) (s : State) : Out :=
  .next (withClockBack (writeClkCtl (F.SYS_CLK_CTL_Release.put v 1)) s)

end Sys2Proof.Machine
end

