-- ==== Sys2Proof/Machine/Encoder.lean ====
section
/-!
DEFINITION. The encoder units (chapter 03, R54 to R62): input filters, count and estimate, period history,
match units, index and load; and the edge at a Line I/O sampler (R35), which encoders and cue sources share.
-/
namespace Sys2Proof.Machine

def encFlag (e : Nat) (f : Fld) (s : State) : State := s.flag (Reg.ENC_STATUS e) f true (768 + e)

/-! ### Sampling -/

/-- Does the encoder own this pin and sample it in this tick (R421, R423)? -/
def encSamples (e pin : Nat) (s : State) : Bool :=
  let c := s.lio.chg.get 0 pin
  ownerOf pin s = (2, e) && (c = 0 || decide (c - 1 + 4 ≤ s.tick)) && bankValid pin s &&
    F.LIO_CFG_Analog.get (effCfg pin s) = 0

/-- One sample of an input. `again` counts a further sample of a level already seen; an edge of this tick
starts a new run with its stamp (R54). -/
def EncIn.sample (x : EncIn) (owned level again : Bool) (stamp : Nat) : EncIn :=
  if !owned then { x with run := 0 }
  else if x.fresh then { level := level, fresh := false, run := 0, stamp := x.stamp }
  else if level = x.level then { x with run := 0 }
  else if x.run = 0 then { x with run := 1, stamp := stamp }
  else if again then { x with run := x.run + 1 }
  else x

def encPin (e : Nat) (f : Fld) (s : State) : Nat := s.fld (Reg.ENC_PINS e) f

/-- The samples of A, B and Z in this tick. -/
def encSample (e : Nat) (again : Bool) (frac : Nat) (s : State) : State :=
  let x := s.encOf e
  let stamp := 8 * stampNow s + frac
  let one (i : EncIn) (pin : Nat) : EncIn := i.sample (encSamples e pin s) (s.lio.lvl.get false pin) again stamp
  s.setEnc e { x with
    a := one x.a (encPin e F.ENC_PINS_PinA s), b := one x.b (encPin e F.ENC_PINS_PinB s),
    z := if s.bit (Reg.ENC_CTL e) F.ENC_CTL_IndexEnable then one x.z (encPin e F.ENC_PINS_PinZ s) else x.z }

/-! ### The estimate -/

/-- The estimate between counts (R55). A time since the last stamp that a step of LINETIME backwards makes negative
counts as 0 (DESIGN CHOICE, log entry 222). -/
def interpolate (x : Enc) (lt : Nat) : BitVec 40 :=
  if x.held || !x.periodValid then x.est
  else
    let dt := 8 * lt - x.hist.headD 0
    let f := Nat.min 255 (if x.period = 0 then Config.encFraction dt else 256 * dt / x.period)
    if x.dirDown then countPos x.count - BitVec.ofNat 40 f else countPos x.count + BitVec.ofNat 40 f

/-- One tick of an encoder: the previous estimate, the samples and the new estimate (R54, R55). -/
def encTick (e : Nat) (s : State) : State :=
  let x := s.encOf e
  let s := s.setEnc e { x with prevEst := x.est }
  if !encEnabled e s then s else
  let s := encSample e true 0 s
  let x := s.encOf e
  s.setEnc e { x with est := interpolate x s.lt }

/-- The encoders that a tick concerns: those enabled and those whose state differs from reset. -/
def activeEncs (s : State) : List Nat :=
  let en := listed (Reg.ENC_CTL 0) 0x100 32 s (fun _ w => F.ENC_CTL_Enable.get w = 1)
  en ++ s.encs.keys.filter (fun e => !en.contains e)

def tickEncs (s : State) : State := (activeEncs s).foldl (fun s e => encTick e s) s

/-! ### Counts -/

/-- Accepts the changes of A and B whose filter is full in this tick (R54, R56): Illegal with its records, or
Overspeed where fewer than 32 ticks lie between accepted changes. -/
def encCount (e : Nat) (s : State) : State :=
  let fast := match (s.encOf e).last with
    | some l => decide (s.tick < l + 32)
    | none => false
  match encAccepts e s with
  | (false, false) => s
  | (true, true) =>
    encFlag e F.ENC_STATUS_Illegal (((s.setEnc e (encCounted e s)).setReg64 (Reg.ENC_ERRT_LO e) s.lt).countUp
      (Reg.ENC_ERRCNT e) F.ENC_ERRCNT_IllegalCount)
  | _ =>
    let s := s.setEnc e (encCounted e s)
    if fast then encFlag e F.ENC_STATUS_Overspeed s else s

/-- No count for 2^24 ticks (R55). -/
def encStop (e : Nat) (s : State) : State :=
  let x := s.encOf e
  if encEnabled e s && x.periodValid && !x.held && decide (8 * 2 ^ 24 < 8 * s.lt - x.hist.headD 0) then
    s.setEnc e { x with stopped := true }
  else s

/-- A change of Z is accepted; a rising one latches the count and may load 0 (R62). DESIGN CHOICE (log entry 225):
where a load already waits for the same CONV edge, the later request is the one that edge performs. -/
def encIndex (e : Nat) (s : State) : State :=
  let x := s.encOf e
  if !(encEnabled e s && s.bit (Reg.ENC_CTL e) F.ENC_CTL_IndexEnable && decide (encNeed e s ≤ x.z.run)) then s else
  let rising := !x.z.level
  let s := s.setEnc e { x with
    z := x.z.accept,
    loadReq := if rising && s.bit (Reg.ENC_CTL e) F.ENC_CTL_IndexLoad then some (s.tick, true) else x.loadReq }
  if rising then encFlag e F.ENC_STATUS_Index (s.setReg (Reg.ENC_IDXCAP e) x.count) else s

/-- A load at the first CONV edge after its request (R60). -/
def encLoad (e : Nat) (s : State) : State :=
  if (s.encOf e).loadReq.isSome then s.setEnc e (encLoaded e s (s.encOf e)) else s

/-! ### Match units (R59) -/

def Enc.getMatch (x : Enc) (m : Nat) : EncMatch := if m = 0 then x.m0 else x.m1

def Enc.setMatch (x : Enc) (m : Nat) (k : EncMatch) : Enc := if m = 0 then { x with m0 := k } else { x with m1 := k }

def matchValue (e m : Nat) (s : State) : Nat := s.reg64 (Reg.ENC_MVAL_LO e m) % 2 ^ 40

def setMatchValue (e m v : Nat) (s : State) : State := s.setReg64 (Reg.ENC_MVAL_LO e m) (v % 2 ^ 40)

/-- Is the estimate still beyond the value in the match direction (R59)? -/
def beyond (x : Enc) (v dir : Nat) : Bool :=
  let d := posDiff x.est v
  if dir = 0 then decide (0 ≤ d) else if dir = 1 then decide (d ≤ 0)
  else if x.dirDown then decide (d ≤ 0) else decide (0 ≤ d)

/-- Does match unit `m` give an event in this tick? -/
def matchDue (e m : Nat) (s : State) : Bool :=
  let x := s.encOf e
  let k := x.getMatch m
  s.bit (Reg.ENC_MCTL e m) F.ENC_MCTL_Enable && k.fired != s.tick + 1 && k.written != s.tick + 1 &&
    ((k.again && k.fired = s.tick) ||
      crossed x (matchValue e m s) (s.fld (Reg.ENC_MCTL e m) F.ENC_MCTL_Dir))

/-- A match unit gives one cue event (R59). -/
def encMatch (e m : Nat) (s : State) : State :=
  if !matchDue e m s then s else
  let x := s.encOf e
  let s := if s.bit (Reg.ENC_MCTL e m) F.ENC_MCTL_Repeat then
      let v := (((matchValue e m s : Nat) : Int) + (s.reg (Reg.ENC_MSTEP e m)).toInt)
      let v := ux 40 v
      let lag := beyond x v (s.fld (Reg.ENC_MCTL e m) F.ENC_MCTL_Dir)
      let s := (setMatchValue e m v s).setEnc e (x.setMatch m { written := 0, fired := s.tick + 1, again := lag })
      if lag then encFlag e F.ENC_STATUS_MatchLag s else s
    else
      (s.clrBit (Reg.ENC_MCTL e m) F.ENC_MCTL_Enable).setEnc e
        (x.setMatch m { written := 0, fired := s.tick + 1, again := false })
  sourceEvent { src := 1088 + 2 * e + m, level := none, frac := 0 } s

/-- Does this write set the unit's value anew: a changed value, or a comparison that begins? -/
def setsMatch (e m : Nat) (a : Nat) (v : Word) (s : State) : Bool :=
  if a = Reg.ENC_MCTL e m then F.ENC_MCTL_Enable.get v = 1 && !s.bit a F.ENC_MCTL_Enable
  else a != Reg.ENC_MSTEP e m && (s.plainWrite a v).reg a != s.reg a

/-- A write to a match register: a value that the estimate has already passed gives no event (R59). A write that
sets no value leaves the comparison of its tick, and a further event that is due. DESIGN CHOICE (log entry 226):
a write of Enable 1 counts as one that sets the value. -/
def writeMatch (e m : Nat) (a : Nat) (v : Word) (s : State) : State :=
  let x := s.encOf e
  let s := if setsMatch e m a v s then
      s.setEnc e (x.setMatch m { x.getMatch m with written := s.tick + 1, again := false })
    else s
  s.plainWrite a (if a = Reg.ENC_MCTL e m && F.ENC_MCTL_Dir.get v = 3 then F.ENC_MCTL_Dir.put v 0 else v)

/-! ### Configuration (R61) -/

/-- PinA and PinB distinct, and PinZ apart from both while IndexEnable is 1. -/
def encPinsOk (e : Nat) (index : Bool) (s : State) : Bool :=
  let a := encPin e F.ENC_PINS_PinA s
  let b := encPin e F.ENC_PINS_PinB s
  let z := encPin e F.ENC_PINS_PinZ s
  decide (a ≠ b) && (!index || (decide (z ≠ a) && decide (z ≠ b)))

/-- A write to ENC_CTL(e) (R60, R61). DESIGN CHOICE (log entry 227): the return of the estimate to count × 256 at
Enable 0 to 1 is no crossing. -/
def writeEncCtl (e : Nat) (v : Word) (s : State) : State :=
  let was := encEnabled e s
  let wasIdx := s.bit (Reg.ENC_CTL e) F.ENC_CTL_IndexEnable
  let v := if F.ENC_CTL_PeriodSpan.get v = 3 then
      F.ENC_CTL_PeriodSpan.put v (s.fld (Reg.ENC_CTL e) F.ENC_CTL_PeriodSpan) else v
  let idx := F.ENC_CTL_IndexEnable.get v = 1
  let s := s.plainWrite (Reg.ENC_CTL e) v
  let s := if F.ENC_CTL_Load.get v = 1 then s.setEnc e { s.encOf e with loadReq := some (s.tick, false) } else s
  if F.ENC_CTL_Enable.get v = 0 then s
  else if !encPinsOk e idx s then
    encFlag e F.ENC_STATUS_ConfigRefused (s.clrBit (Reg.ENC_CTL e) F.ENC_CTL_Enable)
  else
    let x := s.encOf e
    if !was then
      s.setEnc e { x with
        a := { x.a with fresh := true, run := 0 }, b := { x.b with fresh := true, run := 0 },
        z := { x.z with fresh := true, run := 0 }, hist := [], periodValid := false, stopped := false,
        held := false, last := none, est := countPos x.count, prevEst := countPos x.count }
    else if idx && !wasIdx then s.setEnc e { x with z := { x.z with fresh := true, run := 0 } }
    else s

/-- A write to ENC_PINS(e) while Enable is 1 is ignored and sets ConfigRefused (R61). -/
def writeEncPins (e : Nat) (v : Word) (s : State) : State :=
  if encEnabled e s then encFlag e F.ENC_STATUS_ConfigRefused s else s.plainWrite (Reg.ENC_PINS e) v

/-- A read of ENC_POS_LO: the low word, with bits [39:32] snapshotted for the requester (R27). -/
def readEncPos (req : Req) (e : Nat) (s : State) : Word × State :=
  let p := (s.encNow e).est.toNat
  (BitVec.ofNat 32 p, s.setPreg req (Reg.ENC_POS_HI e) (BitVec.ofNat 32 (p / 2 ^ 32)))

/-- ENC_STATUS as the unit stands. -/
def encStatus (e : Nat) (s : State) : Word :=
  let x := s.encOf e
  let w := s.reg (Reg.ENC_STATUS e)
  let w := F.ENC_STATUS_Dir.put w (b2n x.dirDown)
  let w := F.ENC_STATUS_PeriodValid.put w (b2n x.periodValid)
  let w := F.ENC_STATUS_Stopped.put w (b2n x.stopped)
  F.ENC_STATUS_AbState.put w (b2n x.a.level + 2 * b2n x.b.level)

/-! ### An edge at a Line I/O sampler (R35, R36) -/

/-- The encoders that sample a pin take the edge's level in this tick. -/
def encEdge (pin frac : Nat) (s : State) : State :=
  (encClaims pin s).foldl (fun s e => encSample e false frac s) s

/-- The pad of `pin` takes a voltage (none: nothing drives it) and its edge, if its thresholded level changes,
is stamped with this sampling tick and `frac` eighths (R35, R36). -/
def lineIoEdge (pin : Nat) (mv : Option Int) (frac : Nat) (s : State) : State :=
  let s := encEdge pin (frac % 8) (relevel pin (setPad pin mv s))
  sourceLevel pin (pinLevel pin s) (frac % 8) s

/-! ### The commands -/

/-- LINE_IO_EDGE. -/
def execLineIoEdge (pin : Nat) (mv : Option Int) (frac : Nat) (s : State) : Out := .next (lineIoEdge pin mv frac s)

/-- ENCODER_COUNT. -/
def execEncoderCount (e : Nat) (s : State) : Out := .next (encCount e s)

/-- ENCODER_STOPPED. -/
def execEncoderStopped (e : Nat) (s : State) : Out := .next (encStop e s)

/-- ENCODER_INDEX. -/
def execEncoderIndex (e : Nat) (s : State) : Out := .next (encIndex e s)

/-- ENCODER_MATCH. -/
def execEncoderMatch (e m : Nat) (s : State) : Out := .next (encMatch e m s)

/-- ENCODER_LOAD. -/
def execEncoderLoad (e : Nat) (s : State) : Out := .next (encLoad e s)

/-- ENCODER_CTL_WRITE. -/
def execEncoderCtlWrite (e : Nat) (v : Word) (s : State) : Out := .next (writeEncCtl e v s)

/-- ENCODER_PINS_WRITE. -/
def execEncoderPinsWrite (e : Nat) (v : Word) (s : State) : Out := .next (writeEncPins e v s)

/-- ENCODER_POSITION_READ. -/
def execEncoderPositionRead (req : Req) (e : Nat) (s : State) : Out :=
  .next ((readEncPos req e s).2.give req [(readEncPos req e s).1])

/-- ILLEGAL_COUNT_READ. -/
def execIllegalCountRead (req : Req) (e : Nat) (s : State) : Out :=
  .next ((readClear (Reg.ENC_ERRCNT e) F.ENC_ERRCNT_IllegalCount s).2.give req
    [(readClear (Reg.ENC_ERRCNT e) F.ENC_ERRCNT_IllegalCount s).1])

end Sys2Proof.Machine
end

