-- ==== Sys2Proof/Machine/Sense.lean ====
section
/-!
DEFINITION. The Decimation Engines (chapter 07, R138 to R157): the filter chain, stamps, switches, the fast
path, thresholds, records, gates and windows. Channel c of panel p has global number g = 32p + c.
-/
namespace Sys2Proof.Machine

/-- Sets a flag of DCE_CHSTAT; its bit in DCE_CHEVTEN enables event 448 + g (R156). -/
def dceFlag (p c : Nat) (f : Fld) (s : State) : State :=
  s.flag (Reg.DCE_CHSTAT p c) f (bitN (s.reg (Reg.DCE_CHEVTEN p c)).toNat f.lsb) (448 + 32 * p + c)

/-! ### Presets (R140) -/

/-- log2 of the CIC ratio K. -/
def cicLog (k : Nat) : Nat := if k = 0 then 5 else if k = 1 then 7 else if k = 2 then 9 else 11

/-- CIC order N. -/
def cicOrder (k : Nat) : Nat := if k = 0 then 3 else if k = 1 then 4 else 5

/-- Taps T of the compensation filter. -/
def firTaps (k : Nat) : Nat := if k = 0 then 7 else if k = 1 then 9 else if k = 4 then 47 else 11

/-- Total ratio M. -/
def totalRatio (k : Nat) : Nat := if k = 4 then 8192 else 2 ^ cicLog k

/-- 8D in ticks (R143). -/
def groupDelay (k : Nat) : Nat :=
  8 + 4 * cicOrder k * (2 ^ cicLog k - 1) + 4 * (firTaps k - 1) * 2 ^ cicLog k

/-- L + 2 in CONV cycles (R145). -/
def settleConv (k : Nat) : Nat := cicOrder k * (2 ^ cicLog k - 1) + (firTaps k - 1) * 2 ^ cicLog k + 2

/-! ### Arithmetic (R141, R142) -/

/-- Coefficient `i` of preset `k`: symmetric, with sum 131,072 (R141). -/
def firCoef (k i : Nat) : Int :=
  let half := (firTaps k - 1) / 2
  let side (j : Nat) : Int := sx 18 (Config.firCoef k j)
  if i < half then side i
  else if i = half then 131072 - 2 * ((List.range half).map side).sum
  else side (firTaps k - 1 - i)

/-- The integrators at a CONV edge: each adds the new value of the one before. -/
def integrate : BitVec 60 → List (BitVec 60) → List (BitVec 60)
  | _, [] => []
  | x, r :: rest => (r + x) :: integrate (r + x) rest

/-- The comb stages at a CIC boundary: the output and the inputs kept for the next boundary. -/
def combs : BitVec 60 → List (BitVec 60) → BitVec 60 × List (BitVec 60)
  | x, [] => (x, [])
  | x, r :: rest => let (y, kept) := combs (x - r) rest; (y, x :: kept)

/-- The CIC output scaled to 2^31 per volt. -/
def scaleCic (k : Nat) (cic : Int) : Int :=
  let g := cicOrder k * cicLog k
  if g ≤ 28 then cic * 2 ^ (28 - g) else cic / 2 ^ (g - 28)

/-- The compensation filter over the history, newest first. -/
def firSum (k : Nat) (hist : List Int) : Int :=
  ((List.range (firTaps k)).map (fun i => firCoef k i * hist.getD i 0)).sum / 2 ^ 17

/-- R142 from the filter output on: y, and whether it was clipped. -/
def dceValue (f gain offset lin : Int) : Int × Bool :=
  let x3 := f * f / 2 ^ 31 * f / 2 ^ 31
  let t := f + x3 * lin / 2 ^ 23
  let u := t * gain / 2 ^ 30
  let y := (u + 0x80) / 2 ^ 8 + offset
  (clampInt (-8388608) 8388607 y, decide (y < -8388608) || decide (8388607 < y))

/-! ### Thresholds (R148) -/

/-- One counted value: the new threshold, and whether its state went from 0 to 1. -/
def DceTh.count (x : DceTh) (meets : Bool) (qual : Nat) : DceTh × Bool :=
  if meets = x.state then ({ x with run := 0 }, false)
  else if qual + 1 ≤ x.run + 1 then ({ x with state := meets, run := 0 }, meets)
  else ({ x with run := x.run + 1 }, false)

/-- Value > Level for ABOVE, value < Level for BELOW. -/
def thMeets (value level : Int) (below : Bool) : Bool := if below then decide (value < level) else decide (level < value)

/-- A fine threshold takes an output that is not flagged Settling. -/
def fineTh (p c i : Nat) (x : DceTh) (y : Int) (s : State) : DceTh × Bool :=
  let w := s.reg (Reg.DCE_TH p c i)
  if F.DCE_TH_ThEnable.get w = 0 then ({ x with state := false, run := 0 }, false)
  else x.count (thMeets y (sx 24 (F.DCE_TH_Level.get w)) (F.DCE_TH_Dir.get w = 1)) (F.DCE_TH_Qual.get w)

/-- The fast threshold takes a valid FastSum. -/
def fastTh (p c : Nat) (x : DceTh) (v : Int) (s : State) : DceTh × Bool :=
  let w := s.reg (Reg.DCE_THF p c)
  if F.DCE_THF_ThEnable.get w = 0 then ({ x with state := false, run := 0 }, false)
  else x.count (thMeets v (sx 8 (F.DCE_THF_Level.get w)) (F.DCE_THF_Dir.get w = 1)) (F.DCE_THF_Qual.get w)

/-! ### The CONV edge of a channel (R141, R147) -/

/-- What edge `n` formed becomes readable at tick 8n + 8: FastSum, its validity, the THF state (R147, R149). -/
def publishFast (p c : Nat) (s : State) : State :=
  let g := 32 * p + c
  let x := s.dch g
  match x.next with
  | none => s
  | some (n, v, ok) =>
    if s.tick < 8 * n + 8 then s
    else
      let (th, hit) := if ok then fastTh p c x.thf v s else (x.thf, false)
      let s := s.setDch g { x with
        fast := v, fastOk := ok, next := none, thf := th,
        bounds := x.bounds.map (fun b => if b.edge = n then { b with thf := th.state } else b) }
      if hit then dceFlag p c F.DCE_CHSTAT_ThFHit s else s

/-- A calibration step that measures the modulator of channel `g` is under way (R145, R403). -/
def calMeasures (g : Nat) (s : State) : Bool :=
  let x := s.cal.tiles.get CalTile.init (g / 2)
  x.busy.isSome && decide (5 * (g % 2) ≤ x.step) && decide (x.step < 5 * (g % 2) + 5)

/-- The calibration coefficients of the channel, committed (R155). -/
def channelCoef (g : Nat) (s : State) : Word × Word × Word :=
  (s.reg (Reg.CAL_COEF_MG (g / 2) (g % 2)), s.reg (Reg.CAL_COEF_MO (g / 2) (g % 2)), s.reg (Reg.CAL_COEF_ML (g / 2) (g % 2)))

/-- The modulator of channel `g` gives `code` at this CONV edge: the last 16 codes, and from which edge on their sum
rests on codes that are all known. -/
def noteCode (g : Nat) (code : Int) (s : State) : State :=
  let x := s.dch g
  let n := s.tick / 8
  if x.codeAt = n || x.codeAt = 0 then s.setDch g { x with codes := (code :: x.codes).take 16, codeAt := n + 1 }
  else s.setDch g { x with codes := [code], codeAt := n + 1, known := n + 15 }

/-- The filter chain of an enabled channel takes the modulator code of this CONV edge, which it has noted. At an
output boundary what the output needs is latched. At the edge of a restart the chain stays clear (R146). A sum over
a code that the model was not told is a free value. -/
def takeCode (p c : Nat) (code : Int) (s : State) : State :=
  let g := 32 * p + c
  let n := s.tick / 8
  let (w, s) := if n < (s.dch g).known then s.takeFree else (0, s)
  let x := s.dch g
  let k := x.preset
  let run := x.start != n
  let ints := if run then integrate (BitVec.ofInt 60 code) x.ints else x.ints
  let cicNow := run && n % 2 ^ cicLog k = c
  let (out, kept) := combs (ints.getLastD 0) x.combs
  let hist := if cicNow then (scaleCic k out.toInt :: x.hist).take (firTaps k) else x.hist
  let sum := if n < x.known then sx 8 w.toNat else x.codes.sum
  let (gain, offset, lin) := channelCoef g s
  let bound : DceBound := DceBound.mk n s.lt (decide (n < x.sw + settleConv k)) (calMeasures g s) sum
    x.thf.state hist gain offset lin k x.winSeq false
  s.setDch g { x with
    ints := ints, hist := hist, combs := if cicNow then kept else x.combs,
    next := some (n, sum, decide (x.sw + 17 ≤ n)),
    bounds := if n % totalRatio k = c && decide (x.start < n) then x.bounds ++ [bound] else x.bounds }

/-- FASTSUM_UPDATE: CONV edge n of a channel, whose modulator's quantiser gives `code`. A modulator that is
disabled, unbiased or in an overload reset emits 0 (R94, R95, R103). One code is taken at an edge. -/
def convEdge (p c : Nat) (code : Int) (s : State) : State :=
  let g := 32 * p + c
  if s.tick % 8 != 0 || (s.dch g).codeAt = s.tick / 8 + 1 then s
  else
    let code := modCode (g / 2) (g % 2) code s
    let s := noteCode g code (modEmit (g / 2) (g % 2) code (publishFast p c s))
    if (s.dch g).on then takeCode p c code s else s

/-! ### Records (R150 to R153) -/

def dceFull (p c : Nat) (s : State) : Bool := s.bit (Reg.DCE_CHCTL p c) F.DCE_CHCTL_Format

def dceRecSize (p c : Nat) (s : State) : Nat := if dceFull p c s then 16 else 8

def dceCap (p c : Nat) (s : State) : Nat := 2 ^ s.fld (Reg.DCE_RINGCFG p c) F.DCE_RINGCFG_SizeLog2 / dceRecSize p c s

/-- A record of the channel is dropped (R151, R153). -/
def dropRec (p c : Nat) (s : State) : State :=
  let g := 32 * p + c
  (s.countUp (Reg.DCE_OVRCNT p c) F.DCE_OVRCNT_OvrCount).setDch g { s.dch g with gap := true }

/-- BufOverrun raises the event of every channel of the panel whose RingOverrun enable is 1 (R156). -/
def bufOverrun (p : Nat) (s : State) : State :=
  (List.range 32).foldl (fun s c =>
    s.raiseIf (bitN (s.reg (Reg.DCE_CHEVTEN p c)).toNat F.DCE_CHSTAT_RingOverrun.lsb) (448 + 32 * p + c))
    (s.setBit (Reg.DCE_PSTAT p) F.DCE_PSTAT_BufOverrun)

/-- A record enters the panel's write buffer. -/
def bufferRec (p : Nat) (r : DceRec) (s : State) : State :=
  let b := s.dce.bufs.get [] p
  if 256 ≤ b.length then bufOverrun p (dropRec p r.chan s)
  else { s with dce := { s.dce with bufs := s.dce.bufs.set [] p (b ++ [r]) } }

/-- One record more is written, from window `seq` where a window holds it. -/
def countWin (x : DceCh) (inWin : Bool) (seq : Nat) : DceCh :=
  if !inWin then x
  else if x.open' && x.winSeq = seq then { x with records := x.records + 1 }
  else { x with closed := x.closed.map (fun w => if w.seq = seq then { w with records := w.records + 1 } else w) }

/-- Word 0 with Gap where `gap` says so. -/
def gapWord (gap : Bool) (w : Word) : Word := if gap then w ||| BitVec.ofNat 32 (2 ^ 30) else w

/-- The oldest record of the buffer is written to its ring, as one burst, or finds the ring full. -/
def drainBuf (p : Nat) (s : State) : State :=
  match s.dce.bufs.get [] p with
  | [] => s
  | r :: rest =>
    let s := { s with dce := { s.dce with bufs := s.dce.bufs.set [] p rest } }
    let c := r.chan
    let g := 32 * p + c
    let wr := (s.reg (Reg.DCE_WRIDX p c)).toNat
    if ringHeld wr (s.reg (Reg.DCE_RDIDX p c)).toNat = dceCap p c s then
      dceFlag p c F.DCE_CHSTAT_RingOverrun (dropRec p c s)
    else
      let ws := match r.words with
        | w :: ws => gapWord (s.dch g).gap w :: ws
        | [] => []
      let a := ringSlot (s.base48 (Reg.DCE_RINGBASE_LO p c)) (s.fld (Reg.DCE_RINGCFG p c) F.DCE_RINGCFG_SizeLog2)
        (dceRecSize p c s) wr
      let s := (s.hwPut 1 p a ws).setReg (Reg.DCE_WRIDX p c) (BitVec.ofNat 32 (wr + 1))
      s.setDch g (countWin { s.dch g with gap := false } r.inWin r.win)

/-! ### Gates and windows (R152, R154) -/

/-- What a history needs: its entries of the last 1,100 CONV edges before `now`, newest first, and one older. -/
def recent {α : Type} (now : Nat) : List (Nat × α) → List (Nat × α)
  | [] => []
  | e :: rest => if e.1 + 1100 ≤ now then [e] else e :: recent now rest

/-- The output of generator `n` at CONV edge `e`: low before anything is known of it. -/
def genLevel (n e : Nat) (s : State) : Bool :=
  match (s.dce.gates.get [] n).find? (fun x => decide (x.1 ≤ e)) with
  | some x => x.2
  | none => false

/-- At a CONV edge the level of a generator is taken, whether or not a channel is on (R152). -/
def sampleGen (n : Nat) (s : State) : State :=
  let e := s.tick / 8
  let l := pgLevel n s.tick s
  if l = genLevel n e s then s
  else { s with dce := { s.dce with gates := s.dce.gates.set [] n (recent e ((e, l) :: s.dce.gates.get [] n)) } }

/-- The generator that the channel's GateSel names at CONV edge `e`. -/
def genAt (p c e : Nat) (s : State) : Nat :=
  64 * p + (match (s.dch (32 * p + c)).sels.find? (fun x => decide (x.1 ≤ e)) with
    | some x => x.2
    | none => 0)

/-- The undelayed gate level at CONV edge `e`. -/
def gateLevel (p c e : Nat) (s : State) : Bool := genLevel (genAt p c e s) e s

def gateDelay (p c : Nat) (s : State) : Nat := s.fld (Reg.DCE_GATE p c) F.DCE_GATE_GateDelay

/-- The gate delayed by GateDelay CONV edges, at CONV edge `n`. -/
def delayedGate (p c n : Nat) (s : State) : Bool :=
  decide (gateDelay p c s ≤ n) && gateLevel p c (n - gateDelay p c s) s

/-- A write to DCE_GATE(p,c): GateSel counts from this CONV edge, else from the next. -/
def writeGate (p c : Nat) (v : Word) (s : State) : State :=
  let g := 32 * p + c
  let e := (s.tick + 7) / 8
  (s.plainWrite (Reg.DCE_GATE p c) v).setDch g { s.dch g with
    sels := recent e ((e, F.DCE_GATE_GateSel.get v) :: (s.dch g).sels) }

/-- A rise of the undelayed gate with SettleOnGate 1 is a switch (R144). -/
def sampleGate (p c : Nat) (s : State) : State :=
  let n := s.tick / 8
  if gateLevel p c n s && !(decide (0 < n) && gateLevel p c (n - 1) s) && s.bit (Reg.DCE_CHCTL p c) F.DCE_CHCTL_SettleOnGate
  then dceSwitch (32 * p + c) n s else s

/-- WINDOW_OPEN. -/
def windowOpen (p c : Nat) (s : State) : State :=
  let g := 32 * p + c
  let x := s.dch g
  if x.on && !x.open' && delayedGate p c (s.tick / 8) s then
    s.setDch g { x with
      open' := true, winSeq := (x.winSeq + 1) % 65536, winEdge := s.tick / 8, first := true, records := 0 }
  else s

/-- WINDOW_CLOSE. -/
def windowClose (p c : Nat) (s : State) : State :=
  let g := 32 * p + c
  let x := s.dch g
  if x.open' && (!x.on || !delayedGate p c (s.tick / 8) s) then
    s.setDch g { x with open' := false, closed := x.closed ++ [DceWin.mk x.winSeq x.winEdge x.records x.first] }
  else s

/-- The boundary of this CONV edge takes the window that holds it, or the last there was. -/
def latchWindow (g : Nat) (s : State) : State :=
  let x := s.dch g
  s.setDch g { x with bounds := x.bounds.map (fun b =>
    if 8 * b.edge = s.tick then { b with win := x.winSeq, inWin := x.open' } else b) }

/-- WINDOW_DONE: every record of a closed window is written or dropped (R154). -/
def windowDone (p c : Nat) (s : State) : State :=
  let g := 32 * p + c
  let x := s.dch g
  match x.closed with
  | [] => s
  | w :: rest =>
    let waits := x.bounds.any (fun b => b.inWin && b.win = w.seq) ||
      (s.dce.bufs.get [] p).any (fun r => r.chan = c && r.inWin && r.win = w.seq)
    if waits then s
    else
      let s := s.setDch g { x with closed := rest }
      dceFlag p c F.DCE_CHSTAT_WindowDone
        (s.setReg (Reg.DCE_WINLAST p c) (BitVec.ofNat 32 (w.seq + 65536 * w.records)))

/-! ### Outputs (R138, R142, R143) -/

/-- Does the output of boundary `b` become a record (R152)? -/
def becomesRecord (p c : Nat) (b : DceBound) (s : State) : Bool :=
  let m := s.fld (Reg.DCE_CHCTL p c) F.DCE_CHCTL_GateMode
  m = 0 || (m = 1 && b.inWin)

/-- Has no record of the window that holds boundary `b` carried WinFirst yet? -/
def windowFresh (x : DceCh) (b : DceBound) : Bool :=
  b.inWin && (if x.open' && x.winSeq = b.win then x.first else x.closed.any (fun w => w.seq = b.win && w.fresh))

/-- A record of boundary `b`'s window has carried WinFirst. -/
def markFirst (x : DceCh) (b : DceBound) : DceCh :=
  if x.open' && x.winSeq = b.win then { x with first := false }
  else { x with closed := x.closed.map (fun w => if w.seq = b.win then { w with fresh := false } else w) }

/-- Word 0 of an output (R150), without Gap. -/
def outputWord (y : Int) (b : DceBound) (clipped th0 th1 winFirst : Bool) : Word :=
  BitVec.ofNat 32 (ux 24 y + 2 ^ 24 * (b2n b.settling + 2 * b2n clipped + 4 * b2n th0 + 8 * b2n th1 + 16 * b2n b.thf +
    32 * b2n winFirst + 128 * b2n b.cal))

/-- The record of an output goes to the write buffer. -/
def emitRecord (p c : Nat) (b : DceBound) (w0 : Word) (stamp : Nat) (s : State) : State :=
  let g := 32 * p + c
  let ws := if dceFull p c s then
      [w0, BitVec.ofNat 32 (ux 8 b.fast + 256 * g + 65536 * b.win), lowWord stamp, highWord stamp]
    else [w0, lowWord stamp]
  bufferRec p (DceRec.mk c ws b.win b.inWin) s

/-- DCE_OUTPUT: the output of the oldest boundary whose 96 ticks have passed. -/
def dceOutput (p c : Nat) (s : State) : State :=
  let g := 32 * p + c
  let x := s.dch g
  match x.bounds with
  | [] => s
  | b :: rest =>
    if s.tick < 8 * b.edge + 96 then s
    else
      let (y, clipped) := dceValue (firSum b.preset b.hist) b.gain.toInt (sx 24 (F.CAL_COEF_MO_Offset.get b.offset))
        (sx 24 (F.CAL_COEF_ML_Lin.get b.lin))
      let (t0, h0) := if b.settling then (x.th0, false) else fineTh p c 0 x.th0 y s
      let (t1, h1) := if b.settling then (x.th1, false) else fineTh p c 1 x.th1 y s
      let stamp := (b.lt + 2 ^ 64 - groupDelay b.preset) % 2 ^ 64
      let rec' := becomesRecord p c b s
      let winFirst := rec' && windowFresh x b
      let w0 := outputWord y b clipped t0.state t1.state winFirst
      let s := s.setDch g { (if winFirst then markFirst x b else x) with bounds := rest, th0 := t0, th1 := t1 }
      let s := (s.setReg (Reg.DCE_LASTVAL p c) (gapWord x.gap w0)).setReg64 (Reg.DCE_LAST_TLO p c) stamp
      let s := s.putBit (Reg.DCE_CHSTAT p c) F.DCE_CHSTAT_Settling b.settling
      let s := if clipped then dceFlag p c F.DCE_CHSTAT_Clipped s else s
      let s := if h0 then dceFlag p c F.DCE_CHSTAT_Th0Hit s else s
      let s := if h1 then dceFlag p c F.DCE_CHSTAT_Th1Hit s else s
      if rec' then emitRecord p c b w0 stamp s else s

/-! ### Control (R140, R146, R148, R151) -/

/-- The first slot of channel `c` after this tick: the CONV edges n with n mod 32 = c. -/
def nextSlot (c : Nat) (s : State) : Nat :=
  let e := s.tick / 8 + 1
  8 * (e + (c + 32 - e % 32) % 32)

/-- A write to DCE_CHCTL(p,c). -/
def writeChctl (p c : Nat) (v : Word) (s : State) : State :=
  let old := s.reg (Reg.DCE_CHCTL p c)
  if 5 ≤ F.DCE_CHCTL_Preset.get v then dceFlag p c F.DCE_CHSTAT_WriteRefused s
  else
    let v := if F.DCE_CHCTL_GateMode.get v = 3 then F.DCE_CHCTL_GateMode.put v 2 else v
    let sz := s.fld (Reg.DCE_RINGCFG p c) F.DCE_RINGCFG_SizeLog2
    let sets := F.DCE_CHCTL_Enable.get v = 1 && F.DCE_CHCTL_Enable.get old = 0
    let bad := sets && !inRingMemory (ringStart (s.base48 (Reg.DCE_RINGBASE_LO p c)) sz) (2 ^ sz) s
    let v := if bad then F.DCE_CHCTL_Enable.put v 0 else v
    let s := s.plainWrite (Reg.DCE_CHCTL p c) v
    let s := if bad then dceFlag p c F.DCE_CHSTAT_ConfigRefused s else s
    let g := 32 * p + c
    let acts := F.DCE_CHCTL_Enable.get v != F.DCE_CHCTL_Enable.get old ||
      F.DCE_CHCTL_Preset.get v != F.DCE_CHCTL_Preset.get old || F.DCE_CHCTL_Restart.get v = 1
    if acts && (s.dch g).ctlAt = 0 then s.setDch g { s.dch g with ctlAt := nextSlot c s } else s

/-- CHANNEL_RESTART: the slot edge at which Enable, Preset or Restart takes effect (R146). -/
def channelRestart (p c : Nat) (s : State) : State :=
  let g := 32 * p + c
  let x := s.dch g
  if x.ctlAt = 0 || decide (s.tick < x.ctlAt) then s
  else
    let k := s.fld (Reg.DCE_CHCTL p c) F.DCE_CHCTL_Preset
    if s.bit (Reg.DCE_CHCTL p c) F.DCE_CHCTL_Enable then
      (s.setDch g { x with
        on := true, preset := k, ctlAt := 0, sw := s.tick / 8, start := s.tick / 8, next := none, bounds := [],
        ints := List.replicate (cicOrder k) 0, combs := List.replicate (cicOrder k) 0, hist := [] })
    else
      s.setDch g { x with
        on := false, preset := k, ctlAt := 0, next := none, bounds := [], fast := 0, fastOk := false,
        th0 := DceTh.init, th1 := DceTh.init, thf := DceTh.init }

/-- A write to DCE_TH(p,c,0), DCE_TH(p,c,1) or, for `i` 2, DCE_THF(p,c): the threshold is cleared at the
channel's next slot, and a cleared enable holds its state at 0 (R148). -/
def writeDceTh (p c i : Nat) (v : Word) (s : State) : State :=
  let g := 32 * p + c
  let x := s.dch g
  let s := s.plainWrite (if i = 2 then Reg.DCE_THF p c else Reg.DCE_TH p c i) v
  let off := if i = 2 then F.DCE_THF_ThEnable.get v = 0 else F.DCE_TH_ThEnable.get v = 0
  let upd (t : DceTh) : DceTh := { t with clrAt := nextSlot c s, state := t.state && !off }
  s.setDch g (if i = 0 then { x with th0 := upd x.th0 } else if i = 1 then { x with th1 := upd x.th1 }
    else { x with thf := upd x.thf })

def DceTh.slot (t : DceTh) (now : Nat) : DceTh := if t.clrAt = now && t.clrAt != 0 then DceTh.init else t

/-- A switch that was still to come has come. -/
def comeSwitch (g : Nat) (s : State) : State :=
  let x := s.dch g
  if x.swNext != 0 && decide (8 * x.swNext ≤ s.tick) then dceSwitch g x.swNext (s.setDch g { x with swNext := 0 }) else s

/-- What a tick brings to a channel at its start: its slot's clears and its restart, what became readable, a
switch. -/
def tickChannel (g : Nat) (s : State) : State :=
  let x := s.dch g
  let s := s.setDch g { x with th0 := x.th0.slot s.tick, th1 := x.th1.slot s.tick, thf := x.thf.slot s.tick }
  comeSwitch g (channelRestart (g / 32) (g % 32) (publishFast (g / 32) (g % 32) s))

/-- The end of a tick: at a CONV edge a modulator that is off has given code 0, and an enabled channel takes its
gate level. -/
def lateChannel (g : Nat) (s : State) : State :=
  if s.tick % 8 != 0 then s
  else
    let s := if modOn (g / 2) (g % 2) s && !modReset (g / 2) (g % 2) s then s else convEdge (g / 32) (g % 32) 0 s
    if (s.dch g).on then sampleGate (g / 32) (g % 32) s else s

/-- A write of RdIdx (R151). -/
def writeRdidx (p c : Nat) (v : Word) (s : State) : State :=
  if rdIdxOk (s.reg (Reg.DCE_WRIDX p c)).toNat (dceCap p c s) v.toNat then s.setReg (Reg.DCE_RDIDX p c) v
  else dceFlag p c F.DCE_CHSTAT_WriteRefused s

/-- DCE_CHSTAT as the channel stands. -/
def chStat (p c : Nat) (s : State) : Word :=
  let x := s.dch (32 * p + c)
  let w := F.DCE_CHSTAT_Th0State.put (s.reg (Reg.DCE_CHSTAT p c)) (b2n x.th0.state)
  let w := F.DCE_CHSTAT_Th1State.put w (b2n x.th1.state)
  F.DCE_CHSTAT_FastValid.put (F.DCE_CHSTAT_ThFState.put w (b2n x.thf.state)) (b2n x.fastOk)

/-- A read of DCE_FAST. -/
def readFast (p c : Nat) (s : State) : Word × State :=
  let x := s.dch (32 * p + c)
  (BitVec.ofNat 32 (ux 8 x.fast + 256 * b2n x.fastOk), s)

/-- A read of DCE_LAST_TLO: the high word is snapshotted for the requester. -/
def readLastStamp (req : Req) (p c : Nat) (s : State) : Word × State :=
  (s.reg (Reg.DCE_LAST_TLO p c), s.setPreg req (Reg.DCE_LAST_THI p c) (s.reg (Reg.DCE_LAST_THI p c)))

/-! ### The commands -/

/-- DCE_OUTPUT. -/
def execDceOutput (p c : Nat) (s : State) : Out := .next (dceOutput p c s)

/-- CHANNEL_CTL_WRITE. -/
def execChannelCtlWrite (p c : Nat) (v : Word) (s : State) : Out := .next (writeChctl p c v s)

/-- CHANNEL_RESTART. -/
def execChannelRestart (p c : Nat) (s : State) : Out := .next (channelRestart p c s)

/-- DCE_THRESHOLD_WRITE. -/
def execDceThresholdWrite (p c i : Nat) (v : Word) (s : State) : Out := .next (writeDceTh p c i v s)

/-- RDIDX_WRITE. -/
def execRdidxWrite (p c : Nat) (v : Word) (s : State) : Out := .next (writeRdidx p c v s)

/-- WINDOW_CLOSE. -/
def execWindowClose (p c : Nat) (s : State) : Out := .next (windowClose p c s)

/-- WINDOW_DONE. -/
def execWindowDone (p c : Nat) (s : State) : Out := .next (windowDone p c s)

/-- DCE_LAST_STAMP_READ. -/
def execDceLastStampRead (req : Req) (p c : Nat) (s : State) : Out :=
  .next ((readLastStamp req p c s).2.give req [(readLastStamp req p c s).1])

/-- OVERRUN_COUNT_READ. -/
def execOverrunCountRead (req : Req) (p c : Nat) (s : State) : Out :=
  .next ((readClear (Reg.DCE_OVRCNT p c) F.DCE_OVRCNT_OvrCount s).2.give req
    [(readClear (Reg.DCE_OVRCNT p c) F.DCE_OVRCNT_OvrCount s).1])

/-- FASTSUM_UPDATE. -/
def execFastsumUpdate (p c : Nat) (code : Int) (s : State) : Out := .next (convEdge p c code s)

/-- WINDOW_OPEN. -/
def execWindowOpen (p c : Nat) (s : State) : Out := .next (windowOpen p c s)

end Sys2Proof.Machine
end

