-- ==== Sys2Proof/Machine/Cal.lean ====
section
/-!
DEFINITION. Calibration (chapter 17): pending runs, the steps and their gaps, the commits and the recorded
coefficients.
-/
namespace Sys2Proof.Machine

def State.calTile (s : State) (t : Nat) : CalTile := s.cal.tiles.get CalTile.init t

def State.setCalTile (s : State) (t : Nat) (x : CalTile) : State :=
  { s with cal := { s.cal with tiles := s.cal.tiles.set CalTile.init t x } }

/-- 0 AUTO, 1 FROZEN, 2 OFF. -/
def calMode (t : Nat) (s : State) : Nat := s.fld (Reg.CAL_TCTL t) F.CAL_TCTL_Mode

/-! ### Coefficients (R400, R408) -/

/-- The coefficient registers that a commit writes. -/
def coefRegs (t : Nat) : List Nat :=
  [0, 1].flatMap (fun m => [Reg.CAL_COEF_MG t m, Reg.CAL_COEF_MO t m, Reg.CAL_COEF_ML t m]) ++
  (List.range 4).flatMap (fun r => Reg.CAL_COEF_DG t r :: (List.range 3).map (fun j => Reg.CAL_COEF_DP t r j)) ++
  (List.range 4).map (fun k => Reg.CAL_COEF_CO t k)

/-- The DAC goes on with its present correction words until they may change (R123). -/
def holdCoef (t : Nat) (s : State) : State :=
  let x := s.dac t
  if x.coef.isSome then s else s.setDac t { x with coef := some (dacCoef t s) }

/-- The Journal's coefficient record: the committed sets, LastTemp, the CRC in word 31 (R410). -/
def recordCoefs (t : Nat) (s : State) : State :=
  let ws := (coefRegs t).map (fun a => s.reg a) ++ [BitVec.ofNat 32 (s.fld (Reg.CAL_TSTAT t) F.CAL_TSTAT_LastTemp)]
  jrnPut (0x8000 + 128 * t) (withCrc (ws ++ List.replicate (31 - ws.length) 0)) s

/-- Words committed at one CONV edge. -/
def commitWords (t : Nat) (l : List (Nat × Word)) (s : State) : State :=
  recordCoefs t (l.foldl (fun s c => s.plainWrite c.1 c.2) (holdCoef t s))

/-- A write to a CAL_COEF register goes to the staging set. -/
def writeCoef (t a : Nat) (v : Word) (s : State) : State :=
  let x := s.calTile t
  let old := (lookupCell a x.staging).getD (s.reg a)
  let w := match regRow a with
    | some r => r.write old v
    | none => old
  s.setCalTile t { x with staging := putCell a (some w) x.staging }

/-! ### Pending runs (R404) -/

/-- The steps that count as done (R403). -/
def stepSkipped (t k : Nat) (s : State) : Bool :=
  let pwr := Reg.AT_PWR t
  if k < 5 then !s.bit pwr F.AT_PWR_Mod0En
  else if k < 10 then !s.bit pwr F.AT_PWR_Mod1En || s.bit (Reg.AT_SUPCTL t) F.AT_SUPCTL_SupEnable
  else if k < 18 then holdingClear t s
  else if k < 22 then !s.bit (Reg.AT_CMPCTL t (k - 18)) F.AT_CMPCTL_Enable
  else if k = 22 then !s.bit pwr F.AT_PWR_Pga0En
  else !s.bit pwr F.AT_PWR_Pga1En

/-- The first step from `k` on that is not skipped. -/
def stepFrom (t k : Nat) (s : State) : Option Nat :=
  (List.range 24).find? (fun i => decide (k ≤ i) && !stepSkipped t i s)

/-- A run becomes pending; one that is already pending absorbs the trigger. -/
def makePending (t : Nat) (s : State) : State :=
  let x := s.calTile t
  if calMode t s = 2 || x.since.isSome then s
  else s.setCalTile t { x with since := some s.tick, step := 0, running := false, meas := [], late := false }

/-- The millisecond check of panel `p`. -/
def temperatureCheck (p : Nat) (s : State) : State :=
  (clearTiles p).foldl (fun s t =>
    let d := sx 16 (s.fld (Reg.CAL_TEMP p) F.CAL_TEMP_Temp) - sx 16 (s.fld (Reg.CAL_TSTAT t) F.CAL_TSTAT_LastTemp)
    if decide ((4 * s.fld Reg.CAL_CTL F.CAL_CTL_DeltaT : Nat) < d.natAbs) then makePending t s else s) s

/-! ### The gap map (R405) -/

/-- Ticks until an encoder reaches a position, at its present speed and direction. -/
def ticksTo (e v dir : Nat) (s : State) : Option Nat :=
  let x := s.encOf e
  let d := posDiff x.est v
  let ahead := if x.dirDown then decide (0 ≤ d) && dir != 0 else decide (d ≤ 0) && dir != 1
  if x.periodValid && !x.stopped && !x.held && ahead then some (d.natAbs * x.period / 2048) else none

/-- Ticks at which an effect is predicted at a cue target: none where the target is never quiet. -/
def predictedStarts (n : Nat) (s : State) : Option (List Nat) :=
  let x := s.target n
  let flights := x.flights.map (·.due)
  let slots := x.slots.filterMap (fun sl =>
    if sl.st = .armed then
      if sl.position then (ticksTo sl.enc sl.value sl.dir s).map (fun d => s.tick + d + sl.delay)
      else some (s.tick + (sl.value + sl.delay - s.lt))
    else none)
  let sel := s.fld (Reg.CQ_TSEL n) F.CQ_TSEL_Source
  if s.fld (Reg.CQ_TCTL n) F.CQ_TCTL_Mode = 1 && sel != 0x7FF then
    if 1088 ≤ sel then
      let e := (sel - 1088) / 2
      let m := (sel - 1088) % 2
      let src := (ticksTo e (matchValue e m s) 2 s).map (fun d => s.tick + d + s.fld (Reg.CQ_SRCDLY n) F.CQ_SRCDLY_SrcDelay)
      some (flights ++ slots ++ src.toList)
    else none
  else some (flights ++ slots)

/-- Do two closed intervals of ticks meet? -/
def touches (lo hi a b : Nat) : Bool := decide (a ≤ hi) && decide (lo ≤ b)

/-- No program plays on tile `t` from `lo` to `hi`, now or by prediction. -/
def programQuiet (t lo hi : Nat) (s : State) : Bool :=
  let x := s.dac t
  let len := 16 * programLen t s
  let now := match x.play with
    | some p => touches lo hi p.start (p.start + 16 * p.len)
    | none => decide (x.ended != 0) && touches lo hi (x.ended - 1) (x.ended - 1)
  match predictedStarts (512 + t) s with
  | none => false
  | some l => !now && l.all (fun a => !touches lo hi a (a + len))

/-- High intervals of `width` ticks that begin at `first` and every `period` ticks, `count` of them (0 without
end): is one between `lo` and `hi`? -/
def pulseTouches (lo hi first width period count : Nat) : Bool :=
  let k := if period = 0 || decide (lo ≤ first + width) then 0 else (lo - first - width + period - 1) / period
  (count = 0 || decide (k < count)) && touches lo hi (first + k * period) (first + k * period + width)

/-- No predicted high of generator `n`, lengthened by `tail` ticks, between `lo` and `hi`. -/
def gateQuiet (n tail lo hi : Nat) (s : State) : Bool :=
  let shape := fun (mode first width period count : Nat) =>
    pulseTouches lo hi first ((if mode = 3 then period else width) + tail) period (if mode = 0 then 1 else if mode = 1 then count else 0)
  let now := match (s.pg n).run with
    | some r => shape r.mode r.cyc r.width r.period (if r.count = 0 then 0 else r.count + 1 - r.begun)
    | none => false
  let leader := if follows n s then n / 8 * 8 else n
  match predictedStarts leader s with
  | none => false
  | some l =>
    !now && l.all (fun a => !shape (s.fld (Reg.PG_CTL n) F.PG_CTL_Mode) (a + s.fld (Reg.PG_LEAD n) F.PG_LEAD_Ticks)
      (s.fld (Reg.PG_WIDTH n) F.PG_WIDTH_Ticks) (s.fld (Reg.PG_PERIOD n) F.PG_PERIOD_Period)
      (s.fld (Reg.PG_COUNT n) F.PG_COUNT_Count))

/-- Is the DCE channel of modulator `g` in GATED mode? -/
def gatedChannel (g : Nat) (s : State) : Bool :=
  s.bit (Reg.DCE_CHCTL (g / 32) (g % 32)) F.DCE_CHCTL_Enable && s.fld (Reg.DCE_CHCTL (g / 32) (g % 32)) F.DCE_CHCTL_GateMode = 1

/-- The gate generator of global channel `g`. -/
def gateOf (g : Nat) (s : State) : Nat := 64 * (g / 32) + s.fld (Reg.DCE_GATE (g / 32) (g % 32)) F.DCE_GATE_GateSel

/-- The modulator that a step measures. -/
def stepMod (k : Nat) : Option Nat := if k < 5 then some 0 else if k < 10 then some 1 else none

/-- The tile whose readback the node `code` of tile `t` carries, its own or one that an export or a panel bus
brings (R85): `fuel` links at most. -/
def readbackTile : Nat → Nat → Nat → State → Option Nat
  | 0, _, _, _ => none
  | fuel + 1, t, code, s =>
    if code = 0xA then some t
    else if code = 0xD then readbackTile fuel (t - 1) (s.fld (Reg.AT_SEL (t - 1)) F.AT_SEL_ExportSel) s
    else if code = 0xE then readbackTile fuel (t + 1) (s.fld (Reg.AT_SEL (t + 1)) F.AT_SEL_ExportSel) s
    else if code = 0xB || code = 0xC then
      let b := decide (code = 0xB)
      match (clearTiles (t / 16)).find? (fun u =>
          s.bit (Reg.AT_BUSDRV u) (if b then F.AT_BUSDRV_Bus0Drive else F.AT_BUSDRV_Bus1Drive)) with
      | some u => readbackTile fuel u (s.fld (Reg.AT_BUSDRV u) (if b then F.AT_BUSDRV_Bus0Src else F.AT_BUSDRV_Bus1Src)) s
      | none => none
    else none

/-- The readback that the pair of a comparator step selects is quiet. -/
def watchedQuiet (t k lo hi : Nat) (s : State) : Bool :=
  let sel := if k < 20 then F.AT_SEL_Pair0Sel else F.AT_SEL_Pair1Sel
  if 18 ≤ k && k < 22 then
    match readbackTile 3 t (s.fld (Reg.AT_SEL t) sel) s with
    | some u => programQuiet u lo hi s
    | none => true
  else true

/-- Is tile `t` predicted quiet for step `k` (R405)? -/
def calQuiet (t k : Nat) (s : State) : Bool :=
  let guard := s.fld Reg.CAL_CTL F.CAL_CTL_GuardTicks
  let lo := s.tick - guard
  let hi := s.tick + 9600 + guard
  let mods := match stepMod k with
    | some m =>
      let g := 2 * t + m
      !gatedChannel g s || gateQuiet (gateOf g s) (8 * s.fld (Reg.DCE_GATE (g / 32) (g % 32)) F.DCE_GATE_GateDelay) lo hi s
    | none => true
  programQuiet t lo hi s && mods && watchedQuiet t k lo hi s && !(s.dac t).clearing && (s.dac t).holdEnd = 0 && !s.clock.clockLost

/-! ### Steps (R404, R406, R407) -/

def panelBusy (p : Nat) (s : State) : Bool := (clearTiles p).any (fun t => (s.calTile t).busy.isSome)

def calStartable (t : Nat) (s : State) : Bool :=
  let x := s.calTile t
  x.since.isSome && x.runCommit = 0 && calMode t s != 2 &&
    match stepFrom t x.step s with
    | some k => calQuiet t k s
    | none => true

/-- The tile whose step the free sequencer of panel `p` starts: the first in rank whose step fits. -/
def calNext (p : Nat) (s : State) : Option Nat :=
  ((clearTiles p).filter (fun t => calStartable t s)).foldl (fun m t =>
    match m with
    | none => some t
    | some u => if (s.calTile t).since.getD 0 < (s.calTile u).since.getD 0 then some t else some u) none

/-- A run has no step left: its results commit at the next CONV edge, or with FROZEN wait in the staging set. -/
def runEnd (t : Nat) (s : State) : State :=
  let x := s.calTile t
  if calMode t s = 1 then
    let s := s.setCalTile t { x with
      since := none, running := false, step := 0, meas := [], staging := x.meas.foldl (fun l c => putCell c.1 (some c.2) l) x.staging }
    calFlag t F.CAL_TSTAT_Done (s.setBit (Reg.CAL_TSTAT t) F.CAL_TSTAT_Staged)
  else s.setCalTile t { x with runCommit := nextConv s, running := true }

/-- The switch of the modulator's channel at the start or the end of a step. -/
def stepSwitch (t k : Nat) (s : State) : State :=
  match stepMod k with
  | some m =>
    let g := 2 * t + m
    edgeSwitch g (s.setDch g { s.dch g with
      bounds := (s.dch g).bounds.map (fun b => if 8 * b.edge = s.tick then { b with cal := true } else b) })
  | none => s

def stepStart (t : Nat) (s : State) : State :=
  if !s.bit Reg.CAL_CTL F.CAL_CTL_Enable || panelBusy (t / 16) s || calNext (t / 16) s != some t then s
  else
    let x := s.calTile t
    match stepFrom t x.step s with
    | none => runEnd t s
    | some k =>
      let s := if x.running then s
        else s.setFld (Reg.CAL_TSTAT t) F.CAL_TSTAT_LastTemp (s.fld (Reg.CAL_TEMP (t / 16)) F.CAL_TEMP_Temp)
      let s := s.setCalTile t { x with running := true, step := k, busy := some s.tick }
      let s := s.setTile t { s.tile t with calBusy := true, calHeld := if 18 ≤ k && k < 22 then some (k - 18) else none }
      stepSwitch t k s

/-- The tile leaves a step: a held comparator's state equals the held level (R104). One that was disabled meanwhile
reports InitState again from the next CONV edge (R102). -/
def leaveStep (t : Nat) (s : State) : State :=
  let x := s.calTile t
  let y := s.tile t
  let held := y.calHeld
  let y := match held with
    | some k => y.setCmp k { y.cmp k with state := (y.cmp k).level }
    | none => y
  let s := s.setTile t { y with calBusy := false, calHeld := none }
  let s := match held with
    | some k => if y.bias && (y.cmp k).on then s else planInit t k s
    | none => s
  stepSwitch t x.step (s.setCalTile t { x with busy := none, endAt := s.tick + 1 })

/-- What the last step of a block has measured: the registers its values go to. -/
def stepRegs (t k : Nat) (s : State) : List Nat :=
  let r := (s.dac t).range
  if k = 4 then [Reg.CAL_COEF_MG t 0, Reg.CAL_COEF_MO t 0, Reg.CAL_COEF_ML t 0]
  else if k = 9 then [Reg.CAL_COEF_MG t 1, Reg.CAL_COEF_MO t 1, Reg.CAL_COEF_ML t 1]
  else if k = 17 then Reg.CAL_COEF_DG t r :: (List.range 3).map (fun j => Reg.CAL_COEF_DP t r j)
  else if 18 ≤ k && k < 22 then [Reg.CAL_COEF_CO t (k - 18)]
  else []

/-- The word that a measured value gives: a comparator's offset goes to the Range in use. -/
def measWord (t k a : Nat) (v : Word) (s : State) : Word :=
  if 18 ≤ k && k < 22 then
    if s.bit (Reg.AT_CMPCTL t (k - 18)) F.AT_CMPCTL_Range then F.CAL_COEF_CO_Ofs1.put (s.reg a) (v.toNat % 256)
    else F.CAL_COEF_CO_Ofs0.put (s.reg a) (v.toNat % 256)
  else match regRow a with
    | some r => r.write (s.reg a) v
    | none => v

/-- A step ends with what it measured. -/
def stepEnd (t : Nat) (vals : List Word) (s : State) : State :=
  let x := s.calTile t
  if x.busy.isNone then s
  else
    let k := x.step
    let meas := ((stepRegs t k s).zip vals).map (fun c => (c.1, measWord t k c.1 c.2 s))
    let s := leaveStep t s
    let s := if 22 ≤ k then s.setReg (Reg.CAL_PGAG t (k - 22)) (vals.headD (s.reg (Reg.CAL_PGAG t (k - 22)))) else s
    let y := s.calTile t
    let s := s.setCalTile t { y with meas := y.meas ++ meas, step := Nat.min 23 (k + 1) }
    if k = 23 || (stepFrom t (k + 1) s).isNone then runEnd t s else s

/-- A step that has not ended ends after 6 µs (9,600 ticks); what it has measured is a free value. -/
def stepDue (t : Nat) (s : State) : State :=
  match (s.calTile t).busy with
  | none => s
  | some b =>
    if b + 9600 ≤ s.tick then
      let r := (List.range 4).foldl (fun (r : List Word × State) _ => (r.1 ++ [r.2.takeFree.1], r.2.takeFree.2)) ([], s)
      stepEnd t r.1 r.2
    else s

/-- Has a happening of R406 disturbed the step under way? -/
def calDisturbed (t : Nat) (s : State) : Bool :=
  match (s.calTile t).busy with
  | none => false
  | some b =>
    let x := s.dac t
    let y := s.target (512 + t)
    let played := match x.play with
      | some p => decide (b ≤ p.start)
      | none => false
    let armed := y.slots.any (fun sl => sl.st = .armed && decide (b < sl.due)) || !y.flights.isEmpty
    let gate := match stepMod (s.calTile t).step with
      | some m => gatedChannel (2 * t + m) s && pgLevel (gateOf (2 * t + m) s) s.tick s
      | none => false
    played || armed || gate || x.srcAt != 0 || x.rangeAt != 0 || x.holdEnd != 0 || x.clearing || calMode t s = 2 ||
      !s.bit Reg.CAL_CTL F.CAL_CTL_Enable

/-- The step is abandoned: its measurement is discarded and it is repeated in a later gap. -/
def stepAbandon (t : Nat) (s : State) : State :=
  if calDisturbed t s then calFlag t F.CAL_TSTAT_Abandoned (leaveStep t s) else s

/-- A run not completed within MaxWait ms of becoming pending. -/
def calStarved (t : Nat) (s : State) : State :=
  let x := s.calTile t
  match x.since with
  | none => s
  | some b =>
    if !x.late && decide (b + 1600000 * s.fld Reg.CAL_WAIT F.CAL_WAIT_MaxWait ≤ s.tick) then
      calFlag t F.CAL_TSTAT_Starved (s.setCalTile t { x with late := true })
    else s

/-! ### Commits (R407, R408) -/

/-- A write of Commit: at the next CONV edge, or at the one after the run's commit. -/
def askCommit (t : Nat) (s : State) : State :=
  let x := s.calTile t
  if x.running then s.setCalTile t { x with held := true } else s.setCalTile t { x with commitAt := nextConv s }

/-- The run's commit. -/
def commitRun (t : Nat) (s : State) : State :=
  let x := s.calTile t
  let s := commitWords t x.meas s
  let s := s.setCalTile t { x with
    since := none, running := false, step := 0, meas := [], runCommit := 0, held := false,
    staging := if x.held then x.staging else [], commitAt := if x.held then s.tick + 8 else x.commitAt }
  calFlag t F.CAL_TSTAT_Done s

/-- The commit of the staging set. -/
def commitStaging (t : Nat) (s : State) : State :=
  let x := s.calTile t
  let s := commitWords t x.staging s
  (s.setCalTile t { x with staging := [], commitAt := 0 }).clrBit (Reg.CAL_TSTAT t) F.CAL_TSTAT_Staged

/-- A write that a step has held is applied with its checks (R104). -/
def applyHeld (t : Nat) (c : Nat × Word) (s : State) : State :=
  let a := c.1
  let v := c.2
  if a = Reg.AT_SEL t then applySel t v s
  else if a = Reg.AT_BUSDRV t then applyDrv t v s
  else if a = Reg.AT_PGA t then applyPga t v s
  else if a = Reg.AT_BQ t then applyBq t v s
  else (List.range 4).foldl (fun s k =>
    if a = Reg.AT_CMPCTL t k then applyCmpCtl t k v s else if a = Reg.AT_CMPTH t k then applyCmpTh t k v s else s) s

def applyHelds (t : Nat) (s : State) : State :=
  let l := (s.tile t).calPend
  let s := s.setTile t { s.tile t with calPend := [] }
  l.foldl (fun s c => applyHeld t c s) (s.setCalTile t { s.calTile t with endAt := 0 })

/-- A tile's calibration at a tick: what falls on this CONV edge. -/
def tickCal (t : Nat) (s : State) : State :=
  if s.tick % 8 != 0 then s
  else
    let x := s.calTile t
    let s := if x.endAt != 0 && decide (x.endAt ≤ s.tick) then applyHelds t s else s
    let s := if x.runCommit != 0 && decide (x.runCommit ≤ s.tick) then commitRun t s else s
    let y := s.calTile t
    if y.commitAt != 0 && decide (y.commitAt ≤ s.tick) then commitStaging t s else s

/-! ### Registers -/

def writeCalCtl (v : Word) (s : State) : State :=
  s.plainWrite Reg.CAL_CTL (if F.CAL_CTL_DeltaT.get v = 0 then F.CAL_CTL_DeltaT.put v 1 else v)

def writeCalWait (v : Word) (s : State) : State :=
  s.plainWrite Reg.CAL_WAIT (if F.CAL_WAIT_MaxWait.get v = 0 then F.CAL_WAIT_MaxWait.put v 1 else v)

/-- A write to CAL_TCTL(t): Mode, Request, Commit. -/
def writeCalTctl (t : Nat) (v : Word) (s : State) : State :=
  let m := F.CAL_TCTL_Mode.get v
  let s := s.setFld (Reg.CAL_TCTL t) F.CAL_TCTL_Mode (if m = 3 then 0 else m)
  let s := if F.CAL_TCTL_Request.get v = 1 then makePending t s else s
  if F.CAL_TCTL_Commit.get v = 1 then askCommit t s else s

def calStat (s : State) : Word :=
  F.CAL_STAT_PanelBusy.put (s.reg Reg.CAL_STAT) ((List.range 8).foldl (fun x p => x + b2n (panelBusy p s) * 2 ^ p) 0)

def calTstat (t : Nat) (s : State) : Word :=
  let x := s.calTile t
  let w := F.CAL_TSTAT_Running.put (F.CAL_TSTAT_Pending.put (s.reg (Reg.CAL_TSTAT t)) (b2n x.since.isSome)) (b2n x.running)
  F.CAL_TSTAT_Step.put w x.step

/-! ### Start-up (R410) -/

/-- Has the Journal a valid coefficient record of tile `t`? -/
def coefValid (t : Nat) (s : State) : Bool := crcOk (0x8000 + 128 * t) 32 s

/-- The recorded sets with their LastTemp; a tile without a valid record keeps its reset values. -/
def storedCoefs (t : Nat) (s : State) : State :=
  if coefValid t s then
    let ws := s.words (jrnBase + 0x8000 + 128 * t) 27
    let s := ((coefRegs t).zip ws).foldl (fun s c => s.plainWrite c.1 c.2) (holdCoef t s)
    s.setFld (Reg.CAL_TSTAT t) F.CAL_TSTAT_LastTemp ((ws.getD 26 0).toNat % 2 ^ 16)
  else s.flag Reg.CAL_STAT F.CAL_STAT_StoredMissing (s.bit Reg.CAL_EVTEN F.CAL_EVTEN_StoredEvent) 896

/-- The coefficients of a start-up run, in the order of the Journal's record. -/
def startupCoefs (t : Nat) (vals : List Word) (s : State) : State :=
  let s := s.setFld (Reg.CAL_TSTAT t) F.CAL_TSTAT_LastTemp (s.fld (Reg.CAL_TEMP (t / 16)) F.CAL_TEMP_Temp)
  let r := (s.dac t).range
  let keep := (List.range 4).flatMap (fun q =>
    if q = r then [] else Reg.CAL_COEF_DG t q :: (List.range 3).map (fun j => Reg.CAL_COEF_DP t q j))
  let l := ((coefRegs t).zip vals).filter (fun c => !keep.contains c.1)
  calFlag t F.CAL_TSTAT_Done (commitWords t l s)

/-! ### The commands -/

/-- TEMPERATURE_CHECK. -/
def execTemperatureCheck (p : Nat) (s : State) : Out := .next (temperatureCheck p s)

/-- CAL_REQUEST: a write of Request to CAL_TCTL(t). -/
def execCalRequest (t : Nat) (v : Word) (s : State) : Out := .next (writeCalTctl t (F.CAL_TCTL_Request.put v 1) s)

/-- CAL_COMMIT: a write of Commit. -/
def execCalCommit (t : Nat) (v : Word) (s : State) : Out := .next (writeCalTctl t (F.CAL_TCTL_Commit.put v 1) s)

/-- CAL_STEP_START. -/
def execCalStepStart (t : Nat) (s : State) : Out := .next (stepStart t s)

/-- CAL_STEP_END: the values that the step measured. -/
def execCalStepEnd (t : Nat) (vals : List Word) (s : State) : Out := .next (stepEnd t vals s)

/-- STEP_ABANDON. -/
def execStepAbandon (t : Nat) (s : State) : Out := .next (stepAbandon t s)

/-- CAL_STARVED. -/
def execCalStarved (t : Nat) (s : State) : Out := .next (calStarved t s)

end Sys2Proof.Machine
end

