-- ==== Sys2Proof/Machine/Startup.lean ====
section
/-!
DEFINITION. Start-up (chapter 20): reset, loss of power, the numbered steps, their alternatives and marks,
restarts, and the start record.
-/
namespace Sys2Proof.Machine

def State.setStart (s : State) (x : StartUp) : State := { s with startup := x }

def stateStarting : Nat := 0
def stateRun : Nat := 1
def stateHalted : Nat := 2

def partState (s : State) : Nat := s.fld Reg.JRN_STAT F.JRN_STAT_State

/-! ### Reset and loss of power (R447, R468) -/

/-- The memory of the Journal. -/
def journalCells (s : State) : List Host.Cell :=
  s.mem.filter (fun c => decide (jrnBase ≤ c.1) && decide (c.1 < jrnBase + 0x40000))

/-- A burn that a reset or a loss of power cuts off. -/
def cutBurn (s : State) : State :=
  match s.mantle.burn with
  | some (i, v) => partBurn i v s
  | none => s

/-- What every reset keeps: the Journal, the fuses, the flash on the board, and the model's own queue and
counter. -/
def freshPart (cause : Nat) (s : State) : State :=
  let z := State.reset
  let n : State := { z with
    mem := journalCells s
    memt := { z.memt with repairs := s.memt.repairs, banks := s.memt.banks }
    lpddr := { z.lpddr with cands := s.lpddr.cands }
    host := { z.host with flash := s.host.flash }
    mantle := { z.mantle with fuses := s.mantle.fuses }
    startup := { z.startup with cause := cause }
    free := s.free
    pending := s.pending }
  n.setReg Reg.JRN_FLWR (s.reg Reg.JRN_FLWR)

/-- A pin of the board that holds its level through a reset. -/
def keptClr (c : ClrPin) : ClrPin := { ClrPin.init with low := c.low, active := c.low }

/-- A reset of the whole part with its supplies valid; the straps are sampled at its end. -/
def resetPart (cause straps : Nat) (s : State) : State :=
  let s := cutBurn (endUnlock s)
  let n := freshPart cause s
  let n := { n with
    lio := { n.lio with pads := s.lio.pads, lvl := s.lio.lvl }
    arr := { n.arr with
      vdda := s.arr.vdda, vref := s.arr.vref, clrs := ⟨s.arr.clrs.cells.map (fun (c : Nat × ClrPin) => (c.1, keptClr c.2))⟩ }
    cfg := { n.cfg with port := { n.cfg.port with low := s.cfg.port.low } } }
  let n := (List.range 8).foldl (fun n b => n.setReg (Reg.LIO_BANKSTAT b) (s.reg (Reg.LIO_BANKSTAT b))) n
  n.setFld Reg.CFG_PORTSTAT F.CFG_PORTSTAT_Mode straps

/-- The supplies fall: nothing volatile stays. -/
def losePower (s : State) : State := freshPart 0 (cutBurn s)

/-! ### The step-state record and the start record (R450, R453, R454, R458) -/

def stepMode (n : Nat) (s : State) : Nat := s.fld (Reg.JRN_STEP n) F.JRN_STEP_Mode

def modeNormal : Nat := 0
def modeAlt : Nat := 1
def modeMarked : Nat := 2

/-- Mode and AltFails of a step, in the Journal and in JRN_STEP. -/
def setStepMode (n m fails : Nat) (s : State) : State :=
  let s := setStepByte n (m + 4 * fails) s
  let s := (s.setFld (Reg.JRN_STEP n) F.JRN_STEP_Mode m).setFld (Reg.JRN_STEP n) F.JRN_STEP_AltFails fails
  let w := s.fld Reg.JRN_FAILMASK F.JRN_FAILMASK_Marked
  s.setFld Reg.JRN_FAILMASK F.JRN_FAILMASK_Marked (if m = modeMarked then w ||| 2 ^ n else w - (w &&& 2 ^ n))

/-- Step 0x01 takes every Mode and AltFails from the Journal. -/
def loadSteps (s : State) : State :=
  (List.range 14).foldl (fun s i =>
    let n := i + 1
    let b := stepByte n s
    let s := (s.setFld (Reg.JRN_STEP n) F.JRN_STEP_Mode (b % 4)).setFld (Reg.JRN_STEP n) F.JRN_STEP_AltFails (b / 4)
    if b % 4 = modeMarked then
      s.setFld Reg.JRN_FAILMASK F.JRN_FAILMASK_Marked (s.fld Reg.JRN_FAILMASK F.JRN_FAILMASK_Marked ||| 2 ^ n)
    else s) s

def ocPending : Nat := 1
def ocOk : Nat := 2
def ocFailed : Nat := 3
def ocAltOk : Nat := 4
def ocAltFailed : Nat := 5
def ocSkipped : Nat := 6
def ocInterrupted : Nat := 7

def setOutcome (n outcome attempts code : Nat) (s : State) : State :=
  let s := (s.setFld (Reg.JRN_STEP n) F.JRN_STEP_Outcome outcome).setFld (Reg.JRN_STEP n) F.JRN_STEP_Attempts attempts
  s.setFld (Reg.JRN_STEP n) F.JRN_STEP_Code code

/-- Offset of the start record of a StartCount, and of the entry of step `n` in it. -/
def recordOfs (count : Word) : Nat := 0x200 + 256 * (count.toNat % 16)

def entryOfs (count : Word) (n : Nat) : Nat := recordOfs count + 16 * n

/-- The four words of an entry: what JRN_STEP(n) shows, CFG_RESULT for step 0x0A, and the times. -/
def stepEntry (n : Nat) (t0 t1 : Word) (s : State) : List Word :=
  let r := Reg.JRN_STEP n
  let w := n + 2 ^ 8 * s.fld r F.JRN_STEP_Outcome + 2 ^ 12 * s.fld r F.JRN_STEP_Attempts + 2 ^ 16 * s.fld r F.JRN_STEP_Code +
    (if n = 0x0A then 2 ^ 24 * (s.fld Reg.CFG_RESULT F.CFG_RESULT_Code) else 0)
  withCrc [BitVec.ofNat 32 w, t0, t1]

/-- The entry of step `n` in the open start record; before step 0x04 its times wait. -/
def noteStep (n : Nat) (t0 t1 : Word) (s : State) : State :=
  if s.startup.opened then jrnPut (entryOfs (startCount s) n) (stepEntry n t0 t1 s) s
  else s.setStart { s.startup with times := s.startup.times.filter (fun x => x.1 != n) ++ [(n, t0, t1)] }

/-- Outcome of step `n` in the start record of `count`; 0 where it has none. -/
def oldOutcome (count : Word) (n : Nat) (s : State) : Nat :=
  if jrnWord (recordOfs count + 4) s = count && crcOk (recordOfs count) 4 s && crcOk (entryOfs count n) 4 s then
    (jrnWord (entryOfs count n) s).toNat / 2 ^ 8 % 16
  else 0

/-- A failure of the step as R450 counts it. -/
def countFailure (n : Nat) (s : State) : State :=
  let f := s.fld (Reg.JRN_STEP n) F.JRN_STEP_AltFails
  if stepMode n s = modeNormal then setStepMode n modeAlt 0 s
  else if 2 ≤ f then setStepMode n modeMarked 3 s
  else setStepMode n modeAlt (f + 1) s

/-- Entries that the previous start left PENDING become INTERRUPTED (R454). -/
def readPrevious (count : Word) (s : State) : State :=
  (List.range 14).foldl (fun s i =>
    let n := i + 1
    if oldOutcome count n s = ocPending then
      let w := (jrnWord (entryOfs count n) s &&& ~~~ 0xF00#32) ||| BitVec.ofNat 32 (2 ^ 8 * ocInterrupted)
      let s := jrnPut (entryOfs count n)
        (withCrc [w, jrnWord (entryOfs count n + 4) s, jrnWord (entryOfs count n + 8) s]) s
      if oldOutcome (count - 1) n s = ocInterrupted then countFailure n s else s
    else s) s

/-- The start record opens: its head, and the entries so far. -/
def openRecord (count : Word) (s : State) : State :=
  let s := (writeHdr count s).setReg Reg.JRN_STARTCNT count
  let head := withCrc [BitVec.ofNat 32 s.startup.cause, count, 0]
  let empty := (List.range 14).flatMap (fun _ => withCrc [0, 0, 0])
  let s := jrnPut (recordOfs count) (head ++ empty) s
  let s := s.setStart { s.startup with opened := true }
  s.startup.times.foldl (fun s t => noteStep t.1 t.2.1 t.2.2 s) s

/-! ### Actions of the steps (R449) -/

def codeNone : Nat := 0
def codeTimeout : Nat := 1
def codeRom : Nat := 2
def codeNoImage : Nat := 3
def codeRejected : Nat := 4
def codeBist : Nat := 5
def codeNoChannel : Nat := 6
def codeStream : Nat := 7
def codeNoLink : Nat := 8
def codeDependency : Nat := 9

/-- Step 0x02: the crystal is valid and in use. -/
def selectCrystal (x : Bool) (s : State) : State :=
  let s := gainCrystal x s
  setSelect x (s.setClock { s.clock with active := x })

/-- Step 0x03: lock; this CUE edge has tick index 0 (R16, R26). -/
def lockPll (wide : Bool) (s : State) : State :=
  s.setClock { s.clock with
    tick := 0, lt := 0, ltEnd := 0, ltStart := 0, aSince := 0, bSince := 0, pllLocked := true, loopBw := wide, run := true }

/-- A Journal without a valid header is rewritten (R459). -/
def remakeJournal (s : State) : State :=
  let s := { s with
    mem := s.mem.filter (fun c => decide (c.1 < jrnBase) || decide (jrnBase + 0x40000 ≤ c.1))
    memt := { s.memt with repairs := [], banks := [] }
    lpddr := { s.lpddr with cands := [] } }
  let s := (List.range 14).foldl (fun s i => setStepMode (i + 1) modeNormal 0 s) (s.setReg Reg.JRN_FLWR 0)
  openRecord 1 (s.clrBit Reg.JRN_STAT F.JRN_STAT_JournalValid)

/-- Step 0x04 on a valid Journal; `ok` is false where an MRAM write and its retry fail. -/
def readJournal (ok : Bool) (s : State) : State :=
  let c := startCount s
  let s := readPrevious c (s.setBit Reg.JRN_STAT F.JRN_STAT_JournalValid)
  if ok then openRecord (c + 1) s else jrnFlag F.JRN_STAT_JournalError (s.setReg Reg.JRN_STARTCNT (c + 1))

/-- Seq of a directory copy. -/
def dirSeq (c : Nat) (s : State) : BitVec 16 := BitVec.ofNat 16 (flashWord (dirBase c + 4) s / 2 ^ 16)

/-- The directory copy in use (R319). -/
def dirInUse (s : State) : Option Nat :=
  if dirValid 0 s && dirValid 1 s then some (if 0 < (dirSeq 1 s - dirSeq 0 s).toInt then 1 else 0)
  else if dirValid 0 s then some 0
  else if dirValid 1 s then some 1
  else none

/-- The slot that a directory names: its first firmware entry, 0 A or 1 B. -/
def namedSlot (c : Nat) (s : State) : Option Nat :=
  ((List.range 7).map (fun i => flashWord (dirBase c + 8 + 16 * i) s % 256)).findSome? (fun k =>
    if k = 1 then some 0 else if k = 2 then some 1 else none)

/-- What SFDP told: size, read mode, smallest erase and page, or the defaults of R318. -/
def readSfdp (data : List Nat) (s : State) : State :=
  let found := data.getD 3 0 = 1
  let w := F.HOST_BOOT_INFO_SizeLog2.put (s.reg Reg.HOST_BOOT_INFO) (if found then data.getD 1 28 else 28)
  let w := F.HOST_BOOT_INFO_ReadMode.put w (if found then data.getD 2 0 else 0)
  let s := s.setReg Reg.HOST_BOOT_INFO (F.HOST_BOOT_INFO_SfdpValid.put w (b2n found))
  s.setHost { s.host with
    eraseLog := if found then data.getD 4 12 else 12, pageLog := if found then data.getD 5 8 else 8 }

def putBody (a : Nat) (body : List Byte) (s : State) : State := s.put a body

def inStores (a n : Nat) (s : State) : Bool := inRingMemory a n s && decide (a < lpddrBase)

/-- Step 0x06 on the image of one slot: its code, none where it is genuine. -/
def fetchImage (dir slot : Nat) (s : State) : Option Nat × State :=
  match dirEntry dir (1 + slot) s with
  | none => (some codeNoImage, s)
  | some e =>
    let h := flashBytes e.1 128 s
    let n := imgBodyLen h
    if !imgFormOk h then (some codeRejected, imgReject s)
    else
      let body := flashBytes (e.1 + 128) n s
      let pk := flashBytes (e.1 + 128 + n) 64 s
      let sig := flashBytes (e.1 + 192 + n) 29792 s
      let s := if inStores (imgBase h) n s then putBody (imgBase h) body s else s
      if imgResult h body pk sig s = mrOk then
        let s := imgAccept h slot s
        let s := (s.setFld Reg.HOST_BOOT_INFO F.HOST_BOOT_INFO_ActiveSlot slot).setFld Reg.HOST_BOOT_INFO F.HOST_BOOT_INFO_DirCopy dir
        (none, s.setStart { s.startup with image := some (e.1, h) })
      else (some codeRejected, imgReject s)

/-- Step 0x06: the slot named, or in its alternative the other one. -/
def fetchFirmware (other : Bool) (data : List Nat) (s : State) : Option Nat × State :=
  let s := readSfdp data s
  match dirInUse s with
  | none => (some codeNoImage, s)
  | some d =>
    match namedSlot d s with
    | none => (some codeNoImage, s)
    | some k => fetchImage d (if other then 1 - k else k) s

/-- Step 0x07 loads the repairs of the Journal. -/
def loadRepairs (s : State) : State :=
  let s := s.memt.repairs.foldl (fun s x =>
    let key := 32 * x.1 + x.2 / bankRows x.1
    let s := s.setMemt { s.memt with spares := s.memt.spares.set 0 key (s.memt.spares.get 0 key + 1) }
    let s := s.setFld Reg.TST_SWEEP F.TST_SWEEP_SpareRowsUsed (s.fld Reg.TST_SWEEP F.TST_SWEEP_SpareRowsUsed + 1)
    match memCluster x.1 with
    | some c => s.countUp (Reg.TST_CSCE c) F.TST_CSCE_RowsUsed
    | none => s) s
  s.memt.banks.foldl (fun s x =>
    (s.setBit (Reg.TST_CSSTAT x.1) F.TST_CSSTAT_SpareUsed).setFld (Reg.TST_CSSTAT x.1) F.TST_CSSTAT_SparedBank x.2) s

/-- The channels that R296 takes of those that trained. -/
def channelSet (m : Nat) : Nat :=
  if m % 16 = 15 then 15
  else if bitN m 0 && bitN m 1 then 3
  else if bitN m 2 && bitN m 3 then 12
  else if bitN m 0 then 1
  else if bitN m 1 then 2
  else if bitN m 2 then 4
  else if bitN m 3 then 8
  else 0

/-- The candidates that hPPR does not take at this start: all but the first row of each bank (R302). -/
def laterRows : List (Nat × Nat) → List (Nat × Nat) → List (Nat × Nat)
  | _, [] => []
  | seen, r :: l =>
    let b := (r.1, Config.lpddrBank r.2)
    if seen.contains b then r :: laterRows seen l else laterRows (b :: seen) l

/-- hPPR on one recorded row of each bank; the Journal keeps the others. -/
def applyRepairs (s : State) : State :=
  let l := laterRows [] s.lpddr.cands
  (s.putWords 0x3006000 (l.flatMap candRecord ++ List.replicate (256 - 4 * l.length) 0)).setLpddr { s.lpddr with cands := l }

/-- Step 0x08: the channels that trained and their capacities in GiB (R295: 2, 4 or 8). -/
def trainMemory (slow : Bool) (data : List Nat) (s : State) : Option Nat × State :=
  let cap := fun (k : Nat) => data.getD (2 + k) 0
  let good := fun (k : Nat) => bitN (data.getD 1 0) k && (cap k = cap 0) && [2, 4, 8].contains (cap k)
  let m := (List.range 4).foldl (fun x k => x + b2n (good k) * 2 ^ k) 0
  let act := channelSet m
  let s := applyRepairs s
  let s := (List.range 4).foldl (fun s k =>
    let w := F.MEMC_CHSTAT_Trained.put (s.reg (Reg.MEMC_CHSTAT k)) (b2n (bitN (data.getD 1 0) k))
    let w := F.MEMC_CHSTAT_ChActive.put w (b2n (bitN act k))
    let w := F.MEMC_CHSTAT_RowsRecorded.put w ((s.lpddr.cands.filter (fun c => c.1 = k)).length)
    let w := F.MEMC_CHSTAT_Failed.put w (b2n (!good k))
    s.setReg (Reg.MEMC_CHSTAT k) (F.MEMC_CHSTAT_CapGiB.put w (cap k))) s
  let s := (s.setFld Reg.MEMC_STAT F.MEMC_STAT_Active act).setFld Reg.MEMC_STAT F.MEMC_STAT_Rate (b2n slow)
  let s := setSizes s
  if act = 0 then (some codeNoChannel, s) else (none, zeroRecorded s)

/-- Every engine starts at EntryPc. -/
def releaseEngines (pc : Nat) (s : State) : State :=
  (List.range 192).foldl (fun s n => startEng n (s.setReg64 (Reg.ME_BOOTPC_LO n) pc)) s

/-- Step 0x09: the deferred copy, then the engines. -/
def releaseStep (s : State) : Option Nat × State :=
  match s.startup.image with
  | none => (some codeDependency, s)
  | some (o, h) =>
    if lpddrBase ≤ imgBase h then
      let body := flashBytes (o + 128) (imgBodyLen h) s
      let s := putBody (imgBase h) body s
      if shake32 body = (h.drop 0x28).take 32 then (none, releaseEngines (imgEntry h) s) else (some codeRejected, s)
    else (none, releaseEngines (imgEntry h) s)

/-- First address of the boot stream region (R367). -/
def bootRegion (s : State) : Nat := ofs (2 ^ 23) (lpddrBase + 2 ^ 20 * s.fld Reg.MEMC_SIZES F.MEMC_SIZES_PlainMiB)

/-- The stream at `a` is checked and applied. -/
def bootLoad (a : Nat) (s : State) : State :=
  let s := checkDone (startLoadAt 1 a s)
  match s.cfg.load with
  | none => s
  | some l => if cfgState s = csVerified then applyPass l ((slvOf l.set).foldl (fun s k => engage k s) (setCfgState csApplying s)) else s

/-- Step 0x0A: the full or the golden stream of the directory, through the boot stream region. -/
def loadStream (golden : Bool) (s : State) : Option Nat × State :=
  let a := bootRegion s
  let entry := match dirInUse s with
    | some d => dirEntry d (if golden then 3 else 4) s
    | none => none
  match entry with
  | none => (some codeStream, s)
  | some e =>
    let s := s.setMnt { s.mantle with fence := true }
    let s := s.put a (flashBytes e.1 (Nat.min e.2 (2 ^ 23)) s)
    let s := bootLoad a s
    let s := zeroRange a (2 ^ 23) s
    let s := s.setMnt { s.mantle with fence := false }
    (if s.fld Reg.CFG_RESULT F.CFG_RESULT_Code = ceOk then none else some codeStream, s)

/-- Bias 1 in every tile (R455). -/
def biasAll (s : State) : State :=
  (List.range 128).foldl (fun s t => writePwr t (F.AT_PWR_Bias.put (s.reg (Reg.AT_PWR t)) 1) s) s

/-- Step 0x0B ends with every bias ready and its coefficients committed: those of its runs, 26 words for each
tile, or the recorded ones. -/
def calibrate (stored : Bool) (vals : List Nat) (s : State) : State :=
  (List.range 128).foldl (fun s t =>
    let s := if (s.tile t).bias then s else biasUp t s
    if stored then storedCoefs t s
    else if calMode t s = 0 then startupCoefs t (((vals.drop (26 * t)).take 26).map (BitVec.ofNat 32)) s
    else s) s

/-- Step 0x0C enables the ports on `lanes`, or trains them anew. -/
def enablePorts (lanes : Nat) (s : State) : State :=
  (List.range 4).foldl (fun s k =>
    let v := F.SL_PCTL_LaneEnable.put (F.SL_PCTL_PortEnable.put (s.reg (Reg.SL_PCTL k)) 1) lanes
    let again := s.bit (Reg.SL_PCTL k) F.SL_PCTL_PortEnable
    writeSeamPctl k (F.SL_PCTL_Retrain.put v (b2n again)) s) s

/-- What a step, or its alternative, does when it begins. -/
def beginAct (n : Nat) (alt : Bool) (s : State) : State :=
  if n = 0x0B then biasAll s
  else if n = 0x0C then enablePorts (if alt then 0x3 else 0xF) s
  else if n = 0x0D then s.setFld Reg.HOST_CTL F.HOST_CTL_TargetSpeed (if alt then 3 else 4)
  else s

/-- What it does when it ends: the code of its failure, none where it succeeded. -/
def endAct (n : Nat) (alt ok : Bool) (data : List Nat) (s : State) : Option Nat × State :=
  match n with
  | 0x01 =>
    let s := if s.startup.cause = 0 then
        (match data[1]? with
         | some m => s.setFld Reg.CFG_PORTSTAT F.CFG_PORTSTAT_Mode m
         | none => s) else s
    (if ok then none else some codeRom, s)
  | 0x02 => if ok then (none, selectCrystal alt s) else (some codeTimeout, s)
  | 0x03 => if ok then (none, lockPll alt s) else (some codeTimeout, s)
  | 0x04 => if journalOk s then (none, readJournal ok s) else (some codeNone, s)
  | 0x05 => (if ok then none else some codeNone, mantleStart ok s)
  | 0x06 => if ok then fetchFirmware alt data s else (some codeNoImage, s)
  | 0x07 => (if ok then none else some codeBist, loadRepairs s)
  | 0x08 => if ok then trainMemory alt data s else (some codeNoChannel, s)
  | 0x09 => releaseStep s
  | 0x0A => if ok then loadStream alt s else (some codeStream, s)
  | 0x0B => if ok then (none, calibrate alt (data.drop 1) s) else (some codeTimeout, s)
  | 0x0C => (if ok then none else some codeNoLink, s)
  | 0x0D =>
    if ok then (none, if data.getD 1 0 = 1 then linkUp (data.getD 2 0) (data.getD 3 0) s else s)
    else (some codeNoLink, s)
  | _ => (none, s)

/-! ### The sequencer -/

/-- Does a failure of the normal action run the alternative in the same start? -/
def altNow (n : Nat) : Bool := [0x02, 0x03, 0x06, 0x0A, 0x0B, 0x0C, 0x0D].contains n

/-- Does a last failure of the step restart the part? -/
def restarts (n : Nat) : Bool := [0x02, 0x03, 0x07, 0x08].contains n

/-- Are the needs of a step met (R452)? -/
def needsMet (n : Nat) (s : State) : Bool :=
  let active := s.fld Reg.MEMC_STAT F.MEMC_STAT_Active != 0
  if n = 0x09 then
    match s.startup.image with
    | some (_, h) => decide (imgBase h < lpddrBase) || active
    | none => false
  else if n = 0x0A then mntReady s && active
  else true

def markFailed (n : Nat) (s : State) : State :=
  s.setFld Reg.JRN_FAILMASK F.JRN_FAILMASK_Failed (s.fld Reg.JRN_FAILMASK F.JRN_FAILMASK_Failed ||| 2 ^ n)

def setPartState (x : Nat) (s : State) : State := s.setFld Reg.JRN_STAT F.JRN_STAT_State x

/-- Step 0x0E: RUN (R449, R461). -/
def enterRun (t : Word) (s : State) : State :=
  let s := noteStep 0x0E t t (setOutcome 0x0E ocOk 1 codeNone (s.setFld Reg.JRN_STAT F.JRN_STAT_Step 0x0E))
  jrnFlag F.JRN_STAT_StartDone (setPartState stateRun (s.setStart { s.startup with step := 0x0E }))

/-- A step that is not run in this start. -/
def skipStep (n : Nat) (marked : Bool) (t : Word) (s : State) : State :=
  let s := markFailed n (setOutcome n ocSkipped 0 (if marked then codeNone else codeDependency) s)
  let s := noteStep n t t s
  if marked then jrnFlag F.JRN_STAT_StepMarked s else s

/-- The step begins: PENDING in its entry. -/
def beginStep (n : Nat) (t : Word) (s : State) : State :=
  let alt := stepMode n s != modeNormal
  let s := s.setStart { s.startup with step := n, alt := alt, hk := t }
  let s := setOutcome n ocPending 1 codeNone (s.setFld Reg.JRN_STAT F.JRN_STAT_Step n)
  beginAct n alt (noteStep n t 0 s)

/-- The start goes on at step `n`, past the steps that are not run. -/
def goOn : Nat → Nat → Word → State → State
  | 0, _, _, s => s
  | k + 1, n, t, s =>
    if s.startup.halt && n != 0x0D then
      if n = 0x0E then setPartState stateHalted s else goOn k 0x0D t s
    else if 0x0E ≤ n then enterRun t s
    else if stepMode n s = modeMarked then
      let s := skipStep n true t s
      let s := if n = 0x07 then loadRepairs s else s
      let s := if n = 0x02 || n = 0x03 then s.setStart { s.startup with halt := true } else s
      goOn k (n + 1) t s
    else if needsMet n s then beginStep n t s
    else goOn k (n + 1) t (skipStep n false t s)

/-- A step's outcome is final at time `t`. -/
def finishStep (n outcome code : Nat) (t : Word) (s : State) : State :=
  let a := s.fld (Reg.JRN_STEP n) F.JRN_STEP_Attempts
  noteStep n s.startup.hk t (setOutcome n outcome a code s)

/-- A step's failure: its alternative, a restart, a halt, or the next step. -/
def failStep (n code : Nat) (t : Word) (s : State) : State :=
  let s := jrnFlag F.JRN_STAT_StepFailed (markFailed n (s.logPoint 933 0x0C 0x00 n))
  let alt := s.startup.alt
  let s := countFailure n s
  if !alt && altNow n then
    let s := setOutcome n ocPending 2 code (s.setStart { s.startup with alt := true })
    beginAct n true s
  else
    let s := finishStep n (if alt then ocAltFailed else ocFailed) code t s
    if restarts n then s.setStart { s.startup with restart := true }
    else
      let s := if n = 0x01 then s.setStart { s.startup with halt := true } else s
      let s := if n = 0x04 && !journalOk s then remakeJournal s else s
      goOn 16 (n + 1) t s

/-- A step's success. -/
def passStep (n : Nat) (t : Word) (s : State) : State :=
  let alt := s.startup.alt
  let s := if alt && stepMode n s = modeAlt then setStepMode n modeAlt 0 s else s
  let s := finishStep n (if alt then ocAltOk else ocOk) (s.fld (Reg.JRN_STEP n) F.JRN_STEP_Code) t s
  goOn 16 (n + 1) t s

/-- The start begins (R447, R448). -/
def beginStart (s : State) : State :=
  if s.startup.step = 0 then
    goOn 16 0x01 0 (loadSteps (s.setFld Reg.JRN_STAT F.JRN_STAT_Cause s.startup.cause))
  else s

/-- Is a step under way? -/
def stepping (s : State) : Bool := partState s = stateStarting && !s.startup.restart

/-- One step of the start: it begins where no step is under way, and the step under way ends, well or not.
`data` holds HkTime at its end and what the step found outside the part. -/
def startStep (ok : Bool) (data : List Nat) (s : State) : State :=
  if !stepping s then s
  else
    let s := beginStart s
    if !stepping s then s
    else
      let n := s.startup.step
      let t := BitVec.ofNat 32 (data.getD 0 0)
      let (r, s) := endAct n s.startup.alt ok data s
      match r with
      | none => passStep n t s
      | some c => failStep n c t s

/-- Time limits of the steps in µs; a deferred copy adds 2 s to step 0x09. -/
def stepLimit (n : Nat) (s : State) : Nat :=
  match n with
  | 0x01 => 2000
  | 0x02 => 10000
  | 0x03 => 1000
  | 0x04 => 1000
  | 0x05 => 20000
  | 0x06 => 2000000
  | 0x07 => 200000
  | 0x08 => 100000
  | 0x09 => match s.startup.image with
    | some (_, h) => if lpddrBase ≤ imgBase h then 2001000 else 1000
    | none => 1000
  | 0x0A => 2000000
  | 0x0B => 10000
  | 0x0C => 1000
  | _ => 100000

/-- Step `n` has not completed within its limit. -/
def stepTimeout (n : Nat) (s : State) : State :=
  if !stepping s then s
  else
    let s := beginStart s
    if stepping s && s.startup.step = n && n < 0x0E then
      failStep n codeTimeout (s.startup.hk + BitVec.ofNat 32 (stepLimit n s)) s
    else s

/-- The restart, 1 ms after the failure has been recorded (R451). -/
def internalRestart (straps : Nat) (s : State) : State := if s.startup.restart then resetPart 2 straps s else s

/-! ### The commands -/

/-- SYS_RESET: the straps as sampled at the rising edge. -/
def execSysReset (straps : Nat) (s : State) : Out := .next (resetPart 1 straps s)

/-- POWER_LOSS. -/
def execPowerLoss (s : State) : Out := .next (losePower s)

/-- START_SEQUENCE. -/
def execStartSequence (ok : Bool) (data : List Nat) (s : State) : Out := .next (startStep ok data s)

/-- STEP_TIMEOUT. -/
def execStepTimeout (n : Nat) (s : State) : Out := .next (stepTimeout n s)

/-- INTERNAL_RESTART. -/
def execInternalRestart (straps : Nat) (s : State) : Out := .next (internalRestart straps s)

end Sys2Proof.Machine
end

