-- ==== Sys2Proof/Machine/CtlBus.lean ====
section
/-!
DEFINITION. The control region (chapter 21): every write and read of a control register by a requester, each
handed to the rule of its register; what no rule of its own names is written and read by its fields (R2, R3,
R463 to R465). REGISTER_WRITE.
-/
namespace Sys2Proof.Machine

/-- Does a register stand at `a` (R463)? JRN_STEP has no step 0. -/
def assigned (a : Nat) : Bool := (regRow a).isSome && a != 0x20040

/-! ### Writes, block by block -/

def sysWrite (a : Nat) (v : Word) (s : State) : State :=
  if a = Reg.SYS_CLK_CTL then withClockBack (writeClkCtl v) s
  else if a = Reg.SYS_LT_CTL then writeLtCtl v s
  else if a = Reg.SYS_LT_RATE then writeLtRate v s
  else if a = Reg.SYS_LT_ADJ then adjustLineTime v s
  else s.plainWrite a v

def evtWrite (a : Nat) (v : Word) (s : State) : State :=
  if a = Reg.EVT_CTL then writeEvtCtl v s
  else if a = Reg.EVT_SWRAISE then swRaise v s
  else if Reg.EVT_ROUTE 0 ≤ a then writeEvtRoute ((ofs (Reg.EVT_ROUTE 0) a) / 4) v s
  else s.plainWrite a v

/-- Only the host reverts a step (R450). -/
def jrnWrite (req : Req) (a : Nat) (v : Word) (s : State) : State :=
  if Reg.JRN_STEP 1 ≤ a then (if req = .host then revertStep ((ofs (Reg.JRN_STEP 0) a) / 4) v s else s)
  else s.plainWrite a v

def mntWrite (a : Nat) (v : Word) (s : State) : State :=
  if a = Reg.MNT_CTL then writeMntCtl v s
  else if a = Reg.MNT_REQCTL then writeReqctl v s
  else if a = Reg.MNT_RBADV then writeRbadv v s
  else if Reg.MNT_RGN_LO 0 ≤ a then writeMntRgn a v s
  else s.plainWrite a v

def calWrite (a : Nat) (v : Word) (s : State) : State :=
  if a = Reg.CAL_CTL then writeCalCtl v s
  else if a = Reg.CAL_WAIT then writeCalWait v s
  else if Reg.CAL_TCTL 0 ≤ a then
    let t := (ofs (Reg.CAL_TCTL 0) a) / 0x100
    let o := (ofs (Reg.CAL_TCTL 0) a) % 0x100
    if o = 0 then writeCalTctl t v s
    else if 0x10 ≤ o && o < 0x90 then writeCoef t a v s
    else s.plainWrite a v
  else s.plainWrite a v

def lioWrite (a : Nat) (v : Word) (s : State) : State :=
  let o := ofs (Reg.LIO_DATA 0) a
  if o < 0x80 then
    let b := o / 16
    if o % 16 = 0 then queueLatch .data b v s
    else if o % 16 = 4 then queueLatch .set b v s
    else if o % 16 = 8 then queueLatch .clr b v s
    else queueLatch .tgl b v s
  else if Reg.LIO_CFG 0 ≤ a && a < Reg.LIO_OWNER 0 then writeLioCfg ((ofs (Reg.LIO_CFG 0) a) / 4) v s
  else if Reg.LIO_UCTL 0 ≤ a then
    let i := (a % 0x100) / 0x40
    let k := a % 0x40
    if a < Reg.LIO_SCTL 0 then
      let u := (ofs (Reg.LIO_UCTL 0) a) / 0x40
      if k = 0 then s.plainWrite a (fixUctl v) else if k = 4 then uartPush u v s else s.plainWrite a v
    else if a < Reg.LIO_ICTL 0 then
      if k = 0 then s.plainWrite a (fixSctl v) else if k = 4 then spiPush i v s else s.plainWrite a v
    else if k = 0 then s.plainWrite a (fixIctl v)
    else if k = 4 then writeIxfer i v s
    else if k = 8 then i2cPush i v s
    else s.plainWrite a v
  else s.plainWrite a v

def hostWrite (a : Nat) (v : Word) (s : State) : State :=
  if a = Reg.HOST_CTL then writeHostCtl v s
  else if a = Reg.HOST_BOOT_CMD then bootCmd v s
  else s.plainWrite a v

def memcWrite (a : Nat) (v : Word) (s : State) : State :=
  if a = Reg.MEMC_CFG then writeMemcCfg v s
  else if a = Reg.MEMC_SCRUB then writeScrub v s
  else s.plainWrite a v

def cfgWrite (a : Nat) (v : Word) (s : State) : State :=
  if a = Reg.CFG_CTL then writeCfgCtl v s
  else if a = Reg.CFG_LOAD then writeCfgLoad v s
  else if a = Reg.CFG_APPLYAT_LO || a = Reg.CFG_APPLYAT_HI then writeApplyAt a v s
  else if Reg.CFG_SLVSTAT 0 ≤ a then
    let k := (ofs (Reg.CFG_SLVSTAT 0) a) / 0x100
    let o := (ofs (Reg.CFG_SLVSTAT 0) a) % 0x100
    if 0x10 ≤ o && o < 0x30 && o % 8 = 4 then writeFpwinHi k ((o - 0x10) / 8) v s
    else if 0x40 ≤ o then writeCuff k ((o - 0x40) / 4) v s
    else s.plainWrite a v
  else s.plainWrite a v

/-- The fields of the Seam Link's registers that store another value than the one written. -/
def slFix (a : Nat) (v : Word) : Word :=
  if a = Reg.SL_TSCFG then
    (if F.SL_TSCFG_TsPeriod.get v = 0 then F.SL_TSCFG_TsPeriod.put v 1 else v)
  else if a = Reg.SL_MSGCFG then F.SL_MSGCFG_SizeLog2.put v (clampNat 12 24 (F.SL_MSGCFG_SizeLog2.get v))
  else if Reg.SL_PVIOLCFG 0 ≤ a && a ≤ Reg.SL_PVIOLCFG 3 && a % 0x40 = 0x14 then
    (if F.SL_PVIOLCFG_ViolWindow.get v = 0 then F.SL_PVIOLCFG_ViolWindow.put v 1 else v)
  else if Reg.SL_WIN_LO 0 ≤ a && a < Reg.SL_IN_LO 0 && a % 16 = 0 then v &&& ~~~ 0xFFF#32
  else if Reg.SL_IN_LO 0 ≤ a && a < Reg.SL_MCAST 0 && a % 16 = 8 then
    F.SL_IN_CTL_SizeLog2.put v (clampNat 12 40 (F.SL_IN_CTL_SizeLog2.get v))
  else v

/-- The row's writable bits of a requester's own copy. -/
def pregWrite (req : Req) (a : Nat) (v : Word) (s : State) : State :=
  match regRow a with
  | some r => s.setPreg req a (r.write (s.preg req a) v)
  | none => s

def slWrite (req : Req) (a : Nat) (v : Word) (s : State) : State :=
  if a = Reg.SL_CTL then writeSlCtl v s
  else if a = Reg.SL_MSGRD then writeMsgRd v s
  else if a = Reg.SL_CUE_GO then cueAtGo req v s
  else if a = Reg.SL_ATT_CTL then attestGo req v s
  else if Reg.SL_CUE_TLO ≤ a && a ≤ Reg.SL_ATT_HI then pregWrite req a v s
  else if Reg.SL_PCTL 0 ≤ a && a ≤ Reg.SL_PCTL 3 && a % 0x40 = 0 then writeSeamPctl ((ofs (Reg.SL_PCTL 0) a) / 0x40) v s
  else if Reg.SL_ROUTE 0 ≤ a then writeRoute ((ofs (Reg.SL_ROUTE 0) a) / 4) v s
  else s.plainWrite a (slFix a v)

def plWrite (req : Req) (a : Nat) (v : Word) (s : State) : State :=
  if a = Reg.PL_CTL then writePlCtl v s
  else if a = Reg.PL_RINGRD then writePlRd v s
  else if a = Reg.PL_CMDTAG || a = Reg.PL_CMDARG then pregWrite req a v s
  else if a = Reg.PL_CMD then plCommand req (F.PL_CMD_Op.get v) s
  else if (Reg.PL_CLOSEOFS_LO ≤ a && a ≤ Reg.PL_NEXTTAG) || (Reg.PL_RINGBASE_LO ≤ a && a ≤ Reg.PL_RINGCFG) then
    writePlGuarded a v s
  else s.plainWrite a v

def cqWrite (a : Nat) (v : Word) (s : State) : State :=
  if Reg.ENC_CTL 0 ≤ a then
    let e := (ofs (Reg.ENC_CTL 0) a) / 0x100
    let o := (ofs (Reg.ENC_CTL 0) a) % 0x100
    if o = 0 then writeEncCtl e v s
    else if o = 4 then writeEncPins e v s
    else if 0x40 ≤ o then writeMatch e ((o - 0x40) / 16) a v s
    else s.plainWrite a v
  else if Reg.CQ_FSEL 0 ≤ a then writeFsel ((ofs (Reg.CQ_FSEL 0) a) / 4) v s
  else if Reg.CQ_CAPCTL 0 ≤ a then
    let u := (ofs (Reg.CQ_CAPCTL 0) a) / 0x40
    if a % 0x40 = 0 then writeCapCtl u v s else if a % 0x40 = 0x1C then popCapture u v s else s.plainWrite a v
  else if Reg.CQ_TSEL 0 ≤ a then
    let n := (ofs (Reg.CQ_TSEL 0) a) / 0x40
    let o := a % 0x40
    if o = 0 then writeTsel n v s
    else if o = 4 then writeTctl n v s
    else if o = 0x1C then writeArmCtl n v s
    else if o = 0x30 then (disarmMask n (F.CQ_DISARM_Slots.get v) s).2
    else s.plainWrite a v
  else s.plainWrite a v

def pgWrite (a : Nat) (v : Word) (s : State) : State :=
  let n := (ofs (Reg.PG_CTL 0) a) / 0x800
  let o := a % 0x800
  if o = 0 then writePgCtl n v s
  else if o = 0x20 || o = 0x24 then writePgTrip n ((o - 0x20) / 4) v s
  else if o = 0x28 then writePgTripCtl n v s
  else if o = 0x2C then writePgCmd n v s
  else if o = 0x30 then writePgSeqsel n v s
  else if 0x100 ≤ o then writePgSeq n ((o - 0x100) / 0x80) (o % 0x80 / 4) v s
  else s.plainWrite a v

def hdWrite (a : Nat) (v : Word) (s : State) : State :=
  let h := (ofs (Reg.HD_CTL 0) a) / 0x8000
  let o := a % 0x8000
  if o = 0 then writeHdCtl h v s
  else if o ≤ 0x0C then writeProfile h ((o - 4) / 4) v s
  else if o = 0x14 || o = 0x18 || o = 0x20 || o = 0x30 || o = 0x34 then writeHdIdle h a v s
  else if o = 0x1C then writeBandCfg h v s
  else if o = 0x38 then writePlanCfg h v s
  else if o = 0x40 then writePlanRd h v s
  else if o = 0x44 || o = 0x48 then prioPush h ((o - 0x44) / 4) v s
  else if o = 0x54 || o = 0x58 then writeSense h ((o - 0x54) / 4) v s
  else if o = 0x5C then writeNmapCmd h v s
  else if 0x4000 ≤ o then writeNmap h ((o - 0x4000) / 4) v s
  else s.plainWrite a v

def tileWrite (t o a : Nat) (v : Word) (s : State) : State :=
  if o = 0 then writePwr t v s
  else if o = 0x08 then writeSel t v s
  else if o = 0x0C then writeDrv t v s
  else if o = 0x14 then writePga t v s
  else if o = 0x18 then writeBq t v s
  else if 0x40 ≤ o && o < 0x80 then
    let k := (o - 0x40) / 16
    if o % 16 = 0 then writeCmpCtl t k v s else if o % 16 = 4 then writeCmpTh t k v s else s.plainWrite a v
  else if o = 0x80 || o = 0x84 then writePairCtl t ((o - 0x80) / 4) v s
  else if o = 0x100 then writeDacCtl t v s
  else if o = 0x108 then writeDacCode t v s
  else if o = 0x10C then writeClrCode t v s
  else if o = 0x110 then writePalCtl t v s
  else if o = 0x118 then writeSupCtl t v s
  else if o = 0x120 then writeTwin t v s
  else if 0x200 ≤ o then writePalette t ((o - 0x200) / 0x100) (o % 0x100 / 4) v s
  else s.plainWrite a v

/-- A write to a tile's register. Where it leaves SupActive 0 the supervisor's run is 0 (R130). -/
def atWrite (a : Nat) (v : Word) (s : State) : State :=
  let t := (ofs (Reg.AT_PWR 0) a) / 0x2000
  supHold t (tileWrite t (a % 0x2000) a v s)

def dceWrite (a : Nat) (v : Word) (s : State) : State :=
  let p := (ofs (Reg.DCE_PSTAT 0) a) / 0x20000
  let o := a % 0x20000
  if o < 0x1000 then s.plainWrite a v
  else
    let c := (o - 0x1000) / 0x100
    let k := o % 0x100
    if k = 0 then writeChctl p c v s
    else if k = 4 then writeGate p c v s
    else if k = 0x10 then s.plainWrite a (clampRingSize F.DCE_RINGCFG_SizeLog2 v)
    else if k = 0x18 then writeRdidx p c v s
    else if k = 0x20 || k = 0x24 || k = 0x28 then writeDceTh p c ((k - 0x20) / 4) v s
    else s.plainWrite a v

/-- JQ_HPOST_HI(q): its address bits, and a post where Go is 1. -/
def writeHpostHi (req : Req) (q : Nat) (v : Word) (s : State) : State :=
  if F.JQ_HPOST_HI_Go.get v = 1 then hostPost req q v s else pregWrite req (Reg.JQ_HPOST_HI q) v s

def jqWrite (req : Req) (a : Nat) (v : Word) (s : State) : State :=
  let q := (ofs (Reg.JQ_CTL 0) a) / 0x200
  let o := a % 0x200
  if o = 0 then writeJqCtl q v s
  else if o = 4 then onQueue q (fun s => s.plainWrite a v) s
  else if o = 8 || o = 0x0C || o = 0x10 then writeJqRing q a v s
  else if o = 0x1C then writeJqAge q v s
  else if o = 0x40 then pregWrite req a v s
  else if o = 0x44 then writeHpostHi req q v s
  else s.plainWrite a v

def meWrite (a : Nat) (v : Word) (s : State) : State :=
  let n := (ofs (Reg.ME_CTL 0) a) / 0x4000
  let o := a % 0x4000
  if o = 0 then writeMeCtl n v s
  else if o = 8 then writeBootPc n v s
  else if o = 0x24 then writeMeWdog n v s
  else if 0x40 ≤ o && o < 0x80 && o % 8 = 4 then writeMeRgn n ((o - 0x40) / 8) v s
  else if o = 0x100 then writeDbgCtl n v s
  else if 0x104 ≤ o && o < 0x200 then writeDbg n a none v s
  else if 0x200 ≤ o then writeDbg n a (some ((o - 0x200) / 4)) v s
  else s.plainWrite a v

def tstWrite (a : Nat) (v : Word) (s : State) : State :=
  if a = Reg.TST_CTL then writeTstCtl v s
  else if Reg.TST_CSSTAT 0 ≤ a && a % 0x20 = 0x18 then writeRetctl ((ofs (Reg.TST_CSSTAT 0) a) / 0x20) v s
  else s.plainWrite a v

/-- A write to the register at an assigned address. -/
def blockWrite (req : Req) (a : Nat) (v : Word) (s : State) : State :=
  if a < 0x10000 then sysWrite a v s
  else if a < 0x20000 then evtWrite a v s
  else if a < 0x30000 then jrnWrite req a v s
  else if a < 0x40000 then mntWrite a v s
  else if a < 0x50000 then calWrite a v s
  else if a < 0x60000 then lioWrite a v s
  else if a < 0x70000 then hostWrite a v s
  else if a < 0x80000 then writeDp ((ofs 0x70000 a) / 0x100) a v s
  else if a < 0x90000 then memcWrite a v s
  else if a < 0xA0000 then cfgWrite a v s
  else if a < 0xB0000 then slWrite req a v s
  else if a < 0xC0000 then plWrite req a v s
  else if a < 0x200000 then cqWrite a v s
  else if a < 0x300000 then pgWrite a v s
  else if a < 0x400000 then hdWrite a v s
  else if a < 0x500000 then atWrite a v s
  else if a < 0x600000 then dceWrite a v s
  else if a < 0x800000 then jqWrite req a v s
  else if a < 0xC00000 then meWrite a v s
  else tstWrite a v s

/-- The MSI-X table and the pending bit array within the control region (R307, R462). -/
def inTable (a : Nat) : Bool := decide (0x68000 ≤ a) && decide (a < 0x70000)

def inPba (a : Nat) : Bool := decide (0x67000 ≤ a) && decide (a < 0x67100)

/-- An address that holds no register: the host's access is a violation (R463). -/
def notAssigned (req : Req) (a : Nat) (s : State) : State := if req = .host then hostViol 0x02 a s else s

/-- A 32-bit write of a requester to the control region. -/
def ctlWrite (req : Req) (a : Nat) (v : Word) (s : State) : State :=
  if assigned a then blockWrite req a v s
  else if inTable a then setTableWord ((ofs 0x68000 a) / 4) v s
  else if inPba a then s
  else notAssigned req a s

/-! ### Reads, block by block -/

/-- A count that reading clears, in a register with other fields. -/
def rcRead (a : Nat) (fs : List Fld) (s : State) : Word × State :=
  (s.reg a, fs.foldl (fun s f => s.setFld a f 0) s)

/-- What is read where no action follows. -/
def plainRead (w : Word) (s : State) : Word × State := (w, s)

def sysRead (req : Req) (a : Nat) (s : State) : Word × State :=
  if a = Reg.SYS_CLK_STATUS then plainRead (clkStatus s) s
  else if a = Reg.SYS_LT_LO then readLineTime req s
  else if a = Reg.SYS_LT_HI then plainRead (s.preg req a) s
  else if a = Reg.SYS_LT_PENDING then plainRead s.clock.slew s
  else if a = Reg.SYS_LT_STATUS then plainRead (F.SYS_LT_STATUS_Slewing.put (s.reg a) (b2n (s.clock.slew != 0))) s
  else plainRead (s.reg a) s

def evtRead (a : Nat) (s : State) : Word × State :=
  if a = Reg.EVT_RAISECNT then rcRead a [F.EVT_RAISECNT_Raises] s else plainRead (s.reg a) s

def mntRead (a : Nat) (s : State) : Word × State :=
  if Reg.MNT_SLOTSTAT 0 ≤ a && a < Reg.MNT_RBCTR 0 then
    let j := (ofs (Reg.MNT_SLOTSTAT 0) a) / 0x40
    let o := a % 0x40
    plainRead (if o = 0 then slotStat j s else slotHashWord j ((o - 4) / 4) s) s
  else if Reg.MNT_RBCTR 0 ≤ a && a < Reg.MNT_IDPUB 0 then plainRead (rbCtrWord ((ofs (Reg.MNT_RBCTR 0) a) / 4) s) s
  else plainRead (s.reg a) s

def calRead (a : Nat) (s : State) : Word × State :=
  if a = Reg.CAL_STAT then plainRead (calStat s) s
  else if Reg.CAL_TSTAT 0 ≤ a && a % 0x100 = 4 then plainRead (calTstat ((ofs (Reg.CAL_TSTAT 0) a) / 0x100) s) s
  else plainRead (s.reg a) s

def lioRead (a : Nat) (s : State) : Word × State :=
  if Reg.LIO_IN 0 ≤ a && a < Reg.LIO_BANKSTAT 0 then readLioIn ((ofs (Reg.LIO_IN 0) a) / 4) s
  else if Reg.LIO_OWNER 0 ≤ a && a < Reg.LIO_UCTL 0 then plainRead (ownerWord ((ofs (Reg.LIO_OWNER 0) a) / 4) s) s
  else if Reg.LIO_UCTL 0 ≤ a then
    let i := (a % 0x100) / 0x40
    let k := a % 0x40
    if a < Reg.LIO_SCTL 0 then
      let u := (ofs (Reg.LIO_UCTL 0) a) / 0x40
      if k = 4 then uartPop u s else if k = 8 then plainRead (ustatWord u s) s else plainRead (s.reg a) s
    else if a < Reg.LIO_ICTL 0 then
      if k = 4 then spiPop i s else if k = 8 then plainRead (sstatWord i s) s else plainRead (s.reg a) s
    else if k = 8 then i2cPop i s
    else if k = 0x0C then plainRead (istatWord i s) s
    else plainRead (s.reg a) s
  else plainRead (s.reg a) s

def hostRead (a : Nat) (s : State) : Word × State :=
  if a = Reg.HOST_VIOL then rcRead a [F.HOST_VIOL_Count] s else plainRead (s.reg a) s

def dpReadReg (a : Nat) (s : State) : Word × State :=
  if a % 0x100 = 0x18 then plainRead (dpStat ((ofs 0x70000 a) / 0x100) s) s else plainRead (s.reg a) s

def memcRead (a : Nat) (s : State) : Word × State :=
  if Reg.MEMC_CHSTAT 0 ≤ a && a % 0x20 = 8 then rcRead a [F.MEMC_CHCNT_CeCount, F.MEMC_CHCNT_LinkEccCount] s
  else plainRead (s.reg a) s

def cfgRead (a : Nat) (s : State) : Word × State :=
  if a = Reg.CFG_PORTVIOL then rcRead a [F.CFG_PORTVIOL_Count] s else plainRead (s.reg a) s

def slRead (req : Req) (a : Nat) (s : State) : Word × State :=
  if Reg.SL_CUE_TLO ≤ a && a ≤ Reg.SL_ATT_CTL then plainRead (s.preg req a) s
  else if a = Reg.SL_LOST then rcRead a [F.SL_LOST_DropCount] s
  else if Reg.SL_PCTL 0 ≤ a && a < Reg.SL_WIN_LO 0 then
    let k := (ofs (Reg.SL_PCTL 0) a) / 0x40
    if a % 0x40 = 4 then plainRead (seamStat k s) s
    else if a % 0x40 = 0x10 then rcRead a [F.SL_PVIOL_Count] s
    else if a % 0x40 = 0x18 then rcRead a [F.SL_PCNT_ReplayCount, F.SL_PCNT_Discarded] s
    else plainRead (s.reg a) s
  else plainRead (s.reg a) s

def plRead (req : Req) (a : Nat) (s : State) : Word × State :=
  if a = Reg.PL_STATUS then plainRead (plStatus s) s
  else if a = Reg.PL_CMDTAG || a = Reg.PL_CMDARG || a = Reg.PL_RECSTAT || a = Reg.PL_RECCNT then
    plainRead (s.preg req a) s
  else plainRead (s.reg a) s

/-- The registers of a capture unit's head record. -/
def capRead (u o : Nat) (s : State) : Word :=
  let r := capHead u s
  if o = 4 then F.CQ_CAPSTAT_Level.put (s.reg (Reg.CQ_CAPSTAT u)) (s.capFifo u).length
  else if o = 8 then BitVec.ofNat 32 r.stamp
  else if o = 0x0C then BitVec.ofNat 32 (r.stamp / 2 ^ 32)
  else if o = 0x10 then F.CQ_CAP_FRAC_SourceNum.put (F.CQ_CAP_FRAC_Eighths.put 0 r.frac) r.source
  else if o = 0x14 then BitVec.ofNat 32 r.pos
  else BitVec.ofNat 32 (r.pos / 2 ^ 32 % 256)

def cqRead (req : Req) (a : Nat) (s : State) : Word × State :=
  if Reg.ENC_CTL 0 ≤ a then
    let e := (ofs (Reg.ENC_CTL 0) a) / 0x100
    let o := a % 0x100
    if o = 8 then plainRead (encStatus e s) s
    else if o = 0x0C then readEncPos req e s
    else if o = 0x10 then plainRead (s.preg req a) s
    else if o = 0x14 then plainRead (BitVec.ofNat 32 (s.encOf e).period) s
    else if o = 0x20 then readClear a F.ENC_ERRCNT_IllegalCount s
    else plainRead (s.reg a) s
  else if Reg.CQ_FSEL 0 ≤ a then plainRead (s.reg a) s
  else if Reg.CQ_CAPCTL 0 ≤ a then
    let u := (ofs (Reg.CQ_CAPCTL 0) a) / 0x40
    let o := a % 0x40
    if 4 ≤ o && o ≤ 0x18 then plainRead (capRead u o s) s else plainRead (s.reg a) s
  else if Reg.CQ_TSEL 0 ≤ a then
    let n := (ofs (Reg.CQ_TSEL 0) a) / 0x40
    let o := a % 0x40
    if o = 0x0C then plainRead (F.CQ_TSTAT_SlotBusy.put (s.reg a) (slotBusy n s)) s
    else if 0x20 ≤ o && o < 0x30 then plainRead (slotWord n ((o - 0x20) / 4) s) s
    else if o = 0x34 then readClear a F.CQ_MERGE_MergeCount s
    else plainRead (s.reg a) s
  else if a = Reg.CQ_STATUS then
    plainRead (F.CQ_STATUS_ArmedTotal.put (F.CQ_STATUS_LtArmed.put 0 (ltArmed s)) (armedTotal s)) s
  else plainRead (s.reg a) s

def pgRead (a : Nat) (s : State) : Word × State :=
  if a % 0x800 = 4 then plainRead (pgStat ((ofs (Reg.PG_CTL 0) a) / 0x800) s) s else plainRead (s.reg a) s

def hdRead (a : Nat) (s : State) : Word × State :=
  let h := (ofs (Reg.HD_CTL 0) a) / 0x8000
  let o := a % 0x8000
  if o = 0x10 then plainRead (hdStat h s) s
  else if o = 0x28 then plainRead (hdCurTag h s) s
  else if o = 0x4C || o = 0x50 then plainRead (hdSweep h ((o - 0x4C) / 4) s) s
  else if o = 0x60 then plainRead (hdCsStat h s) s
  else if 0x4000 ≤ o then plainRead (readNmap h ((o - 0x4000) / 4) s) s
  else plainRead (s.reg a) s

/-- A register with a write that waits for the end of a calibration step reads as written (R104). -/
def heldRead (t a : Nat) (s : State) : Word :=
  match lookupCell a ((s.tile t).calPend) with
  | some v =>
    match regRow a with
    | some r => r.write (s.reg a) v
    | none => s.reg a
  | none => s.reg a

def atRead (a : Nat) (s : State) : Word × State :=
  let t := (ofs (Reg.AT_PWR 0) a) / 0x2000
  let o := a % 0x2000
  if o = 4 then plainRead (tileStat t s) s
  else if o = 0x10 then plainRead (pbusStat (t / 16) s) s
  else if 0x40 ≤ o && o < 0x80 && o % 16 = 8 then
    let k := (o - 0x40) / 16
    plainRead (cmpStat t k s) (s.setFld a F.AT_CMPSTAT_RiseCount 0)
  else if o = 0x104 then plainRead (dacStat t s) s
  else if o = 0x114 then plainRead (dacPos t s) s
  else if o = 0x11C then readClear a F.AT_SUPSTAT_PeakDiff s
  else if o = 0x120 then plainRead (twinWord t s) s
  else plainRead (heldRead t a s) s

/-- A coefficient of the compensation filters as DCE_FIRROM reads, 18 bits (R141). -/
def firWord (k i : Nat) : Word := BitVec.ofNat 32 (ux 18 (firCoef k i))

def dceRead (req : Req) (a : Nat) (s : State) : Word × State :=
  let p := (ofs (Reg.DCE_PSTAT 0) a) / 0x20000
  let o := a % 0x20000
  if o < 0x1000 then
    if o = 0 then plainRead (F.DCE_PSTAT_BufLevel.put (s.reg a) ((s.dce.bufs.get [] p).length)) s
    else if 0x100 ≤ o then plainRead (firWord ((o - 0x100) / 0x80) (o % 0x80 / 4)) s
    else plainRead (s.reg a) s
  else
    let c := (o - 0x1000) / 0x100
    let k := o % 0x100
    if k = 0x2C then plainRead (chStat p c s) s
    else if k = 0x38 then readLastStamp req p c s
    else if k = 0x3C then plainRead (s.preg req a) s
    else if k = 0x40 then readFast p c s
    else if k = 0x44 then readClear a F.DCE_OVRCNT_OvrCount s
    else plainRead (s.reg a) s

def jqRead (req : Req) (a : Nat) (s : State) : Word × State :=
  let q := (ofs (Reg.JQ_CTL 0) a) / 0x200
  let o := a % 0x200
  if o = 0x20 then plainRead (jqStat q s) s
  else if o = 0x28 then readHeadDl req q s
  else if o = 0x2C then plainRead (s.preg req a) s
  else if 0x30 ≤ o && o < 0x40 then readCnt a s
  else if 0x40 ≤ o && o < 0x4C then plainRead (s.preg req a) s
  else plainRead (s.reg a) s

def meRead (a : Nat) (s : State) : Word × State :=
  let n := (ofs (Reg.ME_CTL 0) a) / 0x4000
  let o := a % 0x4000
  if o = 4 then plainRead (meStat n s) s
  else if o = 0x2C then readClear a F.ME_PERF_ISSUE_Count s
  else if o = 0x30 then readClear a F.ME_PERF_STALL_Count s
  else if o = 0x34 then plainRead (meDmaStat n s) s
  else if 0x100 ≤ o && o < 0x200 then plainRead (readDbg n a none s) s
  else if 0x200 ≤ o then plainRead (readDbg n a (some ((o - 0x200) / 4)) s) s
  else plainRead (s.reg a) s

def tstRead (a : Nat) (s : State) : Word × State :=
  if a = Reg.TST_SWEEP then plainRead (sweepWord s) s
  else if a = Reg.TST_ERRLOG then readClear a F.TST_ERRLOG_CeCount s
  else if Reg.TST_CSSTAT 0 ≤ a && a % 0x20 = 0x14 then readClear a F.TST_CSCE_CeCount s
  else plainRead (s.reg a) s

/-- A read of the register at an assigned address: its word and what reading changes. -/
def blockRead (req : Req) (a : Nat) (s : State) : Word × State :=
  if a < 0x10000 then sysRead req a s
  else if a < 0x20000 then evtRead a s
  else if a < 0x30000 then plainRead (s.reg a) s
  else if a < 0x40000 then mntRead a s
  else if a < 0x50000 then calRead a s
  else if a < 0x60000 then lioRead a s
  else if a < 0x70000 then hostRead a s
  else if a < 0x80000 then dpReadReg a s
  else if a < 0x90000 then memcRead a s
  else if a < 0xA0000 then cfgRead a s
  else if a < 0xB0000 then slRead req a s
  else if a < 0xC0000 then plRead req a s
  else if a < 0x200000 then cqRead req a s
  else if a < 0x300000 then pgRead a s
  else if a < 0x400000 then hdRead a s
  else if a < 0x500000 then atRead a s
  else if a < 0x600000 then dceRead req a s
  else if a < 0x800000 then jqRead req a s
  else if a < 0xC00000 then meRead a s
  else tstRead a s

/-- A 32-bit read of a requester from the control region. -/
def ctlRead (req : Req) (a : Nat) (s : State) : Word × State :=
  if assigned a then blockRead req a s
  else if inTable a then plainRead (tableWord ((ofs 0x68000 a) / 4) s) s
  else if inPba a then plainRead (pbaWord ((ofs 0x67000 a) / 4) s) s
  else plainRead 0 (notAssigned req a s)

/-! ### Accesses of other widths (R4) -/

/-- The first addresses of the aligned words that `n` bytes at `a` touch. -/
def wordsTouched (a n : Nat) : List Nat := (List.range ((a % 4 + n + 3) / 4)).map (fun i => a / 4 * 4 + 4 * i)

/-- A write of bytes to the control region: a word written in part is discarded and reported (R4). -/
def regStore (req : Req) (a : Nat) (bs : List Byte) (s : State) : State :=
  (wordsTouched a bs.length).foldl (fun s w =>
    if a ≤ w && w + 4 ≤ a + bs.length then ctlWrite req w (BitVec.ofNat 32 (leNat ((bs.drop (w - a)).take 4))) s
    else hostViol 0x01 w s) s

/-- `n` bytes of the control region: each containing word is read whole (R4). -/
def regBytes (req : Req) (a n : Nat) (s : State) : List Byte × State :=
  let (bs, s) := (wordsTouched a n).foldl (fun (x : List Byte × State) w =>
    let (v, s) := ctlRead req w x.2
    (x.1 ++ leBytes 4 v.toNat, s)) ([], s)
  ((bs.drop (a % 4)).take n, s)

/-! ### The command -/

/-- REGISTER_WRITE. -/
def execRegisterWrite (req : Req) (a : Nat) (v : Word) (s : State) : Out :=
  .next (if a < 0x1000000 && a % 4 = 0 then ctlWrite req a v s else s)

end Sys2Proof.Machine
end

