-- ==== Sys2Proof/Machine/Bar0.lean ====
section
/-!
DEFINITION. The host's BAR0 requests (R307, R308, R312, R452): BAR0_WRITE, BAR0_READ, UNSUPPORTED_REQUEST.
-/
namespace Sys2Proof.Machine

/-- The DWORDs of a request, by address. -/
def dwordsAt (a n : Nat) : List Nat := (List.range n).map (fun i => a / 4 * 4 + 4 * i)

/-- While the part is HALTED, BAR0 reaches the SYS, JRN and HOST blocks only (R452). -/
def bar0Reaches (a : Nat) (s : State) : Bool :=
  partState s != stateHalted || decide (a < 0x10000) || (decide (0x20000 ≤ a) && decide (a < 0x30000)) ||
    (decide (0x60000 ≤ a) && decide (a < 0x70000))

/-- Is it an access of the MSI-X table of another size than 4 or 8 aligned bytes? -/
def tableMisuse (a n : Nat) (part : Bool) : Bool :=
  inTable a && (part || !(n = 1 || (n = 2 && a % 8 = 0)))

/-- One DWORD of a write. -/
def bar0Put (a : Nat) (be : Nat) (v : Word) (s : State) : State :=
  if be % 16 != 15 then hostViol 0x01 a s
  else if bar0Reaches a s then ctlWrite .host a v s
  else hostViol 0x02 a s

/-- One DWORD of a read. -/
def bar0Get (a : Nat) (s : State) : Word × State :=
  if bar0Reaches a s then ctlRead .host a s else (0, hostViol 0x02 a s)

/-- A BAR0 write: `be` the byte enables of each DWORD (all set where none are given). -/
def bar0Write (a : Nat) (be : List Nat) (ws : List Word) (ep : Bool) (s : State) : State :=
  if s.host.d3 || ws.isEmpty then s
  else if ep then aerUncorr aerPoisoned (hostViol 0x04 a s)
  else if 16 < ws.length then aerUncorr aerUnsupported (hostViol 0x03 a s)
  else if tableMisuse a ws.length (be.any (fun b => b % 16 != 15)) then hostViol 0x08 a s
  else ((dwordsAt a ws.length).zip ws).zipIdx.foldl (fun s x => bar0Put x.1.1 (be.getD x.2 15) x.1.2 s) s

/-- The completion of a BAR0 read of `n` DWORDs; `part` where it asks for part of one. -/
def bar0Answer (a n : Nat) (part : Bool) (s : State) : State :=
  let s := writeOutAll s
  if 16 < n then (hostViol 0x03 a s).give .host []
  else if tableMisuse a n part then (hostViol 0x08 a s).give .host (List.replicate n 0)
  else
    let (ws, s) := (dwordsAt a n).foldl (fun (x : List Word × State) w =>
      let (v, s) := bar0Get w x.2
      (x.1 ++ [v], s)) ([], s)
    s.give .host ws

/-- A BAR0 read: it completes after every posted write of the host has taken effect (R308). -/
def bar0Read (a n : Nat) (part : Bool) (s : State) : State :=
  if s.host.d3 || n = 0 then s
  else if hostWaits s then askRead (.bar0 a n part) s
  else bar0Answer a n part s

/-! ### The commands -/

/-- BAR0_WRITE. -/
def execBar0Write (a : Nat) (be : List Nat) (ws : List Word) (ep : Bool) (s : State) : Out :=
  .next (bar0Write a be ws ep s)

/-- BAR0_READ. -/
def execBar0Read (a n : Nat) (narrow : Bool) (s : State) : Out := .next (bar0Read a n narrow s)

/-- UNSUPPORTED_REQUEST: an I/O request, AtomicOp or message, or a malformed TLP. -/
def execUnsupportedRequest (malformed : Bool) (s : State) : Out :=
  .next (aerUncorr (if malformed then aerMalformed else aerUnsupported) (hostViol (if malformed then 0x0A else 0x09) 0 s))

end Sys2Proof.Machine
end

