-- ==== Sys2Proof/Machine/Broker.lean ====
section
/-!
DEFINITION. The Steal Brokers: selection and delivery (R259 to R263), and the return of a faulted, reset or
parked engine's job (R268).
-/
namespace Sys2Proof.Machine

def State.broker (s : State) (c : Nat) : Broker := s.jobs.brokers.get Broker.init c

def State.setBroker (s : State) (c : Nat) (b : Broker) : State :=
  s.setJobs { s.jobs with brokers := s.jobs.brokers.set Broker.init c b }

/-- A ring that lies in a retained Cluster Store delivers nothing (R291), and one whose next entry lies in a frozen
bank waits (R288). -/
def ringAwake (q : Nat) (s : State) : Bool :=
  !(regionOf (jqBase q s) s).isAsleep && match oldestDeliverable q s with
    | some x => !frozenIn (entSlot q x.idx s) 64 s
    | none => true

/-- eligible(q, n) of R260, for engine `n` of cluster n div 16. -/
def eligible (q n : Nat) (s : State) : Bool :=
  let c := Reg.JQ_CTL q
  s.bit c F.JQ_CTL_Enable && (oldestDeliverable q s).isSome && ringAwake q s &&
    (if s.bit c F.JQ_CTL_Bound then s.fld c F.JQ_CTL_BindEngine = n
     else if s.bit c F.JQ_CTL_Pinned then jqHome q s = n / 16
     else jqHome q s = n / 16 || bitN (s.fld (Reg.JQ_AFFIN q) F.JQ_AFFIN_Clusters) (n / 16))

/-- level(q, n) of R260. -/
def levelOf (q n : Nat) (s : State) : Nat :=
  let c := n / 16
  if s.bit (Reg.JQ_CTL q) F.JQ_CTL_Bound then 1
  else if jqHome q s = c then 2
  else if jqHome q s = (c + 1) % 12 || jqHome q s = (c + 11) % 12 then 3
  else 4

/-- The first member of an ascending list after `r`, wrapping. -/
def firstAfter (r : Nat) (l : List Nat) : Option Nat :=
  match l.find? (fun q => decide (r < q)) with
  | some q => some q
  | none => l.head?

/-- Rotation pointers before any selection stand before queue 0. -/
def rotStart : Nat := 4095

/-- The (level, class) pairs in the order of R260. -/
def levelClasses : List (Nat × Nat) := [1, 2, 3, 4].flatMap (fun l => [1, 2, 3, 4, 5, 6, 7].map (fun k => (l, k)))

/-- A pick: the queue, and the rotation pointer it moves (none: rot0). -/
structure Pick where
  queue : Nat
  rot   : Option Nat

/-- The queue that select(n) picks among the queues at one level and class. -/
def pickAt (n : Nat) (cand : List Nat) (lk : Nat × Nat) (s : State) : Option Pick :=
  let m := cand.filter (fun q => levelOf q n s = lk.1 && jqClass q s = lk.2)
  let key := 8 * lk.1 + lk.2
  match (s.eng n).hint with
  | some h => if m.contains h then some (Pick.mk h (some key))
    else (firstAfter ((s.broker (n / 16)).rots.get rotStart key) m).map (fun q => Pick.mk q (some key))
  | none => (firstAfter ((s.broker (n / 16)).rots.get rotStart key) m).map (fun q => Pick.mk q (some key))

/-- select(n) of R260. -/
def selectFor (n : Nat) (s : State) : Option Pick :=
  let cand := s.jobs.qs.keys.filter (fun q => eligible q n s)
  let u := cand.filter (fun q => jqClass q s = 0)
  match firstAfter (s.broker (n / 16)).rot0 u with
  | some q => some (Pick.mk q none)
  | none => levelClasses.findSome? (fun lk => pickAt n cand lk s)

/-- Is the engine waiting in QGET, with Drain 0? -/
def waitsForJob (n : Nat) (s : State) : Bool :=
  let e := s.eng n
  e.st = .wait && (match e.wait with | .job _ _ => true | _ => false) && !s.bit (Reg.ME_CTL n) F.ME_CTL_Drain

/-- Engine `n` behind those that have waited as long or longer. -/
def queueUp (s : State) (l : List Nat) (n : Nat) : List Nat :=
  let ahead := fun m => decide ((s.eng m).waitAt ≤ (s.eng n).waitAt)
  l.filter ahead ++ n :: l.filter (fun m => !ahead m)

/-- The waiting engines of a cluster, longest waiting first (R259). -/
def waiters (c : Nat) (s : State) : List Nat :=
  (((List.range 16).map (· + 16 * c)).filter (fun n => waitsForJob n s)).foldl (queueUp s) []

/-- The broker's selection of this ENG cycle: the engine served and its pick. -/
def selection (c : Nat) (s : State) : Option (Nat × Pick) :=
  if (s.broker c).selAt = s.tick / 2 + 1 then none
  else (waiters c s).findSome? (fun n => (selectFor n s).map (fun p => (n, p)))

/-- R262: another cluster's broker wins the queue in this cycle. -/
def outranked (c q : Nat) (s : State) : Bool :=
  let rank := fun d => (d + 12 - jqHome q s) % 12
  (List.range 12).any (fun d => decide (rank d < rank c) &&
    match selection d s with
    | some (_, p) => p.queue = q
    | none => false)

/-- A selection moves its rotation pointer, and the broker makes no other in this ENG cycle (R259, R260). -/
def moveRot (c : Nat) (p : Pick) (s : State) : State :=
  let b := s.broker c
  s.setBroker c (match p.rot with
    | none => { b with rot0 := p.queue, selAt := s.tick / 2 + 1 }
    | some k => { b with rots := b.rots.set rotStart k p.queue, selAt := s.tick / 2 + 1 })

/-- Class returns to BaseClass and the waiting clock restarts (R263). -/
def restartAging (q : Nat) (s : State) : State :=
  s.setJq q { s.jq q with cls := s.fld (Reg.JQ_CTL q) F.JQ_CTL_BaseClass, since := s.tick, claimAt := s.tick / 2 + 1 }

/-- Entry `x` of queue `q` becomes the current job of engine `n` (R198, R214). -/
def giveJob (n q : Nat) (x : JqEnt) (s : State) : State :=
  let x := { x with st := .claimed, claim := n }
  let s := putEnt q x s
  let ws := ((findEnt q x.idx s).map (·.words)).getD x.words
  let s := if n / 16 = jqHome q s then s else s.countUp (Reg.JQ_CNT_AWAY q) F.JQ_CNT_AWAY_Count
  let rd := match (s.eng n).wait with | .job rd _ => rd | _ => 0
  let s := wakeEng n (setG n rd 0 s)
  s.setEng n { s.eng n with
    jobValid := true, jobQueue := q, jobIdx := x.idx, jobd := ws, dl := descDeadline ws, dlArmed := true, hint := none }

/-- The ring slot of a fetch is uncorrectable (R284). -/
def fetchPoisoned (q : Nat) (x : JqEnt) (s : State) : Bool := anyPoison (entSlot q x.idx s) 64 s


/-- The delivery of a pick (R260, "deliver"); `ue` where the fetch finds the entry uncorrectable (R284). -/
def deliver (c n : Nat) (p : Pick) (ue : Bool) (s : State) : State :=
  let s := moveRot c p s
  let s := s.setEng n { s.eng n with hint := none }
  match oldestDeliverable p.queue s with
  | none => s
  | some x =>
    let a := entSlot p.queue x.idx s
    let s := touchRow a 64 (if ue then foundBad [a] s else s)
    if fetchPoisoned p.queue x s then
      onQueue p.queue (failEnt p.queue x 0xFE 0xFF) (noteUes (entSlot p.queue x.idx s) 64 3 s)
    else onQueue p.queue (fun s => restartAging p.queue (giveJob n p.queue x s)) s

/-- The broker of cluster `c` acts in this ENG cycle. One that loses its claim selects again in the next (R262). -/
def brokerAct (c : Nat) (ue : Bool) (s : State) : State :=
  match selection c s with
  | none => s
  | some (n, p) =>
    if (s.jq p.queue).claimAt = s.tick / 2 + 1 || outranked c p.queue s then moveRot c p s else deliver c n p ue s

/-! ### Returns (R268) -/

/-- A job on its way back reaches its queue. -/
def returnJob (n : Nat) (s : State) : State :=
  match (s.eng n).returns with
  | [] => s
  | r :: rest =>
    let s := s.setEng n { s.eng n with returns := rest }
    if r.parked then unclaim r.queue r.idx s
    else
      let s := failJob r.queue r.idx 0xFF n s
      if r.logged then s.logFault n 1 1 n r.faultLt s.lt else s

/-! ### The commands -/

/-- JOB_DELIVERY. -/
def execJobDelivery (c : Probe) (s : State) : Out := .next (brokerAct c.num c.ue s)

/-- JOB_RETURN. -/
def execJobReturn (n : Nat) (s : State) : Out := .next (returnJob n s)

end Sys2Proof.Machine
end

