-- ==== Sys2Proof/Machine/CueEffect.lean ====
section
/-!
DEFINITION. The effect of a cue at its target (R34, R46, R48): a generator's start, a firing program's start, a
pin action, a capture record and with it a product detection (R7, R51).
-/
namespace Sys2Proof.Machine

/-- The effects of a target that fall in this tick, by slot, a SOURCE edge that holds no slot last (R48). -/
def effectsNow (n : Nat) (s : State) : List Flight :=
  let now := (s.target n).flights.filter (fun f => f.due = s.tick)
  ([0, 1, 2, 3].flatMap (fun k => now.filter (fun f => f.slot = some k))) ++ now.filter (fun f => f.slot.isNone)

/-- Effects merged into one: each extra one counts. -/
def countMerged (n extra : Nat) (s : State) : State :=
  s.setFld (Reg.CQ_MERGE n) F.CQ_MERGE_MergeCount
    (clampNat 0 (2 ^ F.CQ_MERGE_MergeCount.width - 1) (s.fld (Reg.CQ_MERGE n) F.CQ_MERGE_MergeCount + extra))

/-- A capture unit's effect. The product-detect unit writes its record to the Ledger and not to its FIFO (R180). -/
def captureEffect (u : Nat) (f : Flight) (s : State) : State :=
  if plEnabled s && s.fld Reg.PL_CTL F.PL_CTL_DetectCap = u then productDetect (captureOf u f s) s
  else captureRecord u f s

/-- The target acts. -/
def actAtTarget (n : Nat) (fs : List Flight) (s : State) : State :=
  match fs with
  | [] => s
  | f :: _ =>
    if n < 512 then pgStart n s.tick s
    else if n < 640 then dacStart (n - 512) s
    else if n < 896 then fs.foldl (fun s f => lioCueAction (n - 640) f.action f.level s) s
    else captureEffect (n - 896) f s

/-- The effects of target `n` in this tick. -/
def effectAt (n : Nat) (s : State) : State :=
  let fs := effectsNow n s
  if fs.isEmpty then s
  else
    let t := s.target n
    let s := s.setTarget n { t with flights := t.flights.filter (fun f => f.due != s.tick) }
    actAtTarget n fs (countMerged n (fs.length - 1) s)

/-- CUE_EFFECT. -/
def execCueEffect (n : Nat) (s : State) : Out := .next (effectAt n s)

end Sys2Proof.Machine
end

