-- ==== Sys2Proof/Machine/Operands.lean ====
section
/-!
DEFINITION. Operand forms of the Hennath instructions (chapter 10): immediates, lanes of a vector register,
saturation, GF(2^8), and one builder for each shape of instruction.
-/
namespace Sys2Proof.Machine

/-! ### Scalar operands (R199, R227, R228) -/

def sextImm (i : BitVec 14) : Word := i.signExtend 32

def zextImm (i : BitVec 14) : Word := i.setWidth 32

def sextAddr (i : BitVec 14) : Addr := i.signExtend 48

/-- Signed saturation to `w` bits. -/
def satS (w : Nat) (x : Int) : BitVec w :=
  BitVec.ofInt w (clampInt (-(2 ^ (w - 1) : Nat)) ((2 ^ (w - 1) : Nat) - 1) x)

/-- Unsigned saturation to `w` bits, floor 0. -/
def satU (w : Nat) (x : Int) : BitVec w := BitVec.ofInt w (clampInt 0 ((2 ^ w : Nat) - 1) x)

def addSat {w : Nat} (x y : BitVec w) : BitVec w := satS w (x.toInt + y.toInt)

def subSat {w : Nat} (x y : BitVec w) : BitVec w := satS w (x.toInt - y.toInt)

def addSatU {w : Nat} (x y : BitVec w) : BitVec w := satU w (x.toNat + y.toNat)

def subSatU {w : Nat} (x y : BitVec w) : BitVec w := satU w ((x.toNat : Int) - y.toNat)

def minS {w : Nat} (x y : BitVec w) : BitVec w := if x.toInt ≤ y.toInt then x else y

def maxS {w : Nat} (x y : BitVec w) : BitVec w := if x.toInt ≤ y.toInt then y else x

def minU {w : Nat} (x y : BitVec w) : BitVec w := if x.toNat ≤ y.toNat then x else y

def maxU {w : Nat} (x y : BitVec w) : BitVec w := if x.toNat ≤ y.toNat then y else x

/-- The upper 32 bits of the exact product. -/
def mulHighS (x y : Word) : Word := BitVec.ofInt 32 (x.toInt * y.toInt / 2 ^ 32)

def mulHighU (x y : Word) : Word := BitVec.ofNat 32 (x.toNat * y.toNat / 2 ^ 32)

/-! ### Bits (R231) -/

def wordBits (x : Word) : List Bool := (List.range 32).map (fun i => x.getLsbD i)

def popCount (x : Word) : Word := BitVec.ofNat 32 ((wordBits x).filter id).length

/-- Zero bits before the first 1 bit of a list. -/
def zerosBefore (l : List Bool) : Nat := (l.takeWhile not).length

def clz (x : Word) : Word := BitVec.ofNat 32 (zerosBefore (wordBits x).reverse)

def ctz (x : Word) : Word := BitVec.ofNat 32 (zerosBefore (wordBits x))

def fromBits : List Bool → Nat
  | [] => 0
  | b :: l => b2n b + 2 * fromBits l

def bitRev (x : Word) : Word := BitVec.ofNat 32 (fromBits (wordBits x).reverse)

def byteSwap (x : Word) : Word := BitVec.ofNat 32 (leNat (leBytes 4 x.toNat).reverse)

/-- Bits `pos + len - 1` to `pos`. -/
def field (x : Word) (pos len : Nat) : Nat := slice x.toNat pos len

def fieldS (x : Word) (pos len : Nat) : Word := BitVec.ofInt 32 (sx len (field x pos len))

def insField (old x : Word) (pos len : Nat) : Word := (Fld.mk pos len).put old x.toNat

def fieldOk (pos len : Nat) : Bool := decide (pos < 32) && decide (1 ≤ len) && decide (pos + len ≤ 32)

/-! ### GF(2^8) (R230) -/

/-- The low eight bits of the field polynomial that Sel names. -/
def gfPoly (sel : BitVec 2) : Byte :=
  match sel.toNat with
  | 0 => 0x1D
  | 1 => 0x2D
  | 2 => 0x1B
  | _ => 0x87

/-- One step of the product: the partial product times x, plus `x` where the bit of `y` is 1. -/
def gfStep (sel : BitVec 2) (x y r : Byte) (i : Nat) : Byte :=
  let r' := if r.getLsbD 7 then (r <<< 1) ^^^ gfPoly sel else r <<< 1
  if y.getLsbD i then r' ^^^ x else r'

/-- gfmul of R230. -/
def gfMul (sel : BitVec 2) (x y : Byte) : Byte := [7, 6, 5, 4, 3, 2, 1, 0].foldl (gfStep sel x y) 0

/-! ### Lanes (R235) -/

/-- lane(v, w, i). -/
def lane (w : Nat) {m : Nat} (x : BitVec m) (i : Nat) : BitVec w := x.extractLsb' (w * i) w

/-- The `m` bits whose lane `i` of width `w` is `f i`. -/
def ofLanes (w m : Nat) (f : Nat → BitVec w) : BitVec m :=
  (List.range (m / w)).foldl (fun r i => r ||| ((f i).setWidth m <<< (w * i))) 0

def lanes2 (w : Nat) (f : BitVec w → BitVec w → BitVec w) (x y : Vec) : Vec :=
  ofLanes w 128 (fun i => f (lane w x i) (lane w y i))

/-- The bytes of a word, one by one. -/
def bytes2 (f : Byte → Byte → Byte) (x y : Word) : Word := ofLanes 8 32 (fun i => f (lane 8 x i) (lane 8 y i))

/-- Lane width of es. -/
def laneW (es : BitVec 2) : Nat :=
  match es.toNat with
  | 0 => 8
  | 1 => 16
  | 2 => 32
  | _ => 128

def esBHW (es : BitVec 2) : Bool := decide (es.toNat < 3)

def esHW (es : BitVec 2) : Bool := es.toNat = 1 || es.toNat = 2

def esBH (es : BitVec 2) : Bool := decide (es.toNat < 2)

def esH (es : BitVec 2) : Bool := es.toNat = 1

def esB (es : BitVec 2) : Bool := es.toNat = 0

def esQ (es : BitVec 2) : Bool := es.toNat = 3

def allOnes (w : Nat) (b : Bool) : BitVec w := if b then BitVec.allOnes w else 0

/-- The exact sum of a and b and 1, halved. -/
def avgU {w : Nat} (x y : BitVec w) : BitVec w := BitVec.ofNat w ((x.toNat + y.toNat + 1) / 2)

/-- A shift count of w or more gives 0. -/
def shlLane {w : Nat} (k : Nat) (x : BitVec w) : BitVec w := x <<< k

def shrLane {w : Nat} (k : Nat) (x : BitVec w) : BitVec w := x >>> k

/-- A shift count of w or more gives the sign in every bit. -/
def sraLane {w : Nat} (k : Nat) (x : BitVec w) : BitVec w := x.sshiftRight k

/-! ### Builders -/

def opG (cls rd : Nat) (rds : List Nat) (ok : Bool) : Op :=
  { cls := cls, rds := rds, wrs := [rd], legal := isG rd && rds.all isG && ok, room := true }

/-- g[rd] = f g[rs] g[rt]. -/
def gOp3 (cls n rd rs rt : Nat) (f : Word → Word → Word) (s : State) : State :=
  issue n (opG cls rd [rs, rt] true) (fun s => retireNext n (setG n rd (f (s.g n rs) (s.g n rt)) s)) s

/-- g[rd] = f g[rs], for an encoding that is assigned where `ok` holds. -/
def gOp2 (n rd rs : Nat) (ok : Bool) (f : Word → Word) (s : State) : State :=
  issue n (opG clsAlu rd [rs] ok) (fun s => retireNext n (setG n rd (f (s.g n rs)) s)) s

/-- g[rd] = f g[rd] g[rs] g[rt]. -/
def gAcc (cls n rd rs rt : Nat) (f : Word → Word → Word → Word) (s : State) : State :=
  issue n (opG cls rd [rd, rs, rt] true)
    (fun s => retireNext n (setG n rd (f (s.g n rd) (s.g n rs) (s.g n rt)) s)) s

/-- pd = f g[rs] g[rt]. -/
def pOp3 (n pd rs rt : Nat) (f : Word → Word → Bool) (s : State) : State :=
  issue n { cls := clsAlu, rds := [rs, rt], wrs := [regP pd], legal := isP pd && isG rs && isG rt, room := true }
    (fun s => retireNext n (setP n pd (f (s.g n rs) (s.g n rt)) s)) s

/-- pd = f ps pt. -/
def pLogic (n pd ps pt : Nat) (f : Bool → Bool → Bool) (s : State) : State :=
  issue n { cls := clsAlu, rds := [regP ps, regP pt], wrs := [regP pd], legal := isP pd && isP ps && isP pt, room := true }
    (fun s => retireNext n (setP n pd (f (s.p n ps) (s.p n pt)) s)) s

def opV (cls : Nat) (rds wrs : List Nat) (ok : Bool) : Op :=
  { cls := cls, rds := rds, wrs := wrs, legal := ok, room := true }

/-- v[vd] = f v[vs] v[vt]. -/
def vOp3 (cls n : Nat) (ok : Bool) (vd vs vt : Nat) (f : Vec → Vec → Vec) (s : State) : State :=
  issue n (opV cls [regV vs, regV vt] [regV vd] (ok && isV vd && isV vs && isV vt))
    (fun s => retireNext n (setV n vd (f (s.v n vs) (s.v n vt)) s)) s

/-- v[vd] = f v[vd] v[vs] v[vt]. -/
def vAcc (cls n : Nat) (ok : Bool) (vd vs vt : Nat) (f : Vec → Vec → Vec → Vec) (s : State) : State :=
  issue n (opV cls [regV vd, regV vs, regV vt] [regV vd] (ok && isV vd && isV vs && isV vt))
    (fun s => retireNext n (setV n vd (f (s.v n vd) (s.v n vs) (s.v n vt)) s)) s

/-- v[vd] = f v[vs] g[gt]. -/
def vScal (n : Nat) (ok : Bool) (vd vs gt : Nat) (f : Vec → Word → Vec) (s : State) : State :=
  issue n (opV clsVec [regV vs, gt] [regV vd] (ok && isV vd && isV vs && isGv gt))
    (fun s => retireNext n (setV n vd (f (s.v n vs) (s.g n gt)) s)) s

/-- v[vd] = f v[vs]. -/
def vOp2 (n : Nat) (ok : Bool) (vd vs : Nat) (f : Vec → Vec) (s : State) : State :=
  issue n (opV clsVec [regV vs] [regV vd] (ok && isV vd && isV vs))
    (fun s => retireNext n (setV n vd (f (s.v n vs)) s)) s

/-- g[gd] = f v[vs]. -/
def gOfV (n : Nat) (ok : Bool) (gd vs : Nat) (f : Vec → Word) (s : State) : State :=
  issue n (opV clsVec [regV vs] [gd] (ok && isGv gd && isV vs))
    (fun s => retireNext n (setG n gd (f (s.v n vs)) s)) s

/-- g[gd] = f v[vs] v[vt]. -/
def gOfV2 (n : Nat) (ok : Bool) (gd vs vt : Nat) (f : Vec → Vec → Word) (s : State) : State :=
  issue n (opV clsVec [regV vs, regV vt] [gd] (ok && isGv gd && isV vs && isV vt))
    (fun s => retireNext n (setG n gd (f (s.v n vs) (s.v n vt)) s)) s

end Sys2Proof.Machine
end

