-- ==== Sys2Proof/Machine/Flags.lean ====
section
/-!
DEFINITION. The conditions that Hennath compares write to predicates (R232). Hennath has no arithmetic flags.
-/
namespace Sys2Proof.Machine

def condEq (x y : Word) : Bool := x = y

def condNe (x y : Word) : Bool := x != y

def condLt (x y : Word) : Bool := decide (x.toInt < y.toInt)

def condLtu (x y : Word) : Bool := decide (x.toNat < y.toNat)

def condGe (x y : Word) : Bool := decide (y.toInt ≤ x.toInt)

def condGeu (x y : Word) : Bool := decide (y.toNat ≤ x.toNat)

/-- The condition that cc of CMPI names. -/
def condOf (cc : BitVec 3) : Word → Word → Bool :=
  match cc.toNat with
  | 0 => condEq
  | 1 => condNe
  | 2 => condLt
  | 3 => condLtu
  | 4 => condGe
  | _ => condGeu

end Sys2Proof.Machine
end

