-- ==== Sys2Proof/Machine/EngInt.lean ====
section
/-!
DEFINITION. Integer, address, multiply, scalar GF(2^8), bit and compare instructions and branches
(R227 to R232, R239).
-/
namespace Sys2Proof.Machine

/-! ### Op 0x00 (R227) -/

/-- ADD. -/
def execAdd (n rd rs rt : Nat) (s : State) : Out := .next (gOp3 clsAlu n rd rs rt (fun x y => x + y) s)

/-- SUB. -/
def execSub (n rd rs rt : Nat) (s : State) : Out := .next (gOp3 clsAlu n rd rs rt (fun x y => x - y) s)

/-- AND. -/
def execAnd (n rd rs rt : Nat) (s : State) : Out := .next (gOp3 clsAlu n rd rs rt (fun x y => x &&& y) s)

/-- OR. -/
def execOr (n rd rs rt : Nat) (s : State) : Out := .next (gOp3 clsAlu n rd rs rt (fun x y => x ||| y) s)

/-- XOR. -/
def execXor (n rd rs rt : Nat) (s : State) : Out := .next (gOp3 clsAlu n rd rs rt (fun x y => x ^^^ y) s)

/-- ANDN. -/
def execAndn (n rd rs rt : Nat) (s : State) : Out := .next (gOp3 clsAlu n rd rs rt (fun x y => x &&& ~~~y) s)

/-- SHL: by g[rt][4:0]. -/
def execShl (n rd rs rt : Nat) (s : State) : Out := .next (gOp3 clsAlu n rd rs rt (fun x y => x <<< (y.toNat % 32)) s)

/-- SHR. -/
def execShr (n rd rs rt : Nat) (s : State) : Out := .next (gOp3 clsAlu n rd rs rt (fun x y => x >>> (y.toNat % 32)) s)

/-- SRA. -/
def execSra (n rd rs rt : Nat) (s : State) : Out :=
  .next (gOp3 clsAlu n rd rs rt (fun x y => x.sshiftRight (y.toNat % 32)) s)

/-- MIN. -/
def execMin (n rd rs rt : Nat) (s : State) : Out := .next (gOp3 clsAlu n rd rs rt minS s)

/-- MAX. -/
def execMax (n rd rs rt : Nat) (s : State) : Out := .next (gOp3 clsAlu n rd rs rt maxS s)

/-- MINU. -/
def execMinu (n rd rs rt : Nat) (s : State) : Out := .next (gOp3 clsAlu n rd rs rt minU s)

/-- MAXU. -/
def execMaxu (n rd rs rt : Nat) (s : State) : Out := .next (gOp3 clsAlu n rd rs rt maxU s)

/-- ADDS: signed saturating add. -/
def execAdds (n rd rs rt : Nat) (s : State) : Out := .next (gOp3 clsAlu n rd rs rt addSat s)

/-- SUBS: signed saturating subtract. -/
def execSubs (n rd rs rt : Nat) (s : State) : Out := .next (gOp3 clsAlu n rd rs rt subSat s)

/-! ### Immediates (R227) -/

/-- ADDI. -/
def execAddi (n rd rs : Nat) (imm : BitVec 14) (s : State) : Out :=
  .next (gOp2 n rd rs true (fun x => x + sextImm imm) s)

/-- SUBI. -/
def execSubi (n rd rs : Nat) (imm : BitVec 14) (s : State) : Out :=
  .next (gOp2 n rd rs true (fun x => x - sextImm imm) s)

/-- ANDI: the immediate is zero-extended. -/
def execAndi (n rd rs : Nat) (imm : BitVec 14) (s : State) : Out :=
  .next (gOp2 n rd rs true (fun x => x &&& zextImm imm) s)

/-- ORI: the immediate is zero-extended. -/
def execOri (n rd rs : Nat) (imm : BitVec 14) (s : State) : Out :=
  .next (gOp2 n rd rs true (fun x => x ||| zextImm imm) s)

/-- XORI: the immediate is zero-extended. -/
def execXori (n rd rs : Nat) (imm : BitVec 14) (s : State) : Out :=
  .next (gOp2 n rd rs true (fun x => x ^^^ zextImm imm) s)

/-- LUI: imm20 << 12. -/
def execLui (n rd : Nat) (imm : BitVec 20) (s : State) : Out :=
  .next (gOp2 n rd 0 true (fun _ => imm.setWidth 32 <<< 12) s)

/-- Immediate shifts need imm[13:5] to be 0. -/
def shiftOk (imm : BitVec 14) : Bool := decide (imm.toNat < 32)

/-- SHLI. -/
def execShli (n rd rs : Nat) (imm : BitVec 14) (s : State) : Out :=
  .next (gOp2 n rd rs (shiftOk imm) (fun x => x <<< imm.toNat) s)

/-- SHRI. -/
def execShri (n rd rs : Nat) (imm : BitVec 14) (s : State) : Out :=
  .next (gOp2 n rd rs (shiftOk imm) (fun x => x >>> imm.toNat) s)

/-- SRAI. -/
def execSrai (n rd rs : Nat) (imm : BitVec 14) (s : State) : Out :=
  .next (gOp2 n rd rs (shiftOk imm) (fun x => x.sshiftRight imm.toNat) s)

/-! ### Addresses (R228) -/

/-- ADDA. -/
def execAdda (n ad ra : Nat) (imm : BitVec 14) (s : State) : Out :=
  .next (issue n { cls := clsAlu, rds := [regA ra], wrs := [regA ad], legal := isA ad && isA ra, room := true }
    (fun s => retireNext n (setA n ad (s.a n ra + sextAddr imm) s)) s)

/-- ADDA_R. -/
def execAddaR (n ad ra rt : Nat) (s : State) : Out :=
  .next (issue n { cls := clsAlu, rds := [regA ra, rt], wrs := [regA ad], legal := isA ad && isA ra && isG rt, room := true }
    (fun s => retireNext n (setA n ad (s.a n ra + (s.g n rt).signExtend 48) s)) s)

/-- LA_LO. -/
def execLaLo (n ad rs : Nat) (s : State) : Out :=
  .next (issue n { cls := clsAlu, rds := [rs], wrs := [regA ad], legal := isA ad && isG rs, room := true }
    (fun s => retireNext n (setA n ad ((s.g n rs).setWidth 48) s)) s)

/-- LA_HI: bits [31:0] of a[rd] are unchanged. -/
def execLaHi (n ad rs : Nat) (s : State) : Out :=
  .next (issue n { cls := clsAlu, rds := [rs, regA ad], wrs := [regA ad], legal := isA ad && isG rs, room := true }
    (fun s => retireNext n (setA n ad (((s.g n rs).setWidth 16) ++ ((s.a n ad).setWidth 32)) s)) s)

/-- MGA_LO. -/
def execMgaLo (n rd ra : Nat) (s : State) : Out :=
  .next (issue n { cls := clsAlu, rds := [regA ra], wrs := [rd], legal := isG rd && isA ra, room := true }
    (fun s => retireNext n (setG n rd ((s.a n ra).setWidth 32) s)) s)

/-- MGA_HI. -/
def execMgaHi (n rd ra : Nat) (s : State) : Out :=
  .next (issue n { cls := clsAlu, rds := [regA ra], wrs := [rd], legal := isG rd && isA ra, room := true }
    (fun s => retireNext n (setG n rd ((s.a n ra >>> 32).setWidth 32) s)) s)

/-! ### Multiply and scalar GF(2^8) (R229, R230) -/

/-- MUL. -/
def execMul (n rd rs rt : Nat) (s : State) : Out := .next (gOp3 clsMul n rd rs rt (fun x y => x * y) s)

/-- MULHS. -/
def execMulhs (n rd rs rt : Nat) (s : State) : Out := .next (gOp3 clsMul n rd rs rt mulHighS s)

/-- MULHU. -/
def execMulhu (n rd rs rt : Nat) (s : State) : Out := .next (gOp3 clsMul n rd rs rt mulHighU s)

/-- MAC. -/
def execMac (n rd rs rt : Nat) (s : State) : Out := .next (gAcc clsMul n rd rs rt (fun d x y => d + x * y) s)

/-- MSU. -/
def execMsu (n rd rs rt : Nat) (s : State) : Out := .next (gAcc clsMul n rd rs rt (fun d x y => d - x * y) s)

/-- GFMUL. -/
def execGfmul (n : Nat) (sel : BitVec 2) (rd rs rt : Nat) (s : State) : Out :=
  .next (gOp3 clsMul n rd rs rt (bytes2 (gfMul sel)) s)

/-- GFMAC. -/
def execGfmac (n : Nat) (sel : BitVec 2) (rd rs rt : Nat) (s : State) : Out :=
  .next (gAcc clsMul n rd rs rt (fun d x y => d ^^^ bytes2 (gfMul sel) x y) s)

/-! ### Bits (R231) -/

/-- POPC. -/
def execPopc (n rd rs : Nat) (s : State) : Out := .next (gOp2 n rd rs true popCount s)

/-- CLZ. -/
def execClz (n rd rs : Nat) (s : State) : Out := .next (gOp2 n rd rs true clz s)

/-- CTZ. -/
def execCtz (n rd rs : Nat) (s : State) : Out := .next (gOp2 n rd rs true ctz s)

/-- BREV. -/
def execBrev (n rd rs : Nat) (s : State) : Out := .next (gOp2 n rd rs true bitRev s)

/-- BSWAP. -/
def execBswap (n rd rs : Nat) (s : State) : Out := .next (gOp2 n rd rs true byteSwap s)

/-- BFXU. -/
def execBfxu (n rd rs pos len : Nat) (s : State) : Out :=
  .next (gOp2 n rd rs (fieldOk pos len) (fun x => BitVec.ofNat 32 (field x pos len)) s)

/-- BFXS. -/
def execBfxs (n rd rs pos len : Nat) (s : State) : Out :=
  .next (gOp2 n rd rs (fieldOk pos len) (fun x => fieldS x pos len) s)

/-- BFI: the other bits of g[rd] are unchanged. -/
def execBfi (n rd rs pos len : Nat) (s : State) : Out :=
  .next (issue n (opG clsAlu rd [rd, rs] (fieldOk pos len))
    (fun s => retireNext n (setG n rd (insField (s.g n rd) (s.g n rs) pos len) s)) s)

/-! ### Compare, predicates, select (R232) -/

/-- CMPEQ. -/
def execCmpeq (n pd rs rt : Nat) (s : State) : Out := .next (pOp3 n pd rs rt condEq s)

/-- CMPNE. -/
def execCmpne (n pd rs rt : Nat) (s : State) : Out := .next (pOp3 n pd rs rt condNe s)

/-- CMPLT. -/
def execCmplt (n pd rs rt : Nat) (s : State) : Out := .next (pOp3 n pd rs rt condLt s)

/-- CMPLTU. -/
def execCmpltu (n pd rs rt : Nat) (s : State) : Out := .next (pOp3 n pd rs rt condLtu s)

/-- CMPGE. -/
def execCmpge (n pd rs rt : Nat) (s : State) : Out := .next (pOp3 n pd rs rt condGe s)

/-- CMPGEU. -/
def execCmpgeu (n pd rs rt : Nat) (s : State) : Out := .next (pOp3 n pd rs rt condGeu s)

/-- CMPI: cc 0b110 and 0b111 raise ILLEGAL. -/
def execCmpi (n : Nat) (cc : BitVec 3) (pd rs : Nat) (imm : BitVec 14) (s : State) : Out :=
  .next (issue n { cls := clsAlu, rds := [rs], wrs := [regP pd], legal := isP pd && isG rs && decide (cc.toNat < 6), room := true }
    (fun s => retireNext n (setP n pd (condOf cc (s.g n rs) (sextImm imm)) s)) s)

/-- PAND. -/
def execPand (n pd ps pt : Nat) (s : State) : Out := .next (pLogic n pd ps pt (fun x y => x && y) s)

/-- POR. -/
def execPor (n pd ps pt : Nat) (s : State) : Out := .next (pLogic n pd ps pt (fun x y => x || y) s)

/-- PXOR. -/
def execPxor (n pd ps pt : Nat) (s : State) : Out := .next (pLogic n pd ps pt (fun x y => x != y) s)

/-- PANDN. -/
def execPandn (n pd ps pt : Nat) (s : State) : Out := .next (pLogic n pd ps pt (fun x y => x && !y) s)

/-- SEL. -/
def execSel (n rd rs rt p : Nat) (s : State) : Out :=
  .next (issue n { cls := clsAlu, rds := [rs, rt, regP p], wrs := [rd], legal := isG rd && isG rs && isG rt && isP p, room := true }
    (fun s => retireNext n (setG n rd (if s.p n p then s.g n rs else s.g n rt) s)) s)

/-! ### Branches (R239) -/

/-- The target of a format B branch (R199). -/
def branchTarget (pc : Addr) (off : BitVec 20) : Addr := pc + (off.signExtend 48 <<< 2)

/-- A branch on predicate `p`, taken where it reads `want`. -/
def branchOn (n p : Nat) (want : Bool) (off : BitVec 20) (s : State) : State :=
  issue n { cls := clsBr, rds := [regP p], wrs := [], legal := isP p, room := true }
    (fun s => if s.p n p = want then retireTo n (branchTarget (s.eng n).pc off) s else retireNext n s) s

/-- BR. -/
def execBr (n pr : Nat) (off : BitVec 20) (s : State) : Out := .next (branchOn n pr true off s)

/-- BRF. -/
def execBrf (n pr : Nat) (off : BitVec 20) (s : State) : Out := .next (branchOn n pr false off s)

/-- BRA. -/
def execBra (n : Nat) (off : BitVec 20) (s : State) : Out :=
  .next (issue n { cls := clsBr, rds := [], wrs := [], legal := true, room := true }
    (fun s => retireTo n (branchTarget (s.eng n).pc off) s) s)

/-- CALL: a15 = pc + 4. -/
def execCall (n : Nat) (off : BitVec 20) (s : State) : Out :=
  .next (issue n { cls := clsBr, rds := [], wrs := [regA 15], legal := true, room := true }
    (fun s => retireTo n (branchTarget (s.eng n).pc off) (setA n 15 ((s.eng n).pc + 4) s)) s)

/-- JR. -/
def execJr (n ra : Nat) (s : State) : Out :=
  .next (issue n { cls := clsBr, rds := [regA ra], wrs := [], legal := isA ra, room := true }
    (fun s => retireTo n (s.a n ra) s) s)

/-- JALR: the target is read before the link is written. -/
def execJalr (n ad ra : Nat) (s : State) : Out :=
  .next (issue n { cls := clsBr, rds := [regA ra], wrs := [regA ad], legal := isA ad && isA ra, room := true }
    (fun s => retireTo n (s.a n ra) (setA n ad ((s.eng n).pc + 4) s)) s)

end Sys2Proof.Machine
end

