-- ==== Sys2Proof/Machine/EngMem.lean ====
section
/-!
DEFINITION. Loads, stores and DMA of the Mark Engines (R207, R215 to R217, R233, R234): the store buffer, the
loads on their way, and the accesses of an engine to the memories and the control region.
-/
namespace Sys2Proof.Machine

/-! ### Order (R207) -/

/-- Two accesses that take effect in program order: they share a byte, or both reach the control region. -/
def ordered (a n b m : Nat) : Bool := meets a n b m || (decide (a < 0x1000000) && decide (b < 0x1000000))

/-- Must load `k` wait for an earlier access? Stores that only share bytes are forwarded. A read of the control
region, which may change what it reads, waits for the loads before it, as their BUS must be precise (R205). -/
def loadBlocked (e : Engine) (k : Nat) (l : EngLoad) : Bool :=
  (e.loads.take k).any (fun x => ordered x.addr x.size l.addr l.size || decide (l.addr < 0x1000000)) ||
    (e.stores.take l.after).any (fun x => decide (x.addr < 0x1000000) && decide (l.addr < 0x1000000))

/-- Does an outstanding load come before store `k`? The store waits for it: it takes no effect before the load's BUS,
which is precise (R205). -/
def loadFirst (e : Engine) (k : Nat) : Bool := e.loads.any (fun l => decide (l.after ≤ k))

def storeBlocked (e : Engine) (k : Nat) (x : EngStore) (s : State) : Bool :=
  frozenIn x.addr x.bytes.length s || (e.stores.take k).any (fun y => ordered y.addr y.bytes.length x.addr x.bytes.length) || loadFirst e k

/-- May every store of the buffer reach its memory now, in program order? -/
def canDrain (e : Engine) : Bool := e.stores.zipIdx.all (fun x => !loadFirst e x.2)

/-! ### The accesses -/

/-- A store of engine `n` reaches its memory. -/
def engStore (n a : Nat) (bs : List Byte) (s : State) : State :=
  match regionOf a s with
  | .control => regStore (.engine n) a bs s
  | .pocket _ => s.put a bs
  | .store c => if n / 16 = c then storeWrite c true (n % 16) a bs s else storeWrite c false (portB 5 n) a bs s
  | _ => putPiece 5 n a bs s

/-- The bytes that an access of engine `n` reads. -/
def engBytes (n a size : Nat) (s : State) : List Byte × State :=
  match regionOf a s with
  | .control => regBytes (.engine n) a size s
  | .store c => (portBytes (n / 16 = c) a size s, touchRow a size s)
  | _ => (s.bytes a size, touchRow a size s)

/-- The newest byte at `a` among stores, oldest first. -/
def forwarded (l : List EngStore) (a : Nat) : Option Byte :=
  l.foldl (fun r x => if x.addr ≤ a && a < x.addr + x.bytes.length then x.bytes[a - x.addr]? else r) none

/-- Bytes read from memory, with those of earlier stores in their place. -/
def overlay (l : List EngStore) (a : Nat) (bs : List Byte) : List Byte :=
  bs.zipIdx.map (fun b => (forwarded l (a + b.2)).getD b.1)

/-- The bytes of a load that come from memory and not from the store buffer. -/
def fromMemory (l : List EngStore) (a size : Nat) : List Nat :=
  ((List.range size).map (fun i => a + i)).filter (fun x => (forwarded l x).isNone)

/-- An uncorrectable word found by a read of engine `n` (R284, R298). -/
def engUe (a : Nat) (s : State) : State :=
  match memIdOf a s with
  | some m => ueChip m a s
  | none => if inLpddr a s then lpddrUe a 5 s else s

/-! ### Loads (R196, R233) -/

def loadWord (signed : Bool) (bs : List Byte) : Word :=
  if signed then BitVec.ofInt 32 (sx (8 * bs.length) (leNat bs)) else BitVec.ofNat 32 (leNat bs)

/-- What the engine's context was. -/
def ctxOf (e : Engine) : EngCtx :=
  EngCtx.mk e.g e.a e.v e.p e.priv e.exl e.ie e.prevPriv e.prevIe e.epc e.ecause e.eaddr

/-- A result that returns also stands in what the loads behind it, from place `k` on, would go back to. -/
def laterLoads (n k : Nat) (f : EngCtx → EngCtx) (s : State) : State :=
  let e := s.eng n
  s.setEng n { e with loads := e.loads.zipIdx.map (fun x => if k ≤ x.2 then { x.1 with ctx := f x.1.ctx } else x.1) }

/-- A late result of register g[r]. -/
def lateG (n k r : Nat) (v : Word) (s : State) : State :=
  setG n r v (if r = 0 then s else laterLoads n k (fun c => { c with g := c.g.set 0 r v }) s)

/-- The load that stood at place `k` brings its data. -/
def finishLoad (n k : Nat) (l : EngLoad) (bs : List Byte) (s : State) : State :=
  if l.vec then
    let x := BitVec.ofNat 128 (leNat bs)
    setV n l.rd x (laterLoads n k (fun c => { c with v := c.v.set 0 l.rd x }) s)
  else lateG n k l.rd (loadWord l.signed bs) s

/-- BUS of a load that met an uncorrectable error, precise: what was issued behind it is undone, and EPC is the load
(R205, R233). A HALTED engine stays HALTED. -/
def failLoadEng (n : Nat) (l : EngLoad) (s : State) : State :=
  let st := (s.eng n).st
  let c := l.ctx
  let go := fun s =>
    let e := s.eng n
    syncExc n excBus l.pc l.pc (BitVec.ofNat 48 l.addr) (s.setEng n { e with
      g := c.g, a := c.a, v := c.v, p := c.p, priv := c.priv, exl := c.exl, ie := c.ie, prevPriv := c.prevPriv,
      prevIe := c.prevIe, epc := c.epc, ecause := c.ecause, eaddr := c.eaddr, loads := [],
      stores := e.stores.take l.after, last := none })
  if st = .run || st = .wait then go s
  else if st = .halted then
    let s := go s
    if (s.eng n).st = .run then s.setEng n { s.eng n with st := .halted } else s
  else s

/-- Load `k` fails: BUS, once no load is before it. -/
def loadBad (n k : Nat) (l : EngLoad) (s : State) : State :=
  if k = 0 then failLoadEng n l s
  else s.setEng n { s.eng n with loads := (s.eng n).loads.set k { l with bad := true } }

/-- The load's READ has been answered: data or BUS. -/
def seamLoad (n k : Nat) (l : EngLoad) (p : Nat × Nat) (s : State) : State :=
  match s.seam.dones.find? (fun d => d.req = .engine n && d.port = p.1 && d.tid = p.2 && d.addr = l.addr) with
  | none => s
  | some d =>
    let e := s.eng n
    let s := s.setSeam { s.seam with dones := s.seam.dones.erase d }
    if d.status = stOk then
      let s := s.setEng n { e with loads := e.loads.eraseIdx k }
      finishLoad n k l (overlay (e.stores.take l.after) l.addr (fit l.size d.data)) s
    else loadBad n k l s

/-- Load `k` of engine `n` comes back; `ue` where its memory found an uncorrectable error in it. -/
def loadReturn (n k : Nat) (ue : Bool) (s : State) : State :=
  let e := s.eng n
  match e.loads[k]? with
  | none => s
  | some l =>
    if l.bad then (if k = 0 then failLoadEng n l s else s)
    else if loadBlocked e k l then s
    else match l.seam with
      | some p => seamLoad n k l p s
      | none =>
        let before := e.stores.take l.after
        let mem := fromMemory before l.addr l.size
        let done := fun s => s.setEng n { e with loads := e.loads.eraseIdx k }
        match regionOf l.addr s with
        | .control =>
          let (bs, s) := engBytes n l.addr l.size (done s)
          finishLoad n k l bs s
        | .asleep _ => loadBad n k l (noteAsleep l.addr s)
        | _ =>
          if frozenIn l.addr l.size s then s
          else if mem.any (fun a => s.poisoned a) then loadBad n k l (noteUes l.addr l.size 5 (touchRow l.addr l.size s))
          else if ue && !mem.isEmpty then loadBad n k l (engUe l.addr (touchRow l.addr l.size s))
          else
            let (bs, s) := engBytes n l.addr l.size (done s)
            finishLoad n k l (overlay before l.addr bs) s

/-- The address of a format M access (R199). -/
def addrOf (n ra : Nat) (off : BitVec 14) (size : Nat) (s : State) : Nat :=
  (s.a n ra + sextAddr off * BitVec.ofNat 48 size).toNat

/-- A load issues. -/
def beginLoad (n a size : Nat) (signed vec : Bool) (rd : Nat) (s : State) : State :=
  match accessCause n false a size s with
  | some k => raiseExc n k (BitVec.ofNat 48 a) (noteRefused n false a size s)
  | none =>
    let (tag, s) := if isSeam a s then windowRead (.engine n) 0 a size s else (none, s)
    let e := s.eng n
    retireNext n (s.setEng n { e with
      loads := e.loads ++ [EngLoad.mk e.pc a size signed vec rd tag e.stores.length false (ctxOf e)] })

def load (n : Nat) (signed vec : Bool) (size rd ra : Nat) (off : BitVec 14) (s : State) : State :=
  let a := addrOf n ra off size s
  issue n { cls := clsMem, rds := [regA ra], wrs := [if vec then regV rd else rd],
            legal := isA ra && (if vec then isV rd else isG rd),
            room := decide ((s.eng n).loads.length < 8) && readRoom a s }
    (beginLoad n a size signed vec rd) s

/-! ### Stores -/

def beginStore (n a : Nat) (bs : List Byte) (s : State) : State :=
  match accessCause n true a bs.length s with
  | some k => raiseExc n k (BitVec.ofNat 48 a) (noteRefused n true a bs.length s)
  | none =>
    let e := s.eng n
    retireNext n (s.setEng n { e with stores := e.stores ++ [EngStore.mk a bs] })

def store (n : Nat) (vec : Bool) (size rd ra : Nat) (off : BitVec 14) (s : State) : State :=
  let a := addrOf n ra off size s
  issue n { cls := clsMem, rds := [regA ra, if vec then regV rd else rd], wrs := [],
            legal := isA ra && (if vec then isV rd else isG rd), room := decide ((s.eng n).stores.length < 8) }
    (fun s => beginStore n a (leBytes size (if vec then (s.v n rd).toNat else (s.g n rd).toNat)) s) s

/-- Store `k` leaves the buffer and takes effect. -/
def performStore (n k : Nat) (x : EngStore) (s : State) : State :=
  let e := s.eng n
  let s := s.setEng n { e with
    stores := e.stores.eraseIdx k,
    loads := e.loads.map (fun l => { l with after := if k < l.after then l.after - 1 else l.after }) }
  engStore n x.addr x.bytes s

/-- Store `k` is acknowledged; `ue` where its merge finds its word uncorrectable (R275, R294). -/
def storeAck (n k : Nat) (ue : Bool) (s : State) : State :=
  let e := s.eng n
  match e.stores[k]? with
  | none => s
  | some x =>
    if storeBlocked e k x s then s
    else performStore n k x (if ue then foundBad (partWords x.addr x.bytes.length) s else s)

/-- Every store of the buffer takes effect, oldest first. -/
def drainStores (n : Nat) (s : State) : State :=
  (s.eng n).stores.foldl (fun s x => performStore n 0 x s) s

/-- FENCE.S before `f` (R208). A store to the engine's own control registers may stop the engine. -/
def afterStores (n : Nat) (f : State → State) (s : State) : State :=
  let s := drainStores n s
  if (s.eng n).st = .run then f s else s

/-! ### DMA (R215 to R217, R234) -/

def dmaWord (d : EngDma) (i : Nat) : Nat := (wordAt d.words i).toNat

def dmaFill (d : EngDma) : Bool := bitN (dmaWord d 3) 16

def dmaRowBytes (d : EngDma) : Nat := dmaWord d 4 % 2 ^ 24

def dmaRows (d : EngDma) : Nat := dmaWord d 7 % 2 ^ 16 + 1

def dmaCookie (d : EngDma) : Nat := dmaWord d 7 / 2 ^ 16

/-- First address of row `r`: source, destination. -/
def dmaSrc (d : EngDma) (r : Nat) : Nat :=
  ux 48 (((dmaWord d 0 + 2 ^ 32 * (dmaWord d 1 % 2 ^ 16) : Nat) : Int) + (r : Int) * (wordAt d.words 5).toInt)

def dmaDst (d : EngDma) (r : Nat) : Nat :=
  ux 48 (((dmaWord d 2 + 2 ^ 32 * (dmaWord d 3 % 2 ^ 16) : Nat) : Int) + (r : Int) * (wordAt d.words 6).toInt)

/-- RowBytes is not 0 and every reserved field is. -/
def dmaLegal (ws : List Word) : Bool :=
  let w := fun i => (wordAt ws i).toNat
  decide (w 1 < 2 ^ 16) && decide (w 3 < 2 ^ 18) && w 4 != 0 && decide (w 4 < 2 ^ 24)

/-- May the DMA of engine `n` reach the byte at `a`? Every Pocket is reached; the control region is no memory. -/
def dmaReaches (n : Nat) (user write : Bool) (a : Nat) (s : State) : Bool :=
  let r := regionOf a s
  r != .control && !(user && superOnly r) && match r with
    | .pocket _ => true
    | _ => (placeCause n (!user) write a 1 s).isNone

/-- The first check of a row: rights, regions of R203 at USER, and the bounds of the memories. -/
def dmaRowOk (n : Nat) (user write : Bool) (a size : Nat) (s : State) : Bool :=
  (!user || meRgnAllows n a size (if write then F.ME_RGN_HI_Write else F.ME_RGN_HI_Read) s) &&
    (List.range size).all (fun i => dmaReaches n user write (a + i) s)

/-- What a row turned away leaves: RegionViolation, RetAccess. -/
def dmaTurned (n : Nat) (user write : Bool) (a size : Nat) (s : State) : State :=
  match ((List.range size).map (fun i => a + i)).find? (fun x => !dmaReaches n user write x s) with
  | some x => noteAsleep x (noteFence (.engine n (!user)) write x 1 s)
  | none => s

/-- A piece of a row, of at most 64 bytes within one 64-byte block, class 4 of R278. -/
def dmaPut (n a : Nat) (bs : List Byte) (s : State) : State :=
  match regionOf a s with
  | .pocket _ => s.put a bs
  | .seam _ => windowWrite a bs s
  | _ => putPiece 4 n a bs s

/-- The status of a ticket is kept while it is among the 16 most recent ones. -/
def noteTicket (t : Nat) (bad : Bool) (e : Engine) : Engine :=
  let age := fun (x : Nat) => (e.nextTicket + 2 ^ 16 - x) % 2 ^ 16
  if 2 ^ 16 ≤ t then e
  else { e with tickets := (e.tickets.filter (fun x => x.1 != t && decide (age x.1 ≤ 16))) ++ [(t, bad)] }

/-- The oldest descriptor ends well. -/
def dmaEnd (n : Nat) (d : EngDma) (s : State) : State :=
  let e := noteTicket d.ticket false (s.eng n)
  let s := s.setEng n { e with dmas := e.dmas.drop 1 }
  if bitN (dmaWord d 3) 17 then localEvent n 14 s else s

/-- The oldest descriptor fails: it and the later ones end with an error, and DMAERR waits (R217). -/
def dmaFail (n : Nat) (d : EngDma) (s : State) : State :=
  let e := (s.eng n).dmas.foldl (fun e x => noteTicket x.ticket true e) (s.eng n)
  let s := s.setEng n { e with dmas := [], dmaPend := some (dmaCookie d % 256) }
  meFlag n F.ME_STAT_DmaError (s.setFld (Reg.ME_DMASTAT n) F.ME_DMASTAT_ErrCookie (dmaCookie d))

/-- The byte `i` of a row of a fill. -/
def fillByte (d : EngDma) (i : Nat) : Byte := ((leBytes 4 (dmaWord d 0))[i % 4]?).getD 0

/-- A row from this device's memories, or of a fill, moves in ascending order. -/
def dmaMoveRow (n : Nat) (d : EngDma) (r : Nat) (s : State) : State :=
  let src := dmaSrc d r
  let dst := dmaDst d r
  (runsAt 64 ((List.range (dmaRowBytes d)).map (fun i => (dst + i, i)))).foldl (fun s p =>
    let bs := if dmaFill d then p.2.map (fillByte d) else fetchBytes (p.2.map (fun i => src + i)) s
    dmaPut n p.1 bs s) (if dmaFill d then s else touchRow src (dmaRowBytes d) s)

/-- The rows from `r` on, as far as they go by themselves: true where all have moved. -/
def dmaRun (n : Nat) (d : EngDma) : Nat → Nat → State → State
  | 0, _, s => dmaEnd n d s
  | k + 1, r, s =>
    let src := dmaSrc d r
    let dst := dmaDst d r
    let size := dmaRowBytes d
    if !dmaFill d && !dmaRowOk n d.user false src size s then dmaFail n d (dmaTurned n d.user false src size s)
    else if !dmaRowOk n d.user true dst size s then dmaFail n d (dmaTurned n d.user true dst size s)
    else if !dmaFill d && anyPoison src size s then dmaFail n d (noteUes src size 4 s)
    else dmaRun n d k (r + 1) (dmaMoveRow n d r s)

/-- Does the descriptor read through a Seam window? -/
def dmaRemote (d : EngDma) (s : State) : Bool := !dmaFill d && isSeam (dmaSrc d 0) s

def setDma (n : Nat) (d : EngDma) (s : State) : State :=
  let e := s.eng n
  s.setEng n { e with dmas := d :: e.dmas.drop 1 }

/-- The next piece of a descriptor that reads through a Seam window: its READ is issued, or its answer written. -/
def dmaSeam (n : Nat) (d : EngDma) (s : State) : State :=
  let size := dmaRowBytes d
  let r := d.moved / size
  let o := d.moved % size
  let src := dmaSrc d r + o
  if dmaRows d ≤ r then dmaEnd n d s
  else match d.read with
    | some p =>
      match s.seam.dones.find? (fun x => x.req = .engine n && x.port = p.1 && x.tid = p.2 && x.addr = src) with
      | none => s
      | some x =>
        let s := s.setSeam { s.seam with dones := s.seam.dones.erase x }
        if x.status != stOk || x.data.isEmpty then dmaFail n d s
        else
          let s := (runsAt 64 (atAddrs (dmaDst d r + o) x.data)).foldl (fun s q => dmaPut n q.1 q.2 s) s
          setDma n { d with moved := d.moved + x.data.length, read := none } s
    | none =>
      if o = 0 && !(dmaRowOk n d.user false src size s && dmaRowOk n d.user true (dmaDst d r) size s) then dmaFail n d s
      else if !isSeam src s || windowRefuses (winOf src) false s then dmaFail n d s
      else
        let k := Nat.min (Nat.min 224 (size - o)) (4096 - remoteOf src s % 4096)
        let (tag, s) := windowRead (.engine n) 0 src k s
        if tag.isSome then setDma n { d with read := tag } s else s

/-- Does a row of the descriptor meet a frozen bank (R288)? -/
def dmaFrozen (d : EngDma) (s : State) : Bool :=
  s.memt.copies.cells.any (fun c => c.2.isSome) && (List.range (dmaRows d)).any (fun r =>
    frozenIn (dmaDst d r) (dmaRowBytes d) s || (!dmaFill d && frozenIn (dmaSrc d r) (dmaRowBytes d) s))

/-- Words of the source, among those at the addresses `l`, turn out uncorrectable. -/
def dmaBad (d : EngDma) (l : List Nat) (s : State) : State :=
  if dmaFill d then s
  else foundBad (l.filter (fun a => (List.range (dmaRows d)).any (fun r =>
    decide (dmaSrc d r ≤ a) && decide (a < dmaSrc d r + dmaRowBytes d)))) s

/-- The oldest descriptor of engine `n` moves. -/
def dmaStep (n : Nat) (fresh : List Nat) (s : State) : State :=
  match (s.eng n).dmas with
  | [] => s
  | d :: _ =>
    if dmaRemote d s then dmaSeam n d s
    else if dmaFrozen d s then s
    else dmaRun n d (dmaRows d) 0 (dmaBad d fresh s)

/-- DMA issues: the descriptor is copied and a ticket returned. R215 names ILLEGAL for a descriptor that is not
aligned, R234 ALIGN: the model takes R234 (log entry 245). -/
def beginDma (n rd a : Nat) (s : State) : State :=
  if a % 32 != 0 then raiseExc n excAlign (BitVec.ofNat 48 a) s
  else if regionOf a s != .pocket n then raiseExc n excAccess (BitVec.ofNat 48 a) s
  else
    let ws := s.words a 8
    if !dmaLegal ws then raiseExc n excIllegal 0 s
    else
      let e := s.eng n
      let s := s.setEng n { e with
        dmas := e.dmas ++ [EngDma.mk e.nextTicket ws (!e.priv) 0 none], nextTicket := (e.nextTicket + 1) % 2 ^ 16,
        tickets := e.tickets.filter (fun x => decide ((e.nextTicket + 1 + 2 ^ 16 - x.1) % 2 ^ 16 ≤ 16)) }
      retireNext n (setG n rd (BitVec.ofNat 32 e.nextTicket) s)

/-! ### The commands -/

/-- LD.B. -/
def execLdB (n rd ra : Nat) (off : BitVec 14) (s : State) : Out := .next (load n true false 1 rd ra off s)

/-- LD.H. -/
def execLdH (n rd ra : Nat) (off : BitVec 14) (s : State) : Out := .next (load n true false 2 rd ra off s)

/-- LD.W. -/
def execLdW (n rd ra : Nat) (off : BitVec 14) (s : State) : Out := .next (load n false false 4 rd ra off s)

/-- LD.V. -/
def execLdV (n vd ra : Nat) (off : BitVec 14) (s : State) : Out := .next (load n false true 16 vd ra off s)

/-- LDU.B. -/
def execLdBu (n rd ra : Nat) (off : BitVec 14) (s : State) : Out := .next (load n false false 1 rd ra off s)

/-- LDU.H. -/
def execLdHu (n rd ra : Nat) (off : BitVec 14) (s : State) : Out := .next (load n false false 2 rd ra off s)

/-- ST.B. -/
def execStB (n rd ra : Nat) (off : BitVec 14) (s : State) : Out := .next (store n false 1 rd ra off s)

/-- ST.H. -/
def execStH (n rd ra : Nat) (off : BitVec 14) (s : State) : Out := .next (store n false 2 rd ra off s)

/-- ST.W. -/
def execStW (n rd ra : Nat) (off : BitVec 14) (s : State) : Out := .next (store n false 4 rd ra off s)

/-- ST.V. -/
def execStV (n vd ra : Nat) (off : BitVec 14) (s : State) : Out := .next (store n true 16 vd ra off s)

/-- DMA. -/
def execDma (n rd ra : Nat) (off : BitVec 14) (s : State) : Out :=
  let a := addrOf n ra off 32 s
  .next (issue n { cls := clsMem, rds := [regA ra], wrs := [rd], legal := isA ra && isG rd,
                   room := decide ((s.eng n).dmas.length < 8) && canDrain (s.eng n) && (s.eng n).loads.isEmpty }
    (afterStores n (beginDma n rd a)) s)

/-- LOAD_RETURN. -/
def execLoadReturn (n k : Nat) (ue : Bool) (s : State) : Out := .next (loadReturn n k ue s)

/-- STORE_ACKNOWLEDGE. -/
def execStoreAcknowledge (n : Nat) (k : Probe) (s : State) : Out := .next (storeAck n k.num k.ue s)

/-- DMA_COMPLETE. -/
def execDmaComplete (n : Sweep) (s : State) : Out := .next (dmaStep n.num n.fresh s)

end Sys2Proof.Machine
end

