-- ==== Sys2Proof/Machine/EngSys.lean ====
section
/-!
DEFINITION. Queue, cue, time, event and system instructions of the Mark Engines (R240 to R249), special
registers (R197), and what happens to an engine by itself (R206, R210 to R213, R220 to R223).
-/
namespace Sys2Proof.Machine

/-! ### Shapes -/

/-- A field that names a pair of g registers, or 0 for none. -/
def isPair (r : Nat) : Bool := isG r && r % 2 = 0

def pairRegs (r : Nat) : List Nat := if r = 0 then [] else [r, r + 1]

/-- The value of a pair field: 0 where the field is 0. -/
def pairVal (n r : Nat) (s : State) : Nat := if r = 0 then 0 else s.gPair n r

/-- A format S instruction. -/
def sysOp (rds wrs : List Nat) (legal room : Bool) : Op :=
  { cls := clsSys, rds := rds, wrs := wrs, legal := legal, room := room }

/-- Room for an answer (R247). -/
def answerRoom (n : Nat) (s : State) : Bool := decide ((s.eng n).answers.length < 4)

def addAnswer (n rd : Nat) (v : Word) (s : State) : State :=
  let e := s.eng n
  retireNext n (s.setEng n { e with answers := e.answers ++ [EngAnswer.mk rd (some v)] })

/-- The engine issues on while its request is not yet applied. -/
def awaitAnswer (n rd : Nat) (s : State) : State :=
  let e := s.eng n
  retireNext n (s.setEng n { e with answers := e.answers ++ [EngAnswer.mk rd none] })

/-- The first answer for `g[rd]` that is still open takes its value. -/
def fillFirst (rd : Nat) (v : Word) : List EngAnswer → List EngAnswer
  | [] => []
  | x :: l => if x.rd = rd && x.val.isNone then { x with val := some v } :: l else x :: fillFirst rd v l

/-- The request of an instruction has been applied. -/
def fillAnswer (n rd : Nat) (v : Word) (s : State) : State :=
  s.setEng n { s.eng n with answers := fillFirst rd v (s.eng n).answers }

/-- PRIV for a SUPER instruction at USER. -/
def superOnlyOp (n : Nat) (f : State → State) (s : State) : State :=
  if (s.eng n).priv then f s else raiseExc n excPriv 0 s

/-! ### Queue (R240 to R243) -/

/-- QGET. -/
def beginQget (n rd : Nat) (timeout : Nat) (nowait : Bool) (s : State) : State :=
  if (s.eng n).jobValid then raiseExc n excIllegal 0 s
  else if s.bit (Reg.ME_CTL n) F.ME_CTL_Drain then
    retireNext n (setG n rd 2 (s.setEng n { s.eng n with hint := none }))
  else if !nowait then waitEng n (.job rd timeout) s
  else
    let s := brokerAct (n / 16) false (waitEng n (.job rd timeout) s)
    if waitsForJob n s && (selectFor n s).isNone then
      wakeEng n (setG n rd 3 (s.setEng n { s.eng n with hint := none })) else s

/-- The timeout of a waiting QGET. -/
def qgetTimeout (n : Nat) (s : State) : State :=
  let e := s.eng n
  match e.wait with
  | .job rd t =>
    if e.st = .wait && t != 0 && cyclePassed t s then wakeEng n (setG n rd 1 (s.setEng n { e with hint := none })) else s
  | _ => s

/-- The exception of QPUT's descriptor read: one that the engine could not load from raises ACCESS. -/
def qputCause (n a : Nat) (s : State) : Option Nat :=
  if a % 64 != 0 then some excAlign
  else if (accessCause n false a 64 s).isSome then some excAccess
  else none

/-- The answer of the READ for a descriptor behind a Seam window. -/
def qputDone (n a : Nat) (s : State) : Option SeamDone :=
  s.seam.dones.find? (fun d => d.req = .engine n && d.addr = a && decide (64 ≤ d.data.length || d.status != stOk))

/-- QPUT of a descriptor behind a Seam window asks for its bytes once. -/
def qputAsk (n a : Nat) (s : State) : State :=
  if (s.eng n).st = .run && isSeam a s && (qputCause n a s).isNone && readRoom a s && (qputDone n a s).isNone &&
      !s.seam.reqs.any (fun r => r.req = .engine n && r.addr = a) then
    (windowRead (.engine n) 0 a 64 s).2
  else s

def qputReady (n a : Nat) (s : State) : Bool :=
  (qputCause n a s).isSome || (if isSeam a s then (qputDone n a s).isSome else !frozenIn a 64 s)

/-- The bytes of the descriptor, none where they cannot be read. -/
def qputBytes (n a : Nat) (s : State) : Option (List Byte) × State :=
  if isSeam a s then
    match qputDone n a s with
    | some d => (if d.status = stOk then some d.data else none, s.setSeam { s.seam with dones := s.seam.dones.erase d })
    | none => (none, s)
  else if anyPoison a 64 s then (none, noteUes a 64 5 s)
  else
    let (bs, s) := engBytes n a 64 s
    (some bs, s)

/-- QPUT: `v` is g[rd] at issue. -/
def beginQput (n rd a : Nat) (v : Word) (s : State) : State :=
  match qputCause n a s with
  | some k => raiseExc n k (BitVec.ofNat 48 a) (noteRefused n false a 64 s)
  | none =>
    let (bs, s) := qputBytes n a s
    match bs with
    | none => addAnswer n rd 2 s
    | some bs =>
      if 2 ^ 12 ≤ v.toNat then addAnswer n rd 2 s
      else
        awaitAnswer n rd (askPost (.instr n rd) v.toNat (wordsOf bs) s)

/-- The deadline watch fires (R213). -/
def watchFire (n : Nat) (s : State) : State :=
  let e := s.eng n
  if e.dlArmed && e.jobValid && cyclePassed e.dl s then
    let s := s.setEng n { e with dlArmed := false, dlPend := e.dlPend || e.dlAction = 2 }
    if e.dlAction = 0 then meFlag n F.ME_STAT_DlFired s else (s.setBit (Reg.ME_STAT n) F.ME_STAT_DlFired).raise n
  else s

/-- The current job is no longer current, and the watch is disarmed (R198, R214). -/
def dropJob (n : Nat) (s : State) : State := disarmWatch n (s.setEng n { s.eng n with jobValid := false })

/-- QDONE. Behind the deadline's ENG cycle the watch has fired before it (R213). -/
def beginQdone (n rd : Nat) (s : State) : State :=
  let e := s.eng n
  let (r, s) := doneEnt e.jobQueue e.jobIdx (dropJob n (watchFire n s))
  addAnswer n rd (BitVec.ofNat 32 r) s

/-- QFAIL. -/
def beginQfail (n rd rs : Nat) (s : State) : State :=
  let e := s.eng n
  addAnswer n rd 0 (failJob e.jobQueue e.jobIdx ((s.g n rs).toNat % 256) n (dropJob n (watchFire n s)))

/-- QDONE and QFAIL without a current job raise ILLEGAL; else they act as FENCE.S first. -/
def withJob (n : Nat) (f : State → State) (s : State) : State :=
  if (s.eng n).jobValid then afterStores n f s else raiseExc n excIllegal 0 s

/-! ### Cue (R244 to R246) -/

/-- The arm record of CARM. -/
def carmRecord (position : Bool) (v : Vec) : Arm :=
  let w := fun i => (lane 32 v i).toNat
  let dir := w 2 / 2 ^ 26 % 4
  Arm.mk position (if position then (w 0 + 2 ^ 32 * w 1) % 2 ^ 40 else w 0 + 2 ^ 32 * w 1)
    (if position then w 3 / 2 ^ 16 % 32 else 0) (if dir = 3 || !position then 0 else dir) (w 2 % 2 ^ 24) (w 2 / 2 ^ 24 % 4) 0

def carm (n rd vs : Nat) (position : Bool) (s : State) : State :=
  issue n (sysOp [regV vs] [rd] (isG rd && isV vs) (answerRoom n s)) (fun s =>
    let v := s.v n vs
    awaitAnswer n rd (askArm (.instr n rd) ((lane 32 v 3).toNat % 1024) (carmRecord position v) s)) s

/-! ### Time and event (R210 to R214, R248) -/

/-- TWAIT. -/
def beginTwait (n t : Nat) (s : State) : State := 
  if t ≤ s.lt then setIssueAt n (retireNext n s) else waitEng n (.time t) s

def twaitEnd (n : Nat) (s : State) : State :=
  let e := s.eng n
  match e.wait with
  | .time t => if e.st = .wait && decide (t ≤ s.lt) then setIssueAt n (wakeEng n s) else s
  | _ => s

/-- DLSET: 0 disarms the watch and leaves DL as it is. -/
def beginDlset (n v : Nat) (s : State) : State :=
  let e := s.eng n
  retireNext n (s.setEng n (if v = 0 then { e with dlArmed := false } else { e with dl := v, dlArmed := true }))

/-- The channels that satisfy an EWAIT now, and whether its timeout has come. -/
def ewaitMet (n : Nat) (mask : BitVec 16) (s : State) : BitVec 16 := (s.eng n).evpend &&& mask

def timedOut (t : Nat) (s : State) : Bool := t != 0 && decide (t ≤ s.lt)

/-- Is the timeout of an EWAIT reached, at the end of an ENG cycle? An event in that cycle goes first (R248). -/
def ewaitOver (t : Nat) (s : State) : Bool := s.tick % 2 = 1 && timedOut t s

/-- EWAIT. -/
def beginEwait (n rd : Nat) (mask : BitVec 16) (t : Nat) (s : State) : State :=
  if ewaitMet n mask s != 0 || ewaitOver t s then
    setIssueAt n (retireNext n (setG n rd ((ewaitMet n mask s).setWidth 32) s))
  else waitEng n (.event rd mask t) s

def ewaitEnd (n : Nat) (s : State) : State :=
  let e := s.eng n
  match e.wait with
  | .event rd mask t =>
    if e.st = .wait && (ewaitMet n mask s != 0 || ewaitOver t s) then
      setIssueAt n (wakeEng n (setG n rd ((ewaitMet n mask s).setWidth 32) s)) else s
  | _ => s

/-- RAISE: the engine's own event, or a doorbell. -/
def beginRaise (n e : Nat) (s : State) : State :=
  if e = n || (decide (940 ≤ e) && decide (e < 1024)) then afterStores n (fun s => retireNext n (s.raise e)) s
  else raiseExc n excIllegal 0 s

/-- The cue timer is satisfied: one event to the cue fabric, and EVPEND bit 15 with LocalEvent (R212). -/
def fireTimer (n : Nat) (s : State) : State :=
  let s := s.setEng n { s.eng n with ctArmed := false }
  let s := sourceEvent (Edge.mk (896 + n) none 0) s
  if (s.eng n).ctLocal then localEvent n 15 s else s

/-- Is the armed timer satisfied in this tick? One armed in this tick is not before the next. -/
def timerMet (e : Engine) (s : State) : Bool := e.ctArmed && decide (e.ctVal ≤ s.lt) && e.ctTick != s.tick

def cueTimer (n : Nat) (s : State) : State := if timerMet (s.eng n) s then fireTimer n s else s

/-! ### Special registers (R197) -/

def srListed (r : Nat) : Bool := decide (r ≤ 0x15) || (decide (0x20 ≤ r) && decide (r < 0x30))

def srSuper (r : Nat) : Bool := (decide (4 ≤ r) && decide (r ≤ 0x0B)) || r = 0x15

def srReadOnly (r : Nat) : Bool := decide (r ≤ 3) || r = 0x0E || r = 0x0F || r = 0x14 || decide (0x20 ≤ r)

def low48 (a : Addr) : Word := a.setWidth 32

def high48 (a : Addr) : Word := BitVec.ofNat 32 (a.toNat / 2 ^ 32)

def withLow48 (a : Addr) (v : Word) : Addr := BitVec.ofNat 48 (a.toNat / 2 ^ 32 * 2 ^ 32 + v.toNat)

def withHigh48 (a : Addr) (v : Word) : Addr := BitVec.ofNat 48 (a.toNat % 2 ^ 32 + 2 ^ 32 * (v.toNat % 2 ^ 16))

def statusWord (e : Engine) : Word :=
  BitVec.ofNat 32 (b2n e.priv + 2 * b2n e.exl + 4 * b2n e.ie + 8 * b2n e.prevPriv + 16 * b2n e.prevIe)

/-- The word of special register `r`. -/
def srWord (n r : Nat) (s : State) : Word :=
  let e := s.eng n
  match r with
  | 0x00 => lowWord s.clock.ltStart
  | 0x01 => e.ltHi
  | 0x02 => BitVec.ofNat 32 (n + 2 ^ 8 * (n % 16) + 2 ^ 12 * (n / 16))
  | 0x03 => BitVec.ofNat 32 (s.tick / 2 - e.relTick / 2)
  | 0x04 => statusWord e
  | 0x05 => low48 e.epc
  | 0x06 => high48 e.epc
  | 0x07 => e.ecause
  | 0x08 => low48 e.eaddr
  | 0x09 => high48 e.eaddr
  | 0x0A => low48 e.evec
  | 0x0B => high48 e.evec
  | 0x0C => e.evmask.setWidth 32
  | 0x0D => e.evpend.setWidth 32
  | 0x0E => lowWord e.dl
  | 0x0F => highWord e.dl
  | 0x10 => BitVec.ofNat 32 (b2n e.dlArmed + 2 * e.dlAction)
  | 0x11 => e.ctLo
  | 0x12 => e.ctHi
  | 0x13 => BitVec.ofNat 32 (b2n e.ctArmed + 4 * b2n e.ctLocal)
  | 0x14 => if e.jobValid then BitVec.ofNat 32 (e.jobQueue + 2 ^ 31) else 0
  | 0x15 => 0
  | _ => wordAt e.jobd (r - 0x20)

/-- MFSR. -/
def beginMfsr (n rd r : Nat) (s : State) : State :=
  if !srListed r then raiseExc n excIllegal 0 s
  else if srSuper r && !(s.eng n).priv then raiseExc n excPriv 0 s
  else
    let w := srWord n r s
    let s := if r = 0 then s.setEng n { s.eng n with ltHi := highWord s.clock.ltStart } else s
    retireNext n (setG n rd w s)

/-- A write of CT_HI arms the timer with CT_LO and CT_HI; a value satisfied in this tick fires first. -/
def armTimer (n : Nat) (v : Word) (s : State) : State :=
  let s := if timerMet (s.eng n) s then fireTimer n s else s
  let e := s.eng n
  s.setEng n { e with ctHi := v, ctVal := e.ctLo.toNat + 2 ^ 32 * v.toNat, ctArmed := true, ctTick := s.tick }

/-- A write of CTCTL: Disarm does not stop a timer satisfied in this tick. -/
def writeCtctl (n : Nat) (v : Word) (s : State) : State :=
  let s := s.setEng n { s.eng n with ctLocal := v.getLsbD 2 }
  if v.getLsbD 1 && !timerMet (s.eng n) s then s.setEng n { s.eng n with ctArmed := false } else s

/-- The effect of a write of `v` to special register `r`. -/
def srWrite (n r : Nat) (v : Word) (s : State) : State :=
  let e := s.eng n
  match r with
  | 0x04 => s.setEng n { e with
      priv := v.getLsbD 0, exl := v.getLsbD 1, ie := v.getLsbD 2, prevPriv := v.getLsbD 3, prevIe := v.getLsbD 4 }
  | 0x05 => s.setEng n { e with epc := withLow48 e.epc v }
  | 0x06 => s.setEng n { e with epc := withHigh48 e.epc v }
  | 0x07 => s.setEng n { e with ecause := v &&& 0xFFFF#32 }
  | 0x08 => s.setEng n { e with eaddr := withLow48 e.eaddr v }
  | 0x09 => s.setEng n { e with eaddr := withHigh48 e.eaddr v }
  | 0x0A => s.setEng n { e with evec := withLow48 e.evec (v &&& ~~~ 0xFFF#32) }
  | 0x0B => s.setEng n { e with evec := withHigh48 e.evec v }
  | 0x0C => s.setEng n { e with evmask := v.setWidth 16 }
  | 0x0D => s.setEng n { e with evpend := e.evpend &&& ~~~ (v.setWidth 16) }
  | 0x10 => s.setEng n { e with dlAction := Nat.min 2 (v.toNat / 2 % 4) }
  | 0x11 => s.setEng n { e with ctLo := v }
  | 0x12 => armTimer n v s
  | 0x13 => writeCtctl n v s
  | 0x15 => s.setEng n { e with wdogTick := 0 }
  | _ => s

/-- MTSR. -/
def beginMtsr (n rs r : Nat) (s : State) : State :=
  if !srListed r then raiseExc n excIllegal 0 s
  else if srSuper r && !(s.eng n).priv then raiseExc n excPriv 0 s
  else if srReadOnly r then raiseExc n excIllegal 0 s
  else retireNext n (srWrite n r (s.g n rs) s)

/-! ### System -/

/-- IINV: the unlocked ways, and after Unlock the locked ones too. -/
def doIinv (n : Nat) (s : State) : State :=
  let e := s.eng n
  retireNext n (s.setEng n { e with icache := if e.unlockIinv then [] else e.icache.filter (fun x => wayLocked n x.way s), unlockIinv := false })

/-- PARK (R219). -/
def doPark (n : Nat) (s : State) : State :=
  let s := retireNext n s
  let e := s.eng n
  meFlag n F.ME_STAT_Parked (s.setEng n { e with
    st := .parked, wait := .none, dlArmed := false, step := 0, jobValid := false, returns := sendBack true false e s.lt })

/-- ERET (R205); with Exl 0 ILLEGAL (R249). -/
def doEret (n : Nat) (s : State) : State :=
  let e := s.eng n
  if e.exl then retireTo n e.epc (s.setEng n { e with priv := e.prevPriv, ie := e.prevIe, exl := false })
  else raiseExc n excIllegal 0 s

/-- BRK: with a debugger attached the engine halts behind it, else BREAK. -/
def doBrk (n : Nat) (s : State) : State :=
  if s.bit (Reg.ME_DBGCTL n) F.ME_DBGCTL_Attached then haltEng n (retireNext n s) else raiseExc n excBreak 0 s

/-- What DMAWAIT returns for a ticket that is not outstanding. -/
def ticketStatus (e : Engine) (t : Nat) : Word :=
  match e.tickets.find? (fun x => x.1 = t) with
  | some x => BitVec.ofNat 32 (b2n x.2)
  | none => 2

def outstanding (e : Engine) (t : Nat) : Bool := e.dmas.any (fun d => d.ticket = t)

/-- DMAWAIT (R249). -/
def beginDmawait (n rd t : Nat) (s : State) : State :=
  let e := s.eng n
  if outstanding e t then waitEng n (.ticket rd t) s else retireNext n (setG n rd (ticketStatus e t) s)

def dmawaitEnd (n : Nat) (s : State) : State :=
  let e := s.eng n
  match e.wait with
  | .ticket rd t => if e.st = .wait && !outstanding e t then wakeEng n (setG n rd (ticketStatus e t) s) else s
  | _ => s

/-! ### What happens to an engine by itself -/

/-- A pending asynchronous cause is taken, in RUN or out of a wait (R206). -/
def takePending (n : Nat) (s : State) : State :=
  let e := s.eng n
  if e.st = .run || e.st = .wait then
    match asyncCause e with
    | some (k, c) => if e.loads.isEmpty then takeAsync n k c s else s
    | none => s
  else s

/-- The oldest answer returns (R247). -/
def answerBack (n : Nat) (s : State) : State :=
  let e := s.eng n
  match e.answers with
  | [] => s
  | x :: rest =>
    match x.val with
    | some v => lateG n 0 x.rd v (s.setEng n { e with answers := rest })
    | none => s

/-- ICACHE_REFILL: a line fills one way of its set (R222). An uncorrectable word of the line raises FETCH at the
instruction that missed (R204). -/
def refill (n line way : Nat) (ue : Bool) (s : State) : State :=
  let e := s.eng n
  if cached n (64 * line) s || !executable (regionOf (64 * line) s) || frozenIn (64 * line) 64 s then s
  else
  let s := touchRow (64 * line) 64 (if ue then foundBad [64 * line] s else s)
  if anyPoison (64 * line) 64 s then
    let s := noteUes (64 * line) 64 5 s
    if e.st = .run && e.pc.toNat / 64 = line then raiseExc n excFetch 0 s else s
  else if mayFill n line way s then fillWay n line way s
  else s

/-- Is the watchdog's limit reached (R221)? -/
def wdogDue (n : Nat) (s : State) : Bool :=
  s.bit (Reg.ME_CTL n) F.ME_CTL_WdogEnable && (s.eng n).st = .run &&
    decide (1600 * s.fld (Reg.ME_WDOG n) F.ME_WDOG_WdogLimit ≤ (s.eng n).wdogTick)

def wdogExpire (n : Nat) (s : State) : State :=
  if wdogDue n s then meFlag n F.ME_STAT_WdogExpired (engFault n 3 0 (s.eng n).pc 0 s) else s

/-- A parity error in a register file. -/
def parityFault (n : Nat) (s : State) : State :=
  let st := (s.eng n).st
  if st = .run || st = .wait || st = .halted || st = .parked then engFault n 2 0 (s.eng n).pc 0 s else s

/-- Breakpoint `i` stands on the next instruction of a running engine. -/
def breakHit (n i : Nat) (s : State) : State :=
  if (s.eng n).st = .run && decide (i < 4) && bkptAt n i s && !(s.eng n).passed then takeBkpt n s else s

/-- A happening of an engine that exists. -/
def onEngine (n : Nat) (f : State → State) (s : State) : State := if n < 192 then f s else s

/-! ### The commands -/

/-- QGET. -/
def execQget (n rd rs : Nat) (nowait : Bool) (s : State) : Out :=
  .next (issue n (sysOp (pairRegs rs) [rd] (isG rd && isPair rs) true) (fun s => beginQget n rd (pairVal n rs s) nowait s) s)

/-- QPUT. -/
def execQput (n rd ra : Nat) (s : State) : Out :=
  let a := (s.a n ra).toNat
  let s := qputAsk n a s
  .next (issue n (sysOp [rd, regA ra] [rd] (isG rd && isA ra) (answerRoom n s && canDrain (s.eng n) && qputReady n a s))
    (afterStores n (fun s => beginQput n rd a (s.g n rd) s)) s)

/-- QSTEAL. -/
def execQsteal (n rs : Nat) (s : State) : Out :=
  .next (issue n (sysOp [rs] [] (isG rs) true)
    (fun s => retireNext n (s.setEng n { s.eng n with hint := some ((s.g n rs).toNat % 2 ^ 12) })) s)

/-- QDONE. -/
def execQdone (n rd : Nat) (s : State) : Out :=
  .next (issue n (sysOp [] [rd] (isG rd) (answerRoom n s && canDrain (s.eng n))) (withJob n (beginQdone n rd)) s)

/-- QFAIL. -/
def execQfail (n rd rs : Nat) (s : State) : Out :=
  .next (issue n (sysOp [rs] [rd] (isG rd && isG rs) (answerRoom n s && canDrain (s.eng n)))
    (withJob n (beginQfail n rd rs)) s)

/-- CARM.T. -/
def execCarmT (n rd vs : Nat) (s : State) : Out := .next (carm n rd vs false s)

/-- CARM.P. -/
def execCarmP (n rd vs : Nat) (s : State) : Out := .next (carm n rd vs true s)

/-- CDISARM. -/
def execCdisarm (n rd rs : Nat) (s : State) : Out :=
  .next (issue n (sysOp [rs] [rd] (isG rd && isG rs) (answerRoom n s)) (fun s =>
    let v := (s.g n rs).toNat
    let (r, s) := disarmMask (v % 1024) (v / 2 ^ 16 % 16) s
    addAnswer n rd (BitVec.ofNat 32 (r.1 + 16 * r.2)) s) s)

/-- TWAIT. -/
def execTwait (n rs : Nat) (s : State) : Out :=
  .next (issue n (sysOp (pairRegs rs) [] (isPair rs) true) (fun s => beginTwait n (pairVal n rs s) s) s)

/-- DLSET. -/
def execDlset (n rs : Nat) (s : State) : Out :=
  .next (issue n (sysOp (pairRegs rs) [] (isPair rs) true) (fun s => beginDlset n (pairVal n rs s) s) s)

/-- EWAIT. -/
def execEwait (n rd rs : Nat) (s : State) : Out :=
  .next (issue n (sysOp (rd :: pairRegs rs) [rd] (isG rd && isPair rs) true)
    (fun s => beginEwait n rd ((s.g n rd).setWidth 16) (pairVal n rs s) s) s)

/-- RAISE. -/
def execRaise (n rs : Nat) (s : State) : Out :=
  .next (issue n (sysOp [rs] [] (isG rs) (canDrain (s.eng n))) (fun s => beginRaise n ((s.g n rs).toNat % 1024) s) s)

/-- MFSR. -/
def execMfsr (n rd sr : Nat) (s : State) : Out :=
  .next (issue n (sysOp [] [rd] (isG rd) true) (beginMfsr n rd sr) s)

/-- MTSR. -/
def execMtsr (n rs sr : Nat) (s : State) : Out :=
  .next (issue n (sysOp [rs] [] (isG rs) true) (beginMtsr n rs sr) s)

/-- FENCE.L: it waits while a load is outstanding. -/
def execFenceL (n : Nat) (s : State) : Out :=
  .next (issue n (sysOp [] [] true ((s.eng n).loads.isEmpty)) (afterStores n (retireNext n)) s)

/-- FENCE.S. -/
def execFenceS (n : Nat) (s : State) : Out :=
  .next (issue n (sysOp [] [] true (canDrain (s.eng n))) (afterStores n (retireNext n)) s)

/-- FENCE.I. -/
def execFenceI (n : Nat) (s : State) : Out :=
  .next (issue n (sysOp [] [] true true) (fun s => retireNext n (s.setEng n { s.eng n with icache := [] })) s)

/-- IINV. -/
def execIinv (n : Nat) (s : State) : Out := .next (issue n (sysOp [] [] true true) (superOnlyOp n (doIinv n)) s)

/-- PARK. -/
def execPark (n : Nat) (s : State) : Out := .next (issue n (sysOp [] [] true true) (superOnlyOp n (doPark n)) s)

/-- ERET. -/
def execEret (n : Nat) (s : State) : Out := .next (issue n (sysOp [] [] true true) (superOnlyOp n (doEret n)) s)

/-- TRAP: EPC is the address behind it. The code stays in the instruction word, which the handler reads. -/
def execTrap (n : Nat) (_code : Byte) (s : State) : Out :=
  .next (issue n (sysOp [] [] true true)
    (fun s => syncExc n excTrap (s.eng n).pc ((s.eng n).pc + 4) 0 s) s)

/-- BRK. -/
def execBrk (n : Nat) (s : State) : Out := .next (issue n (sysOp [] [] true true) (doBrk n) s)

/-- DMAWAIT. -/
def execDmawait (n rd rs : Nat) (s : State) : Out :=
  .next (issue n (sysOp [rs] [rd] (isG rd && isG rs) true) (fun s => beginDmawait n rd ((s.g n rs).toNat % 2 ^ 16) s) s)

/-- EXCEPTION_ENTRY. -/
def execExceptionEntry (n : Nat) (s : State) : Out := .next (takePending n s)

/-- ICACHE_REFILL. -/
def execIcacheRefill (n line : Nat) (way : Probe) (s : State) : Out := .next (onEngine n (refill n line way.num way.ue) s)

/-- ANSWER_RETURN. -/
def execAnswerReturn (n : Nat) (s : State) : Out := .next (answerBack n s)

/-- TWAIT_SATISFIED. -/
def execTwaitSatisfied (n : Nat) (s : State) : Out := .next (twaitEnd n s)

/-- EWAIT_SATISFIED. -/
def execEwaitSatisfied (n : Nat) (s : State) : Out := .next (ewaitEnd n s)

/-- QGET_TIMEOUT. -/
def execQgetTimeout (n : Nat) (s : State) : Out := .next (qgetTimeout n s)

/-- DMAWAIT_RETURN. -/
def execDmawaitReturn (n : Nat) (s : State) : Out := .next (dmawaitEnd n s)

/-- ENGINE_CUE_TIMER. -/
def execEngineCueTimer (n : Nat) (s : State) : Out := .next (cueTimer n s)

/-- DEADLINE_WATCH_FIRE. -/
def execDeadlineWatchFire (n : Nat) (s : State) : Out := .next (watchFire n s)

/-- WATCHDOG_EXPIRY. -/
def execWatchdogExpiry (n : Nat) (s : State) : Out := .next (onEngine n (wdogExpire n) s)

/-- ENGINE_FAULT: a parity error in a register file. -/
def execEngineFault (n : Nat) (s : State) : Out := .next (onEngine n (parityFault n) s)

/-- ENGINE_START: a write to ME_CTL(n) with Start 1. -/
def execEngineStart (n : Nat) (v : Word) (s : State) : Out := .next (onEngine n (writeMeCtl n (F.ME_CTL_Start.put v 1)) s)

/-- ENGINE_RESET: a write to ME_CTL(n) with Reset 1. -/
def execEngineReset (n : Nat) (v : Word) (s : State) : Out := .next (onEngine n (writeMeCtl n (F.ME_CTL_Reset.put v 1)) s)

/-- FORCE_FAULT: a write to ME_CTL(n) with ForceFault 1. -/
def execForceFault (n : Nat) (v : Word) (s : State) : Out :=
  .next (onEngine n (writeMeCtl n (F.ME_CTL_ForceFault.put v 1)) s)

/-- UNLOCK: a write to ME_CTL(n) with Unlock 1. -/
def execUnlock (n : Nat) (v : Word) (s : State) : Out := .next (onEngine n (writeMeCtl n (F.ME_CTL_Unlock.put v 1)) s)

/-- HALT: a write to ME_DBGCTL(n) with Halt 1. -/
def execHalt (n : Nat) (v : Word) (s : State) : Out := .next (onEngine n (writeDbgCtl n (F.ME_DBGCTL_Halt.put v 1)) s)

/-- STEP: a write to ME_DBGCTL(n) with Step 1. -/
def execStep (n : Nat) (v : Word) (s : State) : Out := .next (onEngine n (writeDbgCtl n (F.ME_DBGCTL_Step.put v 1)) s)

/-- RESUME: a write to ME_DBGCTL(n) with Resume 1. -/
def execResume (n : Nat) (v : Word) (s : State) : Out :=
  .next (onEngine n (writeDbgCtl n (F.ME_DBGCTL_Resume.put v 1)) s)

/-- BREAKPOINT_HIT. -/
def execBreakpointHit (n i : Nat) (s : State) : Out := .next (onEngine n (breakHit n i) s)

/-- PERF_COUNT_READ: a read of ME_PERF_STALL(n) (`stall`) or ME_PERF_ISSUE(n). -/
def execPerfCountRead (req : Req) (n : Nat) (stall : Bool) (s : State) : Out :=
  let a := if stall then Reg.ME_PERF_STALL n else Reg.ME_PERF_ISSUE n
  let (w, s') := readClear a (if stall then F.ME_PERF_STALL_Count else F.ME_PERF_ISSUE_Count) s
  .next (if n < 192 then s'.give req [w] else s)

end Sys2Proof.Machine
end

