-- ==== Sys2Proof/Machine/EngVec.lean ====
section
/-!
DEFINITION. Vector instructions (R235 to R238).
-/
namespace Sys2Proof.Machine

/-! ### Op 0x28: arithmetic and logic (R235) -/

/-- A lane-by-lane operation of class VEC. -/
def vLanes (n : Nat) (ok : Bool) (es : BitVec 2) (vd vs vt : Nat)
    (f : (w : Nat) → BitVec w → BitVec w → BitVec w) (s : State) : State :=
  vOp3 clsVec n ok vd vs vt (lanes2 (laneW es) (f (laneW es))) s

/-- VADD. -/
def execVadd (n : Nat) (es : BitVec 2) (vd vs vt : Nat) (s : State) : Out :=
  .next (vLanes n (esBHW es) es vd vs vt (fun _ x y => x + y) s)

/-- VSUB. -/
def execVsub (n : Nat) (es : BitVec 2) (vd vs vt : Nat) (s : State) : Out :=
  .next (vLanes n (esBHW es) es vd vs vt (fun _ x y => x - y) s)

/-- VADDS. -/
def execVadds (n : Nat) (es : BitVec 2) (vd vs vt : Nat) (s : State) : Out :=
  .next (vLanes n (esBHW es) es vd vs vt (fun _ x y => addSat x y) s)

/-- VADDSU. -/
def execVaddsu (n : Nat) (es : BitVec 2) (vd vs vt : Nat) (s : State) : Out :=
  .next (vLanes n (esBHW es) es vd vs vt (fun _ x y => addSatU x y) s)

/-- VSUBS. -/
def execVsubs (n : Nat) (es : BitVec 2) (vd vs vt : Nat) (s : State) : Out :=
  .next (vLanes n (esBHW es) es vd vs vt (fun _ x y => subSat x y) s)

/-- VSUBSU. -/
def execVsubsu (n : Nat) (es : BitVec 2) (vd vs vt : Nat) (s : State) : Out :=
  .next (vLanes n (esBHW es) es vd vs vt (fun _ x y => subSatU x y) s)

/-- VMUL: the low w bits. -/
def execVmul (n : Nat) (es : BitVec 2) (vd vs vt : Nat) (s : State) : Out :=
  .next (vLanes n (esHW es) es vd vs vt (fun _ x y => x * y) s)

/-- VMULHS: bits [31:16] of the signed product. -/
def execVmulhs (n : Nat) (es : BitVec 2) (vd vs vt : Nat) (s : State) : Out :=
  .next (vLanes n (esH es) es vd vs vt (fun w x y => BitVec.ofInt w (x.toInt * y.toInt / 2 ^ 16)) s)

/-- VMIN. -/
def execVmin (n : Nat) (es : BitVec 2) (vd vs vt : Nat) (s : State) : Out :=
  .next (vLanes n (esBHW es) es vd vs vt (fun _ x y => minS x y) s)

/-- VMINU. -/
def execVminu (n : Nat) (es : BitVec 2) (vd vs vt : Nat) (s : State) : Out :=
  .next (vLanes n (esBHW es) es vd vs vt (fun _ x y => minU x y) s)

/-- VMAX. -/
def execVmax (n : Nat) (es : BitVec 2) (vd vs vt : Nat) (s : State) : Out :=
  .next (vLanes n (esBHW es) es vd vs vt (fun _ x y => maxS x y) s)

/-- VMAXU. -/
def execVmaxu (n : Nat) (es : BitVec 2) (vd vs vt : Nat) (s : State) : Out :=
  .next (vLanes n (esBHW es) es vd vs vt (fun _ x y => maxU x y) s)

/-- VAVGU. -/
def execVavgu (n : Nat) (es : BitVec 2) (vd vs vt : Nat) (s : State) : Out :=
  .next (vLanes n (esBH es) es vd vs vt (fun _ x y => avgU x y) s)

/-- VAND. -/
def execVand (n : Nat) (es : BitVec 2) (vd vs vt : Nat) (s : State) : Out :=
  .next (vOp3 clsVec n (esQ es) vd vs vt (fun x y => x &&& y) s)

/-- VOR. -/
def execVor (n : Nat) (es : BitVec 2) (vd vs vt : Nat) (s : State) : Out :=
  .next (vOp3 clsVec n (esQ es) vd vs vt (fun x y => x ||| y) s)

/-- VXOR. -/
def execVxor (n : Nat) (es : BitVec 2) (vd vs vt : Nat) (s : State) : Out :=
  .next (vOp3 clsVec n (esQ es) vd vs vt (fun x y => x ^^^ y) s)

/-- VANDN: a and not b. -/
def execVandn (n : Nat) (es : BitVec 2) (vd vs vt : Nat) (s : State) : Out :=
  .next (vOp3 clsVec n (esQ es) vd vs vt (fun x y => x &&& ~~~y) s)

/-- VCMPEQ. -/
def execVcmpeq (n : Nat) (es : BitVec 2) (vd vs vt : Nat) (s : State) : Out :=
  .next (vLanes n (esBHW es) es vd vs vt (fun w x y => allOnes w (x = y)) s)

/-- VCMPGT. -/
def execVcmpgt (n : Nat) (es : BitVec 2) (vd vs vt : Nat) (s : State) : Out :=
  .next (vLanes n (esBHW es) es vd vs vt (fun w x y => allOnes w (decide (y.toInt < x.toInt))) s)

/-- VCMPGTU. -/
def execVcmpgtu (n : Nat) (es : BitVec 2) (vd vs vt : Nat) (s : State) : Out :=
  .next (vLanes n (esBHW es) es vd vs vt (fun w x y => allOnes w (decide (y.toNat < x.toNat))) s)

/-- A shift of every lane by g[vt][4:0]. -/
def vShift (n : Nat) (es : BitVec 2) (vd vs gt : Nat) (f : (w : Nat) → Nat → BitVec w → BitVec w) (s : State) : State :=
  vScal n (esBHW es) vd vs gt
    (fun x k => ofLanes (laneW es) 128 (fun i => f (laneW es) (k.toNat % 32) (lane (laneW es) x i))) s

/-- VSHL. -/
def execVshl (n : Nat) (es : BitVec 2) (vd vs gt : Nat) (s : State) : Out :=
  .next (vShift n es vd vs gt (fun _ k x => shlLane k x) s)

/-- VSHR. -/
def execVshr (n : Nat) (es : BitVec 2) (vd vs gt : Nat) (s : State) : Out :=
  .next (vShift n es vd vs gt (fun _ k x => shrLane k x) s)

/-- VSRA. -/
def execVsra (n : Nat) (es : BitVec 2) (vd vs gt : Nat) (s : State) : Out :=
  .next (vShift n es vd vs gt (fun _ k x => sraLane k x) s)

/-! ### Op 0x29: permute, transpose, lane moves (R236) -/

/-- VPERM. -/
def permBytes (x y : Vec) : Vec :=
  ofLanes 8 128 (fun j => let c := lane 8 y j; if c.getLsbD 7 then 0 else lane 8 x (c.toNat % 16))

/-- VBTR8: bit r of byte 8h + i is bit i of byte 8h + r. -/
def transpose8 (x : Vec) : Vec :=
  ofLanes 1 128 (fun k => lane 1 x (8 * (8 * (k / 64) + k % 8) + k / 8 % 8))

/-- VPERM. -/
def execVperm (n : Nat) (es : BitVec 2) (vd vs vt : Nat) (s : State) : Out :=
  .next (vOp3 clsVec n (esQ es) vd vs vt permBytes s)

/-- VBTR8. -/
def execVbtr8 (n : Nat) (es : BitVec 2) (vd vs : Nat) (s : State) : Out := .next (vOp2 n (esQ es) vd vs transpose8 s)

def laneOk (es : BitVec 2) (ln : Nat) : Bool := esBHW es && decide (ln < 128 / laneW es)

/-- VEXT. -/
def execVext (n : Nat) (es : BitVec 2) (gd vs ln : Nat) (s : State) : Out :=
  .next (gOfV n (laneOk es ln) gd vs (fun x => (lane (laneW es) x ln).setWidth 32) s)

/-- The vector with one lane replaced. -/
def putLane (w ln : Nat) (x : Vec) (y : BitVec w) : Vec := ofLanes w 128 (fun i => if i = ln then y else lane w x i)

/-- VINS: the other lanes are unchanged. -/
def execVins (n : Nat) (es : BitVec 2) (vd gs ln : Nat) (s : State) : Out :=
  .next (issue n (opV clsVec [regV vd, gs] [regV vd] (laneOk es ln && isV vd && isGv gs))
    (fun s => retireNext n (setV n vd (putLane (laneW es) ln (s.v n vd) ((s.g n gs).setWidth (laneW es))) s)) s)

/-- VSPLAT. -/
def execVsplat (n : Nat) (es : BitVec 2) (vd gs : Nat) (s : State) : Out :=
  .next (issue n (opV clsVec [gs] [regV vd] (esBHW es && isV vd && isGv gs))
    (fun s => retireNext n (setV n vd (ofLanes (laneW es) 128 (fun _ => (s.g n gs).setWidth (laneW es))) s)) s)

/-- VSLB. -/
def execVslb (n : Nat) (es : BitVec 2) (vd vs k : Nat) (s : State) : Out :=
  .next (vOp2 n (esQ es && decide (k < 16)) vd vs
    (fun x => ofLanes 8 128 (fun j => if k ≤ j then lane 8 x (j - k) else 0)) s)

/-- VSRB. -/
def execVsrb (n : Nat) (es : BitVec 2) (vd vs k : Nat) (s : State) : Out :=
  .next (vOp2 n (esQ es && decide (k < 16)) vd vs
    (fun x => ofLanes 8 128 (fun j => if j + k ≤ 15 then lane 8 x (j + k) else 0)) s)

/-- VSEL: the old vd is the mask. -/
def execVsel (n : Nat) (es : BitVec 2) (vd vs vt : Nat) (s : State) : Out :=
  .next (vAcc clsVec n (esQ es) vd vs vt (fun d x y => (x &&& d) ||| (y &&& ~~~d)) s)

/-- The sum of the unsigned lanes. -/
def laneSum (w : Nat) (x : Vec) : Nat := (List.range (128 / w)).foldl (fun a i => a + (lane w x i).toNat) 0

/-- VHSUM. -/
def execVhsum (n : Nat) (es : BitVec 2) (gd vs : Nat) (s : State) : Out :=
  .next (gOfV n (esBH es) gd vs (fun x => BitVec.ofNat 32 (laneSum (laneW es) x)) s)

/-! ### Op 0x2A: halftone (R237) -/

/-- VHT1. -/
def halftone1 (x y : Vec) : Word :=
  (ofLanes 1 16 (fun j => BitVec.ofNat 1 (((lane 8 x j).toNat + (lane 8 y j).toNat) / 256))).setWidth 32

/-- VHT2. -/
def halftone2 (x y : Vec) : Word :=
  ofLanes 2 32 (fun j => BitVec.ofNat 2 ((3 * (lane 8 x j).toNat + (lane 8 y j).toNat) / 256))

/-- VHT1. -/
def execVht1 (n : Nat) (es : BitVec 2) (gd vs vt : Nat) (s : State) : Out :=
  .next (gOfV2 n (esB es) gd vs vt halftone1 s)

/-- VHT2. -/
def execVht2 (n : Nat) (es : BitVec 2) (gd vs vt : Nat) (s : State) : Out :=
  .next (gOfV2 n (esB es) gd vs vt halftone2 s)

/-! ### Op 0x2B: vector GF(2^8) (R238) -/

/-- VGFMUL. -/
def execVgfmul (n : Nat) (es sel : BitVec 2) (vd vs vt : Nat) (s : State) : Out :=
  .next (vOp3 clsMul n (esB es) vd vs vt (lanes2 8 (gfMul sel)) s)

/-- VGFMAC. -/
def execVgfmac (n : Nat) (es sel : BitVec 2) (vd vs vt : Nat) (s : State) : Out :=
  .next (vAcc clsMul n (esB es) vd vs vt (fun d x y => d ^^^ lanes2 8 (gfMul sel) x y) s)

/-- VGFMACS: every byte is multiplied by g[vt][7:0]. -/
def execVgfmacs (n : Nat) (es sel : BitVec 2) (vd vs gt : Nat) (s : State) : Out :=
  .next (issue n (opV clsMul [regV vd, regV vs, gt] [regV vd] (esB es && isV vd && isV vs && isGv gt))
    (fun s => retireNext n (setV n vd
      (s.v n vd ^^^ ofLanes 8 128 (fun j => gfMul sel (lane 8 (s.v n vs) j) ((s.g n gt).setWidth 8))) s)) s)

end Sys2Proof.Machine
end

