-- ==== Sys2Proof/Machine/SeamIn.lean ====
section
/-!
DEFINITION. What the device does with the Seam requests and answers that reach it (R384 to R391), and the
commands of the Seam Link (chapter 16).
-/
namespace Sys2Proof.Machine

/-! ### Inbound windows (R385) -/

/-- First byte and size of inbound window `i`. -/
def inSpan (i : Nat) (s : State) : Nat × Nat :=
  let k := s.fld (Reg.SL_IN_CTL i) F.SL_IN_CTL_SizeLog2
  (ringStart (s.base48 (Reg.SL_IN_LO i)) k, 2 ^ k)

/-- Does window `i` hold the `n` bytes at `a` whole and grant the access? -/
def inGrants (write : Bool) (a n i : Nat) (s : State) : Bool :=
  let c := Reg.SL_IN_CTL i
  let w := inSpan i s
  s.bit c F.SL_IN_CTL_InEnable && s.bit c (if write then F.SL_IN_CTL_Write else F.SL_IN_CTL_Read) && decide (w.1 ≤ a) &&
    decide (a + n ≤ w.1 + w.2)

def inControl (a n : Nat) : Bool := decide (a + n ≤ 0x1000000)

/-- The range lies in a memory that a Data Port may reach, Mantle's mapping applied on top. -/
def inMemory (write : Bool) (a n : Nat) (s : State) : Bool :=
  (List.range n).all (fun i => !isSeam (a + i) s && dpAllowed .other write (a + i) s)

/-- May the request be performed? -/
def inboundOk (write : Bool) (a n : Nat) (s : State) : Bool :=
  (List.range 8).any (fun i => inGrants write a n i s) && (inControl a n || inMemory write a n s)

/-- What a refused request leaves beside its answer: RegionViolation and RetAccess of the bytes turned away. -/
def noteInbound (write : Bool) (a n : Nat) (s : State) : State :=
  if (List.range 8).any (fun i => inGrants write a n i s) then
    (List.range n).foldl (fun s i => noteTurned .other write (a + i) s) s
  else s

/-- A request that R385 refuses; one to a group gets no answer. -/
def refuseRequest (k : Nat) (f : Flit) (s : State) : State :=
  let s := seamViol k 0x08 s
  if f.mcast then s else answerTo f stAccess [] s

/-! ### Requests performed here -/

/-- A WRITE delivered here, class 2 of R278. -/
def performWrite (k : Nat) (f : Flit) (s : State) : State :=
  let a := plNat f 0 8
  let n := plNat f 8 2
  let bs := fit n (f.payload.drop 16)
  if !inboundOk true a n s then refuseRequest k f (noteInbound true a n s)
  else if inControl a n then regStore (.seam k) a bs s
  else putCells 2 k (atAddrs a bs) s

/-- A READ delivered here; one that meets a frozen bank waits (R288). `fresh` lists addresses whose words turn out
uncorrectable. -/
def performRead (k : Nat) (f : Flit) (fresh : List Nat) (s : State) : State :=
  let a := plNat f 0 8
  let n := plNat f 8 2
  let l := (List.range n).map (fun i => a + i)
  if !inboundOk false a n s then refuseRequest k f (noteInbound false a n s)
  else if inControl a n then
    let (bs, s) := regBytes (.seam k) a n s
    answerTo f stOk (zeros 16 ++ bs) s
  else if frozenIn a n s then s.setAsks { s.asks with seams := s.asks.seams ++ [(k, f, fresh)] }
  else
    let s := touchRow a n (foundIn a n fresh s)
    if poisonedAt l s then answerTo f stUncorrectable [] (noteUes a n 2 s)
    else answerTo f stOk (zeros 16 ++ fetchBytes l s) s

/-- The record of a MSG (R390). -/
def msgRecord (f : Flit) (s : State) : List Word :=
  let n := plNat f 2 2
  wordsOf (leBytes 2 f.src ++ leBytes 2 n ++ leBytes 2 (plNat f 0 2) ++ zeros 2 ++ leBytes 8 s.lt ++
    fit 240 (fit n (f.payload.drop 16)))

/-- A MSG delivered here goes into the MSG ring, and raises its Event. -/
def performMsg (k : Nat) (f : Flit) (s : State) : State :=
  let wr := (s.reg Reg.SL_MSGWR).toNat
  let size := s.fld Reg.SL_MSGCFG F.SL_MSGCFG_SizeLog2
  let base := s.base48 Reg.SL_MSGBASE_LO
  let e := plNat f 0 2
  if ringHeld wr (s.reg Reg.SL_MSGRD).toNat = msgRingCap s then
    let s := seamFlag (if k < 4 then k else 0) F.SL_PFLAGS_MsgRingFull s
    if f.mcast then s else answerTo f stBusy [] s
  else
    let s := if inRingMemory (ringStart base size) (2 ^ size) s then
      s.hwPut 2 k (ringSlot base size 256 wr) (msgRecord f s) else s
    (s.setReg Reg.SL_MSGWR (BitVec.ofNat 32 (wr + 1))).raiseIf (decide (940 ≤ e) && decide (e < 1024)) e

/-- A CUE_AT delivered here by port `k` arms a TIME slot (R53, R389). -/
def performCue (k : Nat) (f : Flit) (s : State) : State :=
  askArm (.cueAt k f) (plNat f 12 2 % 1024) (Arm.mk false (plNat f 0 8) 0 0 (plNat f 8 3) (plNat f 11 1 % 4) 2) s

/-- An ATTEST delivered here starts Mantle's operation with its nonce (R391). -/
def performAttest (f : Flit) (s : State) : State :=
  if mntBusy s then answerTo f stBusy [] s
  else
    let s := s.setSeam { s.seam with serve := some (SeamServe.mk f.src f.tid (plNat f 32 8)) }
    setMntBusy true (s.setMnt { s.mantle with op := some (MntOp.mk 3 0 true (attestBody (f.payload.take 32) s)), opAt := s.tick })

/-- A DATA flit arrives; where it is delivered here, `g` is what it does. -/
def arrive (k cls : Nat) (ans : Bool) (f : Flit) (g : State → State) (s : State) : State :=
  match rxData k cls ans f s with
  | (true, s) => g s
  | (false, s) => s

/-! ### The commands -/

/-- SEAM_PORT_ENABLE: a write to SL_PCTL(k) with PortEnable 1. -/
def execSeamPortEnable (k : Nat) (v : Word) (s : State) : Out :=
  .next (if k < 4 then writeSeamPctl k (F.SL_PCTL_PortEnable.put v 1) s else s)

/-- SEAM_RETRAIN: a write to SL_PCTL(k) with Retrain 1. -/
def execSeamRetrain (k : Nat) (v : Word) (s : State) : Out :=
  .next (if k < 4 then writeSeamPctl k (F.SL_PCTL_Retrain.put v 1) s else s)

/-- TRAINING_COMPLETE: the lanes that trained and what the partner's HELLO told. -/
def execTrainingComplete (k lanes id : Nat) (valid : Bool) (port : Nat) (s : State) : Out :=
  .next (if k < 4 then trainDone k lanes id valid port s else s)

/-- TRAINING_RESTART. -/
def execTrainingRestart (k : Nat) (s : State) : Out := .next (if k < 4 then trainAgain k s else s)

/-- LANE_SPARING. -/
def execLaneSparing (k lane : Nat) (s : State) : Out := .next (if k < 4 then spareLane k lane s else s)

/-- PORT_DOWN. -/
def execPortDown (k why : Nat) (s : State) : Out := .next (if k < 4 then downFor k why s else s)

/-- HELLO. -/
def execHello (k : Nat) (f : Flit) (s : State) : Out := .next (takeHello k f s)

/-- LANE_MAP. -/
def execLaneMap (k : Nat) (f : Flit) (s : State) : Out := .next (takeLaneMap k f s)

/-- IDLE. -/
def execIdle (k : Nat) (f : Flit) (s : State) : Out := .next (takeIdle k f s)

/-- IDLE_SEND. -/
def execIdleSend (k : Nat) (s : State) : Out := .next (if k < 4 then idleSend k s else s)

/-- REPLAY_TIMEOUT. -/
def execReplayTimeout (k : Nat) (s : State) : Out := .next (if k < 4 then replayTimeout k s else s)

/-- SEAM_WRITE. -/
def execSeamWrite (k : Nat) (f : Flit) (s : State) : Out := .next (arrive k clsWrite false f (performWrite k f) s)

/-- SEAM_READ. -/
def execSeamRead (k : Sweep) (f : Flit) (s : State) : Out := .next (arrive k.num clsRead false f (performRead k.num f k.fresh) s)

/-- READ_RESP. -/
def execReadResp (k : Nat) (f : Flit) (s : State) : Out := .next (arrive k clsResp true f (takeAnswer k clsRead f) s)

/-- SEAM_ANSWER: the failure answer to a WRITE or a MSG. -/
def execSeamAnswer (k : Nat) (f : Flit) (s : State) : Out :=
  .next (arrive k (if f.cls = clsMsg then clsMsg else clsWrite) true f (takeFailure (if k < 4 then k else 0) f) s)

/-- SEAM_MSG. -/
def execSeamMsg (k : Nat) (f : Flit) (s : State) : Out := .next (arrive k clsMsg false f (performMsg k f) s)

/-- CUE_AT. -/
def execCueAt (k : Nat) (f : Flit) (s : State) : Out := .next (arrive k clsCue false f (performCue k f) s)

/-- SEAM_ATTEST. -/
def execSeamAttest (k : Nat) (f : Flit) (s : State) : Out := .next (arrive k clsAttest false f (performAttest f) s)

/-- TIME_SYNC: a request, with the eighth of a tick at which it came. -/
def execTimeSync (k : Nat) (f : Flit) (eighth : Nat) (s : State) : Out := .next (takeTimeSync k f eighth s)

/-- TIME_SYNC_REPLY. -/
def execTimeSyncReply (k : Nat) (f : Flit) (eighth : Nat) (s : State) : Out := .next (takeReply k f eighth s)

/-- TSYNC_EXCHANGE. -/
def execTsyncExchange (eighth : Nat) (s : State) : Out := .next (tsExchange eighth s)

/-- SEAM_REQUEST_TIMEOUT. -/
def execSeamRequestTimeout (k tid : Nat) (s : State) : Out := .next (if k < 4 then requestTimeout k tid s else s)

/-- CUE_AT_GO: a write to SL_CUE_GO with Go 1. -/
def execCueAtGo (req : Req) (v : Word) (s : State) : Out := .next (cueAtGo req (F.SL_CUE_GO_Go.put v 1) s)

/-- ATTEST_GO: a write to SL_ATT_CTL with Go 1. -/
def execAttestGo (req : Req) (v : Word) (s : State) : Out := .next (attestGo req (F.SL_ATT_CTL_Go.put v 1) s)

/-- SEAM_RELEASE: a write to SL_PCTL(k) with Release 1. -/
def execSeamRelease (k : Nat) (v : Word) (s : State) : Out :=
  .next (if k < 4 then writeSeamPctl k (F.SL_PCTL_Release.put v 1) s else s)

/-- MSGRD_WRITE. -/
def execMsgrdWrite (v : Word) (s : State) : Out := .next (writeMsgRd v s)

/-- DROP_COUNT_READ: a read of SL_LOST. -/
def execDropCountRead (req : Req) (s : State) : Out :=
  let (w, s) := rcRead Reg.SL_LOST [F.SL_LOST_DropCount] s
  .next (s.give req [w])

/-- SEAM_VIOL_COUNT_READ: a read of SL_PVIOL(k). -/
def execSeamViolCountRead (req : Req) (k : Nat) (s : State) : Out :=
  let r := rcRead (Reg.SL_PVIOL k) [F.SL_PVIOL_Count] s
  .next (if k < 4 then r.2.give req [r.1] else s)

/-- REPLAY_COUNT_READ: a read of SL_PCNT(k). -/
def execReplayCountRead (req : Req) (k : Nat) (s : State) : Out :=
  let r := rcRead (Reg.SL_PCNT k) [F.SL_PCNT_ReplayCount, F.SL_PCNT_Discarded] s
  .next (if k < 4 then r.2.give req [r.1] else s)

/-- CUE_AT_ANSWER. -/
def execCueAtAnswer (k : Nat) (f : Flit) (s : State) : Out := .next (arrive k clsCue true f (takeAnswer k clsCue f) s)

/-- ATTEST_ANSWER. -/
def execAttestAnswer (k : Nat) (f : Flit) (s : State) : Out :=
  .next (arrive k clsAttest true f (takeAnswer k clsAttest f) s)

/-- What a refused access through a Seam window leaves: an engine takes BUS, the host's Data Port its violation. -/
def refuseWindow (req : Req) (write : Bool) (a len : Nat) (s : State) : State :=
  match req with
  | .host => dpRefuse 0 a write ((List.range len).map (fun i => a + i)) s
  | .engine n => raiseExc n excBus (BitVec.ofNat 48 a) s
  | .seam _ => s

/-- An access of an engine, or of Data Port 0, in a Seam window. -/
def windowAccess (req : Req) (write : Bool) (a len : Nat) (data : List Byte) (s : State) : State :=
  let n := if write then data.length else len
  if n = 0 || !isSeam a s then s
  else if regionOf (a + n - 1) s != regionOf a s || windowRefuses (winOf a) write s then refuseWindow req write a n s
  else if write then windowWrite a data s
  else (windowRead req 0 a n s).2

/-- SEAM_WINDOW_ACCESS. -/
def execSeamWindowAccess (req : Req) (write : Bool) (a len : Nat) (data : List Byte) (s : State) : Out :=
  .next (windowAccess req write a len data s)

end Sys2Proof.Machine
end

