-- ==== Sys2Proof/Machine/Tick.lean ====
section
/-!
DEFINITION. The passing of time: what falls due in a tick by itself, and the tick that follows (R16). An empty
queue lets one tick pass; RATE_CORRECTION and SLEW_TICK are the ticks on which those trims act.
-/
namespace Sys2Proof.Machine

/-- `f` for each key of a list, in its order. -/
def each (ks : List Nat) (f : Nat → State → State) (s : State) : State := ks.foldl (fun s k => f k s) s

/-! ### What falls due within a tick -/

/-- Clocks (R20 to R24, R33). -/
def dueClock (s : State) : State :=
  withClockBack tryRelease (loadLineTime (expireHoldover (reacquireLate (measureStandby (switchDue s)))))

/-- Encoders and match units (R54 to R62). -/
def dueEnc (e : Nat) (s : State) : State :=
  encMatch e 1 (encMatch e 0 (encStop e (encLoad e (encIndex e (encCount e s)))))

/-- Slots whose condition comes true, and the effects of this tick (R44, R46, R52). -/
def dueCues (s : State) : State :=
  let s := each s.cue.targets.keys (fun n s => each [0, 1, 2, 3] (satisfySlot n) s) s
  let s := each s.cue.taps.keys tapEffect s
  each s.cue.targets.keys effectAt s

/-- Pulse generators (R68 to R76). A cycle of a sequence whose last Offset is 0 ends in the tick in which it starts. -/
def duePg (n : Nat) (s : State) : State := tripRelease n (pgRunEnd n (pgCycleStart n (pgRunEnd n s)))

/-- The tiles whose DAC has state, is supervised or has a clear code of its own. -/
def activeDacs (s : State) : List Nat :=
  let on := listed (Reg.AT_SUPCTL 0) 0x2000 128 s (fun _ w => F.AT_SUPCTL_SupEnable.get w = 1)
  let on := on ++ (listed (Reg.AT_CLRCODE 0) 0x2000 128 s (fun _ _ => true)).filter (fun t => !on.contains t)
  on ++ s.arr.dacs.keys.filter (fun t => !on.contains t)

/-- Analogue tiles: after the decisions of a sampling edge (R100, R101). -/
def dueTile (t : Nat) (s : State) : State :=
  each [0, 1] (windowReport t) (each [0, 1, 2, 3] (thresholdSettled t) s)

/-- Waveform drive (R111, R120, R127, R134, R284). -/
def dueDac (t : Nat) (s : State) : State := dacPoison t (standbyDrive t (dacDue t s))

/-- The generators whose output may differ from low: those with state or a written PG_CTL, and those seen before. -/
def gateGens (s : State) : List Nat :=
  let l := s.pgs.keys ++ s.dce.gates.keys.filter (fun n => !s.pgs.keys.contains n)
  l ++ (listed (Reg.PG_CTL 0) 0x800 512 s (fun _ _ => true)).filter (fun n => !l.contains n)

/-- At a CONV edge the generators' levels are taken (R152). -/
def dueGates (s : State) : State := if s.tick % 8 = 0 then each (gateGens s) sampleGen s else s

/-- Decimation (R138, R152, R154). -/
def dueChannel (g : Nat) (s : State) : State :=
  let p := g / 32
  let c := g % 32
  windowDone p c (dceOutput p c (latchWindow g (windowClose p c (windowOpen p c (lateChannel g s)))))

/-- The ports that are enabled or whose state differs from reset. -/
def activeHeads (s : State) : List Nat :=
  let en := listed (Reg.HD_CTL 0) 0x8000 32 s (fun _ w => F.HD_CTL_Enable.get w = 1)
  en ++ s.heads.keys.filter (fun h => !en.contains h)

/-- The walker meets each port, enabled or not, once a second (R178). -/
def walkDue (s : State) : State := if s.tick % 50000000 = 0 then nmapWalk (s.tick / 50000000 % 32) s else s

/-- Head ports (R162 to R167, R178, R182, R185). -/
def dueHead (h : Nat) (s : State) : State :=
  let s := shiftStart h (latchEdge h (shiftEnd h s))
  let s := auxEval h (blockFetch h (readyPoll h s))
  ((s.head h).sets.filter (fun c => decide (c.expiry ≤ s.lt))).foldl (fun s c => expireSet h c.tag s) s

/-- The Proof Ledger (R181, R187, R189): closes before frees, then rejects. -/
def dueLedger (s : State) : State :=
  let s := s.ledger.recs.foldl (fun s r => recordClose r.tag s) s
  let s := s.ledger.recs.foldl (fun s r => recordFree r.tag s) s
  s.ledger.rejects.foldl (fun s x => rejectRetry x.tag (rejectArm x.tag s)) s

/-- Mark Engines: timers and waits, then what comes back to them (R206, R210, R213, R221, R247). -/
def dueEngine (n : Nat) (s : State) : State :=
  let s := wdogExpire n (cueTimer n (watchFire n s))
  let s := qgetTimeout n (dmawaitEnd n (ewaitEnd n (twaitEnd n s)))
  let s := each (List.range 8) (fun k s => loadReturn n k false s) (answerBack n (takePending n s))
  returnJob n (dmaStep n [] (storeAck n 0 false s))

/-- Job queues (R251, R263 to R265). -/
def dueQueue (q : Nat) (s : State) : State :=
  let s := (s.jq q).ents.foldl (fun s e => missDetect q e.idx s) s
  headAdvance q (jqRefresh q (ageQueue q s))

/-- Fallback jobs, and the Steal Brokers (R259, R266). -/
def dueBrokers (s : State) : State :=
  each (List.range 12) (fun c s => brokerAct c false s) (s.jobs.falls.foldl (fun s f => fallbackPost f.origin s) s)

/-- Memory test, sparing and retention (R285 to R291), merges that met a poisoned word (R275), the scrubber (R301). -/
def dueMemories (s : State) : State :=
  let s := if s.bit Reg.TST_CTL F.TST_CTL_TestEnable then each allTesters (fun m s => windowStart m (rowRestore m s)) s
    else s
  dueScrub (dueMerges (each (List.range 12) (fun c s => wakeDone c (retainDone c (spareDone c s))) s))

/-- Data Ports and MSI-X (R310, R315). -/
def dueHost (s : State) : State := each s.msixPend.keys msixSend (each s.host.aperture.keys burstIdle s)

/-- Fabric and Mantle (R348, R354, R360, R362). -/
def dueConfig (s : State) : State := burnDue (opDue (unlockExpiry (sleeveRelease (applyStart (checkDone (portSilence s))))))

/-- The oldest flit of the device to itself is delivered. -/
def deliverLoop (s : State) : State :=
  match s.seam.loop with
  | [] => s
  | f :: _ =>
    let go := fun (g : State → State) => arrive 4 f.cls f.ans f g s
    if f.cls = clsRead then go (performRead 4 f [])
    else if f.cls = clsResp then go (takeAnswer 4 clsRead f)
    else if f.cls = clsCue then go (if f.ans then takeAnswer 4 clsCue f else performCue 4 f)
    else if f.cls = clsAttest then go (if f.ans then takeAnswer 4 clsAttest f else performAttest f)
    else if f.ans then go (takeFailure 0 f)
    else if f.cls = clsMsg then go (performMsg 4 f)
    else go (performWrite 4 f)

/-- The requests that wait for a Tid, oldest first (R388). -/
def tidsDue (s : State) : State :=
  s.asks.tids.foldl (fun s x => issueOrWait x s) (s.setAsks { s.asks with tids := [] })

/-- Seam ports, requests, the exchange of line time, the device's own loop and the MSGs of events (R374, R388, R395, R432). -/
def dueSeam (s : State) : State :=
  let s := each [0, 1, 2, 3] (fun k s => idleSend k (replayTimeout k (downFor k 0 (trainAgain k s)))) s
  let s := (s.seam.reqs.filter (fun r => decide (r.port < 4))).foldl (fun s r => requestTimeout r.port r.tid s) s
  deliverLoop (each s.seamEvts.keys eventMsg (exchangeDue (alignmentLost (tidsDue s))))

/-- Calibration (R402 to R406). -/
def dueCal (s : State) : State :=
  let s := if s.tick % 1600000 = 0 then each (List.range 8) temperatureCheck s else s
  each s.cal.tiles.keys (fun t s => stepStart t (stepDue t (stepAbandon t (calStarved t s)))) s

/-- The pads that a generator drives follow it; at edge n + 2 of R423 the new owner's drive and the pull come. -/
def duePins (s : State) : State :=
  let s := each (listed (Reg.LIO_OWNER 0) 4 256 s (fun _ w => F.LIO_OWNER_Owner.get w = 1))
    (fun pin s => if (pinDrive pin s).isSome then refreshPin pin s else s) s
  each (s.lio.chg.keys.filter (fun pin => s.tick = s.lio.chg.get 0 pin - 1 + 8)) refreshPin s

/-- At a FAB edge every pin's owner is evaluated (R420). -/
def dueOwners (s : State) : State := if s.tick % 4 = 0 then each (List.range 256) evalOwner s else s

/-! ### Requests of one tick and of one ENG cycle (R43, R256, R308) -/

/-- The answer to an arming request: its status and slot (R245). -/
def armAnswer (who : Asker) (r : Nat × Nat) (s : State) : State :=
  match who with
  | .instr n rd => fillAnswer n rd (BitVec.ofNat 32 (r.1 + 16 * r.2)) s
  | .staged _ => s
  | .reject tag => rejectAnswer tag r.1 s
  | .cueAt _ f => answerTo f stOk [BitVec.ofNat 8 (r.1 + 4 * r.2)] s
  | .fallback _ => s

def applyArm (x : ArmAsk) (s : State) : State :=
  let r := armTarget x.target x.arm s
  armAnswer x.who r.1 r.2

/-- The tick's arming requests, in the order of R43. -/
def dueArms (s : State) : State :=
  (byRank (fun x => x.who.rank) s.asks.arms).foldl (fun s x => applyArm x s) (s.setAsks { s.asks with arms := [] })

/-- The result of a post: 0 POSTED, 1 FULL, 2 REFUSED. -/
def postAnswer (x : PostAsk) (r : Nat) (s : State) : State :=
  match x.who with
  | .instr n rd => fillAnswer n rd (BitVec.ofNat 32 r) s
  | .staged req => s.setPreg req (Reg.JQ_HPOSTRES x.queue) (BitVec.ofNat 32 r)
  | .fallback q => if r = 0 then s else fallbackLost q x.words s
  | .reject _ => s
  | .cueAt _ _ => s

def applyPost (x : PostAsk) (s : State) : State :=
  let r := postJob x.queue x.words s
  postAnswer x r.1 r.2

/-- The posts of an ENG cycle at its end, in the order of R256. -/
def duePosts (s : State) : State :=
  if s.tick % 2 = 0 then s
  else (byRank (fun x => x.who.rank) s.asks.posts).foldl (fun s x => applyPost x s) (s.setAsks { s.asks with posts := [] })

def answerRead (r : HostRead) (s : State) : State :=
  match r with
  | .bar0 a n part => bar0Answer a n part s
  | .bar2 n o len fresh => dpAnswer n o len fresh s

/-- Does the read meet a frozen bank (R288)? -/
def readFrozen (r : HostRead) (s : State) : Bool :=
  match r with
  | .bar0 _ _ _ => false
  | .bar2 n o len _ => dpFrozen n o len s

/-- The reads of the host that waited for its posted writes or for a bank (R288, R308), and Seam READs that waited for
a bank. -/
def dueReads (s : State) : State :=
  let s := s.asks.seams.foldl (fun s x => performRead x.1 x.2.1 x.2.2 s) (s.setAsks { s.asks with seams := [] })
  let s' := s.setAsks { s.asks with reads := [] }
  if hostWaits s' then s
  else
    let l := s.asks.reads.takeWhile (fun r => !readFrozen r s)
    l.foldl (fun s r => answerRead r s) (s.setAsks { s.asks with reads := s.asks.reads.drop l.length })

/-- A fault-log entry of an earlier ENG cycle is written (R460). -/
def dueLog (s : State) : State :=
  match nextEntry s with
  | some e => if e.cyc < s.tick / 2 then writeLog true s else s
  | none => s

/-- All that falls due in this tick by itself, block by block. -/
def settle (s : State) : State :=
  let s := dueClock s
  let s := each (activeEncs s) dueEnc s
  let s := dueCues (each s.pgs.keys pgWaiting s)
  let s := duePins (each s.pgs.keys duePg s)
  let s := each s.arr.clrs.keys clearRelease s
  let s := each s.arr.tiles.keys dueTile s
  let s := each s.arr.dacs.keys dueDac s
  let s := each (activeDacs s) noteNominal s
  let s := each s.dce.chans.keys dueChannel (dueGates s)
  let s := walkDue (each (activeHeads s) dueHead s)
  let s := dueLedger s
  let s := each s.engs.keys dueEngine s
  let s := each s.jobs.qs.keys dueQueue s
  let s := dueBrokers s
  let s := dueMemories s
  let s := dueOwners s
  let s := dueHost (dueConfig s)
  let s := dueCal (dueSeam s)
  dueLog (dueReads (duePosts (dueArms s)))

/-! ### The next tick -/

/-- An engine over one tick: the watchdog counts in RUN; at the end of an ENG cycle in which a RUN engine issued
nothing a stall counts, and R223's Step ends. -/
def passEngine (n : Nat) (s : State) : State :=
  let e := s.eng n
  if e.st != .run then s
  else
    let s := if s.bit (Reg.ME_CTL n) F.ME_CTL_WdogEnable then s.setEng n { e with wdogTick := e.wdogTick + 1 } else s
    if s.tick % 2 = 0 then s
    else
      let idle := match e.last with
        | some l => l.cyc != s.tick / 2
        | none => true
      let s := if idle then s.countUp (Reg.ME_PERF_STALL n) F.ME_PERF_STALL_Count else s
      if e.step = 2 then haltEng n s else s

/-- What a CONV edge or a tick brings to the input side at its start, before any decision or code of that edge:
the bias, the end of an overload reset and the switch before it, connections that close, the comparators' starts
and Window (R87, R94, R99, R101, R103, R144). -/
def tickTile (t : Nat) (s : State) : State :=
  let s := each [0, 1] (modSwitch t) (each [0, 1] (modResume t) (biasReady t s))
  each [0, 1] (takeWindow t) (tickCmps t (switchClose t s))

/-- The clocks advance by one tick, and what that tick brings at its start takes place. -/
def advance (s : State) : State :=
  let s := fabLio (tickClock (each s.engs.keys passEngine s))
  let s := tickEncs s
  let s := each s.engs.keys (fun n s => watchFire n (faultDue n s)) s
  let s := each s.pgs.keys tickPg s
  let s := each s.arr.tiles.keys tickTile s
  let s := each (activeDacs s) tickDac s
  let s := each s.dce.chans.keys tickChannel s
  let s := each s.dce.bufs.keys drainBuf s
  let s := each s.heads.keys tickSpans s
  each s.cal.tiles.keys tickCal s

/-- One tick passes. Before lock there are no CUE edges (R16). -/
def passTick (s : State) : State := if s.clock.run then advance (settle s) else s

/-! ### The commands -/

/-- RATE_CORRECTION (R30): the tick on which the rate accumulator corrects LINETIME. -/
def rateCorrection (s : State) : State := if (rateStep (settle s)).1 != 0 then passTick s else s

def execRateCorrection (s : State) : Out := .next (rateCorrection s)

/-- SLEW_TICK (R31): the tick on which one tick of pending slew is applied. -/
def slewTick (s : State) : State :=
  let s' := settle s
  if (slewStep (rateStep s').1 s').1 != 0 then passTick s else s

def execSlewTick (s : State) : Out := .next (slewTick s)

end Sys2Proof.Machine
end

