-- ==== Sys2Proof/Machine/Dispatch.lean ====
section
/-!
DEFINITION. The meaning of each command: one direct call per row of spec/opcode_table.json.
-/
namespace Sys2Proof.Machine

def exec (i : Instr) (s : State) : Host.Outcome State Fault Refusal :=
  match i with
  | .registerWrite req a v => Sys2Proof.Machine.execRegisterWrite req a v s
  | .crystalLoss x => Sys2Proof.Machine.execCrystalLoss x s
  | .crystalValid x => Sys2Proof.Machine.execCrystalValid x s
  | .switchover d => Sys2Proof.Machine.execSwitchover d s
  | .selectWrite v => Sys2Proof.Machine.execSelectWrite v s
  | .holdoverExpired => Sys2Proof.Machine.execHoldoverExpired s
  | .pllRelock => Sys2Proof.Machine.execPllRelock s
  | .clockRelease v => Sys2Proof.Machine.execClockRelease v s
  | .linetimeRead req => Sys2Proof.Machine.execLinetimeRead req s
  | .rateCorrection => Sys2Proof.Machine.execRateCorrection s
  | .slewAdjust req v => Sys2Proof.Machine.execSlewAdjust req v s
  | .slewTick => Sys2Proof.Machine.execSlewTick s
  | .linetimeLoad => Sys2Proof.Machine.execLinetimeLoad s
  | .lineIoEdge pin mv frac => Sys2Proof.Machine.execLineIoEdge pin mv frac s
  | .slotSatisfied n k => Sys2Proof.Machine.execSlotSatisfied n k s
  | .cueEffect n => Sys2Proof.Machine.execCueEffect n s
  | .hostArmGo n v => Sys2Proof.Machine.execHostArmGo n v s
  | .disarm n v => Sys2Proof.Machine.execDisarm n v s
  | .targetConfigWrite n ctl v => Sys2Proof.Machine.execTargetConfigWrite n ctl v s
  | .capturePop u v => Sys2Proof.Machine.execCapturePop u v s
  | .mergeCountRead req n => Sys2Proof.Machine.execMergeCountRead req n s
  | .fabricTapEffect ix => Sys2Proof.Machine.execFabricTapEffect ix s
  | .encoderCount e => Sys2Proof.Machine.execEncoderCount e s
  | .encoderStopped e => Sys2Proof.Machine.execEncoderStopped e s
  | .encoderIndex e => Sys2Proof.Machine.execEncoderIndex e s
  | .encoderMatch e m => Sys2Proof.Machine.execEncoderMatch e m s
  | .encoderLoad e => Sys2Proof.Machine.execEncoderLoad e s
  | .encoderCtlWrite e v => Sys2Proof.Machine.execEncoderCtlWrite e v s
  | .encoderPinsWrite e v => Sys2Proof.Machine.execEncoderPinsWrite e v s
  | .encoderPositionRead req e => Sys2Proof.Machine.execEncoderPositionRead req e s
  | .illegalCountRead req e => Sys2Proof.Machine.execIllegalCountRead req e s
  | .pgSoftwareStart n v => Sys2Proof.Machine.execPgSoftwareStart n v s
  | .pgCycleStart n => Sys2Proof.Machine.execPgCycleStart n s
  | .pgRunEnd n => Sys2Proof.Machine.execPgRunEnd n s
  | .pgStop n v => Sys2Proof.Machine.execPgStop n v s
  | .pgAbort n v => Sys2Proof.Machine.execPgAbort n v s
  | .pgRearm n v => Sys2Proof.Machine.execPgRearm n v s
  | .pgCtlWrite n v => Sys2Proof.Machine.execPgCtlWrite n v s
  | .pgShadowWrite n width v => Sys2Proof.Machine.execPgShadowWrite n width v s
  | .pgSeqselWrite n v => Sys2Proof.Machine.execPgSeqselWrite n v s
  | .pgSeqWrite n b ix v => Sys2Proof.Machine.execPgSeqWrite n b ix v s
  | .comparatorDecision t k uv => Sys2Proof.Machine.execComparatorDecision t k uv s
  | .tripRelease n => Sys2Proof.Machine.execTripRelease n s
  | .selectorWrite t v => Sys2Proof.Machine.execSelectorWrite t v s
  | .switchClose t => Sys2Proof.Machine.execSwitchClose t s
  | .busDriveWrite t v => Sys2Proof.Machine.execBusDriveWrite t v s
  | .biquadWrite t v => Sys2Proof.Machine.execBiquadWrite t v s
  | .modulatorOverload t m codes => Sys2Proof.Machine.execModulatorOverload t m codes s
  | .modulatorResume t m => Sys2Proof.Machine.execModulatorResume t m s
  | .biasReady t => Sys2Proof.Machine.execBiasReady t s
  | .comparatorCtlWrite t k v => Sys2Proof.Machine.execComparatorCtlWrite t k v s
  | .comparatorThresholdWrite t k v => Sys2Proof.Machine.execComparatorThresholdWrite t k v s
  | .thresholdSettled t k => Sys2Proof.Machine.execThresholdSettled t k s
  | .windowWrite t j v => Sys2Proof.Machine.execWindowWrite t j v s
  | .riseCountRead req t k => Sys2Proof.Machine.execRiseCountRead req t k s
  | .programEnd t => Sys2Proof.Machine.execProgramEnd t s
  | .dacCodeWrite t v => Sys2Proof.Machine.execDacCodeWrite t v s
  | .dacSourceWrite t v => Sys2Proof.Machine.execDacSourceWrite t v s
  | .rangeHoldEnd t => Sys2Proof.Machine.execRangeHoldEnd t s
  | .paletteWrite t b ix v => Sys2Proof.Machine.execPaletteWrite t b ix v s
  | .swapRequest t v => Sys2Proof.Machine.execSwapRequest t v s
  | .crossFadeEnd t => Sys2Proof.Machine.execCrossFadeEnd t s
  | .panelClear p low => Sys2Proof.Machine.execPanelClear p low s
  | .clearRelease p => Sys2Proof.Machine.execClearRelease p s
  | .currentLimitShort t limited => Sys2Proof.Machine.execCurrentLimitShort t limited s
  | .supervisionFault t code => Sys2Proof.Machine.execSupervisionFault t code s
  | .standbyDrive t => Sys2Proof.Machine.execStandbyDrive t s
  | .handover t v => Sys2Proof.Machine.execHandover t v s
  | .analogueSupplyValid => Sys2Proof.Machine.execAnalogueSupplyValid s
  | .peakDiffRead req t => Sys2Proof.Machine.execPeakDiffRead req t s
  | .dceOutput p c => Sys2Proof.Machine.execDceOutput p c s
  | .channelCtlWrite p c v => Sys2Proof.Machine.execChannelCtlWrite p c v s
  | .channelRestart p c => Sys2Proof.Machine.execChannelRestart p c s
  | .dceThresholdWrite p c ix v => Sys2Proof.Machine.execDceThresholdWrite p c ix v s
  | .rdidxWrite p c v => Sys2Proof.Machine.execRdidxWrite p c v s
  | .windowClose p c => Sys2Proof.Machine.execWindowClose p c s
  | .windowDone p c => Sys2Proof.Machine.execWindowDone p c s
  | .dceLastStampRead req p c => Sys2Proof.Machine.execDceLastStampRead req p c s
  | .overrunCountRead req p c => Sys2Proof.Machine.execOverrunCountRead req p c s
  | .latchTimingEdge h => Sys2Proof.Machine.execLatchTimingEdge h s
  | .shiftStart h => Sys2Proof.Machine.execShiftStart h s
  | .shiftEnd h => Sys2Proof.Machine.execShiftEnd h s
  | .readyPoll h => Sys2Proof.Machine.execReadyPoll h s
  | .blockFetch h => Sys2Proof.Machine.execBlockFetch h s
  | .portEnableWrite h v => Sys2Proof.Machine.execPortEnableWrite h v s
  | .profileWrite h ix v => Sys2Proof.Machine.execProfileWrite h ix v s
  | .prioPush h ix v => Sys2Proof.Machine.execPrioPush h ix v s
  | .senseDeadWrite h ix v => Sys2Proof.Machine.execSenseDeadWrite h ix v s
  | .nozzleMapWrite h k v => Sys2Proof.Machine.execNozzleMapWrite h k v s
  | .unretire h v => Sys2Proof.Machine.execUnretire h v s
  | .nozzleMapWalk h => Sys2Proof.Machine.execNozzleMapWalk h s
  | .criticalSetExpiry h tag => Sys2Proof.Machine.execCriticalSetExpiry h tag s
  | .auxPinChange h => Sys2Proof.Machine.execAuxPinChange h s
  | .planrdWrite h v => Sys2Proof.Machine.execPlanrdWrite h v s
  | .ledgerCtlWrite v => Sys2Proof.Machine.execLedgerCtlWrite v s
  | .recordClose tag => Sys2Proof.Machine.execRecordClose tag s
  | .recordFree tag => Sys2Proof.Machine.execRecordFree tag s
  | .rejectArm tag => Sys2Proof.Machine.execRejectArm tag s
  | .rejectArmRetry tag => Sys2Proof.Machine.execRejectArmRetry tag s
  | .raiseFail req => Sys2Proof.Machine.execRaiseFail req s
  | .raiseDoubt req => Sys2Proof.Machine.execRaiseDoubt req s
  | .setHorizon req => Sys2Proof.Machine.execSetHorizon req s
  | .ledgerRead req => Sys2Proof.Machine.execLedgerRead req s
  | .ringrdWrite v => Sys2Proof.Machine.execRingrdWrite v s
  | .add n rd rs rt => Sys2Proof.Machine.execAdd n rd rs rt s
  | .sub n rd rs rt => Sys2Proof.Machine.execSub n rd rs rt s
  | .and n rd rs rt => Sys2Proof.Machine.execAnd n rd rs rt s
  | .or n rd rs rt => Sys2Proof.Machine.execOr n rd rs rt s
  | .xor n rd rs rt => Sys2Proof.Machine.execXor n rd rs rt s
  | .andn n rd rs rt => Sys2Proof.Machine.execAndn n rd rs rt s
  | .shl n rd rs rt => Sys2Proof.Machine.execShl n rd rs rt s
  | .shr n rd rs rt => Sys2Proof.Machine.execShr n rd rs rt s
  | .sra n rd rs rt => Sys2Proof.Machine.execSra n rd rs rt s
  | .min n rd rs rt => Sys2Proof.Machine.execMin n rd rs rt s
  | .max n rd rs rt => Sys2Proof.Machine.execMax n rd rs rt s
  | .minu n rd rs rt => Sys2Proof.Machine.execMinu n rd rs rt s
  | .maxu n rd rs rt => Sys2Proof.Machine.execMaxu n rd rs rt s
  | .adds n rd rs rt => Sys2Proof.Machine.execAdds n rd rs rt s
  | .subs n rd rs rt => Sys2Proof.Machine.execSubs n rd rs rt s
  | .addi n rd rs imm => Sys2Proof.Machine.execAddi n rd rs imm s
  | .subi n rd rs imm => Sys2Proof.Machine.execSubi n rd rs imm s
  | .andi n rd rs imm => Sys2Proof.Machine.execAndi n rd rs imm s
  | .ori n rd rs imm => Sys2Proof.Machine.execOri n rd rs imm s
  | .xori n rd rs imm => Sys2Proof.Machine.execXori n rd rs imm s
  | .lui n rd imm => Sys2Proof.Machine.execLui n rd imm s
  | .shli n rd rs imm => Sys2Proof.Machine.execShli n rd rs imm s
  | .shri n rd rs imm => Sys2Proof.Machine.execShri n rd rs imm s
  | .srai n rd rs imm => Sys2Proof.Machine.execSrai n rd rs imm s
  | .adda n ad ra imm => Sys2Proof.Machine.execAdda n ad ra imm s
  | .addaR n ad ra rt => Sys2Proof.Machine.execAddaR n ad ra rt s
  | .laLo n ad rs => Sys2Proof.Machine.execLaLo n ad rs s
  | .laHi n ad rs => Sys2Proof.Machine.execLaHi n ad rs s
  | .mgaLo n rd ra => Sys2Proof.Machine.execMgaLo n rd ra s
  | .mgaHi n rd ra => Sys2Proof.Machine.execMgaHi n rd ra s
  | .mul n rd rs rt => Sys2Proof.Machine.execMul n rd rs rt s
  | .mulhs n rd rs rt => Sys2Proof.Machine.execMulhs n rd rs rt s
  | .mulhu n rd rs rt => Sys2Proof.Machine.execMulhu n rd rs rt s
  | .mac n rd rs rt => Sys2Proof.Machine.execMac n rd rs rt s
  | .msu n rd rs rt => Sys2Proof.Machine.execMsu n rd rs rt s
  | .gfmul n sel rd rs rt => Sys2Proof.Machine.execGfmul n sel rd rs rt s
  | .gfmac n sel rd rs rt => Sys2Proof.Machine.execGfmac n sel rd rs rt s
  | .popc n rd rs => Sys2Proof.Machine.execPopc n rd rs s
  | .clz n rd rs => Sys2Proof.Machine.execClz n rd rs s
  | .ctz n rd rs => Sys2Proof.Machine.execCtz n rd rs s
  | .brev n rd rs => Sys2Proof.Machine.execBrev n rd rs s
  | .bswap n rd rs => Sys2Proof.Machine.execBswap n rd rs s
  | .bfxu n rd rs pos len => Sys2Proof.Machine.execBfxu n rd rs pos len s
  | .bfxs n rd rs pos len => Sys2Proof.Machine.execBfxs n rd rs pos len s
  | .bfi n rd rs pos len => Sys2Proof.Machine.execBfi n rd rs pos len s
  | .cmpeq n pd rs rt => Sys2Proof.Machine.execCmpeq n pd rs rt s
  | .cmpne n pd rs rt => Sys2Proof.Machine.execCmpne n pd rs rt s
  | .cmplt n pd rs rt => Sys2Proof.Machine.execCmplt n pd rs rt s
  | .cmpltu n pd rs rt => Sys2Proof.Machine.execCmpltu n pd rs rt s
  | .cmpge n pd rs rt => Sys2Proof.Machine.execCmpge n pd rs rt s
  | .cmpgeu n pd rs rt => Sys2Proof.Machine.execCmpgeu n pd rs rt s
  | .cmpi n cc pd rs imm => Sys2Proof.Machine.execCmpi n cc pd rs imm s
  | .pand n pd ps pt => Sys2Proof.Machine.execPand n pd ps pt s
  | .por n pd ps pt => Sys2Proof.Machine.execPor n pd ps pt s
  | .pxor n pd ps pt => Sys2Proof.Machine.execPxor n pd ps pt s
  | .pandn n pd ps pt => Sys2Proof.Machine.execPandn n pd ps pt s
  | .sel n rd rs rt p => Sys2Proof.Machine.execSel n rd rs rt p s
  | .ldB n rd ra off => Sys2Proof.Machine.execLdB n rd ra off s
  | .ldH n rd ra off => Sys2Proof.Machine.execLdH n rd ra off s
  | .ldW n rd ra off => Sys2Proof.Machine.execLdW n rd ra off s
  | .ldV n vd ra off => Sys2Proof.Machine.execLdV n vd ra off s
  | .ldBu n rd ra off => Sys2Proof.Machine.execLdBu n rd ra off s
  | .ldHu n rd ra off => Sys2Proof.Machine.execLdHu n rd ra off s
  | .stB n rd ra off => Sys2Proof.Machine.execStB n rd ra off s
  | .stH n rd ra off => Sys2Proof.Machine.execStH n rd ra off s
  | .stW n rd ra off => Sys2Proof.Machine.execStW n rd ra off s
  | .stV n vd ra off => Sys2Proof.Machine.execStV n vd ra off s
  | .dma n rd ra off => Sys2Proof.Machine.execDma n rd ra off s
  | .vadd n es vd vs vt => Sys2Proof.Machine.execVadd n es vd vs vt s
  | .vsub n es vd vs vt => Sys2Proof.Machine.execVsub n es vd vs vt s
  | .vadds n es vd vs vt => Sys2Proof.Machine.execVadds n es vd vs vt s
  | .vaddsu n es vd vs vt => Sys2Proof.Machine.execVaddsu n es vd vs vt s
  | .vsubs n es vd vs vt => Sys2Proof.Machine.execVsubs n es vd vs vt s
  | .vsubsu n es vd vs vt => Sys2Proof.Machine.execVsubsu n es vd vs vt s
  | .vmul n es vd vs vt => Sys2Proof.Machine.execVmul n es vd vs vt s
  | .vmulhs n es vd vs vt => Sys2Proof.Machine.execVmulhs n es vd vs vt s
  | .vmin n es vd vs vt => Sys2Proof.Machine.execVmin n es vd vs vt s
  | .vminu n es vd vs vt => Sys2Proof.Machine.execVminu n es vd vs vt s
  | .vmax n es vd vs vt => Sys2Proof.Machine.execVmax n es vd vs vt s
  | .vmaxu n es vd vs vt => Sys2Proof.Machine.execVmaxu n es vd vs vt s
  | .vavgu n es vd vs vt => Sys2Proof.Machine.execVavgu n es vd vs vt s
  | .vand n es vd vs vt => Sys2Proof.Machine.execVand n es vd vs vt s
  | .vor n es vd vs vt => Sys2Proof.Machine.execVor n es vd vs vt s
  | .vxor n es vd vs vt => Sys2Proof.Machine.execVxor n es vd vs vt s
  | .vandn n es vd vs vt => Sys2Proof.Machine.execVandn n es vd vs vt s
  | .vcmpeq n es vd vs vt => Sys2Proof.Machine.execVcmpeq n es vd vs vt s
  | .vcmpgt n es vd vs vt => Sys2Proof.Machine.execVcmpgt n es vd vs vt s
  | .vcmpgtu n es vd vs vt => Sys2Proof.Machine.execVcmpgtu n es vd vs vt s
  | .vshl n es vd vs gt => Sys2Proof.Machine.execVshl n es vd vs gt s
  | .vshr n es vd vs gt => Sys2Proof.Machine.execVshr n es vd vs gt s
  | .vsra n es vd vs gt => Sys2Proof.Machine.execVsra n es vd vs gt s
  | .vperm n es vd vs vt => Sys2Proof.Machine.execVperm n es vd vs vt s
  | .vbtr8 n es vd vs => Sys2Proof.Machine.execVbtr8 n es vd vs s
  | .vext n es gd vs ln => Sys2Proof.Machine.execVext n es gd vs ln s
  | .vins n es vd gs ln => Sys2Proof.Machine.execVins n es vd gs ln s
  | .vsplat n es vd gs => Sys2Proof.Machine.execVsplat n es vd gs s
  | .vslb n es vd vs k => Sys2Proof.Machine.execVslb n es vd vs k s
  | .vsrb n es vd vs k => Sys2Proof.Machine.execVsrb n es vd vs k s
  | .vsel n es vd vs vt => Sys2Proof.Machine.execVsel n es vd vs vt s
  | .vhsum n es gd vs => Sys2Proof.Machine.execVhsum n es gd vs s
  | .vht1 n es gd vs vt => Sys2Proof.Machine.execVht1 n es gd vs vt s
  | .vht2 n es gd vs vt => Sys2Proof.Machine.execVht2 n es gd vs vt s
  | .vgfmul n es sel vd vs vt => Sys2Proof.Machine.execVgfmul n es sel vd vs vt s
  | .vgfmac n es sel vd vs vt => Sys2Proof.Machine.execVgfmac n es sel vd vs vt s
  | .vgfmacs n es sel vd vs gt => Sys2Proof.Machine.execVgfmacs n es sel vd vs gt s
  | .br n pr off => Sys2Proof.Machine.execBr n pr off s
  | .brf n pr off => Sys2Proof.Machine.execBrf n pr off s
  | .bra n off => Sys2Proof.Machine.execBra n off s
  | .call n off => Sys2Proof.Machine.execCall n off s
  | .jr n ra => Sys2Proof.Machine.execJr n ra s
  | .jalr n ad ra => Sys2Proof.Machine.execJalr n ad ra s
  | .qget n rd rs nowait => Sys2Proof.Machine.execQget n rd rs nowait s
  | .qput n rd ra => Sys2Proof.Machine.execQput n rd ra s
  | .qsteal n rs => Sys2Proof.Machine.execQsteal n rs s
  | .qdone n rd => Sys2Proof.Machine.execQdone n rd s
  | .qfail n rd rs => Sys2Proof.Machine.execQfail n rd rs s
  | .carmT n rd vs => Sys2Proof.Machine.execCarmT n rd vs s
  | .carmP n rd vs => Sys2Proof.Machine.execCarmP n rd vs s
  | .cdisarm n rd rs => Sys2Proof.Machine.execCdisarm n rd rs s
  | .twait n rs => Sys2Proof.Machine.execTwait n rs s
  | .dlset n rs => Sys2Proof.Machine.execDlset n rs s
  | .ewait n rd rs => Sys2Proof.Machine.execEwait n rd rs s
  | .raise n rs => Sys2Proof.Machine.execRaise n rs s
  | .mfsr n rd sr => Sys2Proof.Machine.execMfsr n rd sr s
  | .mtsr n rs sr => Sys2Proof.Machine.execMtsr n rs sr s
  | .fenceL n => Sys2Proof.Machine.execFenceL n s
  | .fenceS n => Sys2Proof.Machine.execFenceS n s
  | .fenceI n => Sys2Proof.Machine.execFenceI n s
  | .iinv n => Sys2Proof.Machine.execIinv n s
  | .park n => Sys2Proof.Machine.execPark n s
  | .eret n => Sys2Proof.Machine.execEret n s
  | .trap n code => Sys2Proof.Machine.execTrap n code s
  | .brk n => Sys2Proof.Machine.execBrk n s
  | .dmawait n rd rs => Sys2Proof.Machine.execDmawait n rd rs s
  | .exceptionEntry n => Sys2Proof.Machine.execExceptionEntry n s
  | .loadReturn n k ue => Sys2Proof.Machine.execLoadReturn n k ue s
  | .storeAcknowledge n k => Sys2Proof.Machine.execStoreAcknowledge n k s
  | .icacheRefill n line way => Sys2Proof.Machine.execIcacheRefill n line way s
  | .answerReturn n => Sys2Proof.Machine.execAnswerReturn n s
  | .twaitSatisfied n => Sys2Proof.Machine.execTwaitSatisfied n s
  | .ewaitSatisfied n => Sys2Proof.Machine.execEwaitSatisfied n s
  | .qgetTimeout n => Sys2Proof.Machine.execQgetTimeout n s
  | .dmaComplete n => Sys2Proof.Machine.execDmaComplete n s
  | .dmawaitReturn n => Sys2Proof.Machine.execDmawaitReturn n s
  | .engineCueTimer n => Sys2Proof.Machine.execEngineCueTimer n s
  | .deadlineWatchFire n => Sys2Proof.Machine.execDeadlineWatchFire n s
  | .watchdogExpiry n => Sys2Proof.Machine.execWatchdogExpiry n s
  | .engineFault n => Sys2Proof.Machine.execEngineFault n s
  | .engineStart n v => Sys2Proof.Machine.execEngineStart n v s
  | .engineReset n v => Sys2Proof.Machine.execEngineReset n v s
  | .forceFault n v => Sys2Proof.Machine.execForceFault n v s
  | .unlock n v => Sys2Proof.Machine.execUnlock n v s
  | .halt n v => Sys2Proof.Machine.execHalt n v s
  | .step n v => Sys2Proof.Machine.execStep n v s
  | .resume n v => Sys2Proof.Machine.execResume n v s
  | .breakpointHit n ix => Sys2Proof.Machine.execBreakpointHit n ix s
  | .perfCountRead req n stall => Sys2Proof.Machine.execPerfCountRead req n stall s
  | .jobDelivery c => Sys2Proof.Machine.execJobDelivery c s
  | .hostPostGo req q v => Sys2Proof.Machine.execHostPostGo req q v s
  | .missDetection q idx => Sys2Proof.Machine.execMissDetection q idx s
  | .fallbackPost q => Sys2Proof.Machine.execFallbackPost q s
  | .jobReturn n => Sys2Proof.Machine.execJobReturn n s
  | .headAdvance q => Sys2Proof.Machine.execHeadAdvance q s
  | .classAging q => Sys2Proof.Machine.execClassAging q s
  | .urgencyOnset q => Sys2Proof.Machine.execUrgencyOnset q s
  | .queueCtlWrite q v => Sys2Proof.Machine.execQueueCtlWrite q v s
  | .queueCountRead req q ix => Sys2Proof.Machine.execQueueCountRead req q ix s
  | .headdlRead req q => Sys2Proof.Machine.execHeaddlRead req q s
  | .correctedWriteback a again => Sys2Proof.Machine.execCorrectedWriteback a again s
  | .testWindowStart m => Sys2Proof.Machine.execTestWindowStart m s
  | .testWindowAbandon m => Sys2Proof.Machine.execTestWindowAbandon m s
  | .rowRestore m => Sys2Proof.Machine.execRowRestore m s
  | .testWindowEnd m pass => Sys2Proof.Machine.execTestWindowEnd m pass s
  | .bankSpareComplete c => Sys2Proof.Machine.execBankSpareComplete c s
  | .retain c v => Sys2Proof.Machine.execRetain c v s
  | .retainComplete c => Sys2Proof.Machine.execRetainComplete c s
  | .wake c v => Sys2Proof.Machine.execWake c v s
  | .wakeComplete c => Sys2Proof.Machine.execWakeComplete c s
  | .ceCountRead req c => Sys2Proof.Machine.execCeCountRead req c s
  | .lpddrRead a cls who super err again => Sys2Proof.Machine.execLpddrRead a cls who super err again s
  | .lpddrWrite a cls who super data err => Sys2Proof.Machine.execLpddrWrite a cls who super data err s
  | .channelFailed k => Sys2Proof.Machine.execChannelFailed k s
  | .scrubRead err again => Sys2Proof.Machine.execScrubRead err again s
  | .memcCfgWrite v => Sys2Proof.Machine.execMemcCfgWrite v s
  | .memcCountRead req k => Sys2Proof.Machine.execMemcCountRead req k s
  | .bar0Write a be ws ep => Sys2Proof.Machine.execBar0Write a be ws ep s
  | .bar0Read a n narrow => Sys2Proof.Machine.execBar0Read a n narrow s
  | .unsupportedRequest malformed => Sys2Proof.Machine.execUnsupportedRequest malformed s
  | .dataPortWrite n o be ws ep => Sys2Proof.Machine.execDataPortWrite n o be ws ep s
  | .burstIdleTimeout n => Sys2Proof.Machine.execBurstIdleTimeout n s
  | .flush n v => Sys2Proof.Machine.execFlush n v s
  | .dataPortRead n o len => Sys2Proof.Machine.execDataPortRead n o len s
  | .dataPortSeamTimeout n a => Sys2Proof.Machine.execDataPortSeamTimeout n a s
  | .msixSend k => Sys2Proof.Machine.execMsixSend k s
  | .functionReset => Sys2Proof.Machine.execFunctionReset s
  | .retrain v => Sys2Proof.Machine.execRetrain v s
  | .linkUp speed width => Sys2Proof.Machine.execLinkUp speed width s
  | .linkDown => Sys2Proof.Machine.execLinkDown s
  | .speedChange speed => Sys2Proof.Machine.execSpeedChange speed s
  | .violationCountRead req => Sys2Proof.Machine.execViolationCountRead req s
  | .bootRead v => Sys2Proof.Machine.execBootRead v s
  | .bootProgram v => Sys2Proof.Machine.execBootProgram v s
  | .bootErase v => Sys2Proof.Machine.execBootErase v s
  | .bootDone remote fail => Sys2Proof.Machine.execBootDone remote fail s
  | .flashBusyTimeout done => Sys2Proof.Machine.execFlashBusyTimeout done s
  | .fabricPortRequest sl k write a data => Sys2Proof.Machine.execFabricPortRequest sl k write a data s
  | .cuffWrite sl w v => Sys2Proof.Machine.execCuffWrite sl w v s
  | .ownerChange pin => Sys2Proof.Machine.execOwnerChange pin s
  | .loadGo v => Sys2Proof.Machine.execLoadGo v s
  | .loadCheckDone => Sys2Proof.Machine.execLoadCheckDone s
  | .loadAbort v => Sys2Proof.Machine.execLoadAbort v s
  | .applyStart => Sys2Proof.Machine.execApplyStart s
  | .sleeveRelease => Sys2Proof.Machine.execSleeveRelease s
  | .configWriteData data => Sys2Proof.Machine.execConfigWriteData data s
  | .configReadStatus => Sys2Proof.Machine.execConfigReadStatus s
  | .configParallelWord w rdy => Sys2Proof.Machine.execConfigParallelWord w rdy s
  | .configCsRise part => Sys2Proof.Machine.execConfigCsRise part s
  | .portSilenceTimeout => Sys2Proof.Machine.execPortSilenceTimeout s
  | .portViolationRead req => Sys2Proof.Machine.execPortViolationRead req s
  | .verifyImage v => Sys2Proof.Machine.execVerifyImage v s
  | .attest v => Sys2Proof.Machine.execAttest v s
  | .enrol v => Sys2Proof.Machine.execEnrol v s
  | .revoke v => Sys2Proof.Machine.execRevoke v s
  | .debugUnlock v => Sys2Proof.Machine.execDebugUnlock v s
  | .mantleOperationDone fuseOk => Sys2Proof.Machine.execMantleOperationDone fuseOk s
  | .rollbackAdvance v => Sys2Proof.Machine.execRollbackAdvance v s
  | .fuseBurnDone ok => Sys2Proof.Machine.execFuseBurnDone ok s
  | .debugLock v => Sys2Proof.Machine.execDebugLock v s
  | .unlockExpiry => Sys2Proof.Machine.execUnlockExpiry s
  | .rgnLock v => Sys2Proof.Machine.execRgnLock v s
  | .seamPortEnable k v => Sys2Proof.Machine.execSeamPortEnable k v s
  | .seamRetrain k v => Sys2Proof.Machine.execSeamRetrain k v s
  | .trainingComplete k lanes id valid port => Sys2Proof.Machine.execTrainingComplete k lanes id valid port s
  | .trainingRestart k => Sys2Proof.Machine.execTrainingRestart k s
  | .laneSparing k lane => Sys2Proof.Machine.execLaneSparing k lane s
  | .portDown k why => Sys2Proof.Machine.execPortDown k why s
  | .hello k f => Sys2Proof.Machine.execHello k f s
  | .laneMap k f => Sys2Proof.Machine.execLaneMap k f s
  | .idle k f => Sys2Proof.Machine.execIdle k f s
  | .idleSend k => Sys2Proof.Machine.execIdleSend k s
  | .replayTimeout k => Sys2Proof.Machine.execReplayTimeout k s
  | .seamWrite k f => Sys2Proof.Machine.execSeamWrite k f s
  | .seamRead k f => Sys2Proof.Machine.execSeamRead k f s
  | .readResp k f => Sys2Proof.Machine.execReadResp k f s
  | .seamAnswer k f => Sys2Proof.Machine.execSeamAnswer k f s
  | .seamMsg k f => Sys2Proof.Machine.execSeamMsg k f s
  | .cueAt k f => Sys2Proof.Machine.execCueAt k f s
  | .seamAttest k f => Sys2Proof.Machine.execSeamAttest k f s
  | .timeSync k f eighth => Sys2Proof.Machine.execTimeSync k f eighth s
  | .timeSyncReply k f eighth => Sys2Proof.Machine.execTimeSyncReply k f eighth s
  | .tsyncExchange eighth => Sys2Proof.Machine.execTsyncExchange eighth s
  | .seamRequestTimeout k tid => Sys2Proof.Machine.execSeamRequestTimeout k tid s
  | .cueAtGo req v => Sys2Proof.Machine.execCueAtGo req v s
  | .attestGo req v => Sys2Proof.Machine.execAttestGo req v s
  | .seamWindowAccess req write a len data => Sys2Proof.Machine.execSeamWindowAccess req write a len data s
  | .seamRelease k v => Sys2Proof.Machine.execSeamRelease k v s
  | .msgrdWrite v => Sys2Proof.Machine.execMsgrdWrite v s
  | .dropCountRead req => Sys2Proof.Machine.execDropCountRead req s
  | .seamViolCountRead req k => Sys2Proof.Machine.execSeamViolCountRead req k s
  | .replayCountRead req k => Sys2Proof.Machine.execReplayCountRead req k s
  | .temperatureCheck p => Sys2Proof.Machine.execTemperatureCheck p s
  | .calRequest t v => Sys2Proof.Machine.execCalRequest t v s
  | .calCommit t v => Sys2Proof.Machine.execCalCommit t v s
  | .calStepStart t => Sys2Proof.Machine.execCalStepStart t s
  | .calStepEnd t vals => Sys2Proof.Machine.execCalStepEnd t vals s
  | .stepAbandon t => Sys2Proof.Machine.execStepAbandon t s
  | .calStarved t => Sys2Proof.Machine.execCalStarved t s
  | .sensorUpdate ix temp => Sys2Proof.Machine.execSensorUpdate ix temp s
  | .sensorFault ix => Sys2Proof.Machine.execSensorFault ix s
  | .lioDataWrite b v => Sys2Proof.Machine.execLioDataWrite b v s
  | .lioSet b v => Sys2Proof.Machine.execLioSet b v s
  | .lioClr b v => Sys2Proof.Machine.execLioClr b v s
  | .lioTgl b v => Sys2Proof.Machine.execLioTgl b v s
  | .lioCfgWrite pin v => Sys2Proof.Machine.execLioCfgWrite pin v s
  | .bankSupplyChange b valid level => Sys2Proof.Machine.execBankSupplyChange b valid level s
  | .uartDataWrite u v => Sys2Proof.Machine.execUartDataWrite u v s
  | .uartDataRead req u => Sys2Proof.Machine.execUartDataRead req u s
  | .uartReceive u b noStop badParity => Sys2Proof.Machine.execUartReceive u b noStop badParity s
  | .uartByteSent u => Sys2Proof.Machine.execUartByteSent u s
  | .spiDataWrite ix v => Sys2Proof.Machine.execSpiDataWrite ix v s
  | .spiDataRead req ix => Sys2Proof.Machine.execSpiDataRead req ix s
  | .spiByteDone ix miso => Sys2Proof.Machine.execSpiByteDone ix miso s
  | .i2cGo ix v => Sys2Proof.Machine.execI2cGo ix v s
  | .i2cTransferDone ix sent rd nack arbLost => Sys2Proof.Machine.execI2cTransferDone ix sent rd nack arbLost s
  | .i2cBusStuck ix => Sys2Proof.Machine.execI2cBusStuck ix s
  | .i2cDataRead req ix => Sys2Proof.Machine.execI2cDataRead req ix s
  | .swraise v => Sys2Proof.Machine.execSwraise v s
  | .seamEventMsg e => Sys2Proof.Machine.execSeamEventMsg e s
  | .raiseCountRead req => Sys2Proof.Machine.execRaiseCountRead req s
  | .supplyOut ix => Sys2Proof.Machine.execSupplyOut ix s
  | .supplyIn ix => Sys2Proof.Machine.execSupplyIn ix s
  | .faultLogWrite ok => Sys2Proof.Machine.execFaultLogWrite ok s
  | .sysReset straps => Sys2Proof.Machine.execSysReset straps s
  | .powerLoss => Sys2Proof.Machine.execPowerLoss s
  | .startSequence ok data => Sys2Proof.Machine.execStartSequence ok data s
  | .stepTimeout n => Sys2Proof.Machine.execStepTimeout n s
  | .internalRestart straps => Sys2Proof.Machine.execInternalRestart straps s
  | .stepRevert n v => Sys2Proof.Machine.execStepRevert n v s
  | .fabricCueOutput o level => Sys2Proof.Machine.execFabricCueOutput o level s
  | .fastsumUpdate p c code => Sys2Proof.Machine.execFastsumUpdate p c code s
  | .windowOpen p c => Sys2Proof.Machine.execWindowOpen p c s
  | .pgaClip t ix uv => Sys2Proof.Machine.execPgaClip t ix uv s
  | .biquadClip t uv => Sys2Proof.Machine.execBiquadClip t uv s
  | .cueAtAnswer k f => Sys2Proof.Machine.execCueAtAnswer k f s
  | .attestAnswer k f => Sys2Proof.Machine.execAttestAnswer k f s
  | .configurationSpaceWrite msix mask master d3 => Sys2Proof.Machine.execConfigurationSpaceWrite msix mask master d3 s
  | .dacPortUncorrectableRead t => Sys2Proof.Machine.execDacPortUncorrectableRead t s
  | .unknownQspiCommand => Sys2Proof.Machine.execUnknownQspiCommand s

end Sys2Proof.Machine
end

