-- ==== Sys2Proof/WellFormed.lean ====
section
/-!
DEFINITION. Which commands are well formed: every index within what the part has (register tables of the chapters),
and every operand of an engine instruction within its field (chapter 10).
-/
namespace Sys2Proof

/-- The part has this requester: the host, an engine, a Seam port, or the loop by which the device reaches itself. -/
def Req.present : Req → Bool
  | .host => true
  | .engine n => decide (n < 192)
  | .seam k => decide (k < 5)

/-- Every operand of the command is within its range. -/
def Instr.wellFormed (c : Instr) : Bool :=
  match c with
  | .registerWrite req a _ => req.present && decide (a < 16777216) && a % 4 = 0
  | .crystalLoss _ => true
  | .crystalValid _ => true
  | .switchover _ => true
  | .selectWrite _ => true
  | .holdoverExpired => true
  | .pllRelock => true
  | .clockRelease _ => true
  | .linetimeRead req => req.present
  | .rateCorrection => true
  | .slewAdjust req _ => req.present
  | .slewTick => true
  | .linetimeLoad => true
  | .lineIoEdge pin _ frac => decide (pin < 256) && decide (frac < 8)
  | .slotSatisfied n k => decide (n < 1024) && decide (k < 4)
  | .cueEffect n => decide (n < 1024)
  | .hostArmGo n _ => decide (n < 1024)
  | .disarm n _ => decide (n < 1024)
  | .targetConfigWrite n _ _ => decide (n < 1024)
  | .capturePop u _ => decide (u < 128)
  | .mergeCountRead req n => req.present && decide (n < 1024)
  | .fabricTapEffect i => decide (i < 128)
  | .encoderCount e => decide (e < 32)
  | .encoderStopped e => decide (e < 32)
  | .encoderIndex e => decide (e < 32)
  | .encoderMatch e m => decide (e < 32) && decide (m < 2)
  | .encoderLoad e => decide (e < 32)
  | .encoderCtlWrite e _ => decide (e < 32)
  | .encoderPinsWrite e _ => decide (e < 32)
  | .encoderPositionRead req e => req.present && decide (e < 32)
  | .illegalCountRead req e => req.present && decide (e < 32)
  | .pgSoftwareStart n _ => decide (n < 512)
  | .pgCycleStart n => decide (n < 512)
  | .pgRunEnd n => decide (n < 512)
  | .pgStop n _ => decide (n < 512)
  | .pgAbort n _ => decide (n < 512)
  | .pgRearm n _ => decide (n < 512)
  | .pgCtlWrite n _ => decide (n < 512)
  | .pgShadowWrite n _ _ => decide (n < 512)
  | .pgSeqselWrite n _ => decide (n < 512)
  | .pgSeqWrite n b i _ => decide (n < 512) && decide (b < 2) && decide (i < 32)
  | .comparatorDecision t k _ => decide (t < 128) && decide (k < 4)
  | .tripRelease n => decide (n < 512)
  | .selectorWrite t _ => decide (t < 128)
  | .switchClose t => decide (t < 128)
  | .busDriveWrite t _ => decide (t < 128)
  | .biquadWrite t _ => decide (t < 128)
  | .modulatorOverload t m _ => decide (t < 128) && decide (m < 2)
  | .modulatorResume t m => decide (t < 128) && decide (m < 2)
  | .biasReady t => decide (t < 128)
  | .comparatorCtlWrite t k _ => decide (t < 128) && decide (k < 4)
  | .comparatorThresholdWrite t k _ => decide (t < 128) && decide (k < 4)
  | .thresholdSettled t k => decide (t < 128) && decide (k < 4)
  | .windowWrite t j _ => decide (t < 128) && decide (j < 2)
  | .riseCountRead req t k => req.present && decide (t < 128) && decide (k < 4)
  | .programEnd t => decide (t < 128)
  | .dacCodeWrite t _ => decide (t < 128)
  | .dacSourceWrite t _ => decide (t < 128)
  | .rangeHoldEnd t => decide (t < 128)
  | .paletteWrite t b i _ => decide (t < 128) && decide (b < 2) && decide (i < 33)
  | .swapRequest t _ => decide (t < 128)
  | .crossFadeEnd t => decide (t < 128)
  | .panelClear p _ => decide (p < 9)
  | .clearRelease p => decide (p < 9)
  | .currentLimitShort t _ => decide (t < 128)
  | .supervisionFault t _ => decide (t < 128)
  | .standbyDrive t => decide (t < 128)
  | .handover t _ => decide (t < 128)
  | .analogueSupplyValid => true
  | .peakDiffRead req t => req.present && decide (t < 128)
  | .dceOutput p c => decide (p < 8) && decide (c < 32)
  | .channelCtlWrite p c _ => decide (p < 8) && decide (c < 32)
  | .channelRestart p c => decide (p < 8) && decide (c < 32)
  | .dceThresholdWrite p c i _ => decide (p < 8) && decide (c < 32) && decide (i < 3)
  | .rdidxWrite p c _ => decide (p < 8) && decide (c < 32)
  | .windowClose p c => decide (p < 8) && decide (c < 32)
  | .windowDone p c => decide (p < 8) && decide (c < 32)
  | .dceLastStampRead req p c => req.present && decide (p < 8) && decide (c < 32)
  | .overrunCountRead req p c => req.present && decide (p < 8) && decide (c < 32)
  | .latchTimingEdge h => decide (h < 32)
  | .shiftStart h => decide (h.num < 32)
  | .shiftEnd h => decide (h < 32)
  | .readyPoll h => decide (h.num < 32)
  | .blockFetch h => decide (h.num < 32)
  | .portEnableWrite h _ => decide (h < 32)
  | .profileWrite h i _ => decide (h < 32) && decide (i < 3)
  | .prioPush h i _ => decide (h < 32) && decide (i < 2)
  | .senseDeadWrite h i _ => decide (h < 32) && decide (i < 2)
  | .nozzleMapWrite h k _ => decide (h < 32) && decide (k < 4096)
  | .unretire h _ => decide (h < 32)
  | .nozzleMapWalk h => decide (h < 32)
  | .criticalSetExpiry h _ => decide (h < 32)
  | .auxPinChange h => decide (h < 32)
  | .planrdWrite h _ => decide (h < 32)
  | .ledgerCtlWrite _ => true
  | .recordClose _ => true
  | .recordFree _ => true
  | .rejectArm _ => true
  | .rejectArmRetry _ => true
  | .raiseFail req => req.present
  | .raiseDoubt req => req.present
  | .setHorizon req => req.present
  | .ledgerRead req => req.present
  | .ringrdWrite _ => true
  | .add n rd rs rt => decide (n < 192) && decide (rd < 64) && decide (rs < 64) && decide (rt < 64)
  | .sub n rd rs rt => decide (n < 192) && decide (rd < 64) && decide (rs < 64) && decide (rt < 64)
  | .and n rd rs rt => decide (n < 192) && decide (rd < 64) && decide (rs < 64) && decide (rt < 64)
  | .or n rd rs rt => decide (n < 192) && decide (rd < 64) && decide (rs < 64) && decide (rt < 64)
  | .xor n rd rs rt => decide (n < 192) && decide (rd < 64) && decide (rs < 64) && decide (rt < 64)
  | .andn n rd rs rt => decide (n < 192) && decide (rd < 64) && decide (rs < 64) && decide (rt < 64)
  | .shl n rd rs rt => decide (n < 192) && decide (rd < 64) && decide (rs < 64) && decide (rt < 64)
  | .shr n rd rs rt => decide (n < 192) && decide (rd < 64) && decide (rs < 64) && decide (rt < 64)
  | .sra n rd rs rt => decide (n < 192) && decide (rd < 64) && decide (rs < 64) && decide (rt < 64)
  | .min n rd rs rt => decide (n < 192) && decide (rd < 64) && decide (rs < 64) && decide (rt < 64)
  | .max n rd rs rt => decide (n < 192) && decide (rd < 64) && decide (rs < 64) && decide (rt < 64)
  | .minu n rd rs rt => decide (n < 192) && decide (rd < 64) && decide (rs < 64) && decide (rt < 64)
  | .maxu n rd rs rt => decide (n < 192) && decide (rd < 64) && decide (rs < 64) && decide (rt < 64)
  | .adds n rd rs rt => decide (n < 192) && decide (rd < 64) && decide (rs < 64) && decide (rt < 64)
  | .subs n rd rs rt => decide (n < 192) && decide (rd < 64) && decide (rs < 64) && decide (rt < 64)
  | .addi n rd rs _ => decide (n < 192) && decide (rd < 64) && decide (rs < 64)
  | .subi n rd rs _ => decide (n < 192) && decide (rd < 64) && decide (rs < 64)
  | .andi n rd rs _ => decide (n < 192) && decide (rd < 64) && decide (rs < 64)
  | .ori n rd rs _ => decide (n < 192) && decide (rd < 64) && decide (rs < 64)
  | .xori n rd rs _ => decide (n < 192) && decide (rd < 64) && decide (rs < 64)
  | .lui n rd _ => decide (n < 192) && decide (rd < 64)
  | .shli n rd rs _ => decide (n < 192) && decide (rd < 64) && decide (rs < 64)
  | .shri n rd rs _ => decide (n < 192) && decide (rd < 64) && decide (rs < 64)
  | .srai n rd rs _ => decide (n < 192) && decide (rd < 64) && decide (rs < 64)
  | .adda n ad ra _ => decide (n < 192) && decide (ad < 64) && decide (ra < 64)
  | .addaR n ad ra rt => decide (n < 192) && decide (ad < 64) && decide (ra < 64) && decide (rt < 64)
  | .laLo n ad rs => decide (n < 192) && decide (ad < 64) && decide (rs < 64)
  | .laHi n ad rs => decide (n < 192) && decide (ad < 64) && decide (rs < 64)
  | .mgaLo n rd ra => decide (n < 192) && decide (rd < 64) && decide (ra < 64)
  | .mgaHi n rd ra => decide (n < 192) && decide (rd < 64) && decide (ra < 64)
  | .mul n rd rs rt => decide (n < 192) && decide (rd < 64) && decide (rs < 64) && decide (rt < 64)
  | .mulhs n rd rs rt => decide (n < 192) && decide (rd < 64) && decide (rs < 64) && decide (rt < 64)
  | .mulhu n rd rs rt => decide (n < 192) && decide (rd < 64) && decide (rs < 64) && decide (rt < 64)
  | .mac n rd rs rt => decide (n < 192) && decide (rd < 64) && decide (rs < 64) && decide (rt < 64)
  | .msu n rd rs rt => decide (n < 192) && decide (rd < 64) && decide (rs < 64) && decide (rt < 64)
  | .gfmul n _ rd rs rt => decide (n < 192) && decide (rd < 64) && decide (rs < 64) && decide (rt < 64)
  | .gfmac n _ rd rs rt => decide (n < 192) && decide (rd < 64) && decide (rs < 64) && decide (rt < 64)
  | .popc n rd rs => decide (n < 192) && decide (rd < 64) && decide (rs < 64)
  | .clz n rd rs => decide (n < 192) && decide (rd < 64) && decide (rs < 64)
  | .ctz n rd rs => decide (n < 192) && decide (rd < 64) && decide (rs < 64)
  | .brev n rd rs => decide (n < 192) && decide (rd < 64) && decide (rs < 64)
  | .bswap n rd rs => decide (n < 192) && decide (rd < 64) && decide (rs < 64)
  | .bfxu n rd rs pos len => decide (n < 192) && decide (rd < 64) && decide (rs < 64) && decide (pos < 32) && decide (len < 64)
  | .bfxs n rd rs pos len => decide (n < 192) && decide (rd < 64) && decide (rs < 64) && decide (pos < 32) && decide (len < 64)
  | .bfi n rd rs pos len => decide (n < 192) && decide (rd < 64) && decide (rs < 64) && decide (pos < 32) && decide (len < 64)
  | .cmpeq n pd rs rt => decide (n < 192) && decide (pd < 64) && decide (rs < 64) && decide (rt < 64)
  | .cmpne n pd rs rt => decide (n < 192) && decide (pd < 64) && decide (rs < 64) && decide (rt < 64)
  | .cmplt n pd rs rt => decide (n < 192) && decide (pd < 64) && decide (rs < 64) && decide (rt < 64)
  | .cmpltu n pd rs rt => decide (n < 192) && decide (pd < 64) && decide (rs < 64) && decide (rt < 64)
  | .cmpge n pd rs rt => decide (n < 192) && decide (pd < 64) && decide (rs < 64) && decide (rt < 64)
  | .cmpgeu n pd rs rt => decide (n < 192) && decide (pd < 64) && decide (rs < 64) && decide (rt < 64)
  | .cmpi n _ pd rs _ => decide (n < 192) && decide (pd < 64) && decide (rs < 64)
  | .pand n pd ps pt => decide (n < 192) && decide (pd < 64) && decide (ps < 64) && decide (pt < 64)
  | .por n pd ps pt => decide (n < 192) && decide (pd < 64) && decide (ps < 64) && decide (pt < 64)
  | .pxor n pd ps pt => decide (n < 192) && decide (pd < 64) && decide (ps < 64) && decide (pt < 64)
  | .pandn n pd ps pt => decide (n < 192) && decide (pd < 64) && decide (ps < 64) && decide (pt < 64)
  | .sel n rd rs rt p => decide (n < 192) && decide (rd < 64) && decide (rs < 64) && decide (rt < 64) && decide (p < 8)
  | .ldB n rd ra _ => decide (n < 192) && decide (rd < 64) && decide (ra < 64)
  | .ldH n rd ra _ => decide (n < 192) && decide (rd < 64) && decide (ra < 64)
  | .ldW n rd ra _ => decide (n < 192) && decide (rd < 64) && decide (ra < 64)
  | .ldV n vd ra _ => decide (n < 192) && decide (vd < 64) && decide (ra < 64)
  | .ldBu n rd ra _ => decide (n < 192) && decide (rd < 64) && decide (ra < 64)
  | .ldHu n rd ra _ => decide (n < 192) && decide (rd < 64) && decide (ra < 64)
  | .stB n rd ra _ => decide (n < 192) && decide (rd < 64) && decide (ra < 64)
  | .stH n rd ra _ => decide (n < 192) && decide (rd < 64) && decide (ra < 64)
  | .stW n rd ra _ => decide (n < 192) && decide (rd < 64) && decide (ra < 64)
  | .stV n vd ra _ => decide (n < 192) && decide (vd < 64) && decide (ra < 64)
  | .dma n rd ra _ => decide (n < 192) && decide (rd < 64) && decide (ra < 64)
  | .vadd n _ vd vs vt => decide (n < 192) && decide (vd < 32) && decide (vs < 32) && decide (vt < 32)
  | .vsub n _ vd vs vt => decide (n < 192) && decide (vd < 32) && decide (vs < 32) && decide (vt < 32)
  | .vadds n _ vd vs vt => decide (n < 192) && decide (vd < 32) && decide (vs < 32) && decide (vt < 32)
  | .vaddsu n _ vd vs vt => decide (n < 192) && decide (vd < 32) && decide (vs < 32) && decide (vt < 32)
  | .vsubs n _ vd vs vt => decide (n < 192) && decide (vd < 32) && decide (vs < 32) && decide (vt < 32)
  | .vsubsu n _ vd vs vt => decide (n < 192) && decide (vd < 32) && decide (vs < 32) && decide (vt < 32)
  | .vmul n _ vd vs vt => decide (n < 192) && decide (vd < 32) && decide (vs < 32) && decide (vt < 32)
  | .vmulhs n _ vd vs vt => decide (n < 192) && decide (vd < 32) && decide (vs < 32) && decide (vt < 32)
  | .vmin n _ vd vs vt => decide (n < 192) && decide (vd < 32) && decide (vs < 32) && decide (vt < 32)
  | .vminu n _ vd vs vt => decide (n < 192) && decide (vd < 32) && decide (vs < 32) && decide (vt < 32)
  | .vmax n _ vd vs vt => decide (n < 192) && decide (vd < 32) && decide (vs < 32) && decide (vt < 32)
  | .vmaxu n _ vd vs vt => decide (n < 192) && decide (vd < 32) && decide (vs < 32) && decide (vt < 32)
  | .vavgu n _ vd vs vt => decide (n < 192) && decide (vd < 32) && decide (vs < 32) && decide (vt < 32)
  | .vand n _ vd vs vt => decide (n < 192) && decide (vd < 32) && decide (vs < 32) && decide (vt < 32)
  | .vor n _ vd vs vt => decide (n < 192) && decide (vd < 32) && decide (vs < 32) && decide (vt < 32)
  | .vxor n _ vd vs vt => decide (n < 192) && decide (vd < 32) && decide (vs < 32) && decide (vt < 32)
  | .vandn n _ vd vs vt => decide (n < 192) && decide (vd < 32) && decide (vs < 32) && decide (vt < 32)
  | .vcmpeq n _ vd vs vt => decide (n < 192) && decide (vd < 32) && decide (vs < 32) && decide (vt < 32)
  | .vcmpgt n _ vd vs vt => decide (n < 192) && decide (vd < 32) && decide (vs < 32) && decide (vt < 32)
  | .vcmpgtu n _ vd vs vt => decide (n < 192) && decide (vd < 32) && decide (vs < 32) && decide (vt < 32)
  | .vshl n _ vd vs gt => decide (n < 192) && decide (vd < 32) && decide (vs < 32) && decide (gt < 32)
  | .vshr n _ vd vs gt => decide (n < 192) && decide (vd < 32) && decide (vs < 32) && decide (gt < 32)
  | .vsra n _ vd vs gt => decide (n < 192) && decide (vd < 32) && decide (vs < 32) && decide (gt < 32)
  | .vperm n _ vd vs vt => decide (n < 192) && decide (vd < 32) && decide (vs < 32) && decide (vt < 32)
  | .vbtr8 n _ vd vs => decide (n < 192) && decide (vd < 32) && decide (vs < 32)
  | .vext n _ gd vs ln => decide (n < 192) && decide (gd < 32) && decide (vs < 32) && decide (ln < 32)
  | .vins n _ vd gs ln => decide (n < 192) && decide (vd < 32) && decide (gs < 32) && decide (ln < 32)
  | .vsplat n _ vd gs => decide (n < 192) && decide (vd < 32) && decide (gs < 32)
  | .vslb n _ vd vs k => decide (n < 192) && decide (vd < 32) && decide (vs < 32) && decide (k < 32)
  | .vsrb n _ vd vs k => decide (n < 192) && decide (vd < 32) && decide (vs < 32) && decide (k < 32)
  | .vsel n _ vd vs vt => decide (n < 192) && decide (vd < 32) && decide (vs < 32) && decide (vt < 32)
  | .vhsum n _ gd vs => decide (n < 192) && decide (gd < 32) && decide (vs < 32)
  | .vht1 n _ gd vs vt => decide (n < 192) && decide (gd < 32) && decide (vs < 32) && decide (vt < 32)
  | .vht2 n _ gd vs vt => decide (n < 192) && decide (gd < 32) && decide (vs < 32) && decide (vt < 32)
  | .vgfmul n _ _ vd vs vt => decide (n < 192) && decide (vd < 32) && decide (vs < 32) && decide (vt < 32)
  | .vgfmac n _ _ vd vs vt => decide (n < 192) && decide (vd < 32) && decide (vs < 32) && decide (vt < 32)
  | .vgfmacs n _ _ vd vs gt => decide (n < 192) && decide (vd < 32) && decide (vs < 32) && decide (gt < 32)
  | .br n pr _ => decide (n < 192) && decide (pr < 64)
  | .brf n pr _ => decide (n < 192) && decide (pr < 64)
  | .bra n _ => decide (n < 192)
  | .call n _ => decide (n < 192)
  | .jr n ra => decide (n < 192) && decide (ra < 64)
  | .jalr n ad ra => decide (n < 192) && decide (ad < 64) && decide (ra < 64)
  | .qget n rd rs _ => decide (n < 192) && decide (rd < 64) && decide (rs < 64)
  | .qput n rd ra => decide (n < 192) && decide (rd < 64) && decide (ra < 64)
  | .qsteal n rs => decide (n < 192) && decide (rs < 64)
  | .qdone n rd => decide (n < 192) && decide (rd < 64)
  | .qfail n rd rs => decide (n < 192) && decide (rd < 64) && decide (rs < 64)
  | .carmT n rd vs => decide (n < 192) && decide (rd < 64) && decide (vs < 64)
  | .carmP n rd vs => decide (n < 192) && decide (rd < 64) && decide (vs < 64)
  | .cdisarm n rd rs => decide (n < 192) && decide (rd < 64) && decide (rs < 64)
  | .twait n rs => decide (n < 192) && decide (rs < 64)
  | .dlset n rs => decide (n < 192) && decide (rs < 64)
  | .ewait n rd rs => decide (n < 192) && decide (rd < 64) && decide (rs < 64)
  | .raise n rs => decide (n < 192) && decide (rs < 64)
  | .mfsr n rd sr => decide (n < 192) && decide (rd < 64) && decide (sr < 256)
  | .mtsr n rs sr => decide (n < 192) && decide (rs < 64) && decide (sr < 256)
  | .fenceL n => decide (n < 192)
  | .fenceS n => decide (n < 192)
  | .fenceI n => decide (n < 192)
  | .iinv n => decide (n < 192)
  | .park n => decide (n < 192)
  | .eret n => decide (n < 192)
  | .trap n _ => decide (n < 192)
  | .brk n => decide (n < 192)
  | .dmawait n rd rs => decide (n < 192) && decide (rd < 64) && decide (rs < 64)
  | .exceptionEntry n => decide (n < 192)
  | .loadReturn n k _ => decide (n < 192) && decide (k < 8)
  | .storeAcknowledge n k => decide (n < 192) && decide (k.num < 8)
  | .icacheRefill n _ way => decide (n < 192) && decide (way.num < 4)
  | .answerReturn n => decide (n < 192)
  | .twaitSatisfied n => decide (n < 192)
  | .ewaitSatisfied n => decide (n < 192)
  | .qgetTimeout n => decide (n < 192)
  | .dmaComplete n => decide (n.num < 192)
  | .dmawaitReturn n => decide (n < 192)
  | .engineCueTimer n => decide (n < 192)
  | .deadlineWatchFire n => decide (n < 192)
  | .watchdogExpiry n => decide (n < 192)
  | .engineFault n => decide (n < 192)
  | .engineStart n _ => decide (n < 192)
  | .engineReset n _ => decide (n < 192)
  | .forceFault n _ => decide (n < 192)
  | .unlock n _ => decide (n < 192)
  | .halt n _ => decide (n < 192)
  | .step n _ => decide (n < 192)
  | .resume n _ => decide (n < 192)
  | .breakpointHit n i => decide (n < 192) && decide (i < 4)
  | .perfCountRead req n _ => req.present && decide (n < 192)
  | .jobDelivery c => decide (c.num < 12)
  | .hostPostGo req q _ => req.present && decide (q < 4096)
  | .missDetection q _ => decide (q < 4096)
  | .fallbackPost q => decide (q < 4096)
  | .jobReturn n => decide (n < 192)
  | .headAdvance q => decide (q < 4096)
  | .classAging q => decide (q < 4096)
  | .urgencyOnset q => decide (q < 4096)
  | .queueCtlWrite q _ => decide (q < 4096)
  | .queueCountRead req q i => req.present && decide (q < 4096) && decide (i < 4)
  | .headdlRead req q => req.present && decide (q < 4096)
  | .correctedWriteback _ _ => true
  | .testWindowStart m => decide (m < 385)
  | .testWindowAbandon m => decide (m < 385)
  | .rowRestore m => decide (m < 385)
  | .testWindowEnd m _ => decide (m.num < 385)
  | .bankSpareComplete c => decide (c < 12)
  | .retain c _ => decide (c < 12)
  | .retainComplete c => decide (c < 12)
  | .wake c _ => decide (c < 12)
  | .wakeComplete c => decide (c < 12)
  | .ceCountRead req c => req.present && decide (c < 13)
  | .lpddrRead _ cls _ _ err _ => decide (cls < 8) && decide (err < 7)
  | .lpddrWrite _ cls _ _ _ err => decide (cls < 8) && decide (err < 7)
  | .channelFailed k => decide (k < 4)
  | .scrubRead err _ => decide (err < 7)
  | .memcCfgWrite _ => true
  | .memcCountRead req k => req.present && decide (k < 4)
  | .bar0Write _ _ _ _ => true
  | .bar0Read _ _ _ => true
  | .unsupportedRequest _ => true
  | .dataPortWrite n _ _ _ _ => decide (n < 16)
  | .burstIdleTimeout n => decide (n < 16)
  | .flush n _ => decide (n < 16)
  | .dataPortRead n _ _ => decide (n.num < 16)
  | .dataPortSeamTimeout n _ => decide (n < 16)
  | .msixSend k => decide (k < 2048)
  | .functionReset => true
  | .retrain _ => true
  | .linkUp _ _ => true
  | .linkDown => true
  | .speedChange _ => true
  | .violationCountRead req => req.present
  | .bootRead _ => true
  | .bootProgram _ => true
  | .bootErase _ => true
  | .bootDone _ _ => true
  | .flashBusyTimeout _ => true
  | .fabricPortRequest sl k _ _ _ => decide (sl < 16) && decide (k < 4)
  | .cuffWrite sl w _ => decide (sl < 16) && decide (w < 32)
  | .ownerChange pin => decide (pin < 256)
  | .loadGo _ => true
  | .loadCheckDone => true
  | .loadAbort _ => true
  | .applyStart => true
  | .sleeveRelease => true
  | .configWriteData _ => true
  | .configReadStatus => true
  | .configParallelWord _ _ => true
  | .configCsRise _ => true
  | .portSilenceTimeout => true
  | .portViolationRead req => req.present
  | .verifyImage _ => true
  | .attest _ => true
  | .enrol _ => true
  | .revoke _ => true
  | .debugUnlock _ => true
  | .mantleOperationDone _ => true
  | .rollbackAdvance _ => true
  | .fuseBurnDone _ => true
  | .debugLock _ => true
  | .unlockExpiry => true
  | .rgnLock _ => true
  | .seamPortEnable k _ => decide (k < 4)
  | .seamRetrain k _ => decide (k < 4)
  | .trainingComplete k _ _ _ _ => decide (k < 4)
  | .trainingRestart k => decide (k < 4)
  | .laneSparing k _ => decide (k < 4)
  | .portDown k _ => decide (k < 4)
  | .hello k _ => decide (k < 4)
  | .laneMap k _ => decide (k < 4)
  | .idle k _ => decide (k < 4)
  | .idleSend k => decide (k < 4)
  | .replayTimeout k => decide (k < 4)
  | .seamWrite k _ => decide (k < 5)
  | .seamRead k _ => decide (k.num < 5)
  | .readResp k _ => decide (k < 5)
  | .seamAnswer k _ => decide (k < 5)
  | .seamMsg k _ => decide (k < 5)
  | .cueAt k _ => decide (k < 5)
  | .seamAttest k _ => decide (k < 5)
  | .timeSync k _ eighth => decide (k < 4) && decide (eighth < 8)
  | .timeSyncReply k _ eighth => decide (k < 4) && decide (eighth < 8)
  | .tsyncExchange eighth => decide (eighth < 8)
  | .seamRequestTimeout k _ => decide (k < 4)
  | .cueAtGo req _ => req.present
  | .attestGo req _ => req.present
  | .seamWindowAccess req _ _ _ _ => req.present
  | .seamRelease k _ => decide (k < 4)
  | .msgrdWrite _ => true
  | .dropCountRead req => req.present
  | .seamViolCountRead req k => req.present && decide (k < 4)
  | .replayCountRead req k => req.present && decide (k < 4)
  | .temperatureCheck p => decide (p < 8)
  | .calRequest t _ => decide (t < 128)
  | .calCommit t _ => decide (t < 128)
  | .calStepStart t => decide (t < 128)
  | .calStepEnd t _ => decide (t < 128)
  | .stepAbandon t => decide (t < 128)
  | .calStarved t => decide (t < 128)
  | .sensorUpdate i _ => decide (i < 12)
  | .sensorFault i => decide (i < 12)
  | .lioDataWrite b _ => decide (b < 8)
  | .lioSet b _ => decide (b < 8)
  | .lioClr b _ => decide (b < 8)
  | .lioTgl b _ => decide (b < 8)
  | .lioCfgWrite pin _ => decide (pin < 256)
  | .bankSupplyChange b _ _ => decide (b < 8)
  | .uartDataWrite u _ => decide (u < 8)
  | .uartDataRead req u => req.present && decide (u < 8)
  | .uartReceive u _ _ _ => decide (u < 8)
  | .uartByteSent u => decide (u < 8)
  | .spiDataWrite i _ => decide (i < 4)
  | .spiDataRead req i => req.present && decide (i < 4)
  | .spiByteDone i _ => decide (i < 4)
  | .i2cGo i _ => decide (i < 4)
  | .i2cTransferDone i _ _ _ _ => decide (i < 4)
  | .i2cBusStuck i => decide (i < 4)
  | .i2cDataRead req i => req.present && decide (i < 4)
  | .swraise _ => true
  | .seamEventMsg e => decide (e < 1024)
  | .raiseCountRead req => req.present
  | .supplyOut i => decide (i < 12)
  | .supplyIn i => decide (i < 12)
  | .faultLogWrite _ => true
  | .sysReset _ => true
  | .powerLoss => true
  | .startSequence _ _ => true
  | .stepTimeout n => decide (n < 15)
  | .internalRestart _ => true
  | .stepRevert n _ => decide (n < 15)
  | .fabricCueOutput o _ => decide (o < 128)
  | .fastsumUpdate p c _ => decide (p < 8) && decide (c < 32)
  | .windowOpen p c => decide (p < 8) && decide (c < 32)
  | .pgaClip t i _ => decide (t < 128) && decide (i < 2)
  | .biquadClip t _ => decide (t < 128)
  | .cueAtAnswer k _ => decide (k < 5)
  | .attestAnswer k _ => decide (k < 5)
  | .configurationSpaceWrite _ _ _ _ => true
  | .dacPortUncorrectableRead t => decide (t < 128)
  | .unknownQspiCommand => true

end Sys2Proof
end

