-- ==== Sys2Proof/Safety.lean ====
section
/-!
DEFINITION. What counts as a safe run, and the terms in which statements say what a command leaves alone.
-/
namespace Sys2Proof.Machine

/-- The commands that wait are well formed. -/
def State.queueOk (s : State) : Bool := s.pending.all Instr.wellFormed

/-- The register file in its canonical form: addresses strictly rising. -/
def regsWf (l : List (Nat × Word)) : Bool := sortedKeys l

/-- The memory and the register file are in their canonical form. -/
def State.canonical (s : State) : Bool := memWf s.mem && regsWf s.regs

/-- The step answers a next state. -/
def State.goesOn (s : State) : Prop := ∃ t, step s = .next t

/-! ### Parts of the state -/

/-- The parts of the state, one for each field of `State`. -/
inductive Part where
  | regs
  | perReq
  | rdata
  | mem
  | poison
  | clock
  | cue
  | encs
  | lio
  | pgs
  | arr
  | dce
  | heads
  | ledger
  | engs
  | jobs
  | memt
  | lpddr
  | host
  | cfg
  | mantle
  | seam
  | cal
  | startup
  | supLt
  | oldRoutes
  | seamEvts
  | msixPend
  | logQ
  | asks
  | free
  | pending
  deriving DecidableEq, Repr

/-- The two states agree in the part. -/
def Part.same (p : Part) (s t : State) : Prop :=
  match p with
  | .regs => t.regs = s.regs
  | .perReq => t.perReq = s.perReq
  | .rdata => t.rdata = s.rdata
  | .mem => t.mem = s.mem
  | .poison => t.poison = s.poison
  | .clock => t.clock = s.clock
  | .cue => t.cue = s.cue
  | .encs => t.encs = s.encs
  | .lio => t.lio = s.lio
  | .pgs => t.pgs = s.pgs
  | .arr => t.arr = s.arr
  | .dce => t.dce = s.dce
  | .heads => t.heads = s.heads
  | .ledger => t.ledger = s.ledger
  | .engs => t.engs = s.engs
  | .jobs => t.jobs = s.jobs
  | .memt => t.memt = s.memt
  | .lpddr => t.lpddr = s.lpddr
  | .host => t.host = s.host
  | .cfg => t.cfg = s.cfg
  | .mantle => t.mantle = s.mantle
  | .seam => t.seam = s.seam
  | .cal => t.cal = s.cal
  | .startup => t.startup = s.startup
  | .supLt => t.supLt = s.supLt
  | .oldRoutes => t.oldRoutes = s.oldRoutes
  | .seamEvts => t.seamEvts = s.seamEvts
  | .msixPend => t.msixPend = s.msixPend
  | .logQ => t.logQ = s.logQ
  | .asks => t.asks = s.asks
  | .free => t.free = s.free
  | .pending => t.pending = s.pending

/-- Every part of `t` that is not named is as in `s`. -/
def sameBut (ps : List Part) (s t : State) : Prop := ∀ p, p ∉ ps → p.same s t

/-- Every control register of `t` that is not named holds what it holds in `s`. -/
def regsBut (as : List Nat) (s t : State) : Prop := ∀ a, a ∉ as → t.reg a = s.reg a

/-- The registers that a raise of an event may change (R429 to R433): EVT_PEND, EVT_RAISECNT, EVT_STAT, and
ME_STAT (EvCoalesced) of the engine that the event reaches. -/
def eventReg (a : Nat) : Prop :=
  a = Reg.EVT_RAISECNT ∨ a = Reg.EVT_STAT ∨ (∃ i < 32, a = Reg.EVT_PEND i) ∨ ∃ n < 256, a = Reg.ME_STAT n

/-- Event `e` is pending: its bit of EVT_PEND (R429). -/
def State.pends (s : State) (e : Nat) : Bool := (s.reg (Reg.EVT_PEND (e / 32))).getLsbD (e % 32)

/-- The parts that a raise of an event may change: the registers, the pending vectors, the MSGs that wait,
and EVPEND of an engine. -/
def eventParts : List Part := [.regs, .msixPend, .seamEvts, .engs]

/-! ### What a command may reach at all -/

/-- The commands that may store to memory, directly or as the requester that they carry out: stores, posts, queue and
Ledger records, repairs, the Journal and loads of images. -/
def mayStore : Instr → Bool
  | .registerWrite .. | .rateCorrection | .slewTick | .cueEffect .. | .latchTimingEdge .. | .recordClose ..
  | .recordFree .. | .dma .. | .qget .. | .qput .. | .qdone .. | .qfail .. | .raise .. | .fenceL ..
  | .fenceS .. | .storeAcknowledge .. | .dmaComplete .. | .jobDelivery .. | .missDetection ..
  | .jobReturn .. | .testWindowEnd .. | .bankSpareComplete .. | .lpddrRead .. | .lpddrWrite ..
  | .scrubRead .. | .memcCfgWrite .. | .bar0Write .. | .bar0Read .. | .dataPortWrite ..
  | .burstIdleTimeout .. | .flush .. | .dataPortRead .. | .functionReset | .linkDown | .bootDone ..
  | .fabricPortRequest .. | .loadCheckDone | .sleeveRelease | .configWriteData .. | .configParallelWord ..
  | .mantleOperationDone .. | .debugLock .. | .unlockExpiry | .rgnLock .. | .seamWrite .. | .seamMsg ..
  | .faultLogWrite .. | .sysReset .. | .powerLoss | .startSequence .. | .stepTimeout ..
  | .internalRestart .. | .stepRevert .. => true
  | _ => false

/-- The commands that may change what Mantle holds: its requests, the fuses, and writes that may reach its registers. -/
def mayReachMantle : Instr → Bool
  | .registerWrite .. | .rateCorrection | .slewTick | .dma .. | .qput .. | .qdone .. | .qfail .. | .raise ..
  | .fenceL .. | .fenceS .. | .storeAcknowledge .. | .bar0Write .. | .loadCheckDone | .verifyImage ..
  | .attest .. | .enrol .. | .revoke .. | .debugUnlock .. | .mantleOperationDone .. | .rollbackAdvance ..
  | .fuseBurnDone .. | .debugLock .. | .unlockExpiry | .rgnLock .. | .seamWrite .. | .seamAttest ..
  | .sysReset .. | .powerLoss | .startSequence .. | .internalRestart .. => true
  | _ => false

/-- The commands that may change the clocks and LINETIME. -/
def mayRetime : Instr → Bool
  | .registerWrite .. | .crystalLoss .. | .crystalValid .. | .switchover .. | .selectWrite ..
  | .holdoverExpired | .pllRelock | .clockRelease .. | .rateCorrection | .slewAdjust .. | .slewTick
  | .linetimeLoad | .dma .. | .qput .. | .qdone .. | .qfail .. | .raise .. | .fenceL .. | .fenceS ..
  | .storeAcknowledge .. | .bar0Write .. | .seamWrite .. | .timeSyncReply .. | .sysReset .. | .powerLoss
  | .startSequence .. | .internalRestart .. => true
  | _ => false

/-- The commands that may change where the start stands. -/
def mayStart : Instr → Bool
  | .sysReset .. | .powerLoss | .startSequence .. | .stepTimeout .. | .internalRestart .. => true
  | _ => false

/-- A burn under way raises its counter (R354). -/
def State.burnRises (s : State) : Prop := ∀ i v, s.mantle.burn = some (i, v) → s.mantle.fuses.ctrs.get 0 i < v

/-- No fuse blown in `s` is unblown in `t`: owner slots stay enrolled and revoked, and counters do not fall (R353, R354). -/
def fusesStay (s t : State) : Prop :=
  (∀ j, (s.mantle.fuses.slots.get OwnerSlot.init j).enrolled = true → (t.mantle.fuses.slots.get OwnerSlot.init j).enrolled = true) ∧
  (∀ j, (s.mantle.fuses.slots.get OwnerSlot.init j).revoked = true → (t.mantle.fuses.slots.get OwnerSlot.init j).revoked = true) ∧
  ∀ i, s.mantle.fuses.ctrs.get 0 i ≤ t.mantle.fuses.ctrs.get 0 i

/-! ### Engines -/

/-- Engine `n` issues its next instruction now, which reads and writes the registers `rs`: it is in RUN and past
the gap of R210, no exception is pending (R206), no Step is under way and no breakpoint stands there (R223), the
fetch is allowed (R203) and meets the instruction cache (R222), the word there is an assigned encoding (R199, R226),
and no value of a register of `rs` is on its way (R201). -/
structure Ready (n : Nat) (rs : List Nat) (s : State) : Prop where
  run : (s.eng n).st = .run
  time : (s.eng n).issueAt ≤ s.tick
  cause : asyncCause (s.eng n) = none
  step : (s.eng n).step = 0
  bkpt : breakNow n s = false
  fetch : fetchCause n (s.eng n).pc.toNat s = none
  hit : cached n (s.eng n).pc.toNat s = true
  word : wordLegal (s.word (s.eng n).pc.toNat) = true
  free : ∀ r ∈ rs, waitsOn (s.eng n) r = false

/-- The same for a SYS instruction, which waits for the engine's loads, whose BUS must be precise (R205, log
entry 92). -/
structure ReadySys (n : Nat) (rs : List Nat) (s : State) : Prop extends Ready n rs s where
  loads : (s.eng n).loads = []

/-- From `s` to `t` engine `n` has retired one instruction and goes on at `pc`: of the engine only its register
files, the pc and the record of its last issue differ, of the control registers only ME_PERF_ISSUE(n), of the
other parts of the state, memory among them, nothing. -/
structure Retired (n : Nat) (pc : Addr) (s t : State) : Prop where
  eng : t.eng n = { s.eng n with
    g := (t.eng n).g, a := (t.eng n).a, v := (t.eng n).v, p := (t.eng n).p, pc := pc, last := (t.eng n).last,
    passed := false }
  others : ∀ m, m ≠ n → t.eng m = s.eng m
  regs : regsBut [Reg.ME_PERF_ISSUE n] s t
  parts : sameBut [.regs, .engs] s t

/-- Of the register files of engine `n` only g[rd] differs, which holds `v`; g0 stays 0. -/
def onlyG (n rd : Nat) (v : Word) (s t : State) : Prop :=
  (∀ r, t.g n r = if r = rd ∧ r ≠ 0 then v else s.g n r) ∧ (∀ r, t.a n r = s.a n r) ∧ (∀ r, t.v n r = s.v n r) ∧
    ∀ r, t.p n r = s.p n r

/-- Of the register files of engine `n` only a[rd] differs, which holds `v`. -/
def onlyA (n rd : Nat) (v : Addr) (s t : State) : Prop :=
  (∀ r, t.g n r = s.g n r) ∧ (∀ r, t.a n r = if r = rd then v else s.a n r) ∧ (∀ r, t.v n r = s.v n r) ∧
    ∀ r, t.p n r = s.p n r

/-- Of the register files of engine `n` only v[rd] differs, which holds `v`. -/
def onlyV (n rd : Nat) (v : Vec) (s t : State) : Prop :=
  (∀ r, t.g n r = s.g n r) ∧ (∀ r, t.a n r = s.a n r) ∧ (∀ r, t.v n r = if r = rd then v else s.v n r) ∧
    ∀ r, t.p n r = s.p n r

/-- Of the register files of engine `n` only p[rd] differs, which holds `v`; p0 stays 1. -/
def onlyP (n rd : Nat) (v : Bool) (s t : State) : Prop :=
  (∀ r, t.g n r = s.g n r) ∧ (∀ r, t.a n r = s.a n r) ∧ (∀ r, t.v n r = s.v n r) ∧
    ∀ r, t.p n r = if r = rd ∧ r ≠ 0 then v else s.p n r

/-- No register of engine `n` differs. -/
def noReg (n : Nat) (s t : State) : Prop :=
  (∀ r, t.g n r = s.g n r) ∧ (∀ r, t.a n r = s.a n r) ∧ (∀ r, t.v n r = s.v n r) ∧ ∀ r, t.p n r = s.p n r

/-- The instruction writes `v` to g[rd] and nothing else, and retires. -/
def writesG (i : Instr) (n rd : Nat) (v : Word) (s : State) : Prop :=
  ∃ t, exec i s = .next t ∧ Retired n ((s.eng n).pc + 4) s t ∧ onlyG n rd v s t

/-- The instruction writes `v` to a[rd] and nothing else, and retires. -/
def writesA (i : Instr) (n rd : Nat) (v : Addr) (s : State) : Prop :=
  ∃ t, exec i s = .next t ∧ Retired n ((s.eng n).pc + 4) s t ∧ onlyA n rd v s t

/-- The instruction writes `v` to v[rd] and nothing else, and retires. -/
def writesV (i : Instr) (n rd : Nat) (v : Vec) (s : State) : Prop :=
  ∃ t, exec i s = .next t ∧ Retired n ((s.eng n).pc + 4) s t ∧ onlyV n rd v s t

/-- The instruction writes `v` to p[rd] and nothing else, and retires. -/
def writesP (i : Instr) (n rd : Nat) (v : Bool) (s : State) : Prop :=
  ∃ t, exec i s = .next t ∧ Retired n ((s.eng n).pc + 4) s t ∧ onlyP n rd v s t

/-- From `s` to `t` engine `n` has come to the record `e`; the other engines, the control registers but `as` and
the parts but `ps` are as before. -/
structure EngIs (n : Nat) (e : Engine) (as : List Nat) (ps : List Part) (s t : State) : Prop where
  eng : t.eng n = e
  others : ∀ m, m ≠ n → t.eng m = s.eng m
  regs : regsBut as s t
  parts : sameBut (.regs :: .engs :: ps) s t

/-- As `EngIs`, after an instruction has issued: the record of the last issue is not told. -/
structure EngAfter (n : Nat) (e : Engine) (as : List Nat) (ps : List Part) (s t : State) : Prop where
  eng : t.eng n = { e with last := (t.eng n).last, passed := false }
  others : ∀ m, m ≠ n → t.eng m = s.eng m
  regs : regsBut as s t
  parts : sameBut (.regs :: .engs :: ps) s t

/-- The engine's record after exception entry with cause `k` (R205). -/
def Engine.interrupted (e : Engine) (k cookie : Nat) (epc eaddr : Addr) : Engine :=
  { e with
    st := .run, wait := .none, epc := epc, ecause := BitVec.ofNat 32 (k + 256 * cookie), eaddr := eaddr,
    prevPriv := e.priv, prevIe := e.ie, priv := true, exl := true, ie := false,
    pc := e.evec + BitVec.ofNat 48 (0x40 * k) }

/-- The instruction goes on at `pc` and changes no register. -/
def jumpsTo (i : Instr) (n : Nat) (pc : Addr) (s : State) : Prop :=
  ∃ t, exec i s = .next t ∧ Retired n pc s t ∧ noReg n s t

/-- The instruction raises ILLEGAL: exception entry with cause 1 at its own address, and nothing else. -/
def raisesIllegal (i : Instr) (n : Nat) (s : State) : Prop :=
  ∃ t, exec i s = .next t ∧ EngIs n ((s.eng n).interrupted 1 0 (s.eng n).pc 0) [] [] s t

/-- The instruction retires, and of the engine leaves the record `e` with pc + 4. -/
def retiresWith (i : Instr) (n : Nat) (e : Engine) (s : State) : Prop :=
  ∃ t, exec i s = .next t ∧ EngAfter n { e with pc := e.pc + 4 } [Reg.ME_PERF_ISSUE n] [] s t

/-- The instruction writes g[rd] with a word that `q` describes. -/
def writesGWhere (i : Instr) (n rd : Nat) (q : Word → Prop) (s : State) : Prop := ∃ v, q v ∧ writesG i n rd v s

/-- The instruction writes v[vd] with a vector that `q` describes. -/
def writesVWhere (i : Instr) (n vd : Nat) (q : Vec → Prop) (s : State) : Prop := ∃ v, q v ∧ writesV i n vd v s

/-- The instruction writes v[vd], each lane of `w` bits as `f` says: lane i holds `f i`. -/
def writesLanes (i : Instr) (n vd w : Nat) (f : Nat → BitVec w) (s : State) : Prop :=
  ∃ v, (∀ k, w * k < 128 → v.extractLsb' (w * k) w = f k) ∧ writesV i n vd v s

/-- `x` held within the signed values of `w` bits. -/
def saturated (w : Nat) (x : Int) : Int := max (-(2 ^ (w - 1))) (min (2 ^ (w - 1) - 1) x)

/-- gfmul of R230 with its 9-bit polynomial. -/
def gfProduct (poly x y : Nat) : Nat :=
  [7, 6, 5, 4, 3, 2, 1, 0].foldl (fun r i =>
    let r := 2 * r
    let r := if r &&& 0x100 ≠ 0 then r ^^^ poly else r
    if (y >>> i) &&& 1 ≠ 0 then r ^^^ x else r) 0

/-- The field polynomial that Sel names (R230). -/
def gfPolynomial (sel : BitVec 2) : Nat :=
  if sel = 0 then 0x11D else if sel = 1 then 0x12D else if sel = 2 then 0x11B else 0x187

/-! ### Commands of the blocks -/

/-- From `s` to `t` no more differs than the control registers `as`, the parts `ps` and what raises of events
change (R429 to R433): of an engine that is EVPEND. -/
structure Touches (as : List Nat) (ps : List Part) (s t : State) : Prop where
  regs : ∀ a, a ∉ as → ¬ eventReg a → t.reg a = s.reg a
  engs : .engs ∈ ps ∨ ∀ n, t.eng n = { s.eng n with evpend := (t.eng n).evpend }
  parts : sameBut (eventParts ++ ps) s t

/-- From `s` to `t` no more differs than the control registers `as` and the parts `ps`. -/
def quiet (as : List Nat) (ps : List Part) (s t : State) : Prop := regsBut as s t ∧ sameBut (.regs :: ps) s t

/-- The command returns the word `w` to the requester and changes no more than `as` and `ps`. -/
def returns (i : Instr) (req : Req) (w : Word) (as : List Nat) (ps : List Part) (s : State) (q : State → Prop) : Prop :=
  ∃ t, exec i s = .next t ∧ t.rdata.get [] (reqKey req) = [w] ∧ q t ∧ quiet as (.rdata :: ps) s t

/-- The command returns register `a` to the requester and clears its field `f`. -/
def readsAndClears (i : Instr) (req : Req) (a : Nat) (f : Fld) (s : State) : Prop :=
  returns i req (s.reg a) [a] [] s (fun t => t.reg a = f.put (s.reg a) 0)

end Sys2Proof.Machine
end

