-- ==== Sys2Proof/Certificates/Slice0/Obligations.lean ====
section
/-!
DEFINITION. The statements about this model. A command is said to answer a next state where the conclusion is an
equation or an existence about `exec`; what it leaves alone is said with `sameBut`, `regsBut` and `Retired`.
-/
section
open Sys2Proof Sys2Proof.Machine

/-- For every state in which engine n is ready to issue, with rd, rs and rt any of g0 to g63, each instruction of op
0x00 answers a next state in which g[rd] holds the tabled result (g0 stays 0), every other register of the
engine, every other engine, memory and every control register but ME_PERF_ISSUE(n) are unchanged, and pc is pc +
4. (10_hennath_instruction_reference.md: Integer) -/
--% def gen (i : Nat) := K (rdy i) 0 (nat i 1 6) (nat i 2 6) (nat i 3 64)
def Obligations.IntegerOps : Prop :=
  ∀ (s : State) (n rd rs rt : Nat), rd < 64 → rs < 64 → rt < 64 → Ready n [rd, rs, rt] s →
    let x := s.g n rs
    let y := s.g n rt
    writesG (.add n rd rs rt) n rd (x + y) s ∧
    writesG (.sub n rd rs rt) n rd (x - y) s ∧
    writesG (.and n rd rs rt) n rd (x &&& y) s ∧
    writesG (.or n rd rs rt) n rd (x ||| y) s ∧
    writesG (.xor n rd rs rt) n rd (x ^^^ y) s ∧
    writesG (.andn n rd rs rt) n rd (x &&& ~~~y) s ∧
    writesG (.shl n rd rs rt) n rd (x <<< (y &&& 31).toNat) s ∧
    writesG (.shr n rd rs rt) n rd (x >>> (y &&& 31).toNat) s ∧
    writesG (.sra n rd rs rt) n rd (x.sshiftRight (y &&& 31).toNat) s ∧
    writesG (.min n rd rs rt) n rd (BitVec.ofInt 32 (min x.toInt y.toInt)) s ∧
    writesG (.max n rd rs rt) n rd (BitVec.ofInt 32 (max x.toInt y.toInt)) s ∧
    writesG (.minu n rd rs rt) n rd (BitVec.ofNat 32 (min x.toNat y.toNat)) s ∧
    writesG (.maxu n rd rs rt) n rd (BitVec.ofNat 32 (max x.toNat y.toNat)) s ∧
    writesG (.adds n rd rs rt) n rd (BitVec.ofInt 32 (saturated 32 (x.toInt + y.toInt))) s ∧
    writesG (.subs n rd rs rt) n rd (BitVec.ofInt 32 (saturated 32 (x.toInt - y.toInt))) s

/-- For every ready engine, ADDI and SUBI use the sign-extended immediate, ANDI, ORI and XORI the zero-extended one,
LUI writes imm20 << 12, and SHLI, SHRI and SRAI with imm[13:5] 0 shift by imm; each changes g[rd] and nothing
else of the registers and retires. (10_hennath_instruction_reference.md: Integer) -/
--% def gen (i : Nat) := K (rdy i) 0 (nat i 1 6) (nat i 2 64) (if bool i 9 then BitVec.ofNat 14 (nat i 3 40) else (word i 4).setWidth 14) ((word i 5).setWidth 20)
def Obligations.ImmediateOps : Prop :=
  ∀ (s : State) (n rd rs : Nat) (imm : BitVec 14) (imm20 : BitVec 20), rd < 64 → rs < 64 → Ready n [rd, rs] s →
    let x := s.g n rs
    writesG (.addi n rd rs imm) n rd (x + imm.signExtend 32) s ∧
    writesG (.subi n rd rs imm) n rd (x - imm.signExtend 32) s ∧
    writesG (.andi n rd rs imm) n rd (x &&& imm.zeroExtend 32) s ∧
    writesG (.ori n rd rs imm) n rd (x ||| imm.zeroExtend 32) s ∧
    writesG (.xori n rd rs imm) n rd (x ^^^ imm.zeroExtend 32) s ∧
    writesG (.lui n rd imm20) n rd (imm20 ++ 0#12) s ∧
    (imm.toNat < 32 →
      writesG (.shli n rd rs imm) n rd (x <<< imm.toNat) s ∧
      writesG (.shri n rd rs imm) n rd (x >>> imm.toNat) s ∧
      writesG (.srai n rd rs imm) n rd (x.sshiftRight imm.toNat) s)

/-- For every ready engine, ADDA and ADDA.R add a sign-extended value modulo 2^48, LA.LO zero-extends, LA.HI
replaces bits 47:32 and leaves bits 31:0, MGA.LO and MGA.HI read the two parts of an address register; each
changes its destination and nothing else of the registers and retires. (10_hennath_instruction_reference.md:
Integer) -/
--% def gen (i : Nat) := K (rdy i) 0 (nat i 1 6) (nat i 2 64) (nat i 3 16) (nat i 4 16) ((word i 4).setWidth 14)
def Obligations.AddressOps : Prop :=
  ∀ (s : State) (n rd rs ad ra : Nat) (imm : BitVec 14), rd < 64 → rs < 64 → ad < 16 → ra < 16 →
    Ready n [rd, rs, 64 + ad, 64 + ra] s →
    writesA (.adda n ad ra imm) n ad (s.a n ra + imm.signExtend 48) s ∧
    writesA (.addaR n ad ra rs) n ad (s.a n ra + (s.g n rs).signExtend 48) s ∧
    writesA (.laLo n ad rs) n ad ((s.g n rs).zeroExtend 48) s ∧
    writesA (.laHi n ad rs) n ad ((s.g n rs).extractLsb' 0 16 ++ (s.a n ad).extractLsb' 0 32) s ∧
    writesG (.mgaLo n rd ra) n rd ((s.a n ra).extractLsb' 0 32) s ∧
    writesG (.mgaHi n rd ra) n rd (((s.a n ra).extractLsb' 32 16).zeroExtend 32) s

/-- For every ready engine, MUL writes bits 31:0 of the product, MULHS and MULHU bits 63:32 of the signed and the
unsigned exact product, MAC and MSU add it to g[rd] or subtract it, and GFMUL and GFMAC write in each of the
four bytes gfmul of the two bytes under the polynomial that Sel names, GFMAC XORed into the old byte of g[rd].
(10_hennath_instruction_reference.md: Multiply and GF(2^8)) -/
--% def gen (i : Nat) := K (rdy i) 0 (nat i 1 6) (nat i 2 64) (nat i 3 64) (BitVec.ofNat 2 i)
def Obligations.MultiplyAndGaloisOps : Prop :=
  ∀ (s : State) (n rd rs rt : Nat) (sel : BitVec 2), rd < 64 → rs < 64 → rt < 64 → Ready n [rd, rs, rt] s →
    let d := s.g n rd
    let x := s.g n rs
    let y := s.g n rt
    let gf := fun j => gfProduct (gfPolynomial sel) (x.extractLsb' (8 * j) 8).toNat (y.extractLsb' (8 * j) 8).toNat
    writesG (.mul n rd rs rt) n rd (BitVec.ofNat 32 (x.toNat * y.toNat)) s ∧
    writesG (.mulhs n rd rs rt) n rd ((x.signExtend 64 * y.signExtend 64).extractLsb' 32 32) s ∧
    writesG (.mulhu n rd rs rt) n rd ((x.zeroExtend 64 * y.zeroExtend 64).extractLsb' 32 32) s ∧
    writesG (.mac n rd rs rt) n rd (d + x * y) s ∧
    writesG (.msu n rd rs rt) n rd (d - x * y) s ∧
    writesGWhere (.gfmul n sel rd rs rt) n rd (fun v => ∀ j < 4, (v.extractLsb' (8 * j) 8).toNat = gf j) s ∧
    writesGWhere (.gfmac n sel rd rs rt) n rd
      (fun v => ∀ j < 4, (v.extractLsb' (8 * j) 8).toNat = (d.extractLsb' (8 * j) 8).toNat ^^^ gf j) s

/-- For every ready engine, POPC counts the 1 bits, CLZ and CTZ the leading and trailing zero bits (32 for 0), BREV
and BSWAP reverse the bits and the bytes, and for a field inside the word BFXU and BFXS extract it with zeros or
its sign above, and BFI replaces it and leaves the other bits of g[rd]; each changes g[rd] alone.
(10_hennath_instruction_reference.md: Bit manipulation) -/
--% def gen (i : Nat) := K (rdy i) 0 (nat i 1 6) (nat i 2 64) (nat i 3 33) (nat i 4 34)
def Obligations.BitOps : Prop :=
  ∀ (s : State) (n rd rs pos len : Nat), rd < 64 → rs < 64 → Ready n [rd, rs] s →
    let x := s.g n rs
    writesG (.popc n rd rs) n rd (BitVec.ofNat 32 ((List.range 32).filter (fun i => x.getLsbD i)).length) s ∧
    (∃ k ≤ 32, writesG (.clz n rd rs) n rd (BitVec.ofNat 32 k) s ∧ (∀ i < 32, 32 - k ≤ i → x.getLsbD i = false) ∧
      (k < 32 → x.getLsbD (31 - k) = true)) ∧
    (∃ k ≤ 32, writesG (.ctz n rd rs) n rd (BitVec.ofNat 32 k) s ∧ (∀ i < k, x.getLsbD i = false) ∧
      (k < 32 → x.getLsbD k = true)) ∧
    writesGWhere (.brev n rd rs) n rd (fun v => ∀ i < 32, v.getLsbD i = x.getLsbD (31 - i)) s ∧
    writesGWhere (.bswap n rd rs) n rd
      (fun v => ∀ j < 4, v.extractLsb' (8 * j) 8 = x.extractLsb' (8 * (3 - j)) 8) s ∧
    (1 ≤ len → pos + len ≤ 32 →
      writesG (.bfxu n rd rs pos len) n rd ((x.extractLsb' pos len).zeroExtend 32) s ∧
      writesG (.bfxs n rd rs pos len) n rd ((x.extractLsb' pos len).signExtend 32) s ∧
      writesGWhere (.bfi n rd rs pos len) n rd
        (fun v => ∀ i < 32, v.getLsbD i = if pos ≤ i ∧ i < pos + len then x.getLsbD (i - pos) else (s.g n rd).getLsbD i) s)

/-- For every ready engine, the six compares write the relation of g[rs] and g[rt], the U forms unsigned, CMPI the
relation that cc names of g[rs] and the sign-extended immediate, the four logic instructions the tabled function
of two predicates (p0 stays 1), and SEL writes g[rs] or g[rt] to g[rd] as the predicate reads.
(10_hennath_instruction_reference.md: Compare, predicates and select) -/
--% def gen (i : Nat) := K (rdy i) 0 (nat i 1 6) (nat i 2 4) (nat i 3 4) (nat i 4 8) (nat i 5 8) (nat i 6 8) ((word i 4).setWidth 14)
def Obligations.CompareAndPredicateOps : Prop :=
  ∀ (s : State) (n rd rs rt pd ps pt : Nat) (imm : BitVec 14), rd < 64 → rs < 64 → rt < 64 → pd < 8 → ps < 8 → pt < 8 →
    Ready n [rd, rs, rt, 160 + pd, 160 + ps, 160 + pt] s →
    let x := s.g n rs
    let y := s.g n rt
    let z := imm.signExtend 32
    writesP (.cmpeq n pd rs rt) n pd (decide (x = y)) s ∧
    writesP (.cmpne n pd rs rt) n pd (decide (x ≠ y)) s ∧
    writesP (.cmplt n pd rs rt) n pd (decide (x.toInt < y.toInt)) s ∧
    writesP (.cmpltu n pd rs rt) n pd (decide (x.toNat < y.toNat)) s ∧
    writesP (.cmpge n pd rs rt) n pd (decide (x.toInt ≥ y.toInt)) s ∧
    writesP (.cmpgeu n pd rs rt) n pd (decide (x.toNat ≥ y.toNat)) s ∧
    writesP (.cmpi n 0 pd rs imm) n pd (decide (x = z)) s ∧
    writesP (.cmpi n 1 pd rs imm) n pd (decide (x ≠ z)) s ∧
    writesP (.cmpi n 2 pd rs imm) n pd (decide (x.toInt < z.toInt)) s ∧
    writesP (.cmpi n 3 pd rs imm) n pd (decide (x.toNat < z.toNat)) s ∧
    writesP (.cmpi n 4 pd rs imm) n pd (decide (x.toInt ≥ z.toInt)) s ∧
    writesP (.cmpi n 5 pd rs imm) n pd (decide (x.toNat ≥ z.toNat)) s ∧
    writesP (.pand n pd ps pt) n pd (s.p n ps && s.p n pt) s ∧
    writesP (.por n pd ps pt) n pd (s.p n ps || s.p n pt) s ∧
    writesP (.pxor n pd ps pt) n pd (xor (s.p n ps) (s.p n pt)) s ∧
    writesP (.pandn n pd ps pt) n pd (s.p n ps && !s.p n pt) s ∧
    writesG (.sel n rd rs rt ps) n rd (if s.p n ps then x else y) s

/-- For every ready engine and every es that the instruction accepts, with w = 8 × 2^es, lane i of v[vd] becomes the
tabled function of lane i of v[vs] and lane i of v[vt]; VAND, VOR, VXOR and VANDN act on all 128 bits. No other
register, no memory and no control register but ME_PERF_ISSUE(n) changes. (10_hennath_instruction_reference.md:
Vectors) -/
--% def gen (i : Nat) := K (rdy i) 0 (nat i 1 6) (nat i 2 4) (nat i 3 4) (BitVec.ofNat 2 i)
def Obligations.VectorLaneOps : Prop :=
  ∀ (s : State) (n vd vs vt : Nat) (es : BitVec 2), vd < 32 → vs < 32 → vt < 32 →
    Ready n [128 + vd, 128 + vs, 128 + vt] s →
    let w := 8 * 2 ^ es.toNat
    let a := fun k => (s.v n vs).extractLsb' (w * k) w
    let b := fun k => (s.v n vt).extractLsb' (w * k) w
    (es.toNat < 3 →
      writesLanes (.vadd n es vd vs vt) n vd w (fun k => a k + b k) s ∧
      writesLanes (.vsub n es vd vs vt) n vd w (fun k => a k - b k) s ∧
      writesLanes (.vadds n es vd vs vt) n vd w
        (fun k => BitVec.ofInt w (saturated w ((a k).toInt + (b k).toInt))) s ∧
      writesLanes (.vaddsu n es vd vs vt) n vd w
        (fun k => BitVec.ofNat w (min (2 ^ w - 1) ((a k).toNat + (b k).toNat))) s ∧
      writesLanes (.vsubs n es vd vs vt) n vd w
        (fun k => BitVec.ofInt w (saturated w ((a k).toInt - (b k).toInt))) s ∧
      writesLanes (.vsubsu n es vd vs vt) n vd w (fun k => BitVec.ofNat w ((a k).toNat - (b k).toNat)) s ∧
      writesLanes (.vmin n es vd vs vt) n vd w (fun k => BitVec.ofInt w (min (a k).toInt (b k).toInt)) s ∧
      writesLanes (.vminu n es vd vs vt) n vd w (fun k => BitVec.ofNat w (min (a k).toNat (b k).toNat)) s ∧
      writesLanes (.vmax n es vd vs vt) n vd w (fun k => BitVec.ofInt w (max (a k).toInt (b k).toInt)) s ∧
      writesLanes (.vmaxu n es vd vs vt) n vd w (fun k => BitVec.ofNat w (max (a k).toNat (b k).toNat)) s ∧
      writesLanes (.vcmpeq n es vd vs vt) n vd w (fun k => if a k = b k then BitVec.allOnes w else 0) s ∧
      writesLanes (.vcmpgt n es vd vs vt) n vd w
        (fun k => if (a k).toInt > (b k).toInt then BitVec.allOnes w else 0) s ∧
      writesLanes (.vcmpgtu n es vd vs vt) n vd w
        (fun k => if (a k).toNat > (b k).toNat then BitVec.allOnes w else 0) s) ∧
    (1 ≤ es.toNat → es.toNat < 3 → writesLanes (.vmul n es vd vs vt) n vd w (fun k => a k * b k) s) ∧
    (es.toNat < 2 → writesLanes (.vavgu n es vd vs vt) n vd w
      (fun k => BitVec.ofNat w (((a k).toNat + (b k).toNat + 1) / 2)) s) ∧
    writesLanes (.vmulhs n 1 vd vs vt) n vd 16 (fun k =>
      ((((s.v n vs).extractLsb' (16 * k) 16).signExtend 32 *
        ((s.v n vt).extractLsb' (16 * k) 16).signExtend 32 : BitVec 32)).extractLsb' 16 16) s ∧
    writesV (.vand n 3 vd vs vt) n vd (s.v n vs &&& s.v n vt) s ∧
    writesV (.vor n 3 vd vs vt) n vd (s.v n vs ||| s.v n vt) s ∧
    writesV (.vxor n 3 vd vs vt) n vd (s.v n vs ^^^ s.v n vt) s ∧
    writesV (.vandn n 3 vd vs vt) n vd (s.v n vs &&& ~~~ s.v n vt) s

/-- For every ready engine: VSHL, VSHR and VSRA shift each lane by g[gt][4:0] (all zeros or all sign for a count of
w or more); VPERM, VBTR8, VSLB, VSRB and VSEL give the tabled bytes; VINS and VSPLAT write one lane or every
lane with the low bits of g[gs]; VEXT and VHSUM write one lane or the sum of the lanes to g[gd] (g0 stays 0).
Nothing else of the registers changes. (10_hennath_instruction_reference.md: Vectors) -/
--% def gen (i : Nat) := K (rdy i) 0 (nat i 1 6) (nat i 2 4) (nat i 3 4) (nat i 5 16) (nat i 6 32) (BitVec.ofNat 2 i)
def Obligations.VectorShiftsAndMoves : Prop :=
  ∀ (s : State) (n vd vs vt gs k : Nat) (es : BitVec 2), vd < 32 → vs < 32 → vt < 32 → gs < 32 →
    Ready n [128 + vd, 128 + vs, 128 + vt, gs] s →
    let w := 8 * 2 ^ es.toNat
    let x := s.v n vs
    let y := s.v n vt
    let c := (s.g n gs).toNat % 32
    let byte := fun (v : Vec) j => v.extractLsb' (8 * j) 8
    (es.toNat < 3 →
      writesLanes (.vshl n es vd vs gs) n vd w (fun i => if c < w then x.extractLsb' (w * i) w <<< c else 0) s ∧
      writesLanes (.vshr n es vd vs gs) n vd w (fun i => if c < w then x.extractLsb' (w * i) w >>> c else 0) s ∧
      writesLanes (.vsra n es vd vs gs) n vd w (fun i => (x.extractLsb' (w * i) w).sshiftRight (min c (w - 1))) s ∧
      (w * k < 128 →
        writesG (.vext n es gs vs k) n gs ((x.extractLsb' (w * k) w).zeroExtend 32) s ∧
        writesLanes (.vins n es vd gs k) n vd w
          (fun i => if i = k then (s.g n gs).extractLsb' 0 w else (s.v n vd).extractLsb' (w * i) w) s) ∧
      writesLanes (.vsplat n es vd gs) n vd w (fun _ => (s.g n gs).extractLsb' 0 w) s) ∧
    (es.toNat < 2 → writesG (.vhsum n es gs vs) n gs
      (BitVec.ofNat 32 ((List.range (128 / w)).map (fun i => (x.extractLsb' (w * i) w).toNat)).sum) s) ∧
    writesLanes (.vperm n 3 vd vs vt) n vd 8
      (fun j => if (byte y j).getLsbD 7 then 0 else byte x ((byte y j).toNat % 16)) s ∧
    writesVWhere (.vbtr8 n 3 vd vs) n vd
      (fun v => ∀ h < 2, ∀ i < 8, ∀ r < 8, (byte v (8 * h + i)).getLsbD r = (byte x (8 * h + r)).getLsbD i) s ∧
    (k < 16 →
      writesLanes (.vslb n 3 vd vs k) n vd 8 (fun j => if k ≤ j then byte x (j - k) else 0) s ∧
      writesLanes (.vsrb n 3 vd vs k) n vd 8 (fun j => if j + k ≤ 15 then byte x (j + k) else 0) s) ∧
    writesV (.vsel n 3 vd vs vt) n vd ((x &&& s.v n vd) ||| (y &&& ~~~ s.v n vd)) s

/-- For every ready engine, VHT1 writes bit j of g[gd] as (q(j) + d(j)) >> 8 with bits 31:16 at 0, VHT2 bits 2j+1:2j
as (3 × q(j) + d(j)) >> 8, and VGFMUL, VGFMAC and VGFMACS write each byte of v[vd] with gfmul of two bytes under
the polynomial of Sel, the MAC forms XORed into the old byte. (10_hennath_instruction_reference.md: Vectors) -/
--% def gen (i : Nat) := K (rdy i) 0 (nat i 1 6) (nat i 2 4) (nat i 3 4) (nat i 5 32) (BitVec.ofNat 2 i)
def Obligations.HalftoneAndVectorGalois : Prop :=
  ∀ (s : State) (n vd vs vt gd : Nat) (sel : BitVec 2), vd < 32 → vs < 32 → vt < 32 → gd < 32 →
    Ready n [128 + vd, 128 + vs, 128 + vt, gd] s →
    let byte := fun (v : Vec) j => (v.extractLsb' (8 * j) 8).toNat
    let q := byte (s.v n vs)
    let d := byte (s.v n vt)
    let gf := gfProduct (gfPolynomial sel)
    writesGWhere (.vht1 n 0 gd vs vt) n gd (fun v => (∀ j < 16, v.getLsbD j = decide (q j + d j ≥ 256)) ∧
      ∀ j, 16 ≤ j → v.getLsbD j = false) s ∧
    writesGWhere (.vht2 n 0 gd vs vt) n gd
      (fun v => ∀ j < 16, (v.extractLsb' (2 * j) 2).toNat = (3 * q j + d j) / 256) s ∧
    writesLanes (.vgfmul n 0 sel vd vs vt) n vd 8 (fun j => BitVec.ofNat 8 (gf (q j) (d j))) s ∧
    writesLanes (.vgfmac n 0 sel vd vs vt) n vd 8
      (fun j => (s.v n vd).extractLsb' (8 * j) 8 ^^^ BitVec.ofNat 8 (gf (q j) (d j))) s ∧
    writesLanes (.vgfmacs n 0 sel vd vs gd) n vd 8
      (fun j => (s.v n vd).extractLsb' (8 * j) 8 ^^^ BitVec.ofNat 8 (gf (q j) ((s.g n gd).toNat % 256))) s

/-- For every ready engine, BR and BRF go to pc + 4 × sext(off) where the predicate reads 1 or 0 and to pc + 4 else,
BRA always, CALL with a15 = pc + 4, JR to a[ra], and JALR to the old a[ra] with a[ad] = pc + 4. No other
register, no memory and no control register but ME_PERF_ISSUE(n) changes. (10_hennath_instruction_reference.md:
Branches, 09_mark_engines.md: Instruction formats) -/
--% def gen (i : Nat) := K (rdy i) 0 (nat i 1 8) (nat i 2 16) (nat i 3 16) ((word i 4).setWidth 20)
def Obligations.BranchesAndJumps : Prop :=
  ∀ (s : State) (n pr ad ra : Nat) (off : BitVec 20), pr < 8 → ad < 16 → ra < 16 →
    Ready n [160 + pr, 64 + ad, 64 + ra, 64 + 15] s →
    let pc := (s.eng n).pc
    let target := pc + 4 * off.signExtend 48
    jumpsTo (.br n pr off) n (if s.p n pr then target else pc + 4) s ∧
    jumpsTo (.brf n pr off) n (if s.p n pr then pc + 4 else target) s ∧
    jumpsTo (.bra n off) n target s ∧
    (∃ t, exec (.call n off) s = .next t ∧ Retired n target s t ∧ onlyA n 15 (pc + 4) s t) ∧
    jumpsTo (.jr n ra) n (s.a n ra) s ∧
    (∃ t, exec (.jalr n ad ra) s = .next t ∧ Retired n (s.a n ra) s t ∧ onlyA n ad (pc + 4) s t)

/-- With Exl 0, a ready engine that meets a shift immediate of 32 or more, a bit field of no bits or beyond the
word, cc 0b110 or 0b111, a register number outside its file, a lane width or lane or byte count that the
instruction does not take, or an odd pair enters the exception ILLEGAL at its own address and changes nothing
else. So does an instruction whose word in memory is no assigned encoding, or has a reserved field that is not
0. (10_hennath_instruction_reference.md, 09_mark_engines.md: Instruction formats) -/
--% def gen (i : Nat) := K (rdy i) 0 (nat i 1 32) (nat i 2 32) (nat i 3 70) (nat i 4 40) (nat i 5 40) (nat i 6 20) ((word i 4).setWidth 14) (BitVec.ofNat 3 i) (BitVec.ofNat 2 (i/3)) (bool i 8)
--%   ((rdy i).store ((rdy i).eng 0).pc.toNat (wordBytes [word i 9]))
def Obligations.IllegalEncodingsRaiseIllegal : Prop :=
  ∀ (s : State) (n rd rs rt pos len k : Nat) (imm : BitVec 14) (cc : BitVec 3) (es : BitVec 2) (nowait : Bool) (s' : State),
    (((s'.eng n).st = .run ∧ (s'.eng n).issueAt ≤ s'.clock.tick ∧ (s'.eng n).step = 0 ∧ (s'.eng n).exl = false ∧
        asyncCause (s'.eng n) = none ∧ breakNow n s' = false ∧ fetchCause n (s'.eng n).pc.toNat s' = none ∧
        wordLegal (s'.word (s'.eng n).pc.toNat) = false) →
      raisesIllegal (.add n rd rs rt) n s' ∧ raisesIllegal (.ldW n rd rs imm) n s' ∧ raisesIllegal (.bra n 0) n s' ∧
      raisesIllegal (.vand n es rd rs k) n s' ∧ raisesIllegal (.fenceI n) n s') ∧
    (Ready n [rd, rs] s → (s.eng n).exl = false → rd < 32 → rs < 32 →
    (32 ≤ imm.toNat → raisesIllegal (.shli n rd rs imm) n s ∧ raisesIllegal (.shri n rd rs imm) n s ∧
      raisesIllegal (.srai n rd rs imm) n s) ∧
    (len = 0 ∨ 32 < pos + len → raisesIllegal (.bfxu n rd rs pos len) n s ∧ raisesIllegal (.bfxs n rd rs pos len) n s ∧
      raisesIllegal (.bfi n rd rs pos len) n s) ∧
    (6 ≤ cc.toNat → raisesIllegal (.cmpi n cc rd rs imm) n s) ∧
    (64 ≤ rt → raisesIllegal (.add n rt rs rd) n s ∧ raisesIllegal (.ldW n rt rs imm) n s) ∧
    (16 ≤ rt → raisesIllegal (.jr n rt) n s ∧ raisesIllegal (.stW n rd rt imm) n s) ∧
    (8 ≤ rt → raisesIllegal (.br n rt 0) n s ∧ raisesIllegal (.pand n rt 1 1) n s) ∧
    (es = 3 → raisesIllegal (.vadd n es rd rs k) n s ∧ raisesIllegal (.vsplat n es rd rs) n s) ∧
    (es ≠ 3 → raisesIllegal (.vand n es rd rs k) n s ∧ raisesIllegal (.vperm n es rd rs k) n s) ∧
    (es = 0 ∨ es = 3 → raisesIllegal (.vmul n es rd rs k) n s) ∧
    (es ≠ 0 → raisesIllegal (.vht1 n es rd rs k) n s ∧ raisesIllegal (.vgfmul n es 0 rd rs k) n s) ∧
    (128 / (8 * 2 ^ es.toNat) ≤ k → raisesIllegal (.vext n es rd rs k) n s ∧ raisesIllegal (.vins n es rd rs k) n s) ∧
    (16 ≤ k → raisesIllegal (.vslb n 3 rd rs k) n s ∧ raisesIllegal (.vsrb n 3 rd rs k) n s) ∧
    (rs % 2 = 1 → raisesIllegal (.twait n rs) n s ∧ raisesIllegal (.dlset n rs) n s ∧
      raisesIllegal (.ewait n rd rs) n s ∧ raisesIllegal (.qget n rd rs nowait) n s))

/-- With Exl 0 TRAP enters cause 8 with EPC = pc + 4 and BRK without a debugger cause 9 with EPC = pc; a synchronous
exception with Exl 1 faults the engine, and the effects of that fault set ME_FAULT and ME_FAULTPC; ERET at SUPER
with Exl 1 sets Priv and Ie from the saved bits, clears Exl and goes to EPC, with Exl 0 it raises ILLEGAL, and
at USER with Exl 0 PRIV; EXCEPTION_ENTRY takes the pending asynchronous cause, DEADLINE before DMAERR before
EVENT, with EPC the next instruction, from RUN and from WAIT, and none while Exl is 1. An engine with a load
outstanding waits for it first (log entry 92). (09_mark_engines.md: Exceptions,
10_hennath_instruction_reference.md: System) -/
--% def gen (i : Nat) :=
--%   let s := rdy i
--%   let e := s.eng 0
--%   let s := s.setEng 0 (if i % 3 = 0 then e else { e with dlPend := bool i 50, dmaPend := if bool i 51 then some (nat i 52 256) else none, st := if bool i 53 then .wait else .run })
--%   K (s.setReg (Reg.ME_DBGCTL 0) (word i 60)) 0 3
def Obligations.ExceptionEntryAndReturn : Prop :=
  ∀ (s : State) (n : Nat) (code : Byte),
    let e := s.eng n
    (ReadySys n [] s → e.exl = false →
      (∃ t, exec (.trap n code) s = .next t ∧ EngAfter n (e.interrupted 8 0 (e.pc + 4) 0) [] [] s t) ∧
      (s.bit (Reg.ME_DBGCTL n) F.ME_DBGCTL_Attached = false →
        ∃ t, exec (.brk n) s = .next t ∧ EngAfter n (e.interrupted 9 0 e.pc 0) [] [] s t) ∧
      (s.bit (Reg.ME_DBGCTL n) F.ME_DBGCTL_Attached = true →
        ∃ t, exec (.brk n) s = .next t ∧
          EngAfter n { e with st := .halted, wait := .none, pc := e.pc + 4 } [Reg.ME_PERF_ISSUE n] [] s t) ∧
      (e.priv = true → ∃ t, exec (.eret n) s = .next t ∧ EngAfter n (e.interrupted 1 0 e.pc 0) [] [] s t) ∧
      (e.priv = false → ∃ t, exec (.eret n) s = .next t ∧ EngAfter n (e.interrupted 2 0 e.pc 0) [] [] s t)) ∧
    (ReadySys n [] s → e.exl = true →
      (e.flt = none → n < 192 → ∃ t, exec (.trap n code) s = .next t ∧ EngAfter n { e with
          st := .faulted, wait := .none, loads := [], step := 0,
          flt := some (EngFlt.mk (2 * (s.clock.tick / 2) + 2) 1 8 e.pc 0 s.clock.lt) } [] [] s t ∧
        ((faultEnd n t).eng n).st = .faulted ∧ (faultEnd n t).reg (Reg.ME_FAULT n) = 0x0801#32 ∧
        (faultEnd n t).reg (Reg.ME_FAULTPC_LO n) = e.pc.extractLsb' 0 32 ∧
        (faultEnd n t).reg (Reg.ME_FAULTPC_HI n) = (e.pc.extractLsb' 32 16).zeroExtend 32) ∧
      (e.priv = true → ∃ t, exec (.eret n) s = .next t ∧ EngAfter n
        { e with priv := e.prevPriv, ie := e.prevIe, exl := false, pc := e.epc } [Reg.ME_PERF_ISSUE n] [] s t)) ∧
    (e.st = .run ∨ e.st = .wait → e.loads = [] →
      (e.exl = false → e.dlPend = true → ∃ t, exec (.exceptionEntry n) s = .next t ∧
        EngIs n { e.interrupted 7 0 e.pc 0 with dlPend := false } [] [] s t) ∧
      (∀ c < 256, e.exl = false → e.dlPend = false → e.dmaPend = some c → ∃ t, exec (.exceptionEntry n) s = .next t ∧
        EngIs n { e.interrupted 10 c e.pc 0 with dmaPend := none } [] [] s t) ∧
      (e.exl = false → e.dlPend = false → e.dmaPend = none → e.ie = true → e.evpend &&& e.evmask ≠ 0 →
        ∃ t, exec (.exceptionEntry n) s = .next t ∧ EngIs n (e.interrupted 16 0 e.pc 0) [] [] s t) ∧
      (e.exl = true → exec (.exceptionEntry n) s = .next s))

/-- For a ready engine MFSR writes g[rd] with the tabled content of every listed special register: LT_LO the low
word of LINETIME at the start of the ENG cycle with LT_HI its snapshot of the high word, CORE, CYCLE, and at
SUPER STATUS, EPC, ECAUSE, EADDR and EVEC, the channels, DL, DLCTL, CT, CTCTL, JOBQ and JOBD. At USER with Exl 0
a SUPER register raises PRIV, and an unlisted number raises ILLEGAL. (09_mark_engines.md: Registers,
10_hennath_instruction_reference.md: System) -/
--% def gen (i : Nat) := K (rdy i) 0 (nat i 1 64) (nat i 2 64)
def Obligations.SpecialRegisterReads : Prop :=
  ∀ (s : State) (n rd r : Nat), rd < 64 → ReadySys n [rd] s →
    let e := s.eng n
    let b := fun (x : Bool) => if x then 1 else 0
    (∃ t, exec (.mfsr n rd 0) s = .next t ∧ (∀ k < 64, t.g n k = if k = rd ∧ k ≠ 0 then BitVec.ofNat 32 s.clock.ltStart else s.g n k) ∧
      (t.eng n).ltHi = BitVec.ofNat 32 (s.clock.ltStart / 2 ^ 32) ∧ (t.eng n).pc = e.pc + 4 ∧
      sameBut [.regs, .engs] s t) ∧
    writesG (.mfsr n rd 1) n rd e.ltHi s ∧
    (n < 192 → writesG (.mfsr n rd 2) n rd (BitVec.ofNat 32 (n + 256 * (n % 16) + 4096 * (n / 16))) s) ∧
    writesG (.mfsr n rd 3) n rd (BitVec.ofNat 32 (s.clock.tick / 2 - e.relTick / 2)) s ∧
    (e.priv = true →
      writesG (.mfsr n rd 4) n rd
        (BitVec.ofNat 32 (b e.priv + 2 * b e.exl + 4 * b e.ie + 8 * b e.prevPriv + 16 * b e.prevIe)) s ∧
      writesG (.mfsr n rd 5) n rd (e.epc.extractLsb' 0 32) s ∧
      writesG (.mfsr n rd 6) n rd ((e.epc.extractLsb' 32 16).zeroExtend 32) s ∧
      writesG (.mfsr n rd 7) n rd e.ecause s ∧
      writesG (.mfsr n rd 8) n rd (e.eaddr.extractLsb' 0 32) s ∧
      writesG (.mfsr n rd 9) n rd ((e.eaddr.extractLsb' 32 16).zeroExtend 32) s ∧
      writesG (.mfsr n rd 10) n rd (e.evec.extractLsb' 0 32) s ∧
      writesG (.mfsr n rd 11) n rd ((e.evec.extractLsb' 32 16).zeroExtend 32) s) ∧
    writesG (.mfsr n rd 12) n rd (e.evmask.zeroExtend 32) s ∧
    writesG (.mfsr n rd 13) n rd (e.evpend.zeroExtend 32) s ∧
    writesG (.mfsr n rd 14) n rd (BitVec.ofNat 32 e.dl) s ∧
    writesG (.mfsr n rd 15) n rd (BitVec.ofNat 32 (e.dl / 2 ^ 32)) s ∧
    writesG (.mfsr n rd 16) n rd (BitVec.ofNat 32 (b e.dlArmed + 2 * e.dlAction)) s ∧
    writesG (.mfsr n rd 17) n rd e.ctLo s ∧
    writesG (.mfsr n rd 18) n rd e.ctHi s ∧
    writesG (.mfsr n rd 19) n rd (BitVec.ofNat 32 (b e.ctArmed + 4 * b e.ctLocal)) s ∧
    (e.jobValid = true → writesG (.mfsr n rd 20) n rd (BitVec.ofNat 32 (e.jobQueue + 2 ^ 31)) s) ∧
    (∀ k < 16, writesG (.mfsr n rd (32 + k)) n rd (e.jobd[k]?.getD 0) s) ∧
    (e.exl = false → e.priv = false → 4 ≤ r ∧ r ≤ 11 ∨ r = 21 →
      ∃ t, exec (.mfsr n rd r) s = .next t ∧ EngAfter n (e.interrupted 2 0 e.pc 0) [] [] s t) ∧
    (e.exl = false → 22 ≤ r ∧ r < 32 ∨ 48 ≤ r →
      ∃ t, exec (.mfsr n rd r) s = .next t ∧ EngAfter n (e.interrupted 1 0 e.pc 0) [] [] s t)

/-- For a ready engine MTSR at SUPER writes STATUS, the halves of EPC, EADDR and EVEC (bits 11:0 stored as 0) and
ECAUSE, and at either level EVMASK, EVPEND (written 1s clear), DLCTL.Action (0b11 stored as 0b10), CT_LO, CT_HI,
which arms the timer, and CTCTL, whose Disarm disarms it, and retires with nothing else changed. With Exl 0 a
SUPER register at USER raises PRIV, and a read-only or unlisted number raises ILLEGAL. (09_mark_engines.md:
Registers, 10_hennath_instruction_reference.md: System) -/
--% def gen (i : Nat) :=
--%   let s := rdy i
--%   K (if i % 2 = 0 then s else s.setEng 0 { s.eng 0 with ctArmed := false }) 0 (nat i 1 64) (nat i 2 64)
def Obligations.SpecialRegisterWrites : Prop :=
  ∀ (s : State) (n rs r : Nat), rs < 64 → ReadySys n [rs] s →
    let e := s.eng n
    let v := s.g n rs
    let lo := fun (a : Addr) => a.extractLsb' 32 16 ++ v
    let hi := fun (a : Addr) => v.extractLsb' 0 16 ++ a.extractLsb' 0 32
    (e.priv = true →
      retiresWith (.mtsr n rs 4) n { e with
        priv := v.getLsbD 0, exl := v.getLsbD 1, ie := v.getLsbD 2, prevPriv := v.getLsbD 3, prevIe := v.getLsbD 4 } s ∧
      retiresWith (.mtsr n rs 5) n { e with epc := lo e.epc } s ∧
      retiresWith (.mtsr n rs 6) n { e with epc := hi e.epc } s ∧
      retiresWith (.mtsr n rs 7) n { e with ecause := v &&& 0xFFFF } s ∧
      retiresWith (.mtsr n rs 8) n { e with eaddr := lo e.eaddr } s ∧
      retiresWith (.mtsr n rs 9) n { e with eaddr := hi e.eaddr } s ∧
      retiresWith (.mtsr n rs 10) n { e with evec := lo e.evec &&& ~~~ 0xFFF } s ∧
      retiresWith (.mtsr n rs 11) n { e with evec := hi e.evec } s ∧
      retiresWith (.mtsr n rs 21) n { e with wdogTick := 0 } s) ∧
    retiresWith (.mtsr n rs 12) n { e with evmask := v.extractLsb' 0 16 } s ∧
    retiresWith (.mtsr n rs 13) n { e with evpend := e.evpend &&& ~~~ v.extractLsb' 0 16 } s ∧
    retiresWith (.mtsr n rs 16) n { e with dlAction := min 2 (v.extractLsb' 1 2).toNat } s ∧
    retiresWith (.mtsr n rs 17) n { e with ctLo := v } s ∧
    (e.ctArmed = false ∨ s.clock.lt < e.ctVal →
      retiresWith (.mtsr n rs 18) n { e with ctHi := v, ctVal := e.ctLo.toNat + 2 ^ 32 * v.toNat, ctArmed := true, ctTick := s.clock.tick } s ∧
      retiresWith (.mtsr n rs 19) n { e with ctLocal := v.getLsbD 2, ctArmed := e.ctArmed && !v.getLsbD 1 } s) ∧
    (e.exl = false → e.priv = false → 4 ≤ r ∧ r ≤ 11 ∨ r = 21 →
      ∃ t, exec (.mtsr n rs r) s = .next t ∧ EngAfter n (e.interrupted 2 0 e.pc 0) [] [] s t) ∧
    (e.exl = false → r ≤ 3 ∨ r = 14 ∨ r = 15 ∨ r = 20 ∨ 22 ≤ r →
      ∃ t, exec (.mtsr n rs r) s = .next t ∧ EngAfter n (e.interrupted 1 0 e.pc 0) [] [] s t)

/-- For a ready engine: FENCE.L waits while a load is outstanding and else retires; FENCE.S with an empty store
buffer retires, and with one store to the own Pocket writes its bytes to memory first, and no other byte;
FENCE.I discards the instruction cache; IINV at SUPER keeps the locked lines unless Unlock was written and ends
that grant; PARK at SUPER goes to PARKED behind itself, gives the current job back, and sets Parked. IINV and
PARK at USER raise PRIV. (09_mark_engines.md: Memory ordering, Control and debug registers;
10_hennath_instruction_reference.md: System) -/
--% def gen (i : Nat) :=
--%   let s := rdy i
--%   let e := s.eng 0
--%   let a := 0x200000000 + nat i 3 0x10000
--%   let bs := (List.range (nat i 4 17)).map fun k => BitVec.ofNat 8 (mix (i*20+k))
--%   let s := s.store a (bs.map (· + 1))
--%   let s := s.setEng 0 { e with stores := if bool i 5 then [] else [⟨a, bs⟩], loads := if bool i 6 then [] else [⟨0, 0, 4, true, false, 3, none, 0, false, ctxOf Engine.init⟩], unlockIinv := bool i 7, icache := [⟨3, 1⟩, ⟨5, 0⟩] ++ e.icache }
--%   K s 0 a bs
def Obligations.FencesCacheAndPark : Prop :=
  ∀ (s : State) (n a : Nat) (bs : List Byte), Ready n [] s →
    let e := s.eng n
    (e.loads ≠ [] → exec (.fenceL n) s = .next s) ∧
    (e.loads = [] →
    (e.stores = [] → retiresWith (.fenceL n) n e s) ∧
    (e.stores = [] → retiresWith (.fenceS n) n e s) ∧
    (e.stores = [⟨a, bs⟩] → regionOf a s = .pocket n →
      ∃ t, exec (.fenceS n) s = .next t ∧ (t.eng n).stores = [] ∧ (t.eng n).pc = e.pc + 4 ∧
        (∀ k < bs.length, t.byte (a + k) = bs[k]?.getD 0) ∧
        (∀ x, x < a ∨ a + bs.length ≤ x → t.byte x = s.byte x) ∧ regsBut [Reg.ME_PERF_ISSUE n] s t) ∧
    retiresWith (.fenceI n) n { e with icache := [] } s ∧
    (e.priv = true →
      retiresWith (.iinv n) n
        { e with icache := if e.unlockIinv then [] else e.icache.filter (fun x => x.way < s.fld (Reg.ME_CTL n) F.ME_CTL_LockWays), unlockIinv := false } s ∧
      (n < 192 → ∃ t, exec (.park n) s = .next t ∧ (t.eng n).st = .parked ∧ (t.eng n).pc = e.pc + 4 ∧
        (t.eng n).jobValid = false ∧ (t.eng n).returns.length = e.returns.length + (if e.jobValid then 1 else 0) ∧
        t.bit (Reg.ME_STAT n) F.ME_STAT_Parked = true ∧ sameBut eventParts s t)) ∧
    (e.priv = false → e.exl = false →
      (∃ t, exec (.iinv n) s = .next t ∧ EngAfter n (e.interrupted 2 0 e.pc 0) [] [] s t) ∧
      ∃ t, exec (.park n) s = .next t ∧ EngAfter n (e.interrupted 2 0 e.pc 0) [] [] s t))

/-- For an access of 1, 2, 4 or 16 bytes by engine n: a misaligned one gives ALIGN; a USER access to the control
region, Config Staging or the Journal window PRIV; at SUPER the own Pocket and any waking Cluster Store give no
cause, another engine's Pocket ACCESS, a write to the Journal window or to Config Staging ACCESS, an address
between the ranges BUS; at USER an access that no enabled region holds whole gives ACCESS. (09_mark_engines.md:
Memory seen by an engine, Privilege; 10_hennath_instruction_reference.md: Loads, stores and DMA) -/
--% def gen (i : Nat) :=
--%   let s := rdy i
--%   let s := s.setEng 0 { s.eng 0 with priv := i % 3 != 0 }
--%   let r := nat i 1 8
--%   let sz := [1, 2, 4, 16][nat i 2 4]?.getD 1
--%   let a := (match r with | 0 => nat i 3 0x1000000 | 1 => 0x2000000 + nat i 3 0x180000 | 2 => 0x3000000 + nat i 3 0x40000 | 3 => 0x200000000 + nat i 3 0x10000 | 4 => 0x200000000 + nat i 3 0xC00000 | 5 => 0x100000000 + 0x400000 * nat i 4 12 + nat i 3 0x200000 | _ => 0x500000000 + nat i 3 0x10000)
--%   K (if bool i 7 then s.setReg (Reg.ME_RGN_HI 0 0) 0 else s) 0 (if bool i 9 then a else a - a % 16) sz (bool i 6)
def Obligations.EngineAccessRights : Prop :=
  ∀ (s : State) (n a size : Nat) (write : Bool), n < 192 → size = 1 ∨ size = 2 ∨ size = 4 ∨ size = 16 →
    let cause := accessCause n write a size s
    let super := (s.eng n).priv
    let control := a < 0x1000000
    let staging := 0x2000000 ≤ a ∧ a < 0x2200000
    let journal := 0x3000000 ≤ a ∧ a < 0x3040000
    let awake := fun c => s.bit (Reg.TST_RETCTL c) F.TST_RETCTL_Retained = false
    (a % size ≠ 0 → cause = some 3) ∧
    (a % size = 0 →
      (super = false → control ∨ staging ∨ journal → cause = some 2) ∧
      (super = true → control → cause = none) ∧
      (super = true → staging ∨ journal → write = true → cause = some 4) ∧
      (super = true → journal → write = false → cause = none) ∧
      (super = true → awake (n / 16) → 0x200000000 + 0x10000 * n ≤ a → a < 0x200000000 + 0x10000 * (n + 1) → cause = none) ∧
      (∀ m < 192, m ≠ n → super = true → awake (m / 16) → 0x200000000 + 0x10000 * m ≤ a →
        a < 0x200000000 + 0x10000 * (m + 1) → cause = some 4) ∧
      (∀ c < 12, super = true → awake c → 0x100000000 + 0x400000 * c ≤ a → a < 0x100000000 + 0x400000 * c + 0x200000 →
        cause = none) ∧
      (super = true → 0x200C00000 ≤ a → a < 0x1000000000 → cause = some 5) ∧
      (super = false → ¬ control → ¬ staging → ¬ journal →
        (∀ r < 8, s.bit (Reg.ME_RGN_HI n r) F.ME_RGN_HI_RgnEnable = false) → cause = some 4))

/-- For a ready engine, the address is a[ra] + sext(off) × size modulo 2^48. With no cause against the access and
room for it, each of the six loads joins the loads on their way with its size, sign and destination (an address
outside the Seam windows), each of the four stores joins the store buffer with the low bytes of its register,
and the instruction retires with nothing else changed, memory included. With Exl 0 and a cause k against it,
exception k is entered at the instruction with EADDR the address, and memory is unchanged. (09_mark_engines.md:
Instruction formats, Exceptions; 10_hennath_instruction_reference.md: Loads, stores and DMA) -/
--% def gen (i : Nat) :=
--%   let s := rdy i
--%   let off := (word i 5).setWidth 14
--%   let sz := [1, 2, 4, 16][i % 4]?.getD 1
--%   let a : Nat := (if bool i 6 then 0x200000000 + nat i 3 0x10000 else 0x100000000 + nat i 3 0x200000)
--%   let a := if bool i 7 then a else a - a % 16
--%   let s := s.setEng 0 { s.eng 0 with priv := i % 3 != 0, a := (s.eng 0).a.set 0 2 (BitVec.ofNat 48 a - off.signExtend 48 * BitVec.ofNat 48 sz) }
--%   K s 0 (nat i 1 32) 2 off
def Obligations.LoadsAndStoresIssue : Prop :=
  ∀ (s : State) (n rd ra : Nat) (off : BitVec 14), rd < 32 → ra < 16 → Ready n [rd, 128 + rd, 64 + ra] s →
    let e := s.eng n
    let addr := fun (size : Nat) => (s.a n ra + off.signExtend 48 * BitVec.ofNat 48 size).toNat
    let ok := fun (write : Bool) (size : Nat) => accessCause n write (addr size) size s = none ∧
      (addr size < 0x400000000000 ∨ 0x404000000000 ≤ addr size)
    let loaded := fun (size : Nat) (signed vec : Bool) =>
      { e with loads := e.loads ++ [EngLoad.mk e.pc (addr size) size signed vec rd none e.stores.length false (ctxOf e)] }
    let stored := fun (size x : Nat) => { e with stores := e.stores ++ [EngStore.mk (addr size)
      ((List.range size).map (fun k => BitVec.ofNat 8 (x / 256 ^ k)))] }
    let refused := fun (i : Instr) (k size : Nat) => ∃ t, exec i s = .next t ∧ (t.eng n).pc = e.evec + BitVec.ofNat 48 (64 * k) ∧
      (t.eng n).epc = e.pc ∧ (t.eng n).ecause = BitVec.ofNat 32 k ∧ (t.eng n).eaddr = BitVec.ofNat 48 (addr size) ∧
      (t.eng n).priv = true ∧ (t.eng n).exl = true ∧ (t.eng n).ie = false ∧ t.mem = s.mem ∧
      (t.eng n).g = e.g ∧ (t.eng n).v = e.v ∧ (t.eng n).loads = e.loads ∧ (t.eng n).stores = e.stores
    (e.loads.length < 8 →
      (ok false 1 → retiresWith (.ldB n rd ra off) n (loaded 1 true false) s) ∧
      (ok false 2 → retiresWith (.ldH n rd ra off) n (loaded 2 true false) s) ∧
      (ok false 4 → retiresWith (.ldW n rd ra off) n (loaded 4 false false) s) ∧
      (ok false 16 → retiresWith (.ldV n rd ra off) n (loaded 16 false true) s) ∧
      (ok false 1 → retiresWith (.ldBu n rd ra off) n (loaded 1 false false) s) ∧
      (ok false 2 → retiresWith (.ldHu n rd ra off) n (loaded 2 false false) s)) ∧
    (e.stores.length < 8 →
      (ok true 1 → retiresWith (.stB n rd ra off) n (stored 1 (s.g n rd).toNat) s) ∧
      (ok true 2 → retiresWith (.stH n rd ra off) n (stored 2 (s.g n rd).toNat) s) ∧
      (ok true 4 → retiresWith (.stW n rd ra off) n (stored 4 (s.g n rd).toNat) s) ∧
      (ok true 16 → retiresWith (.stV n rd ra off) n (stored 16 (s.v n rd).toNat) s)) ∧
    (n < 192 → e.exl = false → e.loads.length < 8 → e.stores.length < 8 → ∀ k < 6,
      (accessCause n false (addr 1) 1 s = some k → addr 1 < 0x400000000000 →
        refused (.ldB n rd ra off) k 1 ∧ refused (.ldBu n rd ra off) k 1) ∧
      (accessCause n false (addr 2) 2 s = some k → addr 2 < 0x400000000000 →
        refused (.ldH n rd ra off) k 2 ∧ refused (.ldHu n rd ra off) k 2) ∧
      (accessCause n false (addr 4) 4 s = some k → addr 4 < 0x400000000000 → refused (.ldW n rd ra off) k 4) ∧
      (accessCause n false (addr 16) 16 s = some k → addr 16 < 0x400000000000 → refused (.ldV n rd ra off) k 16) ∧
      (accessCause n true (addr 1) 1 s = some k → refused (.stB n rd ra off) k 1) ∧
      (accessCause n true (addr 2) 2 s = some k → refused (.stH n rd ra off) k 2) ∧
      (accessCause n true (addr 4) 4 s = some k → refused (.stW n rd ra off) k 4) ∧
      (accessCause n true (addr 16) 16 s = some k → refused (.stV n rd ra off) k 16))

/-- For the oldest load of engine n from its own awake Pocket: with no earlier store of the buffer on its bytes and
no uncorrectable error, its register takes the little-endian bytes of memory, sign- or zero-extended as the load
says, and the load leaves the queue; with one earlier store that covers it, it takes that store's bytes; with an
error, BUS is entered precisely: EPC is the load, EADDR its address, the registers are as when it issued, and
what issued behind it is undone. The oldest store to the Pocket, with no load before it, writes its bytes there
and no other byte, and leaves the buffer. A number that names no load or store changes nothing.
(09_mark_engines.md: Memory seen by an engine, Memory ordering; 10_hennath_instruction_reference.md: Loads,
stores and DMA) -/
--% def gen (i : Nat) :=
--%   let s := rdy i
--%   let sz := [1, 2, 4, 16][i % 4]?.getD 1
--%   let a := 0x200000000 + nat i 3 0xfff0
--%   let s := s.store (a-3) ((List.range 24).map fun k => BitVec.ofNat 8 (mix (i*20+k)))
--%   let x : EngStore := if bool i 8 then ⟨a - nat i 9 3, (List.range 20).map fun k => BitVec.ofNat 8 (mix (i*30+k))⟩ else ⟨a + 32, [1,2]⟩
--%   let l : EngLoad := ⟨BitVec.ofNat 48 (mix i), a, sz, bool i 5, sz = 16, nat i 6 32, none, nat i 7 2, false, ctxOf { eng 0 (i+7) with exl := nat i 25 4 = 0 }⟩
--%   let s := s.setEng 0 { s.eng 0 with loads := if bool i 12 then [l] ++ (if bool i 26 then [{ l with addr := l.addr + 32, bad := bool i 27 }] else []) else [], stores := if bool i 10 then [x] else [], st := if bool i 11 then .run else .wait }
--%   K (if bool i 13 then setPoison a true s else s) 0 (nat i 20 3) l x (bool i 14)
def Obligations.LoadsReturnAndStoresLand : Prop :=
  ∀ (s : State) (n k : Nat) (l : EngLoad) (x : EngStore) (ue : Bool), n < 192 →
    let e := s.eng n
    let pocket := fun (a size : Nat) => s.bit (Reg.TST_RETCTL (n / 16)) F.TST_RETCTL_Retained = false ∧
      0x200000000 + 0x10000 * n ≤ a ∧ a + size ≤ 0x200000000 + 0x10000 * (n + 1)
    let kept := fun (t : State) => (t.eng n).loads.map (fun y => { y with ctx := l.ctx }) =
      (e.loads.drop 1).map (fun y => { y with ctx := l.ctx })
    let takes := fun (v : Nat) => ∃ t, exec (.loadReturn n 0 ue) s = .next t ∧ kept t ∧
      (∀ y ∈ (t.eng n).loads, (l.vec = true → y.ctx.v.get 0 l.rd = t.v n l.rd) ∧
        (l.vec = false → l.rd ≠ 0 → y.ctx.g.get 0 l.rd = t.g n l.rd)) ∧
      (l.vec = true → onlyV n l.rd (BitVec.ofNat 128 v) s t) ∧
      (l.vec = false → l.signed = false → onlyG n l.rd (BitVec.ofNat 32 v) s t) ∧
      (l.vec = false → l.signed = true → l.size = 1 → onlyG n l.rd ((BitVec.ofNat 8 v).signExtend 32) s t) ∧
      (l.vec = false → l.signed = true → l.size = 2 → onlyG n l.rd ((BitVec.ofNat 16 v).signExtend 32) s t) ∧
      (t.eng n).pc = e.pc ∧ regsBut [] s t ∧ sameBut [.engs, .memt] s t
    (e.loads[0]? = some l → l.seam = none → l.bad = false → pocket l.addr l.size → l.size = 1 ∨ l.size = 2 ∨ l.size = 4 ∨ l.size = 16 →
      ((e.stores.take l.after).all (fun y => decide (y.addr + y.bytes.length ≤ l.addr ∨ l.addr + l.size ≤ y.addr)) = true →
        (ue = false → (List.range l.size).all (fun i => !s.poisoned (l.addr + i)) = true →
          takes (leNat ((List.range l.size).map (fun i => s.byte (l.addr + i))))) ∧
        (ue = true ∨ (List.range l.size).any (fun i => s.poisoned (l.addr + i)) = true → l.ctx.exl = false → e.st = .run →
          ∃ t, exec (.loadReturn n 0 ue) s = .next t ∧
          (t.eng n).pc = e.evec + 0x140 ∧ (t.eng n).epc = l.pc ∧ (t.eng n).ecause = 5 ∧
          (t.eng n).eaddr = BitVec.ofNat 48 l.addr ∧ (t.eng n).exl = true ∧ (t.eng n).prevPriv = l.ctx.priv ∧
          (t.eng n).loads = [] ∧ (t.eng n).stores = e.stores.take l.after ∧ (t.eng n).g = l.ctx.g ∧
          (t.eng n).a = l.ctx.a ∧ (t.eng n).v = l.ctx.v ∧ (t.eng n).p = l.ctx.p ∧ t.mem = s.mem)) ∧
      (e.stores.take l.after = [x] → x.addr ≤ l.addr → l.addr + l.size ≤ x.addr + x.bytes.length →
        takes (leNat ((List.range l.size).map (fun i => x.bytes[l.addr + i - x.addr]?.getD 0))))) ∧
    (e.loads.length ≤ k → exec (.loadReturn n k ue) s = .next s) ∧
    (e.stores[0]? = some x → e.loads = [] → pocket x.addr x.bytes.length →
      ∃ t, exec (.storeAcknowledge n ⟨0, ue⟩) s = .next t ∧ (t.eng n).stores = e.stores.drop 1 ∧
        (∀ i < x.bytes.length, t.byte (x.addr + i) = x.bytes[i]?.getD 0) ∧
        (∀ a, a < x.addr ∨ x.addr + x.bytes.length ≤ a → t.byte a = s.byte a) ∧
        noReg n s t ∧ regsBut [] s t ∧ sameBut [.mem, .poison, .memt, .engs] s t) ∧
    (e.stores.length ≤ k → exec (.storeAcknowledge n ⟨k, ue⟩) s = .next s)

/-- For a ready engine with no outstanding load, no buffered store and fewer than 8 descriptors, DMA at an address a
= a[ra] + 32 × sext(off) that is aligned to 32 in the own awake Pocket, with RowBytes not 0 and every reserved
field 0, writes the next ticket to g[rd], queues the descriptor's eight words, and retires; a misaligned address
raises ALIGN, one outside the own Pocket ACCESS, an illegal descriptor ILLEGAL. DMAWAIT waits for an outstanding
ticket and else writes its status, 0 for a good end, 1 for a bad one and 2 for a ticket not kept;
DMA_WAIT_RETURN ends the wait in the same way. (09_mark_engines.md: DMA; 10_hennath_instruction_reference.md:
Loads, stores and DMA, System) -/
--% def gen (i : Nat) :=
--%   let s := rdy i
--%   let off := (word i 5).setWidth 14
--%   let a : Nat := if i % 5 = 0 then 0x200010000 + 32 * nat i 3 100 else if i % 7 = 0 then 0x200000000 + nat i 3 0x10000 else 0x200000000 + 32 * nat i 3 0x800
--%   let ws := [word i 10, word i 11 &&& 0xffff, word i 12, word i 13 &&& 0x3ffff, word i 14 &&& 0xffffff, word i 15, word i 16, word i 17]
--%   let ws := if i % 11 = 0 then ws.set 4 0 else if i % 13 = 0 then ws.set 1 (word i 21) else ws
--%   let s := s.store a (ws.flatMap fun w => leBytes 4 w.toNat)
--%   let d : EngDma := ⟨nat i 30 4, ws, false, 0, none⟩
--%   let s := s.setEng 0 { s.eng 0 with nextTicket := nat i 31 65536, dmas := if bool i 32 then [d] else [], tickets := [(nat i 33 4, bool i 34)], a := (s.eng 0).a.set 0 2 (BitVec.ofNat 48 a - off.signExtend 48 * 32), g := (s.eng 0).g.set 0 7 (BitVec.ofNat 32 (nat i 35 4) + (if bool i 36 then 0x10000 else 0)) }
--%   let t := (s.g 0 7).toNat % 65536
--%   let s := if bool i 40 then s.setEng 0 { s.eng 0 with st := .wait, wait := .ticket (nat i 1 64) t } else s
--%   K s 0 (nat i 1 64) 2 7 t off
def Obligations.DmaIssueAndWait : Prop :=
  ∀ (s : State) (n rd ra rs ticket : Nat) (off : BitVec 14), n < 192 → rd < 64 → ra < 16 → rs < 64 →
    let e := s.eng n
    let a := (s.a n ra + off.signExtend 48 * 32).toNat
    let pocket := s.bit (Reg.TST_RETCTL (n / 16)) F.TST_RETCTL_Retained = false ∧
      0x200000000 + 0x10000 * n ≤ a ∧ a < 0x200000000 + 0x10000 * (n + 1)
    let w := fun k => s.word (a + 4 * k)
    let legal := (w 1).toNat < 2 ^ 16 ∧ (w 3).toNat < 2 ^ 18 ∧ (w 4).toNat ≠ 0 ∧ (w 4).toNat < 2 ^ 24
    let status : Word := match e.tickets.find? (fun x => x.1 = ticket) with
      | some x => if x.2 then 1 else 0
      | none => 2
    let outstanding := (e.dmas.any (fun d => d.ticket = ticket)) = true
    (Ready n [rd, 64 + ra] s → e.loads = [] → e.stores = [] → e.dmas.length < 8 →
      (a % 32 = 0 → pocket → legal → ∃ t, exec (.dma n rd ra off) s = .next t ∧
        onlyG n rd (BitVec.ofNat 32 e.nextTicket) s t ∧ (t.eng n).pc = e.pc + 4 ∧
        (t.eng n).dmas = e.dmas ++ [EngDma.mk e.nextTicket ((List.range 8).map w) (!e.priv) 0 none] ∧
        (t.eng n).nextTicket = (e.nextTicket + 1) % 2 ^ 16 ∧
        regsBut [Reg.ME_PERF_ISSUE n] s t ∧ sameBut [.regs, .engs] s t) ∧
      (e.exl = false → a % 32 ≠ 0 → ∃ t, exec (.dma n rd ra off) s = .next t ∧
        EngAfter n (e.interrupted 3 0 e.pc (BitVec.ofNat 48 a)) [] [] s t) ∧
      (e.exl = false → a % 32 = 0 → a < 0x200000000 + 0x10000 * n ∨ 0x200000000 + 0x10000 * (n + 1) ≤ a →
        ∃ t, exec (.dma n rd ra off) s = .next t ∧ EngAfter n (e.interrupted 4 0 e.pc (BitVec.ofNat 48 a)) [] [] s t) ∧
      (e.exl = false → a % 32 = 0 → pocket → ¬ legal → ∃ t, exec (.dma n rd ra off) s = .next t ∧
        EngAfter n (e.interrupted 1 0 e.pc 0) [] [] s t)) ∧
    (ReadySys n [rd, rs] s → (s.g n rs).toNat % 2 ^ 16 = ticket →
      (outstanding → ∃ t, exec (.dmawait n rd rs) s = .next t ∧
        EngAfter n { e with st := .wait, wait := .ticket rd ticket, waitAt := s.clock.tick / 2 } [] [] s t) ∧
      (¬ outstanding → writesG (.dmawait n rd rs) n rd status s)) ∧
    (e.st = .wait → e.wait = .ticket rd ticket →
      (outstanding → exec (.dmawaitReturn n) s = .next s) ∧
      (¬ outstanding → e.step = 0 → ∃ t, exec (.dmawaitReturn n) s = .next t ∧ (t.eng n).st = .run ∧
        (t.eng n).pc = e.pc + 4 ∧ onlyG n rd status s t ∧ regsBut [Reg.ME_PERF_ISSUE n] s t ∧ sameBut [.regs, .engs] s t))

/-- The oldest descriptor of an engine, issued at SUPER, of one row: a fill within an awake Pocket repeats word 0
over the row; a copy from one part of an awake Pocket to a disjoint one copies each byte; no other byte changes,
the descriptor leaves the queue with a good status, and EventOnDone sets EVPEND bit 14. A row whose target lies
in no memory moves nothing: the descriptor and the later ones leave the queue, with a bad status, DMAERR is
pending with the cookie, and DmaError and ErrCookie are set. With no descriptor nothing changes.
(09_mark_engines.md: DMA) -/
--% def gen (i : Nat) :=
--%   let s := rdy i
--%   let m := 0
--%   let sz := 1 + nat i 1 200
--%   let src := 0x200000000 + nat i 2 0x1000
--%   let dst := (if i % 4 = 0 then 0x200C00000 else 0x200002000) + nat i 3 0x1000
--%   let s := s.store src ((List.range sz).map fun k => BitVec.ofNat 8 (mix (i*200+k)))
--%   let ws : List Word := [if bool i 5 then word i 6 else BitVec.ofNat 32 src, BitVec.ofNat 32 (src / 2^32), BitVec.ofNat 32 dst, BitVec.ofNat 32 (dst / 2^32 + (if bool i 5 then 65536 else 0) + (if bool i 7 then 131072 else 0)), BitVec.ofNat 32 sz, word i 8, word i 9, (word i 10) &&& 0xffff0000]
--%   let d : EngDma := ⟨nat i 30 65536, ws, false, 0, none⟩
--%   let s := s.setEng 0 { s.eng 0 with dmas := if i % 9 = 0 then [] else if bool i 12 then [d] else [d, d], nextTicket := nat i 13 65536 }
--%   K s 0 m d (if bool i 50 then [src + nat i 51 300] else [])
def Obligations.DmaMovesRowsOrFails : Prop :=
  ∀ (s : State) (n m : Nat) (d : EngDma) (fresh : List Nat), n < 192 → m < 192 →
    let e := s.eng n
    let w := fun k => (d.words[k]?.getD 0).toNat
    let src := w 0 + 2 ^ 32 * (w 1 % 2 ^ 16)
    let dst := w 2 + 2 ^ 32 * (w 3 % 2 ^ 16)
    let size := w 4 % 2 ^ 24
    let fill := w 3 / 2 ^ 16 % 2 = 1
    let awake := s.bit (Reg.TST_RETCTL (m / 16)) F.TST_RETCTL_Retained = false
    let inPocket := fun a => 0x200000000 + 0x10000 * m ≤ a ∧ a + size ≤ 0x200000000 + 0x10000 * (m + 1)
    let moved := fun (f : Nat → Byte) => ∃ t, exec (.dmaComplete ⟨n, fresh⟩) s = .next t ∧
      (∀ i, t.byte i = if dst ≤ i ∧ i < dst + size then f (i - dst) else s.byte i) ∧
      (t.eng n).dmas = e.dmas.drop 1 ∧ (d.ticket, false) ∈ (t.eng n).tickets ∧
      (w 3 / 2 ^ 17 % 2 = 0 → (t.eng n).evpend = e.evpend) ∧ (w 3 / 2 ^ 17 % 2 = 1 → (t.eng n).evpend.getLsbD 14 = true) ∧
      noReg n s t ∧ (t.eng n).pc = e.pc
    (e.dmas = [] → exec (.dmaComplete ⟨n, fresh⟩) s = .next s) ∧
    (e.dmas[0]? = some d → d.user = false → d.ticket < 2 ^ 16 → w 7 % 2 ^ 16 = 0 → size ≠ 0 →
      (fill → awake → inPocket dst → moved (fun i => BitVec.ofNat 8 (w 0 / 256 ^ (i % 4)))) ∧
      (¬ fill → awake → inPocket src → inPocket dst → src + size ≤ dst ∨ dst + size ≤ src →
        (List.range size).all (fun i => !s.poisoned (src + i)) = true →
        fresh.all (fun a => decide (a < src ∨ src + size ≤ a)) = true → moved (fun i => s.byte (src + i))) ∧
      (fill → 0x200C00000 ≤ dst → dst + size ≤ 0x1000000000 → ∃ t, exec (.dmaComplete ⟨n, fresh⟩) s = .next t ∧ t.mem = s.mem ∧
        (t.eng n).dmas = [] ∧ (e.dmas = [d] → (d.ticket, true) ∈ (t.eng n).tickets) ∧ (t.eng n).dmaPend = some (w 7 / 2 ^ 16 % 256) ∧
        t.bit (Reg.ME_STAT n) F.ME_STAT_DmaError = true ∧ t.fld (Reg.ME_DMASTAT n) F.ME_DMASTAT_ErrCookie = w 7 / 2 ^ 16))

/-- For a descriptor of 16 words and a queue q: it is refused if Enable is 0, its MissAction is above 4, a reserved
bit is not 0, the effective action is REJECT with NoTag or FALLBACK to a queue whose Enable is 0; else FULL if
the ring holds 2^SizeLog2 entries; else it is appended with word 7 at 0 and words 14 and 15 LINETIME, and Tail
rises by one; it is missed at once where its deadline has passed (R258). QPUT from the own awake Pocket retires
and leaves this post for the end of its ENG cycle with an open answer for g[rd], which then takes 2, 1 or 0 so;
g[rd] above 4095 gives 2 at once. The end of an ENG cycle applies its posts, two of them in rank order (R256).
(10_hennath_instruction_reference.md: Queue; 11_job_queues_deadlines_and_stealing.md: Posting) -/
--% def gen (i : Nat) :=
--%   let s := rdy i
--%   let q := nat i 1 2
--%   let a : Nat := 0x200000000 + (if i % 7 = 0 then nat i 3 0x10000 else 64 * nat i 3 0x400)
--%   let ws := (List.range 16).map fun k => if k = 0 then (word i 20 &&& (if bool i 40 then 0xff3fffff else 0xff38ffff)) else if k = 5 then word i 25 &&& (if i % 5 = 0 then 0xffffffff else 0x10010001) else word i (20+k)
--%   let s := s.store a (ws.flatMap fun w => leBytes 4 w.toNat)
--%   let s := s.setReg (Reg.JQ_CTL q) (word i 50 ||| (if i % 6 = 0 then 0 else F.JQ_CTL_Enable.put 0 1))
--%   let s := s.setReg (Reg.JQ_CTL 1) (word i 51)
--%   let s := s.setReg (Reg.JQ_TAIL q) (if bool i 52 then 16 else BitVec.ofNat 32 (nat i 53 16))
--%   let s := s.setReg (Reg.JQ_RINGBASE_LO q) 0x10000
--%   let s := s.setReg (Reg.JQ_RINGBASE_LO q + 4) 1
--%   let s := s.setReg (Reg.JQ_RINGCFG q) (F.JQ_RINGCFG_SizeLog2.put (word i 54) 4)
--%   let s := s.setEng 0 { s.eng 0 with priv := true, g := (s.eng 0).g.set 0 7 (BitVec.ofNat 32 (if i % 8 = 0 then 0x10000 + q else q)), a := (s.eng 0).a.set 0 2 (BitVec.ofNat 48 a), answers := if i % 9 = 0 then [⟨3, some 4⟩, ⟨11, none⟩] else [] }
--%   let s := s.setPreg .host (Reg.JQ_HPOST_LO q) (BitVec.ofNat 32 a)
--%   let s := s.setAsks { s.asks with posts := (List.range (nat i 90 3)).map fun k => ⟨if bool i (91+k) then .staged .host else .instr (nat i (93+k) 3) 5, q, ws⟩ }
--%   K { s with clock := { s.clock with tick := nat i 95 2, ltEnd := if bool i 71 then 0 else 2^63 } } 0 7 2 q ws (s.asks.posts.headD ⟨.staged .host, q, ws⟩) (s.asks.posts.getLastD ⟨.staged .host, q, ws⟩)
def Obligations.QueueInstructionsPost : Prop :=
  ∀ (s : State) (n rd ra q : Nat) (ws : List Word) (x y : PostAsk), n < 192 → q < 4096 → rd < 64 → ra < 16 →
    let e := s.eng n
    let a := (s.a n ra).toNat
    let w := fun k => (ws[k]?.getD 0).toNat
    let own := w 0 / 2 ^ 16 % 8
    let act := if own = 0 then s.fld (Reg.JQ_CTL q) F.JQ_CTL_MissAction else own
    let refused := s.bit (Reg.JQ_CTL q) F.JQ_CTL_Enable = false ∨ 4 < own ∨ w 0 / 2 ^ 22 % 4 ≠ 0 ∨ w 5 / 2 ^ 29 ≠ 0 ∨
      act = 4 ∧ w 5 / 2 ^ 28 % 2 = 1 ∨
      act = 3 ∧ s.bit (Reg.JQ_CTL (w 5 / 2 ^ 16 % 2 ^ 12)) F.JQ_CTL_Enable = false
    let full := ((s.reg (Reg.JQ_TAIL q)) - s.reg (Reg.JQ_HEAD q)).toNat = 2 ^ s.fld (Reg.JQ_RINGCFG q) F.JQ_RINGCFG_SizeLog2
    let kept := fun (t : State) => (t.jq q).ents = (s.jq q).ents ∧ t.reg (Reg.JQ_TAIL q) = s.reg (Reg.JQ_TAIL q) ∧ t.mem = s.mem
    let deadline := w 2 + 2 ^ 32 * w 3
    let late := deadline ≠ 2 ^ 64 - 1 ∧ deadline ≤ s.clock.ltEnd
    let added := fun (t : State) => t.reg (Reg.JQ_TAIL q) = s.reg (Reg.JQ_TAIL q) + 1 ∧ ∃ x, (t.jq q).ents = (s.jq q).ents ++ [x] ∧
      x.st = (if late ∧ act ≠ 2 then .retired else .posted) ∧ x.missed = decide late ∧ x.action = act ∧ x.words.length = 16 ∧
      (List.range 14).all (fun k => decide late && k == 7 || x.words[k]?.getD 0 == if k = 7 then 0 else ws[k]?.getD 0) = true ∧
      x.words[14]?.getD 0 = BitVec.ofNat 32 s.clock.lt ∧ x.words[15]?.getD 0 = BitVec.ofNat 32 (s.clock.lt / 2 ^ 32)
    let answers := fun (r : Option Word) (u : State) => (u.eng n).answers = e.answers ++ [EngAnswer.mk rd r] ∧
      (u.eng n).pc = e.pc + 4 ∧ noReg n s u ∧ kept u
    let t := applyPost (PostAsk.mk (.instr n rd) q ws) s
    let told := fun (r : Word) => (t.eng n).answers = fillFirst rd r e.answers
    let none' := s.setAsks { s.asks with posts := [] }
    ws = s.words a 16 → a % 64 = 0 → (List.range 64).all (fun i => !s.poisoned (a + i)) = true →
    s.bit (Reg.TST_RETCTL (n / 16)) F.TST_RETCTL_Retained = false →
    0x200000000 + 0x10000 * n ≤ a → a + 64 ≤ 0x200000000 + 0x10000 * (n + 1) →
    (ReadySys n [rd, 64 + ra] s → e.priv = true → e.stores = [] → e.answers.length < 4 →
      (4096 ≤ (s.g n rd).toNat → ∃ u, exec (.qput n rd ra) s = .next u ∧ answers (some 2) u ∧ u.asks = s.asks) ∧
      ((s.g n rd).toNat = q → ∃ u, exec (.qput n rd ra) s = .next u ∧ answers none u ∧
        u.asks = { s.asks with posts := s.asks.posts ++ [PostAsk.mk (.instr n rd) q ws] })) ∧
    (refused → told 2 ∧ kept t ∧ t.bit (Reg.JQ_FLAGS q) F.JQ_FLAGS_Refused = true) ∧
    (¬ refused → full → told 1 ∧ kept t ∧ t.bit (Reg.JQ_FLAGS q) F.JQ_FLAGS_Full = true) ∧
    (¬ refused → ¬ full → told 0 ∧ added t) ∧
    (s.asks.posts = [x, y] → s.clock.tick % 2 = 1 → duePosts s = if y.who.rank < x.who.rank then applyPost x (applyPost y none')
      else applyPost y (applyPost x none'))

/-- For a ready engine: with a current job QGET raises ILLEGAL; with Drain 1 it writes 2 at once; else without
NOWAIT it waits with its timeout pair (0 for field 0); with NOWAIT while no queue offers an entry to any engine
it writes 3. QSTEAL leaves only the hint g[rs][11:0]. QGET_TIMEOUT ends the wait with 1 once the ENG cycle of a
timeout that is not 0 has passed, and changes nothing before. (10_hennath_instruction_reference.md: Queue) -/
--% def gen (i : Nat) :=
--%   let s := rdy i
--%   let rs := if bool i 1 then 0 else 2 * nat i 2 32
--%   let s := s.setReg (Reg.ME_CTL 0) (word i 3)
--%   let t := if bool i 4 then 0 else nat i 5 50
--%   let s := s.setEng 0 { s.eng 0 with jobValid := i % 3 = 0, st := if i % 2 = 0 then .run else .wait, wait := if i % 2 = 0 then .none else .job (nat i 7 64) t, step := 0 }
--%   K (if bool i 9 then s else { s with clock := { s.clock with ltEnd := nat i 6 60 } }) 0 (nat i 7 64) rs t (bool i 8)
def Obligations.QgetOutcomes : Prop :=
  ∀ (s : State) (n rd rs t0 : Nat) (nowait : Bool), rd < 64 → rs < 64 → rs % 2 = 0 →
    let e := s.eng n
    let drain := s.bit (Reg.ME_CTL n) F.ME_CTL_Drain
    let timeout := if rs = 0 then 0 else (s.g n rs).toNat + 2 ^ 32 * (s.g n (rs + 1)).toNat
    let ends := fun (i : Instr) (r : Word) => ∃ t, exec i s = .next t ∧ onlyG n rd r s t ∧ (t.eng n).st = .run ∧
      (t.eng n).pc = e.pc + 4 ∧ (t.eng n).hint = none ∧ (t.eng n).jobValid = e.jobValid ∧
      regsBut [Reg.ME_PERF_ISSUE n] s t ∧ sameBut [.regs, .engs] s t
    (ReadySys n [rd, rs, rs + 1] s →
      (e.jobValid = true → e.exl = false → ∃ t, exec (.qget n rd rs nowait) s = .next t ∧
        EngAfter n (e.interrupted 1 0 e.pc 0) [] [] s t) ∧
      (e.jobValid = false → drain = true → ends (.qget n rd rs nowait) 2) ∧
      (e.jobValid = false → drain = false → ∃ t, exec (.qget n rd rs false) s = .next t ∧
        EngAfter n { e with st := .wait, wait := .job rd timeout, waitAt := s.clock.tick / 2 } [] [] s t) ∧
      (e.jobValid = false → drain = false → s.jobs.qs.cells = [] → ends (.qget n rd rs true) 3) ∧
      retiresWith (.qsteal n rs) n { e with hint := some ((s.g n rs).toNat % 4096) } s) ∧
    (e.st = .wait → e.wait = .job rd t0 → e.step = 0 →
      (t0 ≠ 0 → t0 ≤ s.clock.ltEnd → ends (.qgetTimeout n) 1) ∧
      (t0 = 0 ∨ s.clock.ltEnd < t0 → exec (.qgetTimeout n) s = .next s))

/-- For a ready engine, with T the pair value (0 for field 0): TWAIT retires when LINETIME ≥ T, with the next issue
in the second ENG cycle after, and else waits; EWAIT with a pending channel of its mask, or a timeout passed at
the end of an ENG cycle, writes EVPEND and mask and retires, and else waits with the mask it read; DLSET arms
the watch with DL, 0 disarming it; RAISE of the engine's own number or of a doorbell raises that event, and of
another number raises ILLEGAL. TWAIT_SATISFIED and EWAIT_SATISFIED end the wait on the same conditions and
change nothing before. (09_mark_engines.md: Events, Deadline watch; 10_hennath_instruction_reference.md: Time
and event) -/
--% def gen (i : Nat) :=
--%   let s := rdy i
--%   let rs := if i % 4 = 0 then 0 else 2 * (1 + nat i 2 31)
--%   let e := s.eng 0
--%   let e := { e with g := (e.g.set 0 rs (BitVec.ofNat 32 (nat i 3 60))).set 0 (rs+1) 0, evpend := if bool i 20 then 0 else e.evpend, stores := [], st := if i % 3 = 0 then .wait else .run, wait := if i % 3 = 0 then (if bool i 21 then .time (nat i 22 60) else .event (nat i 7 64) (e.evmask) (nat i 22 60)) else .none }
--%   let e := if bool i 30 then { e with g := e.g.set 0 9 (BitVec.ofNat 32 (if bool i 31 then 0 else 940 + nat i 32 84)) } else e
--%   let s := s.setEng 0 e
--%   K ({ s with clock := { s.clock with lt := nat i 6 60, tick := 20 + nat i 40 2 } }) 0 (nat i 7 64) rs 9 (nat i 22 60) e.evmask
def Obligations.WaitsAndDeadlines : Prop :=
  ∀ (s : State) (n rd rs rt t0 : Nat) (mask : BitVec 16), n < 192 → rd < 64 → rs < 64 → rt < 64 → rs % 2 = 0 →
    let e := s.eng n
    let lt := s.clock.lt
    let T := if rs = 0 then 0 else (s.g n rs).toNat + 2 ^ 32 * (s.g n (rs + 1)).toNat
    let m := (s.g n rd).extractLsb' 0 16
    let next := 2 * (s.clock.tick / 2 + 2)
    let isOver := fun (x : Nat) => x ≠ 0 ∧ x ≤ lt ∧ s.clock.tick % 2 = 1
    let event := (s.g n rt).toNat % 1024
    let ends := fun (i : Instr) (r : Word) => ∃ t, exec i s = .next t ∧ onlyG n rd r s t ∧ (t.eng n).st = .run ∧
      (t.eng n).pc = e.pc + 4 ∧ (t.eng n).issueAt = next ∧ (t.eng n).evpend = e.evpend ∧
      regsBut [Reg.ME_PERF_ISSUE n] s t ∧ sameBut [.regs, .engs] s t
    (ReadySys n [rd, rs, rs + 1] s →
      (T ≤ lt → retiresWith (.twait n rs) n { e with issueAt := next } s) ∧
      (lt < T → ∃ t, exec (.twait n rs) s = .next t ∧
        EngAfter n { e with st := .wait, wait := .time T, waitAt := s.clock.tick / 2 } [] [] s t) ∧
      (e.evpend &&& m ≠ 0 ∨ isOver T → ends (.ewait n rd rs) ((e.evpend &&& m).zeroExtend 32)) ∧
      (e.evpend &&& m = 0 → ¬ isOver T → ∃ t, exec (.ewait n rd rs) s = .next t ∧
        EngAfter n { e with st := .wait, wait := .event rd m T, waitAt := s.clock.tick / 2 } [] [] s t) ∧
      (T ≠ 0 → retiresWith (.dlset n rs) n { e with dl := T, dlArmed := true } s) ∧
      (T = 0 → retiresWith (.dlset n rs) n { e with dlArmed := false } s)) ∧
    (ReadySys n [rt] s → e.stores = [] →
      (event = n ∨ 940 ≤ event → ∃ t, exec (.raise n rt) s = .next t ∧ t.pends event = true ∧ (t.eng n).pc = e.pc + 4 ∧
        noReg n s t ∧ sameBut eventParts s t) ∧
      (event ≠ n → event < 940 → e.exl = false → ∃ t, exec (.raise n rt) s = .next t ∧
        EngAfter n (e.interrupted 1 0 e.pc 0) [] [] s t)) ∧
    (e.st = .wait → e.step = 0 →
      (e.wait = .time t0 → t0 ≤ lt → ∃ t, exec (.twaitSatisfied n) s = .next t ∧ (t.eng n).st = .run ∧
        (t.eng n).pc = e.pc + 4 ∧ (t.eng n).issueAt = next ∧ noReg n s t ∧
        regsBut [Reg.ME_PERF_ISSUE n] s t ∧ sameBut [.regs, .engs] s t) ∧
      (e.wait = .time t0 → lt < t0 → exec (.twaitSatisfied n) s = .next s) ∧
      (e.wait = .event rd mask t0 → e.evpend &&& mask ≠ 0 ∨ isOver t0 →
        ends (.ewaitSatisfied n) ((e.evpend &&& mask).zeroExtend 32)) ∧
      (e.wait = .event rd mask t0 → e.evpend &&& mask = 0 → ¬ isOver t0 → exec (.ewaitSatisfied n) s = .next s))

/-- Entry x of queue q is claimed, listed once and not late. If it is the current job of a ready engine with no
buffered store: QDONE retires it, counts it (a job already missed with ABANDON or REJECT not), and answers 0, or
1 if its miss is recorded; QFAIL of a job not missed reposts it with one retry less and counts a retry, or with
no retries left retires it, sets Miss and RetryOut and counts a miss, in both cases with LASTFAIL the reason and
the engine; either ends the current job and disarms the watch. Without a current job both raise ILLEGAL.
JOB_RETURN reposts a parked job as it was, and a faulted one as a failure with reason 0xFF. Every other entry
stays, and JOB_RETURN without a waiting job changes nothing. (10_hennath_instruction_reference.md: Queue;
11_job_queues_deadlines_and_stealing.md: Retirement, Returned jobs) -/
--% def gen (i : Nat) :=
--%   let s := rdy i
--%   let q := 3
--%   let idx := nat i 1 4
--%   let ws : List Word := (List.range 16).map fun k => if k = 0 then (if bool i 70 then word i 20 else word i 20 &&& 0xffc7ffff) else if k = 2 then 100 else if k = 3 then (if bool i 2 then 1 else 0) else word i (20+k)
--%   let x : JqEnt := ⟨idx, .claimed, 0, 1 + nat i 3 4, bool i 4, 0, ws⟩
--%   let o : JqEnt := ⟨idx + 1, .posted, 0, 1, false, 0, ws⟩
--%   let s := s.setJq q { ents := if i % 2 = 0 then [o, x] else [x, {o with idx := idx + 2, st := .claimed}], cls := 3, since := 5, live := bool i 5, urgent := false, claimAt := 0 }
--%   let s := s.setReg (Reg.JQ_CNT_DONE q) (word i 6)
--%   let s := s.setReg (Reg.JQ_CNT_MISS q) (word i 7)
--%   let s := s.setReg (Reg.JQ_CNT_RETRY q) (word i 8)
--%   let s := s.setReg (Reg.JQ_RINGBASE_LO q) 0x10000
--%   let s := s.setReg (Reg.JQ_RINGBASE_LO q + 4) 1
--%   let s := s.setEng 0 { s.eng 0 with jobValid := i % 5 != 0, jobQueue := q, jobIdx := idx, stores := [], answers := if bool i 9 then [] else [⟨3, some 4⟩], returns := if bool i 10 then [] else [⟨bool i 11, q, idx, 0, bool i 12⟩] }
--%   K ({ s with clock := { s.clock with ltEnd := nat i 6 60, lt := 5 } }) 0 (nat i 7 64) (nat i 8 64) q x
def Obligations.JobsRetireOrReturn : Prop :=
  ∀ (s : State) (n rd rs q : Nat) (x : JqEnt), n < 192 → rd < 64 → rs < 64 → q < 4096 →
    let e := s.eng n
    let w0 := (x.words[0]?.getD 0).toNat
    let retries := w0 / 2 ^ 19 % 8
    let deadline := (x.words[2]?.getD 0).toNat + 2 ^ 32 * (x.words[3]?.getD 0).toNat
    let entry := fun (t : State) => (t.jq q).ents.find? (fun y => y.idx = x.idx)
    let others := fun (t : State) =>
      (t.jq q).ents.filter (fun y => y.idx ≠ x.idx) = (s.jq q).ents.filter (fun y => y.idx ≠ x.idx)
    let state := fun (t : State) => (entry t).map (fun y => y.st)
    let up := fun (a : Nat) (t : State) => (t.reg a).toNat = min (2 ^ 32 - 1) ((s.reg a).toNat + 1)
    let same := fun (a : Nat) (t : State) => t.reg a = s.reg a
    let answered := fun (r : Word) (t : State) => (t.eng n).answers = e.answers ++ [EngAnswer.mk rd (some r)] ∧ (t.eng n).pc = e.pc + 4 ∧
      (t.eng n).jobValid = false ∧ (t.eng n).dlArmed = false ∧ noReg n s t ∧ others t
    let reposted := fun (reason eng : Nat) (t : State) => state t = some .posted ∧
      (entry t).map (fun y => (y.words[0]?.getD 0).toNat) = some (w0 - 2 ^ 19) ∧
      t.reg (Reg.JQ_LASTFAIL q) = BitVec.ofNat 32 (reason + 256 * eng) ∧
      up (Reg.JQ_CNT_RETRY q) t ∧ t.bit (Reg.JQ_FLAGS q) F.JQ_FLAGS_RetryUsed = true
    let lost := fun (reason eng : Nat) (t : State) => state t = some .retired ∧
      t.reg (Reg.JQ_LASTFAIL q) = BitVec.ofNat 32 (reason + 256 * eng) ∧ up (Reg.JQ_CNT_MISS q) t ∧
      t.bit (Reg.JQ_FLAGS q) F.JQ_FLAGS_Miss = true ∧ t.bit (Reg.JQ_FLAGS q) F.JQ_FLAGS_RetryOut = true
    ((s.jq q).ents.find? (fun y => y.idx = x.idx) = some x → x.st = .claimed → x.words.length = 16 →
      s.clock.ltEnd < deadline →
      (ReadySys n [rd, rs] s → e.stores = [] → e.answers.length < 4 → e.jobValid = true → e.jobQueue = q → e.jobIdx = x.idx →
        (x.missed = false → ∃ t, exec (.qdone n rd) s = .next t ∧ answered 0 t ∧ state t = some .retired ∧
          up (Reg.JQ_CNT_DONE q) t) ∧
        (x.missed = true → x.action = 1 ∨ x.action = 4 → ∃ t, exec (.qdone n rd) s = .next t ∧ answered 1 t ∧
          state t = some .retired ∧ same (Reg.JQ_CNT_DONE q) t) ∧
        (x.missed = true → x.action = 2 ∨ x.action = 3 → ∃ t, exec (.qdone n rd) s = .next t ∧ answered 1 t ∧
          state t = some .retired ∧ up (Reg.JQ_CNT_DONE q) t) ∧
        (x.missed = false → retries ≠ 0 → ∃ t, exec (.qfail n rd rs) s = .next t ∧ answered 0 t ∧
          reposted ((s.g n rs).toNat % 256) n t) ∧
        (x.missed = false → retries = 0 → ∃ t, exec (.qfail n rd rs) s = .next t ∧ answered 0 t ∧
          lost ((s.g n rs).toNat % 256) n t)) ∧
      ((e.returns[0]?).map (fun r => (r.parked, r.queue, r.idx)) = some (true, q, x.idx) → ∃ t, exec (.jobReturn n) s = .next t ∧
        (t.eng n).returns = e.returns.drop 1 ∧ state t = some .posted ∧ others t ∧
        (entry t).map (fun y => y.words[0]?.getD 0) = some (x.words[0]?.getD 0) ∧ same (Reg.JQ_CNT_RETRY q) t) ∧
      ((e.returns[0]?).map (fun r => (r.parked, r.queue, r.idx)) = some (false, q, x.idx) → x.missed = false → ∃ t, exec (.jobReturn n) s = .next t ∧
        (t.eng n).returns = e.returns.drop 1 ∧ others t ∧ (retries ≠ 0 → reposted 0xFF n t) ∧ (retries = 0 → lost 0xFF n t))) ∧
    (ReadySys n [rd, rs] s → e.stores = [] → e.answers.length < 4 → e.jobValid = false → e.exl = false →
      (∃ t, exec (.qdone n rd) s = .next t ∧ EngAfter n (e.interrupted 1 0 e.pc 0) [] [] s t) ∧
      ∃ t, exec (.qfail n rd rs) s = .next t ∧ EngAfter n (e.interrupted 1 0 e.pc 0) [] [] s t) ∧
    (e.returns = [] → exec (.jobReturn n) s = .next s)

/-- Where the broker of cluster c selects queue q for engine n, which waits in QGET for g[rd], the queue was not
claimed in this ENG cycle and no other broker outranks it, and the ring slot is readable: the oldest deliverable
entry becomes claimed by n, the engine runs on behind its QGET with g[rd] = 0, the job current, JOBD the entry's
words, DL its deadline and the watch armed, and the queue's Class is BaseClass again. With no engine of the
cluster in QGET nothing changes. A broker whose claim of the queue is lost selects nothing more in this ENG
cycle, and no queue changes (R262). (11_job_queues_deadlines_and_stealing.md: Steal Brokers, Delivery;
09_mark_engines.md: Registers) -/
--% def gen (i : Nat) :=
--%   let s := rdy i
--%   let q := 3
--%   let idx := nat i 1 4
--%   let ws : List Word := (List.range 16).map fun k => if k = 2 then 100 else word i (20+k)
--%   let x : JqEnt := ⟨idx, .posted, 0, 1 + nat i 3 4, false, 0, ws⟩
--%   let s := s.setJq q { ents := if i % 2 = 0 then [x] else [{x with idx := idx + 2, st := .claimed}, x], cls := 3, since := 5, live := bool i 5, urgent := false, claimAt := nat i 92 2 }
--%   let s := s.setReg (Reg.JQ_CTL q) (F.JQ_CTL_Home.put (F.JQ_CTL_Enable.put (F.JQ_CTL_Bound.put (word i 50) 0) 1) 0)
--%   let s := s.setReg (Reg.JQ_RINGBASE_LO q) 0x10000
--%   let s := s.setReg (Reg.JQ_RINGBASE_LO q + 4) 1
--%   let s := s.setEng 0 { s.eng 0 with st := if bool i 33 then .wait else .run, wait := .job 7 0, jobValid := false }
--%   K s 0 0 7 0 q x (bool i 91)
def Obligations.JobDelivery : Prop :=
  ∀ (s : State) (c n rd t0 q : Nat) (x : JqEnt) (ue : Bool), n < 192 → q < 4096 → c = n / 16 →
    let e := s.eng n
    let deadline := (x.words[2]?.getD 0).toNat + 2 ^ 32 * (x.words[3]?.getD 0).toNat
    ((selection c s).map (fun p => (p.1, p.2.queue)) = some (n, q) → (s.jq q).claimAt ≠ s.clock.tick / 2 + 1 →
      outranked c q s = false → oldestDeliverable q s = some x → x.words.length = 16 →
      anyPoison (entSlot q x.idx s) 64 s = false → e.wait = .job rd t0 → e.step = 0 → x.idx ∉ (((s.jq q).ents.filter (· ≠ x)).map (·.idx)) →
      ∃ t, exec (.jobDelivery ⟨c, false⟩) s = .next t ∧ onlyG n rd 0 s t ∧ (t.eng n).st = .run ∧ (t.eng n).pc = e.pc + 4 ∧
        (t.eng n).jobValid = true ∧ (t.eng n).jobQueue = q ∧ (t.eng n).jobIdx = x.idx ∧
        (List.range 16).all (fun k => (t.eng n).jobd[k]?.getD 0 =
          if k = 7 then x.words[7]?.getD 0 &&& 0xFF0000 ||| BitVec.ofNat 32 (1 + 256 * n) else x.words[k]?.getD 0) = true ∧
        (t.eng n).dl = deadline ∧ (t.eng n).dlArmed = true ∧
        ((t.jq q).ents.find? (fun y => y.idx = x.idx)).map (fun y => (y.st, y.claim)) = some (.claimed, n) ∧
        (t.jq q).cls = s.fld (Reg.JQ_CTL q) F.JQ_CTL_BaseClass) ∧
    ((List.range 16).all (fun k => decide ((s.eng (16 * c + k)).st ≠ .wait)) = true → exec (.jobDelivery ⟨c, ue⟩) s = .next s) ∧
    ((selection c s).map (fun p => (p.1, p.2.queue)) = some (n, q) →
      (s.jq q).claimAt = s.clock.tick / 2 + 1 ∨ outranked c q s = true →
      ∃ t, exec (.jobDelivery ⟨c, ue⟩) s = .next t ∧ selection c t = none ∧ t.jobs.qs = s.jobs.qs ∧ quiet [] [.jobs] s t)

/-- For every state and engine n: the selected queue is listed and eligible for n; if any listed eligible queue has
Class 0, the selected one has Class 0; else no listed eligible queue stands at a nearer level, nor at the same
level with a lower class; and where a listed queue is eligible, with classes from 0 to 7, a queue is selected.
(11_job_queues_deadlines_and_stealing.md: Steal Brokers) -/
--% def gen (i : Nat) :=
--%   let s := rdy i
--%   let s := (List.range 6).foldl (fun s q =>
--%     let ws : List Word := (List.range 16).map fun k => if k = 2 then 100 else word (i+q) (20+k)
--%     let s := s.setJq q { ents := if nat (i+q) 4 4 = 0 then [] else [⟨nat i 1 4, .posted, 0, 1 + nat i 3 4, false, 0, ws⟩], cls := 1 + nat (i * 7 + q) 4 7, since := 5, live := true, urgent := false, claimAt := 0 }
--%     let s := s.setReg (Reg.JQ_AGE q) (if bool (i+q) 60 then 0 else word (i+q) 51)
--%     let s := s.setReg (Reg.JQ_AFFIN q) (word (i+q) 52)
--%     s.setReg (Reg.JQ_CTL q) (F.JQ_CTL_Home.put (F.JQ_CTL_Enable.put (F.JQ_CTL_Bound.put (word (i*6+q) 50) (if q = 3 then 1 else 0)) 1) (nat (i*6+q) 55 12))) s
--%   let s := s.setEng 0 { s.eng 0 with hint := if bool i 80 then some (nat i 81 6) else none }
--%   K s (16 * nat i 90 12) (nat i 91 6) (nat i 92 6)
def Obligations.BrokerPrefersUrgentThenNear : Prop :=
  ∀ (s : State) (n q r : Nat), n < 192 →
    let offered := fun (x : Nat) => x ∈ s.jobs.qs.cells.map (·.1) ∧ eligible x n s = true
    ((selectFor n s).map (·.queue) = some q →
      offered q ∧
      (offered r → jqClass r s = 0 → jqClass q s = 0) ∧
      (offered r → jqClass q s ≠ 0 → levelOf q n s ≤ levelOf r n s) ∧
      (offered r → jqClass q s ≠ 0 → levelOf r n s = levelOf q n s → jqClass q s ≤ jqClass r s)) ∧
    (offered q → jqClass q s ≤ 7 → (selectFor n s).isSome = true)

/-- MISS_DETECTION of the oldest posted entry or of a claimed one, once its deadline's ENG cycle has passed, sets
Miss, counts it and retires a posted entry unless its action is FINISH; before that cycle it changes nothing.
HEAD_ADVANCE drops the entries retired in earlier ENG cycles from the front and moves Head by their number.
CLASS_AGING lowers Class by one, not below 1, after an age step. QUEUE_COUNT_READ returns a count and clears it,
HEADDL_READ returns the low word of the head deadline and keeps the high word for the requester, and
URGENCY_ONSET changes no register and no entry. FALLBACK_POST leaves the post of the queue's oldest waiting
fallback job for the end of the ENG cycle; applied, it adds an entry to the target's ring with room, or is
refused and sets FallbackLost. (11_job_queues_deadlines_and_stealing.md) -/
--% def gen (i : Nat) :=
--%   let s := rdy i
--%   let q := 3
--%   let idx := nat i 1 4
--%   let ws : List Word := (List.range 16).map fun k => if k = 2 then BitVec.ofNat 32 (nat i 60 60) else if k = 3 then 0 else if k = 0 then word i 20 &&& 0xff38ffff else if k = 5 then 0 else word i (20+k)
--%   let x : JqEnt := ⟨idx, if bool i 2 then .posted else .claimed, 0, 1 + nat i 3 4, bool i 4, 0, ws⟩
--%   let o : JqEnt := ⟨idx + 1, .retired, 0, 1, false, nat i 5 8, ws⟩
--%   let s := s.setJq q { ents := if i % 2 = 0 then [o, x] else [o, {o with done := nat i 61 8}, x], cls := nat i 62 8, since := nat i 63 5, live := bool i 5, urgent := false, claimAt := 0 }
--%   let s := s.setReg (Reg.JQ_CNT_MISS q) (word i 7)
--%   let s := s.setReg (Reg.JQ_AGE q) (F.JQ_AGE_AgeStep.put (word i 8) (nat i 64 2))
--%   let s := s.setReg (Reg.JQ_RINGBASE_LO q) 0x10000
--%   let s := s.setReg (Reg.JQ_RINGBASE_LO q + 4) 1
--%   let s := s.setReg (Reg.JQ_CTL q) (word i 65)
--%   let s := s.setReg (Reg.JQ_CTL 4) (word i 66)
--%   let s := s.setReg (Reg.JQ_HEAD q) (word i 67)
--%   let s := if bool i 68 then s.setJobs { s.jobs with falls := [⟨5, 6, ws⟩, ⟨q, 4, ws⟩] } else s
--%   K ({ s with clock := { s.clock with tick := 3 * nat i 69 8 + (if bool i 70 then 3200 else 0), ltEnd := nat i 6 60, lt := 5 } }) q 4 (nat i 7 4) (.engine 3) x ws
def Obligations.QueueHousekeeping : Prop :=
  ∀ (s : State) (q target i : Nat) (req : Req) (x : JqEnt) (ws : List Word), q < 4096 → target < 4096 →
    let deadline := (x.words[2]?.getD 0).toNat + 2 ^ 32 * (x.words[3]?.getD 0).toNat
    let passed := deadline ≠ 2 ^ 64 - 1 ∧ deadline ≤ s.clock.ltEnd
    let entry := fun (t : State) => ((t.jq q).ents.find? (fun y => y.idx = x.idx)).map (fun y => (y.st, y.missed))
    let done := ((s.jq q).ents.takeWhile (fun y => y.st = .retired && decide (y.done / 2 < s.clock.tick / 2))).length
    let live := (oldestDeliverable q s).isSome
    let posted := applyPost (PostAsk.mk (.fallback q) target ws) s
    ((s.jq q).ents.find? (fun y => y.idx = x.idx) = some x → x.missed = false →
      x.st = .claimed ∨ x.st = .posted ∧ oldestPosted q s = some x →
      (passed → ∃ t, exec (.missDetection q x.idx) s = .next t ∧
        entry t = some (if x.st = .posted ∧ x.action ≠ 2 then .retired else x.st, true) ∧
        t.bit (Reg.JQ_FLAGS q) F.JQ_FLAGS_Miss = true ∧
        (t.reg (Reg.JQ_CNT_MISS q)).toNat = min (2 ^ 32 - 1) ((s.reg (Reg.JQ_CNT_MISS q)).toNat + 1) ∧
        t.jobs.falls.length = s.jobs.falls.length + (if x.action = 3 then 1 else 0)) ∧
      (¬ passed → exec (.missDetection q x.idx) s = .next s)) ∧
    (∃ t, exec (.headAdvance q) s = .next t ∧ (t.jq q).ents = (s.jq q).ents.drop done ∧
      t.reg (Reg.JQ_HEAD q) = s.reg (Reg.JQ_HEAD q) + BitVec.ofNat 32 done ∧ regsBut [Reg.JQ_HEAD q] s t ∧
      sameBut [.regs, .jobs] s t) ∧
    (live = true → (s.jq q).live = true → (s.jq q).since + 1600 * s.fld (Reg.JQ_AGE q) F.JQ_AGE_AgeStep ≤ s.clock.tick →
      ∃ t, exec (.classAging q) s = .next t ∧ (t.jq q).cls = max 1 ((s.jq q).cls - 1) ∧ sameBut [.jobs] s t) ∧
    (∃ t, exec (.urgencyOnset q) s = .next t ∧ (t.jq q).ents = (s.jq q).ents ∧ (t.jq q).cls = (s.jq q).cls ∧
      (t.jq q).urgent = urgentNow q s ∧ sameBut [.jobs] s t) ∧
    (i < 4 → ∃ t, exec (.queueCountRead req q i) s = .next t ∧ t.rdata.get [] (reqKey req) = [s.reg (Reg.JQ_CNT_DONE q + 4 * i)] ∧
      t.reg (Reg.JQ_CNT_DONE q + 4 * i) = 0 ∧ regsBut [Reg.JQ_CNT_DONE q + 4 * i] s t ∧ sameBut [.regs, .rdata] s t) ∧
    (∃ t, exec (.headdlRead req q) s = .next t ∧ t.rdata.get [] (reqKey req) = [BitVec.ofNat 32 (headDl q s)] ∧
      t.preg req (Reg.JQ_HEADDL_HI q) = BitVec.ofNat 32 (headDl q s / 2 ^ 32) ∧ sameBut [.perReq, .rdata] s t) ∧
    ((s.jobs.falls.find? (fun f => f.origin = q)) = some ⟨q, target, ws⟩ →
      ∃ t, exec (.fallbackPost q) s = .next t ∧ t.jobs.falls = s.jobs.falls.erase ⟨q, target, ws⟩ ∧
        t.asks = { s.asks with posts := s.asks.posts ++ [PostAsk.mk (.fallback q) target ws] } ∧
        quiet [] [.jobs, .asks] s t) ∧
    (postRefused target ws s = false → ringHeld (jqTail target s) (jqHead target s) ≠ 2 ^ jqSize target s →
      (posted.jq target).ents.length = (s.jq target).ents.length + 1 ∧
      posted.reg (Reg.JQ_TAIL target) = s.reg (Reg.JQ_TAIL target) + 1) ∧
    (postRefused target ws s = true → (posted.jq target).ents = (s.jq target).ents ∧
      posted.bit (Reg.JQ_FLAGS q) F.JQ_FLAGS_FallbackLost = true) ∧
    ((s.jobs.falls.find? (fun f => f.origin = q)) = none → exec (.fallbackPost q) s = .next s)

/-- CARM.T and CARM.P retire and leave one arming request of their record and an open answer for g[rd]; the host's
Go leaves one from the staging registers. Two requests of one tick are applied in rank order, engines by index
before the host. A request at a target in ARMED mode with a free slot takes the lowest free slot: ARMED with the
request's condition if that is not yet met; if it is met (LINETIME ≥ T, or the tick's estimate at or beyond E in
direction UP or DOWN) LateArm is set, and the slot is IN_FLIGHT with its effect 64 + D ticks later under
FIRE_LATE, or free under DISCARD. In another mode, or with no slot free, ArmRefused is set and no slot changes.
The engine's open answer takes the status and the slot. Mode and policy are those that act in the tick (R49, log
entries 223, 224). (03_cue_fabric_and_encoders.md: Cue targets; 10_hennath_instruction_reference.md: Cue) -/
--% def gen (i : Nat) :=
--%   let s := rdy i
--%   let T := nat i 1 6 + (if bool i 2 then 0 else 900)
--%   let w3 := BitVec.ofNat 32 (T + 2^16 * nat i 3 32)
--%   let val := nat i 4 60
--%   let vv : Vec := w3 ++ (word i 6) ++ (word i 7 &&& (if bool i 8 then 0 else 0xFFFFFFFF)) ++ BitVec.ofNat 32 val
--%   let s := s.setEng 0 { s.eng 0 with v := (s.eng 0).v.set 0 3 vv, answers := if bool i 9 then [⟨5, none⟩] else [⟨3, some 5⟩, ⟨5, some 9⟩, ⟨5, none⟩] }
--%   let mk (k : Nat) : Slot := ⟨if nat i (20+k) 3 = 0 then .free else if nat i (20+k) 3 = 1 then .armed else .inFlight, bool i (30+k), 7, 0, 0, 5, 1, 0, if i % 7 = 0 then 200 else nat i (40+k) 200⟩
--%   let s := s.setTarget T { Target.init with slots := [mk 0, mk 1, mk 2, mk 3], old := if bool i 70 then some (99 + nat i 71 2, 3, F.CQ_TCTL_Mode.put (word i 72) 2) else none }
--%   let s := s.setReg (Reg.CQ_TCTL T) (F.CQ_TCTL_Mode.put (word i 50) (if bool i 51 then 2 else nat i 52 3))
--%   let s := s.setReg (Reg.CQ_ARM_VLO T) (BitVec.ofNat 32 val)
--%   let s := s.setReg (Reg.CQ_ARM_DLY T) (word i 53 &&& 0xffffff)
--%   let s := if bool i 54 then { s with encs := s.encs.set Enc.init (nat i 3 32) { Enc.init with est := BitVec.ofNat 40 (nat i 55 60) } } else s
--%   let r : Arm := ⟨bool i 5, val, nat i 3 32, nat i 80 3, nat i 81 100, nat i 82 4, 0⟩
--%   let s := s.setAsks { s.asks with arms := (List.range (nat i 83 3)).map fun k => ⟨if bool i (84+k) then .staged .host else .instr (nat i (86+k) 3) 5, T, r⟩ }
--%   K ({ s with clock := { s.clock with tick := 100, lt := nat i 6 60 } }) 0 T (5 + nat i 73 2) 3 (nat i 60 4) (word i 61) r (if bool i 62 then .instr 0 (5 + nat i 73 2) else .staged .host) (s.asks.arms.headD ⟨.staged .host, T, r⟩) (s.asks.arms.getLastD ⟨.staged .host, T, r⟩)
def Obligations.ArmingRequests : Prop :=
  ∀ (s : State) (n tg rd vs k : Nat) (v : Word) (r : Arm) (who : Asker) (x y : ArmAsk),
    n < 192 → tg < 1024 → rd < 64 → vs < 32 →
    let T := s.target tg
    let slot := T.slots.findIdx? (fun sl => slotFree s sl)
    let ctl := (actingCfg tg s).2
    let beyond := ((s.encNow r.enc).est - BitVec.ofNat 40 r.value).toInt
    let late := if r.position = true then r.dir = 0 ∧ 0 ≤ beyond ∨ r.dir = 1 ∧ beyond ≤ 0 else r.value ≤ s.clock.lt
    let takes := F.CQ_TCTL_Mode.get ctl = 2 ∧ (late ∨ s.fld (Reg.CQ_TCTL tg) F.CQ_TCTL_Mode = 2)
    let sl := Slot.mk .armed r.position r.value r.enc r.dir r.delay r.action r.armedBy s.clock.tick
    let t := applyArm (ArmAsk.mk who tg r) s
    let told := fun (code : Nat) => Touches [Reg.CQ_TSTAT tg] [.cue, .engs] s t ∧
      (who = .instr n rd → (t.eng n).answers = fillFirst rd (BitVec.ofNat 32 code) (s.eng n).answers)
    let asks := fun (i : Instr) (a : ArmAsk) (q : State → Prop) => ∃ u, exec i s = .next u ∧
      u.asks = { s.asks with arms := s.asks.arms ++ [a] } ∧ q u
    let waits := fun (u : State) => (u.eng n).answers = (s.eng n).answers ++ [EngAnswer.mk rd none] ∧
      (u.eng n).pc = (s.eng n).pc + 4 ∧ (u.eng n).st = .run ∧ noReg n s u ∧
      quiet [Reg.ME_PERF_ISSUE n] [.asks, .engs] s u
    let word := fun (j : Nat) => ((s.v n vs).extractLsb' (32 * j) 32).toNat
    let value := word 0 + 2 ^ 32 * word 1
    let dir := word 2 / 2 ^ 26 % 4
    let delay := word 2 % 2 ^ 24
    let action := word 2 / 2 ^ 24 % 4
    let staged := (s.reg (Reg.CQ_ARM_VLO tg)).toNat + 2 ^ 32 * (s.reg (Reg.CQ_ARM_VLO tg + 4)).toNat
    let pos := F.CQ_ARM_CTL_Cond.get v = 1
    let hostDir := F.CQ_ARM_CTL_Dir.get v
    let none' := { s.asks with arms := [] }
    (ReadySys n [regV vs, rd] s → (s.eng n).answers.length < 4 → word 3 % 1024 = tg →
      asks (.carmT n rd vs) (ArmAsk.mk (.instr n rd) tg (Arm.mk false value 0 0 delay action 0)) waits ∧
      asks (.carmP n rd vs) (ArmAsk.mk (.instr n rd) tg
        (Arm.mk true (value % 2 ^ 40) (word 3 / 2 ^ 16 % 32) (if dir = 3 then 0 else dir) delay action 0)) waits) ∧
    asks (.hostArmGo tg v) (ArmAsk.mk (.staged .host) tg (Arm.mk (decide pos)
      (if pos then staged % 2 ^ 40 else staged) (F.CQ_ARM_CTL_Encoder.get v) (if hostDir = 3 then 0 else hostDir)
      (s.fld (Reg.CQ_ARM_DLY tg) F.CQ_ARM_DLY_Delay) (F.CQ_ARM_CTL_Action.get v) 1))
      (quiet [Reg.CQ_ARM_CTL tg] [.asks] s) ∧
    (s.asks.arms = [x, y] → dueArms s = if y.who.rank < x.who.rank then applyArm x (applyArm y (s.setAsks none'))
      else applyArm y (applyArm x (s.setAsks none'))) ∧
    (who = .instr n rd ∨ who = .staged .host →
      (takes → slot = some k → ¬ late → (t.target tg).slots = T.slots.set k sl ∧ (t.target tg).flights = T.flights ∧
        told (16 * k)) ∧
      (takes → slot = some k → late → F.CQ_TCTL_LatePolicy.get ctl = 0 →
        (t.target tg).slots = T.slots.set k { sl with st := .inFlight, due := s.clock.tick + 64 + r.delay } ∧
        (t.target tg).flights.map (fun f => (f.slot, f.due, f.action)) =
          T.flights.map (fun f => (f.slot, f.due, f.action)) ++ [(some k, s.clock.tick + 64 + r.delay, r.action)] ∧
        t.bit (Reg.CQ_TSTAT tg) F.CQ_TSTAT_LateArm = true ∧ told (2 + 16 * k)) ∧
      (takes → slot = some k → late → F.CQ_TCTL_LatePolicy.get ctl = 1 →
        (t.target tg).slots = T.slots.set k Slot.init ∧ (t.target tg).flights = T.flights ∧
        t.bit (Reg.CQ_TSTAT tg) F.CQ_TSTAT_LateArm = true ∧ told (3 + 16 * k)) ∧
      (¬ takes ∨ slot = none → t.target tg = T ∧ t.bit (Reg.CQ_TSTAT tg) F.CQ_TSTAT_ArmRefused = true ∧ told 1))

/-- SLOT_SATISFIED of a slot armed in an earlier tick: where LINETIME ≥ T, or the estimate crosses E in its
direction, the slot is IN_FLIGHT with its effect 64 + D ticks later; otherwise nothing changes. DISARM and
CDISARM free exactly the masked slots that are ARMED and not satisfied in this tick; masked slots that are
satisfied or in flight set DisarmLate; CDISARM queues both masks as its answer. ANSWER_RETURN writes the oldest
answer to its register once it has been given. CUE_EFFECT: the effects due now leave the path, all but one count
in MergeCount, and a capture unit outside the product detection records the first in its FIFO, or sets Overflow
where it holds four. A write to CQ_TSEL or CQ_TCTL leaves the flights; Mode OFF or SOURCE frees the armed slots.
CAPTURE_POP drops the oldest record. FABRIC_TAP_EFFECT gives the tap a level of 4 ticks with its phase.
(03_cue_fabric_and_encoders.md: Cue targets, Capture units, Fabric taps; 10_hennath_instruction_reference.md:
Cue) -/
--% def gen (i : Nat) :=
--%   let s := rdy i
--%   let T := if bool i 2 then nat i 1 6 else 896 + nat i 1 3
--%   let mk (k : Nat) : Slot := ⟨if nat i (20+k) 3 = 0 then .free else if nat i (20+k) 3 = 1 then .armed else .inFlight, bool i (30+k), nat i (35+k) 60, 0, nat i (38+k) 3, 5, 1, 0, if i % 7 = 0 then 200 else nat i (40+k) 200⟩
--%   let fl (k : Nat) : Flight := ⟨if bool i (60+k) then some (nat i (62+k) 4) else none, 10, 0, 99 + nat i (64+k) 2, 1, none, 9, 2, 5+k, 77⟩
--%   let s := s.setTarget T { Target.init with slots := [mk 0, mk 1, mk 2, mk 3], flights := (List.range (nat i 66 4)).map fl }
--%   let s := s.setReg (Reg.CQ_TCTL T) (F.CQ_TCTL_Mode.put (word i 50) (if bool i 51 then 2 else nat i 52 3))
--%   let s := s.setReg (Reg.CQ_MERGE T) (if bool i 70 then 0xFFFF else 3)
--%   let s := if 896 ≤ T then s.setCap (T - 896) ((List.range (nat i 71 5)).map fun k => ⟨k, 1, 2, 3⟩) else s
--%   let s := s.setReg (Reg.CQ_CAPCTL (T - 896)) (word i 72)
--%   let s := if bool i 73 then { s with cue := { s.cue with taps := s.cue.taps.set [] 3 [fl 0, fl 1] } } else s
--%   let rs := 4
--%   let e := s.eng 0
--%   let s := s.setEng 0 { e with g := e.g.set 0 rs (BitVec.ofNat 32 (T + 2^16 * nat i 80 16)), answers := (List.range (nat i 81 4)).map fun k => ⟨7 + k, if bool i 83 then some (word i 82) else none⟩ }
--%   let s := { s with encs := s.encs.set Enc.init 0 { Enc.init with prevEst := BitVec.ofNat 40 (nat i 54 60), est := BitVec.ofNat 40 (nat i 55 60) } }
--%   K ({ s with clock := { s.clock with tick := 100, lt := nat i 6 60 } }) 0 T 5 rs (nat i 84 4) 3 (BitVec.ofNat 32 (nat i 85 16)) (mk (nat i 84 4)) (if 896 ≤ T then (s.capFifo (T-896)) else []) (effectsNow T { s with clock := { s.clock with tick := 100 } })
def Obligations.CueSlotsAndEffects : Prop :=
  ∀ (s : State) (n tg rd rs k i : Nat) (v : Word) (sl : Slot) (recs : List CapRec) (fs : List Flight),
    n < 192 → tg < 1024 → rd < 64 → rs < 64 →
    let T := s.target tg
    let p := ((s.encNow sl.enc).prevEst - BitVec.ofNat 40 sl.value).toInt
    let c := ((s.encNow sl.enc).est - BitVec.ofNat 40 sl.value).toInt
    let up := p < 0 ∧ 0 ≤ c
    let down := 0 < p ∧ c ≤ 0
    let met := if sl.position = true then
        (if sl.dir = 0 then up else if sl.dir = 1 then down else up ∨ down) else sl.value ≤ s.clock.lt
    let hit := fun (x : Slot) => x.st == .armed && !slotMet s x && !slotLate s x
    let tooLate := fun (x : Slot) => !slotFree s x && !hit x
    let cleared := fun (mask j : Nat) => mask.testBit j && (T.slots[j]?.map hit).getD false
    let missed := fun (mask j : Nat) => mask.testBit j && (T.slots[j]?.map tooLate).getD false
    let disarms := fun (mask : Nat) (t : State) =>
      (List.range 4).all (fun j => (t.target tg).slots[j]? =
        T.slots[j]?.map (fun x => if cleared mask j = true then Slot.init else x)) = true ∧
      (t.target tg).flights = T.flights ∧
      t.bit (Reg.CQ_TSTAT tg) F.CQ_TSTAT_DisarmLate =
        (s.bit (Reg.CQ_TSTAT tg) F.CQ_TSTAT_DisarmLate || (List.range 4).any (missed mask))
    let mask := F.CQ_DISARM_Slots.get v
    let w := (s.g n rs).toNat
    let u := tg - 896
    let lastAnswer := fun (t : State) => (t.eng n).answers.getLast?.getD (EngAnswer.mk 0 none)
    let oldest := (s.eng n).answers.head?.getD (EngAnswer.mk 0 none)
    let merged := min 65535 (s.fld (Reg.CQ_MERGE tg) F.CQ_MERGE_MergeCount + (fs.length - 1))
    (T.slots[k]? = some sl → sl.st = .armed → sl.due < s.clock.tick →
      (met → ∃ t, exec (.slotSatisfied tg k) s = .next t ∧
        (t.target tg).slots = T.slots.set k { sl with st := .inFlight, due := s.clock.tick + 64 + sl.delay } ∧
        (t.target tg).flights.map (fun f => (f.slot, f.due, f.action)) =
          T.flights.map (fun f => (f.slot, f.due, f.action)) ++ [(some k, s.clock.tick + 64 + sl.delay, sl.action)] ∧
        quiet [] [.cue] s t) ∧
      (¬ met → exec (.slotSatisfied tg k) s = .next s)) ∧
    (∃ t, exec (.disarm tg v) s = .next t ∧ disarms mask t ∧ quiet [Reg.CQ_TSTAT tg] [.cue] s t) ∧
    (ReadySys n [rs, rd] s → (s.eng n).answers.length < 4 → w % 1024 = tg →
      ∃ t, exec (.cdisarm n rd rs) s = .next t ∧ disarms (w / 2 ^ 16 % 16) t ∧ noReg n s t ∧
        (t.eng n).answers.dropLast = (s.eng n).answers ∧ (lastAnswer t).rd = rd ∧ (lastAnswer t).val.isSome = true ∧
        (List.range 32).all (fun j => ((lastAnswer t).val.getD 0).getLsbD j ==
          (if j < 4 then cleared (w / 2 ^ 16 % 16) j else decide (j < 8) && missed (w / 2 ^ 16 % 16) (j - 4))) = true ∧
        (t.eng n).pc = (s.eng n).pc + 4 ∧ quiet [Reg.CQ_TSTAT tg, Reg.ME_PERF_ISSUE n] [.cue, .engs] s t) ∧
    (oldest.val.isSome = true → ∃ t, exec (.answerReturn n) s = .next t ∧
      (t.eng n).answers = (s.eng n).answers.tail ∧ (t.eng n).pc = (s.eng n).pc ∧
      onlyG n oldest.rd (oldest.val.getD 0) s t ∧
      quiet [] [.engs] s t) ∧
    (oldest.val = none → exec (.answerReturn n) s = .next s) ∧
    (fs = effectsNow tg s → fs ≠ [] →
      ∃ t, exec (.cueEffect tg) s = .next t ∧
        t.fld (Reg.CQ_MERGE tg) F.CQ_MERGE_MergeCount = merged ∧
        (896 ≤ tg → s.bit Reg.PL_CTL F.PL_CTL_Enable = false →
          (t.target tg).flights = T.flights.filter (fun f => f.due != s.clock.tick) ∧ (t.target tg).slots = T.slots ∧
          (recs = s.capFifo u → recs.length < 4 → (t.capFifo u).dropLast = recs ∧
            (t.capFifo u).getLast?.map (fun r => (r.stamp, r.frac, r.source, r.pos)) = fs.head?.map (fun f =>
              (f.stamp, f.frac, f.source, if s.bit (Reg.CQ_CAPCTL u) F.CQ_CAPCTL_PosEnable = true then f.pos else 0))) ∧
          (recs = s.capFifo u → 4 ≤ recs.length → t.capFifo u = recs ∧
            t.bit (Reg.CQ_CAPSTAT u) F.CQ_CAPSTAT_Overflow = true) ∧
          Touches [Reg.CQ_MERGE tg, Reg.CQ_CAPSTAT u] [.cue] s t)) ∧
    (∃ t, exec (.targetConfigWrite tg true v) s = .next t ∧ (t.target tg).flights = T.flights ∧
      (t.target tg).slots = T.slots.map (fun x => if F.CQ_TCTL_Mode.get v < 2 ∧ hit x = true then Slot.init else x) ∧
      t.fld (Reg.CQ_TCTL tg) F.CQ_TCTL_Mode =
        (if F.CQ_TCTL_Mode.get v = 3 then s.fld (Reg.CQ_TCTL tg) F.CQ_TCTL_Mode else F.CQ_TCTL_Mode.get v) ∧
      quiet [Reg.CQ_TCTL tg] [.cue] s t) ∧
    (∃ t, exec (.targetConfigWrite tg false v) s = .next t ∧ (t.target tg).flights = T.flights ∧
      (t.target tg).slots = T.slots ∧
      t.fld (Reg.CQ_TSEL tg) F.CQ_TSEL_Source =
        (let x := F.CQ_TSEL_Source.get v; if 1152 ≤ x ∧ x < 2047 then 0x7FF else x) ∧
      quiet [Reg.CQ_TSEL tg] [.cue] s t) ∧
    (recs = s.capFifo u → F.CQ_CAP_POP_Pop.get v = 1 →
      ∃ t, exec (.capturePop u v) s = .next t ∧ t.capFifo u = recs.tail ∧ quiet [] [.cue] s t) ∧
    ((s.cue.taps.get [] i).any (fun f => f.due = s.clock.tick) = true →
      ∃ t, exec (.fabricTapEffect i) s = .next t ∧
        t.cue.tapOut.get (0, 0) i = (s.clock.tick % 4, s.clock.tick + 4) ∧
        t.cue.taps.get [] i = (s.cue.taps.get [] i).filter (fun f => f.due != s.clock.tick) ∧ quiet [] [.cue] s t)

/-- An armed cue timer whose value LINETIME has reached, armed in an earlier tick, disarms, sets EVPEND bit 15 with
LocalEvent, and gives one edge to each SOURCE target that selects it. The deadline watch, armed with a current
job whose deadline's ENG cycle has passed, clears Armed, sets DlFired, raises event n unless Action is NONE, and
makes DEADLINE pending under EXCEPTION. The watchdog at its limit, and a parity error in a running, waiting,
halted or parked engine, are engine faults: FAULTED at once, and two ticks after the ENG cycle of the detection
timer and watch disarmed, ME_FAULT and the fault address, the current job on its way back, else a fault-log
entry. Before their condition they change nothing. ICACHE_REFILL of a clean executable line into an unlocked way
puts that line there, and an instruction whose line is not cached issues as from the state with its line filled.
(09_mark_engines.md: Time, Deadline watch, Engine fault, Instruction cache) -/
--% def gen (i : Nat) :=
--%   let s := rdy i
--%   let T := nat i 1 6
--%   let e := s.eng 0
--%   let e := { e with ctVal := nat i 2 60, ctArmed := nat i 3 4 != 0, ctTick := 99 + nat i 4 2, dlArmed := nat i 5 4 != 0, jobValid := nat i 6 4 != 0, dl := if bool i 7 then nat i 7 60 else 2^64 - 1, dlAction := nat i 8 3, st := if nat i 9 3 = 0 then .run else if nat i 9 3 = 1 then .wait else .faulted, wdogTick := nat i 10 6000, flt := if nat i 66 3 = 0 then some ⟨99 + nat i 67 2, nat i 68 5, nat i 69 8, e.pc + 4, 7, 3⟩ else none, icache := if bool i 65 then e.icache else [⟨67108864 + 64, 1⟩, ⟨77, 2⟩] }
--%   let s := s.setEng 0 e
--%   let s := s.setReg (Reg.ME_CTL 0) (word i 20)
--%   let s := s.setReg (Reg.ME_WDOG 0) (BitVec.ofNat 32 (nat i 21 4))
--%   let s := s.setReg (Reg.CQ_TSEL T) (BitVec.ofNat 32 (896 + 2^11 * nat i 22 4))
--%   let s := s.setReg (Reg.CQ_TCTL T) (F.CQ_TCTL_Mode.put (word i 50) (if bool i 51 then 1 else nat i 52 3))
--%   let s := s.setReg (Reg.CQ_SRCDLY T) (if bool i 53 then 0 else 3)
--%   let s := s.setTarget T { Target.init with flights := [] }
--%   K ({ s with clock := { s.clock with tick := 100, lt := nat i 60 60, ltEnd := nat i 61 60 } }) 0 T (67108864 + 64 * nat i 62 2) (nat i 63 5) 3 4 5 (bool i 64)
def Obligations.EngineTimersAndFaults : Prop :=
  ∀ (s : State) (n tg line way rd rs rt : Nat) (ue : Bool), n < 192 → tg < 1024 →
    let e := s.eng n
    let T := s.target tg
    let fires := e.ctArmed = true ∧ e.ctVal ≤ s.clock.lt ∧ e.ctTick ≠ s.clock.tick
    let watch := e.dlArmed = true ∧ e.jobValid = true ∧ e.dl ≤ s.clock.ltEnd
    let limit := s.bit (Reg.ME_CTL n) F.ME_CTL_WdogEnable = true ∧ e.st = .run ∧
      1600 * s.fld (Reg.ME_WDOG n) F.ME_WDOG_WdogLimit ≤ e.wdogTick
    let faultRegs := [Reg.ME_FAULT n, Reg.ME_FAULTPC_LO n, Reg.ME_FAULTPC_LO n + 4, Reg.ME_FAULTADDR_LO n,
      Reg.ME_FAULTADDR_LO n + 4]
    let due := 2 * (s.clock.tick / 2) + 2
    let faults := fun (i : Instr) (kind : Nat) (f : Fld) => ∃ t, exec i s = .next t ∧
      (t.eng n) = { e with
        evpend := (t.eng n).evpend, st := .faulted, wait := .none, loads := [], step := 0,
        flt := some (EngFlt.mk due kind 0 e.pc 0 s.clock.lt) } ∧
      (kind = 3 → t.bit (Reg.ME_STAT n) f = true) ∧ noReg n s t ∧ Touches [] [.engs] s t
    let u := faultDue n s
    let ended := fun (f : EngFlt) => (u.eng n).st = e.st ∧ (u.eng n).flt = none ∧
      (u.eng n).ctArmed = false ∧ (u.eng n).dlArmed = false ∧ (u.eng n).jobValid = false ∧
      u.reg (Reg.ME_FAULT n) = BitVec.ofNat 32 (f.kind + 256 * f.cause) ∧
      u.reg (Reg.ME_FAULTPC_LO n) = f.pc.setWidth 32 ∧ u.reg (Reg.ME_FAULTADDR_LO n) = f.eaddr.setWidth 32 ∧
      u.bit (Reg.ME_STAT n) F.ME_STAT_Faulted = true ∧
      (u.eng n).returns = e.returns ++
        (if e.jobValid = true then [EngReturn.mk false e.jobQueue e.jobIdx f.lt true] else []) ∧
      u.logQ.length = s.logQ.length + (if e.jobValid = true then 0 else 1) ∧
      noReg n s u ∧ (u.eng n).pc = e.pc ∧ Touches faultRegs [.engs, .logQ] s u
    (∀ f, e.flt = some f → (f.at' ≤ s.clock.tick → ended f) ∧ (s.clock.tick < f.at' → u = s)) ∧
    (fires → ∃ t, exec (.engineCueTimer n) s = .next t ∧ (t.eng n).ctArmed = false ∧
      (e.ctLocal = true → (t.eng n).evpend.getLsbD 15 = true) ∧ noReg n s t ∧ sameBut (.cue :: eventParts) s t ∧
      (regsWf s.regs = true → T.old = none → s.fld (Reg.CQ_TSEL tg) F.CQ_TSEL_Source = 896 + n →
        s.fld (Reg.CQ_TCTL tg) F.CQ_TCTL_Mode = 1 → s.fld (Reg.CQ_SRCDLY tg) F.CQ_SRCDLY_SrcDelay = 0 →
        (t.target tg).flights.map (fun f => (f.slot, f.due, f.source, f.action)) =
          T.flights.map (fun f => (f.slot, f.due, f.source, f.action)) ++
            [(none, s.clock.tick + 64, 896 + n, s.fld (Reg.CQ_TCTL tg) F.CQ_TCTL_SrcAction)])) ∧
    (¬ fires → exec (.engineCueTimer n) s = .next s) ∧
    (watch → ∃ t, exec (.deadlineWatchFire n) s = .next t ∧ (t.eng n).dlArmed = false ∧
      (t.eng n).dlPend = (e.dlPend || decide (e.dlAction = 2)) ∧ t.bit (Reg.ME_STAT n) F.ME_STAT_DlFired = true ∧
      (e.dlAction ≠ 0 → t.pends n = true) ∧ (t.eng n).pc = e.pc ∧ (t.eng n).st = e.st ∧
      (t.eng n).jobValid = e.jobValid ∧ noReg n s t ∧ Touches [] [.engs] s t) ∧
    (¬ watch → exec (.deadlineWatchFire n) s = .next s) ∧
    (limit → e.flt = none → faults (.watchdogExpiry n) 3 F.ME_STAT_WdogExpired) ∧
    (¬ limit → exec (.watchdogExpiry n) s = .next s) ∧
    (e.st = .run ∨ e.st = .wait ∨ e.st = .halted ∨ e.st = .parked → e.flt = none → faults (.engineFault n) 2 F.ME_STAT_Faulted) ∧
    (executable (regionOf (64 * line) s) = true → anyPoison (64 * line) 64 s = false → way < 4 →
      frozenIn (64 * line) 64 s = false → s.fld (Reg.ME_CTL n) F.ME_CTL_LockWays ≤ way → cached n (64 * line) s = false →
      ∃ t, exec (.icacheRefill n line ⟨way, false⟩) s = .next t ∧
        EngIs n { e with icache := e.icache.filter (fun x => !(x.line % 64 = line % 64 && x.way = way)) ++
          [ICLine.mk line way] } [] [.memt] s t) ∧
    (cached n (64 * line) s = true → exec (.icacheRefill n line ⟨way, ue⟩) s = .next s) ∧
    (rd < 64 → rs < 64 → rt < 64 → Ready n [rd, rs, rt] (fetchLine n e.pc.toNat s) → fetchCause n e.pc.toNat s = none →
      frozenIn (e.pc.toNat / 64 * 64) 64 s = false →
      writesG (.add n rd rs rt) n rd (s.g n rs + s.g n rt) (fetchLine n e.pc.toNat s) ∧
      (∃ t, exec (.add n rd rs rt) s = .next t ∧ exec (.add n rd rs rt) (fetchLine n e.pc.toNat s) = .next t) ∧
      ∀ (o : Op) (f : State → State), issue n o f s = issue n o f (fetchLine n e.pc.toNat s))

/-- Start from HELD or PARKED: RUN at ME_BOOTPC with every register 0, Priv and Exl 1, an empty cache and no job; in
another state RefusedWrite. Reset from any state: HELD, the current job on its way back. ForceFault: the engine
fault of cause 4. Unlock: the next IINV also clears locked ways. With the debug unlock in force, Halt stops a
running or waiting engine, Step and Resume return a halted one to RUN, Step for one pair, and a breakpoint on
the next instruction halts with a debugger attached and else raises BREAK; without it, a debug command sets
RefusedWrite and changes nothing else. (09_mark_engines.md: Start, drain and reset, Engine fault, Debug, Control
and debug registers) -/
--% def gen (i : Nat) :=
--%   let s := rdy i
--%   let e := s.eng 0
--%   let st : EngSt := match nat i 1 7 with | 0 => .held | 1 => .run | 2 => .wait | 3 => .parked | 4 => .halted | 5 => .faulted | _ => .retained
--%   let e := { e with st := st, wait := if st = .wait then .job 3 0 else .none, icache := [⟨7, 1⟩], flt := if nat i 66 3 = 0 then some ⟨99 + nat i 67 2, nat i 68 5, nat i 69 8, e.pc + 4, 7, 3⟩ else none, passed := nat i 11 4 = 0 }
--%   let s := s.setEng 0 e
--%   let s := s.setReg (Reg.ME_CTL 0) (word i 20)
--%   let s := s.setReg (Reg.ME_DBGCTL 0) (word i 21)
--%   let s := s.setReg (Reg.ME_BOOTPC_LO 0) (word i 22)
--%   let s := s.setReg (Reg.ME_BOOTPC_LO 0 + 4) (word i 23)
--%   let s := s.setReg Reg.MNT_STATUS (if bool i 24 then F.MNT_STATUS_DebugScope.put 0 1 else 0)
--%   let s := if bool i 26 then (s.setReg (Reg.ME_BKPT_HI 0 2) (F.ME_BKPT_HI_BkEnable.put (F.ME_BKPT_HI_AddrHi.put 0 (e.pc.toNat / 2^32)) 1)).setReg (Reg.ME_BKPT_LO 0 2) (BitVec.ofNat 32 e.pc.toNat) else s
--%   K s 0 (if bool i 25 then 2 else nat i 27 5) (if bool i 28 then 0 else word i 29)
def Obligations.EngineControl : Prop :=
  ∀ (s : State) (n b : Nat) (v : Word), n < 192 →
    let e := s.eng n
    let noOther := F.ME_CTL_Start.get v = 0 ∧ F.ME_CTL_Reset.get v = 0 ∧ F.ME_CTL_ForceFault.get v = 0 ∧
      F.ME_CTL_Unlock.get v = 0 ∧ (F.ME_CTL_Drain.get v = 0 ∨ e.wait = .none)
    let noDbg := F.ME_DBGCTL_Halt.get v = 0 ∧ F.ME_DBGCTL_Step.get v = 0 ∧ F.ME_DBGCTL_Resume.get v = 0
    let unlocked := s.fld Reg.MNT_STATUS F.MNT_STATUS_DebugScope % 2 = 1
    let startable := e.st = .held ∨ e.st = .parked
    let active := e.st = .run ∨ e.st = .wait
    let ctl := [Reg.ME_CTL n]
    let faultRegs := ctl ++ [Reg.ME_FAULT n, Reg.ME_FAULTPC_LO n, Reg.ME_FAULTPC_LO n + 4, Reg.ME_FAULTADDR_LO n,
      Reg.ME_FAULTADDR_LO n + 4]
    let refused := fun (i : Instr) (as : List Nat) => ∃ t, exec i s = .next t ∧
      t.bit (Reg.ME_STAT n) F.ME_STAT_RefusedWrite = true ∧ (t.eng n).st = e.st ∧ (t.eng n).pc = e.pc ∧
      noReg n s t ∧ Touches as [.engs] s t
    let back := e.returns ++ (if e.jobValid = true then [EngReturn.mk false e.jobQueue e.jobIdx s.clock.lt false] else [])
    let dbg := fun (i : Instr) (f : Engine) => ∃ t, exec i s = .next t ∧ EngIs n f [Reg.ME_DBGCTL n] [] s t
    let here := (s.reg (Reg.ME_BKPT_LO n b)).toNat + 2 ^ 32 * s.fld (Reg.ME_BKPT_HI n b) F.ME_BKPT_HI_AddrHi
    (noOther → startable → ∃ t, exec (.engineStart n v) s = .next t ∧
      (t.eng n).st = .run ∧ (t.eng n).pc.toNat =
        (s.reg (Reg.ME_BOOTPC_LO n)).toNat + 2 ^ 32 * ((s.reg (Reg.ME_BOOTPC_LO n + 4)).toNat % 2 ^ 16) ∧
      (t.eng n).priv = true ∧ (t.eng n).exl = true ∧ (t.eng n).ie = false ∧ (t.eng n).jobValid = false ∧
      (t.eng n).icache = [] ∧ (t.eng n).evmask = 0 ∧ (t.eng n).evec = 0 ∧ (t.eng n).dlArmed = false ∧
      (List.range 64).all (fun r => t.g n r = 0) = true ∧ (List.range 16).all (fun r => t.a n r = 0) = true ∧
      (List.range 32).all (fun r => t.v n r = 0) = true ∧ quiet ctl [.engs] s t) ∧
    (noOther → ¬ startable → refused (.engineStart n v) ctl) ∧
    (noOther → e.flt = none → ∃ t, exec (.engineReset n v) s = .next t ∧ (t.eng n).st = .held ∧
      (t.eng n).jobValid = false ∧ (t.eng n).returns = back ∧ (t.eng n).dlArmed = false ∧
      (t.eng n).ctArmed = false ∧ quiet ctl [.engs] s t) ∧
    (noOther → ∃ t, exec (.engineReset n v) s = .next t ∧ (t.eng n).st = .held ∧ (t.eng n).flt = none ∧
      (t.eng n).jobValid = false ∧ (t.eng n).pc = e.pc) ∧
    (noOther → e.flt = none → ∃ t, exec (.forceFault n v) s = .next t ∧ noReg n s t ∧ EngIs n { e with
      st := .faulted, wait := .none, loads := [], step := 0, wdogTick := (t.eng n).wdogTick,
      flt := some (EngFlt.mk (2 * (s.clock.tick / 2) + 2) 4 0 e.pc 0 s.clock.lt) } ctl [] s t ∧
      (faultEnd n t).reg (Reg.ME_FAULT n) = 4 ∧ (faultEnd n t).reg (Reg.ME_FAULTPC_LO n) = e.pc.setWidth 32 ∧
      (faultEnd n t).bit (Reg.ME_STAT n) F.ME_STAT_Faulted = true ∧ Touches faultRegs [.engs, .logQ] s (faultEnd n t)) ∧
    (noOther → e.flt ≠ none → ∃ t, exec (.forceFault n v) s = .next t ∧
      EngIs n { e with wdogTick := (t.eng n).wdogTick } ctl [] s t) ∧
    (noOther → ∃ t, exec (.unlock n v) s = .next t ∧ (t.eng n).unlockIinv = true ∧ (t.eng n).st = e.st ∧
      (t.eng n).pc = e.pc ∧ (t.eng n).icache = e.icache ∧ noReg n s t ∧ quiet ctl [.engs] s t) ∧
    (noDbg → unlocked →
      (active → dbg (.halt n v) { e with st := .halted, wait := .none, step := 0 }) ∧
      (¬ active → dbg (.halt n v) e) ∧
      (e.st = .halted → dbg (.step n v) { e with st := .run, step := 1, passed := true }) ∧
      (e.st ≠ .halted → dbg (.step n v) e) ∧
      (e.st = .halted → dbg (.resume n v) { e with st := .run, step := 0, passed := true }) ∧
      (e.st ≠ .halted → dbg (.resume n v) e)) ∧
    (¬ unlocked → refused (.halt n v) [] ∧ refused (.step n v) [] ∧ refused (.resume n v) []) ∧
    (b < 4 → e.st = .run → e.passed = false → s.bit (Reg.ME_BKPT_HI n b) F.ME_BKPT_HI_BkEnable = true →
      e.pc.toNat = here →
      (s.bit (Reg.ME_DBGCTL n) F.ME_DBGCTL_Attached = true → ∃ t, exec (.breakpointHit n b) s = .next t ∧
        EngIs n { e with st := .halted, wait := .none, step := 0 } [] [] s t) ∧
      (s.bit (Reg.ME_DBGCTL n) F.ME_DBGCTL_Attached = false → e.exl = false →
        ∃ t, exec (.breakpointHit n b) s = .next t ∧ EngIs n (e.interrupted 9 0 e.pc 0) [] [] s t))

/-- Each count-reading command returns its register to the requester and leaves the count 0 and every other bit and
register as it was: merges, illegal encoder changes, comparator rises, the differential peak, ring overruns,
engine performance counts, correctable errors of a Store or of the error log, channel counts, host and port
violations, dropped answers, Seam violations and replays, and raises. Reads of SYS_LT_LO, ENC_POS_LO and
DCE_LAST_TLO return the low word and keep the high word of the same instant for the requester.
(21_register_map.md: Access types; 02_clocks_and_line_time.md: Line time; 03_cue_fabric_and_encoders.md;
19_events_faults_and_availability.md: Registers) -/
--% def gen (i : Nat) :=
--%   let s := rdy i
--%   let n := if bool i 9 then nat i 1 4 else 191
--%   let as := [Reg.CQ_MERGE n, Reg.ENC_ERRCNT n, Reg.AT_SUPSTAT n, Reg.AT_CMPSTAT n 3, Reg.DCE_OVRCNT n 2, Reg.EVT_RAISECNT, Reg.ME_PERF_ISSUE n, Reg.ME_PERF_STALL n, Reg.TST_CSCE n, Reg.TST_ERRLOG, Reg.MEMC_CHCNT n, Reg.HOST_VIOL, Reg.CFG_PORTVIOL, Reg.SL_LOST, Reg.SL_PVIOL n, Reg.SL_PCNT n, Reg.DCE_LAST_TLO n 2, Reg.DCE_LAST_THI n 2]
--%   let s := as.foldl (fun s a => s.setReg a (word i (a % 1009))) s
--%   let s := { s with encs := s.encs.set Enc.init n { Enc.init with est := BitVec.ofNat 40 (mix (i+55)) } }
--%   K { s with clock := { s.clock with lt := mix (i + 77) } } (if bool i 3 then .host else .engine (nat i 4 9)) n (if bool i 5 then 2 else 13) 3
def Obligations.CountReadsReturnAndClear : Prop :=
  ∀ (s : State) (req : Req) (n c k : Nat),
    let keeps := fun (i : Instr) (x : Nat) (hi w : Nat) => ∃ t, exec i s = .next t ∧
      t.rdata.get [] (reqKey req) = [BitVec.ofNat 32 x] ∧ t.preg req hi = BitVec.ofNat 32 w ∧
      quiet [] [.rdata, .perReq] s t
    let lt := s.clock.lt
    let pos := (s.encOf n).est.toNat
    readsAndClears (.mergeCountRead req n) req (Reg.CQ_MERGE n) F.CQ_MERGE_MergeCount s ∧
    readsAndClears (.illegalCountRead req n) req (Reg.ENC_ERRCNT n) F.ENC_ERRCNT_IllegalCount s ∧
    returns (.riseCountRead req n k) req (cmpStat n k s) [Reg.AT_CMPSTAT n k] [] s
      (fun t => t.fld (Reg.AT_CMPSTAT n k) F.AT_CMPSTAT_RiseCount = 0) ∧
    readsAndClears (.peakDiffRead req n) req (Reg.AT_SUPSTAT n) F.AT_SUPSTAT_PeakDiff s ∧
    readsAndClears (.overrunCountRead req n c) req (Reg.DCE_OVRCNT n c) F.DCE_OVRCNT_OvrCount s ∧
    readsAndClears (.raiseCountRead req) req Reg.EVT_RAISECNT F.EVT_RAISECNT_Raises s ∧
    (n < 192 → readsAndClears (.perfCountRead req n false) req (Reg.ME_PERF_ISSUE n) F.ME_PERF_ISSUE_Count s) ∧
    (n < 192 → readsAndClears (.perfCountRead req n true) req (Reg.ME_PERF_STALL n) F.ME_PERF_STALL_Count s) ∧
    (c < 12 → readsAndClears (.ceCountRead req c) req (Reg.TST_CSCE c) F.TST_CSCE_CeCount s) ∧
    (12 ≤ c → readsAndClears (.ceCountRead req c) req Reg.TST_ERRLOG F.TST_ERRLOG_CeCount s) ∧
    returns (.memcCountRead req n) req (s.reg (Reg.MEMC_CHCNT n)) [Reg.MEMC_CHCNT n] [] s
      (fun t => t.reg (Reg.MEMC_CHCNT n) = 0) ∧
    readsAndClears (.violationCountRead req) req Reg.HOST_VIOL F.HOST_VIOL_Count s ∧
    readsAndClears (.portViolationRead req) req Reg.CFG_PORTVIOL F.CFG_PORTVIOL_Count s ∧
    readsAndClears (.dropCountRead req) req Reg.SL_LOST F.SL_LOST_DropCount s ∧
    (n < 4 → readsAndClears (.seamViolCountRead req n) req (Reg.SL_PVIOL n) F.SL_PVIOL_Count s) ∧
    (n < 4 → returns (.replayCountRead req n) req (s.reg (Reg.SL_PCNT n)) [Reg.SL_PCNT n] [] s (fun t =>
      t.reg (Reg.SL_PCNT n) = F.SL_PCNT_Discarded.put (F.SL_PCNT_ReplayCount.put (s.reg (Reg.SL_PCNT n)) 0) 0)) ∧
    keeps (.linetimeRead req) lt Reg.SYS_LT_HI (lt / 2 ^ 32) ∧
    keeps (.encoderPositionRead req n) pos (Reg.ENC_POS_HI n) (pos / 2 ^ 32) ∧
    keeps (.dceLastStampRead req n c) (s.reg (Reg.DCE_LAST_TLO n c)).toNat (Reg.DCE_LAST_THI n c)
      (s.reg (Reg.DCE_LAST_THI n c)).toNat

/-- HOST_POST_GO with a readable aligned descriptor in memory leaves its post for the end of the ENG cycle and sets
Busy; a Go while Busy is ignored. The post applied: the result 2, 1 or 0 stands in JQ_HPOSTRES for the
requester, by the conditions of QPUT, and only POSTED appends an entry of the descriptor's words at the tail,
missed at once where its deadline has passed; a misaligned address answers REFUSED at once. QUEUE_CTL_WRITE
stores BaseClass 1 for 0, Home at most 11 and MissAction ABANDON for values without a meaning; a write of Enable
1 to a queue whose ring lies in no ring memory, or with Bound 1 and a BindEngine above 191, leaves Enable 0 and
sets ConfigRefused. The entries stay. (11_job_queues_deadlines_and_stealing.md: Queues, Posting, Registers) -/
--% def gen (i : Nat) :=
--%   let s := rdy i
--%   let q := nat i 1 2
--%   let a : Nat := 0x100000000 + (if i % 7 = 0 then nat i 3 0x10000 else 64 * nat i 3 0x400)
--%   let ws := (List.range 16).map fun k => if k = 0 then (word i 20 &&& (if bool i 40 then 0xff3fffff else 0xff38ffff)) else if k = 5 then word i 25 &&& (if i % 5 = 0 then 0xffffffff else 0x10010001) else word i (20+k)
--%   let s := s.store a (ws.flatMap fun w => leBytes 4 w.toNat)
--%   let s := s.setReg (Reg.JQ_CTL q) (F.JQ_CTL_Home.put (word i 50 ||| (if i % 6 = 0 then 0 else F.JQ_CTL_Enable.put 0 1)) 2)
--%   let s := s.setReg (Reg.JQ_CTL 1) (word i 51)
--%   let s := if bool i 56 then s else s.setReg (Reg.JQ_CTL q) (s.reg (Reg.JQ_CTL q) &&& 0xFFFFFFFE)
--%   let s := s.setReg (Reg.JQ_TAIL q) (if bool i 52 then 16 else BitVec.ofNat 32 (nat i 53 16))
--%   let s := s.setReg (Reg.JQ_RINGBASE_LO q) (if bool i 57 then 0x10000 else 0x200000)
--%   let s := s.setReg (Reg.JQ_RINGBASE_LO q + 4) 1
--%   let s := s.setReg (Reg.JQ_RINGCFG q) (F.JQ_RINGCFG_SizeLog2.put (word i 54) 4)
--%   let s := s.setPreg .host (Reg.JQ_HPOST_LO q) (BitVec.ofNat 32 a)
--%   let s := if i % 5 = 0 then s.setPreg .host (Reg.JQ_HPOSTRES q) (F.JQ_HPOSTRES_Busy.put 0 1) else s
--%   let s := { s with clock := { s.clock with ltEnd := if bool i 71 then 0 else 2^63 } }
--%   K s .host q a ws (if bool i 58 then BitVec.ofNat 32 (a / 2^32) else word i 59)
def Obligations.HostPostsAndQueueControl : Prop :=
  ∀ (s : State) (req : Req) (q a : Nat) (ws : List Word) (v : Word), q < 4096 →
    let w := fun k => (ws[k]?.getD 0).toNat
    let own := w 0 / 2 ^ 16 % 8
    let act := if own = 0 then s.fld (Reg.JQ_CTL q) F.JQ_CTL_MissAction else own
    let refused := s.bit (Reg.JQ_CTL q) F.JQ_CTL_Enable = false ∨ 4 < own ∨ w 0 / 2 ^ 22 % 4 ≠ 0 ∨ w 5 / 2 ^ 29 ≠ 0 ∨
      act = 4 ∧ w 5 / 2 ^ 28 % 2 = 1 ∨
      act = 3 ∧ s.bit (Reg.JQ_CTL (w 5 / 2 ^ 16 % 2 ^ 12)) F.JQ_CTL_Enable = false
    let full := ((s.reg (Reg.JQ_TAIL q)) - s.reg (Reg.JQ_HEAD q)).toNat = 2 ^ s.fld (Reg.JQ_RINGCFG q) F.JQ_RINGCFG_SizeLog2
    let result := fun (r : Word) (t : State) => t.preg req (Reg.JQ_HPOSTRES q) = r
    let kept := fun (t : State) => (t.jq q).ents = (s.jq q).ents ∧ t.reg (Reg.JQ_TAIL q) = s.reg (Reg.JQ_TAIL q) ∧
      t.mem = s.mem
    let answers := fun (t : State) (r : Word) (f : Fld) => result r t ∧ kept t ∧
      t.bit (Reg.JQ_FLAGS q) f = true ∧
      Touches (Reg.JQ_FLAGS q :: (List.range 12).map Reg.TST_CSSTAT) [.perReq, .jobs] s t
    let deadline := w 2 + 2 ^ 32 * w 3
    let late := deadline ≠ 2 ^ 64 - 1 ∧ deadline ≤ s.clock.ltEnd
    let busy := F.JQ_HPOSTRES_Busy.get (s.preg req (Reg.JQ_HPOSTRES q)) = 1
    let u := applyPost (PostAsk.mk (.staged req) q ws) s
    let addr := (s.preg req (Reg.JQ_HPOST_LO q)).toNat + 2 ^ 32 * (v.toNat % 2 ^ 16)
    let base := s.reg64 (Reg.JQ_RINGBASE_LO q) % 2 ^ 48
    let bad := F.JQ_CTL_Enable.get v = 1 ∧ 
      (inRingMemory base (64 * 2 ^ s.fld (Reg.JQ_RINGCFG q) F.JQ_RINGCFG_SizeLog2) s = false ∨
        F.JQ_CTL_Bound.get v = 1 ∧ 191 < F.JQ_CTL_BindEngine.get v)
    (addr = a → a % 64 ≠ 0 → ¬ busy → ∃ t, exec (.hostPostGo req q v) s = .next t ∧ answers t 2 F.JQ_FLAGS_Refused) ∧
    (addr = a → a % 64 = 0 → inRingMemory a 64 s = true → (regionOf a s).isAsleep = false → anyPoison a 64 s = false →
      ws = s.words a 16 → ¬ busy → ∃ t, exec (.hostPostGo req q v) s = .next t ∧
        F.JQ_HPOSTRES_Busy.get (t.preg req (Reg.JQ_HPOSTRES q)) = 1 ∧
        t.asks = { s.asks with posts := s.asks.posts ++ [PostAsk.mk (.staged req) q ws] } ∧
        quiet [] [.perReq, .asks] s t) ∧
    (busy → ∃ t, exec (.hostPostGo req q v) s = .next t ∧ t.preg req (Reg.JQ_HPOSTRES q) = s.preg req (Reg.JQ_HPOSTRES q) ∧
      quiet [] [.perReq] s t) ∧
    (refused → answers u 2 F.JQ_FLAGS_Refused) ∧
    (¬ refused → full → answers u 1 F.JQ_FLAGS_Full) ∧
    (¬ refused → ¬ full → result 0 u ∧
      u.reg (Reg.JQ_TAIL q) = s.reg (Reg.JQ_TAIL q) + 1 ∧ ∃ x, (u.jq q).ents = (s.jq q).ents ++ [x] ∧
        x.st = (if late ∧ act ≠ 2 then .retired else .posted) ∧ x.missed = decide late ∧ x.action = act ∧ x.words.length = 16 ∧
        (List.range 14).all (fun k => decide late && k == 7 || x.words[k]?.getD 0 == if k = 7 then 0 else ws[k]?.getD 0) = true ∧
        x.words[14]?.getD 0 = BitVec.ofNat 32 s.clock.lt ∧ x.words[15]?.getD 0 = BitVec.ofNat 32 (s.clock.lt / 2 ^ 32)) ∧
    (∃ t, exec (.queueCtlWrite q v) s = .next t ∧ (t.jq q).ents = (s.jq q).ents ∧
      t.fld (Reg.JQ_CTL q) F.JQ_CTL_Enable = (if bad then 0 else F.JQ_CTL_Enable.get v) ∧
      t.fld (Reg.JQ_CTL q) F.JQ_CTL_BaseClass = max 1 (F.JQ_CTL_BaseClass.get v) ∧
      t.fld (Reg.JQ_CTL q) F.JQ_CTL_Home = min 11 (F.JQ_CTL_Home.get v) ∧
      t.fld (Reg.JQ_CTL q) F.JQ_CTL_MissAction =
        (let m := F.JQ_CTL_MissAction.get v; if m = 0 ∨ 4 < m then 1 else m) ∧
      (bad → t.bit (Reg.JQ_FLAGS q) F.JQ_FLAGS_ConfigRefused = true) ∧
      Touches [Reg.JQ_CTL q, Reg.JQ_FLAGS q] [.jobs] s t)

/-- For every state in which crystal x is valid and not the active one, CRYSTAL_LOSS of x answers a next state: x is
not valid, its loss flag is set, event 912 (A) or 913 (B) is pending, and the active crystal, the holdover, the
PLL lock, the lost-clock state, the tick index and LINETIME are as before. The clock's fields for x's validity
and its loss and for a switch to x under way may change. (R25) -/
--% def gen (i : Nat) :=
--%   let s := rdy i
--%   let c := s.clock
--%   K { s with clock := { c with active := bool i 1, aValid := nat i 2 4 != 0, bValid := nat i 3 4 != 0, holdover := bool i 4, switching := if bool i 5 then none else some (bool i 6), tick := 44, lt := 7 } } (bool i 7)
def Obligations.StandbyLossLeavesTheClock : Prop :=
  ∀ (s : State) (x : Bool), s.clock.active ≠ x → (if x = true then s.clock.bValid else s.clock.aValid) = true →
    ∃ t, exec (.crystalLoss x) s = .next t ∧ (if x = true then t.clock.bValid else t.clock.aValid) = false ∧
      (x = true → t.bit Reg.SYS_CLK_FAULT F.SYS_CLK_FAULT_XtalBLoss = true ∧ t.pends 913 = true) ∧
      (x = false → t.bit Reg.SYS_CLK_FAULT F.SYS_CLK_FAULT_XtalALoss = true ∧ t.pends 912 = true) ∧
      t.clock = { s.clock with
        aValid := t.clock.aValid, bValid := t.clock.bValid, aLost := t.clock.aLost, bLost := t.clock.bLost,
        switching := t.clock.switching } ∧
      Touches [Reg.SYS_CLK_FAULT, Reg.SYS_CLK_CTL] [.clock] s t

/-- Loss of the active crystal starts holdover, and with AutoSwitch 1 and the other valid, none under way, a switch
to it. A crystal that becomes valid, not within 1 ms of its loss, reads valid; in holdover with AutoSwitch 1 the
part switches to it; after ClockLost XTAL_A is the reference at once. SWITCHOVER makes the valid target active,
ends holdover and raises 914. A write to Select of a valid standby begins a switch, of an invalid crystal or
during a switch it sets SwitchRefused. Holdover expires 160,000 ticks after the loss. PLL_RELOCK locks to the
reacquired crystal; Release with the three conditions ends ClockLost. SLEW_ADJUST adds to the pending slew
except in FOLLOW. A due load is refused while something depends on LINETIME, else sets LINETIME and clears the
trims. A tick of a rate or slew correction moves LINETIME by 0 or 2 and the accumulator or the pending slew by
one, and is the tick of the clockwork. (02_clocks_and_line_time.md: Clock sources, LINETIME, Trim and slew,
Loading) -/
--% def gen (i : Nat) :=
--%   let s := rdy i
--%   let c := s.clock
--%   let c := { c with active := bool i 1, aValid := nat i 2 4 != 0, bValid := nat i 3 4 != 0, holdover := bool i 4, switching := if nat i 5 3 != 0 then none else some (bool i 6), tick := if bool i 30 then 200000 + nat i 8 3 else 1700000 + 8 * nat i 8 3, lt := nat i 9 50, clockLost := nat i 10 3 = 0, reacquired := bool i 11, aLost := if bool i 46 then 0 else nat i 47 200000, bLost := if bool i 48 then 0 else nat i 49 200000, released := bool i 12, pllLocked := bool i 13, lossTick := 40000 + nat i 14 3, lostXtal := bool i 15, aSince := nat i 16 200000, bSince := nat i 17 200000, slew := if bool i 18 then 0 else word i 19, slewCnt := nat i 20 9000, loadReq := if bool i 21 then none else some 0, run := true, rateAcc := if bool i 22 then 0 else if bool i 24 then 2^40 - 5 else -2^40 + 5 }
--%   let s := { s with clock := c }
--%   let s := s.setReg Reg.SYS_CLK_CTL (word i 31)
--%   let s := s.setFld Reg.SYS_CLK_CTL F.SYS_CLK_CTL_Select (b2n (c.switching.getD c.active))
--%   let s := s.setReg Reg.SYS_LT_CTL (if bool i 33 then 0 else word i 32)
--%   let s := s.setReg Reg.SYS_LT_RATE (if bool i 34 then 0 else if bool i 25 then 100 else -100)
--%   let s := s.setReg Reg.SYS_LT_LOAD_LO (word i 35)
--%   let s := s.setEng 0 { s.eng 0 with ctArmed := bool i 36 }
--%   K s (bool i 7) (word i 40) (if bool i 41 then word i 42 else 5) (if bool i 43 then .host else .engine 3) 0
def Obligations.ClocksAndLineTime : Prop :=
  ∀ (s : State) (x : Bool) (v w : Word) (req : Req) (d : Int),
    let c := s.clock
    let valid := fun (t : State) (y : Bool) => if y = true then t.clock.bValid else t.clock.aValid
    let since := fun (y : Bool) => if y = true then c.bSince else c.aSince
    let lost := if x = true then c.bLost else c.aLost
    let auto := s.bit Reg.SYS_CLK_CTL F.SYS_CLK_CTL_AutoSwitch
    let sel := fun (t : State) => t.bit Reg.SYS_CLK_CTL F.SYS_CLK_CTL_Select
    let named := F.SYS_CLK_CTL_Select.get v ≠ 0
    let flag := fun (t : State) (f : Fld) (e : Nat) => t.bit Reg.SYS_CLK_FAULT f = true ∧ t.pends e = true
    let due := c.holdover = true ∧ c.lossTick + 160000 ≤ c.tick
    let follow := s.fld Reg.SYS_LT_CTL F.SYS_LT_CTL_Mode = 1
    let sum := c.slew.toInt + w.toInt
    let m := settle s
    let acc := m.clock.rateAcc + (m.reg Reg.SYS_LT_RATE).toInt
    (valid s x = true → c.active = x → c.clockLost = false ∨ c.pllLocked = true → ∃ t, exec (.crystalLoss x) s = .next t ∧ valid t x = false ∧
      t.clock.holdover = true ∧ t.clock.lossTick = c.tick ∧ t.clock.lossLt = c.lt ∧ t.clock.active = x ∧
      (auto = true → valid s (!x) = true → c.switching = none → t.clock.switching = some (!x) ∧ t.clock.switchAt = c.tick ∧ sel t = !x)) ∧
    (valid s x = true → c.active = x → c.clockLost = true → c.pllLocked = false → ∃ t, exec (.crystalLoss x) s = .next t ∧
      valid t x = false ∧ t.clock.reacquired = false ∧ t.clock.holdover = c.holdover) ∧
    (valid s x = false → lost = 0 ∨ lost - 1 + 1600000 ≤ c.tick → ∃ t, exec (.crystalValid x) s = .next t ∧ valid t x = true ∧
      (c.clockLost = true → c.reacquired = false → x = false → t.clock.active = x ∧ sel t = x ∧
        (c.lostXtal ≠ x → flag t F.SYS_CLK_FAULT_Switched 914)) ∧
      (c.clockLost = false → c.holdover = true → c.switching = none → c.active ≠ x → auto = true →
        t.clock.switching = some x ∧ sel t = x) ∧
      Touches [Reg.SYS_CLK_CTL, Reg.SYS_CLK_FAULT] [.clock] s t) ∧
    (lost ≠ 0 → c.tick < lost - 1 + 1600000 → exec (.crystalValid x) s = .next s) ∧
    (c.switching = some x → valid s x = true → ∃ t, exec (.switchover d) s = .next t ∧ t.clock.active = x ∧
      t.clock.switching = none ∧ t.clock.holdover = false ∧ flag t F.SYS_CLK_FAULT_Switched 914 ∧
      t.clock.tick = c.tick ∧ t.clock.lt = c.lt ∧ Touches [Reg.SYS_CLK_FAULT] [.clock, .cue, .logQ] s t) ∧
    (F.SYS_CLK_CTL_Release.get v = 0 → (named ↔ x = true) →
      ∃ t, exec (.selectWrite v) s = .next t ∧
        t.fld Reg.SYS_CLK_CTL F.SYS_CLK_CTL_AutoSwitch = F.SYS_CLK_CTL_AutoSwitch.get v ∧
        (c.switching = none → sel s ≠ x → valid s x = true → t.clock.switching = some x ∧ sel t = x) ∧
        (c.switching = none → sel s = x → t.clock = c ∧ sel t = x) ∧
        (c.switching ≠ none ∨ sel s ≠ x ∧ valid s x = false → flag t F.SYS_CLK_FAULT_SwitchRefused 914 ∧ sel t = sel s ∧
          t.clock = c)) ∧
    (due → ∃ t, exec .holdoverExpired s = .next t ∧ t.clock.clockLost = true ∧ t.clock.holdover = false ∧
      t.clock.pllLocked = false ∧ flag t F.SYS_CLK_FAULT_HoldoverExpired 915 ∧
      t.bit Reg.SYS_CLK_FAULT F.SYS_CLK_FAULT_PllUnlock = true ∧ sel t = c.active ∧ t.clock.lt = c.lt) ∧
    (¬ due → exec .holdoverExpired s = .next s) ∧
    (c.clockLost = true → c.reacquired = true → c.pllLocked = false → valid s c.active = true →
      ∃ t, exec .pllRelock s = .next t ∧ t.clock.pllLocked = true ∧
        t.clock.clockLost = !(c.released && valid s c.active && decide (since c.active + 1600000 ≤ c.tick))) ∧
    (c.clockLost = true → (named ↔ sel s = true) → ∃ t, exec (.clockRelease v) s = .next t ∧
      t.clock.clockLost = !(c.pllLocked && valid s c.active && decide (since c.active + 1600000 ≤ c.tick))) ∧
    (follow → exec (.slewAdjust req w) s = .next s) ∧
    (¬ follow → -(2 ^ 31) ≤ sum → sum < 2 ^ 31 → ∃ t, exec (.slewAdjust req w) s = .next t ∧
      t.clock = { c with slew := BitVec.ofInt 32 sum, slewCnt := if c.slew = 0 then 0 else c.slewCnt } ∧
      sameBut [.clock] s t) ∧
    (c.loadReq = none → exec .linetimeLoad s = .next s) ∧
    (c.loadReq = some 0 → c.tick % 8 = 0 → 0 < c.tick →
      ∃ t, exec .linetimeLoad s = .next t ∧ t.clock.loadReq = none ∧
        t.bit Reg.SYS_LT_CTL F.SYS_LT_CTL_Load = false ∧
        (loadRefused s = true → t.bit Reg.SYS_LT_STATUS F.SYS_LT_STATUS_LoadRefused = true ∧ t.clock.lt = c.lt) ∧
        (loadRefused s = false → t.clock.lt = s.reg64 Reg.SYS_LT_LOAD_LO ∧ t.clock.slew = 0 ∧ t.clock.rateAcc = 0) ∧
        quiet [Reg.SYS_LT_CTL, Reg.SYS_LT_STATUS] [.clock] s t) ∧
    (c.run = true →
      (2 ^ 40 ≤ acc → m.clock.slew = 0 → ∃ t, exec .rateCorrection s = .next t ∧ t = advance m ∧
        t.clock.lt = (m.clock.lt + 2) % 2 ^ 64 ∧ t.clock.rateAcc = acc - 2 ^ 40) ∧
      (acc ≤ -(2 ^ 40) → m.clock.slew = 0 → ∃ t, exec .rateCorrection s = .next t ∧ t = advance m ∧
        t.clock.lt = m.clock.lt % 2 ^ 64 ∧ t.clock.rateAcc = acc + 2 ^ 40) ∧
      (-(2 ^ 40) < acc → acc < 2 ^ 40 → m.clock.slew ≠ 0 →
        2 ^ m.fld Reg.SYS_LT_CTL F.SYS_LT_CTL_SlewLimit ≤ m.clock.slewCnt + 1 →
        ∃ t, exec .slewTick s = .next t ∧ t = advance m ∧
          t.clock.lt = (if 0 ≤ m.clock.slew.toInt then m.clock.lt + 2 else m.clock.lt) % 2 ^ 64 ∧
          t.clock.slew = (if 0 ≤ m.clock.slew.toInt then m.clock.slew - 1 else m.clock.slew + 1))) ∧
    (-(2 ^ 40) < acc → acc < 2 ^ 40 → exec .rateCorrection s = .next s) ∧
    (m.clock.slew = 0 → exec .slewTick s = .next s)

/-- For an enabled unit with IndexEnable 1 whose Z filter is full on a high level, ENCODER_INDEX answers a next
state with ENC_IDXCAP the count, Index set and its event pending, the count as it was, and with IndexLoad 1 a
load of 0 asked for; and the load at the next CONV edge makes the count and the estimate 0 with the period
history empty, as R60 says. A falling Z is accepted without an index. (R62) -/
--% def gen (i : Nat) :=
--%   let s := rdy i
--%   let e := nat i 1 32
--%   let s := s.setReg (Reg.ENC_CTL e) (word i 2 ||| 5)
--%   let x : Enc := { Enc.init with count := word i 3, est := BitVec.ofNat 40 (nat i 4 1000), hist := [5, 6], periodValid := bool i 5, z := ⟨bool i 6, false, nat i 7 20, 3⟩, loadReq := if bool i 8 then some (nat i 9 20, true) else none }
--%   K ({ s with encs := s.encs.set Enc.init e x, clock := { s.clock with tick := nat i 10 30 } }) e (nat i 9 20)
def Obligations.IndexLatchesTheCount : Prop :=
  ∀ (s : State) (e t0 : Nat), e < 32 →
    let x := s.encOf e
    let ctl := Reg.ENC_CTL e
    (s.bit ctl F.ENC_CTL_Enable = true → s.bit ctl F.ENC_CTL_IndexEnable = true →
      s.fld ctl F.ENC_CTL_FilterTicks + 1 ≤ x.z.run →
      ∃ t, exec (.encoderIndex e) s = .next t ∧ (t.encOf e).z.level = (!x.z.level) ∧ (t.encOf e).count = x.count ∧
        (x.z.level = false → t.reg (Reg.ENC_IDXCAP e) = x.count ∧
          t.bit (Reg.ENC_STATUS e) F.ENC_STATUS_Index = true ∧ t.pends (768 + e) = true ∧
          (s.bit ctl F.ENC_CTL_IndexLoad = true → (t.encOf e).loadReq = some (s.clock.tick, true))) ∧
        (x.z.level = true → t.regs = s.regs ∧ (t.encOf e).loadReq = x.loadReq) ∧
        Touches [Reg.ENC_IDXCAP e, Reg.ENC_STATUS e] [.encs] s t) ∧
    (x.loadReq = some (t0, true) → s.clock.tick % 8 = 0 → t0 < s.clock.tick →
      ∃ t, exec (.encoderLoad e) s = .next t ∧ (t.encOf e).count = 0 ∧ (t.encOf e).est = 0 ∧
        (t.encOf e).prevEst = 0 ∧ (t.encOf e).hist = [] ∧ (t.encOf e).periodValid = false ∧
        (t.encOf e).loadReq = none ∧ sameBut [.encs] s t)

/-- ENCODER_COUNT of an enabled unit: a full filter on A or on B alone moves the count by one, up along 00, 01, 11,
10 of BA and down against it, reversed by Invert, with the estimate at count × 256 and Overspeed for an interval
below 32 ticks; on both, the count and the estimate stay, ENC_ERRT takes LINETIME, the count of errors rises and
Illegal is set; on neither nothing changes. ENCODER_STOPPED sets Stopped 2^24 ticks after the last count. A due
match gives one event: ONCE clears its Enable, REPEAT advances its value by the step, with MatchLag if the
estimate is still beyond. A load sets count and estimate. Writes of ENC_CTL and ENC_PINS obey R61.
(03_cue_fabric_and_encoders.md: Encoders) -/
--% def gen (i : Nat) :=
--%   let s := rdy i
--%   let e := nat i 1 32
--%   let s := s.setReg (Reg.ENC_CTL e) (if bool i 2 then word i 2 &&& 0xFFFFFF7F else 5)
--%   let s := s.setReg (Reg.ENC_PINS e) (if bool i 40 then 0x030201 else 0x010201)
--%   let s := s.setReg (Reg.ENC_MCTL e 1) (word i 41)
--%   let s := s.setReg (Reg.ENC_MVAL_LO e 1) (BitVec.ofNat 32 (nat i 42 60))
--%   let s := s.setReg (Reg.ENC_MSTEP e 1) (if bool i 45 then 3 else -3)
--%   let s := s.setReg (Reg.ENC_ERRCNT e) (if bool i 43 then 0xFFFFFFFF else 4)
--%   let s := s.setReg (Reg.ENC_LOAD e) (word i 44)
--%   let inn (k : Nat) : EncIn := ⟨bool i (6+k), false, nat i (7 + k) 20, 8 * nat i (20+k) 100⟩
--%   let x : Enc := { Enc.init with count := word i 3, prevEst := BitVec.ofNat 40 (nat i 35 60), est := BitVec.ofNat 40 (nat i 4 60), hist := [5, 6], periodValid := bool i 5, z := inn 0, a := inn 3, b := inn 6, loadReq := if bool i 8 then some (nat i 9 20, false) else none, last := if bool i 30 then some (nat i 31 40) else none, dirDown := bool i 32, held := bool i 33, m1 := ⟨nat i 36 3, nat i 37 3, bool i 38⟩ }
--%   K ({ s with encs := s.encs.set Enc.init e x, clock := { s.clock with tick := if bool i 51 then 1000 else nat i 10 30, lt := if bool i 50 then 2^24 + nat i 52 3 else 99 } }) e 1 (nat i 9 20) (word i 53) x.a x.b
def Obligations.EncodersCountAndMatch : Prop :=
  ∀ (s : State) (e m t0 : Nat) (v : Word) (moved other : EncIn), e < 32 → m < 2 →
    let x := s.encOf e
    let ctl := Reg.ENC_CTL e
    let on := s.bit ctl F.ENC_CTL_Enable
    let need := s.fld ctl F.ENC_CTL_FilterTicks + 1
    let phase := fun (a b : Bool) => if b = true then (if a = true then 2 else 3) else if a = true then 1 else 0
    let up := fun (a b a' b' : Bool) => decide (phase a' b' = (phase a b + 1) % 4) != s.bit ctl F.ENC_CTL_Invert
    let moves := fun (i : Instr) (u a' b' : Bool) => ∃ t, exec i s = .next t ∧
      (t.encOf e).count = (if u = true then x.count + 1 else x.count - 1) ∧
      (t.encOf e).est = (t.encOf e).count.setWidth 40 <<< 8 ∧ (t.encOf e).dirDown = (!u) ∧
      (t.encOf e).stopped = false ∧ (t.encOf e).a.level = a' ∧ (t.encOf e).b.level = b' ∧
      (t.encOf e).last = some s.clock.tick ∧
      t.bit (Reg.ENC_STATUS e) F.ENC_STATUS_Overspeed =
        (s.bit (Reg.ENC_STATUS e) F.ENC_STATUS_Overspeed ||
          (x.last.map (fun l => decide (s.clock.tick < l + 32))).getD false) ∧
      Touches [Reg.ENC_STATUS e] [.encs] s t
    let mctl := Reg.ENC_MCTL e m
    let value : Nat := s.reg64 (Reg.ENC_MVAL_LO e m) % 2 ^ 40
    let next : Int := ((value : Int) + (s.reg (Reg.ENC_MSTEP e m)).toInt) % (2 ^ 40 : Int)
    let due := matchDue e m s
    let pinsOk := s.fld (Reg.ENC_PINS e) F.ENC_PINS_PinA ≠ s.fld (Reg.ENC_PINS e) F.ENC_PINS_PinB ∧
      (F.ENC_CTL_IndexEnable.get v = 1 →
        s.fld (Reg.ENC_PINS e) F.ENC_PINS_PinZ ≠ s.fld (Reg.ENC_PINS e) F.ENC_PINS_PinA ∧
        s.fld (Reg.ENC_PINS e) F.ENC_PINS_PinZ ≠ s.fld (Reg.ENC_PINS e) F.ENC_PINS_PinB)
    let refused := fun (t : State) => t.bit (Reg.ENC_STATUS e) F.ENC_STATUS_ConfigRefused = true ∧ t.pends (768 + e) = true
    (on = true → moved = x.a → other = x.b → need ≤ moved.run → other.run < need →
      moves (.encoderCount e) (up moved.level other.level (!moved.level) other.level) (!moved.level) other.level) ∧
    (on = true → moved = x.a → other = x.b → moved.run < need → need ≤ other.run →
      moves (.encoderCount e) (up moved.level other.level moved.level (!other.level)) moved.level (!other.level)) ∧
    (on = true → need ≤ x.a.run → need ≤ x.b.run → ∃ t, exec (.encoderCount e) s = .next t ∧
      (t.encOf e).count = x.count ∧ (t.encOf e).est = x.est ∧ (t.encOf e).held = true ∧ (t.encOf e).hist = [] ∧
      (t.encOf e).a.level = (!x.a.level) ∧ (t.encOf e).b.level = (!x.b.level) ∧
      t.reg (Reg.ENC_ERRT_LO e) = BitVec.ofNat 32 s.clock.lt ∧
      t.fld (Reg.ENC_ERRCNT e) F.ENC_ERRCNT_IllegalCount =
        min (2 ^ F.ENC_ERRCNT_IllegalCount.width - 1) (s.fld (Reg.ENC_ERRCNT e) F.ENC_ERRCNT_IllegalCount + 1) ∧
      t.bit (Reg.ENC_STATUS e) F.ENC_STATUS_Illegal = true ∧ t.pends (768 + e) = true) ∧
    (on = false ∨ x.a.run < need ∧ x.b.run < need → exec (.encoderCount e) s = .next s) ∧
    (on = true → x.periodValid = true → x.held = false → x.hist ≠ [] → x.hist.headD 0 + 8 * 2 ^ 24 < 8 * s.clock.lt →
      ∃ t, exec (.encoderStopped e) s = .next t ∧ t.encOf e = { x with stopped := true } ∧ sameBut [.encs] s t) ∧
    (due = true → ∃ t, exec (.encoderMatch e m) s = .next t ∧
      (s.bit mctl F.ENC_MCTL_Repeat = false → t.bit mctl F.ENC_MCTL_Enable = false ∧
        t.reg64 (Reg.ENC_MVAL_LO e m) = s.reg64 (Reg.ENC_MVAL_LO e m)) ∧
      (s.bit mctl F.ENC_MCTL_Repeat = true → (t.reg64 (Reg.ENC_MVAL_LO e m) : Int) = next ∧
        t.bit mctl F.ENC_MCTL_Enable = true ∧
        (beyond x next.toNat (s.fld mctl F.ENC_MCTL_Dir) = true →
          t.bit (Reg.ENC_STATUS e) F.ENC_STATUS_MatchLag = true)) ∧ (t.encOf e).count = x.count) ∧
    (due = false → exec (.encoderMatch e m) s = .next s) ∧
    (x.loadReq = some (t0, false) → s.clock.tick % 8 = 0 → t0 < s.clock.tick →
      ∃ t, exec (.encoderLoad e) s = .next t ∧ (t.encOf e).count = s.reg (Reg.ENC_LOAD e) ∧
        (t.encOf e).est = (s.reg (Reg.ENC_LOAD e)).setWidth 40 <<< 8 ∧ (t.encOf e).hist = [] ∧ sameBut [.encs] s t) ∧
    (∃ t, exec (.encoderCtlWrite e v) s = .next t ∧
      (F.ENC_CTL_Enable.get v = 1 → ¬ pinsOk → t.bit ctl F.ENC_CTL_Enable = false ∧ refused t) ∧
      (F.ENC_CTL_Enable.get v = 1 → pinsOk → t.bit ctl F.ENC_CTL_Enable = true ∧
        (on = false → (t.encOf e).hist = [] ∧ (t.encOf e).periodValid = false ∧ (t.encOf e).a.fresh = true ∧
          (t.encOf e).est = x.count.setWidth 40 <<< 8)) ∧
      (F.ENC_CTL_Enable.get v = 0 → t.bit ctl F.ENC_CTL_Enable = false) ∧
      (F.ENC_CTL_Load.get v = 1 → (t.encOf e).loadReq = some (s.clock.tick, false)) ∧ (t.encOf e).count = x.count ∧
      Touches [ctl, Reg.ENC_STATUS e] [.encs] s t) ∧
    (on = true → ∃ t, exec (.encoderPinsWrite e v) s = .next t ∧ refused t ∧ Touches [Reg.ENC_STATUS e] [] s t) ∧
    (on = false → ∃ t, exec (.encoderPinsWrite e v) s = .next t ∧
      t.fld (Reg.ENC_PINS e) F.ENC_PINS_PinA = F.ENC_PINS_PinA.get v ∧
      t.fld (Reg.ENC_PINS e) F.ENC_PINS_PinB = F.ENC_PINS_PinB.get v ∧
      t.fld (Reg.ENC_PINS e) F.ENC_PINS_PinZ = F.ENC_PINS_PinZ.get v ∧ quiet [Reg.ENC_PINS e] [] s t)

/-- A Start write gives the generator a start tick, the next one. In that tick, an enabled idle generator that
follows none, neither held nor without clock, begins a run with valid settings, at that tick plus Lead with the
settings of that moment; with invalid ones StartError is set. Held it sets StartBlocked; as a follower, or
running under IGNORE, StartIgnored. The first period or cycle begins at its tick and counts 1. A ONE_SHOT ends
Width ticks later at IdleLevel, with Done where enabled. Stop marks the run, Abort takes effect in the next
tick, Rearm frees a held generator unless Tripped. A change of Mode or Follow during a run is refused; Enable 0
aborts. Width and Period are stored, a bank change waits, and an entry of the active bank of a run is refused. A
trip is released once its comparators have been quiet for ReleaseTicks. (04_pulse_generators.md: Starts, Modes,
Configuration in operation, Stop and abort, Trips) -/
--% def gen (i : Nat) :=
--%   let s := rdy i
--%   let n := nat i 1 24
--%   let s := s.setReg (Reg.PG_CTL n) (word i 2 ||| (if nat i 90 4 = 0 then 0 else F.PG_CTL_Enable.put 0 1))
--%   let s := s.setReg (Reg.PG_WIDTH n) (BitVec.ofNat 32 (nat i 3 4))
--%   let s := s.setReg (Reg.PG_PERIOD n) (BitVec.ofNat 32 (nat i 4 6))
--%   let s := s.setReg (Reg.PG_LEAD n) (BitVec.ofNat 32 (nat i 5 6))
--%   let s := s.setReg (Reg.PG_COUNT n) (BitVec.ofNat 32 (nat i 6 6))
--%   let s := s.setReg (Reg.PG_CTL (n+1)) (word i 7)
--%   let s := s.setReg (Reg.PG_SEQ n 0 0) 5
--%   let s := s.setReg (Reg.PG_SEQ n 0 1) (if bool i 8 then (F.PG_SEQ_Offset.put (F.PG_SEQ_Last.put 0 1) 2) else 0)
--%   let run : PgRun := ⟨90 + nat i 92 11, nat i 10 4, 95 + nat i 11 8, nat i 3 4, nat i 4 6, nat i 6 6, 96 + nat i 12 6, nat i 13 3, bool i 14, bool i 15, bool i 16⟩
--%   let s := s.setPg n { Pg.init with run := if bool i 17 then none else some run, chain := bool i 18 && bool i 19, ended := 95 + nat i 20 9, soft := if bool i 93 then 100 else nat i 94 3 * 50, bankPend := if bool i 21 then none else some (nat i 22 2), held := nat i 23 4 = 0, idle := bool i 24, trip := { PgTrip.init with on := nat i 25 3 != 0, active := nat i 26 3 = 0, quiet := 85 + nat i 27 12, reach := 95 + nat i 28 8 } }
--%   K ({ s with clock := { s.clock with tick := 100, clockLost := nat i 30 6 = 0 } }) n (nat i 31 2) (nat i 32 32) (if bool i 33 then 0 else word i 34) run
def Obligations.PulseGenerators : Prop :=
  ∀ (s : State) (n b k : Nat) (v : Word) (r : PgRun), n < 512 → b < 2 → k < 32 →
    let x := s.pg n
    let now := s.clock.tick
    let ctl := Reg.PG_CTL n
    let fld := s.fld ctl
    let width := s.fld (Reg.PG_WIDTH n) F.PG_WIDTH_Ticks
    let period := s.fld (Reg.PG_PERIOD n) F.PG_PERIOD_Period
    let mode := fld F.PG_CTL_Mode
    let valid := if mode = 0 then 0 < width else if mode = 1 then 0 < width ∧ width < period
      else if mode = 2 then 0 < period else pgSettingsOk n 3 width period (x.bankPend.getD x.bank) s = true
    let stat := fun (t : State) (f : Fld) => t.bit (Reg.PG_STAT n) f = true ∧ t.pends (704 + n / 8) = true
    let follower := n % 8 ≠ 0 ∧ fld F.PG_CTL_Follow = 1
    let blocked := s.clock.clockLost = true ∨ x.held = true
    let only := F.PG_CMD_Start.get v = 0 ∧ F.PG_CMD_Stop.get v = 0 ∧ F.PG_CMD_Abort.get v = 0 ∧ F.PG_CMD_Rearm.get v = 0
    let u := pgWaiting n s
    let starts := fun (f : Fld) => stat u f ∧ (u.pg n).run = x.run ∧ Touches [Reg.PG_STAT n] [.pgs] s u
    let flagOnly := fun (i : Instr) (f : Fld) => ∃ t, exec i s = .next t ∧ stat t f ∧ Touches [Reg.PG_STAT n] [] s t
    let idleReg := decide (fld F.PG_CTL_IdleLevel ≠ 0)
    let tripped := s.clock.clockLost = true ∨ x.trip.on = true
    let clash := x.run ≠ none ∧ (F.PG_CTL_Mode.get v ≠ mode ∨ F.PG_CTL_Follow.get v ≠ fld F.PG_CTL_Follow)
    let released := x.trip.on = true ∧ x.trip.active = false ∧ x.trip.quiet + x.trip.rel ≤ now ∧ x.trip.reach < now
    (only → ∃ t, exec (.pgSoftwareStart n v) s = .next t ∧ t.pg n = { x with soft := now + 1 } ∧ sameBut [.pgs] s t) ∧
    (x.soft = now → now ≠ 0 → x.chain = false → (u.pg n).soft = 0 ∧
      (¬ follower → ¬ blocked → fld F.PG_CTL_Enable = 1 → x.run = none → x.ended ≠ now + 1 →
        (valid → (u.pg n).run = some (PgRun.mk now mode (now + s.fld (Reg.PG_LEAD n) F.PG_LEAD_Ticks) width period
            (s.fld (Reg.PG_COUNT n) F.PG_COUNT_Count) (now + s.fld (Reg.PG_LEAD n) F.PG_LEAD_Ticks) 0 x.idle
            false false) ∧ (u.pg n).bank = x.bankPend.getD x.bank ∧ (u.pg n).bankPend = none ∧
          u.fld (Reg.PG_DONECNT n) F.PG_DONECNT_Begun = 0) ∧
        (¬ valid → starts F.PG_STAT_StartError)) ∧
      (follower → starts F.PG_STAT_StartIgnored) ∧
      (blocked → starts F.PG_STAT_StartBlocked) ∧
      (¬ follower → ¬ blocked → fld F.PG_CTL_Enable = 0 → (u.pg n).run = x.run ∧ sameBut [.pgs] s u) ∧
      (¬ follower → ¬ blocked → fld F.PG_CTL_Enable = 1 → x.run ≠ none → fld F.PG_CTL_Retrigger = 0 →
        starts F.PG_STAT_StartIgnored)) ∧
    (only →
      (x.run = some r → ∃ t, exec (.pgStop n v) s = .next t ∧ t.pg n = { x with run := some { r with stop := true } } ∧
        sameBut [.pgs] s t) ∧
      (∃ t, exec (.pgAbort n v) s = .next t ∧ t.pg n = { x with abort := true, soft := 0 } ∧ sameBut [.pgs] s t) ∧
      (tripped → flagOnly (.pgRearm n v) F.PG_STAT_WriteRefused) ∧
      (¬ tripped → x.held = true → ∃ t, exec (.pgRearm n v) s = .next t ∧
        t.pg n = { x with held := false, idle := idleReg, rearm := now + 1 })) ∧
    (x.run = some r → r.begun = 0 → r.first = now → r.stop = false → width = r.width → period = r.period →
      x.bankPend = none → ∃ t, exec (.pgCycleStart n) s = .next t ∧
        (t.pg n).run = some { r with cyc := now, begun := 1, carry := idleReg, mute := false } ∧
        t.fld (Reg.PG_DONECNT n) F.PG_DONECNT_Begun = 1 ∧ quiet [Reg.PG_DONECNT n] [.pgs] s t) ∧
    (x.run = some r → r.mode = 0 → r.begun = 1 → r.cyc + r.width = now → x.chain = false →
      ∃ t, exec (.pgRunEnd n) s = .next t ∧ (t.pg n).run = none ∧ (t.pg n).idle = idleReg ∧
        (t.pg n).ended = now + 1 ∧ (fld F.PG_CTL_DoneEvent = 1 → stat t F.PG_STAT_Done) ∧
        Touches [Reg.PG_STAT n] [.pgs] s t) ∧
    (x.run = none → exec (.pgCycleStart n) s = .next s ∧ exec (.pgRunEnd n) s = .next s) ∧
    (∃ t, exec (.pgCtlWrite n v) s = .next t ∧ (t.pg n).run = x.run ∧
      (clash → t.fld ctl F.PG_CTL_Mode = mode ∧ t.fld ctl F.PG_CTL_Follow = fld F.PG_CTL_Follow ∧
        stat t F.PG_STAT_WriteRefused) ∧
      (¬ clash → t.fld ctl F.PG_CTL_Mode = F.PG_CTL_Mode.get v ∧ t.fld ctl F.PG_CTL_Follow = F.PG_CTL_Follow.get v) ∧
      t.fld ctl F.PG_CTL_Retrigger = (if F.PG_CTL_Retrigger.get v = 3 then 0 else F.PG_CTL_Retrigger.get v) ∧
      (F.PG_CTL_Enable.get v = 0 → x.run ≠ none → (t.pg n).abort = true) ∧
      Touches [ctl, Reg.PG_STAT n] [.pgs] s t) ∧
    (∃ t, exec (.pgShadowWrite n true v) s = .next t ∧
      t.fld (Reg.PG_WIDTH n) F.PG_WIDTH_Ticks = F.PG_WIDTH_Ticks.get v ∧ quiet [Reg.PG_WIDTH n] [] s t) ∧
    (∃ t, exec (.pgShadowWrite n false v) s = .next t ∧
      t.fld (Reg.PG_PERIOD n) F.PG_PERIOD_Period = F.PG_PERIOD_Period.get v ∧ quiet [Reg.PG_PERIOD n] [] s t) ∧
    (∃ t, exec (.pgSeqselWrite n v) s = .next t ∧
      t.pg n = { x with bankPend := some (F.PG_SEQSEL_NextBank.get v) } ∧ quiet [Reg.PG_SEQSEL n] [.pgs] s t) ∧
    (x.run ≠ none → x.bank = b → flagOnly (.pgSeqWrite n b k v) F.PG_STAT_WriteRefused) ∧
    (x.run = none ∨ x.bank ≠ b → ∃ t, exec (.pgSeqWrite n b k v) s = .next t ∧
      t.fld (Reg.PG_SEQ n b k) F.PG_SEQ_Offset = F.PG_SEQ_Offset.get v ∧
      t.fld (Reg.PG_SEQ n b k) F.PG_SEQ_Level = F.PG_SEQ_Level.get v ∧
      t.fld (Reg.PG_SEQ n b k) F.PG_SEQ_Last = F.PG_SEQ_Last.get v ∧ quiet [Reg.PG_SEQ n b k] [] s t) ∧
    (released → ∃ t, exec (.tripRelease n) s = .next t ∧ (t.pg n).trip.on = false ∧ (t.pg n).held = x.held ∧
      (x.held = false → (t.pg n).idle = idleReg)) ∧
    (¬ released → exec (.tripRelease n) s = .next s)

/-- During a calibration step a write of AT_SEL, AT_BUSDRV, AT_BQ, AT_CMPCTL or AT_CMPTH is held and nothing else
changes. Otherwise a selection the matrix allows opens each changed field at the next CONV edge and closes it
one edge later, a free bus is driven from that edge, a threshold waits 80 ticks, and a word out of range sets
WriteRefused only. A decision at a sampling edge beyond the band by over 2 mV sets the state and, without a
window, the level; inside the band by that margin it keeps the state. A due threshold applies, a due bias starts
the comparators at InitState, clips and eight codes at one rail set their flags, and an overloaded modulator
resumes. Where its condition does not hold a happening changes nothing. (05_analogue_tiles.md: Switch matrix,
Filters and amplifiers, Comparators, Power, Writes during a calibration step) -/
--% def gen (i : Nat) :=
--%   let s := rdy i
--%   let t := nat i 1 3 + 16 * nat i 2 2
--%   let k := nat i 3 4
--%   let now := 32000 + 8 * (64 + nat i 4 5) + (if nat i 5 5 = 0 then 1 else 0)
--%   let mk (j : Nat) : Cmp := { Cmp.init with range := bool i (80+j), hyst := nat i (84+j) 6, hystAt := if bool i (88+j) then 0 else now + nat i (92+j) 2, on := nat i (10+j) 4 != 0, state := bool i (14+j), level := bool i (14+j), ready := if nat i (18+j) 4 = 0 then now + 4 else 0, th := nat i (22+j) 4096, thPend := if bool i (26+j) then [] else [(now - 4 + 8 * nat i (30+j) 2, nat i (34+j) 4096)] }
--%   let x : Tile := { Tile.init with bias := nat i 40 5 != 0, biasAt := if bool i 41 then none else some (32000 - 32000 + nat i 42 700), moves := if bool i 43 then [] else [⟨nat i 44 10, now - 8, now + 8 * nat i 45 2, nat i 46 11⟩], cmp0 := mk 0, cmp1 := mk 1, cmp2 := mk 2, cmp3 := mk 3, calBusy := nat i 47 4 = 0, over0 := if bool i 48 then 0 else now - 4 + nat i 49 8, sel := word i 200, src := word i 201 }
--%   let s := s.setTile t x
--%   let s := { s with arr := { s.arr with vdda := nat i 6 6 != 0, vref := if bool i 97 then 2500000 else 2499001 } }
--%   let s := s.setReg (Reg.AT_CMPCTL t k) (if bool i 50 then word i 51 else F.AT_CMPCTL_Hyst.put 1 5)
--%   let s := s.setReg (Reg.CAL_COEF_CO t k) (word i 96)
--%   let s := s.setReg (Reg.AT_PWR t) (word i 52)
--%   let s := s.setReg (Reg.AT_BQ t) (if bool i 70 then word i 53 else (F.AT_BQ_Type.put 0 1))
--%   let s := s.setTile t { s.tile t with bq := s.reg (Reg.AT_BQ t), bqNext := none, sel := if bool i 71 then x.sel else 0x11111111 }
--%   let s := s.setReg (Reg.AT_CMPSTAT t k) (word i 54)
--%   let s := s.setBus (2 * (t / 16)) (if bool i 55 then none else some ⟨nat i 56 3, 800, if bool i 57 then none else some 850⟩)
--%   let v := if bool i 60 then 0x65432110 &&& word i 61 else if bool i 62 then BitVec.ofNat 32 (1024 + 2 * nat i 63 3 + nat i 67 2048) else word i 64
--%   K ({ s with clock := { s.clock with tick := now } }) t k (nat i 65 2) v (if bool i 72 then (sx 12 (nat i (22+k) 4096)) * 1250000 / 2048 + (nat i 66 80000 : Int) - 40000 else (nat i 66 5000000 : Int) - 2500000) (if bool i 68 then List.replicate 8 7 else if bool i 69 then List.replicate 8 (-8) else [1,2,3]) (nat i 44 10) (nat i 46 11) (if i % 3 = 0 then now - 8 else if i % 3 = 1 then nat i 42 700 else now - 4 + 8 * nat i (30+k) 2) (nat i (34+k) 4096)
def Obligations.TileInputs : Prop :=
  ∀ (s : State) (t k b : Nat) (v : Word) (uv : Int) (codes : List Int) (f c at' th : Nat), t < 128 → k < 4 → b < 2 →
    let x := s.tile t
    let now := s.clock.tick
    let edge := (now / 8 + 1) * 8
    let refused := fun (i : Instr) => ∃ t', exec i s = .next t' ∧
      t'.bit (Reg.AT_STAT t) F.AT_STAT_WriteRefused = true ∧ Touches [Reg.AT_STAT t] [] s t'
    let held := fun (i : Instr) (a : Nat) => ∃ t', exec i s = .next t' ∧
      t'.tile t = { x with calPend := x.calPend.filter (fun p => p.1 != a) ++ [(a, v)] } ∧ sameBut [.arr] s t'
    let flags := fun (i : Instr) (g : Fld) (ps : List Part) => ∃ t', exec i s = .next t' ∧
      t'.bit (Reg.AT_STAT t) g = true ∧ Touches [Reg.AT_STAT t] ps s t'
    let cmp := x.cmp k
    let ctl := s.reg (Reg.AT_CMPCTL t k)
    let div := 2 ^ F.AT_CMPCTL_SampleDiv.get ctl
    let sampling := now % 8 = 0 ∧ now / 8 % div = F.AT_CMPCTL_Phase.get ctl % div
    let decides := s.arr.vdda = true ∧ x.bias = true ∧ cmp.on = true ∧ cmp.ready ≤ now
    let u := consumerInput t (5 + k / 2) uv s
    let fs : Int := if cmp.range = true then 2 * s.arr.vref else s.arr.vref
    let mid : Int := (thCode t k cmp.th s) * fs
    let half : Int := 2048 * hystUv (hystNow t k s)
    let slack : Int := 4096 * 2000
    let windowed := k % 2 = 1 ∧ (s.bit (Reg.AT_PAIRCTL t (k / 2)) F.AT_PAIRCTL_Window = true ∨ x.win (k / 2) = true)
    let decided := fun (st : Bool) => ∃ t', exec (.comparatorDecision t k uv) s = .next t' ∧
      ((t'.tile t).cmp k).state = st ∧ (¬ windowed → ((t'.tile t).cmp k).level = st)
    let pga := s.bit (Reg.AT_PWR t) (if b = 0 then F.AT_PWR_Pga0En else F.AT_PWR_Pga1En) = true
    let out := consumerInput t b uv s * (pgaGain t b s : Int) / 100
    let clips := out < -1250000 ∨ 1250000 < out
    let modEn := s.bit (Reg.AT_PWR t) (if b = 0 then F.AT_PWR_Mod0En else F.AT_PWR_Mod1En) = true
    let beyond := uv < -1250000 ∨ 1250000 < uv
    let overAt := if b = 0 then x.over0 else x.over1
    let drives := F.AT_BUSDRV_Bus0Drive.get v = 1 ∧ F.AT_BUSDRV_Bus1Drive.get v = 0
    let bqOk' := F.AT_BQ_Div.get v ≤ 8 ∧
      (F.AT_BQ_Type.get v = 0 ∨ 256 ≤ F.AT_BQ_FreqCode.get v ∧ F.AT_BQ_FreqCode.get v ≤ 6553)
    let hyst := F.AT_CMPCTL_Hyst.get v
    (x.calBusy = true →
      held (.selectorWrite t v) (Reg.AT_SEL t) ∧ held (.busDriveWrite t v) (Reg.AT_BUSDRV t) ∧
      held (.biquadWrite t v) (Reg.AT_BQ t) ∧ held (.comparatorCtlWrite t k v) (Reg.AT_CMPCTL t k) ∧
      held (.comparatorThresholdWrite t k v) (Reg.AT_CMPTH t k)) ∧
    (x.calBusy = false →
      (selOk t v = true → ∃ t', exec (.selectorWrite t v) s = .next t' ∧ t'.reg (Reg.AT_SEL t) = v ∧
        (List.range 8).all (fun i => v.toNat / 2 ^ (4 * i) % 16 = askedCode x i ||
          decide (SelSwitch.mk i edge (edge + 8) (v.toNat / 2 ^ (4 * i) % 16) ∈ (t'.tile t).moves)) = true ∧
        (t'.tile t).sel = x.sel ∧ quiet [Reg.AT_SEL t] [.arr] s t') ∧
      (selOk t v = false → refused (.selectorWrite t v)) ∧
      (drvOk t v = true → drives → s.bus (2 * (t / 16)) = none → ∃ t', exec (.busDriveWrite t v) s = .next t' ∧
        t'.bus (2 * (t / 16)) = some (BusOwn.mk (t % 16) edge none) ∧ quiet [Reg.AT_BUSDRV t] [.arr] s t') ∧
      (drvOk t v = true → drives → busTaken t (2 * (t / 16)) s = true →
        flags (.busDriveWrite t v) F.AT_STAT_BusConflict []) ∧
      (drvOk t v = false → refused (.busDriveWrite t v)) ∧
      (bqOk' → ∃ t', exec (.biquadWrite t v) s = .next t' ∧
        t'.fld (Reg.AT_BQ t) F.AT_BQ_Type = F.AT_BQ_Type.get v ∧
        t'.fld (Reg.AT_BQ t) F.AT_BQ_FreqCode = F.AT_BQ_FreqCode.get v ∧
        (t'.tile t).bqNext.map (·.2) = some (t'.reg (Reg.AT_BQ t)) ∧
        (F.AT_BQ_Type.get v ≠ F.AT_BQ_Type.get (bqNow t s) →
          (t'.tile t).bqNext.map (·.1) = some edge ∧ (t'.tile t).bqZero = edge) ∧ quiet [Reg.AT_BQ t] [.arr] s t') ∧
      (¬ bqOk' → refused (.biquadWrite t v)) ∧
      (hyst < 6 → ∃ t', exec (.comparatorCtlWrite t k v) s = .next t' ∧
        t'.fld (Reg.AT_CMPCTL t k) F.AT_CMPCTL_Hyst = hyst ∧
        t'.fld (Reg.AT_CMPCTL t k) F.AT_CMPCTL_SampleDiv = min 12 (F.AT_CMPCTL_SampleDiv.get v) ∧
        (F.AT_CMPCTL_Enable.get v ≠ F.AT_CMPCTL_Enable.get ctl → ((t'.tile t).cmp k).initAt = edge) ∧
        quiet [Reg.AT_CMPCTL t k] [.arr] s t') ∧
      (6 ≤ hyst → refused (.comparatorCtlWrite t k v)) ∧
      (∃ t', exec (.comparatorThresholdWrite t k v) s = .next t' ∧
        t'.fld (Reg.AT_CMPTH t k) F.AT_CMPTH_Threshold = F.AT_CMPTH_Threshold.get v ∧
        (edge + 80, F.AT_CMPTH_Threshold.get v) ∈ ((t'.tile t).cmp k).thPend ∧ ((t'.tile t).cmp k).th = cmp.th ∧
        quiet [Reg.AT_CMPTH t k] [.arr] s t')) ∧
    (x.moves = [SelSwitch.mk f at' now c] → f < 10 → c < 16 → ∃ t', exec (.switchClose t) s = .next t' ∧
      (t'.tile t).moves = [] ∧ fieldOf (t'.tile t).sel (t'.tile t).src f = c) ∧
    (sampling → decides → x.calHeld ≠ some k → cmp.thPend = [] →
      (mid + half + slack < 4096 * u → decided true) ∧
      (4096 * u < mid - half - slack → decided false) ∧
      (mid - half + slack < 4096 * u → 4096 * u < mid + half - slack → decided cmp.state)) ∧
    (¬ (sampling ∧ decides) → exec (.comparatorDecision t k uv) s = .next s) ∧
    (sampling → cmp.thPend = [(at', th)] → at' ≤ now → ∃ t', exec (.thresholdSettled t k) s = .next t' ∧
      ((t'.tile t).cmp k).th = th ∧ ((t'.tile t).cmp k).thPend = [] ∧ sameBut [.arr] s t') ∧
    (∃ t', exec (.windowWrite t b v) s = .next t' ∧
      t'.fld (Reg.AT_PAIRCTL t b) F.AT_PAIRCTL_Window = F.AT_PAIRCTL_Window.get v ∧
      (t'.tile t).winAt b = now + 1 ∧ quiet [Reg.AT_PAIRCTL t b] [.arr] s t') ∧
    (x.bias = false → x.biasAt = some at' → (at' + 32000 + 7) / 8 * 8 ≤ now → ∃ t', exec (.biasReady t) s = .next t' ∧
      (t'.tile t).bias = true ∧ ((t'.tile t).cmp k).on = (F.AT_CMPCTL_Enable.get ctl = 1) ∧
      (x.calHeld ≠ some k → ((t'.tile t).cmp k).state = (F.AT_CMPCTL_InitState.get ctl = 1)) ∧ ((t'.tile t).cmp k).ready = now + 16) ∧
    (x.bias = true ∨ x.biasAt = none → exec (.biasReady t) s = .next s) ∧
    (x.bias = true → pga → clips → now % 8 = 0 →
      flags (.pgaClip t b uv) (if b = 0 then F.AT_STAT_PgaClip0 else F.AT_STAT_PgaClip1) []) ∧
    (x.bias = false ∨ ¬ pga ∨ ¬ clips ∨ now % 8 ≠ 0 → exec (.pgaClip t b uv) s = .next s) ∧
    (x.bias = true → s.bit (Reg.AT_PWR t) F.AT_PWR_BqEn = true → F.AT_BQ_Type.get (bqNow t s) ≠ 0 → beyond →
      now % (8 * 2 ^ F.AT_BQ_Div.get (bqNow t s)) = 0 → flags (.biquadClip t uv) F.AT_STAT_BqClip []) ∧
    (¬ beyond → exec (.biquadClip t uv) s = .next s) ∧
    (x.bias = true → modEn → overAt = 0 → now % 8 = 0 → codes = List.replicate 8 7 ∨ codes = List.replicate 8 (-8) →
      flags (.modulatorOverload t b codes) (if b = 0 then F.AT_STAT_ModOver0 else F.AT_STAT_ModOver1) [.arr] ∧
      ∃ t', exec (.modulatorOverload t b codes) s = .next t' ∧ (t'.tile t).over b = edge + 16) ∧
    (x.bias = false ∨ ¬ modEn ∨ now % 8 ≠ 0 → exec (.modulatorOverload t b codes) s = .next s) ∧
    (overAt ≠ 0 → overAt ≤ now → ∃ t', exec (.modulatorResume t b) s = .next t' ∧ (t'.tile t).over b = 0 ∧
      (s.regs = t'.regs) ∧ sameBut [.arr, .dce] s t') ∧
    (overAt = 0 ∨ now < overAt → exec (.modulatorResume t b) s = .next s)

/-- For every tile t under the pin (a panel's, or ALLCLR_N) that is not already clearing, with a cross-fade running:
the fall of the pin answers a next state in which the fade is over, the active bank is the fade's target bank as
before, SwapDone is set, and a pending swap request is as it was. (R122) -/
--% def gen (i : Nat) :=
--%   let s := rdy i
--%   let t := nat i 1 128
--%   let f : DacFade := ⟨nat i 2 2, 100, nat i 3 100⟩
--%   let x : Dac := { Dac.init with bank := nat i 4 2, fade := some f, swap := if bool i 5 then none else some ⟨1, 5, 9⟩, play := if bool i 6 then none else some ⟨5, 100⟩, clearing := nat i 7 4 = 0, rangePend := nat i 8 3, holdEnd := nat i 9 2 }
--%   let s := s.setReg (Reg.AT_DACCTL t) (word i 10)
--%   let s := s.setDac t x
--%   let s := setClr (t / 16) { ClrPin.init with active := nat i 11 4 = 0 } s
--%   K ({ s with clock := { s.clock with tick := 800 } }) (if bool i 12 then 8 else t / 16) t f
def Obligations.ClearEndsACrossFade : Prop :=
  ∀ (s : State) (p t : Nat) (f : DacFade), t < 128 → (p = 8 ∨ p = t / 16) →
    (s.arr.clrs.get ClrPin.init p).active = false → (s.dac t).clearing = false → (s.dac t).fade = some f →
    ∃ t', exec (.panelClear p true) s = .next t' ∧ (t'.dac t).fade = none ∧ (t'.dac t).bank = (s.dac t).bank ∧
      t'.bit (Reg.AT_DACSTAT t) F.AT_DACSTAT_SwapDone = true ∧ (t'.dac t).swap = (s.dac t).swap ∧
      (t'.dac t).clearing = true ∧ (t'.dac t).play = none

/-- A program ends 16 ticks per sample after its start; a DIRECT code and a Source take effect at the next even CONV
edge; a Source change during a program is refused, and a Range change then waits. A bank in use refuses palette
writes. A swap request replaces a pending one with SwapOverrun. A cross-fade ends at its last sample with
SwapDone. A pin's fall clears its tiles and its release ends the clear where no other source holds it. Current
limit over ShortQual + 1 CONV edges in a row sets Short and the output drives on; a mismatch beyond SupTol for
SupCount + 1 edges sets SupFault. A Handover of an armed pair waits for the next CONV edge, of another it is
refused; STANDBY drives at its tick. An uncorrectable sample word takes over from an ACTIVE tile of an armed
pair and marks a STANDBY one failed. (06_waveform_drive.md: Output, Programs and banks, Clear, Current limit and
supervision, Twin pairs; 12_on_chip_memory.md) -/
--% def gen (i : Nat) :=
--%   let s := rdy i
--%   let t := nat i 1 3
--%   let u := nat i 1 2 + 3
--%   let now := 1600 + nat i 2 2 * 8 + (if nat i 3 6 = 0 then 1 else 0)
--%   let f : DacFade := ⟨nat i 4 2, 100, nat i 5 101⟩
--%   let x : Dac := { Dac.init with bank := nat i 6 2, fade := if bool i 7 then some f else none, fadeEnd := nat i 8 3 + now - 1, swap := if bool i 9 then none else some ⟨1, 5, 9⟩, play := if bool i 10 then none else some ⟨now - 16 * (if bool i 11 then 7 else (99 - f.count)), 7⟩, clearing := bool i 12, rangePend := nat i 13 3, holdEnd := if bool i 14 then 0 else now - 1 + nat i 15 3, short := nat i 16 6, shortAt := now - 7 + 8 * nat i 70 3 - (if bool i 71 then 8 else 0), supEdge := if nat i 72 4 = 0 then now + 1 else now - 7 - nat i 73 3 / 2, onAt := if bool i 17 then 0 else now - 1 + nat i 18 3, takeLt := if bool i 19 then none else some 7, range := nat i 20 4, supRun := nat i 21 5, supCodes := List.replicate (nat i 22 20) 3, noms := List.replicate (nat i 23 48) (if bool i 24 then 307200 else 50000), supQuiet := 0, normal := bool i 25 }
--%   let x := if nat i 26 5 = 0 then { x with play := some ⟨now, 10⟩, bank := x.bank, fade := none, onAt := 0 } else x
--%   let s := s.setDac t x
--%   let s := s.setReg (Reg.AT_DACCTL t) (word i 30)
--%   let s := s.setReg (Reg.AT_DACCTL u) (if nat i 31 4 = 0 then word i 32 else s.reg (Reg.AT_DACCTL t))
--%   let s := s.setReg (Reg.AT_TWIN t) (F.AT_TWIN_TwinFailed.put (F.AT_TWIN_TwinEnable.put (F.AT_TWIN_Partner.put (word i 33) u) (if nat i 34 4 = 0 then 0 else 1)) (if nat i 35 4 = 0 then 1 else 0))
--%   let s := s.setReg (Reg.AT_TWIN u) (F.AT_TWIN_TwinFailed.put (F.AT_TWIN_TwinEnable.put (F.AT_TWIN_Partner.put (F.AT_TWIN_Role.put 0 (1 - F.AT_TWIN_Role.get (s.reg (Reg.AT_TWIN t)))) t) 1) 0)
--%   let s := s.setReg (Reg.AT_PROG t x.bank) (F.AT_PROG_SegCount.put 0 1)
--%   let s := s.setReg (Reg.AT_SLOTPOS t x.bank 0) (F.AT_SLOTPOS_Length.put 0 10)
--%   let s := if bool i 36 then s else { s with poison := s.poison.set false ((waveBase t) / 8) true }
--%   let s := s.setReg (Reg.AT_SUPCTL t) (F.AT_SUPCTL_SupTol.put (F.AT_SUPCTL_SupCount.put (F.AT_SUPCTL_ShortQual.put (F.AT_SUPCTL_SupDelay.put (word i 37) (nat i 38 10)) 3) (nat i 39 4)) (if bool i 40 then 2 else 200))
--%   let s := s.setReg (Reg.AT_PWR t) (word i 41 ||| 0xFF)
--%   let s := s.setTile t { Tile.init with bias := nat i 42 5 != 0, sel := if nat i 43 5 = 0 then 0 else F.AT_SEL_Mod1Sel.put 0 10 }
--%   let s := s.setReg (Reg.AT_DACSTAT t) (if bool i 44 then 0 else word i 45)
--%   let pin := if bool i 46 then 8 else t / 16
--%   let s := setClr pin { ClrPin.init with active := nat i 47 3 != 0, low := bool i 48, rise := now - nat i 49 40, reach := now - nat i 50 40 } s
--%   let s := { s with arr := { s.arr with vdda := bool i 51 } }
--%   K ({ s with clock := { s.clock with tick := now, clockLost := nat i 52 8 = 0 } }) t u pin (nat i 53 2) (word i 54) ((nat i 55 20 : Int)) f (x.play.getD ⟨0,0⟩) (bool i 57)
def Obligations.WaveformDrive : Prop :=
  ∀ (s : State) (t u p b : Nat) (v : Word) (code : Int) (f : DacFade) (r : DacPlay) (limited : Bool),
    t < 128 → u < 128 → b < 2 →
    let x := s.dac t
    let now := s.clock.tick
    let even := (now / 16 + 1) * 16
    let conv := (now / 8 + 1) * 8
    let flag := fun (y : Nat) (g : Fld) (t' : State) => t'.bit (Reg.AT_DACSTAT y) g = true
    let ctl := Reg.AT_DACCTL t
    let source := F.AT_DACCTL_Source.get v ≠ s.fld ctl F.AT_DACCTL_Source
    let range := F.AT_DACCTL_Range.get v ≠ s.fld ctl F.AT_DACCTL_Range
    let inUse := b = x.bank ∨ x.fade ≠ none ∨ x.fadeEnd = now + 1
    let pin := s.arr.clrs.get ClrPin.init p
    let lets := (if pin.reach ≤ (pin.rise / 8 + 2) * 8 then (pin.rise / 8 + 2) * 8 else (pin.reach / 8 + 1) * 8) ≤ now
    let limit := dacDriving t s = true ∧ limited = true
    let qual := s.fld (Reg.AT_SUPCTL t) F.AT_SUPCTL_ShortQual + 1
    let judged := now % 8 = 0 ∧ x.shortAt ≠ now + 1
    let row := if x.shortAt + 8 = now + 1 then x.short + 1 else 1
    let compared := now % 8 = 0 ∧ x.supEdge ≠ now + 1
    let given := modCode t 1 code s
    let codes := if x.supEdge + 8 = now + 1 then (given :: x.supCodes).take 16 else [given]
    let delay := s.fld (Reg.AT_SUPCTL t) F.AT_SUPCTL_SupDelay
    let diff : Int := codes.sum * 102400 - (((nominalNow t s :: x.noms).drop delay).take 16).sum
    let far := s.fld (Reg.AT_SUPCTL t) F.AT_SUPCTL_SupTol * 102400 < diff.natAbs
    let count := s.fld (Reg.AT_SUPCTL t) F.AT_SUPCTL_SupCount + 1
    let s' := s.plainWrite (Reg.AT_TWIN t) (F.AT_TWIN_Handover.put v 1)
    (x.play = some r → now = r.start + 16 * r.len → ∃ t', exec (.programEnd t) s = .next t' ∧ (t'.dac t).play = none ∧
      (t'.dac t).ended = now + 1 ∧ (t'.dac t).bank = x.bank ∧
      (t'.dac t).fade = x.fade.map (fun g => { g with count := g.count + r.len })) ∧
    (x.play = none ∨ x.play = some r ∧ now ≠ r.start + 16 * r.len → exec (.programEnd t) s = .next s) ∧
    (∃ t', exec (.dacCodeWrite t v) s = .next t' ∧
      t'.fld (Reg.AT_DACCODE t) F.AT_DACCODE_Code = F.AT_DACCODE_Code.get v ∧ t'.dac t = { x with codeAt := even } ∧
      quiet [Reg.AT_DACCODE t] [.arr] s t') ∧
    (∃ t', exec (.dacSourceWrite t v) s = .next t' ∧
      (source → x.play ≠ none → flag t F.AT_DACSTAT_DacWriteRefused t' ∧ (t'.dac t).srcAt = x.srcAt ∧
        t'.fld ctl F.AT_DACCTL_Source = s.fld ctl F.AT_DACCTL_Source) ∧
      (source → x.play = none → t'.fld ctl F.AT_DACCTL_Source = F.AT_DACCTL_Source.get v ∧ (t'.dac t).srcAt = even) ∧
      (range → x.play ≠ none → (t'.dac t).rangePend = 2) ∧
      (range → x.play = none → x.holdEnd ≠ 0 → (t'.dac t).rangePend = 1) ∧
      (range → x.play = none → x.holdEnd = 0 → (t'.dac t).rangeAt = even ∧ (t'.dac t).rangeTo = F.AT_DACCTL_Range.get v) ∧
      (t'.dac t).range = x.range ∧ (t'.dac t).prog = x.prog ∧ Touches [ctl, Reg.AT_DACSTAT t] [.arr] s t') ∧
    (x.holdEnd ≠ 0 → x.holdEnd ≤ now → x.rangePend = 0 ∨ x.rangePend = 2 ∧ x.play ≠ none → ∃ t', exec (.rangeHoldEnd t) s = .next t' ∧
      (t'.dac t).holdEnd = 0 ∧ (t'.dac t).range = x.range) ∧
    (x.holdEnd = 0 ∨ now < x.holdEnd → exec (.rangeHoldEnd t) s = .next s) ∧
    (inUse → ∃ t', exec (.paletteWrite t b 0 v) s = .next t' ∧ flag t F.AT_DACSTAT_DacWriteRefused t' ∧
      Touches [Reg.AT_DACSTAT t] [] s t') ∧
    (¬ inUse → ∃ t', exec (.paletteWrite t b 0 v) s = .next t' ∧
      t'.fld (Reg.AT_PROG t b) F.AT_PROG_SegCount = F.AT_PROG_SegCount.get v ∧
      t'.fld (Reg.AT_PROG t b) F.AT_PROG_RestCode = F.AT_PROG_RestCode.get v ∧ quiet [Reg.AT_PROG t b] [] s t') ∧
    (∃ t', exec (.swapRequest t v) s = .next t' ∧
      (t'.dac t).swap = some (DacSwap.mk (F.AT_PALCTL_Target.get v) (min 1024 (F.AT_PALCTL_Fade.get v)) now) ∧
      (x.swap ≠ none → flag t F.AT_DACSTAT_SwapOverrun t') ∧ (t'.dac t).bank = x.bank) ∧
    (x.fade = some f → x.play = some r → f.count < f.len → now = r.start + 16 * (f.len - 1 - f.count) →
      ∃ t', exec (.crossFadeEnd t) s = .next t' ∧ (t'.dac t).fade = none ∧ (t'.dac t).bank = x.bank ∧
        flag t F.AT_DACSTAT_SwapDone t' ∧ Touches [Reg.AT_DACSTAT t] [.arr] s t') ∧
    (x.fade = none → exec (.crossFadeEnd t) s = .next s) ∧
    (p = 8 ∨ p = t / 16 → pin.active = false → ∃ t', exec (.panelClear p true) s = .next t' ∧
      (t'.dac t).clearing = true ∧ (t'.arr.clrs.get ClrPin.init p).active = true ∧
      (x.clearing = false → (t'.dac t).play = none ∧ (t'.dac t).normal = false)) ∧
    (∃ t', exec (.panelClear p false) s = .next t' ∧
      t'.arr.clrs.get ClrPin.init p = { pin with low := false, rise := now } ∧ sameBut [.arr] s t') ∧
    (p = 8 ∨ p = t / 16 → pin.active = true → pin.low = false → lets → ∃ t', exec (.clearRelease p) s = .next t' ∧
      (t'.arr.clrs.get ClrPin.init p).active = false ∧
      ((s.arr.clrs.get ClrPin.init (if p = 8 then t / 16 else 8)).active = false → s.clock.clockLost = false →
        (t'.dac t).clearing = false) ∧ sameBut [.arr] s t') ∧
    (pin.active = false ∨ pin.low = true ∨ ¬ lets → exec (.clearRelease p) s = .next s) ∧
    (judged → limit → qual ≤ row → s.bit (Reg.AT_DACSTAT t) F.AT_DACSTAT_Short = false →
      ∃ t', exec (.currentLimitShort t limited) s = .next t' ∧ flag t F.AT_DACSTAT_Short t' ∧
        (twinArmed t s = false → dacDriving t t' = true)) ∧
    (judged → ¬ limit → ∃ t', exec (.currentLimitShort t limited) s = .next t' ∧
      t'.dac t = { x with short := 0, shortAt := now + 1 } ∧ sameBut [.arr] s t') ∧
    (judged → limit → row < qual → ∃ t', exec (.currentLimitShort t limited) s = .next t' ∧
      t'.dac t = { x with short := row, shortAt := now + 1 } ∧ sameBut [.arr] s t') ∧
    (¬ judged → exec (.currentLimitShort t limited) s = .next s) ∧
    (¬ compared → exec (.supervisionFault t code) s = .next s) ∧
    (compared → supActive t s = false → ∃ t', exec (.supervisionFault t code) s = .next t' ∧
      t'.dac t = { x with supCodes := codes, supEdge := now + 1, supRun := 0 } ∧ Touches [Reg.AT_STAT t] [.arr] s t') ∧
    (compared → supActive t s = true → x.supEdge + 8 = now + 1 → 15 ≤ x.supCodes.length → delay + 15 ≤ x.noms.length →
      (far → count ≤ x.supRun + 1 → s.bit (Reg.AT_DACSTAT t) F.AT_DACSTAT_SupFault = false →
        ∃ t', exec (.supervisionFault t code) s = .next t' ∧ flag t F.AT_DACSTAT_SupFault t') ∧
      (¬ far → ∃ t', exec (.supervisionFault t code) s = .next t' ∧ (t'.dac t).supRun = 0 ∧
        t'.reg (Reg.AT_DACSTAT t) = s.reg (Reg.AT_DACSTAT t))) ∧
    (x.onAt ≠ 0 → x.onAt ≤ now → ∃ t', exec (.standbyDrive t) s = .next t' ∧
      t'.dac t = { x with onAt := 0, short := 0, takeLt := none } ∧ sameBut [.arr, .logQ] s t' ∧
      t'.logQ.length = s.logQ.length + (if x.takeLt = none then 0 else 1)) ∧
    (x.onAt = 0 ∨ now < x.onAt → exec (.standbyDrive t) s = .next s) ∧
    (twinArmed t s' = false → ∃ t', exec (.handover t v) s = .next t' ∧ flag t F.AT_DACSTAT_DacWriteRefused t' ∧
      t'.dac t = { x with short := (t'.dac t).short }) ∧
    (twinArmed t s' = true → ∃ t', exec (.handover t v) s = .next t' ∧
      (t'.dac (if twinStandby t s' = true then twinPartner t s' else t)).handAt = conv ∧
      quiet [Reg.AT_TWIN t] [.arr] s t') ∧
    (s.arr.vdda = true → exec .analogueSupplyValid s = .next s) ∧
    (s.arr.vdda = false → ∃ t', exec .analogueSupplyValid s = .next t' ∧ t'.arr.vdda = true ∧ t'.dac t = x) ∧
    (samplePoison t s = [] → ∃ t', exec (.dacPortUncorrectableRead t) s = .next t' ∧ sameBut [.memt] s t') ∧
    (samplePoison t s ≠ [] → twinArmed t s = true → u = twinPartner t s →
      ∃ t', exec (.dacPortUncorrectableRead t) s = .next t' ∧ t'.bit (Reg.AT_TWIN t) F.AT_TWIN_TwinFailed = true ∧
        (twinStandby t s = true → (t'.dac t).play = x.play ∧ t'.dac u = s.dac u) ∧
        (twinStandby t s = false → t'.bit (Reg.AT_TWIN t) F.AT_TWIN_Role = true ∧
          t'.bit (Reg.AT_TWIN u) F.AT_TWIN_Role = false ∧ (t'.dac u).onAt = now + 176 ∧ (t'.dac t).offAt = now + 16 ∧
          flag t F.AT_DACSTAT_Takeover t' ∧ flag u F.AT_DACSTAT_Takeover t')) ∧
    (samplePoison t s ≠ [] → twinArmed t s = false → ∃ t', exec (.dacPortUncorrectableRead t) s = .next t' ∧
      t'.dac t = x)

/-- The output of the oldest boundary comes 96 ticks after its CONV edge with the value of R142, clipped to 24 bits,
its flags and the stamp LINETIME less 8D; where it is no record nothing more changes, where it is one it enters
the panel's buffer, or at 256 waiting it is dropped with BufOverrun. At a CONV edge a channel notes its code, 0
while its modulator is off, and an enabled one sums the last 16, a free value while one of them is not known.
Windows open and close with the delayed gate, and WindowDone reports WinSeq and the count once no record waits.
A preset above 4 is refused; Enable on a ring in no ring memory is refused; a change acts at the channel's next
slot, with the filters cleared. A threshold write waits for that slot. RdIdx is taken only up to one capacity
behind WrIdx. (07_sense_chain_and_decimation.md: Data path, Switches and settling, Fast path, Thresholds,
Records, rings and the gate) -/
--% def gen (i : Nat) :=
--%   let s := rdy i
--%   let p := nat i 1 4
--%   let c := nat i 2 32
--%   let g := 32 * p + c
--%   let now := if nat i 3 3 = 0 then 8001 else 8000
--%   let b : DceBound := ⟨988 + nat i 4 2, mix (i+5), bool i 6, bool i 7, (nat i 8 200 : Int) - 100, bool i 9, List.replicate 60 ((nat i 10 4294967296 : Int) - 2147483648), word i 11, word i 12, word i 13, nat i 14 5, nat i 15 3, bool i 58⟩
--%   let w : DceWin := ⟨nat i 15 3, 900, nat i 16 9, bool i 59⟩
--%   let x : DceCh := { DceCh.init with on := nat i 17 3 != 0, bounds := if nat i 18 4 = 0 then [] else [b], codes := List.replicate (nat i 19 20) (nat i 20 8 : Int), codeAt := if nat i 60 3 = 0 then 0 else 999 + nat i 61 3, known := if bool i 62 then 0 else 990 + nat i 63 20, gap := bool i 64, sels := if bool i 21 then [] else [(800, nat i 22 3)], open' := bool i 23, winSeq := nat i 24 3, winEdge := 950, first := bool i 25, closed := if bool i 26 then [] else [w], ctlAt := if bool i 27 then 0 else now - 1 + nat i 28 3, th0 := ⟨bool i 29, nat i 30 5, 0⟩, th1 := ⟨bool i 31, nat i 32 5, 0⟩, thf := ⟨bool i 33, 1, 0⟩, preset := nat i 34 5, ints := [1,2,3], combs := [4,5,6], sw := 980 + nat i 35 12 }
--%   let s := s.setDch g x
--%   let s := { s with dce := { s.dce with bufs := s.dce.bufs.set [] p (List.replicate (if nat i 36 3 = 0 then 256 else nat i 37 2) ⟨if bool i 38 then c else 40, [1,2], nat i 39 3, bool i 65⟩), gates := if bool i 66 then s.dce.gates else s.dce.gates.set [] (64 * p + nat i 67 3) [(900, true)] } }
--%   let s := s.setReg (Reg.DCE_CHCTL p c) (word i 40)
--%   let s := s.setReg (Reg.DCE_TH p c 0) (if bool i 55 then word i 41 else 0)
--%   let s := s.setReg (Reg.DCE_GATE p c) (if bool i 42 then 0 else word i 43)
--%   let s := s.setReg (Reg.DCE_RINGCFG p c) (F.DCE_RINGCFG_SizeLog2.put 0 10)
--%   let s := s.setReg (Reg.DCE_RINGBASE_LO p c) 0x10000
--%   let s := s.setReg (Reg.DCE_RINGBASE_LO p c + 4) (if bool i 44 then 1 else 0x55)
--%   let s := s.setReg (Reg.DCE_WRIDX p c) (BitVec.ofNat 32 (nat i 45 500))
--%   let s := s.setReg (Reg.DCE_OVRCNT p c) (if bool i 46 then 0xFFFFFFFF else 3)
--%   let s := s.setTile (g / 2) { Tile.init with bias := bool i 47, over1 := nat i 48 2, over0 := nat i 48 2 }
--%   let s := s.setReg (Reg.AT_PWR (g / 2)) (word i 49)
--%   K ({ s with clock := { s.clock with tick := now, lt := mix i } }) p c (nat i 50 3) (if bool i 51 then word i 52 else BitVec.ofNat 32 (nat i 53 700)) ((nat i 54 40 : Int) - 20) b w []
def Obligations.DecimationChannels : Prop :=
  ∀ (s : State) (p c i : Nat) (v : Word) (code : Int) (b : DceBound) (w : DceWin) (rest : List DceBound),
    p < 4 → c < 32 → i < 3 →
    let g := 32 * p + c
    let x := s.dch g
    let now := s.clock.tick
    let n := now / 8
    let ctl := Reg.DCE_CHCTL p c
    let f := firSum b.preset b.hist
    let cube := f * f / 2 ^ 31 * f / 2 ^ 31
    let lin := F.CAL_COEF_ML_Lin.get b.lin
    let off := F.CAL_COEF_MO_Offset.get b.offset
    let signed := fun (k : Nat) (q : Int) => if 2 ^ (k - 1) ≤ q then q - 2 ^ k else q
    let y := ((f + cube * signed 24 lin / 2 ^ 23) * b.gain.toInt / 2 ^ 30 + 0x80) / 2 ^ 8 + signed 24 off
    let value := max (-8388608) (min 8388607 y)
    let stamp := (b.lt + 2 ^ 64 - groupDelay b.preset) % 2 ^ 64
    let buf := s.dce.bufs.get [] p
    let gate := delayedGate p c n s
    let flag := fun (h : Fld) (t : State) => t.bit (Reg.DCE_CHSTAT p c) h = true
    let one := b2n (s.bit (Reg.AT_PWR (g / 2)) (if g % 2 = 0 then F.AT_PWR_Mod0En else F.AT_PWR_Mod1En))
    let beyond := if g % 2 = 0 then (s.tile (g / 2)).over0 else (s.tile (g / 2)).over1
    let live := (s.tile (g / 2)).bias = true ∧ one = 1 ∧ (beyond = 0 ∨ now + 16 < beyond)
    let row := x.codeAt = n ∨ x.codeAt = 0
    let taken := (if live then max (-8) (min 7 code) else 0) :: (if row then x.codes else [])
    let known := if row then x.known else n + 15
    let gives := now % 8 = 0 ∧ x.codeAt ≠ n + 1
    let sets := F.DCE_CHCTL_Enable.get v = 1 ∧ s.bit ctl F.DCE_CHCTL_Enable = false
    let size := s.fld (Reg.DCE_RINGCFG p c) F.DCE_RINGCFG_SizeLog2
    let base := s.reg64 (Reg.DCE_RINGBASE_LO p c) % 2 ^ 48
    let ringOk := inRingMemory (base - base % 2 ^ size) (2 ^ size) s = true
    let slot := 8 * (n + 1 + (c + 32 - (n + 1) % 32) % 32)
    let th := fun (t : State) => if i = 0 then (t.dch g).th0 else if i = 1 then (t.dch g).th1 else (t.dch g).thf
    let thReg := if i = 2 then Reg.DCE_THF p c else Reg.DCE_TH p c i
    let waits := x.bounds.any (fun b => b.inWin && b.win = w.seq) || buf.any (fun r => r.chan = c && r.inWin && r.win = w.seq)
    (x.bounds = b :: rest → 8 * b.edge + 96 ≤ now →
      ∃ t, exec (.dceOutput p c) s = .next t ∧ (t.dch g).bounds = rest ∧
        (t.reg (Reg.DCE_LASTVAL p c)).toNat % 2 ^ 24 = (value % 2 ^ 24).toNat ∧
        (t.reg (Reg.DCE_LASTVAL p c)).getLsbD 24 = b.settling ∧
        (t.reg (Reg.DCE_LASTVAL p c)).getLsbD 25 = decide (y ≠ value) ∧
        (t.reg (Reg.DCE_LASTVAL p c)).getLsbD 30 = x.gap ∧ (t.reg (Reg.DCE_LASTVAL p c)).getLsbD 31 = b.cal ∧
        t.reg64 (Reg.DCE_LAST_TLO p c) = stamp ∧ (y ≠ value → flag F.DCE_CHSTAT_Clipped t) ∧
        (becomesRecord p c b s = false → t.dce.bufs.get [] p = buf ∧
          t.reg (Reg.DCE_OVRCNT p c) = s.reg (Reg.DCE_OVRCNT p c)) ∧
        (becomesRecord p c b s = true → buf.length < 256 →
          (t.dce.bufs.get [] p).map (·.chan) = buf.map (·.chan) ++ [c]) ∧
        (becomesRecord p c b s = true → 256 ≤ buf.length → t.dce.bufs.get [] p = buf ∧
          t.bit (Reg.DCE_PSTAT p) F.DCE_PSTAT_BufOverrun = true ∧ (t.dch g).gap = true)) ∧
    (x.bounds = [] ∨ x.bounds = b :: rest ∧ now < 8 * b.edge + 96 → exec (.dceOutput p c) s = .next s) ∧
    (gives → x.next = none → ∃ t, exec (.fastsumUpdate p c code) s = .next t ∧
      (t.dch g).codes = taken.take 16 ∧ (t.dch g).codeAt = n + 1 ∧
      (x.on = true → known ≤ n → (t.dch g).next = some (n, (taken.take 16).sum, decide (x.sw + 17 ≤ n))) ∧
      (x.on = true → (t.dch g).next.map (fun y => (y.1, y.2.2)) = some (n, decide (x.sw + 17 ≤ n))) ∧
      (x.on = false → (t.dch g).next = none ∧ (t.dch g).bounds = x.bounds) ∧
      Touches [Reg.AT_STAT (g / 2)] [.dce, .arr, .free] s t) ∧
    (¬ gives → exec (.fastsumUpdate p c code) s = .next s) ∧
    (x.on = true → x.open' = false → gate = true → ∃ t, exec (.windowOpen p c) s = .next t ∧
      (t.dch g).open' = true ∧ (t.dch g).winSeq = (x.winSeq + 1) % 65536 ∧ (t.dch g).first = true ∧
      (t.dch g).records = 0 ∧ sameBut [.dce] s t) ∧
    (gate = false ∨ x.open' = true → exec (.windowOpen p c) s = .next s) ∧
    (x.open' = true → gate = false ∨ x.on = false → ∃ t, exec (.windowClose p c) s = .next t ∧
      (t.dch g).open' = false ∧ (t.dch g).closed = x.closed ++ [DceWin.mk x.winSeq x.winEdge x.records x.first] ∧
      sameBut [.dce] s t) ∧
    (x.open' = false → exec (.windowClose p c) s = .next s) ∧
    (x.closed = [w] → waits = false → ∃ t, exec (.windowDone p c) s = .next t ∧ (t.dch g).closed = [] ∧
      t.reg (Reg.DCE_WINLAST p c) = BitVec.ofNat 32 (w.seq + 65536 * w.records) ∧ flag F.DCE_CHSTAT_WindowDone t ∧
      Touches [Reg.DCE_WINLAST p c, Reg.DCE_CHSTAT p c] [.dce] s t) ∧
    (x.closed = [] ∨ x.closed = [w] ∧ waits = true → exec (.windowDone p c) s = .next s) ∧
    (5 ≤ F.DCE_CHCTL_Preset.get v → ∃ t, exec (.channelCtlWrite p c v) s = .next t ∧
      flag F.DCE_CHSTAT_WriteRefused t ∧ Touches [Reg.DCE_CHSTAT p c] [] s t) ∧
    (F.DCE_CHCTL_Preset.get v < 5 → ∃ t, exec (.channelCtlWrite p c v) s = .next t ∧
      t.fld ctl F.DCE_CHCTL_Preset = F.DCE_CHCTL_Preset.get v ∧
      t.fld ctl F.DCE_CHCTL_GateMode = min 2 (F.DCE_CHCTL_GateMode.get v) ∧
      (sets → ¬ ringOk → t.bit ctl F.DCE_CHCTL_Enable = false ∧ flag F.DCE_CHSTAT_ConfigRefused t) ∧
      (¬ (sets ∧ ¬ ringOk) → t.fld ctl F.DCE_CHCTL_Enable = F.DCE_CHCTL_Enable.get v) ∧
      (sets → ringOk → x.ctlAt = 0 → (t.dch g).ctlAt = slot) ∧
      (F.DCE_CHCTL_Restart.get v = 1 → x.ctlAt = 0 → (t.dch g).ctlAt = slot) ∧
      Touches [ctl, Reg.DCE_CHSTAT p c] [.dce] s t) ∧
    (x.ctlAt ≠ 0 → x.ctlAt ≤ now → ∃ t, exec (.channelRestart p c) s = .next t ∧ (t.dch g).ctlAt = 0 ∧
      (t.dch g).on = s.bit ctl F.DCE_CHCTL_Enable ∧
      (s.bit ctl F.DCE_CHCTL_Enable = true → (t.dch g).hist = [] ∧ (t.dch g).ints.all (· = 0) = true ∧
        (t.dch g).combs.all (· = 0) = true ∧ (t.dch g).sw = n ∧ (t.dch g).start = n ∧ (t.dch g).bounds = [] ∧
        (t.dch g).preset = s.fld ctl F.DCE_CHCTL_Preset) ∧
      (s.bit ctl F.DCE_CHCTL_Enable = false → (t.dch g).bounds = [] ∧ (t.dch g).fastOk = false ∧
        (t.dch g).th0.state = false ∧ (t.dch g).thf.state = false) ∧ sameBut [.dce] s t) ∧
    (x.ctlAt = 0 ∨ now < x.ctlAt → exec (.channelRestart p c) s = .next s) ∧
    (∃ t, exec (.dceThresholdWrite p c i v) s = .next t ∧ (th t).clrAt = slot ∧
      (v.getLsbD (if i = 2 then 13 else 29) = false → (th t).state = false) ∧ (th t).run = (th s).run ∧ quiet [thReg] [.dce] s t) ∧
    (ringHeld (s.reg (Reg.DCE_WRIDX p c)).toNat v.toNat ≤ dceCap p c s →
      ∃ t, exec (.rdidxWrite p c v) s = .next t ∧ t.reg (Reg.DCE_RDIDX p c) = v ∧ quiet [Reg.DCE_RDIDX p c] [] s t) ∧
    (dceCap p c s < ringHeld (s.reg (Reg.DCE_WRIDX p c)).toNat v.toNat →
      ∃ t, exec (.rdidxWrite p c v) s = .next t ∧ flag F.DCE_CHSTAT_WriteRefused t ∧
        Touches [Reg.DCE_CHSTAT p c] [] s t)

/-- At a pulse start of the latch generator an enabled port counts the cycle, fires what was shifted and plans the
next shift ShiftDelay later; a shift still due sets ShiftOverrun. A shift start with no entry posted is an empty
cycle of zeros; with a buffered block it shifts that block, without one zeros with Underrun, and Cycle advances;
the shift's end after the last cycle passes the entry. Ready words are read once per 1,600 ticks and the next
block of a ready band is fetched. Enable clears the port's cycle state, a profile write on an enabled port or
out of range is refused, a push beyond 128 entries is dropped. The map takes an entry by the order of R176,
forgets by Unretire, Dead and age, a critical set is freed at its expiry, and PlanRd moves at most one capacity.
AuxPin reaching its active level opens a supervision fault span, leaving it ends the span; each Enable 1
restarts the audit sweep. (08_head_ports_audit_and_proof.md: Head profile, Band rings, Line buffer, Audit
scheduler, Nozzle map, Critical sets, Registers) -/
--% def gen (i : Nat) :=
--%   let s := rdy i
--%   let h := nat i 1 32
--%   let now := 8000
--%   let pg := 16 * h + nat i 2 16
--%   let s := s.setReg (Reg.HD_CTL h) (F.HD_CTL_AuxEnable.put (F.HD_CTL_LatchPg.put (word i 3 ||| (if nat i 4 4 = 0 then 0 else F.HD_CTL_Enable.put 0 1)) (pg % 16)) 0)
--%   let s := if bool i 60 then s.setFld (Reg.HD_CTL h) F.HD_CTL_Source 0 else s
--%   let s := s.setReg (Reg.HD_PROF0 h) (word i 5 &&& 0xFFFF)
--%   let s := s.setReg (Reg.HD_PROF1 h) (F.HD_PROF1_Nozzles.put (word i 6) 64)
--%   let s := s.setReg (Reg.HD_PROF2 h) (if bool i 7 then 0 else word i 8)
--%   let s := s.setPg pg { Pg.init with run := if nat i 9 4 = 0 then none else some ⟨now, 0, now, 5, 9, 1, now, 1, false, false, false⟩ }
--%   let ring := 0x100010000
--%   let s := s.setReg (Reg.HD_BANDBASE_LO h) 0x10000
--%   let s := s.setReg (Reg.HD_BANDBASE_LO h + 4) 1
--%   let s := s.setReg (Reg.HD_NEXTSEQ h) 5
--%   let b : HBand := ⟨5, 77, 3, false, bool i 11, false, 0x100020000, 0, 0⟩
--%   let s := if bool i 12 then s.store (ring + 64 * 5) ([5,77,(3 + (if b.service then 2^17 else 0)), (if bool i 13 then 5 else 4), 0x20000, 1, 0,0,0,0].flatMap fun (w : Nat) => leBytes 4 w) else s
--%   let line : HLine := ⟨5, nat i 14 3, List.replicate (blockBytes h s) 0x11, bool i 15⟩
--%   let set : HSet := ⟨77, 5, 6, 90 + nat i 16 20, 3, 7⟩
--%   let cyc : HCycle := HCycle.mk false 77 true 5 false false [1] 3 []
--%   let x : Head := { Head.init with cur := if bool i 17 then none else some b, shifted := if bool i 18 then none else some cyc, shiftAt := if nat i 19 3 = 0 then none else some now, shiftEnd := if bool i 20 then none else some (now - 1 + nat i 21 3), edge := if nat i 22 4 = 0 then now + 1 else 3, prio0 := List.replicate (if bool i 23 then 128 else 3) 4, prio1 := [], lines := if bool i 24 then [] else [line], ready := if bool i 25 then [] else [5], poll := now - 1 + nat i 26 3, sets := if bool i 27 then [] else [set], aux := bool i 28 }
--%   let s := s.setHead h x
--%   let s := s.setReg (Reg.HD_BANDPOS h) (F.HD_BANDPOS_Cycle.put 0 (nat i 29 4))
--%   let n := if bool i 30 then nat i 31 64 else nat i 32 100
--%   let s := s.setReg (Reg.HD_NMAP h n) (F.HD_NMAP_Class.put (word i 33) (nat i 34 7))
--%   let s := s.setReg (Reg.HD_PLANWR h) (BitVec.ofNat 32 (nat i 35 200))
--%   let s := s.setReg (Reg.HD_PLANCFG h) (F.HD_PLANCFG_SizeLog2.put 0 10)
--%   let v := if bool i 40 then word i 41 else if bool i 42 then BitVec.ofNat 32 (nat i 43 200) else F.HD_NMAP_Class.put (word i 44) (nat i 45 9)
--%   let v := if bool i 62 then F.HD_NMAPCMD_Nozzle.put v n else v
--%   K ({ s with clock := { s.clock with tick := now, lt := if bool i 36 then 100 else 2^39 + nat i 37 100 } }) h (nat i 38 2) n (nat i 39 3) 77 v b line (bool i 61)
def Obligations.HeadPorts : Prop :=
  ∀ (s : State) (h i n k tag : Nat) (v : Word) (b : HBand) (line : HLine) (ue : Bool),
    h < 32 → i < 2 → n < 4096 → k < 3 →
    let x := s.head h
    let now := s.clock.tick
    let ctl := Reg.HD_CTL h
    let on := s.bit ctl F.HD_CTL_Enable = true
    let flag := fun (f : Fld) (t : State) => t.bit (Reg.HD_STAT h) f = true
    let pulse := pgPulseStarts (16 * h + s.fld ctl F.HD_CTL_LatchPg) s = true
    let stat := [Reg.HD_STAT h]
    let pos := s.fld (Reg.HD_BANDPOS h) F.HD_BANDPOS_Cycle
    let seq := (s.reg (Reg.HD_NEXTSEQ h)).toNat
    let direct := s.bit ctl F.HD_CTL_Source = false
    let noAudit := s.fld (Reg.HD_PROF2 h) F.HD_PROF2_SenseChannels = 0
    let next := x.lines.find? (fun l => l.seq = b.seq && l.cycle = pos)
    let pol := s.bit ctl F.HD_CTL_AuxPolarity
    let auxOn := s.bit ctl F.HD_CTL_AuxEnable = true ∧ s.bit ctl F.HD_CTL_LedgerReport = true ∧
      ownedInput (s.fld ctl F.HD_CTL_AuxPin) 3 h (!pol) s = pol
    let aboutSpan := fun (q : HSpan) => (q.flag, q.src, q.start, q.ends)
    let ends := some (now + shiftTicks h s)
    let prio := if i = 0 then x.prio0 else x.prio1
    let cls := F.HD_NMAP_Class.get v
    let old := F.HD_NMAP_Class.get (s.reg (Reg.HD_NMAP h n))
    let newer := (BitVec.ofNat 24 (F.HD_NMAP_Stamp.get v) - BitVec.ofNat 24 (F.HD_NMAP_Stamp.get (s.reg (Reg.HD_NMAP h n)))).toInt
    let inMap := n < s.fld (Reg.HD_PROF1 h) F.HD_PROF1_Nozzles
    let refuses := fun (i : Instr) (f : Fld) => ∃ t, exec i s = .next t ∧ flag f t ∧ Touches stat [] s t
    let accepts := fun (i : Instr) (w : Word) => ∃ t, exec i s = .next t ∧ t.reg (Reg.HD_NMAP h n) = w
    let forgot := F.HD_NMAP_Class.put (s.reg (Reg.HD_NMAP h n)) 0
    let cap := 2 ^ s.fld (Reg.HD_PLANCFG h) F.HD_PLANCFG_SizeLog2 / 16
    let w := if k = 0 ∧ F.HD_PROF0_Lanes.get v = 3 then F.HD_PROF0_Lanes.put v 2
      else if k = 2 ∧ F.HD_PROF2_SenseChannels.get v = 3 then F.HD_PROF2_SenseChannels.put v 2 else v
    let s' := s.plainWrite (Reg.HD_PROF0 h + 4 * k) w
    let nozzles := s'.fld (Reg.HD_PROF1 h) F.HD_PROF1_Nozzles
    let fits := nozzles % 2 = 0 ∧ 2 ≤ nozzles ∧ nozzles ≤ 4096 ∧
      nozzles % 2 ^ s'.fld (Reg.HD_PROF0 h) F.HD_PROF0_Lanes = 0
    (on → pulse → x.edge ≠ now + 1 → x.shiftEnd = none → x.shifted.all (fun c => c.audits = []) = true →
      ∃ t, exec (.latchTimingEdge h) s = .next t ∧ t.reg (Reg.HD_CYCLES h) = s.reg (Reg.HD_CYCLES h) + 1 ∧
        (t.head h).fired = x.shifted ∧ (t.head h).shifted = none ∧
        (t.head h).shiftAt = some (now + s.fld (Reg.HD_PROF1 h) F.HD_PROF1_ShiftDelay) ∧
        (t.head h).edge = now + 1 ∧ (x.shiftAt ≠ none → flag F.HD_STAT_ShiftOverrun t)) ∧
    (¬ on ∨ ¬ pulse ∨ x.edge = now + 1 → exec (.latchTimingEdge h) s = .next s) ∧
    (on → x.shiftAt = some now → x.cur = none → readEntry h seq s = .absent →
      ∃ t, exec (.shiftStart ⟨h, false⟩) s = .next t ∧ flag F.HD_STAT_EmptyCycle t ∧ (t.head h).cur = none ∧
        (t.head h).shifted.map (fun c => (c.blank, c.block, c.field)) = some (true, [], 0) ∧
        (t.head h).shiftAt = none ∧ (t.head h).shiftEnd = ends) ∧
    (on → x.shiftAt = some now → x.cur = some b → direct → noAudit → b.critical = false →
      ∃ t, exec (.shiftStart ⟨h, false⟩) s = .next t ∧ (t.head h).cur = some b ∧ (t.head h).shiftEnd = ends ∧
        t.fld (Reg.HD_BANDPOS h) F.HD_BANDPOS_Cycle = (pos + 1) % 2 ^ F.HD_BANDPOS_Cycle.width ∧
        (next = some line → line.ok = true → (t.head h).shifted.map (fun c => (c.blank, c.tag, c.under, c.block)) =
          some (false, b.tag, false, line.block)) ∧
        (next = none → flag F.HD_STAT_Underrun t ∧
          (t.head h).shifted.map (fun c => (c.blank, c.tag, c.under, c.block)) = some (false, b.tag, true, []))) ∧
    (¬ on ∨ x.shiftAt ≠ some now → exec (.shiftStart ⟨h, ue⟩) s = .next s) ∧
    (x.shiftEnd.any (fun e => e ≤ now) = true → x.cur = some b →
      ∃ t, exec (.shiftEnd h) s = .next t ∧ (t.head h).shiftEnd = none ∧ (t.head h).shifted = x.shifted ∧
        (b.cycles ≤ pos → (t.head h).cur = none ∧ (t.reg (Reg.HD_NEXTSEQ h)).toNat = (seq + 1) % 2 ^ 32) ∧
        (pos < b.cycles → (t.head h).cur = some b ∧ t.regs = s.regs)) ∧
    (x.shiftEnd.any (fun e => e ≤ now) = false → exec (.shiftEnd h) s = .next s) ∧
    (on → x.poll ≤ now → ∃ t, exec (.readyPoll ⟨h, false⟩) s = .next t ∧ (t.head h).poll = now + 1600 ∧
      x.ready.all (fun q => decide (q ∈ (t.head h).ready)) = true ∧
      (x.cur = some b → portReads (entryAddr h b.seq s + 12) s = true → s.poisoned (entryAddr h b.seq s + 12) = false →
        (s.word (entryAddr h b.seq s + 12)).toNat = b.seq → b.seq ∈ (t.head h).ready)) ∧
    (¬ on ∨ now < x.poll → exec (.readyPoll ⟨h, ue⟩) s = .next s) ∧
    (on → direct → nextBlock h s = some (b, n) → frozenIn (b.base + n * blockBytes h s) (blockBytes h s) s = false →
      ∃ t, exec (.blockFetch ⟨h, false⟩) s = .next t ∧
      (t.head h).lines.dropLast = x.lines ∧
      (t.head h).lines.getLast?.map (fun l => (l.seq, l.cycle, l.block)) =
        some (b.seq, n, s.bytes (b.base + n * blockBytes h s) (blockBytes h s))) ∧
    (¬ on ∨ ¬ direct ∨ nextBlock h s = none → exec (.blockFetch ⟨h, ue⟩) s = .next s) ∧
    (∃ t, exec (.portEnableWrite h v) s = .next t ∧
      t.fld ctl F.HD_CTL_Enable = F.HD_CTL_Enable.get v ∧ t.fld ctl F.HD_CTL_LatchPg = F.HD_CTL_LatchPg.get v ∧
      (F.HD_CTL_Enable.get v = 1 → (t.head h).vis0 = 0 ∧ (t.head h).vis1 = 0 ∧
        t.fld (Reg.HD_SWEEP h i) F.HD_SWEEP_Pointer = (setShape h i s).1 % 2 ^ F.HD_SWEEP_Pointer.width) ∧
      (¬ on → F.HD_CTL_Enable.get v = 1 → t.reg (Reg.HD_CYCLES h) = 0 ∧ (t.head h).cur = none ∧
        (t.head h).lines = [] ∧ (t.head h).poll = now) ∧
      (on → F.HD_CTL_Enable.get v = 0 → (t.head h).cur = none ∧ (t.head h).shifted = none ∧
        (t.head h).shiftAt = none ∧ (t.head h).lines = [] ∧ t.fld (Reg.HD_BANDPOS h) F.HD_BANDPOS_Cycle = 0)) ∧
    (on ∨ ¬ fits → refuses (.profileWrite h k v) F.HD_STAT_ProfileRefused) ∧
    (¬ on → fits → ∃ t, exec (.profileWrite h k v) s = .next t ∧ t = s' ∧ quiet [Reg.HD_PROF0 h + 4 * k] [] s t) ∧
    (128 ≤ prio.length → refuses (.prioPush h i v) F.HD_STAT_PrioOverrun) ∧
    (prio.length < 128 → ∃ t, exec (.prioPush h i v) s = .next t ∧
      (if i = 0 then (t.head h).prio0 else (t.head h).prio1) = prio ++ [v.toNat % 4096] ∧ sameBut [.heads] s t) ∧
    (∃ t, exec (.senseDeadWrite h i v) s = .next t ∧
      t.fld (Reg.HD_SENSE h i) F.HD_SENSE_Dead = F.HD_SENSE_Dead.get v ∧
      (F.HD_SENSE_Dead.get v = 1 → n ∈ setMembers h i s → old ≠ 6 → t.reg (Reg.HD_NMAP h n) = forgot) ∧
      (F.HD_SENSE_Dead.get v = 0 ∨ n ∉ setMembers h i s ∨ old = 6 → t.reg (Reg.HD_NMAP h n) = s.reg (Reg.HD_NMAP h n))) ∧
    (¬ inMap → exec (.nozzleMapWrite h n v) s = .next s) ∧
    (inMap → 7 ≤ cls ∨ old = 6 ∧ cls ≠ 6 → refuses (.nozzleMapWrite h n v) F.HD_STAT_NmapRefused) ∧
    (inMap → cls = 6 ∨ cls < 6 ∧ old ≠ 6 ∧ 0 ≤ newer → accepts (.nozzleMapWrite h n v) v) ∧
    (inMap → cls < 6 → old ≠ 6 → newer < 0 → refuses (.nozzleMapWrite h n v) F.HD_STAT_NmapStale) ∧
    (n = F.HD_NMAPCMD_Nozzle.get v → inMap → old = 6 → accepts (.unretire h v) forgot) ∧
    (n = F.HD_NMAPCMD_Nozzle.get v → ¬ inMap ∨ old ≠ 6 → exec (.unretire h v) s = .next s) ∧
    (regsWf s.regs = true → old ≠ 0 → old ≠ 6 → 2 ^ 23 <
        (s.clock.lt / 65536 % 2 ^ 24 + 2 ^ 24 - F.HD_NMAP_Stamp.get (s.reg (Reg.HD_NMAP h n))) % 2 ^ 24 →
      accepts (.nozzleMapWalk h) forgot) ∧
    (regsWf s.regs = true → old = 0 ∨ old = 6 → accepts (.nozzleMapWalk h) (s.reg (Reg.HD_NMAP h n))) ∧
    (x.sets.any (fun c => c.tag = tag && decide (c.expiry ≤ s.clock.lt)) = true →
      ∃ t, exec (.criticalSetExpiry h tag) s = .next t ∧ (t.head h).sets = x.sets.filter (fun c => c.tag != tag)) ∧
    (x.sets.any (fun c => c.tag = tag && decide (c.expiry ≤ s.clock.lt)) = false →
      exec (.criticalSetExpiry h tag) s = .next s) ∧
    (∃ t, exec (.auxPinChange h) s = .next t ∧ ((t.head h).aux = true ↔ auxOn) ∧
      (auxOn → x.aux = false → (t.head h).spans.map aboutSpan = x.spans.map aboutSpan ++ [(5, 1000, s.clock.lt, none)]) ∧
      (¬ auxOn → x.aux = true → (t.head h).spans = x.spans.filter (fun q => q.src != 1000)) ∧
      ((auxOn ↔ x.aux = true) → t = s)) ∧
    (ringHeld (s.reg (Reg.HD_PLANWR h)).toNat v.toNat ≤ cap → ∃ t, exec (.planrdWrite h v) s = .next t ∧
      t.reg (Reg.HD_PLANRD h) = v ∧ quiet [Reg.HD_PLANRD h] [] s t) ∧
    (cap < ringHeld (s.reg (Reg.HD_PLANWR h)).toNat v.toNat → exec (.planrdWrite h v) s = .next s)

/-- An open record closes when the estimate crosses P0 + CloseOfs upward; one ENG cycle later its verdict is FAILED
if an enabled check's failing flag is set, else DOUBTFUL if an enabled doubting flag is, else PROVEN; at the
crossing of P0 + RejectOfs it is free. Before these crossings nothing changes. A pending reject whose lead is
reached asks to arm (the request is judged at the end of its tick: accepted, the reject is gone; refused, it
stays and asks again 1,600 ticks later) and, no request of it waiting, is dropped with RejectRefused once the
estimate has reached it. RAISE_FAIL and RAISE_DOUBT set the record's flag while it counts, later LateFlag;
SET_HORIZON and LEDGER_READ act on the record of PL_CMDTAG, and without one a read gives 0. Enable 1 needs the
conditions of R179, Enable 0 an empty Ledger; RingRd moves at most one capacity.
(08_head_ports_audit_and_proof.md: Proof Ledger, Verdict, Rejects, Proof Ledger registers; 00_scope.md) -/
--% def gen (i : Nat) :=
--%   let s := rdy i
--%   let now := 1001
--%   let e := nat i 1 32
--%   let r : PRec := { PRec.mk 77 9 2 (100 + nat i 2 60) 5 (bool i 3) (if bool i 4 then 0 else 900 + nat i 5 102) 0 0 (nat i 6 3) 0 0 0 0 with flags := nat i 7 4096, closed := bool i 3, closeTick := 995 + nat i 8 7, verdict := nat i 9 3 }
--%   let x : PReject := ⟨77, 100 + nat i 10 60, if bool i 11 then none else some (now - 1 + nat i 12 3)⟩
--%   let s := s.setRecs (if nat i 13 4 = 0 then [] else [r])
--%   let s := s.setRejects (if nat i 14 4 = 0 then [] else [x])
--%   let s := s.setReg Reg.PL_CTL (F.PL_CTL_Encoder.put (word i 15) e)
--%   let s := s.setReg Reg.PL_CLOSEOFS_LO 10
--%   let s := s.setReg Reg.PL_REJOFS_LO (if bool i 16 then 40 else 5)
--%   let s := s.setReg Reg.PL_REJLEAD (BitVec.ofNat 32 (nat i 17 20))
--%   let s := s.setReg Reg.PL_CHECKS (word i 18)
--%   let s := s.setReg Reg.PL_RINGCFG (F.PL_RINGCFG_SizeLog2.put (word i 19) 10)
--%   let s := s.setReg Reg.PL_RINGBASE_LO 0x10000
--%   let s := s.setReg (Reg.PL_RINGBASE_LO + 4) (if nat i 20 4 = 0 then 0 else 1)
--%   let s := s.setReg Reg.PL_RINGWR (BitVec.ofNat 32 (nat i 21 40))
--%   let s := s.setReg Reg.PL_REJTGT (F.PL_REJTGT_Target.put 0 650)
--%   let s := s.setReg (Reg.CQ_TCTL 650) (if bool i 22 then 0 else F.CQ_TCTL_Mode.put 0 2)
--%   let v := F.PL_CTL_Encoder.put (if bool i 23 then word i 24 else BitVec.ofNat 32 (nat i 25 60)) e
--%   let s := s.setReg (Reg.CQ_CAPCTL (F.PL_CTL_DetectCap.get v)) (F.CQ_CAPCTL_Encoder.put (F.CQ_CAPCTL_PosEnable.put 0 (if nat i 26 4 = 0 then 0 else 1)) e)
--%   let s := (s.setPreg .host Reg.PL_CMDTAG 77).setPreg .host Reg.PL_CMDARG (word i 27)
--%   let pe := 100 + nat i 28 120
--%   let s := { s with encs := s.encs.set Enc.init e { Enc.init with prevEst := BitVec.ofNat 40 pe, est := BitVec.ofNat 40 (pe + nat i 29 20) } }
--%   let s := if nat i 30 4 = 0 then askArm (.reject (if bool i 31 then 77 else 78)) 650 (Arm.mk true 5 1 0 0 0 1) s else s
--%   K ({ s with clock := { s.clock with tick := now, lt := 5000 } }) 77 v .host r x
def Obligations.ProofLedger : Prop :=
  ∀ (s : State) (tag : Nat) (v : Word) (req : Req) (r : PRec) (x : PReject),
    let now := s.clock.tick
    let enc := s.encOf (s.fld Reg.PL_CTL F.PL_CTL_Encoder)
    let offset := fun (a : Nat) => let o : Nat := s.reg64 a % 2 ^ 40; if o < 2 ^ 39 then (o : Int) else (o : Int) - 2 ^ 40
    let at' := fun (p : Nat) (o : Int) => BitVec.ofInt 40 ((p : Int) + o)
    let crosses := fun (a : Nat) => (enc.prevEst - at' r.p0 (offset a)).toInt < 0 ∧ 0 ≤ (enc.est - at' r.p0 (offset a)).toInt
    let reached := fun (o : Int) => 0 ≤ (enc.est - at' x.pos o).toInt
    let check := fun (k : Nat) => (s.fld Reg.PL_CHECKS F.PL_CHECKS_Enable).testBit k = true
    let has := fun (k : Nat) => r.flags.testBit k = true
    let failed := check 0 ∧ has 0 ∨ check 1 ∧ (has 2 ∨ has 3) ∨ check 2 ∧ (has 4 ∨ has 5) ∨ check 3 ∧ has 6 ∨ check 4 ∧ has 8
    let doubtful := check 3 ∧ has 7 ∨ check 4 ∧ has 9
    let found := s.ledger.recs.find? (fun r => r.tag = tag) = some r
    let none' := s.ledger.recs.find? (fun r => r.tag = tag) = none
    let after := fun (t : State) => t.ledger.recs.find? (fun r => r.tag = tag)
    let rejects := s.ledger.rejects.find? (fun y => y.tag = tag) = some x
    let rejAfter := fun (t : State) => t.ledger.rejects.find? (fun y => y.tag = tag)
    let status := fun (f : Fld) (t : State) => t.bit Reg.PL_STATUS f = true ∧ t.pends 1022 = true
    let tgt := F.PL_REJTGT_Target.get (s.reg Reg.PL_REJTGT)
    let shut := F.CQ_TCTL_Mode.get (actingCfg tgt s).2 ≠ 2
    let action := if 640 ≤ tgt ∧ tgt < 896 then F.PL_REJTGT_Action.get (s.reg Reg.PL_REJTGT) else 0
    let ask := ArmAsk.mk (.reject tag) tgt (Arm.mk true x.pos (s.fld Reg.PL_CTL F.PL_CTL_Encoder) 0
      (s.fld Reg.PL_REJDLY F.PL_REJDLY_Delay) action 1)
    let answer := (armTarget tgt ask.arm s).1.1
    let asksToArm := fun (i : Instr) => ∃ t, exec i s = .next t ∧ t.asks.arms = s.asks.arms ++ [ask] ∧
      rejAfter t = some { x with next := some (now + 1600) } ∧ sameBut [.ledger, .asks] s t
    let asked := s.asks.arms.any (fun a => a.who == .reject tag) = true
    let cmdTag := (s.preg req Reg.PL_CMDTAG).toNat = tag
    let counts := r.closed = false ∨ r.verdict = 0 ∧ r.closeTick / 2 = now / 2
    let raises := fun (i : Instr) (k : Nat) =>
      (cmdTag → found → counts → ∃ t, exec i s = .next t ∧
        (after t).map (·.flags) = some (if has k then r.flags else r.flags + 2 ^ k) ∧ sameBut [.ledger] s t) ∧
      (cmdTag → found → ¬ counts → ∃ t, exec i s = .next t ∧ after t = some r ∧ status F.PL_STATUS_LateFlag t) ∧
      (cmdTag → none' → exec i s = .next s)
    let cap := s.reg (Reg.CQ_CAPCTL (F.PL_CTL_DetectCap.get v))
    let size := s.fld Reg.PL_RINGCFG F.PL_RINGCFG_SizeLog2
    let base := s.reg64 Reg.PL_RINGBASE_LO % 2 ^ 48
    let good := F.CQ_CAPCTL_PosEnable.get cap = 1 ∧ F.CQ_CAPCTL_Encoder.get cap = F.PL_CTL_Encoder.get v ∧
      0 < offset Reg.PL_CLOSEOFS_LO ∧
      offset Reg.PL_CLOSEOFS_LO < offset Reg.PL_REJOFS_LO - ((s.reg Reg.PL_REJLEAD).toNat : Int) ∧
      inRingMemory (base - base % 2 ^ size) (2 ^ size) s = true
    let on := s.bit Reg.PL_CTL F.PL_CTL_Enable = true
    (found → r.closed = false → crosses Reg.PL_CLOSEOFS_LO → ∃ t, exec (.recordClose tag) s = .next t ∧
      (after t).map (fun y => (y.closed, y.closeTick, y.closeLt, y.verdict)) = some (true, now, s.clock.lt, r.verdict)) ∧
    (found → r.closed = false → ¬ crosses Reg.PL_CLOSEOFS_LO → exec (.recordClose tag) s = .next s) ∧
    (found → r.closed = true → r.verdict = 0 → r.closeTick / 2 < now / 2 →
      ∃ t, exec (.recordClose tag) s = .next t ∧
        (after t).map (·.verdict) = some (if failed then 3 else if doubtful then 2 else 1) ∧
        (¬ failed → ¬ doubtful → t.ledger.rejects = s.ledger.rejects)) ∧
    (none' → exec (.recordClose tag) s = .next s ∧ exec (.recordFree tag) s = .next s) ∧
    (found → crosses Reg.PL_REJOFS_LO → ∃ t, exec (.recordFree tag) s = .next t ∧ after t = none) ∧
    (found → ¬ crosses Reg.PL_REJOFS_LO → exec (.recordFree tag) s = .next s) ∧
    (rejects → x.next = none → reached (-((s.reg Reg.PL_REJLEAD).toNat : Int)) → asksToArm (.rejectArm tag)) ∧
    (rejects → shut → rejAfter (applyArm ask s) = some x ∧
      (applyArm ask s).bit (Reg.CQ_TSTAT tgt) F.CQ_TSTAT_ArmRefused = true) ∧
    (rejects → answer ≠ 1 → rejAfter (applyArm ask s) = none ∧
      (answer = 0 ∨ status F.PL_STATUS_RejectLate (applyArm ask s))) ∧
    (rejects → ¬ reached (-((s.reg Reg.PL_REJLEAD).toNat : Int)) ∨ x.next ≠ none → exec (.rejectArm tag) s = .next s) ∧
    (rejects → x.next ≠ none → ¬ asked → reached 0 → ∃ t, exec (.rejectArmRetry tag) s = .next t ∧ rejAfter t = none ∧
      status F.PL_STATUS_RejectRefused t) ∧
    (rejects → x.next.any (fun u => u ≤ now) = true → ¬ asked → ¬ reached 0 → asksToArm (.rejectArmRetry tag)) ∧
    (rejects → x.next = none ∨ asked ∨ ¬ reached 0 ∧ x.next.any (fun u => u ≤ now) = false →
      exec (.rejectArmRetry tag) s = .next s) ∧
    raises (.raiseFail req) 8 ∧ raises (.raiseDoubt req) 9 ∧
    (cmdTag → found → ∃ t, exec (.setHorizon req) s = .next t ∧
      after t = some { r with horizon := (s.preg req Reg.PL_CMDARG).toNat % 2 ^ 24 } ∧ sameBut [.ledger] s t) ∧
    (cmdTag → found → ∃ t, exec (.ledgerRead req) s = .next t ∧
      t.preg req Reg.PL_RECSTAT = BitVec.ofNat 32 ((if r.closed = true then 2 else 1) + 4 * r.verdict + 65536 * r.flags) ∧
      t.preg req Reg.PL_RECCNT = BitVec.ofNat 32 (r.done + 65536 * r.missed + 2 ^ 24 * r.retries) ∧
      sameBut [.perReq] s t) ∧
    (cmdTag → none' → ∃ t, exec (.ledgerRead req) s = .next t ∧ t.preg req Reg.PL_RECSTAT = 0 ∧
      t.preg req Reg.PL_RECCNT = 0 ∧ sameBut [.perReq] s t) ∧
    (¬ on → F.PL_CTL_Enable.get v = 1 → good → ∃ t, exec (.ledgerCtlWrite v) s = .next t ∧
      t.bit Reg.PL_CTL F.PL_CTL_Enable = true ∧ t.fld Reg.PL_CTL F.PL_CTL_DetectCap = F.PL_CTL_DetectCap.get v ∧
      quiet [Reg.PL_CTL] [] s t) ∧
    (¬ on → F.PL_CTL_Enable.get v = 1 → ¬ good → ∃ t, exec (.ledgerCtlWrite v) s = .next t ∧
      t.bit Reg.PL_CTL F.PL_CTL_Enable = false ∧ status F.PL_STATUS_ConfigRefused t) ∧
    (on → F.PL_CTL_Enable.get v = 0 → ∃ t, exec (.ledgerCtlWrite v) s = .next t ∧
      t.bit Reg.PL_CTL F.PL_CTL_Enable = !s.ledger.recs.isEmpty) ∧
    (ringHeld (s.reg Reg.PL_RINGWR).toNat v.toNat ≤ 2 ^ size / 32 → ∃ t, exec (.ringrdWrite v) s = .next t ∧
      t.reg Reg.PL_RINGRD = v ∧ quiet [Reg.PL_RINGRD] [] s t) ∧
    (2 ^ size / 32 < ringHeld (s.reg Reg.PL_RINGWR).toNat v.toNat → exec (.ringrdWrite v) s = .next s)

/-- A corrected word counts in its memory and sets Ce; shown twice, its row is marked and logged. A window starts
WindowGap µs after the last, on a marked row first, else on the next; an access sends it to its restore, which
ends it. A row that passes is done, and past the last row the sweep counts; the last tester to finish sets
SweepDone. A row that fails takes one of its bank's 4 spare rows and sets RowRepaired; with none free it sets
RepairExhausted and RepairAny, and a Cluster Store bank is frozen and copied, which after 16,384 ENG cycles sets
Spared. Retain needs every engine HELD or PARKED, else RetRefused; its engines become RETAINED and its testers
stop; 3 µs after Wake they are as they were. Of memory only the Journal changes, which records each repair.
(12_on_chip_memory.md: Error correction, Transparent background test, Retention, Memory test registers;
19_events_faults_and_availability.md: Single-fault bounds) -/
--% def gen (i : Nat) :=
--%   let s := rdy i
--%   let m := if bool i 1 then 0xC0 + nat i 2 12 else if bool i 3 then nat i 4 192 else if bool i 5 then 0x100 + nat i 6 128 else 0x180
--%   let c := if m < 192 then m / 16 else if m < 0xCC then m - 0xC0 else nat i 7 12
--%   let a := if m < 192 then 0x200000000 + 0x10000 * m + nat i 8 0x10000 else if m < 0xCC then 0x100000000 + 0x400000 * c + nat i 8 0x200000 else if m < 0x180 then 0x1000000 + 0x8000 * (m - 0x100) + nat i 8 0x8000 else 0x2000000 + nat i 8 0x200000
--%   let rows := memRows m
--%   let r := if bool i 9 then rows - 1 else nat i 10 rows
--%   let x : Tester := { row := if nat i 11 4 = 0 then none else some r, left := nat i 12 3 = 0, next := nat i 13 rows, marked := if bool i 14 then [r, 3] else if bool i 15 then [7] else [], startAt := nat i 16 3 * 1000000, sweeps := nat i 17 5, swept := false }
--%   let s := s.setReg (Reg.TST_RETCTL c) (if bool i 18 then 0 else BitVec.ofNat 32 (256 * nat i 19 4))
--%   let s := s.setReg (Reg.TST_CSEVTEN c) (word i 20)
--%   let s := s.setReg (Reg.TST_CSCE c) (word i 21)
--%   let s := s.setReg Reg.TST_ERRLOG (word i 22)
--%   let s := s.setReg Reg.TST_CTL (F.TST_CTL_TestEnable.put (F.TST_CTL_WindowGap.put (word i 23) (nat i 24 1200)) (if nat i 25 4 = 0 then 0 else 1))
--%   let s := s.setReg (Reg.TST_CSSTAT c) (if bool i 26 then 0 else word i 27)
--%   let s := s.setReg Reg.TST_CFGSTAT (word i 28)
--%   let s := s.setReg (Reg.TST_WFSTAT 0) (word i 29)
--%   let s := s.setReg Reg.TST_SWEEP (word i 30)
--%   let all := if bool i 31 then Tab.mk (allTesters.map fun k => (k, { Tester.init with swept := true })) else ⟨[]⟩
--%   let s := { s with memt := { s.memt with testers := all.set Tester.init m x, spares := (⟨[]⟩ : Tab Nat).set 0 (32 * m + r / bankRows m) (if bool i 32 then 4 else nat i 33 4), copies := (⟨[]⟩ : Tab (Option BankCopy)).set none c (if bool i 34 then none else some ⟨nat i 35 16, nat i 36 3 * 490000, 5⟩), retain := (⟨[]⟩ : Tab (Option Nat)).set none c (if bool i 37 then none else some 5), wake := (⟨[]⟩ : Tab (Option Nat)).set none c (if nat i 38 3 = 0 then none else some (1000000 - 4801 + nat i 39 3)) } }
--%   let st : EngSt := if bool i 40 then .held else if bool i 41 then .parked else .retained
--%   let s := (List.range 16).foldl (fun s k => s.setEng (16 * c + k) { s.eng (16 * c + k) with st := st, kept := .parked }) s
--%   K ({ s with clock := { s.clock with tick := 1000000, lt := 5000 } }) m a c r (1000000 - 4801 + nat i 39 3) (word i 42) (bool i 43) ⟨nat i 35 16, nat i 36 3 * 490000, 5⟩ [a]
def Obligations.MemoryTests : Prop :=
  ∀ (s : State) (m a c r start : Nat) (v : Word) (again : Bool) (k : BankCopy) (fresh : List Nat), c < 12 → m < 0x200 →
    let now := s.clock.tick
    let x := s.tester m
    let only := fun (t : State) => (t.memt.testers = s.memt.testers.set Tester.init m (t.tester m)) ∧ t.mem = s.mem
    let half : Nat := (m - 0x100) / 64
    let csBit := fun (i : Nat) => Fld.mk (if i < 2 then 8 + i else 9 + i) 1
    let flagged := fun (i : Nat) (t : State) =>
      (memCluster m = some c → t.bit (Reg.TST_CSSTAT c) (csBit i) = true ∧
        (s.bit (Reg.TST_CSEVTEN c) (csBit i) = true → t.pends (880 + c) = true)) ∧
      (0x100 ≤ m → m < 0x180 → t.bit (Reg.TST_WFSTAT half) (Fld.mk i 1) = true ∧
        (s.bit (Reg.TST_WFSTAT half) (Fld.mk (8 + i) 1) = true → t.pends (892 + half) = true)) ∧
      (0x180 ≤ m → t.bit Reg.TST_CFGSTAT (Fld.mk i 1) = true ∧
        (s.bit Reg.TST_CFGSTAT (Fld.mk (8 + i) 1) = true → t.pends 894 = true))
    let csFlagged := fun (f : Fld) (t : State) => t.bit (Reg.TST_CSSTAT c) f = true ∧
      (s.bit (Reg.TST_CSEVTEN c) f = true → t.pends (880 + c) = true)
    let recorded := fun (kind who which : Nat) (t : State) =>
      let u := s.putWords (0x3002000 + 16 * (s.memt.repairs.length + s.memt.banks.length))
        [BitVec.ofNat 32 (2 ^ 31 + 2 ^ 16 * kind + who), BitVec.ofNat 32 which, 0, 0]
      t.mem = u.mem ∧ t.poison = u.poison
    let spares := s.memt.spares.get 0 (32 * m + r / bankRows m)
    let idle := ∀ n < 192, n / 16 = c → (s.eng n).st = .held ∨ (s.eng n).st = .parked
    let retained := s.bit (Reg.TST_RETCTL c) F.TST_RETCTL_Retained = true
    let waking := s.bit (Reg.TST_RETCTL c) F.TST_RETCTL_Waking = true
    let starts := (m < 0xCC ∨ 0x100 ≤ m ∧ m ≤ 0x180) ∧ s.bit Reg.TST_CTL F.TST_CTL_TestEnable = true ∧ x.row = none ∧
      memRetained m s = false ∧ (x.startAt = 0 ∨ x.startAt - 1 + 1600 * s.fld Reg.TST_CTL F.TST_CTL_WindowGap ≤ now)
    -- corrected words
    (memIdOf a s = some m → ∃ t, exec (.correctedWriteback a again) s = .next t ∧ flagged 0 t ∧
      t.fld Reg.TST_ERRLOG F.TST_ERRLOG_CeCount = min 0xFFFF (s.fld Reg.TST_ERRLOG F.TST_ERRLOG_CeCount + 1) ∧
      (memCluster m = some c →
        t.fld (Reg.TST_CSCE c) F.TST_CSCE_CeCount = min 0xFFFF (s.fld (Reg.TST_CSCE c) F.TST_CSCE_CeCount + 1)) ∧
      (again = true → rowOf m a ∈ (t.tester m).marked ∧ t.fld Reg.TST_ERRLOG F.TST_ERRLOG_MemId = m ∧
        t.bit Reg.TST_ERRLOG F.TST_ERRLOG_Uncorrectable = false ∧ t.reg64 Reg.TST_ERRADDR_LO = a / 8 * 8) ∧
      (again = false → t.memt = s.memt) ∧ t.mem = s.mem ∧ t.poison = s.poison) ∧
    (memIdOf a s = none → exec (.correctedWriteback a again) s = .next s) ∧
    -- windows
    (starts → ∃ t, exec (.testWindowStart m) s = .next t ∧ quiet [] [.memt] s t ∧ only t ∧
        t.tester m = { x with row := some (x.marked.head?.getD x.next), left := false, startAt := now + 1 }) ∧
    (¬ starts → exec (.testWindowStart m) s = .next s) ∧
    (x.row ≠ none → ∃ t, exec (.testWindowAbandon m) s = .next t ∧ quiet [] [.memt] s t ∧ only t ∧
      t.tester m = { x with left := true }) ∧
    (x.row = none → exec (.testWindowAbandon m) s = .next s) ∧
    (x.left = true → ∃ t, exec (.rowRestore m) s = .next t ∧ quiet [] [.memt] s t ∧ only t ∧
      t.tester m = { x with row := none, left := false }) ∧
    (x.left = false → exec (.rowRestore m) s = .next s) ∧
    (x.row = some r → x.left = false →
      (∃ t, exec (.testWindowEnd ⟨m, []⟩ true) s = .next t ∧ Touches [Reg.TST_CTL] [.memt] s t ∧ only t ∧
        (r ∈ x.marked → t.tester m = { x with row := none, marked := x.marked.erase r }) ∧
        (r ∉ x.marked → r + 1 < memRows m → t.tester m = { x with row := none, next := r + 1 }) ∧
        (r ∉ x.marked → memRows m ≤ r + 1 →
          t.tester m = { x with row := none, next := 0, sweeps := x.sweeps + 1, swept := true } ∧
          (allTesters.all (fun j => j == m || (s.tester j).swept) = true →
            t.bit Reg.TST_CTL F.TST_CTL_SweepDone = true ∧
            (s.bit Reg.TST_CTL F.TST_CTL_SweepDone = false → s.bit Reg.TST_CTL F.TST_CTL_SweepEvent = true →
              t.pends 895 = true)))) ∧
      (spares < 4 → ∃ t, exec (.testWindowEnd ⟨m, []⟩ false) s = .next t ∧ flagged 2 t ∧ (t.tester m).row = none ∧ recorded 0 m r t ∧
        t.memt.spares.get 0 (32 * m + r / bankRows m) = spares + 1 ∧ t.memt.repairs = s.memt.repairs ++ [(m, r)] ∧
        t.fld Reg.TST_SWEEP F.TST_SWEEP_SpareRowsUsed = (s.fld Reg.TST_SWEEP F.TST_SWEEP_SpareRowsUsed + 1) % 2 ^ 16) ∧
      (4 ≤ spares → ∃ t, exec (.testWindowEnd ⟨m, []⟩ false) s = .next t ∧ flagged 3 t ∧ (t.tester m).row = none ∧ t.mem = s.mem ∧
        t.memt.repairs = s.memt.repairs ∧ t.bit Reg.TST_CTL F.TST_CTL_RepairAny = true ∧
        (s.bit Reg.TST_CTL F.TST_CTL_SweepEvent = true → t.pends 895 = true) ∧
        (m = 0xC0 + c → r / 512 < 16 → s.bit (Reg.TST_CSSTAT c) F.TST_CSSTAT_SpareUsed = false →
          s.bit (Reg.TST_CSSTAT c) F.TST_CSSTAT_Sparing = false →
          t.bit (Reg.TST_CSSTAT c) F.TST_CSSTAT_Sparing = true ∧
          t.memt.copies.get none c = some ⟨r / 512, now, s.clock.lt⟩))) ∧
    (x.row = none ∨ x.left = true → ∀ pass, exec (.testWindowEnd ⟨m, fresh⟩ pass) s = .next s) ∧
    -- bank sparing
    (s.memt.copies.get none c = some k → k.start + 32768 ≤ now → ∃ t, exec (.bankSpareComplete c) s = .next t ∧
      t.bit (Reg.TST_CSSTAT c) F.TST_CSSTAT_Sparing = false ∧ t.bit (Reg.TST_CSSTAT c) F.TST_CSSTAT_SpareUsed = true ∧
      t.fld (Reg.TST_CSSTAT c) F.TST_CSSTAT_SparedBank = k.bank % 16 ∧ csFlagged F.TST_CSSTAT_Spared t ∧
      t.memt.copies.get none c = none ∧ t.memt.banks = s.memt.banks ++ [(c, k.bank)] ∧
      (s.memt.held.all (fun w => w.store != c) = true → recorded 1 c k.bank t)) ∧
    (s.memt.copies.get none c = some k → now < k.start + 32768 → exec (.bankSpareComplete c) s = .next s) ∧
    (s.memt.copies.get none c = none → exec (.bankSpareComplete c) s = .next s) ∧
    -- retention
    (F.TST_RETCTL_Wake.get v = 0 → ¬ retained →
      (idle → ∃ t, exec (.retain c v) s = .next t ∧ quiet [] [.memt, .engs] s t ∧
        (∀ n < 192, t.eng n = if n / 16 = c then { s.eng n with st := .retained, kept := (s.eng n).st } else s.eng n) ∧
        t.memt.retain.get none c = some now ∧ (memCluster m = some c → (t.tester m).row = none)) ∧
      (¬ idle → ∃ t, exec (.retain c v) s = .next t ∧ Touches [Reg.TST_CSSTAT c] [] s t ∧
        csFlagged F.TST_CSSTAT_RetRefused t)) ∧
    (s.memt.retain.get none c ≠ none → ∃ t, exec (.retainComplete c) s = .next t ∧ quiet [Reg.TST_RETCTL c] [.memt] s t ∧
      t.bit (Reg.TST_RETCTL c) F.TST_RETCTL_Retained = true ∧ t.memt.retain.get none c = none) ∧
    (s.memt.retain.get none c = none → exec (.retainComplete c) s = .next s) ∧
    (retained → ¬ waking → ∃ t, exec (.wake c v) s = .next t ∧
      (F.TST_RETCTL_Retain.get v = 0 → quiet [Reg.TST_RETCTL c] [.memt] s t) ∧
      (F.TST_RETCTL_Retain.get v = 1 → ¬ idle → csFlagged F.TST_CSSTAT_RetRefused t) ∧
      t.bit (Reg.TST_RETCTL c) F.TST_RETCTL_Waking = true ∧ t.memt.wake.get none c = some now) ∧
    (¬ retained → F.TST_RETCTL_Retain.get v = 0 → exec (.wake c v) s = .next s) ∧
    (s.memt.wake.get none c = some start →
      (start + 4800 ≤ now → ∃ t, exec (.wakeComplete c) s = .next t ∧ quiet [Reg.TST_RETCTL c] [.memt, .engs] s t ∧
        (∀ n < 192, t.eng n = if n / 16 = c ∧ (s.eng n).st = .retained then { s.eng n with st := (s.eng n).kept } else s.eng n) ∧
        t.bit (Reg.TST_RETCTL c) F.TST_RETCTL_Retained = false ∧ t.bit (Reg.TST_RETCTL c) F.TST_RETCTL_Waking = false) ∧
      (now < start + 4800 → exec (.wakeComplete c) s = .next s)) ∧
    (s.memt.wake.get none c = none → exec (.wakeComplete c) s = .next s)

/-- Of an unfenced block on one live channel with EccEnable 1: a correctable error counts, logs and sets Ce, and
again, its row is recorded once, up to 64, beyond that PprFull; an uncorrectable one poisons the block and sets
Ue, and the 16th within 1 ms fails the channel; a corrected link error counts; a repeat that succeeds changes
nothing; the even copy alone bad sets MirrorFix without poison. Fenced, the request sets RegionViolation and
reaches nothing. A write stores its bytes and no other; a whole block clears the poison, a part does not. A
failed channel sets ChannelFailed, and Degraded where the mirror goes on. The scrub counts its reads, both
copies of a mirrored block, and its sweeps; a recorded row stands in the Journal. MEMC_CFG obeys Lock and
MapRefused and sets the sizes of R297; it changes no byte outside the region. (13_external_memory_and_host.md:
LPDDR5X, Memory controller registers; 15_mantle_security.md: Protected regions) -/
--% def gen (i : Nat) :=
--%   let s := rdy i
--%   let k := nat i 1 4
--%   let act := if nat i 2 3 = 0 then 2 ^ k else 15
--%   let s := s.setReg Reg.MEMC_STAT (F.MEMC_STAT_Active.put 0 act)
--%   let s := s.setReg Reg.MEMC_SIZES (F.MEMC_SIZES_MirrorMiB.put (F.MEMC_SIZES_PlainMiB.put 0 (if nat i 60 5 = 0 then 0 else 1)) (if nat i 61 5 = 0 then 0 else 1))
--%   let s := (List.range 4).foldl (fun s j => s.setReg (Reg.MEMC_CHSTAT j) (F.MEMC_CHSTAT_Failed.put (F.MEMC_CHSTAT_CapGiB.put 0 2) (if nat i (62 + j) 8 = 0 then 1 else 0))) s
--%   let a := lpddrBase + (if act = 15 then (if bool i 4 then 0x100000 else 0) + 256 * k else if bool i 4 then 0x100000 else 0) + nat i 5 256
--%   let s := s.setReg Reg.MEMC_CFG (BitVec.ofNat 32 ((if nat i 6 4 = 0 then 0 else 2 ^ F.MEMC_CFG_EccEnable.lsb) + (if nat i 7 4 = 0 then 2 ^ F.MEMC_CFG_Lock.lsb else 0)) ||| F.MEMC_CFG_MirrorUnits.put 0 (nat i 8 3))
--%   let s := s.setReg (Reg.MEMC_CHCNT k) (word i 9)
--%   let s := s.setReg (Reg.MEMC_CHEVTEN k) (word i 10)
--%   let s := s.setReg Reg.MEMC_SCRUB (word i 11)
--%   let row := (k, Config.lpddrRow (a / 64 * 64))
--%   let s := { s with lpddr := { s.lpddr with cands := (if bool i 12 then [] else if bool i 13 then [(7, 5)] else List.replicate 64 (3, 1)), ues := (⟨[]⟩ : Tab (List Nat)).set [] k (List.replicate (if bool i 14 then 15 else nat i 15 20) (5000000 - nat i 16 3 * 1000000)), scrub := if bool i 17 then lpddrSize s / 64 - 1 else nat i 18 1000 } }
--%   let s := s.setReg (Reg.MNT_RGN_CTL 0) (if nat i 20 3 = 0 then F.MNT_RGN_CTL_SizeLog2.put (F.MNT_RGN_CTL_RgnEnable.put (word i 21) 1) 22 else 0)
--%   let s := s.setReg (Reg.MNT_RGN_LO 0) 0
--%   let s := s.setReg (Reg.MNT_RGN_HI 0) 0x10
--%   let s := s.store (a - 3) ((List.range 80).map fun j => BitVec.ofNat 8 (mix (i*20+j)))
--%   let s := if nat i 22 4 = 0 then setPoison a true s else s
--%   let wa := if bool i 23 then a / 64 * 64 else a
--%   let bs := (List.range (if bool i 24 then 64 else nat i 25 20)).map fun j => BitVec.ofNat 8 (mix (i*9+j))
--%   let v := if nat i 26 4 = 0 then s.reg Reg.MEMC_CFG else F.MEMC_CFG_MirrorUnits.put (word i 27) (nat i 28 12)
--%   K ({ s with clock := { s.clock with tick := 5000000, lt := 5000 } }) (if bool i 29 then wa else a) k (nat i 30 4) (nat i 31 8) (nat i 32 192) (nat i 33 7) (bool i 34) (bool i 35) bs v
def Obligations.Lpddr : Prop :=
  ∀ (s : State) (a k p cls who err : Nat) (super again : Bool) (bs : List Byte) (v : Word), k < 4 →
    let now := s.clock.tick
    let size := fun (t : State) => (1048576 * t.fld Reg.MEMC_SIZES F.MEMC_SIZES_PlainMiB, 1048576 * t.fld Reg.MEMC_SIZES F.MEMC_SIZES_MirrorMiB)
    let inside := 0x1000000000 ≤ a ∧ a < 0x1000000000 + (size s).1 + (size s).2
    let u : Accessor := if cls = 0 then .dataPort else if cls = 4 ∨ cls = 5 then .engine who super else .other
    let block : Nat := a / 64 * 64
    let active := (List.range 4).filter (fun j => (s.fld Reg.MEMC_STAT F.MEMC_STAT_Active).testBit j)
    let dead := fun (j : Nat) => s.bit (Reg.MEMC_CHSTAT j) F.MEMC_CHSTAT_Failed = true
    let reads := inside ∧ fenceOk u false a 1 s = true
    let ecc := s.bit Reg.MEMC_CFG F.MEMC_CFG_EccEnable = true
    let alone := channelsOf a s = [k] ∧ ¬ dead k
    let fresh := s.poisoned a = false
    let flagged := fun (f : Fld) (e : Nat) (t : State) => t.bit (Reg.MEMC_CHFLAGS k) f = true ∧
      (s.bit (Reg.MEMC_CHEVTEN k) f = true → t.pends e = true)
    let logged := fun (unc fixed : Nat) (t : State) => (t.reg Reg.MEMC_ERRADDR_LO).toNat = block % 2 ^ 32 ∧
      (t.reg Reg.MEMC_ERRADDR_HI).toNat =
        block / 2 ^ 32 % 2 ^ 16 + 2 ^ 16 * k + 2 ^ 18 * unc + 2 ^ 19 * fixed + 2 ^ 20 * (cls % 8)
    let row := (k, Config.lpddrRow block)
    let recorded := s.putWords (0x3006000 + 16 * s.lpddr.cands.length)
      [BitVec.ofNat 32 (2 ^ 31 + k), BitVec.ofNat 32 row.2, BitVec.ofNat 32 (row.2 / 2 ^ 32), 0]
    let recent := ((s.lpddr.ues.get [] k).filter (fun t => decide (now < t + 1600000))).length
    let same := fun (t : State) => t.mem = s.mem ∧ t.poison = s.poison
    let config := Reg.MEMC_CFG
    let units := F.MEMC_CFG_MirrorUnits.get v
    let first := active.headD 4
    let usable : Nat := if active = [] then 0 else
      let c : Nat := 1024 * s.fld (Reg.MEMC_CHSTAT first) F.MEMC_CHSTAT_CapGiB
      if F.MEMC_CFG_EccEnable.get v = 1 then c * 31 / 32 else c
    let refused := 0 < units ∧ (active.length = 1 ∨ usable < 256 * units)
    let mirrored := 0 < (size s).2
    let locked := s.bit config F.MEMC_CFG_Lock = true
    let keeps := F.MEMC_CFG_EccEnable.get v = s.fld config F.MEMC_CFG_EccEnable ∧ units = s.fld config F.MEMC_CFG_MirrorUnits
    let failing := k ∈ active ∧ ¬ dead k
    let blocks : Nat := ((size s).1 + 2 * (size s).2) / 64
    let sweeps := s.bit Reg.MEMC_SCRUB F.MEMC_SCRUB_ScrubEnable = true ∧ 0 < blocks
    -- reads
    (¬ inside → exec (.lpddrRead a cls who super err again) s = .next s) ∧
    (inside → ¬ reads → ∃ t, exec (.lpddrRead a cls who super err again) s = .next t ∧ Touches [Reg.MNT_STATUS] [] s t ∧
      t.bit Reg.MNT_STATUS F.MNT_STATUS_RegionViolation = true) ∧
    (reads → ecc → alone → fresh →
      (∃ t, exec (.lpddrRead a cls who super 1 false) s = .next t ∧ flagged F.MEMC_CHFLAGS_Ce (864 + 2 * k) t ∧ logged 0 0 t ∧
        t.fld (Reg.MEMC_CHCNT k) F.MEMC_CHCNT_CeCount = min 0xFFFF (s.fld (Reg.MEMC_CHCNT k) F.MEMC_CHCNT_CeCount + 1) ∧
        Touches [Reg.MEMC_CHFLAGS k, Reg.MEMC_CHCNT k, Reg.MEMC_ERRADDR_LO, Reg.MEMC_ERRADDR_HI] [] s t) ∧
      (∃ t, exec (.lpddrRead a cls who super 1 true) s = .next t ∧ flagged F.MEMC_CHFLAGS_Ce (864 + 2 * k) t ∧
        (row ∈ s.lpddr.cands → same t ∧ t.lpddr = s.lpddr) ∧
        (row ∉ s.lpddr.cands → 64 ≤ s.lpddr.cands.length → same t ∧ t.lpddr = s.lpddr ∧
          flagged F.MEMC_CHFLAGS_PprFull (865 + 2 * k) t) ∧
        (row ∉ s.lpddr.cands → s.lpddr.cands.length < 64 → t.lpddr = { s.lpddr with cands := s.lpddr.cands ++ [row] } ∧
          t.mem = recorded.mem ∧ t.poison = recorded.poison ∧
          flagged F.MEMC_CHFLAGS_RowRecorded (864 + 2 * k) t)) ∧
      (∃ t, exec (.lpddrRead a cls who super 2 again) s = .next t ∧ flagged F.MEMC_CHFLAGS_Ue (865 + 2 * k) t ∧ logged 1 0 t ∧
        t.poisoned a = true ∧ t.mem = s.mem ∧
        (t.bit (Reg.MEMC_CHSTAT k) F.MEMC_CHSTAT_Failed = true ↔ 15 ≤ recent ∧ k ∈ active)) ∧
      (∃ t, exec (.lpddrRead a cls who super 4 again) s = .next t ∧ flagged F.MEMC_CHFLAGS_LinkEcc (864 + 2 * k) t ∧
        t.fld (Reg.MEMC_CHCNT k) F.MEMC_CHCNT_LinkEccCount = min 0xFFFF (s.fld (Reg.MEMC_CHCNT k) F.MEMC_CHCNT_LinkEccCount + 1) ∧
        Touches [Reg.MEMC_CHFLAGS k, Reg.MEMC_CHCNT k] [] s t) ∧
      exec (.lpddrRead a cls who super 5 again) s = .next s) ∧
    (reads → ecc → isMirrored a s = true → channelsOf a s = [k, p] → ¬ dead k → ¬ dead p → fresh →
      ∀ err ∈ [3, 6], ∃ t, exec (.lpddrRead a cls who super err again) s = .next t ∧ flagged F.MEMC_CHFLAGS_MirrorFix (865 + 2 * k) t ∧
        logged 0 1 t ∧ same t) ∧
    -- writes
    (inside → 0 < bs.length → a % 64 + bs.length ≤ 64 → fenceOk u true a bs.length s = true →
      ((∃ j ∈ channelsOf a s, ¬ dead j) → ∃ t, exec (.lpddrWrite a cls who super bs 0) s = .next t ∧
        (∀ b, t.byte b = if a ≤ b ∧ b < a + bs.length then bs[b - a]?.getD 0 else s.byte b) ∧
        (bs.length = 64 → t.poisoned a = false) ∧ (bs.length < 64 → s.poisoned a = true → t.poisoned a = true)) ∧
      (channelsOf a s ≠ [] → (∀ j ∈ channelsOf a s, dead j) → exec (.lpddrWrite a cls who super bs err) s = .next s)) ∧
    (inside → 0 < bs.length → a % 64 + bs.length ≤ 64 → fenceOk u true a bs.length s = false →
      ∃ t, exec (.lpddrWrite a cls who super bs err) s = .next t ∧ Touches [Reg.MNT_STATUS] [] s t ∧
        t.bit Reg.MNT_STATUS F.MNT_STATUS_RegionViolation = true) ∧
    -- a failed channel
    (failing → ∃ t, exec (.channelFailed k) s = .next t ∧ t.bit (Reg.MEMC_CHSTAT k) F.MEMC_CHSTAT_Failed = true ∧
      flagged F.MEMC_CHFLAGS_ChannelFailed (865 + 2 * k) t ∧ same t ∧
      (mirrored → (∃ j ∈ partnerOf k s, ¬ dead j) → t.bit Reg.MEMC_STAT F.MEMC_STAT_Degraded = true)) ∧
    (¬ failing → exec (.channelFailed k) s = .next s) ∧
    -- the scrub
    (sweeps → s.lpddr.scrub + 1 < blocks → ∃ t, exec (.scrubRead 5 again) s = .next t ∧ t.lpddr.scrub = s.lpddr.scrub + 1) ∧
    (sweeps → blocks ≤ s.lpddr.scrub + 1 → ∃ t, exec (.scrubRead 5 again) s = .next t ∧ t.lpddr.scrub = 0 ∧
      t.fld Reg.MEMC_SCRUB F.MEMC_SCRUB_SweepCount = (s.fld Reg.MEMC_SCRUB F.MEMC_SCRUB_SweepCount + 1) % 2 ^ 16 ∧
      (k ∈ active → flagged F.MEMC_CHFLAGS_SweepDone (864 + 2 * k) t)) ∧
    (¬ sweeps → exec (.scrubRead err again) s = .next s) ∧
    -- MEMC_CFG
    (locked → exec (.memcCfgWrite v) s = .next s) ∧
    (¬ locked → refused → ∃ t, exec (.memcCfgWrite v) s = .next t ∧ quiet [Reg.MEMC_STAT] [] s t ∧
      t.bit Reg.MEMC_STAT F.MEMC_STAT_MapRefused = true) ∧
    (¬ locked → ¬ refused → ∃ t, exec (.memcCfgWrite v) s = .next t ∧ quiet [config, Reg.MEMC_SIZES] [.mem, .poison] s t ∧
      t.fld config F.MEMC_CFG_EccEnable = F.MEMC_CFG_EccEnable.get v ∧ t.fld config F.MEMC_CFG_MirrorUnits = units ∧
      t.fld config F.MEMC_CFG_Lock = F.MEMC_CFG_Lock.get v ∧ (keeps → same t ∧ t.reg Reg.MEMC_SIZES = s.reg Reg.MEMC_SIZES) ∧
      (¬ keeps → size t = (1048576 * (active.length * (usable - 256 * units) % 2 ^ 16), 1048576 * (active.length / 2 * (256 * units) % 2 ^ 16))) ∧
      ∀ b, b < 0x1000000000 ∨ 0x400000000000 ≤ b → t.byte b = s.byte b)

/-- A BAR0 write of one full DWORD is that register write; one of more writes its DWORDs one after another; a read
returns one word each. Violations 0x01 to 0x0A are counted and recorded with their address and change nothing
else. A Data Port access targets Cur, plus the offset where it does not auto-increment, folded by WrapLog2;
allowed, a write joins or starts the pending burst and moves Cur, which Stride or its length advances; a read
behind a posted write that has not acted waits, else it writes out the bursts and returns the words. A burst is
written out at 4 KiB boundaries, after 1 µs and on Flush: its enabled bytes and no other. Refused, 0x05 and
Fault; poisoned, 0x06 and UeRead; a Seam read unanswered for 40 µs, 0x07 and SeamTimeout.
(13_external_memory_and_host.md: Host port, Host protocol violations, Data Ports, Host port registers, Data Port
registers; 19_events_faults_and_availability.md: Part states) -/
--% def gen (i : Nat) :=
--%   let s := rdy i
--%   let n := nat i 1 16
--%   let s := { s with host := { s.host with d3 := nat i 2 8 = 0 } }
--%   let s := s.setReg Reg.MEMC_STAT (F.MEMC_STAT_Active.put 0 15)
--%   let s := s.setReg Reg.MEMC_SIZES (F.MEMC_SIZES_PlainMiB.put 0 8)
--%   let s := s.setReg Reg.JRN_STAT (F.JRN_STAT_State.put (word i 3) (if nat i 4 4 = 0 then stateHalted else 3))
--%   let s := s.setReg (Reg.DP_CTL n) (F.DP_CTL_Enable.put (F.DP_CTL_AutoInc.put (F.DP_CTL_WrapLog2.put 0 (if bool i 5 then 0 else 12)) (nat i 6 4)) (if nat i 7 6 = 0 then 0 else 1))
--%   let base := [0x1000000000, 0x1000000, 0x4000000, 0x100000000, 0x3000000, 0x400000000000][nat i 8 6]?.getD 0
--%   let cur := base + 4 * nat i 9 20 + (if bool i 10 then 0xFA0 else 0)
--%   let s := (s.setReg (Reg.DP_ADDR_LO n) (BitVec.ofNat 32 cur)).setReg (Reg.DP_ADDR_LO n + 4) (BitVec.ofNat 32 (cur / 2^32))
--%   let s := s.setReg (Reg.DP_STRIDE n) (if bool i 11 then 0 else word i 12 &&& ~~~3#32)
--%   let s := (s.setReg (Reg.DP_WRAPBASE_LO n) (BitVec.ofNat 32 base)).setReg (Reg.DP_WRAPBASE_LO n + 4) (BitVec.ofNat 32 (base / 2^32))
--%   let s := s.setReg (Reg.SL_WIN_CTL 0) (word i 13)
--%   let s := s.setReg Reg.HOST_EVTEN (word i 14)
--%   let s := s.setReg Reg.HOST_VIOL (word i 15)
--%   let o := 4 * nat i 16 30
--%   let ws := (List.range (if nat i 17 6 = 0 then 17 else nat i 18 5)).map fun k => word i (20 + k)
--%   let target := if bool i 40 then cur else cur + o
--%   let bl := 4 * nat i 41 6
--%   let burst : DpBurst := ⟨target - bl, (List.range bl).map (fun k => if nat i (50 + k) 5 = 0 then none else some (BitVec.ofNat 8 (mix (i * 9 + k)))), 1000000 - 1601 + nat i 42 3⟩
--%   let s := s.store (cur - 16) ((List.range 160).map fun k => BitVec.ofNat 8 (mix (i*20+k)))
--%   let s := { s with host := { s.host with aperture := if bool i 43 then ⟨[]⟩ else (⟨[]⟩ : Tab (Option DpBurst)).set none n (some burst) } }
--%   let s := if nat i 44 5 = 0 then setPoison target true s else s
--%   let r : SeamReq := ⟨nat i 45 4, nat i 46 256, clsRead, .host, n, 0x400000000000 + 4 * nat i 47 100, 1000000 - 64001 + nat i 48 3, false, false⟩
--%   let s := { s with seam := { s.seam with reqs := if bool i 49 then [] else [r] } }
--%   let s := if nat i 120 5 = 0 then s.setAsks { s.asks with reads := [.bar0 0 1 false] } else s
--%   let a := if bool i 100 then Reg.DP_STRIDE n + nat i 101 4 else if bool i 102 then 0x68000 + 4 * nat i 103 64 else if bool i 104 then 0xFF0000 + nat i 105 1000 else [0x0, 0x20000, 0x60000, 0x10000][nat i 106 4]?.getD 0 + 4 * nat i 107 16
--%   let v := if bool i 112 then 0 else word i 108
--%   K ({ s with clock := { s.clock with tick := 1000000, lt := 5000 } }) n o (if nat i 109 6 = 0 then 17 else nat i 110 6) a (nat i 111 16) v (word i 20) ws burst r
def Obligations.HostPorts : Prop :=
  ∀ (s : State) (n o len a be : Nat) (v w : Word) (ws : List Word) (burst : DpBurst) (r : SeamReq), n < 16 → a < 0x1000000 → len < 512 →
    let up := s.host.d3 = false
    let now := s.clock.tick
    let dword : Nat := a / 4 * 4
    let hostRegs := [Reg.HOST_FLAGS, Reg.HOST_VIOL, Reg.HOST_VIOL_ADDR_LO, Reg.HOST_VIOL_ADDR_LO + 4]
    let viol := fun (code addr : Nat) (t : State) => t.fld Reg.HOST_VIOL F.HOST_VIOL_Code = code ∧
      t.fld Reg.HOST_VIOL F.HOST_VIOL_Count = min 0xFFFF (s.fld Reg.HOST_VIOL F.HOST_VIOL_Count + 1) ∧
      t.reg64 Reg.HOST_VIOL_ADDR_LO = addr % 2 ^ 48 ∧ t.bit Reg.HOST_FLAGS F.HOST_FLAGS_Violation = true ∧
      (s.bit Reg.HOST_EVTEN F.HOST_FLAGS_Violation = true → t.pends 872 = true)
    let aer := fun (k : Nat) (t : State) => t.bit Reg.HOST_FLAGS F.HOST_FLAGS_AerUncorr = true ∧
      t.host = { s.host with aer := s.host.aer ||| 2 ^ k } ∧ Touches hostRegs [.host] s t
    let waits := fun (r : HostRead) (t : State) => t = s.setAsks { s.asks with reads := s.asks.reads ++ [r] }
    let table := 0x68000 ≤ a ∧ a < 0x70000
    let reaches := s.fld Reg.JRN_STAT F.JRN_STAT_State ≠ stateHalted ∨ a < 0x10000 ∨ 0x20000 ≤ a ∧ a < 0x30000 ∨ 0x60000 ≤ a ∧ a < 0x70000
    let given := fun (l : List Word) (t : State) => t.rdata.get [] (reqKey .host) = l
    let noBurst := (∀ m < 16, s.host.aperture.get none m = none) ∧ hostWaits s = false
    let thawed := dpFrozen n o len s = false
    -- the Data Port's targets
    let cur := s.base48 (Reg.DP_ADDR_LO n)
    let k := s.fld (Reg.DP_CTL n) F.DP_CTL_WrapLog2
    let wrap := s.base48 (Reg.DP_WRAPBASE_LO n)
    let wrapBase := wrap - wrap % 2 ^ k
    let fold := fun (x : Int) => if k = 0 then (x % 281474976710656).toNat else (wrapBase + ((x - (wrapBase : Int)) % (2 : Int) ^ k).toNat) % 281474976710656
    let auto := fun (i : Nat) => (s.fld (Reg.DP_CTL n) F.DP_CTL_AutoInc).testBit i = true
    let start := fun (i : Nat) => if auto i then cur else cur + o
    let target := fun (i j : Nat) => fold ((start i + j : Nat) : Int)
    let stride := (s.reg (Reg.DP_STRIDE n)).toInt
    let next := fun (i l : Nat) => if auto i then fold ((cur : Int) + if stride = 0 then (l : Int) else stride) else cur
    let moved := fun (i l : Nat) (t : State) => t.base48 (Reg.DP_ADDR_LO n) = next i l
    let on := s.bit (Reg.DP_CTL n) F.DP_CTL_Enable = true
    let ok := fun (write : Bool) (i l : Nat) => on ∧ ∀ j < l, dpAllowed .dataPort write (target i j) s = true
    let held := s.host.aperture.get none n
    let bytes := ws.flatMap (fun w => leBytes 4 w.toNat)
    let size := 4 * ws.length
    let oneBlock := ∀ j < size, target 1 j = target 1 0 + j ∧ (target 1 0 + j) / 4096 = target 1 0 / 4096
    let ends := (target 1 0 + size) % 4096 = 0
    let stop := burst.start + burst.bytes.length
    let local' := ∀ j < burst.bytes.length, dpAllowed .dataPort true (burst.start + j) s = true ∧
      s.poisoned (burst.start + j) = false ∧ isSeam (burst.start + j) s = false
    let landed := fun (t : State) => t.host.aperture.get none n = none ∧
      ∀ b, t.byte b = if burst.start ≤ b ∧ b < stop then (burst.bytes[b - burst.start]?.join).getD (s.byte b) else s.byte b
    let lone := s.memt.writes = [] ∧ frozenIn burst.start burst.bytes.length s = false ∧ held = some burst ∧ burst.bytes.length ≤ 4096 ∧ local'
    -- BAR0
    (up → reaches → ∃ t, exec (.registerWrite .host dword w) s = .next t ∧ exec (.bar0Write a [15] [w] false) s = .next t) ∧
    (up → reaches → ¬ table → 0 < ws.length → ws.length < 16 → ∃ t, exec (.bar0Write a [] [w] false) s = .next t ∧
      (t.host.d3 = false → ¬ (0x68000 ≤ dword + 4 ∧ dword + 4 < 0x70000) →
        ∃ t', exec (.bar0Write (dword + 4) [] ws false) t = .next t' ∧ exec (.bar0Write a [] (w :: ws) false) s = .next t')) ∧
    (up → be < 15 → ¬ table → ∃ t, exec (.bar0Write a [be] [w] false) s = .next t ∧ viol 1 dword t ∧ Touches hostRegs [] s t) ∧
    (up → ¬ reaches → ∃ t, exec (.bar0Write a [15] [w] false) s = .next t ∧ viol 2 dword t ∧ Touches hostRegs [] s t) ∧
    (up → ws ≠ [] → ∃ t, exec (.bar0Write a [] ws true) s = .next t ∧ viol 4 a t ∧ aer aerPoisoned t) ∧
    (up → 16 < ws.length → ∃ t, exec (.bar0Write a [] ws false) s = .next t ∧ viol 3 a t ∧ aer aerUnsupported t) ∧
    (up → be < 15 → table → ∃ t, exec (.bar0Write a [be] [w] false) s = .next t ∧ viol 8 a t ∧ Touches hostRegs [] s t) ∧
    (¬ up → exec (.bar0Write a [be] ws false) s = .next s ∧ exec (.bar0Read a len false) s = .next s) ∧
    (up → noBurst →
      (0 < len → len ≤ 16 → ∃ t, exec (.bar0Read a len false) s = .next t ∧ (t.rdata.get [] (reqKey .host)).length = len ∧ t.mem = s.mem) ∧
      (reaches → ¬ table → 0x70000 ≤ a ∨ a < 0x67000 → assigned dword = false → ∃ t, exec (.bar0Read a 1 false) s = .next t ∧
        given [0] t ∧ viol 2 dword t ∧ Touches hostRegs [.rdata] s t) ∧
      (a = Reg.DP_STRIDE n → reaches → ∃ t, exec (.bar0Read a 1 false) s = .next t ∧ given [s.reg a] t ∧ quiet [] [.rdata] s t) ∧
      (16 < len → ∃ t, exec (.bar0Read a len false) s = .next t ∧ given [] t ∧ viol 3 a t ∧ Touches hostRegs [.rdata] s t) ∧
      (table → 0 < len → len ≤ 16 → ∃ t, exec (.bar0Read a len true) s = .next t ∧ given (List.replicate len 0) t ∧ viol 8 a t ∧
        Touches hostRegs [.rdata] s t)) ∧
    (up → 0 < len → hostWaits s = true → (∃ t, exec (.bar0Read a len false) s = .next t ∧ waits (.bar0 a len false) t) ∧
      (∃ t, exec (.dataPortRead ⟨n, []⟩ o len) s = .next t ∧ waits (.bar2 n o len []) t)) ∧
    (∀ bad : Bool, ∃ t, exec (.unsupportedRequest bad) s = .next t ∧ viol (if bad then 0x0A else 9) 0 t ∧
      aer (if bad then aerMalformed else aerUnsupported) t) ∧
    -- Data Port writes
    (up → 0 < size → size ≤ 2048 → ok true 1 size → oneBlock →
      (held = none → ¬ ends → ∃ t, exec (.dataPortWrite n o [] ws false) s = .next t ∧ moved 1 size t ∧ t.mem = s.mem ∧
        t.host.aperture.get none n = some ⟨target 1 0, bytes.map some, now⟩) ∧
      (held = some burst → stop = target 1 0 → ¬ ends → ∃ t, exec (.dataPortWrite n o [] ws false) s = .next t ∧ moved 1 size t ∧
        t.mem = s.mem ∧ t.host.aperture.get none n = some ⟨burst.start, burst.bytes ++ bytes.map some, now⟩) ∧
      (ends → held = none ∨ held = some burst ∧ stop = target 1 0 → ∃ t, exec (.dataPortWrite n o [] ws false) s = .next t ∧
        moved 1 size t ∧ t.host.aperture.get none n = none)) ∧
    (up → be < 16 → held = none → ok true 1 4 → target 1 3 = target 1 0 + 3 → target 1 0 % 4096 < 4092 → target 1 0 % 4 = 0 →
      ∃ t, exec (.dataPortWrite n o [be] [w] false) s = .next t ∧ moved 1 4 t ∧
      t.host.aperture.get none n = some ⟨target 1 0, (List.range 4).map (fun j =>
        if be.testBit j then some (w.extractLsb' (8 * j) 8) else none), now⟩) ∧
    (up → 0 < size → size ≤ 2048 → ¬ ok true 1 size → ∃ t, exec (.dataPortWrite n o [] ws false) s = .next t ∧ viol 5 (target 1 0) t ∧
      t.bit (Reg.DP_STAT n) F.DP_STAT_Fault = true ∧ t.bit Reg.HOST_FLAGS F.HOST_FLAGS_DpFault = true ∧ t.mem = s.mem ∧
      t.host = s.host ∧ t.base48 (Reg.DP_ADDR_LO n) = cur) ∧
    (up → 0 < size → ∃ t, exec (.dataPortWrite n o [] ws true) s = .next t ∧ viol 4 (target 1 0) t ∧ aer aerPoisoned t) ∧
    -- writing out
    (lone → burst.last + 1600 ≤ now → ∃ t, exec (.burstIdleTimeout n) s = .next t ∧ landed t) ∧
    (held = some burst → now < burst.last + 1600 → exec (.burstIdleTimeout n) s = .next s) ∧
    (held = none → exec (.burstIdleTimeout n) s = .next s) ∧
    (lone → ∃ t, exec (.flush n v) s = .next t ∧ landed t ∧ t.fld (Reg.DP_CTL n) F.DP_CTL_AutoInc = F.DP_CTL_AutoInc.get v ∧
      t.fld (Reg.DP_CTL n) F.DP_CTL_Flush = 0 ∧
      t.fld (Reg.DP_CTL n) F.DP_CTL_WrapLog2 = if F.DP_CTL_WrapLog2.get v = 0 then 0 else max 12 (min 36 (F.DP_CTL_WrapLog2.get v))) ∧
    -- Data Port reads
    (up → 0 < len → hostWaits s = false → thawed → ∃ t, exec (.dataPortRead ⟨n, []⟩ o len) s = .next t ∧
      ∀ m < 16, t.host.aperture.get none m = none) ∧
    (up → 0 < len → noBurst → thawed → ok false 0 (4 * len) → s.memt.writes = [] →
      ((∀ j < 4 * len, isSeam (target 0 j) s = false ∧ s.poisoned (target 0 j) = false) →
        ∃ t, exec (.dataPortRead ⟨n, []⟩ o len) s = .next t ∧ moved 0 (4 * len) t ∧ t.mem = s.mem ∧
          given ((List.range len).map (fun j => BitVec.ofNat 32 (leNat ((List.range 4).map (fun b => s.byte (target 0 (4 * j + b))))))) t) ∧
      (isSeam (target 0 0) s = false → (∃ j < 4 * len, s.poisoned (target 0 j) = true) →
        ∃ t, exec (.dataPortRead ⟨n, []⟩ o len) s = .next t ∧ given [] t ∧ viol 6 (target 0 0) t ∧ t.bit (Reg.DP_STAT n) F.DP_STAT_UeRead = true)) ∧
    (up → 0 < len → noBurst → thawed → ¬ ok false 0 (4 * len) → ∃ t, exec (.dataPortRead ⟨n, []⟩ o len) s = .next t ∧ given [] t ∧
      viol 5 (target 0 0) t ∧ t.bit (Reg.DP_STAT n) F.DP_STAT_Fault = true ∧ t.mem = s.mem) ∧
    (s.seam.reqs = [r] → r.req = .host → r.cls = clsRead → r.win = n → r.got = false → r.port < 4 →
      (s.seam.dones = [] → r.at' + 64000 ≤ now → ∃ t, exec (.dataPortSeamTimeout n r.addr) s = .next t ∧ viol 7 r.addr t ∧
        t.bit (Reg.DP_STAT n) F.DP_STAT_SeamTimeout = true ∧ t.bit (Reg.SL_PFLAGS r.port) F.SL_PFLAGS_ReadTimeout = true ∧
        t.seam.reqs = [] ∧ t.mem = s.mem) ∧
      (now < r.at' + 64000 → exec (.dataPortSeamTimeout n r.addr) s = .next s)) ∧
    (s.seam.reqs = [] → exec (.dataPortSeamTimeout n a) s = .next s)

/-- A pending unmasked vector's message is sent and its pending bit cleared, where the function is unmasked, MSI-X,
bus mastering and the link are on. Link up, down and speed changes set Speed, Width, Up and their flags, only
within TargetSpeed. An FLR or link down clears the table, the pending bits, configuration space and every Data
Port register, sets FunctionReset, and leaves the memories and the other blocks. READ, PROGRAM and ERASE set
Busy, or are REFUSED while busy, beyond the flash, or on the slot or directory copy in use; at their end the
bytes are copied, cleared or erased and BootDone is set; a fault or a busy flash ends them with MEMFAULT or
TIMEOUT and BootError. (13_external_memory_and_host.md: Host port, Boot Port, Host port registers) -/
--% def gen (i : Nat) :=
--%   let s := rdy i
--%   let n := nat i 1 16
--%   let k := nat i 2 2048
--%   let s := { s with host := { s.host with d3 := nat i 3 8 = 0, msixEn := nat i 4 5 != 0, fnMask := nat i 5 5 = 0, busMaster := nat i 6 5 != 0, table := if bool i 7 then ⟨[]⟩ else (⟨[]⟩ : Tab Word).set 1 (4 * k + 3) 0, eraseLog := 12 }, msixPend := if nat i 8 4 = 0 then ⟨[]⟩ else ((⟨[]⟩ : Tab Bool).set false k true).set false 5 true }
--%   let s := s.setReg Reg.HOST_LINK (word i 9)
--%   let s := s.setReg Reg.HOST_CTL (BitVec.ofNat 32 (1 + nat i 10 4))
--%   let s := s.setReg Reg.HOST_EVTEN (word i 11)
--%   let s := s.setReg Reg.MEMC_STAT (F.MEMC_STAT_Active.put 0 15)
--%   let s := s.setReg Reg.MEMC_SIZES (F.MEMC_SIZES_PlainMiB.put 0 8)
--%   let s := s.setReg (Reg.DP_STRIDE n) (word i 12)
--%   let s := s.setReg Reg.HOST_BOOT_STAT (if nat i 13 4 = 0 then 1 else 0)
--%   let s := s.setReg Reg.HOST_BOOT_INFO (BitVec.ofNat 32 ((if nat i 14 8 = 0 then 12 else 24) + 512 * nat i 15 2 + 256 * nat i 16 2))
--%   let base := [0x1000000000, 0x1000000, 0x4000000, 0x100000000, 0x300000000, 0x400000000000][nat i 17 6]?.getD 0
--%   let mem := base + 4 * nat i 18 20
--%   let fl := (if bool i 19 then 0x8000 else if bool i 20 then 0x20000 else 0x10000 * nat i 21 2) + nat i 22 200
--%   let len := nat i 23 60
--%   let s := s.setReg Reg.HOST_BOOT_FADDR (BitVec.ofNat 32 fl)
--%   let s := (s.setReg Reg.HOST_BOOT_MADDR_LO (BitVec.ofNat 32 mem)).setReg (Reg.HOST_BOOT_MADDR_LO + 4) (BitVec.ofNat 32 (mem / 2^32))
--%   let s := s.setReg Reg.HOST_BOOT_LEN (BitVec.ofNat 32 len)
--%   let s := s.store (mem - 3) ((List.range 90).map fun k => BitVec.ofNat 8 (mix (i*20+k)))
--%   let s := if nat i 24 4 = 0 then setPoison mem true s else s
--%   let fb := if bool i 25 then 0 else 0x20000 - 8
--%   let s := { s with host := { s.host with flash := (List.range 240).map fun k => (fl / 0x100 * 0x100 + k, BitVec.ofNat 8 (mix (i*21+k) % 255)) } }
--%   let c : BootCmd := ⟨1 + nat i 26 3, fl, mem, len⟩
--%   let s := { s with host := { s.host with boot := if nat i 27 4 = 0 then none else some c } }
--%   K s k n (nat i 28 5) (nat i 29 10) (nat i 30 (len + 5)) (fl - 100 + nat i 32 200) (word i 31) c
def Obligations.HostLinkAndBoot : Prop :=
  ∀ (s : State) (k n speed width done b : Nat) (v : Word) (c : BootCmd), k < 2048 → n < 16 →
    let flagged := fun (f : Fld) (e : Nat) (t : State) => t.bit Reg.HOST_FLAGS f = true ∧ (s.bit Reg.HOST_EVTEN f = true → t.pends e = true)
    let up := s.bit Reg.HOST_LINK F.HOST_LINK_Up = true
    let masked := (s.host.table.get 1 (4 * k + 3)).getLsbD 0 = true
    let goes := s.msixPend.get false k = true ∧ ¬ masked ∧ s.host.fnMask = false ∧ s.host.msixEn = true ∧ s.host.busMaster = true ∧ up
    let fits := 1 ≤ speed ∧ speed ≤ s.fld Reg.HOST_CTL F.HOST_CTL_TargetSpeed
    let lanes := width = 1 ∨ width = 2 ∨ width = 4 ∨ width = 8
    let wasReset := fun (t : State) => t.host.table = ⟨[]⟩ ∧ t.msixPend.get false k = false ∧ t.host.msixEn = false ∧ t.host.fnMask = false ∧
      t.host.busMaster = false ∧ t.host.d3 = false ∧ t.bit Reg.HOST_LINK F.HOST_LINK_MsixEnabled = false ∧
      t.reg (Reg.DP_CTL n) = 0 ∧ t.base48 (Reg.DP_ADDR_LO n) = 0 ∧ t.reg (Reg.DP_STRIDE n) = 0 ∧ t.reg (Reg.DP_STAT n) = 0 ∧
      t.host.aperture.get none n = none ∧ flagged F.HOST_FLAGS_FunctionReset 875 t ∧ t.host.flash = s.host.flash
    let noBurst := ∀ m < 16, s.host.aperture.get none m = none
    let busy := s.bit Reg.HOST_BOOT_STAT F.HOST_BOOT_STAT_Busy = true
    let command := fun (op : Nat) => BootCmd.mk op (s.fld Reg.HOST_BOOT_FADDR F.HOST_BOOT_FADDR_FAddr) (s.base48 Reg.HOST_BOOT_MADDR_LO)
      (s.fld Reg.HOST_BOOT_LEN F.HOST_BOOT_LEN_Length)
    let beyond := 2 ^ s.fld Reg.HOST_BOOT_INFO F.HOST_BOOT_INFO_SizeLog2 < (command 0).flash + (command 0).len
    let inUse := fun (op : Nat) => op ≠ 1 ∧ touchesUse (command op) s = true
    let result := fun (x : Nat) (t : State) => t.fld Reg.HOST_BOOT_STAT F.HOST_BOOT_STAT_Result = x ∧
      (x = 0 → flagged F.HOST_FLAGS_BootDone 877 t) ∧ (x ≠ 0 → flagged F.HOST_FLAGS_BootError 877 t)
    let asked := fun (i : Instr) (op : Nat) =>
      (¬ busy → ¬ beyond → ¬ inUse op → ∃ t, exec i s = .next t ∧ quiet [Reg.HOST_BOOT_STAT] [.host] s t ∧
        t.host = { s.host with boot := some (command op) } ∧ t.bit Reg.HOST_BOOT_STAT F.HOST_BOOT_STAT_Busy = true) ∧
      (busy ∨ beyond ∨ inUse op → ∃ t, exec i s = .next t ∧ Touches [Reg.HOST_BOOT_STAT, Reg.HOST_FLAGS] [] s t ∧ result 1 t ∧
        t.bit Reg.HOST_BOOT_STAT F.HOST_BOOT_STAT_Busy = s.bit Reg.HOST_BOOT_STAT F.HOST_BOOT_STAT_Busy)
    let run := s.host.boot = some c
    let idle := fun (t : State) => t.host.boot = none ∧ t.bit Reg.HOST_BOOT_STAT F.HOST_BOOT_STAT_Busy = false
    let remote := isSeam c.mem s = true
    let low := c.mem + c.len < 0x400000000000
    let flash := fun (t : State) (a : Nat) => flashByte a t
    let reads := fun (a : Nat) => dpAllowed .boot false a s = true ∧ s.poisoned a = false
    let program := fun (l : Nat) (t : State) => t.mem = s.mem ∧ ∀ j < l, flash t (c.flash + j) = flash s (c.flash + j) &&& s.byte (c.mem + j)
    let kept := fun (a l : Nat) (t : State) => b < a ∨ a + l ≤ b → flash t b = flash s b
    let sector : Nat := 2 ^ s.host.eraseLog
    let first : Nat := c.flash / sector * sector
    let sectors : Nat := (c.flash + c.len - first + sector - 1) / sector * sector
    -- messages and the link
    (goes → ∃ t, exec (.msixSend k) s = .next t ∧ quiet [] [.msixPend] s t ∧ t.msixPend = s.msixPend.set false k false) ∧
    (¬ goes → exec (.msixSend k) s = .next s) ∧
    (noBurst → ∃ t, exec .functionReset s = .next t ∧ wasReset t ∧ t.mem = s.mem ∧ t.engs = s.engs ∧ t.jobs = s.jobs) ∧
    (up → noBurst → ∃ t, exec .linkDown s = .next t ∧ wasReset t ∧ flagged F.HOST_FLAGS_LinkDown 874 t ∧ t.mem = s.mem ∧
      t.bit Reg.HOST_LINK F.HOST_LINK_Up = false ∧ t.fld Reg.HOST_LINK F.HOST_LINK_Speed = 0) ∧
    (¬ up → exec .linkDown s = .next s) ∧
    (¬ up → fits → lanes → ∃ t, exec (.linkUp speed width) s = .next t ∧ Touches [Reg.HOST_LINK, Reg.HOST_FLAGS] [.host] s t ∧
      t.bit Reg.HOST_LINK F.HOST_LINK_Up = true ∧ t.fld Reg.HOST_LINK F.HOST_LINK_Speed = speed ∧
      t.fld Reg.HOST_LINK F.HOST_LINK_Width = width ∧ flagged F.HOST_FLAGS_LinkUp 874 t) ∧
    (up ∨ ¬ fits ∨ ¬ lanes → exec (.linkUp speed width) s = .next s) ∧
    (up → fits → speed ≠ s.fld Reg.HOST_LINK F.HOST_LINK_Speed → ∃ t, exec (.speedChange speed) s = .next t ∧
      Touches [Reg.HOST_LINK, Reg.HOST_FLAGS] [.host] s t ∧ t.fld Reg.HOST_LINK F.HOST_LINK_Speed = speed ∧
      flagged F.HOST_FLAGS_SpeedChange 874 t) ∧
    (∃ t, exec (.retrain v) s = .next t ∧ quiet [Reg.HOST_CTL] [.host] s t ∧ t.host = { s.host with retrain := true } ∧
      t.fld Reg.HOST_CTL F.HOST_CTL_Retrain = 0 ∧
      t.fld Reg.HOST_CTL F.HOST_CTL_TargetSpeed = max 1 (min 4 (F.HOST_CTL_TargetSpeed.get v))) ∧
    (∀ a b m d : Bool, ∃ t, exec (.configurationSpaceWrite a b m d) s = .next t ∧ quiet [Reg.HOST_LINK] [.host] s t ∧
      t.host = { s.host with msixEn := a, fnMask := b, busMaster := m, d3 := d } ∧
      t.bit Reg.HOST_LINK F.HOST_LINK_MsixEnabled = a ∧ t.bit Reg.HOST_LINK F.HOST_LINK_BusMaster = m) ∧
    -- the Boot Port
    asked (.bootRead v) 1 ∧ asked (.bootProgram v) 2 ∧ asked (.bootErase v) 3 ∧
    (run → c.op = 1 → low →
      ((∀ j < c.len, dpAllowed .boot true (c.mem + j) s = true ∧ s.poisoned (c.mem + j) = false ∧ (regionOf (c.mem + j) s).isStore = false) →
        ∃ t, exec (.bootDone [] false) s = .next t ∧ idle t ∧ result 0 t ∧ t.host.flash = s.host.flash ∧
          ∀ x, t.byte x = if c.mem ≤ x ∧ x < c.mem + c.len then flash s (c.flash + (x - c.mem)) else s.byte x) ∧
      (0 < c.len → dpAllowed .boot true c.mem s = false → ∃ t, exec (.bootDone [] false) s = .next t ∧ idle t ∧ result 3 t ∧
        t.mem = s.mem)) ∧
    (run → c.op = 2 → low → s.memt.writes = [] →
      ((∀ j < c.len, reads (c.mem + j)) → ∃ t, exec (.bootDone [] false) s = .next t ∧ idle t ∧ result 0 t ∧ program c.len t ∧
        kept c.flash c.len t) ∧
      (0 < c.len → ¬ reads c.mem → ∃ t, exec (.bootDone [] false) s = .next t ∧ idle t ∧ result 3 t ∧
        t.host.flash = s.host.flash ∧ t.mem = s.mem) ∧
      ((∀ j < c.len, reads (c.mem + j)) → ∃ t, exec (.flashBusyTimeout done) s = .next t ∧ idle t ∧ result 2 t ∧ program (min done c.len) t)) ∧
    (run → c.op = 2 → remote → ∃ t, exec (.bootDone [] true) s = .next t ∧ idle t ∧ result 3 t ∧ t.host.flash = s.host.flash) ∧
    (run → c.op = 3 → 0 < c.len → ∃ t, exec (.bootDone [] false) s = .next t ∧ idle t ∧ result 0 t ∧ t.mem = s.mem ∧
      flash t b = if first ≤ b ∧ b < first + sectors then 0xFF else flash s b) ∧
    (run → c.op = 1 → exec (.flashBusyTimeout done) s = .next s) ∧
    (s.host.boot = none → exec (.bootDone [] false) s = .next s ∧ exec (.flashBusyTimeout done) s = .next s)

/-- A running Sleeve's request inside its port's window to an allowed memory is served; any other sets PortFault
with its port. Cuff modes are written outside CUFFED and BROKEN, 0b11 as 0b00. Go starts a load from IDLE only,
else BUSY and Refused; Abort ends CHECKING, VERIFIED or RECEIVING with ABORTED and is Refused while APPLYING.
The check ends with the first failing code of R340 and R341, or enters VERIFIED. From ApplyAt on, at a FAB edge,
the Sleeves of the set are CUFFED; the second pass writes the frames, and then all run with LASTTAG, LASTSET and
LoadDone, or are BROKEN with APPLY_FAULT. The Config Port takes bytes into the staging area, starts the load at
StreamLen, and answers each violation with its code. (14_fabric_sleeves_and_configuration.md: Fabric ports,
Cuffs and Sleeve states, The load, Applying a stream, Config Port, Configuration registers) -/
--% def gen (i : Nat) :=
--%   let s := rdy i
--%   let sl := nat i 1 16
--%   let k := nat i 2 4
--%   let s := s.setReg Reg.MEMC_STAT (F.MEMC_STAT_Active.put 0 15)
--%   let s := s.setReg Reg.MEMC_SIZES (F.MEMC_SIZES_PlainMiB.put 0 8)
--%   let s := s.setReg (Reg.CFG_SLVSTAT sl) (BitVec.ofNat 32 (if bool i 3 then 1 else nat i 4 4))
--%   let base := [0x1000000000, 0x1000000, 0x4000000, 0x100000000][nat i 5 4]?.getD 0
--%   let s := s.setReg (Reg.CFG_FPWIN_LO sl k) (BitVec.ofNat 32 base)
--%   let s := s.setReg (Reg.CFG_FPWIN_HI sl k) (F.CFG_FPWIN_HI_SizeLog2.put (F.CFG_FPWIN_HI_WinEnable.put (F.CFG_FPWIN_HI_BaseHi.put (word i 6) (base / 2^32)) (if nat i 7 4 = 0 then 0 else 1)) 12)
--%   let data := (List.range (nat i 8 20)).map fun j => BitVec.ofNat 8 (mix (i*9+j))
--%   let a := base + 64 * nat i 9 70 + nat i 10 50
--%   let s := s.setReg (Reg.CFG_CUFF sl 1) (word i 11)
--%   let st := nat i 12 5
--%   let s := s.setReg Reg.CFG_STATUS (F.CFG_STATUS_State.put (word i 13) st)
--%   let s := s.setReg Reg.CFG_EVTEN (word i 14)
--%   let s := s.setReg Reg.CFG_CTL (BitVec.ofNat 32 (if nat i 15 4 = 0 then 0 else 2 ^ F.CFG_CTL_PortArm.lsb))
--%   let s := s.setReg Reg.CFG_PORTSTAT (F.CFG_PORTSTAT_Mode.put 0 (nat i 16 3))
--%   let cnt := if bool i 17 then nat i 18 100 else 128 + nat i 19 30
--%   let s := s.setReg Reg.CFG_PORTCNT (BitVec.ofNat 32 cnt)
--%   let s := s.store 0x2000008 (leBytes 4 (150 + nat i 20 20))
--%   let s := s.store (a - 3) ((List.range 80).map fun j => BitVec.ofNat 8 (mix (i*20+j)))
--%   let s := if nat i 21 5 = 0 then setPoison a true s else s
--%   let now := 1000000 + nat i 22 2
--%   let l : CfgLoad := ⟨nat i 23 3, if bool i 24 then 0x2000000 else 0x1000000000, bool i 25, 1 + nat i 26 3, 7, [1,2], 0, 0, none⟩
--%   let s := (List.range 3).foldl (fun s j => s.setReg (Reg.CFG_SLVSTAT j) (BitVec.ofNat 32 (if bool i 27 then 2 else nat i (28+j) 4))) s
--%   let s := s.setReg Reg.CFG_APPLYAT_LO (BitVec.ofNat 32 (if bool i 32 then 0 else 4999 + nat i 33 3))
--%   let p : CfgPort := ⟨bool i 34, bool i 35, bool i 36, nat i 37 4 = 0, now - 1601 + nat i 38 3, if bool i 39 then 5 else now - 16000001 + nat i 40 3⟩
--%   let s := { s with cfg := { s.cfg with load := if nat i 41 4 = 0 then none else some l, port := p, edge := if nat i 50 3 = 0 then none else some (now - 4 * nat i 51 3), released := if bool i 52 then ⟨[]⟩ else Tab.mk ((List.range 16).map fun j => (j, 17000000)) } }
--%   K ({ s with clock := { s.clock with tick := if bool i 42 then now else 17000000 + nat i 43 5, lt := 5000 } }) sl k (nat i 44 128) a (word i 45 &&& 0x3) data l (BitVec.ofNat 16 (word i 46).toNat) (nat i 47 16) (bool i 49) (bool i 48)
def Obligations.ConfigurationStreams : Prop :=
  ∀ (s : State) (sl k o a : Nat) (v : Word) (data : List Byte) (l : CfgLoad) (w : BitVec 16) (pair : Nat) (part level : Bool),
    sl < 16 → k < 4 → o < 128 → pair < 16 →
    let now := s.clock.tick
    let st := s.fld Reg.CFG_STATUS F.CFG_STATUS_State
    let slv := fun (j : Nat) (t : State) => t.fld (Reg.CFG_SLVSTAT j) F.CFG_SLVSTAT_State
    let stateIs := fun (x : Nat) (t : State) => t.fld Reg.CFG_STATUS F.CFG_STATUS_State = x
    let flagged := fun (f : Fld) (e : Nat) (t : State) => t.bit Reg.CFG_STATUS f = true ∧ (s.bit Reg.CFG_EVTEN f = true → t.pends e = true)
    let code := fun (t : State) => t.fld Reg.CFG_RESULT F.CFG_RESULT_Code
    let idle := fun (t : State) => stateIs 0 t ∧ t.cfg.load = none ∧ t.bit Reg.CFG_STATUS F.CFG_STATUS_Locked = false
    let failed := fun (c : Nat) (t : State) => idle t ∧ code t = c ∧ flagged F.CFG_STATUS_LoadError 937 t
    let refused := fun (t : State) => flagged F.CFG_STATUS_Refused 937 t ∧ stateIs st t ∧ t.cfg = s.cfg
    -- fabric ports
    let hi := Reg.CFG_FPWIN_HI sl k
    let size : Nat := 2 ^ s.fld hi F.CFG_FPWIN_HI_SizeLog2
    let low : Nat := (s.reg (Reg.CFG_FPWIN_LO sl k)).toNat + 4294967296 * s.fld hi F.CFG_FPWIN_HI_BaseHi
    let base : Nat := low - low % size
    let n := data.length
    let whole := 0 < n ∧ a % 64 + n ≤ 64
    let serves := fun (write : Bool) => s.bit hi F.CFG_FPWIN_HI_WinEnable = true ∧ (write = true → s.bit hi F.CFG_FPWIN_HI_Write = true) ∧
      base ≤ a ∧ a + n ≤ base + size ∧ fabricMemory write a n s = true
    let clean := s.memt.writes = [] ∧ frozenIn a n s = false ∧ ∀ j < n, s.poisoned (a + j) = false
    let faulted := fun (t : State) => t.bit (Reg.CFG_SLVSTAT sl) F.CFG_SLVSTAT_PortFault = true ∧
      t.fld (Reg.CFG_SLVSTAT sl) F.CFG_SLVSTAT_FaultPort = k ∧ t.mem = s.mem
    -- the load
    let src : Nat := if F.CFG_LOAD_Src.get v = 1 then 1 else 0
    let plainV := F.CFG_LOAD_Abort.get v = 0 ∧ F.CFG_LOAD_Go.get v = 0
    let at' : Nat := if src = 1 then s.base48 Reg.CFG_SRC_LO else 0x2000000
    let run := s.cfg.load = some l
    let copies := l.src = 1 ∧ l.full = false
    let location := l.src = 1 ∧ l.addr % 4 ≠ 0 ∨ l.full = true ∧ l.region = none ∨
      copies ∧ (List.range (streamLen l.addr s)).all (fun j => loaderReads (l.addr + j) s) = false
    let head : Nat :=
      if anyPoison l.addr 128 s = true then 0x12
      else if hdrOk l.addr s = false then 0x02
      else if anyPoison (trailerOf l.addr s) 29888 s = true then 0x12
      else if keyAccepted (hdrSlot l.addr s) (streamKey l.addr s) s = false then 0x03
      else if hdrRbVal l.addr s < rbCounter (hdrRbIdx l.addr s) s then 0x04
      else if firstKey l.addr s = none then 0x05
      else if l.full = false ∧ 1572864 < streamLen l.addr s then 0x07
      else if location then 0x06 else 0
    let k0 := (firstKey l.addr s).getD []
    let pass := runPackets l.addr k0 s
    let tagOk := computedTag l.addr k0 s = streamTag l.addr s
    let signed := Config.slhVerify (streamKey l.addr s) [] (s.bytes l.addr 128 ++ streamTag l.addr s) (streamSig l.addr s) = true
    let frames := pass.1.frames.foldl (fun (f : Tab (List Word)) x => f.set [] x.1 x.2) s.cfg.frames
    let inSet := fun (j : Nat) => l.set.testBit j = true
    let begun := s.cfg.edge.any (fun e => e < now) = true
    let first := s.cfg.edge = none
    let edge := now % 4 = 0
    let due := s.reg64 Reg.CFG_APPLYAT_LO = 0 ∨ s.reg64 Reg.CFG_APPLYAT_LO ≤ s.clock.lt
    let again := anyPoison l.addr (streamLen l.addr s) s = false ∧ pass.2.isNone = true ∧ computedTag l.addr k0 s = l.tag
    -- the Config Port
    let port := s.cfg.port
    let mode := s.fld Reg.CFG_PORTSTAT F.CFG_PORTSTAT_Mode
    let armed := s.bit Reg.CFG_CTL F.CFG_CTL_PortArm = true ∧ (st = 0 ∨ st = 1)
    let shut := port.shut = true ∧ (port.low = true ∨ now < port.rise + 1600)
    let ignoring := port.low = true ∧ port.begun = true ∧ port.ignore = true
    let deaf := port.low = true ∧ port.ignore = true
    let count := if st = 0 then 0 else s.fld Reg.CFG_PORTCNT F.CFG_PORTCNT_Bytes
    let short := fun (n : Nat) => count + n < 128 ∨ 128 ≤ count ∧ count + n < streamLen 0x2000000 s ∧ streamLen 0x2000000 s ≤ 1572864
    let took := fun (bs : List Byte) (t : State) => stateIs 1 t ∧ t.fld Reg.CFG_PORTCNT F.CFG_PORTCNT_Bytes = count + bs.length ∧
      t.cfg.port.last = now ∧ ∀ b, t.byte b = if 0x2000000 + count ≤ b ∧ b < 0x2000000 + count + bs.length
        then bs[b - (0x2000000 + count)]?.getD 0 else s.byte b
    let viol := fun (c : Nat) (t : State) => t.fld Reg.CFG_PORTVIOL F.CFG_PORTVIOL_Code = c ∧
      t.fld Reg.CFG_PORTVIOL F.CFG_PORTVIOL_Count = min 0xFFFF (s.fld Reg.CFG_PORTVIOL F.CFG_PORTVIOL_Count + 1) ∧
      flagged F.CFG_STATUS_PortViolation 938 t ∧ t.mem = s.mem
    let word2 := [w.extractLsb' 0 8, w.extractLsb' 8 8]
    let silent := st = 1 ∧ port.last + 16000000 ≤ now
    -- fabric ports, Cuffs and cue outputs
    (slv sl s = 1 → whole → serves true → clean → ∃ t, exec (.fabricPortRequest sl k true a data) s = .next t ∧
      ∀ b, t.byte b = if a ≤ b ∧ b < a + n then data[b - a]?.getD 0 else s.byte b) ∧
    (slv sl s = 1 → whole → serves false → clean → exec (.fabricPortRequest sl k false a data) s = .next s) ∧
    (slv sl s = 1 → whole → ∀ write : Bool, ¬ serves write → ∃ t, exec (.fabricPortRequest sl k write a data) s = .next t ∧ faulted t) ∧
    (slv sl s ≠ 1 → exec (.fabricPortRequest sl k part a data) s = .next s) ∧
    (slv sl s < 2 → ∃ t, exec (.cuffWrite sl 1 v) s = .next t ∧ quiet [Reg.CFG_CUFF sl 1] [] s t ∧
      let m := v.toNat / 4 ^ pair % 4
      (t.reg (Reg.CFG_CUFF sl 1)).toNat / 4 ^ pair % 4 = if m = 3 then 0 else m) ∧
    (slv sl s = 2 ∨ slv sl s = 3 → ∃ t, exec (.cuffWrite sl 1 v) s = .next t ∧ refused t ∧ t.reg (Reg.CFG_CUFF sl 1) = s.reg (Reg.CFG_CUFF sl 1)) ∧
    (slv (o / 8) s = 1 → now % 4 = 1 → now ≠ s.cfg.released.get 0 (o / 8) + 1 → ∃ t, exec (.fabricCueOutput o level) s = .next t ∧
      (s.cue.levels.get false (768 + o) = level → t = s) ∧
      (s.cue.levels.get false (768 + o) ≠ level → t = sourceEvent { src := 768 + o, level := some level, frac := 0 }
        { s with cue := { s.cue with levels := s.cue.levels.set false (768 + o) level } })) ∧
    (slv (o / 8) s ≠ 1 ∨ now % 4 ≠ 1 ∨ now = s.cfg.released.get 0 (o / 8) + 1 → exec (.fabricCueOutput o level) s = .next s) ∧
    -- the load
    (plainV → st = 0 → ∃ t, exec (.loadGo v) s = .next t ∧ quiet [Reg.CFG_LOAD, Reg.CFG_STATUS] [.cfg] s t ∧ stateIs 2 t ∧
      t.bit Reg.CFG_STATUS F.CFG_STATUS_Locked = true ∧ t.cfg.load.map (fun l => (l.src, l.addr)) = some (src, at') ∧
      t.fld Reg.CFG_LOAD F.CFG_LOAD_Src = src) ∧
    (plainV → st ≠ 0 → ∃ t, exec (.loadGo v) s = .next t ∧ refused t ∧ code t = 1) ∧
    (plainV → st = 0 → ∃ t, exec (.loadAbort v) s = .next t ∧ quiet [Reg.CFG_LOAD] [] s t) ∧
    (plainV → st = 4 → ∃ t, exec (.loadAbort v) s = .next t ∧ refused t) ∧
    (plainV → st = 1 ∨ st = 2 ∨ st = 3 → ∃ t, exec (.loadAbort v) s = .next t ∧ failed 0x15 t ∧ t.mem = s.mem ∧ (st = 1 → t.cfg.port.shut = true)) ∧
    (run → st = 2 → ∃ t, exec .loadCheckDone s = .next t ∧ t.cfg.frames = s.cfg.frames ∧ (∀ j < 16, slv j t = slv j s) ∧
      (head ≠ 0 → failed head t) ∧
      (head = 0 → ¬ copies → (pass.2.isNone = true → tagOk → signed → stateIs 3 t ∧ t.cfg.load.map (·.set) = some (pass.1.set.getD 0)) ∧
        (pass.2.isNone = true → ¬ tagOk → failed 0x10 t) ∧ (pass.2.isNone = true → tagOk → ¬ signed → failed 0x11 t) ∧
        (pass.2.isNone = false → failed ((pass.2.map (·.code)).getD 0) t ∧ (t.reg Reg.CFG_ERROFS).toNat = (128 + pass.1.ofs) % 2 ^ 32))) ∧
    (s.cfg.load = none ∨ st ≠ 2 → exec .loadCheckDone s = .next s) ∧
    (run → st = 3 → due → ∃ t, exec .applyStart s = .next t ∧ stateIs 4 t ∧
      (edge ∧ first → t.cfg.edge = some now ∧ ∀ j < 16, slv j t = if inSet j then 2 else slv j s) ∧
      (¬ edge ∨ ¬ first → t.cfg = s.cfg ∧ ∀ j < 16, slv j t = slv j s)) ∧
    (run → st = 3 → ¬ due → exec .applyStart s = .next s) ∧
    (run → st = 4 → edge → begun → ∃ t, exec .sleeveRelease s = .next t ∧ idle t ∧ t.cfg.frames = frames ∧
      (again → (∀ j < 16, inSet j → slv j t = 1 ∧ t.cfg.released.get 0 j = now) ∧ code t = 0 ∧ flagged F.CFG_STATUS_LoadDone 936 t ∧
        (t.reg Reg.CFG_LASTSET).toNat = l.set % 2 ^ 32 ∧ t.reg Reg.CFG_LASTID = l.id) ∧
      (¬ again → (∀ j < 16, inSet j → slv j t = 3) ∧ failed 0x14 t)) ∧
    (run → ¬ (st = 4 ∧ edge ∧ begun) → exec .sleeveRelease s = .next s) ∧
    -- the Config Port
    (mode = 1 → ¬ shut → ¬ ignoring → armed → short n → 0 < n → ∃ t, exec (.configWriteData data) s = .next t ∧ took data t) ∧
    (mode = 1 → ¬ shut → ¬ ignoring → armed → 128 ≤ count → count < streamLen 0x2000000 s → streamLen 0x2000000 s ≤ count + n →
      streamLen 0x2000000 s ≤ 1572864 → ∃ t, exec (.configWriteData data) s = .next t ∧ stateIs 2 t ∧
      flagged F.CFG_STATUS_PortReceived 939 t ∧ t.cfg.port.shut = true ∧ t.cfg.load.map (fun l => (l.src, l.addr)) = some (2, 0x2000000)) ∧
    (mode = 1 → ¬ shut → ¬ ignoring → ¬ armed → ∃ t, exec (.configWriteData data) s = .next t ∧ viol 4 t) ∧
    (mode = 1 → shut ∨ ignoring → ∃ t, exec (.configWriteData data) s = .next t ∧ quiet [] [.cfg] s t) ∧
    (mode = 1 → ∃ t, exec .configReadStatus s = .next t ∧ quiet [] [.cfg] s t ∧
      (port.low = false ∨ port.begun = false → t.cfg.port.begun = true ∧ t.cfg.port.ignore = true)) ∧
    (mode = 1 → port.low = false ∨ port.begun = false → ∃ t, exec .unknownQspiCommand s = .next t ∧ viol 3 t ∧ t.cfg.port.ignore = true) ∧
    (mode = 2 → ¬ shut → ¬ deaf → armed → short 2 → ∃ t, exec (.configParallelWord w true) s = .next t ∧ took word2 t) ∧
    (mode = 2 → ¬ shut → armed → ∃ t, exec (.configParallelWord w false) s = .next t ∧ viol 1 t ∧ (st = 1 → failed 0x13 t ∧ t.cfg.port.shut = true)) ∧
    (mode = 2 → ¬ shut → ¬ deaf → ¬ armed → ∃ t, exec (.configParallelWord w level) s = .next t ∧ viol 4 t) ∧
    (mode ≠ 1 → exec (.configWriteData data) s = .next s ∧ exec .configReadStatus s = .next s ∧ exec .unknownQspiCommand s = .next s) ∧
    (mode ≠ 2 → exec (.configParallelWord w level) s = .next s) ∧
    (port.low = true → ∃ t, exec (.configCsRise part) s = .next t ∧ t.cfg.port.low = false ∧ t.cfg.port.rise = now ∧ (part = true → viol 2 t)) ∧
    (port.low = false → exec (.configCsRise part) s = .next s) ∧
    (silent → ∃ t, exec .portSilenceTimeout s = .next t ∧ failed 0x13 t ∧ viol 6 t ∧ t.cfg.port.shut = true) ∧
    (¬ silent → exec .portSilenceTimeout s = .next s)

/-- Go starts the operation of Op with the address of MNT_REQ and sets ReqBusy, or while one runs is Refused; an
ATTEST samples its body at its start. At its end a REQUEST's Result is that of the first failing check of R360;
accepted, ENROL writes the slot hash, REVOKE revokes, DEBUG_UNLOCK opens the scope until Expiry; the nonce is
renewed whatever the Result. VERIFY_IMAGE measures a genuine image and raises the shadow, else FwRejected.
ATTEST writes its report behind the nonce. MNT_RBADV is refused above 64, above the shadow or during a burn, and
burns otherwise. An unlock ends at Expiry or DebugLock: HALTED engines run, breakpoints clear. RgnLock locks and
records the regions. (15_mantle_security.md: Fuses, Firmware images, Requests, Attestation, Protected regions,
Mantle registers) -/
--% def gen (i : Nat) :=
--%   let s := rdy i
--%   let s := s.setReg Reg.MNT_STATUS (F.MNT_STATUS_State.put (word i 1 &&& 0xFFFFFFF3#32 ||| (if bool i 2 then 8#32 else 0)) (if nat i 3 6 = 0 then 2 else 1))
--%   let s := s.setReg Reg.MNT_STATUS (s.reg Reg.MNT_STATUS &&& (if bool i 70 then ~~~4#32 else ~~~0#32) &&& (if bool i 71 then ~~~0x60#32 else ~~~0#32))
--%   let s := s.setReg Reg.MNT_EVTEN (word i 4)
--%   let s := s.setReg Reg.MEMC_STAT (F.MEMC_STAT_Active.put 0 15)
--%   let s := s.setReg Reg.MEMC_SIZES (F.MEMC_SIZES_PlainMiB.put 0 8)
--%   let a := if bool i 5 then 0x1000000000 + 64 * nat i 6 100 else if bool i 7 then 0x100000040 else 0x100000040 + nat i 8 20
--%   let s := (s.setReg Reg.MNT_REQ_LO (BitVec.ofNat 32 a)).setReg (Reg.MNT_REQ_LO + 4) (BitVec.ofNat 32 (a / 2^32))
--%   let s := s.store a (leBytes 4 0xAB014D43 ++ leBytes 4 (1 + nat i 9 3) ++ leBytes 4 (nat i 10 5) ++ [0,0,0,0] ++ (if nat i 11 4 = 0 then [9] else []))
--%   let s := if nat i 12 6 = 0 then setPoison a true s else s
--%   let o : MntOp := ⟨1 + nat i 13 3, a, nat i 14 8 = 0, if nat i 15 4 = 0 then [] else (List.range 912).map (fun k => BitVec.ofNat 8 (k * 7))⟩
--%   let ix := nat i 16 64
--%   let new := 1 + nat i 17 70
--%   let s := { s with mantle := { s.mantle with op := if nat i 18 4 = 0 then none else some o, burn := if nat i 19 3 = 0 then none else some (ix, new), fuses := { s.mantle.fuses with ctrs := (⟨[]⟩ : Tab Nat).set 0 ix (nat i 20 20) }, shadows := (⟨[]⟩ : Tab Nat).set 0 ix (if bool i 21 then 70 else nat i 22 20), expiry := 4999 + nat i 23 3 } }
--%   let s := s.setReg (Reg.MNT_RGN_CTL 2) (word i 24)
--%   let v := F.MNT_RBADV_Index.put (F.MNT_RBADV_Value.put (word i 25) (nat i 26 70)) ix
--%   let s := s.setEng 3 { s.eng 3 with st := .halted }
--%   K ({ s with clock := { s.clock with tick := 1000000, lt := 5000 } }) v (bool i 27) o (attestReport o.body) ix new (nat i 28 24) (nat i 29 8) (nat i 30 192)
def Obligations.MantleOperations : Prop :=
  ∀ (s : State) (v : Word) (ok : Bool) (o : MntOp) (report : List Byte) (index new k j n : Nat), k < 24 → j < 8 → n < 192 →
    let a := s.base48 Reg.MNT_REQ_LO
    let busy := s.bit Reg.MNT_STATUS F.MNT_STATUS_ReqBusy = true
    let flagged := fun (f : Fld) (e : Nat) (t : State) => t.bit Reg.MNT_STATUS f = true ∧ (s.bit Reg.MNT_EVTEN f = true → t.pends e = true)
    let failsafe := s.fld Reg.MNT_STATUS F.MNT_STATUS_State = 2
    let slot := fun (j : Nat) (t : State) => t.mantle.fuses.slots.get OwnerSlot.init j
    let counter := fun (i : Nat) (t : State) => t.mantle.fuses.ctrs.get 0 i
    let started := fun (i : Instr) (op : Nat) =>
      (¬ busy → ∃ t, exec i s = .next t ∧ quiet [Reg.MNT_REQCTL, Reg.MNT_STATUS] [.mantle] s t ∧
        t.bit Reg.MNT_STATUS F.MNT_STATUS_ReqBusy = true ∧ t.fld Reg.MNT_REQCTL F.MNT_REQCTL_Op = op ∧
        t.mantle = { s.mantle with op := some ⟨op, a, false,
          if op = 3 ∧ mntReachAll a 32 s = true ∧ anyPoison a 32 s = false then attestBody (s.bytes a 32) s else []⟩, opAt := s.clock.tick }) ∧
      (busy → ∃ t, exec i s = .next t ∧ Touches [Reg.MNT_REQCTL, Reg.MNT_STATUS] [] s t ∧ flagged F.MNT_STATUS_ReqRefused 909 t)
    let run := s.mantle.op = some o ∧ o.seam = false
    let b := o.addr
    let command := (s.byte (b + 4)).toNat
    let target := (s.word (b + 4)).toNat / 2 ^ 10 % 4
    let reachable := fun (n : Nat) => mntReachAll b n s = true ∧ anyPoison b n s = false
    let request : Nat :=
      if failsafe then 0xB else if b % 64 ≠ 0 then 2 else if ¬ reachable 29952 then 0xA
      else if reqFormOk b s = false then 2
      else if s.bytes (b + 0x10) 8 ≠ serialBytes s then 3
      else if s.bytes (b + 0x20) 32 ≠ nonceBytes s then 4
      else if reqKeyOk b s = false then 5
      else if Config.slhVerify (s.bytes (b + 0x60) 64) (ascii "FILROS-MNTCMD") (s.bytes b 0x60) (s.bytes (b + 0xA0) 29792) = false then 6
      else if reqAllowed b s = false then 8 else 0
    let header := s.bytes b 128
    let formed := imgFormOk header = true
    let length := imgBodyLen header
    let whole : Nat := 128 + if formed then length + 29856 else 0
    let key := s.bytes (b + 128 + length) 64
    let image : Nat :=
      if failsafe then 0xB else if ¬ reachable whole then 0xA else if ¬ formed then 2
      else if keyAccepted (imgSlot header) key s = false then 5
      else if shake32 (s.bytes (b + 128) length) ≠ (header.drop 0x28).take 32 then 6
      else if Config.slhVerify key (ascii "FILROS-FIRMWARE") header (s.bytes (b + 192 + length) 29792) = false then 6
      else if imgVal header < counter (imgIndex header) s then 7 else 0
    let ended := fun (r : Nat) (t : State) => t.bit Reg.MNT_STATUS F.MNT_STATUS_ReqBusy = false ∧ t.mantle.op = none ∧
      t.fld Reg.MNT_REQSTAT F.MNT_REQSTAT_Result = r ∧ (r ≠ 0 → flagged F.MNT_STATUS_ReqRefused 909 t)
    let renewed := fun (t : State) => t.mantle.reqs = s.mantle.reqs + 1 ∧
      t.reg (Reg.MNT_NONCE j) = (wordsOf (nonceOf (startCount t).toNat (s.mantle.reqs + 1))).getD j 0
    let report' : Nat := if failsafe then 0xB else if o.body = [] ∨ mntReachAll (b + 0x40) 50768 s = false then 0xA else 0
    let i := F.MNT_RBADV_Index.get v
    let x := F.MNT_RBADV_Value.get v
    let burning := s.bit Reg.MNT_STATUS F.MNT_STATUS_Burning = true
    let shadow := s.mantle.shadows.get 0 i
    let burn := s.mantle.burn = some (index, new)
    let open' := s.fld Reg.MNT_STATUS F.MNT_STATUS_DebugScope ≠ 0
    let closed := fun (t : State) => t.fld Reg.MNT_STATUS F.MNT_STATUS_DebugScope = 0 ∧ t.reg64 Reg.MNT_DBGEXP_LO = 0 ∧
      flagged F.MNT_STATUS_DebugChange 907 t ∧ (t.eng n).st = (if (s.eng n).st = .halted then .run else (s.eng n).st) ∧
      t.bit (Reg.ME_DBGCTL n) F.ME_DBGCTL_Attached = false ∧ t.reg (Reg.ME_BKPT_LO n 1) = 0 ∧
      ∀ a, a < 0x3000000 ∨ 0x3040000 ≤ a → t.byte a = s.byte a
    let region : Nat := k / 3
    let enabled := s.bit (Reg.MNT_RGN_CTL region) F.MNT_RGN_CTL_RgnEnable = true
    -- operations
    started (.enrol v) 1 ∧ started (.revoke v) 1 ∧ started (.debugUnlock v) 1 ∧ started (.verifyImage v) 2 ∧ started (.attest v) 3 ∧
    (run → o.op = 1 → ∃ t, exec (.mantleOperationDone ok) s = .next t ∧ (¬ failsafe → renewed t) ∧
      (request ≠ 0 → ended request t ∧ t.mantle.fuses = s.mantle.fuses) ∧
      (request = 0 → command = 1 ∧ ok = true → ended 0 t ∧ (slot target t).enrolled = true ∧
        (slot target t).hash = s.bytes (b + 0x40) 32 ∧ flagged F.MNT_STATUS_SlotChanged 905 t) ∧
      (request = 0 → command = 2 ∧ ok = true → ended 0 t ∧ (slot target t).revoked = true ∧ flagged F.MNT_STATUS_SlotChanged 905 t) ∧
      (request = 0 → command ≠ 3 ∧ ok = false → ended 9 t) ∧
      (request = 0 → command = 3 → ended 0 t ∧ t.fld Reg.MNT_STATUS F.MNT_STATUS_DebugScope = (s.word (b + 8)).toNat % 4 ∧
        t.mantle.expiry = leNat (s.bytes (b + 0x18) 8) ∧ flagged F.MNT_STATUS_DebugChange 907 t)) ∧
    (run → o.op = 2 → ∃ t, exec (.mantleOperationDone ok) s = .next t ∧ ended image t ∧ t.mantle.fuses = s.mantle.fuses ∧ t.mem = s.mem ∧
      (image ≠ 0 → flagged F.MNT_STATUS_FwRejected 904 t ∧ t.reg (Reg.MNT_FWMEAS j) = s.reg (Reg.MNT_FWMEAS j)) ∧
      (image = 0 → flagged F.MNT_STATUS_FwVerified 904 t ∧ t.reg (Reg.MNT_FWMEAS j) = (wordsOf (shake32 header)).getD j 0 ∧
        t.fld Reg.MNT_FWINFO F.MNT_FWINFO_RollbackIdx = imgIndex header ∧ imgVal header ≤ t.mantle.shadows.get 0 (imgIndex header))) ∧
    (run → o.op = 3 → report = attestReport o.body → s.memt.writes = [] → s.poison.cells = [] →
      frozenIn (b + 0x40) report.length s = false →
      (∀ c < 4, channelFailed c s = false) →
      ∃ t, exec (.mantleOperationDone ok) s = .next t ∧ ended report' t ∧
      (report' = 0 → t.mem = (s.store (b + 0x40) report).mem ∧ flagged F.MNT_STATUS_AttestDone 908 t) ∧ (report' ≠ 0 → t.mem = s.mem)) ∧
    (s.mantle.op = none → exec (.mantleOperationDone ok) s = .next s) ∧
    (s.mantle.op = some o → o.seam = true → s.seam.serve = none → ∃ t, exec (.mantleOperationDone ok) s = .next t ∧
      quiet [Reg.MNT_STATUS] [.mantle] s t ∧ t.mantle = { s.mantle with op := none } ∧
      t.bit Reg.MNT_STATUS F.MNT_STATUS_ReqBusy = false) ∧
    -- rollback counters
    (burning ∨ 64 < x ∨ shadow < x → ∃ t, exec (.rollbackAdvance v) s = .next t ∧ Touches [Reg.MNT_STATUS] [] s t ∧
      flagged F.MNT_STATUS_ReqRefused 909 t) ∧
    (¬ burning → x ≤ 64 → x ≤ shadow → x ≤ counter i s → exec (.rollbackAdvance v) s = .next s) ∧
    (¬ burning → x ≤ 64 → x ≤ shadow → counter i s < x → ∃ t, exec (.rollbackAdvance v) s = .next t ∧ quiet [Reg.MNT_STATUS] [.mantle] s t ∧
      t.mantle = { s.mantle with burn := some (i, x), burnAt := s.clock.tick } ∧ t.bit Reg.MNT_STATUS F.MNT_STATUS_Burning = true) ∧
    (burn → ∃ t, exec (.fuseBurnDone true) s = .next t ∧ Touches [Reg.MNT_STATUS] [.mantle] s t ∧ t.mantle.burn = none ∧
      counter index t = new ∧ t.bit Reg.MNT_STATUS F.MNT_STATUS_Burning = false ∧ flagged F.MNT_STATUS_RbAdvanced 906 t) ∧
    (burn → counter index s < new → ∃ t, exec (.fuseBurnDone false) s = .next t ∧ t.mantle.burn = none ∧ counter index s ≤ counter index t ∧
      counter index t < new ∧ t.bit Reg.MNT_STATUS F.MNT_STATUS_Burning = false ∧ flagged F.MNT_STATUS_FuseFault 911 t) ∧
    (s.mantle.burn = none → exec (.fuseBurnDone ok) s = .next s) ∧
    -- the unlock and the regions
    (open' → F.MNT_CTL_RgnLock.get v = 0 → ∃ t, exec (.debugLock v) s = .next t ∧ closed t) ∧
    (¬ open' → F.MNT_CTL_RgnLock.get v = 0 → exec (.debugLock v) s = .next s) ∧
    (open' → s.mantle.expiry ≤ s.clock.lt → ∃ t, exec .unlockExpiry s = .next t ∧ closed t) ∧
    (¬ open' ∨ s.clock.lt < s.mantle.expiry → exec .unlockExpiry s = .next s) ∧
    (F.MNT_CTL_DebugLock.get v = 0 → ∃ t, exec (.rgnLock v) s = .next t ∧ quiet [Reg.MNT_STATUS] [.mem, .poison] s t ∧
      t.bit Reg.MNT_STATUS F.MNT_STATUS_RgnLocked = true ∧
      t.word (0x3006400 + 4 * k) = (if ¬ enabled then 0 else if k % 3 = 0 then s.reg (Reg.MNT_RGN_LO region)
        else if k % 3 = 1 then s.reg (Reg.MNT_RGN_HI region) else s.reg (Reg.MNT_RGN_CTL region)) ∧
      ∀ a, a < 0x3000000 ∨ 0x3040000 ≤ a → t.byte a = s.byte a)

/-- PortEnable puts an OFF port in TRAINING, Retrain a port that runs; training on two lanes or more makes it UP
with 64 credits, LanesActive and the partner's identity. A lane lost is spared, or with fewer than two left the
port goes to TRAINING. Silence of 2 µs takes an open port down: its unacknowledged flits are discarded and
counted, an own READ among them is answered UNREACHABLE. A good flit's Ack frees the replay buffer, CreditRet
adds credits up to 64, Nak replays; a bad CRC is a violation with a Nak, a stomped flit nothing. HELLO and
LANE_MAP act in their states, else 0x0A; a bad header is 0x03. IDLE flits leave after 1 µs or to carry a Nak or
credits. 4 µs without progress replays, the eighth time the port goes down. Release ends QUARANTINE.
(16_seam_link.md: Port states, Flits, Port failure and failover, Partner violations and quarantine, Events, Seam
registers) -/
--% def gen (i : Nat) :=
--%   let s := rdy i
--%   let k := nat i 1 4
--%   let st := if bool i 2 then 2 else nat i 3 4
--%   let s := s.setReg (Reg.SL_PSTAT k) (F.SL_PSTAT_State.put (F.SL_PSTAT_LanesActive.put (word i 4) (if bool i 5 then 15 else nat i 6 16)) st)
--%   let s := s.setReg (Reg.SL_PCTL k) (BitVec.ofNat 32 (nat i 7 2 + 16 * (if bool i 8 then 15 else nat i 9 16)))
--%   let s := s.setReg (Reg.SL_PEVTEN k) (word i 10)
--%   let s := s.setReg (Reg.SL_PVIOL k) (word i 11)
--%   let s := s.setReg (Reg.SL_PVIOLCFG k) (BitVec.ofNat 32 (nat i 12 3 + 65536 * (1 + nat i 13 3)))
--%   let s := s.setReg (Reg.SL_PCNT k) (word i 14)
--%   let s := s.setReg Reg.SL_CTL (BitVec.ofNat 32 (0x1010 + 0x1E000))
--%   let now := 2000000
--%   let g : Flit := { noFlit with kind := 2, cls := 2, src := if bool i 15 then 0x10 else 0x44, tid := 9, dst := 0x99 }
--%   let rep := (List.range (nat i 16 4)).map fun j => { g with seq := 100 + j }
--%   let x : SeamPort := { SeamPort.init with expect := nat i 17 4096, nextSeq := 100 + rep.length, replay := rep, credits := nat i 18 65, given := nat i 19 3, owed := nat i 20 20, nak := if bool i 21 then none else some 2, sentAt := now - 1601 + nat i 22 3, gotAt := now - 3201 + nat i 23 3, progAt := now - 6401 + nat i 24 3, trainAt := now - 1600001 + nat i 25 3, replays := if bool i 26 then 8 else nat i 27 8, viols := (List.range (nat i 28 4)).map fun j => now - 1600 * j }
--%   let x := if nat i 60 3 = 0 then { x with replay := [] } else x
--%   let x := if nat i 61 3 = 0 then { x with waiting := [{ g with src := 0x44 }] } else x
--%   let s := s.setSport k x
--%   let r : SeamReq := ⟨k, 9, 2, .engine 5, 0, 0x400000000000, 7, false, false⟩
--%   let s := { s with seam := { s.seam with reqs := if bool i 29 then [r] else [] } }
--%   let s := s.setReg (Reg.SL_ROUTE 0x99) (BitVec.ofNat 32 0x77)
--%   let f : Flit := { noFlit with kind := if nat i 30 5 = 0 then 2 else 1, crcOk := nat i 31 6 != 0, stomped := bool i 32, clean := nat i 33 8 != 0, ack := (100 + rep.length - 1 + (if nat i 62 5 = 0 then 4 else 0) - (if bool i 34 then x.replay.length else nat i 35 5)) % 4096, credit := if bool i 36 then 0 else nat i 37 16, nak := nat i 38 4 = 0, payload := (List.range 6).map (fun j => BitVec.ofNat 8 (mix (i * 9 + j))), len := 6 }
--%   let f := if bool i 39 then { f with kind := 0 } else f
--%   K ({ s with clock := { s.clock with tick := now, lt := 5000 } }) k (if bool i 40 then 15 else nat i 41 16) (nat i 42 4096) (nat i 43 4) (nat i 44 4) (BitVec.ofNat 32 (16 * nat i 45 16 + nat i 46 2)) (bool i 47) f { g with seq := 100 } r
def Obligations.SeamPorts : Prop :=
  ∀ (s : State) (k lanes id port lane : Nat) (v : Word) (valid : Bool) (f g : Flit) (r : SeamReq), k < 4 → lanes < 16 → id < 4096 → port < 4 → lane < 4 →
    let now := s.clock.tick
    let x := s.seam.ports.get SeamPort.init k
    let of := fun (t : State) => t.seam.ports.get SeamPort.init k
    let st := s.fld (Reg.SL_PSTAT k) F.SL_PSTAT_State
    let state := fun (n : Nat) (t : State) => t.fld (Reg.SL_PSTAT k) F.SL_PSTAT_State = n
    let isOpen := st = 2 ∨ st = 3
    let flagged := fun (f : Fld) (e : Nat) (t : State) => t.bit (Reg.SL_PFLAGS k) f = true ∧
      (s.bit (Reg.SL_PEVTEN k) f = true → t.pends (848 + 4 * k + e) = true)
    let count := fun (m : Nat) => ((List.range 4).filter (fun i => m.testBit i)).length
    let enabled := s.fld (Reg.SL_PCTL k) F.SL_PCTL_LaneEnable
    let on := s.bit (Reg.SL_PCTL k) F.SL_PCTL_PortEnable = true
    let active := s.fld (Reg.SL_PSTAT k) F.SL_PSTAT_LanesActive
    let quietV := F.SL_PCTL_Retrain.get v = 0 ∧ F.SL_PCTL_Release.get v = 0
    let device := s.fld Reg.SL_CTL F.SL_CTL_DeviceId
    let calm := x.waiting = [] ∧ ∀ y ∈ x.replay, y.src ≠ device
    let discarded := fun (t : State) => (of t).replay = [] ∧
      t.fld (Reg.SL_PCNT k) F.SL_PCNT_Discarded = min 0xFFFF (s.fld (Reg.SL_PCNT k) F.SL_PCNT_Discarded + x.replay.length)
    let lost := fun (t : State) => state 1 t ∧ discarded t ∧ flagged F.SL_PFLAGS_Down 0 t ∧ (of t).trainAt = now ∧ t.mem = s.mem
    let others := fun (t : State) => ∀ j < 4, j ≠ k → t.seam.ports.get SeamPort.init j = s.seam.ports.get SeamPort.init j
    -- what a flit carries
    let freed : Nat := (f.ack + 1 + 4096 + x.replay.length - x.nextSeq) % 4096
    let bare := f.crcOk = true ∧ f.nak = false ∧ f.credit = 0 ∧ freed = 0 ∧ x.credits ≤ 64 ∧ x.waiting = []
    let linkCtl := f.kind = 1 ∧ f.cls = 0 ∧ f.clean = true ∧ f.len ≤ 240 ∧ f.mcast = false
    let idleFlit := f.kind = 0 ∧ f.cls = 0 ∧ f.clean = true ∧ f.len ≤ 240 ∧ f.mcast = false
    let viol := fun (c : Nat) (t : State) => t.fld (Reg.SL_PVIOL k) F.SL_PVIOL_Code = c ∧
      t.fld (Reg.SL_PVIOL k) F.SL_PVIOL_Count = min 0xFFFF (s.fld (Reg.SL_PVIOL k) F.SL_PVIOL_Count + 1) ∧ flagged F.SL_PFLAGS_Violation 2 t ∧
      state (if s.fld (Reg.SL_PVIOLCFG k) F.SL_PVIOLCFG_ViolLimit <
        1 + (x.viols.filter (fun a => decide (now < a + 1600 * s.fld (Reg.SL_PVIOLCFG k) F.SL_PVIOLCFG_ViolWindow))).length then 3 else 2) t
    let map : Nat := leNat ((f.payload.drop 1).take 1)
    let mapOk := 2 ≤ count map ∧ map &&& enabled = map
    let peer := leNat ((f.payload.drop 1).take 3)
    let wants := isOpen ∧ (x.sentAt + 1600 ≤ now ∨ x.nak ≠ none ∨ x.owed ≠ 0)
    let late := isOpen ∧ x.replay ≠ [] ∧ x.progAt + 6400 ≤ now
    -- port control
    (quietV → ∃ t, exec (.seamPortEnable k v) s = .next t ∧ quiet [Reg.SL_PCTL k, Reg.SL_PSTAT k] [.seam] s t ∧ others t ∧
      t.bit (Reg.SL_PCTL k) F.SL_PCTL_PortEnable = true ∧ t.fld (Reg.SL_PCTL k) F.SL_PCTL_LaneEnable = F.SL_PCTL_LaneEnable.get v ∧
      (on → state st t ∧ of t = x) ∧ (¬ on → state 1 t ∧ of t = { x with trainAt := now })) ∧
    (on → calm → F.SL_PCTL_PortEnable.get v = 1 → F.SL_PCTL_Release.get v = 0 → ∃ t, exec (.seamRetrain k v) s = .next t ∧
      quiet [Reg.SL_PCTL k, Reg.SL_PSTAT k, Reg.SL_PCNT k] [.seam] s t ∧ others t ∧ state 1 t ∧ discarded t ∧ (of t).trainAt = now) ∧
    (on → F.SL_PCTL_PortEnable.get v = 1 → F.SL_PCTL_Retrain.get v = 0 → x.waiting = [] → ∃ t, exec (.seamRelease k v) s = .next t ∧
      quiet [Reg.SL_PCTL k, Reg.SL_PSTAT k] [.seam] s t ∧ others t ∧ (st = 3 → state 2 t ∧ (of t).viols = []) ∧ (st ≠ 3 → state st t ∧ of t = x)) ∧
    (st = 1 → 2 ≤ count (lanes &&& enabled) → x.waiting = [] → ∃ t, exec (.trainingComplete k lanes id valid port) s = .next t ∧
      Touches [Reg.SL_PSTAT k, Reg.SL_PFLAGS k] [.seam] s t ∧ others t ∧ state 2 t ∧ flagged F.SL_PFLAGS_Up 0 t ∧ (of t).credits = 64 ∧
      (of t).expect = 0 ∧ (of t).nextSeq = 0 ∧ (of t).replay = [] ∧ t.fld (Reg.SL_PSTAT k) F.SL_PSTAT_LanesActive = lanes &&& enabled ∧
      t.bit (Reg.SL_PSTAT k) F.SL_PSTAT_PeerIdValid = valid ∧ t.fld (Reg.SL_PSTAT k) F.SL_PSTAT_PeerId = id ∧
      t.fld (Reg.SL_PSTAT k) F.SL_PSTAT_PeerPort = port) ∧
    (st ≠ 1 ∨ count (lanes &&& enabled) < 2 → exec (.trainingComplete k lanes id valid port) s = .next s) ∧
    (st = 1 → x.trainAt + 1600000 ≤ now → ∃ t, exec (.trainingRestart k) s = .next t ∧ quiet [] [.seam] s t ∧ others t ∧ of t = { x with trainAt := now }) ∧
    (st ≠ 1 ∨ now < x.trainAt + 1600000 → exec (.trainingRestart k) s = .next s) ∧
    (st = 2 → active.testBit lane = true → 2 ≤ count (active - 2 ^ lane) → ∃ t, exec (.laneSparing k lane) s = .next t ∧ others t ∧
      Touches [Reg.SL_PSTAT k, Reg.SL_PFLAGS k] [.seam, .logQ] s t ∧ state 2 t ∧
      t.fld (Reg.SL_PSTAT k) F.SL_PSTAT_LanesActive = active - 2 ^ lane ∧ flagged F.SL_PFLAGS_LaneSpared 0 t ∧
      (of t).sent.map (fun y => (y.kind, y.payload)) = some (1, [2, BitVec.ofNat 8 (active - 2 ^ lane)]) ∧ (of t).replay = x.replay) ∧
    (st = 2 → active.testBit lane = true → count (active - 2 ^ lane) < 2 → calm → ∃ t, exec (.laneSparing k lane) s = .next t ∧ lost t ∧ others t) ∧
    (st ≠ 2 ∨ active.testBit lane = false → exec (.laneSparing k lane) s = .next s) ∧
    -- loss of a port
    (isOpen → calm → x.gotAt + 3200 ≤ now → ∃ t, exec (.portDown k 0) s = .next t ∧ lost t ∧ others t) ∧
    (isOpen → x.waiting = [] → x.replay = [g] → g.src = device → g.ans = false → g.cls = 2 → g.tid = r.tid → s.seam.reqs = [r] → r.port = k → r.cls = 2 →
      r.req = .engine 5 → x.gotAt + 3200 ≤ now → ∃ t, exec (.portDown k 0) s = .next t ∧ lost t ∧ t.seam.reqs = [] ∧
      t.seam.dones = s.seam.dones ++ [⟨.engine 5, k, r.tid, r.addr, 1, []⟩]) ∧
    (isOpen → calm → 8 ≤ x.replays → ∃ t, exec (.portDown k 1) s = .next t ∧ lost t ∧ flagged F.SL_PFLAGS_ReplayLimit 1 t) ∧
    (¬ isOpen ∨ now < x.gotAt + 3200 → exec (.portDown k 0) s = .next s) ∧
    -- flits that are not DATA
    (st = 1 → f.crcOk = true → linkCtl → ∃ t, exec (.hello k f) s = .next t ∧ quiet [Reg.SL_PSTAT k] [.seam] s t ∧ others t ∧ of t = { x with gotAt := now } ∧
      state 1 t ∧ t.fld (Reg.SL_PSTAT k) F.SL_PSTAT_PeerId = peer % 4096 ∧ t.bit (Reg.SL_PSTAT k) F.SL_PSTAT_PeerIdValid = peer.testBit 12) ∧
    (st = 2 → bare → linkCtl → ∃ t, exec (.hello k f) s = .next t ∧ viol 0x0A t ∧ others t) ∧
    (st = 2 → bare → ¬ linkCtl → (∃ t, exec (.hello k f) s = .next t ∧ viol 3 t) ∧ ∃ t, exec (.laneMap k f) s = .next t ∧ viol 3 t) ∧
    (st = 2 → bare → linkCtl → mapOk → ∃ t, exec (.laneMap k f) s = .next t ∧ quiet [Reg.SL_PSTAT k] [.seam] s t ∧ others t ∧
      of t = { x with gotAt := now } ∧ t.fld (Reg.SL_PSTAT k) F.SL_PSTAT_LanesActive = map) ∧
    (st = 2 → bare → linkCtl → ¬ mapOk → ∃ t, exec (.laneMap k f) s = .next t ∧ viol 0x0A t ∧ t.fld (Reg.SL_PSTAT k) F.SL_PSTAT_LanesActive = active) ∧
    (isOpen → idleFlit → f.crcOk = true → f.nak = false → x.waiting = [] → freed ≤ x.replay.length → x.credits + f.credit ≤ 64 →
      ∃ t, exec (.idle k f) s = .next t ∧ quiet [] [.seam] s t ∧ others t ∧ of t = if freed = 0 then { x with gotAt := now, credits := x.credits + f.credit }
        else { x with gotAt := now, credits := x.credits + f.credit, replay := x.replay.drop freed, progAt := now, replays := 0 }) ∧
    (st = 2 → idleFlit → f.crcOk = true → f.nak = false → x.waiting = [] → freed = 0 → 64 < x.credits + f.credit → ∃ t, exec (.idle k f) s = .next t ∧
      viol 7 t ∧ (of t).credits = 64) ∧
    (st = 2 → idleFlit → f.crcOk = true → f.nak = false → f.credit = 0 → x.credits ≤ 64 → x.waiting = [] → x.replay.length < freed → freed < 2048 →
      ∃ t, exec (.idle k f) s = .next t ∧ viol 6 t ∧ (of t).replay = x.replay) ∧
    (isOpen → idleFlit → f.crcOk = true → f.nak = true → freed = 0 → f.credit = 0 → x.credits ≤ 64 → x.waiting = [] → x.replay ≠ [] → x.replays < 8 →
      ∃ t, exec (.idle k f) s = .next t ∧ (of t).replay = x.replay ∧ (of t).replays = x.replays + 1 ∧
      t.fld (Reg.SL_PCNT k) F.SL_PCNT_ReplayCount = min 0xFFFF (s.fld (Reg.SL_PCNT k) F.SL_PCNT_ReplayCount + 1)) ∧
    (st = 2 → f.crcOk = false → f.stomped = false → ∃ t, exec (.idle k f) s = .next t ∧ viol 1 t ∧ flagged F.SL_PFLAGS_CrcError 1 t ∧
      (of t).nak = some 1 ∧ (of t).expect = x.expect) ∧
    (st = 0 ∨ f.crcOk = false ∧ f.stomped = true → exec (.idle k f) s = .next s) ∧
    -- IDLE flits and replays of the port
    (wants → ∃ t, exec (.idleSend k) s = .next t ∧ quiet [] [.seam] s t ∧ others t ∧ (of t).nak = none ∧ (of t).owed = x.owed - min 15 x.owed ∧
      (of t).sentAt = now ∧ (of t).replay = x.replay ∧
      (of t).sent.map (fun y => (y.kind, y.ack, y.nak, y.credit)) = some (0, (x.expect + 4095) % 4096, x.nak.isSome, min 15 x.owed)) ∧
    (¬ wants → exec (.idleSend k) s = .next s) ∧
    (late → x.replays < 8 → ∃ t, exec (.replayTimeout k) s = .next t ∧ quiet [Reg.SL_PCNT k] [.seam] s t ∧ others t ∧ (of t).replay = x.replay ∧
      (of t).replays = x.replays + 1 ∧ (of t).progAt = now ∧
      t.fld (Reg.SL_PCNT k) F.SL_PCNT_ReplayCount = min 0xFFFF (s.fld (Reg.SL_PCNT k) F.SL_PCNT_ReplayCount + 1)) ∧
    (late → calm → 8 ≤ x.replays → ∃ t, exec (.replayTimeout k) s = .next t ∧ lost t ∧ flagged F.SL_PFLAGS_ReplayLimit 1 t) ∧
    (¬ late → exec (.replayTimeout k) s = .next s)

/-- A request for this device, from an UP port in sequence with a credit or from its own loop, is performed: a
granted WRITE stores its bytes or writes the register; a READ is answered with its bytes, UNCORRECTABLE if
poisoned; either is answered ACCESS when refused. A MSG becomes a record, or BUSY on a full ring; CUE_AT arms
and answers; ATTEST starts Mantle or is BUSY. An answer ends its request: data to its requester, or the staging
register's Status; without a request it is violation 0x05; a failure sets WriteLost or MsgLost. 40 µs without an
answer is TIMEOUT. Staging registers and windows send CUE_AT, ATTEST, WRITE and READ by the route; a refused
access is BUS or 0x05. TIME_SYNC stamps replies, measures, and trims line time in FOLLOW. (16_seam_link.md:
Device IDs and routing, Transactions, Line time across the system, Partner violations and quarantine, Seam
registers) -/
--% def gen (i : Nat) :=
--%   let s := rdy i
--%   let k := if nat i 1 3 = 0 then 4 else nat i 2 4
--%   let p := nat i 3 4
--%   let s := (List.range 4).foldl (fun s j => s.setReg (Reg.SL_PSTAT j) (F.SL_PSTAT_State.put (word i (4 + j)) 2 ||| 64)) s
--%   let s := (List.range 4).foldl (fun s j => (s.setReg (Reg.SL_PEVTEN j) (word i (8 + j))).setReg (Reg.SL_PVIOLCFG j) 0x03E80040) s
--%   let src := 0x44
--%   let s := s.setReg Reg.SL_CTL (BitVec.ofNat 32 (0x1010 + 0x1E000 + 2 ^ 17 * (k % 4) + 2 ^ 19))
--%   let s := s.setReg (Reg.SL_ROUTE src) (F.SL_ROUTE_Alternate.put (F.SL_ROUTE_Primary.put 0 p) 7)
--%   let now := 2000000
--%   let x : SeamPort := { SeamPort.init with expect := 50, nextSeq := 7, credits := 5, given := 3, owed := nat i 20 20, nak := none }
--%   let s := (List.range 4).foldl (fun s j => s.setSport j { x with nextSeq := 7 + (if j = 4 then 1 else 0) }) s
--%   let s := s.setReg Reg.MEMC_STAT (F.MEMC_STAT_Active.put 0 15)
--%   let s := s.setReg Reg.MEMC_SIZES (F.MEMC_SIZES_PlainMiB.put 0 8)
--%   let a := if bool i 21 then (if bool i 22 then 0x1000000000 else 0x1000000) + nat i 23 200 else Reg.SL_MSGBASE_LO + 4 * nat i 24 2
--%   let n := if a < 0x1000000 then 4 else 1 + nat i 25 20
--%   let s := if bool i 26 then (s.setReg (Reg.SL_IN_LO 0) 0).setReg (Reg.SL_IN_CTL 0) (word i 27) else s
--%   let s := s.setReg (Reg.SL_IN_CTL 1) (F.SL_IN_CTL_SizeLog2.put (F.SL_IN_CTL_Write.put (F.SL_IN_CTL_Read.put (F.SL_IN_CTL_InEnable.put 0 1) (if nat i 28 4 = 0 then 0 else 1)) (if nat i 29 4 = 0 then 0 else 1)) 40)
--%   let s := s.store (a - 3) (if a < 0x1000000 then [] else ((List.range 40).map fun j => BitVec.ofNat 8 (mix (i*20+j))))
--%   let s := if nat i 30 5 = 0 then setPoison a true s else s
--%   let cls := 1 + nat i 31 7
--%   let ev := if bool i 32 then 940 + nat i 33 80 else 0
--%   let data := (List.range 224).map fun j => BitVec.ofNat 8 (if j < n then mix (i*9+j) else 0)
--%   let pl := if cls = 4 then leBytes 2 ev ++ leBytes 2 n ++ zeros 12 ++ data.take n else if cls = 5 then leBytes 8 (4990 + nat i 34 20) ++ leBytes 3 2 ++ leBytes 1 1 ++ leBytes 2 40 else if cls = 7 then (List.range 32).map (BitVec.ofNat 8 ·) ++ leBytes 8 0x1000 else if cls = 3 then zeros 16 ++ data.take n else if cls = 6 then leBytes 8 (40000 + nat i 35 20) ++ leBytes 8 (40000 + 8 * nat i 36 20) ++ [BitVec.ofNat 8 (nat i 37 4)] else leBytes 8 a ++ leBytes 2 n ++ zeros 6 ++ data.take n
--%   let ans := cls = 3 || (cls != 2 && nat i 38 3 = 0)
--%   let f : Flit := { noFlit with kind := if cls = 6 then 3 else 2, cls := cls, ans := ans, src := src, tid := 9, dst := 0x10, seq := 50, ack := 6, hops := 3, payload := pl, len := pl.length, status := nat i 39 3 }
--%   let rc := if cls = 3 then 2 else cls
--%   let who : Req := if bool i 40 then .engine 5 else .host
--%   let r : SeamReq := ⟨if k < 4 then k else 1, 9, if nat i 41 4 = 0 then 2 + 3 * nat i 42 2 else rc, who, 2, 0x400000000000, now - 64001 + nat i 43 3, false, nat i 44 4 = 0⟩
--%   let s := { s with seam := { s.seam with reqs := if nat i 45 3 = 0 then [] else [r], loop := [f], nextTid := nat i 46 256, wtids := (⟨[]⟩ : Tab Nat).set 0 9 (nat i 47 3), ts1 := if nat i 48 5 = 0 then none else some 39900, tsAt := now - 1600 * 3 - 1 + nat i 49 3, validAt := now - 1600 * 12 - 1 + nat i 50 3 } }
--%   let s := s.setReg Reg.SL_TSCFG (BitVec.ofNat 32 (3 + 65536 * nat i 51 256))
--%   let s := s.setReg Reg.SYS_LT_CTL (F.SYS_LT_CTL_Mode.put 0 (nat i 52 3))
--%   let s := s.setReg Reg.SYS_LT_STATUS (word i 53)
--%   let s := s.setReg Reg.SYS_LT_RATE (BitVec.ofNat 32 (nat i 54 1000))
--%   let s := s.setReg Reg.SL_MSGCFG 12
--%   let s := s.setReg (Reg.SL_MSGBASE_LO + 4) (if nat i 55 4 = 0 then 0 else 0x10)
--%   let s := s.setReg Reg.SL_MSGBASE_LO 0x40000
--%   let s := s.setReg Reg.SL_MSGWR (BitVec.ofNat 32 (if bool i 56 then 16 else nat i 57 17))
--%   let s := s.setReg Reg.SL_MSGRD (BitVec.ofNat 32 (nat i 58 3 - 1))
--%   let s := s.setReg Reg.MNT_STATUS (if bool i 59 then 8 else 1)
--%   let s := (s.setPreg who Reg.SL_CUE_RES (if nat i 60 4 = 0 then 1 else 0)).setPreg who Reg.SL_CUE_ARG (word i 61)
--%   let s := (s.setPreg who Reg.SL_CUE_TLO (word i 62)).setPreg who Reg.SL_CUE_THI (word i 63)
--%   let s := (s.setPreg who Reg.SL_ATT_LO (if bool i 64 then 0x40000 else 0)).setPreg who Reg.SL_ATT_HI 0x10
--%   let s := s.setPreg who Reg.SL_ATT_CTL (if nat i 65 4 = 0 then 0x1000 else 0)
--%   let s := s.setReg (Reg.SL_WIN_CTL 2) (F.SL_WIN_CTL_DevId.put (F.SL_WIN_CTL_WinEnable.put (F.SL_WIN_CTL_Kind.put (F.SL_WIN_CTL_Mcast.put (word i 66) 0) (nat i 67 2)) (if nat i 68 5 = 0 then 0 else 1)) src)
--%   let s := s.setReg (Reg.SL_WIN_LO 2) 0x1000
--%   let v := F.SL_CUE_GO_Mcast.put (F.SL_CUE_GO_Dst.put (word i 69) src) 0
--%   K ({ s with clock := { s.clock with tick := now, lt := 5000, slew := BitVec.ofNat 32 (nat i 70 5) } }) k p (0x400200000000 + nat i 71 5000) (nat i 72 8) (if nat i 73 3 = 0 then BitVec.ofNat 32 (nat i 74 20) else v) f r who (data.take (1 + nat i 75 60))
def Obligations.SeamRequests : Prop :=
  ∀ (s : State) (k p a eighth : Nat) (v : Word) (f : Flit) (r : SeamReq) (who : Req) (data : List Byte), k < 5 → p < 4 → eighth < 8 →
    let now := s.clock.tick
    let lt := s.clock.lt
    let port := fun (j : Nat) (t : State) => t.seam.ports.get SeamPort.init j
    let x := port k s
    let device := s.fld Reg.SL_CTL F.SL_CTL_DeviceId
    let state := fun (j : Nat) => s.fld (Reg.SL_PSTAT j) F.SL_PSTAT_State
    let ids := fun (j : Nat) => s.bit Reg.SL_CTL F.SL_CTL_IdValid = true ∧ s.bit (Reg.SL_PSTAT j) F.SL_PSTAT_PeerIdValid = true
    let le := fun (o n : Nat) => leNat ((f.payload.drop o).take n)
    let bare := f.crcOk = true ∧ f.nak = false ∧ f.credit = 0 ∧ f.ack = (x.nextSeq + 4095) % 4096 ∧ x.nextSeq < 4096 ∧ x.replay = [] ∧ x.credits ≤ 64 ∧ x.waiting = []
    let heard := k < 4 ∧ state k = 2 ∧ bare ∧ f.seq = x.expect ∧ x.expect < 4096 ∧ 0 < x.given ∧ f.kind = 2 ∧ f.clean = true ∧ f.len ≤ 240 ∧ f.mcast = false ∧
      f.dst = device ∧ ids k
    let comes := fun (cls : Nat) (ans : Bool) => f.cls = cls ∧ f.ans = ans ∧ f.mcast = false ∧ (k = 4 ∧ s.seam.loop.head? = some f ∨ heard)
    let sized := fun (n : Nat) => 1 ≤ n ∧ n ≤ 224
    -- the state once the link layer has taken the flit
    let x' : SeamPort := { x with gotAt := now, expect := (x.expect + 1) % 4096, given := x.given - 1, owed := x.owed + 1 }
    let s' : State := if k = 4 then { s with seam := { s.seam with loop := s.seam.loop.drop 1 } } else
      { s with seam := { s.seam with ports := s.seam.ports.set SeamPort.init k x' } }
    let flagged := fun (j : Nat) (f : Fld) (e : Nat) (t : State) => t.bit (Reg.SL_PFLAGS j) f = true ∧
      (s.bit (Reg.SL_PEVTEN j) f = true → t.pends (848 + 4 * j + e) = true)
    let viol := fun (c : Nat) (t : State) => k < 4 → t.fld (Reg.SL_PVIOL k) F.SL_PVIOL_Code = c ∧ flagged k F.SL_PFLAGS_Violation 2 t
    let routed := fun (d : Nat) => d ≠ device ∧ s.fld (Reg.SL_ROUTE d) F.SL_ROUTE_Primary = p ∧ s.bit (Reg.SL_ROUTE d) F.SL_ROUTE_UseAlt = false ∧
      state p = 2 ∧ ids p ∧ (port p s).waiting = [] ∧ 0 < (port p s).credits ∧ (port p s).replay.length < 512
    let sent := fun (cls : Nat) (ans : Bool) (d tid st : Nat) (pl : List Byte) (t : State) =>
      (port p t).replay.getLast?.map (fun y => (y.cls, y.ans, y.dst, y.tid)) = some (cls, ans, d, tid) ∧
      (port p t).replay.getLast?.map (fun y => (y.status, y.payload, y.src)) = some (st, pl, device) ∧
      (port p t).credits = (port p s).credits - 1
    let answered := fun (cls st : Nat) (pl : List Byte) (t : State) => routed f.src → sent cls true f.src f.tid st pl t
    let a' := le 0 8
    let n := le 8 2
    let bytes := (List.range n).map (fun i => (f.payload.drop 16)[i]?.getD 0)
    let granted := fun (write : Bool) => (List.range 8).any (fun i => inGrants write a' n i s) = true
    let control := a' + n ≤ 0x1000000
    let memory := fun (write : Bool) => (List.range n).all (fun i => !isSeam (a' + i) s && dpAllowed .other write (a' + i) s) = true
    let thawed := frozenIn a' n s = false
    let clean := s.memt.writes = [] ∧ thawed ∧ ∀ i < n, s.poisoned (a' + i) = false
    let wr := (s.reg Reg.SL_MSGWR).toNat
    let held := (wr + 4294967296 - (s.reg Reg.SL_MSGRD).toNat) % 4294967296
    let ringSize : Nat := 2 ^ s.fld Reg.SL_MSGCFG F.SL_MSGCFG_SizeLog2
    let rdOk := (wr + 4294967296 - v.toNat) % 4294967296 ≤ ringSize / 256
    let ring := s.base48 Reg.SL_MSGBASE_LO - s.base48 Reg.SL_MSGBASE_LO % ringSize
    let slot := ring + wr * 256 % ringSize
    let length := le 2 2
    let event := le 0 2
    let msg := (List.range 224).map (fun i => if i < length then (f.payload.drop 16)[i]?.getD 0 else 0)
    let record := leBytes 2 f.src ++ leBytes 2 length ++ leBytes 2 event ++ [0, 0] ++ leBytes 8 lt ++ msg ++ List.replicate 16 0
    let ask := ArmAsk.mk (Asker.cueAt k f) (le 12 2 % 1024) ⟨false, le 0 8, 0, 0, le 8 3, le 11 1 % 4, 2⟩
    let arm := armTarget ask.target ask.arm s
    let one := s.seam.reqs = [r] ∧ r.tid = f.tid ∧ r.port < 4
    let cueRes := s.preg r.req Reg.SL_CUE_RES
    let cueIs := fun (status : Nat) (t : State) => let w := t.preg r.req Reg.SL_CUE_RES
      F.SL_CUE_RES_Busy.get w = 0 ∧ F.SL_CUE_RES_Status.get w = status % 16
    -- line time
    let stamp : Nat := (8 * lt + eighth) % 18446744073709551616
    let mode := s.fld Reg.SYS_LT_CTL F.SYS_LT_CTL_Mode
    let aligned := fun (t : State) => t.bit Reg.SYS_LT_STATUS F.SYS_LT_STATUS_Aligned
    let tsync := f.kind = 3 ∧ f.cls = 6 ∧ f.clean = true ∧ f.len ≤ 240 ∧ f.mcast = false
    let up := s.fld Reg.SL_CTL F.SL_CTL_TsUpPort
    let diff := fun (u w : Nat) => (BitVec.ofNat 64 u - BitVec.ofNat 64 w).toInt
    let t1 := s.seam.ts1.getD 0
    let delay2 := diff stamp t1 - diff (le 8 8) (le 0 8)
    let offset2 := diff (le 0 8) t1 - diff stamp (le 8 8)
    let offset := offset2 / 2 + (BitVec.ofNat 8 (s.fld Reg.SL_TSCFG F.SL_TSCFG_TsAsym)).toInt
    let exact := delay2 % 2 = 0 ∧ offset2 % 2 = 0 ∧ offset % 8 = 0
    let reply := k < 4 ∧ k = up ∧ (state k = 2 ∨ state k = 3) ∧ bare ∧ tsync ∧ s.seam.ts1 ≠ none
    let period := 1600 * s.fld Reg.SL_TSCFG F.SL_TSCFG_TsPeriod
    let stale := s.seam.validAt + 4 * period ≤ now
    let due := (mode = 0 ∨ mode = 1) ∧ s.bit Reg.SL_CTL F.SL_CTL_TsEnable = true ∧ s.seam.tsAt + period ≤ now ∧ (state up = 2 ∨ state up = 3)
    -- windows
    let w := (a - 0x400000000000) / 0x100000000
    let ctl := Reg.SL_WIN_CTL w
    let remote := ((s.reg (Reg.SL_WIN_LO w)).toNat + 4294967296 * s.fld (Reg.SL_WIN_HI w) F.SL_WIN_HI_RemoteHi + (a - 0x400000000000) % 0x100000000) % 281474976710656
    let inWin := fun (n : Nat) => 0x400000000000 ≤ a ∧ a + n ≤ 0x404000000000 ∧ a % 0x100000000 + n ≤ 0x100000000 ∧ 0 < n
    let opens := fun (f : Fld) => s.bit ctl F.SL_WIN_CTL_WinEnable = true ∧ s.bit ctl f = true
    let single := fun (n : Nat) => n ≤ 224 ∧ remote % 4096 + n ≤ 4096
    let dev := s.fld ctl F.SL_WIN_CTL_DevId
    let unicast := s.bit ctl F.SL_WIN_CTL_Mcast = false
    let attAt := (s.preg who Reg.SL_ATT_LO).toNat + 4294967296 * F.SL_ATT_HI_Addr.get (s.preg who Reg.SL_ATT_HI)
    let tid := s.seam.nextTid
    -- requests
    (comes 1 false → sized n → granted true → control → n = 4 → a' % 4 = 0 →
      ∃ t, exec (.registerWrite (.seam k) a' (BitVec.ofNat 32 (leNat bytes))) s' = .next t ∧ exec (.seamWrite k f) s = .next t) ∧
    (comes 1 false → sized n → granted true → ¬ control → memory true → clean → ∃ t, exec (.seamWrite k f) s = .next t ∧ t.seam = s'.seam ∧
      ∀ b, t.byte b = if a' ≤ b ∧ b < a' + n then bytes[b - a']?.getD 0 else s.byte b) ∧
    (comes 1 false → sized n → ¬ (granted true ∧ (control ∨ memory true)) → ∃ t, exec (.seamWrite k f) s = .next t ∧ viol 8 t ∧ answered 1 2 [] t ∧ t.mem = s.mem) ∧
    (comes 2 false → sized n → granted false → ¬ control → memory false → clean → ∃ t, exec (.seamRead ⟨k, []⟩ f) s = .next t ∧ t.mem = s.mem ∧
      answered 3 0 (List.replicate 16 0 ++ (List.range n).map (fun i => s.byte (a' + i))) t) ∧
    (comes 2 false → sized n → granted false → ¬ control → memory false → thawed → (∃ i < n, s.poisoned (a' + i) = true) → ∃ t, exec (.seamRead ⟨k, []⟩ f) s = .next t ∧
      answered 3 3 [] t ∧ t.mem = s.mem) ∧
    (comes 2 false → sized n → granted false → control → n = 4 → a' % 4 = 0 → ∃ t, exec (.seamRead ⟨k, []⟩ f) s = .next t ∧
      answered 3 0 (List.replicate 16 0 ++ leBytes 4 (ctlRead (.seam k) a' s').1.toNat) t) ∧
    (comes 2 false → sized n → ¬ (granted false ∧ (control ∨ memory false)) → ∃ t, exec (.seamRead ⟨k, []⟩ f) s = .next t ∧ viol 8 t ∧ answered 3 2 [] t) ∧
    (comes 4 false → sized length → held ≠ ringSize / 256 → inRingMemory ring ringSize s = true → s.memt.writes = [] → fenceOk .other true slot 256 s = true → frozenIn slot 256 s = false →
      ∃ t, exec (.seamMsg k f) s = .next t ∧ (t.reg Reg.SL_MSGWR).toNat = (wr + 1) % 4294967296 ∧ (940 ≤ event → event < 1024 → t.pends event = true) ∧
      ∀ b, t.byte b = if slot ≤ b ∧ b < slot + 256 then record[b - slot]?.getD 0 else s.byte b) ∧
    (comes 4 false → sized length → held = ringSize / 256 → ∃ t, exec (.seamMsg k f) s = .next t ∧ flagged (if k < 4 then k else 0) F.SL_PFLAGS_MsgRingFull 3 t ∧
      answered 4 4 [] t ∧ t.reg Reg.SL_MSGWR = s.reg Reg.SL_MSGWR ∧ t.mem = s.mem) ∧
    (comes 5 false → exec (.cueAt k f) s = .next (s'.setAsks { s.asks with arms := s.asks.arms ++ [ask] })) ∧
    (f.cls = 5 → f.ans = false → f.mcast = false →
      answered 5 0 [BitVec.ofNat 8 (arm.1.1 + 4 * arm.1.2)] (applyArm ask s) ∧ (applyArm ask s).cue = arm.2.cue) ∧
    (comes 7 false → s.bit Reg.MNT_STATUS F.MNT_STATUS_ReqBusy = true → ∃ t, exec (.seamAttest k f) s = .next t ∧ answered 7 4 [] t ∧ t.mantle = s.mantle) ∧
    (comes 7 false → s.bit Reg.MNT_STATUS F.MNT_STATUS_ReqBusy = false → ∃ t, exec (.seamAttest k f) s = .next t ∧ t.bit Reg.MNT_STATUS F.MNT_STATUS_ReqBusy = true ∧
      t.seam.serve = some ⟨f.src, f.tid, le 32 8⟩ ∧ t.mantle.op.map (fun o => (o.op, o.seam)) = some (3, true)) ∧
    -- answers
    (comes 3 true → one → r.cls = 2 → r.got = false →
      (r.req = .engine 5 → ∃ t, exec (.readResp k f) s = .next t ∧ t.seam.reqs = [] ∧
        t.seam.dones = s.seam.dones ++ [⟨.engine 5, r.port, r.tid, r.addr, f.status, if f.status = 0 then f.payload.drop 16 else []⟩]) ∧
      (r.req = .host → s.seam.dones = [] → f.status = 0 → (f.payload.drop 16).length = 4 → ∃ t, exec (.readResp k f) s = .next t ∧ t.seam.reqs = [] ∧
        t.rdata.get [] (reqKey .host) = [BitVec.ofNat 32 (leNat (f.payload.drop 16))])) ∧
    (comes 3 true → s.seam.reqs = [] → ∃ t, exec (.readResp k f) s = .next t ∧ viol 5 t ∧ t.rdata = s.rdata ∧ t.mem = s.mem) ∧
    (comes 5 true → one → r.cls = 5 → r.got = false → ∃ t, exec (.cueAtAnswer k f) s = .next t ∧ cueIs f.status t ∧
      F.SL_CUE_RES_CueStatus.get (t.preg r.req Reg.SL_CUE_RES) = (f.payload.headD 0).toNat % 4 ∧
      F.SL_CUE_RES_Slot.get (t.preg r.req Reg.SL_CUE_RES) = (f.payload.headD 0).toNat / 4 % 4 ∧ (r.mcast = false → t.seam.reqs = [])) ∧
    (comes 5 true → one → r.cls = 5 → r.got = true → ∃ t, exec (.cueAtAnswer k f) s = .next t ∧ t.seam.reqs = [r] ∧
      F.SL_CUE_RES_ExtraAnswers.get (t.preg r.req Reg.SL_CUE_RES) = min 255 (F.SL_CUE_RES_ExtraAnswers.get cueRes + 1)) ∧
    (comes 7 true → one → r.cls = 7 → r.got = false → ∃ t, exec (.attestAnswer k f) s = .next t ∧ t.seam.reqs = [] ∧
      F.SL_ATT_CTL_Busy.get (t.preg r.req Reg.SL_ATT_CTL) = 0 ∧ F.SL_ATT_CTL_Status.get (t.preg r.req Reg.SL_ATT_CTL) = f.status % 16) ∧
    (comes 1 true ∨ comes 4 true → f.status = 0 → exec (.seamAnswer k f) s = .next s') ∧
    (comes 1 true ∨ comes 4 true → f.status ≠ 0 → 0 < s.seam.wtids.get 0 f.tid → s.seam.wtids.get 0 f.tid ≤ 64 → ∃ t, exec (.seamAnswer k f) s = .next t ∧
      flagged (if k < 4 then k else 0) (if f.cls = 1 then F.SL_PFLAGS_WriteLost else F.SL_PFLAGS_MsgLost) 3 t ∧
      t.fld Reg.SL_LOST F.SL_LOST_Window = s.seam.wtids.get 0 f.tid - 1 ∧ t.fld Reg.SL_LOST F.SL_LOST_Status = f.status % 16 ∧ t.mem = s.mem) ∧
    (s.seam.reqs = [r] → r.port < 4 → r.got = false → r.cls = 2 ∨ r.cls = 5 →
      (r.at' + 64000 ≤ now → r.cls = 2 → r.req = .engine 5 → ∃ t, exec (.seamRequestTimeout r.port r.tid) s = .next t ∧ t.seam.reqs = [] ∧
        flagged r.port F.SL_PFLAGS_ReadTimeout 3 t ∧ t.seam.dones = s.seam.dones ++ [⟨.engine 5, r.port, r.tid, r.addr, 6, []⟩]) ∧
      (r.at' + 64000 ≤ now → r.cls = 5 → ∃ t, exec (.seamRequestTimeout r.port r.tid) s = .next t ∧ t.seam.reqs = [] ∧
        flagged r.port F.SL_PFLAGS_AnswerLost 3 t ∧ cueIs 6 t) ∧
      (now < r.at' + 64000 → exec (.seamRequestTimeout r.port r.tid) s = .next s)) ∧
    -- requests of this device
    (F.SL_CUE_RES_Busy.get (s.preg who Reg.SL_CUE_RES) = 0 → s.seam.reqs = [] → tid < 256 → F.SL_CUE_GO_Mcast.get v = 0 → routed (F.SL_CUE_GO_Dst.get v) →
      ∃ t, exec (.cueAtGo who v) s = .next t ∧ F.SL_CUE_RES_Busy.get (t.preg who Reg.SL_CUE_RES) = 1 ∧
      t.seam.reqs = [⟨p, tid, 5, who, 0, 0, now, false, false⟩] ∧
      sent 5 false (F.SL_CUE_GO_Dst.get v) tid 0 (leBytes 8 ((s.preg who Reg.SL_CUE_TLO).toNat + 4294967296 * (s.preg who Reg.SL_CUE_THI).toNat) ++
        leBytes 3 (F.SL_CUE_ARG_Delay.get (s.preg who Reg.SL_CUE_ARG)) ++ leBytes 1 (F.SL_CUE_ARG_Action.get (s.preg who Reg.SL_CUE_ARG)) ++
        leBytes 2 (F.SL_CUE_GO_Target.get v)) t) ∧
    (F.SL_CUE_RES_Busy.get (s.preg who Reg.SL_CUE_RES) = 1 → ∃ t, exec (.cueAtGo who v) s = .next t ∧ quiet [] [.perReq] s t ∧
      t.preg who Reg.SL_CUE_RES = s.preg who Reg.SL_CUE_RES) ∧
    (F.SL_ATT_CTL_Busy.get (s.preg who Reg.SL_ATT_CTL) = 1 → exec (.attestGo who v) s = .next s) ∧
    (F.SL_ATT_CTL_Busy.get (s.preg who Reg.SL_ATT_CTL) = 0 →
      (nonceOk attAt s = true → s.seam.reqs = [] → tid < 256 → routed (F.SL_ATT_CTL_Dst.get v) → ∃ t, exec (.attestGo who v) s = .next t ∧
        F.SL_ATT_CTL_Busy.get (t.preg who Reg.SL_ATT_CTL) = 1 ∧ t.seam.reqs = [⟨p, tid, 7, who, 0, attAt, now, false, false⟩] ∧
        sent 7 false (F.SL_ATT_CTL_Dst.get v) tid 0 (s.bytes attAt 32 ++ leBytes 8 attAt) t) ∧
      (nonceOk attAt s = false → ∃ t, exec (.attestGo who v) s = .next t ∧ quiet [] [.perReq] s t ∧
        F.SL_ATT_CTL_Status.get (t.preg who Reg.SL_ATT_CTL) = 2)) ∧
    (inWin data.length → opens F.SL_WIN_CTL_Write → s.bit ctl F.SL_WIN_CTL_Kind = false → unicast → single data.length → routed dev →
      ∃ t, exec (.seamWindowAccess who true a 0 data) s = .next t ∧ t.mem = s.mem ∧ t.seam.wtids.get 0 tid = w + 1 ∧
      sent 1 false dev tid 0 (leBytes 8 remote ++ leBytes 2 data.length ++ List.replicate 6 0 ++ data) t) ∧
    (inWin data.length → opens F.SL_WIN_CTL_Write → s.bit ctl F.SL_WIN_CTL_Kind = true → unicast → data.length ≤ 224 → routed dev →
      ∃ t, exec (.seamWindowAccess who true a 0 data) s = .next t ∧ t.mem = s.mem ∧
      sent 4 false dev tid 0 (leBytes 2 (s.fld ctl F.SL_WIN_CTL_Event) ++ leBytes 2 data.length ++ List.replicate 12 0 ++ data) t) ∧
    (inWin data.length → opens F.SL_WIN_CTL_Read → s.bit ctl F.SL_WIN_CTL_Kind = false → unicast → single data.length → routed dev → s.seam.reqs = [] → tid < 256 →
      ∃ t, exec (.seamWindowAccess who false a data.length []) s = .next t ∧ t.seam.reqs = [⟨p, tid, 2, who, 0, a, now, false, false⟩] ∧
      sent 2 false dev tid 0 (leBytes 8 remote ++ leBytes 2 data.length) t) ∧
    (inWin data.length → ¬ opens F.SL_WIN_CTL_Write → ∃ t, exec (.seamWindowAccess .host true a 0 data) s = .next t ∧ t.mem = s.mem ∧ t.seam = s.seam ∧
      t.fld Reg.HOST_VIOL F.HOST_VIOL_Code = 5) ∧
    (inWin data.length → ¬ opens F.SL_WIN_CTL_Read → (s.eng 0).st = .run → (s.eng 0).exl = false → ∃ t, exec (.seamWindowAccess (.engine 0) false a data.length []) s = .next t ∧
      (t.eng 0).ecause = 5 ∧ (t.eng 0).eaddr = BitVec.ofNat 48 a ∧ t.seam = s.seam) ∧
    (rdOk → ∃ t, exec (.msgrdWrite v) s = .next t ∧ quiet [Reg.SL_MSGRD] [] s t ∧ t.reg Reg.SL_MSGRD = v) ∧
    (¬ rdOk → exec (.msgrdWrite v) s = .next s) ∧
    -- line time
    (k < 4 → state k = 2 ∨ state k = 3 → bare → tsync → ∃ t, exec (.timeSync k f eighth) s = .next t ∧ quiet [] [.seam] s t ∧
      (port k t).sent.map (fun y => (y.kind, y.cls, y.ans, y.payload)) = some (3, 6, true, leBytes 8 stamp ++ leBytes 8 stamp ++
        [if mode = 2 ∨ mode = 1 ∧ aligned s = true then 1 else 0])) ∧
    (reply → le 16 1 % 2 = 1 → exact → ∃ t, exec (.timeSyncReply k f eighth) s = .next t ∧ t.seam.ts1 = none ∧ t.seam.validAt = now ∧
      t.reg Reg.SL_TSDLY = BitVec.ofInt 32 (delay2 / 2) ∧ t.reg Reg.SL_TSOFS = BitVec.ofInt 32 offset ∧
      t.fld Reg.SYS_LT_STATUS F.SYS_LT_STATUS_MasterOffset = (max (-127) (min 127 (offset / 8)) % 256).toNat ∧
      (mode ≠ 1 → t.clock = s.clock ∧ t.reg Reg.SYS_LT_RATE = s.reg Reg.SYS_LT_RATE) ∧
      (mode = 1 → 8192 < offset ∨ offset < -8192 → aligned t = false ∧ flagged up F.SL_PFLAGS_SyncLost 3 t ∧ t.clock = s.clock) ∧
      (mode = 1 → -8192 ≤ offset → offset ≤ 8192 → -2147483648 ≤ s.clock.slew.toInt + offset / 8 → s.clock.slew.toInt + offset / 8 < 2147483648 →
        t.clock.slew.toInt = s.clock.slew.toInt + offset / 8)) ∧
    (reply → le 16 1 % 2 = 0 → ∃ t, exec (.timeSyncReply k f eighth) s = .next t ∧ t.seam.ts1 = none ∧ aligned t = false ∧ t.clock = s.clock ∧
      t.reg Reg.SL_TSOFS = s.reg Reg.SL_TSOFS) ∧
    (due → ∃ t, exec (.tsyncExchange eighth) s = .next t ∧ quiet [Reg.SYS_LT_STATUS] [.seam] s t ∧ t.seam.ts1 = some stamp ∧ t.seam.tsAt = now ∧
      (stale → aligned t = false) ∧ (¬ stale → aligned t = aligned s) ∧
      (port up t).sent.map (fun y => (y.kind, y.cls, y.ans, y.payload)) = some (3, 6, false, leBytes 8 stamp)) ∧
    (¬ due → ∃ t, exec (.tsyncExchange eighth) s = .next t ∧ quiet [Reg.SYS_LT_STATUS] [] s t ∧ aligned t = (aligned s && !decide stale))

/-- A temperature away from LastTemp by more than DeltaT, or a Request, makes a run pending, unless one is pending
or Mode is OFF. A Commit waits for the next CONV edge, during a run for the one after the run's. A free
sequencer starts the next step of the first ranked tile whose step fits; LastTemp is taken at the run's first
step. A step's end gives its values and frees the sequencer; with no step left the run commits at the next CONV
edge, with FROZEN it goes to the staging set with Staged and Done. A disturbed step is abandoned, repeated later
and flagged; a run not completed in MaxWait ms sets Starved once. A sensor's update sets its register, and
judges WarnNow and CritNow against every sensor; out of range it sets SensorFault. A supply group outside its
window sets OutNow and SupplyFault once and raises event 916 + i; back inside, OutNow clears.
(17_calibration.md: Runs and steps, The gap map, Commit, Calibration registers,
19_events_faults_and_availability.md: Supplies and temperatures, Supply and temperature registers) -/
--% def gen (i : Nat) :=
--%   let s := rdy i
--%   let now := 3200016 + nat i 1 3 * 4 - 4
--%   let p := nat i 2 2
--%   let t := 16 * p + nat i 3 3
--%   let st := nat i 4 24
--%   let s := (List.range 12).foldl (fun s j => s.setReg (Reg.CAL_TEMP j) (BitVec.ofNat 32 (1600 + nat i (5 + j) 200))) s
--%   let s := s.setReg Reg.CAL_CTL (F.CAL_CTL_DeltaT.put (F.CAL_CTL_Enable.put (word i 20) (if nat i 21 4 = 0 then 0 else 1)) (1 + nat i 22 20))
--%   let s := (List.range 32).foldl (fun s j => ((s.setReg (Reg.CAL_TSTAT j) (F.CAL_TSTAT_LastTemp.put (word i (30 + j)) (1600 + nat i (70 + j) 200))).setReg (Reg.CAL_TCTL j) (BitVec.ofNat 32 (if nat i (110 + j) 2 = 0 then 0 else nat i (150+j) 3))).setReg (Reg.AT_PWR j) (word i (190 + j)) ) s
--%   let x : CalTile := { CalTile.init with since := if nat i 300 4 = 0 then none else some (now - 3 * 1600000 + nat i 301 3 - 1), step := st, running := bool i 302, busy := if nat i 303 2 = 0 then none else some (now - 100), meas := if bool i 304 then [] else [(Reg.CAL_COEF_MG t 0, 5)], late := nat i 305 3 = 0, runCommit := if nat i 306 5 = 0 then now + 3 else 0 }
--%   let s := s.setCalTile t x
--%   let s := if bool i 307 then s else s.setCalTile (16 * p + 5) { CalTile.init with since := some (now - 200), step := 3 }
--%   let s := s.setReg Reg.CAL_WAIT (BitVec.ofNat 32 (1 + nat i 308 3))
--%   let s := s.setReg Reg.CAL_EVTEN (word i 309)
--%   let s := s.setTile t { Tile.init with calBusy := x.busy.isSome, calHeld := if 18 ≤ st ∧ st < 22 then some (st - 18) else none }
--%   let s := s.setDac t { Dac.init with srcAt := if nat i 310 3 = 0 then now + 8 else 0 }
--%   let s := s.setReg Reg.EVT_MONSUP (word i 311 &&& 0x0FFF0FFF)
--%   let s := s.setReg Reg.EVT_MONTEMP (word i 312 &&& 0x703)
--%   let s := s.setReg Reg.EVT_TEMPLIM (BitVec.ofNat 32 (1750 + nat i 313 100 + 65536 * (1760 + nat i 314 100)))
--%   let s := s.setReg Reg.EVT_MONEVTEN (word i 315)
--%   let s := (List.range 32).foldl (fun s h => s.setReg (Reg.HD_CTL h) (BitVec.ofNat 32 (nat i (320 + h) 2))) s
--%   K ({ s with clock := { s.clock with tick := now } }) p t (nat i 400 13) (word i 401) [word i 402, word i 403, word i 404, word i 405, word i 406] (if nat i 407 4 = 0 then -900 + (nat i 408 30 : Int) else if nat i 407 4 = 1 then 2390 + (nat i 408 20 : Int) else (1600 + nat i 409 200 : Int)) (now - 3 * 1600000 + nat i 301 3 - 1)
def Obligations.CalibrationAndMonitors : Prop :=
  ∀ (s : State) (p t i : Nat) (v : Word) (vals : List Word) (temp : Int) (since : Nat), p < 8 → t < 128 →
    let now := s.clock.tick
    let tile := fun (u : Nat) (x : State) => x.cal.tiles.get CalTile.init u
    let x := tile t s
    let conv := (now / 8 + 1) * 8
    let mode := fun (u : Nat) => s.fld (Reg.CAL_TCTL u) F.CAL_TCTL_Mode
    let signed := fun (n : Nat) => if n < 2 ^ 15 then (n : Int) else (n : Int) - 2 ^ 16
    let sensor := fun (j : Nat) => signed (s.fld (Reg.CAL_TEMP j) F.CAL_TEMP_Temp)
    let away := fun (u : Nat) => 4 * s.fld Reg.CAL_CTL F.CAL_CTL_DeltaT < (sensor p - signed (s.fld (Reg.CAL_TSTAT u) F.CAL_TSTAT_LastTemp)).natAbs
    let pending := fun (u : Nat) => { tile u s with since := some now, step := 0, running := false, meas := [], late := false }
    let flag := fun (f : Fld) (y : State) => y.bit (Reg.CAL_TSTAT t) f = true ∧
      ((s.fld Reg.CAL_EVTEN F.CAL_EVTEN_FlagEvent).testBit (f.lsb - 8) = true → y.pends (896 + t / 16) = true)
    let newMode := if F.CAL_TCTL_Mode.get v = 3 then 0 else F.CAL_TCTL_Mode.get v
    let request := F.CAL_TCTL_Commit.put (F.CAL_TCTL_Request.put v 1) 0
    let commit := F.CAL_TCTL_Request.put (F.CAL_TCTL_Commit.put v 1) 0
    let rated := ∃ y < 128, y / 16 = t / 16 ∧ (tile y s).busy ≠ none
    let starts := s.bit Reg.CAL_CTL F.CAL_CTL_Enable = true ∧ ¬ rated ∧ calNext (t / 16) s = some t
    let next := (stepFrom t x.step s).getD 0
    let toStaging := x.meas.foldl (fun l c => putCell c.1 (some c.2) l) x.staging
    let frozen := { x with since := none, running := false, step := 0, meas := [], staging := toStaging }
    let finished := x.step = 23 ∨ stepFrom t (x.step + 1) s = none
    let out := (s.fld Reg.EVT_MONSUP F.EVT_MONSUP_OutNow).testBit i = true
    let tempEvent := fun (j : Nat) (y : State) => (s.fld Reg.EVT_MONEVTEN F.EVT_MONEVTEN_TempEvent).testBit j = true → y.pends (928 + j) = true
    let warn := signed (s.fld Reg.EVT_TEMPLIM F.EVT_TEMPLIM_WarnLimit)
    let crit := signed (s.fld Reg.EVT_TEMPLIM F.EVT_TEMPLIM_CritLimit)
    let value := fun (j : Nat) => if j = i then temp else sensor j
    let judged := fun (f g : Fld) (l : Int) (j : Nat) (y : State) =>
      (s.bit Reg.EVT_MONTEMP f = false → (y.bit Reg.EVT_MONTEMP f = true ↔ ∃ k < 12, l ≤ value k)) ∧
      (s.bit Reg.EVT_MONTEMP f = true → (y.bit Reg.EVT_MONTEMP f = false ↔ ∀ k < 12, value k ≤ l - 32)) ∧
      (s.bit Reg.EVT_MONTEMP f = false → y.bit Reg.EVT_MONTEMP f = true → y.bit Reg.EVT_MONTEMP g = true ∧ tempEvent j y)
    (∃ y, exec (.temperatureCheck p) s = .next y ∧
      (∀ u < 128, tile u y = if u / 16 = p ∧ away u ∧ mode u ≠ 2 ∧ (tile u s).since = none then pending u else tile u s) ∧
      sameBut [.cal] s y) ∧
    (∃ y, exec (.calRequest t request) s = .next y ∧
      y.fld (Reg.CAL_TCTL t) F.CAL_TCTL_Mode = newMode ∧
      tile t y = (if newMode ≠ 2 ∧ x.since = none then pending t else x) ∧ quiet [Reg.CAL_TCTL t] [.cal] s y) ∧
    (∃ y, exec (.calCommit t commit) s = .next y ∧
      tile t y = (if x.running then { x with held := true } else { x with commitAt := conv }) ∧
      quiet [Reg.CAL_TCTL t] [.cal] s y) ∧
    (¬ starts → exec (.calStepStart t) s = .next s) ∧
    (starts → stepFrom t x.step s ≠ none → ∃ y, exec (.calStepStart t) s = .next y ∧
      tile t y = { x with running := true, step := next, busy := some now } ∧
      y.fld (Reg.CAL_TSTAT t) F.CAL_TSTAT_LastTemp =
        (if x.running then s.fld (Reg.CAL_TSTAT t) F.CAL_TSTAT_LastTemp else s.fld (Reg.CAL_TEMP (t / 16)) F.CAL_TEMP_Temp) ∧
      (y.tile t).calBusy = true ∧ (y.tile t).calHeld = (if 18 ≤ next ∧ next < 22 then some (next - 18) else none) ∧
      (next < 10 → let d := y.dch (2 * t + next / 5)
        if now % 8 = 0 then d.sw = now / 8 else d.swNext = now / 8 + 1) ∧
      quiet [Reg.CAL_TSTAT t] [.cal, .arr, .dce] s y) ∧
    (starts → stepFrom t x.step s = none → mode t ≠ 1 → ∃ y, exec (.calStepStart t) s = .next y ∧
      tile t y = { x with runCommit := conv, running := true } ∧ sameBut [.cal] s y) ∧
    (starts → stepFrom t x.step s = none → mode t = 1 → ∃ y, exec (.calStepStart t) s = .next y ∧ tile t y = frozen ∧
      flag F.CAL_TSTAT_Done y ∧ y.bit (Reg.CAL_TSTAT t) F.CAL_TSTAT_Staged = true ∧ Touches [Reg.CAL_TSTAT t] [.cal] s y) ∧
    (x.busy = none → exec (.calStepEnd t vals) s = .next s) ∧
    (x.busy ≠ none → ∃ y, exec (.calStepEnd t vals) s = .next y ∧ (tile t y).busy = none ∧ (tile t y).endAt = now + 1 ∧
      (y.tile t).calBusy = false ∧ (y.tile t).calHeld = none ∧
      (22 ≤ x.step → x.step < 24 → vals ≠ [] → y.reg (Reg.CAL_PGAG t (x.step - 22)) = vals.headD 0) ∧
      (¬ finished → x.step < 23 → (tile t y).step = x.step + 1 ∧ (tile t y).since = x.since ∧ (tile t y).staging = x.staging) ∧
      (finished → mode t ≠ 1 → (tile t y).runCommit = conv ∧ (tile t y).running = true) ∧
      (finished → mode t = 1 → (tile t y).since = none ∧ flag F.CAL_TSTAT_Done y ∧ y.bit (Reg.CAL_TSTAT t) F.CAL_TSTAT_Staged = true) ∧
      Touches [Reg.CAL_TSTAT t, Reg.CAL_PGAG t 0, Reg.CAL_PGAG t 1] [.cal, .arr, .dce] s y) ∧
    (calDisturbed t s = false → exec (.stepAbandon t) s = .next s) ∧
    (calDisturbed t s = true → ∃ y, exec (.stepAbandon t) s = .next y ∧ tile t y = { x with busy := none, endAt := now + 1 } ∧
      (y.tile t).calBusy = false ∧ flag F.CAL_TSTAT_Abandoned y ∧ Touches [Reg.CAL_TSTAT t] [.cal, .arr, .dce] s y) ∧
    (x.since = some since → x.late = false → since + 1600000 * s.fld Reg.CAL_WAIT F.CAL_WAIT_MaxWait ≤ now →
      ∃ y, exec (.calStarved t) s = .next y ∧ tile t y = { x with late := true } ∧ flag F.CAL_TSTAT_Starved y ∧
        Touches [Reg.CAL_TSTAT t] [.cal] s y) ∧
    (x.since = some since → x.late = true ∨ now < since + 1600000 * s.fld Reg.CAL_WAIT F.CAL_WAIT_MaxWait →
      exec (.calStarved t) s = .next s) ∧
    (x.since = none → exec (.calStarved t) s = .next s) ∧
    (i < 12 → -(2 ^ 15) ≤ temp → temp < 2 ^ 15 → ∃ y, exec (.sensorUpdate i temp) s = .next y ∧
      signed (y.fld (Reg.CAL_TEMP i) F.CAL_TEMP_Temp) = temp ∧
      judged F.EVT_MONTEMP_WarnNow F.EVT_MONTEMP_TempWarn warn 0 y ∧ judged F.EVT_MONTEMP_CritNow F.EVT_MONTEMP_TempCrit crit 1 y ∧
      (temp < -880 ∨ 2400 < temp → y.bit Reg.EVT_MONTEMP F.EVT_MONTEMP_SensorFault = true ∧ tempEvent 2 y) ∧
      (-880 ≤ temp → temp ≤ 2400 →
        y.bit Reg.EVT_MONTEMP F.EVT_MONTEMP_SensorFault = s.bit Reg.EVT_MONTEMP F.EVT_MONTEMP_SensorFault) ∧
      Touches [Reg.CAL_TEMP i, Reg.EVT_MONTEMP] [] s y) ∧
    (i < 12 → ∃ y, exec (.sensorFault i) s = .next y ∧ y.bit Reg.EVT_MONTEMP F.EVT_MONTEMP_SensorFault = true ∧ tempEvent 2 y ∧
      Touches [Reg.EVT_MONTEMP] [] s y) ∧
    (i < 12 → ¬ out → ∃ y, exec (.supplyOut i) s = .next y ∧
      (y.fld Reg.EVT_MONSUP F.EVT_MONSUP_OutNow).testBit i = true ∧ (y.fld Reg.EVT_MONSUP F.EVT_MONSUP_SupplyFault).testBit i = true ∧
      (∀ j < 12, j ≠ i → (y.fld Reg.EVT_MONSUP F.EVT_MONSUP_OutNow).testBit j = (s.fld Reg.EVT_MONSUP F.EVT_MONSUP_OutNow).testBit j ∧
        (y.fld Reg.EVT_MONSUP F.EVT_MONSUP_SupplyFault).testBit j = (s.fld Reg.EVT_MONSUP F.EVT_MONSUP_SupplyFault).testBit j) ∧
      ((s.fld Reg.EVT_MONEVTEN F.EVT_MONEVTEN_SupplyEvent).testBit i = true → y.pends (916 + i) = true) ∧
      y.supLt = s.supLt.set 0 i s.clock.lt ∧ Touches (Reg.EVT_MONSUP :: (List.range 32).map Reg.HD_STAT) [.supLt, .ledger, .heads, .logQ] s y) ∧
    (i < 12 → out → exec (.supplyOut i) s = .next s) ∧
    (out → i < 12 → ∃ y, exec (.supplyIn i) s = .next y ∧ (y.fld Reg.EVT_MONSUP F.EVT_MONSUP_OutNow).testBit i = false ∧
      (∀ j < 12, j ≠ i → (y.fld Reg.EVT_MONSUP F.EVT_MONSUP_OutNow).testBit j = (s.fld Reg.EVT_MONSUP F.EVT_MONSUP_OutNow).testBit j) ∧
      y.fld Reg.EVT_MONSUP F.EVT_MONSUP_SupplyFault = s.fld Reg.EVT_MONSUP F.EVT_MONSUP_SupplyFault ∧
      y.logQ.getLast? = some ⟨916 + i, 0x0D, 0, i, s.supLt.get 0 i, s.clock.lt, now / 2⟩ ∧
      Touches [Reg.EVT_MONSUP] [.supLt, .ledger, .heads, .logQ] s y) ∧
    (¬ out → exec (.supplyIn i) s = .next s)

/-- A driven pad's level is its voltage against the threshold, the fixed one or the Level's, with 75 mV of
hysteresis where Schmitt is 1; a pull or the keeper sets an undriven one. A latch write waits for a FAB edge,
where DATA stores, SET, CLR and TGL set, clear and toggle. A configuration whose fixed threshold lies at or
above Level is refused with WriteRefused and LastPin; another is stored. A bank's supply sets Valid and, the
first time, Level. At a FAB edge a pin's owner is the lowest generator, else encoder, else head that claims it,
else the enabled serial unit of Func, else its Sleeve, else plain I/O; a new tie sets Contested. A UART or SPI
FIFO holds 16 bytes; a further UART write sets TxOverrun, a further received byte RxOverrun; an empty read gives
0. Go starts one I²C transfer of an enabled idle controller; its end sets Done, with Nack, ArbLost or BusStuck.
(Where the part drives the pad the model's choice of log entry 186 on contention applies, and is not stated
here. That a transfer keeps the lengths of its Go, and the bytes read before an arbitration loss, is the model's
reading, log entry 256.) (18_line_io_pins.md: Levels and thresholds, Plain I/O, Ownership, Serial units, Line
I/O registers; 21_register_map.md) -/
--% def gen (i : Nat) :=
--%   let s := rdy i
--%   let now := 1000 + nat i 1 4 * (if nat i 2 3 = 0 then 1 else 4)
--%   let pin := nat i 3 40
--%   let u := nat i 4 4
--%   let w := word i 5
--%   let s := (List.range 8).foldl (fun s b => s.setReg (Reg.LIO_BANKSTAT b) (BitVec.ofNat 32 (nat i (6 + b) 8))) s
--%   let s := s.setReg (Reg.LIO_CFG pin) (F.LIO_CFG_Func.put (F.LIO_CFG_Pull.put (F.LIO_CFG_Threshold.put w (nat i 20 5)) (nat i 21 4)) (if bool i 22 then 0 else nat i 23 0x2A))
--%   let s := if bool i 24 then s else s.setReg (Reg.LIO_CFG pin) (F.LIO_CFG_OutEnable.put (F.LIO_CFG_Analog.put (s.reg (Reg.LIO_CFG pin)) 0) 0)
--%   let s := if nat i 25 3 = 0 then ((s.setReg (Reg.PG_OUT (nat i 26 500)) (BitVec.ofNat 32 (256 + pin))).setReg (Reg.PG_OUT (nat i 27 500)) (BitVec.ofNat 32 (256 * nat i 28 2 + pin))) else s
--%   let s := if nat i 29 3 = 0 then ((s.setReg (Reg.ENC_PINS (nat i 30 4)) (BitVec.ofNat 32 (pin + 256 * 200 + 65536 * 201))).setReg (Reg.ENC_PINS (4 + nat i 31 4)) (BitVec.ofNat 32 (65536 * pin + 7))) else s
--%   let s := (List.range 8).foldl (fun s e => s.setReg (Reg.ENC_CTL e) (BitVec.ofNat 32 (nat i (32 + e) 8))) s
--%   let s := if nat i 40 3 = 0 then (s.setReg (Reg.HD_CTL (nat i 41 32)) (BitVec.ofNat 32 (64 * nat i 42 2 + 256 * pin))).setReg (Reg.HD_CTL (nat i 43 32)) (BitVec.ofNat 32 (64 + 256 * pin)) else s
--%   let s := s.setReg (Reg.CFG_SLVIO (pin / 16)) (word i 44)
--%   let s := (List.range 8).foldl (fun s e => ((s.setReg (Reg.LIO_UCTL e) (word i (45 + e))).setReg (Reg.LIO_SCTL (e % 4)) (word i (53 + e))).setReg (Reg.LIO_ICTL (e % 4)) (word i (61 + e))) s
--%   let fq := if nat i 70 3 = 0 then 2 + 2 * u else if nat i 70 3 = 1 then 0x13 + 4 * u else 0x21 + 2 * u
--%   let q := 60 + nat i 71 5
--%   let s := if nat i 72 4 = 0 then s else (s.setReg (Reg.LIO_CFG q) (BitVec.ofNat 32 (65536 * fq))).setReg (Reg.LIO_OWNER q) (BitVec.ofNat 32 (4 + 256 * (if nat i 70 3 = 0 then u else if nat i 70 3 = 1 then 8 + u else 12 + u)))
--%   let s := s.setReg (Reg.LIO_OWNER pin) (if bool i 73 then 6 else 1 + 256 * 4)
--%   let bytes := fun (k : Nat) (n : Nat) => (List.range n).map fun j => BitVec.ofNat 8 (mix (i * 31 + k * 7 + j))
--%   let lens := fun (k : Nat) => if nat i k 3 = 0 then 16 else if nat i k 3 = 1 then 0 else nat i (k+100) 17
--%   let s := ((s.setUart u ⟨bytes 1 (lens 74), bytes 2 (lens 75)⟩).setSpi u ⟨bytes 3 (lens 76), bytes 4 (lens 77)⟩).setI2c u ⟨bytes 5 (lens 78), nat i 79 3 != 0, nat i 103 17, nat i 104 17⟩
--%   let s := s.setReg (Reg.LIO_IXFER u) (word i 80)
--%   let s := s.setReg Reg.LIO_FLAGS (word i 81 &&& 0xFF0700)
--%   let s := s.setReg (Reg.LIO_DATA (pin / 32)) (word i 82)
--%   let s := { s with lio := { s.lio with tie := s.lio.tie.set false pin (bool i 83), lvl := s.lio.lvl.set false pin (bool i 84), pads := s.lio.pads.set none pin (if bool i 85 then none else some (nat i 86 3300 : Int)), gen := s.lio.gen.set 0 pin (if (s.reg (Reg.LIO_OWNER pin)) = 6 then 0 else 5) } }
--%   let v := if bool i 87 then word i 88 else F.LIO_CFG_Threshold.put (word i 89) (nat i 90 5)
--%   let mv := if nat i 91 5 = 0 then none else some (if bool i 92 then (nat i 93 3300 : Int) else ([800,1200,1600,2000,900,1400].getD (nat i 94 6) 0 : Int) + ([-76, -75,-74,-1,0,1,74,75,76].getD (nat i 95 9) 0))
--%   K ({ s with clock := { s.clock with tick := now } }) pin u (nat i 96 4) (nat i 97 18) mv v (BitVec.ofNat 8 (mix (i*7))) (bytes 9 (nat i 98 18)) (bool i 99) (bool i 100) (bool i 101) .host
def Obligations.LineIo : Prop :=
  ∀ (s : State) (pin u level sent : Nat) (mv : Option Int) (v : Word) (d : Byte) (rd : List Byte) (valid noStop bad : Bool) (req : Req),
    pin < 256 → u < 4 → regsWf s.regs = true →
    let now := s.clock.tick
    let b := pin / 32
    let cfg := s.reg (Reg.LIO_CFG pin)
    let lvl := fun (q : Nat) (y : State) => y.lio.lvl.get false q
    let bank := s.fld (Reg.LIO_BANKSTAT b) F.LIO_BANKSTAT_Level
    let supply : Int := if bank = 1 then 1800 else if bank = 2 then 2500 else 3300
    let mid : Int := if bank = 1 then 900 else if bank = 2 then 1200 else 1400
    let fixed := fun (c : Word) => let k := F.LIO_CFG_Threshold.get c; if k = 1 then 800 else if k = 2 then 1200 else if k = 3 then 1600 else if k = 4 then (2000 : Int) else 0
    let thr := if fixed cfg = 0 then mid else fixed cfg
    let schmitt := F.LIO_CFG_Schmitt.get cfg = 1
    let pull := F.LIO_CFG_Pull.get cfg
    let free := pinDrive pin s = none ∧ ownerSwitching pin s = false
    let padded := fun (volts : Int) => if schmitt then (if lvl pin s then decide (thr - 75 < volts) else decide (thr + 75 ≤ volts)) else decide (thr ≤ volts)
    let edged := fun (y : State) => y.lio.pads.get none pin = mv ∧ srcLevel pin y = pinLevel pin y ∧
      sameBut [.regs, .cue, .encs, .lio, .engs, .seamEvts, .msixPend, .free] s y ∧ (∀ q < 256, q ≠ pin → lvl q y = lvl q s)
    let latchWrite := fun (i : Instr) (op : LatchOp) => exec i s = .next { s with lio := { s.lio with writes := s.lio.writes ++ [(op, b, v)] } }
    let latched := fun (op : LatchOp) (new : Word) => now % 4 = 0 → s.lio.late = ⟨[]⟩ →
      (fabLio { s with lio := { s.lio with writes := [(op, b, v)] } }).reg (Reg.LIO_DATA b) = new
    let latch := s.reg (Reg.LIO_DATA b)
    let v1 := if 4 < F.LIO_CFG_Threshold.get v then F.LIO_CFG_Threshold.put v 0 else v
    let v2 := if F.LIO_CFG_Drive.get v1 = 3 then F.LIO_CFG_Drive.put v1 2 else v1
    let v3 := if 0x28 < F.LIO_CFG_Func.get v2 then F.LIO_CFG_Func.put v2 0 else v2
    let refused := bank ≠ 0 ∧ fixed v3 ≠ 0 ∧ supply ≤ fixed v3
    let pinFlag := fun (f : Fld) (y : State) => y.bit Reg.LIO_FLAGS f = true ∧ y.fld Reg.LIO_FLAGS F.LIO_FLAGS_LastPin = pin ∧
      ((s.fld Reg.LIO_FLAGS F.LIO_FLAGS_FlagEvent).testBit f.lsb = true → y.pends (768 + pin / 8) = true)
    let inEffect := fun (y : State) (f : Fld) => F.LIO_CFG_Analog = f ∨ F.LIO_CFG_OutEnable = f ∨ F.LIO_CFG_CueDrive = f → f.get (effCfg pin y) = f.get (effCfg pin s)
    let byPg := fun (m : Nat) => m < 512 ∧ s.fld (Reg.PG_OUT m) F.PG_OUT_PinEnable = 1 ∧ s.fld (Reg.PG_OUT m) F.PG_OUT_Pin = pin
    let encPins := fun (e : Nat) => s.fld (Reg.ENC_PINS e) F.ENC_PINS_PinA = pin ∨ s.fld (Reg.ENC_PINS e) F.ENC_PINS_PinB = pin ∨
      s.bit (Reg.ENC_CTL e) F.ENC_CTL_IndexEnable = true ∧ s.fld (Reg.ENC_PINS e) F.ENC_PINS_PinZ = pin
    let byEnc := fun (e : Nat) => e < 32 ∧ s.bit (Reg.ENC_CTL e) F.ENC_CTL_Enable = true ∧ encPins e
    let byHead := fun (h : Nat) => h < 32 ∧ s.bit (Reg.HD_CTL h) F.HD_CTL_AuxEnable = true ∧ s.fld (Reg.HD_CTL h) F.HD_CTL_AuxPin = pin
    let anyPg := ∃ j < 512, byPg j
    let anyEnc := ∃ j < 32, byEnc j
    let anyHead := ∃ j < 32, byHead j
    let func := F.LIO_CFG_Func.get cfg
    let unit := if func ≤ 0x10 then (func - 1) / 2 else if func ≤ 0x20 then 8 + (func - 0x11) / 4 else 12 + (func - 0x21) / 2
    let on := if unit < 8 then s.bit (Reg.LIO_UCTL unit) F.LIO_UCTL_Enable else if unit < 12 then s.bit (Reg.LIO_SCTL (unit - 8)) F.LIO_SCTL_Enable else s.bit (Reg.LIO_ICTL (unit - 12)) F.LIO_ICTL_Enable
    let serial := func ≠ 0 ∧ func ≤ 0x28 ∧ on = true
    let sleeve := (s.reg (Reg.CFG_SLVIO (pin / 16))).getLsbD (pin % 16) = true
    let owner := fun (y : State) (k n : Nat) => y.fld (Reg.LIO_OWNER pin) F.LIO_OWNER_Owner = k ∧ y.fld (Reg.LIO_OWNER pin) F.LIO_OWNER_Unit = n
    let first := fun (p : Nat → Bool) (n : Nat) => ((List.range n).find? p).getD 0
    let pg := first (fun j => byPg j) 512
    let ec := first (fun j => byEnc j) 32
    let hd := first (fun j => byHead j) 32
    let tied := if anyPg then ∃ j < 512, j ≠ pg ∧ byPg j else if anyEnc then ∃ j < 32, j ≠ ec ∧ byEnc j else if anyHead then ∃ j < 32, j ≠ hd ∧ byHead j else False
    let unitEvent := fun (a : Nat) (f : Fld) (n : Nat) (en : Bool) (y : State) => y.bit a f = true ∧
      (∀ q < 256, unitPin n s = some q → en = true → y.pends (768 + q / 8) = true)
    let ux := s.uart u
    let ustat := Reg.LIO_USTAT u
    let uev := s.bit (Reg.LIO_UCTL u) F.LIO_UCTL_EvEnable
    let uon := s.bit (Reg.LIO_UCTL u) F.LIO_UCTL_Enable = true ∧ signalFed (2 + 2 * u) s = true
    let sx' := s.spi u
    let ix := s.i2c u
    let xfer := Reg.LIO_IXFER u
    let iev := s.bit (Reg.LIO_ICTL u) F.LIO_ICTL_EvEnable
    let go := F.LIO_IXFER_Go.put v 1
    let read := if noStop then [] else rd.take ix.rd
    let kept := fun (k : Nat) => ix.fifo.drop (Nat.min k ix.wr)
    (∃ y, exec (.lineIoEdge pin mv level) s = .next y ∧ edged y ∧
      (bank ≠ 0 → free → ∀ volts, mv = some volts → lvl pin y = padded volts) ∧
      (free → mv = none → pull = 1 → lvl pin y = true) ∧ (free → mv = none → pull = 2 → lvl pin y = false) ∧
      (free → mv = none → pull = 3 → lvl pin y = lvl pin s)) ∧
    latchWrite (.lioDataWrite b v) .data ∧ latchWrite (.lioSet b v) .set ∧ latchWrite (.lioClr b v) .clr ∧ latchWrite (.lioTgl b v) .tgl ∧
    latched .data v ∧ latched .set (latch ||| v) ∧ latched .clr (latch &&& ~~~ v) ∧ latched .tgl (latch ^^^ v) ∧
    (refused → ∃ y, exec (.lioCfgWrite pin v) s = .next y ∧ y.reg (Reg.LIO_CFG pin) = cfg ∧ y.lio = s.lio ∧
      pinFlag F.LIO_FLAGS_WriteRefused y ∧ Touches [Reg.LIO_FLAGS] [] s y) ∧
    (¬ refused → ∃ y, exec (.lioCfgWrite pin v) s = .next y ∧
      y.reg (Reg.LIO_CFG pin) = (s.plainWrite (Reg.LIO_CFG pin) v3).reg (Reg.LIO_CFG pin) ∧
      inEffect y F.LIO_CFG_Analog ∧ inEffect y F.LIO_CFG_OutEnable ∧ inEffect y F.LIO_CFG_CueDrive ∧
      sameBut [.regs, .cue, .lio, .engs, .seamEvts, .msixPend, .free] s y) ∧
    (∃ y, exec (.bankSupplyChange b valid level) s = .next y ∧ y.bit (Reg.LIO_BANKSTAT b) F.LIO_BANKSTAT_Valid = valid ∧
      y.fld (Reg.LIO_BANKSTAT b) F.LIO_BANKSTAT_Level = (if valid ∧ bank = 0 then max 1 (min 3 level) else bank) ∧
      Touches ([Reg.LIO_BANKSTAT b, Reg.LIO_FLAGS] ++ (List.range 32).map (fun j => Reg.LIO_CFG (32 * b + j))) [.lio, .cue, .free] s y) ∧
    (now % 4 ≠ 0 → exec (.ownerChange pin) s = .next s) ∧
    (now % 4 = 0 → ∃ y, exec (.ownerChange pin) s = .next y ∧
      (anyPg → owner y 1 (pg % 256)) ∧ (¬ anyPg → anyEnc → owner y 2 ec) ∧ (¬ anyPg → ¬ anyEnc → anyHead → owner y 3 hd) ∧
      (¬ anyPg → ¬ anyEnc → ¬ anyHead → serial → owner y 4 unit) ∧
      (¬ anyPg → ¬ anyEnc → ¬ anyHead → ¬ serial → sleeve → owner y 5 (pin / 16)) ∧
      (¬ anyPg → ¬ anyEnc → ¬ anyHead → ¬ serial → ¬ sleeve → owner y 6 0) ∧
      (tied → s.lio.tie.get false pin = false → pinFlag F.LIO_FLAGS_Contested y) ∧
      (s.bit Reg.LIO_FLAGS F.LIO_FLAGS_Contested = false → ¬ tied ∨ s.lio.tie.get false pin = true → y.bit Reg.LIO_FLAGS F.LIO_FLAGS_Contested = false) ∧
      sameBut [.regs, .cue, .lio, .engs, .seamEvts, .msixPend, .free] s y) ∧
    (ux.tx.length < 16 → exec (.uartDataWrite u v) s = .next (s.setUart u { ux with tx := ux.tx ++ [v.setWidth 8] })) ∧
    (16 ≤ ux.tx.length → ∃ y, exec (.uartDataWrite u v) s = .next y ∧ y.lio = s.lio ∧
      unitEvent ustat F.LIO_USTAT_TxOverrun u uev y ∧ Touches [ustat] [] s y) ∧
    (∃ y, exec (.uartDataRead req u) s = .next y ∧ y.uart u = { ux with rx := ux.rx.drop 1 } ∧
      y.rdata.get [] (reqKey req) = [if ux.rx = [] then 0 else (ux.rx.headD 0).setWidth 32 ||| 0x100] ∧ sameBut [.lio, .rdata] s y) ∧
    (¬ uon → exec (.uartReceive u d noStop bad) s = .next s) ∧
    (uon → ∃ y, exec (.uartReceive u d noStop bad) s = .next y ∧
      y.uart u = (if ux.rx.length < 16 then { ux with rx := ux.rx ++ [d] } else ux) ∧
      (16 ≤ ux.rx.length → unitEvent ustat F.LIO_USTAT_RxOverrun u uev y) ∧ (noStop = true → unitEvent ustat F.LIO_USTAT_Framing u uev y) ∧
      (bad = true → s.bit (Reg.LIO_UCTL u) F.LIO_UCTL_ParityEn = true → unitEvent ustat F.LIO_USTAT_Parity u uev y) ∧
      Touches [ustat] [.lio] s y) ∧
    (s.bit (Reg.LIO_UCTL u) F.LIO_UCTL_Enable = true → exec (.uartByteSent u) s = .next (s.setUart u { ux with tx := ux.tx.drop 1 })) ∧
    (s.bit (Reg.LIO_UCTL u) F.LIO_UCTL_Enable = false → exec (.uartByteSent u) s = .next s) ∧
    (exec (.spiDataWrite u v) s = .next (if sx'.tx.length < 16 then s.setSpi u { sx' with tx := sx'.tx ++ [v.setWidth 8] } else s)) ∧
    (∃ y, exec (.spiDataRead req u) s = .next y ∧ y.spi u = { sx' with rx := sx'.rx.drop 1 } ∧
      y.rdata.get [] (reqKey req) = [(sx'.rx.headD 0).setWidth 32] ∧ sameBut [.lio, .rdata] s y) ∧
    (s.bit (Reg.LIO_SCTL u) F.LIO_SCTL_Enable = true → sx'.tx ≠ [] → sx'.rx.length < 16 →
      exec (.spiByteDone u d) s = .next (s.setSpi u { tx := sx'.tx.drop 1, rx := sx'.rx ++ [if signalFed (0x13 + 4 * u) s then d else 0] })) ∧
    (s.bit (Reg.LIO_SCTL u) F.LIO_SCTL_Enable = false ∨ sx'.tx = [] ∨ 16 ≤ sx'.rx.length → exec (.spiByteDone u d) s = .next s) ∧
    (∃ y, exec (.i2cGo u v) s = .next y ∧ y.i2c u = (if ix.busy = false ∧ s.bit (Reg.LIO_ICTL u) F.LIO_ICTL_Enable = true then
        { ix with busy := true, wr := F.LIO_IXFER_WrLen.get go, rd := F.LIO_IXFER_RdLen.get go } else ix) ∧
      y.fld xfer F.LIO_IXFER_WrLen = F.LIO_IXFER_WrLen.get go ∧ y.fld xfer F.LIO_IXFER_RdLen = F.LIO_IXFER_RdLen.get go ∧
      y.fld xfer F.LIO_IXFER_Addr = F.LIO_IXFER_Addr.get go ∧ quiet [xfer] [.lio] s y) ∧
    (ix.busy = false → exec (.i2cTransferDone u sent rd noStop bad) s = .next s) ∧
    (ix.busy = true → ∃ y, exec (.i2cTransferDone u sent rd noStop bad) s = .next y ∧ (y.i2c u).busy = false ∧
      (y.i2c u).fifo = (kept sent ++ read).take 16 ∧ unitEvent (Reg.LIO_ISTAT u) F.LIO_ISTAT_Done (12 + u) iev y ∧
      (noStop = true → unitEvent (Reg.LIO_ISTAT u) F.LIO_ISTAT_Nack (12 + u) iev y) ∧
      (bad = true → unitEvent (Reg.LIO_ISTAT u) F.LIO_ISTAT_ArbLost (12 + u) iev y) ∧ Touches [Reg.LIO_ISTAT u] [.lio] s y) ∧
    (ix.busy = false → exec (.i2cBusStuck u) s = .next s) ∧
    (ix.busy = true → ∃ y, exec (.i2cBusStuck u) s = .next y ∧ (y.i2c u).busy = false ∧
      unitEvent (Reg.LIO_ISTAT u) F.LIO_ISTAT_BusStuck (12 + u) iev y ∧ unitEvent (Reg.LIO_ISTAT u) F.LIO_ISTAT_Done (12 + u) iev y ∧
      Touches [Reg.LIO_ISTAT u] [.lio] s y) ∧
    (∃ y, exec (.i2cDataRead req u) s = .next y ∧ y.i2c u = { ix with fifo := ix.fifo.drop 1 } ∧
      y.rdata.get [] (reqKey req) = [(ix.fifo.headD 0).setWidth 32] ∧ sameBut [.lio, .rdata] s y)

/-- SYS_RESET, POWER_LOSS and INTERNAL_RESTART give the reset state with Cause 1, 0 and 2, but the Journal with
JRN_FLWR, the fuses and the flash stay (with no unlock open and no burn under way); no internal restart happens
unless a failure calls for one. A step that succeeds gets OK, or ALT_OK, and the next begins PENDING, unless it
is MARKED: then it is skipped with StepMarked, and for step 0x03 the start goes on at 0x0D to end in HALTED.
Step 0x02 takes its crystal, step 0x03 makes this edge tick 0 and LINETIME 0, and after 0x0D the part is in RUN
with StartDone. A failure of step 0x02 sets StepFailed, is logged and makes Mode ALT with the alternative at
once; a failing alternative counts in AltFails, MARKED at 3, and restarts. Revert makes the record's Mode
NORMAL, for the next start. The fault log takes the queued entry of the lowest Source, 32 bytes at FlWr mod
4096, or drops it with JournalError. (20_start_up_and_journal.md: Reset and power-up, The steps, The Journal,
Fault log, Events; 98_stays_unspecified.md) -/
--% def gen (i : Nat) :=
--%   let s := rdy i
--%   let n := [2, 3, 13].getD (nat i 1 3) 2
--%   let s := s.setReg Reg.JRN_STAT (BitVec.ofNat 32 ((if nat i 2 6 = 0 then nat i 3 3 * 256 else 0)))
--%   let s := s.setReg Reg.JRN_CTL (word i 4)
--%   let s := (List.range 14).foldl (fun s j => s.setReg (Reg.JRN_STEP (j + 1)) (BitVec.ofNat 32 (nat i (5 + j) 3 + 4 * nat i (25 + j) 4 + 16 * 1 + 256 * 1))) s
--%   let s := s.setReg (Reg.JRN_STEP n) (F.JRN_STEP_Mode.put (s.reg (Reg.JRN_STEP n)) (nat i 40 2))
--%   let s := if bool i 41 then s else jrnPut (ssOfs (nat i 42 2)) (withCrc ((List.range 30).map (fun j => word i (50 + j)) ++ [word i 43])) s
--%   let s := if bool i 44 then s else setStepByte 5 6 s
--%   let fl := if bool i 45 then 4095 + 4096 * nat i 46 3 else nat i 47 5000
--%   let s := s.setReg Reg.JRN_FLWR (BitVec.ofNat 32 fl)
--%   let e := fun (k : Nat) => LogEnt.mk (900 + nat i k 30) (nat i (k+1) 14) (nat i (k+2) 7) (nat i (k+3) 200) (nat i (k+4) 5000) (nat i (k+5) (2^40)) (7 + nat i (k+6) 2)
--%   let q := (List.range (nat i 48 4)).map fun j => e (100 + 10 * j)
--%   let alt := F.JRN_STEP_Mode.get (s.reg (Reg.JRN_STEP n)) != 0
--%   let s := { s with logQ := q, startup := { s.startup with step := n, alt := alt, hk := 9, restart := nat i 49 4 = 0, halt := n = 13 && bool i 90 } }
--%   let s := s.setReg (Reg.SYS_LT_CTL) (word i 91)
--%   let s := s.setReg (Reg.LIO_BANKSTAT 3) 5
--%   let s := s.setReg Reg.MNT_STATUS (if nat i 92 4 = 0 then word i 93 else 1)
--%   let s := { s with mantle := { s.mantle with burn := if nat i 94 5 = 0 then some (0, 3) else none } }
--%   let b := if bool i 95 then 0x3000000 + nat i 96 0x400 else if bool i 97 then 0x3020000 + nat i 98 0x20000 else nat i 99 0x400000
--%   K s (if bool i 110 then n else nat i 111 14) (nat i 100 4) (nat i 101 16) b (word i 102) (q.headD (e 100)) (bool i 103) [77 + nat i 104 9, 0]
def Obligations.StartUpAndJournal : Prop :=
  ∀ (s : State) (n straps m b : Nat) (v : Word) (e : LogEnt) (ok : Bool) (data : List Nat), memWf s.mem = true → straps < 4 →
    let z := State.reset
    let journal := 0x3000000 ≤ b ∧ b < 0x3040000
    let banks := (List.range 8).map (fun b => Reg.LIO_BANKSTAT b)
    let calm := s.fld Reg.MNT_STATUS F.MNT_STATUS_DebugScope = 0 ∧ s.mantle.burn = none
    let fresh := fun (cause : Nat) (as : List Nat) (t : State) => t.startup = { z.startup with cause := cause } ∧
      t.byte b = (if journal then s.byte b else 0) ∧ t.mantle = { z.mantle with fuses := s.mantle.fuses } ∧ t.host = { z.host with flash := s.host.flash } ∧
      t.reg Reg.JRN_FLWR = s.reg Reg.JRN_FLWR ∧ regsBut (Reg.JRN_FLWR :: as) z t ∧
      t.pending = s.pending ∧ t.engs = z.engs ∧ t.clock = z.clock ∧ t.jobs = z.jobs ∧ t.heads = z.heads ∧ t.ledger = z.ledger ∧
      t.pgs = z.pgs ∧ t.encs = z.encs ∧ t.cue = z.cue ∧ t.dce = z.dce ∧ t.seam = z.seam ∧ t.cal = z.cal ∧ t.perReq = z.perReq
    let pinned := fun (t : State) => t.fld Reg.CFG_PORTSTAT F.CFG_PORTSTAT_Mode = straps ∧ t.lio.pads = s.lio.pads
    let st := s.startup
    let step := fun (k : Nat) (f : Fld) (t : State) => t.fld (Reg.JRN_STEP k) f
    let mode := fun (k : Nat) => step k F.JRN_STEP_Mode s
    let fails := step 2 F.JRN_STEP_AltFails s
    let stepping := s.fld Reg.JRN_STAT F.JRN_STAT_State = 0 ∧ st.restart = false
    let atStep := fun (k : Nat) => stepping ∧ st.step = k ∧ st.halt = false
    let flag := fun (f : Fld) (ev : Nat) (t : State) => t.bit Reg.JRN_STAT f = true ∧
      ((s.fld Reg.JRN_CTL F.JRN_CTL_FlagEvent).testBit (f.lsb - 16) = true → t.pends ev = true)
    let passed := fun (k : Nat) (t : State) => step k F.JRN_STEP_Outcome t = if st.alt then 4 else 2
    let began := fun (k : Nat) (t : State) => t.startup.step = k ∧ t.fld Reg.JRN_STAT F.JRN_STAT_Step = k ∧
      t.startup.alt = decide (mode k ≠ 0) ∧ t.startup.hk = BitVec.ofNat 32 (data.getD 0 0) ∧
      step k F.JRN_STEP_Outcome t = 1 ∧ step k F.JRN_STEP_Attempts t = 1 ∧ step k F.JRN_STEP_Code t = 0
    let stepRecord := 0x3000080 ≤ b ∧ b < 0x3000180
    let recordOnly := fun (t : State) => ¬ stepRecord → t.byte b = s.byte b
    let failing := fun (i : Instr) =>
      (atStep 2 → mode 2 = 0 → st.alt = false → ∃ t, exec i s = .next t ∧ t.startup.alt = true ∧ t.startup.step = 2 ∧ t.startup.restart = false ∧
        step 2 F.JRN_STEP_Mode t = 1 ∧ step 2 F.JRN_STEP_AltFails t = 0 ∧ step 2 F.JRN_STEP_Attempts t = 2 ∧ step 2 F.JRN_STEP_Code t = 1 ∧
        flag F.JRN_STAT_StepFailed 933 t ∧ (t.fld Reg.JRN_FAILMASK F.JRN_FAILMASK_Failed).testBit 2 = true ∧
        t.logQ = s.logQ ++ [⟨933, 0x0C, 0, 2, s.clock.lt, 0, s.clock.tick / 2⟩] ∧ recordOnly t) ∧
      (atStep 2 → mode 2 = 1 → st.alt = true → st.opened = false → ∃ t, exec i s = .next t ∧ t.startup.restart = true ∧
        step 2 F.JRN_STEP_Mode t = (if 2 ≤ fails then 2 else 1) ∧ step 2 F.JRN_STEP_AltFails t = (if 2 ≤ fails then 3 else fails + 1) ∧
        step 2 F.JRN_STEP_Outcome t = 5 ∧ flag F.JRN_STAT_StepFailed 933 t ∧ recordOnly t)
    let head := s.logQ.headD e
    let at' := 0x3020000 + 32 * ((s.reg Reg.JRN_FLWR).toNat % 4096)
    let words := [BitVec.ofNat 32 (e.source % 1024 + 2 ^ 16 * (e.cls % 256) + 2 ^ 24 * (e.action % 256)), BitVec.ofNat 32 e.info,
      BitVec.ofNat 32 e.start, BitVec.ofNat 32 (e.start / 2 ^ 32), BitVec.ofNat 32 e.stop, BitVec.ofNat 32 (e.stop / 2 ^ 32), s.reg Reg.JRN_FLWR]
    let due := nextEntry s = some e
    let count := s.reg Reg.JRN_FLWR + 1
    (calm → ∃ t, exec (.sysReset straps) s = .next t ∧ fresh 1 (Reg.CFG_PORTSTAT :: banks) t ∧ pinned t) ∧
    (calm → ∃ t, exec .powerLoss s = .next t ∧ fresh 0 [] t) ∧
    (calm → st.restart = true → ∃ t, exec (.internalRestart straps) s = .next t ∧ fresh 2 (Reg.CFG_PORTSTAT :: banks) t ∧ pinned t) ∧
    (st.restart = false → exec (.internalRestart straps) s = .next s) ∧
    (¬ stepping → exec (.startSequence ok data) s = .next s ∧ exec (.stepTimeout n) s = .next s) ∧
    (atStep 2 → mode 3 ≠ 2 → st.opened = false → ∃ t, exec (.startSequence true data) s = .next t ∧ t.clock.active = st.alt ∧
      t.clock.valid st.alt = true ∧ passed 2 t ∧ began 3 t ∧ (st.alt = true → mode 2 = 1 → step 2 F.JRN_STEP_AltFails t = 0) ∧ recordOnly t) ∧
    (atStep 2 → mode 3 = 2 → mode 13 ≠ 2 → st.opened = false → ∃ t, exec (.startSequence true data) s = .next t ∧ passed 2 t ∧ began 13 t ∧ t.startup.halt = true ∧
      step 3 F.JRN_STEP_Outcome t = 6 ∧ flag F.JRN_STAT_StepMarked 933 t ∧ (t.fld Reg.JRN_FAILMASK F.JRN_FAILMASK_Failed).testBit 3 = true) ∧
    (atStep 3 → mode 4 ≠ 2 → ∃ t, exec (.startSequence true data) s = .next t ∧ t.clock.tick = 0 ∧ t.clock.lt = 0 ∧ t.clock.pllLocked = true ∧
      passed 3 t ∧ began 4 t) ∧
    (atStep 13 → ∃ t, exec (.startSequence true data) s = .next t ∧ passed 13 t ∧ t.fld Reg.JRN_STAT F.JRN_STAT_State = 1 ∧
      t.fld Reg.JRN_STAT F.JRN_STAT_Step = 14 ∧ step 14 F.JRN_STEP_Outcome t = 2 ∧ flag F.JRN_STAT_StartDone 932 t) ∧
    (stepping → st.step = 13 → st.halt = true → ∃ t, exec (.startSequence true data) s = .next t ∧ passed 13 t ∧ t.fld Reg.JRN_STAT F.JRN_STAT_State = 2 ∧
      t.bit Reg.JRN_STAT F.JRN_STAT_StartDone = s.bit Reg.JRN_STAT F.JRN_STAT_StartDone) ∧
    failing (.startSequence false data) ∧ failing (.stepTimeout 2) ∧
    (stepping → st.step ≠ 0 → n ≠ st.step → exec (.stepTimeout n) s = .next s) ∧
    (1 ≤ m → m ≤ 14 → ∃ t, exec (.stepRevert m v) s = .next t ∧ stepByte m t = 0 ∧ (∀ j < 14, j + 1 ≠ m → stepByte (j + 1) t = stepByte (j + 1) s) ∧
      recordOnly t ∧ sameBut [.mem, .poison] s t) ∧
    (m = 0 ∨ 14 < m → exec (.stepRevert m v) s = .next s) ∧
    (s.logQ = [] → exec (.faultLogWrite ok) s = .next s) ∧
    (due → e ∈ s.logQ ∧ e.cyc = head.cyc ∧ (∀ x ∈ s.logQ, x.cyc = head.cyc → e.source ≤ x.source)) ∧
    (s.logQ ≠ [] → nextEntry s ≠ none) ∧
    (due → ∃ t, exec (.faultLogWrite true) s = .next t ∧ t.logQ = s.logQ.erase e ∧
      (∀ j < 7, t.word (at' + 4 * j) = words.getD j 0) ∧ t.word (at' + 28) = crc32c (wordBytes words) ∧
      (b < at' ∨ at' + 32 ≤ b → t.byte b = s.byte b) ∧ t.reg Reg.JRN_FLWR = count ∧ flag F.JRN_STAT_FaultLogged 935 t ∧
      (count.toNat % 4096 = 0 → flag F.JRN_STAT_LogWrap 934 t) ∧
      (count.toNat % 4096 ≠ 0 → t.bit Reg.JRN_STAT F.JRN_STAT_LogWrap = s.bit Reg.JRN_STAT F.JRN_STAT_LogWrap) ∧
      Touches [Reg.JRN_STAT, Reg.JRN_FLWR] [.mem, .poison, .logQ] s t) ∧
    (due → ∃ t, exec (.faultLogWrite false) s = .next t ∧ t.logQ = s.logQ.erase e ∧ flag F.JRN_STAT_JournalError 934 t ∧
      Touches [Reg.JRN_STAT] [.logQ] s t)

/-- A write beyond the control region or off a word changes nothing, nor does one to an address without a register,
except that the host's counts as violation 0x02. RW fields take their bits, W1C bits written 1 clear, read-only
bits stay; EVT_CTL stores an engine above 191 as 191, EVT_ROUTE one above 191 as EngEn 0, CAL_CTL DeltaT 0 as 1.
SWRAISE below 940 sets SwRefused and raises nothing; otherwise the event's EVT_PEND bit is set and it goes to
each enabled route: the vector's pending bit; the engine's EVPEND bit in RUN, WAIT or HALTED, EvCoalesced where
it is already set, else the fallback engine with Redirected, or RouteDropped; and one waiting MSG, into which a
further raise merges, or SeamLost. The route written in this ENG cycle does not yet count. A waiting MSG leaves
through its window with event, count and LINETIME. (19_events_faults_and_availability.md: Routing, Events
registers, 21_register_map.md: Access types, The map, 20_start_up_and_journal.md, 17_calibration.md: Calibration
registers) -/
--% def gen (i : Nat) :=
--%   let s := rdy i
--%   let now := 1000 + nat i 1 2
--%   let e := if bool i 2 then 940 + nat i 3 84 else nat i 4 1024
--%   let n := if nat i 5 3 = 0 then nat i 6 2 else nat i 6 256
--%   let r := F.EVT_ROUTE_Engine.put (F.EVT_ROUTE_SeamWin.put (word i 7) (nat i 8 2)) (nat i 9 3)
--%   let r := if nat i 90 4 = 0 then 0 else if nat i 91 3 = 0 then F.EVT_ROUTE_SeamEn.put (F.EVT_ROUTE_MsixEn.put r 0) 0 else r
--%   let s := s.setReg (Reg.EVT_ROUTE e) r
--%   let s := (List.range 3).foldl (fun s k => (s.setEng k { s.eng k with st := ([.run, .wait, .halted, .held, .parked, .faulted] : List EngSt).getD (nat i (10 + k) 6) .run, evpend := BitVec.ofNat 16 (nat i (13 + k) 65536) }).setReg (Reg.ME_EVTEN k) 0) s
--%   let s := s.setReg Reg.EVT_CTL (F.EVT_CTL_FallbackEngine.put (word i 20) (nat i 21 3))
--%   let s := s.setReg (Reg.EVT_PEND (e / 32)) (word i 22)
--%   let s := s.setReg Reg.EVT_STAT (word i 23 &&& 0x3FF001F)
--%   let s := s.setReg (Reg.SL_WIN_CTL 0) (word i 24)
--%   let s := s.setReg (Reg.SL_WIN_CTL 1) (F.SL_WIN_CTL_Mcast.put (F.SL_WIN_CTL_DevId.put (word i 25 ||| 0x8000C000) 5) 0)
--%   let s := s.setReg Reg.SL_CTL (F.SL_CTL_DeviceId.put (word i 26) (if bool i 27 then 5 else 6))
--%   let m : SeamEvt := ⟨1, 1 + nat i 28 4, 4444⟩
--%   let s := if bool i 29 then { s with seamEvts := ⟨[(e, m)]⟩ } else s
--%   let s := if nat i 30 5 = 0 then { s with oldRoutes := [(e, 500, 0)] } else s
--%   let a := if bool i 31 then 4 * nat i 32 0x400000 else if bool i 33 then nat i 34 0x2000000 else 0x10000 + 4 * nat i 35 0x1000
--%   let s := { s with clock := { s.clock with tick := now } }
--%   K s e a (nat i 36 1024) (F.EVT_ROUTE_Engine.put (word i 37) n) m (if bool i 38 then .host else .engine 4)
def Obligations.RegisterWritesAndEvents : Prop :=
  ∀ (s : State) (e a f : Nat) (v : Word) (m : SeamEvt) (req : Req), e < 1024 → f < 1024 →
    let stores := fun (b : Nat) (w new : Word) => exec (.registerWrite req b w) s = .next (s.setReg b new)
    let raise := F.EVT_SWRAISE_Event.put v e
    let route := s.reg (Reg.EVT_ROUTE e)
    let settled := s.oldRoutes.all (fun r => decide (r.2.1 ≠ s.clock.tick / 2)) = true
    let on := fun (g : Fld) => g.get route = 1
    let n := F.EVT_ROUTE_Engine.get route
    let c := F.EVT_ROUTE_Channel.get route
    let fb := s.fld Reg.EVT_CTL F.EVT_CTL_FallbackEngine
    let fc := s.fld Reg.EVT_CTL F.EVT_CTL_FallbackChannel
    let takes := (s.eng n).st = .run ∨ (s.eng n).st = .wait ∨ (s.eng n).st = .halted
    let second := s.bit Reg.EVT_CTL F.EVT_CTL_FallbackEnable = true ∧ ((s.eng fb).st = .run ∨ (s.eng fb).st = .wait)
    let quietly := s.bit (Reg.ME_EVTEN n) ⟨3, 1⟩ = false
    let arrives := fun (k ch : Nat) (t : State) =>
      (t.eng k).evpend = (s.eng k).evpend ||| BitVec.ofNat 16 (2 ^ ch) ∧
      ((s.eng k).evpend.getLsbD ch = true → t.bit (Reg.ME_STAT k) F.ME_STAT_EvCoalesced = true)
    let evt := fun (g : Fld) (t : State) => t.bit Reg.EVT_STAT g = true ∧ t.fld Reg.EVT_STAT F.EVT_STAT_LastEvent = e
    let raised := fun (q : State → Prop) => ∃ t, exec (.swraise raise) s = .next t ∧ t.pends e = true ∧
      (192 ≤ f → f ≠ e → t.pends f = s.pends f) ∧ q t
    let win := F.EVT_ROUTE_SeamWin.get route
    let winOk := s.bit (Reg.SL_WIN_CTL win) F.SL_WIN_CTL_WinEnable = true ∧ s.bit (Reg.SL_WIN_CTL win) F.SL_WIN_CTL_Kind = true ∧
      s.bit (Reg.SL_WIN_CTL win) F.SL_WIN_CTL_Write = true
    let waits := fun (t : State) => lookupCell e t.seamEvts.cells
    let doorbell := 940 ≤ e ∧ settled
    let ctl := Reg.SL_WIN_CTL m.win
    let toSelf := s.fld ctl F.SL_WIN_CTL_DevId = s.fld Reg.SL_CTL F.SL_CTL_DeviceId ∧ s.bit ctl F.SL_WIN_CTL_Mcast = false
    let body := leBytes 2 (s.fld ctl F.SL_WIN_CTL_Event) ++ leBytes 2 16 ++ List.replicate 12 0 ++
      leBytes 2 e ++ [0, 0] ++ leBytes 4 m.count ++ leBytes 8 m.lt
    (0x1000000 ≤ a ∨ a % 4 ≠ 0 → exec (.registerWrite req a v) s = .next s) ∧
    (a < 0x1000000 → a % 4 = 0 → regRow a = none → inTable a = false → inPba a = false → req ≠ .host → exec (.registerWrite req a v) s = .next s) ∧
    (a < 0x1000000 → a % 4 = 0 → regRow a = none → inTable a = false → inPba a = false → req = .host → ∃ t, exec (.registerWrite req a v) s = .next t ∧
      t.fld Reg.HOST_VIOL F.HOST_VIOL_Code = 2 ∧ t.reg64 Reg.HOST_VIOL_ADDR_LO = a ∧ t.bit Reg.HOST_FLAGS F.HOST_FLAGS_Violation = true ∧
      Touches [Reg.HOST_VIOL, Reg.HOST_FLAGS, Reg.HOST_VIOL_ADDR_LO, Reg.HOST_VIOL_ADDR_LO + 4] [] s t) ∧
    stores Reg.EVT_TEMPLIM v v ∧
    stores (Reg.EVT_PEND (e / 32)) v (s.reg (Reg.EVT_PEND (e / 32)) &&& ~~~ v) ∧
    stores Reg.EVT_STAT v (s.reg Reg.EVT_STAT &&& ~~~ (v &&& 0x1F)) ∧
    stores Reg.EVT_MONSUP v (s.reg Reg.EVT_MONSUP &&& ~~~ (v &&& 0x0FFF0000)) ∧
    stores Reg.EVT_RAISECNT v (s.reg Reg.EVT_RAISECNT) ∧
    (∃ t, exec (.registerWrite req Reg.EVT_CTL v) s = .next t ∧
      t.fld Reg.EVT_CTL F.EVT_CTL_FallbackEngine = min 191 (F.EVT_CTL_FallbackEngine.get v) ∧
      t.fld Reg.EVT_CTL F.EVT_CTL_FallbackChannel = F.EVT_CTL_FallbackChannel.get v ∧
      t.fld Reg.EVT_CTL F.EVT_CTL_FallbackEnable = F.EVT_CTL_FallbackEnable.get v ∧ quiet [Reg.EVT_CTL] [] s t) ∧
    (∃ t, exec (.registerWrite req Reg.CAL_CTL v) s = .next t ∧
      t.fld Reg.CAL_CTL F.CAL_CTL_DeltaT = max 1 (F.CAL_CTL_DeltaT.get v) ∧ quiet [Reg.CAL_CTL] [] s t) ∧
    (∃ t, exec (.registerWrite req (Reg.EVT_ROUTE e) v) s = .next t ∧ routeOf e t = routeOf e s ∧
      t.reg (Reg.EVT_ROUTE e) = (if 191 < F.EVT_ROUTE_Engine.get v then F.EVT_ROUTE_EngEn.put v 0 else v) ∧
      quiet [Reg.EVT_ROUTE e] [.oldRoutes] s t) ∧
    (e < 940 → ∃ t, exec (.swraise raise) s = .next t ∧ evt F.EVT_STAT_SwRefused t ∧ quiet [Reg.EVT_STAT] [] s t) ∧
    (doorbell → ¬ on F.EVT_ROUTE_MsixEn → ¬ on F.EVT_ROUTE_EngEn → ¬ on F.EVT_ROUTE_SeamEn →
      raised (fun t => quiet [Reg.EVT_PEND (e / 32), Reg.EVT_RAISECNT] [] s t)) ∧
    (doorbell → on F.EVT_ROUTE_MsixEn → raised (fun t => t.msixPend.get false (F.EVT_ROUTE_Vector.get route) = true)) ∧
    (doorbell → ¬ on F.EVT_ROUTE_MsixEn → raised (fun t => t.msixPend = s.msixPend ∨ ¬ quietly)) ∧
    (doorbell → on F.EVT_ROUTE_EngEn → takes → quietly → raised (fun t => arrives n c t)) ∧
    (doorbell → on F.EVT_ROUTE_EngEn → ¬ takes → second → fb ≠ n → raised (fun t =>
      arrives fb fc t ∧ t.bit Reg.EVT_STAT F.EVT_STAT_Redirected = true ∧ (t.eng n).evpend = (s.eng n).evpend ∨ s.bit (Reg.ME_EVTEN fb) ⟨3, 1⟩ = true)) ∧
    (doorbell → on F.EVT_ROUTE_EngEn → ¬ takes → ¬ second → raised (fun t => evt F.EVT_STAT_RouteDropped t ∧ t.engs = s.engs)) ∧
    (doorbell → ¬ on F.EVT_ROUTE_EngEn → raised (fun t => t.engs = s.engs)) ∧
    (doorbell → ¬ on F.EVT_ROUTE_EngEn → on F.EVT_ROUTE_SeamEn → waits s = some m →
      raised (fun t => waits t = some { m with count := m.count + 1 } ∧ evt F.EVT_STAT_SeamMerged t)) ∧
    (doorbell → ¬ on F.EVT_ROUTE_EngEn → on F.EVT_ROUTE_SeamEn → waits s = none → winOk →
      raised (fun t => waits t = some ⟨win, 1, s.clock.lt⟩)) ∧
    (doorbell → ¬ on F.EVT_ROUTE_EngEn → on F.EVT_ROUTE_SeamEn → waits s = none → ¬ winOk →
      raised (fun t => t.seamEvts = s.seamEvts ∧ evt F.EVT_STAT_SeamLost t)) ∧
    (waits s = none → exec (.seamEventMsg e) s = .next s) ∧
    (waits s = some m → toSelf → ∃ t, exec (.seamEventMsg e) s = .next t ∧ waits t = none ∧
      (∃ g ∈ t.seam.loop, t.seam.loop = s.seam.loop ++ [g] ∧ g.cls = 4 ∧ g.ans = false ∧ g.payload = body ∧ g.tid = s.seam.nextTid) ∧
      sameBut [.seamEvts, .seam] s t)

/-- For every state and every command c at the front of its queue, step answers exactly what exec c answers on the
state with the rest of the queue; on an empty queue it answers a next state with an empty queue, and the same
state while the clock does not run. (That an idle step is a tick is the model's choice, log entry 2.)
(00_scope.md, 95_what_each_step_holds.md) -/
def Obligations.StepRunsTheFrontCommand : Prop :=
  ∀ (s : State) (c : Instr) (rest : List Instr),
    (s.pending = c :: rest → step s = exec c { s with pending := rest }) ∧
    (s.pending = [] → ∃ t, step s = .next t ∧ t.pending = [] ∧ (s.clock.run = false → t = s))

/-- At reset no control register differs from its reset value, so that for example EVT_TEMPLIM holds 105 °C and 110
°C, LIO_CFG the pull-down, SYS_CLK_CTL its reset value and CAL_CTL DeltaT 0x08; no memory byte is listed, none
is poisoned, the queue of commands is empty, every engine is HELD, no encoder, generator, head port, record or
job is under way, no event is pending, the clock does not run, and the fault log has nothing to write. (Zero for
the bytes of unlisted memory is the model's choice, log entry 16.) (02_clocks_and_line_time.md,
06_waveform_drive.md, 11_job_queues_deadlines_and_stealing.md, 18_line_io_pins.md, 20_start_up_and_journal.md,
21_register_map.md: Access types, 19_events_faults_and_availability.md: Supply and temperature registers) -/
def Obligations.ResetState : Prop :=
  let z := State.reset
  z.regs = [] ∧ z.canonical = true ∧ z.burnRises ∧ z.mem = [] ∧ z.poison = ⟨[]⟩ ∧ z.pending = [] ∧ z.perReq = ⟨[]⟩ ∧ z.logQ = [] ∧
    z.reg Reg.EVT_TEMPLIM = 0x06E00690 ∧ z.fld Reg.CAL_CTL F.CAL_CTL_DeltaT = 8 ∧
    (∀ n < 256, z.fld (Reg.LIO_CFG n) F.LIO_CFG_Pull = 2 ∧ z.fld (Reg.LIO_CFG n) F.LIO_CFG_OutEnable = 0 ∧ z.fld (Reg.LIO_CFG n) F.LIO_CFG_Func = 0) ∧
    (∀ n < 256, z.fld (Reg.LIO_OWNER n) F.LIO_OWNER_Owner = 6) ∧
    (∀ n, (z.eng n).st = .held) ∧ (∀ i < 1024, z.pends i = false) ∧ z.clock.run = false ∧ z.clock.tick = 0 ∧ z.clock.lt = 0 ∧
    z.startup.step = 0 ∧ z.startup.cause = 0 ∧ z.fld Reg.JRN_STAT F.JRN_STAT_State = 0 ∧ z.ledger.recs = [] ∧ z.ledger.rejects = [] ∧
    z.jobs.qs = ⟨[]⟩ ∧ z.pgs = ⟨[]⟩ ∧ z.encs = ⟨[]⟩ ∧ z.heads = ⟨[]⟩ ∧ z.seam.reqs = [] ∧ z.mantle.op = none ∧ z.mantle.burn = none

/-- From every state whose memory and register file are canonical (addresses strictly rising, no byte listed that an
unlisted address reads) and whose burn under way raises its counter, step answers a next state with the same
properties, whatever command is at the front of the queue; and no fuse is unblown: an owner slot once Enrolled
or Revoked stays so, and no rollback counter falls (R353, R354). (15_mantle_security.md: Fuses, Rollback
counters, 12_on_chip_memory.md, 21_register_map.md: Access types) -/
def Obligations.EveryStepKeepsTheInvariant : Prop :=
  ∀ s : State, s.canonical = true → s.burnRises →
    ∃ t, step s = .next t ∧ t.canonical = true ∧ t.burnRises ∧ fusesStay s t

/-- Every command, on every state, answers a next state, leaves the queue of waiting commands alone and lets no fuse
be unblown; a command that mayStore does not name changes no byte of memory; one that mayReachMantle does not
name leaves Mantle's fuses, requests and counters as they are; one that mayRetime does not name leaves the
clocks, the tick and LINETIME; one that mayStart does not name leaves the start sequence where it stands.
(95_what_each_step_holds.md, 00_scope.md, 15_mantle_security.md, 20_start_up_and_journal.md,
02_clocks_and_line_time.md) -/
def Obligations.CommandsReachOnlyTheirParts : Prop :=
  ∀ (c : Instr) (s : State), s.burnRises → ∃ t, exec c s = .next t ∧ t.pending = s.pending ∧ fusesStay s t ∧
    (mayStore c = false → ∀ b, t.byte b = s.byte b) ∧ (mayReachMantle c = false → t.mantle = s.mantle) ∧
    (mayRetime c = false → t.clock = s.clock) ∧ (mayStart c = false → t.startup = s.startup)

end
end

