-- ==== Sys2Proof/Laws/Cells.lean ====
section
/-!
SUPPORT. What the sparse lists do: a lookup after an update, and the canonical form that every update keeps.
-/
namespace Sys2Proof.Machine

variable {α : Type}

/-! ### Lookup after update -/

theorem lookupCell_insertCell_self (i : Nat) (x : α) (l : List (Nat × α)) :
    lookupCell i (insertCell i x l) = some x := by
  induction l with
  | nil => simp [insertCell, lookupCell]
  | cons c rest ih =>
    obtain ⟨k, w⟩ := c
    simp only [insertCell]
    split
    · simp [lookupCell]
    · split
      · simp [lookupCell]
      · rename_i _ h
        simp [lookupCell, ih, Ne.symm h]

theorem lookupCell_insertCell_ne {i j : Nat} (h : j ≠ i) (x : α) (l : List (Nat × α)) :
    lookupCell j (insertCell i x l) = lookupCell j l := by
  induction l with
  | nil => simp [insertCell, lookupCell, Ne.symm h]
  | cons c rest ih =>
    obtain ⟨k, w⟩ := c
    simp only [insertCell]
    split
    · simp [lookupCell, Ne.symm h]
    · split
      · rename_i _ hk
        subst hk
        simp [lookupCell, Ne.symm h]
      · simp [lookupCell, ih]

theorem lookupCell_remove_self (i : Nat) (l : List (Nat × α)) :
    lookupCell i (l.filter (fun c => c.1 != i)) = none := by
  induction l with
  | nil => rfl
  | cons c rest ih =>
    by_cases h : c.1 = i <;> simp [h, lookupCell, ih]

theorem lookupCell_remove_ne {i j : Nat} (h : j ≠ i) (l : List (Nat × α)) :
    lookupCell j (l.filter (fun c => c.1 != i)) = lookupCell j l := by
  induction l with
  | nil => rfl
  | cons c rest ih =>
    by_cases hc : c.1 = i
    · have hne : ¬ c.1 = j := fun e => h (e.symm.trans hc)
      simp [hc, lookupCell, ih, Ne.symm h]
    · simp [hc, lookupCell, ih]

/-- A read after an update of the same key. -/
theorem lookupCell_putCell_self (i : Nat) (v : Option α) (l : List (Nat × α)) :
    lookupCell i (putCell i v l) = v := by
  cases v with
  | none => exact lookupCell_remove_self i l
  | some x => exact lookupCell_insertCell_self i x l

/-- An update leaves every other key alone. -/
theorem lookupCell_putCell_ne {i j : Nat} (h : j ≠ i) (v : Option α) (l : List (Nat × α)) :
    lookupCell j (putCell i v l) = lookupCell j l := by
  cases v with
  | none => exact lookupCell_remove_ne h l
  | some x => exact lookupCell_insertCell_ne h x l

theorem lookupCell_putCell (i j : Nat) (v : Option α) (l : List (Nat × α)) :
    lookupCell j (putCell i v l) = if j = i then v else lookupCell j l := by
  split
  · subst j; exact lookupCell_putCell_self i v l
  · exact lookupCell_putCell_ne ‹_› v l

@[simp] theorem getD_default [DecidableEq α] (d v : α) : (if v = d then none else some v : Option α).getD d = v := by
  split <;> simp_all

/-- A table read after an update. -/
@[simp] theorem Tab.get_set [DecidableEq α] (t : Tab α) (d : α) (i j : Nat) (v : α) :
    (t.set d i v).get d j = if j = i then v else t.get d j := by
  unfold Tab.get Tab.set
  rw [lookupCell_putCell]
  split <;> simp

/-! ### The canonical form -/

/-- Every key of the list is above `b`. -/
def allAbove (b : Nat) (l : List (Nat × α)) : Prop := ∀ c ∈ l, b < c.1

theorem sortedKeys_cons (c : Nat × α) (l : List (Nat × α)) :
    sortedKeys (c :: l) = true ↔ allAbove c.1 l ∧ sortedKeys l = true := by
  obtain ⟨a, x⟩ := c
  induction l generalizing a x with
  | nil => simp [sortedKeys, allAbove]
  | cons d rest ih =>
    obtain ⟨b, y⟩ := d
    simp only [sortedKeys, Bool.and_eq_true, decide_eq_true_eq]
    constructor
    · rintro ⟨hab, hr⟩
      refine ⟨?_, hr⟩
      intro c hc
      rcases List.mem_cons.mp hc with rfl | hc
      · exact hab
      · exact Nat.lt_trans hab (((ih b y).mp hr).1 c hc)
    · rintro ⟨h, hr⟩
      exact ⟨h (b, y) (List.mem_cons_self ..), hr⟩

theorem mem_insertCell {i : Nat} {x : α} {l : List (Nat × α)} {c : Nat × α} (h : c ∈ insertCell i x l) :
    c = (i, x) ∨ c ∈ l := by
  induction l with
  | nil => simpa [insertCell] using h
  | cons d rest ih =>
    obtain ⟨k, w⟩ := d
    simp only [insertCell] at h
    split at h
    · simpa using h
    · split at h
      · rcases List.mem_cons.mp h with h | h
        · exact .inl h
        · exact .inr (List.mem_cons_of_mem _ h)
      · rcases List.mem_cons.mp h with h | h
        · exact .inr (h ▸ List.mem_cons_self ..)
        · exact (ih h).imp id (List.mem_cons_of_mem _)

theorem sortedKeys_insertCell (i : Nat) (x : α) (l : List (Nat × α)) (h : sortedKeys l = true) :
    sortedKeys (insertCell i x l) = true := by
  induction l with
  | nil => rfl
  | cons d rest ih =>
    obtain ⟨k, w⟩ := d
    have hd := (sortedKeys_cons _ _).mp h
    simp only [insertCell]
    split
    · rename_i hik
      refine (sortedKeys_cons _ _).mpr ⟨?_, h⟩
      intro c hc
      rcases List.mem_cons.mp hc with rfl | hc
      · exact hik
      · exact Nat.lt_trans hik (hd.1 c hc)
    · split
      · rename_i _ hik
        subst hik
        exact (sortedKeys_cons _ _).mpr hd
      · rename_i h1 h2
        refine (sortedKeys_cons _ _).mpr ⟨?_, ih hd.2⟩
        intro c hc
        rcases mem_insertCell hc with rfl | hc
        · show k < i
          omega
        · exact hd.1 c hc

theorem sortedKeys_filter (p : Nat × α → Bool) (l : List (Nat × α)) (h : sortedKeys l = true) :
    sortedKeys (l.filter p) = true := by
  induction l with
  | nil => rfl
  | cons d rest ih =>
    have hd := (sortedKeys_cons _ _).mp h
    rw [List.filter_cons]
    split
    · refine (sortedKeys_cons _ _).mpr ⟨?_, ih hd.2⟩
      intro c hc
      exact hd.1 c ((List.mem_filter.mp hc).1)
    · exact ih hd.2

/-- An update keeps the keys strictly rising. -/
theorem sortedKeys_putCell (i : Nat) (v : Option α) (l : List (Nat × α)) (h : sortedKeys l = true) :
    sortedKeys (putCell i v l) = true := by
  cases v with
  | none => exact sortedKeys_filter _ l h
  | some x => exact sortedKeys_insertCell i x l h

theorem mem_putCell {i : Nat} {v : Option α} {l : List (Nat × α)} {c : Nat × α} (h : c ∈ putCell i v l) :
    some c.2 = v ∨ c ∈ l := by
  cases v with
  | none => exact .inr ((List.mem_filter.mp h).1)
  | some x =>
    rcases mem_insertCell h with rfl | h
    · exact .inl rfl
    · exact .inr h

/-! ### Memory (R462) -/

/-- A write of one byte keeps the canonical form of the memory. -/
theorem memWf_memSetByte (m : List Host.Cell) (a : Nat) (b : Byte) (h : memWf m = true) :
    memWf (memSetByte m a b) = true := by
  unfold memWf memSetByte at *
  simp only [Bool.and_eq_true, List.all_eq_true, bne_iff_ne, ne_eq] at *
  refine ⟨sortedKeys_putCell _ _ _ h.1, ?_⟩
  intro c hc
  rcases mem_putCell hc with hv | hc
  · intro he
    rw [he] at hv
    split at hv
    · simp at hv
    · simp_all
  · exact h.2 c hc

/-- A write of bytes keeps the canonical form of the memory. -/
theorem memWf_memSetBytes (bs : List Byte) (m : List Host.Cell) (a : Nat) (h : memWf m = true) :
    memWf (memSetBytes m a bs) = true := by
  induction bs generalizing m a with
  | nil => exact h
  | cons b bs ih => exact ih _ _ (memWf_memSetByte m a b h)

/-- So does clearing a range of addresses. -/
theorem memWf_filter (p : Host.Cell → Bool) (m : List Host.Cell) (h : memWf m = true) :
    memWf (m.filter p) = true := by
  unfold memWf at *
  simp only [Bool.and_eq_true, List.all_eq_true] at *
  exact ⟨sortedKeys_filter p m h.1, fun c hc => h.2 c ((List.mem_filter.mp hc).1)⟩

/-- A byte read after a write of one byte. -/
theorem memByte_memSetByte (m : List Host.Cell) (a x : Nat) (b : Byte) :
    memByte (memSetByte m a b) x = if x = a then b else memByte m x := by
  unfold memByte memSetByte
  rw [lookupCell_putCell]
  split <;> simp

/-- A write of bytes leaves every byte outside them alone. -/
theorem memByte_memSetBytes_outside (bs : List Byte) (m : List Host.Cell) (a x : Nat)
    (h : x < a ∨ a + bs.length ≤ x) : memByte (memSetBytes m a bs) x = memByte m x := by
  induction bs generalizing m a with
  | nil => rfl
  | cons b bs ih =>
    simp only [List.length_cons] at h
    rw [memSetBytes, ih _ _ (by omega), memByte_memSetByte, if_neg (by omega)]

/-- The bytes written read back. -/
theorem memByte_memSetBytes_inside (bs : List Byte) (m : List Host.Cell) (a i : Nat) (h : i < bs.length) :
    memByte (memSetBytes m a bs) (a + i) = bs[i] := by
  induction bs generalizing m a i with
  | nil => simp at h
  | cons b bs ih =>
    rw [memSetBytes]
    cases i with
    | zero =>
      rw [memByte_memSetBytes_outside _ _ _ _ (.inl (by omega)), memByte_memSetByte, if_pos (by omega)]
      rfl
    | succ i =>
      have hi : i < bs.length := by simpa using h
      have := ih (memSetByte m a b) (a + 1) i hi
      rw [show a + (i + 1) = a + 1 + i by omega, this]
      rfl

end Sys2Proof.Machine
end

