-- ==== Sys2Proof/Laws/State.lean ====
section
/-!
SUPPORT. One lemma for each field and each update of the state, so that no proof unfolds a record update, and
what the accessors read after an update.
-/
namespace Sys2Proof.Machine

/-! ### State.setReg -/

@[simp] theorem State.setReg_perReq (s : State) (a : Nat) (v : Word) : (s.setReg a v).perReq = s.perReq := rfl
@[simp] theorem State.setReg_rdata (s : State) (a : Nat) (v : Word) : (s.setReg a v).rdata = s.rdata := rfl
@[simp] theorem State.setReg_mem (s : State) (a : Nat) (v : Word) : (s.setReg a v).mem = s.mem := rfl
@[simp] theorem State.setReg_poison (s : State) (a : Nat) (v : Word) : (s.setReg a v).poison = s.poison := rfl
@[simp] theorem State.setReg_clock (s : State) (a : Nat) (v : Word) : (s.setReg a v).clock = s.clock := rfl
@[simp] theorem State.setReg_cue (s : State) (a : Nat) (v : Word) : (s.setReg a v).cue = s.cue := rfl
@[simp] theorem State.setReg_encs (s : State) (a : Nat) (v : Word) : (s.setReg a v).encs = s.encs := rfl
@[simp] theorem State.setReg_lio (s : State) (a : Nat) (v : Word) : (s.setReg a v).lio = s.lio := rfl
@[simp] theorem State.setReg_pgs (s : State) (a : Nat) (v : Word) : (s.setReg a v).pgs = s.pgs := rfl
@[simp] theorem State.setReg_arr (s : State) (a : Nat) (v : Word) : (s.setReg a v).arr = s.arr := rfl
@[simp] theorem State.setReg_dce (s : State) (a : Nat) (v : Word) : (s.setReg a v).dce = s.dce := rfl
@[simp] theorem State.setReg_heads (s : State) (a : Nat) (v : Word) : (s.setReg a v).heads = s.heads := rfl
@[simp] theorem State.setReg_ledger (s : State) (a : Nat) (v : Word) : (s.setReg a v).ledger = s.ledger := rfl
@[simp] theorem State.setReg_engs (s : State) (a : Nat) (v : Word) : (s.setReg a v).engs = s.engs := rfl
@[simp] theorem State.setReg_jobs (s : State) (a : Nat) (v : Word) : (s.setReg a v).jobs = s.jobs := rfl
@[simp] theorem State.setReg_memt (s : State) (a : Nat) (v : Word) : (s.setReg a v).memt = s.memt := rfl
@[simp] theorem State.setReg_lpddr (s : State) (a : Nat) (v : Word) : (s.setReg a v).lpddr = s.lpddr := rfl
@[simp] theorem State.setReg_host (s : State) (a : Nat) (v : Word) : (s.setReg a v).host = s.host := rfl
@[simp] theorem State.setReg_cfg (s : State) (a : Nat) (v : Word) : (s.setReg a v).cfg = s.cfg := rfl
@[simp] theorem State.setReg_mantle (s : State) (a : Nat) (v : Word) : (s.setReg a v).mantle = s.mantle := rfl
@[simp] theorem State.setReg_seam (s : State) (a : Nat) (v : Word) : (s.setReg a v).seam = s.seam := rfl
@[simp] theorem State.setReg_cal (s : State) (a : Nat) (v : Word) : (s.setReg a v).cal = s.cal := rfl
@[simp] theorem State.setReg_startup (s : State) (a : Nat) (v : Word) : (s.setReg a v).startup = s.startup := rfl
@[simp] theorem State.setReg_supLt (s : State) (a : Nat) (v : Word) : (s.setReg a v).supLt = s.supLt := rfl
@[simp] theorem State.setReg_oldRoutes (s : State) (a : Nat) (v : Word) : (s.setReg a v).oldRoutes = s.oldRoutes := rfl
@[simp] theorem State.setReg_seamEvts (s : State) (a : Nat) (v : Word) : (s.setReg a v).seamEvts = s.seamEvts := rfl
@[simp] theorem State.setReg_msixPend (s : State) (a : Nat) (v : Word) : (s.setReg a v).msixPend = s.msixPend := rfl
@[simp] theorem State.setReg_logQ (s : State) (a : Nat) (v : Word) : (s.setReg a v).logQ = s.logQ := rfl
@[simp] theorem State.setReg_asks (s : State) (a : Nat) (v : Word) : (s.setReg a v).asks = s.asks := rfl
@[simp] theorem State.setReg_free (s : State) (a : Nat) (v : Word) : (s.setReg a v).free = s.free := rfl
@[simp] theorem State.setReg_pending (s : State) (a : Nat) (v : Word) : (s.setReg a v).pending = s.pending := rfl

/-! ### State.setFld -/

@[simp] theorem State.setFld_perReq (s : State) (a : Nat) (f : Fld) (x : Nat) : (s.setFld a f x).perReq = s.perReq := rfl
@[simp] theorem State.setFld_rdata (s : State) (a : Nat) (f : Fld) (x : Nat) : (s.setFld a f x).rdata = s.rdata := rfl
@[simp] theorem State.setFld_mem (s : State) (a : Nat) (f : Fld) (x : Nat) : (s.setFld a f x).mem = s.mem := rfl
@[simp] theorem State.setFld_poison (s : State) (a : Nat) (f : Fld) (x : Nat) : (s.setFld a f x).poison = s.poison := rfl
@[simp] theorem State.setFld_clock (s : State) (a : Nat) (f : Fld) (x : Nat) : (s.setFld a f x).clock = s.clock := rfl
@[simp] theorem State.setFld_cue (s : State) (a : Nat) (f : Fld) (x : Nat) : (s.setFld a f x).cue = s.cue := rfl
@[simp] theorem State.setFld_encs (s : State) (a : Nat) (f : Fld) (x : Nat) : (s.setFld a f x).encs = s.encs := rfl
@[simp] theorem State.setFld_lio (s : State) (a : Nat) (f : Fld) (x : Nat) : (s.setFld a f x).lio = s.lio := rfl
@[simp] theorem State.setFld_pgs (s : State) (a : Nat) (f : Fld) (x : Nat) : (s.setFld a f x).pgs = s.pgs := rfl
@[simp] theorem State.setFld_arr (s : State) (a : Nat) (f : Fld) (x : Nat) : (s.setFld a f x).arr = s.arr := rfl
@[simp] theorem State.setFld_dce (s : State) (a : Nat) (f : Fld) (x : Nat) : (s.setFld a f x).dce = s.dce := rfl
@[simp] theorem State.setFld_heads (s : State) (a : Nat) (f : Fld) (x : Nat) : (s.setFld a f x).heads = s.heads := rfl
@[simp] theorem State.setFld_ledger (s : State) (a : Nat) (f : Fld) (x : Nat) : (s.setFld a f x).ledger = s.ledger := rfl
@[simp] theorem State.setFld_engs (s : State) (a : Nat) (f : Fld) (x : Nat) : (s.setFld a f x).engs = s.engs := rfl
@[simp] theorem State.setFld_jobs (s : State) (a : Nat) (f : Fld) (x : Nat) : (s.setFld a f x).jobs = s.jobs := rfl
@[simp] theorem State.setFld_memt (s : State) (a : Nat) (f : Fld) (x : Nat) : (s.setFld a f x).memt = s.memt := rfl
@[simp] theorem State.setFld_lpddr (s : State) (a : Nat) (f : Fld) (x : Nat) : (s.setFld a f x).lpddr = s.lpddr := rfl
@[simp] theorem State.setFld_host (s : State) (a : Nat) (f : Fld) (x : Nat) : (s.setFld a f x).host = s.host := rfl
@[simp] theorem State.setFld_cfg (s : State) (a : Nat) (f : Fld) (x : Nat) : (s.setFld a f x).cfg = s.cfg := rfl
@[simp] theorem State.setFld_mantle (s : State) (a : Nat) (f : Fld) (x : Nat) : (s.setFld a f x).mantle = s.mantle := rfl
@[simp] theorem State.setFld_seam (s : State) (a : Nat) (f : Fld) (x : Nat) : (s.setFld a f x).seam = s.seam := rfl
@[simp] theorem State.setFld_cal (s : State) (a : Nat) (f : Fld) (x : Nat) : (s.setFld a f x).cal = s.cal := rfl
@[simp] theorem State.setFld_startup (s : State) (a : Nat) (f : Fld) (x : Nat) : (s.setFld a f x).startup = s.startup := rfl
@[simp] theorem State.setFld_supLt (s : State) (a : Nat) (f : Fld) (x : Nat) : (s.setFld a f x).supLt = s.supLt := rfl
@[simp] theorem State.setFld_oldRoutes (s : State) (a : Nat) (f : Fld) (x : Nat) : (s.setFld a f x).oldRoutes = s.oldRoutes := rfl
@[simp] theorem State.setFld_seamEvts (s : State) (a : Nat) (f : Fld) (x : Nat) : (s.setFld a f x).seamEvts = s.seamEvts := rfl
@[simp] theorem State.setFld_msixPend (s : State) (a : Nat) (f : Fld) (x : Nat) : (s.setFld a f x).msixPend = s.msixPend := rfl
@[simp] theorem State.setFld_logQ (s : State) (a : Nat) (f : Fld) (x : Nat) : (s.setFld a f x).logQ = s.logQ := rfl
@[simp] theorem State.setFld_asks (s : State) (a : Nat) (f : Fld) (x : Nat) : (s.setFld a f x).asks = s.asks := rfl
@[simp] theorem State.setFld_free (s : State) (a : Nat) (f : Fld) (x : Nat) : (s.setFld a f x).free = s.free := rfl
@[simp] theorem State.setFld_pending (s : State) (a : Nat) (f : Fld) (x : Nat) : (s.setFld a f x).pending = s.pending := rfl

/-! ### State.setBit -/

@[simp] theorem State.setBit_perReq (s : State) (a : Nat) (f : Fld) : (s.setBit a f).perReq = s.perReq := rfl
@[simp] theorem State.setBit_rdata (s : State) (a : Nat) (f : Fld) : (s.setBit a f).rdata = s.rdata := rfl
@[simp] theorem State.setBit_mem (s : State) (a : Nat) (f : Fld) : (s.setBit a f).mem = s.mem := rfl
@[simp] theorem State.setBit_poison (s : State) (a : Nat) (f : Fld) : (s.setBit a f).poison = s.poison := rfl
@[simp] theorem State.setBit_clock (s : State) (a : Nat) (f : Fld) : (s.setBit a f).clock = s.clock := rfl
@[simp] theorem State.setBit_cue (s : State) (a : Nat) (f : Fld) : (s.setBit a f).cue = s.cue := rfl
@[simp] theorem State.setBit_encs (s : State) (a : Nat) (f : Fld) : (s.setBit a f).encs = s.encs := rfl
@[simp] theorem State.setBit_lio (s : State) (a : Nat) (f : Fld) : (s.setBit a f).lio = s.lio := rfl
@[simp] theorem State.setBit_pgs (s : State) (a : Nat) (f : Fld) : (s.setBit a f).pgs = s.pgs := rfl
@[simp] theorem State.setBit_arr (s : State) (a : Nat) (f : Fld) : (s.setBit a f).arr = s.arr := rfl
@[simp] theorem State.setBit_dce (s : State) (a : Nat) (f : Fld) : (s.setBit a f).dce = s.dce := rfl
@[simp] theorem State.setBit_heads (s : State) (a : Nat) (f : Fld) : (s.setBit a f).heads = s.heads := rfl
@[simp] theorem State.setBit_ledger (s : State) (a : Nat) (f : Fld) : (s.setBit a f).ledger = s.ledger := rfl
@[simp] theorem State.setBit_engs (s : State) (a : Nat) (f : Fld) : (s.setBit a f).engs = s.engs := rfl
@[simp] theorem State.setBit_jobs (s : State) (a : Nat) (f : Fld) : (s.setBit a f).jobs = s.jobs := rfl
@[simp] theorem State.setBit_memt (s : State) (a : Nat) (f : Fld) : (s.setBit a f).memt = s.memt := rfl
@[simp] theorem State.setBit_lpddr (s : State) (a : Nat) (f : Fld) : (s.setBit a f).lpddr = s.lpddr := rfl
@[simp] theorem State.setBit_host (s : State) (a : Nat) (f : Fld) : (s.setBit a f).host = s.host := rfl
@[simp] theorem State.setBit_cfg (s : State) (a : Nat) (f : Fld) : (s.setBit a f).cfg = s.cfg := rfl
@[simp] theorem State.setBit_mantle (s : State) (a : Nat) (f : Fld) : (s.setBit a f).mantle = s.mantle := rfl
@[simp] theorem State.setBit_seam (s : State) (a : Nat) (f : Fld) : (s.setBit a f).seam = s.seam := rfl
@[simp] theorem State.setBit_cal (s : State) (a : Nat) (f : Fld) : (s.setBit a f).cal = s.cal := rfl
@[simp] theorem State.setBit_startup (s : State) (a : Nat) (f : Fld) : (s.setBit a f).startup = s.startup := rfl
@[simp] theorem State.setBit_supLt (s : State) (a : Nat) (f : Fld) : (s.setBit a f).supLt = s.supLt := rfl
@[simp] theorem State.setBit_oldRoutes (s : State) (a : Nat) (f : Fld) : (s.setBit a f).oldRoutes = s.oldRoutes := rfl
@[simp] theorem State.setBit_seamEvts (s : State) (a : Nat) (f : Fld) : (s.setBit a f).seamEvts = s.seamEvts := rfl
@[simp] theorem State.setBit_msixPend (s : State) (a : Nat) (f : Fld) : (s.setBit a f).msixPend = s.msixPend := rfl
@[simp] theorem State.setBit_logQ (s : State) (a : Nat) (f : Fld) : (s.setBit a f).logQ = s.logQ := rfl
@[simp] theorem State.setBit_asks (s : State) (a : Nat) (f : Fld) : (s.setBit a f).asks = s.asks := rfl
@[simp] theorem State.setBit_free (s : State) (a : Nat) (f : Fld) : (s.setBit a f).free = s.free := rfl
@[simp] theorem State.setBit_pending (s : State) (a : Nat) (f : Fld) : (s.setBit a f).pending = s.pending := rfl

/-! ### State.clrBit -/

@[simp] theorem State.clrBit_perReq (s : State) (a : Nat) (f : Fld) : (s.clrBit a f).perReq = s.perReq := rfl
@[simp] theorem State.clrBit_rdata (s : State) (a : Nat) (f : Fld) : (s.clrBit a f).rdata = s.rdata := rfl
@[simp] theorem State.clrBit_mem (s : State) (a : Nat) (f : Fld) : (s.clrBit a f).mem = s.mem := rfl
@[simp] theorem State.clrBit_poison (s : State) (a : Nat) (f : Fld) : (s.clrBit a f).poison = s.poison := rfl
@[simp] theorem State.clrBit_clock (s : State) (a : Nat) (f : Fld) : (s.clrBit a f).clock = s.clock := rfl
@[simp] theorem State.clrBit_cue (s : State) (a : Nat) (f : Fld) : (s.clrBit a f).cue = s.cue := rfl
@[simp] theorem State.clrBit_encs (s : State) (a : Nat) (f : Fld) : (s.clrBit a f).encs = s.encs := rfl
@[simp] theorem State.clrBit_lio (s : State) (a : Nat) (f : Fld) : (s.clrBit a f).lio = s.lio := rfl
@[simp] theorem State.clrBit_pgs (s : State) (a : Nat) (f : Fld) : (s.clrBit a f).pgs = s.pgs := rfl
@[simp] theorem State.clrBit_arr (s : State) (a : Nat) (f : Fld) : (s.clrBit a f).arr = s.arr := rfl
@[simp] theorem State.clrBit_dce (s : State) (a : Nat) (f : Fld) : (s.clrBit a f).dce = s.dce := rfl
@[simp] theorem State.clrBit_heads (s : State) (a : Nat) (f : Fld) : (s.clrBit a f).heads = s.heads := rfl
@[simp] theorem State.clrBit_ledger (s : State) (a : Nat) (f : Fld) : (s.clrBit a f).ledger = s.ledger := rfl
@[simp] theorem State.clrBit_engs (s : State) (a : Nat) (f : Fld) : (s.clrBit a f).engs = s.engs := rfl
@[simp] theorem State.clrBit_jobs (s : State) (a : Nat) (f : Fld) : (s.clrBit a f).jobs = s.jobs := rfl
@[simp] theorem State.clrBit_memt (s : State) (a : Nat) (f : Fld) : (s.clrBit a f).memt = s.memt := rfl
@[simp] theorem State.clrBit_lpddr (s : State) (a : Nat) (f : Fld) : (s.clrBit a f).lpddr = s.lpddr := rfl
@[simp] theorem State.clrBit_host (s : State) (a : Nat) (f : Fld) : (s.clrBit a f).host = s.host := rfl
@[simp] theorem State.clrBit_cfg (s : State) (a : Nat) (f : Fld) : (s.clrBit a f).cfg = s.cfg := rfl
@[simp] theorem State.clrBit_mantle (s : State) (a : Nat) (f : Fld) : (s.clrBit a f).mantle = s.mantle := rfl
@[simp] theorem State.clrBit_seam (s : State) (a : Nat) (f : Fld) : (s.clrBit a f).seam = s.seam := rfl
@[simp] theorem State.clrBit_cal (s : State) (a : Nat) (f : Fld) : (s.clrBit a f).cal = s.cal := rfl
@[simp] theorem State.clrBit_startup (s : State) (a : Nat) (f : Fld) : (s.clrBit a f).startup = s.startup := rfl
@[simp] theorem State.clrBit_supLt (s : State) (a : Nat) (f : Fld) : (s.clrBit a f).supLt = s.supLt := rfl
@[simp] theorem State.clrBit_oldRoutes (s : State) (a : Nat) (f : Fld) : (s.clrBit a f).oldRoutes = s.oldRoutes := rfl
@[simp] theorem State.clrBit_seamEvts (s : State) (a : Nat) (f : Fld) : (s.clrBit a f).seamEvts = s.seamEvts := rfl
@[simp] theorem State.clrBit_msixPend (s : State) (a : Nat) (f : Fld) : (s.clrBit a f).msixPend = s.msixPend := rfl
@[simp] theorem State.clrBit_logQ (s : State) (a : Nat) (f : Fld) : (s.clrBit a f).logQ = s.logQ := rfl
@[simp] theorem State.clrBit_asks (s : State) (a : Nat) (f : Fld) : (s.clrBit a f).asks = s.asks := rfl
@[simp] theorem State.clrBit_free (s : State) (a : Nat) (f : Fld) : (s.clrBit a f).free = s.free := rfl
@[simp] theorem State.clrBit_pending (s : State) (a : Nat) (f : Fld) : (s.clrBit a f).pending = s.pending := rfl

/-! ### State.putBit -/

@[simp] theorem State.putBit_perReq (s : State) (a : Nat) (f : Fld) (b : Bool) : (s.putBit a f b).perReq = s.perReq := rfl
@[simp] theorem State.putBit_rdata (s : State) (a : Nat) (f : Fld) (b : Bool) : (s.putBit a f b).rdata = s.rdata := rfl
@[simp] theorem State.putBit_mem (s : State) (a : Nat) (f : Fld) (b : Bool) : (s.putBit a f b).mem = s.mem := rfl
@[simp] theorem State.putBit_poison (s : State) (a : Nat) (f : Fld) (b : Bool) : (s.putBit a f b).poison = s.poison := rfl
@[simp] theorem State.putBit_clock (s : State) (a : Nat) (f : Fld) (b : Bool) : (s.putBit a f b).clock = s.clock := rfl
@[simp] theorem State.putBit_cue (s : State) (a : Nat) (f : Fld) (b : Bool) : (s.putBit a f b).cue = s.cue := rfl
@[simp] theorem State.putBit_encs (s : State) (a : Nat) (f : Fld) (b : Bool) : (s.putBit a f b).encs = s.encs := rfl
@[simp] theorem State.putBit_lio (s : State) (a : Nat) (f : Fld) (b : Bool) : (s.putBit a f b).lio = s.lio := rfl
@[simp] theorem State.putBit_pgs (s : State) (a : Nat) (f : Fld) (b : Bool) : (s.putBit a f b).pgs = s.pgs := rfl
@[simp] theorem State.putBit_arr (s : State) (a : Nat) (f : Fld) (b : Bool) : (s.putBit a f b).arr = s.arr := rfl
@[simp] theorem State.putBit_dce (s : State) (a : Nat) (f : Fld) (b : Bool) : (s.putBit a f b).dce = s.dce := rfl
@[simp] theorem State.putBit_heads (s : State) (a : Nat) (f : Fld) (b : Bool) : (s.putBit a f b).heads = s.heads := rfl
@[simp] theorem State.putBit_ledger (s : State) (a : Nat) (f : Fld) (b : Bool) : (s.putBit a f b).ledger = s.ledger := rfl
@[simp] theorem State.putBit_engs (s : State) (a : Nat) (f : Fld) (b : Bool) : (s.putBit a f b).engs = s.engs := rfl
@[simp] theorem State.putBit_jobs (s : State) (a : Nat) (f : Fld) (b : Bool) : (s.putBit a f b).jobs = s.jobs := rfl
@[simp] theorem State.putBit_memt (s : State) (a : Nat) (f : Fld) (b : Bool) : (s.putBit a f b).memt = s.memt := rfl
@[simp] theorem State.putBit_lpddr (s : State) (a : Nat) (f : Fld) (b : Bool) : (s.putBit a f b).lpddr = s.lpddr := rfl
@[simp] theorem State.putBit_host (s : State) (a : Nat) (f : Fld) (b : Bool) : (s.putBit a f b).host = s.host := rfl
@[simp] theorem State.putBit_cfg (s : State) (a : Nat) (f : Fld) (b : Bool) : (s.putBit a f b).cfg = s.cfg := rfl
@[simp] theorem State.putBit_mantle (s : State) (a : Nat) (f : Fld) (b : Bool) : (s.putBit a f b).mantle = s.mantle := rfl
@[simp] theorem State.putBit_seam (s : State) (a : Nat) (f : Fld) (b : Bool) : (s.putBit a f b).seam = s.seam := rfl
@[simp] theorem State.putBit_cal (s : State) (a : Nat) (f : Fld) (b : Bool) : (s.putBit a f b).cal = s.cal := rfl
@[simp] theorem State.putBit_startup (s : State) (a : Nat) (f : Fld) (b : Bool) : (s.putBit a f b).startup = s.startup := rfl
@[simp] theorem State.putBit_supLt (s : State) (a : Nat) (f : Fld) (b : Bool) : (s.putBit a f b).supLt = s.supLt := rfl
@[simp] theorem State.putBit_oldRoutes (s : State) (a : Nat) (f : Fld) (b : Bool) : (s.putBit a f b).oldRoutes = s.oldRoutes := rfl
@[simp] theorem State.putBit_seamEvts (s : State) (a : Nat) (f : Fld) (b : Bool) : (s.putBit a f b).seamEvts = s.seamEvts := rfl
@[simp] theorem State.putBit_msixPend (s : State) (a : Nat) (f : Fld) (b : Bool) : (s.putBit a f b).msixPend = s.msixPend := rfl
@[simp] theorem State.putBit_logQ (s : State) (a : Nat) (f : Fld) (b : Bool) : (s.putBit a f b).logQ = s.logQ := rfl
@[simp] theorem State.putBit_asks (s : State) (a : Nat) (f : Fld) (b : Bool) : (s.putBit a f b).asks = s.asks := rfl
@[simp] theorem State.putBit_free (s : State) (a : Nat) (f : Fld) (b : Bool) : (s.putBit a f b).free = s.free := rfl
@[simp] theorem State.putBit_pending (s : State) (a : Nat) (f : Fld) (b : Bool) : (s.putBit a f b).pending = s.pending := rfl

/-! ### State.countUp -/

@[simp] theorem State.countUp_perReq (s : State) (a : Nat) (f : Fld) : (s.countUp a f).perReq = s.perReq := rfl
@[simp] theorem State.countUp_rdata (s : State) (a : Nat) (f : Fld) : (s.countUp a f).rdata = s.rdata := rfl
@[simp] theorem State.countUp_mem (s : State) (a : Nat) (f : Fld) : (s.countUp a f).mem = s.mem := rfl
@[simp] theorem State.countUp_poison (s : State) (a : Nat) (f : Fld) : (s.countUp a f).poison = s.poison := rfl
@[simp] theorem State.countUp_clock (s : State) (a : Nat) (f : Fld) : (s.countUp a f).clock = s.clock := rfl
@[simp] theorem State.countUp_cue (s : State) (a : Nat) (f : Fld) : (s.countUp a f).cue = s.cue := rfl
@[simp] theorem State.countUp_encs (s : State) (a : Nat) (f : Fld) : (s.countUp a f).encs = s.encs := rfl
@[simp] theorem State.countUp_lio (s : State) (a : Nat) (f : Fld) : (s.countUp a f).lio = s.lio := rfl
@[simp] theorem State.countUp_pgs (s : State) (a : Nat) (f : Fld) : (s.countUp a f).pgs = s.pgs := rfl
@[simp] theorem State.countUp_arr (s : State) (a : Nat) (f : Fld) : (s.countUp a f).arr = s.arr := rfl
@[simp] theorem State.countUp_dce (s : State) (a : Nat) (f : Fld) : (s.countUp a f).dce = s.dce := rfl
@[simp] theorem State.countUp_heads (s : State) (a : Nat) (f : Fld) : (s.countUp a f).heads = s.heads := rfl
@[simp] theorem State.countUp_ledger (s : State) (a : Nat) (f : Fld) : (s.countUp a f).ledger = s.ledger := rfl
@[simp] theorem State.countUp_engs (s : State) (a : Nat) (f : Fld) : (s.countUp a f).engs = s.engs := rfl
@[simp] theorem State.countUp_jobs (s : State) (a : Nat) (f : Fld) : (s.countUp a f).jobs = s.jobs := rfl
@[simp] theorem State.countUp_memt (s : State) (a : Nat) (f : Fld) : (s.countUp a f).memt = s.memt := rfl
@[simp] theorem State.countUp_lpddr (s : State) (a : Nat) (f : Fld) : (s.countUp a f).lpddr = s.lpddr := rfl
@[simp] theorem State.countUp_host (s : State) (a : Nat) (f : Fld) : (s.countUp a f).host = s.host := rfl
@[simp] theorem State.countUp_cfg (s : State) (a : Nat) (f : Fld) : (s.countUp a f).cfg = s.cfg := rfl
@[simp] theorem State.countUp_mantle (s : State) (a : Nat) (f : Fld) : (s.countUp a f).mantle = s.mantle := rfl
@[simp] theorem State.countUp_seam (s : State) (a : Nat) (f : Fld) : (s.countUp a f).seam = s.seam := rfl
@[simp] theorem State.countUp_cal (s : State) (a : Nat) (f : Fld) : (s.countUp a f).cal = s.cal := rfl
@[simp] theorem State.countUp_startup (s : State) (a : Nat) (f : Fld) : (s.countUp a f).startup = s.startup := rfl
@[simp] theorem State.countUp_supLt (s : State) (a : Nat) (f : Fld) : (s.countUp a f).supLt = s.supLt := rfl
@[simp] theorem State.countUp_oldRoutes (s : State) (a : Nat) (f : Fld) : (s.countUp a f).oldRoutes = s.oldRoutes := rfl
@[simp] theorem State.countUp_seamEvts (s : State) (a : Nat) (f : Fld) : (s.countUp a f).seamEvts = s.seamEvts := rfl
@[simp] theorem State.countUp_msixPend (s : State) (a : Nat) (f : Fld) : (s.countUp a f).msixPend = s.msixPend := rfl
@[simp] theorem State.countUp_logQ (s : State) (a : Nat) (f : Fld) : (s.countUp a f).logQ = s.logQ := rfl
@[simp] theorem State.countUp_asks (s : State) (a : Nat) (f : Fld) : (s.countUp a f).asks = s.asks := rfl
@[simp] theorem State.countUp_free (s : State) (a : Nat) (f : Fld) : (s.countUp a f).free = s.free := rfl
@[simp] theorem State.countUp_pending (s : State) (a : Nat) (f : Fld) : (s.countUp a f).pending = s.pending := rfl

/-! ### State.setReg64 -/

@[simp] theorem State.setReg64_perReq (s : State) (a x : Nat) : (s.setReg64 a x).perReq = s.perReq := rfl
@[simp] theorem State.setReg64_rdata (s : State) (a x : Nat) : (s.setReg64 a x).rdata = s.rdata := rfl
@[simp] theorem State.setReg64_mem (s : State) (a x : Nat) : (s.setReg64 a x).mem = s.mem := rfl
@[simp] theorem State.setReg64_poison (s : State) (a x : Nat) : (s.setReg64 a x).poison = s.poison := rfl
@[simp] theorem State.setReg64_clock (s : State) (a x : Nat) : (s.setReg64 a x).clock = s.clock := rfl
@[simp] theorem State.setReg64_cue (s : State) (a x : Nat) : (s.setReg64 a x).cue = s.cue := rfl
@[simp] theorem State.setReg64_encs (s : State) (a x : Nat) : (s.setReg64 a x).encs = s.encs := rfl
@[simp] theorem State.setReg64_lio (s : State) (a x : Nat) : (s.setReg64 a x).lio = s.lio := rfl
@[simp] theorem State.setReg64_pgs (s : State) (a x : Nat) : (s.setReg64 a x).pgs = s.pgs := rfl
@[simp] theorem State.setReg64_arr (s : State) (a x : Nat) : (s.setReg64 a x).arr = s.arr := rfl
@[simp] theorem State.setReg64_dce (s : State) (a x : Nat) : (s.setReg64 a x).dce = s.dce := rfl
@[simp] theorem State.setReg64_heads (s : State) (a x : Nat) : (s.setReg64 a x).heads = s.heads := rfl
@[simp] theorem State.setReg64_ledger (s : State) (a x : Nat) : (s.setReg64 a x).ledger = s.ledger := rfl
@[simp] theorem State.setReg64_engs (s : State) (a x : Nat) : (s.setReg64 a x).engs = s.engs := rfl
@[simp] theorem State.setReg64_jobs (s : State) (a x : Nat) : (s.setReg64 a x).jobs = s.jobs := rfl
@[simp] theorem State.setReg64_memt (s : State) (a x : Nat) : (s.setReg64 a x).memt = s.memt := rfl
@[simp] theorem State.setReg64_lpddr (s : State) (a x : Nat) : (s.setReg64 a x).lpddr = s.lpddr := rfl
@[simp] theorem State.setReg64_host (s : State) (a x : Nat) : (s.setReg64 a x).host = s.host := rfl
@[simp] theorem State.setReg64_cfg (s : State) (a x : Nat) : (s.setReg64 a x).cfg = s.cfg := rfl
@[simp] theorem State.setReg64_mantle (s : State) (a x : Nat) : (s.setReg64 a x).mantle = s.mantle := rfl
@[simp] theorem State.setReg64_seam (s : State) (a x : Nat) : (s.setReg64 a x).seam = s.seam := rfl
@[simp] theorem State.setReg64_cal (s : State) (a x : Nat) : (s.setReg64 a x).cal = s.cal := rfl
@[simp] theorem State.setReg64_startup (s : State) (a x : Nat) : (s.setReg64 a x).startup = s.startup := rfl
@[simp] theorem State.setReg64_supLt (s : State) (a x : Nat) : (s.setReg64 a x).supLt = s.supLt := rfl
@[simp] theorem State.setReg64_oldRoutes (s : State) (a x : Nat) : (s.setReg64 a x).oldRoutes = s.oldRoutes := rfl
@[simp] theorem State.setReg64_seamEvts (s : State) (a x : Nat) : (s.setReg64 a x).seamEvts = s.seamEvts := rfl
@[simp] theorem State.setReg64_msixPend (s : State) (a x : Nat) : (s.setReg64 a x).msixPend = s.msixPend := rfl
@[simp] theorem State.setReg64_logQ (s : State) (a x : Nat) : (s.setReg64 a x).logQ = s.logQ := rfl
@[simp] theorem State.setReg64_asks (s : State) (a x : Nat) : (s.setReg64 a x).asks = s.asks := rfl
@[simp] theorem State.setReg64_free (s : State) (a x : Nat) : (s.setReg64 a x).free = s.free := rfl
@[simp] theorem State.setReg64_pending (s : State) (a x : Nat) : (s.setReg64 a x).pending = s.pending := rfl

/-! ### State.setPreg -/

@[simp] theorem State.setPreg_regs (s : State) (r : Req) (a : Nat) (v : Word) : (s.setPreg r a v).regs = s.regs := rfl
@[simp] theorem State.setPreg_rdata (s : State) (r : Req) (a : Nat) (v : Word) : (s.setPreg r a v).rdata = s.rdata := rfl
@[simp] theorem State.setPreg_mem (s : State) (r : Req) (a : Nat) (v : Word) : (s.setPreg r a v).mem = s.mem := rfl
@[simp] theorem State.setPreg_poison (s : State) (r : Req) (a : Nat) (v : Word) : (s.setPreg r a v).poison = s.poison := rfl
@[simp] theorem State.setPreg_clock (s : State) (r : Req) (a : Nat) (v : Word) : (s.setPreg r a v).clock = s.clock := rfl
@[simp] theorem State.setPreg_cue (s : State) (r : Req) (a : Nat) (v : Word) : (s.setPreg r a v).cue = s.cue := rfl
@[simp] theorem State.setPreg_encs (s : State) (r : Req) (a : Nat) (v : Word) : (s.setPreg r a v).encs = s.encs := rfl
@[simp] theorem State.setPreg_lio (s : State) (r : Req) (a : Nat) (v : Word) : (s.setPreg r a v).lio = s.lio := rfl
@[simp] theorem State.setPreg_pgs (s : State) (r : Req) (a : Nat) (v : Word) : (s.setPreg r a v).pgs = s.pgs := rfl
@[simp] theorem State.setPreg_arr (s : State) (r : Req) (a : Nat) (v : Word) : (s.setPreg r a v).arr = s.arr := rfl
@[simp] theorem State.setPreg_dce (s : State) (r : Req) (a : Nat) (v : Word) : (s.setPreg r a v).dce = s.dce := rfl
@[simp] theorem State.setPreg_heads (s : State) (r : Req) (a : Nat) (v : Word) : (s.setPreg r a v).heads = s.heads := rfl
@[simp] theorem State.setPreg_ledger (s : State) (r : Req) (a : Nat) (v : Word) : (s.setPreg r a v).ledger = s.ledger := rfl
@[simp] theorem State.setPreg_engs (s : State) (r : Req) (a : Nat) (v : Word) : (s.setPreg r a v).engs = s.engs := rfl
@[simp] theorem State.setPreg_jobs (s : State) (r : Req) (a : Nat) (v : Word) : (s.setPreg r a v).jobs = s.jobs := rfl
@[simp] theorem State.setPreg_memt (s : State) (r : Req) (a : Nat) (v : Word) : (s.setPreg r a v).memt = s.memt := rfl
@[simp] theorem State.setPreg_lpddr (s : State) (r : Req) (a : Nat) (v : Word) : (s.setPreg r a v).lpddr = s.lpddr := rfl
@[simp] theorem State.setPreg_host (s : State) (r : Req) (a : Nat) (v : Word) : (s.setPreg r a v).host = s.host := rfl
@[simp] theorem State.setPreg_cfg (s : State) (r : Req) (a : Nat) (v : Word) : (s.setPreg r a v).cfg = s.cfg := rfl
@[simp] theorem State.setPreg_mantle (s : State) (r : Req) (a : Nat) (v : Word) : (s.setPreg r a v).mantle = s.mantle := rfl
@[simp] theorem State.setPreg_seam (s : State) (r : Req) (a : Nat) (v : Word) : (s.setPreg r a v).seam = s.seam := rfl
@[simp] theorem State.setPreg_cal (s : State) (r : Req) (a : Nat) (v : Word) : (s.setPreg r a v).cal = s.cal := rfl
@[simp] theorem State.setPreg_startup (s : State) (r : Req) (a : Nat) (v : Word) : (s.setPreg r a v).startup = s.startup := rfl
@[simp] theorem State.setPreg_supLt (s : State) (r : Req) (a : Nat) (v : Word) : (s.setPreg r a v).supLt = s.supLt := rfl
@[simp] theorem State.setPreg_oldRoutes (s : State) (r : Req) (a : Nat) (v : Word) : (s.setPreg r a v).oldRoutes = s.oldRoutes := rfl
@[simp] theorem State.setPreg_seamEvts (s : State) (r : Req) (a : Nat) (v : Word) : (s.setPreg r a v).seamEvts = s.seamEvts := rfl
@[simp] theorem State.setPreg_msixPend (s : State) (r : Req) (a : Nat) (v : Word) : (s.setPreg r a v).msixPend = s.msixPend := rfl
@[simp] theorem State.setPreg_logQ (s : State) (r : Req) (a : Nat) (v : Word) : (s.setPreg r a v).logQ = s.logQ := rfl
@[simp] theorem State.setPreg_asks (s : State) (r : Req) (a : Nat) (v : Word) : (s.setPreg r a v).asks = s.asks := rfl
@[simp] theorem State.setPreg_free (s : State) (r : Req) (a : Nat) (v : Word) : (s.setPreg r a v).free = s.free := rfl
@[simp] theorem State.setPreg_pending (s : State) (r : Req) (a : Nat) (v : Word) : (s.setPreg r a v).pending = s.pending := rfl

/-! ### State.give -/

@[simp] theorem State.give_regs (s : State) (r : Req) (ws : List Word) : (s.give r ws).regs = s.regs := rfl
@[simp] theorem State.give_perReq (s : State) (r : Req) (ws : List Word) : (s.give r ws).perReq = s.perReq := rfl
@[simp] theorem State.give_mem (s : State) (r : Req) (ws : List Word) : (s.give r ws).mem = s.mem := rfl
@[simp] theorem State.give_poison (s : State) (r : Req) (ws : List Word) : (s.give r ws).poison = s.poison := rfl
@[simp] theorem State.give_clock (s : State) (r : Req) (ws : List Word) : (s.give r ws).clock = s.clock := rfl
@[simp] theorem State.give_cue (s : State) (r : Req) (ws : List Word) : (s.give r ws).cue = s.cue := rfl
@[simp] theorem State.give_encs (s : State) (r : Req) (ws : List Word) : (s.give r ws).encs = s.encs := rfl
@[simp] theorem State.give_lio (s : State) (r : Req) (ws : List Word) : (s.give r ws).lio = s.lio := rfl
@[simp] theorem State.give_pgs (s : State) (r : Req) (ws : List Word) : (s.give r ws).pgs = s.pgs := rfl
@[simp] theorem State.give_arr (s : State) (r : Req) (ws : List Word) : (s.give r ws).arr = s.arr := rfl
@[simp] theorem State.give_dce (s : State) (r : Req) (ws : List Word) : (s.give r ws).dce = s.dce := rfl
@[simp] theorem State.give_heads (s : State) (r : Req) (ws : List Word) : (s.give r ws).heads = s.heads := rfl
@[simp] theorem State.give_ledger (s : State) (r : Req) (ws : List Word) : (s.give r ws).ledger = s.ledger := rfl
@[simp] theorem State.give_engs (s : State) (r : Req) (ws : List Word) : (s.give r ws).engs = s.engs := rfl
@[simp] theorem State.give_jobs (s : State) (r : Req) (ws : List Word) : (s.give r ws).jobs = s.jobs := rfl
@[simp] theorem State.give_memt (s : State) (r : Req) (ws : List Word) : (s.give r ws).memt = s.memt := rfl
@[simp] theorem State.give_lpddr (s : State) (r : Req) (ws : List Word) : (s.give r ws).lpddr = s.lpddr := rfl
@[simp] theorem State.give_host (s : State) (r : Req) (ws : List Word) : (s.give r ws).host = s.host := rfl
@[simp] theorem State.give_cfg (s : State) (r : Req) (ws : List Word) : (s.give r ws).cfg = s.cfg := rfl
@[simp] theorem State.give_mantle (s : State) (r : Req) (ws : List Word) : (s.give r ws).mantle = s.mantle := rfl
@[simp] theorem State.give_seam (s : State) (r : Req) (ws : List Word) : (s.give r ws).seam = s.seam := rfl
@[simp] theorem State.give_cal (s : State) (r : Req) (ws : List Word) : (s.give r ws).cal = s.cal := rfl
@[simp] theorem State.give_startup (s : State) (r : Req) (ws : List Word) : (s.give r ws).startup = s.startup := rfl
@[simp] theorem State.give_supLt (s : State) (r : Req) (ws : List Word) : (s.give r ws).supLt = s.supLt := rfl
@[simp] theorem State.give_oldRoutes (s : State) (r : Req) (ws : List Word) : (s.give r ws).oldRoutes = s.oldRoutes := rfl
@[simp] theorem State.give_seamEvts (s : State) (r : Req) (ws : List Word) : (s.give r ws).seamEvts = s.seamEvts := rfl
@[simp] theorem State.give_msixPend (s : State) (r : Req) (ws : List Word) : (s.give r ws).msixPend = s.msixPend := rfl
@[simp] theorem State.give_logQ (s : State) (r : Req) (ws : List Word) : (s.give r ws).logQ = s.logQ := rfl
@[simp] theorem State.give_asks (s : State) (r : Req) (ws : List Word) : (s.give r ws).asks = s.asks := rfl
@[simp] theorem State.give_free (s : State) (r : Req) (ws : List Word) : (s.give r ws).free = s.free := rfl
@[simp] theorem State.give_pending (s : State) (r : Req) (ws : List Word) : (s.give r ws).pending = s.pending := rfl

/-! ### State.store -/

@[simp] theorem State.store_regs (s : State) (a : Nat) (bs : List Byte) : (s.store a bs).regs = s.regs := rfl
@[simp] theorem State.store_perReq (s : State) (a : Nat) (bs : List Byte) : (s.store a bs).perReq = s.perReq := rfl
@[simp] theorem State.store_rdata (s : State) (a : Nat) (bs : List Byte) : (s.store a bs).rdata = s.rdata := rfl
@[simp] theorem State.store_poison (s : State) (a : Nat) (bs : List Byte) : (s.store a bs).poison = s.poison := rfl
@[simp] theorem State.store_clock (s : State) (a : Nat) (bs : List Byte) : (s.store a bs).clock = s.clock := rfl
@[simp] theorem State.store_cue (s : State) (a : Nat) (bs : List Byte) : (s.store a bs).cue = s.cue := rfl
@[simp] theorem State.store_encs (s : State) (a : Nat) (bs : List Byte) : (s.store a bs).encs = s.encs := rfl
@[simp] theorem State.store_lio (s : State) (a : Nat) (bs : List Byte) : (s.store a bs).lio = s.lio := rfl
@[simp] theorem State.store_pgs (s : State) (a : Nat) (bs : List Byte) : (s.store a bs).pgs = s.pgs := rfl
@[simp] theorem State.store_arr (s : State) (a : Nat) (bs : List Byte) : (s.store a bs).arr = s.arr := rfl
@[simp] theorem State.store_dce (s : State) (a : Nat) (bs : List Byte) : (s.store a bs).dce = s.dce := rfl
@[simp] theorem State.store_heads (s : State) (a : Nat) (bs : List Byte) : (s.store a bs).heads = s.heads := rfl
@[simp] theorem State.store_ledger (s : State) (a : Nat) (bs : List Byte) : (s.store a bs).ledger = s.ledger := rfl
@[simp] theorem State.store_engs (s : State) (a : Nat) (bs : List Byte) : (s.store a bs).engs = s.engs := rfl
@[simp] theorem State.store_jobs (s : State) (a : Nat) (bs : List Byte) : (s.store a bs).jobs = s.jobs := rfl
@[simp] theorem State.store_memt (s : State) (a : Nat) (bs : List Byte) : (s.store a bs).memt = s.memt := rfl
@[simp] theorem State.store_lpddr (s : State) (a : Nat) (bs : List Byte) : (s.store a bs).lpddr = s.lpddr := rfl
@[simp] theorem State.store_host (s : State) (a : Nat) (bs : List Byte) : (s.store a bs).host = s.host := rfl
@[simp] theorem State.store_cfg (s : State) (a : Nat) (bs : List Byte) : (s.store a bs).cfg = s.cfg := rfl
@[simp] theorem State.store_mantle (s : State) (a : Nat) (bs : List Byte) : (s.store a bs).mantle = s.mantle := rfl
@[simp] theorem State.store_seam (s : State) (a : Nat) (bs : List Byte) : (s.store a bs).seam = s.seam := rfl
@[simp] theorem State.store_cal (s : State) (a : Nat) (bs : List Byte) : (s.store a bs).cal = s.cal := rfl
@[simp] theorem State.store_startup (s : State) (a : Nat) (bs : List Byte) : (s.store a bs).startup = s.startup := rfl
@[simp] theorem State.store_supLt (s : State) (a : Nat) (bs : List Byte) : (s.store a bs).supLt = s.supLt := rfl
@[simp] theorem State.store_oldRoutes (s : State) (a : Nat) (bs : List Byte) : (s.store a bs).oldRoutes = s.oldRoutes := rfl
@[simp] theorem State.store_seamEvts (s : State) (a : Nat) (bs : List Byte) : (s.store a bs).seamEvts = s.seamEvts := rfl
@[simp] theorem State.store_msixPend (s : State) (a : Nat) (bs : List Byte) : (s.store a bs).msixPend = s.msixPend := rfl
@[simp] theorem State.store_logQ (s : State) (a : Nat) (bs : List Byte) : (s.store a bs).logQ = s.logQ := rfl
@[simp] theorem State.store_asks (s : State) (a : Nat) (bs : List Byte) : (s.store a bs).asks = s.asks := rfl
@[simp] theorem State.store_free (s : State) (a : Nat) (bs : List Byte) : (s.store a bs).free = s.free := rfl
@[simp] theorem State.store_pending (s : State) (a : Nat) (bs : List Byte) : (s.store a bs).pending = s.pending := rfl

/-! ### State.logFault -/

@[simp] theorem State.logFault_regs (s : State) (source cls action info start stop : Nat) : (s.logFault source cls action info start stop).regs = s.regs := rfl
@[simp] theorem State.logFault_perReq (s : State) (source cls action info start stop : Nat) : (s.logFault source cls action info start stop).perReq = s.perReq := rfl
@[simp] theorem State.logFault_rdata (s : State) (source cls action info start stop : Nat) : (s.logFault source cls action info start stop).rdata = s.rdata := rfl
@[simp] theorem State.logFault_mem (s : State) (source cls action info start stop : Nat) : (s.logFault source cls action info start stop).mem = s.mem := rfl
@[simp] theorem State.logFault_poison (s : State) (source cls action info start stop : Nat) : (s.logFault source cls action info start stop).poison = s.poison := rfl
@[simp] theorem State.logFault_clock (s : State) (source cls action info start stop : Nat) : (s.logFault source cls action info start stop).clock = s.clock := rfl
@[simp] theorem State.logFault_cue (s : State) (source cls action info start stop : Nat) : (s.logFault source cls action info start stop).cue = s.cue := rfl
@[simp] theorem State.logFault_encs (s : State) (source cls action info start stop : Nat) : (s.logFault source cls action info start stop).encs = s.encs := rfl
@[simp] theorem State.logFault_lio (s : State) (source cls action info start stop : Nat) : (s.logFault source cls action info start stop).lio = s.lio := rfl
@[simp] theorem State.logFault_pgs (s : State) (source cls action info start stop : Nat) : (s.logFault source cls action info start stop).pgs = s.pgs := rfl
@[simp] theorem State.logFault_arr (s : State) (source cls action info start stop : Nat) : (s.logFault source cls action info start stop).arr = s.arr := rfl
@[simp] theorem State.logFault_dce (s : State) (source cls action info start stop : Nat) : (s.logFault source cls action info start stop).dce = s.dce := rfl
@[simp] theorem State.logFault_heads (s : State) (source cls action info start stop : Nat) : (s.logFault source cls action info start stop).heads = s.heads := rfl
@[simp] theorem State.logFault_ledger (s : State) (source cls action info start stop : Nat) : (s.logFault source cls action info start stop).ledger = s.ledger := rfl
@[simp] theorem State.logFault_engs (s : State) (source cls action info start stop : Nat) : (s.logFault source cls action info start stop).engs = s.engs := rfl
@[simp] theorem State.logFault_jobs (s : State) (source cls action info start stop : Nat) : (s.logFault source cls action info start stop).jobs = s.jobs := rfl
@[simp] theorem State.logFault_memt (s : State) (source cls action info start stop : Nat) : (s.logFault source cls action info start stop).memt = s.memt := rfl
@[simp] theorem State.logFault_lpddr (s : State) (source cls action info start stop : Nat) : (s.logFault source cls action info start stop).lpddr = s.lpddr := rfl
@[simp] theorem State.logFault_host (s : State) (source cls action info start stop : Nat) : (s.logFault source cls action info start stop).host = s.host := rfl
@[simp] theorem State.logFault_cfg (s : State) (source cls action info start stop : Nat) : (s.logFault source cls action info start stop).cfg = s.cfg := rfl
@[simp] theorem State.logFault_mantle (s : State) (source cls action info start stop : Nat) : (s.logFault source cls action info start stop).mantle = s.mantle := rfl
@[simp] theorem State.logFault_seam (s : State) (source cls action info start stop : Nat) : (s.logFault source cls action info start stop).seam = s.seam := rfl
@[simp] theorem State.logFault_cal (s : State) (source cls action info start stop : Nat) : (s.logFault source cls action info start stop).cal = s.cal := rfl
@[simp] theorem State.logFault_startup (s : State) (source cls action info start stop : Nat) : (s.logFault source cls action info start stop).startup = s.startup := rfl
@[simp] theorem State.logFault_supLt (s : State) (source cls action info start stop : Nat) : (s.logFault source cls action info start stop).supLt = s.supLt := rfl
@[simp] theorem State.logFault_oldRoutes (s : State) (source cls action info start stop : Nat) : (s.logFault source cls action info start stop).oldRoutes = s.oldRoutes := rfl
@[simp] theorem State.logFault_seamEvts (s : State) (source cls action info start stop : Nat) : (s.logFault source cls action info start stop).seamEvts = s.seamEvts := rfl
@[simp] theorem State.logFault_msixPend (s : State) (source cls action info start stop : Nat) : (s.logFault source cls action info start stop).msixPend = s.msixPend := rfl
@[simp] theorem State.logFault_asks (s : State) (source cls action info start stop : Nat) : (s.logFault source cls action info start stop).asks = s.asks := rfl
@[simp] theorem State.logFault_free (s : State) (source cls action info start stop : Nat) : (s.logFault source cls action info start stop).free = s.free := rfl
@[simp] theorem State.logFault_pending (s : State) (source cls action info start stop : Nat) : (s.logFault source cls action info start stop).pending = s.pending := rfl

/-! ### State.setEng -/

@[simp] theorem State.setEng_regs (s : State) (n : Nat) (e : Engine) : (s.setEng n e).regs = s.regs := rfl
@[simp] theorem State.setEng_perReq (s : State) (n : Nat) (e : Engine) : (s.setEng n e).perReq = s.perReq := rfl
@[simp] theorem State.setEng_rdata (s : State) (n : Nat) (e : Engine) : (s.setEng n e).rdata = s.rdata := rfl
@[simp] theorem State.setEng_mem (s : State) (n : Nat) (e : Engine) : (s.setEng n e).mem = s.mem := rfl
@[simp] theorem State.setEng_poison (s : State) (n : Nat) (e : Engine) : (s.setEng n e).poison = s.poison := rfl
@[simp] theorem State.setEng_clock (s : State) (n : Nat) (e : Engine) : (s.setEng n e).clock = s.clock := rfl
@[simp] theorem State.setEng_cue (s : State) (n : Nat) (e : Engine) : (s.setEng n e).cue = s.cue := rfl
@[simp] theorem State.setEng_encs (s : State) (n : Nat) (e : Engine) : (s.setEng n e).encs = s.encs := rfl
@[simp] theorem State.setEng_lio (s : State) (n : Nat) (e : Engine) : (s.setEng n e).lio = s.lio := rfl
@[simp] theorem State.setEng_pgs (s : State) (n : Nat) (e : Engine) : (s.setEng n e).pgs = s.pgs := rfl
@[simp] theorem State.setEng_arr (s : State) (n : Nat) (e : Engine) : (s.setEng n e).arr = s.arr := rfl
@[simp] theorem State.setEng_dce (s : State) (n : Nat) (e : Engine) : (s.setEng n e).dce = s.dce := rfl
@[simp] theorem State.setEng_heads (s : State) (n : Nat) (e : Engine) : (s.setEng n e).heads = s.heads := rfl
@[simp] theorem State.setEng_ledger (s : State) (n : Nat) (e : Engine) : (s.setEng n e).ledger = s.ledger := rfl
@[simp] theorem State.setEng_jobs (s : State) (n : Nat) (e : Engine) : (s.setEng n e).jobs = s.jobs := rfl
@[simp] theorem State.setEng_memt (s : State) (n : Nat) (e : Engine) : (s.setEng n e).memt = s.memt := rfl
@[simp] theorem State.setEng_lpddr (s : State) (n : Nat) (e : Engine) : (s.setEng n e).lpddr = s.lpddr := rfl
@[simp] theorem State.setEng_host (s : State) (n : Nat) (e : Engine) : (s.setEng n e).host = s.host := rfl
@[simp] theorem State.setEng_cfg (s : State) (n : Nat) (e : Engine) : (s.setEng n e).cfg = s.cfg := rfl
@[simp] theorem State.setEng_mantle (s : State) (n : Nat) (e : Engine) : (s.setEng n e).mantle = s.mantle := rfl
@[simp] theorem State.setEng_seam (s : State) (n : Nat) (e : Engine) : (s.setEng n e).seam = s.seam := rfl
@[simp] theorem State.setEng_cal (s : State) (n : Nat) (e : Engine) : (s.setEng n e).cal = s.cal := rfl
@[simp] theorem State.setEng_startup (s : State) (n : Nat) (e : Engine) : (s.setEng n e).startup = s.startup := rfl
@[simp] theorem State.setEng_supLt (s : State) (n : Nat) (e : Engine) : (s.setEng n e).supLt = s.supLt := rfl
@[simp] theorem State.setEng_oldRoutes (s : State) (n : Nat) (e : Engine) : (s.setEng n e).oldRoutes = s.oldRoutes := rfl
@[simp] theorem State.setEng_seamEvts (s : State) (n : Nat) (e : Engine) : (s.setEng n e).seamEvts = s.seamEvts := rfl
@[simp] theorem State.setEng_msixPend (s : State) (n : Nat) (e : Engine) : (s.setEng n e).msixPend = s.msixPend := rfl
@[simp] theorem State.setEng_logQ (s : State) (n : Nat) (e : Engine) : (s.setEng n e).logQ = s.logQ := rfl
@[simp] theorem State.setEng_asks (s : State) (n : Nat) (e : Engine) : (s.setEng n e).asks = s.asks := rfl
@[simp] theorem State.setEng_free (s : State) (n : Nat) (e : Engine) : (s.setEng n e).free = s.free := rfl
@[simp] theorem State.setEng_pending (s : State) (n : Nat) (e : Engine) : (s.setEng n e).pending = s.pending := rfl

/-! ### State.setClock -/

@[simp] theorem State.setClock_regs (s : State) (c : Clock) : (s.setClock c).regs = s.regs := rfl
@[simp] theorem State.setClock_perReq (s : State) (c : Clock) : (s.setClock c).perReq = s.perReq := rfl
@[simp] theorem State.setClock_rdata (s : State) (c : Clock) : (s.setClock c).rdata = s.rdata := rfl
@[simp] theorem State.setClock_mem (s : State) (c : Clock) : (s.setClock c).mem = s.mem := rfl
@[simp] theorem State.setClock_poison (s : State) (c : Clock) : (s.setClock c).poison = s.poison := rfl
@[simp] theorem State.setClock_cue (s : State) (c : Clock) : (s.setClock c).cue = s.cue := rfl
@[simp] theorem State.setClock_encs (s : State) (c : Clock) : (s.setClock c).encs = s.encs := rfl
@[simp] theorem State.setClock_lio (s : State) (c : Clock) : (s.setClock c).lio = s.lio := rfl
@[simp] theorem State.setClock_pgs (s : State) (c : Clock) : (s.setClock c).pgs = s.pgs := rfl
@[simp] theorem State.setClock_arr (s : State) (c : Clock) : (s.setClock c).arr = s.arr := rfl
@[simp] theorem State.setClock_dce (s : State) (c : Clock) : (s.setClock c).dce = s.dce := rfl
@[simp] theorem State.setClock_heads (s : State) (c : Clock) : (s.setClock c).heads = s.heads := rfl
@[simp] theorem State.setClock_ledger (s : State) (c : Clock) : (s.setClock c).ledger = s.ledger := rfl
@[simp] theorem State.setClock_engs (s : State) (c : Clock) : (s.setClock c).engs = s.engs := rfl
@[simp] theorem State.setClock_jobs (s : State) (c : Clock) : (s.setClock c).jobs = s.jobs := rfl
@[simp] theorem State.setClock_memt (s : State) (c : Clock) : (s.setClock c).memt = s.memt := rfl
@[simp] theorem State.setClock_lpddr (s : State) (c : Clock) : (s.setClock c).lpddr = s.lpddr := rfl
@[simp] theorem State.setClock_host (s : State) (c : Clock) : (s.setClock c).host = s.host := rfl
@[simp] theorem State.setClock_cfg (s : State) (c : Clock) : (s.setClock c).cfg = s.cfg := rfl
@[simp] theorem State.setClock_mantle (s : State) (c : Clock) : (s.setClock c).mantle = s.mantle := rfl
@[simp] theorem State.setClock_seam (s : State) (c : Clock) : (s.setClock c).seam = s.seam := rfl
@[simp] theorem State.setClock_cal (s : State) (c : Clock) : (s.setClock c).cal = s.cal := rfl
@[simp] theorem State.setClock_startup (s : State) (c : Clock) : (s.setClock c).startup = s.startup := rfl
@[simp] theorem State.setClock_supLt (s : State) (c : Clock) : (s.setClock c).supLt = s.supLt := rfl
@[simp] theorem State.setClock_oldRoutes (s : State) (c : Clock) : (s.setClock c).oldRoutes = s.oldRoutes := rfl
@[simp] theorem State.setClock_seamEvts (s : State) (c : Clock) : (s.setClock c).seamEvts = s.seamEvts := rfl
@[simp] theorem State.setClock_msixPend (s : State) (c : Clock) : (s.setClock c).msixPend = s.msixPend := rfl
@[simp] theorem State.setClock_logQ (s : State) (c : Clock) : (s.setClock c).logQ = s.logQ := rfl
@[simp] theorem State.setClock_asks (s : State) (c : Clock) : (s.setClock c).asks = s.asks := rfl
@[simp] theorem State.setClock_free (s : State) (c : Clock) : (s.setClock c).free = s.free := rfl
@[simp] theorem State.setClock_pending (s : State) (c : Clock) : (s.setClock c).pending = s.pending := rfl

/-! ### Registers and fields -/

@[simp] theorem State.reg_setReg (s : State) (a b : Nat) (v : Word) :
    (s.setReg a v).reg b = if b = a then v else s.reg b := by
  unfold State.reg State.setReg
  rw [lookupCell_putCell]
  split
  · subst b; simp
  · rfl

theorem State.setFld_eq (s : State) (a : Nat) (f : Fld) (x : Nat) :
    s.setFld a f x = s.setReg a (f.put (s.reg a) x) := rfl

@[simp] theorem State.reg_setFld (s : State) (a b : Nat) (f : Fld) (x : Nat) :
    (s.setFld a f x).reg b = if b = a then f.put (s.reg a) x else s.reg b := by
  simp [State.setFld]

@[simp] theorem State.reg_setBit (s : State) (a b : Nat) (f : Fld) :
    (s.setBit a f).reg b = if b = a then f.put (s.reg a) 1 else s.reg b := by
  simp [State.setBit]

@[simp] theorem State.reg_clrBit (s : State) (a b : Nat) (f : Fld) :
    (s.clrBit a f).reg b = if b = a then f.put (s.reg a) 0 else s.reg b := by
  simp [State.clrBit]

@[simp] theorem State.reg_putBit (s : State) (a b : Nat) (f : Fld) (x : Bool) :
    (s.putBit a f x).reg b = if b = a then f.put (s.reg a) (b2n x) else s.reg b := by
  simp [State.putBit]

@[simp] theorem State.reg_countUp (s : State) (a b : Nat) (f : Fld) :
    (s.countUp a f).reg b = if b = a then f.put (s.reg a) (satInc f.width (s.fld a f)) else s.reg b := by
  simp [State.countUp]

@[simp] theorem State.eng_setReg (s : State) (a : Nat) (v : Word) (i : Nat) : (s.setReg a v).eng i = s.eng i := rfl
@[simp] theorem State.byte_setReg (s : State) (a : Nat) (v : Word) (i : Nat) : (s.setReg a v).byte i = s.byte i := rfl
@[simp] theorem State.tick_setReg (s : State) (a : Nat) (v : Word) : (s.setReg a v).tick = s.tick := rfl
@[simp] theorem State.lt_setReg (s : State) (a : Nat) (v : Word) : (s.setReg a v).lt = s.lt := rfl
@[simp] theorem State.eng_setFld (s : State) (a : Nat) (f : Fld) (x : Nat) (i : Nat) : (s.setFld a f x).eng i = s.eng i := rfl
@[simp] theorem State.byte_setFld (s : State) (a : Nat) (f : Fld) (x : Nat) (i : Nat) : (s.setFld a f x).byte i = s.byte i := rfl
@[simp] theorem State.tick_setFld (s : State) (a : Nat) (f : Fld) (x : Nat) : (s.setFld a f x).tick = s.tick := rfl
@[simp] theorem State.lt_setFld (s : State) (a : Nat) (f : Fld) (x : Nat) : (s.setFld a f x).lt = s.lt := rfl
@[simp] theorem State.eng_setBit (s : State) (a : Nat) (f : Fld) (i : Nat) : (s.setBit a f).eng i = s.eng i := rfl
@[simp] theorem State.byte_setBit (s : State) (a : Nat) (f : Fld) (i : Nat) : (s.setBit a f).byte i = s.byte i := rfl
@[simp] theorem State.tick_setBit (s : State) (a : Nat) (f : Fld) : (s.setBit a f).tick = s.tick := rfl
@[simp] theorem State.lt_setBit (s : State) (a : Nat) (f : Fld) : (s.setBit a f).lt = s.lt := rfl
@[simp] theorem State.eng_clrBit (s : State) (a : Nat) (f : Fld) (i : Nat) : (s.clrBit a f).eng i = s.eng i := rfl
@[simp] theorem State.byte_clrBit (s : State) (a : Nat) (f : Fld) (i : Nat) : (s.clrBit a f).byte i = s.byte i := rfl
@[simp] theorem State.tick_clrBit (s : State) (a : Nat) (f : Fld) : (s.clrBit a f).tick = s.tick := rfl
@[simp] theorem State.lt_clrBit (s : State) (a : Nat) (f : Fld) : (s.clrBit a f).lt = s.lt := rfl
@[simp] theorem State.eng_putBit (s : State) (a : Nat) (f : Fld) (b : Bool) (i : Nat) : (s.putBit a f b).eng i = s.eng i := rfl
@[simp] theorem State.byte_putBit (s : State) (a : Nat) (f : Fld) (b : Bool) (i : Nat) : (s.putBit a f b).byte i = s.byte i := rfl
@[simp] theorem State.tick_putBit (s : State) (a : Nat) (f : Fld) (b : Bool) : (s.putBit a f b).tick = s.tick := rfl
@[simp] theorem State.lt_putBit (s : State) (a : Nat) (f : Fld) (b : Bool) : (s.putBit a f b).lt = s.lt := rfl
@[simp] theorem State.eng_countUp (s : State) (a : Nat) (f : Fld) (i : Nat) : (s.countUp a f).eng i = s.eng i := rfl
@[simp] theorem State.byte_countUp (s : State) (a : Nat) (f : Fld) (i : Nat) : (s.countUp a f).byte i = s.byte i := rfl
@[simp] theorem State.tick_countUp (s : State) (a : Nat) (f : Fld) : (s.countUp a f).tick = s.tick := rfl
@[simp] theorem State.lt_countUp (s : State) (a : Nat) (f : Fld) : (s.countUp a f).lt = s.lt := rfl
@[simp] theorem State.eng_setReg64 (s : State) (a x : Nat) (i : Nat) : (s.setReg64 a x).eng i = s.eng i := rfl
@[simp] theorem State.byte_setReg64 (s : State) (a x : Nat) (i : Nat) : (s.setReg64 a x).byte i = s.byte i := rfl
@[simp] theorem State.tick_setReg64 (s : State) (a x : Nat) : (s.setReg64 a x).tick = s.tick := rfl
@[simp] theorem State.lt_setReg64 (s : State) (a x : Nat) : (s.setReg64 a x).lt = s.lt := rfl
@[simp] theorem State.reg_setPreg (s : State) (r : Req) (a : Nat) (v : Word) (i : Nat) : (s.setPreg r a v).reg i = s.reg i := rfl
@[simp] theorem State.fld_setPreg (s : State) (r : Req) (a : Nat) (v : Word) (i : Nat) (g : Fld) : (s.setPreg r a v).fld i g = s.fld i g := rfl
@[simp] theorem State.bit_setPreg (s : State) (r : Req) (a : Nat) (v : Word) (i : Nat) (g : Fld) : (s.setPreg r a v).bit i g = s.bit i g := rfl
@[simp] theorem State.eng_setPreg (s : State) (r : Req) (a : Nat) (v : Word) (i : Nat) : (s.setPreg r a v).eng i = s.eng i := rfl
@[simp] theorem State.byte_setPreg (s : State) (r : Req) (a : Nat) (v : Word) (i : Nat) : (s.setPreg r a v).byte i = s.byte i := rfl
@[simp] theorem State.tick_setPreg (s : State) (r : Req) (a : Nat) (v : Word) : (s.setPreg r a v).tick = s.tick := rfl
@[simp] theorem State.lt_setPreg (s : State) (r : Req) (a : Nat) (v : Word) : (s.setPreg r a v).lt = s.lt := rfl
@[simp] theorem State.reg_give (s : State) (r : Req) (ws : List Word) (i : Nat) : (s.give r ws).reg i = s.reg i := rfl
@[simp] theorem State.fld_give (s : State) (r : Req) (ws : List Word) (i : Nat) (g : Fld) : (s.give r ws).fld i g = s.fld i g := rfl
@[simp] theorem State.bit_give (s : State) (r : Req) (ws : List Word) (i : Nat) (g : Fld) : (s.give r ws).bit i g = s.bit i g := rfl
@[simp] theorem State.eng_give (s : State) (r : Req) (ws : List Word) (i : Nat) : (s.give r ws).eng i = s.eng i := rfl
@[simp] theorem State.byte_give (s : State) (r : Req) (ws : List Word) (i : Nat) : (s.give r ws).byte i = s.byte i := rfl
@[simp] theorem State.tick_give (s : State) (r : Req) (ws : List Word) : (s.give r ws).tick = s.tick := rfl
@[simp] theorem State.lt_give (s : State) (r : Req) (ws : List Word) : (s.give r ws).lt = s.lt := rfl
@[simp] theorem State.reg_store (s : State) (a : Nat) (bs : List Byte) (i : Nat) : (s.store a bs).reg i = s.reg i := rfl
@[simp] theorem State.fld_store (s : State) (a : Nat) (bs : List Byte) (i : Nat) (g : Fld) : (s.store a bs).fld i g = s.fld i g := rfl
@[simp] theorem State.bit_store (s : State) (a : Nat) (bs : List Byte) (i : Nat) (g : Fld) : (s.store a bs).bit i g = s.bit i g := rfl
@[simp] theorem State.eng_store (s : State) (a : Nat) (bs : List Byte) (i : Nat) : (s.store a bs).eng i = s.eng i := rfl
@[simp] theorem State.tick_store (s : State) (a : Nat) (bs : List Byte) : (s.store a bs).tick = s.tick := rfl
@[simp] theorem State.lt_store (s : State) (a : Nat) (bs : List Byte) : (s.store a bs).lt = s.lt := rfl
@[simp] theorem State.reg_logFault (s : State) (source cls action info start stop : Nat) (i : Nat) : (s.logFault source cls action info start stop).reg i = s.reg i := rfl
@[simp] theorem State.fld_logFault (s : State) (source cls action info start stop : Nat) (i : Nat) (g : Fld) : (s.logFault source cls action info start stop).fld i g = s.fld i g := rfl
@[simp] theorem State.bit_logFault (s : State) (source cls action info start stop : Nat) (i : Nat) (g : Fld) : (s.logFault source cls action info start stop).bit i g = s.bit i g := rfl
@[simp] theorem State.eng_logFault (s : State) (source cls action info start stop : Nat) (i : Nat) : (s.logFault source cls action info start stop).eng i = s.eng i := rfl
@[simp] theorem State.byte_logFault (s : State) (source cls action info start stop : Nat) (i : Nat) : (s.logFault source cls action info start stop).byte i = s.byte i := rfl
@[simp] theorem State.tick_logFault (s : State) (source cls action info start stop : Nat) : (s.logFault source cls action info start stop).tick = s.tick := rfl
@[simp] theorem State.lt_logFault (s : State) (source cls action info start stop : Nat) : (s.logFault source cls action info start stop).lt = s.lt := rfl
@[simp] theorem State.reg_setEng (s : State) (n : Nat) (e : Engine) (i : Nat) : (s.setEng n e).reg i = s.reg i := rfl
@[simp] theorem State.fld_setEng (s : State) (n : Nat) (e : Engine) (i : Nat) (g : Fld) : (s.setEng n e).fld i g = s.fld i g := rfl
@[simp] theorem State.bit_setEng (s : State) (n : Nat) (e : Engine) (i : Nat) (g : Fld) : (s.setEng n e).bit i g = s.bit i g := rfl
@[simp] theorem State.byte_setEng (s : State) (n : Nat) (e : Engine) (i : Nat) : (s.setEng n e).byte i = s.byte i := rfl
@[simp] theorem State.tick_setEng (s : State) (n : Nat) (e : Engine) : (s.setEng n e).tick = s.tick := rfl
@[simp] theorem State.lt_setEng (s : State) (n : Nat) (e : Engine) : (s.setEng n e).lt = s.lt := rfl
@[simp] theorem State.reg_setClock (s : State) (c : Clock) (i : Nat) : (s.setClock c).reg i = s.reg i := rfl
@[simp] theorem State.fld_setClock (s : State) (c : Clock) (i : Nat) (g : Fld) : (s.setClock c).fld i g = s.fld i g := rfl
@[simp] theorem State.bit_setClock (s : State) (c : Clock) (i : Nat) (g : Fld) : (s.setClock c).bit i g = s.bit i g := rfl
@[simp] theorem State.eng_setClock (s : State) (c : Clock) (i : Nat) : (s.setClock c).eng i = s.eng i := rfl
@[simp] theorem State.byte_setClock (s : State) (c : Clock) (i : Nat) : (s.setClock c).byte i = s.byte i := rfl

@[simp] theorem State.eng_setEng (s : State) (n i : Nat) (e : Engine) :
    (s.setEng n e).eng i = if i = n then e else s.eng i := by
  simp [State.eng, State.setEng]

@[simp] theorem State.setClock_clock (s : State) (c : Clock) : (s.setClock c).clock = c := rfl

@[simp] theorem State.give_rdata_self (s : State) (r : Req) (ws : List Word) :
    (s.give r ws).rdata.get [] (reqKey r) = ws := by
  simp [State.give]

/-- A byte read after a store: outside the bytes stored it is the byte before it. -/
theorem State.byte_store_outside (s : State) (a x : Nat) (bs : List Byte) (h : x < a ∨ a + bs.length ≤ x) :
    (s.store a bs).byte x = s.byte x :=
  memByte_memSetBytes_outside bs s.mem a x h

/-- The bytes stored read back. -/
theorem State.byte_store_inside (s : State) (a i : Nat) (bs : List Byte) (h : i < bs.length) :
    (s.store a bs).byte (a + i) = bs[i] :=
  memByte_memSetBytes_inside bs s.mem a i h

end Sys2Proof.Machine
end

