-- ==== Sys2Proof/Laws/Fields.lean ====
section
/-!
SUPPORT. Fields of control-register words: a field reads back what was put into it, and leaves the others alone.
-/
namespace Sys2Proof.Machine

theorem slice_testBit (x lo w i : Nat) : (slice x lo w).testBit i = (decide (i < w) && x.testBit (lo + i)) := by
  unfold slice
  rw [Nat.testBit_mod_two_pow, Nat.testBit_div_two_pow, Nat.add_comm i lo]

theorem Fld.get_testBit (f : Fld) (w : Word) (i : Nat) :
    (f.get w).testBit i = (decide (i < f.width) && w.getLsbD (f.lsb + i)) := by
  unfold Fld.get
  rw [slice_testBit]
  rfl

theorem Fld.mask_testBit (f : Fld) (i : Nat) :
    f.mask.testBit i = (decide (f.lsb ≤ i) && decide (i < f.lsb + f.width)) := by
  unfold Fld.mask
  rw [Nat.testBit_mul_two_pow, Nat.testBit_two_pow_sub_one]
  by_cases h : f.lsb ≤ i <;> simp [h] <;> omega

theorem Fld.put_getLsbD (f : Fld) (w : Word) (x i : Nat) :
    (f.put w x).getLsbD i =
      (decide (i < 32) && if f.lsb ≤ i ∧ i < f.lsb + f.width then x.testBit (i - f.lsb) else w.getLsbD i) := by
  unfold Fld.put
  simp only [BitVec.getLsbD_or, BitVec.getLsbD_and, BitVec.getLsbD_not, BitVec.getLsbD_ofNat, Fld.mask_testBit,
    Nat.testBit_mul_two_pow, Nat.testBit_mod_two_pow]
  by_cases hi : i < 32
  · by_cases h1 : f.lsb ≤ i
    · by_cases h2 : i < f.lsb + f.width
      · have : i - f.lsb < f.width := by omega
        simp [hi, h1, h2, this]
      · have : ¬ i - f.lsb < f.width := by omega
        simp [hi, h1, h2, this]
    · simp [hi, h1]
  · simp [hi]

/-- A field reads back the low bits of what was put into it. -/
theorem Fld.get_put_self (f : Fld) (h : f.lsb + f.width ≤ 32) (w : Word) (x : Nat) :
    f.get (f.put w x) = x % 2 ^ f.width := by
  apply Nat.eq_of_testBit_eq
  intro i
  rw [Fld.get_testBit, Fld.put_getLsbD, Nat.testBit_mod_two_pow]
  by_cases hi : i < f.width
  · have h1 : f.lsb + i < 32 := by omega
    have h2 : f.lsb + i < f.lsb + f.width := by omega
    have h3 : f.lsb + i - f.lsb = i := by omega
    rw [if_pos ⟨by omega, h2⟩, h3]
    simp [hi, h1]
  · simp [hi]

/-- Putting into one field leaves a field apart from it alone. -/
theorem Fld.get_put_other (f g : Fld) (h : g.lsb + g.width ≤ f.lsb ∨ f.lsb + f.width ≤ g.lsb) (w : Word) (x : Nat) :
    g.get (f.put w x) = g.get w := by
  apply Nat.eq_of_testBit_eq
  intro i
  rw [Fld.get_testBit, Fld.get_testBit, Fld.put_getLsbD]
  by_cases hi : i < g.width
  · have hn : ¬ (f.lsb ≤ g.lsb + i ∧ g.lsb + i < f.lsb + f.width) := by omega
    rw [if_neg hn]
    by_cases h3 : g.lsb + i < 32
    · simp [h3]
    · have : w.getLsbD (g.lsb + i) = false := BitVec.getLsbD_of_ge w _ (by omega)
      simp [h3, this]
  · simp [hi]

/-- A register's field after an update of that field. -/
theorem State.fld_setFld_self (s : State) (a : Nat) (f : Fld) (h : f.lsb + f.width ≤ 32) (x : Nat) :
    (s.setFld a f x).fld a f = x % 2 ^ f.width := by
  simp [State.fld, Fld.get_put_self f h]

/-- Another field of the same register after it. -/
theorem State.fld_setFld_other (s : State) (a : Nat) (f g : Fld)
    (h : g.lsb + g.width ≤ f.lsb ∨ f.lsb + f.width ≤ g.lsb) (x : Nat) :
    (s.setFld a f x).fld a g = s.fld a g := by
  simp [State.fld, Fld.get_put_other f g h]

/-- A field of another register after it. -/
theorem State.fld_setFld_ne (s : State) (a b : Nat) (f g : Fld) (h : b ≠ a) (x : Nat) :
    (s.setFld a f x).fld b g = s.fld b g := by
  simp [State.fld, h]

end Sys2Proof.Machine
end

