-- ==== Sys2Proof/Laws/Keeps.lean ====
section
/-!
SUPPORT. `Keeps m s t`: of the parts of the state only those in the mask `m` differ between `s` and `t`, and
what every happening keeps is kept (the canonical forms, the fuses). One lemma for each update of one part;
the lemmas for the functions of the model follow in the files beside this one.
-/
namespace Sys2Proof.Machine

/-- The bit of a part in a mask. -/
def Part.idx : Part → Nat
  | .regs => 0
  | .perReq => 1
  | .rdata => 2
  | .mem => 3
  | .poison => 4
  | .clock => 5
  | .cue => 6
  | .encs => 7
  | .lio => 8
  | .pgs => 9
  | .arr => 10
  | .dce => 11
  | .heads => 12
  | .ledger => 13
  | .engs => 14
  | .jobs => 15
  | .memt => 16
  | .lpddr => 17
  | .host => 18
  | .cfg => 19
  | .mantle => 20
  | .seam => 21
  | .cal => 22
  | .startup => 23
  | .supLt => 24
  | .oldRoutes => 25
  | .seamEvts => 26
  | .msixPend => 27
  | .logQ => 28
  | .asks => 29
  | .free => 30
  | .pending => 31

/-- Every part of the mask `a` is in `m`. -/
abbrev sub (a m : Nat) : Prop := a ||| m = m

theorem sub.of {a b m : Nat} (h : sub a b) (hb : sub b m) : sub a m := by
  unfold sub at *
  rw [← hb, ← Nat.or_assoc, h]

theorem sub.bit {a m i : Nat} (h : sub a m) (hm : m.testBit i = false) : a.testBit i = false := by
  unfold sub at h
  rw [← h, Nat.testBit_or] at hm
  simp_all

/-- Does the burn in progress raise its counter (R354)? -/
def burnUp (x : Mantle) : Prop := ∀ i v, x.burn = some (i, v) → x.fuses.ctrs.get 0 i < v

/-- No fuse of `x` is unblown in `y`: owner slots stay enrolled and revoked, counters do not fall (R353, R354). -/
def fusesLe (x y : Mantle) : Prop :=
  (∀ j, (x.fuses.slots.get OwnerSlot.init j).enrolled = true → (y.fuses.slots.get OwnerSlot.init j).enrolled = true) ∧
  (∀ j, (x.fuses.slots.get OwnerSlot.init j).revoked = true → (y.fuses.slots.get OwnerSlot.init j).revoked = true) ∧
  ∀ i, x.fuses.ctrs.get 0 i ≤ y.fuses.ctrs.get 0 i

theorem fusesLe.refl (x : Mantle) : fusesLe x x := ⟨fun _ h => h, fun _ h => h, fun _ => Nat.le_refl _⟩

theorem fusesLe.trans {x y z : Mantle} (h : fusesLe x y) (k : fusesLe y z) : fusesLe x z :=
  ⟨fun j e => k.1 j (h.1 j e), fun j e => k.2.1 j (h.2.1 j e), fun i => Nat.le_trans (h.2.2 i) (k.2.2 i)⟩

/-- What a happening that touches only the parts of `m` keeps between `s` and `t`. -/
structure Keeps (m : Nat) (s t : State) : Prop where
  same : ∀ p : Part, m.testBit p.idx = false → p.same s t
  mem : memWf s.mem = true → memWf t.mem = true
  regs : regsWf s.regs = true → regsWf t.regs = true
  fuse : burnUp s.mantle → burnUp t.mantle ∧ fusesLe s.mantle t.mantle
  free : s.free ≤ t.free

theorem Part.same_refl (p : Part) (s : State) : p.same s s := by cases p <;> rfl

theorem Part.same_trans {p : Part} {s t u : State} (h : p.same s t) (k : p.same t u) : p.same s u := by
  cases p <;> exact Eq.trans k h

theorem Keeps.refl (m : Nat) (s : State) : Keeps m s s :=
  ⟨fun p _ => p.same_refl s, id, id, fun h => ⟨h, fusesLe.refl _⟩, Nat.le_refl _⟩

theorem Keeps.trans {m : Nat} {s t u : State} (h : Keeps m s t) (k : Keeps m t u) : Keeps m s u :=
  ⟨fun p hp => Part.same_trans (h.same p hp) (k.same p hp), k.mem ∘ h.mem, k.regs ∘ h.regs,
    fun b => ⟨(k.fuse (h.fuse b).1).1, (h.fuse b).2.trans (k.fuse (h.fuse b).1).2⟩, Nat.le_trans h.free k.free⟩

theorem Keeps.mono {a m : Nat} {s t : State} (hm : sub a m) (h : Keeps a s t) : Keeps m s t :=
  ⟨fun p hp => h.same p (hm.bit hp), h.mem, h.regs, h.fuse, h.free⟩

/-- A mask's frame in the terms of `sameBut`. -/
theorem Keeps.sameBut {m : Nat} {s t : State} (h : Keeps m s t) (ps : List Part)
    (hp : ∀ p : Part, p ∉ ps → m.testBit p.idx = false) : sameBut ps s t :=
  fun p hn => h.same p (hp p hn)

/-! ### Shapes -/

variable {m : Nat} {s0 : State}

theorem keeps_ite {c : Prop} [Decidable c] {a b : State} (ha : c → Keeps m s0 a) (hb : ¬c → Keeps m s0 b) :
    Keeps m s0 (if c then a else b) := by
  split
  · exact ha ‹_›
  · exact hb ‹_›

theorem keeps_ite2 {α : Type} {c : Prop} [Decidable c] {a b : α × State} (ha : c → Keeps m s0 a.2)
    (hb : ¬c → Keeps m s0 b.2) : Keeps m s0 (if c then a else b).2 := by
  split
  · exact ha ‹_›
  · exact hb ‹_›

theorem keeps_ite1 {α : Type} {c : Prop} [Decidable c] {a b : State × α} (ha : c → Keeps m s0 a.1)
    (hb : ¬c → Keeps m s0 b.1) : Keeps m s0 (if c then a else b).1 := by
  split
  · exact ha ‹_›
  · exact hb ‹_›

theorem keeps_foldl {β : Type} {f : State → β → State} (hf : ∀ s x, Keeps m s0 s → Keeps m s0 (f s x))
    (l : List β) {s : State} (h : Keeps m s0 s) : Keeps m s0 (l.foldl f s) := by
  induction l generalizing s with
  | nil => exact h
  | cons x l ih => exact ih (hf s x h)

theorem keeps_foldl2 {α β : Type} {f : α × State → β → α × State}
    (hf : ∀ p x, Keeps m s0 p.2 → Keeps m s0 (f p x).2) (l : List β) {p : α × State} (h : Keeps m s0 p.2) :
    Keeps m s0 (l.foldl f p).2 := by
  induction l generalizing p with
  | nil => exact h
  | cons x l ih => exact ih (hf p x h)

theorem keeps_foldl1 {α β : Type} {f : State × α → β → State × α}
    (hf : ∀ p x, Keeps m s0 p.1 → Keeps m s0 (f p x).1) (l : List β) {p : State × α} (h : Keeps m s0 p.1) :
    Keeps m s0 (l.foldl f p).1 := by
  induction l generalizing p with
  | nil => exact h
  | cons x l ih => exact ih (hf p x h)

/-! ### Updates of one part -/

theorem keeps_perReq (hm : sub 2 m) {s : State} (h : Keeps m s0 s) (v : Tab (Tab Word)) : Keeps m s0 { s with perReq := v } :=
  ⟨fun p hp => by
    cases p
    case perReq => exact absurd (hm.bit hp) (by decide)
    all_goals exact h.same _ hp, h.mem, h.regs, h.fuse, h.free⟩

theorem keeps_rdata (hm : sub 4 m) {s : State} (h : Keeps m s0 s) (v : Tab (List Word)) : Keeps m s0 { s with rdata := v } :=
  ⟨fun p hp => by
    cases p
    case rdata => exact absurd (hm.bit hp) (by decide)
    all_goals exact h.same _ hp, h.mem, h.regs, h.fuse, h.free⟩

theorem keeps_poison (hm : sub 16 m) {s : State} (h : Keeps m s0 s) (v : Tab Bool) : Keeps m s0 { s with poison := v } :=
  ⟨fun p hp => by
    cases p
    case poison => exact absurd (hm.bit hp) (by decide)
    all_goals exact h.same _ hp, h.mem, h.regs, h.fuse, h.free⟩

theorem keeps_clock (hm : sub 32 m) {s : State} (h : Keeps m s0 s) (v : Clock) : Keeps m s0 { s with clock := v } :=
  ⟨fun p hp => by
    cases p
    case clock => exact absurd (hm.bit hp) (by decide)
    all_goals exact h.same _ hp, h.mem, h.regs, h.fuse, h.free⟩

theorem keeps_cue (hm : sub 64 m) {s : State} (h : Keeps m s0 s) (v : Cue) : Keeps m s0 { s with cue := v } :=
  ⟨fun p hp => by
    cases p
    case cue => exact absurd (hm.bit hp) (by decide)
    all_goals exact h.same _ hp, h.mem, h.regs, h.fuse, h.free⟩

theorem keeps_encs (hm : sub 128 m) {s : State} (h : Keeps m s0 s) (v : Tab Enc) : Keeps m s0 { s with encs := v } :=
  ⟨fun p hp => by
    cases p
    case encs => exact absurd (hm.bit hp) (by decide)
    all_goals exact h.same _ hp, h.mem, h.regs, h.fuse, h.free⟩

theorem keeps_lio (hm : sub 256 m) {s : State} (h : Keeps m s0 s) (v : Lio) : Keeps m s0 { s with lio := v } :=
  ⟨fun p hp => by
    cases p
    case lio => exact absurd (hm.bit hp) (by decide)
    all_goals exact h.same _ hp, h.mem, h.regs, h.fuse, h.free⟩

theorem keeps_pgs (hm : sub 512 m) {s : State} (h : Keeps m s0 s) (v : Tab Pg) : Keeps m s0 { s with pgs := v } :=
  ⟨fun p hp => by
    cases p
    case pgs => exact absurd (hm.bit hp) (by decide)
    all_goals exact h.same _ hp, h.mem, h.regs, h.fuse, h.free⟩

theorem keeps_arr (hm : sub 1024 m) {s : State} (h : Keeps m s0 s) (v : Array') : Keeps m s0 { s with arr := v } :=
  ⟨fun p hp => by
    cases p
    case arr => exact absurd (hm.bit hp) (by decide)
    all_goals exact h.same _ hp, h.mem, h.regs, h.fuse, h.free⟩

theorem keeps_dce (hm : sub 2048 m) {s : State} (h : Keeps m s0 s) (v : Dce) : Keeps m s0 { s with dce := v } :=
  ⟨fun p hp => by
    cases p
    case dce => exact absurd (hm.bit hp) (by decide)
    all_goals exact h.same _ hp, h.mem, h.regs, h.fuse, h.free⟩

theorem keeps_heads (hm : sub 4096 m) {s : State} (h : Keeps m s0 s) (v : Tab Head) : Keeps m s0 { s with heads := v } :=
  ⟨fun p hp => by
    cases p
    case heads => exact absurd (hm.bit hp) (by decide)
    all_goals exact h.same _ hp, h.mem, h.regs, h.fuse, h.free⟩

theorem keeps_ledger (hm : sub 8192 m) {s : State} (h : Keeps m s0 s) (v : Ledger) : Keeps m s0 { s with ledger := v } :=
  ⟨fun p hp => by
    cases p
    case ledger => exact absurd (hm.bit hp) (by decide)
    all_goals exact h.same _ hp, h.mem, h.regs, h.fuse, h.free⟩

theorem keeps_engs (hm : sub 16384 m) {s : State} (h : Keeps m s0 s) (v : Tab Engine) : Keeps m s0 { s with engs := v } :=
  ⟨fun p hp => by
    cases p
    case engs => exact absurd (hm.bit hp) (by decide)
    all_goals exact h.same _ hp, h.mem, h.regs, h.fuse, h.free⟩

theorem keeps_jobs (hm : sub 32768 m) {s : State} (h : Keeps m s0 s) (v : Queues) : Keeps m s0 { s with jobs := v } :=
  ⟨fun p hp => by
    cases p
    case jobs => exact absurd (hm.bit hp) (by decide)
    all_goals exact h.same _ hp, h.mem, h.regs, h.fuse, h.free⟩

theorem keeps_memt (hm : sub 65536 m) {s : State} (h : Keeps m s0 s) (v : MemTest) : Keeps m s0 { s with memt := v } :=
  ⟨fun p hp => by
    cases p
    case memt => exact absurd (hm.bit hp) (by decide)
    all_goals exact h.same _ hp, h.mem, h.regs, h.fuse, h.free⟩

theorem keeps_lpddr (hm : sub 131072 m) {s : State} (h : Keeps m s0 s) (v : Lpddr) : Keeps m s0 { s with lpddr := v } :=
  ⟨fun p hp => by
    cases p
    case lpddr => exact absurd (hm.bit hp) (by decide)
    all_goals exact h.same _ hp, h.mem, h.regs, h.fuse, h.free⟩

theorem keeps_host (hm : sub 262144 m) {s : State} (h : Keeps m s0 s) (v : HostPort) : Keeps m s0 { s with host := v } :=
  ⟨fun p hp => by
    cases p
    case host => exact absurd (hm.bit hp) (by decide)
    all_goals exact h.same _ hp, h.mem, h.regs, h.fuse, h.free⟩

theorem keeps_cfg (hm : sub 524288 m) {s : State} (h : Keeps m s0 s) (v : Cfg) : Keeps m s0 { s with cfg := v } :=
  ⟨fun p hp => by
    cases p
    case cfg => exact absurd (hm.bit hp) (by decide)
    all_goals exact h.same _ hp, h.mem, h.regs, h.fuse, h.free⟩

theorem keeps_seam (hm : sub 2097152 m) {s : State} (h : Keeps m s0 s) (v : Seam) : Keeps m s0 { s with seam := v } :=
  ⟨fun p hp => by
    cases p
    case seam => exact absurd (hm.bit hp) (by decide)
    all_goals exact h.same _ hp, h.mem, h.regs, h.fuse, h.free⟩

theorem keeps_cal (hm : sub 4194304 m) {s : State} (h : Keeps m s0 s) (v : Cal) : Keeps m s0 { s with cal := v } :=
  ⟨fun p hp => by
    cases p
    case cal => exact absurd (hm.bit hp) (by decide)
    all_goals exact h.same _ hp, h.mem, h.regs, h.fuse, h.free⟩

theorem keeps_startup (hm : sub 8388608 m) {s : State} (h : Keeps m s0 s) (v : StartUp) : Keeps m s0 { s with startup := v } :=
  ⟨fun p hp => by
    cases p
    case startup => exact absurd (hm.bit hp) (by decide)
    all_goals exact h.same _ hp, h.mem, h.regs, h.fuse, h.free⟩

theorem keeps_supLt (hm : sub 16777216 m) {s : State} (h : Keeps m s0 s) (v : Tab Nat) : Keeps m s0 { s with supLt := v } :=
  ⟨fun p hp => by
    cases p
    case supLt => exact absurd (hm.bit hp) (by decide)
    all_goals exact h.same _ hp, h.mem, h.regs, h.fuse, h.free⟩

theorem keeps_oldRoutes (hm : sub 33554432 m) {s : State} (h : Keeps m s0 s) (v : List (Nat × Nat × Word)) : Keeps m s0 { s with oldRoutes := v } :=
  ⟨fun p hp => by
    cases p
    case oldRoutes => exact absurd (hm.bit hp) (by decide)
    all_goals exact h.same _ hp, h.mem, h.regs, h.fuse, h.free⟩

theorem keeps_seamEvts (hm : sub 67108864 m) {s : State} (h : Keeps m s0 s) (v : Tab SeamEvt) : Keeps m s0 { s with seamEvts := v } :=
  ⟨fun p hp => by
    cases p
    case seamEvts => exact absurd (hm.bit hp) (by decide)
    all_goals exact h.same _ hp, h.mem, h.regs, h.fuse, h.free⟩

theorem keeps_msixPend (hm : sub 134217728 m) {s : State} (h : Keeps m s0 s) (v : Tab Bool) : Keeps m s0 { s with msixPend := v } :=
  ⟨fun p hp => by
    cases p
    case msixPend => exact absurd (hm.bit hp) (by decide)
    all_goals exact h.same _ hp, h.mem, h.regs, h.fuse, h.free⟩

theorem keeps_logQ (hm : sub 268435456 m) {s : State} (h : Keeps m s0 s) (v : List LogEnt) : Keeps m s0 { s with logQ := v } :=
  ⟨fun p hp => by
    cases p
    case logQ => exact absurd (hm.bit hp) (by decide)
    all_goals exact h.same _ hp, h.mem, h.regs, h.fuse, h.free⟩

theorem keeps_asks (hm : sub 536870912 m) {s : State} (h : Keeps m s0 s) (v : Asks) : Keeps m s0 { s with asks := v } :=
  ⟨fun p hp => by
    cases p
    case asks => exact absurd (hm.bit hp) (by decide)
    all_goals exact h.same _ hp, h.mem, h.regs, h.fuse, h.free⟩

theorem keeps_pending (hm : sub 2147483648 m) {s : State} (h : Keeps m s0 s) (v : List Instr) : Keeps m s0 { s with pending := v } :=
  ⟨fun p hp => by
    cases p
    case pending => exact absurd (hm.bit hp) (by decide)
    all_goals exact h.same _ hp, h.mem, h.regs, h.fuse, h.free⟩

theorem keeps_mem (hm : sub 8 m) {s : State} (h : Keeps m s0 s) (v : List Host.Cell)
    (hv : memWf s.mem = true → memWf v = true) : Keeps m s0 { s with mem := v } :=
  ⟨fun p hp => by
    cases p
    case mem => exact absurd (hm.bit hp) (by decide)
    all_goals exact h.same _ hp, hv ∘ h.mem, h.regs, h.fuse, h.free⟩

theorem keeps_mantle (hm : sub 1048576 m) {s : State} (h : Keeps m s0 s) (v : Mantle)
    (hv : burnUp s0.mantle → burnUp v ∧ fusesLe s.mantle v) : Keeps m s0 { s with mantle := v } :=
  ⟨fun p hp => by
    cases p
    case mantle => exact absurd (hm.bit hp) (by decide)
    all_goals exact h.same _ hp, h.mem, h.regs,
    fun b => ⟨(hv b).1, (h.fuse b).2.trans (hv b).2⟩, h.free⟩

theorem keeps_free (hm : sub 1073741824 m) {s : State} (h : Keeps m s0 s) (v : Nat) (hv : s.free ≤ v) :
    Keeps m s0 { s with free := v } :=
  ⟨fun p hp => by
    cases p
    case free => exact absurd (hm.bit hp) (by decide)
    all_goals exact h.same _ hp, h.mem, h.regs, h.fuse, Nat.le_trans h.free hv⟩

theorem State.setReg_keeps (hm : sub 1 m) {s : State} {a : Nat} {v : Word} (h : Keeps m s0 s) :
    Keeps m s0 (s.setReg a v) :=
  ⟨fun p hp => by
    cases p
    case regs => exact absurd (hm.bit hp) (by decide)
    all_goals exact h.same _ hp, h.mem, fun w => sortedKeys_putCell _ _ _ (h.regs w), h.fuse, h.free⟩

theorem State.store_keeps (hm : sub 8 m) {s : State} {a : Nat} {bs : List Byte} (h : Keeps m s0 s) :
    Keeps m s0 (s.store a bs) :=
  keeps_mem hm h _ (memWf_memSetBytes bs s.mem a)

/-- An update of the parts of a mask that keeps the memory canonical and leaves the registers, the fuses and the
counter of free values as they are. -/
theorem keeps_parts {a : Nat} (hm : sub a m) {s t : State} (h : Keeps m s0 s)
    (hp : ∀ p : Part, a.testBit p.idx = false → p.same s t) (hmem : memWf s.mem = true → memWf t.mem = true)
    (hr : t.regs = s.regs) (hx : t.mantle = s.mantle) (hf : t.free = s.free) : Keeps m s0 t :=
  h.trans ⟨fun p hn => hp p (hm.bit hn), hmem, fun w => hr ▸ w, fun b => ⟨hx ▸ b, hx ▸ fusesLe.refl _⟩, hf ▸ Nat.le_refl _⟩

end Sys2Proof.Machine
end

