-- ==== Sys2Proof/Laws/Frame/Ops.lean ====
section
/-!
SUPPORT. What the functions of Machine/Ops.lean touch: one lemma each, in the terms of `Keeps`.
-/
namespace Sys2Proof.Machine

variable {m : Nat} {s0 : State}

theorem State.setFld_keeps {s : State} {a1 : Nat} {a2 : Fld} {a3 : Nat} (hm : sub 1 m) (h : Keeps m s0 s) :
    Keeps m s0 (State.setFld s a1 a2 a3) := by
  unfold State.setFld
  refine State.setReg_keeps (sub.of (by decide) hm) ?_
  exact h

theorem State.setBit_keeps {s : State} {a1 : Nat} {a2 : Fld} (hm : sub 1 m) (h : Keeps m s0 s) :
    Keeps m s0 (State.setBit s a1 a2) := by
  unfold State.setBit
  refine State.setFld_keeps (sub.of (by decide) hm) ?_
  exact h

theorem State.evtStat_keeps {s : State} {a1 : Fld} {a2 : Nat} (hm : sub 1 m) (h : Keeps m s0 s) :
    Keeps m s0 (State.evtStat s a1 a2) := by
  unfold State.evtStat
  refine State.setFld_keeps (sub.of (by decide) hm) ?_
  refine State.setBit_keeps (sub.of (by decide) hm) ?_
  exact h

theorem State.setEng_keeps {s : State} {a1 : Nat} {a2 : Engine} (hm : sub 16384 m) (h : Keeps m s0 s) :
    Keeps m s0 (State.setEng s a1 a2) := by
  unfold State.setEng
  refine keeps_engs (sub.of (by decide) hm) ?_ _
  exact h

theorem engArrive_keeps {a0 : Nat} {a1 : Nat} {s : State} (hm : sub 16385 m) (h : Keeps m s0 s) :
    Keeps m s0 (engArrive a0 a1 s).1 := by
  unfold engArrive
  extract_lets +onlyGivenNames -merge -useContext x0 x1
  try clear_value x0
  try clear_value x1
  refine keeps_ite1 (fun _ => ?_) (fun _ => ?_)
  · dsimp -zeta only
    refine State.setBit_keeps (sub.of (by decide) hm) ?_
    exact h
  · dsimp -zeta only
    refine State.setEng_keeps (sub.of (by decide) hm) ?_
    exact h

theorem evtToEngine_keeps {a0 : Nat} {s : State} (hm : sub 16385 m) (h : Keeps m s0 s) :
    Keeps m s0 (evtToEngine a0 s).1 := by
  unfold evtToEngine
  extract_lets +onlyGivenNames -merge -useContext x0 x1 x2 x3
  try clear_value x0
  try clear_value x1
  try clear_value x2
  try clear_value x3
  refine keeps_ite1 (fun _ => ?_) (fun _ => ?_)
  · split
    · rename_i z4 z5 e6
      have hz4 : Keeps m s0 z4 := by
        have q : _ = z4 := congrArg Prod.fst e6
        rw [← q]
        refine engArrive_keeps (sub.of (by decide) hm) ?_
        exact h
      dsimp -zeta only
      exact hz4
  · refine keeps_ite1 (fun _ => ?_) (fun _ => ?_)
    · split
      · rename_i z7 z8 e9
        have hz7 : Keeps m s0 z7 := by
          have q : _ = z7 := congrArg Prod.fst e9
          rw [← q]
          refine engArrive_keeps (sub.of (by decide) hm) ?_
          refine State.evtStat_keeps (sub.of (by decide) hm) ?_
          exact h
        dsimp -zeta only
        exact hz7
    · dsimp -zeta only
      refine State.evtStat_keeps (sub.of (by decide) hm) ?_
      exact h

theorem evtToSeam_keeps {a0 : Nat} {s : State} (hm : sub 67108865 m) (h : Keeps m s0 s) :
    Keeps m s0 (evtToSeam a0 s) := by
  unfold evtToSeam
  extract_lets +onlyGivenNames -merge -useContext x0
  try clear_value x0
  split
  · refine State.evtStat_keeps (sub.of (by decide) hm) ?_
    refine keeps_seamEvts (sub.of (by decide) hm) ?_ _
    exact h
  · refine keeps_ite (fun _ => ?_) (fun _ => ?_)
    · refine keeps_seamEvts (sub.of (by decide) hm) ?_ _
      exact h
    · refine State.evtStat_keeps (sub.of (by decide) hm) ?_
      exact h

theorem State.countUp_keeps {s : State} {a1 : Nat} {a2 : Fld} (hm : sub 1 m) (h : Keeps m s0 s) :
    Keeps m s0 (State.countUp s a1 a2) := by
  unfold State.countUp
  refine State.setFld_keeps (sub.of (by decide) hm) ?_
  exact h

theorem raiseOne_keeps {a0 : Nat} {s : State} (hm : sub 201342977 m) (h : Keeps m s0 s) :
    Keeps m s0 (raiseOne a0 s).1 := by
  unfold raiseOne
  extract_lets +onlyGivenNames -merge -useContext x0 x1 x2 x3 x4 x5
  try clear_value x0
  have hx1 : Keeps m s0 x1 := by
    refine State.setReg_keeps (sub.of (by decide) hm) ?_
    exact h
  clear_value x1
  have hx2 : Keeps m s0 x2 := by
    refine State.countUp_keeps (sub.of (by decide) hm) ?_
    exact hx1
  clear_value x2
  try clear_value x3
  have hx4 : Keeps m s0 x4 := by
    refine keeps_ite (fun _ => ?_) (fun _ => ?_)
    · refine keeps_msixPend (sub.of (by decide) hm) ?_ _
      exact hx2
    · exact hx2
  clear_value x4
  have hx5 : Keeps m s0 x5 := by
    refine keeps_ite (fun _ => ?_) (fun _ => ?_)
    · refine evtToSeam_keeps (sub.of (by decide) hm) ?_
      exact hx4
    · exact hx4
  clear_value x5
  refine keeps_ite1 (fun _ => ?_) (fun _ => ?_)
  · refine evtToEngine_keeps (sub.of (by decide) hm) ?_
    exact hx5
  · dsimp -zeta only
    exact hx5

theorem raiseChain_keeps {k e : Nat} {s : State} (hm : sub 201342977 m) (h : Keeps m s0 s) :
    Keeps m s0 (raiseChain k e s) := by
  induction k generalizing e s with
  | zero => exact h
  | succ k ih =>
    unfold raiseChain
    split
    · rename_i z n q
      have hz : Keeps m s0 z := by
        have q' : _ = z := congrArg Prod.fst q
        rw [← q']
        exact raiseOne_keeps (sub.of (by decide) hm) h
      exact ih hz
    · rename_i z q
      have q' : _ = z := congrArg Prod.fst q
      rw [← q']
      exact raiseOne_keeps (sub.of (by decide) hm) h

theorem State.raise_keeps {s : State} {a1 : Nat} (hm : sub 201342977 m) (h : Keeps m s0 s) :
    Keeps m s0 (State.raise s a1) := by
  unfold State.raise
  refine raiseChain_keeps (sub.of (by decide) hm) ?_
  exact h

theorem State.raiseIf_keeps {s : State} {a1 : Bool} {a2 : Nat} (hm : sub 201342977 m) (h : Keeps m s0 s) :
    Keeps m s0 (State.raiseIf s a1 a2) := by
  unfold State.raiseIf
  refine keeps_ite (fun _ => ?_) (fun _ => ?_)
  · refine State.raise_keeps (sub.of (by decide) hm) ?_
    exact h
  · exact h

theorem State.flag_keeps {s : State} {a1 : Nat} {a2 : Fld} {a3 : Bool} {a4 : Nat} (hm : sub 201342977 m) (h : Keeps m s0 s) :
    Keeps m s0 (State.flag s a1 a2 a3 a4) := by
  unfold State.flag
  refine State.raiseIf_keeps (sub.of (by decide) hm) ?_
  refine State.setBit_keeps (sub.of (by decide) hm) ?_
  exact h

theorem State.plainWrite_keeps {s : State} {a1 : Nat} {a2 : Word} (hm : sub 1 m) (h : Keeps m s0 s) :
    Keeps m s0 (State.plainWrite s a1 a2) := by
  unfold State.plainWrite
  split
  · refine State.setReg_keeps (sub.of (by decide) hm) ?_
    exact h
  · exact h

theorem State.takeFree_keeps {s : State} (hm : sub 1073741824 m) (h : Keeps m s0 s) : Keeps m s0 s.takeFree.2 :=
  keeps_free hm h _ (Nat.le_succ _)

theorem State.setReg64_keeps {s : State} {a1 : Nat} {a2 : Nat} (hm : sub 1 m) (h : Keeps m s0 s) :
    Keeps m s0 (State.setReg64 s a1 a2) := by
  unfold State.setReg64
  refine State.setReg_keeps (sub.of (by decide) hm) ?_
  refine State.setReg_keeps (sub.of (by decide) hm) ?_
  exact h

theorem State.logFault_keeps {s : State} {a1 : Nat} {a2 : Nat} {a3 : Nat} {a4 : Nat} {a5 : Nat} {a6 : Nat} (hm : sub 268435456 m) (h : Keeps m s0 s) :
    Keeps m s0 (State.logFault s a1 a2 a3 a4 a5 a6) := by
  unfold State.logFault
  refine keeps_logQ (sub.of (by decide) hm) ?_ _
  exact h

theorem State.setPreg_keeps {s : State} {a1 : Req} {a2 : Nat} {a3 : Word} (hm : sub 2 m) (h : Keeps m s0 s) :
    Keeps m s0 (State.setPreg s a1 a2 a3) := by
  unfold State.setPreg
  extract_lets +onlyGivenNames -merge -useContext x0
  try clear_value x0
  refine keeps_perReq (sub.of (by decide) hm) ?_ _
  exact h

theorem State.give_keeps {s : State} {a1 : Req} {a2 : List Word} (hm : sub 4 m) (h : Keeps m s0 s) :
    Keeps m s0 (State.give s a1 a2) := by
  unfold State.give
  refine keeps_rdata (sub.of (by decide) hm) ?_ _
  exact h

theorem State.putBit_keeps {s : State} {a1 : Nat} {a2 : Fld} {a3 : Bool} (hm : sub 1 m) (h : Keeps m s0 s) :
    Keeps m s0 (State.putBit s a1 a2 a3) := by
  unfold State.putBit
  refine State.setFld_keeps (sub.of (by decide) hm) ?_
  exact h

theorem State.clrBit_keeps {s : State} {a1 : Nat} {a2 : Fld} (hm : sub 1 m) (h : Keeps m s0 s) :
    Keeps m s0 (State.clrBit s a1 a2) := by
  unfold State.clrBit
  refine State.setFld_keeps (sub.of (by decide) hm) ?_
  exact h

theorem State.logPoint_keeps {s : State} {a1 : Nat} {a2 : Nat} {a3 : Nat} {a4 : Nat} (hm : sub 268435456 m) (h : Keeps m s0 s) :
    Keeps m s0 (State.logPoint s a1 a2 a3 a4) := by
  unfold State.logPoint
  refine State.logFault_keeps (sub.of (by decide) hm) ?_
  exact h

theorem State.setAsks_keeps {s : State} {a1 : Asks} (hm : sub 536870912 m) (h : Keeps m s0 s) :
    Keeps m s0 (State.setAsks s a1) := by
  unfold State.setAsks
  refine keeps_asks (sub.of (by decide) hm) ?_ _
  exact h

theorem askArm_keeps {a0 : Asker} {a1 : Nat} {a2 : Arm} {s : State} (hm : sub 536870912 m) (h : Keeps m s0 s) :
    Keeps m s0 (askArm a0 a1 a2 s) := by
  unfold askArm
  extract_lets +onlyGivenNames -merge -useContext x0
  try clear_value x0
  refine State.setAsks_keeps (sub.of (by decide) hm) ?_
  exact h

theorem askPost_keeps {a0 : Asker} {a1 : Nat} {a2 : List Word} {s : State} (hm : sub 536870912 m) (h : Keeps m s0 s) :
    Keeps m s0 (askPost a0 a1 a2 s) := by
  unfold askPost
  extract_lets +onlyGivenNames -merge -useContext x0
  try clear_value x0
  refine State.setAsks_keeps (sub.of (by decide) hm) ?_
  exact h

theorem askRead_keeps {a0 : HostRead} {s : State} (hm : sub 536870912 m) (h : Keeps m s0 s) :
    Keeps m s0 (askRead a0 s) := by
  unfold askRead
  extract_lets +onlyGivenNames -merge -useContext x0
  try clear_value x0
  refine State.setAsks_keeps (sub.of (by decide) hm) ?_
  exact h

theorem State.storeWords_keeps {s : State} {a1 : Nat} {a2 : List Word} (hm : sub 8 m) (h : Keeps m s0 s) :
    Keeps m s0 (State.storeWords s a1 a2) := by
  unfold State.storeWords
  refine State.store_keeps (sub.of (by decide) hm) ?_
  exact h

end Sys2Proof.Machine
end

