-- ==== Sys2Proof/Laws/Frame/Cue.lean ====
section
/-!
SUPPORT. What the functions of Machine/Cue.lean touch: one lemma each, in the terms of `Keeps`.
-/
namespace Sys2Proof.Machine

variable {m : Nat} {s0 : State}

theorem State.setTarget_keeps {s : State} {a1 : Nat} {a2 : Target} (hm : sub 64 m) (h : Keeps m s0 s) :
    Keeps m s0 (State.setTarget s a1 a2) := by
  unfold State.setTarget
  extract_lets +onlyGivenNames -merge -useContext x0
  try clear_value x0
  refine keeps_cue (sub.of (by decide) hm) ?_ _
  exact h

theorem targetFlag_keeps {a0 : Nat} {a1 : Fld} {s : State} (hm : sub 201342977 m) (h : Keeps m s0 s) :
    Keeps m s0 (targetFlag a0 a1 s) := by
  unfold targetFlag
  split
  · refine State.flag_keeps (sub.of (by decide) hm) ?_
    exact h
  · refine State.setBit_keeps (sub.of (by decide) hm) ?_
    exact h

theorem edgeAtTarget_keeps {a0 : Edge} {a1 : Nat} {s : State} (hm : sub 201343041 m) (h : Keeps m s0 s) :
    Keeps m s0 (edgeAtTarget a0 a1 s) := by
  unfold edgeAtTarget
  extract_lets +onlyGivenNames -merge -useContext x0 x1 x2 x3 x4
  try clear_value x0
  try clear_value x1
  try clear_value x2
  try clear_value x3
  try clear_value x4
  split
  · extract_lets +onlyGivenNames -merge -useContext x5 x6 x7
    try clear_value x5
    try clear_value x6
    try clear_value x7
    refine keeps_ite (fun _ => ?_) (fun _ => ?_)
    · exact h
    · refine keeps_ite (fun _ => ?_) (fun _ => ?_)
      · exact h
      · refine keeps_ite (fun _ => ?_) (fun _ => ?_)
        · refine State.setTarget_keeps (sub.of (by decide) hm) ?_
          exact h
        · split
          · refine targetFlag_keeps (sub.of (by decide) hm) ?_
            exact h
          · refine State.setTarget_keeps (sub.of (by decide) hm) ?_
            exact h

theorem edgeAtTap_keeps {a0 : Edge} {a1 : Nat} {s : State} (hm : sub 64 m) (h : Keeps m s0 s) :
    Keeps m s0 (edgeAtTap a0 a1 s) := by
  unfold edgeAtTap
  extract_lets +onlyGivenNames -merge -useContext x0 x1
  try clear_value x0
  try clear_value x1
  refine keeps_ite (fun _ => ?_) (fun _ => ?_)
  · exact h
  · refine keeps_cue (sub.of (by decide) hm) ?_ _
    exact h

theorem sourceEvent_keeps {a0 : Edge} {s : State} (hm : sub 201343041 m) (h : Keeps m s0 s) :
    Keeps m s0 (sourceEvent a0 s) := by
  unfold sourceEvent
  extract_lets +onlyGivenNames -merge -useContext x0 x1 x2
  try clear_value x0
  try clear_value x1
  have hx2 : Keeps m s0 x2 := by
    refine keeps_foldl (fun x3 y4 hx3 => ?_) _ ?_
    · refine edgeAtTarget_keeps (sub.of (by decide) hm) ?_
      exact hx3
    · exact h
  clear_value x2
  refine keeps_foldl (fun x5 y6 hx5 => ?_) _ ?_
  · refine edgeAtTap_keeps (sub.of (by decide) hm) ?_
    exact hx5
  · exact hx2

theorem setSrcLevel_keeps {a0 : Nat} {a1 : Bool} {s : State} (hm : sub 64 m) (h : Keeps m s0 s) :
    Keeps m s0 (setSrcLevel a0 a1 s) := by
  unfold setSrcLevel
  extract_lets +onlyGivenNames -merge -useContext x0
  try clear_value x0
  refine keeps_cue (sub.of (by decide) hm) ?_ _
  exact h

theorem sourceLevel_keeps {a0 : Nat} {a1 : Bool} {a2 : Nat} {s : State} (hm : sub 201343041 m) (h : Keeps m s0 s) :
    Keeps m s0 (sourceLevel a0 a1 a2 s) := by
  unfold sourceLevel
  refine keeps_ite (fun _ => ?_) (fun _ => ?_)
  · exact h
  · refine sourceEvent_keeps (sub.of (by decide) hm) ?_
    refine setSrcLevel_keeps (sub.of (by decide) hm) ?_
    exact h

theorem readClear_keeps {a0 : Nat} {a1 : Fld} {s : State} (hm : sub 1 m) (h : Keeps m s0 s) :
    Keeps m s0 (readClear a0 a1 s).2 := by
  unfold readClear
  dsimp -zeta only
  refine State.setFld_keeps (sub.of (by decide) hm) ?_
  exact h

theorem State.setCap_keeps {s : State} {a1 : Nat} {a2 : List CapRec} (hm : sub 64 m) (h : Keeps m s0 s) :
    Keeps m s0 (State.setCap s a1 a2) := by
  unfold State.setCap
  extract_lets +onlyGivenNames -merge -useContext x0
  try clear_value x0
  refine keeps_cue (sub.of (by decide) hm) ?_ _
  exact h

theorem popCapture_keeps {a0 : Nat} {a1 : Word} {s : State} (hm : sub 64 m) (h : Keeps m s0 s) :
    Keeps m s0 (popCapture a0 a1 s) := by
  unfold popCapture
  refine keeps_ite (fun _ => ?_) (fun _ => ?_)
  · refine State.setCap_keeps (sub.of (by decide) hm) ?_
    exact h
  · exact h

theorem writeArmCtl_keeps {a0 : Nat} {a1 : Word} {s : State} (hm : sub 536870913 m) (h : Keeps m s0 s) :
    Keeps m s0 (writeArmCtl a0 a1 s) := by
  unfold writeArmCtl
  extract_lets +onlyGivenNames -merge -useContext x0 x1
  try clear_value x0
  have hx1 : Keeps m s0 x1 := by
    refine State.plainWrite_keeps (sub.of (by decide) hm) ?_
    exact h
  clear_value x1
  refine keeps_ite (fun _ => ?_) (fun _ => ?_)
  · refine askArm_keeps (sub.of (by decide) hm) ?_
    exact hx1
  · exact hx1

theorem writeFsel_keeps {a0 : Nat} {a1 : Word} {s : State} (hm : sub 1 m) (h : Keeps m s0 s) :
    Keeps m s0 (writeFsel a0 a1 s) := by
  unfold writeFsel
  refine State.plainWrite_keeps (sub.of (by decide) hm) ?_
  exact h

theorem State.setEnc_keeps {s : State} {a1 : Nat} {a2 : Enc} (hm : sub 128 m) (h : Keeps m s0 s) :
    Keeps m s0 (State.setEnc s a1 a2) := by
  unfold State.setEnc
  refine keeps_encs (sub.of (by decide) hm) ?_ _
  exact h

theorem keepOldCfg_keeps {a0 : Nat} {s : State} (hm : sub 64 m) (h : Keeps m s0 s) :
    Keeps m s0 (keepOldCfg a0 s) := by
  unfold keepOldCfg
  extract_lets +onlyGivenNames -merge -useContext x0
  try clear_value x0
  split
  · refine State.setTarget_keeps (sub.of (by decide) hm) ?_
    exact h

theorem writeTsel_keeps {a0 : Nat} {a1 : Word} {s : State} (hm : sub 65 m) (h : Keeps m s0 s) :
    Keeps m s0 (writeTsel a0 a1 s) := by
  unfold writeTsel
  refine State.plainWrite_keeps (sub.of (by decide) hm) ?_
  refine keepOldCfg_keeps (sub.of (by decide) hm) ?_
  exact h

theorem disarmSlot_keeps {a0 : Nat} {a1 : Nat} {s : State} (hm : sub 65 m) (h : Keeps m s0 s) :
    Keeps m s0 (disarmSlot a0 a1 s).2 := by
  unfold disarmSlot
  extract_lets +onlyGivenNames -merge -useContext x0
  try clear_value x0
  split
  · dsimp -zeta only
    exact h
  · refine keeps_ite2 (fun _ => ?_) (fun _ => ?_)
    · dsimp -zeta only
      exact h
    · refine keeps_ite2 (fun _ => ?_) (fun _ => ?_)
      · dsimp -zeta only
        refine State.setTarget_keeps (sub.of (by decide) hm) ?_
        exact h
      · dsimp -zeta only
        refine State.setBit_keeps (sub.of (by decide) hm) ?_
        exact h

theorem disarmMask_keeps {a0 : Nat} {a1 : Nat} {s : State} (hm : sub 65 m) (h : Keeps m s0 s) :
    Keeps m s0 (disarmMask a0 a1 s).2 := by
  unfold disarmMask
  refine keeps_foldl2 (fun x0 y1 hx0 => ?_) _ ?_
  · extract_lets +onlyGivenNames -merge -useContext x2
    have hx2 : Keeps m s0 x2.2 := by
      refine disarmSlot_keeps (sub.of (by decide) hm) ?_
      exact hx0
    clear_value x2
    refine keeps_ite2 (fun _ => ?_) (fun _ => ?_)
    · dsimp -zeta only
      exact hx2
    · exact hx0
  · dsimp -zeta only
    exact h

theorem writeTctl_keeps {a0 : Nat} {a1 : Word} {s : State} (hm : sub 65 m) (h : Keeps m s0 s) :
    Keeps m s0 (writeTctl a0 a1 s) := by
  unfold writeTctl
  extract_lets +onlyGivenNames -merge -useContext x0 x1 x2 x3
  try clear_value x0
  try clear_value x1
  have hx2 : Keeps m s0 x2 := by
    refine State.plainWrite_keeps (sub.of (by decide) hm) ?_
    refine keepOldCfg_keeps (sub.of (by decide) hm) ?_
    exact h
  clear_value x2
  try clear_value x3
  refine keeps_ite (fun _ => ?_) (fun _ => ?_)
  · refine State.setTarget_keeps (sub.of (by decide) hm) ?_
    exact hx2
  · exact hx2

theorem captureRecord_keeps {a0 : Nat} {a1 : Flight} {s : State} (hm : sub 201343041 m) (h : Keeps m s0 s) :
    Keeps m s0 (captureRecord a0 a1 s) := by
  unfold captureRecord
  refine keeps_ite (fun _ => ?_) (fun _ => ?_)
  · refine State.flag_keeps (sub.of (by decide) hm) ?_
    exact h
  · refine State.raiseIf_keeps (sub.of (by decide) hm) ?_
    refine State.setCap_keeps (sub.of (by decide) hm) ?_
    exact h

theorem launchSlot_keeps {a0 : Nat} {a1 : Nat} {a2 : Slot} {s : State} (hm : sub 64 m) (h : Keeps m s0 s) :
    Keeps m s0 (launchSlot a0 a1 a2 s) := by
  unfold launchSlot
  extract_lets +onlyGivenNames -merge -useContext x0 x1
  try clear_value x0
  try clear_value x1
  refine State.setTarget_keeps (sub.of (by decide) hm) ?_
  exact h

theorem fireLate_keeps {a0 : Nat} {a1 : Nat} {a2 : Slot} {s : State} (hm : sub 201343041 m) (h : Keeps m s0 s) :
    Keeps m s0 (fireLate a0 a1 a2 s) := by
  unfold fireLate
  extract_lets +onlyGivenNames -merge -useContext x0 x1
  have hx0 : Keeps m s0 x0 := by
    refine targetFlag_keeps (sub.of (by decide) hm) ?_
    exact h
  clear_value x0
  try clear_value x1
  refine keeps_ite (fun _ => ?_) (fun _ => ?_)
  · refine State.setTarget_keeps (sub.of (by decide) hm) ?_
    exact hx0
  · refine launchSlot_keeps (sub.of (by decide) hm) ?_
    exact hx0

theorem satisfySlot_keeps {a0 : Nat} {a1 : Nat} {s : State} (hm : sub 201343041 m) (h : Keeps m s0 s) :
    Keeps m s0 (satisfySlot a0 a1 s) := by
  unfold satisfySlot
  split
  · refine keeps_ite (fun _ => ?_) (fun _ => ?_)
    · refine launchSlot_keeps (sub.of (by decide) hm) ?_
      exact h
    · refine keeps_ite (fun _ => ?_) (fun _ => ?_)
      · refine fireLate_keeps (sub.of (by decide) hm) ?_
        exact h
      · exact h
  · exact h

theorem tapEffect_keeps {a0 : Nat} {s : State} (hm : sub 64 m) (h : Keeps m s0 s) :
    Keeps m s0 (tapEffect a0 s) := by
  unfold tapEffect
  extract_lets +onlyGivenNames -merge -useContext x0 x1
  try clear_value x0
  try clear_value x1
  refine keeps_ite (fun _ => ?_) (fun _ => ?_)
  · refine keeps_cue (sub.of (by decide) hm) ?_ _
    exact h
  · exact h

theorem armTarget_keeps {a0 : Nat} {a1 : Arm} {s : State} (hm : sub 201343041 m) (h : Keeps m s0 s) :
    Keeps m s0 (armTarget a0 a1 s).2 := by
  unfold armTarget
  extract_lets +onlyGivenNames -merge -useContext x0 x1 x2
  try clear_value x0
  try clear_value x1
  try clear_value x2
  split
  · dsimp -zeta only
    refine targetFlag_keeps (sub.of (by decide) hm) ?_
    exact h
  · refine keeps_ite2 (fun _ => ?_) (fun _ => ?_)
    · dsimp -zeta only
      refine targetFlag_keeps (sub.of (by decide) hm) ?_
      exact h
    · refine keeps_ite2 (fun _ => ?_) (fun _ => ?_)
      · dsimp -zeta only
        refine fireLate_keeps (sub.of (by decide) hm) ?_
        exact h
      · dsimp -zeta only
        refine State.setTarget_keeps (sub.of (by decide) hm) ?_
        exact h

end Sys2Proof.Machine
end

