-- ==== Sys2Proof/Laws/Frame/MemMap.lean ====
section
/-!
SUPPORT. What the functions of Machine/MemMap.lean touch: one lemma each, in the terms of `Keeps`.
-/
namespace Sys2Proof.Machine

variable {m : Nat} {s0 : State}

theorem mntFlag_keeps {a0 : Fld} {a1 : Nat} {s : State} (hm : sub 201342977 m) (h : Keeps m s0 s) :
    Keeps m s0 (mntFlag a0 a1 s) := by
  unfold mntFlag
  refine State.flag_keeps (sub.of (by decide) hm) ?_
  exact h

theorem State.setMemt_keeps {s : State} {a1 : MemTest} (hm : sub 65536 m) (h : Keeps m s0 s) :
    Keeps m s0 (State.setMemt s a1) := by
  unfold State.setMemt
  refine keeps_memt (sub.of (by decide) hm) ?_ _
  exact h

theorem noteMerge_keeps {a0 : Nat} {a1 : Nat} {a2 : Nat} {s : State} (hm : sub 65536 m) (h : Keeps m s0 s) :
    Keeps m s0 (noteMerge a0 a1 a2 s) := by
  unfold noteMerge
  extract_lets +onlyGivenNames -merge -useContext x0
  try clear_value x0
  refine State.setMemt_keeps (sub.of (by decide) hm) ?_
  exact h

theorem State.setTester_keeps {s : State} {a1 : Nat} {a2 : Tester} (hm : sub 65536 m) (h : Keeps m s0 s) :
    Keeps m s0 (State.setTester s a1 a2) := by
  unfold State.setTester
  extract_lets +onlyGivenNames -merge -useContext x0
  try clear_value x0
  refine State.setMemt_keeps (sub.of (by decide) hm) ?_
  exact h

theorem touchWord_keeps {a0 : Nat} {s : State} (hm : sub 65536 m) (h : Keeps m s0 s) :
    Keeps m s0 (touchWord a0 s) := by
  unfold touchWord
  split
  · exact h
  · extract_lets +onlyGivenNames -merge -useContext x0
    try clear_value x0
    refine keeps_ite (fun _ => ?_) (fun _ => ?_)
    · refine State.setTester_keeps (sub.of (by decide) hm) ?_
      exact h
    · exact h

theorem touchRow_keeps {a0 : Nat} {a1 : Nat} {s : State} (hm : sub 65536 m) (h : Keeps m s0 s) :
    Keeps m s0 (touchRow a0 a1 s) := by
  unfold touchRow
  refine keeps_foldl (fun x0 y1 hx0 => ?_) _ ?_
  · refine touchWord_keeps (sub.of (by decide) hm) ?_
    exact hx0
  · exact h

theorem setPoison_keeps {a0 : Nat} {a1 : Bool} {s : State} (hm : sub 16 m) (h : Keeps m s0 s) :
    Keeps m s0 (setPoison a0 a1 s) := by
  unfold setPoison
  refine keeps_poison (sub.of (by decide) hm) ?_ _
  exact h

theorem clearPoison_keeps {a0 : Nat} {a1 : Nat} {s : State} (hm : sub 16 m) (h : Keeps m s0 s) :
    Keeps m s0 (clearPoison a0 a1 s) := by
  unfold clearPoison
  refine keeps_foldl (fun x0 y1 hx0 => ?_) _ ?_
  · extract_lets +onlyGivenNames -merge -useContext x2
    try clear_value x2
    refine keeps_ite (fun _ => ?_) (fun _ => ?_)
    · refine setPoison_keeps (sub.of (by decide) hm) ?_
      exact hx0
    · exact hx0
  · exact h

theorem State.put_keeps {s : State} {a1 : Nat} {a2 : List Byte} (hm : sub 65560 m) (h : Keeps m s0 s) :
    Keeps m s0 (State.put s a1 a2) := by
  unfold State.put
  extract_lets +onlyGivenNames -merge -useContext x0
  have hx0 : Keeps m s0 x0 := by
    refine keeps_ite (fun _ => ?_) (fun _ => ?_)
    · refine noteMerge_keeps (sub.of (by decide) hm) ?_
      refine touchRow_keeps (sub.of (by decide) hm) ?_
      exact h
    · exact h
  clear_value x0
  refine State.store_keeps (sub.of (by decide) hm) ?_
  refine clearPoison_keeps (sub.of (by decide) hm) ?_
  exact hx0

theorem State.putWords_keeps {s : State} {a1 : Nat} {a2 : List Word} (hm : sub 65560 m) (h : Keeps m s0 s) :
    Keeps m s0 (State.putWords s a1 a2) := by
  unfold State.putWords
  refine State.put_keeps (sub.of (by decide) hm) ?_
  exact h

theorem csFlag_keeps {a0 : Nat} {a1 : Fld} {s : State} (hm : sub 201342977 m) (h : Keeps m s0 s) :
    Keeps m s0 (csFlag a0 a1 s) := by
  unfold csFlag
  refine State.flag_keeps (sub.of (by decide) hm) ?_
  exact h

theorem noteFence_keeps {a0 : Accessor} {a1 : Bool} {a2 : Nat} {a3 : Nat} {s : State} (hm : sub 201342977 m) (h : Keeps m s0 s) :
    Keeps m s0 (noteFence a0 a1 a2 a3 s) := by
  unfold noteFence
  refine keeps_ite (fun _ => ?_) (fun _ => ?_)
  · exact h
  · refine mntFlag_keeps (sub.of (by decide) hm) ?_
    exact h

theorem noteAsleep_keeps {a0 : Nat} {s : State} (hm : sub 201342977 m) (h : Keeps m s0 s) :
    Keeps m s0 (noteAsleep a0 s) := by
  unfold noteAsleep
  split
  · refine csFlag_keeps (sub.of (by decide) hm) ?_
    exact h
  · exact h

theorem noteCollide_keeps {a0 : Nat} {a1 : Nat} {a2 : Nat} {a3 : Nat} {s : State} (hm : sub 201342977 m) (h : Keeps m s0 s) :
    Keeps m s0 (noteCollide a0 a1 a2 a3 s) := by
  unfold noteCollide
  extract_lets +onlyGivenNames -merge -useContext x0 x1 x2
  try clear_value x0
  try clear_value x1
  have hx2 : Keeps m s0 x2 := by
    refine State.setReg_keeps (sub.of (by decide) hm) ?_
    refine State.setReg64_keeps (sub.of (by decide) hm) ?_
    exact h
  clear_value x2
  refine csFlag_keeps (sub.of (by decide) hm) ?_
  exact hx2

theorem undoWrite_keeps {a0 : PortWrite} {s : State} (hm : sub 24 m) (h : Keeps m s0 s) :
    Keeps m s0 (undoWrite a0 s) := by
  unfold undoWrite
  refine keeps_foldl (fun x0 y1 hx0 => ?_) _ ?_
  · refine setPoison_keeps (sub.of (by decide) hm) ?_
    exact hx0
  · refine State.store_keeps (sub.of (by decide) hm) ?_
    exact h

theorem logWrite_keeps {a0 : Bool} {a1 : Nat} {a2 : Nat} {a3 : List Byte} {s : State} (hm : sub 65536 m) (h : Keeps m s0 s) :
    Keeps m s0 (logWrite a0 a1 a2 a3 s) := by
  unfold logWrite
  extract_lets +onlyGivenNames -merge -useContext x0
  try clear_value x0
  refine keeps_memt (sub.of (by decide) hm) ?_ _
  exact h

theorem grantWrite_keeps {a0 : Nat} {a1 : Bool} {a2 : Nat} {a3 : Nat} {a4 : List Byte} {s : State} (hm : sub 201408537 m) (h : Keeps m s0 s) :
    Keeps m s0 (grantWrite a0 a1 a2 a3 a4 s) := by
  unfold grantWrite
  split
  · refine State.put_keeps (sub.of (by decide) hm) ?_
    refine logWrite_keeps (sub.of (by decide) hm) ?_
    exact h
  · extract_lets +onlyGivenNames -merge -useContext x0
    have hx0 : Keeps m s0 x0 := by
      refine State.put_keeps (sub.of (by decide) hm) ?_
      refine logWrite_keeps (sub.of (by decide) hm) ?_
      refine undoWrite_keeps (sub.of (by decide) hm) ?_
      exact h
    clear_value x0
    refine keeps_ite (fun _ => ?_) (fun _ => ?_)
    · split
      · exact hx0
      · refine noteCollide_keeps (sub.of (by decide) hm) ?_
        exact hx0
    · split
      · exact h
      · refine noteCollide_keeps (sub.of (by decide) hm) ?_
        exact h

theorem storeWrite_keeps {a0 : Nat} {a1 : Bool} {a2 : Nat} {a3 : Nat} {a4 : List Byte} {s : State} (hm : sub 201408537 m) (h : Keeps m s0 s) :
    Keeps m s0 (storeWrite a0 a1 a2 a3 a4 s) := by
  unfold storeWrite
  extract_lets +onlyGivenNames -merge -useContext x0
  try clear_value x0
  refine keeps_ite (fun _ => ?_) (fun _ => ?_)
  · refine State.setMemt_keeps (sub.of (by decide) hm) ?_
    exact h
  · refine grantWrite_keeps (sub.of (by decide) hm) ?_
    exact h

theorem State.hwPut_keeps {s : State} {a1 : Nat} {a2 : Nat} {a3 : Nat} {a4 : List Word} (hm : sub 201408537 m) (h : Keeps m s0 s) :
    Keeps m s0 (State.hwPut s a1 a2 a3 a4) := by
  unfold State.hwPut
  refine keeps_ite (fun _ => ?_) (fun _ => ?_)
  · split
    · refine storeWrite_keeps (sub.of (by decide) hm) ?_
      exact h
    · refine csFlag_keeps (sub.of (by decide) hm) ?_
      exact h
    · refine keeps_ite (fun _ => ?_) (fun _ => ?_)
      · exact h
      · refine State.putWords_keeps (sub.of (by decide) hm) ?_
        refine noteMerge_keeps (sub.of (by decide) hm) ?_
        exact h
    · exact h
  · refine noteFence_keeps (sub.of (by decide) hm) ?_
    exact h

end Sys2Proof.Machine
end

