-- ==== Sys2Proof/Laws/Frame/Ledger.lean ====
section
/-!
SUPPORT. What the functions of Machine/Ledger.lean touch: one lemma each, in the terms of `Keeps`.
-/
namespace Sys2Proof.Machine

variable {m : Nat} {s0 : State}

theorem State.setHead_keeps {s : State} {a1 : Nat} {a2 : Head} (hm : sub 4096 m) (h : Keeps m s0 s) :
    Keeps m s0 (State.setHead s a1 a2) := by
  unfold State.setHead
  refine keeps_heads (sub.of (by decide) hm) ?_ _
  exact h

theorem State.setRecs_keeps {s : State} {a1 : List PRec} (hm : sub 8192 m) (h : Keeps m s0 s) :
    Keeps m s0 (State.setRecs s a1) := by
  unfold State.setRecs
  extract_lets +onlyGivenNames -merge -useContext x0
  try clear_value x0
  refine keeps_ledger (sub.of (by decide) hm) ?_ _
  exact h

theorem updRec_keeps {a0 : Nat} {a1 : PRec → PRec} {s : State} (hm : sub 8192 m) (h : Keeps m s0 s) :
    Keeps m s0 (updRec a0 a1 s) := by
  unfold updRec
  refine State.setRecs_keeps (sub.of (by decide) hm) ?_
  exact h

theorem plFlag_keeps {a0 : Fld} {s : State} (hm : sub 201342977 m) (h : Keeps m s0 s) :
    Keeps m s0 (plFlag a0 s) := by
  unfold plFlag
  refine State.flag_keeps (sub.of (by decide) hm) ?_
  exact h

theorem markRec_keeps {a0 : Nat} {a1 : PRec} {s : State} (hm : sub 469786625 m) (h : Keeps m s0 s) :
    Keeps m s0 (markRec a0 a1 s) := by
  unfold markRec
  refine keeps_ite (fun _ => ?_) (fun _ => ?_)
  · refine updRec_keeps (sub.of (by decide) hm) ?_
    exact h
  · refine plFlag_keeps (sub.of (by decide) hm) ?_
    refine State.logPoint_keeps (sub.of (by decide) hm) ?_
    exact h

theorem headFlag_keeps {a0 : Nat} {a1 : Fld} {s : State} (hm : sub 201342977 m) (h : Keeps m s0 s) :
    Keeps m s0 (headFlag a0 a1 s) := by
  unfold headFlag
  refine State.flag_keeps (sub.of (by decide) hm) ?_
  exact h

theorem portMark_keeps {a0 : Nat} {a1 : Nat} {a2 : Nat} {s : State} (hm : sub 469786625 m) (h : Keeps m s0 s) :
    Keeps m s0 (portMark a0 a1 a2 s) := by
  unfold portMark
  split
  · refine markRec_keeps (sub.of (by decide) hm) ?_
    exact h
  · refine headFlag_keeps (sub.of (by decide) hm) ?_
    refine State.logPoint_keeps (sub.of (by decide) hm) ?_
    exact h

theorem markTags_keeps {a0 : Nat} {a1 : Nat} {a2 : List Nat} {s : State} (hm : sub 469786625 m) (h : Keeps m s0 s) :
    Keeps m s0 (markTags a0 a1 a2 s) := by
  unfold markTags
  refine keeps_foldl (fun x0 y1 hx0 => ?_) _ ?_
  · refine portMark_keeps (sub.of (by decide) hm) ?_
    exact hx0
  · exact h

theorem openSpanFor_keeps {a0 : Nat} {a1 : Nat} {a2 : Nat} {a3 : Nat} {a4 : Option Nat} {s : State} (hm : sub 469790721 m) (h : Keeps m s0 s) :
    Keeps m s0 (openSpanFor a0 a1 a2 a3 a4 s) := by
  unfold openSpanFor
  extract_lets +onlyGivenNames -merge -useContext x0 x1
  try clear_value x0
  try clear_value x1
  refine markTags_keeps (sub.of (by decide) hm) ?_
  refine State.setHead_keeps (sub.of (by decide) hm) ?_
  exact h

theorem openSpan_keeps {a0 : Nat} {a1 : Nat} {a2 : Nat} {s : State} (hm : sub 469790721 m) (h : Keeps m s0 s) :
    Keeps m s0 (openSpan a0 a1 a2 s) := by
  unfold openSpan
  refine openSpanFor_keeps (sub.of (by decide) hm) ?_
  exact h

theorem criticalMapCheck_keeps {a0 : Nat} {a1 : Nat} {a2 : Nat} {s : State} (hm : sub 469786625 m) (h : Keeps m s0 s) :
    Keeps m s0 (criticalMapCheck a0 a1 a2 s) := by
  unfold criticalMapCheck
  refine keeps_foldl (fun x0 y1 hx0 => ?_) _ ?_
  · refine keeps_ite (fun _ => ?_) (fun _ => ?_)
    · refine keeps_ite (fun _ => ?_) (fun _ => ?_)
      · refine portMark_keeps (sub.of (by decide) hm) ?_
        exact hx0
      · refine keeps_ite (fun _ => ?_) (fun _ => ?_)
        · refine portMark_keeps (sub.of (by decide) hm) ?_
          exact hx0
        · exact hx0
    · exact hx0
  · exact h

theorem notePast_keeps {a0 : Nat} {a1 : Nat} {s : State} (hm : sub 4096 m) (h : Keeps m s0 s) :
    Keeps m s0 (notePast a0 a1 s) := by
  unfold notePast
  extract_lets +onlyGivenNames -merge -useContext x0
  try clear_value x0
  refine keeps_ite (fun _ => ?_) (fun _ => ?_)
  · refine State.setHead_keeps (sub.of (by decide) hm) ?_
    exact h
  · exact h

theorem pointReport_keeps {a0 : Nat} {a1 : Nat} {s : State} (hm : sub 469790721 m) (h : Keeps m s0 s) :
    Keeps m s0 (pointReport a0 a1 s) := by
  unfold pointReport
  extract_lets +onlyGivenNames -merge -useContext x0 x1
  try clear_value x0
  have hx1 : Keeps m s0 x1 := by
    refine notePast_keeps (sub.of (by decide) hm) ?_
    exact h
  clear_value x1
  refine keeps_ite (fun _ => ?_) (fun _ => ?_)
  · refine State.logPoint_keeps (sub.of (by decide) hm) ?_
    exact hx1
  · refine markTags_keeps (sub.of (by decide) hm) ?_
    exact hx1

theorem endSpans_keeps {a0 : Nat} {a1 : HSpan → Bool} {s : State} (hm : sub 268439552 m) (h : Keeps m s0 s) :
    Keeps m s0 (endSpans a0 a1 s) := by
  unfold endSpans
  extract_lets +onlyGivenNames -merge -useContext x0 x1 x2 x3 x4
  try clear_value x0
  try clear_value x1
  have hx2 : Keeps m s0 x2 := by
    refine keeps_foldl (fun x5 y6 hx5 => ?_) _ ?_
    · refine notePast_keeps (sub.of (by decide) hm) ?_
      exact hx5
    · exact h
  clear_value x2
  try clear_value x3
  have hx4 : Keeps m s0 x4 := by
    refine State.setHead_keeps (sub.of (by decide) hm) ?_
    exact hx2
  clear_value x4
  refine keeps_foldl (fun x7 y8 hx7 => ?_) _ ?_
  · refine State.logFault_keeps (sub.of (by decide) hm) ?_
    exact hx7
  · exact hx4

theorem closeSpan_keeps {a0 : Nat} {a1 : Nat} {s : State} (hm : sub 268439552 m) (h : Keeps m s0 s) :
    Keeps m s0 (closeSpan a0 a1 s) := by
  unfold closeSpan
  refine endSpans_keeps (sub.of (by decide) hm) ?_
  exact h

theorem ledgerMark_keeps {a0 : Nat} {a1 : Nat} {s : State} (hm : sub 469786625 m) (h : Keeps m s0 s) :
    Keeps m s0 (ledgerMark a0 a1 s) := by
  unfold ledgerMark
  split
  · refine markRec_keeps (sub.of (by decide) hm) ?_
    exact h
  · refine State.logPoint_keeps (sub.of (by decide) hm) ?_
    exact h

theorem jobMissed_keeps {a0 : Nat} {a1 : Bool} {s : State} (hm : sub 469786625 m) (h : Keeps m s0 s) :
    Keeps m s0 (jobMissed a0 a1 s) := by
  unfold jobMissed
  refine ledgerMark_keeps (sub.of (by decide) hm) ?_
  refine updRec_keeps (sub.of (by decide) hm) ?_
  exact h

theorem writeCapCtl_keeps {a0 : Nat} {a1 : Word} {s : State} (hm : sub 201342977 m) (h : Keeps m s0 s) :
    Keeps m s0 (writeCapCtl a0 a1 s) := by
  unfold writeCapCtl
  refine keeps_ite (fun _ => ?_) (fun _ => ?_)
  · refine plFlag_keeps (sub.of (by decide) hm) ?_
    exact h
  · refine State.plainWrite_keeps (sub.of (by decide) hm) ?_
    exact h

theorem plCommand_keeps {a0 : Req} {a1 : Nat} {s : State} (hm : sub 469786627 m) (h : Keeps m s0 s) :
    Keeps m s0 (plCommand a0 a1 s) := by
  unfold plCommand
  extract_lets +onlyGivenNames -merge -useContext x0
  try clear_value x0
  split
  · refine keeps_ite (fun _ => ?_) (fun _ => ?_)
    · refine State.setPreg_keeps (sub.of (by decide) hm) ?_
      refine State.setPreg_keeps (sub.of (by decide) hm) ?_
      exact h
    · exact h
  · refine keeps_ite (fun _ => ?_) (fun _ => ?_)
    · refine markRec_keeps (sub.of (by decide) hm) ?_
      exact h
    · refine keeps_ite (fun _ => ?_) (fun _ => ?_)
      · refine markRec_keeps (sub.of (by decide) hm) ?_
        exact h
      · refine keeps_ite (fun _ => ?_) (fun _ => ?_)
        · refine updRec_keeps (sub.of (by decide) hm) ?_
          exact h
        · refine keeps_ite (fun _ => ?_) (fun _ => ?_)
          · refine State.setPreg_keeps (sub.of (by decide) hm) ?_
            refine State.setPreg_keeps (sub.of (by decide) hm) ?_
            exact h
          · exact h

theorem writePlGuarded_keeps {a0 : Nat} {a1 : Word} {s : State} (hm : sub 201342977 m) (h : Keeps m s0 s) :
    Keeps m s0 (writePlGuarded a0 a1 s) := by
  unfold writePlGuarded
  extract_lets +onlyGivenNames -merge -useContext x0
  try clear_value x0
  refine keeps_ite (fun _ => ?_) (fun _ => ?_)
  · refine plFlag_keeps (sub.of (by decide) hm) ?_
    exact h
  · refine State.plainWrite_keeps (sub.of (by decide) hm) ?_
    exact h

theorem writePlCtl_keeps {a0 : Word} {s : State} (hm : sub 201342977 m) (h : Keeps m s0 s) :
    Keeps m s0 (writePlCtl a0 s) := by
  unfold writePlCtl
  extract_lets +onlyGivenNames -merge -useContext x0 x1 x2
  try clear_value x0
  have hx1 : Keeps m s0 x1 := by
    refine keeps_ite (fun _ => ?_) (fun _ => ?_)
    · refine plFlag_keeps (sub.of (by decide) hm) ?_
      exact h
    · exact h
  clear_value x1
  have hx2 : Keeps m s0 x2 := by
    refine State.plainWrite_keeps (sub.of (by decide) hm) ?_
    exact h
  clear_value x2
  refine keeps_ite (fun _ => ?_) (fun _ => ?_)
  · refine keeps_ite (fun _ => ?_) (fun _ => ?_)
    · exact hx1
    · refine State.clrBit_keeps (sub.of (by decide) hm) ?_
      exact hx1
  · refine keeps_ite (fun _ => ?_) (fun _ => ?_)
    · refine plFlag_keeps (sub.of (by decide) hm) ?_
      refine State.clrBit_keeps (sub.of (by decide) hm) ?_
      exact hx2
    · exact hx2

theorem writePlRd_keeps {a0 : Word} {s : State} (hm : sub 1 m) (h : Keeps m s0 s) :
    Keeps m s0 (writePlRd a0 s) := by
  unfold writePlRd
  refine keeps_ite (fun _ => ?_) (fun _ => ?_)
  · refine State.setReg_keeps (sub.of (by decide) hm) ?_
    exact h
  · exact h

theorem notice_keeps {a0 : List Word} {a1 : Nat} {s : State} (hm : sub 201408537 m) (h : Keeps m s0 s) :
    Keeps m s0 (notice a0 a1 s) := by
  unfold notice
  extract_lets +onlyGivenNames -merge -useContext x0 x1
  try clear_value x0
  try clear_value x1
  refine keeps_ite (fun _ => ?_) (fun _ => ?_)
  · refine plFlag_keeps (sub.of (by decide) hm) ?_
    exact h
  · refine State.raise_keeps (sub.of (by decide) hm) ?_
    refine State.setReg_keeps (sub.of (by decide) hm) ?_
    refine State.hwPut_keeps (sub.of (by decide) hm) ?_
    exact h

theorem State.setRejects_keeps {s : State} {a1 : List PReject} (hm : sub 8192 m) (h : Keeps m s0 s) :
    Keeps m s0 (State.setRejects s a1) := by
  unfold State.setRejects
  extract_lets +onlyGivenNames -merge -useContext x0
  try clear_value x0
  refine keeps_ledger (sub.of (by decide) hm) ?_ _
  exact h

theorem addReject_keeps {a0 : Nat} {a1 : Nat} {s : State} (hm : sub 201351169 m) (h : Keeps m s0 s) :
    Keeps m s0 (addReject a0 a1 s) := by
  unfold addReject
  refine keeps_ite (fun _ => ?_) (fun _ => ?_)
  · refine plFlag_keeps (sub.of (by decide) hm) ?_
    exact h
  · refine State.setRejects_keeps (sub.of (by decide) hm) ?_
    exact h

theorem productDetect_keeps {a0 : CapRec} {s : State} (hm : sub 201416729 m) (h : Keeps m s0 s) :
    Keeps m s0 (productDetect a0 s) := by
  unfold productDetect
  extract_lets +onlyGivenNames -merge -useContext x0 x1 x2 x3 x4
  try clear_value x0
  have hx1 : Keeps m s0 x1 := by
    refine State.setReg_keeps (sub.of (by decide) hm) ?_
    exact h
  clear_value x1
  have hx2 : Keeps m s0 x2 := by
    refine notice_keeps (sub.of (by decide) hm) ?_
    exact hx1
  clear_value x2
  have hx3 : Keeps m s0 x3 := by
    refine notice_keeps (sub.of (by decide) hm) ?_
    exact hx2
  clear_value x3
  try clear_value x4
  refine keeps_ite (fun _ => ?_) (fun _ => ?_)
  · refine addReject_keeps (sub.of (by decide) hm) ?_
    refine plFlag_keeps (sub.of (by decide) hm) ?_
    exact hx3
  · refine notice_keeps (sub.of (by decide) hm) ?_
    refine State.setRecs_keeps (sub.of (by decide) hm) ?_
    exact hx1

theorem openTag_keeps {a0 : Nat} {a1 : Nat} {s : State} (hm : sub 469790721 m) (h : Keeps m s0 s) :
    Keeps m s0 (openTag a0 a1 s) := by
  unfold openTag
  extract_lets +onlyGivenNames -merge -useContext x0 x1 x2
  try clear_value x0
  try clear_value x1
  have hx2 : Keeps m s0 x2 := by
    refine State.setHead_keeps (sub.of (by decide) hm) ?_
    exact h
  clear_value x2
  refine keeps_foldl (fun x3 y4 hx3 => ?_) _ ?_
  · refine portMark_keeps (sub.of (by decide) hm) ?_
    exact hx3
  · exact hx2

theorem resumeTag_keeps {a0 : Nat} {a1 : Nat} {a2 : Nat} {s : State} (hm : sub 469790721 m) (h : Keeps m s0 s) :
    Keeps m s0 (resumeTag a0 a1 a2 s) := by
  unfold resumeTag
  extract_lets +onlyGivenNames -merge -useContext x0 x1 x2
  try clear_value x0
  try clear_value x1
  have hx2 : Keeps m s0 x2 := by
    refine State.setHead_keeps (sub.of (by decide) hm) ?_
    exact h
  clear_value x2
  refine keeps_foldl (fun x3 y4 hx3 => ?_) _ ?_
  · refine portMark_keeps (sub.of (by decide) hm) ?_
    exact hx3
  · exact hx2

theorem fireTag_keeps {a0 : Nat} {a1 : Nat} {s : State} (hm : sub 469790721 m) (h : Keeps m s0 s) :
    Keeps m s0 (fireTag a0 a1 s) := by
  unfold fireTag
  split
  · refine openTag_keeps (sub.of (by decide) hm) ?_
    exact h
  · split
    · exact h
    · refine resumeTag_keeps (sub.of (by decide) hm) ?_
      exact h

theorem expireSet_keeps {a0 : Nat} {a1 : Nat} {s : State} (hm : sub 469790721 m) (h : Keeps m s0 s) :
    Keeps m s0 (expireSet a0 a1 s) := by
  unfold expireSet
  split
  · exact h
  · extract_lets +onlyGivenNames -merge -useContext x0 x1
    have hx0 : Keeps m s0 x0 := by
      refine keeps_ite (fun _ => ?_) (fun _ => ?_)
      · refine portMark_keeps (sub.of (by decide) hm) ?_
        exact h
      · exact h
    clear_value x0
    try clear_value x1
    refine State.setHead_keeps (sub.of (by decide) hm) ?_
    exact hx0

theorem jobRetried_keeps {a0 : Nat} {s : State} (hm : sub 469786625 m) (h : Keeps m s0 s) :
    Keeps m s0 (jobRetried a0 s) := by
  unfold jobRetried
  refine ledgerMark_keeps (sub.of (by decide) hm) ?_
  refine updRec_keeps (sub.of (by decide) hm) ?_
  exact h

theorem dropReject_keeps {a0 : Nat} {s : State} (hm : sub 8192 m) (h : Keeps m s0 s) :
    Keeps m s0 (dropReject a0 s) := by
  unfold dropReject
  refine State.setRejects_keeps (sub.of (by decide) hm) ?_
  exact h

theorem rejectAnswer_keeps {a0 : Nat} {a1 : Nat} {s : State} (hm : sub 201351169 m) (h : Keeps m s0 s) :
    Keeps m s0 (rejectAnswer a0 a1 s) := by
  unfold rejectAnswer
  refine keeps_ite (fun _ => ?_) (fun _ => ?_)
  · exact h
  · refine keeps_ite (fun _ => ?_) (fun _ => ?_)
    · refine dropReject_keeps (sub.of (by decide) hm) ?_
      exact h
    · refine dropReject_keeps (sub.of (by decide) hm) ?_
      refine plFlag_keeps (sub.of (by decide) hm) ?_
      exact h

theorem markAllOpen_keeps {a0 : Nat} {s : State} (hm : sub 8192 m) (h : Keeps m s0 s) :
    Keeps m s0 (markAllOpen a0 s) := by
  unfold markAllOpen
  refine State.setRecs_keeps (sub.of (by decide) hm) ?_
  exact h

theorem fixVerdict_keeps {a0 : PRec} {s : State} (hm : sub 201416729 m) (h : Keeps m s0 s) :
    Keeps m s0 (fixVerdict a0 s) := by
  unfold fixVerdict
  extract_lets +onlyGivenNames -merge -useContext x0 x1 x2
  try clear_value x0
  have hx1 : Keeps m s0 x1 := by
    refine updRec_keeps (sub.of (by decide) hm) ?_
    exact h
  clear_value x1
  have hx2 : Keeps m s0 x2 := by
    refine keeps_ite (fun _ => ?_) (fun _ => ?_)
    · refine notice_keeps (sub.of (by decide) hm) ?_
      exact hx1
    · exact hx1
  clear_value x2
  refine keeps_ite (fun _ => ?_) (fun _ => ?_)
  · exact hx2
  · refine addReject_keeps (sub.of (by decide) hm) ?_
    exact hx2

theorem recordFree_keeps {a0 : Nat} {s : State} (hm : sub 201416729 m) (h : Keeps m s0 s) :
    Keeps m s0 (recordFree a0 s) := by
  unfold recordFree
  split
  · exact h
  · extract_lets +onlyGivenNames -merge -useContext x0
    have hx0 : Keeps m s0 x0 := by
      refine keeps_ite (fun _ => ?_) (fun _ => ?_)
      · refine fixVerdict_keeps (sub.of (by decide) hm) ?_
        exact h
      · exact h
    clear_value x0
    refine keeps_ite (fun _ => ?_) (fun _ => ?_)
    · refine State.setRecs_keeps (sub.of (by decide) hm) ?_
      exact hx0
    · exact h

theorem closeNow_keeps {a0 : PRec} {s : State} (hm : sub 469790721 m) (h : Keeps m s0 s) :
    Keeps m s0 (closeNow a0 s) := by
  unfold closeNow
  extract_lets +onlyGivenNames -merge -useContext x0 x1
  have hx0 : Keeps m s0 x0 := by
    refine updRec_keeps (sub.of (by decide) hm) ?_
    exact h
  clear_value x0
  have hx1 : Keeps m s0 x1 := by
    refine keeps_ite (fun _ => ?_) (fun _ => ?_)
    · refine ledgerMark_keeps (sub.of (by decide) hm) ?_
      exact hx0
    · exact hx0
  clear_value x1
  refine keeps_foldl (fun x2 y3 hx2 => ?_) _ ?_
  · refine expireSet_keeps (sub.of (by decide) hm) ?_
    exact hx2
  · exact hx1

theorem recordClose_keeps {a0 : Nat} {s : State} (hm : sub 469856281 m) (h : Keeps m s0 s) :
    Keeps m s0 (recordClose a0 s) := by
  unfold recordClose
  split
  · exact h
  · refine keeps_ite (fun _ => ?_) (fun _ => ?_)
    · refine keeps_ite (fun _ => ?_) (fun _ => ?_)
      · refine closeNow_keeps (sub.of (by decide) hm) ?_
        exact h
      · exact h
    · refine keeps_ite (fun _ => ?_) (fun _ => ?_)
      · refine fixVerdict_keeps (sub.of (by decide) hm) ?_
        exact h
      · exact h

theorem rejectAgain_keeps {a0 : Nat} {a1 : Nat} {s : State} (hm : sub 8192 m) (h : Keeps m s0 s) :
    Keeps m s0 (rejectAgain a0 a1 s) := by
  unfold rejectAgain
  refine State.setRejects_keeps (sub.of (by decide) hm) ?_
  exact h

theorem requestReject_keeps {a0 : PReject} {s : State} (hm : sub 536879104 m) (h : Keeps m s0 s) :
    Keeps m s0 (requestReject a0 s) := by
  unfold requestReject
  split
  · refine rejectAgain_keeps (sub.of (by decide) hm) ?_
    refine askArm_keeps (sub.of (by decide) hm) ?_
    exact h

theorem rejectRetry_keeps {a0 : Nat} {s : State} (hm : sub 738222081 m) (h : Keeps m s0 s) :
    Keeps m s0 (rejectRetry a0 s) := by
  unfold rejectRetry
  split
  · split
    · refine keeps_ite (fun _ => ?_) (fun _ => ?_)
      · exact h
      · refine keeps_ite (fun _ => ?_) (fun _ => ?_)
        · refine dropReject_keeps (sub.of (by decide) hm) ?_
          refine plFlag_keeps (sub.of (by decide) hm) ?_
          exact h
        · refine keeps_ite (fun _ => ?_) (fun _ => ?_)
          · refine requestReject_keeps (sub.of (by decide) hm) ?_
            exact h
          · exact h
    · exact h
  · exact h

theorem rejectArm_keeps {a0 : Nat} {s : State} (hm : sub 536879104 m) (h : Keeps m s0 s) :
    Keeps m s0 (rejectArm a0 s) := by
  unfold rejectArm
  split
  · refine keeps_ite (fun _ => ?_) (fun _ => ?_)
    · refine requestReject_keeps (sub.of (by decide) hm) ?_
      exact h
    · exact h
  · exact h

theorem tickSpans_keeps {a0 : Nat} {s : State} (hm : sub 268439552 m) (h : Keeps m s0 s) :
    Keeps m s0 (tickSpans a0 s) := by
  unfold tickSpans
  refine keeps_ite (fun _ => ?_) (fun _ => ?_)
  · refine endSpans_keeps (sub.of (by decide) hm) ?_
    exact h
  · exact h

theorem jobDone_keeps {a0 : Nat} {s : State} (hm : sub 268443648 m) (h : Keeps m s0 s) :
    Keeps m s0 (jobDone a0 s) := by
  unfold jobDone
  split
  · refine updRec_keeps (sub.of (by decide) hm) ?_
    exact h
  · refine State.logPoint_keeps (sub.of (by decide) hm) ?_
    exact h

end Sys2Proof.Machine
end

