-- ==== Sys2Proof/Laws/Frame/Memory.lean ====
section
/-!
SUPPORT. What the functions of Machine/Memory.lean touch: one lemma each, in the terms of `Keeps`.
-/
namespace Sys2Proof.Machine

variable {m : Nat} {s0 : State}

theorem spareBank_keeps {a0 : Nat} {a1 : Nat} {s : State} (hm : sub 469856257 m) (h : Keeps m s0 s) :
    Keeps m s0 (spareBank a0 a1 s) := by
  unfold spareBank
  extract_lets +onlyGivenNames -merge -useContext x0 x1 x2
  have hx0 : Keeps m s0 x0 := by
    refine State.setBit_keeps (sub.of (by decide) hm) ?_
    exact h
  clear_value x0
  try clear_value x1
  have hx2 : Keeps m s0 x2 := by
    refine State.setMemt_keeps (sub.of (by decide) hm) ?_
    exact hx0
  clear_value x2
  refine keeps_ite (fun _ => ?_) (fun _ => ?_)
  · exact h
  · refine keeps_foldl (fun x3 y4 hx3 => ?_) _ ?_
    · refine openSpan_keeps (sub.of (by decide) hm) ?_
      exact hx3
    · exact hx2

theorem logError_keeps {a0 : Nat} {a1 : Nat} {a2 : Bool} {s : State} (hm : sub 1 m) (h : Keeps m s0 s) :
    Keeps m s0 (logError a0 a1 a2 s) := by
  unfold logError
  extract_lets +onlyGivenNames -merge -useContext x0
  have hx0 : Keeps m s0 x0 := by
    refine State.putBit_keeps (sub.of (by decide) hm) ?_
    refine State.setFld_keeps (sub.of (by decide) hm) ?_
    exact h
  clear_value x0
  refine State.setReg64_keeps (sub.of (by decide) hm) ?_
  exact hx0

theorem memFlag_keeps {a0 : Nat} {a1 : Nat} {s : State} (hm : sub 201342977 m) (h : Keeps m s0 s) :
    Keeps m s0 (memFlag a0 a1 s) := by
  unfold memFlag
  extract_lets +onlyGivenNames -merge -useContext x0
  try clear_value x0
  split
  · refine csFlag_keeps (sub.of (by decide) hm) ?_
    exact h
  · refine keeps_ite (fun _ => ?_) (fun _ => ?_)
    · refine State.flag_keeps (sub.of (by decide) hm) ?_
      exact h
    · refine State.flag_keeps (sub.of (by decide) hm) ?_
      exact h

theorem ueChip_keeps {a0 : Nat} {a1 : Nat} {s : State} (hm : sub 469856273 m) (h : Keeps m s0 s) :
    Keeps m s0 (ueChip a0 a1 s) := by
  unfold ueChip
  extract_lets +onlyGivenNames -merge -useContext x0 x1 x2 x3
  try clear_value x0
  have hx1 : Keeps m s0 x1 := by
    refine memFlag_keeps (sub.of (by decide) hm) ?_
    refine logError_keeps (sub.of (by decide) hm) ?_
    refine setPoison_keeps (sub.of (by decide) hm) ?_
    exact h
  clear_value x1
  try clear_value x2
  have hx3 : Keeps m s0 x3 := by
    refine State.setMemt_keeps (sub.of (by decide) hm) ?_
    exact hx1
  clear_value x3
  refine keeps_ite (fun _ => ?_) (fun _ => ?_)
  · refine keeps_ite (fun _ => ?_) (fun _ => ?_)
    · refine spareBank_keeps (sub.of (by decide) hm) ?_
      exact hx3
    · exact hx3
  · exact hx1

theorem rowRestore_keeps {a0 : Nat} {s : State} (hm : sub 65536 m) (h : Keeps m s0 s) :
    Keeps m s0 (rowRestore a0 s) := by
  unfold rowRestore
  extract_lets +onlyGivenNames -merge -useContext x0
  try clear_value x0
  refine keeps_ite (fun _ => ?_) (fun _ => ?_)
  · refine State.setTester_keeps (sub.of (by decide) hm) ?_
    exact h
  · exact h

theorem windowStart_keeps {a0 : Nat} {s : State} (hm : sub 65536 m) (h : Keeps m s0 s) :
    Keeps m s0 (windowStart a0 s) := by
  unfold windowStart
  extract_lets +onlyGivenNames -merge -useContext x0 x1
  try clear_value x0
  try clear_value x1
  refine keeps_ite (fun _ => ?_) (fun _ => ?_)
  · refine State.setTester_keeps (sub.of (by decide) hm) ?_
    exact h
  · exact h

theorem thawWrites_keeps {a0 : Nat} {s : State} (hm : sub 201408537 m) (h : Keeps m s0 s) :
    Keeps m s0 (thawWrites a0 s) := by
  unfold thawWrites
  extract_lets +onlyGivenNames -merge -useContext x0 x1 x2
  try clear_value x0
  try clear_value x1
  have hx2 : Keeps m s0 x2 := by
    refine State.setMemt_keeps (sub.of (by decide) hm) ?_
    exact h
  clear_value x2
  refine keeps_foldl (fun x3 y4 hx3 => ?_) _ ?_
  · refine storeWrite_keeps (sub.of (by decide) hm) ?_
    exact hx3
  · exact hx2

theorem noteRepair_keeps {a0 : Nat} {a1 : Nat} {a2 : Nat} {s : State} (hm : sub 65560 m) (h : Keeps m s0 s) :
    Keeps m s0 (noteRepair a0 a1 a2 s) := by
  unfold noteRepair
  refine State.putWords_keeps (sub.of (by decide) hm) ?_
  exact h

theorem spareDone_keeps {a0 : Nat} {s : State} (hm : sub 469848089 m) (h : Keeps m s0 s) :
    Keeps m s0 (spareDone a0 s) := by
  unfold spareDone
  extract_lets +onlyGivenNames -merge -useContext x0
  try clear_value x0
  split
  · exact h
  · extract_lets +onlyGivenNames -merge -useContext x1 x2 x3 x4 x5 x6
    have hx1 : Keeps m s0 x1 := by
      refine State.setMemt_keeps (sub.of (by decide) hm) ?_
      exact h
    clear_value x1
    have hx2 : Keeps m s0 x2 := by
      refine State.clrBit_keeps (sub.of (by decide) hm) ?_
      exact hx1
    clear_value x2
    have hx3 : Keeps m s0 x3 := by
      refine State.setFld_keeps (sub.of (by decide) hm) ?_
      refine State.setBit_keeps (sub.of (by decide) hm) ?_
      exact hx2
    clear_value x3
    have hx4 : Keeps m s0 x4 := by
      refine csFlag_keeps (sub.of (by decide) hm) ?_
      exact hx3
    clear_value x4
    have hx5 : Keeps m s0 x5 := by
      refine keeps_foldl (fun x7 y8 hx7 => ?_) _ ?_
      · refine closeSpan_keeps (sub.of (by decide) hm) ?_
        exact hx7
      · exact hx4
    clear_value x5
    have hx6 : Keeps m s0 x6 := by
      refine noteRepair_keeps (sub.of (by decide) hm) ?_
      exact hx5
    clear_value x6
    refine keeps_ite (fun _ => ?_) (fun _ => ?_)
    · exact h
    · refine thawWrites_keeps (sub.of (by decide) hm) ?_
      refine State.logFault_keeps (sub.of (by decide) hm) ?_
      exact hx6

theorem wakeDone_keeps {a0 : Nat} {s : State} (hm : sub 81921 m) (h : Keeps m s0 s) :
    Keeps m s0 (wakeDone a0 s) := by
  unfold wakeDone
  extract_lets +onlyGivenNames -merge -useContext x0 x1 x2
  try clear_value x0
  have hx1 : Keeps m s0 x1 := by
    refine State.setMemt_keeps (sub.of (by decide) hm) ?_
    exact h
  clear_value x1
  have hx2 : Keeps m s0 x2 := by
    refine State.clrBit_keeps (sub.of (by decide) hm) ?_
    refine State.clrBit_keeps (sub.of (by decide) hm) ?_
    exact hx1
  clear_value x2
  split
  · exact h
  · refine keeps_ite (fun _ => ?_) (fun _ => ?_)
    · refine keeps_foldl (fun x3 y4 hx3 => ?_) _ ?_
      · extract_lets +onlyGivenNames -merge -useContext x5
        try clear_value x5
        refine keeps_ite (fun _ => ?_) (fun _ => ?_)
        · refine State.setEng_keeps (sub.of (by decide) hm) ?_
          exact hx3
        · exact hx3
      · exact hx2
    · exact h

theorem retainDone_keeps {a0 : Nat} {s : State} (hm : sub 65537 m) (h : Keeps m s0 s) :
    Keeps m s0 (retainDone a0 s) := by
  unfold retainDone
  extract_lets +onlyGivenNames -merge -useContext x0
  try clear_value x0
  refine keeps_ite (fun _ => ?_) (fun _ => ?_)
  · refine State.setMemt_keeps (sub.of (by decide) hm) ?_
    refine State.setBit_keeps (sub.of (by decide) hm) ?_
    exact h
  · exact h

theorem writeTstCtl_keeps {a0 : Word} {s : State} (hm : sub 65537 m) (h : Keeps m s0 s) :
    Keeps m s0 (writeTstCtl a0 s) := by
  unfold writeTstCtl
  extract_lets +onlyGivenNames -merge -useContext x0 x1 x2
  try clear_value x0
  have hx1 : Keeps m s0 x1 := by
    refine State.plainWrite_keeps (sub.of (by decide) hm) ?_
    exact h
  clear_value x1
  try clear_value x2
  refine keeps_ite (fun _ => ?_) (fun _ => ?_)
  · refine State.setMemt_keeps (sub.of (by decide) hm) ?_
    exact hx1
  · exact hx1

theorem wakeCluster_keeps {a0 : Nat} {s : State} (hm : sub 65537 m) (h : Keeps m s0 s) :
    Keeps m s0 (wakeCluster a0 s) := by
  unfold wakeCluster
  extract_lets +onlyGivenNames -merge -useContext x0
  try clear_value x0
  refine keeps_ite (fun _ => ?_) (fun _ => ?_)
  · refine State.setMemt_keeps (sub.of (by decide) hm) ?_
    refine State.setBit_keeps (sub.of (by decide) hm) ?_
    exact h
  · exact h

theorem retainCluster_keeps {a0 : Nat} {s : State} (hm : sub 201408513 m) (h : Keeps m s0 s) :
    Keeps m s0 (retainCluster a0 s) := by
  unfold retainCluster
  extract_lets +onlyGivenNames -merge -useContext x0 x1
  have hx0 : Keeps m s0 x0 := by
    refine keeps_foldl (fun x2 y3 hx2 => ?_) _ ?_
    · extract_lets +onlyGivenNames -merge -useContext x4
      try clear_value x4
      refine State.setEng_keeps (sub.of (by decide) hm) ?_
      exact hx2
    · exact h
  clear_value x0
  try clear_value x1
  refine keeps_ite (fun _ => ?_) (fun _ => ?_)
  · refine State.setMemt_keeps (sub.of (by decide) hm) ?_
    exact hx0
  · refine csFlag_keeps (sub.of (by decide) hm) ?_
    exact h

theorem writeRetctl_keeps {a0 : Nat} {a1 : Word} {s : State} (hm : sub 201408513 m) (h : Keeps m s0 s) :
    Keeps m s0 (writeRetctl a0 a1 s) := by
  unfold writeRetctl
  extract_lets +onlyGivenNames -merge -useContext x0
  have hx0 : Keeps m s0 x0 := by
    refine keeps_ite (fun _ => ?_) (fun _ => ?_)
    · refine retainCluster_keeps (sub.of (by decide) hm) ?_
      exact h
    · exact h
  clear_value x0
  refine keeps_ite (fun _ => ?_) (fun _ => ?_)
  · refine wakeCluster_keeps (sub.of (by decide) hm) ?_
    exact hx0
  · exact hx0

theorem testFlag_keeps {a0 : Fld} {s : State} (hm : sub 201342977 m) (h : Keeps m s0 s) :
    Keeps m s0 (testFlag a0 s) := by
  unfold testFlag
  refine State.flag_keeps (sub.of (by decide) hm) ?_
  exact h

theorem rowDone_keeps {a0 : Nat} {a1 : Nat} {s : State} (hm : sub 201408513 m) (h : Keeps m s0 s) :
    Keeps m s0 (rowDone a0 a1 s) := by
  unfold rowDone
  extract_lets +onlyGivenNames -merge -useContext x0 x1 x2
  try clear_value x0
  try clear_value x1
  have hx2 : Keeps m s0 x2 := by
    refine State.setTester_keeps (sub.of (by decide) hm) ?_
    exact h
  clear_value x2
  refine keeps_ite (fun _ => ?_) (fun _ => ?_)
  · refine State.setTester_keeps (sub.of (by decide) hm) ?_
    exact h
  · refine keeps_ite (fun _ => ?_) (fun _ => ?_)
    · refine State.setTester_keeps (sub.of (by decide) hm) ?_
      exact h
    · refine keeps_ite (fun _ => ?_) (fun _ => ?_)
      · refine testFlag_keeps (sub.of (by decide) hm) ?_
        exact hx2
      · exact hx2

theorem rowFail_keeps {a0 : Nat} {a1 : Nat} {s : State} (hm : sub 469856281 m) (h : Keeps m s0 s) :
    Keeps m s0 (rowFail a0 a1 s) := by
  unfold rowFail
  extract_lets +onlyGivenNames -merge -useContext x0 x1 x2 x3 x4 x5 x6 x7 x8 x9
  try clear_value x0
  try clear_value x1
  try clear_value x2
  try clear_value x3
  have hx4 : Keeps m s0 x4 := by
    refine State.setMemt_keeps (sub.of (by decide) hm) ?_
    exact h
  clear_value x4
  have hx5 : Keeps m s0 x5 := by
    refine noteRepair_keeps (sub.of (by decide) hm) ?_
    exact hx4
  clear_value x5
  have hx6 : Keeps m s0 x6 := by
    unfold x6
    split
    · refine State.countUp_keeps (sub.of (by decide) hm) ?_
      exact hx5
    · exact hx5
  clear_value x6
  have hx7 : Keeps m s0 x7 := by
    refine memFlag_keeps (sub.of (by decide) hm) ?_
    refine State.setFld_keeps (sub.of (by decide) hm) ?_
    exact hx6
  clear_value x7
  try clear_value x8
  have hx9 : Keeps m s0 x9 := by
    refine testFlag_keeps (sub.of (by decide) hm) ?_
    refine memFlag_keeps (sub.of (by decide) hm) ?_
    exact h
  clear_value x9
  refine keeps_ite (fun _ => ?_) (fun _ => ?_)
  · refine State.logFault_keeps (sub.of (by decide) hm) ?_
    exact hx7
  · refine keeps_ite (fun _ => ?_) (fun _ => ?_)
    · refine spareBank_keeps (sub.of (by decide) hm) ?_
      exact hx9
    · exact hx9

theorem windowEnd_keeps {a0 : Nat} {a1 : Bool} {a2 : List Nat} {s : State} (hm : sub 469856281 m) (h : Keeps m s0 s) :
    Keeps m s0 (windowEnd a0 a1 a2 s) := by
  unfold windowEnd
  extract_lets +onlyGivenNames -merge -useContext x0
  try clear_value x0
  split
  · extract_lets +onlyGivenNames -merge -useContext x1
    have hx1 : Keeps m s0 x1 := by
      refine keeps_foldl (fun x2 y3 hx2 => ?_) _ ?_
      · refine ueChip_keeps (sub.of (by decide) hm) ?_
        exact hx2
      · exact h
    clear_value x1
    refine keeps_ite (fun _ => ?_) (fun _ => ?_)
    · exact h
    · refine rowDone_keeps (sub.of (by decide) hm) ?_
      refine keeps_ite (fun _ => ?_) (fun _ => ?_)
      · exact hx1
      · refine rowFail_keeps (sub.of (by decide) hm) ?_
        exact hx1
  · exact h

theorem corrected_keeps {a0 : Nat} {a1 : Bool} {s : State} (hm : sub 201408513 m) (h : Keeps m s0 s) :
    Keeps m s0 (corrected a0 a1 s) := by
  unfold corrected
  split
  · exact h
  · extract_lets +onlyGivenNames -merge -useContext x0 x1 x2 x3 x4 x5
    have hx0 : Keeps m s0 x0 := by
      refine memFlag_keeps (sub.of (by decide) hm) ?_
      refine State.countUp_keeps (sub.of (by decide) hm) ?_
      exact h
    clear_value x0
    have hx1 : Keeps m s0 x1 := by
      unfold x1
      split
      · refine State.countUp_keeps (sub.of (by decide) hm) ?_
        exact hx0
      · exact hx0
    clear_value x1
    try clear_value x2
    try clear_value x3
    try clear_value x4
    try clear_value x5
    refine keeps_ite (fun _ => ?_) (fun _ => ?_)
    · refine State.setMemt_keeps (sub.of (by decide) hm) ?_
      refine logError_keeps (sub.of (by decide) hm) ?_
      exact hx1
    · exact hx1

theorem windowAbandon_keeps {a0 : Nat} {s : State} (hm : sub 65536 m) (h : Keeps m s0 s) :
    Keeps m s0 (windowAbandon a0 s) := by
  unfold windowAbandon
  extract_lets +onlyGivenNames -merge -useContext x0
  try clear_value x0
  refine keeps_ite (fun _ => ?_) (fun _ => ?_)
  · refine State.setTester_keeps (sub.of (by decide) hm) ?_
    exact h
  · exact h

end Sys2Proof.Machine
end

