-- ==== Sys2Proof/Laws/Frame/Lpddr.lean ====
section
/-!
SUPPORT. What the functions of Machine/Lpddr.lean touch: one lemma each, in the terms of `Keeps`.
-/
namespace Sys2Proof.Machine

variable {m : Nat} {s0 : State}

theorem State.setLpddr_keeps {s : State} {a1 : Lpddr} (hm : sub 131072 m) (h : Keeps m s0 s) :
    Keeps m s0 (State.setLpddr s a1) := by
  unfold State.setLpddr
  refine keeps_lpddr (sub.of (by decide) hm) ?_ _
  exact h

theorem logLpddr_keeps {a0 : Nat} {a1 : Nat} {a2 : Nat} {a3 : Bool} {a4 : Bool} {s : State} (hm : sub 1 m) (h : Keeps m s0 s) :
    Keeps m s0 (logLpddr a0 a1 a2 a3 a4 s) := by
  unfold logLpddr
  extract_lets +onlyGivenNames -merge -useContext x0 x1 x2
  try clear_value x0
  try clear_value x1
  try clear_value x2
  refine State.setReg_keeps (sub.of (by decide) hm) ?_
  refine State.setReg_keeps (sub.of (by decide) hm) ?_
  exact h

theorem memcFlag_keeps {a0 : Nat} {a1 : Fld} {s : State} (hm : sub 201342977 m) (h : Keeps m s0 s) :
    Keeps m s0 (memcFlag a0 a1 s) := by
  unfold memcFlag
  refine State.flag_keeps (sub.of (by decide) hm) ?_
  exact h

theorem failChannel_keeps {a0 : Nat} {s : State} (hm : sub 469790721 m) (h : Keeps m s0 s) :
    Keeps m s0 (failChannel a0 s) := by
  unfold failChannel
  extract_lets +onlyGivenNames -merge -useContext x0 x1 x2 x3 x4 x5 x6
  try clear_value x0
  try clear_value x1
  try clear_value x2
  have hx3 : Keeps m s0 x3 := by
    refine State.setBit_keeps (sub.of (by decide) hm) ?_
    exact h
  clear_value x3
  have hx4 : Keeps m s0 x4 := by
    refine memcFlag_keeps (sub.of (by decide) hm) ?_
    exact hx3
  clear_value x4
  have hx5 : Keeps m s0 x5 := by
    refine keeps_ite (fun _ => ?_) (fun _ => ?_)
    · refine State.setBit_keeps (sub.of (by decide) hm) ?_
      exact hx4
    · exact hx4
  clear_value x5
  have hx6 : Keeps m s0 x6 := by
    refine keeps_foldl (fun x7 y8 hx7 => ?_) _ ?_
    · refine openSpanFor_keeps (sub.of (by decide) hm) ?_
      exact hx7
    · exact hx5
  clear_value x6
  refine keeps_ite (fun _ => ?_) (fun _ => ?_)
  · exact h
  · refine keeps_ite (fun _ => ?_) (fun _ => ?_)
    · refine State.logFault_keeps (sub.of (by decide) hm) ?_
      exact hx6
    · refine State.logPoint_keeps (sub.of (by decide) hm) ?_
      exact hx6

theorem channelUe_keeps {a0 : Nat} {s : State} (hm : sub 469921793 m) (h : Keeps m s0 s) :
    Keeps m s0 (channelUe a0 s) := by
  unfold channelUe
  extract_lets +onlyGivenNames -merge -useContext x0 x1 x2
  try clear_value x0
  try clear_value x1
  have hx2 : Keeps m s0 x2 := by
    refine State.setLpddr_keeps (sub.of (by decide) hm) ?_
    exact h
  clear_value x2
  refine keeps_ite (fun _ => ?_) (fun _ => ?_)
  · refine failChannel_keeps (sub.of (by decide) hm) ?_
    exact hx2
  · exact hx2

theorem lpddrBad_keeps {a0 : Nat} {a1 : Nat} {s : State} (hm : sub 469921809 m) (h : Keeps m s0 s) :
    Keeps m s0 (lpddrBad a0 a1 s) := by
  unfold lpddrBad
  extract_lets +onlyGivenNames -merge -useContext x0 x1 x2
  try clear_value x0
  try clear_value x1
  have hx2 : Keeps m s0 x2 := by
    refine setPoison_keeps (sub.of (by decide) hm) ?_
    exact h
  clear_value x2
  refine keeps_foldl (fun x3 y4 hx3 => ?_) _ ?_
  · refine channelUe_keeps (sub.of (by decide) hm) ?_
    refine memcFlag_keeps (sub.of (by decide) hm) ?_
    refine logLpddr_keeps (sub.of (by decide) hm) ?_
    exact hx3
  · exact hx2

theorem lpddrUe_keeps {a0 : Nat} {a1 : Nat} {s : State} (hm : sub 469921809 m) (h : Keeps m s0 s) :
    Keeps m s0 (lpddrUe a0 a1 s) := by
  unfold lpddrUe
  refine keeps_ite (fun _ => ?_) (fun _ => ?_)
  · refine lpddrBad_keeps (sub.of (by decide) hm) ?_
    exact h
  · exact h

theorem noteUes_keeps {a0 : Nat} {a1 : Nat} {a2 : Nat} {s : State} (hm : sub 469987345 m) (h : Keeps m s0 s) :
    Keeps m s0 (noteUes a0 a1 a2 s) := by
  unfold noteUes
  refine keeps_ite (fun _ => ?_) (fun _ => ?_)
  · refine keeps_foldl (fun x0 y1 hx0 => ?_) _ ?_
    · split
      · refine keeps_ite (fun _ => ?_) (fun _ => ?_)
        · refine ueChip_keeps (sub.of (by decide) hm) ?_
          exact hx0
        · exact hx0
      · exact hx0
    · exact h
  · refine keeps_ite (fun _ => ?_) (fun _ => ?_)
    · refine keeps_foldl (fun x2 y3 hx2 => ?_) _ ?_
      · extract_lets +onlyGivenNames -merge -useContext x4
        try clear_value x4
        refine keeps_ite (fun _ => ?_) (fun _ => ?_)
        · refine lpddrUe_keeps (sub.of (by decide) hm) ?_
          exact hx2
        · exact hx2
      · exact h
    · exact h

theorem mirrorFix_keeps {a0 : Nat} {a1 : Nat} {a2 : Nat} {s : State} (hm : sub 469921793 m) (h : Keeps m s0 s) :
    Keeps m s0 (mirrorFix a0 a1 a2 s) := by
  unfold mirrorFix
  refine channelUe_keeps (sub.of (by decide) hm) ?_
  refine memcFlag_keeps (sub.of (by decide) hm) ?_
  refine logLpddr_keeps (sub.of (by decide) hm) ?_
  exact h

theorem repairCandidate_keeps {a0 : Nat} {a1 : Nat} {s : State} (hm : sub 201539609 m) (h : Keeps m s0 s) :
    Keeps m s0 (repairCandidate a0 a1 s) := by
  unfold repairCandidate
  extract_lets +onlyGivenNames -merge -useContext x0 x1 x2 x3
  try clear_value x0
  have hx1 : Keeps m s0 x1 := by
    refine State.putWords_keeps (sub.of (by decide) hm) ?_
    exact h
  clear_value x1
  try clear_value x2
  have hx3 : Keeps m s0 x3 := by
    refine State.setLpddr_keeps (sub.of (by decide) hm) ?_
    exact hx1
  clear_value x3
  refine keeps_ite (fun _ => ?_) (fun _ => ?_)
  · exact h
  · refine keeps_ite (fun _ => ?_) (fun _ => ?_)
    · refine memcFlag_keeps (sub.of (by decide) hm) ?_
      exact h
    · refine memcFlag_keeps (sub.of (by decide) hm) ?_
      refine State.setFld_keeps (sub.of (by decide) hm) ?_
      exact hx3

theorem lpddrCe_keeps {a0 : Nat} {a1 : Nat} {a2 : Nat} {a3 : Bool} {s : State} (hm : sub 201539609 m) (h : Keeps m s0 s) :
    Keeps m s0 (lpddrCe a0 a1 a2 a3 s) := by
  unfold lpddrCe
  extract_lets +onlyGivenNames -merge -useContext x0 x1
  have hx0 : Keeps m s0 x0 := by
    refine memcFlag_keeps (sub.of (by decide) hm) ?_
    refine logLpddr_keeps (sub.of (by decide) hm) ?_
    exact h
  clear_value x0
  have hx1 : Keeps m s0 x1 := by
    refine State.countUp_keeps (sub.of (by decide) hm) ?_
    exact hx0
  clear_value x1
  refine keeps_ite (fun _ => ?_) (fun _ => ?_)
  · exact h
  · refine keeps_ite (fun _ => ?_) (fun _ => ?_)
    · refine repairCandidate_keeps (sub.of (by decide) hm) ?_
      exact hx1
    · exact hx1

theorem copyError_keeps {a0 : Nat} {a1 : Nat} {a2 : Nat} {a3 : Nat} {a4 : Bool} {s : State} (hm : sub 469987353 m) (h : Keeps m s0 s) :
    Keeps m s0 (copyError a0 a1 a2 a3 a4 s) := by
  unfold copyError
  extract_lets +onlyGivenNames -merge -useContext x0 x1
  try clear_value x0
  have hx1 : Keeps m s0 x1 := by
    refine keeps_ite (fun _ => ?_) (fun _ => ?_)
    · refine memcFlag_keeps (sub.of (by decide) hm) ?_
      refine State.countUp_keeps (sub.of (by decide) hm) ?_
      exact h
    · exact h
  clear_value x1
  refine keeps_ite (fun _ => ?_) (fun _ => ?_)
  · refine lpddrUe_keeps (sub.of (by decide) hm) ?_
    exact hx1
  · refine keeps_ite (fun _ => ?_) (fun _ => ?_)
    · refine lpddrCe_keeps (sub.of (by decide) hm) ?_
      exact hx1
    · refine keeps_ite (fun _ => ?_) (fun _ => ?_)
      · refine lpddrUe_keeps (sub.of (by decide) hm) ?_
        exact hx1
      · refine keeps_ite (fun _ => ?_) (fun _ => ?_)
        · refine keeps_ite (fun _ => ?_) (fun _ => ?_)
          · refine lpddrUe_keeps (sub.of (by decide) hm) ?_
            exact hx1
          · refine keeps_ite (fun _ => ?_) (fun _ => ?_)
            · refine mirrorFix_keeps (sub.of (by decide) hm) ?_
              exact hx1
            · exact hx1
        · refine keeps_ite (fun _ => ?_) (fun _ => ?_)
          · refine keeps_ite (fun _ => ?_) (fun _ => ?_)
            · refine mirrorFix_keeps (sub.of (by decide) hm) ?_
              exact hx1
            · refine lpddrBad_keeps (sub.of (by decide) hm) ?_
              exact hx1
          · exact hx1

theorem readError_keeps {a0 : Nat} {a1 : Nat} {a2 : Nat} {a3 : Bool} {s : State} (hm : sub 469987353 m) (h : Keeps m s0 s) :
    Keeps m s0 (readError a0 a1 a2 a3 s) := by
  unfold readError
  split
  · exact h
  · refine copyError_keeps (sub.of (by decide) hm) ?_
    exact h

theorem foundBad_keeps {a0 : List Nat} {s : State} (hm : sub 16 m) (h : Keeps m s0 s) :
    Keeps m s0 (foundBad a0 s) := by
  unfold foundBad
  refine keeps_foldl (fun x0 y1 hx0 => ?_) _ ?_
  · refine keeps_ite (fun _ => ?_) (fun _ => ?_)
    · refine setPoison_keeps (sub.of (by decide) hm) ?_
      exact hx0
    · exact hx0
  · exact h

theorem foundIn_keeps {a0 : Nat} {a1 : Nat} {a2 : List Nat} {s : State} (hm : sub 16 m) (h : Keeps m s0 s) :
    Keeps m s0 (foundIn a0 a1 a2 s) := by
  unfold foundIn
  refine foundBad_keeps (sub.of (by decide) hm) ?_
  exact h

theorem scrubNext_keeps {a0 : Nat} {a1 : Bool} {s : State} (hm : sub 469987353 m) (h : Keeps m s0 s) :
    Keeps m s0 (scrubNext a0 a1 s) := by
  unfold scrubNext
  extract_lets +onlyGivenNames -merge -useContext x0 x1
  try clear_value x0
  try clear_value x1
  refine keeps_ite (fun _ => ?_) (fun _ => ?_)
  · exact h
  · split
    · extract_lets +onlyGivenNames -merge -useContext x2 x3 x4 x5 x6
      have hx2 : Keeps m s0 x2 := by
        unfold x2
        split
        · refine keeps_ite (fun _ => ?_) (fun _ => ?_)
          · exact h
          · refine copyError_keeps (sub.of (by decide) hm) ?_
            exact h
        · exact h
      clear_value x2
      try clear_value x3
      try clear_value x4
      have hx5 : Keeps m s0 x5 := by
        refine State.setLpddr_keeps (sub.of (by decide) hm) ?_
        exact hx2
      clear_value x5
      have hx6 : Keeps m s0 x6 := by
        refine State.setFld_keeps (sub.of (by decide) hm) ?_
        exact hx5
      clear_value x6
      refine keeps_ite (fun _ => ?_) (fun _ => ?_)
      · refine State.setLpddr_keeps (sub.of (by decide) hm) ?_
        exact hx2
      · refine keeps_foldl (fun x7 y8 hx7 => ?_) _ ?_
        · refine memcFlag_keeps (sub.of (by decide) hm) ?_
          exact hx7
        · exact hx6

theorem dueScrub_keeps {s : State} (hm : sub 469987353 m) (h : Keeps m s0 s) :
    Keeps m s0 (dueScrub s) := by
  unfold dueScrub
  refine keeps_ite (fun _ => ?_) (fun _ => ?_)
  · refine scrubNext_keeps (sub.of (by decide) hm) ?_
    exact h
  · exact h

theorem dueMerges_keeps {s : State} (hm : sub 469987345 m) (h : Keeps m s0 s) :
    Keeps m s0 (dueMerges s) := by
  unfold dueMerges
  extract_lets +onlyGivenNames -merge -useContext x0 x1
  try clear_value x0
  try clear_value x1
  refine keeps_foldl (fun x2 y3 hx2 => ?_) _ ?_
  · refine noteUes_keeps (sub.of (by decide) hm) ?_
    exact hx2
  · refine State.setMemt_keeps (sub.of (by decide) hm) ?_
    exact h

theorem forgetLpddr_keeps {s : State} (hm : sub 24 m) (h : Keeps m s0 s) : Keeps m s0 (forgetLpddr s) :=
  keeps_parts hm h (fun p hp => by cases p <;> first | rfl | exact absurd hp (by decide)) (memWf_filter _ _) rfl rfl rfl

theorem setSizes_keeps {s : State} (hm : sub 1 m) (h : Keeps m s0 s) :
    Keeps m s0 (setSizes s) := by
  unfold setSizes
  extract_lets +onlyGivenNames -merge -useContext x0 x1 x2
  try clear_value x0
  try clear_value x1
  try clear_value x2
  refine State.setFld_keeps (sub.of (by decide) hm) ?_
  refine State.setFld_keeps (sub.of (by decide) hm) ?_
  exact h

theorem writeMemcCfg_keeps {a0 : Word} {s : State} (hm : sub 25 m) (h : Keeps m s0 s) :
    Keeps m s0 (writeMemcCfg a0 s) := by
  unfold writeMemcCfg
  extract_lets +onlyGivenNames -merge -useContext x0 x1 x2 x3 x4
  try clear_value x0
  try clear_value x1
  try clear_value x2
  have hx3 : Keeps m s0 x3 := by
    refine State.plainWrite_keeps (sub.of (by decide) hm) ?_
    exact h
  clear_value x3
  have hx4 : Keeps m s0 x4 := by
    refine keeps_ite (fun _ => ?_) (fun _ => ?_)
    · refine State.setBit_keeps (sub.of (by decide) hm) ?_
      exact hx3
    · exact hx3
  clear_value x4
  refine keeps_ite (fun _ => ?_) (fun _ => ?_)
  · exact h
  · refine keeps_ite (fun _ => ?_) (fun _ => ?_)
    · refine State.setBit_keeps (sub.of (by decide) hm) ?_
      exact h
    · refine keeps_ite (fun _ => ?_) (fun _ => ?_)
      · exact hx4
      · refine setSizes_keeps (sub.of (by decide) hm) ?_
        refine forgetLpddr_keeps (sub.of (by decide) hm) ?_
        exact hx4

theorem writeScrub_keeps {a0 : Word} {s : State} (hm : sub 1 m) (h : Keeps m s0 s) :
    Keeps m s0 (writeScrub a0 s) := by
  unfold writeScrub
  refine State.plainWrite_keeps (sub.of (by decide) hm) ?_
  exact h

theorem lpddrWriteReq_keeps {a0 : Nat} {a1 : Nat} {a2 : Nat} {a3 : Bool} {a4 : List Byte} {a5 : Nat} {s : State} (hm : sub 469987353 m) (h : Keeps m s0 s) :
    Keeps m s0 (lpddrWriteReq a0 a1 a2 a3 a4 a5 s) := by
  unfold lpddrWriteReq
  refine keeps_ite (fun _ => ?_) (fun _ => ?_)
  · exact h
  · refine keeps_ite (fun _ => ?_) (fun _ => ?_)
    · refine keeps_ite (fun _ => ?_) (fun _ => ?_)
      · exact h
      · refine State.put_keeps (sub.of (by decide) hm) ?_
        refine keeps_ite (fun _ => ?_) (fun _ => ?_)
        · refine readError_keeps (sub.of (by decide) hm) ?_
          exact h
        · exact h
    · refine noteFence_keeps (sub.of (by decide) hm) ?_
      exact h

theorem lpddrReadReq_keeps {a0 : Nat} {a1 : Nat} {a2 : Nat} {a3 : Bool} {a4 : Nat} {a5 : Bool} {s : State} (hm : sub 469987353 m) (h : Keeps m s0 s) :
    Keeps m s0 (lpddrReadReq a0 a1 a2 a3 a4 a5 s) := by
  unfold lpddrReadReq
  refine keeps_ite (fun _ => ?_) (fun _ => ?_)
  · exact h
  · refine keeps_ite (fun _ => ?_) (fun _ => ?_)
    · refine readError_keeps (sub.of (by decide) hm) ?_
      exact h
    · refine noteFence_keeps (sub.of (by decide) hm) ?_
      exact h

end Sys2Proof.Machine
end

