-- ==== Sys2Proof/Laws/Frame/PulseGen.lean ====
section
/-!
SUPPORT. What the functions of Machine/PulseGen.lean touch: one lemma each, in the terms of `Keeps`.
-/
namespace Sys2Proof.Machine

variable {m : Nat} {s0 : State}

theorem State.setPg_keeps {s : State} {a1 : Nat} {a2 : Pg} (hm : sub 512 m) (h : Keeps m s0 s) :
    Keeps m s0 (State.setPg s a1 a2) := by
  unfold State.setPg
  refine keeps_pgs (sub.of (by decide) hm) ?_ _
  exact h

theorem pgFlag_keeps {a0 : Nat} {a1 : Fld} {s : State} (hm : sub 201342977 m) (h : Keeps m s0 s) :
    Keeps m s0 (pgFlag a0 a1 s) := by
  unfold pgFlag
  refine State.flag_keeps (sub.of (by decide) hm) ?_
  exact h

theorem pgFinish_keeps {a0 : Nat} {s : State} (hm : sub 201343489 m) (h : Keeps m s0 s) :
    Keeps m s0 (pgFinish a0 s) := by
  unfold pgFinish
  extract_lets +onlyGivenNames -merge -useContext x0 x1 x2
  try clear_value x0
  try clear_value x1
  have hx2 : Keeps m s0 x2 := by
    refine State.setPg_keeps (sub.of (by decide) hm) ?_
    exact h
  clear_value x2
  refine keeps_ite (fun _ => ?_) (fun _ => ?_)
  · refine pgFlag_keeps (sub.of (by decide) hm) ?_
    exact hx2
  · exact hx2

theorem pgCycle_keeps {a0 : Nat} {a1 : PgRun} {s : State} (hm : sub 201343489 m) (h : Keeps m s0 s) :
    Keeps m s0 (pgCycle a0 a1 s) := by
  unfold pgCycle
  extract_lets +onlyGivenNames -merge -useContext x0 x1
  try clear_value x0
  try clear_value x1
  split
  · extract_lets +onlyGivenNames -merge -useContext x2 x3 x4
    try clear_value x2
    try clear_value x3
    have hx4 : Keeps m s0 x4 := by
      refine State.setFld_keeps (sub.of (by decide) hm) ?_
      refine State.setPg_keeps (sub.of (by decide) hm) ?_
      exact h
    clear_value x4
    refine keeps_ite (fun _ => ?_) (fun _ => ?_)
    · exact hx4
    · refine pgFlag_keeps (sub.of (by decide) hm) ?_
      exact hx4

theorem pgCycleStart_keeps {a0 : Nat} {s : State} (hm : sub 201343489 m) (h : Keeps m s0 s) :
    Keeps m s0 (pgCycleStart a0 s) := by
  unfold pgCycleStart
  split
  · exact h
  · refine keeps_ite (fun _ => ?_) (fun _ => ?_)
    · refine keeps_ite (fun _ => ?_) (fun _ => ?_)
      · refine pgFinish_keeps (sub.of (by decide) hm) ?_
        exact h
      · refine pgCycle_keeps (sub.of (by decide) hm) ?_
        exact h
    · exact h

theorem pgRunEnd_keeps {a0 : Nat} {s : State} (hm : sub 201343489 m) (h : Keeps m s0 s) :
    Keeps m s0 (pgRunEnd a0 s) := by
  unfold pgRunEnd
  refine keeps_ite (fun _ => ?_) (fun _ => ?_)
  · refine pgFinish_keeps (sub.of (by decide) hm) ?_
    exact h
  · exact h

theorem tripRelease_keeps {a0 : Nat} {s : State} (hm : sub 268440064 m) (h : Keeps m s0 s) :
    Keeps m s0 (tripRelease a0 s) := by
  unfold tripRelease
  extract_lets +onlyGivenNames -merge -useContext x0 x1 x2 x3 x4 x5
  try clear_value x0
  try clear_value x1
  try clear_value x2
  try clear_value x3
  try clear_value x4
  try clear_value x5
  refine keeps_ite (fun _ => ?_) (fun _ => ?_)
  · exact h
  · refine keeps_ite (fun _ => ?_) (fun _ => ?_)
    · refine State.setPg_keeps (sub.of (by decide) hm) ?_
      exact h
    · refine closeSpan_keeps (sub.of (by decide) hm) ?_
      refine State.setPg_keeps (sub.of (by decide) hm) ?_
      exact h

theorem tripAssert_keeps {a0 : Nat} {s : State} (hm : sub 1543533057 m) (h : Keeps m s0 s) :
    Keeps m s0 (tripAssert a0 s) := by
  unfold tripAssert
  split
  · rename_i z0 z1 e2
    have hz1 : Keeps m s0 z1 := by
      have q : _ = z1 := congrArg Prod.snd e2
      rw [← q]
      refine State.takeFree_keeps (sub.of (by decide) hm) ?_
      exact h
    extract_lets +onlyGivenNames -merge -useContext x3 x4 x5 x6 x7 x8 x9
    try clear_value x3
    try clear_value x4
    try clear_value x5
    try clear_value x6
    have hx7 : Keeps m s0 x7 := by
      refine State.setPg_keeps (sub.of (by decide) hm) ?_
      exact hz1
    clear_value x7
    have hx8 : Keeps m s0 x8 := by
      refine keeps_ite (fun _ => ?_) (fun _ => ?_)
      · refine keeps_ite (fun _ => ?_) (fun _ => ?_)
        · refine pgFlag_keeps (sub.of (by decide) hm) ?_
          exact hx7
        · exact hx7
      · refine State.setPg_keeps (sub.of (by decide) hm) ?_
        exact hz1
    clear_value x8
    have hx9 : Keeps m s0 x9 := by
      refine pgFlag_keeps (sub.of (by decide) hm) ?_
      exact hx8
    clear_value x9
    refine keeps_ite (fun _ => ?_) (fun _ => ?_)
    · refine openSpan_keeps (sub.of (by decide) hm) ?_
      exact hx9
    · exact hx9

theorem tripEval_keeps {a0 : Nat} {s : State} (hm : sub 1543533057 m) (h : Keeps m s0 s) :
    Keeps m s0 (tripEval a0 s) := by
  unfold tripEval
  extract_lets +onlyGivenNames -merge -useContext x0 x1 x2
  try clear_value x0
  try clear_value x1
  try clear_value x2
  refine keeps_ite (fun _ => ?_) (fun _ => ?_)
  · exact h
  · refine keeps_ite (fun _ => ?_) (fun _ => ?_)
    · refine tripAssert_keeps (sub.of (by decide) hm) ?_
      exact h
    · refine keeps_ite (fun _ => ?_) (fun _ => ?_)
      · refine State.setPg_keeps (sub.of (by decide) hm) ?_
        exact h
      · exact h

theorem pgClockBack_keeps {s : State} (hm : sub 1543533057 m) (h : Keeps m s0 s) :
    Keeps m s0 (pgClockBack s) := by
  unfold pgClockBack
  extract_lets +onlyGivenNames -merge -useContext x0
  have hx0 : Keeps m s0 x0 := by
    refine keeps_foldl (fun x1 y2 hx1 => ?_) _ ?_
    · extract_lets +onlyGivenNames -merge -useContext x3
      try clear_value x3
      refine closeSpan_keeps (sub.of (by decide) hm) ?_
      refine State.setPg_keeps (sub.of (by decide) hm) ?_
      exact hx1
    · exact h
  clear_value x0
  refine keeps_foldl (fun x4 y5 hx4 => ?_) _ ?_
  · extract_lets +onlyGivenNames -merge -useContext x6 x7 x8
    have hx6 : Keeps m s0 x6 := by
      refine tripEval_keeps (sub.of (by decide) hm) ?_
      exact hx4
    clear_value x6
    try clear_value x7
    try clear_value x8
    refine keeps_ite (fun _ => ?_) (fun _ => ?_)
    · refine State.setPg_keeps (sub.of (by decide) hm) ?_
      exact hx6
    · exact hx6
  · exact hx0

theorem writePgSeq_keeps {a0 : Nat} {a1 : Nat} {a2 : Nat} {a3 : Word} {s : State} (hm : sub 201342977 m) (h : Keeps m s0 s) :
    Keeps m s0 (writePgSeq a0 a1 a2 a3 s) := by
  unfold writePgSeq
  refine keeps_ite (fun _ => ?_) (fun _ => ?_)
  · refine pgFlag_keeps (sub.of (by decide) hm) ?_
    exact h
  · refine State.plainWrite_keeps (sub.of (by decide) hm) ?_
    exact h

theorem writePgSeqsel_keeps {a0 : Nat} {a1 : Word} {s : State} (hm : sub 513 m) (h : Keeps m s0 s) :
    Keeps m s0 (writePgSeqsel a0 a1 s) := by
  unfold writePgSeqsel
  extract_lets +onlyGivenNames -merge -useContext x0
  try clear_value x0
  refine State.setPg_keeps (sub.of (by decide) hm) ?_
  refine State.plainWrite_keeps (sub.of (by decide) hm) ?_
  exact h

theorem pgAbort_keeps {a0 : Nat} {s : State} (hm : sub 512 m) (h : Keeps m s0 s) :
    Keeps m s0 (pgAbort a0 s) := by
  unfold pgAbort
  extract_lets +onlyGivenNames -merge -useContext x0
  try clear_value x0
  refine State.setPg_keeps (sub.of (by decide) hm) ?_
  exact h

theorem writePgCtl_keeps {a0 : Nat} {a1 : Word} {s : State} (hm : sub 201343489 m) (h : Keeps m s0 s) :
    Keeps m s0 (writePgCtl a0 a1 s) := by
  unfold writePgCtl
  extract_lets +onlyGivenNames -merge -useContext x0 x1 x2 x3 x4 x5 x6 x7
  try clear_value x0
  try clear_value x1
  try clear_value x2
  try clear_value x3
  have hx4 : Keeps m s0 x4 := by
    refine State.plainWrite_keeps (sub.of (by decide) hm) ?_
    exact h
  clear_value x4
  have hx5 : Keeps m s0 x5 := by
    refine keeps_ite (fun _ => ?_) (fun _ => ?_)
    · refine pgFlag_keeps (sub.of (by decide) hm) ?_
      exact hx4
    · exact hx4
  clear_value x5
  have hx6 : Keeps m s0 x6 := by
    refine keeps_ite (fun _ => ?_) (fun _ => ?_)
    · refine pgAbort_keeps (sub.of (by decide) hm) ?_
      exact hx5
    · exact hx5
  clear_value x6
  try clear_value x7
  refine keeps_ite (fun _ => ?_) (fun _ => ?_)
  · refine State.setPg_keeps (sub.of (by decide) hm) ?_
    exact hx6
  · exact hx6

theorem writePgTrip_keeps {a0 : Nat} {a1 : Nat} {a2 : Word} {s : State} (hm : sub 1543533057 m) (h : Keeps m s0 s) :
    Keeps m s0 (writePgTrip a0 a1 a2 s) := by
  unfold writePgTrip
  refine tripEval_keeps (sub.of (by decide) hm) ?_
  refine State.plainWrite_keeps (sub.of (by decide) hm) ?_
  exact h

theorem writePgTripCtl_keeps {a0 : Nat} {a1 : Word} {s : State} (hm : sub 1 m) (h : Keeps m s0 s) :
    Keeps m s0 (writePgTripCtl a0 a1 s) := by
  unfold writePgTripCtl
  refine State.plainWrite_keeps (sub.of (by decide) hm) ?_
  exact h

theorem pgSoftStart_keeps {a0 : Nat} {s : State} (hm : sub 512 m) (h : Keeps m s0 s) :
    Keeps m s0 (pgSoftStart a0 s) := by
  unfold pgSoftStart
  extract_lets +onlyGivenNames -merge -useContext x0
  try clear_value x0
  refine State.setPg_keeps (sub.of (by decide) hm) ?_
  exact h

theorem pgStop_keeps {a0 : Nat} {s : State} (hm : sub 512 m) (h : Keeps m s0 s) :
    Keeps m s0 (pgStop a0 s) := by
  unfold pgStop
  extract_lets +onlyGivenNames -merge -useContext x0
  try clear_value x0
  split
  · refine State.setPg_keeps (sub.of (by decide) hm) ?_
    exact h
  · exact h

theorem pgRearm_keeps {a0 : Nat} {s : State} (hm : sub 469783041 m) (h : Keeps m s0 s) :
    Keeps m s0 (pgRearm a0 s) := by
  unfold pgRearm
  extract_lets +onlyGivenNames -merge -useContext x0
  try clear_value x0
  refine keeps_ite (fun _ => ?_) (fun _ => ?_)
  · refine pgFlag_keeps (sub.of (by decide) hm) ?_
    exact h
  · refine keeps_ite (fun _ => ?_) (fun _ => ?_)
    · refine closeSpan_keeps (sub.of (by decide) hm) ?_
      refine State.setPg_keeps (sub.of (by decide) hm) ?_
      exact h
    · exact h

theorem writePgCmd_keeps {a0 : Nat} {a1 : Word} {s : State} (hm : sub 469783041 m) (h : Keeps m s0 s) :
    Keeps m s0 (writePgCmd a0 a1 s) := by
  unfold writePgCmd
  extract_lets +onlyGivenNames -merge -useContext x0 x1 x2
  have hx0 : Keeps m s0 x0 := by
    refine keeps_ite (fun _ => ?_) (fun _ => ?_)
    · refine pgSoftStart_keeps (sub.of (by decide) hm) ?_
      exact h
    · exact h
  clear_value x0
  have hx1 : Keeps m s0 x1 := by
    refine keeps_ite (fun _ => ?_) (fun _ => ?_)
    · refine pgStop_keeps (sub.of (by decide) hm) ?_
      exact hx0
    · exact hx0
  clear_value x1
  have hx2 : Keeps m s0 x2 := by
    refine keeps_ite (fun _ => ?_) (fun _ => ?_)
    · refine pgAbort_keeps (sub.of (by decide) hm) ?_
      exact hx1
    · exact hx1
  clear_value x2
  refine keeps_ite (fun _ => ?_) (fun _ => ?_)
  · refine pgRearm_keeps (sub.of (by decide) hm) ?_
    exact hx2
  · exact hx2

theorem pgBegin_keeps {a0 : Nat} {a1 : Nat} {s : State} (hm : sub 201343489 m) (h : Keeps m s0 s) :
    Keeps m s0 (pgBegin a0 a1 s).2 := by
  unfold pgBegin
  extract_lets +onlyGivenNames -merge -useContext x0 x1 x2 x3 x4 x5 x6 x7
  try clear_value x0
  try clear_value x1
  try clear_value x2
  try clear_value x3
  try clear_value x4
  try clear_value x5
  try clear_value x6
  try clear_value x7
  refine keeps_ite2 (fun _ => ?_) (fun _ => ?_)
  · dsimp -zeta only
    refine pgFlag_keeps (sub.of (by decide) hm) ?_
    exact h
  · dsimp -zeta only
    refine State.setFld_keeps (sub.of (by decide) hm) ?_
    refine State.setPg_keeps (sub.of (by decide) hm) ?_
    exact h

theorem pgStartOne_keeps {a0 : Nat} {a1 : Nat} {s : State} (hm : sub 201343489 m) (h : Keeps m s0 s) :
    Keeps m s0 (pgStartOne a0 a1 s).2 := by
  unfold pgStartOne
  extract_lets +onlyGivenNames -merge -useContext x0 x1
  try clear_value x0
  try clear_value x1
  refine keeps_ite2 (fun _ => ?_) (fun _ => ?_)
  · dsimp -zeta only
    refine pgFlag_keeps (sub.of (by decide) hm) ?_
    exact h
  · refine keeps_ite2 (fun _ => ?_) (fun _ => ?_)
    · dsimp -zeta only
      exact h
    · refine keeps_ite2 (fun _ => ?_) (fun _ => ?_)
      · refine pgBegin_keeps (sub.of (by decide) hm) ?_
        exact h
      · refine keeps_ite2 (fun _ => ?_) (fun _ => ?_)
        · dsimp -zeta only
          refine pgFlag_keeps (sub.of (by decide) hm) ?_
          exact h
        · refine keeps_ite2 (fun _ => ?_) (fun _ => ?_)
          · dsimp -zeta only
            refine pgFlag_keeps (sub.of (by decide) hm) ?_
            exact h
          · dsimp -zeta only
            refine pgFlag_keeps (sub.of (by decide) hm) ?_
            refine State.setPg_keeps (sub.of (by decide) hm) ?_
            exact h

theorem pgFollowers_keeps {a0 : Nat} {a1 : Nat} {s : State} (hm : sub 201343489 m) (h : Keeps m s0 s) :
    Keeps m s0 (pgFollowers a0 a1 s) := by
  unfold pgFollowers
  refine keeps_ite (fun _ => ?_) (fun _ => ?_)
  · exact h
  · refine keeps_foldl (fun x0 y1 hx0 => ?_) _ ?_
    · refine keeps_ite (fun _ => ?_) (fun _ => ?_)
      · refine pgStartOne_keeps (sub.of (by decide) hm) ?_
        exact hx0
      · exact hx0
    · exact h

theorem pgLead_keeps {a0 : Nat} {a1 : Nat} {a2 : Bool} {s : State} (hm : sub 201343489 m) (h : Keeps m s0 s) :
    Keeps m s0 (pgLead a0 a1 a2 s) := by
  unfold pgLead
  refine keeps_ite (fun _ => ?_) (fun _ => ?_)
  · refine pgFollowers_keeps (sub.of (by decide) hm) ?_
    exact h
  · exact h

theorem pgStart_keeps {a0 : Nat} {a1 : Nat} {s : State} (hm : sub 201343489 m) (h : Keeps m s0 s) :
    Keeps m s0 (pgStart a0 a1 s) := by
  unfold pgStart
  extract_lets +onlyGivenNames -merge -useContext x0 x1
  have hx0 : Keeps m s0 x0 := by
    refine keeps_ite (fun _ => ?_) (fun _ => ?_)
    · refine pgFlag_keeps (sub.of (by decide) hm) ?_
      exact h
    · exact h
  clear_value x0
  have hx1 : Keeps m s0 x1.2 := by
    refine pgStartOne_keeps (sub.of (by decide) hm) ?_
    exact h
  clear_value x1
  refine keeps_ite (fun _ => ?_) (fun _ => ?_)
  · refine pgFlag_keeps (sub.of (by decide) hm) ?_
    exact hx0
  · refine pgLead_keeps (sub.of (by decide) hm) ?_
    exact hx1

theorem tripsOf_keeps {a0 : Nat} {s : State} (hm : sub 1543533057 m) (h : Keeps m s0 s) :
    Keeps m s0 (tripsOf a0 s) := by
  unfold tripsOf
  refine keeps_foldl (fun x0 y1 hx0 => ?_) _ ?_
  · refine tripEval_keeps (sub.of (by decide) hm) ?_
    exact hx0
  · exact h

theorem pgAbandon_keeps {a0 : Nat} {s : State} (hm : sub 512 m) (h : Keeps m s0 s) :
    Keeps m s0 (pgAbandon a0 s) := by
  unfold pgAbandon
  extract_lets +onlyGivenNames -merge -useContext x0 x1
  try clear_value x0
  try clear_value x1
  refine State.setPg_keeps (sub.of (by decide) hm) ?_
  exact h

theorem pgClockLost_keeps {s : State} (hm : sub 512 m) (h : Keeps m s0 s) :
    Keeps m s0 (pgClockLost s) := by
  unfold pgClockLost
  refine keeps_foldl (fun x0 y1 hx0 => ?_) _ ?_
  · extract_lets +onlyGivenNames -merge -useContext x2 x3 x4
    have hx2 : Keeps m s0 x2 := by
      refine pgAbandon_keeps (sub.of (by decide) hm) ?_
      exact hx0
    clear_value x2
    try clear_value x3
    try clear_value x4
    refine State.setPg_keeps (sub.of (by decide) hm) ?_
    exact hx2
  · exact h

theorem pgChained_keeps {a0 : Nat} {a1 : Nat} {s : State} (hm : sub 469791233 m) (h : Keeps m s0 s) :
    Keeps m s0 (pgChained a0 a1 s).2 := by
  unfold pgChained
  extract_lets +onlyGivenNames -merge -useContext x0 x1 x2
  try clear_value x0
  have hx1 : Keeps m s0 x1 := by
    refine State.setPg_keeps (sub.of (by decide) hm) ?_
    exact h
  clear_value x1
  have hx2 : Keeps m s0 x2.2 := by
    refine pgBegin_keeps (sub.of (by decide) hm) ?_
    exact hx1
  clear_value x2
  refine keeps_ite2 (fun _ => ?_) (fun _ => ?_)
  · dsimp -zeta only
    refine pgFlag_keeps (sub.of (by decide) hm) ?_
    exact hx1
  · refine keeps_ite2 (fun _ => ?_) (fun _ => ?_)
    · dsimp -zeta only
      refine pointReport_keeps (sub.of (by decide) hm) ?_
      exact hx2
    · exact hx2

theorem pgWaiting_keeps {a0 : Nat} {s : State} (hm : sub 469791233 m) (h : Keeps m s0 s) :
    Keeps m s0 (pgWaiting a0 s) := by
  unfold pgWaiting
  extract_lets +onlyGivenNames -merge -useContext x0 x1 x2
  have hx0 : Keeps m s0 x0.2 := by
    refine pgChained_keeps (sub.of (by decide) hm) ?_
    exact h
  clear_value x0
  have hx1 : Keeps m s0 x1 := by
    refine keeps_ite (fun _ => ?_) (fun _ => ?_)
    · refine pgLead_keeps (sub.of (by decide) hm) ?_
      exact hx0
    · exact h
  clear_value x1
  try clear_value x2
  refine keeps_ite (fun _ => ?_) (fun _ => ?_)
  · refine pgStart_keeps (sub.of (by decide) hm) ?_
    refine State.setPg_keeps (sub.of (by decide) hm) ?_
    exact hx1
  · exact hx1

theorem settleIdle_keeps {a0 : Nat} {s : State} (hm : sub 512 m) (h : Keeps m s0 s) :
    Keeps m s0 (settleIdle a0 s) := by
  unfold settleIdle
  extract_lets +onlyGivenNames -merge -useContext x0
  try clear_value x0
  refine keeps_ite (fun _ => ?_) (fun _ => ?_)
  · refine State.setPg_keeps (sub.of (by decide) hm) ?_
    exact h
  · exact h

theorem tickPg_keeps {a0 : Nat} {s : State} (hm : sub 512 m) (h : Keeps m s0 s) :
    Keeps m s0 (tickPg a0 s) := by
  unfold tickPg
  extract_lets +onlyGivenNames -merge -useContext x0 x1
  have hx0 : Keeps m s0 x0 := by
    refine keeps_ite (fun _ => ?_) (fun _ => ?_)
    · refine pgAbandon_keeps (sub.of (by decide) hm) ?_
      exact h
    · exact h
  clear_value x0
  try clear_value x1
  refine keeps_ite (fun _ => ?_) (fun _ => ?_)
  · refine settleIdle_keeps (sub.of (by decide) hm) ?_
    refine State.setPg_keeps (sub.of (by decide) hm) ?_
    exact hx0
  · exact hx0

end Sys2Proof.Machine
end

