-- ==== Sys2Proof/Laws/Frame/Tile.lean ====
section
/-!
SUPPORT. What the functions of Machine/Tile.lean touch: one lemma each, in the terms of `Keeps`.
-/
namespace Sys2Proof.Machine

variable {m : Nat} {s0 : State}

theorem State.setTile_keeps {s : State} {a1 : Nat} {a2 : Tile} (hm : sub 1024 m) (h : Keeps m s0 s) :
    Keeps m s0 (State.setTile s a1 a2) := by
  unfold State.setTile
  extract_lets +onlyGivenNames -merge -useContext x0
  try clear_value x0
  refine keeps_arr (sub.of (by decide) hm) ?_ _
  exact h

theorem calGate_keeps {a0 : Nat} {a1 : Nat} {a2 : Word} {a3 : State → State} {s : State} (hm : sub 1024 m) (hf3 : ∀ x, Keeps m s0 x → Keeps m s0 (a3 x)) (h : Keeps m s0 s) :
    Keeps m s0 (calGate a0 a1 a2 a3 s) := by
  unfold calGate
  extract_lets +onlyGivenNames -merge -useContext x0
  try clear_value x0
  refine keeps_ite (fun _ => ?_) (fun _ => ?_)
  · refine State.setTile_keeps (sub.of (by decide) hm) ?_
    exact h
  · refine hf3 _ ?_
    exact h

theorem State.setBus_keeps {s : State} {a1 : Nat} {a2 : Option BusOwn} (hm : sub 1024 m) (h : Keeps m s0 s) :
    Keeps m s0 (State.setBus s a1 a2) := by
  unfold State.setBus
  extract_lets +onlyGivenNames -merge -useContext x0
  try clear_value x0
  refine keeps_arr (sub.of (by decide) hm) ?_ _
  exact h

theorem driveBus_keeps {a0 : Nat} {a1 : Nat} {a2 : Bool} {s : State} (hm : sub 1024 m) (h : Keeps m s0 s) :
    Keeps m s0 (driveBus a0 a1 a2 s) := by
  unfold driveBus
  split
  · refine keeps_ite (fun _ => ?_) (fun _ => ?_)
    · refine keeps_ite (fun _ => ?_) (fun _ => ?_)
      · split
        · exact h
        · refine State.setBus_keeps (sub.of (by decide) hm) ?_
          exact h
      · refine keeps_ite (fun _ => ?_) (fun _ => ?_)
        · refine State.setBus_keeps (sub.of (by decide) hm) ?_
          exact h
        · exact h
    · refine keeps_ite (fun _ => ?_) (fun _ => ?_)
      · refine State.setBus_keeps (sub.of (by decide) hm) ?_
        exact h
      · exact h
  · refine keeps_ite (fun _ => ?_) (fun _ => ?_)
    · refine State.setBus_keeps (sub.of (by decide) hm) ?_
      exact h
    · exact h

theorem startMoves_keeps {a0 : Nat} {a1 : List Nat} {a2 : Word} {a3 : Word} {s : State} (hm : sub 1024 m) (h : Keeps m s0 s) :
    Keeps m s0 (startMoves a0 a1 a2 a3 s) := by
  unfold startMoves
  extract_lets +onlyGivenNames -merge -useContext x0
  try clear_value x0
  refine keeps_foldl (fun x1 y2 hx1 => ?_) _ ?_
  · extract_lets +onlyGivenNames -merge -useContext x3 x4
    try clear_value x3
    try clear_value x4
    refine keeps_ite (fun _ => ?_) (fun _ => ?_)
    · exact hx1
    · refine State.setTile_keeps (sub.of (by decide) hm) ?_
      exact hx1
  · exact h

theorem tileFlag_keeps {a0 : Nat} {a1 : Fld} {s : State} (hm : sub 201342977 m) (h : Keeps m s0 s) :
    Keeps m s0 (tileFlag a0 a1 s) := by
  unfold tileFlag
  refine State.flag_keeps (sub.of (by decide) hm) ?_
  exact h

theorem applyDrv_keeps {a0 : Nat} {a1 : Word} {s : State} (hm : sub 201344001 m) (h : Keeps m s0 s) :
    Keeps m s0 (applyDrv a0 a1 s) := by
  unfold applyDrv
  extract_lets +onlyGivenNames -merge -useContext x0 x1 x2 x3
  try clear_value x0
  try clear_value x1
  try clear_value x2
  have hx3 : Keeps m s0 x3 := by
    refine State.plainWrite_keeps (sub.of (by decide) hm) ?_
    exact h
  clear_value x3
  refine keeps_ite (fun _ => ?_) (fun _ => ?_)
  · refine tileFlag_keeps (sub.of (by decide) hm) ?_
    exact h
  · refine keeps_ite (fun _ => ?_) (fun _ => ?_)
    · refine tileFlag_keeps (sub.of (by decide) hm) ?_
      exact h
    · refine driveBus_keeps (sub.of (by decide) hm) ?_
      refine driveBus_keeps (sub.of (by decide) hm) ?_
      refine startMoves_keeps (sub.of (by decide) hm) ?_
      exact hx3

theorem writeDrv_keeps {a0 : Nat} {a1 : Word} {s : State} (hm : sub 201344001 m) (h : Keeps m s0 s) :
    Keeps m s0 (writeDrv a0 a1 s) := by
  unfold writeDrv
  refine calGate_keeps (sub.of (by decide) hm) (fun x0 hx0 => ?_) ?_
  · refine applyDrv_keeps (sub.of (by decide) hm) ?_
    exact hx0
  · exact h

theorem State.setDch_keeps {s : State} {a1 : Nat} {a2 : DceCh} (hm : sub 2048 m) (h : Keeps m s0 s) :
    Keeps m s0 (State.setDch s a1 a2) := by
  unfold State.setDch
  extract_lets +onlyGivenNames -merge -useContext x0
  try clear_value x0
  refine keeps_dce (sub.of (by decide) hm) ?_ _
  exact h

theorem declareOver_keeps {a0 : Nat} {a1 : Nat} {s : State} (hm : sub 201344001 m) (h : Keeps m s0 s) :
    Keeps m s0 (declareOver a0 a1 s) := by
  unfold declareOver
  refine tileFlag_keeps (sub.of (by decide) hm) ?_
  refine State.setTile_keeps (sub.of (by decide) hm) ?_
  exact h

theorem modEmit_keeps {a0 : Nat} {a1 : Nat} {a2 : Int} {s : State} (hm : sub 201344001 m) (h : Keeps m s0 s) :
    Keeps m s0 (modEmit a0 a1 a2 s) := by
  unfold modEmit
  extract_lets +onlyGivenNames -merge -useContext x0 x1 x2 x3 x4
  try clear_value x0
  try clear_value x1
  try clear_value x2
  try clear_value x3
  have hx4 : Keeps m s0 x4 := by
    refine State.setTile_keeps (sub.of (by decide) hm) ?_
    exact h
  clear_value x4
  refine keeps_ite (fun _ => ?_) (fun _ => ?_)
  · exact h
  · refine keeps_ite (fun _ => ?_) (fun _ => ?_)
    · refine declareOver_keeps (sub.of (by decide) hm) ?_
      exact hx4
    · exact hx4

theorem dceSwitch_keeps {a0 : Nat} {a1 : Nat} {s : State} (hm : sub 2048 m) (h : Keeps m s0 s) :
    Keeps m s0 (dceSwitch a0 a1 s) := by
  unfold dceSwitch
  extract_lets +onlyGivenNames -merge -useContext x0
  try clear_value x0
  refine keeps_ite (fun _ => ?_) (fun _ => ?_)
  · refine State.setDch_keeps (sub.of (by decide) hm) ?_
    exact h
  · refine State.setDch_keeps (sub.of (by decide) hm) ?_
    exact h

theorem writePairCtl_keeps {a0 : Nat} {a1 : Nat} {a2 : Word} {s : State} (hm : sub 1025 m) (h : Keeps m s0 s) :
    Keeps m s0 (writePairCtl a0 a1 a2 s) := by
  unfold writePairCtl
  refine State.setTile_keeps (sub.of (by decide) hm) ?_
  refine State.plainWrite_keeps (sub.of (by decide) hm) ?_
  exact h

theorem applySel_keeps {a0 : Nat} {a1 : Word} {s : State} (hm : sub 201344001 m) (h : Keeps m s0 s) :
    Keeps m s0 (applySel a0 a1 s) := by
  unfold applySel
  refine keeps_ite (fun _ => ?_) (fun _ => ?_)
  · refine startMoves_keeps (sub.of (by decide) hm) ?_
    refine State.setReg_keeps (sub.of (by decide) hm) ?_
    exact h
  · refine tileFlag_keeps (sub.of (by decide) hm) ?_
    exact h

theorem writeSel_keeps {a0 : Nat} {a1 : Word} {s : State} (hm : sub 201344001 m) (h : Keeps m s0 s) :
    Keeps m s0 (writeSel a0 a1 s) := by
  unfold writeSel
  refine calGate_keeps (sub.of (by decide) hm) (fun x0 hx0 => ?_) ?_
  · refine applySel_keeps (sub.of (by decide) hm) ?_
    exact hx0
  · exact h

theorem planInit_keeps {a0 : Nat} {a1 : Nat} {s : State} (hm : sub 1024 m) (h : Keeps m s0 s) :
    Keeps m s0 (planInit a0 a1 s) := by
  unfold planInit
  extract_lets +onlyGivenNames -merge -useContext x0 x1
  try clear_value x0
  try clear_value x1
  refine State.setTile_keeps (sub.of (by decide) hm) ?_
  exact h

theorem modStart_keeps {a0 : Nat} {a1 : Nat} {s : State} (hm : sub 2048 m) (h : Keeps m s0 s) :
    Keeps m s0 (modStart a0 a1 s) := by
  unfold modStart
  extract_lets +onlyGivenNames -merge -useContext x0
  try clear_value x0
  refine dceSwitch_keeps (sub.of (by decide) hm) ?_
  refine State.setDch_keeps (sub.of (by decide) hm) ?_
  exact h

theorem writePwr_keeps {a0 : Nat} {a1 : Word} {s : State} (hm : sub 3073 m) (h : Keeps m s0 s) :
    Keeps m s0 (writePwr a0 a1 s) := by
  unfold writePwr
  extract_lets +onlyGivenNames -merge -useContext x0 x1 x2 x3 x4
  try clear_value x0
  have hx1 : Keeps m s0 x1 := by
    refine State.plainWrite_keeps (sub.of (by decide) hm) ?_
    exact h
  clear_value x1
  try clear_value x2
  try clear_value x3
  have hx4 : Keeps m s0 x4 := by
    refine State.setTile_keeps (sub.of (by decide) hm) ?_
    exact hx1
  clear_value x4
  refine keeps_ite (fun _ => ?_) (fun _ => ?_)
  · refine State.setTile_keeps (sub.of (by decide) hm) ?_
    exact hx1
  · refine keeps_ite (fun _ => ?_) (fun _ => ?_)
    · refine keeps_ite (fun _ => ?_) (fun _ => ?_)
      · refine keeps_foldl (fun x5 y6 hx5 => ?_) _ ?_
        · refine planInit_keeps (sub.of (by decide) hm) ?_
          exact hx5
        · exact hx4
      · exact hx4
    · refine keeps_foldl (fun x7 y8 hx7 => ?_) _ ?_
      · extract_lets +onlyGivenNames -merge -useContext x9
        try clear_value x9
        refine keeps_ite (fun _ => ?_) (fun _ => ?_)
        · refine modStart_keeps (sub.of (by decide) hm) ?_
          exact hx7
        · exact hx7
      · exact hx1

theorem applyCmpTh_keeps {a0 : Nat} {a1 : Nat} {a2 : Word} {s : State} (hm : sub 1025 m) (h : Keeps m s0 s) :
    Keeps m s0 (applyCmpTh a0 a1 a2 s) := by
  unfold applyCmpTh
  extract_lets +onlyGivenNames -merge -useContext x0 x1 x2
  try clear_value x0
  try clear_value x1
  try clear_value x2
  refine State.setTile_keeps (sub.of (by decide) hm) ?_
  refine State.plainWrite_keeps (sub.of (by decide) hm) ?_
  exact h

theorem writeCmpTh_keeps {a0 : Nat} {a1 : Nat} {a2 : Word} {s : State} (hm : sub 1025 m) (h : Keeps m s0 s) :
    Keeps m s0 (writeCmpTh a0 a1 a2 s) := by
  unfold writeCmpTh
  refine calGate_keeps (sub.of (by decide) hm) (fun x0 hx0 => ?_) ?_
  · refine applyCmpTh_keeps (sub.of (by decide) hm) ?_
    exact hx0
  · exact h

theorem applyCmpCtl_keeps {a0 : Nat} {a1 : Nat} {a2 : Word} {s : State} (hm : sub 201344001 m) (h : Keeps m s0 s) :
    Keeps m s0 (applyCmpCtl a0 a1 a2 s) := by
  unfold applyCmpCtl
  extract_lets +onlyGivenNames -merge -useContext x0 x1 x2 x3 x4 x5 x6
  try clear_value x0
  try clear_value x1
  try clear_value x2
  try clear_value x3
  have hx4 : Keeps m s0 x4 := by
    refine State.setTile_keeps (sub.of (by decide) hm) ?_
    exact h
  clear_value x4
  have hx5 : Keeps m s0 x5 := by
    refine State.plainWrite_keeps (sub.of (by decide) hm) ?_
    exact hx4
  clear_value x5
  try clear_value x6
  refine keeps_ite (fun _ => ?_) (fun _ => ?_)
  · refine tileFlag_keeps (sub.of (by decide) hm) ?_
    exact h
  · refine keeps_ite (fun _ => ?_) (fun _ => ?_)
    · refine planInit_keeps (sub.of (by decide) hm) ?_
      exact hx5
    · exact hx5

theorem writeCmpCtl_keeps {a0 : Nat} {a1 : Nat} {a2 : Word} {s : State} (hm : sub 201344001 m) (h : Keeps m s0 s) :
    Keeps m s0 (writeCmpCtl a0 a1 a2 s) := by
  unfold writeCmpCtl
  refine calGate_keeps (sub.of (by decide) hm) (fun x0 hx0 => ?_) ?_
  · refine applyCmpCtl_keeps (sub.of (by decide) hm) ?_
    exact hx0
  · exact h

theorem applyPga_keeps {a0 : Nat} {a1 : Word} {s : State} (hm : sub 1025 m) (h : Keeps m s0 s) :
    Keeps m s0 (applyPga a0 a1 s) := by
  unfold applyPga
  extract_lets +onlyGivenNames -merge -useContext x0 x1 x2
  try clear_value x0
  have hx1 : Keeps m s0 x1 := by
    refine State.plainWrite_keeps (sub.of (by decide) hm) ?_
    exact h
  clear_value x1
  try clear_value x2
  refine State.setTile_keeps (sub.of (by decide) hm) ?_
  exact hx1

theorem writePga_keeps {a0 : Nat} {a1 : Word} {s : State} (hm : sub 1025 m) (h : Keeps m s0 s) :
    Keeps m s0 (writePga a0 a1 s) := by
  unfold writePga
  refine calGate_keeps (sub.of (by decide) hm) (fun x0 hx0 => ?_) ?_
  · refine applyPga_keeps (sub.of (by decide) hm) ?_
    exact hx0
  · exact h

theorem applyBq_keeps {a0 : Nat} {a1 : Word} {s : State} (hm : sub 201344001 m) (h : Keeps m s0 s) :
    Keeps m s0 (applyBq a0 a1 s) := by
  unfold applyBq
  extract_lets +onlyGivenNames -merge -useContext x0 x1 x2 x3 x4 x5
  try clear_value x0
  try clear_value x1
  try clear_value x2
  try clear_value x3
  have hx4 : Keeps m s0 x4 := by
    refine State.plainWrite_keeps (sub.of (by decide) hm) ?_
    exact h
  clear_value x4
  try clear_value x5
  refine keeps_ite (fun _ => ?_) (fun _ => ?_)
  · refine tileFlag_keeps (sub.of (by decide) hm) ?_
    exact h
  · refine State.setTile_keeps (sub.of (by decide) hm) ?_
    exact hx4

theorem writeBq_keeps {a0 : Nat} {a1 : Word} {s : State} (hm : sub 201344001 m) (h : Keeps m s0 s) :
    Keeps m s0 (writeBq a0 a1 s) := by
  unfold writeBq
  refine calGate_keeps (sub.of (by decide) hm) (fun x0 hx0 => ?_) ?_
  · refine applyBq_keeps (sub.of (by decide) hm) ?_
    exact hx0
  · exact h

theorem reportLevel_keeps {a0 : Nat} {a1 : Nat} {a2 : Bool} {s : State} (hm : sub 1543534145 m) (h : Keeps m s0 s) :
    Keeps m s0 (reportLevel a0 a1 a2 s) := by
  unfold reportLevel
  extract_lets +onlyGivenNames -merge -useContext x0 x1 x2 x3
  try clear_value x0
  try clear_value x1
  have hx2 : Keeps m s0 x2 := by
    refine State.setTile_keeps (sub.of (by decide) hm) ?_
    exact h
  clear_value x2
  have hx3 : Keeps m s0 x3 := by
    refine keeps_ite (fun _ => ?_) (fun _ => ?_)
    · refine State.countUp_keeps (sub.of (by decide) hm) ?_
      exact hx2
    · exact hx2
  clear_value x3
  refine keeps_ite (fun _ => ?_) (fun _ => ?_)
  · exact h
  · refine tripsOf_keeps (sub.of (by decide) hm) ?_
    refine sourceLevel_keeps (sub.of (by decide) hm) ?_
    exact hx3

theorem idleReport_keeps {a0 : Nat} {a1 : Nat} {s : State} (hm : sub 1543534145 m) (h : Keeps m s0 s) :
    Keeps m s0 (idleReport a0 a1 s) := by
  unfold idleReport
  refine reportLevel_keeps (sub.of (by decide) hm) ?_
  exact h

theorem windowReport_keeps {a0 : Nat} {a1 : Nat} {s : State} (hm : sub 1543534145 m) (h : Keeps m s0 s) :
    Keeps m s0 (windowReport a0 a1 s) := by
  unfold windowReport
  refine keeps_ite (fun _ => ?_) (fun _ => ?_)
  · refine idleReport_keeps (sub.of (by decide) hm) ?_
    exact h
  · exact h

theorem thresholdSettled_keeps {a0 : Nat} {a1 : Nat} {s : State} (hm : sub 1024 m) (h : Keeps m s0 s) :
    Keeps m s0 (thresholdSettled a0 a1 s) := by
  unfold thresholdSettled
  refine keeps_ite (fun _ => ?_) (fun _ => ?_)
  · refine State.setTile_keeps (sub.of (by decide) hm) ?_
    exact h
  · exact h

theorem edgeSwitch_keeps {a0 : Nat} {s : State} (hm : sub 2048 m) (h : Keeps m s0 s) :
    Keeps m s0 (edgeSwitch a0 s) := by
  unfold edgeSwitch
  refine dceSwitch_keeps (sub.of (by decide) hm) ?_
  exact h

theorem initCmp_keeps {a0 : Nat} {a1 : Nat} {s : State} (hm : sub 1024 m) (h : Keeps m s0 s) :
    Keeps m s0 (initCmp a0 a1 s) := by
  unfold initCmp
  extract_lets +onlyGivenNames -merge -useContext x0 x1 x2
  try clear_value x0
  try clear_value x1
  try clear_value x2
  refine State.setTile_keeps (sub.of (by decide) hm) ?_
  exact h

theorem initPair_keeps {a0 : Nat} {a1 : Nat} {s : State} (hm : sub 1543534145 m) (h : Keeps m s0 s) :
    Keeps m s0 (initPair a0 a1 s) := by
  unfold initPair
  refine idleReport_keeps (sub.of (by decide) hm) ?_
  refine idleReport_keeps (sub.of (by decide) hm) ?_
  refine initCmp_keeps (sub.of (by decide) hm) ?_
  refine initCmp_keeps (sub.of (by decide) hm) ?_
  exact h

theorem biasUp_keeps {a0 : Nat} {s : State} (hm : sub 1543536193 m) (h : Keeps m s0 s) :
    Keeps m s0 (biasUp a0 s) := by
  unfold biasUp
  extract_lets +onlyGivenNames -merge -useContext x0 x1 x2
  try clear_value x0
  have hx1 : Keeps m s0 x1 := by
    refine State.setTile_keeps (sub.of (by decide) hm) ?_
    exact h
  clear_value x1
  have hx2 : Keeps m s0 x2 := by
    refine initPair_keeps (sub.of (by decide) hm) ?_
    refine initPair_keeps (sub.of (by decide) hm) ?_
    exact hx1
  clear_value x2
  refine keeps_foldl (fun x3 y4 hx3 => ?_) _ ?_
  · refine keeps_ite (fun _ => ?_) (fun _ => ?_)
    · refine modStart_keeps (sub.of (by decide) hm) ?_
      exact hx3
    · exact hx3
  · exact hx2

theorem biasReady_keeps {a0 : Nat} {s : State} (hm : sub 1543536193 m) (h : Keeps m s0 s) :
    Keeps m s0 (biasReady a0 s) := by
  unfold biasReady
  refine keeps_ite (fun _ => ?_) (fun _ => ?_)
  · refine biasUp_keeps (sub.of (by decide) hm) ?_
    exact h
  · exact h

theorem tickCmps_keeps {a0 : Nat} {s : State} (hm : sub 1543534145 m) (h : Keeps m s0 s) :
    Keeps m s0 (tickCmps a0 s) := by
  unfold tickCmps
  extract_lets +onlyGivenNames -merge -useContext x0 x1
  try clear_value x0
  have hx1 : Keeps m s0 x1 := by
    refine keeps_foldl (fun x2 y3 hx2 => ?_) _ ?_
    · refine initCmp_keeps (sub.of (by decide) hm) ?_
      exact hx2
    · exact h
  clear_value x1
  refine keeps_foldl (fun x4 y5 hx4 => ?_) _ ?_
  · refine idleReport_keeps (sub.of (by decide) hm) ?_
    exact hx4
  · exact hx1

theorem takeWindow_keeps {a0 : Nat} {a1 : Nat} {s : State} (hm : sub 1543534145 m) (h : Keeps m s0 s) :
    Keeps m s0 (takeWindow a0 a1 s) := by
  unfold takeWindow
  extract_lets +onlyGivenNames -merge -useContext x0 x1 x2
  try clear_value x0
  try clear_value x1
  have hx2 : Keeps m s0 x2 := by
    refine State.setTile_keeps (sub.of (by decide) hm) ?_
    exact h
  clear_value x2
  refine keeps_ite (fun _ => ?_) (fun _ => ?_)
  · refine keeps_ite (fun _ => ?_) (fun _ => ?_)
    · exact hx2
    · refine idleReport_keeps (sub.of (by decide) hm) ?_
      exact hx2
  · exact h

theorem switchClose_keeps {a0 : Nat} {s : State} (hm : sub 1543536193 m) (h : Keeps m s0 s) :
    Keeps m s0 (switchClose a0 s) := by
  unfold switchClose
  extract_lets +onlyGivenNames -merge -useContext x0 x1 x2 x3
  try clear_value x0
  try clear_value x1
  try clear_value x2
  have hx3 : Keeps m s0 x3 := by
    refine State.setTile_keeps (sub.of (by decide) hm) ?_
    exact h
  clear_value x3
  refine keeps_foldl (fun x4 y5 hx4 => ?_) _ ?_
  · refine keeps_ite (fun _ => ?_) (fun _ => ?_)
    · refine dceSwitch_keeps (sub.of (by decide) hm) ?_
      exact hx4
    · refine keeps_ite (fun _ => ?_) (fun _ => ?_)
      · refine initPair_keeps (sub.of (by decide) hm) ?_
        exact hx4
      · exact hx4
  · exact hx3

theorem modSwitch_keeps {a0 : Nat} {a1 : Nat} {s : State} (hm : sub 2048 m) (h : Keeps m s0 s) :
    Keeps m s0 (modSwitch a0 a1 s) := by
  unfold modSwitch
  refine keeps_ite (fun _ => ?_) (fun _ => ?_)
  · refine dceSwitch_keeps (sub.of (by decide) hm) ?_
    exact h
  · exact h

theorem pgaClip_keeps {a0 : Nat} {a1 : Nat} {a2 : Int} {s : State} (hm : sub 201342977 m) (h : Keeps m s0 s) :
    Keeps m s0 (pgaClip a0 a1 a2 s) := by
  unfold pgaClip
  extract_lets +onlyGivenNames -merge -useContext x0 x1
  try clear_value x0
  try clear_value x1
  refine keeps_ite (fun _ => ?_) (fun _ => ?_)
  · refine tileFlag_keeps (sub.of (by decide) hm) ?_
    exact h
  · exact h

theorem modOverload_keeps {a0 : Nat} {a1 : Nat} {a2 : List Int} {s : State} (hm : sub 201344001 m) (h : Keeps m s0 s) :
    Keeps m s0 (modOverload a0 a1 a2 s) := by
  unfold modOverload
  refine keeps_ite (fun _ => ?_) (fun _ => ?_)
  · refine declareOver_keeps (sub.of (by decide) hm) ?_
    exact h
  · exact h

theorem holdBiquad_keeps {a0 : Nat} {a1 : Nat} {a2 : Int} {s : State} (hm : sub 1024 m) (h : Keeps m s0 s) :
    Keeps m s0 (holdBiquad a0 a1 a2 s) := by
  unfold holdBiquad
  split
  · exact h
  · extract_lets +onlyGivenNames -merge -useContext x0
    try clear_value x0
    refine keeps_ite (fun _ => ?_) (fun _ => ?_)
    · refine State.setTile_keeps (sub.of (by decide) hm) ?_
      exact h
    · exact h

theorem compareNow_keeps {a0 : Nat} {a1 : Nat} {a2 : Int} {s : State} (hm : sub 1543534145 m) (h : Keeps m s0 s) :
    Keeps m s0 (compareNow a0 a1 a2 s) := by
  unfold compareNow
  extract_lets +onlyGivenNames -merge -useContext x0 x1 x2
  try clear_value x0
  try clear_value x1
  try clear_value x2
  refine keeps_ite (fun _ => ?_) (fun _ => ?_)
  · exact h
  · split
    · rename_i z3 z4 e5
      have hz4 : Keeps m s0 z4 := by
        have q : _ = z4 := congrArg Prod.snd e5
        rw [← q]
        refine State.takeFree_keeps (sub.of (by decide) hm) ?_
        exact h
      extract_lets +onlyGivenNames -merge -useContext x6 x7 x8
      try clear_value x6
      have hx7 : Keeps m s0 x7 := by
        refine holdBiquad_keeps (sub.of (by decide) hm) ?_
        exact hz4
      clear_value x7
      try clear_value x8
      refine reportLevel_keeps (sub.of (by decide) hm) ?_
      refine State.setTile_keeps (sub.of (by decide) hm) ?_
      exact hx7

theorem biquadClip_keeps {a0 : Nat} {a1 : Int} {s : State} (hm : sub 201342977 m) (h : Keeps m s0 s) :
    Keeps m s0 (biquadClip a0 a1 s) := by
  unfold biquadClip
  extract_lets +onlyGivenNames -merge -useContext x0
  try clear_value x0
  refine keeps_ite (fun _ => ?_) (fun _ => ?_)
  · refine tileFlag_keeps (sub.of (by decide) hm) ?_
    exact h
  · exact h

end Sys2Proof.Machine
end

