-- ==== Sys2Proof/Laws/Frame/Drive.lean ====
section
/-!
SUPPORT. What the functions of Machine/Drive.lean touch: one lemma each, in the terms of `Keeps`.
-/
namespace Sys2Proof.Machine

variable {m : Nat} {s0 : State}

theorem dacFlag_keeps {a0 : Nat} {a1 : Fld} {s : State} (hm : sub 201342977 m) (h : Keeps m s0 s) :
    Keeps m s0 (dacFlag a0 a1 s) := by
  unfold dacFlag
  refine State.flag_keeps (sub.of (by decide) hm) ?_
  exact h

theorem calFlag_keeps {a0 : Nat} {a1 : Fld} {s : State} (hm : sub 201342977 m) (h : Keeps m s0 s) :
    Keeps m s0 (calFlag a0 a1 s) := by
  unfold calFlag
  refine State.flag_keeps (sub.of (by decide) hm) ?_
  exact h

theorem presentCode_keeps {a0 : Nat} {s : State} (hm : sub 201342977 m) (h : Keeps m s0 s) :
    Keeps m s0 (presentCode a0 s) := by
  unfold presentCode
  extract_lets +onlyGivenNames -merge -useContext x0 x1
  try clear_value x0
  have hx1 : Keeps m s0 x1 := by
    refine keeps_ite (fun _ => ?_) (fun _ => ?_)
    · refine dacFlag_keeps (sub.of (by decide) hm) ?_
      exact h
    · exact h
  clear_value x1
  refine keeps_ite (fun _ => ?_) (fun _ => ?_)
  · refine calFlag_keeps (sub.of (by decide) hm) ?_
    exact hx1
  · exact hx1

theorem setClr_keeps {a0 : Nat} {a1 : ClrPin} {s : State} (hm : sub 1024 m) (h : Keeps m s0 s) :
    Keeps m s0 (setClr a0 a1 s) := by
  unfold setClr
  extract_lets +onlyGivenNames -merge -useContext x0
  try clear_value x0
  refine keeps_arr (sub.of (by decide) hm) ?_ _
  exact h

theorem State.setDac_keeps {s : State} {a1 : Nat} {a2 : Dac} (hm : sub 1024 m) (h : Keeps m s0 s) :
    Keeps m s0 (State.setDac s a1 a2) := by
  unfold State.setDac
  extract_lets +onlyGivenNames -merge -useContext x0
  try clear_value x0
  refine keeps_arr (sub.of (by decide) hm) ?_ _
  exact h

theorem endClear_keeps {a0 : Nat} {s : State} (hm : sub 1024 m) (h : Keeps m s0 s) :
    Keeps m s0 (endClear a0 s) := by
  unfold endClear
  extract_lets +onlyGivenNames -merge -useContext x0
  try clear_value x0
  refine keeps_ite (fun _ => ?_) (fun _ => ?_)
  · refine State.setDac_keeps (sub.of (by decide) hm) ?_
    exact h
  · exact h

theorem clearRelease_keeps {a0 : Nat} {s : State} (hm : sub 1024 m) (h : Keeps m s0 s) :
    Keeps m s0 (clearRelease a0 s) := by
  unfold clearRelease
  extract_lets +onlyGivenNames -merge -useContext x0
  try clear_value x0
  refine keeps_ite (fun _ => ?_) (fun _ => ?_)
  · refine keeps_foldl (fun x1 y2 hx1 => ?_) _ ?_
    · refine endClear_keeps (sub.of (by decide) hm) ?_
      exact hx1
    · refine setClr_keeps (sub.of (by decide) hm) ?_
      exact h
  · exact h

theorem noteWave_keeps {a0 : Nat} {a1 : Nat} {s : State} (hm : sub 1024 m) (h : Keeps m s0 s) :
    Keeps m s0 (noteWave a0 a1 s) := by
  unfold noteWave
  extract_lets +onlyGivenNames -merge -useContext x0 x1 x2 x3 x4
  try clear_value x0
  try clear_value x1
  try clear_value x2
  try clear_value x3
  try clear_value x4
  refine State.setDac_keeps (sub.of (by decide) hm) ?_
  exact h

theorem clipClear_keeps {a0 : Nat} {s : State} (hm : sub 201342977 m) (h : Keeps m s0 s) :
    Keeps m s0 (clipClear a0 s) := by
  unfold clipClear
  refine keeps_ite (fun _ => ?_) (fun _ => ?_)
  · refine calFlag_keeps (sub.of (by decide) hm) ?_
    exact h
  · exact h

theorem applyRange_keeps {a0 : Nat} {a1 : Nat} {s : State} (hm : sub 201344001 m) (h : Keeps m s0 s) :
    Keeps m s0 (applyRange a0 a1 s) := by
  unfold applyRange
  extract_lets +onlyGivenNames -merge -useContext x0
  try clear_value x0
  refine keeps_ite (fun _ => ?_) (fun _ => ?_)
  · exact h
  · refine presentCode_keeps (sub.of (by decide) hm) ?_
    refine clipClear_keeps (sub.of (by decide) hm) ?_
    refine State.setDac_keeps (sub.of (by decide) hm) ?_
    exact h

theorem applyPend_keeps {a0 : Nat} {s : State} (hm : sub 201344001 m) (h : Keeps m s0 s) :
    Keeps m s0 (applyPend a0 s) := by
  unfold applyPend
  extract_lets +onlyGivenNames -merge -useContext x0 x1 x2
  try clear_value x0
  try clear_value x1
  have hx2 : Keeps m s0 x2 := by
    refine State.setDac_keeps (sub.of (by decide) hm) ?_
    exact h
  clear_value x2
  refine keeps_ite (fun _ => ?_) (fun _ => ?_)
  · refine presentCode_keeps (sub.of (by decide) hm) ?_
    exact hx2
  · refine applyRange_keeps (sub.of (by decide) hm) ?_
    exact hx2

theorem programEnd_keeps {a0 : Nat} {s : State} (hm : sub 201344001 m) (h : Keeps m s0 s) :
    Keeps m s0 (programEnd a0 s) := by
  unfold programEnd
  extract_lets +onlyGivenNames -merge -useContext x0
  try clear_value x0
  split
  · exact h
  · extract_lets +onlyGivenNames -merge -useContext x1 x2
    try clear_value x1
    have hx2 : Keeps m s0 x2 := by
      refine State.setDac_keeps (sub.of (by decide) hm) ?_
      exact h
    clear_value x2
    refine keeps_ite (fun _ => ?_) (fun _ => ?_)
    · exact h
    · refine keeps_ite (fun _ => ?_) (fun _ => ?_)
      · refine applyPend_keeps (sub.of (by decide) hm) ?_
        exact hx2
      · refine presentCode_keeps (sub.of (by decide) hm) ?_
        exact hx2

theorem rangeHoldEnd_keeps {a0 : Nat} {s : State} (hm : sub 201344001 m) (h : Keeps m s0 s) :
    Keeps m s0 (rangeHoldEnd a0 s) := by
  unfold rangeHoldEnd
  extract_lets +onlyGivenNames -merge -useContext x0 x1
  try clear_value x0
  have hx1 : Keeps m s0 x1 := by
    refine State.setDac_keeps (sub.of (by decide) hm) ?_
    exact h
  clear_value x1
  refine keeps_ite (fun _ => ?_) (fun _ => ?_)
  · exact h
  · refine keeps_ite (fun _ => ?_) (fun _ => ?_)
    · refine applyPend_keeps (sub.of (by decide) hm) ?_
      exact hx1
    · refine presentCode_keeps (sub.of (by decide) hm) ?_
      exact hx1

theorem dacReport_keeps {a0 : Nat} {s : State} (hm : sub 469790721 m) (h : Keeps m s0 s) :
    Keeps m s0 (dacReport a0 s) := by
  unfold dacReport
  refine keeps_ite (fun _ => ?_) (fun _ => ?_)
  · refine pointReport_keeps (sub.of (by decide) hm) ?_
    exact h
  · exact h

theorem dacFault_keeps {a0 : Nat} {a1 : Fld} {s : State} (hm : sub 469790721 m) (h : Keeps m s0 s) :
    Keeps m s0 (dacFault a0 a1 s) := by
  unfold dacFault
  refine dacReport_keeps (sub.of (by decide) hm) ?_
  refine dacFlag_keeps (sub.of (by decide) hm) ?_
  exact h

theorem takeSwap_keeps {a0 : Nat} {s : State} (hm : sub 469791745 m) (h : Keeps m s0 s) :
    Keeps m s0 (takeSwap a0 s) := by
  unfold takeSwap
  extract_lets +onlyGivenNames -merge -useContext x0 x1 x2 x3
  try clear_value x0
  have hx1 : Keeps m s0 x1 := by
    refine State.setDac_keeps (sub.of (by decide) hm) ?_
    exact h
  clear_value x1
  try clear_value x2
  try clear_value x3
  split
  · exact h
  · refine keeps_ite (fun _ => ?_) (fun _ => ?_)
    · exact h
    · refine keeps_ite (fun _ => ?_) (fun _ => ?_)
      · refine dacFlag_keeps (sub.of (by decide) hm) ?_
        exact hx1
      · refine keeps_ite (fun _ => ?_) (fun _ => ?_)
        · refine dacFault_keeps (sub.of (by decide) hm) ?_
          exact hx1
        · refine keeps_ite (fun _ => ?_) (fun _ => ?_)
          · refine dacFlag_keeps (sub.of (by decide) hm) ?_
            refine State.setDac_keeps (sub.of (by decide) hm) ?_
            exact hx1
          · refine State.setDac_keeps (sub.of (by decide) hm) ?_
            exact hx1

theorem dacStartOne_keeps {a0 : Nat} {s : State} (hm : sub 469791745 m) (h : Keeps m s0 s) :
    Keeps m s0 (dacStartOne a0 s) := by
  unfold dacStartOne
  extract_lets +onlyGivenNames -merge -useContext x0 x1 x2 x3 x4
  try clear_value x0
  have hx1 : Keeps m s0 x1 := by
    refine takeSwap_keeps (sub.of (by decide) hm) ?_
    exact h
  clear_value x1
  try clear_value x2
  have hx3 : Keeps m s0 x3 := by
    refine State.setDac_keeps (sub.of (by decide) hm) ?_
    exact hx1
  clear_value x3
  have hx4 : Keeps m s0 x4 := by
    refine clipClear_keeps (sub.of (by decide) hm) ?_
    exact hx3
  clear_value x4
  refine keeps_ite (fun _ => ?_) (fun _ => ?_)
  · refine dacFault_keeps (sub.of (by decide) hm) ?_
    exact h
  · refine keeps_ite (fun _ => ?_) (fun _ => ?_)
    · refine dacFlag_keeps (sub.of (by decide) hm) ?_
      exact h
    · refine keeps_ite (fun _ => ?_) (fun _ => ?_)
      · refine dacFault_keeps (sub.of (by decide) hm) ?_
        exact h
      · refine keeps_ite (fun _ => ?_) (fun _ => ?_)
        · refine dacFault_keeps (sub.of (by decide) hm) ?_
          exact hx1
        · refine keeps_ite (fun _ => ?_) (fun _ => ?_)
          · refine dacFault_keeps (sub.of (by decide) hm) ?_
            exact hx4
          · refine presentCode_keeps (sub.of (by decide) hm) ?_
            exact hx4

theorem dacGo_keeps {a0 : Nat} {s : State} (hm : sub 469791745 m) (h : Keeps m s0 s) :
    Keeps m s0 (dacGo a0 s) := by
  unfold dacGo
  extract_lets +onlyGivenNames -merge -useContext x0
  try clear_value x0
  refine keeps_ite (fun _ => ?_) (fun _ => ?_)
  · refine dacStartOne_keeps (sub.of (by decide) hm) ?_
    refine State.setDac_keeps (sub.of (by decide) hm) ?_
    exact h
  · exact h

theorem crossFadeEnd_keeps {a0 : Nat} {s : State} (hm : sub 201344001 m) (h : Keeps m s0 s) :
    Keeps m s0 (crossFadeEnd a0 s) := by
  unfold crossFadeEnd
  extract_lets +onlyGivenNames -merge -useContext x0
  try clear_value x0
  split
  · refine keeps_ite (fun _ => ?_) (fun _ => ?_)
    · refine dacFlag_keeps (sub.of (by decide) hm) ?_
      refine State.setDac_keeps (sub.of (by decide) hm) ?_
      exact h
    · exact h
  · exact h

theorem dacDue_keeps {a0 : Nat} {s : State} (hm : sub 469791745 m) (h : Keeps m s0 s) :
    Keeps m s0 (dacDue a0 s) := by
  unfold dacDue
  refine crossFadeEnd_keeps (sub.of (by decide) hm) ?_
  refine programEnd_keeps (sub.of (by decide) hm) ?_
  refine dacGo_keeps (sub.of (by decide) hm) ?_
  refine rangeHoldEnd_keeps (sub.of (by decide) hm) ?_
  exact h

theorem exchangeRoles_keeps {a0 : Nat} {a1 : Nat} {a2 : Nat} {s : State} (hm : sub 1025 m) (h : Keeps m s0 s) :
    Keeps m s0 (exchangeRoles a0 a1 a2 s) := by
  unfold exchangeRoles
  extract_lets +onlyGivenNames -merge -useContext x0 x1 x2 x3
  have hx0 : Keeps m s0 x0 := by
    refine State.setFld_keeps (sub.of (by decide) hm) ?_
    refine State.setFld_keeps (sub.of (by decide) hm) ?_
    exact h
  clear_value x0
  try clear_value x1
  have hx2 : Keeps m s0 x2 := by
    refine State.setDac_keeps (sub.of (by decide) hm) ?_
    exact hx0
  clear_value x2
  try clear_value x3
  refine State.setDac_keeps (sub.of (by decide) hm) ?_
  exact hx2

theorem takeover_keeps {a0 : Nat} {a1 : Nat} {a2 : Nat} {s : State} (hm : sub 469791745 m) (h : Keeps m s0 s) :
    Keeps m s0 (takeover a0 a1 a2 s) := by
  unfold takeover
  extract_lets +onlyGivenNames -merge -useContext x0 x1 x2 x3 x4
  have hx0 : Keeps m s0 x0 := by
    refine exchangeRoles_keeps (sub.of (by decide) hm) ?_
    exact h
  clear_value x0
  have hx1 : Keeps m s0 x1 := by
    refine State.setBit_keeps (sub.of (by decide) hm) ?_
    exact hx0
  clear_value x1
  try clear_value x2
  have hx3 : Keeps m s0 x3 := by
    refine State.setDac_keeps (sub.of (by decide) hm) ?_
    exact hx1
  clear_value x3
  have hx4 : Keeps m s0 x4 := by
    refine dacFault_keeps (sub.of (by decide) hm) ?_
    refine dacFault_keeps (sub.of (by decide) hm) ?_
    exact hx3
  clear_value x4
  refine openSpanFor_keeps (sub.of (by decide) hm) ?_
  exact hx4

theorem touchSamples_keeps {a0 : Nat} {s : State} (hm : sub 65536 m) (h : Keeps m s0 s) :
    Keeps m s0 (touchSamples a0 s) := by
  unfold touchSamples
  refine keeps_foldl (fun x0 y1 hx0 => ?_) _ ?_
  · refine touchWord_keeps (sub.of (by decide) hm) ?_
    exact hx0
  · exact h

theorem dacPoison_keeps {a0 : Nat} {s : State} (hm : sub 469988369 m) (h : Keeps m s0 s) :
    Keeps m s0 (dacPoison a0 s) := by
  unfold dacPoison
  extract_lets +onlyGivenNames -merge -useContext x0 x1
  have hx0 : Keeps m s0 x0 := by
    refine touchSamples_keeps (sub.of (by decide) hm) ?_
    exact h
  clear_value x0
  have hx1 : Keeps m s0 x1 := by
    refine dacReport_keeps (sub.of (by decide) hm) ?_
    refine keeps_foldl (fun x2 y3 hx2 => ?_) _ ?_
    · refine noteUes_keeps (sub.of (by decide) hm) ?_
      exact hx2
    · exact hx0
  clear_value x1
  refine keeps_ite (fun _ => ?_) (fun _ => ?_)
  · exact hx0
  · refine keeps_ite (fun _ => ?_) (fun _ => ?_)
    · exact hx1
    · refine keeps_ite (fun _ => ?_) (fun _ => ?_)
      · refine State.setBit_keeps (sub.of (by decide) hm) ?_
        exact hx1
      · refine takeover_keeps (sub.of (by decide) hm) ?_
        exact hx1

theorem standbyDrive_keeps {a0 : Nat} {s : State} (hm : sub 268436480 m) (h : Keeps m s0 s) :
    Keeps m s0 (standbyDrive a0 s) := by
  unfold standbyDrive
  extract_lets +onlyGivenNames -merge -useContext x0 x1
  try clear_value x0
  have hx1 : Keeps m s0 x1 := by
    refine State.setDac_keeps (sub.of (by decide) hm) ?_
    exact h
  clear_value x1
  refine keeps_ite (fun _ => ?_) (fun _ => ?_)
  · exact h
  · split
    · refine State.logFault_keeps (sub.of (by decide) hm) ?_
      exact hx1
    · exact hx1

theorem drvClockBack_keeps {s : State} (hm : sub 1024 m) (h : Keeps m s0 s) :
    Keeps m s0 (drvClockBack s) := by
  unfold drvClockBack
  refine keeps_foldl (fun x0 y1 hx0 => ?_) _ ?_
  · refine endClear_keeps (sub.of (by decide) hm) ?_
    exact hx0
  · exact h

theorem writePalette_keeps {a0 : Nat} {a1 : Nat} {a2 : Nat} {a3 : Word} {s : State} (hm : sub 201342977 m) (h : Keeps m s0 s) :
    Keeps m s0 (writePalette a0 a1 a2 a3 s) := by
  unfold writePalette
  refine keeps_ite (fun _ => ?_) (fun _ => ?_)
  · refine dacFlag_keeps (sub.of (by decide) hm) ?_
    exact h
  · refine State.plainWrite_keeps (sub.of (by decide) hm) ?_
    exact h

theorem writeDacCode_keeps {a0 : Nat} {a1 : Word} {s : State} (hm : sub 1025 m) (h : Keeps m s0 s) :
    Keeps m s0 (writeDacCode a0 a1 s) := by
  unfold writeDacCode
  extract_lets +onlyGivenNames -merge -useContext x0 x1
  have hx0 : Keeps m s0 x0 := by
    refine State.plainWrite_keeps (sub.of (by decide) hm) ?_
    exact h
  clear_value x0
  try clear_value x1
  refine State.setDac_keeps (sub.of (by decide) hm) ?_
  exact hx0

theorem writeClrCode_keeps {a0 : Nat} {a1 : Word} {s : State} (hm : sub 201342977 m) (h : Keeps m s0 s) :
    Keeps m s0 (writeClrCode a0 a1 s) := by
  unfold writeClrCode
  refine clipClear_keeps (sub.of (by decide) hm) ?_
  refine State.plainWrite_keeps (sub.of (by decide) hm) ?_
  exact h

theorem writeSupCtl_keeps {a0 : Nat} {a1 : Word} {s : State} (hm : sub 1 m) (h : Keeps m s0 s) :
    Keeps m s0 (writeSupCtl a0 a1 s) := by
  unfold writeSupCtl
  refine State.plainWrite_keeps (sub.of (by decide) hm) ?_
  exact h

theorem requestSwap_keeps {a0 : Nat} {a1 : Nat} {a2 : Nat} {s : State} (hm : sub 201344001 m) (h : Keeps m s0 s) :
    Keeps m s0 (requestSwap a0 a1 a2 s) := by
  unfold requestSwap
  extract_lets +onlyGivenNames -merge -useContext x0 x1
  try clear_value x0
  have hx1 : Keeps m s0 x1 := by
    refine State.setDac_keeps (sub.of (by decide) hm) ?_
    exact h
  clear_value x1
  refine keeps_ite (fun _ => ?_) (fun _ => ?_)
  · refine dacFlag_keeps (sub.of (by decide) hm) ?_
    exact hx1
  · exact hx1

theorem writePalCtl_keeps {a0 : Nat} {a1 : Word} {s : State} (hm : sub 201344001 m) (h : Keeps m s0 s) :
    Keeps m s0 (writePalCtl a0 a1 s) := by
  unfold writePalCtl
  extract_lets +onlyGivenNames -merge -useContext x0 x1 x2
  try clear_value x0
  have hx1 : Keeps m s0 x1 := by
    refine State.plainWrite_keeps (sub.of (by decide) hm) ?_
    exact h
  clear_value x1
  have hx2 : Keeps m s0 x2 := by
    refine requestSwap_keeps (sub.of (by decide) hm) ?_
    exact hx1
  clear_value x2
  refine keeps_ite (fun _ => ?_) (fun _ => ?_)
  · exact hx1
  · refine keeps_ite (fun _ => ?_) (fun _ => ?_)
    · refine requestSwap_keeps (sub.of (by decide) hm) ?_
      exact hx2
    · exact hx2

theorem driveAnew_keeps {a0 : Nat} {a1 : Bool} {s : State} (hm : sub 1024 m) (h : Keeps m s0 s) :
    Keeps m s0 (driveAnew a0 a1 s) := by
  unfold driveAnew
  extract_lets +onlyGivenNames -merge -useContext x0
  try clear_value x0
  refine keeps_ite (fun _ => ?_) (fun _ => ?_)
  · refine State.setDac_keeps (sub.of (by decide) hm) ?_
    exact h
  · exact h

theorem writeTwin_keeps {a0 : Nat} {a1 : Word} {s : State} (hm : sub 201344001 m) (h : Keeps m s0 s) :
    Keeps m s0 (writeTwin a0 a1 s) := by
  unfold writeTwin
  extract_lets +onlyGivenNames -merge -useContext x0 x1 x2
  have hx0 : Keeps m s0 x0 := by
    refine driveAnew_keeps (sub.of (by decide) hm) ?_
    refine State.plainWrite_keeps (sub.of (by decide) hm) ?_
    exact h
  clear_value x0
  try clear_value x1
  try clear_value x2
  refine keeps_ite (fun _ => ?_) (fun _ => ?_)
  · exact hx0
  · refine keeps_ite (fun _ => ?_) (fun _ => ?_)
    · refine dacFlag_keeps (sub.of (by decide) hm) ?_
      exact hx0
    · refine State.setDac_keeps (sub.of (by decide) hm) ?_
      exact hx0

theorem writeDacCtl_keeps {a0 : Nat} {a1 : Word} {s : State} (hm : sub 201344001 m) (h : Keeps m s0 s) :
    Keeps m s0 (writeDacCtl a0 a1 s) := by
  unfold writeDacCtl
  extract_lets +onlyGivenNames -merge -useContext x0 x1 x2 x3 x4 x5 x6 x7 x8 x9 x10 x11 x12
  try clear_value x0
  try clear_value x1
  try clear_value x2
  try clear_value x3
  try clear_value x4
  try clear_value x5
  have hx6 : Keeps m s0 x6 := by
    refine driveAnew_keeps (sub.of (by decide) hm) ?_
    refine State.plainWrite_keeps (sub.of (by decide) hm) ?_
    exact h
  clear_value x6
  have hx7 : Keeps m s0 x7 := by
    refine keeps_ite (fun _ => ?_) (fun _ => ?_)
    · refine dacFlag_keeps (sub.of (by decide) hm) ?_
      exact hx6
    · exact hx6
  clear_value x7
  try clear_value x8
  have hx9 : Keeps m s0 x9 := by
    refine keeps_ite (fun _ => ?_) (fun _ => ?_)
    · refine State.setDac_keeps (sub.of (by decide) hm) ?_
      exact hx7
    · exact hx7
  clear_value x9
  try clear_value x10
  try clear_value x11
  try clear_value x12
  refine keeps_ite (fun _ => ?_) (fun _ => ?_)
  · exact hx9
  · refine keeps_ite (fun _ => ?_) (fun _ => ?_)
    · refine State.setDac_keeps (sub.of (by decide) hm) ?_
      exact hx9
    · refine keeps_ite (fun _ => ?_) (fun _ => ?_)
      · refine State.setDac_keeps (sub.of (by decide) hm) ?_
        exact hx9
      · refine State.setDac_keeps (sub.of (by decide) hm) ?_
        exact hx9

theorem supHold_keeps {a0 : Nat} {s : State} (hm : sub 1024 m) (h : Keeps m s0 s) :
    Keeps m s0 (supHold a0 s) := by
  unfold supHold
  extract_lets +onlyGivenNames -merge -useContext x0
  try clear_value x0
  refine keeps_ite (fun _ => ?_) (fun _ => ?_)
  · exact h
  · refine State.setDac_keeps (sub.of (by decide) hm) ?_
    exact h

theorem setGo_keeps {a0 : Nat} {s : State} (hm : sub 1024 m) (h : Keeps m s0 s) :
    Keeps m s0 (setGo a0 s) := by
  unfold setGo
  extract_lets +onlyGivenNames -merge -useContext x0
  try clear_value x0
  refine State.setDac_keeps (sub.of (by decide) hm) ?_
  exact h

theorem dacStart_keeps {a0 : Nat} {s : State} (hm : sub 1024 m) (h : Keeps m s0 s) :
    Keeps m s0 (dacStart a0 s) := by
  unfold dacStart
  refine keeps_ite (fun _ => ?_) (fun _ => ?_)
  · refine setGo_keeps (sub.of (by decide) hm) ?_
    refine setGo_keeps (sub.of (by decide) hm) ?_
    exact h
  · refine setGo_keeps (sub.of (by decide) hm) ?_
    exact h

theorem beginClear_keeps {a0 : Nat} {s : State} (hm : sub 469791745 m) (h : Keeps m s0 s) :
    Keeps m s0 (beginClear a0 s) := by
  unfold beginClear
  extract_lets +onlyGivenNames -merge -useContext x0 x1 x2 x3
  try clear_value x0
  have hx1 : Keeps m s0 x1 := by
    refine State.setDac_keeps (sub.of (by decide) hm) ?_
    exact h
  clear_value x1
  have hx2 : Keeps m s0 x2 := by
    refine keeps_ite (fun _ => ?_) (fun _ => ?_)
    · refine dacFlag_keeps (sub.of (by decide) hm) ?_
      exact hx1
    · exact hx1
  clear_value x2
  have hx3 : Keeps m s0 x3 := by
    refine keeps_ite (fun _ => ?_) (fun _ => ?_)
    · refine applyPend_keeps (sub.of (by decide) hm) ?_
      exact hx2
    · exact hx2
  clear_value x3
  refine keeps_ite (fun _ => ?_) (fun _ => ?_)
  · exact h
  · refine keeps_ite (fun _ => ?_) (fun _ => ?_)
    · refine dacReport_keeps (sub.of (by decide) hm) ?_
      exact hx3
    · exact hx3

theorem drvClockLost_keeps {s : State} (hm : sub 469791745 m) (h : Keeps m s0 s) :
    Keeps m s0 (drvClockLost s) := by
  unfold drvClockLost
  refine keeps_foldl (fun x0 y1 hx0 => ?_) _ ?_
  · refine beginClear_keeps (sub.of (by decide) hm) ?_
    exact hx0
  · exact h

theorem noteNominal_keeps {a0 : Nat} {s : State} (hm : sub 1024 m) (h : Keeps m s0 s) :
    Keeps m s0 (noteNominal a0 s) := by
  unfold noteNominal
  extract_lets +onlyGivenNames -merge -useContext x0
  try clear_value x0
  refine keeps_ite (fun _ => ?_) (fun _ => ?_)
  · exact h
  · refine State.setDac_keeps (sub.of (by decide) hm) ?_
    exact h

theorem tickSource_keeps {a0 : Nat} {s : State} (hm : sub 201344001 m) (h : Keeps m s0 s) :
    Keeps m s0 (tickSource a0 s) := by
  unfold tickSource
  extract_lets +onlyGivenNames -merge -useContext x0 x1 x2
  try clear_value x0
  try clear_value x1
  try clear_value x2
  refine keeps_ite (fun _ => ?_) (fun _ => ?_)
  · refine presentCode_keeps (sub.of (by decide) hm) ?_
    refine State.setDac_keeps (sub.of (by decide) hm) ?_
    exact h
  · exact h

theorem tickRange_keeps {a0 : Nat} {s : State} (hm : sub 201344001 m) (h : Keeps m s0 s) :
    Keeps m s0 (tickRange a0 s) := by
  unfold tickRange
  extract_lets +onlyGivenNames -merge -useContext x0
  try clear_value x0
  refine keeps_ite (fun _ => ?_) (fun _ => ?_)
  · refine applyRange_keeps (sub.of (by decide) hm) ?_
    refine State.setDac_keeps (sub.of (by decide) hm) ?_
    exact h
  · exact h

theorem tickDirect_keeps {a0 : Nat} {s : State} (hm : sub 201344001 m) (h : Keeps m s0 s) :
    Keeps m s0 (tickDirect a0 s) := by
  unfold tickDirect
  extract_lets +onlyGivenNames -merge -useContext x0 x1 x2 x3 x4
  try clear_value x0
  have hx1 : Keeps m s0 x1 := by
    refine State.setDac_keeps (sub.of (by decide) hm) ?_
    exact h
  clear_value x1
  try clear_value x2
  have hx3 : Keeps m s0 x3 := by
    refine State.setDac_keeps (sub.of (by decide) hm) ?_
    exact hx1
  clear_value x3
  try clear_value x4
  refine keeps_ite (fun _ => ?_) (fun _ => ?_)
  · refine keeps_ite (fun _ => ?_) (fun _ => ?_)
    · exact hx1
    · refine keeps_ite (fun _ => ?_) (fun _ => ?_)
      · exact hx3
      · refine presentCode_keeps (sub.of (by decide) hm) ?_
        refine State.setDac_keeps (sub.of (by decide) hm) ?_
        exact hx3
  · exact h

theorem tickDacRest_keeps {a0 : Nat} {s : State} (hm : sub 201344001 m) (h : Keeps m s0 s) :
    Keeps m s0 (tickDacRest a0 s) := by
  unfold tickDacRest
  extract_lets +onlyGivenNames -merge -useContext x0 x1 x2 x3 x4
  try clear_value x0
  try clear_value x1
  have hx2 : Keeps m s0 x2 := by
    refine keeps_ite (fun _ => ?_) (fun _ => ?_)
    · refine presentCode_keeps (sub.of (by decide) hm) ?_
      refine clipClear_keeps (sub.of (by decide) hm) ?_
      refine State.setDac_keeps (sub.of (by decide) hm) ?_
      exact h
    · exact h
  clear_value x2
  have hx3 : Keeps m s0 x3 := by
    unfold x3
    split
    · refine keeps_ite (fun _ => ?_) (fun _ => ?_)
      · refine presentCode_keeps (sub.of (by decide) hm) ?_
        exact hx2
      · exact hx2
    · exact hx2
  clear_value x3
  have hx4 : Keeps m s0 x4 := by
    refine keeps_ite (fun _ => ?_) (fun _ => ?_)
    · refine exchangeRoles_keeps (sub.of (by decide) hm) ?_
      exact hx3
    · exact hx3
  clear_value x4
  refine supHold_keeps (sub.of (by decide) hm) ?_
  exact hx4

theorem tickDac_keeps {a0 : Nat} {s : State} (hm : sub 201344001 m) (h : Keeps m s0 s) :
    Keeps m s0 (tickDac a0 s) := by
  unfold tickDac
  refine tickDacRest_keeps (sub.of (by decide) hm) ?_
  refine tickRange_keeps (sub.of (by decide) hm) ?_
  refine tickDirect_keeps (sub.of (by decide) hm) ?_
  refine tickSource_keeps (sub.of (by decide) hm) ?_
  exact h

theorem modResume_keeps {a0 : Nat} {a1 : Nat} {s : State} (hm : sub 1024 m) (h : Keeps m s0 s) :
    Keeps m s0 (modResume a0 a1 s) := by
  unfold modResume
  extract_lets +onlyGivenNames -merge -useContext x0 x1 x2
  try clear_value x0
  have hx1 : Keeps m s0 x1 := by
    refine State.setTile_keeps (sub.of (by decide) hm) ?_
    exact h
  clear_value x1
  try clear_value x2
  refine keeps_ite (fun _ => ?_) (fun _ => ?_)
  · exact h
  · refine keeps_ite (fun _ => ?_) (fun _ => ?_)
    · refine State.setDac_keeps (sub.of (by decide) hm) ?_
      exact hx1
    · exact hx1

theorem panelClear_keeps {a0 : Nat} {a1 : Bool} {s : State} (hm : sub 1543533569 m) (h : Keeps m s0 s) :
    Keeps m s0 (panelClear a0 a1 s) := by
  unfold panelClear
  extract_lets +onlyGivenNames -merge -useContext x0
  try clear_value x0
  refine keeps_ite (fun _ => ?_) (fun _ => ?_)
  · refine setClr_keeps (sub.of (by decide) hm) ?_
    exact h
  · refine keeps_ite (fun _ => ?_) (fun _ => ?_)
    · refine setClr_keeps (sub.of (by decide) hm) ?_
      exact h
    · split
      · rename_i z1 z2 e3
        have hz2 : Keeps m s0 z2 := by
          have q : _ = z2 := congrArg Prod.snd e3
          rw [← q]
          refine State.takeFree_keeps (sub.of (by decide) hm) ?_
          exact h
        extract_lets +onlyGivenNames -merge -useContext x4
        have hx4 : Keeps m s0 x4 := by
          refine setClr_keeps (sub.of (by decide) hm) ?_
          exact hz2
        clear_value x4
        refine keeps_foldl (fun x5 y6 hx5 => ?_) _ ?_
        · refine beginClear_keeps (sub.of (by decide) hm) ?_
          exact hx5
        · exact hx4

theorem supplyValid_keeps {s : State} (hm : sub 1543534145 m) (h : Keeps m s0 s) :
    Keeps m s0 (supplyValid s) := by
  unfold supplyValid
  extract_lets +onlyGivenNames -merge -useContext x0 x1
  try clear_value x0
  have hx1 : Keeps m s0 x1 := by
    refine keeps_arr (sub.of (by decide) hm) ?_ _
    exact h
  clear_value x1
  refine keeps_ite (fun _ => ?_) (fun _ => ?_)
  · exact h
  · refine keeps_foldl (fun x2 y3 hx2 => ?_) _ ?_
    · refine keeps_foldl (fun x4 y5 hx4 => ?_) _ ?_
      · refine idleReport_keeps (sub.of (by decide) hm) ?_
        exact hx4
      · exact hx2
    · exact hx1

theorem twinFault_keeps {a0 : Nat} {a1 : Bool} {s : State} (hm : sub 469791745 m) (h : Keeps m s0 s) :
    Keeps m s0 (twinFault a0 a1 s) := by
  unfold twinFault
  extract_lets +onlyGivenNames -merge -useContext x0 x1
  try clear_value x0
  try clear_value x1
  refine keeps_ite (fun _ => ?_) (fun _ => ?_)
  · exact h
  · refine keeps_ite (fun _ => ?_) (fun _ => ?_)
    · refine takeover_keeps (sub.of (by decide) hm) ?_
      exact h
    · refine keeps_ite (fun _ => ?_) (fun _ => ?_)
      · refine takeover_keeps (sub.of (by decide) hm) ?_
        exact h
      · exact h

theorem superviseEdge_keeps {a0 : Nat} {s : State} (hm : sub 1543533569 m) (h : Keeps m s0 s) :
    Keeps m s0 (superviseEdge a0 s) := by
  unfold superviseEdge
  extract_lets +onlyGivenNames -merge -useContext x0 x1 x2 x3 x4
  try clear_value x0
  try clear_value x1
  try clear_value x2
  try clear_value x3
  try clear_value x4
  split
  · rename_i z5 z6 e7
    have hz6 : Keeps m s0 z6 := by
      have q : _ = z6 := congrArg Prod.snd e7
      rw [← q]
      refine State.takeFree_keeps (sub.of (by decide) hm) ?_
      exact h
    extract_lets +onlyGivenNames -merge -useContext x8 x9 x10 x11
    try clear_value x8
    have hx9 : Keeps m s0 x9 := by
      refine State.setDac_keeps (sub.of (by decide) hm) ?_
      exact hz6
    clear_value x9
    have hx10 : Keeps m s0 x10 := by
      refine State.setFld_keeps (sub.of (by decide) hm) ?_
      exact hx9
    clear_value x10
    have hx11 : Keeps m s0 x11 := by
      refine State.setFld_keeps (sub.of (by decide) hm) ?_
      exact hx10
    clear_value x11
    refine keeps_ite (fun _ => ?_) (fun _ => ?_)
    · refine keeps_ite (fun _ => ?_) (fun _ => ?_)
      · exact hx11
      · refine twinFault_keeps (sub.of (by decide) hm) ?_
        refine dacFault_keeps (sub.of (by decide) hm) ?_
        exact hx11
    · exact hx10

theorem supervise_keeps {a0 : Nat} {a1 : Int} {s : State} (hm : sub 1543533569 m) (h : Keeps m s0 s) :
    Keeps m s0 (supervise a0 a1 s) := by
  unfold supervise
  extract_lets +onlyGivenNames -merge -useContext x0 x1 x2 x3 x4
  try clear_value x0
  try clear_value x1
  try clear_value x2
  have hx3 : Keeps m s0 x3 := by
    refine modEmit_keeps (sub.of (by decide) hm) ?_
    refine State.setDac_keeps (sub.of (by decide) hm) ?_
    exact h
  clear_value x3
  try clear_value x4
  refine keeps_ite (fun _ => ?_) (fun _ => ?_)
  · exact h
  · refine keeps_ite (fun _ => ?_) (fun _ => ?_)
    · refine State.setDac_keeps (sub.of (by decide) hm) ?_
      exact hx3
    · refine keeps_ite (fun _ => ?_) (fun _ => ?_)
      · exact hx3
      · refine superviseEdge_keeps (sub.of (by decide) hm) ?_
        exact hx3

theorem currentLimit_keeps {a0 : Nat} {a1 : Bool} {s : State} (hm : sub 469791745 m) (h : Keeps m s0 s) :
    Keeps m s0 (currentLimit a0 a1 s) := by
  unfold currentLimit
  extract_lets +onlyGivenNames -merge -useContext x0 x1 x2
  try clear_value x0
  try clear_value x1
  have hx2 : Keeps m s0 x2 := by
    refine State.setDac_keeps (sub.of (by decide) hm) ?_
    exact h
  clear_value x2
  refine keeps_ite (fun _ => ?_) (fun _ => ?_)
  · exact h
  · refine keeps_ite (fun _ => ?_) (fun _ => ?_)
    · refine State.setDac_keeps (sub.of (by decide) hm) ?_
      exact h
    · refine keeps_ite (fun _ => ?_) (fun _ => ?_)
      · refine keeps_ite (fun _ => ?_) (fun _ => ?_)
        · exact hx2
        · refine twinFault_keeps (sub.of (by decide) hm) ?_
          refine dacFault_keeps (sub.of (by decide) hm) ?_
          exact hx2
      · exact hx2

end Sys2Proof.Machine
end

