-- ==== Sys2Proof/Laws/Frame/Queue.lean ====
section
/-!
SUPPORT. What the functions of Machine/Queue.lean touch: one lemma each, in the terms of `Keeps`.
-/
namespace Sys2Proof.Machine

variable {m : Nat} {s0 : State}

theorem readHeadDl_keeps {a0 : Req} {a1 : Nat} {s : State} (hm : sub 2 m) (h : Keeps m s0 s) :
    Keeps m s0 (readHeadDl a0 a1 s).2 := by
  unfold readHeadDl
  dsimp -zeta only
  refine State.setPreg_keeps (sub.of (by decide) hm) ?_
  exact h

theorem readCnt_keeps {a0 : Nat} {s : State} (hm : sub 1 m) (h : Keeps m s0 s) :
    Keeps m s0 (readCnt a0 s).2 := by
  unfold readCnt
  dsimp -zeta only
  refine State.setReg_keeps (sub.of (by decide) hm) ?_
  exact h

theorem jqFlag_keeps {a0 : Nat} {a1 : Fld} {s : State} (hm : sub 201342977 m) (h : Keeps m s0 s) :
    Keeps m s0 (jqFlag a0 a1 s) := by
  unfold jqFlag
  refine State.flag_keeps (sub.of (by decide) hm) ?_
  exact h

theorem fallbackLost_keeps {a0 : Nat} {a1 : List Word} {s : State} (hm : sub 469786625 m) (h : Keeps m s0 s) :
    Keeps m s0 (fallbackLost a0 a1 s) := by
  unfold fallbackLost
  extract_lets +onlyGivenNames -merge -useContext x0
  have hx0 : Keeps m s0 x0 := by
    refine jqFlag_keeps (sub.of (by decide) hm) ?_
    exact h
  clear_value x0
  refine keeps_ite (fun _ => ?_) (fun _ => ?_)
  · exact hx0
  · refine jobMissed_keeps (sub.of (by decide) hm) ?_
    exact hx0

theorem State.setJobs_keeps {s : State} {a1 : Queues} (hm : sub 32768 m) (h : Keeps m s0 s) :
    Keeps m s0 (State.setJobs s a1) := by
  unfold State.setJobs
  refine keeps_jobs (sub.of (by decide) hm) ?_ _
  exact h

theorem State.setJq_keeps {s : State} {a1 : Nat} {a2 : JobQ} (hm : sub 32768 m) (h : Keeps m s0 s) :
    Keeps m s0 (State.setJq s a1 a2) := by
  unfold State.setJq
  extract_lets +onlyGivenNames -merge -useContext x0
  try clear_value x0
  refine State.setJobs_keeps (sub.of (by decide) hm) ?_
  exact h

theorem recordMiss_keeps {a0 : Nat} {a1 : JqEnt} {s : State} (hm : sub 469786625 m) (h : Keeps m s0 s) :
    Keeps m s0 (recordMiss a0 a1 s) := by
  unfold recordMiss
  extract_lets +onlyGivenNames -merge -useContext x0
  have hx0 : Keeps m s0 x0 := by
    refine State.countUp_keeps (sub.of (by decide) hm) ?_
    refine jqFlag_keeps (sub.of (by decide) hm) ?_
    exact h
  clear_value x0
  refine keeps_ite (fun _ => ?_) (fun _ => ?_)
  · exact hx0
  · refine jobMissed_keeps (sub.of (by decide) hm) ?_
    exact hx0

theorem putEnt_keeps {a0 : Nat} {a1 : JqEnt} {s : State} (hm : sub 201441305 m) (h : Keeps m s0 s) :
    Keeps m s0 (putEnt a0 a1 s) := by
  unfold putEnt
  extract_lets +onlyGivenNames -merge -useContext x0 x1 x2 x3
  try clear_value x0
  try clear_value x1
  have hx2 : Keeps m s0 x2 := by
    refine State.setJq_keeps (sub.of (by decide) hm) ?_
    exact h
  clear_value x2
  try clear_value x3
  refine State.hwPut_keeps (sub.of (by decide) hm) ?_
  refine State.hwPut_keeps (sub.of (by decide) hm) ?_
  exact hx2

theorem retireEnt_keeps {a0 : Nat} {a1 : JqEnt} {s : State} (hm : sub 201441305 m) (h : Keeps m s0 s) :
    Keeps m s0 (retireEnt a0 a1 s) := by
  unfold retireEnt
  refine putEnt_keeps (sub.of (by decide) hm) ?_
  exact h

theorem addFallback_keeps {a0 : Nat} {a1 : List Word} {s : State} (hm : sub 32768 m) (h : Keeps m s0 s) :
    Keeps m s0 (addFallback a0 a1 s) := by
  unfold addFallback
  extract_lets +onlyGivenNames -merge -useContext x0
  try clear_value x0
  refine State.setJobs_keeps (sub.of (by decide) hm) ?_
  exact h

theorem applyMiss_keeps {a0 : Nat} {a1 : JqEnt} {s : State} (hm : sub 201441305 m) (h : Keeps m s0 s) :
    Keeps m s0 (applyMiss a0 a1 s) := by
  unfold applyMiss
  extract_lets +onlyGivenNames -merge -useContext x0
  have hx0 : Keeps m s0 x0 := by
    refine keeps_ite (fun _ => ?_) (fun _ => ?_)
    · refine addFallback_keeps (sub.of (by decide) hm) ?_
      exact h
    · exact h
  clear_value x0
  refine keeps_ite (fun _ => ?_) (fun _ => ?_)
  · refine retireEnt_keeps (sub.of (by decide) hm) ?_
    exact hx0
  · refine putEnt_keeps (sub.of (by decide) hm) ?_
    exact hx0

theorem missEnt_keeps {a0 : Nat} {a1 : JqEnt} {s : State} (hm : sub 469884953 m) (h : Keeps m s0 s) :
    Keeps m s0 (missEnt a0 a1 s) := by
  unfold missEnt
  refine applyMiss_keeps (sub.of (by decide) hm) ?_
  refine recordMiss_keeps (sub.of (by decide) hm) ?_
  exact h

theorem jqRefresh_keeps {a0 : Nat} {s : State} (hm : sub 32768 m) (h : Keeps m s0 s) :
    Keeps m s0 (jqRefresh a0 s) := by
  unfold jqRefresh
  extract_lets +onlyGivenNames -merge -useContext x0 x1
  try clear_value x0
  try clear_value x1
  refine State.setJq_keeps (sub.of (by decide) hm) ?_
  exact h

theorem onQueue_keeps {a0 : Nat} {a1 : State → State} {s : State} (hm : sub 32768 m) (hf1 : ∀ x, Keeps m s0 x → Keeps m s0 (a1 x)) (h : Keeps m s0 s) :
    Keeps m s0 (onQueue a0 a1 s) := by
  unfold onQueue
  refine jqRefresh_keeps (sub.of (by decide) hm) ?_
  refine hf1 _ ?_
  refine jqRefresh_keeps (sub.of (by decide) hm) ?_
  exact h

theorem postJob_keeps {a0 : Nat} {a1 : List Word} {s : State} (hm : sub 469884953 m) (h : Keeps m s0 s) :
    Keeps m s0 (postJob a0 a1 s).2 := by
  unfold postJob
  extract_lets +onlyGivenNames -merge -useContext x0 x1 x2 x3 x4
  try clear_value x0
  try clear_value x1
  try clear_value x2
  try clear_value x3
  have hx4 : ∀ z5, Keeps m s0 z5 → Keeps m s0 (x4 z5) := by
    intro z5 hz5
    unfold x4
    extract_lets +onlyGivenNames -merge -useContext x6 x7 x8
    try clear_value x6
    have hx7 : Keeps m s0 x7 := by
      refine State.setJq_keeps (sub.of (by decide) hm) ?_
      exact hz5
    clear_value x7
    have hx8 : Keeps m s0 x8 := by
      refine State.setReg_keeps (sub.of (by decide) hm) ?_
      refine State.hwPut_keeps (sub.of (by decide) hm) ?_
      exact hx7
    clear_value x8
    refine keeps_ite (fun _ => ?_) (fun _ => ?_)
    · refine missEnt_keeps (sub.of (by decide) hm) ?_
      exact hx8
    · exact hx8
  clear_value x4
  refine keeps_ite2 (fun _ => ?_) (fun _ => ?_)
  · dsimp -zeta only
    refine jqFlag_keeps (sub.of (by decide) hm) ?_
    exact h
  · refine keeps_ite2 (fun _ => ?_) (fun _ => ?_)
    · dsimp -zeta only
      refine jqFlag_keeps (sub.of (by decide) hm) ?_
      exact h
    · dsimp -zeta only
      refine onQueue_keeps (sub.of (by decide) hm) (fun x9 hx9 => ?_) ?_
      · refine hx4 _ ?_
        exact hx9
      · exact h

theorem hostPost_keeps {a0 : Req} {a1 : Nat} {a2 : Word} {s : State} (hm : sub 738213891 m) (h : Keeps m s0 s) :
    Keeps m s0 (hostPost a0 a1 a2 s) := by
  unfold hostPost
  extract_lets +onlyGivenNames -merge -useContext x0 x1 x2
  have hx0 : Keeps m s0 x0 := by
    refine State.setPreg_keeps (sub.of (by decide) hm) ?_
    exact h
  clear_value x0
  try clear_value x1
  try clear_value x2
  refine keeps_ite (fun _ => ?_) (fun _ => ?_)
  · exact hx0
  · refine keeps_ite (fun _ => ?_) (fun _ => ?_)
    · refine askPost_keeps (sub.of (by decide) hm) ?_
      refine State.setPreg_keeps (sub.of (by decide) hm) ?_
      exact hx0
    · refine State.setPreg_keeps (sub.of (by decide) hm) ?_
      refine jqFlag_keeps (sub.of (by decide) hm) ?_
      refine noteAsleep_keeps (sub.of (by decide) hm) ?_
      exact hx0

theorem writeJqRing_keeps {a0 : Nat} {a1 : Nat} {a2 : Word} {s : State} (hm : sub 201342977 m) (h : Keeps m s0 s) :
    Keeps m s0 (writeJqRing a0 a1 a2 s) := by
  unfold writeJqRing
  refine keeps_ite (fun _ => ?_) (fun _ => ?_)
  · refine jqFlag_keeps (sub.of (by decide) hm) ?_
    exact h
  · refine State.plainWrite_keeps (sub.of (by decide) hm) ?_
    exact h

theorem writeJqCtl_keeps {a0 : Nat} {a1 : Word} {s : State} (hm : sub 201375745 m) (h : Keeps m s0 s) :
    Keeps m s0 (writeJqCtl a0 a1 s) := by
  unfold writeJqCtl
  extract_lets +onlyGivenNames -merge -useContext x0 x1 x2 x3 x4
  try clear_value x0
  try clear_value x1
  try clear_value x2
  have hx3 : ∀ z5, Keeps m s0 z5 → Keeps m s0 (x3 z5) := by
    intro z5 hz5
    unfold x3
    extract_lets +onlyGivenNames -merge -useContext x6 x7
    try clear_value x6
    have hx7 : Keeps m s0 x7 := by
      refine keeps_ite (fun _ => ?_) (fun _ => ?_)
      · refine State.setJq_keeps (sub.of (by decide) hm) ?_
        exact hz5
      · exact hz5
    clear_value x7
    refine State.plainWrite_keeps (sub.of (by decide) hm) ?_
    exact hx7
  clear_value x3
  have hx4 : Keeps m s0 x4 := by
    refine onQueue_keeps (sub.of (by decide) hm) (fun x8 hx8 => ?_) ?_
    · refine hx3 _ ?_
      exact hx8
    · exact h
  clear_value x4
  refine keeps_ite (fun _ => ?_) (fun _ => ?_)
  · refine jqFlag_keeps (sub.of (by decide) hm) ?_
    exact hx4
  · exact hx4

theorem writeJqAge_keeps {a0 : Nat} {a1 : Word} {s : State} (hm : sub 32769 m) (h : Keeps m s0 s) :
    Keeps m s0 (writeJqAge a0 a1 s) := by
  unfold writeJqAge
  refine onQueue_keeps (sub.of (by decide) hm) (fun x0 hx0 => ?_) ?_
  · refine State.plainWrite_keeps (sub.of (by decide) hm) ?_
    exact hx0
  · exact h

theorem missDetect_keeps {a0 : Nat} {a1 : Nat} {s : State} (hm : sub 469884953 m) (h : Keeps m s0 s) :
    Keeps m s0 (missDetect a0 a1 s) := by
  unfold missDetect
  split
  · refine keeps_ite (fun _ => ?_) (fun _ => ?_)
    · refine onQueue_keeps (sub.of (by decide) hm) (fun x0 hx0 => ?_) ?_
      · refine keeps_ite (fun _ => ?_) (fun _ => ?_)
        · refine retireEnt_keeps (sub.of (by decide) hm) ?_
          exact hx0
        · refine missEnt_keeps (sub.of (by decide) hm) ?_
          exact hx0
      · exact h
    · exact h
  · exact h

theorem ageQueue_keeps {a0 : Nat} {s : State} (hm : sub 32768 m) (h : Keeps m s0 s) :
    Keeps m s0 (ageQueue a0 s) := by
  unfold ageQueue
  extract_lets +onlyGivenNames -merge -useContext x0 x1
  have hx0 : Keeps m s0 x0 := by
    refine jqRefresh_keeps (sub.of (by decide) hm) ?_
    exact h
  clear_value x0
  try clear_value x1
  refine keeps_ite (fun _ => ?_) (fun _ => ?_)
  · refine State.setJq_keeps (sub.of (by decide) hm) ?_
    exact hx0
  · exact hx0

theorem headAdvance_keeps {a0 : Nat} {s : State} (hm : sub 32769 m) (h : Keeps m s0 s) :
    Keeps m s0 (headAdvance a0 s) := by
  unfold headAdvance
  extract_lets +onlyGivenNames -merge -useContext x0 x1
  try clear_value x0
  try clear_value x1
  refine keeps_ite (fun _ => ?_) (fun _ => ?_)
  · exact h
  · refine State.setReg_keeps (sub.of (by decide) hm) ?_
    refine State.setJq_keeps (sub.of (by decide) hm) ?_
    exact h

theorem failEnt_keeps {a0 : Nat} {a1 : JqEnt} {a2 : Nat} {a3 : Nat} {s : State} (hm : sub 469884953 m) (h : Keeps m s0 s) :
    Keeps m s0 (failEnt a0 a1 a2 a3 s) := by
  unfold failEnt
  extract_lets +onlyGivenNames -merge -useContext x0 x1 x2 x3 x4 x5
  have hx0 : Keeps m s0 x0 := by
    refine State.setReg_keeps (sub.of (by decide) hm) ?_
    exact h
  clear_value x0
  have hx1 : Keeps m s0 x1 := by
    refine jqFlag_keeps (sub.of (by decide) hm) ?_
    exact hx0
  clear_value x1
  have hx2 : Keeps m s0 x2 := by
    refine recordMiss_keeps (sub.of (by decide) hm) ?_
    exact hx1
  clear_value x2
  have hx3 : Keeps m s0 x3 := by
    refine keeps_ite (fun _ => ?_) (fun _ => ?_)
    · refine addFallback_keeps (sub.of (by decide) hm) ?_
      exact hx2
    · exact hx2
  clear_value x3
  have hx4 : Keeps m s0 x4 := by
    refine putEnt_keeps (sub.of (by decide) hm) ?_
    exact hx0
  clear_value x4
  have hx5 : Keeps m s0 x5 := by
    refine State.countUp_keeps (sub.of (by decide) hm) ?_
    refine jqFlag_keeps (sub.of (by decide) hm) ?_
    exact hx4
  clear_value x5
  refine keeps_ite (fun _ => ?_) (fun _ => ?_)
  · refine retireEnt_keeps (sub.of (by decide) hm) ?_
    exact hx0
  · refine keeps_ite (fun _ => ?_) (fun _ => ?_)
    · refine keeps_ite (fun _ => ?_) (fun _ => ?_)
      · refine retireEnt_keeps (sub.of (by decide) hm) ?_
        exact hx1
      · refine retireEnt_keeps (sub.of (by decide) hm) ?_
        exact hx3
    · refine keeps_ite (fun _ => ?_) (fun _ => ?_)
      · exact hx5
      · refine jobRetried_keeps (sub.of (by decide) hm) ?_
        exact hx5

theorem fallbackPost_keeps {a0 : Nat} {s : State} (hm : sub 536903680 m) (h : Keeps m s0 s) :
    Keeps m s0 (fallbackPost a0 s) := by
  unfold fallbackPost
  extract_lets +onlyGivenNames -merge -useContext x0
  try clear_value x0
  split
  · exact h
  · refine askPost_keeps (sub.of (by decide) hm) ?_
    refine State.setJobs_keeps (sub.of (by decide) hm) ?_
    exact h

theorem lateFirst_keeps {a0 : Nat} {a1 : Nat} {s : State} (hm : sub 469884953 m) (h : Keeps m s0 s) :
    Keeps m s0 (lateFirst a0 a1 s) := by
  unfold lateFirst
  split
  · refine keeps_ite (fun _ => ?_) (fun _ => ?_)
    · refine missEnt_keeps (sub.of (by decide) hm) ?_
      exact h
    · exact h
  · exact h

theorem failJob_keeps {a0 : Nat} {a1 : Nat} {a2 : Nat} {a3 : Nat} {s : State} (hm : sub 469884953 m) (h : Keeps m s0 s) :
    Keeps m s0 (failJob a0 a1 a2 a3 s) := by
  unfold failJob
  extract_lets +onlyGivenNames -merge -useContext x0
  have hx0 : Keeps m s0 x0 := by
    refine lateFirst_keeps (sub.of (by decide) hm) ?_
    refine jqRefresh_keeps (sub.of (by decide) hm) ?_
    exact h
  clear_value x0
  split
  · exact hx0
  · refine jqRefresh_keeps (sub.of (by decide) hm) ?_
    refine failEnt_keeps (sub.of (by decide) hm) ?_
    exact hx0

theorem unclaim_keeps {a0 : Nat} {a1 : Nat} {s : State} (hm : sub 469884953 m) (h : Keeps m s0 s) :
    Keeps m s0 (unclaim a0 a1 s) := by
  unfold unclaim
  extract_lets +onlyGivenNames -merge -useContext x0
  have hx0 : Keeps m s0 x0 := by
    refine lateFirst_keeps (sub.of (by decide) hm) ?_
    refine jqRefresh_keeps (sub.of (by decide) hm) ?_
    exact h
  clear_value x0
  split
  · exact hx0
  · refine jqRefresh_keeps (sub.of (by decide) hm) ?_
    refine putEnt_keeps (sub.of (by decide) hm) ?_
    exact hx0

theorem doneEnt_keeps {a0 : Nat} {a1 : Nat} {s : State} (hm : sub 469884953 m) (h : Keeps m s0 s) :
    Keeps m s0 (doneEnt a0 a1 s).2 := by
  unfold doneEnt
  extract_lets +onlyGivenNames -merge -useContext x0
  have hx0 : Keeps m s0 x0 := by
    refine lateFirst_keeps (sub.of (by decide) hm) ?_
    refine jqRefresh_keeps (sub.of (by decide) hm) ?_
    exact h
  clear_value x0
  split
  · dsimp -zeta only
    exact hx0
  · extract_lets +onlyGivenNames -merge -useContext x1 x2 x3 x4
    try clear_value x1
    have hx2 : Keeps m s0 x2 := by
      refine retireEnt_keeps (sub.of (by decide) hm) ?_
      exact hx0
    clear_value x2
    have hx3 : Keeps m s0 x3 := by
      refine State.countUp_keeps (sub.of (by decide) hm) ?_
      exact hx2
    clear_value x3
    have hx4 : Keeps m s0 x4 := by
      refine keeps_ite (fun _ => ?_) (fun _ => ?_)
      · exact hx2
      · refine keeps_ite (fun _ => ?_) (fun _ => ?_)
        · exact hx3
        · refine jobDone_keeps (sub.of (by decide) hm) ?_
          exact hx3
    clear_value x4
    dsimp -zeta only
    refine jqRefresh_keeps (sub.of (by decide) hm) ?_
    exact hx4

end Sys2Proof.Machine
end

