-- ==== Sys2Proof/Laws/Frame/EngCore.lean ====
section
/-!
SUPPORT. What the functions of Machine/EngCore.lean touch: one lemma each, in the terms of `Keeps`.
-/
namespace Sys2Proof.Machine

variable {m : Nat} {s0 : State}

theorem setAddr48_keeps {a0 : Nat} {a1 : Addr} {s : State} (hm : sub 1 m) (h : Keeps m s0 s) :
    Keeps m s0 (setAddr48 a0 a1 s) := by
  unfold setAddr48
  refine State.setReg64_keeps (sub.of (by decide) hm) ?_
  exact h

theorem haltEng_keeps {a0 : Nat} {s : State} (hm : sub 16384 m) (h : Keeps m s0 s) :
    Keeps m s0 (haltEng a0 s) := by
  unfold haltEng
  extract_lets +onlyGivenNames -merge -useContext x0
  try clear_value x0
  refine State.setEng_keeps (sub.of (by decide) hm) ?_
  exact h

theorem engFault_keeps {a0 : Nat} {a1 : Nat} {a2 : Nat} {a3 : Addr} {a4 : Addr} {s : State} (hm : sub 16384 m) (h : Keeps m s0 s) :
    Keeps m s0 (engFault a0 a1 a2 a3 a4 s) := by
  unfold engFault
  extract_lets +onlyGivenNames -merge -useContext x0
  try clear_value x0
  refine keeps_ite (fun _ => ?_) (fun _ => ?_)
  · exact h
  · refine State.setEng_keeps (sub.of (by decide) hm) ?_
    exact h

theorem excEntry_keeps {a0 : Nat} {a1 : Nat} {a2 : Nat} {a3 : Addr} {a4 : Addr} {s : State} (hm : sub 16384 m) (h : Keeps m s0 s) :
    Keeps m s0 (excEntry a0 a1 a2 a3 a4 s) := by
  unfold excEntry
  extract_lets +onlyGivenNames -merge -useContext x0
  try clear_value x0
  refine State.setEng_keeps (sub.of (by decide) hm) ?_
  exact h

theorem syncExc_keeps {a0 : Nat} {a1 : Nat} {a2 : Addr} {a3 : Addr} {a4 : Addr} {s : State} (hm : sub 16384 m) (h : Keeps m s0 s) :
    Keeps m s0 (syncExc a0 a1 a2 a3 a4 s) := by
  unfold syncExc
  refine keeps_ite (fun _ => ?_) (fun _ => ?_)
  · refine engFault_keeps (sub.of (by decide) hm) ?_
    exact h
  · refine excEntry_keeps (sub.of (by decide) hm) ?_
    exact h

theorem raiseExc_keeps {a0 : Nat} {a1 : Nat} {a2 : Addr} {s : State} (hm : sub 16384 m) (h : Keeps m s0 s) :
    Keeps m s0 (raiseExc a0 a1 a2 s) := by
  unfold raiseExc
  refine syncExc_keeps (sub.of (by decide) hm) ?_
  exact h

theorem takeBkpt_keeps {a0 : Nat} {s : State} (hm : sub 16384 m) (h : Keeps m s0 s) :
    Keeps m s0 (takeBkpt a0 s) := by
  unfold takeBkpt
  refine keeps_ite (fun _ => ?_) (fun _ => ?_)
  · refine haltEng_keeps (sub.of (by decide) hm) ?_
    exact h
  · refine raiseExc_keeps (sub.of (by decide) hm) ?_
    exact h

theorem resumeEng_keeps {a0 : Nat} {s : State} (hm : sub 16384 m) (h : Keeps m s0 s) :
    Keeps m s0 (resumeEng a0 s) := by
  unfold resumeEng
  extract_lets +onlyGivenNames -merge -useContext x0
  try clear_value x0
  refine keeps_ite (fun _ => ?_) (fun _ => ?_)
  · refine State.setEng_keeps (sub.of (by decide) hm) ?_
    exact h
  · exact h

theorem closeDebug_keeps {s : State} (hm : sub 16385 m) (h : Keeps m s0 s) :
    Keeps m s0 (closeDebug s) := by
  unfold closeDebug
  refine keeps_foldl (fun x0 y1 hx0 => ?_) _ ?_
  · extract_lets +onlyGivenNames -merge -useContext x2
    have hx2 : Keeps m s0 x2 := by
      refine resumeEng_keeps (sub.of (by decide) hm) ?_
      refine State.clrBit_keeps (sub.of (by decide) hm) ?_
      exact hx0
    clear_value x2
    refine keeps_foldl (fun x3 y4 hx3 => ?_) _ ?_
    · refine State.setReg_keeps (sub.of (by decide) hm) ?_
      refine State.setReg_keeps (sub.of (by decide) hm) ?_
      exact hx3
    · exact hx2
  · exact h

theorem setG_keeps {a0 : Nat} {a1 : Nat} {a2 : Word} {s : State} (hm : sub 16384 m) (h : Keeps m s0 s) :
    Keeps m s0 (setG a0 a1 a2 s) := by
  unfold setG
  extract_lets +onlyGivenNames -merge -useContext x0
  try clear_value x0
  refine keeps_ite (fun _ => ?_) (fun _ => ?_)
  · exact h
  · refine State.setEng_keeps (sub.of (by decide) hm) ?_
    exact h

theorem retireTo_keeps {a0 : Nat} {a1 : Addr} {s : State} (hm : sub 16385 m) (h : Keeps m s0 s) :
    Keeps m s0 (retireTo a0 a1 s) := by
  unfold retireTo
  extract_lets +onlyGivenNames -merge -useContext x0
  try clear_value x0
  refine State.countUp_keeps (sub.of (by decide) hm) ?_
  refine State.setEng_keeps (sub.of (by decide) hm) ?_
  exact h

theorem retireNext_keeps {a0 : Nat} {s : State} (hm : sub 16385 m) (h : Keeps m s0 s) :
    Keeps m s0 (retireNext a0 s) := by
  unfold retireNext
  refine retireTo_keeps (sub.of (by decide) hm) ?_
  exact h

theorem noteRefused_keeps {a0 : Nat} {a1 : Bool} {a2 : Nat} {a3 : Nat} {s : State} (hm : sub 201342977 m) (h : Keeps m s0 s) :
    Keeps m s0 (noteRefused a0 a1 a2 a3 s) := by
  unfold noteRefused
  refine noteAsleep_keeps (sub.of (by decide) hm) ?_
  refine noteFence_keeps (sub.of (by decide) hm) ?_
  exact h

theorem noteFetch_keeps {a0 : Nat} {a1 : Nat} {s : State} (hm : sub 469987345 m) (h : Keeps m s0 s) :
    Keeps m s0 (noteFetch a0 a1 s) := by
  unfold noteFetch
  extract_lets +onlyGivenNames -merge -useContext x0
  have hx0 : Keeps m s0 x0 := by
    refine noteRefused_keeps (sub.of (by decide) hm) ?_
    exact h
  clear_value x0
  refine keeps_ite (fun _ => ?_) (fun _ => ?_)
  · refine noteUes_keeps (sub.of (by decide) hm) ?_
    exact hx0
  · exact hx0

theorem stepAfter_keeps {a0 : Nat} {a1 : Engine} {s : State} (hm : sub 16384 m) (h : Keeps m s0 s) :
    Keeps m s0 (stepAfter a0 a1 s) := by
  unfold stepAfter
  extract_lets +onlyGivenNames -merge -useContext x0
  try clear_value x0
  refine keeps_ite (fun _ => ?_) (fun _ => ?_)
  · exact h
  · refine keeps_ite (fun _ => ?_) (fun _ => ?_)
    · refine State.setEng_keeps (sub.of (by decide) hm) ?_
      exact h
    · refine haltEng_keeps (sub.of (by decide) hm) ?_
      exact h

theorem issueNow_keeps {a0 : Nat} {a1 : Op} {a2 : State → State} {s : State} (hm : sub 16384 m) (hf2 : ∀ x, Keeps m s0 x → Keeps m s0 (a2 x)) (h : Keeps m s0 s) :
    Keeps m s0 (issueNow a0 a1 a2 s) := by
  unfold issueNow
  extract_lets +onlyGivenNames -merge -useContext x0
  try clear_value x0
  refine stepAfter_keeps (sub.of (by decide) hm) ?_
  refine hf2 _ ?_
  refine State.setEng_keeps (sub.of (by decide) hm) ?_
  exact h

theorem takeAsync_keeps {a0 : Nat} {a1 : Nat} {a2 : Nat} {s : State} (hm : sub 16384 m) (h : Keeps m s0 s) :
    Keeps m s0 (takeAsync a0 a1 a2 s) := by
  unfold takeAsync
  extract_lets +onlyGivenNames -merge -useContext x0 x1
  try clear_value x0
  try clear_value x1
  refine excEntry_keeps (sub.of (by decide) hm) ?_
  refine State.setEng_keeps (sub.of (by decide) hm) ?_
  exact h

theorem fillWay_keeps {a0 : Nat} {a1 : Nat} {a2 : Nat} {s : State} (hm : sub 16384 m) (h : Keeps m s0 s) :
    Keeps m s0 (fillWay a0 a1 a2 s) := by
  unfold fillWay
  extract_lets +onlyGivenNames -merge -useContext x0
  try clear_value x0
  refine State.setEng_keeps (sub.of (by decide) hm) ?_
  exact h

theorem fetchLine_keeps {a0 : Nat} {a1 : Nat} {s : State} (hm : sub 81920 m) (h : Keeps m s0 s) :
    Keeps m s0 (fetchLine a0 a1 s) := by
  unfold fetchLine
  extract_lets +onlyGivenNames -merge -useContext x0
  try clear_value x0
  refine keeps_ite (fun _ => ?_) (fun _ => ?_)
  · exact h
  · refine fillWay_keeps (sub.of (by decide) hm) ?_
    refine touchRow_keeps (sub.of (by decide) hm) ?_
    exact h

theorem issue_keeps {a0 : Nat} {a1 : Op} {a2 : State → State} {s : State} (hm : sub 469987345 m) (hf2 : ∀ x, Keeps m s0 x → Keeps m s0 (a2 x)) (h : Keeps m s0 s) :
    Keeps m s0 (issue a0 a1 a2 s) := by
  unfold issue
  extract_lets +onlyGivenNames -merge -useContext x0
  try clear_value x0
  refine keeps_ite (fun _ => ?_) (fun _ => ?_)
  · exact h
  · split
    · refine keeps_ite (fun _ => ?_) (fun _ => ?_)
      · refine takeAsync_keeps (sub.of (by decide) hm) ?_
        exact h
      · exact h
    · refine keeps_ite (fun _ => ?_) (fun _ => ?_)
      · refine haltEng_keeps (sub.of (by decide) hm) ?_
        exact h
      · refine keeps_ite (fun _ => ?_) (fun _ => ?_)
        · refine takeBkpt_keeps (sub.of (by decide) hm) ?_
          exact h
        · split
          · refine raiseExc_keeps (sub.of (by decide) hm) ?_
            refine noteFetch_keeps (sub.of (by decide) hm) ?_
            exact h
          · refine keeps_ite (fun _ => ?_) (fun _ => ?_)
            · refine raiseExc_keeps (sub.of (by decide) hm) ?_
              exact h
            · refine keeps_ite (fun _ => ?_) (fun _ => ?_)
              · exact h
              · refine issueNow_keeps (sub.of (by decide) hm) (fun x1 hx1 => ?_) ?_
                · refine hf2 _ ?_
                  exact hx1
                · refine fetchLine_keeps (sub.of (by decide) hm) ?_
                  exact h

theorem writeMeWdog_keeps {a0 : Nat} {a1 : Word} {s : State} (hm : sub 1 m) (h : Keeps m s0 s) :
    Keeps m s0 (writeMeWdog a0 a1 s) := by
  unfold writeMeWdog
  refine State.plainWrite_keeps (sub.of (by decide) hm) ?_
  exact h

theorem writeMeRgn_keeps {a0 : Nat} {a1 : Nat} {a2 : Word} {s : State} (hm : sub 1 m) (h : Keeps m s0 s) :
    Keeps m s0 (writeMeRgn a0 a1 a2 s) := by
  unfold writeMeRgn
  refine State.plainWrite_keeps (sub.of (by decide) hm) ?_
  exact h

theorem writeBootPc_keeps {a0 : Nat} {a1 : Word} {s : State} (hm : sub 1 m) (h : Keeps m s0 s) :
    Keeps m s0 (writeBootPc a0 a1 s) := by
  unfold writeBootPc
  refine State.plainWrite_keeps (sub.of (by decide) hm) ?_
  exact h

theorem wakeEng_keeps {a0 : Nat} {s : State} (hm : sub 16385 m) (h : Keeps m s0 s) :
    Keeps m s0 (wakeEng a0 s) := by
  unfold wakeEng
  extract_lets +onlyGivenNames -merge -useContext x0 x1
  try clear_value x0
  have hx1 : Keeps m s0 x1 := by
    refine retireNext_keeps (sub.of (by decide) hm) ?_
    refine State.setEng_keeps (sub.of (by decide) hm) ?_
    exact h
  clear_value x1
  refine keeps_ite (fun _ => ?_) (fun _ => ?_)
  · exact hx1
  · refine haltEng_keeps (sub.of (by decide) hm) ?_
    exact hx1

theorem drainWait_keeps {a0 : Nat} {s : State} (hm : sub 16385 m) (h : Keeps m s0 s) :
    Keeps m s0 (drainWait a0 s) := by
  unfold drainWait
  extract_lets +onlyGivenNames -merge -useContext x0
  try clear_value x0
  split
  · refine wakeEng_keeps (sub.of (by decide) hm) ?_
    refine setG_keeps (sub.of (by decide) hm) ?_
    refine State.setEng_keeps (sub.of (by decide) hm) ?_
    exact h
  · exact h

theorem forceFault_keeps {a0 : Nat} {s : State} (hm : sub 16384 m) (h : Keeps m s0 s) :
    Keeps m s0 (forceFault a0 s) := by
  unfold forceFault
  refine engFault_keeps (sub.of (by decide) hm) ?_
  exact h

theorem meFlag_keeps {a0 : Nat} {a1 : Fld} {s : State} (hm : sub 201342977 m) (h : Keeps m s0 s) :
    Keeps m s0 (meFlag a0 a1 s) := by
  unfold meFlag
  refine State.flag_keeps (sub.of (by decide) hm) ?_
  exact h

theorem faultEnd_keeps {a0 : Nat} {s : State} (hm : sub 469778433 m) (h : Keeps m s0 s) :
    Keeps m s0 (faultEnd a0 s) := by
  unfold faultEnd
  extract_lets +onlyGivenNames -merge -useContext x0
  try clear_value x0
  split
  · exact h
  · extract_lets +onlyGivenNames -merge -useContext x1 x2 x3 x4
    have hx1 : Keeps m s0 x1 := by
      refine State.setEng_keeps (sub.of (by decide) hm) ?_
      exact h
    clear_value x1
    have hx2 : Keeps m s0 x2 := by
      refine State.setReg_keeps (sub.of (by decide) hm) ?_
      exact hx1
    clear_value x2
    have hx3 : Keeps m s0 x3 := by
      refine setAddr48_keeps (sub.of (by decide) hm) ?_
      refine setAddr48_keeps (sub.of (by decide) hm) ?_
      exact hx2
    clear_value x3
    have hx4 : Keeps m s0 x4 := by
      refine keeps_ite (fun _ => ?_) (fun _ => ?_)
      · exact hx3
      · refine State.logFault_keeps (sub.of (by decide) hm) ?_
        exact hx3
    clear_value x4
    refine meFlag_keeps (sub.of (by decide) hm) ?_
    exact hx4

theorem resetEng_keeps {a0 : Nat} {s : State} (hm : sub 469778433 m) (h : Keeps m s0 s) :
    Keeps m s0 (resetEng a0 s) := by
  unfold resetEng
  extract_lets +onlyGivenNames -merge -useContext x0 x1
  have hx0 : Keeps m s0 x0 := by
    refine faultEnd_keeps (sub.of (by decide) hm) ?_
    exact h
  clear_value x0
  try clear_value x1
  refine State.setEng_keeps (sub.of (by decide) hm) ?_
  exact hx0

theorem startEng_keeps {a0 : Nat} {s : State} (hm : sub 201342977 m) (h : Keeps m s0 s) :
    Keeps m s0 (startEng a0 s) := by
  unfold startEng
  extract_lets +onlyGivenNames -merge -useContext x0 x1 x2
  try clear_value x0
  try clear_value x1
  try clear_value x2
  refine keeps_ite (fun _ => ?_) (fun _ => ?_)
  · refine State.setEng_keeps (sub.of (by decide) hm) ?_
    exact h
  · refine meFlag_keeps (sub.of (by decide) hm) ?_
    exact h

theorem writeMeCtl_keeps {a0 : Nat} {a1 : Word} {s : State} (hm : sub 469778433 m) (h : Keeps m s0 s) :
    Keeps m s0 (writeMeCtl a0 a1 s) := by
  unfold writeMeCtl
  extract_lets +onlyGivenNames -merge -useContext x0 x1 x2 x3 x4 x5 x6 x7 x8
  try clear_value x0
  have hx1 : Keeps m s0 x1 := by
    refine State.plainWrite_keeps (sub.of (by decide) hm) ?_
    exact h
  clear_value x1
  try clear_value x2
  have hx3 : Keeps m s0 x3 := by
    refine keeps_ite (fun _ => ?_) (fun _ => ?_)
    · refine State.setEng_keeps (sub.of (by decide) hm) ?_
      exact hx1
    · exact hx1
  clear_value x3
  have hx4 : Keeps m s0 x4 := by
    refine keeps_ite (fun _ => ?_) (fun _ => ?_)
    · refine drainWait_keeps (sub.of (by decide) hm) ?_
      exact hx3
    · exact hx3
  clear_value x4
  have hx5 : Keeps m s0 x5 := by
    refine keeps_ite (fun _ => ?_) (fun _ => ?_)
    · refine startEng_keeps (sub.of (by decide) hm) ?_
      exact hx4
    · exact hx4
  clear_value x5
  have hx6 : Keeps m s0 x6 := by
    refine keeps_ite (fun _ => ?_) (fun _ => ?_)
    · refine resetEng_keeps (sub.of (by decide) hm) ?_
      exact hx5
    · exact hx5
  clear_value x6
  have hx7 : Keeps m s0 x7 := by
    refine keeps_ite (fun _ => ?_) (fun _ => ?_)
    · refine forceFault_keeps (sub.of (by decide) hm) ?_
      exact hx6
    · exact hx6
  clear_value x7
  try clear_value x8
  refine keeps_ite (fun _ => ?_) (fun _ => ?_)
  · refine State.setEng_keeps (sub.of (by decide) hm) ?_
    exact hx7
  · exact hx7

theorem writeDbg_keeps {a0 : Nat} {a1 : Nat} {a2 : Option Nat} {a3 : Word} {s : State} (hm : sub 201342977 m) (h : Keeps m s0 s) :
    Keeps m s0 (writeDbg a0 a1 a2 a3 s) := by
  unfold writeDbg
  refine keeps_ite (fun _ => ?_) (fun _ => ?_)
  · refine meFlag_keeps (sub.of (by decide) hm) ?_
    exact h
  · split
    · refine keeps_ite (fun _ => ?_) (fun _ => ?_)
      · refine setG_keeps (sub.of (by decide) hm) ?_
        exact h
      · exact h
    · refine State.plainWrite_keeps (sub.of (by decide) hm) ?_
      exact h

theorem stepEng_keeps {a0 : Nat} {s : State} (hm : sub 16384 m) (h : Keeps m s0 s) :
    Keeps m s0 (stepEng a0 s) := by
  unfold stepEng
  extract_lets +onlyGivenNames -merge -useContext x0
  try clear_value x0
  refine keeps_ite (fun _ => ?_) (fun _ => ?_)
  · refine State.setEng_keeps (sub.of (by decide) hm) ?_
    exact h
  · exact h

theorem writeDbgCtl_keeps {a0 : Nat} {a1 : Word} {s : State} (hm : sub 201342977 m) (h : Keeps m s0 s) :
    Keeps m s0 (writeDbgCtl a0 a1 s) := by
  unfold writeDbgCtl
  extract_lets +onlyGivenNames -merge -useContext x0 x1 x2
  have hx0 : Keeps m s0 x0 := by
    refine State.plainWrite_keeps (sub.of (by decide) hm) ?_
    exact h
  clear_value x0
  have hx1 : Keeps m s0 x1 := by
    refine keeps_ite (fun _ => ?_) (fun _ => ?_)
    · refine haltEng_keeps (sub.of (by decide) hm) ?_
      exact hx0
    · exact hx0
  clear_value x1
  have hx2 : Keeps m s0 x2 := by
    refine keeps_ite (fun _ => ?_) (fun _ => ?_)
    · refine stepEng_keeps (sub.of (by decide) hm) ?_
      exact hx1
    · exact hx1
  clear_value x2
  refine keeps_ite (fun _ => ?_) (fun _ => ?_)
  · refine meFlag_keeps (sub.of (by decide) hm) ?_
    exact h
  · refine keeps_ite (fun _ => ?_) (fun _ => ?_)
    · refine resumeEng_keeps (sub.of (by decide) hm) ?_
      exact hx2
    · exact hx2

theorem setIssueAt_keeps {a0 : Nat} {s : State} (hm : sub 16384 m) (h : Keeps m s0 s) :
    Keeps m s0 (setIssueAt a0 s) := by
  unfold setIssueAt
  extract_lets +onlyGivenNames -merge -useContext x0
  try clear_value x0
  refine State.setEng_keeps (sub.of (by decide) hm) ?_
  exact h

theorem localEvent_keeps {a0 : Nat} {a1 : Nat} {s : State} (hm : sub 201342977 m) (h : Keeps m s0 s) :
    Keeps m s0 (localEvent a0 a1 s) := by
  unfold localEvent
  split
  · rename_i z0 z1 e2
    have hz0 : Keeps m s0 z0 := by
      have q : _ = z0 := congrArg Prod.fst e2
      rw [← q]
      refine engArrive_keeps (sub.of (by decide) hm) ?_
      exact h
    refine State.raiseIf_keeps (sub.of (by decide) hm) ?_
    exact hz0

theorem setV_keeps {a0 : Nat} {a1 : Nat} {a2 : Vec} {s : State} (hm : sub 16384 m) (h : Keeps m s0 s) :
    Keeps m s0 (setV a0 a1 a2 s) := by
  unfold setV
  extract_lets +onlyGivenNames -merge -useContext x0
  try clear_value x0
  refine State.setEng_keeps (sub.of (by decide) hm) ?_
  exact h

theorem faultDue_keeps {a0 : Nat} {s : State} (hm : sub 469778433 m) (h : Keeps m s0 s) :
    Keeps m s0 (faultDue a0 s) := by
  unfold faultDue
  split
  · refine keeps_ite (fun _ => ?_) (fun _ => ?_)
    · refine faultEnd_keeps (sub.of (by decide) hm) ?_
      exact h
    · exact h
  · exact h

theorem setA_keeps {a0 : Nat} {a1 : Nat} {a2 : Addr} {s : State} (hm : sub 16384 m) (h : Keeps m s0 s) :
    Keeps m s0 (setA a0 a1 a2 s) := by
  unfold setA
  extract_lets +onlyGivenNames -merge -useContext x0
  try clear_value x0
  refine State.setEng_keeps (sub.of (by decide) hm) ?_
  exact h

theorem disarmWatch_keeps {a0 : Nat} {s : State} (hm : sub 16384 m) (h : Keeps m s0 s) :
    Keeps m s0 (disarmWatch a0 s) := by
  unfold disarmWatch
  extract_lets +onlyGivenNames -merge -useContext x0
  try clear_value x0
  refine State.setEng_keeps (sub.of (by decide) hm) ?_
  exact h

theorem setP_keeps {a0 : Nat} {a1 : Nat} {a2 : Bool} {s : State} (hm : sub 16384 m) (h : Keeps m s0 s) :
    Keeps m s0 (setP a0 a1 a2 s) := by
  unfold setP
  extract_lets +onlyGivenNames -merge -useContext x0
  try clear_value x0
  refine keeps_ite (fun _ => ?_) (fun _ => ?_)
  · exact h
  · refine State.setEng_keeps (sub.of (by decide) hm) ?_
    exact h

theorem waitEng_keeps {a0 : Nat} {a1 : EngWait} {s : State} (hm : sub 16384 m) (h : Keeps m s0 s) :
    Keeps m s0 (waitEng a0 a1 s) := by
  unfold waitEng
  extract_lets +onlyGivenNames -merge -useContext x0
  try clear_value x0
  refine State.setEng_keeps (sub.of (by decide) hm) ?_
  exact h

end Sys2Proof.Machine
end

