-- ==== Sys2Proof/Laws/Frame/Clock.lean ====
section
/-!
SUPPORT. What the functions of Machine/Clock.lean touch: one lemma each, in the terms of `Keeps`.
-/
namespace Sys2Proof.Machine

variable {m : Nat} {s0 : State}

theorem readLineTime_keeps {a0 : Req} {s : State} (hm : sub 2 m) (h : Keeps m s0 s) :
    Keeps m s0 (readLineTime a0 s).2 := by
  unfold readLineTime
  dsimp -zeta only
  refine State.setPreg_keeps (sub.of (by decide) hm) ?_
  exact h

theorem State.setClock_keeps {s : State} {a1 : Clock} (hm : sub 32 m) (h : Keeps m s0 s) :
    Keeps m s0 (State.setClock s a1) := by
  unfold State.setClock
  refine keeps_clock (sub.of (by decide) hm) ?_ _
  exact h

theorem adjustLineTime_keeps {a0 : Word} {s : State} (hm : sub 1073741856 m) (h : Keeps m s0 s) :
    Keeps m s0 (adjustLineTime a0 s) := by
  unfold adjustLineTime
  extract_lets +onlyGivenNames -merge -useContext x0
  try clear_value x0
  refine keeps_ite (fun _ => ?_) (fun _ => ?_)
  · exact h
  · split
    · rename_i z1 z2 e3
      have hz2 : Keeps m s0 z2 := by
        have q : _ = z2 := congrArg Prod.snd e3
        rw [← q]
        refine keeps_ite2 (fun _ => ?_) (fun _ => ?_)
        · dsimp -zeta only
          exact h
        · refine State.takeFree_keeps (sub.of (by decide) hm) ?_
          exact h
      extract_lets +onlyGivenNames -merge -useContext x4
      try clear_value x4
      refine State.setClock_keeps (sub.of (by decide) hm) ?_
      exact hz2

theorem tryRelease_keeps {s : State} (hm : sub 32 m) (h : Keeps m s0 s) :
    Keeps m s0 (tryRelease s) := by
  unfold tryRelease
  extract_lets +onlyGivenNames -merge -useContext x0
  try clear_value x0
  refine keeps_ite (fun _ => ?_) (fun _ => ?_)
  · refine State.setClock_keeps (sub.of (by decide) hm) ?_
    exact h
  · exact h

theorem setSelect_keeps {a0 : Bool} {s : State} (hm : sub 1 m) (h : Keeps m s0 s) :
    Keeps m s0 (setSelect a0 s) := by
  unfold setSelect
  refine State.putBit_keeps (sub.of (by decide) hm) ?_
  exact h

theorem beginSwitch_keeps {a0 : Bool} {s : State} (hm : sub 33 m) (h : Keeps m s0 s) :
    Keeps m s0 (beginSwitch a0 s) := by
  unfold beginSwitch
  extract_lets +onlyGivenNames -merge -useContext x0
  try clear_value x0
  refine setSelect_keeps (sub.of (by decide) hm) ?_
  refine State.setClock_keeps (sub.of (by decide) hm) ?_
  exact h

theorem clkFlag_keeps {a0 : Fld} {a1 : Nat} {s : State} (hm : sub 201342977 m) (h : Keeps m s0 s) :
    Keeps m s0 (clkFlag a0 a1 s) := by
  unfold clkFlag
  refine State.flag_keeps (sub.of (by decide) hm) ?_
  exact h

theorem writeSelect_keeps {a0 : Bool} {s : State} (hm : sub 201343009 m) (h : Keeps m s0 s) :
    Keeps m s0 (writeSelect a0 s) := by
  unfold writeSelect
  refine keeps_ite (fun _ => ?_) (fun _ => ?_)
  · refine clkFlag_keeps (sub.of (by decide) hm) ?_
    exact h
  · refine keeps_ite (fun _ => ?_) (fun _ => ?_)
    · exact h
    · refine keeps_ite (fun _ => ?_) (fun _ => ?_)
      · refine clkFlag_keeps (sub.of (by decide) hm) ?_
        exact h
      · refine beginSwitch_keeps (sub.of (by decide) hm) ?_
        exact h

theorem writeClkCtl_keeps {a0 : Word} {s : State} (hm : sub 201343009 m) (h : Keeps m s0 s) :
    Keeps m s0 (writeClkCtl a0 s) := by
  unfold writeClkCtl
  extract_lets +onlyGivenNames -merge -useContext x0 x1 x2
  have hx0 : Keeps m s0 x0 := by
    refine State.setFld_keeps (sub.of (by decide) hm) ?_
    exact h
  clear_value x0
  have hx1 : Keeps m s0 x1 := by
    refine writeSelect_keeps (sub.of (by decide) hm) ?_
    exact hx0
  clear_value x1
  try clear_value x2
  refine keeps_ite (fun _ => ?_) (fun _ => ?_)
  · refine tryRelease_keeps (sub.of (by decide) hm) ?_
    refine State.setClock_keeps (sub.of (by decide) hm) ?_
    exact hx1
  · exact hx1

theorem writeLtRate_keeps {a0 : Word} {s : State} (hm : sub 1 m) (h : Keeps m s0 s) :
    Keeps m s0 (writeLtRate a0 s) := by
  unfold writeLtRate
  refine keeps_ite (fun _ => ?_) (fun _ => ?_)
  · exact h
  · refine State.setReg_keeps (sub.of (by decide) hm) ?_
    exact h

theorem writeLtCtl_keeps {a0 : Word} {s : State} (hm : sub 33 m) (h : Keeps m s0 s) :
    Keeps m s0 (writeLtCtl a0 s) := by
  unfold writeLtCtl
  extract_lets +onlyGivenNames -merge -useContext x0 x1 x2
  have hx0 : Keeps m s0 x0 := by
    refine keeps_ite (fun _ => ?_) (fun _ => ?_)
    · exact h
    · refine State.setFld_keeps (sub.of (by decide) hm) ?_
      exact h
  clear_value x0
  have hx1 : Keeps m s0 x1 := by
    refine State.setFld_keeps (sub.of (by decide) hm) ?_
    exact hx0
  clear_value x1
  try clear_value x2
  refine keeps_ite (fun _ => ?_) (fun _ => ?_)
  · refine State.setClock_keeps (sub.of (by decide) hm) ?_
    refine State.setBit_keeps (sub.of (by decide) hm) ?_
    exact hx1
  · exact hx1

theorem reacquire_keeps {a0 : Bool} {s : State} (hm : sub 201343009 m) (h : Keeps m s0 s) :
    Keeps m s0 (reacquire a0 s) := by
  unfold reacquire
  extract_lets +onlyGivenNames -merge -useContext x0 x1
  try clear_value x0
  have hx1 : Keeps m s0 x1 := by
    refine setSelect_keeps (sub.of (by decide) hm) ?_
    refine State.setClock_keeps (sub.of (by decide) hm) ?_
    exact h
  clear_value x1
  refine keeps_ite (fun _ => ?_) (fun _ => ?_)
  · exact hx1
  · refine clkFlag_keeps (sub.of (by decide) hm) ?_
    exact hx1

theorem reacquireLate_keeps {s : State} (hm : sub 201343009 m) (h : Keeps m s0 s) :
    Keeps m s0 (reacquireLate s) := by
  unfold reacquireLate
  refine keeps_ite (fun _ => ?_) (fun _ => ?_)
  · refine reacquire_keeps (sub.of (by decide) hm) ?_
    exact h
  · exact h

theorem shiftCues_keeps {a0 : Int} {s : State} (hm : sub 64 m) (h : Keeps m s0 s) :
    Keeps m s0 (shiftCues a0 s) := by
  unfold shiftCues
  extract_lets +onlyGivenNames -merge -useContext x0
  try clear_value x0
  refine keeps_cue (sub.of (by decide) hm) ?_ _
  exact h

theorem switchNow_keeps {a0 : Int} {s : State} (hm : sub 469778529 m) (h : Keeps m s0 s) :
    Keeps m s0 (switchNow a0 s) := by
  unfold switchNow
  extract_lets +onlyGivenNames -merge -useContext x0 x1
  try clear_value x0
  try clear_value x1
  split
  · exact h
  · extract_lets +onlyGivenNames -merge -useContext x2 x3
    have hx2 : Keeps m s0 x2 := by
      refine State.setClock_keeps (sub.of (by decide) hm) ?_
      exact h
    clear_value x2
    have hx3 : Keeps m s0 x3 := by
      refine clkFlag_keeps (sub.of (by decide) hm) ?_
      refine shiftCues_keeps (sub.of (by decide) hm) ?_
      exact hx2
    clear_value x3
    refine keeps_ite (fun _ => ?_) (fun _ => ?_)
    · exact h
    · refine keeps_ite (fun _ => ?_) (fun _ => ?_)
      · refine State.logFault_keeps (sub.of (by decide) hm) ?_
        exact hx3
      · exact hx3

theorem switchDue_keeps {s : State} (hm : sub 1543520353 m) (h : Keeps m s0 s) :
    Keeps m s0 (switchDue s) := by
  unfold switchDue
  refine keeps_ite (fun _ => ?_) (fun _ => ?_)
  · refine switchNow_keeps (sub.of (by decide) hm) ?_
    refine State.takeFree_keeps (sub.of (by decide) hm) ?_
    exact h
  · exact h

theorem measureStandby_keeps {s : State} (hm : sub 1073741825 m) (h : Keeps m s0 s) :
    Keeps m s0 (measureStandby s) := by
  unfold measureStandby
  refine keeps_ite (fun _ => ?_) (fun _ => ?_)
  · refine State.setFld_keeps (sub.of (by decide) hm) ?_
    refine State.takeFree_keeps (sub.of (by decide) hm) ?_
    exact h
  · exact h

theorem tickClock_keeps {s : State} (hm : sub 32 m) (h : Keeps m s0 s) :
    Keeps m s0 (tickClock s) := by
  unfold tickClock
  extract_lets +onlyGivenNames -merge -useContext x0 x1
  try clear_value x0
  try clear_value x1
  split
  · split
    · extract_lets +onlyGivenNames -merge -useContext x2
      try clear_value x2
      refine State.setClock_keeps (sub.of (by decide) hm) ?_
      exact h

theorem gainCrystal_keeps {a0 : Bool} {s : State} (hm : sub 201343009 m) (h : Keeps m s0 s) :
    Keeps m s0 (gainCrystal a0 s) := by
  unfold gainCrystal
  extract_lets +onlyGivenNames -merge -useContext x0
  have hx0 : Keeps m s0 x0 := by
    refine State.setClock_keeps (sub.of (by decide) hm) ?_
    exact h
  clear_value x0
  refine keeps_ite (fun _ => ?_) (fun _ => ?_)
  · exact h
  · refine keeps_ite (fun _ => ?_) (fun _ => ?_)
    · refine keeps_ite (fun _ => ?_) (fun _ => ?_)
      · exact hx0
      · refine reacquire_keeps (sub.of (by decide) hm) ?_
        exact hx0
    · refine keeps_ite (fun _ => ?_) (fun _ => ?_)
      · refine beginSwitch_keeps (sub.of (by decide) hm) ?_
        exact hx0
      · exact hx0

theorem relockPll_keeps {s : State} (hm : sub 32 m) (h : Keeps m s0 s) :
    Keeps m s0 (relockPll s) := by
  unfold relockPll
  extract_lets +onlyGivenNames -merge -useContext x0
  try clear_value x0
  refine keeps_ite (fun _ => ?_) (fun _ => ?_)
  · refine tryRelease_keeps (sub.of (by decide) hm) ?_
    refine State.setClock_keeps (sub.of (by decide) hm) ?_
    exact h
  · exact h

theorem loseCrystal_keeps {a0 : Bool} {s : State} (hm : sub 201343009 m) (h : Keeps m s0 s) :
    Keeps m s0 (loseCrystal a0 s) := by
  unfold loseCrystal
  extract_lets +onlyGivenNames -merge -useContext x0 x1 x2 x3 x4 x5
  have hx0 : Keeps m s0 x0 := by
    refine State.setClock_keeps (sub.of (by decide) hm) ?_
    exact h
  clear_value x0
  have hx1 : Keeps m s0 x1 := by
    refine clkFlag_keeps (sub.of (by decide) hm) ?_
    exact hx0
  clear_value x1
  try clear_value x2
  try clear_value x3
  have hx4 : Keeps m s0 x4 := by
    refine State.setClock_keeps (sub.of (by decide) hm) ?_
    exact hx1
  clear_value x4
  try clear_value x5
  refine keeps_ite (fun _ => ?_) (fun _ => ?_)
  · exact h
  · refine keeps_ite (fun _ => ?_) (fun _ => ?_)
    · refine State.setClock_keeps (sub.of (by decide) hm) ?_
      exact hx1
    · refine keeps_ite (fun _ => ?_) (fun _ => ?_)
      · refine keeps_ite (fun _ => ?_) (fun _ => ?_)
        · refine beginSwitch_keeps (sub.of (by decide) hm) ?_
          exact hx4
        · exact hx4
      · refine keeps_ite (fun _ => ?_) (fun _ => ?_)
        · refine setSelect_keeps (sub.of (by decide) hm) ?_
          refine State.setClock_keeps (sub.of (by decide) hm) ?_
          exact hx1
        · exact hx1

end Sys2Proof.Machine
end

