-- ==== Sys2Proof/Laws/Frame/HostFlags.lean ====
section
/-!
SUPPORT. What the functions of Machine/HostFlags.lean touch: one lemma each, in the terms of `Keeps`.
-/
namespace Sys2Proof.Machine

variable {m : Nat} {s0 : State}

theorem hostFlag_keeps {a0 : Fld} {s : State} (hm : sub 201342977 m) (h : Keeps m s0 s) :
    Keeps m s0 (hostFlag a0 s) := by
  unfold hostFlag
  extract_lets +onlyGivenNames -merge -useContext x0 x1
  try clear_value x0
  try clear_value x1
  refine State.flag_keeps (sub.of (by decide) hm) ?_
  exact h

theorem dpFault_keeps {a0 : Nat} {a1 : Fld} {s : State} (hm : sub 201342977 m) (h : Keeps m s0 s) :
    Keeps m s0 (dpFault a0 a1 s) := by
  unfold dpFault
  refine hostFlag_keeps (sub.of (by decide) hm) ?_
  refine State.setBit_keeps (sub.of (by decide) hm) ?_
  exact h

theorem hostViol_keeps {a0 : Nat} {a1 : Nat} {s : State} (hm : sub 201342977 m) (h : Keeps m s0 s) :
    Keeps m s0 (hostViol a0 a1 s) := by
  unfold hostViol
  extract_lets +onlyGivenNames -merge -useContext x0
  have hx0 : Keeps m s0 x0 := by
    refine State.countUp_keeps (sub.of (by decide) hm) ?_
    refine State.setFld_keeps (sub.of (by decide) hm) ?_
    exact h
  clear_value x0
  refine hostFlag_keeps (sub.of (by decide) hm) ?_
  refine State.setReg64_keeps (sub.of (by decide) hm) ?_
  exact hx0

end Sys2Proof.Machine
end

