-- ==== Sys2Proof/Laws/Frame/SeamOut.lean ====
section
/-!
SUPPORT. What the functions of Machine/SeamOut.lean touch: one lemma each, in the terms of `Keeps`.
-/
namespace Sys2Proof.Machine

variable {m : Nat} {s0 : State}

theorem State.setSeam_keeps {s : State} {a1 : Seam} (hm : sub 2097152 m) (h : Keeps m s0 s) :
    Keeps m s0 (State.setSeam s a1) := by
  unfold State.setSeam
  refine keeps_seam (sub.of (by decide) hm) ?_ _
  exact h

theorem State.setSport_keeps {s : State} {a1 : Nat} {a2 : SeamPort} (hm : sub 2097152 m) (h : Keeps m s0 s) :
    Keeps m s0 (State.setSport s a1 a2) := by
  unfold State.setSport
  extract_lets +onlyGivenNames -merge -useContext x0
  try clear_value x0
  refine State.setSeam_keeps (sub.of (by decide) hm) ?_
  exact h

theorem leaves_keeps {a0 : Nat} {s : State} (hm : sub 2097152 m) (h : Keeps m s0 s) :
    Keeps m s0 (leaves a0 s) := by
  unfold leaves
  extract_lets +onlyGivenNames -merge -useContext x0
  try clear_value x0
  refine State.setSport_keeps (sub.of (by decide) hm) ?_
  exact h

theorem sendOther_keeps {a0 : Nat} {a1 : Flit} {s : State} (hm : sub 2097152 m) (h : Keeps m s0 s) :
    Keeps m s0 (sendOther a0 a1 s) := by
  unfold sendOther
  extract_lets +onlyGivenNames -merge -useContext x0 x1 x2
  try clear_value x0
  have hx1 : Keeps m s0 x1 := by
    refine leaves_keeps (sub.of (by decide) hm) ?_
    exact h
  clear_value x1
  try clear_value x2
  refine State.setSport_keeps (sub.of (by decide) hm) ?_
  exact hx1

theorem seamFlag_keeps {a0 : Nat} {a1 : Fld} {s : State} (hm : sub 201342977 m) (h : Keeps m s0 s) :
    Keeps m s0 (seamFlag a0 a1 s) := by
  unfold seamFlag
  extract_lets +onlyGivenNames -merge -useContext x0 x1
  try clear_value x0
  try clear_value x1
  refine State.flag_keeps (sub.of (by decide) hm) ?_
  exact h

theorem setSpState_keeps {a0 : Nat} {a1 : Nat} {s : State} (hm : sub 1 m) (h : Keeps m s0 s) :
    Keeps m s0 (setSpState a0 a1 s) := by
  unfold setSpState
  refine State.setFld_keeps (sub.of (by decide) hm) ?_
  exact h

theorem seamViol_keeps {a0 : Nat} {a1 : Nat} {s : State} (hm : sub 203440129 m) (h : Keeps m s0 s) :
    Keeps m s0 (seamViol a0 a1 s) := by
  unfold seamViol
  extract_lets +onlyGivenNames -merge -useContext x0 x1 x2 x3 x4 x5
  have hx0 : Keeps m s0 x0 := by
    refine State.countUp_keeps (sub.of (by decide) hm) ?_
    refine State.setFld_keeps (sub.of (by decide) hm) ?_
    exact h
  clear_value x0
  have hx1 : Keeps m s0 x1 := by
    refine seamFlag_keeps (sub.of (by decide) hm) ?_
    exact hx0
  clear_value x1
  try clear_value x2
  try clear_value x3
  try clear_value x4
  have hx5 : Keeps m s0 x5 := by
    refine State.setSport_keeps (sub.of (by decide) hm) ?_
    exact hx1
  clear_value x5
  refine keeps_ite (fun _ => ?_) (fun _ => ?_)
  · exact h
  · refine keeps_ite (fun _ => ?_) (fun _ => ?_)
    · refine seamFlag_keeps (sub.of (by decide) hm) ?_
      refine setSpState_keeps (sub.of (by decide) hm) ?_
      exact hx5
    · exact hx5

theorem setNak_keeps {a0 : Nat} {a1 : Nat} {s : State} (hm : sub 2097152 m) (h : Keeps m s0 s) :
    Keeps m s0 (setNak a0 a1 s) := by
  unfold setNak
  extract_lets +onlyGivenNames -merge -useContext x0
  try clear_value x0
  refine State.setSport_keeps (sub.of (by decide) hm) ?_
  exact h

theorem sendOne_keeps {a0 : Nat} {s : State} (hm : sub 2097152 m) (h : Keeps m s0 s) :
    Keeps m s0 (sendOne a0 s) := by
  unfold sendOne
  extract_lets +onlyGivenNames -merge -useContext x0 x1 x2
  try clear_value x0
  have hx1 : Keeps m s0 x1 := by
    refine leaves_keeps (sub.of (by decide) hm) ?_
    exact h
  clear_value x1
  try clear_value x2
  split
  · exact h
  · extract_lets +onlyGivenNames -merge -useContext x3 x4
    try clear_value x3
    try clear_value x4
    refine keeps_ite (fun _ => ?_) (fun _ => ?_)
    · exact h
    · refine State.setSport_keeps (sub.of (by decide) hm) ?_
      exact hx1

theorem pump_keeps {a0 : Nat} {s : State} (hm : sub 2097152 m) (h : Keeps m s0 s) :
    Keeps m s0 (pump a0 s) := by
  unfold pump
  refine keeps_foldl (fun x0 y1 hx0 => ?_) _ ?_
  · refine sendOne_keeps (sub.of (by decide) hm) ?_
    exact hx0
  · exact h

theorem takeCredit_keeps {a0 : Nat} {a1 : Flit} {s : State} (hm : sub 203440129 m) (h : Keeps m s0 s) :
    Keeps m s0 (takeCredit a0 a1 s) := by
  unfold takeCredit
  extract_lets +onlyGivenNames -merge -useContext x0 x1
  try clear_value x0
  try clear_value x1
  refine keeps_ite (fun _ => ?_) (fun _ => ?_)
  · refine seamViol_keeps (sub.of (by decide) hm) ?_
    refine State.setSport_keeps (sub.of (by decide) hm) ?_
    exact h
  · refine State.setSport_keeps (sub.of (by decide) hm) ?_
    exact h

theorem dropAnswer_keeps {s : State} (hm : sub 1 m) (h : Keeps m s0 s) :
    Keeps m s0 (dropAnswer s) := by
  unfold dropAnswer
  refine State.countUp_keeps (sub.of (by decide) hm) ?_
  exact h

theorem cueResult_keeps {a0 : SeamReq} {a1 : Nat} {a2 : List Byte} {s : State} (hm : sub 2 m) (h : Keeps m s0 s) :
    Keeps m s0 (cueResult a0 a1 a2 s) := by
  unfold cueResult
  extract_lets +onlyGivenNames -merge -useContext x0 x1
  try clear_value x0
  try clear_value x1
  refine State.setPreg_keeps (sub.of (by decide) hm) ?_
  exact h

theorem hostReadDone_keeps {a0 : Nat} {s : State} (hm : sub 203440133 m) (h : Keeps m s0 s) :
    Keeps m s0 (hostReadDone a0 s) := by
  unfold hostReadDone
  extract_lets +onlyGivenNames -merge -useContext x0 x1 x2
  try clear_value x0
  try clear_value x1
  have hx2 : Keeps m s0 x2 := by
    refine State.setSeam_keeps (sub.of (by decide) hm) ?_
    exact h
  clear_value x2
  refine keeps_ite (fun _ => ?_) (fun _ => ?_)
  · exact h
  · split
    · refine State.give_keeps (sub.of (by decide) hm) ?_
      exact hx2
    · refine keeps_ite (fun _ => ?_) (fun _ => ?_)
      · refine dpFault_keeps (sub.of (by decide) hm) ?_
        refine hostViol_keeps (sub.of (by decide) hm) ?_
        exact hx2
      · refine keeps_ite (fun _ => ?_) (fun _ => ?_)
        · refine dpFault_keeps (sub.of (by decide) hm) ?_
          refine hostViol_keeps (sub.of (by decide) hm) ?_
          exact hx2
        · refine dpFault_keeps (sub.of (by decide) hm) ?_
          refine hostViol_keeps (sub.of (by decide) hm) ?_
          exact hx2

theorem dropReq_keeps {a0 : SeamReq} {s : State} (hm : sub 2097152 m) (h : Keeps m s0 s) :
    Keeps m s0 (dropReq a0 s) := by
  unfold dropReq
  extract_lets +onlyGivenNames -merge -useContext x0
  try clear_value x0
  refine State.setSeam_keeps (sub.of (by decide) hm) ?_
  exact h

theorem finishReq_keeps {a0 : SeamReq} {a1 : Nat} {a2 : List Byte} {s : State} (hm : sub 203440135 m) (h : Keeps m s0 s) :
    Keeps m s0 (finishReq a0 a1 a2 s) := by
  unfold finishReq
  extract_lets +onlyGivenNames -merge -useContext x0 x1 x2 x3 x4
  have hx0 : Keeps m s0 x0 := by
    refine dropReq_keeps (sub.of (by decide) hm) ?_
    exact h
  clear_value x0
  try clear_value x1
  have hx2 : Keeps m s0 x2 := by
    refine State.setSeam_keeps (sub.of (by decide) hm) ?_
    exact hx0
  clear_value x2
  have hx3 : Keeps m s0 x3 := by
    refine cueResult_keeps (sub.of (by decide) hm) ?_
    exact hx0
  clear_value x3
  try clear_value x4
  refine keeps_ite (fun _ => ?_) (fun _ => ?_)
  · refine keeps_ite (fun _ => ?_) (fun _ => ?_)
    · exact hx0
    · refine keeps_ite (fun _ => ?_) (fun _ => ?_)
      · refine hostReadDone_keeps (sub.of (by decide) hm) ?_
        exact hx2
      · exact hx2
  · refine keeps_ite (fun _ => ?_) (fun _ => ?_)
    · refine keeps_ite (fun _ => ?_) (fun _ => ?_)
      · exact hx0
      · refine keeps_ite (fun _ => ?_) (fun _ => ?_)
        · refine State.setSeam_keeps (sub.of (by decide) hm) ?_
          exact hx3
        · exact hx3
    · refine State.setPreg_keeps (sub.of (by decide) hm) ?_
      exact hx0

theorem lostFlit_keeps {a0 : Nat} {a1 : Nat} {a2 : Nat} {a3 : Nat} {s : State} (hm : sub 201342977 m) (h : Keeps m s0 s) :
    Keeps m s0 (lostFlit a0 a1 a2 a3 s) := by
  unfold lostFlit
  extract_lets +onlyGivenNames -merge -useContext x0 x1 x2
  try clear_value x0
  have hx1 : Keeps m s0 x1 := by
    refine keeps_ite (fun _ => ?_) (fun _ => ?_)
    · exact h
    · refine State.setFld_keeps (sub.of (by decide) hm) ?_
      exact h
  clear_value x1
  have hx2 : Keeps m s0 x2 := by
    refine State.setFld_keeps (sub.of (by decide) hm) ?_
    exact hx1
  clear_value x2
  refine seamFlag_keeps (sub.of (by decide) hm) ?_
  exact hx2

theorem localAnswer_keeps {a0 : Nat} {a1 : Flit} {a2 : Nat} {s : State} (hm : sub 203440135 m) (h : Keeps m s0 s) :
    Keeps m s0 (localAnswer a0 a1 a2 s) := by
  unfold localAnswer
  refine keeps_ite (fun _ => ?_) (fun _ => ?_)
  · refine dropAnswer_keeps (sub.of (by decide) hm) ?_
    exact h
  · refine keeps_ite (fun _ => ?_) (fun _ => ?_)
    · refine lostFlit_keeps (sub.of (by decide) hm) ?_
      exact h
    · split
      · refine finishReq_keeps (sub.of (by decide) hm) ?_
        exact h
      · exact h

theorem discardReplay_keeps {a0 : Nat} {s : State} (hm : sub 203440135 m) (h : Keeps m s0 s) :
    Keeps m s0 (discardReplay a0 s) := by
  unfold discardReplay
  extract_lets +onlyGivenNames -merge -useContext x0 x1 x2 x3
  try clear_value x0
  try clear_value x1
  have hx2 : Keeps m s0 x2 := by
    refine State.setFld_keeps (sub.of (by decide) hm) ?_
    exact h
  clear_value x2
  have hx3 : Keeps m s0 x3 := by
    refine State.setSport_keeps (sub.of (by decide) hm) ?_
    exact hx2
  clear_value x3
  refine keeps_foldl (fun x4 y5 hx4 => ?_) _ ?_
  · refine keeps_ite (fun _ => ?_) (fun _ => ?_)
    · exact hx4
    · refine localAnswer_keeps (sub.of (by decide) hm) ?_
      exact hx4
  · exact hx3

theorem sendData_keeps {a0 : Nat} {a1 : Flit} {s : State} (hm : sub 2097152 m) (h : Keeps m s0 s) :
    Keeps m s0 (sendData a0 a1 s) := by
  unfold sendData
  extract_lets +onlyGivenNames -merge -useContext x0
  try clear_value x0
  refine pump_keeps (sub.of (by decide) hm) ?_
  refine State.setSport_keeps (sub.of (by decide) hm) ?_
  exact h

theorem lookupRoute_keeps {a0 : Nat} {s : State} (hm : sub 1 m) (h : Keeps m s0 s) :
    Keeps m s0 (lookupRoute a0 s).2 := by
  unfold lookupRoute
  extract_lets +onlyGivenNames -merge -useContext x0 x1 x2 x3
  try clear_value x0
  try clear_value x1
  try clear_value x2
  try clear_value x3
  refine keeps_ite2 (fun _ => ?_) (fun _ => ?_)
  · dsimp -zeta only
    exact h
  · refine keeps_ite2 (fun _ => ?_) (fun _ => ?_)
    · dsimp -zeta only
      exact h
    · refine keeps_ite2 (fun _ => ?_) (fun _ => ?_)
      · dsimp -zeta only
        exact h
      · dsimp -zeta only
        refine State.setBit_keeps (sub.of (by decide) hm) ?_
        exact h

theorem issueFlit_keeps {a0 : Flit} {s : State} (hm : sub 203440135 m) (h : Keeps m s0 s) :
    Keeps m s0 (issueFlit a0 s) := by
  unfold issueFlit
  extract_lets +onlyGivenNames -merge -useContext x0 x1 x2
  have hx0 : ∀ z3, Keeps m s0 z3 → Keeps m s0 (x0 z3) := by
    intro z3 hz3
    unfold x0
    extract_lets +onlyGivenNames -merge -useContext x4
    try clear_value x4
    refine State.setSeam_keeps (sub.of (by decide) hm) ?_
    exact hz3
  clear_value x0
  try clear_value x1
  have hx2 : Keeps m s0 x2 := by
    refine keeps_ite (fun _ => ?_) (fun _ => ?_)
    · refine hx0 _ ?_
      exact h
    · exact h
  clear_value x2
  refine keeps_ite (fun _ => ?_) (fun _ => ?_)
  · refine keeps_ite (fun _ => ?_) (fun _ => ?_)
    · exact hx2
    · refine keeps_foldl (fun x5 y6 hx5 => ?_) _ ?_
      · refine sendData_keeps (sub.of (by decide) hm) ?_
        exact hx5
      · exact hx2
  · refine keeps_ite (fun _ => ?_) (fun _ => ?_)
    · refine hx0 _ ?_
      exact h
    · split
      · rename_i z7 z8 e9
        have hz8 : Keeps m s0 z8 := by
          have q : _ = z8 := congrArg Prod.snd e9
          rw [← q]
          refine lookupRoute_keeps (sub.of (by decide) hm) ?_
          exact h
        refine keeps_ite (fun _ => ?_) (fun _ => ?_)
        · refine sendData_keeps (sub.of (by decide) hm) ?_
          exact hz8
        · refine localAnswer_keeps (sub.of (by decide) hm) ?_
          exact hz8
      · rename_i z10 e11
        have hz10 : Keeps m s0 z10 := by
          have q : _ = z10 := congrArg Prod.snd e11
          rw [← q]
          refine lookupRoute_keeps (sub.of (by decide) hm) ?_
          exact h
        refine localAnswer_keeps (sub.of (by decide) hm) ?_
        exact hz10

theorem answerTo_keeps {a0 : Flit} {a1 : Nat} {a2 : List Byte} {s : State} (hm : sub 203440135 m) (h : Keeps m s0 s) :
    Keeps m s0 (answerTo a0 a1 a2 s) := by
  unfold answerTo
  refine keeps_ite (fun _ => ?_) (fun _ => ?_)
  · refine dropAnswer_keeps (sub.of (by decide) hm) ?_
    exact h
  · refine issueFlit_keeps (sub.of (by decide) hm) ?_
    exact h

theorem reroute_keeps {a0 : Flit} {s : State} (hm : sub 203440135 m) (h : Keeps m s0 s) :
    Keeps m s0 (reroute a0 s) := by
  unfold reroute
  refine keeps_ite (fun _ => ?_) (fun _ => ?_)
  · exact h
  · refine keeps_ite (fun _ => ?_) (fun _ => ?_)
    · refine issueFlit_keeps (sub.of (by decide) hm) ?_
      exact h
    · split
      · rename_i z0 z1 e2
        have hz1 : Keeps m s0 z1 := by
          have q : _ = z1 := congrArg Prod.snd e2
          rw [← q]
          refine lookupRoute_keeps (sub.of (by decide) hm) ?_
          exact h
        refine keeps_ite (fun _ => ?_) (fun _ => ?_)
        · refine sendData_keeps (sub.of (by decide) hm) ?_
          exact hz1
        · refine answerTo_keeps (sub.of (by decide) hm) ?_
          exact hz1
      · rename_i z3 e4
        have hz3 : Keeps m s0 z3 := by
          have q : _ = z3 := congrArg Prod.snd e4
          rw [← q]
          refine lookupRoute_keeps (sub.of (by decide) hm) ?_
          exact h
        refine answerTo_keeps (sub.of (by decide) hm) ?_
        exact hz3

theorem rerouteWaiting_keeps {a0 : Nat} {s : State} (hm : sub 203440135 m) (h : Keeps m s0 s) :
    Keeps m s0 (rerouteWaiting a0 s) := by
  unfold rerouteWaiting
  extract_lets +onlyGivenNames -merge -useContext x0 x1 x2
  try clear_value x0
  try clear_value x1
  have hx2 : Keeps m s0 x2 := by
    refine State.setSport_keeps (sub.of (by decide) hm) ?_
    exact h
  clear_value x2
  refine keeps_foldl (fun x3 y4 hx3 => ?_) _ ?_
  · refine reroute_keeps (sub.of (by decide) hm) ?_
    exact hx3
  · exact hx2

theorem leavePort_keeps {a0 : Nat} {a1 : Nat} {s : State} (hm : sub 203440135 m) (h : Keeps m s0 s) :
    Keeps m s0 (leavePort a0 a1 s) := by
  unfold leavePort
  extract_lets +onlyGivenNames -merge -useContext x0 x1
  have hx0 : Keeps m s0 x0 := by
    refine setSpState_keeps (sub.of (by decide) hm) ?_
    refine discardReplay_keeps (sub.of (by decide) hm) ?_
    exact h
  clear_value x0
  try clear_value x1
  refine rerouteWaiting_keeps (sub.of (by decide) hm) ?_
  refine State.setSport_keeps (sub.of (by decide) hm) ?_
  exact hx0

theorem portDown_keeps {a0 : Nat} {s : State} (hm : sub 471875591 m) (h : Keeps m s0 s) :
    Keeps m s0 (portDown a0 s) := by
  unfold portDown
  extract_lets +onlyGivenNames -merge -useContext x0
  have hx0 : Keeps m s0 x0 := by
    refine leavePort_keeps (sub.of (by decide) hm) ?_
    exact h
  clear_value x0
  refine keeps_ite (fun _ => ?_) (fun _ => ?_)
  · exact h
  · refine State.logFault_keeps (sub.of (by decide) hm) ?_
    refine seamFlag_keeps (sub.of (by decide) hm) ?_
    exact hx0

theorem replayAll_keeps {a0 : Nat} {s : State} (hm : sub 471875591 m) (h : Keeps m s0 s) :
    Keeps m s0 (replayAll a0 s) := by
  unfold replayAll
  extract_lets +onlyGivenNames -merge -useContext x0 x1 x2 x3
  try clear_value x0
  have hx1 : Keeps m s0 x1 := by
    refine State.countUp_keeps (sub.of (by decide) hm) ?_
    exact h
  clear_value x1
  have hx2 : Keeps m s0 x2 := by
    refine leaves_keeps (sub.of (by decide) hm) ?_
    exact hx1
  clear_value x2
  try clear_value x3
  refine keeps_ite (fun _ => ?_) (fun _ => ?_)
  · exact h
  · refine keeps_ite (fun _ => ?_) (fun _ => ?_)
    · refine portDown_keeps (sub.of (by decide) hm) ?_
      refine seamFlag_keeps (sub.of (by decide) hm) ?_
      exact h
    · refine State.setSport_keeps (sub.of (by decide) hm) ?_
      exact hx2

theorem takeAck_keeps {a0 : Nat} {a1 : Flit} {s : State} (hm : sub 203440129 m) (h : Keeps m s0 s) :
    Keeps m s0 (takeAck a0 a1 s) := by
  unfold takeAck
  extract_lets +onlyGivenNames -merge -useContext x0 x1
  try clear_value x0
  try clear_value x1
  refine keeps_ite (fun _ => ?_) (fun _ => ?_)
  · exact h
  · refine keeps_ite (fun _ => ?_) (fun _ => ?_)
    · refine State.setSport_keeps (sub.of (by decide) hm) ?_
      exact h
    · refine keeps_ite (fun _ => ?_) (fun _ => ?_)
      · refine seamViol_keeps (sub.of (by decide) hm) ?_
        exact h
      · exact h

theorem takeLink_keeps {a0 : Nat} {a1 : Flit} {s : State} (hm : sub 471875591 m) (h : Keeps m s0 s) :
    Keeps m s0 (takeLink a0 a1 s) := by
  unfold takeLink
  extract_lets +onlyGivenNames -merge -useContext x0 x1 x2
  try clear_value x0
  have hx1 : Keeps m s0 x1 := by
    refine State.setSport_keeps (sub.of (by decide) hm) ?_
    exact h
  clear_value x1
  have hx2 : Keeps m s0 x2 := by
    refine takeCredit_keeps (sub.of (by decide) hm) ?_
    refine takeAck_keeps (sub.of (by decide) hm) ?_
    exact hx1
  clear_value x2
  refine keeps_ite (fun _ => ?_) (fun _ => ?_)
  · refine pump_keeps (sub.of (by decide) hm) ?_
    refine keeps_ite (fun _ => ?_) (fun _ => ?_)
    · refine replayAll_keeps (sub.of (by decide) hm) ?_
      exact hx2
    · exact hx2
  · exact hx1

theorem rxBegin_keeps {a0 : Nat} {a1 : Flit} {s : State} (hm : sub 471875591 m) (h : Keeps m s0 s) :
    Keeps m s0 (rxBegin a0 a1 s).2 := by
  unfold rxBegin
  extract_lets +onlyGivenNames -merge -useContext x0
  have hx0 : Keeps m s0 x0 := by
    refine keeps_ite (fun _ => ?_) (fun _ => ?_)
    · refine seamFlag_keeps (sub.of (by decide) hm) ?_
      exact h
    · exact h
  clear_value x0
  refine keeps_ite2 (fun _ => ?_) (fun _ => ?_)
  · dsimp -zeta only
    exact h
  · refine keeps_ite2 (fun _ => ?_) (fun _ => ?_)
    · dsimp -zeta only
      refine takeLink_keeps (sub.of (by decide) hm) ?_
      exact h
    · refine keeps_ite2 (fun _ => ?_) (fun _ => ?_)
      · dsimp -zeta only
        exact h
      · refine keeps_ite2 (fun _ => ?_) (fun _ => ?_)
        · dsimp -zeta only
          refine seamViol_keeps (sub.of (by decide) hm) ?_
          refine setNak_keeps (sub.of (by decide) hm) ?_
          exact hx0
        · dsimp -zeta only
          exact h

theorem takeTimeSync_keeps {a0 : Nat} {a1 : Flit} {a2 : Nat} {s : State} (hm : sub 471875591 m) (h : Keeps m s0 s) :
    Keeps m s0 (takeTimeSync a0 a1 a2 s) := by
  unfold takeTimeSync
  extract_lets +onlyGivenNames -merge -useContext x0
  try clear_value x0
  split
  · rename_i z1 e2
    have hz1 : Keeps m s0 z1 := by
      have q : _ = z1 := congrArg Prod.snd e2
      rw [← q]
      refine rxBegin_keeps (sub.of (by decide) hm) ?_
      exact h
    exact hz1
  · rename_i z3 e4
    have hz3 : Keeps m s0 z3 := by
      have q : _ = z3 := congrArg Prod.snd e4
      rw [← q]
      refine rxBegin_keeps (sub.of (by decide) hm) ?_
      exact h
    extract_lets +onlyGivenNames -merge -useContext x5 x6
    try clear_value x5
    try clear_value x6
    refine keeps_ite (fun _ => ?_) (fun _ => ?_)
    · refine seamViol_keeps (sub.of (by decide) hm) ?_
      exact hz3
    · refine keeps_ite (fun _ => ?_) (fun _ => ?_)
      · exact hz3
      · refine sendOther_keeps (sub.of (by decide) hm) ?_
        exact hz3

theorem bumpTid_keeps {a0 : Nat} {s : State} (hm : sub 2097152 m) (h : Keeps m s0 s) :
    Keeps m s0 (bumpTid a0 s) := by
  unfold bumpTid
  extract_lets +onlyGivenNames -merge -useContext x0
  try clear_value x0
  refine State.setSeam_keeps (sub.of (by decide) hm) ?_
  exact h

theorem issueReq_keeps {a0 : Nat} {a1 : Req} {a2 : Nat} {a3 : Nat} {a4 : Nat} {a5 : Bool} {a6 : List Byte} {s : State} (hm : sub 203440135 m) (h : Keeps m s0 s) :
    Keeps m s0 (issueReq a0 a1 a2 a3 a4 a5 a6 s).2 := by
  unfold issueReq
  extract_lets +onlyGivenNames -merge -useContext x0
  try clear_value x0
  split
  · dsimp -zeta only
    exact h
  · extract_lets +onlyGivenNames -merge -useContext x1 x2 x3
    have hx1 : Keeps m s0 x1 := by
      refine bumpTid_keeps (sub.of (by decide) hm) ?_
      exact h
    clear_value x1
    try clear_value x2
    have hx3 : Keeps m s0 x3 := by
      refine State.setSeam_keeps (sub.of (by decide) hm) ?_
      exact hx1
    clear_value x3
    dsimp -zeta only
    refine issueFlit_keeps (sub.of (by decide) hm) ?_
    exact hx3

theorem windowRead_keeps {a0 : Req} {a1 : Nat} {a2 : Nat} {a3 : Nat} {s : State} (hm : sub 203440135 m) (h : Keeps m s0 s) :
    Keeps m s0 (windowRead a0 a1 a2 a3 s).2 := by
  unfold windowRead
  extract_lets +onlyGivenNames -merge -useContext x0
  try clear_value x0
  refine keeps_foldl2 (fun x1 y2 hx1 => ?_) _ ?_
  · extract_lets +onlyGivenNames -merge -useContext x3
    have hx3 : Keeps m s0 x3.2 := by
      refine issueReq_keeps (sub.of (by decide) hm) ?_
      exact hx1
    clear_value x3
    dsimp -zeta only
    exact hx3
  · dsimp -zeta only
    exact h

theorem issuePost_keeps {a0 : Nat} {a1 : Option Nat} {a2 : Nat} {a3 : Bool} {a4 : List Byte} {s : State} (hm : sub 203440135 m) (h : Keeps m s0 s) :
    Keeps m s0 (issuePost a0 a1 a2 a3 a4 s) := by
  unfold issuePost
  extract_lets +onlyGivenNames -merge -useContext x0 x1 x2
  try clear_value x0
  try clear_value x1
  have hx2 : Keeps m s0 x2 := by
    refine bumpTid_keeps (sub.of (by decide) hm) ?_
    refine State.setSeam_keeps (sub.of (by decide) hm) ?_
    exact h
  clear_value x2
  refine issueFlit_keeps (sub.of (by decide) hm) ?_
  exact hx2

theorem windowWrite_keeps {a0 : Nat} {a1 : List Byte} {s : State} (hm : sub 203440135 m) (h : Keeps m s0 s) :
    Keeps m s0 (windowWrite a0 a1 s) := by
  unfold windowWrite
  extract_lets +onlyGivenNames -merge -useContext x0 x1 x2 x3
  try clear_value x0
  try clear_value x1
  try clear_value x2
  try clear_value x3
  refine keeps_ite (fun _ => ?_) (fun _ => ?_)
  · refine keeps_foldl (fun x4 y5 hx4 => ?_) _ ?_
    · refine issuePost_keeps (sub.of (by decide) hm) ?_
      exact hx4
    · exact h
  · refine keeps_foldl (fun x6 y7 hx6 => ?_) _ ?_
    · refine issuePost_keeps (sub.of (by decide) hm) ?_
      exact hx6
    · exact h

theorem downFor_keeps {a0 : Nat} {a1 : Nat} {s : State} (hm : sub 471875591 m) (h : Keeps m s0 s) :
    Keeps m s0 (downFor a0 a1 s) := by
  unfold downFor
  refine keeps_ite (fun _ => ?_) (fun _ => ?_)
  · refine portDown_keeps (sub.of (by decide) hm) ?_
    refine keeps_ite (fun _ => ?_) (fun _ => ?_)
    · refine seamFlag_keeps (sub.of (by decide) hm) ?_
      exact h
    · exact h
  · exact h

theorem trainAgain_keeps {a0 : Nat} {s : State} (hm : sub 2097152 m) (h : Keeps m s0 s) :
    Keeps m s0 (trainAgain a0 s) := by
  unfold trainAgain
  extract_lets +onlyGivenNames -merge -useContext x0
  try clear_value x0
  refine keeps_ite (fun _ => ?_) (fun _ => ?_)
  · refine State.setSport_keeps (sub.of (by decide) hm) ?_
    exact h
  · exact h

theorem issueOrWait_keeps {a0 : TidAsk} {s : State} (hm : sub 740311047 m) (h : Keeps m s0 s) :
    Keeps m s0 (issueOrWait a0 s) := by
  unfold issueOrWait
  extract_lets +onlyGivenNames -merge -useContext x0
  try clear_value x0
  split
  · rename_i z1 z2 e3
    have hz2 : Keeps m s0 z2 := by
      have q : _ = z2 := congrArg Prod.snd e3
      rw [← q]
      refine issueReq_keeps (sub.of (by decide) hm) ?_
      exact h
    exact hz2
  · rename_i z4 e5
    have hz4 : Keeps m s0 z4 := by
      have q : _ = z4 := congrArg Prod.snd e5
      rw [← q]
      refine issueReq_keeps (sub.of (by decide) hm) ?_
      exact h
    refine State.setAsks_keeps (sub.of (by decide) hm) ?_
    exact h

theorem replayTimeout_keeps {a0 : Nat} {s : State} (hm : sub 471875591 m) (h : Keeps m s0 s) :
    Keeps m s0 (replayTimeout a0 s) := by
  unfold replayTimeout
  extract_lets +onlyGivenNames -merge -useContext x0
  try clear_value x0
  refine keeps_ite (fun _ => ?_) (fun _ => ?_)
  · refine replayAll_keeps (sub.of (by decide) hm) ?_
    exact h
  · exact h

theorem strayAnswer_keeps {a0 : Nat} {s : State} (hm : sub 203440129 m) (h : Keeps m s0 s) :
    Keeps m s0 (strayAnswer a0 s) := by
  unfold strayAnswer
  refine keeps_ite (fun _ => ?_) (fun _ => ?_)
  · refine seamViol_keeps (sub.of (by decide) hm) ?_
    exact h
  · exact h

theorem takeAnswer_keeps {a0 : Nat} {a1 : Nat} {a2 : Flit} {s : State} (hm : sub 203440135 m) (h : Keeps m s0 s) :
    Keeps m s0 (takeAnswer a0 a1 a2 s) := by
  unfold takeAnswer
  split
  · refine strayAnswer_keeps (sub.of (by decide) hm) ?_
    exact h
  · refine keeps_ite (fun _ => ?_) (fun _ => ?_)
    · refine State.setPreg_keeps (sub.of (by decide) hm) ?_
      exact h
    · refine finishReq_keeps (sub.of (by decide) hm) ?_
      exact h

theorem rxRoute_keeps {a0 : Nat} {a1 : Flit} {s : State} (hm : sub 203440135 m) (h : Keeps m s0 s) :
    Keeps m s0 (rxRoute a0 a1 s).2 := by
  unfold rxRoute
  extract_lets +onlyGivenNames -merge -useContext x0 x1
  try clear_value x0
  have hx1 : Keeps m s0 x1 := by
    refine keeps_ite (fun _ => ?_) (fun _ => ?_)
    · exact h
    · refine keeps_foldl (fun x2 y3 hx2 => ?_) _ ?_
      · refine sendData_keeps (sub.of (by decide) hm) ?_
        exact hx2
      · exact h
  clear_value x1
  refine keeps_ite2 (fun _ => ?_) (fun _ => ?_)
  · dsimp -zeta only
    exact hx1
  · refine keeps_ite2 (fun _ => ?_) (fun _ => ?_)
    · dsimp -zeta only
      exact h
    · refine keeps_ite2 (fun _ => ?_) (fun _ => ?_)
      · dsimp -zeta only
        refine answerTo_keeps (sub.of (by decide) hm) ?_
        exact h
      · refine keeps_ite2 (fun _ => ?_) (fun _ => ?_)
        · dsimp -zeta only
          refine answerTo_keeps (sub.of (by decide) hm) ?_
          refine seamViol_keeps (sub.of (by decide) hm) ?_
          exact h
        · split
          · rename_i z4 z5 e6
            have hz5 : Keeps m s0 z5 := by
              have q : _ = z5 := congrArg Prod.snd e6
              rw [← q]
              refine lookupRoute_keeps (sub.of (by decide) hm) ?_
              exact h
            refine keeps_ite2 (fun _ => ?_) (fun _ => ?_)
            · dsimp -zeta only
              refine sendData_keeps (sub.of (by decide) hm) ?_
              exact hz5
            · dsimp -zeta only
              refine answerTo_keeps (sub.of (by decide) hm) ?_
              refine seamViol_keeps (sub.of (by decide) hm) ?_
              exact hz5
          · rename_i z7 e8
            have hz7 : Keeps m s0 z7 := by
              have q : _ = z7 := congrArg Prod.snd e8
              rw [← q]
              refine lookupRoute_keeps (sub.of (by decide) hm) ?_
              exact h
            dsimp -zeta only
            refine answerTo_keeps (sub.of (by decide) hm) ?_
            exact hz7

theorem rxSeq_keeps {a0 : Nat} {a1 : Flit} {s : State} (hm : sub 203440129 m) (h : Keeps m s0 s) :
    Keeps m s0 (rxSeq a0 a1 s).2 := by
  unfold rxSeq
  extract_lets +onlyGivenNames -merge -useContext x0 x1
  try clear_value x0
  try clear_value x1
  refine keeps_ite2 (fun _ => ?_) (fun _ => ?_)
  · refine keeps_ite2 (fun _ => ?_) (fun _ => ?_)
    · dsimp -zeta only
      refine seamViol_keeps (sub.of (by decide) hm) ?_
      exact h
    · dsimp -zeta only
      refine State.setSport_keeps (sub.of (by decide) hm) ?_
      exact h
  · refine keeps_ite2 (fun _ => ?_) (fun _ => ?_)
    · dsimp -zeta only
      exact h
    · dsimp -zeta only
      refine seamViol_keeps (sub.of (by decide) hm) ?_
      refine setNak_keeps (sub.of (by decide) hm) ?_
      exact h

theorem rxData_keeps {a0 : Nat} {a1 : Nat} {a2 : Bool} {a3 : Flit} {s : State} (hm : sub 471875591 m) (h : Keeps m s0 s) :
    Keeps m s0 (rxData a0 a1 a2 a3 s).2 := by
  unfold rxData
  extract_lets +onlyGivenNames -merge -useContext x0
  try clear_value x0
  refine keeps_ite2 (fun _ => ?_) (fun _ => ?_)
  · refine keeps_ite2 (fun _ => ?_) (fun _ => ?_)
    · dsimp -zeta only
      refine State.setSeam_keeps (sub.of (by decide) hm) ?_
      exact h
    · dsimp -zeta only
      exact h
  · split
    · rename_i z1 e2
      have hz1 : Keeps m s0 z1 := by
        have q : _ = z1 := congrArg Prod.snd e2
        rw [← q]
        refine rxBegin_keeps (sub.of (by decide) hm) ?_
        exact h
      dsimp -zeta only
      exact hz1
    · rename_i z3 e4
      have hz3 : Keeps m s0 z3 := by
        have q : _ = z3 := congrArg Prod.snd e4
        rw [← q]
        refine rxBegin_keeps (sub.of (by decide) hm) ?_
        exact h
      refine keeps_ite2 (fun _ => ?_) (fun _ => ?_)
      · dsimp -zeta only
        exact hz3
      · split
        · rename_i z5 e6
          have hz5 : Keeps m s0 z5 := by
            have q : _ = z5 := congrArg Prod.snd e6
            rw [← q]
            refine rxSeq_keeps (sub.of (by decide) hm) ?_
            exact hz3
          dsimp -zeta only
          exact hz5
        · rename_i z7 e8
          have hz7 : Keeps m s0 z7 := by
            have q : _ = z7 := congrArg Prod.snd e8
            rw [← q]
            refine rxSeq_keeps (sub.of (by decide) hm) ?_
            exact hz3
          refine keeps_ite2 (fun _ => ?_) (fun _ => ?_)
          · dsimp -zeta only
            exact hz7
          · refine keeps_ite2 (fun _ => ?_) (fun _ => ?_)
            · dsimp -zeta only
              refine seamViol_keeps (sub.of (by decide) hm) ?_
              exact hz7
            · refine keeps_ite2 (fun _ => ?_) (fun _ => ?_)
              · dsimp -zeta only
                refine answerTo_keeps (sub.of (by decide) hm) ?_
                refine seamViol_keeps (sub.of (by decide) hm) ?_
                exact hz7
              · refine rxRoute_keeps (sub.of (by decide) hm) ?_
                exact hz7

theorem cutReport_keeps {a0 : Nat} {a1 : Nat} {s : State} (hm : sub 2097152 m) (h : Keeps m s0 s) :
    Keeps m s0 (cutReport a0 a1 s) := by
  unfold cutReport
  refine keeps_foldl (fun x0 y1 hx0 => ?_) _ ?_
  · extract_lets +onlyGivenNames -merge -useContext x2 x3
    try clear_value x2
    try clear_value x3
    refine keeps_ite (fun _ => ?_) (fun _ => ?_)
    · refine State.setSport_keeps (sub.of (by decide) hm) ?_
      exact hx0
    · exact hx0
  · exact h

theorem takeFailure_keeps {a0 : Nat} {a1 : Flit} {s : State} (hm : sub 203440129 m) (h : Keeps m s0 s) :
    Keeps m s0 (takeFailure a0 a1 s) := by
  unfold takeFailure
  extract_lets +onlyGivenNames -merge -useContext x0
  have hx0 : Keeps m s0 x0 := by
    refine keeps_ite (fun _ => ?_) (fun _ => ?_)
    · refine cutReport_keeps (sub.of (by decide) hm) ?_
      exact h
    · exact h
  clear_value x0
  refine keeps_ite (fun _ => ?_) (fun _ => ?_)
  · exact h
  · refine lostFlit_keeps (sub.of (by decide) hm) ?_
    exact hx0

theorem attestGo_keeps {a0 : Req} {a1 : Word} {s : State} (hm : sub 740311047 m) (h : Keeps m s0 s) :
    Keeps m s0 (attestGo a0 a1 s) := by
  unfold attestGo
  extract_lets +onlyGivenNames -merge -useContext x0 x1 x2
  try clear_value x0
  try clear_value x1
  try clear_value x2
  refine keeps_ite (fun _ => ?_) (fun _ => ?_)
  · refine State.setPreg_keeps (sub.of (by decide) hm) ?_
    exact h
  · refine keeps_ite (fun _ => ?_) (fun _ => ?_)
    · exact h
    · refine keeps_ite (fun _ => ?_) (fun _ => ?_)
      · refine issueOrWait_keeps (sub.of (by decide) hm) ?_
        refine State.setPreg_keeps (sub.of (by decide) hm) ?_
        exact h
      · refine State.setPreg_keeps (sub.of (by decide) hm) ?_
        exact h

theorem writeSeamPctl_keeps {a0 : Nat} {a1 : Word} {s : State} (hm : sub 203440135 m) (h : Keeps m s0 s) :
    Keeps m s0 (writeSeamPctl a0 a1 s) := by
  unfold writeSeamPctl
  extract_lets +onlyGivenNames -merge -useContext x0 x1 x2 x3 x4 x5 x6
  try clear_value x0
  have hx1 : Keeps m s0 x1 := by
    refine State.plainWrite_keeps (sub.of (by decide) hm) ?_
    exact h
  clear_value x1
  try clear_value x2
  try clear_value x3
  have hx4 : Keeps m s0 x4 := by
    refine keeps_ite (fun _ => ?_) (fun _ => ?_)
    · refine leavePort_keeps (sub.of (by decide) hm) ?_
      exact hx1
    · refine keeps_ite (fun _ => ?_) (fun _ => ?_)
      · refine setSpState_keeps (sub.of (by decide) hm) ?_
        refine State.setSport_keeps (sub.of (by decide) hm) ?_
        exact hx1
      · exact hx1
  clear_value x4
  try clear_value x5
  have hx6 : Keeps m s0 x6 := by
    refine keeps_ite (fun _ => ?_) (fun _ => ?_)
    · refine pump_keeps (sub.of (by decide) hm) ?_
      refine setSpState_keeps (sub.of (by decide) hm) ?_
      refine State.setSport_keeps (sub.of (by decide) hm) ?_
      exact hx4
    · exact hx4
  clear_value x6
  refine keeps_ite (fun _ => ?_) (fun _ => ?_)
  · refine leavePort_keeps (sub.of (by decide) hm) ?_
    exact hx6
  · exact hx6

theorem cueAtGo_keeps {a0 : Req} {a1 : Word} {s : State} (hm : sub 740311047 m) (h : Keeps m s0 s) :
    Keeps m s0 (cueAtGo a0 a1 s) := by
  unfold cueAtGo
  extract_lets +onlyGivenNames -merge -useContext x0 x1 x2 x3
  have hx0 : Keeps m s0 x0 := by
    refine State.setPreg_keeps (sub.of (by decide) hm) ?_
    exact h
  clear_value x0
  try clear_value x1
  try clear_value x2
  try clear_value x3
  refine keeps_ite (fun _ => ?_) (fun _ => ?_)
  · exact hx0
  · refine issueOrWait_keeps (sub.of (by decide) hm) ?_
    refine State.setPreg_keeps (sub.of (by decide) hm) ?_
    exact hx0

theorem writeSlCtl_keeps {a0 : Word} {s : State} (hm : sub 1 m) (h : Keeps m s0 s) :
    Keeps m s0 (writeSlCtl a0 s) := by
  unfold writeSlCtl
  refine State.plainWrite_keeps (sub.of (by decide) hm) ?_
  exact h

theorem writeMsgRd_keeps {a0 : Word} {s : State} (hm : sub 1 m) (h : Keeps m s0 s) :
    Keeps m s0 (writeMsgRd a0 s) := by
  unfold writeMsgRd
  refine keeps_ite (fun _ => ?_) (fun _ => ?_)
  · refine State.setReg_keeps (sub.of (by decide) hm) ?_
    exact h
  · exact h

theorem writeRoute_keeps {a0 : Nat} {a1 : Word} {s : State} (hm : sub 1 m) (h : Keeps m s0 s) :
    Keeps m s0 (writeRoute a0 a1 s) := by
  unfold writeRoute
  extract_lets +onlyGivenNames -merge -useContext x0
  try clear_value x0
  refine State.setReg_keeps (sub.of (by decide) hm) ?_
  exact h

theorem setAligned_keeps {a0 : Bool} {s : State} (hm : sub 1 m) (h : Keeps m s0 s) :
    Keeps m s0 (setAligned a0 s) := by
  unfold setAligned
  refine State.putBit_keeps (sub.of (by decide) hm) ?_
  exact h

theorem alignmentLost_keeps {s : State} (hm : sub 1 m) (h : Keeps m s0 s) :
    Keeps m s0 (alignmentLost s) := by
  unfold alignmentLost
  refine keeps_ite (fun _ => ?_) (fun _ => ?_)
  · refine setAligned_keeps (sub.of (by decide) hm) ?_
    exact h
  · exact h

theorem tsExchange_keeps {a0 : Nat} {s : State} (hm : sub 2097153 m) (h : Keeps m s0 s) :
    Keeps m s0 (tsExchange a0 s) := by
  unfold tsExchange
  extract_lets +onlyGivenNames -merge -useContext x0 x1 x2 x3 x4
  have hx0 : Keeps m s0 x0 := by
    refine alignmentLost_keeps (sub.of (by decide) hm) ?_
    exact h
  clear_value x0
  try clear_value x1
  try clear_value x2
  have hx3 : Keeps m s0 x3 := by
    refine State.setSeam_keeps (sub.of (by decide) hm) ?_
    exact hx0
  clear_value x3
  try clear_value x4
  refine keeps_ite (fun _ => ?_) (fun _ => ?_)
  · exact hx0
  · refine sendOther_keeps (sub.of (by decide) hm) ?_
    exact hx3

theorem exchangeDue_keeps {s : State} (hm : sub 1075838977 m) (h : Keeps m s0 s) :
    Keeps m s0 (exchangeDue s) := by
  unfold exchangeDue
  refine keeps_ite (fun _ => ?_) (fun _ => ?_)
  · split
    · rename_i z0 z1 e2
      have hz1 : Keeps m s0 z1 := by
        have q : _ = z1 := congrArg Prod.snd e2
        rw [← q]
        refine State.takeFree_keeps (sub.of (by decide) hm) ?_
        exact h
      refine tsExchange_keeps (sub.of (by decide) hm) ?_
      exact hz1
  · exact h

theorem idleSend_keeps {a0 : Nat} {s : State} (hm : sub 2097152 m) (h : Keeps m s0 s) :
    Keeps m s0 (idleSend a0 s) := by
  unfold idleSend
  extract_lets +onlyGivenNames -merge -useContext x0
  try clear_value x0
  refine keeps_ite (fun _ => ?_) (fun _ => ?_)
  · refine sendOther_keeps (sub.of (by decide) hm) ?_
    exact h
  · exact h

theorem requestTimeout_keeps {a0 : Nat} {a1 : Nat} {s : State} (hm : sub 203440135 m) (h : Keeps m s0 s) :
    Keeps m s0 (requestTimeout a0 a1 s) := by
  unfold requestTimeout
  split
  · exact h
  · refine keeps_ite (fun _ => ?_) (fun _ => ?_)
    · exact h
    · refine keeps_ite (fun _ => ?_) (fun _ => ?_)
      · refine dropReq_keeps (sub.of (by decide) hm) ?_
        exact h
      · refine seamFlag_keeps (sub.of (by decide) hm) ?_
        refine finishReq_keeps (sub.of (by decide) hm) ?_
        exact h

theorem eventMsg_keeps {a0 : Nat} {s : State} (hm : sub 203440135 m) (h : Keeps m s0 s) :
    Keeps m s0 (eventMsg a0 s) := by
  unfold eventMsg
  extract_lets +onlyGivenNames -merge -useContext x0
  have hx0 : Keeps m s0 x0 := by
    refine keeps_seamEvts (sub.of (by decide) hm) ?_ _
    exact h
  clear_value x0
  split
  · exact h
  · extract_lets +onlyGivenNames -merge -useContext x1 x2
    try clear_value x1
    try clear_value x2
    refine issuePost_keeps (sub.of (by decide) hm) ?_
    exact hx0

theorem takeLaneMap_keeps {a0 : Nat} {a1 : Flit} {s : State} (hm : sub 471875591 m) (h : Keeps m s0 s) :
    Keeps m s0 (takeLaneMap a0 a1 s) := by
  unfold takeLaneMap
  extract_lets +onlyGivenNames -merge -useContext x0
  try clear_value x0
  split
  · rename_i z1 e2
    have hz1 : Keeps m s0 z1 := by
      have q : _ = z1 := congrArg Prod.snd e2
      rw [← q]
      refine rxBegin_keeps (sub.of (by decide) hm) ?_
      exact h
    exact hz1
  · rename_i z3 e4
    have hz3 : Keeps m s0 z3 := by
      have q : _ = z3 := congrArg Prod.snd e4
      rw [← q]
      refine rxBegin_keeps (sub.of (by decide) hm) ?_
      exact h
    refine keeps_ite (fun _ => ?_) (fun _ => ?_)
    · refine seamViol_keeps (sub.of (by decide) hm) ?_
      exact hz3
    · refine keeps_ite (fun _ => ?_) (fun _ => ?_)
      · refine seamViol_keeps (sub.of (by decide) hm) ?_
        exact hz3
      · refine State.setFld_keeps (sub.of (by decide) hm) ?_
        exact hz3

theorem setPeer_keeps {a0 : Nat} {a1 : Nat} {a2 : Bool} {a3 : Nat} {s : State} (hm : sub 1 m) (h : Keeps m s0 s) :
    Keeps m s0 (setPeer a0 a1 a2 a3 s) := by
  unfold setPeer
  extract_lets +onlyGivenNames -merge -useContext x0
  try clear_value x0
  refine State.setReg_keeps (sub.of (by decide) hm) ?_
  exact h

theorem trainDone_keeps {a0 : Nat} {a1 : Nat} {a2 : Nat} {a3 : Bool} {a4 : Nat} {s : State} (hm : sub 203440129 m) (h : Keeps m s0 s) :
    Keeps m s0 (trainDone a0 a1 a2 a3 a4 s) := by
  unfold trainDone
  extract_lets +onlyGivenNames -merge -useContext x0 x1 x2 x3 x4
  try clear_value x0
  have hx1 : Keeps m s0 x1 := by
    refine setPeer_keeps (sub.of (by decide) hm) ?_
    refine setSpState_keeps (sub.of (by decide) hm) ?_
    exact h
  clear_value x1
  have hx2 : Keeps m s0 x2 := by
    refine State.setFld_keeps (sub.of (by decide) hm) ?_
    exact hx1
  clear_value x2
  try clear_value x3
  have hx4 : Keeps m s0 x4 := by
    refine State.setSport_keeps (sub.of (by decide) hm) ?_
    exact hx2
  clear_value x4
  refine keeps_ite (fun _ => ?_) (fun _ => ?_)
  · exact h
  · refine pump_keeps (sub.of (by decide) hm) ?_
    refine seamFlag_keeps (sub.of (by decide) hm) ?_
    exact hx4

theorem spareLane_keeps {a0 : Nat} {a1 : Nat} {s : State} (hm : sub 471875591 m) (h : Keeps m s0 s) :
    Keeps m s0 (spareLane a0 a1 s) := by
  unfold spareLane
  extract_lets +onlyGivenNames -merge -useContext x0 x1 x2 x3 x4
  try clear_value x0
  try clear_value x1
  have hx2 : Keeps m s0 x2 := by
    refine State.setFld_keeps (sub.of (by decide) hm) ?_
    exact h
  clear_value x2
  try clear_value x3
  have hx4 : Keeps m s0 x4 := by
    refine sendOther_keeps (sub.of (by decide) hm) ?_
    exact hx2
  clear_value x4
  refine keeps_ite (fun _ => ?_) (fun _ => ?_)
  · exact h
  · refine keeps_ite (fun _ => ?_) (fun _ => ?_)
    · refine portDown_keeps (sub.of (by decide) hm) ?_
      exact h
    · refine State.logFault_keeps (sub.of (by decide) hm) ?_
      refine seamFlag_keeps (sub.of (by decide) hm) ?_
      exact hx4

theorem takeHello_keeps {a0 : Nat} {a1 : Flit} {s : State} (hm : sub 471875591 m) (h : Keeps m s0 s) :
    Keeps m s0 (takeHello a0 a1 s) := by
  unfold takeHello
  extract_lets +onlyGivenNames -merge -useContext x0
  try clear_value x0
  split
  · rename_i z1 e2
    have hz1 : Keeps m s0 z1 := by
      have q : _ = z1 := congrArg Prod.snd e2
      rw [← q]
      refine rxBegin_keeps (sub.of (by decide) hm) ?_
      exact h
    exact hz1
  · rename_i z3 e4
    have hz3 : Keeps m s0 z3 := by
      have q : _ = z3 := congrArg Prod.snd e4
      rw [← q]
      refine rxBegin_keeps (sub.of (by decide) hm) ?_
      exact h
    refine keeps_ite (fun _ => ?_) (fun _ => ?_)
    · refine seamViol_keeps (sub.of (by decide) hm) ?_
      exact hz3
    · refine keeps_ite (fun _ => ?_) (fun _ => ?_)
      · refine setPeer_keeps (sub.of (by decide) hm) ?_
        exact hz3
      · refine seamViol_keeps (sub.of (by decide) hm) ?_
        exact hz3

theorem takeIdle_keeps {a0 : Nat} {a1 : Flit} {s : State} (hm : sub 471875591 m) (h : Keeps m s0 s) :
    Keeps m s0 (takeIdle a0 a1 s) := by
  unfold takeIdle
  split
  · rename_i z0 e1
    have hz0 : Keeps m s0 z0 := by
      have q : _ = z0 := congrArg Prod.snd e1
      rw [← q]
      refine rxBegin_keeps (sub.of (by decide) hm) ?_
      exact h
    exact hz0
  · rename_i z2 e3
    have hz2 : Keeps m s0 z2 := by
      have q : _ = z2 := congrArg Prod.snd e3
      rw [← q]
      refine rxBegin_keeps (sub.of (by decide) hm) ?_
      exact h
    refine keeps_ite (fun _ => ?_) (fun _ => ?_)
    · refine seamViol_keeps (sub.of (by decide) hm) ?_
      exact hz2
    · exact hz2

theorem countAlign_keeps {a0 : Int} {s : State} (hm : sub 2097153 m) (h : Keeps m s0 s) :
    Keeps m s0 (countAlign a0 s) := by
  unfold countAlign
  extract_lets +onlyGivenNames -merge -useContext x0 x1 x2 x3 x4
  try clear_value x0
  try clear_value x1
  try clear_value x2
  try clear_value x3
  have hx4 : Keeps m s0 x4 := by
    refine State.setSeam_keeps (sub.of (by decide) hm) ?_
    exact h
  clear_value x4
  refine keeps_ite (fun _ => ?_) (fun _ => ?_)
  · refine setAligned_keeps (sub.of (by decide) hm) ?_
    exact hx4
  · refine keeps_ite (fun _ => ?_) (fun _ => ?_)
    · refine setAligned_keeps (sub.of (by decide) hm) ?_
      exact hx4
    · exact hx4

theorem roundFree_keeps {a0 : Int} {a1 : Nat} {s : State} (hm : sub 1073741824 m) (h : Keeps m s0 s) :
    Keeps m s0 (roundFree a0 a1 s).2 := by
  unfold roundFree
  extract_lets +onlyGivenNames -merge -useContext x0 x1
  try clear_value x0
  try clear_value x1
  refine keeps_ite2 (fun _ => ?_) (fun _ => ?_)
  · dsimp -zeta only
    exact h
  · refine keeps_ite2 (fun _ => ?_) (fun _ => ?_)
    · dsimp -zeta only
      exact h
    · split
      · rename_i z2 z3 e4
        have hz3 : Keeps m s0 z3 := by
          have q : _ = z3 := congrArg Prod.snd e4
          rw [← q]
          refine State.takeFree_keeps (sub.of (by decide) hm) ?_
          exact h
        dsimp -zeta only
        exact hz3

theorem servoTrim_keeps {a0 : Int} {a1 : Int} {s : State} (hm : sub 1073741857 m) (h : Keeps m s0 s) :
    Keeps m s0 (servoTrim a0 a1 s) := by
  unfold servoTrim
  extract_lets +onlyGivenNames -merge -useContext x0
  try clear_value x0
  split
  · rename_i z1 z2 e3
    have hz2 : Keeps m s0 z2 := by
      have q : _ = z2 := congrArg Prod.snd e3
      rw [← q]
      refine keeps_ite2 (fun _ => ?_) (fun _ => ?_)
      · dsimp -zeta only
        exact h
      · refine State.takeFree_keeps (sub.of (by decide) hm) ?_
        exact h
    extract_lets +onlyGivenNames -merge -useContext x4 x5
    try clear_value x4
    have hx5 : Keeps m s0 x5 := by
      refine State.setClock_keeps (sub.of (by decide) hm) ?_
      exact hz2
    clear_value x5
    split
    · rename_i z6 z7 e8
      have hz7 : Keeps m s0 z7 := by
        have q : _ = z7 := congrArg Prod.snd e8
        rw [← q]
        refine roundFree_keeps (sub.of (by decide) hm) ?_
        exact hx5
      extract_lets +onlyGivenNames -merge -useContext x9
      try clear_value x9
      split
      · rename_i z10 z11 e12
        have hz11 : Keeps m s0 z11 := by
          have q : _ = z11 := congrArg Prod.snd e12
          rw [← q]
          refine keeps_ite2 (fun _ => ?_) (fun _ => ?_)
          · dsimp -zeta only
            exact hz7
          · refine State.takeFree_keeps (sub.of (by decide) hm) ?_
            exact hz7
        refine State.setReg_keeps (sub.of (by decide) hm) ?_
        exact hz11

theorem servo_keeps {a0 : Nat} {a1 : Nat} {a2 : Nat} {a3 : Nat} {s : State} (hm : sub 1277181985 m) (h : Keeps m s0 s) :
    Keeps m s0 (servo a0 a1 a2 a3 s) := by
  unfold servo
  split
  · rename_i z0 z1 e2
    have hz1 : Keeps m s0 z1 := by
      have q : _ = z1 := congrArg Prod.snd e2
      rw [← q]
      refine roundFree_keeps (sub.of (by decide) hm) ?_
      exact h
    split
    · rename_i z3 z4 e5
      have hz4 : Keeps m s0 z4 := by
        have q : _ = z4 := congrArg Prod.snd e5
        rw [← q]
        refine roundFree_keeps (sub.of (by decide) hm) ?_
        exact hz1
      extract_lets +onlyGivenNames -merge -useContext x6
      try clear_value x6
      split
      · rename_i z7 z8 e9
        have hz8 : Keeps m s0 z8 := by
          have q : _ = z8 := congrArg Prod.snd e9
          rw [← q]
          refine roundFree_keeps (sub.of (by decide) hm) ?_
          exact hz4
        extract_lets +onlyGivenNames -merge -useContext x10 x11 x12 x13 x14
        have hx10 : Keeps m s0 x10 := by
          refine State.setReg_keeps (sub.of (by decide) hm) ?_
          refine State.setReg_keeps (sub.of (by decide) hm) ?_
          exact hz8
        clear_value x10
        have hx11 : Keeps m s0 x11 := by
          refine State.setFld_keeps (sub.of (by decide) hm) ?_
          exact hx10
        clear_value x11
        try clear_value x12
        have hx13 : Keeps m s0 x13 := by
          refine State.setSeam_keeps (sub.of (by decide) hm) ?_
          exact hx11
        clear_value x13
        try clear_value x14
        refine keeps_ite (fun _ => ?_) (fun _ => ?_)
        · exact hx13
        · refine keeps_ite (fun _ => ?_) (fun _ => ?_)
          · refine countAlign_keeps (sub.of (by decide) hm) ?_
            refine servoTrim_keeps (sub.of (by decide) hm) ?_
            exact hx13
          · refine setAligned_keeps (sub.of (by decide) hm) ?_
            refine seamFlag_keeps (sub.of (by decide) hm) ?_
            refine State.setSeam_keeps (sub.of (by decide) hm) ?_
            exact hx13

theorem takeReply_keeps {a0 : Nat} {a1 : Flit} {a2 : Nat} {s : State} (hm : sub 1545617447 m) (h : Keeps m s0 s) :
    Keeps m s0 (takeReply a0 a1 a2 s) := by
  unfold takeReply
  split
  · rename_i z0 e1
    have hz0 : Keeps m s0 z0 := by
      have q : _ = z0 := congrArg Prod.snd e1
      rw [← q]
      refine rxBegin_keeps (sub.of (by decide) hm) ?_
      exact h
    exact hz0
  · rename_i z2 e3
    have hz2 : Keeps m s0 z2 := by
      have q : _ = z2 := congrArg Prod.snd e3
      rw [← q]
      refine rxBegin_keeps (sub.of (by decide) hm) ?_
      exact h
    extract_lets +onlyGivenNames -merge -useContext x4 x5
    try clear_value x4
    have hx5 : Keeps m s0 x5 := by
      refine State.setSeam_keeps (sub.of (by decide) hm) ?_
      exact hz2
    clear_value x5
    split
    · refine keeps_ite (fun _ => ?_) (fun _ => ?_)
      · refine seamViol_keeps (sub.of (by decide) hm) ?_
        exact hz2
      · exact hz2
    · refine keeps_ite (fun _ => ?_) (fun _ => ?_)
      · refine seamViol_keeps (sub.of (by decide) hm) ?_
        exact hz2
      · refine keeps_ite (fun _ => ?_) (fun _ => ?_)
        · exact hz2
        · refine keeps_ite (fun _ => ?_) (fun _ => ?_)
          · refine servo_keeps (sub.of (by decide) hm) ?_
            exact hx5
          · refine setAligned_keeps (sub.of (by decide) hm) ?_
            exact hx5

end Sys2Proof.Machine
end

