-- ==== Sys2Proof/Laws/Frame/Access.lean ====
section
/-!
SUPPORT. What the functions of Machine/Access.lean touch: one lemma each, in the terms of `Keeps`.
-/
namespace Sys2Proof.Machine

variable {m : Nat} {s0 : State}

theorem putPiece_keeps {a0 : Nat} {a1 : Nat} {a2 : Nat} {a3 : List Byte} {s : State} (hm : sub 472085535 m) (h : Keeps m s0 s) :
    Keeps m s0 (putPiece a0 a1 a2 a3 s) := by
  unfold putPiece
  split
  · exact h
  · refine State.put_keeps (sub.of (by decide) hm) ?_
    refine noteWave_keeps (sub.of (by decide) hm) ?_
    exact h
  · refine State.put_keeps (sub.of (by decide) hm) ?_
    exact h
  · exact h
  · refine State.put_keeps (sub.of (by decide) hm) ?_
    exact h
  · refine storeWrite_keeps (sub.of (by decide) hm) ?_
    exact h
  · exact h
  · refine noteAsleep_keeps (sub.of (by decide) hm) ?_
    exact h
  · refine keeps_ite (fun _ => ?_) (fun _ => ?_)
    · exact h
    · refine State.put_keeps (sub.of (by decide) hm) ?_
      refine keeps_ite (fun _ => ?_) (fun _ => ?_)
      · refine readError_keeps (sub.of (by decide) hm) ?_
        exact h
      · exact h
  · refine windowWrite_keeps (sub.of (by decide) hm) ?_
    exact h
  · exact h

theorem putCells_keeps {a0 : Nat} {a1 : Nat} {a2 : List (Nat × Byte)} {s : State} (hm : sub 472085535 m) (h : Keeps m s0 s) :
    Keeps m s0 (putCells a0 a1 a2 s) := by
  unfold putCells
  refine keeps_foldl (fun x0 y1 hx0 => ?_) _ ?_
  · refine keeps_ite (fun _ => ?_) (fun _ => ?_)
    · refine windowWrite_keeps (sub.of (by decide) hm) ?_
      exact hx0
    · refine keeps_foldl (fun x2 y3 hx2 => ?_) _ ?_
      · refine putPiece_keeps (sub.of (by decide) hm) ?_
        exact hx2
      · exact hx0
  · exact h

end Sys2Proof.Machine
end

