-- ==== Sys2Proof/Laws/Frame/Lio.lean ====
section
/-!
SUPPORT. What the functions of Machine/Lio.lean touch: one lemma each, in the terms of `Keeps`.
-/
namespace Sys2Proof.Machine

variable {m : Nat} {s0 : State}

theorem lioPinFlag_keeps {a0 : Fld} {a1 : Nat} {a2 : Nat} {s : State} (hm : sub 201342977 m) (h : Keeps m s0 s) :
    Keeps m s0 (lioPinFlag a0 a1 a2 s) := by
  unfold lioPinFlag
  refine State.flag_keeps (sub.of (by decide) hm) ?_
  refine State.setFld_keeps (sub.of (by decide) hm) ?_
  exact h

theorem relevel_keeps {a0 : Nat} {s : State} (hm : sub 1073742080 m) (h : Keeps m s0 s) :
    Keeps m s0 (relevel a0 s) := by
  unfold relevel
  split
  · rename_i z0 z1 e2
    have hz1 : Keeps m s0 z1 := by
      have q : _ = z1 := congrArg Prod.snd e2
      rw [← q]
      refine keeps_ite2 (fun _ => ?_) (fun _ => ?_)
      · refine State.takeFree_keeps (sub.of (by decide) hm) ?_
        exact h
      · dsimp -zeta only
        exact h
    extract_lets +onlyGivenNames -merge -useContext x3
    try clear_value x3
    refine keeps_lio (sub.of (by decide) hm) ?_ _
    exact hz1

theorem refreshPin_keeps {a0 : Nat} {s : State} (hm : sub 1275085121 m) (h : Keeps m s0 s) :
    Keeps m s0 (refreshPin a0 s) := by
  unfold refreshPin
  extract_lets +onlyGivenNames -merge -useContext x0
  have hx0 : Keeps m s0 x0 := by
    refine relevel_keeps (sub.of (by decide) hm) ?_
    exact h
  clear_value x0
  refine sourceLevel_keeps (sub.of (by decide) hm) ?_
  exact hx0

theorem writeLioCfg_keeps {a0 : Nat} {a1 : Word} {s : State} (hm : sub 1275085121 m) (h : Keeps m s0 s) :
    Keeps m s0 (writeLioCfg a0 a1 s) := by
  unfold writeLioCfg
  extract_lets +onlyGivenNames -merge -useContext x0 x1 x2 x3 x4
  try clear_value x0
  try clear_value x1
  have hx2 : Keeps m s0 x2 := by
    refine State.plainWrite_keeps (sub.of (by decide) hm) ?_
    exact h
  clear_value x2
  try clear_value x3
  try clear_value x4
  refine keeps_ite (fun _ => ?_) (fun _ => ?_)
  · refine lioPinFlag_keeps (sub.of (by decide) hm) ?_
    exact h
  · refine refreshPin_keeps (sub.of (by decide) hm) ?_
    refine keeps_lio (sub.of (by decide) hm) ?_ _
    exact hx2

theorem queueLatch_keeps {a0 : LatchOp} {a1 : Nat} {a2 : Word} {s : State} (hm : sub 256 m) (h : Keeps m s0 s) :
    Keeps m s0 (queueLatch a0 a1 a2 s) := by
  unfold queueLatch
  extract_lets +onlyGivenNames -merge -useContext x0
  try clear_value x0
  refine keeps_lio (sub.of (by decide) hm) ?_ _
  exact h

theorem State.setUart_keeps {s : State} {a1 : Nat} {a2 : Uart} (hm : sub 256 m) (h : Keeps m s0 s) :
    Keeps m s0 (State.setUart s a1 a2) := by
  unfold State.setUart
  extract_lets +onlyGivenNames -merge -useContext x0
  try clear_value x0
  refine keeps_lio (sub.of (by decide) hm) ?_ _
  exact h

theorem uartPop_keeps {a0 : Nat} {s : State} (hm : sub 256 m) (h : Keeps m s0 s) :
    Keeps m s0 (uartPop a0 s).2 := by
  unfold uartPop
  extract_lets +onlyGivenNames -merge -useContext x0
  try clear_value x0
  split
  · dsimp -zeta only
    exact h
  · dsimp -zeta only
    refine State.setUart_keeps (sub.of (by decide) hm) ?_
    exact h

theorem State.setSpi_keeps {s : State} {a1 : Nat} {a2 : Spi} (hm : sub 256 m) (h : Keeps m s0 s) :
    Keeps m s0 (State.setSpi s a1 a2) := by
  unfold State.setSpi
  extract_lets +onlyGivenNames -merge -useContext x0
  try clear_value x0
  refine keeps_lio (sub.of (by decide) hm) ?_ _
  exact h

theorem spiPop_keeps {a0 : Nat} {s : State} (hm : sub 256 m) (h : Keeps m s0 s) :
    Keeps m s0 (spiPop a0 s).2 := by
  unfold spiPop
  extract_lets +onlyGivenNames -merge -useContext x0
  try clear_value x0
  split
  · dsimp -zeta only
    exact h
  · dsimp -zeta only
    refine State.setSpi_keeps (sub.of (by decide) hm) ?_
    exact h

theorem State.setI2c_keeps {s : State} {a1 : Nat} {a2 : I2c} (hm : sub 256 m) (h : Keeps m s0 s) :
    Keeps m s0 (State.setI2c s a1 a2) := by
  unfold State.setI2c
  extract_lets +onlyGivenNames -merge -useContext x0
  try clear_value x0
  refine keeps_lio (sub.of (by decide) hm) ?_ _
  exact h

theorem i2cPop_keeps {a0 : Nat} {s : State} (hm : sub 256 m) (h : Keeps m s0 s) :
    Keeps m s0 (i2cPop a0 s).2 := by
  unfold i2cPop
  extract_lets +onlyGivenNames -merge -useContext x0
  try clear_value x0
  split
  · dsimp -zeta only
    exact h
  · dsimp -zeta only
    refine State.setI2c_keeps (sub.of (by decide) hm) ?_
    exact h

theorem readLioIn_keeps {a0 : Nat} {s : State} (hm : sub 1073741824 m) (h : Keeps m s0 s) :
    Keeps m s0 (readLioIn a0 s).2 := by
  unfold readLioIn
  extract_lets +onlyGivenNames -merge -useContext x0 x1 x2
  try clear_value x0
  try clear_value x1
  try clear_value x2
  refine keeps_ite2 (fun _ => ?_) (fun _ => ?_)
  · dsimp -zeta only
    exact h
  · split
    · rename_i z3 z4 e5
      have hz4 : Keeps m s0 z4 := by
        have q : _ = z4 := congrArg Prod.snd e5
        rw [← q]
        refine State.takeFree_keeps (sub.of (by decide) hm) ?_
        exact h
      dsimp -zeta only
      exact hz4

theorem writeIxfer_keeps {a0 : Nat} {a1 : Word} {s : State} (hm : sub 257 m) (h : Keeps m s0 s) :
    Keeps m s0 (writeIxfer a0 a1 s) := by
  unfold writeIxfer
  extract_lets +onlyGivenNames -merge -useContext x0 x1
  try clear_value x0
  have hx1 : Keeps m s0 x1 := by
    refine State.plainWrite_keeps (sub.of (by decide) hm) ?_
    exact h
  clear_value x1
  refine keeps_ite (fun _ => ?_) (fun _ => ?_)
  · refine State.setI2c_keeps (sub.of (by decide) hm) ?_
    exact hx1
  · exact hx1

theorem unitFlag_keeps {a0 : Nat} {a1 : Fld} {a2 : Nat} {a3 : Bool} {s : State} (hm : sub 201342977 m) (h : Keeps m s0 s) :
    Keeps m s0 (unitFlag a0 a1 a2 a3 s) := by
  unfold unitFlag
  split
  · refine State.flag_keeps (sub.of (by decide) hm) ?_
    exact h
  · refine State.setBit_keeps (sub.of (by decide) hm) ?_
    exact h

theorem uartFlag_keeps {a0 : Nat} {a1 : Fld} {s : State} (hm : sub 201342977 m) (h : Keeps m s0 s) :
    Keeps m s0 (uartFlag a0 a1 s) := by
  unfold uartFlag
  refine unitFlag_keeps (sub.of (by decide) hm) ?_
  exact h

theorem uartPush_keeps {a0 : Nat} {a1 : Word} {s : State} (hm : sub 201343233 m) (h : Keeps m s0 s) :
    Keeps m s0 (uartPush a0 a1 s) := by
  unfold uartPush
  extract_lets +onlyGivenNames -merge -useContext x0
  try clear_value x0
  refine keeps_ite (fun _ => ?_) (fun _ => ?_)
  · refine uartFlag_keeps (sub.of (by decide) hm) ?_
    exact h
  · refine State.setUart_keeps (sub.of (by decide) hm) ?_
    exact h

theorem i2cPush_keeps {a0 : Nat} {a1 : Word} {s : State} (hm : sub 256 m) (h : Keeps m s0 s) :
    Keeps m s0 (i2cPush a0 a1 s) := by
  unfold i2cPush
  extract_lets +onlyGivenNames -merge -useContext x0
  try clear_value x0
  refine keeps_ite (fun _ => ?_) (fun _ => ?_)
  · exact h
  · refine State.setI2c_keeps (sub.of (by decide) hm) ?_
    exact h

theorem spiPush_keeps {a0 : Nat} {a1 : Word} {s : State} (hm : sub 256 m) (h : Keeps m s0 s) :
    Keeps m s0 (spiPush a0 a1 s) := by
  unfold spiPush
  extract_lets +onlyGivenNames -merge -useContext x0
  try clear_value x0
  refine keeps_ite (fun _ => ?_) (fun _ => ?_)
  · exact h
  · refine State.setSpi_keeps (sub.of (by decide) hm) ?_
    exact h

theorem writeLatch_keeps {a0 : LatchOp} {a1 : Nat} {a2 : Word} {s : State} (hm : sub 1275085121 m) (h : Keeps m s0 s) :
    Keeps m s0 (writeLatch a0 a1 a2 s) := by
  unfold writeLatch
  extract_lets +onlyGivenNames -merge -useContext x0 x1
  try clear_value x0
  try clear_value x1
  refine keeps_foldl (fun x2 y3 hx2 => ?_) _ ?_
  · refine keeps_ite (fun _ => ?_) (fun _ => ?_)
    · refine refreshPin_keeps (sub.of (by decide) hm) ?_
      exact hx2
    · exact hx2
  · refine State.setReg_keeps (sub.of (by decide) hm) ?_
    exact h

theorem lioCueAction_keeps {a0 : Nat} {a1 : Nat} {a2 : Option Bool} {s : State} (hm : sub 1275085121 m) (h : Keeps m s0 s) :
    Keeps m s0 (lioCueAction a0 a1 a2 s) := by
  unfold lioCueAction
  extract_lets +onlyGivenNames -merge -useContext x0 x1
  try clear_value x0
  try clear_value x1
  refine keeps_ite (fun _ => ?_) (fun _ => ?_)
  · refine writeLatch_keeps (sub.of (by decide) hm) ?_
    exact h
  · refine targetFlag_keeps (sub.of (by decide) hm) ?_
    exact h

theorem setClash_keeps {a0 : List Nat} {s : State} (hm : sub 256 m) (h : Keeps m s0 s) :
    Keeps m s0 (setClash a0 s) := by
  unfold setClash
  extract_lets +onlyGivenNames -merge -useContext x0
  try clear_value x0
  refine keeps_lio (sub.of (by decide) hm) ?_ _
  exact h

theorem serialConflict_keeps {a0 : Nat} {s : State} (hm : sub 201343233 m) (h : Keeps m s0 s) :
    Keeps m s0 (serialConflict a0 s) := by
  unfold serialConflict
  extract_lets +onlyGivenNames -merge -useContext x0 x1
  try clear_value x0
  have hx1 : Keeps m s0 x1 := by
    refine keeps_ite (fun _ => ?_) (fun _ => ?_)
    · exact h
    · refine setClash_keeps (sub.of (by decide) hm) ?_
      exact h
  clear_value x1
  refine keeps_ite (fun _ => ?_) (fun _ => ?_)
  · exact hx1
  · split
    · extract_lets +onlyGivenNames -merge -useContext x2
      try clear_value x2
      refine State.flag_keeps (sub.of (by decide) hm) ?_
      refine State.setReg_keeps (sub.of (by decide) hm) ?_
      refine setClash_keeps (sub.of (by decide) hm) ?_
      exact hx1
    · exact hx1

theorem evalOwner_keeps {a0 : Nat} {s : State} (hm : sub 1275085121 m) (h : Keeps m s0 s) :
    Keeps m s0 (evalOwner a0 s) := by
  unfold evalOwner
  extract_lets +onlyGivenNames -merge -useContext x0 x1
  try clear_value x0
  try clear_value x1
  refine keeps_ite (fun _ => ?_) (fun _ => ?_)
  · exact h
  · split
    · extract_lets +onlyGivenNames -merge -useContext x2 x3 x4 x5 x6 x7 x8
      try clear_value x2
      try clear_value x3
      have hx4 : Keeps m s0 x4 := by
        refine keeps_lio (sub.of (by decide) hm) ?_ _
        exact h
      clear_value x4
      have hx5 : Keeps m s0 x5 := by
        refine keeps_ite (fun _ => ?_) (fun _ => ?_)
        · refine lioPinFlag_keeps (sub.of (by decide) hm) ?_
          exact hx4
        · exact hx4
      clear_value x5
      have hx6 : Keeps m s0 x6 := by
        refine State.setFld_keeps (sub.of (by decide) hm) ?_
        refine State.setFld_keeps (sub.of (by decide) hm) ?_
        exact hx5
      clear_value x6
      try clear_value x7
      have hx8 : Keeps m s0 x8 := by
        refine keeps_ite (fun _ => ?_) (fun _ => ?_)
        · refine refreshPin_keeps (sub.of (by decide) hm) ?_
          refine keeps_lio (sub.of (by decide) hm) ?_ _
          exact hx6
        · exact hx5
      clear_value x8
      refine serialConflict_keeps (sub.of (by decide) hm) ?_
      exact hx8

theorem quietLevel_keeps {a0 : Nat} {s : State} (hm : sub 64 m) (h : Keeps m s0 s) :
    Keeps m s0 (quietLevel a0 s) := by
  unfold quietLevel
  refine setSrcLevel_keeps (sub.of (by decide) hm) ?_
  exact h

theorem lateCfg_keeps {a0 : Nat} {s : State} (hm : sub 1275085121 m) (h : Keeps m s0 s) :
    Keeps m s0 (lateCfg a0 s) := by
  unfold lateCfg
  extract_lets +onlyGivenNames -merge -useContext x0 x1 x2
  try clear_value x0
  try clear_value x1
  have hx2 : Keeps m s0 x2 := by
    refine relevel_keeps (sub.of (by decide) hm) ?_
    refine keeps_lio (sub.of (by decide) hm) ?_ _
    exact h
  clear_value x2
  refine keeps_ite (fun _ => ?_) (fun _ => ?_)
  · refine quietLevel_keeps (sub.of (by decide) hm) ?_
    exact hx2
  · refine sourceLevel_keeps (sub.of (by decide) hm) ?_
    exact hx2

theorem fabLio_keeps {s : State} (hm : sub 1275085121 m) (h : Keeps m s0 s) :
    Keeps m s0 (fabLio s) := by
  unfold fabLio
  extract_lets +onlyGivenNames -merge -useContext x0 x1 x2
  try clear_value x0
  try clear_value x1
  have hx2 : Keeps m s0 x2 := by
    refine keeps_lio (sub.of (by decide) hm) ?_ _
    exact h
  clear_value x2
  refine keeps_ite (fun _ => ?_) (fun _ => ?_)
  · exact h
  · refine keeps_foldl (fun x3 y4 hx3 => ?_) _ ?_
    · refine lateCfg_keeps (sub.of (by decide) hm) ?_
      exact hx3
    · refine keeps_foldl (fun x5 y6 hx5 => ?_) _ ?_
      · refine writeLatch_keeps (sub.of (by decide) hm) ?_
        exact hx5
      · exact hx2

theorem i2cFlag_keeps {a0 : Nat} {a1 : Fld} {s : State} (hm : sub 201342977 m) (h : Keeps m s0 s) :
    Keeps m s0 (i2cFlag a0 a1 s) := by
  unfold i2cFlag
  refine unitFlag_keeps (sub.of (by decide) hm) ?_
  exact h

theorem i2cEnd_keeps {a0 : Nat} {a1 : Nat} {a2 : List Byte} {s : State} (hm : sub 201343233 m) (h : Keeps m s0 s) :
    Keeps m s0 (i2cEnd a0 a1 a2 s) := by
  unfold i2cEnd
  extract_lets +onlyGivenNames -merge -useContext x0 x1
  try clear_value x0
  try clear_value x1
  refine i2cFlag_keeps (sub.of (by decide) hm) ?_
  refine State.setI2c_keeps (sub.of (by decide) hm) ?_
  exact h

theorem i2cDone_keeps {a0 : Nat} {a1 : Nat} {a2 : List Byte} {a3 : Bool} {a4 : Bool} {s : State} (hm : sub 201343233 m) (h : Keeps m s0 s) :
    Keeps m s0 (i2cDone a0 a1 a2 a3 a4 s) := by
  unfold i2cDone
  extract_lets +onlyGivenNames -merge -useContext x0 x1
  have hx0 : Keeps m s0 x0 := by
    refine keeps_ite (fun _ => ?_) (fun _ => ?_)
    · refine i2cFlag_keeps (sub.of (by decide) hm) ?_
      exact h
    · exact h
  clear_value x0
  have hx1 : Keeps m s0 x1 := by
    refine keeps_ite (fun _ => ?_) (fun _ => ?_)
    · refine i2cFlag_keeps (sub.of (by decide) hm) ?_
      exact hx0
    · exact hx0
  clear_value x1
  refine keeps_ite (fun _ => ?_) (fun _ => ?_)
  · exact h
  · refine i2cEnd_keeps (sub.of (by decide) hm) ?_
    exact hx1

theorem setPad_keeps {a0 : Nat} {a1 : Option Int} {s : State} (hm : sub 256 m) (h : Keeps m s0 s) :
    Keeps m s0 (setPad a0 a1 s) := by
  unfold setPad
  extract_lets +onlyGivenNames -merge -useContext x0
  try clear_value x0
  refine keeps_lio (sub.of (by decide) hm) ?_ _
  exact h

theorem uartSent_keeps {a0 : Nat} {s : State} (hm : sub 256 m) (h : Keeps m s0 s) :
    Keeps m s0 (uartSent a0 s) := by
  unfold uartSent
  extract_lets +onlyGivenNames -merge -useContext x0
  try clear_value x0
  refine keeps_ite (fun _ => ?_) (fun _ => ?_)
  · refine State.setUart_keeps (sub.of (by decide) hm) ?_
    exact h
  · exact h

theorem spiTransfer_keeps {a0 : Nat} {a1 : Byte} {s : State} (hm : sub 256 m) (h : Keeps m s0 s) :
    Keeps m s0 (spiTransfer a0 a1 s) := by
  unfold spiTransfer
  extract_lets +onlyGivenNames -merge -useContext x0
  try clear_value x0
  refine keeps_ite (fun _ => ?_) (fun _ => ?_)
  · refine State.setSpi_keeps (sub.of (by decide) hm) ?_
    exact h
  · exact h

theorem i2cStuck_keeps {a0 : Nat} {s : State} (hm : sub 201343233 m) (h : Keeps m s0 s) :
    Keeps m s0 (i2cStuck a0 s) := by
  unfold i2cStuck
  refine keeps_ite (fun _ => ?_) (fun _ => ?_)
  · exact h
  · refine i2cEnd_keeps (sub.of (by decide) hm) ?_
    refine i2cFlag_keeps (sub.of (by decide) hm) ?_
    exact h

theorem pinSupply_keeps {a0 : Nat} {s : State} (hm : sub 1275085121 m) (h : Keeps m s0 s) :
    Keeps m s0 (pinSupply a0 s) := by
  unfold pinSupply
  extract_lets +onlyGivenNames -merge -useContext x0
  have hx0 : Keeps m s0 x0 := by
    refine keeps_ite (fun _ => ?_) (fun _ => ?_)
    · refine lioPinFlag_keeps (sub.of (by decide) hm) ?_
      refine State.setReg_keeps (sub.of (by decide) hm) ?_
      exact h
    · exact h
  clear_value x0
  refine quietLevel_keeps (sub.of (by decide) hm) ?_
  refine relevel_keeps (sub.of (by decide) hm) ?_
  exact hx0

theorem bankSupply_keeps {a0 : Nat} {a1 : Bool} {a2 : Nat} {s : State} (hm : sub 1275085121 m) (h : Keeps m s0 s) :
    Keeps m s0 (bankSupply a0 a1 a2 s) := by
  unfold bankSupply
  extract_lets +onlyGivenNames -merge -useContext x0 x1
  have hx0 : Keeps m s0 x0 := by
    refine State.putBit_keeps (sub.of (by decide) hm) ?_
    exact h
  clear_value x0
  have hx1 : Keeps m s0 x1 := by
    refine keeps_ite (fun _ => ?_) (fun _ => ?_)
    · refine State.setFld_keeps (sub.of (by decide) hm) ?_
      exact hx0
    · exact hx0
  clear_value x1
  refine keeps_foldl (fun x2 y3 hx2 => ?_) _ ?_
  · refine pinSupply_keeps (sub.of (by decide) hm) ?_
    exact hx2
  · exact hx1

theorem uartArrive_keeps {a0 : Nat} {a1 : Byte} {a2 : Bool} {a3 : Bool} {s : State} (hm : sub 201343233 m) (h : Keeps m s0 s) :
    Keeps m s0 (uartArrive a0 a1 a2 a3 s) := by
  unfold uartArrive
  extract_lets +onlyGivenNames -merge -useContext x0 x1 x2
  have hx0 : Keeps m s0 x0 := by
    refine keeps_ite (fun _ => ?_) (fun _ => ?_)
    · refine uartFlag_keeps (sub.of (by decide) hm) ?_
      exact h
    · exact h
  clear_value x0
  have hx1 : Keeps m s0 x1 := by
    refine keeps_ite (fun _ => ?_) (fun _ => ?_)
    · refine uartFlag_keeps (sub.of (by decide) hm) ?_
      exact hx0
    · exact hx0
  clear_value x1
  try clear_value x2
  refine keeps_ite (fun _ => ?_) (fun _ => ?_)
  · exact h
  · refine keeps_ite (fun _ => ?_) (fun _ => ?_)
    · refine uartFlag_keeps (sub.of (by decide) hm) ?_
      exact hx1
    · refine State.setUart_keeps (sub.of (by decide) hm) ?_
      exact hx1

end Sys2Proof.Machine
end

