-- ==== Sys2Proof/Laws/Frame/Head.lean ====
section
/-!
SUPPORT. What the functions of Machine/Head.lean touch: one lemma each, in the terms of `Keeps`.
-/
namespace Sys2Proof.Machine

variable {m : Nat} {s0 : State}

theorem nmapSet_keeps {a0 : Nat} {a1 : Nat} {a2 : Word} {s : State} (hm : sub 469786625 m) (h : Keeps m s0 s) :
    Keeps m s0 (nmapSet a0 a1 a2 s) := by
  unfold nmapSet
  refine criticalMapCheck_keeps (sub.of (by decide) hm) ?_
  refine State.setReg_keeps (sub.of (by decide) hm) ?_
  exact h

theorem nmapForget_keeps {a0 : Nat} {a1 : Nat} {s : State} (hm : sub 469786625 m) (h : Keeps m s0 s) :
    Keeps m s0 (nmapForget a0 a1 s) := by
  unfold nmapForget
  refine nmapSet_keeps (sub.of (by decide) hm) ?_
  exact h

theorem nmapWalk_keeps {a0 : Nat} {s : State} (hm : sub 469786625 m) (h : Keeps m s0 s) :
    Keeps m s0 (nmapWalk a0 s) := by
  unfold nmapWalk
  refine keeps_foldl (fun x0 y1 hx0 => ?_) _ ?_
  · refine nmapForget_keeps (sub.of (by decide) hm) ?_
    exact hx0
  · exact h

theorem writePlanCfg_keeps {a0 : Nat} {a1 : Word} {s : State} (hm : sub 1 m) (h : Keeps m s0 s) :
    Keeps m s0 (writePlanCfg a0 a1 s) := by
  unfold writePlanCfg
  refine State.plainWrite_keeps (sub.of (by decide) hm) ?_
  exact h

theorem writeHdIdle_keeps {a0 : Nat} {a1 : Nat} {a2 : Word} {s : State} (hm : sub 1 m) (h : Keeps m s0 s) :
    Keeps m s0 (writeHdIdle a0 a1 a2 s) := by
  unfold writeHdIdle
  refine keeps_ite (fun _ => ?_) (fun _ => ?_)
  · exact h
  · refine State.plainWrite_keeps (sub.of (by decide) hm) ?_
    exact h

theorem prioPush_keeps {a0 : Nat} {a1 : Nat} {a2 : Word} {s : State} (hm : sub 201347073 m) (h : Keeps m s0 s) :
    Keeps m s0 (prioPush a0 a1 a2 s) := by
  unfold prioPush
  extract_lets +onlyGivenNames -merge -useContext x0 x1
  try clear_value x0
  try clear_value x1
  refine keeps_ite (fun _ => ?_) (fun _ => ?_)
  · refine headFlag_keeps (sub.of (by decide) hm) ?_
    exact h
  · refine State.setHead_keeps (sub.of (by decide) hm) ?_
    exact h

theorem portReport_keeps {a0 : Nat} {a1 : Nat} {a2 : Nat} {s : State} (hm : sub 469786625 m) (h : Keeps m s0 s) :
    Keeps m s0 (portReport a0 a1 a2 s) := by
  unfold portReport
  refine keeps_ite (fun _ => ?_) (fun _ => ?_)
  · refine portMark_keeps (sub.of (by decide) hm) ?_
    exact h
  · exact h

theorem setNextSeq_keeps {a0 : Nat} {a1 : Nat} {s : State} (hm : sub 1 m) (h : Keeps m s0 s) :
    Keeps m s0 (setNextSeq a0 a1 s) := by
  unfold setNextSeq
  refine State.setReg_keeps (sub.of (by decide) hm) ?_
  exact h

theorem passEntry_keeps {a0 : Nat} {s : State} (hm : sub 4097 m) (h : Keeps m s0 s) :
    Keeps m s0 (passEntry a0 s) := by
  unfold passEntry
  extract_lets +onlyGivenNames -merge -useContext x0 x1
  try clear_value x0
  try clear_value x1
  refine State.setHead_keeps (sub.of (by decide) hm) ?_
  refine setNextSeq_keeps (sub.of (by decide) hm) ?_
  exact h

theorem portOff_keeps {a0 : Nat} {s : State} (hm : sub 469790721 m) (h : Keeps m s0 s) :
    Keeps m s0 (portOff a0 s) := by
  unfold portOff
  extract_lets +onlyGivenNames -merge -useContext x0 x1 x2 x3 x4 x5 x6 x7 x8
  try clear_value x0
  try clear_value x1
  have hx2 : Keeps m s0 x2 := by
    refine keeps_ite (fun _ => ?_) (fun _ => ?_)
    · refine passEntry_keeps (sub.of (by decide) hm) ?_
      exact h
    · exact h
  clear_value x2
  try clear_value x3
  try clear_value x4
  try clear_value x5
  have hx6 : Keeps m s0 x6 := by
    refine State.setHead_keeps (sub.of (by decide) hm) ?_
    exact hx2
  clear_value x6
  have hx7 : Keeps m s0 x7 := by
    refine State.setFld_keeps (sub.of (by decide) hm) ?_
    exact hx6
  clear_value x7
  have hx8 : Keeps m s0 x8 := by
    refine keeps_foldl (fun x9 y10 hx9 => ?_) _ ?_
    · refine closeSpan_keeps (sub.of (by decide) hm) ?_
      exact hx9
    · exact hx7
  clear_value x8
  refine keeps_foldl (fun x11 y12 hx11 => ?_) _ ?_
  · refine portReport_keeps (sub.of (by decide) hm) ?_
    exact hx11
  · exact hx8

theorem portOn_keeps {a0 : Nat} {s : State} (hm : sub 469790721 m) (h : Keeps m s0 s) :
    Keeps m s0 (portOn a0 s) := by
  unfold portOn
  extract_lets +onlyGivenNames -merge -useContext x0 x1 x2
  try clear_value x0
  have hx1 : Keeps m s0 x1 := by
    refine State.setHead_keeps (sub.of (by decide) hm) ?_
    exact h
  clear_value x1
  have hx2 : Keeps m s0 x2 := by
    refine State.setFld_keeps (sub.of (by decide) hm) ?_
    refine State.setReg_keeps (sub.of (by decide) hm) ?_
    exact hx1
  clear_value x2
  refine keeps_foldl (fun x3 y4 hx3 => ?_) _ ?_
  · refine openSpan_keeps (sub.of (by decide) hm) ?_
    exact hx3
  · exact hx2

theorem auditRestart_keeps {a0 : Nat} {s : State} (hm : sub 4097 m) (h : Keeps m s0 s) :
    Keeps m s0 (auditRestart a0 s) := by
  unfold auditRestart
  extract_lets +onlyGivenNames -merge -useContext x0 x1
  try clear_value x0
  have hx1 : Keeps m s0 x1 := by
    refine State.setHead_keeps (sub.of (by decide) hm) ?_
    exact h
  clear_value x1
  refine keeps_foldl (fun x2 y3 hx2 => ?_) _ ?_
  · refine State.setFld_keeps (sub.of (by decide) hm) ?_
    exact hx2
  · exact hx1

theorem auxEval_keeps {a0 : Nat} {s : State} (hm : sub 469790721 m) (h : Keeps m s0 s) :
    Keeps m s0 (auxEval a0 s) := by
  unfold auxEval
  extract_lets +onlyGivenNames -merge -useContext x0 x1 x2 x3 x4 x5
  try clear_value x0
  try clear_value x1
  try clear_value x2
  try clear_value x3
  try clear_value x4
  have hx5 : Keeps m s0 x5 := by
    refine State.setHead_keeps (sub.of (by decide) hm) ?_
    exact h
  clear_value x5
  refine keeps_ite (fun _ => ?_) (fun _ => ?_)
  · refine openSpan_keeps (sub.of (by decide) hm) ?_
    exact hx5
  · refine keeps_ite (fun _ => ?_) (fun _ => ?_)
    · refine closeSpan_keeps (sub.of (by decide) hm) ?_
      exact hx5
    · exact hx5

theorem writeHdCtl_keeps {a0 : Nat} {a1 : Word} {s : State} (hm : sub 469790721 m) (h : Keeps m s0 s) :
    Keeps m s0 (writeHdCtl a0 a1 s) := by
  unfold writeHdCtl
  extract_lets +onlyGivenNames -merge -useContext x0 x1 x2 x3 x4
  try clear_value x0
  try clear_value x1
  have hx2 : Keeps m s0 x2 := by
    refine keeps_ite (fun _ => ?_) (fun _ => ?_)
    · refine portOff_keeps (sub.of (by decide) hm) ?_
      exact h
    · exact h
  clear_value x2
  have hx3 : Keeps m s0 x3 := by
    refine State.plainWrite_keeps (sub.of (by decide) hm) ?_
    exact hx2
  clear_value x3
  have hx4 : Keeps m s0 x4 := by
    refine keeps_ite (fun _ => ?_) (fun _ => ?_)
    · refine portOn_keeps (sub.of (by decide) hm) ?_
      exact hx3
    · exact hx3
  clear_value x4
  refine auxEval_keeps (sub.of (by decide) hm) ?_
  refine keeps_ite (fun _ => ?_) (fun _ => ?_)
  · refine auditRestart_keeps (sub.of (by decide) hm) ?_
    exact hx4
  · exact hx4

theorem writeNmapCmd_keeps {a0 : Nat} {a1 : Word} {s : State} (hm : sub 469786625 m) (h : Keeps m s0 s) :
    Keeps m s0 (writeNmapCmd a0 a1 s) := by
  unfold writeNmapCmd
  extract_lets +onlyGivenNames -merge -useContext x0
  try clear_value x0
  refine keeps_ite (fun _ => ?_) (fun _ => ?_)
  · refine nmapForget_keeps (sub.of (by decide) hm) ?_
    exact h
  · exact h

theorem writeNmap_keeps {a0 : Nat} {a1 : Nat} {a2 : Word} {s : State} (hm : sub 469786625 m) (h : Keeps m s0 s) :
    Keeps m s0 (writeNmap a0 a1 a2 s) := by
  unfold writeNmap
  extract_lets +onlyGivenNames -merge -useContext x0
  try clear_value x0
  refine keeps_ite (fun _ => ?_) (fun _ => ?_)
  · exact h
  · refine keeps_ite (fun _ => ?_) (fun _ => ?_)
    · refine headFlag_keeps (sub.of (by decide) hm) ?_
      exact h
    · refine keeps_ite (fun _ => ?_) (fun _ => ?_)
      · refine nmapSet_keeps (sub.of (by decide) hm) ?_
        exact h
      · refine keeps_ite (fun _ => ?_) (fun _ => ?_)
        · refine headFlag_keeps (sub.of (by decide) hm) ?_
          exact h
        · refine keeps_ite (fun _ => ?_) (fun _ => ?_)
          · refine nmapSet_keeps (sub.of (by decide) hm) ?_
            exact h
          · refine headFlag_keeps (sub.of (by decide) hm) ?_
            exact h

theorem writeProfile_keeps {a0 : Nat} {a1 : Nat} {a2 : Word} {s : State} (hm : sub 201342977 m) (h : Keeps m s0 s) :
    Keeps m s0 (writeProfile a0 a1 a2 s) := by
  unfold writeProfile
  extract_lets +onlyGivenNames -merge -useContext x0 x1 x2
  try clear_value x0
  try clear_value x1
  have hx2 : Keeps m s0 x2 := by
    refine State.plainWrite_keeps (sub.of (by decide) hm) ?_
    exact h
  clear_value x2
  refine keeps_ite (fun _ => ?_) (fun _ => ?_)
  · refine headFlag_keeps (sub.of (by decide) hm) ?_
    exact h
  · exact hx2

theorem writePlanRd_keeps {a0 : Nat} {a1 : Word} {s : State} (hm : sub 1 m) (h : Keeps m s0 s) :
    Keeps m s0 (writePlanRd a0 a1 s) := by
  unfold writePlanRd
  refine keeps_ite (fun _ => ?_) (fun _ => ?_)
  · refine State.setReg_keeps (sub.of (by decide) hm) ?_
    exact h
  · exact h

theorem writeSense_keeps {a0 : Nat} {a1 : Nat} {a2 : Word} {s : State} (hm : sub 469786625 m) (h : Keeps m s0 s) :
    Keeps m s0 (writeSense a0 a1 a2 s) := by
  unfold writeSense
  extract_lets +onlyGivenNames -merge -useContext x0
  have hx0 : Keeps m s0 x0 := by
    refine State.plainWrite_keeps (sub.of (by decide) hm) ?_
    exact h
  clear_value x0
  refine keeps_ite (fun _ => ?_) (fun _ => ?_)
  · refine keeps_foldl (fun x1 y2 hx1 => ?_) _ ?_
    · refine keeps_ite (fun _ => ?_) (fun _ => ?_)
      · exact hx1
      · refine nmapForget_keeps (sub.of (by decide) hm) ?_
        exact hx1
    · exact hx0
  · exact hx0

theorem writeBandCfg_keeps {a0 : Nat} {a1 : Word} {s : State} (hm : sub 1 m) (h : Keeps m s0 s) :
    Keeps m s0 (writeBandCfg a0 a1 s) := by
  unfold writeBandCfg
  refine State.plainWrite_keeps (sub.of (by decide) hm) ?_
  exact h

theorem portNotes_keeps {a0 : Nat} {a1 : Nat} {s : State} (hm : sub 469987345 m) (h : Keeps m s0 s) :
    Keeps m s0 (portNotes a0 a1 s) := by
  unfold portNotes
  refine touchRow_keeps (sub.of (by decide) hm) ?_
  refine noteUes_keeps (sub.of (by decide) hm) ?_
  refine noteAsleep_keeps (sub.of (by decide) hm) ?_
  refine noteFence_keeps (sub.of (by decide) hm) ?_
  exact h

theorem blockFetch_keeps {a0 : Nat} {s : State} (hm : sub 469987345 m) (h : Keeps m s0 s) :
    Keeps m s0 (blockFetch a0 s) := by
  unfold blockFetch
  extract_lets +onlyGivenNames -merge -useContext x0 x1
  try clear_value x0
  try clear_value x1
  refine keeps_ite (fun _ => ?_) (fun _ => ?_)
  · split
    · extract_lets +onlyGivenNames -merge -useContext x2 x3
      try clear_value x2
      try clear_value x3
      refine keeps_ite (fun _ => ?_) (fun _ => ?_)
      · exact h
      · refine portNotes_keeps (sub.of (by decide) hm) ?_
        refine State.setHead_keeps (sub.of (by decide) hm) ?_
        exact h
    · exact h
  · exact h

theorem bandOver_keeps {a0 : Nat} {s : State} (hm : sub 4097 m) (h : Keeps m s0 s) :
    Keeps m s0 (bandOver a0 s) := by
  unfold bandOver
  extract_lets +onlyGivenNames -merge -useContext x0 x1
  have hx0 : Keeps m s0 x0 := by
    refine passEntry_keeps (sub.of (by decide) hm) ?_
    exact h
  clear_value x0
  try clear_value x1
  split
  · refine keeps_ite (fun _ => ?_) (fun _ => ?_)
    · refine State.setHead_keeps (sub.of (by decide) hm) ?_
      exact hx0
    · exact h
  · exact h

theorem shiftEnd_keeps {a0 : Nat} {s : State} (hm : sub 4097 m) (h : Keeps m s0 s) :
    Keeps m s0 (shiftEnd a0 s) := by
  unfold shiftEnd
  extract_lets +onlyGivenNames -merge -useContext x0
  try clear_value x0
  split
  · refine keeps_ite (fun _ => ?_) (fun _ => ?_)
    · refine bandOver_keeps (sub.of (by decide) hm) ?_
      refine State.setHead_keeps (sub.of (by decide) hm) ?_
      exact h
    · exact h
  · exact h

theorem skipEntry_keeps {a0 : Nat} {a1 : Option Nat} {s : State} (hm : sub 469987345 m) (h : Keeps m s0 s) :
    Keeps m s0 (skipEntry a0 a1 s) := by
  unfold skipEntry
  extract_lets +onlyGivenNames -merge -useContext x0 x1
  have hx0 : Keeps m s0 x0 := by
    refine portNotes_keeps (sub.of (by decide) hm) ?_
    exact h
  clear_value x0
  have hx1 : Keeps m s0 x1 := by
    refine headFlag_keeps (sub.of (by decide) hm) ?_
    refine passEntry_keeps (sub.of (by decide) hm) ?_
    exact hx0
  clear_value x1
  split
  · refine portReport_keeps (sub.of (by decide) hm) ?_
    exact hx1
  · exact hx1

theorem skipCurrent_keeps {a0 : Nat} {s : State} (hm : sub 469987345 m) (h : Keeps m s0 s) :
    Keeps m s0 (skipCurrent a0 s) := by
  unfold skipCurrent
  split
  · extract_lets +onlyGivenNames -merge -useContext x0 x1
    have hx0 : Keeps m s0 x0 := by
      refine skipEntry_keeps (sub.of (by decide) hm) ?_
      exact h
    clear_value x0
    try clear_value x1
    refine keeps_ite (fun _ => ?_) (fun _ => ?_)
    · refine State.setHead_keeps (sub.of (by decide) hm) ?_
      exact hx0
    · exact h
  · exact h

theorem readyPoll_keeps {a0 : Nat} {s : State} (hm : sub 469987345 m) (h : Keeps m s0 s) :
    Keeps m s0 (readyPoll a0 s) := by
  unfold readyPoll
  extract_lets +onlyGivenNames -merge -useContext x0 x1 x2 x3 x4
  try clear_value x0
  try clear_value x1
  have hx2 : Keeps m s0 x2 := by
    refine keeps_foldl (fun x5 y6 hx5 => ?_) _ ?_
    · refine portNotes_keeps (sub.of (by decide) hm) ?_
      exact hx5
    · exact h
  clear_value x2
  try clear_value x3
  have hx4 : Keeps m s0 x4 := by
    refine State.setHead_keeps (sub.of (by decide) hm) ?_
    exact hx2
  clear_value x4
  refine keeps_ite (fun _ => ?_) (fun _ => ?_)
  · refine keeps_ite (fun _ => ?_) (fun _ => ?_)
    · refine skipCurrent_keeps (sub.of (by decide) hm) ?_
      exact hx4
    · exact hx4
  · exact h

theorem firstReads_keeps {a0 : Nat} {s : State} (hm : sub 469987345 m) (h : Keeps m s0 s) :
    Keeps m s0 (firstReads a0 s) := by
  unfold firstReads
  extract_lets +onlyGivenNames -merge -useContext x0
  try clear_value x0
  split
  · refine keeps_ite (fun _ => ?_) (fun _ => ?_)
    · exact h
    · refine blockFetch_keeps (sub.of (by decide) hm) ?_
      refine readyPoll_keeps (sub.of (by decide) hm) ?_
      refine State.setHead_keeps (sub.of (by decide) hm) ?_
      exact h
  · exact h

theorem auditSelect_keeps {a0 : Nat} {a1 : Nat} {s : State} (hm : sub 4097 m) (h : Keeps m s0 s) :
    Keeps m s0 (auditSelect a0 a1 s).2 := by
  unfold auditSelect
  extract_lets +onlyGivenNames -merge -useContext x0 x1
  try clear_value x0
  try clear_value x1
  split
  · refine keeps_ite2 (fun _ => ?_) (fun _ => ?_)
    · dsimp -zeta only
      exact h
    · split
      · extract_lets +onlyGivenNames -merge -useContext x2 x3 x4 x5
        try clear_value x2
        try clear_value x3
        try clear_value x4
        have hx5 : Keeps m s0 x5 := by
          refine State.setFld_keeps (sub.of (by decide) hm) ?_
          exact h
        clear_value x5
        refine keeps_ite2 (fun _ => ?_) (fun _ => ?_)
        · dsimp -zeta only
          refine State.setFld_keeps (sub.of (by decide) hm) ?_
          refine State.setHead_keeps (sub.of (by decide) hm) ?_
          exact hx5
        · dsimp -zeta only
          refine State.setHead_keeps (sub.of (by decide) hm) ?_
          exact hx5

theorem auditFill_keeps {a0 : Nat} {a1 : Nat} {a2 : Nat} {a3 : Option (List Byte)} {s : State} (hm : sub 1073741824 m) (h : Keeps m s0 s) :
    Keeps m s0 (auditFill a0 a1 a2 a3 s).2 := by
  unfold auditFill
  extract_lets +onlyGivenNames -merge -useContext x0 x1
  try clear_value x0
  try clear_value x1
  split
  · extract_lets +onlyGivenNames -merge -useContext x2
    try clear_value x2
    refine keeps_ite2 (fun _ => ?_) (fun _ => ?_)
    · dsimp -zeta only
      exact h
    · dsimp -zeta only
      exact h
  · split
    · rename_i z3 z4 e5
      have hz4 : Keeps m s0 z4 := by
        have q : _ = z4 := congrArg Prod.snd e5
        rw [← q]
        refine State.takeFree_keeps (sub.of (by decide) hm) ?_
        exact h
      dsimp -zeta only
      exact hz4

theorem auditCycle_keeps {a0 : Nat} {a1 : Option (List Byte)} {s : State} (hm : sub 1073745921 m) (h : Keeps m s0 s) :
    Keeps m s0 (auditCycle a0 a1 s).2 := by
  unfold auditCycle
  refine keeps_foldl2 (fun x0 y1 hx0 => ?_) _ ?_
  · split
    · rename_i z2 z3 e4
      have hz3 : Keeps m s0 z3 := by
        have q : _ = z3 := congrArg Prod.snd e4
        rw [← q]
        refine auditSelect_keeps (sub.of (by decide) hm) ?_
        exact hx0
      split
      · rename_i z5 z6 e7
        have hz6 : Keeps m s0 z6 := by
          have q : _ = z6 := congrArg Prod.snd e7
          rw [← q]
          refine auditFill_keeps (sub.of (by decide) hm) ?_
          exact hz3
        dsimp -zeta only
        exact hz6
    · rename_i z8 e9
      have hz8 : Keeps m s0 z8 := by
        have q : _ = z8 := congrArg Prod.snd e9
        rw [← q]
        refine auditSelect_keeps (sub.of (by decide) hm) ?_
        exact hx0
      dsimp -zeta only
      exact hz8
  · dsimp -zeta only
    exact h

theorem sleeveReady_keeps {a0 : Nat} {s : State} (hm : sub 1073741824 m) (h : Keeps m s0 s) :
    Keeps m s0 (sleeveReady a0 s).2 := by
  unfold sleeveReady
  split
  · rename_i z0 z1 e2
    have hz1 : Keeps m s0 z1 := by
      have q : _ = z1 := congrArg Prod.snd e2
      rw [← q]
      refine State.takeFree_keeps (sub.of (by decide) hm) ?_
      exact h
    refine keeps_ite2 (fun _ => ?_) (fun _ => ?_)
    · dsimp -zeta only
      exact hz1
    · dsimp -zeta only
      exact h

theorem criticalCycle_keeps {a0 : Nat} {a1 : Nat} {a2 : List Byte} {s : State} (hm : sub 469790721 m) (h : Keeps m s0 s) :
    Keeps m s0 (criticalCycle a0 a1 a2 s) := by
  unfold criticalCycle
  extract_lets +onlyGivenNames -merge -useContext x0 x1 x2 x3 x4 x5 x6 x7
  try clear_value x0
  try clear_value x1
  try clear_value x2
  try clear_value x3
  try clear_value x4
  try clear_value x5
  have hx6 : Keeps m s0 x6 := by
    refine State.setHead_keeps (sub.of (by decide) hm) ?_
    exact h
  clear_value x6
  have hx7 : Keeps m s0 x7 := by
    refine keeps_ite (fun _ => ?_) (fun _ => ?_)
    · refine portMark_keeps (sub.of (by decide) hm) ?_
      exact hx6
    · exact hx6
  clear_value x7
  refine keeps_ite (fun _ => ?_) (fun _ => ?_)
  · refine headFlag_keeps (sub.of (by decide) hm) ?_
    refine portMark_keeps (sub.of (by decide) hm) ?_
    exact h
  · refine keeps_ite (fun _ => ?_) (fun _ => ?_)
    · refine portMark_keeps (sub.of (by decide) hm) ?_
      exact hx7
    · exact hx7

theorem underrunOf_keeps {a0 : Nat} {a1 : Nat} {a2 : Bool} {s : State} (hm : sub 469786625 m) (h : Keeps m s0 s) :
    Keeps m s0 (underrunOf a0 a1 a2 s) := by
  unfold underrunOf
  extract_lets +onlyGivenNames -merge -useContext x0
  have hx0 : Keeps m s0 x0 := by
    refine headFlag_keeps (sub.of (by decide) hm) ?_
    exact h
  clear_value x0
  refine keeps_ite (fun _ => ?_) (fun _ => ?_)
  · exact hx0
  · refine portReport_keeps (sub.of (by decide) hm) ?_
    exact hx0

theorem bandCycle_keeps {a0 : Nat} {a1 : HBand} {s : State} (hm : sub 1543532545 m) (h : Keeps m s0 s) :
    Keeps m s0 (bandCycle a0 a1 s).2 := by
  unfold bandCycle
  extract_lets +onlyGivenNames -merge -useContext x0 x1 x2 x3 x4 x5 x6 x7 x8 x9
  try clear_value x0
  have hx1 : Keeps m s0 x1 := by
    refine State.setFld_keeps (sub.of (by decide) hm) ?_
    exact h
  clear_value x1
  have hx2 : Keeps m s0 x2 := by
    refine keeps_ite (fun _ => ?_) (fun _ => ?_)
    · exact hx1
    · refine updRec_keeps (sub.of (by decide) hm) ?_
      exact hx1
  clear_value x2
  try clear_value x3
  try clear_value x4
  have hx5 : Keeps m s0 x5 := by
    refine State.setHead_keeps (sub.of (by decide) hm) ?_
    exact hx2
  clear_value x5
  try clear_value x6
  try clear_value x7
  try clear_value x8
  have hx9 : Keeps m s0 x9 := by
    refine keeps_ite (fun _ => ?_) (fun _ => ?_)
    · refine criticalCycle_keeps (sub.of (by decide) hm) ?_
      exact hx5
    · exact hx5
  clear_value x9
  refine keeps_ite2 (fun _ => ?_) (fun _ => ?_)
  · split
    · rename_i z10 z11 e12
      have hz11 : Keeps m s0 z11 := by
        have q : _ = z11 := congrArg Prod.snd e12
        rw [← q]
        refine sleeveReady_keeps (sub.of (by decide) hm) ?_
        exact hx5
      extract_lets +onlyGivenNames -merge -useContext x13
      have hx13 : Keeps m s0 x13 := by
        refine keeps_ite (fun _ => ?_) (fun _ => ?_)
        · refine portMark_keeps (sub.of (by decide) hm) ?_
          exact hz11
        · exact hz11
      clear_value x13
      refine keeps_ite2 (fun _ => ?_) (fun _ => ?_)
      · split
        · rename_i z14 z15 e16
          have hz15 : Keeps m s0 z15 := by
            have q : _ = z15 := congrArg Prod.snd e16
            rw [← q]
            refine auditCycle_keeps (sub.of (by decide) hm) ?_
            exact hx13
          dsimp -zeta only
          exact hz15
      · dsimp -zeta only
        refine underrunOf_keeps (sub.of (by decide) hm) ?_
        exact hx13
  · split
    · refine keeps_ite2 (fun _ => ?_) (fun _ => ?_)
      · split
        · rename_i z17 z18 e19
          have hz18 : Keeps m s0 z18 := by
            have q : _ = z18 := congrArg Prod.snd e19
            rw [← q]
            refine auditCycle_keeps (sub.of (by decide) hm) ?_
            exact hx5
          extract_lets +onlyGivenNames -merge -useContext x20
          have hx20 : Keeps m s0 x20 := by
            refine keeps_ite (fun _ => ?_) (fun _ => ?_)
            · refine criticalCycle_keeps (sub.of (by decide) hm) ?_
              exact hz18
            · exact hz18
          clear_value x20
          dsimp -zeta only
          exact hx20
      · dsimp -zeta only
        refine underrunOf_keeps (sub.of (by decide) hm) ?_
        exact hx9
    · dsimp -zeta only
      refine underrunOf_keeps (sub.of (by decide) hm) ?_
      exact hx9

theorem becomeCurrent_keeps {a0 : Nat} {a1 : HBand} {s : State} (hm : sub 469782529 m) (h : Keeps m s0 s) :
    Keeps m s0 (becomeCurrent a0 a1 s) := by
  unfold becomeCurrent
  extract_lets +onlyGivenNames -merge -useContext x0 x1
  try clear_value x0
  have hx1 : Keeps m s0 x1 := by
    refine State.setFld_keeps (sub.of (by decide) hm) ?_
    refine State.setHead_keeps (sub.of (by decide) hm) ?_
    exact h
  clear_value x1
  refine keeps_ite (fun _ => ?_) (fun _ => ?_)
  · exact hx1
  · refine headFlag_keeps (sub.of (by decide) hm) ?_
    refine State.logPoint_keeps (sub.of (by decide) hm) ?_
    exact hx1

theorem missTag_keeps {a0 : Nat} {a1 : Nat} {s : State} (hm : sub 4096 m) (h : Keeps m s0 s) :
    Keeps m s0 (missTag a0 a1 s) := by
  unfold missTag
  extract_lets +onlyGivenNames -merge -useContext x0
  try clear_value x0
  refine State.setHead_keeps (sub.of (by decide) hm) ?_
  exact h

theorem findBand_keeps {k p : Nat} {s : State} (hm : sub 469987345 m) (h : Keeps m s0 s) :
    Keeps m s0 (findBand k p s) := by
  induction k generalizing s with
  | zero => exact headFlag_keeps (sub.of (by decide) hm) h
  | succ k ih =>
    unfold findBand
    split
    · exact headFlag_keeps (sub.of (by decide) hm) (noteAsleep_keeps (sub.of (by decide) hm)
        (noteFence_keeps (sub.of (by decide) hm) h))
    · exact ih (skipEntry_keeps (sub.of (by decide) hm) h)
    · refine keeps_ite (fun _ => ih (passEntry_keeps (sub.of (by decide) hm) h)) (fun _ => ?_)
      refine keeps_ite (fun _ => becomeCurrent_keeps (sub.of (by decide) hm) h) (fun _ => ?_)
      refine keeps_ite (fun _ => h) (fun _ => ?_)
      refine keeps_ite (fun _ => becomeCurrent_keeps (sub.of (by decide) hm) h) (fun _ => ?_)
      refine ih (portReport_keeps (sub.of (by decide) hm) (headFlag_keeps (sub.of (by decide) hm) ?_))
      exact missTag_keeps (sub.of (by decide) hm) (passEntry_keeps (sub.of (by decide) hm) h)

theorem shiftStart_keeps {a0 : Nat} {s : State} (hm : sub 1543729169 m) (h : Keeps m s0 s) :
    Keeps m s0 (shiftStart a0 s) := by
  unfold shiftStart
  extract_lets +onlyGivenNames -merge -useContext x0
  have hx0 : Keeps m s0 x0 := by
    refine keeps_ite (fun _ => ?_) (fun _ => ?_)
    · refine firstReads_keeps (sub.of (by decide) hm) ?_
      refine findBand_keeps (sub.of (by decide) hm) ?_
      exact h
    · exact h
  clear_value x0
  refine keeps_ite (fun _ => ?_) (fun _ => ?_)
  · split
    · rename_i z1 z2 e3
      have hz2 : Keeps m s0 z2 := by
        have q : _ = z2 := congrArg Prod.snd e3
        rw [← q]
        split
        · refine bandCycle_keeps (sub.of (by decide) hm) ?_
          exact hx0
        · dsimp -zeta only
          exact hx0
      extract_lets +onlyGivenNames -merge -useContext x4
      try clear_value x4
      refine State.setHead_keeps (sub.of (by decide) hm) ?_
      exact hz2
  · exact h

theorem cutShift_keeps {a0 : Nat} {s : State} (hm : sub 469790721 m) (h : Keeps m s0 s) :
    Keeps m s0 (cutShift a0 s) := by
  unfold cutShift
  extract_lets +onlyGivenNames -merge -useContext x0
  have hx0 : Keeps m s0 x0 := by
    refine headFlag_keeps (sub.of (by decide) hm) ?_
    exact h
  clear_value x0
  split
  · extract_lets +onlyGivenNames -merge -useContext x1 x2
    have hx1 : Keeps m s0 x1 := by
      refine keeps_ite (fun _ => ?_) (fun _ => ?_)
      · exact hx0
      · refine underrunOf_keeps (sub.of (by decide) hm) ?_
        exact hx0
    clear_value x1
    try clear_value x2
    refine keeps_ite (fun _ => ?_) (fun _ => ?_)
    · refine bandOver_keeps (sub.of (by decide) hm) ?_
      refine State.setHead_keeps (sub.of (by decide) hm) ?_
      exact hx1
    · refine shiftEnd_keeps (sub.of (by decide) hm) ?_
      exact h
  · exact h

theorem planRecord_keeps {a0 : Nat} {a1 : HCycle} {a2 : HAudit} {s : State} (hm : sub 201408537 m) (h : Keeps m s0 s) :
    Keeps m s0 (planRecord a0 a1 a2 s) := by
  unfold planRecord
  extract_lets +onlyGivenNames -merge -useContext x0 x1 x2 x3
  try clear_value x0
  try clear_value x1
  try clear_value x2
  try clear_value x3
  refine keeps_ite (fun _ => ?_) (fun _ => ?_)
  · refine headFlag_keeps (sub.of (by decide) hm) ?_
    exact h
  · refine keeps_ite (fun _ => ?_) (fun _ => ?_)
    · refine State.setReg_keeps (sub.of (by decide) hm) ?_
      refine State.hwPut_keeps (sub.of (by decide) hm) ?_
      exact h
    · exact h

theorem tagEdge_keeps {a0 : Nat} {a1 : Option HCycle} {s : State} (hm : sub 469790721 m) (h : Keeps m s0 s) :
    Keeps m s0 (tagEdge a0 a1 s) := by
  unfold tagEdge
  extract_lets +onlyGivenNames -merge -useContext x0 x1 x2 x3 x4 x5 x6 x7
  try clear_value x0
  try clear_value x1
  try clear_value x2
  try clear_value x3
  try clear_value x4
  try clear_value x5
  try clear_value x6
  have hx7 : Keeps m s0 x7 := by
    refine State.setHead_keeps (sub.of (by decide) hm) ?_
    exact h
  clear_value x7
  split
  · exact hx7
  · extract_lets +onlyGivenNames -merge -useContext x8 x9
    have hx8 : Keeps m s0 x8 := by
      refine fireTag_keeps (sub.of (by decide) hm) ?_
      exact hx7
    clear_value x8
    try clear_value x9
    refine keeps_ite (fun _ => ?_) (fun _ => ?_)
    · refine State.setHead_keeps (sub.of (by decide) hm) ?_
      exact hx8
    · exact hx8

theorem latchEdge_keeps {a0 : Nat} {s : State} (hm : sub 469856281 m) (h : Keeps m s0 s) :
    Keeps m s0 (latchEdge a0 s) := by
  unfold latchEdge
  extract_lets +onlyGivenNames -merge -useContext x0 x1 x2 x3 x4 x5 x6
  have hx0 : Keeps m s0 x0 := by
    refine State.setReg_keeps (sub.of (by decide) hm) ?_
    exact h
  clear_value x0
  have hx1 : Keeps m s0 x1 := by
    refine keeps_ite (fun _ => ?_) (fun _ => ?_)
    · refine headFlag_keeps (sub.of (by decide) hm) ?_
      exact hx0
    · exact hx0
  clear_value x1
  have hx2 : Keeps m s0 x2 := by
    refine cutShift_keeps (sub.of (by decide) hm) ?_
    exact hx1
  clear_value x2
  try clear_value x3
  try clear_value x4
  have hx5 : Keeps m s0 x5 := by
    refine State.setHead_keeps (sub.of (by decide) hm) ?_
    exact hx2
  clear_value x5
  have hx6 : Keeps m s0 x6 := by
    unfold x6
    split
    · refine keeps_foldl (fun x7 y8 hx7 => ?_) _ ?_
      · refine planRecord_keeps (sub.of (by decide) hm) ?_
        exact hx7
      · exact hx5
    · exact hx5
  clear_value x6
  refine keeps_ite (fun _ => ?_) (fun _ => ?_)
  · refine tagEdge_keeps (sub.of (by decide) hm) ?_
    exact hx6
  · exact h

theorem readyBad_keeps {a0 : Nat} {a1 : Bool} {s : State} (hm : sub 16 m) (h : Keeps m s0 s) :
    Keeps m s0 (readyBad a0 a1 s) := by
  unfold readyBad
  split
  · refine keeps_ite (fun _ => ?_) (fun _ => ?_)
    · refine foundBad_keeps (sub.of (by decide) hm) ?_
      exact h
    · exact h
  · exact h

theorem blockBad_keeps {a0 : Nat} {a1 : Bool} {s : State} (hm : sub 16 m) (h : Keeps m s0 s) :
    Keeps m s0 (blockBad a0 a1 s) := by
  unfold blockBad
  split
  · refine keeps_ite (fun _ => ?_) (fun _ => ?_)
    · refine foundBad_keeps (sub.of (by decide) hm) ?_
      exact h
    · exact h
  · exact h

theorem entryBad_keeps {a0 : Nat} {a1 : Bool} {s : State} (hm : sub 16 m) (h : Keeps m s0 s) :
    Keeps m s0 (entryBad a0 a1 s) := by
  unfold entryBad
  refine keeps_ite (fun _ => ?_) (fun _ => ?_)
  · refine foundBad_keeps (sub.of (by decide) hm) ?_
    exact h
  · exact h

end Sys2Proof.Machine
end

