-- ==== Sys2Proof/Laws/Frame/Journal.lean ====
section
/-!
SUPPORT. What the functions of Machine/Journal.lean touch: one lemma each, in the terms of `Keeps`.
-/
namespace Sys2Proof.Machine

variable {m : Nat} {s0 : State}

theorem jrnPut_keeps {a0 : Nat} {a1 : List Word} {s : State} (hm : sub 65560 m) (h : Keeps m s0 s) :
    Keeps m s0 (jrnPut a0 a1 s) := by
  unfold jrnPut
  refine State.putWords_keeps (sub.of (by decide) hm) ?_
  exact h

theorem setMntWord_keeps {a0 : Nat} {a1 : Word} {s : State} (hm : sub 65560 m) (h : Keeps m s0 s) :
    Keeps m s0 (setMntWord a0 a1 s) := by
  unfold setMntWord
  refine jrnPut_keeps (sub.of (by decide) hm) ?_
  exact h

theorem jrnFlag_keeps {a0 : Fld} {s : State} (hm : sub 201342977 m) (h : Keeps m s0 s) :
    Keeps m s0 (jrnFlag a0 s) := by
  unfold jrnFlag
  extract_lets +onlyGivenNames -merge -useContext x0 x1
  try clear_value x0
  try clear_value x1
  refine State.flag_keeps (sub.of (by decide) hm) ?_
  exact h

theorem writeLog_keeps {a0 : Bool} {s : State} (hm : sub 469843993 m) (h : Keeps m s0 s) :
    Keeps m s0 (writeLog a0 s) := by
  unfold writeLog
  split
  · exact h
  · extract_lets +onlyGivenNames -merge -useContext x0 x1 x2 x3 x4
    have hx0 : Keeps m s0 x0 := by
      refine keeps_logQ (sub.of (by decide) hm) ?_ _
      exact h
    clear_value x0
    try clear_value x1
    have hx2 : Keeps m s0 x2 := by
      refine jrnPut_keeps (sub.of (by decide) hm) ?_
      exact hx0
    clear_value x2
    have hx3 : Keeps m s0 x3 := by
      refine State.setReg_keeps (sub.of (by decide) hm) ?_
      exact hx2
    clear_value x3
    have hx4 : Keeps m s0 x4 := by
      refine keeps_ite (fun _ => ?_) (fun _ => ?_)
      · refine jrnFlag_keeps (sub.of (by decide) hm) ?_
        exact hx3
      · exact hx3
    clear_value x4
    refine keeps_ite (fun _ => ?_) (fun _ => ?_)
    · refine jrnFlag_keeps (sub.of (by decide) hm) ?_
      exact hx0
    · refine jrnFlag_keeps (sub.of (by decide) hm) ?_
      exact hx4

theorem setStepByte_keeps {a0 : Nat} {a1 : Nat} {s : State} (hm : sub 65560 m) (h : Keeps m s0 s) :
    Keeps m s0 (setStepByte a0 a1 s) := by
  unfold setStepByte
  extract_lets +onlyGivenNames -merge -useContext x0 x1 x2 x3
  try clear_value x0
  try clear_value x1
  try clear_value x2
  try clear_value x3
  refine jrnPut_keeps (sub.of (by decide) hm) ?_
  exact h

theorem revertStep_keeps {a0 : Nat} {a1 : Word} {s : State} (hm : sub 65560 m) (h : Keeps m s0 s) :
    Keeps m s0 (revertStep a0 a1 s) := by
  unfold revertStep
  refine keeps_ite (fun _ => ?_) (fun _ => ?_)
  · refine setStepByte_keeps (sub.of (by decide) hm) ?_
    exact h
  · exact h

theorem writeHdr_keeps {a0 : Word} {s : State} (hm : sub 65560 m) (h : Keeps m s0 s) :
    Keeps m s0 (writeHdr a0 s) := by
  unfold writeHdr
  extract_lets +onlyGivenNames -merge -useContext x0 x1
  try clear_value x0
  try clear_value x1
  refine jrnPut_keeps (sub.of (by decide) hm) ?_
  exact h

end Sys2Proof.Machine
end

