-- ==== Sys2Proof/Laws/Frame/Events.lean ====
section
/-!
SUPPORT. What the functions of Machine/Events.lean touch: one lemma each, in the terms of `Keeps`.
-/
namespace Sys2Proof.Machine

variable {m : Nat} {s0 : State}

theorem writeEvtRoute_keeps {a0 : Nat} {a1 : Word} {s : State} (hm : sub 33554433 m) (h : Keeps m s0 s) :
    Keeps m s0 (writeEvtRoute a0 a1 s) := by
  unfold writeEvtRoute
  extract_lets +onlyGivenNames -merge -useContext x0 x1 x2 x3
  try clear_value x0
  try clear_value x1
  try clear_value x2
  try clear_value x3
  refine State.plainWrite_keeps (sub.of (by decide) hm) ?_
  refine keeps_oldRoutes (sub.of (by decide) hm) ?_ _
  exact h

theorem writeEvtCtl_keeps {a0 : Word} {s : State} (hm : sub 1 m) (h : Keeps m s0 s) :
    Keeps m s0 (writeEvtCtl a0 s) := by
  unfold writeEvtCtl
  refine State.plainWrite_keeps (sub.of (by decide) hm) ?_
  exact h

theorem swRaise_keeps {a0 : Word} {s : State} (hm : sub 201342977 m) (h : Keeps m s0 s) :
    Keeps m s0 (swRaise a0 s) := by
  unfold swRaise
  extract_lets +onlyGivenNames -merge -useContext x0
  try clear_value x0
  refine keeps_ite (fun _ => ?_) (fun _ => ?_)
  · refine State.evtStat_keeps (sub.of (by decide) hm) ?_
    exact h
  · refine State.raise_keeps (sub.of (by decide) hm) ?_
    exact h

theorem tempFlag_keeps {a0 : Nat} {a1 : Fld} {s : State} (hm : sub 201342977 m) (h : Keeps m s0 s) :
    Keeps m s0 (tempFlag a0 a1 s) := by
  unfold tempFlag
  refine State.flag_keeps (sub.of (by decide) hm) ?_
  exact h

theorem setOutNow_keeps {a0 : Nat} {a1 : Bool} {s : State} (hm : sub 1 m) (h : Keeps m s0 s) :
    Keeps m s0 (setOutNow a0 a1 s) := by
  unfold setOutNow
  extract_lets +onlyGivenNames -merge -useContext x0
  try clear_value x0
  refine State.setFld_keeps (sub.of (by decide) hm) ?_
  exact h

theorem supplyOut_keeps {a0 : Nat} {s : State} (hm : sub 486567937 m) (h : Keeps m s0 s) :
    Keeps m s0 (supplyOut a0 s) := by
  unfold supplyOut
  extract_lets +onlyGivenNames -merge -useContext x0 x1 x2
  have hx0 : Keeps m s0 x0 := by
    refine setOutNow_keeps (sub.of (by decide) hm) ?_
    refine keeps_supLt (sub.of (by decide) hm) ?_ _
    exact h
  clear_value x0
  have hx1 : Keeps m s0 x1 := by
    refine State.setFld_keeps (sub.of (by decide) hm) ?_
    exact hx0
  clear_value x1
  have hx2 : Keeps m s0 x2 := by
    refine State.raiseIf_keeps (sub.of (by decide) hm) ?_
    exact hx1
  clear_value x2
  refine keeps_ite (fun _ => ?_) (fun _ => ?_)
  · exact h
  · refine keeps_ite (fun _ => ?_) (fun _ => ?_)
    · refine keeps_foldl (fun x3 y4 hx3 => ?_) _ ?_
      · refine keeps_ite (fun _ => ?_) (fun _ => ?_)
        · refine openSpan_keeps (sub.of (by decide) hm) ?_
          exact hx3
        · exact hx3
      · exact hx2
    · exact hx2

theorem supplyIn_keeps {a0 : Nat} {s : State} (hm : sub 285216769 m) (h : Keeps m s0 s) :
    Keeps m s0 (supplyIn a0 s) := by
  unfold supplyIn
  extract_lets +onlyGivenNames -merge -useContext x0 x1
  have hx0 : Keeps m s0 x0 := by
    refine setOutNow_keeps (sub.of (by decide) hm) ?_
    exact h
  clear_value x0
  have hx1 : Keeps m s0 x1 := by
    refine keeps_ite (fun _ => ?_) (fun _ => ?_)
    · refine keeps_foldl (fun x2 y3 hx2 => ?_) _ ?_
      · refine closeSpan_keeps (sub.of (by decide) hm) ?_
        exact hx2
      · exact hx0
    · exact hx0
  clear_value x1
  refine keeps_ite (fun _ => ?_) (fun _ => ?_)
  · exact h
  · refine State.logFault_keeps (sub.of (by decide) hm) ?_
    refine keeps_supLt (sub.of (by decide) hm) ?_ _
    exact hx1

theorem judgeTemp_keeps {a0 : Nat} {a1 : Fld} {a2 : Fld} {a3 : Fld} {s : State} (hm : sub 201342977 m) (h : Keeps m s0 s) :
    Keeps m s0 (judgeTemp a0 a1 a2 a3 s) := by
  unfold judgeTemp
  extract_lets +onlyGivenNames -merge -useContext x0
  try clear_value x0
  refine keeps_ite (fun _ => ?_) (fun _ => ?_)
  · refine keeps_ite (fun _ => ?_) (fun _ => ?_)
    · refine State.clrBit_keeps (sub.of (by decide) hm) ?_
      exact h
    · exact h
  · refine keeps_ite (fun _ => ?_) (fun _ => ?_)
    · refine tempFlag_keeps (sub.of (by decide) hm) ?_
      refine State.setBit_keeps (sub.of (by decide) hm) ?_
      exact h
    · exact h

theorem sensorFault_keeps {s : State} (hm : sub 201342977 m) (h : Keeps m s0 s) :
    Keeps m s0 (sensorFault s) := by
  unfold sensorFault
  refine tempFlag_keeps (sub.of (by decide) hm) ?_
  exact h

theorem sensorUpdate_keeps {a0 : Nat} {a1 : Int} {s : State} (hm : sub 201342977 m) (h : Keeps m s0 s) :
    Keeps m s0 (sensorUpdate a0 a1 s) := by
  unfold sensorUpdate
  extract_lets +onlyGivenNames -merge -useContext x0 x1 x2
  have hx0 : Keeps m s0 x0 := by
    refine State.setFld_keeps (sub.of (by decide) hm) ?_
    exact h
  clear_value x0
  have hx1 : Keeps m s0 x1 := by
    refine keeps_ite (fun _ => ?_) (fun _ => ?_)
    · refine sensorFault_keeps (sub.of (by decide) hm) ?_
      exact hx0
    · exact hx0
  clear_value x1
  have hx2 : Keeps m s0 x2 := by
    refine judgeTemp_keeps (sub.of (by decide) hm) ?_
    exact hx1
  clear_value x2
  refine keeps_ite (fun _ => ?_) (fun _ => ?_)
  · exact h
  · refine judgeTemp_keeps (sub.of (by decide) hm) ?_
    exact hx2

end Sys2Proof.Machine
end

