-- ==== Sys2Proof/Laws/Frame/DataPort.lean ====
section
/-!
SUPPORT. What the functions of Machine/DataPort.lean touch: one lemma each, in the terms of `Keeps`.
-/
namespace Sys2Proof.Machine

variable {m : Nat} {s0 : State}

theorem State.setHost_keeps {s : State} {a1 : HostPort} (hm : sub 262144 m) (h : Keeps m s0 s) :
    Keeps m s0 (State.setHost s a1) := by
  unfold State.setHost
  refine keeps_host (sub.of (by decide) hm) ?_ _
  exact h

theorem eraseFlash_keeps {a0 : Nat} {a1 : Nat} {s : State} (hm : sub 262144 m) (h : Keeps m s0 s) :
    Keeps m s0 (eraseFlash a0 a1 s) := by
  unfold eraseFlash
  extract_lets +onlyGivenNames -merge -useContext x0
  try clear_value x0
  refine State.setHost_keeps (sub.of (by decide) hm) ?_
  exact h

theorem writeOut_keeps {a0 : Nat} {s : State} (hm : sub 472347679 m) (h : Keeps m s0 s) :
    Keeps m s0 (writeOut a0 s) := by
  unfold writeOut
  extract_lets +onlyGivenNames -merge -useContext x0 x1
  try clear_value x0
  have hx1 : Keeps m s0 x1 := by
    refine State.setHost_keeps (sub.of (by decide) hm) ?_
    exact h
  clear_value x1
  split
  · exact h
  · extract_lets +onlyGivenNames -merge -useContext x2
    try clear_value x2
    refine putCells_keeps (sub.of (by decide) hm) ?_
    exact hx1

theorem writeOutAll_keeps {s : State} (hm : sub 472347679 m) (h : Keeps m s0 s) :
    Keeps m s0 (writeOutAll s) := by
  unfold writeOutAll
  refine keeps_foldl (fun x0 y1 hx0 => ?_) _ ?_
  · refine writeOut_keeps (sub.of (by decide) hm) ?_
    exact hx0
  · exact h

theorem dpAdvance_keeps {a0 : Nat} {a1 : Nat} {a2 : Bool} {s : State} (hm : sub 1 m) (h : Keeps m s0 s) :
    Keeps m s0 (dpAdvance a0 a1 a2 s) := by
  unfold dpAdvance
  extract_lets +onlyGivenNames -merge -useContext x0
  try clear_value x0
  refine keeps_ite (fun _ => ?_) (fun _ => ?_)
  · exact h
  · refine State.setReg64_keeps (sub.of (by decide) hm) ?_
    exact h

theorem noteTurned_keeps {a0 : Accessor} {a1 : Bool} {a2 : Nat} {s : State} (hm : sub 201342977 m) (h : Keeps m s0 s) :
    Keeps m s0 (noteTurned a0 a1 a2 s) := by
  unfold noteTurned
  refine noteAsleep_keeps (sub.of (by decide) hm) ?_
  refine noteFence_keeps (sub.of (by decide) hm) ?_
  exact h

theorem dpRefuse_keeps {a0 : Nat} {a1 : Nat} {a2 : Bool} {a3 : List Nat} {s : State} (hm : sub 201342977 m) (h : Keeps m s0 s) :
    Keeps m s0 (dpRefuse a0 a1 a2 a3 s) := by
  unfold dpRefuse
  extract_lets +onlyGivenNames -merge -useContext x0
  have hx0 : Keeps m s0 x0 := by
    refine keeps_foldl (fun x1 y2 hx1 => ?_) _ ?_
    · refine noteTurned_keeps (sub.of (by decide) hm) ?_
      exact hx1
    · exact h
  clear_value x0
  refine dpFault_keeps (sub.of (by decide) hm) ?_
  refine hostViol_keeps (sub.of (by decide) hm) ?_
  exact hx0

theorem dpAnswer_keeps {a0 : Nat} {a1 : Nat} {a2 : Nat} {a3 : List Nat} {s : State} (hm : sub 472347679 m) (h : Keeps m s0 s) :
    Keeps m s0 (dpAnswer a0 a1 a2 a3 s) := by
  unfold dpAnswer
  extract_lets +onlyGivenNames -merge -useContext x0 x1 x2 x3 x4 x5 x6
  have hx0 : Keeps m s0 x0 := by
    refine writeOutAll_keeps (sub.of (by decide) hm) ?_
    exact h
  clear_value x0
  try clear_value x1
  try clear_value x2
  have hx3 : Keeps m s0 x3 := by
    refine dpAdvance_keeps (sub.of (by decide) hm) ?_
    exact hx0
  clear_value x3
  have hx4 : Keeps m s0 x4 := by
    refine foundBad_keeps (sub.of (by decide) hm) ?_
    exact hx3
  clear_value x4
  have hx5 : Keeps m s0 x5 := by
    refine keeps_foldl (fun x7 y8 hx7 => ?_) _ ?_
    · refine keeps_ite (fun _ => ?_) (fun _ => ?_)
      · refine touchWord_keeps (sub.of (by decide) hm) ?_
        exact hx7
      · exact hx7
    · exact hx4
  clear_value x5
  have hx6 : Keeps m s0 x6 := by
    refine keeps_foldl (fun x9 y10 hx9 => ?_) _ ?_
    · refine noteUes_keeps (sub.of (by decide) hm) ?_
      exact hx9
    · exact hx5
  clear_value x6
  refine keeps_ite (fun _ => ?_) (fun _ => ?_)
  · refine State.give_keeps (sub.of (by decide) hm) ?_
    refine dpRefuse_keeps (sub.of (by decide) hm) ?_
    exact hx0
  · refine keeps_ite (fun _ => ?_) (fun _ => ?_)
    · refine keeps_foldl (fun x11 y12 hx11 => ?_) _ ?_
      · refine windowRead_keeps (sub.of (by decide) hm) ?_
        exact hx11
      · refine State.give_keeps (sub.of (by decide) hm) ?_
        exact hx3
    · refine keeps_ite (fun _ => ?_) (fun _ => ?_)
      · refine dpFault_keeps (sub.of (by decide) hm) ?_
        refine hostViol_keeps (sub.of (by decide) hm) ?_
        refine State.give_keeps (sub.of (by decide) hm) ?_
        exact hx6
      · refine State.give_keeps (sub.of (by decide) hm) ?_
        exact hx5

theorem writeDp_keeps {a0 : Nat} {a1 : Nat} {a2 : Word} {s : State} (hm : sub 472347679 m) (h : Keeps m s0 s) :
    Keeps m s0 (writeDp a0 a1 a2 s) := by
  unfold writeDp
  extract_lets +onlyGivenNames -merge -useContext x0 x1
  have hx0 : Keeps m s0 x0 := by
    refine writeOut_keeps (sub.of (by decide) hm) ?_
    exact h
  clear_value x0
  try clear_value x1
  refine keeps_ite (fun _ => ?_) (fun _ => ?_)
  · refine State.plainWrite_keeps (sub.of (by decide) hm) ?_
    exact hx0
  · refine keeps_ite (fun _ => ?_) (fun _ => ?_)
    · refine State.plainWrite_keeps (sub.of (by decide) hm) ?_
      exact hx0
    · refine State.plainWrite_keeps (sub.of (by decide) hm) ?_
      exact hx0

theorem bootEnd_keeps {a0 : Nat} {s : State} (hm : sub 201342977 m) (h : Keeps m s0 s) :
    Keeps m s0 (bootEnd a0 s) := by
  unfold bootEnd
  extract_lets +onlyGivenNames -merge -useContext x0
  have hx0 : Keeps m s0 x0 := by
    refine State.setFld_keeps (sub.of (by decide) hm) ?_
    exact h
  clear_value x0
  refine hostFlag_keeps (sub.of (by decide) hm) ?_
  exact hx0

theorem bootCmd_keeps {a0 : Word} {s : State} (hm : sub 201605121 m) (h : Keeps m s0 s) :
    Keeps m s0 (bootCmd a0 s) := by
  unfold bootCmd
  extract_lets +onlyGivenNames -merge -useContext x0 x1 x2
  try clear_value x0
  try clear_value x1
  try clear_value x2
  refine keeps_ite (fun _ => ?_) (fun _ => ?_)
  · exact h
  · refine keeps_ite (fun _ => ?_) (fun _ => ?_)
    · refine bootEnd_keeps (sub.of (by decide) hm) ?_
      exact h
    · refine State.setFld_keeps (sub.of (by decide) hm) ?_
      refine State.setHost_keeps (sub.of (by decide) hm) ?_
      exact h

theorem writeHostCtl_keeps {a0 : Word} {s : State} (hm : sub 262145 m) (h : Keeps m s0 s) :
    Keeps m s0 (writeHostCtl a0 s) := by
  unfold writeHostCtl
  extract_lets +onlyGivenNames -merge -useContext x0 x1
  have hx0 : Keeps m s0 x0 := by
    refine State.plainWrite_keeps (sub.of (by decide) hm) ?_
    exact h
  clear_value x0
  try clear_value x1
  refine keeps_ite (fun _ => ?_) (fun _ => ?_)
  · refine State.setHost_keeps (sub.of (by decide) hm) ?_
    exact hx0
  · exact hx0

theorem setTableWord_keeps {a0 : Nat} {a1 : Word} {s : State} (hm : sub 262144 m) (h : Keeps m s0 s) :
    Keeps m s0 (setTableWord a0 a1 s) := by
  unfold setTableWord
  extract_lets +onlyGivenNames -merge -useContext x0 x1
  try clear_value x0
  try clear_value x1
  refine State.setHost_keeps (sub.of (by decide) hm) ?_
  exact h

theorem msixSend_keeps {a0 : Nat} {s : State} (hm : sub 134217728 m) (h : Keeps m s0 s) :
    Keeps m s0 (msixSend a0 s) := by
  unfold msixSend
  refine keeps_ite (fun _ => ?_) (fun _ => ?_)
  · refine keeps_msixPend (sub.of (by decide) hm) ?_ _
    exact h
  · exact h

theorem burstIdle_keeps {a0 : Nat} {s : State} (hm : sub 472347679 m) (h : Keeps m s0 s) :
    Keeps m s0 (burstIdle a0 s) := by
  unfold burstIdle
  split
  · refine keeps_ite (fun _ => ?_) (fun _ => ?_)
    · refine writeOut_keeps (sub.of (by decide) hm) ?_
      exact h
    · exact h
  · exact h

theorem dpSeamTimeout_keeps {a0 : Nat} {a1 : Nat} {s : State} (hm : sub 203440135 m) (h : Keeps m s0 s) :
    Keeps m s0 (dpSeamTimeout a0 a1 s) := by
  unfold dpSeamTimeout
  split
  · refine requestTimeout_keeps (sub.of (by decide) hm) ?_
    exact h
  · exact h

theorem linkUp_keeps {a0 : Nat} {a1 : Nat} {s : State} (hm : sub 201605121 m) (h : Keeps m s0 s) :
    Keeps m s0 (linkUp a0 a1 s) := by
  unfold linkUp
  extract_lets +onlyGivenNames -merge -useContext x0 x1 x2
  try clear_value x0
  have hx1 : Keeps m s0 x1 := by
    refine State.setHost_keeps (sub.of (by decide) hm) ?_
    exact h
  clear_value x1
  have hx2 : Keeps m s0 x2 := by
    refine State.setFld_keeps (sub.of (by decide) hm) ?_
    refine State.setFld_keeps (sub.of (by decide) hm) ?_
    exact hx1
  clear_value x2
  refine keeps_ite (fun _ => ?_) (fun _ => ?_)
  · exact h
  · refine hostFlag_keeps (sub.of (by decide) hm) ?_
    refine State.setBit_keeps (sub.of (by decide) hm) ?_
    exact hx2

theorem aerUncorr_keeps {a0 : Nat} {s : State} (hm : sub 201605121 m) (h : Keeps m s0 s) :
    Keeps m s0 (aerUncorr a0 s) := by
  unfold aerUncorr
  extract_lets +onlyGivenNames -merge -useContext x0
  try clear_value x0
  refine hostFlag_keeps (sub.of (by decide) hm) ?_
  refine keeps_host (sub.of (by decide) hm) ?_ _
  exact h

theorem configSpace_keeps {a0 : Bool} {a1 : Bool} {a2 : Bool} {a3 : Bool} {s : State} (hm : sub 262145 m) (h : Keeps m s0 s) :
    Keeps m s0 (configSpace a0 a1 a2 a3 s) := by
  unfold configSpace
  extract_lets +onlyGivenNames -merge -useContext x0 x1
  try clear_value x0
  have hx1 : Keeps m s0 x1 := by
    refine State.setHost_keeps (sub.of (by decide) hm) ?_
    exact h
  clear_value x1
  refine State.putBit_keeps (sub.of (by decide) hm) ?_
  refine State.putBit_keeps (sub.of (by decide) hm) ?_
  exact hx1

theorem speedChange_keeps {a0 : Nat} {s : State} (hm : sub 201605121 m) (h : Keeps m s0 s) :
    Keeps m s0 (speedChange a0 s) := by
  unfold speedChange
  extract_lets +onlyGivenNames -merge -useContext x0
  try clear_value x0
  refine keeps_ite (fun _ => ?_) (fun _ => ?_)
  · exact h
  · refine hostFlag_keeps (sub.of (by decide) hm) ?_
    refine State.setFld_keeps (sub.of (by decide) hm) ?_
    refine State.setHost_keeps (sub.of (by decide) hm) ?_
    exact h

theorem bootIdle_keeps {s : State} (hm : sub 262145 m) (h : Keeps m s0 s) :
    Keeps m s0 (bootIdle s) := by
  unfold bootIdle
  extract_lets +onlyGivenNames -merge -useContext x0
  try clear_value x0
  refine State.clrBit_keeps (sub.of (by decide) hm) ?_
  refine State.setHost_keeps (sub.of (by decide) hm) ?_
  exact h

theorem setFlashByte_keeps {a0 : Nat} {a1 : Byte} {s : State} (hm : sub 262144 m) (h : Keeps m s0 s) :
    Keeps m s0 (setFlashByte a0 a1 s) := by
  unfold setFlashByte
  extract_lets +onlyGivenNames -merge -useContext x0
  try clear_value x0
  refine State.setHost_keeps (sub.of (by decide) hm) ?_
  exact h

theorem programFlash_keeps {a0 : Nat} {a1 : List Byte} {s : State} (hm : sub 262144 m) (h : Keeps m s0 s) :
    Keeps m s0 (programFlash a0 a1 s) := by
  unfold programFlash
  refine keeps_foldl (fun x0 y1 hx0 => ?_) _ ?_
  · refine setFlashByte_keeps (sub.of (by decide) hm) ?_
    exact hx0
  · exact h

theorem bootProgram_keeps {a0 : BootCmd} {a1 : Nat} {a2 : List Byte} {s : State} (hm : sub 470249489 m) (h : Keeps m s0 s) :
    Keeps m s0 (bootProgram a0 a1 a2 s).2 := by
  unfold bootProgram
  extract_lets +onlyGivenNames -merge -useContext x0 x1 x2 x3
  try clear_value x0
  try clear_value x1
  try clear_value x2
  have hx3 : Keeps m s0 x3 := by
    refine programFlash_keeps (sub.of (by decide) hm) ?_
    exact h
  clear_value x3
  split
  · dsimp -zeta only
    exact hx3
  · dsimp -zeta only
    refine noteTurned_keeps (sub.of (by decide) hm) ?_
    refine noteUes_keeps (sub.of (by decide) hm) ?_
    exact hx3

theorem flashTimeout_keeps {a0 : Nat} {s : State} (hm : sub 470249489 m) (h : Keeps m s0 s) :
    Keeps m s0 (flashTimeout a0 s) := by
  unfold flashTimeout
  extract_lets +onlyGivenNames -merge -useContext x0
  have hx0 : Keeps m s0 x0 := by
    refine bootIdle_keeps (sub.of (by decide) hm) ?_
    exact h
  clear_value x0
  split
  · exact h
  · extract_lets +onlyGivenNames -merge -useContext x1
    have hx1 : Keeps m s0 x1 := by
      refine keeps_ite (fun _ => ?_) (fun _ => ?_)
      · refine eraseFlash_keeps (sub.of (by decide) hm) ?_
        exact hx0
      · refine bootProgram_keeps (sub.of (by decide) hm) ?_
        exact hx0
    clear_value x1
    refine keeps_ite (fun _ => ?_) (fun _ => ?_)
    · exact h
    · refine bootEnd_keeps (sub.of (by decide) hm) ?_
      exact hx1

theorem bootCopy_keeps {a0 : BootCmd} {s : State} (hm : sub 472085535 m) (h : Keeps m s0 s) :
    Keeps m s0 (bootCopy a0 s).2 := by
  unfold bootCopy
  extract_lets +onlyGivenNames -merge -useContext x0 x1 x2
  try clear_value x0
  try clear_value x1
  have hx2 : Keeps m s0 x2 := by
    refine putCells_keeps (sub.of (by decide) hm) ?_
    exact h
  clear_value x2
  split
  · dsimp -zeta only
    exact hx2
  · dsimp -zeta only
    refine noteTurned_keeps (sub.of (by decide) hm) ?_
    exact hx2

theorem bootDone_keeps {a0 : List Byte} {a1 : Bool} {s : State} (hm : sub 472347679 m) (h : Keeps m s0 s) :
    Keeps m s0 (bootDone a0 a1 s) := by
  unfold bootDone
  extract_lets +onlyGivenNames -merge -useContext x0
  have hx0 : Keeps m s0 x0 := by
    refine bootIdle_keeps (sub.of (by decide) hm) ?_
    exact h
  clear_value x0
  split
  · exact h
  · extract_lets +onlyGivenNames -merge -useContext x1
    have hx1 : Keeps m s0 x1.2 := by
      refine keeps_ite2 (fun _ => ?_) (fun _ => ?_)
      · refine bootCopy_keeps (sub.of (by decide) hm) ?_
        exact hx0
      · refine keeps_ite2 (fun _ => ?_) (fun _ => ?_)
        · dsimp -zeta only
          refine eraseFlash_keeps (sub.of (by decide) hm) ?_
          exact hx0
        · refine keeps_ite2 (fun _ => ?_) (fun _ => ?_)
          · dsimp -zeta only
            exact hx0
          · refine bootProgram_keeps (sub.of (by decide) hm) ?_
            exact hx0
    clear_value x1
    refine bootEnd_keeps (sub.of (by decide) hm) ?_
    exact hx1

theorem dropHostStaging_keeps {s : State} (hm : sub 2 m) (h : Keeps m s0 s) :
    Keeps m s0 (dropHostStaging s) := by
  unfold dropHostStaging
  extract_lets +onlyGivenNames -merge -useContext x0 x1
  try clear_value x0
  try clear_value x1
  refine keeps_perReq (sub.of (by decide) hm) ?_ _
  exact h

theorem hostReset_keeps {s : State} (hm : sub 1009218591 m) (h : Keeps m s0 s) : Keeps m s0 (hostReset s) := by
  unfold hostReset
  extract_lets +onlyGivenNames x0
  have hx0 : Keeps m s0 x0 := writeOutAll_keeps (sub.of (by decide) hm) h
  clear_value x0
  extract_lets +onlyGivenNames q0 x1
  have hx1 : Keeps m s0 x1 := configSpace_keeps (sub.of (by decide) hm) (keeps_host (sub.of (by decide) hm) hx0 _)
  clear_value x1
  extract_lets +onlyGivenNames q1 y1
  have hy1 : Keeps m s0 y1 := State.setAsks_keeps (sub.of (by decide) hm) hx1
  clear_value y1
  extract_lets +onlyGivenNames q x2
  have hx2 : Keeps m s0 x2 := by
    refine dropHostStaging_keeps (sub.of (by decide) hm) (State.give_keeps (sub.of (by decide) hm) ?_)
    exact keeps_parts (a := 134479872) (sub.of (by decide) hm) hy1
      (fun p hp => by cases p <;> first | rfl | exact absurd hp (by decide)) id rfl rfl rfl
  clear_value x2
  extract_lets +onlyGivenNames x3
  have hx3 : Keeps m s0 x3 := by
    refine keeps_foldl (fun x4 y5 hx4 => ?_) _ hx2
    exact State.setReg_keeps (sub.of (by decide) hm) hx4
  clear_value x3
  exact State.setSeam_keeps (sub.of (by decide) hm) hx3

theorem functionReset_keeps {s : State} (hm : sub 1009218591 m) (h : Keeps m s0 s) :
    Keeps m s0 (functionReset s) := by
  unfold functionReset
  refine hostFlag_keeps (sub.of (by decide) hm) ?_
  refine hostReset_keeps (sub.of (by decide) hm) ?_
  exact h

theorem linkDown_keeps {s : State} (hm : sub 1009218591 m) (h : Keeps m s0 s) :
    Keeps m s0 (linkDown s) := by
  unfold linkDown
  extract_lets +onlyGivenNames -merge -useContext x0
  have hx0 : Keeps m s0 x0 := by
    refine State.setFld_keeps (sub.of (by decide) hm) ?_
    refine State.setFld_keeps (sub.of (by decide) hm) ?_
    exact h
  clear_value x0
  refine keeps_ite (fun _ => ?_) (fun _ => ?_)
  · exact h
  · refine functionReset_keeps (sub.of (by decide) hm) ?_
    refine hostFlag_keeps (sub.of (by decide) hm) ?_
    refine State.clrBit_keeps (sub.of (by decide) hm) ?_
    exact hx0

theorem burstAdd_keeps {n a : Nat} {bs : List (Option Byte)} {s : State} (hm : sub 472347679 m) (h : Keeps m s0 s) :
    Keeps m s0 (burstAdd n a bs s) := by
  unfold burstAdd
  extract_lets +onlyGivenNames go
  have hgo : ∀ x b, Keeps m s0 x → Keeps m s0 (go x b) := by
    intro x b hx
    have hy := State.setHost_keeps (a1 := { x.host with aperture := x.host.aperture.set none n (some b) })
      (sub.of (b := 472347679) (by decide) hm) hx
    exact keeps_ite (fun _ => writeOut_keeps (sub.of (by decide) hm) hy) (fun _ => hy)
  clear_value go
  split
  · exact keeps_ite (fun _ => hgo _ _ h) (fun _ => hgo _ _ (writeOut_keeps (sub.of (by decide) hm) h))
  · exact hgo _ _ h

theorem dpWrite_keeps {a0 : Nat} {a1 : Nat} {a2 : List Nat} {a3 : List Word} {a4 : Bool} {s : State} (hm : sub 472347679 m) (h : Keeps m s0 s) :
    Keeps m s0 (dpWrite a0 a1 a2 a3 a4 s) := by
  unfold dpWrite
  extract_lets +onlyGivenNames -merge -useContext x0 x1 x2 x3 x4
  try clear_value x0
  try clear_value x1
  try clear_value x2
  try clear_value x3
  have hx4 : Keeps m s0 x4 := by
    refine dpAdvance_keeps (sub.of (by decide) hm) ?_
    exact h
  clear_value x4
  refine keeps_ite (fun _ => ?_) (fun _ => ?_)
  · exact h
  · refine keeps_ite (fun _ => ?_) (fun _ => ?_)
    · refine aerUncorr_keeps (sub.of (by decide) hm) ?_
      refine hostViol_keeps (sub.of (by decide) hm) ?_
      exact h
    · refine keeps_ite (fun _ => ?_) (fun _ => ?_)
      · refine dpRefuse_keeps (sub.of (by decide) hm) ?_
        exact h
      · refine keeps_foldl (fun x5 y6 hx5 => ?_) _ ?_
        · refine burstAdd_keeps (sub.of (by decide) hm) ?_
          exact hx5
        · exact hx4

theorem dpRead_keeps {a0 : Nat} {a1 : Nat} {a2 : Nat} {a3 : List Nat} {s : State} (hm : sub 1009218591 m) (h : Keeps m s0 s) :
    Keeps m s0 (dpRead a0 a1 a2 a3 s) := by
  unfold dpRead
  refine keeps_ite (fun _ => ?_) (fun _ => ?_)
  · exact h
  · refine keeps_ite (fun _ => ?_) (fun _ => ?_)
    · refine askRead_keeps (sub.of (by decide) hm) ?_
      exact h
    · refine dpAnswer_keeps (sub.of (by decide) hm) ?_
      exact h

end Sys2Proof.Machine
end

