-- ==== Sys2Proof/Laws/Frame/Mantle.lean ====
section
/-!
SUPPORT. What the functions of Machine/Mantle.lean touch: one lemma each, in the terms of `Keeps`.
-/
namespace Sys2Proof.Machine

variable {m : Nat} {s0 : State}

theorem mntRefused_keeps {s : State} (hm : sub 201342977 m) (h : Keeps m s0 s) :
    Keeps m s0 (mntRefused s) := by
  unfold mntRefused
  refine mntFlag_keeps (sub.of (by decide) hm) ?_
  exact h

theorem State.setMnt_keeps (hm : sub 1048576 m) {s : State} (h : Keeps m s0 s) (v : Mantle)
    (hv : burnUp s0.mantle → burnUp v ∧ fusesLe s.mantle v) : Keeps m s0 (s.setMnt v) :=
  keeps_mantle hm h v hv

/-- An update of Mantle that leaves the fuses and the burn alone. -/
theorem State.setMnt_keeps' (hm : sub 1048576 m) {s : State} {v : Mantle} (h : Keeps m s0 s)
    (hf : v.fuses = s.mantle.fuses) (hb : v.burn = s.mantle.burn) : Keeps m s0 (s.setMnt v) :=
  keeps_mantle hm h v (fun b => by
    have k := (h.fuse b).1
    unfold burnUp fusesLe at *
    rw [hf, hb]
    exact ⟨k, fun _ h => h, fun _ h => h, fun _ => Nat.le_refl _⟩)

theorem setMntBusy_keeps {a0 : Bool} {s : State} (hm : sub 1 m) (h : Keeps m s0 s) :
    Keeps m s0 (setMntBusy a0 s) := by
  unfold setMntBusy
  refine State.putBit_keeps (sub.of (by decide) hm) ?_
  exact h

theorem startOp_keeps {a0 : Nat} {a1 : Nat} {s : State} (hm : sub 1048577 m) (h : Keeps m s0 s) :
    Keeps m s0 (startOp a0 a1 s) := by
  unfold startOp
  extract_lets +onlyGivenNames -merge -useContext x0 x1
  try clear_value x0
  refine setMntBusy_keeps (sub.of (by decide) hm) ?_
  refine State.setMnt_keeps' (sub.of (by decide) hm) ?_ rfl rfl
  exact h

theorem writeReqctl_keeps {a0 : Word} {s : State} (hm : sub 202391553 m) (h : Keeps m s0 s) :
    Keeps m s0 (writeReqctl a0 s) := by
  unfold writeReqctl
  extract_lets +onlyGivenNames -merge -useContext x0 x1
  have hx0 : Keeps m s0 x0 := by
    refine State.plainWrite_keeps (sub.of (by decide) hm) ?_
    exact h
  clear_value x0
  try clear_value x1
  refine keeps_ite (fun _ => ?_) (fun _ => ?_)
  · exact hx0
  · refine keeps_ite (fun _ => ?_) (fun _ => ?_)
    · refine mntRefused_keeps (sub.of (by decide) hm) ?_
      exact hx0
    · refine keeps_ite (fun _ => ?_) (fun _ => ?_)
      · exact hx0
      · refine startOp_keeps (sub.of (by decide) hm) ?_
        exact hx0

theorem endUnlock_keeps {s : State} (hm : sub 202457113 m) (h : Keeps m s0 s) :
    Keeps m s0 (endUnlock s) := by
  unfold endUnlock
  extract_lets +onlyGivenNames -merge -useContext x0 x1 x2
  have hx0 : Keeps m s0 x0 := by
    refine State.setFld_keeps (sub.of (by decide) hm) ?_
    exact h
  clear_value x0
  have hx2 : Keeps m s0 x2 := by
    refine State.setMnt_keeps' (sub.of (by decide) hm) ?_ rfl rfl
    exact hx0
  clear_value x2
  refine keeps_ite (fun _ => ?_) (fun _ => ?_)
  · exact h
  · refine mntFlag_keeps (sub.of (by decide) hm) ?_
    refine closeDebug_keeps (sub.of (by decide) hm) ?_
    refine setMntWord_keeps (sub.of (by decide) hm) ?_
    refine State.setReg64_keeps (sub.of (by decide) hm) ?_
    exact hx2

theorem unlockExpiry_keeps {s : State} (hm : sub 202457113 m) (h : Keeps m s0 s) :
    Keeps m s0 (unlockExpiry s) := by
  unfold unlockExpiry
  refine keeps_ite (fun _ => ?_) (fun _ => ?_)
  · refine endUnlock_keeps (sub.of (by decide) hm) ?_
    exact h
  · exact h

theorem setRegWords_keeps {a0 : Nat} {a1 : List Byte} {s : State} (hm : sub 1 m) (h : Keeps m s0 s) :
    Keeps m s0 (setRegWords a0 a1 s) := by
  unfold setRegWords
  refine keeps_foldl (fun x0 y1 hx0 => ?_) _ ?_
  · refine State.setReg_keeps (sub.of (by decide) hm) ?_
    exact hx0
  · exact h

theorem noteMnt_keeps {a0 : Nat} {a1 : Nat} {s : State} (hm : sub 469987345 m) (h : Keeps m s0 s) :
    Keeps m s0 (noteMnt a0 a1 s) := by
  unfold noteMnt
  split
  · refine noteAsleep_keeps (sub.of (by decide) hm) ?_
    exact h
  · refine noteUes_keeps (sub.of (by decide) hm) ?_
    exact h

theorem attestLocal_keeps {a0 : Nat} {a1 : List Byte} {s : State} (hm : sub 472085535 m) (h : Keeps m s0 s) :
    Keeps m s0 (attestLocal a0 a1 s).2 := by
  unfold attestLocal
  refine keeps_ite2 (fun _ => ?_) (fun _ => ?_)
  · dsimp -zeta only
    exact h
  · refine keeps_ite2 (fun _ => ?_) (fun _ => ?_)
    · dsimp -zeta only
      refine noteMnt_keeps (sub.of (by decide) hm) ?_
      exact h
    · refine keeps_ite2 (fun _ => ?_) (fun _ => ?_)
      · dsimp -zeta only
        refine noteMnt_keeps (sub.of (by decide) hm) ?_
        exact h
      · dsimp -zeta only
        refine mntFlag_keeps (sub.of (by decide) hm) ?_
        refine putCells_keeps (sub.of (by decide) hm) ?_
        exact h

theorem startUnlock_keeps {a0 : Nat} {a1 : Nat} {s : State} (hm : sub 202457113 m) (h : Keeps m s0 s) :
    Keeps m s0 (startUnlock a0 a1 s) := by
  unfold startUnlock
  extract_lets +onlyGivenNames -merge -useContext x0 x1 x2
  have hx0 : Keeps m s0 x0 := by
    refine State.setFld_keeps (sub.of (by decide) hm) ?_
    exact h
  clear_value x0
  have hx2 : Keeps m s0 x2 := by
    refine State.setReg64_keeps (sub.of (by decide) hm) ?_
    refine State.setMnt_keeps' (sub.of (by decide) hm) ?_ rfl rfl
    exact hx0
  clear_value x2
  refine mntFlag_keeps (sub.of (by decide) hm) ?_
  refine setMntWord_keeps (sub.of (by decide) hm) ?_
  exact hx2

theorem brokenHash_keeps {s : State} (hm : sub 1073741824 m) (h : Keeps m s0 s) :
    Keeps m s0 (brokenHash s).2 := by
  unfold brokenHash
  refine keeps_foldl2 (fun x0 y1 hx0 => ?_) _ ?_
  · split
    · rename_i z2 z3 e4
      have hz3 : Keeps m s0 z3 := by
        have q : _ = z3 := congrArg Prod.snd e4
        rw [← q]
        refine State.takeFree_keeps (sub.of (by decide) hm) ?_
        exact hx0
      dsimp -zeta only
      exact hz3
  · dsimp -zeta only
    exact h

theorem setSlotFuses_keeps {j : Nat} {x : OwnerSlot} {s : State} (hm : sub 1048576 m) (h : Keeps m s0 s)
    (he : (ownerSlot j s).enrolled = true → x.enrolled = true) (hr : (ownerSlot j s).revoked = true → x.revoked = true) :
    Keeps m s0 (setSlotFuses j x s) := by
  refine State.setMnt_keeps hm h _ (fun b => ⟨(h.fuse b).1, ?_, ?_, fun _ => Nat.le_refl _⟩)
  · intro i hi
    simp only [Tab.get_set]
    split
    · rename_i q; subst q; exact he hi
    · exact hi
  · intro i hi
    simp only [Tab.get_set]
    split
    · rename_i q; subst q; exact hr hi
    · exact hi

theorem reqEffect_keeps {a0 : Nat} {a1 : Bool} {s : State} (hm : sub 1276198937 m) (h : Keeps m s0 s) :
    Keeps m s0 (reqEffect a0 a1 s).2 := by
  unfold reqEffect
  extract_lets +onlyGivenNames -merge -useContext x0 x1
  try clear_value x0
  refine keeps_ite2 (fun _ => ?_) (fun _ => ?_)
  · refine keeps_ite2 (fun _ => ?_) (fun _ => ?_)
    · dsimp -zeta only
      refine mntFlag_keeps (sub.of (by decide) hm) ?_
      refine setSlotFuses_keeps (sub.of (by decide) hm) ?_ (fun q => by first | exact q | rfl)
          (fun q => by first | exact q | rfl)
      exact h
    · split
      · rename_i z2 z3 e4
        have hz3 : Keeps m s0 z3 := by
          have q : _ = z3 := congrArg Prod.snd e4
          rw [← q]
          refine brokenHash_keeps (sub.of (by decide) hm) ?_
          exact h
        extract_lets +onlyGivenNames -merge -useContext x5
        dsimp -zeta only
        refine setSlotFuses_keeps (sub.of (by decide) hm) ?_ (fun q => by first | exact q | rfl)
          (fun q => by first | exact q | rfl)
        exact hz3
  · refine keeps_ite2 (fun _ => ?_) (fun _ => ?_)
    · refine keeps_ite2 (fun _ => ?_) (fun _ => ?_)
      · dsimp -zeta only
        refine mntFlag_keeps (sub.of (by decide) hm) ?_
        refine setSlotFuses_keeps (sub.of (by decide) hm) ?_ (fun q => by first | exact q | rfl)
          (fun q => by first | exact q | rfl)
        exact h
      · dsimp -zeta only
        exact h
    · dsimp -zeta only
      refine startUnlock_keeps (sub.of (by decide) hm) ?_
      exact h

theorem runRequest_keeps {a0 : Nat} {a1 : Bool} {s : State} (hm : sub 1544777753 m) (h : Keeps m s0 s) :
    Keeps m s0 (runRequest a0 a1 s).2 := by
  unfold runRequest
  extract_lets +onlyGivenNames -merge -useContext x0
  try clear_value x0
  split
  · rename_i z1 z2 e3
    have hz2 : Keeps m s0 z2 := by
      have q : _ = z2 := congrArg Prod.snd e3
      rw [← q]
      refine keeps_ite2 (fun _ => ?_) (fun _ => ?_)
      · refine reqEffect_keeps (sub.of (by decide) hm) ?_
        exact h
      · dsimp -zeta only
        refine keeps_ite (fun _ => ?_) (fun _ => ?_)
        · refine noteMnt_keeps (sub.of (by decide) hm) ?_
          exact h
        · exact h
    extract_lets +onlyGivenNames -merge -useContext x4 x5 x6
    try clear_value x4
    have hx6 : Keeps m s0 x6 := by
      refine State.setMnt_keeps' (sub.of (by decide) hm) ?_ rfl rfl
      exact hz2
    clear_value x6
    refine keeps_ite2 (fun _ => ?_) (fun _ => ?_)
    · dsimp -zeta only
      exact hz2
    · dsimp -zeta only
      refine setRegWords_keeps (sub.of (by decide) hm) ?_
      exact hx6

theorem attestSeam_keeps {a0 : List Byte} {s : State} (hm : sub 203440135 m) (h : Keeps m s0 s) :
    Keeps m s0 (attestSeam a0 s).2 := by
  unfold attestSeam
  extract_lets +onlyGivenNames -merge -useContext x0 x1 x2
  try clear_value x0
  have hx1 : Keeps m s0 x1 := by
    refine State.setSeam_keeps (sub.of (by decide) hm) ?_
    exact h
  clear_value x1
  try clear_value x2
  split
  · dsimp -zeta only
    exact h
  · extract_lets +onlyGivenNames -merge -useContext x3 x4
    have hx3 : ∀ y5 z6, Keeps m s0 z6 → Keeps m s0 (x3 y5 z6) := by
      intro y5 z6 hz6
      unfold x3
      refine issueFlit_keeps (sub.of (by decide) hm) ?_
      exact hz6
    clear_value x3
    have hx4 : Keeps m s0 x4 := by
      refine keeps_foldl (fun x7 y8 hx7 => ?_) _ ?_
      · refine issuePost_keeps (sub.of (by decide) hm) ?_
        exact hx7
      · exact hx1
    clear_value x4
    refine keeps_ite2 (fun _ => ?_) (fun _ => ?_)
    · dsimp -zeta only
      refine hx3 _ _ ?_
      exact hx1
    · dsimp -zeta only
      refine mntFlag_keeps (sub.of (by decide) hm) ?_
      refine hx3 _ _ ?_
      exact hx4

theorem imgReject_keeps {s : State} (hm : sub 201342977 m) (h : Keeps m s0 s) :
    Keeps m s0 (imgReject s) := by
  unfold imgReject
  refine mntFlag_keeps (sub.of (by decide) hm) ?_
  exact h

theorem raiseShadow_keeps {a0 : Nat} {a1 : Nat} {s : State} (hm : sub 1048576 m) (h : Keeps m s0 s) :
    Keeps m s0 (raiseShadow a0 a1 s) := by
  unfold raiseShadow
  extract_lets +onlyGivenNames -merge -useContext x0
  refine keeps_ite (fun _ => ?_) (fun _ => ?_)
  · refine State.setMnt_keeps' (sub.of (by decide) hm) ?_ rfl rfl
    exact h
  · exact h

theorem imgAccept_keeps {a0 : List Byte} {a1 : Nat} {s : State} (hm : sub 202391553 m) (h : Keeps m s0 s) :
    Keeps m s0 (imgAccept a0 a1 s) := by
  unfold imgAccept
  extract_lets +onlyGivenNames -merge -useContext x0 x1 x2 x3 x4
  have hx0 : Keeps m s0 x0 := by
    refine setRegWords_keeps (sub.of (by decide) hm) ?_
    exact h
  clear_value x0
  try clear_value x1
  try clear_value x2
  have hx4 : Keeps m s0 x4 := by
    refine State.setMnt_keeps' (sub.of (by decide) hm) ?_ rfl rfl
    refine State.setReg_keeps (sub.of (by decide) hm) ?_
    exact hx0
  clear_value x4
  refine mntFlag_keeps (sub.of (by decide) hm) ?_
  refine raiseShadow_keeps (sub.of (by decide) hm) ?_
  exact hx4

theorem verifyImage_keeps {a0 : Nat} {s : State} (hm : sub 1544777745 m) (h : Keeps m s0 s) :
    Keeps m s0 (verifyImage a0 s).2 := by
  unfold verifyImage
  extract_lets +onlyGivenNames -merge -useContext x0 x1 x2 x3
  try clear_value x0
  try clear_value x1
  try clear_value x2
  try clear_value x3
  refine keeps_ite2 (fun _ => ?_) (fun _ => ?_)
  · dsimp -zeta only
    refine imgReject_keeps (sub.of (by decide) hm) ?_
    exact h
  · refine keeps_ite2 (fun _ => ?_) (fun _ => ?_)
    · dsimp -zeta only
      refine imgReject_keeps (sub.of (by decide) hm) ?_
      refine noteMnt_keeps (sub.of (by decide) hm) ?_
      exact h
    · refine keeps_ite2 (fun _ => ?_) (fun _ => ?_)
      · split
        · rename_i z4 z5 e6
          have hz5 : Keeps m s0 z5 := by
            have q : _ = z5 := congrArg Prod.snd e6
            rw [← q]
            refine State.takeFree_keeps (sub.of (by decide) hm) ?_
            exact h
          dsimp -zeta only
          refine imgAccept_keeps (sub.of (by decide) hm) ?_
          exact hz5
      · dsimp -zeta only
        refine imgReject_keeps (sub.of (by decide) hm) ?_
        exact h

theorem opDone_keeps {a0 : Bool} {s : State} (hm : sub 1546875935 m) (h : Keeps m s0 s) :
    Keeps m s0 (opDone a0 s) := by
  unfold opDone
  extract_lets +onlyGivenNames -merge -useContext x0 x1
  have hx1 : Keeps m s0 x1 := by
    refine setMntBusy_keeps (sub.of (by decide) hm) ?_
    refine State.setMnt_keeps' (sub.of (by decide) hm) ?_ rfl rfl
    exact h
  clear_value x1
  split
  · exact h
  · refine keeps_ite (fun _ => ?_) (fun _ => ?_)
    · refine attestSeam_keeps (sub.of (by decide) hm) ?_
      exact hx1
    · split
      · rename_i z2 z3 e4
        have hz3 : Keeps m s0 z3 := by
          have q : _ = z3 := congrArg Prod.snd e4
          rw [← q]
          refine keeps_ite2 (fun _ => ?_) (fun _ => ?_)
          · refine runRequest_keeps (sub.of (by decide) hm) ?_
            exact hx1
          · refine keeps_ite2 (fun _ => ?_) (fun _ => ?_)
            · refine verifyImage_keeps (sub.of (by decide) hm) ?_
              exact hx1
            · refine attestLocal_keeps (sub.of (by decide) hm) ?_
              exact hx1
        extract_lets +onlyGivenNames -merge -useContext x5
        have hx5 : Keeps m s0 x5 := by
          refine State.setFld_keeps (sub.of (by decide) hm) ?_
          exact hz3
        clear_value x5
        refine keeps_ite (fun _ => ?_) (fun _ => ?_)
        · exact hx5
        · refine mntRefused_keeps (sub.of (by decide) hm) ?_
          exact hx5

theorem opDue_keeps {s : State} (hm : sub 1546875935 m) (h : Keeps m s0 s) :
    Keeps m s0 (opDue s) := by
  unfold opDue
  split
  · exact h
  · refine keeps_ite (fun _ => ?_) (fun _ => ?_)
    · refine opDone_keeps (sub.of (by decide) hm) ?_
      exact h
    · exact h

theorem setCounter_keeps {i v : Nat} {s : State} (hm : sub 1048576 m) (h : Keeps m s0 s)
    (hv : burnUp s0.mantle → rbCounter i s ≤ v ∧ ∀ w, s.mantle.burn = some (i, w) → v < w) :
    Keeps m s0 (setCounter i v s) := by
  refine State.setMnt_keeps hm h _ (fun b => ?_)
  have k := (h.fuse b).1
  have hv := hv b
  refine ⟨?_, fun _ h => h, fun _ h => h, ?_⟩
  · intro j w hw
    simp only [Tab.get_set]
    split
    · rename_i q; subst q; exact hv.2 w hw
    · exact k j w hw
  · intro j
    simp only [Tab.get_set]
    split
    · rename_i q; subst q; exact hv.1
    · exact Nat.le_refl _

theorem partBurn_keeps {i new : Nat} {s : State} (hm : sub 1074790400 m) (h : Keeps m s0 s)
    (hv : burnUp s0.mantle → ∀ w, s.mantle.burn = some (i, w) → rbCounter i s < w ∧ w = new) :
    Keeps m s0 (partBurn i new s) := by
  unfold partBurn
  refine setCounter_keeps (sub.of (by decide) hm) (State.takeFree_keeps (sub.of (by decide) hm) h) (fun b => ?_)
  refine ⟨Nat.le_add_right _ _, fun w hw => ?_⟩
  obtain ⟨h1, rfl⟩ := hv b w hw
  have h2 : rbCounter i s.takeFree.2 < w := h1
  have := Nat.mod_lt s.takeFree.1.toNat (show w - rbCounter i s.takeFree.2 > 0 by omega)
  show rbCounter i s.takeFree.2 + s.takeFree.1.toNat % (w - rbCounter i s.takeFree.2) < w
  omega

theorem burnDone_keeps {ok : Bool} {s : State} (hm : sub 1276133377 m) (h : Keeps m s0 s) :
    Keeps m s0 (burnDone ok s) := by
  unfold burnDone
  split
  · exact h
  · rename_i i v q
    extract_lets +onlyGivenNames q0 t
    have ht : Keeps m s0 t := by
      refine State.clrBit_keeps (sub.of (by decide) hm) (State.setMnt_keeps (sub.of (by decide) hm) h _ (fun b => ?_))
      exact ⟨fun j w hw => by simp at hw, fun _ h => h, fun _ h => h, fun _ => Nat.le_refl _⟩
    have hn : t.mantle.burn = none := rfl
    have hc : burnUp s0.mantle → rbCounter i t < v := fun b => (h.fuse b).1 i v q
    clear_value t
    refine keeps_ite (fun _ => ?_) (fun _ => ?_)
    · refine mntFlag_keeps (sub.of (by decide) hm) (setCounter_keeps (sub.of (by decide) hm) ht (fun b => ?_))
      exact ⟨Nat.le_of_lt (hc b), fun w hw => by rw [hn] at hw; cases hw⟩
    · refine mntFlag_keeps (sub.of (by decide) hm) (partBurn_keeps (sub.of (by decide) hm) ht (fun _ w hw => ?_))
      rw [hn] at hw
      cases hw

theorem burnDue_keeps {s : State} (hm : sub 1276133377 m) (h : Keeps m s0 s) :
    Keeps m s0 (burnDue s) := by
  unfold burnDue
  split
  · exact h
  · refine keeps_ite (fun _ => ?_) (fun _ => ?_)
    · refine burnDone_keeps (sub.of (by decide) hm) ?_
      exact h
    · exact h

theorem writeRbadv_keeps {v : Word} {s : State} (hm : sub 202391553 m) (h : Keeps m s0 s) :
    Keeps m s0 (writeRbadv v s) := by
  unfold writeRbadv
  extract_lets +onlyGivenNames i x
  refine keeps_ite (fun _ => mntRefused_keeps (sub.of (by decide) hm) h) (fun _ => ?_)
  refine keeps_ite (fun _ => h) (fun _ => ?_)
  refine keeps_ite (fun _ => mntRefused_keeps (sub.of (by decide) hm) h) (fun _ => ?_)
  refine keeps_ite (fun _ => h) (fun hx => ?_)
  refine State.setBit_keeps (sub.of (by decide) hm) (State.setMnt_keeps (sub.of (by decide) hm) h _ (fun b => ?_))
  refine ⟨fun j w hw => ?_, fusesLe.refl _⟩
  obtain ⟨rfl, rfl⟩ : i = j ∧ x = w := by simpa using hw
  exact Nat.lt_of_not_le hx

theorem recordRegions_keeps {s : State} (hm : sub 65560 m) (h : Keeps m s0 s) :
    Keeps m s0 (recordRegions s) := by
  unfold recordRegions
  extract_lets +onlyGivenNames -merge -useContext x0
  try clear_value x0
  refine jrnPut_keeps (sub.of (by decide) hm) ?_
  exact h

theorem writeMntCtl_keeps {a0 : Word} {s : State} (hm : sub 202457113 m) (h : Keeps m s0 s) :
    Keeps m s0 (writeMntCtl a0 s) := by
  unfold writeMntCtl
  extract_lets +onlyGivenNames -merge -useContext x0
  have hx0 : Keeps m s0 x0 := by
    refine keeps_ite (fun _ => ?_) (fun _ => ?_)
    · refine recordRegions_keeps (sub.of (by decide) hm) ?_
      refine State.setBit_keeps (sub.of (by decide) hm) ?_
      exact h
    · exact h
  clear_value x0
  refine keeps_ite (fun _ => ?_) (fun _ => ?_)
  · refine endUnlock_keeps (sub.of (by decide) hm) ?_
    exact hx0
  · exact hx0

theorem writeMntRgn_keeps {a0 : Nat} {a1 : Word} {s : State} (hm : sub 1 m) (h : Keeps m s0 s) :
    Keeps m s0 (writeMntRgn a0 a1 s) := by
  unfold writeMntRgn
  refine keeps_ite (fun _ => ?_) (fun _ => ?_)
  · exact h
  · refine keeps_ite (fun _ => ?_) (fun _ => ?_)
    · refine State.plainWrite_keeps (sub.of (by decide) hm) ?_
      exact h
    · refine State.plainWrite_keeps (sub.of (by decide) hm) ?_
      exact h

theorem zeroRange_keeps {a n : Nat} {s : State} (hm : sub 24 m) (h : Keeps m s0 s) : Keeps m s0 (zeroRange a n s) :=
  keeps_parts hm h (fun p hp => by cases p <;> first | rfl | exact absurd hp (by decide)) (memWf_filter _ _) rfl rfl rfl

theorem zeroRecorded_keeps {s : State} (hm : sub 24 m) (h : Keeps m s0 s) :
    Keeps m s0 (zeroRecorded s) := by
  unfold zeroRecorded
  refine keeps_foldl (fun x0 y1 hx0 => ?_) _ ?_
  · extract_lets +onlyGivenNames -merge -useContext x2 x3 x4
    try clear_value x2
    try clear_value x3
    try clear_value x4
    refine keeps_ite (fun _ => ?_) (fun _ => ?_)
    · refine zeroRange_keeps (sub.of (by decide) hm) ?_
      exact hx0
    · exact hx0
  · exact h

theorem mantleStart_keeps {a0 : Bool} {s : State} (hm : sub 201342977 m) (h : Keeps m s0 s) :
    Keeps m s0 (mantleStart a0 s) := by
  unfold mantleStart
  extract_lets +onlyGivenNames -merge -useContext x0 x1
  have hx0 : Keeps m s0 x0 := by
    refine State.setFld_keeps (sub.of (by decide) hm) ?_
    exact h
  clear_value x0
  have hx1 : Keeps m s0 x1 := by
    refine setRegWords_keeps (sub.of (by decide) hm) ?_
    exact hx0
  clear_value x1
  refine keeps_ite (fun _ => ?_) (fun _ => ?_)
  · refine setRegWords_keeps (sub.of (by decide) hm) ?_
    exact hx1
  · refine mntFlag_keeps (sub.of (by decide) hm) ?_
    refine State.setFld_keeps (sub.of (by decide) hm) ?_
    exact h

end Sys2Proof.Machine
end

