-- ==== Sys2Proof/Laws/Frame/Fabric.lean ====
section
/-!
SUPPORT. What the functions of Machine/Fabric.lean touch: one lemma each, in the terms of `Keeps`.
-/
namespace Sys2Proof.Machine

variable {m : Nat} {s0 : State}

theorem State.setCfg_keeps {s : State} {a1 : Cfg} (hm : sub 524288 m) (h : Keeps m s0 s) :
    Keeps m s0 (State.setCfg s a1) := by
  unfold State.setCfg
  refine keeps_cfg (sub.of (by decide) hm) ?_ _
  exact h

theorem writeFrames_keeps {a0 : List (Nat × List Word)} {s : State} (hm : sub 524288 m) (h : Keeps m s0 s) :
    Keeps m s0 (writeFrames a0 s) := by
  unfold writeFrames
  refine keeps_foldl (fun x0 y1 hx0 => ?_) _ ?_
  · extract_lets +onlyGivenNames -merge -useContext x2
    try clear_value x2
    refine State.setCfg_keeps (sub.of (by decide) hm) ?_
    exact hx0
  · exact h

theorem setCfgState_keeps {a0 : Nat} {s : State} (hm : sub 1 m) (h : Keeps m s0 s) :
    Keeps m s0 (setCfgState a0 s) := by
  unfold setCfgState
  refine State.setFld_keeps (sub.of (by decide) hm) ?_
  exact h

theorem loaderIdle_keeps {s : State} (hm : sub 524289 m) (h : Keeps m s0 s) :
    Keeps m s0 (loaderIdle s) := by
  unfold loaderIdle
  extract_lets +onlyGivenNames -merge -useContext x0
  try clear_value x0
  refine State.clrBit_keeps (sub.of (by decide) hm) ?_
  refine setCfgState_keeps (sub.of (by decide) hm) ?_
  refine State.setCfg_keeps (sub.of (by decide) hm) ?_
  exact h

theorem setSlv_keeps {a0 : Nat} {a1 : Nat} {s : State} (hm : sub 1 m) (h : Keeps m s0 s) :
    Keeps m s0 (setSlv a0 a1 s) := by
  unfold setSlv
  refine State.setFld_keeps (sub.of (by decide) hm) ?_
  exact h

theorem slvFlag_keeps {a0 : Nat} {a1 : Fld} {s : State} (hm : sub 201342977 m) (h : Keeps m s0 s) :
    Keeps m s0 (slvFlag a0 a1 s) := by
  unfold slvFlag
  refine State.flag_keeps (sub.of (by decide) hm) ?_
  exact h

theorem releaseSlv_keeps {a0 : Nat} {s : State} (hm : sub 1275609153 m) (h : Keeps m s0 s) :
    Keeps m s0 (releaseSlv a0 s) := by
  unfold releaseSlv
  split
  · rename_i z0 z1 e2
    have hz1 : Keeps m s0 z1 := by
      have q : _ = z1 := congrArg Prod.snd e2
      rw [← q]
      refine State.takeFree_keeps (sub.of (by decide) hm) ?_
      exact h
    extract_lets +onlyGivenNames -merge -useContext x3 x4 x5
    have hx3 : Keeps m s0 x3 := by
      refine keeps_foldl (fun x6 y7 hx6 => ?_) _ ?_
      · refine setSrcLevel_keeps (sub.of (by decide) hm) ?_
        exact hx6
      · exact hz1
    clear_value x3
    try clear_value x4
    have hx5 : Keeps m s0 x5 := by
      refine State.setCfg_keeps (sub.of (by decide) hm) ?_
      exact hx3
    clear_value x5
    refine slvFlag_keeps (sub.of (by decide) hm) ?_
    refine setSlv_keeps (sub.of (by decide) hm) ?_
    exact hx5

theorem setResult_keeps {a0 : Nat} {s : State} (hm : sub 1 m) (h : Keeps m s0 s) :
    Keeps m s0 (setResult a0 s) := by
  unfold setResult
  refine State.setFld_keeps (sub.of (by decide) hm) ?_
  exact h

theorem cfgFlag_keeps {a0 : Fld} {s : State} (hm : sub 201342977 m) (h : Keeps m s0 s) :
    Keeps m s0 (cfgFlag a0 s) := by
  unfold cfgFlag
  extract_lets +onlyGivenNames -merge -useContext x0 x1
  try clear_value x0
  try clear_value x1
  refine State.flag_keeps (sub.of (by decide) hm) ?_
  exact h

theorem applyDone_keeps {a0 : CfgLoad} {s : State} (hm : sub 1275609153 m) (h : Keeps m s0 s) :
    Keeps m s0 (applyDone a0 s) := by
  unfold applyDone
  extract_lets +onlyGivenNames -merge -useContext x0 x1 x2 x3 x4
  have hx0 : Keeps m s0 x0 := by
    refine keeps_foldl (fun x5 y6 hx5 => ?_) _ ?_
    · refine releaseSlv_keeps (sub.of (by decide) hm) ?_
      exact hx5
    · exact h
  clear_value x0
  try clear_value x1
  try clear_value x2
  have hx3 : Keeps m s0 x3 := by
    refine setRegWords_keeps (sub.of (by decide) hm) ?_
    refine State.setCfg_keeps (sub.of (by decide) hm) ?_
    exact hx0
  clear_value x3
  have hx4 : Keeps m s0 x4 := by
    refine State.setReg_keeps (sub.of (by decide) hm) ?_
    refine State.setReg_keeps (sub.of (by decide) hm) ?_
    exact hx3
  clear_value x4
  refine cfgFlag_keeps (sub.of (by decide) hm) ?_
  refine loaderIdle_keeps (sub.of (by decide) hm) ?_
  refine setResult_keeps (sub.of (by decide) hm) ?_
  exact hx4

theorem failLoad_keeps {a0 : Nat} {s : State} (hm : sub 201867265 m) (h : Keeps m s0 s) :
    Keeps m s0 (failLoad a0 s) := by
  unfold failLoad
  refine cfgFlag_keeps (sub.of (by decide) hm) ?_
  refine loaderIdle_keeps (sub.of (by decide) hm) ?_
  refine setResult_keeps (sub.of (by decide) hm) ?_
  exact h

theorem applyFault_keeps {a0 : CfgLoad} {s : State} (hm : sub 470368281 m) (h : Keeps m s0 s) :
    Keeps m s0 (applyFault a0 s) := by
  unfold applyFault
  extract_lets +onlyGivenNames -merge -useContext x0 x1
  have hx0 : Keeps m s0 x0 := by
    refine keeps_foldl (fun x2 y3 hx2 => ?_) _ ?_
    · refine slvFlag_keeps (sub.of (by decide) hm) ?_
      refine setSlv_keeps (sub.of (by decide) hm) ?_
      exact hx2
    · exact h
  clear_value x0
  have hx1 : Keeps m s0 x1 := by
    refine setMntWord_keeps (sub.of (by decide) hm) ?_
    refine State.logPoint_keeps (sub.of (by decide) hm) ?_
    exact hx0
  clear_value x1
  refine failLoad_keeps (sub.of (by decide) hm) ?_
  exact hx1

theorem applyPass_keeps {a0 : CfgLoad} {s : State} (hm : sub 1544253529 m) (h : Keeps m s0 s) :
    Keeps m s0 (applyPass a0 s) := by
  unfold applyPass
  extract_lets +onlyGivenNames -merge -useContext x0
  try clear_value x0
  split
  · extract_lets +onlyGivenNames -merge -useContext x1
    have hx1 : Keeps m s0 x1 := by
      refine writeFrames_keeps (sub.of (by decide) hm) ?_
      exact h
    clear_value x1
    refine keeps_ite (fun _ => ?_) (fun _ => ?_)
    · refine applyFault_keeps (sub.of (by decide) hm) ?_
      refine noteUes_keeps (sub.of (by decide) hm) ?_
      exact hx1
    · refine keeps_ite (fun _ => ?_) (fun _ => ?_)
      · refine applyFault_keeps (sub.of (by decide) hm) ?_
        exact hx1
      · refine applyDone_keeps (sub.of (by decide) hm) ?_
        exact hx1

theorem sleeveRelease_keeps {s : State} (hm : sub 1544253529 m) (h : Keeps m s0 s) :
    Keeps m s0 (sleeveRelease s) := by
  unfold sleeveRelease
  split
  · refine keeps_ite (fun _ => ?_) (fun _ => ?_)
    · refine applyPass_keeps (sub.of (by decide) hm) ?_
      exact h
    · exact h
  · exact h

theorem engage_keeps {a0 : Nat} {s : State} (hm : sub 1074266113 m) (h : Keeps m s0 s) :
    Keeps m s0 (engage a0 s) := by
  unfold engage
  refine keeps_ite (fun _ => ?_) (fun _ => ?_)
  · split
    · rename_i z0 z1 e2
      have hz1 : Keeps m s0 z1 := by
        have q : _ = z1 := congrArg Prod.snd e2
        rw [← q]
        refine State.takeFree_keeps (sub.of (by decide) hm) ?_
        exact h
      extract_lets +onlyGivenNames -merge -useContext x3
      try clear_value x3
      refine setSlv_keeps (sub.of (by decide) hm) ?_
      refine State.setCfg_keeps (sub.of (by decide) hm) ?_
      exact hz1
  · refine setSlv_keeps (sub.of (by decide) hm) ?_
    exact h

theorem applyStart_keeps {s : State} (hm : sub 1074266113 m) (h : Keeps m s0 s) :
    Keeps m s0 (applyStart s) := by
  unfold applyStart
  extract_lets +onlyGivenNames -merge -useContext x0 x1 x2
  try clear_value x0
  have hx1 : Keeps m s0 x1 := by
    refine keeps_ite (fun _ => ?_) (fun _ => ?_)
    · refine setCfgState_keeps (sub.of (by decide) hm) ?_
      exact h
    · exact h
  clear_value x1
  try clear_value x2
  split
  · exact h
  · refine keeps_ite (fun _ => ?_) (fun _ => ?_)
    · refine keeps_foldl (fun x3 y4 hx3 => ?_) _ ?_
      · refine engage_keeps (sub.of (by decide) hm) ?_
        exact hx3
      · refine State.setCfg_keeps (sub.of (by decide) hm) ?_
        exact hx1
    · exact hx1

theorem packetFail_keeps {a0 : Pass} {a1 : PassErr} {s : State} (hm : sub 1275609089 m) (h : Keeps m s0 s) :
    Keeps m s0 (packetFail a0 a1 s) := by
  unfold packetFail
  extract_lets +onlyGivenNames -merge -useContext x0 x1
  have hx0 : Keeps m s0 x0 := by
    refine State.setReg_keeps (sub.of (by decide) hm) ?_
    exact h
  clear_value x0
  have hx1 : Keeps m s0 x1 := by
    unfold x1
    split
    · refine State.setFld_keeps (sub.of (by decide) hm) ?_
      exact hx0
    · refine keeps_ite (fun _ => ?_) (fun _ => ?_)
      · split
        · rename_i z2 z3 e4
          have hz3 : Keeps m s0 z3 := by
            have q : _ = z3 := congrArg Prod.snd e4
            rw [← q]
            refine State.takeFree_keeps (sub.of (by decide) hm) ?_
            exact hx0
          refine State.setFld_keeps (sub.of (by decide) hm) ?_
          exact hz3
      · exact hx0
  clear_value x1
  refine failLoad_keeps (sub.of (by decide) hm) ?_
  exact hx1

theorem enterVerified_keeps {a0 : CfgLoad} {a1 : Pass} {s : State} (hm : sub 202915841 m) (h : Keeps m s0 s) :
    Keeps m s0 (enterVerified a0 a1 s) := by
  unfold enterVerified
  extract_lets +onlyGivenNames -merge -useContext x0 x1 x2 x3 x4
  try clear_value x0
  try clear_value x1
  try clear_value x2
  have hx3 : Keeps m s0 x3 := by
    refine raiseShadow_keeps (sub.of (by decide) hm) ?_
    refine setCfgState_keeps (sub.of (by decide) hm) ?_
    refine State.setCfg_keeps (sub.of (by decide) hm) ?_
    exact h
  clear_value x3
  try clear_value x4
  refine keeps_ite (fun _ => ?_) (fun _ => ?_)
  · refine cfgFlag_keeps (sub.of (by decide) hm) ?_
    exact hx3
  · exact hx3

theorem bodyCheck_keeps {a0 : CfgLoad} {s : State} (hm : sub 1276657665 m) (h : Keeps m s0 s) :
    Keeps m s0 (bodyCheck a0 s) := by
  unfold bodyCheck
  extract_lets +onlyGivenNames -merge -useContext x0 x1
  try clear_value x0
  try clear_value x1
  split
  · split
    · refine packetFail_keeps (sub.of (by decide) hm) ?_
      exact h
    · refine keeps_ite (fun _ => ?_) (fun _ => ?_)
      · refine failLoad_keeps (sub.of (by decide) hm) ?_
        exact h
      · refine keeps_ite (fun _ => ?_) (fun _ => ?_)
        · refine failLoad_keeps (sub.of (by decide) hm) ?_
          exact h
        · refine enterVerified_keeps (sub.of (by decide) hm) ?_
          exact h

theorem stageCopy_keeps {l : CfgLoad} {s : State} {x : CfgLoad × State} (hm : sub 589848 m) (h : Keeps m s0 s)
    (hx : stageCopy l s = some x) : Keeps m s0 x.2 := by
  unfold stageCopy at hx
  split at hx
  · extract_lets n t at hx
    split at hx
    · cases hx
    · have hn : Keeps m s0 t := State.put_keeps (sub.of (by decide) hm) h
      clear_value t
      rw [← Option.some.inj hx]
      exact State.setCfg_keeps (sub.of (by decide) hm) hn
  · rw [← Option.some.inj hx]
    exact h

theorem checkDone_keeps {s : State} (hm : sub 1545302041 m) (h : Keeps m s0 s) : Keeps m s0 (checkDone s) := by
  unfold checkDone
  split
  · exact h
  · refine keeps_ite (fun _ => h) (fun _ => ?_)
    extract_lets c
    refine keeps_ite (fun _ => failLoad_keeps (sub.of (by decide) hm) (noteUes_keeps (sub.of (by decide) hm) h)) (fun _ => ?_)
    refine keeps_ite (fun _ => failLoad_keeps (sub.of (by decide) hm) h) (fun _ => ?_)
    split
    · exact failLoad_keeps (sub.of (by decide) hm) (noteUes_keeps (sub.of (by decide) hm) h)
    · exact bodyCheck_keeps (sub.of (by decide) hm) (stageCopy_keeps (sub.of (by decide) hm) h ‹_›)

theorem shutPort_keeps {s : State} (hm : sub 524288 m) (h : Keeps m s0 s) :
    Keeps m s0 (shutPort s) := by
  unfold shutPort
  extract_lets +onlyGivenNames -merge -useContext x0 x1
  try clear_value x0
  try clear_value x1
  refine State.setCfg_keeps (sub.of (by decide) hm) ?_
  exact h

theorem portViol_keeps {a0 : Nat} {s : State} (hm : sub 201342977 m) (h : Keeps m s0 s) :
    Keeps m s0 (portViol a0 s) := by
  unfold portViol
  refine cfgFlag_keeps (sub.of (by decide) hm) ?_
  refine State.countUp_keeps (sub.of (by decide) hm) ?_
  refine State.setFld_keeps (sub.of (by decide) hm) ?_
  exact h

theorem portSilence_keeps {s : State} (hm : sub 201867265 m) (h : Keeps m s0 s) :
    Keeps m s0 (portSilence s) := by
  unfold portSilence
  refine keeps_ite (fun _ => ?_) (fun _ => ?_)
  · refine shutPort_keeps (sub.of (by decide) hm) ?_
    refine failLoad_keeps (sub.of (by decide) hm) ?_
    refine portViol_keeps (sub.of (by decide) hm) ?_
    exact h
  · exact h

theorem writeCuff_keeps {a0 : Nat} {a1 : Nat} {a2 : Word} {s : State} (hm : sub 201342977 m) (h : Keeps m s0 s) :
    Keeps m s0 (writeCuff a0 a1 a2 s) := by
  unfold writeCuff
  refine keeps_ite (fun _ => ?_) (fun _ => ?_)
  · refine cfgFlag_keeps (sub.of (by decide) hm) ?_
    exact h
  · refine State.plainWrite_keeps (sub.of (by decide) hm) ?_
    exact h

theorem writeFpwinHi_keeps {a0 : Nat} {a1 : Nat} {a2 : Word} {s : State} (hm : sub 1 m) (h : Keeps m s0 s) :
    Keeps m s0 (writeFpwinHi a0 a1 a2 s) := by
  unfold writeFpwinHi
  refine State.plainWrite_keeps (sub.of (by decide) hm) ?_
  exact h

theorem writeCfgCtl_keeps {a0 : Word} {s : State} (hm : sub 201867265 m) (h : Keeps m s0 s) :
    Keeps m s0 (writeCfgCtl a0 s) := by
  unfold writeCfgCtl
  extract_lets +onlyGivenNames -merge -useContext x0
  have hx0 : Keeps m s0 x0 := by
    refine State.plainWrite_keeps (sub.of (by decide) hm) ?_
    exact h
  clear_value x0
  refine keeps_ite (fun _ => ?_) (fun _ => ?_)
  · refine shutPort_keeps (sub.of (by decide) hm) ?_
    refine failLoad_keeps (sub.of (by decide) hm) ?_
    exact hx0
  · exact hx0

theorem abortLoad_keeps {s : State} (hm : sub 201867265 m) (h : Keeps m s0 s) :
    Keeps m s0 (abortLoad s) := by
  unfold abortLoad
  extract_lets +onlyGivenNames -merge -useContext x0
  try clear_value x0
  refine keeps_ite (fun _ => ?_) (fun _ => ?_)
  · refine cfgFlag_keeps (sub.of (by decide) hm) ?_
    exact h
  · refine keeps_ite (fun _ => ?_) (fun _ => ?_)
    · refine shutPort_keeps (sub.of (by decide) hm) ?_
      refine failLoad_keeps (sub.of (by decide) hm) ?_
      exact h
    · refine keeps_ite (fun _ => ?_) (fun _ => ?_)
      · exact h
      · refine failLoad_keeps (sub.of (by decide) hm) ?_
        exact h

theorem startLoadAt_keeps {a0 : Nat} {a1 : Nat} {s : State} (hm : sub 524289 m) (h : Keeps m s0 s) :
    Keeps m s0 (startLoadAt a0 a1 s) := by
  unfold startLoadAt
  extract_lets +onlyGivenNames -merge -useContext x0 x1 x2 x3
  try clear_value x0
  try clear_value x1
  try clear_value x2
  have hx3 : Keeps m s0 x3 := by
    refine State.setCfg_keeps (sub.of (by decide) hm) ?_
    exact h
  clear_value x3
  refine State.setBit_keeps (sub.of (by decide) hm) ?_
  refine setCfgState_keeps (sub.of (by decide) hm) ?_
  exact hx3

theorem startLoad_keeps {a0 : Nat} {s : State} (hm : sub 524289 m) (h : Keeps m s0 s) :
    Keeps m s0 (startLoad a0 s) := by
  unfold startLoad
  refine startLoadAt_keeps (sub.of (by decide) hm) ?_
  exact h

theorem goLoad_keeps {a0 : Nat} {s : State} (hm : sub 201867265 m) (h : Keeps m s0 s) :
    Keeps m s0 (goLoad a0 s) := by
  unfold goLoad
  refine keeps_ite (fun _ => ?_) (fun _ => ?_)
  · refine startLoad_keeps (sub.of (by decide) hm) ?_
    exact h
  · refine cfgFlag_keeps (sub.of (by decide) hm) ?_
    refine setResult_keeps (sub.of (by decide) hm) ?_
    exact h

theorem writeCfgLoad_keeps {a0 : Word} {s : State} (hm : sub 201867265 m) (h : Keeps m s0 s) :
    Keeps m s0 (writeCfgLoad a0 s) := by
  unfold writeCfgLoad
  extract_lets +onlyGivenNames -merge -useContext x0 x1 x2
  try clear_value x0
  have hx1 : Keeps m s0 x1 := by
    refine State.setFld_keeps (sub.of (by decide) hm) ?_
    exact h
  clear_value x1
  have hx2 : Keeps m s0 x2 := by
    refine keeps_ite (fun _ => ?_) (fun _ => ?_)
    · refine abortLoad_keeps (sub.of (by decide) hm) ?_
      exact hx1
    · exact hx1
  clear_value x2
  refine keeps_ite (fun _ => ?_) (fun _ => ?_)
  · refine goLoad_keeps (sub.of (by decide) hm) ?_
    exact hx2
  · exact hx2

theorem writeApplyAt_keeps {a0 : Nat} {a1 : Word} {s : State} (hm : sub 1 m) (h : Keeps m s0 s) :
    Keeps m s0 (writeApplyAt a0 a1 s) := by
  unfold writeApplyAt
  refine keeps_ite (fun _ => ?_) (fun _ => ?_)
  · exact h
  · refine State.plainWrite_keeps (sub.of (by decide) hm) ?_
    exact h

theorem setPort_keeps {a0 : CfgPort} {s : State} (hm : sub 524288 m) (h : Keeps m s0 s) :
    Keeps m s0 (setPort a0 s) := by
  unfold setPort
  extract_lets +onlyGivenNames -merge -useContext x0
  try clear_value x0
  refine State.setCfg_keeps (sub.of (by decide) hm) ?_
  exact h

theorem takeByte_keeps {s : State} {a1 : Byte} (hm : sub 201932825 m) (h : Keeps m s0 s) :
    Keeps m s0 (takeByte s a1) := by
  unfold takeByte
  extract_lets +onlyGivenNames -merge -useContext x0 x1 x2 x3 x4
  have hx0 : Keeps m s0 x0 := by
    refine keeps_ite (fun _ => ?_) (fun _ => ?_)
    · refine State.setFld_keeps (sub.of (by decide) hm) ?_
      refine setCfgState_keeps (sub.of (by decide) hm) ?_
      exact h
    · exact h
  clear_value x0
  try clear_value x1
  have hx2 : Keeps m s0 x2 := by
    refine State.setFld_keeps (sub.of (by decide) hm) ?_
    refine State.put_keeps (sub.of (by decide) hm) ?_
    exact hx0
  clear_value x2
  try clear_value x3
  have hx4 : Keeps m s0 x4 := by
    refine setPort_keeps (sub.of (by decide) hm) ?_
    exact hx2
  clear_value x4
  refine keeps_ite (fun _ => ?_) (fun _ => ?_)
  · exact h
  · refine keeps_ite (fun _ => ?_) (fun _ => ?_)
    · refine shutPort_keeps (sub.of (by decide) hm) ?_
      refine failLoad_keeps (sub.of (by decide) hm) ?_
      refine portViol_keeps (sub.of (by decide) hm) ?_
      exact hx4
    · refine keeps_ite (fun _ => ?_) (fun _ => ?_)
      · refine startLoad_keeps (sub.of (by decide) hm) ?_
        refine shutPort_keeps (sub.of (by decide) hm) ?_
        refine cfgFlag_keeps (sub.of (by decide) hm) ?_
        exact hx4
      · exact hx4

theorem portData_keeps {a0 : List Byte} {s : State} (hm : sub 201932825 m) (h : Keeps m s0 s) :
    Keeps m s0 (portData a0 s) := by
  unfold portData
  refine keeps_ite (fun _ => ?_) (fun _ => ?_)
  · exact h
  · refine keeps_ite (fun _ => ?_) (fun _ => ?_)
    · refine keeps_foldl (fun x0 y1 hx0 => ?_) _ ?_
      · refine takeByte_keeps (sub.of (by decide) hm) ?_
        exact hx0
      · exact h
    · refine portViol_keeps (sub.of (by decide) hm) ?_
      exact h

theorem csLow_keeps {s : State} (hm : sub 524288 m) (h : Keeps m s0 s) :
    Keeps m s0 (csLow s) := by
  unfold csLow
  extract_lets +onlyGivenNames -merge -useContext x0
  try clear_value x0
  refine keeps_ite (fun _ => ?_) (fun _ => ?_)
  · exact h
  · refine setPort_keeps (sub.of (by decide) hm) ?_
    exact h

theorem beginPeriod_keeps {a0 : Bool} {s : State} (hm : sub 524288 m) (h : Keeps m s0 s) :
    Keeps m s0 (beginPeriod a0 s) := by
  unfold beginPeriod
  extract_lets +onlyGivenNames -merge -useContext x0
  try clear_value x0
  refine setPort_keeps (sub.of (by decide) hm) ?_
  exact h

theorem qspiData_keeps {a0 : List Byte} {s : State} (hm : sub 201932825 m) (h : Keeps m s0 s) :
    Keeps m s0 (qspiData a0 s) := by
  unfold qspiData
  extract_lets +onlyGivenNames -merge -useContext x0
  have hx0 : Keeps m s0 x0 := by
    refine csLow_keeps (sub.of (by decide) hm) ?_
    exact h
  clear_value x0
  refine keeps_ite (fun _ => ?_) (fun _ => ?_)
  · exact h
  · refine portData_keeps (sub.of (by decide) hm) ?_
    refine keeps_ite (fun _ => ?_) (fun _ => ?_)
    · exact hx0
    · refine beginPeriod_keeps (sub.of (by decide) hm) ?_
      exact hx0

theorem fabricRequest_keeps {a0 : Nat} {a1 : Nat} {a2 : Bool} {a3 : Nat} {a4 : List Byte} {s : State} (hm : sub 472085535 m) (h : Keeps m s0 s) :
    Keeps m s0 (fabricRequest a0 a1 a2 a3 a4 s) := by
  unfold fabricRequest
  extract_lets +onlyGivenNames -merge -useContext x0 x1
  try clear_value x0
  have hx1 : Keeps m s0 x1 := by
    refine noteTurned_keeps (sub.of (by decide) hm) ?_
    exact h
  clear_value x1
  refine keeps_ite (fun _ => ?_) (fun _ => ?_)
  · exact h
  · refine keeps_ite (fun _ => ?_) (fun _ => ?_)
    · refine keeps_ite (fun _ => ?_) (fun _ => ?_)
      · refine putPiece_keeps (sub.of (by decide) hm) ?_
        exact h
      · refine noteUes_keeps (sub.of (by decide) hm) ?_
        exact h
    · refine slvFlag_keeps (sub.of (by decide) hm) ?_
      refine State.setFld_keeps (sub.of (by decide) hm) ?_
      exact hx1

theorem qspiUnknown_keeps {s : State} (hm : sub 201867265 m) (h : Keeps m s0 s) :
    Keeps m s0 (qspiUnknown s) := by
  unfold qspiUnknown
  extract_lets +onlyGivenNames -merge -useContext x0
  have hx0 : Keeps m s0 x0 := by
    refine csLow_keeps (sub.of (by decide) hm) ?_
    exact h
  clear_value x0
  refine keeps_ite (fun _ => ?_) (fun _ => ?_)
  · exact h
  · refine keeps_ite (fun _ => ?_) (fun _ => ?_)
    · exact hx0
    · refine portViol_keeps (sub.of (by decide) hm) ?_
      refine beginPeriod_keeps (sub.of (by decide) hm) ?_
      exact hx0

theorem cueOutput_keeps {a0 : Nat} {a1 : Bool} {s : State} (hm : sub 201343041 m) (h : Keeps m s0 s) :
    Keeps m s0 (cueOutput a0 a1 s) := by
  unfold cueOutput
  refine keeps_ite (fun _ => ?_) (fun _ => ?_)
  · refine sourceLevel_keeps (sub.of (by decide) hm) ?_
    exact h
  · exact h

theorem parallelWord_keeps {a0 : BitVec 16} {a1 : Bool} {s : State} (hm : sub 201932825 m) (h : Keeps m s0 s) :
    Keeps m s0 (parallelWord a0 a1 s) := by
  unfold parallelWord
  extract_lets +onlyGivenNames -merge -useContext x0 x1
  have hx0 : Keeps m s0 x0 := by
    refine csLow_keeps (sub.of (by decide) hm) ?_
    exact h
  clear_value x0
  have hx1 : Keeps m s0 x1 := by
    refine portViol_keeps (sub.of (by decide) hm) ?_
    exact hx0
  clear_value x1
  refine keeps_ite (fun _ => ?_) (fun _ => ?_)
  · exact h
  · refine keeps_ite (fun _ => ?_) (fun _ => ?_)
    · refine portData_keeps (sub.of (by decide) hm) ?_
      exact hx0
    · refine keeps_ite (fun _ => ?_) (fun _ => ?_)
      · exact hx0
      · refine keeps_ite (fun _ => ?_) (fun _ => ?_)
        · refine shutPort_keeps (sub.of (by decide) hm) ?_
          refine failLoad_keeps (sub.of (by decide) hm) ?_
          exact hx1
        · exact hx1

theorem qspiStatus_keeps {s : State} (hm : sub 524288 m) (h : Keeps m s0 s) :
    Keeps m s0 (qspiStatus s) := by
  unfold qspiStatus
  extract_lets +onlyGivenNames -merge -useContext x0
  have hx0 : Keeps m s0 x0 := by
    refine csLow_keeps (sub.of (by decide) hm) ?_
    exact h
  clear_value x0
  refine keeps_ite (fun _ => ?_) (fun _ => ?_)
  · exact h
  · refine keeps_ite (fun _ => ?_) (fun _ => ?_)
    · exact hx0
    · refine beginPeriod_keeps (sub.of (by decide) hm) ?_
      exact hx0

theorem csRise_keeps {a0 : Bool} {s : State} (hm : sub 201867265 m) (h : Keeps m s0 s) :
    Keeps m s0 (csRise a0 s) := by
  unfold csRise
  extract_lets +onlyGivenNames -merge -useContext x0 x1
  try clear_value x0
  have hx1 : Keeps m s0 x1 := by
    refine setPort_keeps (sub.of (by decide) hm) ?_
    exact h
  clear_value x1
  refine keeps_ite (fun _ => ?_) (fun _ => ?_)
  · exact h
  · refine keeps_ite (fun _ => ?_) (fun _ => ?_)
    · refine portViol_keeps (sub.of (by decide) hm) ?_
      exact hx1
    · exact hx1

end Sys2Proof.Machine
end

