-- ==== Sys2Proof/Laws/Frame/LineTime.lean ====
section
/-!
SUPPORT. What the functions of Machine/LineTime.lean touch: one lemma each, in the terms of `Keeps`.
-/
namespace Sys2Proof.Machine

variable {m : Nat} {s0 : State}

theorem withClockBack_keeps {a0 : State → State} {s : State} (hm : sub 1543534081 m) (hf0 : ∀ x, Keeps m s0 x → Keeps m s0 (a0 x)) (h : Keeps m s0 s) :
    Keeps m s0 (withClockBack a0 s) := by
  unfold withClockBack
  extract_lets +onlyGivenNames -merge -useContext x0
  have hx0 : Keeps m s0 x0 := by
    refine hf0 _ ?_
    exact h
  clear_value x0
  refine keeps_ite (fun _ => ?_) (fun _ => ?_)
  · refine drvClockBack_keeps (sub.of (by decide) hm) ?_
    refine pgClockBack_keeps (sub.of (by decide) hm) ?_
    exact hx0
  · exact hx0

theorem letGo_keeps {s : State} (hm : sub 469792257 m) (h : Keeps m s0 s) :
    Keeps m s0 (letGo s) := by
  unfold letGo
  refine markAllOpen_keeps (sub.of (by decide) hm) ?_
  refine pgClockLost_keeps (sub.of (by decide) hm) ?_
  refine drvClockLost_keeps (sub.of (by decide) hm) ?_
  exact h

theorem expireHoldover_keeps {s : State} (hm : sub 469792289 m) (h : Keeps m s0 s) :
    Keeps m s0 (expireHoldover s) := by
  unfold expireHoldover
  extract_lets +onlyGivenNames -merge -useContext x0 x1 x2 x3
  try clear_value x0
  have hx1 : Keeps m s0 x1 := by
    refine State.setClock_keeps (sub.of (by decide) hm) ?_
    exact h
  clear_value x1
  have hx2 : Keeps m s0 x2 := by
    refine State.setBit_keeps (sub.of (by decide) hm) ?_
    refine setSelect_keeps (sub.of (by decide) hm) ?_
    exact hx1
  clear_value x2
  have hx3 : Keeps m s0 x3 := by
    refine clkFlag_keeps (sub.of (by decide) hm) ?_
    exact hx2
  clear_value x3
  refine keeps_ite (fun _ => ?_) (fun _ => ?_)
  · refine letGo_keeps (sub.of (by decide) hm) ?_
    refine State.logFault_keeps (sub.of (by decide) hm) ?_
    exact hx3
  · exact h

theorem setLineTime_keeps {a0 : Nat} {s : State} (hm : sub 32 m) (h : Keeps m s0 s) :
    Keeps m s0 (setLineTime a0 s) := by
  unfold setLineTime
  extract_lets +onlyGivenNames -merge -useContext x0
  try clear_value x0
  refine State.setClock_keeps (sub.of (by decide) hm) ?_
  exact h

theorem loadLineTime_keeps {s : State} (hm : sub 33 m) (h : Keeps m s0 s) :
    Keeps m s0 (loadLineTime s) := by
  unfold loadLineTime
  extract_lets +onlyGivenNames -merge -useContext x0 x1
  try clear_value x0
  have hx1 : Keeps m s0 x1 := by
    refine State.clrBit_keeps (sub.of (by decide) hm) ?_
    refine State.setClock_keeps (sub.of (by decide) hm) ?_
    exact h
  clear_value x1
  refine keeps_ite (fun _ => ?_) (fun _ => ?_)
  · refine keeps_ite (fun _ => ?_) (fun _ => ?_)
    · refine State.setBit_keeps (sub.of (by decide) hm) ?_
      exact hx1
    · refine setLineTime_keeps (sub.of (by decide) hm) ?_
      exact hx1
  · exact h

end Sys2Proof.Machine
end

