-- ==== Sys2Proof/Laws/Frame/Encoder.lean ====
section
/-!
SUPPORT. What the functions of Machine/Encoder.lean touch: one lemma each, in the terms of `Keeps`.
-/
namespace Sys2Proof.Machine

variable {m : Nat} {s0 : State}

theorem readEncPos_keeps {a0 : Req} {a1 : Nat} {s : State} (hm : sub 2 m) (h : Keeps m s0 s) :
    Keeps m s0 (readEncPos a0 a1 s).2 := by
  unfold readEncPos
  extract_lets +onlyGivenNames -merge -useContext x0
  try clear_value x0
  dsimp -zeta only
  refine State.setPreg_keeps (sub.of (by decide) hm) ?_
  exact h

theorem encFlag_keeps {a0 : Nat} {a1 : Fld} {s : State} (hm : sub 201342977 m) (h : Keeps m s0 s) :
    Keeps m s0 (encFlag a0 a1 s) := by
  unfold encFlag
  refine State.flag_keeps (sub.of (by decide) hm) ?_
  exact h

theorem writeEncPins_keeps {a0 : Nat} {a1 : Word} {s : State} (hm : sub 201342977 m) (h : Keeps m s0 s) :
    Keeps m s0 (writeEncPins a0 a1 s) := by
  unfold writeEncPins
  refine keeps_ite (fun _ => ?_) (fun _ => ?_)
  · refine encFlag_keeps (sub.of (by decide) hm) ?_
    exact h
  · refine State.plainWrite_keeps (sub.of (by decide) hm) ?_
    exact h

theorem writeMatch_keeps {a0 : Nat} {a1 : Nat} {a2 : Nat} {a3 : Word} {s : State} (hm : sub 129 m) (h : Keeps m s0 s) :
    Keeps m s0 (writeMatch a0 a1 a2 a3 s) := by
  unfold writeMatch
  extract_lets +onlyGivenNames -merge -useContext x0 x1 x2
  try clear_value x0
  try clear_value x1
  have hx2 : Keeps m s0 x2 := by
    refine keeps_ite (fun _ => ?_) (fun _ => ?_)
    · refine State.setEnc_keeps (sub.of (by decide) hm) ?_
      exact h
    · exact h
  clear_value x2
  refine State.plainWrite_keeps (sub.of (by decide) hm) ?_
  exact hx2

theorem writeEncCtl_keeps {a0 : Nat} {a1 : Word} {s : State} (hm : sub 201343105 m) (h : Keeps m s0 s) :
    Keeps m s0 (writeEncCtl a0 a1 s) := by
  unfold writeEncCtl
  extract_lets +onlyGivenNames -merge -useContext x0 x1 x2 x3 x4 x5 x6 x7 x8 x9 x10 x11
  try clear_value x0
  try clear_value x1
  try clear_value x2
  try clear_value x3
  have hx4 : Keeps m s0 x4 := by
    refine State.plainWrite_keeps (sub.of (by decide) hm) ?_
    exact h
  clear_value x4
  try clear_value x5
  have hx6 : Keeps m s0 x6 := by
    refine keeps_ite (fun _ => ?_) (fun _ => ?_)
    · refine State.setEnc_keeps (sub.of (by decide) hm) ?_
      exact hx4
    · exact hx4
  clear_value x6
  try clear_value x7
  try clear_value x8
  try clear_value x9
  try clear_value x10
  try clear_value x11
  refine keeps_ite (fun _ => ?_) (fun _ => ?_)
  · exact hx6
  · refine keeps_ite (fun _ => ?_) (fun _ => ?_)
    · refine encFlag_keeps (sub.of (by decide) hm) ?_
      refine State.clrBit_keeps (sub.of (by decide) hm) ?_
      exact hx6
    · refine keeps_ite (fun _ => ?_) (fun _ => ?_)
      · refine State.setEnc_keeps (sub.of (by decide) hm) ?_
        exact hx6
      · refine keeps_ite (fun _ => ?_) (fun _ => ?_)
        · refine State.setEnc_keeps (sub.of (by decide) hm) ?_
          exact hx6
        · exact hx6

theorem encLoad_keeps {a0 : Nat} {s : State} (hm : sub 128 m) (h : Keeps m s0 s) :
    Keeps m s0 (encLoad a0 s) := by
  unfold encLoad
  refine keeps_ite (fun _ => ?_) (fun _ => ?_)
  · refine State.setEnc_keeps (sub.of (by decide) hm) ?_
    exact h
  · exact h

theorem encStop_keeps {a0 : Nat} {s : State} (hm : sub 128 m) (h : Keeps m s0 s) :
    Keeps m s0 (encStop a0 s) := by
  unfold encStop
  extract_lets +onlyGivenNames -merge -useContext x0
  try clear_value x0
  refine keeps_ite (fun _ => ?_) (fun _ => ?_)
  · refine State.setEnc_keeps (sub.of (by decide) hm) ?_
    exact h
  · exact h

theorem setMatchValue_keeps {a0 : Nat} {a1 : Nat} {a2 : Nat} {s : State} (hm : sub 1 m) (h : Keeps m s0 s) :
    Keeps m s0 (setMatchValue a0 a1 a2 s) := by
  unfold setMatchValue
  refine State.setReg64_keeps (sub.of (by decide) hm) ?_
  exact h

theorem encMatch_keeps {a0 : Nat} {a1 : Nat} {s : State} (hm : sub 201343169 m) (h : Keeps m s0 s) :
    Keeps m s0 (encMatch a0 a1 s) := by
  unfold encMatch
  extract_lets +onlyGivenNames -merge -useContext x0 x1 x2 x3 x4 x5
  try clear_value x0
  try clear_value x1
  try clear_value x2
  try clear_value x3
  have hx4 : Keeps m s0 x4 := by
    refine State.setEnc_keeps (sub.of (by decide) hm) ?_
    refine setMatchValue_keeps (sub.of (by decide) hm) ?_
    exact h
  clear_value x4
  have hx5 : Keeps m s0 x5 := by
    refine keeps_ite (fun _ => ?_) (fun _ => ?_)
    · refine keeps_ite (fun _ => ?_) (fun _ => ?_)
      · refine encFlag_keeps (sub.of (by decide) hm) ?_
        exact hx4
      · exact hx4
    · refine State.setEnc_keeps (sub.of (by decide) hm) ?_
      refine State.clrBit_keeps (sub.of (by decide) hm) ?_
      exact h
  clear_value x5
  refine keeps_ite (fun _ => ?_) (fun _ => ?_)
  · exact h
  · refine sourceEvent_keeps (sub.of (by decide) hm) ?_
    exact hx5

theorem encCount_keeps {a0 : Nat} {s : State} (hm : sub 201343105 m) (h : Keeps m s0 s) :
    Keeps m s0 (encCount a0 s) := by
  unfold encCount
  extract_lets +onlyGivenNames -merge -useContext x0 x1
  try clear_value x0
  have hx1 : Keeps m s0 x1 := by
    refine State.setEnc_keeps (sub.of (by decide) hm) ?_
    exact h
  clear_value x1
  split
  · exact h
  · refine encFlag_keeps (sub.of (by decide) hm) ?_
    refine State.countUp_keeps (sub.of (by decide) hm) ?_
    refine State.setReg64_keeps (sub.of (by decide) hm) ?_
    refine State.setEnc_keeps (sub.of (by decide) hm) ?_
    exact h
  · refine keeps_ite (fun _ => ?_) (fun _ => ?_)
    · refine encFlag_keeps (sub.of (by decide) hm) ?_
      exact hx1
    · exact hx1

theorem encIndex_keeps {a0 : Nat} {s : State} (hm : sub 201343105 m) (h : Keeps m s0 s) :
    Keeps m s0 (encIndex a0 s) := by
  unfold encIndex
  extract_lets +onlyGivenNames -merge -useContext x0 x1 x2
  try clear_value x0
  try clear_value x1
  have hx2 : Keeps m s0 x2 := by
    refine State.setEnc_keeps (sub.of (by decide) hm) ?_
    exact h
  clear_value x2
  refine keeps_ite (fun _ => ?_) (fun _ => ?_)
  · exact h
  · refine keeps_ite (fun _ => ?_) (fun _ => ?_)
    · refine encFlag_keeps (sub.of (by decide) hm) ?_
      refine State.setReg_keeps (sub.of (by decide) hm) ?_
      exact hx2
    · exact hx2

theorem encSample_keeps {a0 : Nat} {a1 : Bool} {a2 : Nat} {s : State} (hm : sub 128 m) (h : Keeps m s0 s) :
    Keeps m s0 (encSample a0 a1 a2 s) := by
  unfold encSample
  extract_lets +onlyGivenNames -merge -useContext x0 x1 x2
  try clear_value x0
  try clear_value x1
  try clear_value x2
  refine State.setEnc_keeps (sub.of (by decide) hm) ?_
  exact h

theorem encTick_keeps {a0 : Nat} {s : State} (hm : sub 128 m) (h : Keeps m s0 s) :
    Keeps m s0 (encTick a0 s) := by
  unfold encTick
  extract_lets +onlyGivenNames -merge -useContext x0 x1 x2 x3
  try clear_value x0
  have hx1 : Keeps m s0 x1 := by
    refine State.setEnc_keeps (sub.of (by decide) hm) ?_
    exact h
  clear_value x1
  have hx2 : Keeps m s0 x2 := by
    refine encSample_keeps (sub.of (by decide) hm) ?_
    exact hx1
  clear_value x2
  try clear_value x3
  refine keeps_ite (fun _ => ?_) (fun _ => ?_)
  · exact hx1
  · refine State.setEnc_keeps (sub.of (by decide) hm) ?_
    exact hx2

theorem tickEncs_keeps {s : State} (hm : sub 128 m) (h : Keeps m s0 s) :
    Keeps m s0 (tickEncs s) := by
  unfold tickEncs
  refine keeps_foldl (fun x0 y1 hx0 => ?_) _ ?_
  · refine encTick_keeps (sub.of (by decide) hm) ?_
    exact hx0
  · exact h

theorem encEdge_keeps {a0 : Nat} {a1 : Nat} {s : State} (hm : sub 128 m) (h : Keeps m s0 s) :
    Keeps m s0 (encEdge a0 a1 s) := by
  unfold encEdge
  refine keeps_foldl (fun x0 y1 hx0 => ?_) _ ?_
  · refine encSample_keeps (sub.of (by decide) hm) ?_
    exact hx0
  · exact h

theorem lineIoEdge_keeps {a0 : Nat} {a1 : Option Int} {a2 : Nat} {s : State} (hm : sub 1275085249 m) (h : Keeps m s0 s) :
    Keeps m s0 (lineIoEdge a0 a1 a2 s) := by
  unfold lineIoEdge
  extract_lets +onlyGivenNames -merge -useContext x0
  have hx0 : Keeps m s0 x0 := by
    refine encEdge_keeps (sub.of (by decide) hm) ?_
    refine relevel_keeps (sub.of (by decide) hm) ?_
    refine setPad_keeps (sub.of (by decide) hm) ?_
    exact h
  clear_value x0
  refine sourceLevel_keeps (sub.of (by decide) hm) ?_
  exact hx0

end Sys2Proof.Machine
end

