-- ==== Sys2Proof/Laws/Frame/Sense.lean ====
section
/-!
SUPPORT. What the functions of Machine/Sense.lean touch: one lemma each, in the terms of `Keeps`.
-/
namespace Sys2Proof.Machine

variable {m : Nat} {s0 : State}

theorem readFast_keeps {a0 : Nat} {a1 : Nat} {s : State} (hm : sub 0 m) (h : Keeps m s0 s) :
    Keeps m s0 (readFast a0 a1 s).2 := by
  unfold readFast
  extract_lets +onlyGivenNames -merge -useContext x0
  try clear_value x0
  dsimp -zeta only
  exact h

theorem readLastStamp_keeps {a0 : Req} {a1 : Nat} {a2 : Nat} {s : State} (hm : sub 2 m) (h : Keeps m s0 s) :
    Keeps m s0 (readLastStamp a0 a1 a2 s).2 := by
  unfold readLastStamp
  dsimp -zeta only
  refine State.setPreg_keeps (sub.of (by decide) hm) ?_
  exact h

theorem windowOpen_keeps {a0 : Nat} {a1 : Nat} {s : State} (hm : sub 2048 m) (h : Keeps m s0 s) :
    Keeps m s0 (windowOpen a0 a1 s) := by
  unfold windowOpen
  extract_lets +onlyGivenNames -merge -useContext x0 x1
  try clear_value x0
  try clear_value x1
  refine keeps_ite (fun _ => ?_) (fun _ => ?_)
  · refine State.setDch_keeps (sub.of (by decide) hm) ?_
    exact h
  · exact h

theorem dceFlag_keeps {a0 : Nat} {a1 : Nat} {a2 : Fld} {s : State} (hm : sub 201342977 m) (h : Keeps m s0 s) :
    Keeps m s0 (dceFlag a0 a1 a2 s) := by
  unfold dceFlag
  refine State.flag_keeps (sub.of (by decide) hm) ?_
  exact h

theorem windowDone_keeps {a0 : Nat} {a1 : Nat} {s : State} (hm : sub 201345025 m) (h : Keeps m s0 s) :
    Keeps m s0 (windowDone a0 a1 s) := by
  unfold windowDone
  extract_lets +onlyGivenNames -merge -useContext x0 x1
  try clear_value x0
  try clear_value x1
  split
  · exact h
  · extract_lets +onlyGivenNames -merge -useContext x2 x3
    try clear_value x2
    have hx3 : Keeps m s0 x3 := by
      refine State.setDch_keeps (sub.of (by decide) hm) ?_
      exact h
    clear_value x3
    refine keeps_ite (fun _ => ?_) (fun _ => ?_)
    · exact h
    · refine dceFlag_keeps (sub.of (by decide) hm) ?_
      refine State.setReg_keeps (sub.of (by decide) hm) ?_
      exact hx3

theorem dropRec_keeps {a0 : Nat} {a1 : Nat} {s : State} (hm : sub 2049 m) (h : Keeps m s0 s) :
    Keeps m s0 (dropRec a0 a1 s) := by
  unfold dropRec
  extract_lets +onlyGivenNames -merge -useContext x0 x1
  try clear_value x0
  try clear_value x1
  refine State.setDch_keeps (sub.of (by decide) hm) ?_
  refine State.countUp_keeps (sub.of (by decide) hm) ?_
  exact h

theorem bufOverrun_keeps {a0 : Nat} {s : State} (hm : sub 201342977 m) (h : Keeps m s0 s) :
    Keeps m s0 (bufOverrun a0 s) := by
  unfold bufOverrun
  refine keeps_foldl (fun x0 y1 hx0 => ?_) _ ?_
  · refine State.raiseIf_keeps (sub.of (by decide) hm) ?_
    exact hx0
  · refine State.setBit_keeps (sub.of (by decide) hm) ?_
    exact h

theorem bufferRec_keeps {a0 : Nat} {a1 : DceRec} {s : State} (hm : sub 201345025 m) (h : Keeps m s0 s) :
    Keeps m s0 (bufferRec a0 a1 s) := by
  unfold bufferRec
  extract_lets +onlyGivenNames -merge -useContext x0 x1
  try clear_value x0
  try clear_value x1
  refine keeps_ite (fun _ => ?_) (fun _ => ?_)
  · refine bufOverrun_keeps (sub.of (by decide) hm) ?_
    refine dropRec_keeps (sub.of (by decide) hm) ?_
    exact h
  · refine keeps_dce (sub.of (by decide) hm) ?_ _
    exact h

theorem emitRecord_keeps {a0 : Nat} {a1 : Nat} {a2 : DceBound} {a3 : Word} {a4 : Nat} {s : State} (hm : sub 201345025 m) (h : Keeps m s0 s) :
    Keeps m s0 (emitRecord a0 a1 a2 a3 a4 s) := by
  unfold emitRecord
  extract_lets +onlyGivenNames -merge -useContext x0 x1
  try clear_value x0
  try clear_value x1
  refine bufferRec_keeps (sub.of (by decide) hm) ?_
  exact h

theorem dceOutput_keeps {a0 : Nat} {a1 : Nat} {s : State} (hm : sub 201345025 m) (h : Keeps m s0 s) :
    Keeps m s0 (dceOutput a0 a1 s) := by
  unfold dceOutput
  extract_lets +onlyGivenNames -merge -useContext x0 x1
  try clear_value x0
  try clear_value x1
  split
  · exact h
  · extract_lets +onlyGivenNames -merge -useContext x2 x3 x4 x5
    try clear_value x2
    try clear_value x3
    try clear_value x4
    try clear_value x5
    refine keeps_ite (fun _ => ?_) (fun _ => ?_)
    · exact h
    · split
      · split
        · split
          · extract_lets +onlyGivenNames -merge -useContext x6 x7 x8 x9 x10 x11 x12
            try clear_value x6
            have hx7 : Keeps m s0 x7 := by
              refine State.setDch_keeps (sub.of (by decide) hm) ?_
              exact h
            clear_value x7
            have hx8 : Keeps m s0 x8 := by
              refine State.setReg64_keeps (sub.of (by decide) hm) ?_
              refine State.setReg_keeps (sub.of (by decide) hm) ?_
              exact hx7
            clear_value x8
            have hx9 : Keeps m s0 x9 := by
              refine State.putBit_keeps (sub.of (by decide) hm) ?_
              exact hx8
            clear_value x9
            have hx10 : Keeps m s0 x10 := by
              refine keeps_ite (fun _ => ?_) (fun _ => ?_)
              · refine dceFlag_keeps (sub.of (by decide) hm) ?_
                exact hx9
              · exact hx9
            clear_value x10
            have hx11 : Keeps m s0 x11 := by
              refine keeps_ite (fun _ => ?_) (fun _ => ?_)
              · refine dceFlag_keeps (sub.of (by decide) hm) ?_
                exact hx10
              · exact hx10
            clear_value x11
            have hx12 : Keeps m s0 x12 := by
              refine keeps_ite (fun _ => ?_) (fun _ => ?_)
              · refine dceFlag_keeps (sub.of (by decide) hm) ?_
                exact hx11
              · exact hx11
            clear_value x12
            refine keeps_ite (fun _ => ?_) (fun _ => ?_)
            · refine emitRecord_keeps (sub.of (by decide) hm) ?_
              exact hx12
            · exact hx12

theorem latchWindow_keeps {a0 : Nat} {s : State} (hm : sub 2048 m) (h : Keeps m s0 s) :
    Keeps m s0 (latchWindow a0 s) := by
  unfold latchWindow
  extract_lets +onlyGivenNames -merge -useContext x0
  try clear_value x0
  refine State.setDch_keeps (sub.of (by decide) hm) ?_
  exact h

theorem windowClose_keeps {a0 : Nat} {a1 : Nat} {s : State} (hm : sub 2048 m) (h : Keeps m s0 s) :
    Keeps m s0 (windowClose a0 a1 s) := by
  unfold windowClose
  extract_lets +onlyGivenNames -merge -useContext x0 x1
  try clear_value x0
  try clear_value x1
  refine keeps_ite (fun _ => ?_) (fun _ => ?_)
  · refine State.setDch_keeps (sub.of (by decide) hm) ?_
    exact h
  · exact h

theorem publishFast_keeps {a0 : Nat} {a1 : Nat} {s : State} (hm : sub 201345025 m) (h : Keeps m s0 s) :
    Keeps m s0 (publishFast a0 a1 s) := by
  unfold publishFast
  extract_lets +onlyGivenNames -merge -useContext x0 x1
  try clear_value x0
  try clear_value x1
  split
  · exact h
  · refine keeps_ite (fun _ => ?_) (fun _ => ?_)
    · exact h
    · split
      · extract_lets +onlyGivenNames -merge -useContext x2
        have hx2 : Keeps m s0 x2 := by
          refine State.setDch_keeps (sub.of (by decide) hm) ?_
          exact h
        clear_value x2
        refine keeps_ite (fun _ => ?_) (fun _ => ?_)
        · refine dceFlag_keeps (sub.of (by decide) hm) ?_
          exact hx2
        · exact hx2

theorem noteCode_keeps {a0 : Nat} {a1 : Int} {s : State} (hm : sub 2048 m) (h : Keeps m s0 s) :
    Keeps m s0 (noteCode a0 a1 s) := by
  unfold noteCode
  extract_lets +onlyGivenNames -merge -useContext x0 x1
  try clear_value x0
  try clear_value x1
  refine keeps_ite (fun _ => ?_) (fun _ => ?_)
  · refine State.setDch_keeps (sub.of (by decide) hm) ?_
    exact h
  · refine State.setDch_keeps (sub.of (by decide) hm) ?_
    exact h

theorem takeCode_keeps {a0 : Nat} {a1 : Nat} {a2 : Int} {s : State} (hm : sub 1073743872 m) (h : Keeps m s0 s) :
    Keeps m s0 (takeCode a0 a1 a2 s) := by
  unfold takeCode
  extract_lets +onlyGivenNames -merge -useContext x0 x1
  try clear_value x0
  try clear_value x1
  split
  · rename_i z2 z3 e4
    have hz3 : Keeps m s0 z3 := by
      have q : _ = z3 := congrArg Prod.snd e4
      rw [← q]
      refine keeps_ite2 (fun _ => ?_) (fun _ => ?_)
      · refine State.takeFree_keeps (sub.of (by decide) hm) ?_
        exact h
      · dsimp -zeta only
        exact h
    extract_lets +onlyGivenNames -merge -useContext x5 x6 x7 x8 x9 x10
    try clear_value x5
    try clear_value x6
    try clear_value x7
    try clear_value x8
    try clear_value x9
    try clear_value x10
    split
    · extract_lets +onlyGivenNames -merge -useContext x11
      try clear_value x11
      split
      · extract_lets +onlyGivenNames -merge -useContext x12
        try clear_value x12
        refine State.setDch_keeps (sub.of (by decide) hm) ?_
        exact hz3

theorem convEdge_keeps {a0 : Nat} {a1 : Nat} {a2 : Int} {s : State} (hm : sub 1275087873 m) (h : Keeps m s0 s) :
    Keeps m s0 (convEdge a0 a1 a2 s) := by
  unfold convEdge
  extract_lets +onlyGivenNames -merge -useContext x0 x1 x2
  try clear_value x0
  try clear_value x1
  have hx2 : Keeps m s0 x2 := by
    refine noteCode_keeps (sub.of (by decide) hm) ?_
    refine modEmit_keeps (sub.of (by decide) hm) ?_
    refine publishFast_keeps (sub.of (by decide) hm) ?_
    exact h
  clear_value x2
  refine keeps_ite (fun _ => ?_) (fun _ => ?_)
  · exact h
  · refine keeps_ite (fun _ => ?_) (fun _ => ?_)
    · refine takeCode_keeps (sub.of (by decide) hm) ?_
      exact hx2
    · exact hx2

theorem sampleGate_keeps {a0 : Nat} {a1 : Nat} {s : State} (hm : sub 2048 m) (h : Keeps m s0 s) :
    Keeps m s0 (sampleGate a0 a1 s) := by
  unfold sampleGate
  extract_lets +onlyGivenNames -merge -useContext x0
  try clear_value x0
  refine keeps_ite (fun _ => ?_) (fun _ => ?_)
  · refine dceSwitch_keeps (sub.of (by decide) hm) ?_
    exact h
  · exact h

theorem lateChannel_keeps {a0 : Nat} {s : State} (hm : sub 1275087873 m) (h : Keeps m s0 s) :
    Keeps m s0 (lateChannel a0 s) := by
  unfold lateChannel
  extract_lets +onlyGivenNames -merge -useContext x0
  have hx0 : Keeps m s0 x0 := by
    refine keeps_ite (fun _ => ?_) (fun _ => ?_)
    · exact h
    · refine convEdge_keeps (sub.of (by decide) hm) ?_
      exact h
  clear_value x0
  refine keeps_ite (fun _ => ?_) (fun _ => ?_)
  · exact h
  · refine keeps_ite (fun _ => ?_) (fun _ => ?_)
    · refine sampleGate_keeps (sub.of (by decide) hm) ?_
      exact hx0
    · exact hx0

theorem writeDceTh_keeps {a0 : Nat} {a1 : Nat} {a2 : Nat} {a3 : Word} {s : State} (hm : sub 2049 m) (h : Keeps m s0 s) :
    Keeps m s0 (writeDceTh a0 a1 a2 a3 s) := by
  unfold writeDceTh
  extract_lets +onlyGivenNames -merge -useContext x0 x1 x2 x3 x4
  try clear_value x0
  try clear_value x1
  have hx2 : Keeps m s0 x2 := by
    refine State.plainWrite_keeps (sub.of (by decide) hm) ?_
    exact h
  clear_value x2
  try clear_value x3
  try clear_value x4
  refine State.setDch_keeps (sub.of (by decide) hm) ?_
  exact hx2

theorem writeChctl_keeps {a0 : Nat} {a1 : Nat} {a2 : Word} {s : State} (hm : sub 201345025 m) (h : Keeps m s0 s) :
    Keeps m s0 (writeChctl a0 a1 a2 s) := by
  unfold writeChctl
  extract_lets +onlyGivenNames -merge -useContext x0 x1 x2 x3 x4 x5 x6 x7 x8 x9 x10
  try clear_value x0
  try clear_value x1
  try clear_value x2
  try clear_value x3
  try clear_value x4
  try clear_value x5
  have hx6 : Keeps m s0 x6 := by
    refine State.plainWrite_keeps (sub.of (by decide) hm) ?_
    exact h
  clear_value x6
  have hx7 : Keeps m s0 x7 := by
    refine keeps_ite (fun _ => ?_) (fun _ => ?_)
    · refine dceFlag_keeps (sub.of (by decide) hm) ?_
      exact hx6
    · exact hx6
  clear_value x7
  try clear_value x8
  try clear_value x9
  try clear_value x10
  refine keeps_ite (fun _ => ?_) (fun _ => ?_)
  · refine dceFlag_keeps (sub.of (by decide) hm) ?_
    exact h
  · refine keeps_ite (fun _ => ?_) (fun _ => ?_)
    · refine State.setDch_keeps (sub.of (by decide) hm) ?_
      exact hx7
    · exact hx7

theorem writeRdidx_keeps {a0 : Nat} {a1 : Nat} {a2 : Word} {s : State} (hm : sub 201342977 m) (h : Keeps m s0 s) :
    Keeps m s0 (writeRdidx a0 a1 a2 s) := by
  unfold writeRdidx
  refine keeps_ite (fun _ => ?_) (fun _ => ?_)
  · refine State.setReg_keeps (sub.of (by decide) hm) ?_
    exact h
  · refine dceFlag_keeps (sub.of (by decide) hm) ?_
    exact h

theorem writeGate_keeps {a0 : Nat} {a1 : Nat} {a2 : Word} {s : State} (hm : sub 2049 m) (h : Keeps m s0 s) :
    Keeps m s0 (writeGate a0 a1 a2 s) := by
  unfold writeGate
  extract_lets +onlyGivenNames -merge -useContext x0 x1 x2
  try clear_value x0
  try clear_value x1
  try clear_value x2
  refine State.setDch_keeps (sub.of (by decide) hm) ?_
  refine State.plainWrite_keeps (sub.of (by decide) hm) ?_
  exact h

theorem sampleGen_keeps {a0 : Nat} {s : State} (hm : sub 2048 m) (h : Keeps m s0 s) :
    Keeps m s0 (sampleGen a0 s) := by
  unfold sampleGen
  extract_lets +onlyGivenNames -merge -useContext x0 x1 x2
  try clear_value x0
  try clear_value x1
  try clear_value x2
  refine keeps_ite (fun _ => ?_) (fun _ => ?_)
  · exact h
  · refine keeps_dce (sub.of (by decide) hm) ?_ _
    exact h

theorem drainBuf_keeps {a0 : Nat} {s : State} (hm : sub 201410585 m) (h : Keeps m s0 s) :
    Keeps m s0 (drainBuf a0 s) := by
  unfold drainBuf
  extract_lets +onlyGivenNames -merge -useContext x0
  try clear_value x0
  split
  · exact h
  · extract_lets +onlyGivenNames -merge -useContext x1 x2 x3 x4 x5 x6 x7 x8
    have hx1 : Keeps m s0 x1 := by
      refine keeps_dce (sub.of (by decide) hm) ?_ _
      exact h
    clear_value x1
    try clear_value x2
    try clear_value x3
    try clear_value x4
    try clear_value x5
    try clear_value x6
    have hx7 : Keeps m s0 x7 := by
      refine State.setReg_keeps (sub.of (by decide) hm) ?_
      refine State.hwPut_keeps (sub.of (by decide) hm) ?_
      exact hx1
    clear_value x7
    try clear_value x8
    refine keeps_ite (fun _ => ?_) (fun _ => ?_)
    · refine dceFlag_keeps (sub.of (by decide) hm) ?_
      refine dropRec_keeps (sub.of (by decide) hm) ?_
      exact hx1
    · refine State.setDch_keeps (sub.of (by decide) hm) ?_
      exact hx7

theorem channelRestart_keeps {a0 : Nat} {a1 : Nat} {s : State} (hm : sub 2048 m) (h : Keeps m s0 s) :
    Keeps m s0 (channelRestart a0 a1 s) := by
  unfold channelRestart
  extract_lets +onlyGivenNames -merge -useContext x0 x1 x2
  try clear_value x0
  try clear_value x1
  try clear_value x2
  refine keeps_ite (fun _ => ?_) (fun _ => ?_)
  · exact h
  · refine keeps_ite (fun _ => ?_) (fun _ => ?_)
    · refine State.setDch_keeps (sub.of (by decide) hm) ?_
      exact h
    · refine State.setDch_keeps (sub.of (by decide) hm) ?_
      exact h

theorem comeSwitch_keeps {a0 : Nat} {s : State} (hm : sub 2048 m) (h : Keeps m s0 s) :
    Keeps m s0 (comeSwitch a0 s) := by
  unfold comeSwitch
  extract_lets +onlyGivenNames -merge -useContext x0
  try clear_value x0
  refine keeps_ite (fun _ => ?_) (fun _ => ?_)
  · refine dceSwitch_keeps (sub.of (by decide) hm) ?_
    refine State.setDch_keeps (sub.of (by decide) hm) ?_
    exact h
  · exact h

theorem tickChannel_keeps {a0 : Nat} {s : State} (hm : sub 201345025 m) (h : Keeps m s0 s) :
    Keeps m s0 (tickChannel a0 s) := by
  unfold tickChannel
  extract_lets +onlyGivenNames -merge -useContext x0 x1
  try clear_value x0
  have hx1 : Keeps m s0 x1 := by
    refine State.setDch_keeps (sub.of (by decide) hm) ?_
    exact h
  clear_value x1
  refine comeSwitch_keeps (sub.of (by decide) hm) ?_
  refine channelRestart_keeps (sub.of (by decide) hm) ?_
  refine publishFast_keeps (sub.of (by decide) hm) ?_
  exact hx1

end Sys2Proof.Machine
end

