-- ==== Sys2Proof/Laws/Frame/Cal.lean ====
section
/-!
SUPPORT. What the functions of Machine/Cal.lean touch: one lemma each, in the terms of `Keeps`.
-/
namespace Sys2Proof.Machine

variable {m : Nat} {s0 : State}

theorem State.setCalTile_keeps {s : State} {a1 : Nat} {a2 : CalTile} (hm : sub 4194304 m) (h : Keeps m s0 s) :
    Keeps m s0 (State.setCalTile s a1 a2) := by
  unfold State.setCalTile
  extract_lets +onlyGivenNames -merge -useContext x0
  try clear_value x0
  refine keeps_cal (sub.of (by decide) hm) ?_ _
  exact h

theorem makePending_keeps {a0 : Nat} {s : State} (hm : sub 4194304 m) (h : Keeps m s0 s) :
    Keeps m s0 (makePending a0 s) := by
  unfold makePending
  extract_lets +onlyGivenNames -merge -useContext x0
  try clear_value x0
  refine keeps_ite (fun _ => ?_) (fun _ => ?_)
  · exact h
  · refine State.setCalTile_keeps (sub.of (by decide) hm) ?_
    exact h

theorem askCommit_keeps {a0 : Nat} {s : State} (hm : sub 4194304 m) (h : Keeps m s0 s) :
    Keeps m s0 (askCommit a0 s) := by
  unfold askCommit
  extract_lets +onlyGivenNames -merge -useContext x0
  try clear_value x0
  refine keeps_ite (fun _ => ?_) (fun _ => ?_)
  · refine State.setCalTile_keeps (sub.of (by decide) hm) ?_
    exact h
  · refine State.setCalTile_keeps (sub.of (by decide) hm) ?_
    exact h

theorem writeCalTctl_keeps {a0 : Nat} {a1 : Word} {s : State} (hm : sub 4194305 m) (h : Keeps m s0 s) :
    Keeps m s0 (writeCalTctl a0 a1 s) := by
  unfold writeCalTctl
  extract_lets +onlyGivenNames -merge -useContext x0 x1 x2
  try clear_value x0
  have hx1 : Keeps m s0 x1 := by
    refine State.setFld_keeps (sub.of (by decide) hm) ?_
    exact h
  clear_value x1
  have hx2 : Keeps m s0 x2 := by
    refine keeps_ite (fun _ => ?_) (fun _ => ?_)
    · refine makePending_keeps (sub.of (by decide) hm) ?_
      exact hx1
    · exact hx1
  clear_value x2
  refine keeps_ite (fun _ => ?_) (fun _ => ?_)
  · refine askCommit_keeps (sub.of (by decide) hm) ?_
    exact hx2
  · exact hx2

theorem writeCoef_keeps {a0 : Nat} {a1 : Nat} {a2 : Word} {s : State} (hm : sub 4194304 m) (h : Keeps m s0 s) :
    Keeps m s0 (writeCoef a0 a1 a2 s) := by
  unfold writeCoef
  extract_lets +onlyGivenNames -merge -useContext x0 x1 x2
  try clear_value x0
  try clear_value x1
  try clear_value x2
  refine State.setCalTile_keeps (sub.of (by decide) hm) ?_
  exact h

theorem writeCalWait_keeps {a0 : Word} {s : State} (hm : sub 1 m) (h : Keeps m s0 s) :
    Keeps m s0 (writeCalWait a0 s) := by
  unfold writeCalWait
  refine State.plainWrite_keeps (sub.of (by decide) hm) ?_
  exact h

theorem writeCalCtl_keeps {a0 : Word} {s : State} (hm : sub 1 m) (h : Keeps m s0 s) :
    Keeps m s0 (writeCalCtl a0 s) := by
  unfold writeCalCtl
  refine State.plainWrite_keeps (sub.of (by decide) hm) ?_
  exact h

theorem stepSwitch_keeps {a0 : Nat} {a1 : Nat} {s : State} (hm : sub 2048 m) (h : Keeps m s0 s) :
    Keeps m s0 (stepSwitch a0 a1 s) := by
  unfold stepSwitch
  split
  · extract_lets +onlyGivenNames -merge -useContext x0 x1
    try clear_value x0
    try clear_value x1
    refine edgeSwitch_keeps (sub.of (by decide) hm) ?_
    refine State.setDch_keeps (sub.of (by decide) hm) ?_
    exact h
  · exact h

theorem leaveStep_keeps {a0 : Nat} {s : State} (hm : sub 4197376 m) (h : Keeps m s0 s) :
    Keeps m s0 (leaveStep a0 s) := by
  unfold leaveStep
  extract_lets +onlyGivenNames -merge -useContext x0 x1 x2 x3 x4 x5
  try clear_value x0
  try clear_value x1
  try clear_value x2
  try clear_value x3
  have hx4 : Keeps m s0 x4 := by
    refine State.setTile_keeps (sub.of (by decide) hm) ?_
    exact h
  clear_value x4
  have hx5 : Keeps m s0 x5 := by
    unfold x5
    split
    · refine keeps_ite (fun _ => ?_) (fun _ => ?_)
      · exact hx4
      · refine planInit_keeps (sub.of (by decide) hm) ?_
        exact hx4
    · exact hx4
  clear_value x5
  refine stepSwitch_keeps (sub.of (by decide) hm) ?_
  refine State.setCalTile_keeps (sub.of (by decide) hm) ?_
  exact hx5

theorem stepAbandon_keeps {a0 : Nat} {s : State} (hm : sub 205540353 m) (h : Keeps m s0 s) :
    Keeps m s0 (stepAbandon a0 s) := by
  unfold stepAbandon
  refine keeps_ite (fun _ => ?_) (fun _ => ?_)
  · refine calFlag_keeps (sub.of (by decide) hm) ?_
    refine leaveStep_keeps (sub.of (by decide) hm) ?_
    exact h
  · exact h

theorem calStarved_keeps {a0 : Nat} {s : State} (hm : sub 205537281 m) (h : Keeps m s0 s) :
    Keeps m s0 (calStarved a0 s) := by
  unfold calStarved
  extract_lets +onlyGivenNames -merge -useContext x0
  try clear_value x0
  split
  · exact h
  · refine keeps_ite (fun _ => ?_) (fun _ => ?_)
    · refine calFlag_keeps (sub.of (by decide) hm) ?_
      refine State.setCalTile_keeps (sub.of (by decide) hm) ?_
      exact h
    · exact h

theorem temperatureCheck_keeps {a0 : Nat} {s : State} (hm : sub 4194304 m) (h : Keeps m s0 s) :
    Keeps m s0 (temperatureCheck a0 s) := by
  unfold temperatureCheck
  refine keeps_foldl (fun x0 y1 hx0 => ?_) _ ?_
  · extract_lets +onlyGivenNames -merge -useContext x2
    try clear_value x2
    refine keeps_ite (fun _ => ?_) (fun _ => ?_)
    · refine makePending_keeps (sub.of (by decide) hm) ?_
      exact hx0
    · exact hx0
  · exact h

theorem runEnd_keeps {a0 : Nat} {s : State} (hm : sub 205537281 m) (h : Keeps m s0 s) :
    Keeps m s0 (runEnd a0 s) := by
  unfold runEnd
  extract_lets +onlyGivenNames -merge -useContext x0 x1
  try clear_value x0
  have hx1 : Keeps m s0 x1 := by
    refine State.setCalTile_keeps (sub.of (by decide) hm) ?_
    exact h
  clear_value x1
  refine keeps_ite (fun _ => ?_) (fun _ => ?_)
  · refine calFlag_keeps (sub.of (by decide) hm) ?_
    refine State.setBit_keeps (sub.of (by decide) hm) ?_
    exact hx1
  · refine State.setCalTile_keeps (sub.of (by decide) hm) ?_
    exact h

theorem stepStart_keeps {a0 : Nat} {s : State} (hm : sub 205540353 m) (h : Keeps m s0 s) :
    Keeps m s0 (stepStart a0 s) := by
  unfold stepStart
  extract_lets +onlyGivenNames -merge -useContext x0 x1
  try clear_value x0
  have hx1 : Keeps m s0 x1 := by
    refine keeps_ite (fun _ => ?_) (fun _ => ?_)
    · exact h
    · refine State.setFld_keeps (sub.of (by decide) hm) ?_
      exact h
  clear_value x1
  refine keeps_ite (fun _ => ?_) (fun _ => ?_)
  · exact h
  · split
    · refine runEnd_keeps (sub.of (by decide) hm) ?_
      exact h
    · extract_lets +onlyGivenNames -merge -useContext x2 x3 x4
      have hx2 : Keeps m s0 x2 := by
        refine State.setCalTile_keeps (sub.of (by decide) hm) ?_
        exact hx1
      clear_value x2
      try clear_value x3
      have hx4 : Keeps m s0 x4 := by
        refine State.setTile_keeps (sub.of (by decide) hm) ?_
        exact hx2
      clear_value x4
      refine stepSwitch_keeps (sub.of (by decide) hm) ?_
      exact hx4

theorem stepEnd_keeps {a0 : Nat} {a1 : List Word} {s : State} (hm : sub 205540353 m) (h : Keeps m s0 s) :
    Keeps m s0 (stepEnd a0 a1 s) := by
  unfold stepEnd
  extract_lets +onlyGivenNames -merge -useContext x0 x1 x2 x3 x4 x5 x6
  try clear_value x0
  try clear_value x1
  try clear_value x2
  have hx3 : Keeps m s0 x3 := by
    refine leaveStep_keeps (sub.of (by decide) hm) ?_
    exact h
  clear_value x3
  have hx4 : Keeps m s0 x4 := by
    refine keeps_ite (fun _ => ?_) (fun _ => ?_)
    · refine State.setReg_keeps (sub.of (by decide) hm) ?_
      exact hx3
    · exact hx3
  clear_value x4
  try clear_value x5
  have hx6 : Keeps m s0 x6 := by
    refine State.setCalTile_keeps (sub.of (by decide) hm) ?_
    exact hx4
  clear_value x6
  refine keeps_ite (fun _ => ?_) (fun _ => ?_)
  · exact h
  · refine keeps_ite (fun _ => ?_) (fun _ => ?_)
    · refine runEnd_keeps (sub.of (by decide) hm) ?_
      exact hx6
    · exact hx6

theorem stepDue_keeps {a0 : Nat} {s : State} (hm : sub 1279282177 m) (h : Keeps m s0 s) :
    Keeps m s0 (stepDue a0 s) := by
  unfold stepDue
  extract_lets +onlyGivenNames -merge -useContext x0
  have hx0 : Keeps m s0 x0.2 := by
    refine keeps_foldl2 (fun x1 y2 hx1 => ?_) _ ?_
    · dsimp -zeta only
      refine State.takeFree_keeps (sub.of (by decide) hm) ?_
      exact hx1
    · dsimp -zeta only
      exact h
  clear_value x0
  split
  · exact h
  · refine keeps_ite (fun _ => ?_) (fun _ => ?_)
    · refine stepEnd_keeps (sub.of (by decide) hm) ?_
      exact hx0
    · exact h

theorem recordCoefs_keeps {a0 : Nat} {s : State} (hm : sub 65560 m) (h : Keeps m s0 s) :
    Keeps m s0 (recordCoefs a0 s) := by
  unfold recordCoefs
  extract_lets +onlyGivenNames -merge -useContext x0
  try clear_value x0
  refine jrnPut_keeps (sub.of (by decide) hm) ?_
  exact h

theorem holdCoef_keeps {a0 : Nat} {s : State} (hm : sub 1024 m) (h : Keeps m s0 s) :
    Keeps m s0 (holdCoef a0 s) := by
  unfold holdCoef
  extract_lets +onlyGivenNames -merge -useContext x0
  try clear_value x0
  refine keeps_ite (fun _ => ?_) (fun _ => ?_)
  · exact h
  · refine State.setDac_keeps (sub.of (by decide) hm) ?_
    exact h

theorem commitWords_keeps {a0 : Nat} {a1 : List (Nat × Word)} {s : State} (hm : sub 66585 m) (h : Keeps m s0 s) :
    Keeps m s0 (commitWords a0 a1 s) := by
  unfold commitWords
  refine recordCoefs_keeps (sub.of (by decide) hm) ?_
  refine keeps_foldl (fun x0 y1 hx0 => ?_) _ ?_
  · refine State.plainWrite_keeps (sub.of (by decide) hm) ?_
    exact hx0
  · refine holdCoef_keeps (sub.of (by decide) hm) ?_
    exact h

theorem commitStaging_keeps {a0 : Nat} {s : State} (hm : sub 4260889 m) (h : Keeps m s0 s) :
    Keeps m s0 (commitStaging a0 s) := by
  unfold commitStaging
  extract_lets +onlyGivenNames -merge -useContext x0 x1
  try clear_value x0
  have hx1 : Keeps m s0 x1 := by
    refine commitWords_keeps (sub.of (by decide) hm) ?_
    exact h
  clear_value x1
  refine State.clrBit_keeps (sub.of (by decide) hm) ?_
  refine State.setCalTile_keeps (sub.of (by decide) hm) ?_
  exact hx1

theorem commitRun_keeps {a0 : Nat} {s : State} (hm : sub 205603865 m) (h : Keeps m s0 s) :
    Keeps m s0 (commitRun a0 s) := by
  unfold commitRun
  extract_lets +onlyGivenNames -merge -useContext x0 x1 x2
  try clear_value x0
  have hx1 : Keeps m s0 x1 := by
    refine commitWords_keeps (sub.of (by decide) hm) ?_
    exact h
  clear_value x1
  have hx2 : Keeps m s0 x2 := by
    refine State.setCalTile_keeps (sub.of (by decide) hm) ?_
    exact hx1
  clear_value x2
  refine calFlag_keeps (sub.of (by decide) hm) ?_
  exact hx2

theorem applyHeld_keeps {a0 : Nat} {a1 : Nat × Word} {s : State} (hm : sub 201344001 m) (h : Keeps m s0 s) :
    Keeps m s0 (applyHeld a0 a1 s) := by
  unfold applyHeld
  extract_lets +onlyGivenNames -merge -useContext x0 x1
  try clear_value x0
  try clear_value x1
  refine keeps_ite (fun _ => ?_) (fun _ => ?_)
  · refine applySel_keeps (sub.of (by decide) hm) ?_
    exact h
  · refine keeps_ite (fun _ => ?_) (fun _ => ?_)
    · refine applyDrv_keeps (sub.of (by decide) hm) ?_
      exact h
    · refine keeps_ite (fun _ => ?_) (fun _ => ?_)
      · refine applyPga_keeps (sub.of (by decide) hm) ?_
        exact h
      · refine keeps_ite (fun _ => ?_) (fun _ => ?_)
        · refine applyBq_keeps (sub.of (by decide) hm) ?_
          exact h
        · refine keeps_foldl (fun x2 y3 hx2 => ?_) _ ?_
          · refine keeps_ite (fun _ => ?_) (fun _ => ?_)
            · refine applyCmpCtl_keeps (sub.of (by decide) hm) ?_
              exact hx2
            · refine keeps_ite (fun _ => ?_) (fun _ => ?_)
              · refine applyCmpTh_keeps (sub.of (by decide) hm) ?_
                exact hx2
              · exact hx2
          · exact h

theorem applyHelds_keeps {a0 : Nat} {s : State} (hm : sub 205538305 m) (h : Keeps m s0 s) :
    Keeps m s0 (applyHelds a0 s) := by
  unfold applyHelds
  extract_lets +onlyGivenNames -merge -useContext x0 x1 x2 x3
  try clear_value x0
  try clear_value x1
  have hx2 : Keeps m s0 x2 := by
    refine State.setTile_keeps (sub.of (by decide) hm) ?_
    exact h
  clear_value x2
  try clear_value x3
  refine keeps_foldl (fun x4 y5 hx4 => ?_) _ ?_
  · refine applyHeld_keeps (sub.of (by decide) hm) ?_
    exact hx4
  · refine State.setCalTile_keeps (sub.of (by decide) hm) ?_
    exact hx2

theorem tickCal_keeps {a0 : Nat} {s : State} (hm : sub 205603865 m) (h : Keeps m s0 s) :
    Keeps m s0 (tickCal a0 s) := by
  unfold tickCal
  extract_lets +onlyGivenNames -merge -useContext x0 x1 x2 x3
  try clear_value x0
  have hx1 : Keeps m s0 x1 := by
    refine keeps_ite (fun _ => ?_) (fun _ => ?_)
    · refine applyHelds_keeps (sub.of (by decide) hm) ?_
      exact h
    · exact h
  clear_value x1
  have hx2 : Keeps m s0 x2 := by
    refine keeps_ite (fun _ => ?_) (fun _ => ?_)
    · refine commitRun_keeps (sub.of (by decide) hm) ?_
      exact hx1
    · exact hx1
  clear_value x2
  try clear_value x3
  refine keeps_ite (fun _ => ?_) (fun _ => ?_)
  · exact h
  · refine keeps_ite (fun _ => ?_) (fun _ => ?_)
    · refine commitStaging_keeps (sub.of (by decide) hm) ?_
      exact hx2
    · exact hx2

theorem storedCoefs_keeps {a0 : Nat} {s : State} (hm : sub 201344001 m) (h : Keeps m s0 s) :
    Keeps m s0 (storedCoefs a0 s) := by
  unfold storedCoefs
  extract_lets +onlyGivenNames -merge -useContext x0 x1
  try clear_value x0
  have hx1 : Keeps m s0 x1 := by
    refine keeps_foldl (fun x2 y3 hx2 => ?_) _ ?_
    · refine State.plainWrite_keeps (sub.of (by decide) hm) ?_
      exact hx2
    · refine holdCoef_keeps (sub.of (by decide) hm) ?_
      exact h
  clear_value x1
  refine keeps_ite (fun _ => ?_) (fun _ => ?_)
  · refine State.setFld_keeps (sub.of (by decide) hm) ?_
    exact hx1
  · refine State.flag_keeps (sub.of (by decide) hm) ?_
    exact h

theorem startupCoefs_keeps {a0 : Nat} {a1 : List Word} {s : State} (hm : sub 201409561 m) (h : Keeps m s0 s) :
    Keeps m s0 (startupCoefs a0 a1 s) := by
  unfold startupCoefs
  extract_lets +onlyGivenNames -merge -useContext x0 x1 x2 x3
  have hx0 : Keeps m s0 x0 := by
    refine State.setFld_keeps (sub.of (by decide) hm) ?_
    exact h
  clear_value x0
  try clear_value x1
  try clear_value x2
  try clear_value x3
  refine calFlag_keeps (sub.of (by decide) hm) ?_
  refine commitWords_keeps (sub.of (by decide) hm) ?_
  exact hx0

end Sys2Proof.Machine
end

