-- ==== Sys2Proof/Laws/Frame/Startup.lean ====
section
/-!
SUPPORT. What the functions of Machine/Startup.lean touch: one lemma each, in the terms of `Keeps`.
-/
namespace Sys2Proof.Machine

variable {m : Nat} {s0 : State}

theorem setStepMode_keeps {a0 : Nat} {a1 : Nat} {a2 : Nat} {s : State} (hm : sub 65561 m) (h : Keeps m s0 s) :
    Keeps m s0 (setStepMode a0 a1 a2 s) := by
  unfold setStepMode
  extract_lets +onlyGivenNames -merge -useContext x0 x1 x2
  have hx0 : Keeps m s0 x0 := by
    refine setStepByte_keeps (sub.of (by decide) hm) ?_
    exact h
  clear_value x0
  have hx1 : Keeps m s0 x1 := by
    refine State.setFld_keeps (sub.of (by decide) hm) ?_
    refine State.setFld_keeps (sub.of (by decide) hm) ?_
    exact hx0
  clear_value x1
  try clear_value x2
  refine State.setFld_keeps (sub.of (by decide) hm) ?_
  exact hx1

theorem calibrate_keeps {a0 : Bool} {a1 : List Nat} {s : State} (hm : sub 1543601753 m) (h : Keeps m s0 s) :
    Keeps m s0 (calibrate a0 a1 s) := by
  unfold calibrate
  refine keeps_foldl (fun x0 y1 hx0 => ?_) _ ?_
  · extract_lets +onlyGivenNames -merge -useContext x2
    have hx2 : Keeps m s0 x2 := by
      refine keeps_ite (fun _ => ?_) (fun _ => ?_)
      · exact hx0
      · refine biasUp_keeps (sub.of (by decide) hm) ?_
        exact hx0
    clear_value x2
    refine keeps_ite (fun _ => ?_) (fun _ => ?_)
    · refine storedCoefs_keeps (sub.of (by decide) hm) ?_
      exact hx2
    · refine keeps_ite (fun _ => ?_) (fun _ => ?_)
      · refine startupCoefs_keeps (sub.of (by decide) hm) ?_
        exact hx2
      · exact hx2
  · exact h

theorem enablePorts_keeps {a0 : Nat} {s : State} (hm : sub 203440135 m) (h : Keeps m s0 s) :
    Keeps m s0 (enablePorts a0 s) := by
  unfold enablePorts
  refine keeps_foldl (fun x0 y1 hx0 => ?_) _ ?_
  · extract_lets +onlyGivenNames -merge -useContext x2 x3
    try clear_value x2
    try clear_value x3
    refine writeSeamPctl_keeps (sub.of (by decide) hm) ?_
    exact hx0
  · exact h

theorem biasAll_keeps {s : State} (hm : sub 3073 m) (h : Keeps m s0 s) :
    Keeps m s0 (biasAll s) := by
  unfold biasAll
  refine keeps_foldl (fun x0 y1 hx0 => ?_) _ ?_
  · refine writePwr_keeps (sub.of (by decide) hm) ?_
    exact hx0
  · exact h

theorem beginAct_keeps {a0 : Nat} {a1 : Bool} {s : State} (hm : sub 203443207 m) (h : Keeps m s0 s) :
    Keeps m s0 (beginAct a0 a1 s) := by
  unfold beginAct
  refine keeps_ite (fun _ => ?_) (fun _ => ?_)
  · refine biasAll_keeps (sub.of (by decide) hm) ?_
    exact h
  · refine keeps_ite (fun _ => ?_) (fun _ => ?_)
    · refine enablePorts_keeps (sub.of (by decide) hm) ?_
      exact h
    · refine keeps_ite (fun _ => ?_) (fun _ => ?_)
      · refine State.setFld_keeps (sub.of (by decide) hm) ?_
        exact h
      · exact h

theorem setOutcome_keeps {a0 : Nat} {a1 : Nat} {a2 : Nat} {a3 : Nat} {s : State} (hm : sub 1 m) (h : Keeps m s0 s) :
    Keeps m s0 (setOutcome a0 a1 a2 a3 s) := by
  unfold setOutcome
  extract_lets +onlyGivenNames -merge -useContext x0
  have hx0 : Keeps m s0 x0 := by
    refine State.setFld_keeps (sub.of (by decide) hm) ?_
    refine State.setFld_keeps (sub.of (by decide) hm) ?_
    exact h
  clear_value x0
  refine State.setFld_keeps (sub.of (by decide) hm) ?_
  exact hx0

theorem State.setStart_keeps {s : State} {a1 : StartUp} (hm : sub 8388608 m) (h : Keeps m s0 s) :
    Keeps m s0 (State.setStart s a1) := by
  unfold State.setStart
  refine keeps_startup (sub.of (by decide) hm) ?_ _
  exact h

theorem noteStep_keeps {a0 : Nat} {a1 : Word} {a2 : Word} {s : State} (hm : sub 8454168 m) (h : Keeps m s0 s) :
    Keeps m s0 (noteStep a0 a1 a2 s) := by
  unfold noteStep
  extract_lets +onlyGivenNames -merge -useContext x0
  try clear_value x0
  refine keeps_ite (fun _ => ?_) (fun _ => ?_)
  · refine jrnPut_keeps (sub.of (by decide) hm) ?_
    exact h
  · refine State.setStart_keeps (sub.of (by decide) hm) ?_
    exact h

theorem beginStep_keeps {a0 : Nat} {a1 : Word} {s : State} (hm : sub 211897375 m) (h : Keeps m s0 s) :
    Keeps m s0 (beginStep a0 a1 s) := by
  unfold beginStep
  extract_lets +onlyGivenNames -merge -useContext x0 x1 x2 x3
  try clear_value x0
  try clear_value x1
  have hx2 : Keeps m s0 x2 := by
    refine State.setStart_keeps (sub.of (by decide) hm) ?_
    exact h
  clear_value x2
  have hx3 : Keeps m s0 x3 := by
    refine setOutcome_keeps (sub.of (by decide) hm) ?_
    refine State.setFld_keeps (sub.of (by decide) hm) ?_
    exact hx2
  clear_value x3
  refine beginAct_keeps (sub.of (by decide) hm) ?_
  refine noteStep_keeps (sub.of (by decide) hm) ?_
  exact hx3

theorem markFailed_keeps {a0 : Nat} {s : State} (hm : sub 1 m) (h : Keeps m s0 s) :
    Keeps m s0 (markFailed a0 s) := by
  unfold markFailed
  refine State.setFld_keeps (sub.of (by decide) hm) ?_
  exact h

theorem skipStep_keeps {a0 : Nat} {a1 : Bool} {a2 : Word} {s : State} (hm : sub 209797145 m) (h : Keeps m s0 s) :
    Keeps m s0 (skipStep a0 a1 a2 s) := by
  unfold skipStep
  extract_lets +onlyGivenNames -merge -useContext x0 x1
  have hx0 : Keeps m s0 x0 := by
    refine markFailed_keeps (sub.of (by decide) hm) ?_
    refine setOutcome_keeps (sub.of (by decide) hm) ?_
    exact h
  clear_value x0
  have hx1 : Keeps m s0 x1 := by
    refine noteStep_keeps (sub.of (by decide) hm) ?_
    exact hx0
  clear_value x1
  refine keeps_ite (fun _ => ?_) (fun _ => ?_)
  · refine jrnFlag_keeps (sub.of (by decide) hm) ?_
    exact hx1
  · exact hx1

theorem loadRepairs_keeps {s : State} (hm : sub 65537 m) (h : Keeps m s0 s) :
    Keeps m s0 (loadRepairs s) := by
  unfold loadRepairs
  extract_lets +onlyGivenNames -merge -useContext x0
  have hx0 : Keeps m s0 x0 := by
    refine keeps_foldl (fun x1 y2 hx1 => ?_) _ ?_
    · extract_lets +onlyGivenNames -merge -useContext x3 x4 x5 x6
      try clear_value x3
      try clear_value x4
      have hx5 : Keeps m s0 x5 := by
        refine State.setMemt_keeps (sub.of (by decide) hm) ?_
        exact hx1
      clear_value x5
      have hx6 : Keeps m s0 x6 := by
        refine State.setFld_keeps (sub.of (by decide) hm) ?_
        exact hx5
      clear_value x6
      split
      · refine State.countUp_keeps (sub.of (by decide) hm) ?_
        exact hx6
      · exact hx6
    · exact h
  clear_value x0
  refine keeps_foldl (fun x7 y8 hx7 => ?_) _ ?_
  · refine State.setFld_keeps (sub.of (by decide) hm) ?_
    refine State.setBit_keeps (sub.of (by decide) hm) ?_
    exact hx7
  · exact hx0

theorem setPartState_keeps {a0 : Nat} {s : State} (hm : sub 1 m) (h : Keeps m s0 s) :
    Keeps m s0 (setPartState a0 s) := by
  unfold setPartState
  refine State.setFld_keeps (sub.of (by decide) hm) ?_
  exact h

theorem enterRun_keeps {a0 : Word} {s : State} (hm : sub 209797145 m) (h : Keeps m s0 s) :
    Keeps m s0 (enterRun a0 s) := by
  unfold enterRun
  extract_lets +onlyGivenNames -merge -useContext x0 x1
  have hx0 : Keeps m s0 x0 := by
    refine noteStep_keeps (sub.of (by decide) hm) ?_
    refine setOutcome_keeps (sub.of (by decide) hm) ?_
    refine State.setFld_keeps (sub.of (by decide) hm) ?_
    exact h
  clear_value x0
  try clear_value x1
  refine jrnFlag_keeps (sub.of (by decide) hm) ?_
  refine setPartState_keeps (sub.of (by decide) hm) ?_
  refine State.setStart_keeps (sub.of (by decide) hm) ?_
  exact hx0

theorem goOn_keeps {k n : Nat} {t : Word} {s : State} (hm : sub 211897375 m) (h : Keeps m s0 s) :
    Keeps m s0 (goOn k n t s) := by
  induction k generalizing n s with
  | zero => exact h
  | succ k ih =>
    unfold goOn
    refine keeps_ite (fun _ => ?_) (fun _ => ?_)
    · exact keeps_ite (fun _ => setPartState_keeps (sub.of (by decide) hm) h) (fun _ => ih h)
    · refine keeps_ite (fun _ => enterRun_keeps (sub.of (by decide) hm) h) (fun _ => ?_)
      refine keeps_ite (fun _ => ?_) (fun _ => ?_)
      · refine ih (keeps_ite (fun _ => ?_) (fun _ => ?_))
        · refine State.setStart_keeps (sub.of (by decide) hm) (keeps_ite (fun _ => ?_) (fun _ => ?_))
          · exact loadRepairs_keeps (sub.of (by decide) hm) (skipStep_keeps (sub.of (by decide) hm) h)
          · exact skipStep_keeps (sub.of (by decide) hm) h
        · refine keeps_ite (fun _ => ?_) (fun _ => ?_)
          · exact loadRepairs_keeps (sub.of (by decide) hm) (skipStep_keeps (sub.of (by decide) hm) h)
          · exact skipStep_keeps (sub.of (by decide) hm) h
      · refine keeps_ite (fun _ => beginStep_keeps (sub.of (by decide) hm) h) (fun _ => ?_)
        exact ih (skipStep_keeps (sub.of (by decide) hm) h)

theorem loadSteps_keeps {s : State} (hm : sub 1 m) (h : Keeps m s0 s) :
    Keeps m s0 (loadSteps s) := by
  unfold loadSteps
  refine keeps_foldl (fun x0 y1 hx0 => ?_) _ ?_
  · extract_lets +onlyGivenNames -merge -useContext x2 x3 x4
    try clear_value x2
    try clear_value x3
    have hx4 : Keeps m s0 x4 := by
      refine State.setFld_keeps (sub.of (by decide) hm) ?_
      refine State.setFld_keeps (sub.of (by decide) hm) ?_
      exact hx0
    clear_value x4
    refine keeps_ite (fun _ => ?_) (fun _ => ?_)
    · refine State.setFld_keeps (sub.of (by decide) hm) ?_
      exact hx4
    · exact hx4
  · exact h

theorem beginStart_keeps {s : State} (hm : sub 211897375 m) (h : Keeps m s0 s) :
    Keeps m s0 (beginStart s) := by
  unfold beginStart
  refine keeps_ite (fun _ => ?_) (fun _ => ?_)
  · refine goOn_keeps (sub.of (by decide) hm) ?_
    refine loadSteps_keeps (sub.of (by decide) hm) ?_
    refine State.setFld_keeps (sub.of (by decide) hm) ?_
    exact h
  · exact h

theorem finishStep_keeps {a0 : Nat} {a1 : Nat} {a2 : Nat} {a3 : Word} {s : State} (hm : sub 8454169 m) (h : Keeps m s0 s) :
    Keeps m s0 (finishStep a0 a1 a2 a3 s) := by
  unfold finishStep
  extract_lets +onlyGivenNames -merge -useContext x0
  try clear_value x0
  refine noteStep_keeps (sub.of (by decide) hm) ?_
  refine setOutcome_keeps (sub.of (by decide) hm) ?_
  exact h

theorem countFailure_keeps {a0 : Nat} {s : State} (hm : sub 65561 m) (h : Keeps m s0 s) :
    Keeps m s0 (countFailure a0 s) := by
  unfold countFailure
  extract_lets +onlyGivenNames -merge -useContext x0
  try clear_value x0
  refine keeps_ite (fun _ => ?_) (fun _ => ?_)
  · refine setStepMode_keeps (sub.of (by decide) hm) ?_
    exact h
  · refine keeps_ite (fun _ => ?_) (fun _ => ?_)
    · refine setStepMode_keeps (sub.of (by decide) hm) ?_
      exact h
    · refine setStepMode_keeps (sub.of (by decide) hm) ?_
      exact h

theorem openRecord_keeps {a0 : Word} {s : State} (hm : sub 8454169 m) (h : Keeps m s0 s) :
    Keeps m s0 (openRecord a0 s) := by
  unfold openRecord
  extract_lets +onlyGivenNames -merge -useContext x0 x1 x2 x3 x4 x5
  have hx0 : Keeps m s0 x0 := by
    refine State.setReg_keeps (sub.of (by decide) hm) ?_
    refine writeHdr_keeps (sub.of (by decide) hm) ?_
    exact h
  clear_value x0
  try clear_value x1
  try clear_value x2
  have hx3 : Keeps m s0 x3 := by
    refine jrnPut_keeps (sub.of (by decide) hm) ?_
    exact hx0
  clear_value x3
  try clear_value x4
  have hx5 : Keeps m s0 x5 := by
    refine State.setStart_keeps (sub.of (by decide) hm) ?_
    exact hx3
  clear_value x5
  refine keeps_foldl (fun x6 y7 hx6 => ?_) _ ?_
  · refine noteStep_keeps (sub.of (by decide) hm) ?_
    exact hx6
  · exact hx5

theorem remakeJournal_keeps {s : State} (hm : sub 8585241 m) (h : Keeps m s0 s) : Keeps m s0 (remakeJournal s) := by
  unfold remakeJournal
  extract_lets +onlyGivenNames q1 q2 x0
  have hx0 : Keeps m s0 x0 :=
    keeps_parts (a := 196616) (sub.of (by decide) hm) h
      (fun p hp => by cases p <;> first | rfl | exact absurd hp (by decide)) (memWf_filter _ _) rfl rfl rfl
  clear_value x0
  extract_lets +onlyGivenNames x1
  have hx1 : Keeps m s0 x1 := by
    refine keeps_foldl (fun x2 y3 hx2 => ?_) _ ?_
    · exact setStepMode_keeps (sub.of (by decide) hm) hx2
    · exact State.setReg_keeps (sub.of (by decide) hm) hx0
  clear_value x1
  exact openRecord_keeps (sub.of (by decide) hm) (State.clrBit_keeps (sub.of (by decide) hm) hx1)

theorem failStep_keeps {a0 : Nat} {a1 : Nat} {a2 : Word} {s : State} (hm : sub 480463903 m) (h : Keeps m s0 s) :
    Keeps m s0 (failStep a0 a1 a2 s) := by
  unfold failStep
  extract_lets +onlyGivenNames -merge -useContext x0 x1 x2 x3 x4 x5 x6 x7 x8 x9
  have hx0 : Keeps m s0 x0 := by
    refine jrnFlag_keeps (sub.of (by decide) hm) ?_
    refine markFailed_keeps (sub.of (by decide) hm) ?_
    refine State.logPoint_keeps (sub.of (by decide) hm) ?_
    exact h
  clear_value x0
  try clear_value x1
  have hx2 : Keeps m s0 x2 := by
    refine countFailure_keeps (sub.of (by decide) hm) ?_
    exact hx0
  clear_value x2
  try clear_value x3
  have hx4 : Keeps m s0 x4 := by
    refine setOutcome_keeps (sub.of (by decide) hm) ?_
    refine State.setStart_keeps (sub.of (by decide) hm) ?_
    exact hx2
  clear_value x4
  have hx5 : Keeps m s0 x5 := by
    refine finishStep_keeps (sub.of (by decide) hm) ?_
    exact hx2
  clear_value x5
  try clear_value x6
  try clear_value x7
  have hx8 : Keeps m s0 x8 := by
    refine keeps_ite (fun _ => ?_) (fun _ => ?_)
    · refine State.setStart_keeps (sub.of (by decide) hm) ?_
      exact hx5
    · exact hx5
  clear_value x8
  have hx9 : Keeps m s0 x9 := by
    refine keeps_ite (fun _ => ?_) (fun _ => ?_)
    · refine remakeJournal_keeps (sub.of (by decide) hm) ?_
      exact hx8
    · exact hx8
  clear_value x9
  refine keeps_ite (fun _ => ?_) (fun _ => ?_)
  · refine beginAct_keeps (sub.of (by decide) hm) ?_
    exact hx4
  · refine keeps_ite (fun _ => ?_) (fun _ => ?_)
    · refine State.setStart_keeps (sub.of (by decide) hm) ?_
      exact hx5
    · refine goOn_keeps (sub.of (by decide) hm) ?_
      exact hx9

theorem putBody_keeps {a0 : Nat} {a1 : List Byte} {s : State} (hm : sub 65560 m) (h : Keeps m s0 s) :
    Keeps m s0 (putBody a0 a1 s) := by
  unfold putBody
  refine State.put_keeps (sub.of (by decide) hm) ?_
  exact h

theorem fetchImage_keeps {a0 : Nat} {a1 : Nat} {s : State} (hm : sub 210845721 m) (h : Keeps m s0 s) :
    Keeps m s0 (fetchImage a0 a1 s).2 := by
  unfold fetchImage
  split
  · dsimp -zeta only
    exact h
  · extract_lets +onlyGivenNames -merge -useContext x0 x1 x2 x3 x4 x5 x6 x7 x8
    try clear_value x0
    try clear_value x1
    try clear_value x2
    try clear_value x3
    try clear_value x4
    have hx5 : Keeps m s0 x5 := by
      refine keeps_ite (fun _ => ?_) (fun _ => ?_)
      · refine putBody_keeps (sub.of (by decide) hm) ?_
        exact h
      · exact h
    clear_value x5
    have hx6 : Keeps m s0 x6 := by
      refine imgAccept_keeps (sub.of (by decide) hm) ?_
      exact hx5
    clear_value x6
    have hx7 : Keeps m s0 x7 := by
      refine State.setFld_keeps (sub.of (by decide) hm) ?_
      refine State.setFld_keeps (sub.of (by decide) hm) ?_
      exact hx6
    clear_value x7
    try clear_value x8
    refine keeps_ite2 (fun _ => ?_) (fun _ => ?_)
    · dsimp -zeta only
      refine imgReject_keeps (sub.of (by decide) hm) ?_
      exact h
    · refine keeps_ite2 (fun _ => ?_) (fun _ => ?_)
      · dsimp -zeta only
        refine State.setStart_keeps (sub.of (by decide) hm) ?_
        exact hx7
      · dsimp -zeta only
        refine imgReject_keeps (sub.of (by decide) hm) ?_
        exact hx5

theorem readSfdp_keeps {a0 : List Nat} {s : State} (hm : sub 262145 m) (h : Keeps m s0 s) :
    Keeps m s0 (readSfdp a0 s) := by
  unfold readSfdp
  extract_lets +onlyGivenNames -merge -useContext x0 x1 x2 x3 x4
  try clear_value x0
  try clear_value x1
  try clear_value x2
  have hx3 : Keeps m s0 x3 := by
    refine State.setReg_keeps (sub.of (by decide) hm) ?_
    exact h
  clear_value x3
  try clear_value x4
  refine State.setHost_keeps (sub.of (by decide) hm) ?_
  exact hx3

theorem fetchFirmware_keeps {a0 : Bool} {a1 : List Nat} {s : State} (hm : sub 211107865 m) (h : Keeps m s0 s) :
    Keeps m s0 (fetchFirmware a0 a1 s).2 := by
  unfold fetchFirmware
  extract_lets +onlyGivenNames -merge -useContext x0
  have hx0 : Keeps m s0 x0 := by
    refine readSfdp_keeps (sub.of (by decide) hm) ?_
    exact h
  clear_value x0
  split
  · dsimp -zeta only
    exact hx0
  · split
    · dsimp -zeta only
      exact hx0
    · refine fetchImage_keeps (sub.of (by decide) hm) ?_
      exact hx0

theorem readPrevious_keeps {a0 : Word} {s : State} (hm : sub 65561 m) (h : Keeps m s0 s) :
    Keeps m s0 (readPrevious a0 s) := by
  unfold readPrevious
  refine keeps_foldl (fun x0 y1 hx0 => ?_) _ ?_
  · extract_lets +onlyGivenNames -merge -useContext x2 x3 x4
    try clear_value x2
    try clear_value x3
    have hx4 : Keeps m s0 x4 := by
      refine jrnPut_keeps (sub.of (by decide) hm) ?_
      exact hx0
    clear_value x4
    refine keeps_ite (fun _ => ?_) (fun _ => ?_)
    · refine keeps_ite (fun _ => ?_) (fun _ => ?_)
      · refine countFailure_keeps (sub.of (by decide) hm) ?_
        exact hx4
      · exact hx4
    · exact hx0
  · exact h

theorem readJournal_keeps {a0 : Bool} {s : State} (hm : sub 209797145 m) (h : Keeps m s0 s) :
    Keeps m s0 (readJournal a0 s) := by
  unfold readJournal
  extract_lets +onlyGivenNames -merge -useContext x0 x1
  try clear_value x0
  have hx1 : Keeps m s0 x1 := by
    refine readPrevious_keeps (sub.of (by decide) hm) ?_
    refine State.setBit_keeps (sub.of (by decide) hm) ?_
    exact h
  clear_value x1
  refine keeps_ite (fun _ => ?_) (fun _ => ?_)
  · refine openRecord_keeps (sub.of (by decide) hm) ?_
    exact hx1
  · refine jrnFlag_keeps (sub.of (by decide) hm) ?_
    refine State.setReg_keeps (sub.of (by decide) hm) ?_
    exact hx1

theorem lockPll_keeps {a0 : Bool} {s : State} (hm : sub 32 m) (h : Keeps m s0 s) :
    Keeps m s0 (lockPll a0 s) := by
  unfold lockPll
  extract_lets +onlyGivenNames -merge -useContext x0
  try clear_value x0
  refine State.setClock_keeps (sub.of (by decide) hm) ?_
  exact h

theorem releaseEngines_keeps {a0 : Nat} {s : State} (hm : sub 201342977 m) (h : Keeps m s0 s) :
    Keeps m s0 (releaseEngines a0 s) := by
  unfold releaseEngines
  refine keeps_foldl (fun x0 y1 hx0 => ?_) _ ?_
  · refine startEng_keeps (sub.of (by decide) hm) ?_
    refine State.setReg64_keeps (sub.of (by decide) hm) ?_
    exact hx0
  · exact h

theorem releaseStep_keeps {s : State} (hm : sub 201408537 m) (h : Keeps m s0 s) :
    Keeps m s0 (releaseStep s).2 := by
  unfold releaseStep
  split
  · dsimp -zeta only
    exact h
  · extract_lets +onlyGivenNames -merge -useContext x0 x1
    try clear_value x0
    have hx1 : Keeps m s0 x1 := by
      refine putBody_keeps (sub.of (by decide) hm) ?_
      exact h
    clear_value x1
    refine keeps_ite2 (fun _ => ?_) (fun _ => ?_)
    · refine keeps_ite2 (fun _ => ?_) (fun _ => ?_)
      · dsimp -zeta only
        refine releaseEngines_keeps (sub.of (by decide) hm) ?_
        exact hx1
      · dsimp -zeta only
        exact hx1
    · dsimp -zeta only
      refine releaseEngines_keeps (sub.of (by decide) hm) ?_
      exact h

theorem bootLoad_keeps {a0 : Nat} {s : State} (hm : sub 1545302105 m) (h : Keeps m s0 s) :
    Keeps m s0 (bootLoad a0 s) := by
  unfold bootLoad
  extract_lets +onlyGivenNames -merge -useContext x0
  have hx0 : Keeps m s0 x0 := by
    refine checkDone_keeps (sub.of (by decide) hm) ?_
    refine startLoadAt_keeps (sub.of (by decide) hm) ?_
    exact h
  clear_value x0
  split
  · exact hx0
  · refine keeps_ite (fun _ => ?_) (fun _ => ?_)
    · refine applyPass_keeps (sub.of (by decide) hm) ?_
      refine keeps_foldl (fun x1 y2 hx1 => ?_) _ ?_
      · refine engage_keeps (sub.of (by decide) hm) ?_
        exact hx1
      · refine setCfgState_keeps (sub.of (by decide) hm) ?_
        exact hx0
    · exact hx0

theorem loadStream_keeps {a0 : Bool} {s : State} (hm : sub 1545302105 m) (h : Keeps m s0 s) :
    Keeps m s0 (loadStream a0 s).2 := by
  unfold loadStream
  extract_lets +onlyGivenNames -merge -useContext x0 x1 x2 x3
  try clear_value x0
  try clear_value x1
  have hx3 : Keeps m s0 x3 := by
    refine State.setMnt_keeps' (sub.of (by decide) hm) ?_ rfl rfl
    exact h
  clear_value x3
  split
  · dsimp -zeta only
    exact h
  · extract_lets +onlyGivenNames -merge -useContext x4 x5 x6 x7 x8
    have hx4 : Keeps m s0 x4 := by
      refine State.put_keeps (sub.of (by decide) hm) ?_
      exact hx3
    clear_value x4
    have hx5 : Keeps m s0 x5 := by
      refine bootLoad_keeps (sub.of (by decide) hm) ?_
      exact hx4
    clear_value x5
    have hx6 : Keeps m s0 x6 := by
      refine zeroRange_keeps (sub.of (by decide) hm) ?_
      exact hx5
    clear_value x6
    have hx8 : Keeps m s0 x8 := by
      refine State.setMnt_keeps' (sub.of (by decide) hm) ?_ rfl rfl
      exact hx6
    clear_value x8
    dsimp -zeta only
    exact hx8

theorem applyRepairs_keeps {s : State} (hm : sub 196632 m) (h : Keeps m s0 s) :
    Keeps m s0 (applyRepairs s) := by
  unfold applyRepairs
  extract_lets +onlyGivenNames -merge -useContext x0 x1
  try clear_value x0
  try clear_value x1
  refine State.setLpddr_keeps (sub.of (by decide) hm) ?_
  refine State.putWords_keeps (sub.of (by decide) hm) ?_
  exact h

theorem trainMemory_keeps {a0 : Bool} {a1 : List Nat} {s : State} (hm : sub 196633 m) (h : Keeps m s0 s) :
    Keeps m s0 (trainMemory a0 a1 s).2 := by
  unfold trainMemory
  extract_lets +onlyGivenNames -merge -useContext x0 x1 x2 x3 x4 x5 x6 x7
  try clear_value x0
  try clear_value x1
  try clear_value x2
  try clear_value x3
  have hx4 : Keeps m s0 x4 := by
    refine applyRepairs_keeps (sub.of (by decide) hm) ?_
    exact h
  clear_value x4
  have hx5 : Keeps m s0 x5 := by
    refine keeps_foldl (fun x8 y9 hx8 => ?_) _ ?_
    · extract_lets +onlyGivenNames -merge -useContext x10 x11 x12 x13
      try clear_value x10
      try clear_value x11
      try clear_value x12
      try clear_value x13
      refine State.setReg_keeps (sub.of (by decide) hm) ?_
      exact hx8
    · exact hx4
  clear_value x5
  have hx6 : Keeps m s0 x6 := by
    refine State.setFld_keeps (sub.of (by decide) hm) ?_
    refine State.setFld_keeps (sub.of (by decide) hm) ?_
    exact hx5
  clear_value x6
  have hx7 : Keeps m s0 x7 := by
    refine setSizes_keeps (sub.of (by decide) hm) ?_
    exact hx6
  clear_value x7
  refine keeps_ite2 (fun _ => ?_) (fun _ => ?_)
  · dsimp -zeta only
    exact hx7
  · dsimp -zeta only
    refine zeroRecorded_keeps (sub.of (by decide) hm) ?_
    exact hx7

theorem selectCrystal_keeps {a0 : Bool} {s : State} (hm : sub 201343009 m) (h : Keeps m s0 s) :
    Keeps m s0 (selectCrystal a0 s) := by
  unfold selectCrystal
  extract_lets +onlyGivenNames -merge -useContext x0 x1
  have hx0 : Keeps m s0 x0 := by
    refine gainCrystal_keeps (sub.of (by decide) hm) ?_
    exact h
  clear_value x0
  try clear_value x1
  refine setSelect_keeps (sub.of (by decide) hm) ?_
  refine State.setClock_keeps (sub.of (by decide) hm) ?_
  exact hx0

theorem endAct_keeps {a0 : Nat} {a1 : Bool} {a2 : Bool} {a3 : List Nat} {s : State} (hm : sub 1553956473 m) (h : Keeps m s0 s) :
    Keeps m s0 (endAct a0 a1 a2 a3 s).2 := by
  unfold endAct
  extract_lets +onlyGivenNames -merge -useContext x0
  have hx0 : Keeps m s0 x0 := by
    refine keeps_ite (fun _ => ?_) (fun _ => ?_)
    · split
      · refine State.setFld_keeps (sub.of (by decide) hm) ?_
        exact h
      · exact h
    · exact h
  clear_value x0
  split
  · dsimp -zeta only
    exact hx0
  · refine keeps_ite2 (fun _ => ?_) (fun _ => ?_)
    · dsimp -zeta only
      refine selectCrystal_keeps (sub.of (by decide) hm) ?_
      exact h
    · dsimp -zeta only
      exact h
  · refine keeps_ite2 (fun _ => ?_) (fun _ => ?_)
    · dsimp -zeta only
      refine lockPll_keeps (sub.of (by decide) hm) ?_
      exact h
    · dsimp -zeta only
      exact h
  · refine keeps_ite2 (fun _ => ?_) (fun _ => ?_)
    · dsimp -zeta only
      refine readJournal_keeps (sub.of (by decide) hm) ?_
      exact h
    · dsimp -zeta only
      exact h
  · dsimp -zeta only
    refine mantleStart_keeps (sub.of (by decide) hm) ?_
    exact h
  · refine keeps_ite2 (fun _ => ?_) (fun _ => ?_)
    · refine fetchFirmware_keeps (sub.of (by decide) hm) ?_
      exact h
    · dsimp -zeta only
      exact h
  · dsimp -zeta only
    refine loadRepairs_keeps (sub.of (by decide) hm) ?_
    exact h
  · refine keeps_ite2 (fun _ => ?_) (fun _ => ?_)
    · refine trainMemory_keeps (sub.of (by decide) hm) ?_
      exact h
    · dsimp -zeta only
      exact h
  · refine releaseStep_keeps (sub.of (by decide) hm) ?_
    exact h
  · refine keeps_ite2 (fun _ => ?_) (fun _ => ?_)
    · refine loadStream_keeps (sub.of (by decide) hm) ?_
      exact h
    · dsimp -zeta only
      exact h
  · refine keeps_ite2 (fun _ => ?_) (fun _ => ?_)
    · dsimp -zeta only
      refine calibrate_keeps (sub.of (by decide) hm) ?_
      exact h
    · dsimp -zeta only
      exact h
  · dsimp -zeta only
    exact h
  · refine keeps_ite2 (fun _ => ?_) (fun _ => ?_)
    · dsimp -zeta only
      refine keeps_ite (fun _ => ?_) (fun _ => ?_)
      · refine linkUp_keeps (sub.of (by decide) hm) ?_
        exact h
      · exact h
    · dsimp -zeta only
      exact h
  · dsimp -zeta only
    exact h

theorem passStep_keeps {a0 : Nat} {a1 : Word} {s : State} (hm : sub 211897375 m) (h : Keeps m s0 s) :
    Keeps m s0 (passStep a0 a1 s) := by
  unfold passStep
  extract_lets +onlyGivenNames -merge -useContext x0 x1 x2
  try clear_value x0
  have hx1 : Keeps m s0 x1 := by
    refine keeps_ite (fun _ => ?_) (fun _ => ?_)
    · refine setStepMode_keeps (sub.of (by decide) hm) ?_
      exact h
    · exact h
  clear_value x1
  have hx2 : Keeps m s0 x2 := by
    refine finishStep_keeps (sub.of (by decide) hm) ?_
    exact hx1
  clear_value x2
  refine goOn_keeps (sub.of (by decide) hm) ?_
  exact hx2

theorem startStep_keeps {a0 : Bool} {a1 : List Nat} {s : State} (hm : sub 1556053631 m) (h : Keeps m s0 s) :
    Keeps m s0 (startStep a0 a1 s) := by
  unfold startStep
  extract_lets +onlyGivenNames -merge -useContext x0 x1 x2
  have hx0 : Keeps m s0 x0 := by
    refine beginStart_keeps (sub.of (by decide) hm) ?_
    exact h
  clear_value x0
  try clear_value x1
  try clear_value x2
  refine keeps_ite (fun _ => ?_) (fun _ => ?_)
  · exact h
  · refine keeps_ite (fun _ => ?_) (fun _ => ?_)
    · exact hx0
    · split
      · rename_i z3 z4 e5
        have hz4 : Keeps m s0 z4 := by
          have q : _ = z4 := congrArg Prod.snd e5
          rw [← q]
          refine endAct_keeps (sub.of (by decide) hm) ?_
          exact hx0
        split
        · refine passStep_keeps (sub.of (by decide) hm) ?_
          exact hz4
        · refine failStep_keeps (sub.of (by decide) hm) ?_
          exact hz4

theorem stepTimeout_keeps {a0 : Nat} {s : State} (hm : sub 480463903 m) (h : Keeps m s0 s) :
    Keeps m s0 (stepTimeout a0 s) := by
  unfold stepTimeout
  extract_lets +onlyGivenNames -merge -useContext x0
  have hx0 : Keeps m s0 x0 := by
    refine beginStart_keeps (sub.of (by decide) hm) ?_
    exact h
  clear_value x0
  refine keeps_ite (fun _ => ?_) (fun _ => ?_)
  · exact h
  · refine keeps_ite (fun _ => ?_) (fun _ => ?_)
    · refine failStep_keeps (sub.of (by decide) hm) ?_
      exact hx0
    · exact hx0

theorem freshPart_keeps {cause : Nat} {s : State} (hm : sub 1073741823 m) (h : Keeps m s0 s) :
    Keeps m s0 (freshPart cause s) := by
  unfold freshPart
  refine State.setReg_keeps (sub.of (by decide) hm) (h.trans ⟨fun p hp => ?_, memWf_filter _ _, fun _ => rfl, fun _ => ?_, Nat.le_refl _⟩)
  · cases p
    case pending => rfl
    case free => rfl
    all_goals exact absurd (hm.bit hp) (by decide)
  · exact ⟨fun _ _ q => (by simp [State.reset] at q), fun _ h => h, fun _ h => h, fun _ => Nat.le_refl _⟩

theorem cutBurn_keeps {s : State} (hm : sub 1074790400 m) (h : Keeps m s0 s) : Keeps m s0 (cutBurn s) := by
  unfold cutBurn
  split
  · rename_i i v q
    refine partBurn_keeps (sub.of (by decide) hm) h (fun b w hw => ?_)
    have k := (h.fuse b).1 i v q
    rw [q] at hw
    obtain rfl : v = w := by simpa using hw
    exact ⟨k, rfl⟩
  · exact h

theorem losePower_keeps {s : State} (hm : sub 2147483647 m) (h : Keeps m s0 s) :
    Keeps m s0 (losePower s) := by
  unfold losePower
  refine freshPart_keeps (sub.of (by decide) hm) ?_
  refine cutBurn_keeps (sub.of (by decide) hm) ?_
  exact h

theorem resetPart_keeps {cause straps : Nat} {s : State} (hm : sub 2147483647 m) (h : Keeps m s0 s) :
    Keeps m s0 (resetPart cause straps s) := by
  unfold resetPart
  extract_lets +onlyGivenNames x0
  have hx0 : Keeps m s0 x0 := cutBurn_keeps (sub.of (by decide) hm) (endUnlock_keeps (sub.of (by decide) hm) h)
  clear_value x0
  extract_lets +onlyGivenNames x1
  have hx1 : Keeps m s0 x1 := freshPart_keeps (sub.of (by decide) hm) hx0
  clear_value x1
  extract_lets +onlyGivenNames q1 q2 q3 q4 x2
  have hx2 : Keeps m s0 x2 :=
    keeps_parts (a := 525568) (sub.of (by decide) hm) hx1
      (fun p hp => by cases p <;> first | rfl | exact absurd hp (by decide)) id rfl rfl rfl
  clear_value x2
  extract_lets +onlyGivenNames x3
  have hx3 : Keeps m s0 x3 := by
    refine keeps_foldl (fun x4 y5 hx4 => ?_) _ hx2
    exact State.setReg_keeps (sub.of (by decide) hm) hx4
  clear_value x3
  exact State.setFld_keeps (sub.of (by decide) hm) hx3

theorem internalRestart_keeps {a0 : Nat} {s : State} (hm : sub 2147483647 m) (h : Keeps m s0 s) :
    Keeps m s0 (internalRestart a0 s) := by
  unfold internalRestart
  refine keeps_ite (fun _ => ?_) (fun _ => ?_)
  · refine resetPart_keeps (sub.of (by decide) hm) ?_
    exact h
  · exact h

end Sys2Proof.Machine
end

