-- ==== Sys2Proof/Laws/Frame/CtlBus.lean ====
section
/-!
SUPPORT. What the functions of Machine/CtlBus.lean touch: one lemma each, in the terms of `Keeps`.
-/
namespace Sys2Proof.Machine

variable {m : Nat} {s0 : State}

theorem notAssigned_keeps {a0 : Req} {a1 : Nat} {s : State} (hm : sub 201342977 m) (h : Keeps m s0 s) :
    Keeps m s0 (notAssigned a0 a1 s) := by
  unfold notAssigned
  refine keeps_ite (fun _ => ?_) (fun _ => ?_)
  · refine hostViol_keeps (sub.of (by decide) hm) ?_
    exact h
  · exact h

theorem plainRead_keeps {a0 : Word} {s : State} (hm : sub 0 m) (h : Keeps m s0 s) :
    Keeps m s0 (plainRead a0 s).2 := by
  unfold plainRead
  dsimp -zeta only
  exact h

theorem calRead_keeps {a0 : Nat} {s : State} (hm : sub 0 m) (h : Keeps m s0 s) :
    Keeps m s0 (calRead a0 s).2 := by
  unfold calRead
  refine keeps_ite2 (fun _ => ?_) (fun _ => ?_)
  · refine plainRead_keeps (sub.of (by decide) hm) ?_
    exact h
  · refine keeps_ite2 (fun _ => ?_) (fun _ => ?_)
    · refine plainRead_keeps (sub.of (by decide) hm) ?_
      exact h
    · refine plainRead_keeps (sub.of (by decide) hm) ?_
      exact h

theorem tstRead_keeps {a0 : Nat} {s : State} (hm : sub 1 m) (h : Keeps m s0 s) :
    Keeps m s0 (tstRead a0 s).2 := by
  unfold tstRead
  refine keeps_ite2 (fun _ => ?_) (fun _ => ?_)
  · refine plainRead_keeps (sub.of (by decide) hm) ?_
    exact h
  · refine keeps_ite2 (fun _ => ?_) (fun _ => ?_)
    · refine readClear_keeps (sub.of (by decide) hm) ?_
      exact h
    · refine keeps_ite2 (fun _ => ?_) (fun _ => ?_)
      · refine readClear_keeps (sub.of (by decide) hm) ?_
        exact h
      · refine plainRead_keeps (sub.of (by decide) hm) ?_
        exact h

theorem cqRead_keeps {a0 : Req} {a1 : Nat} {s : State} (hm : sub 3 m) (h : Keeps m s0 s) :
    Keeps m s0 (cqRead a0 a1 s).2 := by
  unfold cqRead
  extract_lets +onlyGivenNames -merge -useContext x0 x1 x2 x3 x4 x5
  try clear_value x0
  try clear_value x1
  try clear_value x2
  try clear_value x3
  try clear_value x4
  try clear_value x5
  refine keeps_ite2 (fun _ => ?_) (fun _ => ?_)
  · refine keeps_ite2 (fun _ => ?_) (fun _ => ?_)
    · refine plainRead_keeps (sub.of (by decide) hm) ?_
      exact h
    · refine keeps_ite2 (fun _ => ?_) (fun _ => ?_)
      · refine readEncPos_keeps (sub.of (by decide) hm) ?_
        exact h
      · refine keeps_ite2 (fun _ => ?_) (fun _ => ?_)
        · refine plainRead_keeps (sub.of (by decide) hm) ?_
          exact h
        · refine keeps_ite2 (fun _ => ?_) (fun _ => ?_)
          · refine plainRead_keeps (sub.of (by decide) hm) ?_
            exact h
          · refine keeps_ite2 (fun _ => ?_) (fun _ => ?_)
            · refine readClear_keeps (sub.of (by decide) hm) ?_
              exact h
            · refine plainRead_keeps (sub.of (by decide) hm) ?_
              exact h
  · refine keeps_ite2 (fun _ => ?_) (fun _ => ?_)
    · refine plainRead_keeps (sub.of (by decide) hm) ?_
      exact h
    · refine keeps_ite2 (fun _ => ?_) (fun _ => ?_)
      · refine keeps_ite2 (fun _ => ?_) (fun _ => ?_)
        · refine plainRead_keeps (sub.of (by decide) hm) ?_
          exact h
        · refine plainRead_keeps (sub.of (by decide) hm) ?_
          exact h
      · refine keeps_ite2 (fun _ => ?_) (fun _ => ?_)
        · refine keeps_ite2 (fun _ => ?_) (fun _ => ?_)
          · refine plainRead_keeps (sub.of (by decide) hm) ?_
            exact h
          · refine keeps_ite2 (fun _ => ?_) (fun _ => ?_)
            · refine plainRead_keeps (sub.of (by decide) hm) ?_
              exact h
            · refine keeps_ite2 (fun _ => ?_) (fun _ => ?_)
              · refine readClear_keeps (sub.of (by decide) hm) ?_
                exact h
              · refine plainRead_keeps (sub.of (by decide) hm) ?_
                exact h
        · refine keeps_ite2 (fun _ => ?_) (fun _ => ?_)
          · refine plainRead_keeps (sub.of (by decide) hm) ?_
            exact h
          · refine plainRead_keeps (sub.of (by decide) hm) ?_
            exact h

theorem rcRead_keeps {a0 : Nat} {a1 : List Fld} {s : State} (hm : sub 1 m) (h : Keeps m s0 s) :
    Keeps m s0 (rcRead a0 a1 s).2 := by
  unfold rcRead
  dsimp -zeta only
  refine keeps_foldl (fun x0 y1 hx0 => ?_) _ ?_
  · refine State.setFld_keeps (sub.of (by decide) hm) ?_
    exact hx0
  · exact h

theorem hostRead_keeps {a0 : Nat} {s : State} (hm : sub 1 m) (h : Keeps m s0 s) :
    Keeps m s0 (hostRead a0 s).2 := by
  unfold hostRead
  refine keeps_ite2 (fun _ => ?_) (fun _ => ?_)
  · refine rcRead_keeps (sub.of (by decide) hm) ?_
    exact h
  · refine plainRead_keeps (sub.of (by decide) hm) ?_
    exact h

theorem plRead_keeps {a0 : Req} {a1 : Nat} {s : State} (hm : sub 0 m) (h : Keeps m s0 s) :
    Keeps m s0 (plRead a0 a1 s).2 := by
  unfold plRead
  refine keeps_ite2 (fun _ => ?_) (fun _ => ?_)
  · refine plainRead_keeps (sub.of (by decide) hm) ?_
    exact h
  · refine keeps_ite2 (fun _ => ?_) (fun _ => ?_)
    · refine plainRead_keeps (sub.of (by decide) hm) ?_
      exact h
    · refine plainRead_keeps (sub.of (by decide) hm) ?_
      exact h

theorem dceRead_keeps {a0 : Req} {a1 : Nat} {s : State} (hm : sub 3 m) (h : Keeps m s0 s) :
    Keeps m s0 (dceRead a0 a1 s).2 := by
  unfold dceRead
  extract_lets +onlyGivenNames -merge -useContext x0 x1 x2 x3
  try clear_value x0
  try clear_value x1
  try clear_value x2
  try clear_value x3
  refine keeps_ite2 (fun _ => ?_) (fun _ => ?_)
  · refine keeps_ite2 (fun _ => ?_) (fun _ => ?_)
    · refine plainRead_keeps (sub.of (by decide) hm) ?_
      exact h
    · refine keeps_ite2 (fun _ => ?_) (fun _ => ?_)
      · refine plainRead_keeps (sub.of (by decide) hm) ?_
        exact h
      · refine plainRead_keeps (sub.of (by decide) hm) ?_
        exact h
  · refine keeps_ite2 (fun _ => ?_) (fun _ => ?_)
    · refine plainRead_keeps (sub.of (by decide) hm) ?_
      exact h
    · refine keeps_ite2 (fun _ => ?_) (fun _ => ?_)
      · refine readLastStamp_keeps (sub.of (by decide) hm) ?_
        exact h
      · refine keeps_ite2 (fun _ => ?_) (fun _ => ?_)
        · refine plainRead_keeps (sub.of (by decide) hm) ?_
          exact h
        · refine keeps_ite2 (fun _ => ?_) (fun _ => ?_)
          · refine readFast_keeps (sub.of (by decide) hm) ?_
            exact h
          · refine keeps_ite2 (fun _ => ?_) (fun _ => ?_)
            · refine readClear_keeps (sub.of (by decide) hm) ?_
              exact h
            · refine plainRead_keeps (sub.of (by decide) hm) ?_
              exact h

theorem meRead_keeps {a0 : Nat} {s : State} (hm : sub 1 m) (h : Keeps m s0 s) :
    Keeps m s0 (meRead a0 s).2 := by
  unfold meRead
  extract_lets +onlyGivenNames -merge -useContext x0 x1
  try clear_value x0
  try clear_value x1
  refine keeps_ite2 (fun _ => ?_) (fun _ => ?_)
  · refine plainRead_keeps (sub.of (by decide) hm) ?_
    exact h
  · refine keeps_ite2 (fun _ => ?_) (fun _ => ?_)
    · refine readClear_keeps (sub.of (by decide) hm) ?_
      exact h
    · refine keeps_ite2 (fun _ => ?_) (fun _ => ?_)
      · refine readClear_keeps (sub.of (by decide) hm) ?_
        exact h
      · refine keeps_ite2 (fun _ => ?_) (fun _ => ?_)
        · refine plainRead_keeps (sub.of (by decide) hm) ?_
          exact h
        · refine keeps_ite2 (fun _ => ?_) (fun _ => ?_)
          · refine plainRead_keeps (sub.of (by decide) hm) ?_
            exact h
          · refine keeps_ite2 (fun _ => ?_) (fun _ => ?_)
            · refine plainRead_keeps (sub.of (by decide) hm) ?_
              exact h
            · refine plainRead_keeps (sub.of (by decide) hm) ?_
              exact h

theorem evtRead_keeps {a0 : Nat} {s : State} (hm : sub 1 m) (h : Keeps m s0 s) :
    Keeps m s0 (evtRead a0 s).2 := by
  unfold evtRead
  refine keeps_ite2 (fun _ => ?_) (fun _ => ?_)
  · refine rcRead_keeps (sub.of (by decide) hm) ?_
    exact h
  · refine plainRead_keeps (sub.of (by decide) hm) ?_
    exact h

theorem sysRead_keeps {a0 : Req} {a1 : Nat} {s : State} (hm : sub 2 m) (h : Keeps m s0 s) :
    Keeps m s0 (sysRead a0 a1 s).2 := by
  unfold sysRead
  refine keeps_ite2 (fun _ => ?_) (fun _ => ?_)
  · refine plainRead_keeps (sub.of (by decide) hm) ?_
    exact h
  · refine keeps_ite2 (fun _ => ?_) (fun _ => ?_)
    · refine readLineTime_keeps (sub.of (by decide) hm) ?_
      exact h
    · refine keeps_ite2 (fun _ => ?_) (fun _ => ?_)
      · refine plainRead_keeps (sub.of (by decide) hm) ?_
        exact h
      · refine keeps_ite2 (fun _ => ?_) (fun _ => ?_)
        · refine plainRead_keeps (sub.of (by decide) hm) ?_
          exact h
        · refine keeps_ite2 (fun _ => ?_) (fun _ => ?_)
          · refine plainRead_keeps (sub.of (by decide) hm) ?_
            exact h
          · refine plainRead_keeps (sub.of (by decide) hm) ?_
            exact h

theorem memcRead_keeps {a0 : Nat} {s : State} (hm : sub 1 m) (h : Keeps m s0 s) :
    Keeps m s0 (memcRead a0 s).2 := by
  unfold memcRead
  refine keeps_ite2 (fun _ => ?_) (fun _ => ?_)
  · refine rcRead_keeps (sub.of (by decide) hm) ?_
    exact h
  · refine plainRead_keeps (sub.of (by decide) hm) ?_
    exact h

theorem pgRead_keeps {a0 : Nat} {s : State} (hm : sub 0 m) (h : Keeps m s0 s) :
    Keeps m s0 (pgRead a0 s).2 := by
  unfold pgRead
  refine keeps_ite2 (fun _ => ?_) (fun _ => ?_)
  · refine plainRead_keeps (sub.of (by decide) hm) ?_
    exact h
  · refine plainRead_keeps (sub.of (by decide) hm) ?_
    exact h

theorem lioRead_keeps {a0 : Nat} {s : State} (hm : sub 1073742080 m) (h : Keeps m s0 s) :
    Keeps m s0 (lioRead a0 s).2 := by
  unfold lioRead
  extract_lets +onlyGivenNames -merge -useContext x0 x1 x2
  try clear_value x0
  try clear_value x1
  try clear_value x2
  refine keeps_ite2 (fun _ => ?_) (fun _ => ?_)
  · refine readLioIn_keeps (sub.of (by decide) hm) ?_
    exact h
  · refine keeps_ite2 (fun _ => ?_) (fun _ => ?_)
    · refine plainRead_keeps (sub.of (by decide) hm) ?_
      exact h
    · refine keeps_ite2 (fun _ => ?_) (fun _ => ?_)
      · refine keeps_ite2 (fun _ => ?_) (fun _ => ?_)
        · refine keeps_ite2 (fun _ => ?_) (fun _ => ?_)
          · refine uartPop_keeps (sub.of (by decide) hm) ?_
            exact h
          · refine keeps_ite2 (fun _ => ?_) (fun _ => ?_)
            · refine plainRead_keeps (sub.of (by decide) hm) ?_
              exact h
            · refine plainRead_keeps (sub.of (by decide) hm) ?_
              exact h
        · refine keeps_ite2 (fun _ => ?_) (fun _ => ?_)
          · refine keeps_ite2 (fun _ => ?_) (fun _ => ?_)
            · refine spiPop_keeps (sub.of (by decide) hm) ?_
              exact h
            · refine keeps_ite2 (fun _ => ?_) (fun _ => ?_)
              · refine plainRead_keeps (sub.of (by decide) hm) ?_
                exact h
              · refine plainRead_keeps (sub.of (by decide) hm) ?_
                exact h
          · refine keeps_ite2 (fun _ => ?_) (fun _ => ?_)
            · refine i2cPop_keeps (sub.of (by decide) hm) ?_
              exact h
            · refine keeps_ite2 (fun _ => ?_) (fun _ => ?_)
              · refine plainRead_keeps (sub.of (by decide) hm) ?_
                exact h
              · refine plainRead_keeps (sub.of (by decide) hm) ?_
                exact h
      · refine plainRead_keeps (sub.of (by decide) hm) ?_
        exact h

theorem mntRead_keeps {a0 : Nat} {s : State} (hm : sub 0 m) (h : Keeps m s0 s) :
    Keeps m s0 (mntRead a0 s).2 := by
  unfold mntRead
  extract_lets +onlyGivenNames -merge -useContext x0 x1
  try clear_value x0
  try clear_value x1
  refine keeps_ite2 (fun _ => ?_) (fun _ => ?_)
  · refine plainRead_keeps (sub.of (by decide) hm) ?_
    exact h
  · refine keeps_ite2 (fun _ => ?_) (fun _ => ?_)
    · refine plainRead_keeps (sub.of (by decide) hm) ?_
      exact h
    · refine plainRead_keeps (sub.of (by decide) hm) ?_
      exact h

theorem cfgRead_keeps {a0 : Nat} {s : State} (hm : sub 1 m) (h : Keeps m s0 s) :
    Keeps m s0 (cfgRead a0 s).2 := by
  unfold cfgRead
  refine keeps_ite2 (fun _ => ?_) (fun _ => ?_)
  · refine rcRead_keeps (sub.of (by decide) hm) ?_
    exact h
  · refine plainRead_keeps (sub.of (by decide) hm) ?_
    exact h

theorem dpReadReg_keeps {a0 : Nat} {s : State} (hm : sub 0 m) (h : Keeps m s0 s) :
    Keeps m s0 (dpReadReg a0 s).2 := by
  unfold dpReadReg
  refine keeps_ite2 (fun _ => ?_) (fun _ => ?_)
  · refine plainRead_keeps (sub.of (by decide) hm) ?_
    exact h
  · refine plainRead_keeps (sub.of (by decide) hm) ?_
    exact h

theorem atRead_keeps {a0 : Nat} {s : State} (hm : sub 1 m) (h : Keeps m s0 s) :
    Keeps m s0 (atRead a0 s).2 := by
  unfold atRead
  extract_lets +onlyGivenNames -merge -useContext x0 x1 x2
  try clear_value x0
  try clear_value x1
  try clear_value x2
  refine keeps_ite2 (fun _ => ?_) (fun _ => ?_)
  · refine plainRead_keeps (sub.of (by decide) hm) ?_
    exact h
  · refine keeps_ite2 (fun _ => ?_) (fun _ => ?_)
    · refine plainRead_keeps (sub.of (by decide) hm) ?_
      exact h
    · refine keeps_ite2 (fun _ => ?_) (fun _ => ?_)
      · refine plainRead_keeps (sub.of (by decide) hm) ?_
        refine State.setFld_keeps (sub.of (by decide) hm) ?_
        exact h
      · refine keeps_ite2 (fun _ => ?_) (fun _ => ?_)
        · refine plainRead_keeps (sub.of (by decide) hm) ?_
          exact h
        · refine keeps_ite2 (fun _ => ?_) (fun _ => ?_)
          · refine plainRead_keeps (sub.of (by decide) hm) ?_
            exact h
          · refine keeps_ite2 (fun _ => ?_) (fun _ => ?_)
            · refine readClear_keeps (sub.of (by decide) hm) ?_
              exact h
            · refine keeps_ite2 (fun _ => ?_) (fun _ => ?_)
              · refine plainRead_keeps (sub.of (by decide) hm) ?_
                exact h
              · refine plainRead_keeps (sub.of (by decide) hm) ?_
                exact h

theorem hdRead_keeps {a0 : Nat} {s : State} (hm : sub 0 m) (h : Keeps m s0 s) :
    Keeps m s0 (hdRead a0 s).2 := by
  unfold hdRead
  extract_lets +onlyGivenNames -merge -useContext x0 x1
  try clear_value x0
  try clear_value x1
  refine keeps_ite2 (fun _ => ?_) (fun _ => ?_)
  · refine plainRead_keeps (sub.of (by decide) hm) ?_
    exact h
  · refine keeps_ite2 (fun _ => ?_) (fun _ => ?_)
    · refine plainRead_keeps (sub.of (by decide) hm) ?_
      exact h
    · refine keeps_ite2 (fun _ => ?_) (fun _ => ?_)
      · refine plainRead_keeps (sub.of (by decide) hm) ?_
        exact h
      · refine keeps_ite2 (fun _ => ?_) (fun _ => ?_)
        · refine plainRead_keeps (sub.of (by decide) hm) ?_
          exact h
        · refine keeps_ite2 (fun _ => ?_) (fun _ => ?_)
          · refine plainRead_keeps (sub.of (by decide) hm) ?_
            exact h
          · refine plainRead_keeps (sub.of (by decide) hm) ?_
            exact h

theorem slRead_keeps {a0 : Req} {a1 : Nat} {s : State} (hm : sub 1 m) (h : Keeps m s0 s) :
    Keeps m s0 (slRead a0 a1 s).2 := by
  unfold slRead
  extract_lets +onlyGivenNames -merge -useContext x0
  try clear_value x0
  refine keeps_ite2 (fun _ => ?_) (fun _ => ?_)
  · refine plainRead_keeps (sub.of (by decide) hm) ?_
    exact h
  · refine keeps_ite2 (fun _ => ?_) (fun _ => ?_)
    · refine rcRead_keeps (sub.of (by decide) hm) ?_
      exact h
    · refine keeps_ite2 (fun _ => ?_) (fun _ => ?_)
      · refine keeps_ite2 (fun _ => ?_) (fun _ => ?_)
        · refine plainRead_keeps (sub.of (by decide) hm) ?_
          exact h
        · refine keeps_ite2 (fun _ => ?_) (fun _ => ?_)
          · refine rcRead_keeps (sub.of (by decide) hm) ?_
            exact h
          · refine keeps_ite2 (fun _ => ?_) (fun _ => ?_)
            · refine rcRead_keeps (sub.of (by decide) hm) ?_
              exact h
            · refine plainRead_keeps (sub.of (by decide) hm) ?_
              exact h
      · refine plainRead_keeps (sub.of (by decide) hm) ?_
        exact h

theorem jqRead_keeps {a0 : Req} {a1 : Nat} {s : State} (hm : sub 3 m) (h : Keeps m s0 s) :
    Keeps m s0 (jqRead a0 a1 s).2 := by
  unfold jqRead
  extract_lets +onlyGivenNames -merge -useContext x0 x1
  try clear_value x0
  try clear_value x1
  refine keeps_ite2 (fun _ => ?_) (fun _ => ?_)
  · refine plainRead_keeps (sub.of (by decide) hm) ?_
    exact h
  · refine keeps_ite2 (fun _ => ?_) (fun _ => ?_)
    · refine readHeadDl_keeps (sub.of (by decide) hm) ?_
      exact h
    · refine keeps_ite2 (fun _ => ?_) (fun _ => ?_)
      · refine plainRead_keeps (sub.of (by decide) hm) ?_
        exact h
      · refine keeps_ite2 (fun _ => ?_) (fun _ => ?_)
        · refine readCnt_keeps (sub.of (by decide) hm) ?_
          exact h
        · refine keeps_ite2 (fun _ => ?_) (fun _ => ?_)
          · refine plainRead_keeps (sub.of (by decide) hm) ?_
            exact h
          · refine plainRead_keeps (sub.of (by decide) hm) ?_
            exact h

theorem blockRead_keeps {a0 : Req} {a1 : Nat} {s : State} (hm : sub 1073742083 m) (h : Keeps m s0 s) :
    Keeps m s0 (blockRead a0 a1 s).2 := by
  unfold blockRead
  refine keeps_ite2 (fun _ => ?_) (fun _ => ?_)
  · refine sysRead_keeps (sub.of (by decide) hm) ?_
    exact h
  · refine keeps_ite2 (fun _ => ?_) (fun _ => ?_)
    · refine evtRead_keeps (sub.of (by decide) hm) ?_
      exact h
    · refine keeps_ite2 (fun _ => ?_) (fun _ => ?_)
      · refine plainRead_keeps (sub.of (by decide) hm) ?_
        exact h
      · refine keeps_ite2 (fun _ => ?_) (fun _ => ?_)
        · refine mntRead_keeps (sub.of (by decide) hm) ?_
          exact h
        · refine keeps_ite2 (fun _ => ?_) (fun _ => ?_)
          · refine calRead_keeps (sub.of (by decide) hm) ?_
            exact h
          · refine keeps_ite2 (fun _ => ?_) (fun _ => ?_)
            · refine lioRead_keeps (sub.of (by decide) hm) ?_
              exact h
            · refine keeps_ite2 (fun _ => ?_) (fun _ => ?_)
              · refine hostRead_keeps (sub.of (by decide) hm) ?_
                exact h
              · refine keeps_ite2 (fun _ => ?_) (fun _ => ?_)
                · refine dpReadReg_keeps (sub.of (by decide) hm) ?_
                  exact h
                · refine keeps_ite2 (fun _ => ?_) (fun _ => ?_)
                  · refine memcRead_keeps (sub.of (by decide) hm) ?_
                    exact h
                  · refine keeps_ite2 (fun _ => ?_) (fun _ => ?_)
                    · refine cfgRead_keeps (sub.of (by decide) hm) ?_
                      exact h
                    · refine keeps_ite2 (fun _ => ?_) (fun _ => ?_)
                      · refine slRead_keeps (sub.of (by decide) hm) ?_
                        exact h
                      · refine keeps_ite2 (fun _ => ?_) (fun _ => ?_)
                        · refine plRead_keeps (sub.of (by decide) hm) ?_
                          exact h
                        · refine keeps_ite2 (fun _ => ?_) (fun _ => ?_)
                          · refine cqRead_keeps (sub.of (by decide) hm) ?_
                            exact h
                          · refine keeps_ite2 (fun _ => ?_) (fun _ => ?_)
                            · refine pgRead_keeps (sub.of (by decide) hm) ?_
                              exact h
                            · refine keeps_ite2 (fun _ => ?_) (fun _ => ?_)
                              · refine hdRead_keeps (sub.of (by decide) hm) ?_
                                exact h
                              · refine keeps_ite2 (fun _ => ?_) (fun _ => ?_)
                                · refine atRead_keeps (sub.of (by decide) hm) ?_
                                  exact h
                                · refine keeps_ite2 (fun _ => ?_) (fun _ => ?_)
                                  · refine dceRead_keeps (sub.of (by decide) hm) ?_
                                    exact h
                                  · refine keeps_ite2 (fun _ => ?_) (fun _ => ?_)
                                    · refine jqRead_keeps (sub.of (by decide) hm) ?_
                                      exact h
                                    · refine keeps_ite2 (fun _ => ?_) (fun _ => ?_)
                                      · refine meRead_keeps (sub.of (by decide) hm) ?_
                                        exact h
                                      · refine tstRead_keeps (sub.of (by decide) hm) ?_
                                        exact h

theorem ctlRead_keeps {a0 : Req} {a1 : Nat} {s : State} (hm : sub 1275085059 m) (h : Keeps m s0 s) :
    Keeps m s0 (ctlRead a0 a1 s).2 := by
  unfold ctlRead
  refine keeps_ite2 (fun _ => ?_) (fun _ => ?_)
  · refine blockRead_keeps (sub.of (by decide) hm) ?_
    exact h
  · refine keeps_ite2 (fun _ => ?_) (fun _ => ?_)
    · refine plainRead_keeps (sub.of (by decide) hm) ?_
      exact h
    · refine keeps_ite2 (fun _ => ?_) (fun _ => ?_)
      · refine plainRead_keeps (sub.of (by decide) hm) ?_
        exact h
      · refine plainRead_keeps (sub.of (by decide) hm) ?_
        refine notAssigned_keeps (sub.of (by decide) hm) ?_
        exact h

theorem regBytes_keeps {a0 : Req} {a1 : Nat} {a2 : Nat} {s : State} (hm : sub 1275085059 m) (h : Keeps m s0 s) :
    Keeps m s0 (regBytes a0 a1 a2 s).2 := by
  unfold regBytes
  split
  · rename_i z0 z1 e2
    have hz1 : Keeps m s0 z1 := by
      have q : _ = z1 := congrArg Prod.snd e2
      rw [← q]
      refine keeps_foldl2 (fun x3 y4 hx3 => ?_) _ ?_
      · split
        · rename_i z5 z6 e7
          have hz6 : Keeps m s0 z6 := by
            have q : _ = z6 := congrArg Prod.snd e7
            rw [← q]
            refine ctlRead_keeps (sub.of (by decide) hm) ?_
            exact hx3
          dsimp -zeta only
          exact hz6
      · dsimp -zeta only
        exact h
    dsimp -zeta only
    exact hz1

theorem sysWrite_keeps {a0 : Nat} {a1 : Word} {s : State} (hm : sub 1543534113 m) (h : Keeps m s0 s) :
    Keeps m s0 (sysWrite a0 a1 s) := by
  unfold sysWrite
  refine keeps_ite (fun _ => ?_) (fun _ => ?_)
  · refine withClockBack_keeps (sub.of (by decide) hm) (fun x0 hx0 => ?_) ?_
    · refine writeClkCtl_keeps (sub.of (by decide) hm) ?_
      exact hx0
    · exact h
  · refine keeps_ite (fun _ => ?_) (fun _ => ?_)
    · refine writeLtCtl_keeps (sub.of (by decide) hm) ?_
      exact h
    · refine keeps_ite (fun _ => ?_) (fun _ => ?_)
      · refine writeLtRate_keeps (sub.of (by decide) hm) ?_
        exact h
      · refine keeps_ite (fun _ => ?_) (fun _ => ?_)
        · refine adjustLineTime_keeps (sub.of (by decide) hm) ?_
          exact h
        · refine State.plainWrite_keeps (sub.of (by decide) hm) ?_
          exact h

theorem cqWrite_keeps {a0 : Nat} {a1 : Word} {s : State} (hm : sub 738214081 m) (h : Keeps m s0 s) :
    Keeps m s0 (cqWrite a0 a1 s) := by
  unfold cqWrite
  extract_lets +onlyGivenNames -merge -useContext x0 x1 x2 x3 x4
  try clear_value x0
  try clear_value x1
  try clear_value x2
  try clear_value x3
  try clear_value x4
  refine keeps_ite (fun _ => ?_) (fun _ => ?_)
  · refine keeps_ite (fun _ => ?_) (fun _ => ?_)
    · refine writeEncCtl_keeps (sub.of (by decide) hm) ?_
      exact h
    · refine keeps_ite (fun _ => ?_) (fun _ => ?_)
      · refine writeEncPins_keeps (sub.of (by decide) hm) ?_
        exact h
      · refine keeps_ite (fun _ => ?_) (fun _ => ?_)
        · refine writeMatch_keeps (sub.of (by decide) hm) ?_
          exact h
        · refine State.plainWrite_keeps (sub.of (by decide) hm) ?_
          exact h
  · refine keeps_ite (fun _ => ?_) (fun _ => ?_)
    · refine writeFsel_keeps (sub.of (by decide) hm) ?_
      exact h
    · refine keeps_ite (fun _ => ?_) (fun _ => ?_)
      · refine keeps_ite (fun _ => ?_) (fun _ => ?_)
        · refine writeCapCtl_keeps (sub.of (by decide) hm) ?_
          exact h
        · refine keeps_ite (fun _ => ?_) (fun _ => ?_)
          · refine popCapture_keeps (sub.of (by decide) hm) ?_
            exact h
          · refine State.plainWrite_keeps (sub.of (by decide) hm) ?_
            exact h
      · refine keeps_ite (fun _ => ?_) (fun _ => ?_)
        · refine keeps_ite (fun _ => ?_) (fun _ => ?_)
          · refine writeTsel_keeps (sub.of (by decide) hm) ?_
            exact h
          · refine keeps_ite (fun _ => ?_) (fun _ => ?_)
            · refine writeTctl_keeps (sub.of (by decide) hm) ?_
              exact h
            · refine keeps_ite (fun _ => ?_) (fun _ => ?_)
              · refine writeArmCtl_keeps (sub.of (by decide) hm) ?_
                exact h
              · refine keeps_ite (fun _ => ?_) (fun _ => ?_)
                · refine disarmMask_keeps (sub.of (by decide) hm) ?_
                  exact h
                · refine State.plainWrite_keeps (sub.of (by decide) hm) ?_
                  exact h
        · refine State.plainWrite_keeps (sub.of (by decide) hm) ?_
          exact h

theorem tstWrite_keeps {a0 : Nat} {a1 : Word} {s : State} (hm : sub 201408513 m) (h : Keeps m s0 s) :
    Keeps m s0 (tstWrite a0 a1 s) := by
  unfold tstWrite
  refine keeps_ite (fun _ => ?_) (fun _ => ?_)
  · refine writeTstCtl_keeps (sub.of (by decide) hm) ?_
    exact h
  · refine keeps_ite (fun _ => ?_) (fun _ => ?_)
    · refine writeRetctl_keeps (sub.of (by decide) hm) ?_
      exact h
    · refine State.plainWrite_keeps (sub.of (by decide) hm) ?_
      exact h

theorem pgWrite_keeps {a0 : Nat} {a1 : Word} {s : State} (hm : sub 1543533057 m) (h : Keeps m s0 s) :
    Keeps m s0 (pgWrite a0 a1 s) := by
  unfold pgWrite
  extract_lets +onlyGivenNames -merge -useContext x0 x1
  try clear_value x0
  try clear_value x1
  refine keeps_ite (fun _ => ?_) (fun _ => ?_)
  · refine writePgCtl_keeps (sub.of (by decide) hm) ?_
    exact h
  · refine keeps_ite (fun _ => ?_) (fun _ => ?_)
    · refine writePgTrip_keeps (sub.of (by decide) hm) ?_
      exact h
    · refine keeps_ite (fun _ => ?_) (fun _ => ?_)
      · refine writePgTripCtl_keeps (sub.of (by decide) hm) ?_
        exact h
      · refine keeps_ite (fun _ => ?_) (fun _ => ?_)
        · refine writePgCmd_keeps (sub.of (by decide) hm) ?_
          exact h
        · refine keeps_ite (fun _ => ?_) (fun _ => ?_)
          · refine writePgSeqsel_keeps (sub.of (by decide) hm) ?_
            exact h
          · refine keeps_ite (fun _ => ?_) (fun _ => ?_)
            · refine writePgSeq_keeps (sub.of (by decide) hm) ?_
              exact h
            · refine State.plainWrite_keeps (sub.of (by decide) hm) ?_
              exact h

theorem calWrite_keeps {a0 : Nat} {a1 : Word} {s : State} (hm : sub 4194305 m) (h : Keeps m s0 s) :
    Keeps m s0 (calWrite a0 a1 s) := by
  unfold calWrite
  extract_lets +onlyGivenNames -merge -useContext x0 x1
  try clear_value x0
  try clear_value x1
  refine keeps_ite (fun _ => ?_) (fun _ => ?_)
  · refine writeCalCtl_keeps (sub.of (by decide) hm) ?_
    exact h
  · refine keeps_ite (fun _ => ?_) (fun _ => ?_)
    · refine writeCalWait_keeps (sub.of (by decide) hm) ?_
      exact h
    · refine keeps_ite (fun _ => ?_) (fun _ => ?_)
      · refine keeps_ite (fun _ => ?_) (fun _ => ?_)
        · refine writeCalTctl_keeps (sub.of (by decide) hm) ?_
          exact h
        · refine keeps_ite (fun _ => ?_) (fun _ => ?_)
          · refine writeCoef_keeps (sub.of (by decide) hm) ?_
            exact h
          · refine State.plainWrite_keeps (sub.of (by decide) hm) ?_
            exact h
      · refine State.plainWrite_keeps (sub.of (by decide) hm) ?_
        exact h

theorem dceWrite_keeps {a0 : Nat} {a1 : Word} {s : State} (hm : sub 201345025 m) (h : Keeps m s0 s) :
    Keeps m s0 (dceWrite a0 a1 s) := by
  unfold dceWrite
  extract_lets +onlyGivenNames -merge -useContext x0 x1 x2 x3
  try clear_value x0
  try clear_value x1
  try clear_value x2
  try clear_value x3
  refine keeps_ite (fun _ => ?_) (fun _ => ?_)
  · refine State.plainWrite_keeps (sub.of (by decide) hm) ?_
    exact h
  · refine keeps_ite (fun _ => ?_) (fun _ => ?_)
    · refine writeChctl_keeps (sub.of (by decide) hm) ?_
      exact h
    · refine keeps_ite (fun _ => ?_) (fun _ => ?_)
      · refine writeGate_keeps (sub.of (by decide) hm) ?_
        exact h
      · refine keeps_ite (fun _ => ?_) (fun _ => ?_)
        · refine State.plainWrite_keeps (sub.of (by decide) hm) ?_
          exact h
        · refine keeps_ite (fun _ => ?_) (fun _ => ?_)
          · refine writeRdidx_keeps (sub.of (by decide) hm) ?_
            exact h
          · refine keeps_ite (fun _ => ?_) (fun _ => ?_)
            · refine writeDceTh_keeps (sub.of (by decide) hm) ?_
              exact h
            · refine State.plainWrite_keeps (sub.of (by decide) hm) ?_
              exact h

theorem memcWrite_keeps {a0 : Nat} {a1 : Word} {s : State} (hm : sub 25 m) (h : Keeps m s0 s) :
    Keeps m s0 (memcWrite a0 a1 s) := by
  unfold memcWrite
  refine keeps_ite (fun _ => ?_) (fun _ => ?_)
  · refine writeMemcCfg_keeps (sub.of (by decide) hm) ?_
    exact h
  · refine keeps_ite (fun _ => ?_) (fun _ => ?_)
    · refine writeScrub_keeps (sub.of (by decide) hm) ?_
      exact h
    · refine State.plainWrite_keeps (sub.of (by decide) hm) ?_
      exact h

theorem hdWrite_keeps {a0 : Nat} {a1 : Word} {s : State} (hm : sub 469790721 m) (h : Keeps m s0 s) :
    Keeps m s0 (hdWrite a0 a1 s) := by
  unfold hdWrite
  extract_lets +onlyGivenNames -merge -useContext x0 x1
  try clear_value x0
  try clear_value x1
  refine keeps_ite (fun _ => ?_) (fun _ => ?_)
  · refine writeHdCtl_keeps (sub.of (by decide) hm) ?_
    exact h
  · refine keeps_ite (fun _ => ?_) (fun _ => ?_)
    · refine writeProfile_keeps (sub.of (by decide) hm) ?_
      exact h
    · refine keeps_ite (fun _ => ?_) (fun _ => ?_)
      · refine writeHdIdle_keeps (sub.of (by decide) hm) ?_
        exact h
      · refine keeps_ite (fun _ => ?_) (fun _ => ?_)
        · refine writeBandCfg_keeps (sub.of (by decide) hm) ?_
          exact h
        · refine keeps_ite (fun _ => ?_) (fun _ => ?_)
          · refine writePlanCfg_keeps (sub.of (by decide) hm) ?_
            exact h
          · refine keeps_ite (fun _ => ?_) (fun _ => ?_)
            · refine writePlanRd_keeps (sub.of (by decide) hm) ?_
              exact h
            · refine keeps_ite (fun _ => ?_) (fun _ => ?_)
              · refine prioPush_keeps (sub.of (by decide) hm) ?_
                exact h
              · refine keeps_ite (fun _ => ?_) (fun _ => ?_)
                · refine writeSense_keeps (sub.of (by decide) hm) ?_
                  exact h
                · refine keeps_ite (fun _ => ?_) (fun _ => ?_)
                  · refine writeNmapCmd_keeps (sub.of (by decide) hm) ?_
                    exact h
                  · refine keeps_ite (fun _ => ?_) (fun _ => ?_)
                    · refine writeNmap_keeps (sub.of (by decide) hm) ?_
                      exact h
                    · refine State.plainWrite_keeps (sub.of (by decide) hm) ?_
                      exact h

theorem pregWrite_keeps {a0 : Req} {a1 : Nat} {a2 : Word} {s : State} (hm : sub 2 m) (h : Keeps m s0 s) :
    Keeps m s0 (pregWrite a0 a1 a2 s) := by
  unfold pregWrite
  split
  · refine State.setPreg_keeps (sub.of (by decide) hm) ?_
    exact h
  · exact h

theorem plWrite_keeps {a0 : Req} {a1 : Nat} {a2 : Word} {s : State} (hm : sub 469786627 m) (h : Keeps m s0 s) :
    Keeps m s0 (plWrite a0 a1 a2 s) := by
  unfold plWrite
  refine keeps_ite (fun _ => ?_) (fun _ => ?_)
  · refine writePlCtl_keeps (sub.of (by decide) hm) ?_
    exact h
  · refine keeps_ite (fun _ => ?_) (fun _ => ?_)
    · refine writePlRd_keeps (sub.of (by decide) hm) ?_
      exact h
    · refine keeps_ite (fun _ => ?_) (fun _ => ?_)
      · refine pregWrite_keeps (sub.of (by decide) hm) ?_
        exact h
      · refine keeps_ite (fun _ => ?_) (fun _ => ?_)
        · refine plCommand_keeps (sub.of (by decide) hm) ?_
          exact h
        · refine keeps_ite (fun _ => ?_) (fun _ => ?_)
          · refine writePlGuarded_keeps (sub.of (by decide) hm) ?_
            exact h
          · refine State.plainWrite_keeps (sub.of (by decide) hm) ?_
            exact h

theorem hostWrite_keeps {a0 : Nat} {a1 : Word} {s : State} (hm : sub 201605121 m) (h : Keeps m s0 s) :
    Keeps m s0 (hostWrite a0 a1 s) := by
  unfold hostWrite
  refine keeps_ite (fun _ => ?_) (fun _ => ?_)
  · refine writeHostCtl_keeps (sub.of (by decide) hm) ?_
    exact h
  · refine keeps_ite (fun _ => ?_) (fun _ => ?_)
    · refine bootCmd_keeps (sub.of (by decide) hm) ?_
      exact h
    · refine State.plainWrite_keeps (sub.of (by decide) hm) ?_
      exact h

theorem tileWrite_keeps {a0 : Nat} {a1 : Nat} {a2 : Nat} {a3 : Word} {s : State} (hm : sub 201346049 m) (h : Keeps m s0 s) :
    Keeps m s0 (tileWrite a0 a1 a2 a3 s) := by
  unfold tileWrite
  extract_lets +onlyGivenNames -merge -useContext x0
  try clear_value x0
  refine keeps_ite (fun _ => ?_) (fun _ => ?_)
  · refine writePwr_keeps (sub.of (by decide) hm) ?_
    exact h
  · refine keeps_ite (fun _ => ?_) (fun _ => ?_)
    · refine writeSel_keeps (sub.of (by decide) hm) ?_
      exact h
    · refine keeps_ite (fun _ => ?_) (fun _ => ?_)
      · refine writeDrv_keeps (sub.of (by decide) hm) ?_
        exact h
      · refine keeps_ite (fun _ => ?_) (fun _ => ?_)
        · refine writePga_keeps (sub.of (by decide) hm) ?_
          exact h
        · refine keeps_ite (fun _ => ?_) (fun _ => ?_)
          · refine writeBq_keeps (sub.of (by decide) hm) ?_
            exact h
          · refine keeps_ite (fun _ => ?_) (fun _ => ?_)
            · refine keeps_ite (fun _ => ?_) (fun _ => ?_)
              · refine writeCmpCtl_keeps (sub.of (by decide) hm) ?_
                exact h
              · refine keeps_ite (fun _ => ?_) (fun _ => ?_)
                · refine writeCmpTh_keeps (sub.of (by decide) hm) ?_
                  exact h
                · refine State.plainWrite_keeps (sub.of (by decide) hm) ?_
                  exact h
            · refine keeps_ite (fun _ => ?_) (fun _ => ?_)
              · refine writePairCtl_keeps (sub.of (by decide) hm) ?_
                exact h
              · refine keeps_ite (fun _ => ?_) (fun _ => ?_)
                · refine writeDacCtl_keeps (sub.of (by decide) hm) ?_
                  exact h
                · refine keeps_ite (fun _ => ?_) (fun _ => ?_)
                  · refine writeDacCode_keeps (sub.of (by decide) hm) ?_
                    exact h
                  · refine keeps_ite (fun _ => ?_) (fun _ => ?_)
                    · refine writeClrCode_keeps (sub.of (by decide) hm) ?_
                      exact h
                    · refine keeps_ite (fun _ => ?_) (fun _ => ?_)
                      · refine writePalCtl_keeps (sub.of (by decide) hm) ?_
                        exact h
                      · refine keeps_ite (fun _ => ?_) (fun _ => ?_)
                        · refine writeSupCtl_keeps (sub.of (by decide) hm) ?_
                          exact h
                        · refine keeps_ite (fun _ => ?_) (fun _ => ?_)
                          · refine writeTwin_keeps (sub.of (by decide) hm) ?_
                            exact h
                          · refine keeps_ite (fun _ => ?_) (fun _ => ?_)
                            · refine writePalette_keeps (sub.of (by decide) hm) ?_
                              exact h
                            · refine State.plainWrite_keeps (sub.of (by decide) hm) ?_
                              exact h

theorem atWrite_keeps {a0 : Nat} {a1 : Word} {s : State} (hm : sub 201346049 m) (h : Keeps m s0 s) :
    Keeps m s0 (atWrite a0 a1 s) := by
  unfold atWrite
  extract_lets +onlyGivenNames -merge -useContext x0
  try clear_value x0
  refine supHold_keeps (sub.of (by decide) hm) ?_
  refine tileWrite_keeps (sub.of (by decide) hm) ?_
  exact h

theorem mntWrite_keeps {a0 : Nat} {a1 : Word} {s : State} (hm : sub 202457113 m) (h : Keeps m s0 s) :
    Keeps m s0 (mntWrite a0 a1 s) := by
  unfold mntWrite
  refine keeps_ite (fun _ => ?_) (fun _ => ?_)
  · refine writeMntCtl_keeps (sub.of (by decide) hm) ?_
    exact h
  · refine keeps_ite (fun _ => ?_) (fun _ => ?_)
    · refine writeReqctl_keeps (sub.of (by decide) hm) ?_
      exact h
    · refine keeps_ite (fun _ => ?_) (fun _ => ?_)
      · refine writeRbadv_keeps (sub.of (by decide) hm) ?_
        exact h
      · refine keeps_ite (fun _ => ?_) (fun _ => ?_)
        · refine writeMntRgn_keeps (sub.of (by decide) hm) ?_
          exact h
        · refine State.plainWrite_keeps (sub.of (by decide) hm) ?_
          exact h

theorem jrnWrite_keeps {a0 : Req} {a1 : Nat} {a2 : Word} {s : State} (hm : sub 65561 m) (h : Keeps m s0 s) :
    Keeps m s0 (jrnWrite a0 a1 a2 s) := by
  unfold jrnWrite
  refine keeps_ite (fun _ => ?_) (fun _ => ?_)
  · refine keeps_ite (fun _ => ?_) (fun _ => ?_)
    · refine revertStep_keeps (sub.of (by decide) hm) ?_
      exact h
    · exact h
  · refine State.plainWrite_keeps (sub.of (by decide) hm) ?_
    exact h

theorem lioWrite_keeps {a0 : Nat} {a1 : Word} {s : State} (hm : sub 1275085121 m) (h : Keeps m s0 s) :
    Keeps m s0 (lioWrite a0 a1 s) := by
  unfold lioWrite
  extract_lets +onlyGivenNames -merge -useContext x0 x1 x2 x3 x4
  try clear_value x0
  try clear_value x1
  try clear_value x2
  try clear_value x3
  try clear_value x4
  refine keeps_ite (fun _ => ?_) (fun _ => ?_)
  · refine keeps_ite (fun _ => ?_) (fun _ => ?_)
    · refine queueLatch_keeps (sub.of (by decide) hm) ?_
      exact h
    · refine keeps_ite (fun _ => ?_) (fun _ => ?_)
      · refine queueLatch_keeps (sub.of (by decide) hm) ?_
        exact h
      · refine keeps_ite (fun _ => ?_) (fun _ => ?_)
        · refine queueLatch_keeps (sub.of (by decide) hm) ?_
          exact h
        · refine queueLatch_keeps (sub.of (by decide) hm) ?_
          exact h
  · refine keeps_ite (fun _ => ?_) (fun _ => ?_)
    · refine writeLioCfg_keeps (sub.of (by decide) hm) ?_
      exact h
    · refine keeps_ite (fun _ => ?_) (fun _ => ?_)
      · refine keeps_ite (fun _ => ?_) (fun _ => ?_)
        · refine keeps_ite (fun _ => ?_) (fun _ => ?_)
          · refine State.plainWrite_keeps (sub.of (by decide) hm) ?_
            exact h
          · refine keeps_ite (fun _ => ?_) (fun _ => ?_)
            · refine uartPush_keeps (sub.of (by decide) hm) ?_
              exact h
            · refine State.plainWrite_keeps (sub.of (by decide) hm) ?_
              exact h
        · refine keeps_ite (fun _ => ?_) (fun _ => ?_)
          · refine keeps_ite (fun _ => ?_) (fun _ => ?_)
            · refine State.plainWrite_keeps (sub.of (by decide) hm) ?_
              exact h
            · refine keeps_ite (fun _ => ?_) (fun _ => ?_)
              · refine spiPush_keeps (sub.of (by decide) hm) ?_
                exact h
              · refine State.plainWrite_keeps (sub.of (by decide) hm) ?_
                exact h
          · refine keeps_ite (fun _ => ?_) (fun _ => ?_)
            · refine State.plainWrite_keeps (sub.of (by decide) hm) ?_
              exact h
            · refine keeps_ite (fun _ => ?_) (fun _ => ?_)
              · refine writeIxfer_keeps (sub.of (by decide) hm) ?_
                exact h
              · refine keeps_ite (fun _ => ?_) (fun _ => ?_)
                · refine i2cPush_keeps (sub.of (by decide) hm) ?_
                  exact h
                · refine State.plainWrite_keeps (sub.of (by decide) hm) ?_
                  exact h
      · refine State.plainWrite_keeps (sub.of (by decide) hm) ?_
        exact h

theorem evtWrite_keeps {a0 : Nat} {a1 : Word} {s : State} (hm : sub 234897409 m) (h : Keeps m s0 s) :
    Keeps m s0 (evtWrite a0 a1 s) := by
  unfold evtWrite
  refine keeps_ite (fun _ => ?_) (fun _ => ?_)
  · refine writeEvtCtl_keeps (sub.of (by decide) hm) ?_
    exact h
  · refine keeps_ite (fun _ => ?_) (fun _ => ?_)
    · refine swRaise_keeps (sub.of (by decide) hm) ?_
      exact h
    · refine keeps_ite (fun _ => ?_) (fun _ => ?_)
      · refine writeEvtRoute_keeps (sub.of (by decide) hm) ?_
        exact h
      · refine State.plainWrite_keeps (sub.of (by decide) hm) ?_
        exact h

theorem writeHpostHi_keeps {a0 : Req} {a1 : Nat} {a2 : Word} {s : State} (hm : sub 738213891 m) (h : Keeps m s0 s) :
    Keeps m s0 (writeHpostHi a0 a1 a2 s) := by
  unfold writeHpostHi
  refine keeps_ite (fun _ => ?_) (fun _ => ?_)
  · refine hostPost_keeps (sub.of (by decide) hm) ?_
    exact h
  · refine pregWrite_keeps (sub.of (by decide) hm) ?_
    exact h

theorem jqWrite_keeps {a0 : Req} {a1 : Nat} {a2 : Word} {s : State} (hm : sub 738246659 m) (h : Keeps m s0 s) :
    Keeps m s0 (jqWrite a0 a1 a2 s) := by
  unfold jqWrite
  extract_lets +onlyGivenNames -merge -useContext x0 x1
  try clear_value x0
  try clear_value x1
  refine keeps_ite (fun _ => ?_) (fun _ => ?_)
  · refine writeJqCtl_keeps (sub.of (by decide) hm) ?_
    exact h
  · refine keeps_ite (fun _ => ?_) (fun _ => ?_)
    · refine onQueue_keeps (sub.of (by decide) hm) (fun x2 hx2 => ?_) ?_
      · refine State.plainWrite_keeps (sub.of (by decide) hm) ?_
        exact hx2
      · exact h
    · refine keeps_ite (fun _ => ?_) (fun _ => ?_)
      · refine writeJqRing_keeps (sub.of (by decide) hm) ?_
        exact h
      · refine keeps_ite (fun _ => ?_) (fun _ => ?_)
        · refine writeJqAge_keeps (sub.of (by decide) hm) ?_
          exact h
        · refine keeps_ite (fun _ => ?_) (fun _ => ?_)
          · refine pregWrite_keeps (sub.of (by decide) hm) ?_
            exact h
          · refine keeps_ite (fun _ => ?_) (fun _ => ?_)
            · refine writeHpostHi_keeps (sub.of (by decide) hm) ?_
              exact h
            · refine State.plainWrite_keeps (sub.of (by decide) hm) ?_
              exact h

theorem slWrite_keeps {a0 : Req} {a1 : Nat} {a2 : Word} {s : State} (hm : sub 740311047 m) (h : Keeps m s0 s) :
    Keeps m s0 (slWrite a0 a1 a2 s) := by
  unfold slWrite
  refine keeps_ite (fun _ => ?_) (fun _ => ?_)
  · refine writeSlCtl_keeps (sub.of (by decide) hm) ?_
    exact h
  · refine keeps_ite (fun _ => ?_) (fun _ => ?_)
    · refine writeMsgRd_keeps (sub.of (by decide) hm) ?_
      exact h
    · refine keeps_ite (fun _ => ?_) (fun _ => ?_)
      · refine cueAtGo_keeps (sub.of (by decide) hm) ?_
        exact h
      · refine keeps_ite (fun _ => ?_) (fun _ => ?_)
        · refine attestGo_keeps (sub.of (by decide) hm) ?_
          exact h
        · refine keeps_ite (fun _ => ?_) (fun _ => ?_)
          · refine pregWrite_keeps (sub.of (by decide) hm) ?_
            exact h
          · refine keeps_ite (fun _ => ?_) (fun _ => ?_)
            · refine writeSeamPctl_keeps (sub.of (by decide) hm) ?_
              exact h
            · refine keeps_ite (fun _ => ?_) (fun _ => ?_)
              · refine writeRoute_keeps (sub.of (by decide) hm) ?_
                exact h
              · refine State.plainWrite_keeps (sub.of (by decide) hm) ?_
                exact h

theorem cfgWrite_keeps {a0 : Nat} {a1 : Word} {s : State} (hm : sub 201867265 m) (h : Keeps m s0 s) :
    Keeps m s0 (cfgWrite a0 a1 s) := by
  unfold cfgWrite
  extract_lets +onlyGivenNames -merge -useContext x0 x1
  try clear_value x0
  try clear_value x1
  refine keeps_ite (fun _ => ?_) (fun _ => ?_)
  · refine writeCfgCtl_keeps (sub.of (by decide) hm) ?_
    exact h
  · refine keeps_ite (fun _ => ?_) (fun _ => ?_)
    · refine writeCfgLoad_keeps (sub.of (by decide) hm) ?_
      exact h
    · refine keeps_ite (fun _ => ?_) (fun _ => ?_)
      · refine writeApplyAt_keeps (sub.of (by decide) hm) ?_
        exact h
      · refine keeps_ite (fun _ => ?_) (fun _ => ?_)
        · refine keeps_ite (fun _ => ?_) (fun _ => ?_)
          · refine writeFpwinHi_keeps (sub.of (by decide) hm) ?_
            exact h
          · refine keeps_ite (fun _ => ?_) (fun _ => ?_)
            · refine writeCuff_keeps (sub.of (by decide) hm) ?_
              exact h
            · refine State.plainWrite_keeps (sub.of (by decide) hm) ?_
              exact h
        · refine State.plainWrite_keeps (sub.of (by decide) hm) ?_
          exact h

theorem meWrite_keeps {a0 : Nat} {a1 : Word} {s : State} (hm : sub 469778433 m) (h : Keeps m s0 s) :
    Keeps m s0 (meWrite a0 a1 s) := by
  unfold meWrite
  extract_lets +onlyGivenNames -merge -useContext x0 x1
  try clear_value x0
  try clear_value x1
  refine keeps_ite (fun _ => ?_) (fun _ => ?_)
  · refine writeMeCtl_keeps (sub.of (by decide) hm) ?_
    exact h
  · refine keeps_ite (fun _ => ?_) (fun _ => ?_)
    · refine writeBootPc_keeps (sub.of (by decide) hm) ?_
      exact h
    · refine keeps_ite (fun _ => ?_) (fun _ => ?_)
      · refine writeMeWdog_keeps (sub.of (by decide) hm) ?_
        exact h
      · refine keeps_ite (fun _ => ?_) (fun _ => ?_)
        · refine writeMeRgn_keeps (sub.of (by decide) hm) ?_
          exact h
        · refine keeps_ite (fun _ => ?_) (fun _ => ?_)
          · refine writeDbgCtl_keeps (sub.of (by decide) hm) ?_
            exact h
          · refine keeps_ite (fun _ => ?_) (fun _ => ?_)
            · refine writeDbg_keeps (sub.of (by decide) hm) ?_
              exact h
            · refine keeps_ite (fun _ => ?_) (fun _ => ?_)
              · refine writeDbg_keeps (sub.of (by decide) hm) ?_
                exact h
              · refine State.plainWrite_keeps (sub.of (by decide) hm) ?_
                exact h

theorem blockWrite_keeps {a0 : Req} {a1 : Nat} {a2 : Word} {s : State} (hm : sub 2122317823 m) (h : Keeps m s0 s) :
    Keeps m s0 (blockWrite a0 a1 a2 s) := by
  unfold blockWrite
  refine keeps_ite (fun _ => ?_) (fun _ => ?_)
  · refine sysWrite_keeps (sub.of (by decide) hm) ?_
    exact h
  · refine keeps_ite (fun _ => ?_) (fun _ => ?_)
    · refine evtWrite_keeps (sub.of (by decide) hm) ?_
      exact h
    · refine keeps_ite (fun _ => ?_) (fun _ => ?_)
      · refine jrnWrite_keeps (sub.of (by decide) hm) ?_
        exact h
      · refine keeps_ite (fun _ => ?_) (fun _ => ?_)
        · refine mntWrite_keeps (sub.of (by decide) hm) ?_
          exact h
        · refine keeps_ite (fun _ => ?_) (fun _ => ?_)
          · refine calWrite_keeps (sub.of (by decide) hm) ?_
            exact h
          · refine keeps_ite (fun _ => ?_) (fun _ => ?_)
            · refine lioWrite_keeps (sub.of (by decide) hm) ?_
              exact h
            · refine keeps_ite (fun _ => ?_) (fun _ => ?_)
              · refine hostWrite_keeps (sub.of (by decide) hm) ?_
                exact h
              · refine keeps_ite (fun _ => ?_) (fun _ => ?_)
                · refine writeDp_keeps (sub.of (by decide) hm) ?_
                  exact h
                · refine keeps_ite (fun _ => ?_) (fun _ => ?_)
                  · refine memcWrite_keeps (sub.of (by decide) hm) ?_
                    exact h
                  · refine keeps_ite (fun _ => ?_) (fun _ => ?_)
                    · refine cfgWrite_keeps (sub.of (by decide) hm) ?_
                      exact h
                    · refine keeps_ite (fun _ => ?_) (fun _ => ?_)
                      · refine slWrite_keeps (sub.of (by decide) hm) ?_
                        exact h
                      · refine keeps_ite (fun _ => ?_) (fun _ => ?_)
                        · refine plWrite_keeps (sub.of (by decide) hm) ?_
                          exact h
                        · refine keeps_ite (fun _ => ?_) (fun _ => ?_)
                          · refine cqWrite_keeps (sub.of (by decide) hm) ?_
                            exact h
                          · refine keeps_ite (fun _ => ?_) (fun _ => ?_)
                            · refine pgWrite_keeps (sub.of (by decide) hm) ?_
                              exact h
                            · refine keeps_ite (fun _ => ?_) (fun _ => ?_)
                              · refine hdWrite_keeps (sub.of (by decide) hm) ?_
                                exact h
                              · refine keeps_ite (fun _ => ?_) (fun _ => ?_)
                                · refine atWrite_keeps (sub.of (by decide) hm) ?_
                                  exact h
                                · refine keeps_ite (fun _ => ?_) (fun _ => ?_)
                                  · refine dceWrite_keeps (sub.of (by decide) hm) ?_
                                    exact h
                                  · refine keeps_ite (fun _ => ?_) (fun _ => ?_)
                                    · refine jqWrite_keeps (sub.of (by decide) hm) ?_
                                      exact h
                                    · refine keeps_ite (fun _ => ?_) (fun _ => ?_)
                                      · refine meWrite_keeps (sub.of (by decide) hm) ?_
                                        exact h
                                      · refine tstWrite_keeps (sub.of (by decide) hm) ?_
                                        exact h

theorem ctlWrite_keeps {a0 : Req} {a1 : Nat} {a2 : Word} {s : State} (hm : sub 2122317823 m) (h : Keeps m s0 s) :
    Keeps m s0 (ctlWrite a0 a1 a2 s) := by
  unfold ctlWrite
  refine keeps_ite (fun _ => ?_) (fun _ => ?_)
  · refine blockWrite_keeps (sub.of (by decide) hm) ?_
    exact h
  · refine keeps_ite (fun _ => ?_) (fun _ => ?_)
    · refine setTableWord_keeps (sub.of (by decide) hm) ?_
      exact h
    · refine keeps_ite (fun _ => ?_) (fun _ => ?_)
      · exact h
      · refine notAssigned_keeps (sub.of (by decide) hm) ?_
        exact h

theorem regStore_keeps {a0 : Req} {a1 : Nat} {a2 : List Byte} {s : State} (hm : sub 2122317823 m) (h : Keeps m s0 s) :
    Keeps m s0 (regStore a0 a1 a2 s) := by
  unfold regStore
  refine keeps_foldl (fun x0 y1 hx0 => ?_) _ ?_
  · refine keeps_ite (fun _ => ?_) (fun _ => ?_)
    · refine ctlWrite_keeps (sub.of (by decide) hm) ?_
      exact hx0
    · refine hostViol_keeps (sub.of (by decide) hm) ?_
      exact hx0
  · exact h

end Sys2Proof.Machine
end

