-- ==== Sys2Proof/Laws/Frame/Bar0.lean ====
section
/-!
SUPPORT. What the functions of Machine/Bar0.lean touch: one lemma each, in the terms of `Keeps`.
-/
namespace Sys2Proof.Machine

variable {m : Nat} {s0 : State}

theorem bar0Get_keeps {a0 : Nat} {s : State} (hm : sub 1275085059 m) (h : Keeps m s0 s) :
    Keeps m s0 (bar0Get a0 s).2 := by
  unfold bar0Get
  refine keeps_ite2 (fun _ => ?_) (fun _ => ?_)
  · refine ctlRead_keeps (sub.of (by decide) hm) ?_
    exact h
  · dsimp -zeta only
    refine hostViol_keeps (sub.of (by decide) hm) ?_
    exact h

theorem bar0Answer_keeps {a0 : Nat} {a1 : Nat} {a2 : Bool} {s : State} (hm : sub 1546089759 m) (h : Keeps m s0 s) :
    Keeps m s0 (bar0Answer a0 a1 a2 s) := by
  unfold bar0Answer
  extract_lets +onlyGivenNames -merge -useContext x0
  have hx0 : Keeps m s0 x0 := by
    refine writeOutAll_keeps (sub.of (by decide) hm) ?_
    exact h
  clear_value x0
  refine keeps_ite (fun _ => ?_) (fun _ => ?_)
  · refine State.give_keeps (sub.of (by decide) hm) ?_
    refine hostViol_keeps (sub.of (by decide) hm) ?_
    exact hx0
  · refine keeps_ite (fun _ => ?_) (fun _ => ?_)
    · refine State.give_keeps (sub.of (by decide) hm) ?_
      refine hostViol_keeps (sub.of (by decide) hm) ?_
      exact hx0
    · split
      · rename_i z1 z2 e3
        have hz2 : Keeps m s0 z2 := by
          have q : _ = z2 := congrArg Prod.snd e3
          rw [← q]
          refine keeps_foldl2 (fun x4 y5 hx4 => ?_) _ ?_
          · split
            · rename_i z6 z7 e8
              have hz7 : Keeps m s0 z7 := by
                have q : _ = z7 := congrArg Prod.snd e8
                rw [← q]
                refine bar0Get_keeps (sub.of (by decide) hm) ?_
                exact hx4
              dsimp -zeta only
              exact hz7
          · dsimp -zeta only
            exact hx0
        refine State.give_keeps (sub.of (by decide) hm) ?_
        exact hz2

theorem bar0Read_keeps {a0 : Nat} {a1 : Nat} {a2 : Bool} {s : State} (hm : sub 2082960671 m) (h : Keeps m s0 s) :
    Keeps m s0 (bar0Read a0 a1 a2 s) := by
  unfold bar0Read
  refine keeps_ite (fun _ => ?_) (fun _ => ?_)
  · exact h
  · refine keeps_ite (fun _ => ?_) (fun _ => ?_)
    · refine askRead_keeps (sub.of (by decide) hm) ?_
      exact h
    · refine bar0Answer_keeps (sub.of (by decide) hm) ?_
      exact h

theorem bar0Put_keeps {a0 : Nat} {a1 : Nat} {a2 : Word} {s : State} (hm : sub 2122317823 m) (h : Keeps m s0 s) :
    Keeps m s0 (bar0Put a0 a1 a2 s) := by
  unfold bar0Put
  refine keeps_ite (fun _ => ?_) (fun _ => ?_)
  · refine hostViol_keeps (sub.of (by decide) hm) ?_
    exact h
  · refine keeps_ite (fun _ => ?_) (fun _ => ?_)
    · refine ctlWrite_keeps (sub.of (by decide) hm) ?_
      exact h
    · refine hostViol_keeps (sub.of (by decide) hm) ?_
      exact h

theorem bar0Write_keeps {a0 : Nat} {a1 : List Nat} {a2 : List Word} {a3 : Bool} {s : State} (hm : sub 2122317823 m) (h : Keeps m s0 s) :
    Keeps m s0 (bar0Write a0 a1 a2 a3 s) := by
  unfold bar0Write
  refine keeps_ite (fun _ => ?_) (fun _ => ?_)
  · exact h
  · refine keeps_ite (fun _ => ?_) (fun _ => ?_)
    · refine aerUncorr_keeps (sub.of (by decide) hm) ?_
      refine hostViol_keeps (sub.of (by decide) hm) ?_
      exact h
    · refine keeps_ite (fun _ => ?_) (fun _ => ?_)
      · refine aerUncorr_keeps (sub.of (by decide) hm) ?_
        refine hostViol_keeps (sub.of (by decide) hm) ?_
        exact h
      · refine keeps_ite (fun _ => ?_) (fun _ => ?_)
        · refine hostViol_keeps (sub.of (by decide) hm) ?_
          exact h
        · refine keeps_foldl (fun x0 y1 hx0 => ?_) _ ?_
          · refine bar0Put_keeps (sub.of (by decide) hm) ?_
            exact hx0
          · exact h

end Sys2Proof.Machine
end

