-- ==== Sys2Proof/Laws/Frame/Broker.lean ====
section
/-!
SUPPORT. What the functions of Machine/Broker.lean touch: one lemma each, in the terms of `Keeps`.
-/
namespace Sys2Proof.Machine

variable {m : Nat} {s0 : State}

theorem State.setBroker_keeps {s : State} {a1 : Nat} {a2 : Broker} (hm : sub 32768 m) (h : Keeps m s0 s) :
    Keeps m s0 (State.setBroker s a1 a2) := by
  unfold State.setBroker
  extract_lets +onlyGivenNames -merge -useContext x0
  try clear_value x0
  refine State.setJobs_keeps (sub.of (by decide) hm) ?_
  exact h

theorem moveRot_keeps {a0 : Nat} {a1 : Pick} {s : State} (hm : sub 32768 m) (h : Keeps m s0 s) :
    Keeps m s0 (moveRot a0 a1 s) := by
  unfold moveRot
  extract_lets +onlyGivenNames -merge -useContext x0
  try clear_value x0
  refine State.setBroker_keeps (sub.of (by decide) hm) ?_
  exact h

theorem restartAging_keeps {a0 : Nat} {s : State} (hm : sub 32768 m) (h : Keeps m s0 s) :
    Keeps m s0 (restartAging a0 s) := by
  unfold restartAging
  extract_lets +onlyGivenNames -merge -useContext x0
  try clear_value x0
  refine State.setJq_keeps (sub.of (by decide) hm) ?_
  exact h

theorem giveJob_keeps {a0 : Nat} {a1 : Nat} {a2 : JqEnt} {s : State} (hm : sub 201441305 m) (h : Keeps m s0 s) :
    Keeps m s0 (giveJob a0 a1 a2 s) := by
  unfold giveJob
  extract_lets +onlyGivenNames -merge -useContext x0 x1 x2 x3 x4 x5 x6
  try clear_value x0
  have hx1 : Keeps m s0 x1 := by
    refine putEnt_keeps (sub.of (by decide) hm) ?_
    exact h
  clear_value x1
  try clear_value x2
  have hx3 : Keeps m s0 x3 := by
    refine keeps_ite (fun _ => ?_) (fun _ => ?_)
    · exact hx1
    · refine State.countUp_keeps (sub.of (by decide) hm) ?_
      exact hx1
  clear_value x3
  try clear_value x4
  have hx5 : Keeps m s0 x5 := by
    refine wakeEng_keeps (sub.of (by decide) hm) ?_
    refine setG_keeps (sub.of (by decide) hm) ?_
    exact hx3
  clear_value x5
  try clear_value x6
  refine State.setEng_keeps (sub.of (by decide) hm) ?_
  exact hx5

theorem deliver_keeps {a0 : Nat} {a1 : Nat} {a2 : Pick} {a3 : Bool} {s : State} (hm : sub 470020121 m) (h : Keeps m s0 s) :
    Keeps m s0 (deliver a0 a1 a2 a3 s) := by
  unfold deliver
  extract_lets +onlyGivenNames -merge -useContext x0 x1 x2
  have hx0 : Keeps m s0 x0 := by
    refine moveRot_keeps (sub.of (by decide) hm) ?_
    exact h
  clear_value x0
  try clear_value x1
  have hx2 : Keeps m s0 x2 := by
    refine State.setEng_keeps (sub.of (by decide) hm) ?_
    exact hx0
  clear_value x2
  split
  · exact hx2
  · extract_lets +onlyGivenNames -merge -useContext x3 x4
    try clear_value x3
    have hx4 : Keeps m s0 x4 := by
      refine touchRow_keeps (sub.of (by decide) hm) ?_
      refine keeps_ite (fun _ => ?_) (fun _ => ?_)
      · refine foundBad_keeps (sub.of (by decide) hm) ?_
        exact hx2
      · exact hx2
    clear_value x4
    refine keeps_ite (fun _ => ?_) (fun _ => ?_)
    · refine onQueue_keeps (sub.of (by decide) hm) (fun x5 hx5 => ?_) ?_
      · refine failEnt_keeps (sub.of (by decide) hm) ?_
        exact hx5
      · refine noteUes_keeps (sub.of (by decide) hm) ?_
        exact hx4
    · refine onQueue_keeps (sub.of (by decide) hm) (fun x6 hx6 => ?_) ?_
      · refine restartAging_keeps (sub.of (by decide) hm) ?_
        refine giveJob_keeps (sub.of (by decide) hm) ?_
        exact hx6
      · exact hx4

theorem brokerAct_keeps {a0 : Nat} {a1 : Bool} {s : State} (hm : sub 470020121 m) (h : Keeps m s0 s) :
    Keeps m s0 (brokerAct a0 a1 s) := by
  unfold brokerAct
  split
  · exact h
  · refine keeps_ite (fun _ => ?_) (fun _ => ?_)
    · refine moveRot_keeps (sub.of (by decide) hm) ?_
      exact h
    · refine deliver_keeps (sub.of (by decide) hm) ?_
      exact h

theorem returnJob_keeps {a0 : Nat} {s : State} (hm : sub 469884953 m) (h : Keeps m s0 s) :
    Keeps m s0 (returnJob a0 s) := by
  unfold returnJob
  extract_lets +onlyGivenNames -merge -useContext x0
  try clear_value x0
  split
  · exact h
  · extract_lets +onlyGivenNames -merge -useContext x1 x2
    have hx1 : Keeps m s0 x1 := by
      refine State.setEng_keeps (sub.of (by decide) hm) ?_
      exact h
    clear_value x1
    have hx2 : Keeps m s0 x2 := by
      refine failJob_keeps (sub.of (by decide) hm) ?_
      exact hx1
    clear_value x2
    refine keeps_ite (fun _ => ?_) (fun _ => ?_)
    · refine unclaim_keeps (sub.of (by decide) hm) ?_
      exact hx1
    · refine keeps_ite (fun _ => ?_) (fun _ => ?_)
      · refine State.logFault_keeps (sub.of (by decide) hm) ?_
        exact hx2
      · exact hx2

end Sys2Proof.Machine
end

