-- ==== Sys2Proof/Laws/Frame/CueEffect.lean ====
section
/-!
SUPPORT. What the functions of Machine/CueEffect.lean touch: one lemma each, in the terms of `Keeps`.
-/
namespace Sys2Proof.Machine

variable {m : Nat} {s0 : State}

theorem countMerged_keeps {a0 : Nat} {a1 : Nat} {s : State} (hm : sub 1 m) (h : Keeps m s0 s) :
    Keeps m s0 (countMerged a0 a1 s) := by
  unfold countMerged
  refine State.setFld_keeps (sub.of (by decide) hm) ?_
  exact h

theorem captureEffect_keeps {a0 : Nat} {a1 : Flight} {s : State} (hm : sub 201416793 m) (h : Keeps m s0 s) :
    Keeps m s0 (captureEffect a0 a1 s) := by
  unfold captureEffect
  refine keeps_ite (fun _ => ?_) (fun _ => ?_)
  · refine productDetect_keeps (sub.of (by decide) hm) ?_
    exact h
  · refine captureRecord_keeps (sub.of (by decide) hm) ?_
    exact h

theorem actAtTarget_keeps {a0 : Nat} {a1 : List Flight} {s : State} (hm : sub 1275160409 m) (h : Keeps m s0 s) :
    Keeps m s0 (actAtTarget a0 a1 s) := by
  unfold actAtTarget
  split
  · exact h
  · refine keeps_ite (fun _ => ?_) (fun _ => ?_)
    · refine pgStart_keeps (sub.of (by decide) hm) ?_
      exact h
    · refine keeps_ite (fun _ => ?_) (fun _ => ?_)
      · refine dacStart_keeps (sub.of (by decide) hm) ?_
        exact h
      · refine keeps_ite (fun _ => ?_) (fun _ => ?_)
        · refine keeps_foldl (fun x0 y1 hx0 => ?_) _ ?_
          · refine lioCueAction_keeps (sub.of (by decide) hm) ?_
            exact hx0
          · exact h
        · refine captureEffect_keeps (sub.of (by decide) hm) ?_
          exact h

theorem effectAt_keeps {a0 : Nat} {s : State} (hm : sub 1275160409 m) (h : Keeps m s0 s) :
    Keeps m s0 (effectAt a0 s) := by
  unfold effectAt
  extract_lets +onlyGivenNames -merge -useContext x0 x1 x2
  try clear_value x0
  try clear_value x1
  have hx2 : Keeps m s0 x2 := by
    refine State.setTarget_keeps (sub.of (by decide) hm) ?_
    exact h
  clear_value x2
  refine keeps_ite (fun _ => ?_) (fun _ => ?_)
  · exact h
  · refine actAtTarget_keeps (sub.of (by decide) hm) ?_
    refine countMerged_keeps (sub.of (by decide) hm) ?_
    exact hx2

end Sys2Proof.Machine
end

