-- ==== Sys2Proof/Laws/Frame/Operands.lean ====
section
/-!
SUPPORT. What the functions of Machine/Operands.lean touch: one lemma each, in the terms of `Keeps`.
-/
namespace Sys2Proof.Machine

variable {m : Nat} {s0 : State}

theorem gOp3_keeps {a0 : Nat} {a1 : Nat} {a2 : Nat} {a3 : Nat} {a4 : Nat} {a5 : Word → Word → Word} {s : State} (hm : sub 469987345 m) (h : Keeps m s0 s) :
    Keeps m s0 (gOp3 a0 a1 a2 a3 a4 a5 s) := by
  unfold gOp3
  refine issue_keeps (sub.of (by decide) hm) (fun x0 hx0 => ?_) ?_
  · refine retireNext_keeps (sub.of (by decide) hm) ?_
    refine setG_keeps (sub.of (by decide) hm) ?_
    exact hx0
  · exact h

theorem vOp3_keeps {a0 : Nat} {a1 : Nat} {a2 : Bool} {a3 : Nat} {a4 : Nat} {a5 : Nat} {a6 : Vec → Vec → Vec} {s : State} (hm : sub 469987345 m) (h : Keeps m s0 s) :
    Keeps m s0 (vOp3 a0 a1 a2 a3 a4 a5 a6 s) := by
  unfold vOp3
  refine issue_keeps (sub.of (by decide) hm) (fun x0 hx0 => ?_) ?_
  · refine retireNext_keeps (sub.of (by decide) hm) ?_
    refine setV_keeps (sub.of (by decide) hm) ?_
    exact hx0
  · exact h

theorem vScal_keeps {a0 : Nat} {a1 : Bool} {a2 : Nat} {a3 : Nat} {a4 : Nat} {a5 : Vec → Word → Vec} {s : State} (hm : sub 469987345 m) (h : Keeps m s0 s) :
    Keeps m s0 (vScal a0 a1 a2 a3 a4 a5 s) := by
  unfold vScal
  refine issue_keeps (sub.of (by decide) hm) (fun x0 hx0 => ?_) ?_
  · refine retireNext_keeps (sub.of (by decide) hm) ?_
    refine setV_keeps (sub.of (by decide) hm) ?_
    exact hx0
  · exact h

theorem vAcc_keeps {a0 : Nat} {a1 : Nat} {a2 : Bool} {a3 : Nat} {a4 : Nat} {a5 : Nat} {a6 : Vec → Vec → Vec → Vec} {s : State} (hm : sub 469987345 m) (h : Keeps m s0 s) :
    Keeps m s0 (vAcc a0 a1 a2 a3 a4 a5 a6 s) := by
  unfold vAcc
  refine issue_keeps (sub.of (by decide) hm) (fun x0 hx0 => ?_) ?_
  · refine retireNext_keeps (sub.of (by decide) hm) ?_
    refine setV_keeps (sub.of (by decide) hm) ?_
    exact hx0
  · exact h

theorem gOp2_keeps {a0 : Nat} {a1 : Nat} {a2 : Nat} {a3 : Bool} {a4 : Word → Word} {s : State} (hm : sub 469987345 m) (h : Keeps m s0 s) :
    Keeps m s0 (gOp2 a0 a1 a2 a3 a4 s) := by
  unfold gOp2
  refine issue_keeps (sub.of (by decide) hm) (fun x0 hx0 => ?_) ?_
  · refine retireNext_keeps (sub.of (by decide) hm) ?_
    refine setG_keeps (sub.of (by decide) hm) ?_
    exact hx0
  · exact h

theorem gAcc_keeps {a0 : Nat} {a1 : Nat} {a2 : Nat} {a3 : Nat} {a4 : Nat} {a5 : Word → Word → Word → Word} {s : State} (hm : sub 469987345 m) (h : Keeps m s0 s) :
    Keeps m s0 (gAcc a0 a1 a2 a3 a4 a5 s) := by
  unfold gAcc
  refine issue_keeps (sub.of (by decide) hm) (fun x0 hx0 => ?_) ?_
  · refine retireNext_keeps (sub.of (by decide) hm) ?_
    refine setG_keeps (sub.of (by decide) hm) ?_
    exact hx0
  · exact h

theorem pOp3_keeps {a0 : Nat} {a1 : Nat} {a2 : Nat} {a3 : Nat} {a4 : Word → Word → Bool} {s : State} (hm : sub 469987345 m) (h : Keeps m s0 s) :
    Keeps m s0 (pOp3 a0 a1 a2 a3 a4 s) := by
  unfold pOp3
  refine issue_keeps (sub.of (by decide) hm) (fun x0 hx0 => ?_) ?_
  · refine retireNext_keeps (sub.of (by decide) hm) ?_
    refine setP_keeps (sub.of (by decide) hm) ?_
    exact hx0
  · exact h

theorem pLogic_keeps {a0 : Nat} {a1 : Nat} {a2 : Nat} {a3 : Nat} {a4 : Bool → Bool → Bool} {s : State} (hm : sub 469987345 m) (h : Keeps m s0 s) :
    Keeps m s0 (pLogic a0 a1 a2 a3 a4 s) := by
  unfold pLogic
  refine issue_keeps (sub.of (by decide) hm) (fun x0 hx0 => ?_) ?_
  · refine retireNext_keeps (sub.of (by decide) hm) ?_
    refine setP_keeps (sub.of (by decide) hm) ?_
    exact hx0
  · exact h

theorem vOp2_keeps {a0 : Nat} {a1 : Bool} {a2 : Nat} {a3 : Nat} {a4 : Vec → Vec} {s : State} (hm : sub 469987345 m) (h : Keeps m s0 s) :
    Keeps m s0 (vOp2 a0 a1 a2 a3 a4 s) := by
  unfold vOp2
  refine issue_keeps (sub.of (by decide) hm) (fun x0 hx0 => ?_) ?_
  · refine retireNext_keeps (sub.of (by decide) hm) ?_
    refine setV_keeps (sub.of (by decide) hm) ?_
    exact hx0
  · exact h

theorem gOfV2_keeps {a0 : Nat} {a1 : Bool} {a2 : Nat} {a3 : Nat} {a4 : Nat} {a5 : Vec → Vec → Word} {s : State} (hm : sub 469987345 m) (h : Keeps m s0 s) :
    Keeps m s0 (gOfV2 a0 a1 a2 a3 a4 a5 s) := by
  unfold gOfV2
  refine issue_keeps (sub.of (by decide) hm) (fun x0 hx0 => ?_) ?_
  · refine retireNext_keeps (sub.of (by decide) hm) ?_
    refine setG_keeps (sub.of (by decide) hm) ?_
    exact hx0
  · exact h

theorem gOfV_keeps {a0 : Nat} {a1 : Bool} {a2 : Nat} {a3 : Nat} {a4 : Vec → Word} {s : State} (hm : sub 469987345 m) (h : Keeps m s0 s) :
    Keeps m s0 (gOfV a0 a1 a2 a3 a4 s) := by
  unfold gOfV
  refine issue_keeps (sub.of (by decide) hm) (fun x0 hx0 => ?_) ?_
  · refine retireNext_keeps (sub.of (by decide) hm) ?_
    refine setG_keeps (sub.of (by decide) hm) ?_
    exact hx0
  · exact h

end Sys2Proof.Machine
end

