-- ==== Sys2Proof/Laws/Frame/EngInt.lean ====
section
/-!
SUPPORT. What the functions of Machine/EngInt.lean touch: one lemma each, in the terms of `Keeps`.
-/
namespace Sys2Proof.Machine

variable {m : Nat} {s0 : State}

theorem branchOn_keeps {a0 : Nat} {a1 : Nat} {a2 : Bool} {a3 : BitVec 20} {s : State} (hm : sub 469987345 m) (h : Keeps m s0 s) :
    Keeps m s0 (branchOn a0 a1 a2 a3 s) := by
  unfold branchOn
  refine issue_keeps (sub.of (by decide) hm) (fun x0 hx0 => ?_) ?_
  · refine keeps_ite (fun _ => ?_) (fun _ => ?_)
    · refine retireTo_keeps (sub.of (by decide) hm) ?_
      exact hx0
    · refine retireNext_keeps (sub.of (by decide) hm) ?_
      exact hx0
  · exact h

end Sys2Proof.Machine
end

