-- ==== Sys2Proof/Laws/Frame/EngMem.lean ====
section
/-!
SUPPORT. What the functions of Machine/EngMem.lean touch: one lemma each, in the terms of `Keeps`.
-/
namespace Sys2Proof.Machine

variable {m : Nat} {s0 : State}

theorem laterLoads_keeps {a0 : Nat} {a1 : Nat} {a2 : EngCtx → EngCtx} {s : State} (hm : sub 16384 m) (h : Keeps m s0 s) :
    Keeps m s0 (laterLoads a0 a1 a2 s) := by
  unfold laterLoads
  extract_lets +onlyGivenNames -merge -useContext x0
  try clear_value x0
  refine State.setEng_keeps (sub.of (by decide) hm) ?_
  exact h

theorem lateG_keeps {a0 : Nat} {a1 : Nat} {a2 : Nat} {a3 : Word} {s : State} (hm : sub 16384 m) (h : Keeps m s0 s) :
    Keeps m s0 (lateG a0 a1 a2 a3 s) := by
  unfold lateG
  refine setG_keeps (sub.of (by decide) hm) ?_
  refine keeps_ite (fun _ => ?_) (fun _ => ?_)
  · exact h
  · refine laterLoads_keeps (sub.of (by decide) hm) ?_
    exact h

theorem engStore_keeps {a0 : Nat} {a1 : Nat} {a2 : List Byte} {s : State} (hm : sub 2122317823 m) (h : Keeps m s0 s) :
    Keeps m s0 (engStore a0 a1 a2 s) := by
  unfold engStore
  split
  · refine regStore_keeps (sub.of (by decide) hm) ?_
    exact h
  · refine State.put_keeps (sub.of (by decide) hm) ?_
    exact h
  · refine keeps_ite (fun _ => ?_) (fun _ => ?_)
    · refine storeWrite_keeps (sub.of (by decide) hm) ?_
      exact h
    · refine storeWrite_keeps (sub.of (by decide) hm) ?_
      exact h
  · refine putPiece_keeps (sub.of (by decide) hm) ?_
    exact h

theorem performStore_keeps {a0 : Nat} {a1 : Nat} {a2 : EngStore} {s : State} (hm : sub 2122317823 m) (h : Keeps m s0 s) :
    Keeps m s0 (performStore a0 a1 a2 s) := by
  unfold performStore
  extract_lets +onlyGivenNames -merge -useContext x0 x1
  try clear_value x0
  have hx1 : Keeps m s0 x1 := by
    refine State.setEng_keeps (sub.of (by decide) hm) ?_
    exact h
  clear_value x1
  refine engStore_keeps (sub.of (by decide) hm) ?_
  exact hx1

theorem storeAck_keeps {a0 : Nat} {a1 : Nat} {a2 : Bool} {s : State} (hm : sub 2122317823 m) (h : Keeps m s0 s) :
    Keeps m s0 (storeAck a0 a1 a2 s) := by
  unfold storeAck
  extract_lets +onlyGivenNames -merge -useContext x0
  try clear_value x0
  split
  · exact h
  · refine keeps_ite (fun _ => ?_) (fun _ => ?_)
    · exact h
    · refine performStore_keeps (sub.of (by decide) hm) ?_
      refine keeps_ite (fun _ => ?_) (fun _ => ?_)
      · refine foundBad_keeps (sub.of (by decide) hm) ?_
        exact h
      · exact h

theorem dmaBad_keeps {a0 : EngDma} {a1 : List Nat} {s : State} (hm : sub 16 m) (h : Keeps m s0 s) :
    Keeps m s0 (dmaBad a0 a1 s) := by
  unfold dmaBad
  refine keeps_ite (fun _ => ?_) (fun _ => ?_)
  · exact h
  · refine foundBad_keeps (sub.of (by decide) hm) ?_
    exact h

theorem setDma_keeps {a0 : Nat} {a1 : EngDma} {s : State} (hm : sub 16384 m) (h : Keeps m s0 s) :
    Keeps m s0 (setDma a0 a1 s) := by
  unfold setDma
  extract_lets +onlyGivenNames -merge -useContext x0
  try clear_value x0
  refine State.setEng_keeps (sub.of (by decide) hm) ?_
  exact h

theorem dmaEnd_keeps {a0 : Nat} {a1 : EngDma} {s : State} (hm : sub 201342977 m) (h : Keeps m s0 s) :
    Keeps m s0 (dmaEnd a0 a1 s) := by
  unfold dmaEnd
  extract_lets +onlyGivenNames -merge -useContext x0 x1
  try clear_value x0
  have hx1 : Keeps m s0 x1 := by
    refine State.setEng_keeps (sub.of (by decide) hm) ?_
    exact h
  clear_value x1
  refine keeps_ite (fun _ => ?_) (fun _ => ?_)
  · refine localEvent_keeps (sub.of (by decide) hm) ?_
    exact hx1
  · exact hx1

theorem dmaPut_keeps {a0 : Nat} {a1 : Nat} {a2 : List Byte} {s : State} (hm : sub 472085535 m) (h : Keeps m s0 s) :
    Keeps m s0 (dmaPut a0 a1 a2 s) := by
  unfold dmaPut
  split
  · refine State.put_keeps (sub.of (by decide) hm) ?_
    exact h
  · refine windowWrite_keeps (sub.of (by decide) hm) ?_
    exact h
  · refine putPiece_keeps (sub.of (by decide) hm) ?_
    exact h

theorem dmaFail_keeps {a0 : Nat} {a1 : EngDma} {s : State} (hm : sub 201342977 m) (h : Keeps m s0 s) :
    Keeps m s0 (dmaFail a0 a1 s) := by
  unfold dmaFail
  extract_lets +onlyGivenNames -merge -useContext x0 x1
  try clear_value x0
  have hx1 : Keeps m s0 x1 := by
    refine State.setEng_keeps (sub.of (by decide) hm) ?_
    exact h
  clear_value x1
  refine meFlag_keeps (sub.of (by decide) hm) ?_
  refine State.setFld_keeps (sub.of (by decide) hm) ?_
  exact hx1

theorem dmaSeam_keeps {a0 : Nat} {a1 : EngDma} {s : State} (hm : sub 472085535 m) (h : Keeps m s0 s) :
    Keeps m s0 (dmaSeam a0 a1 s) := by
  unfold dmaSeam
  extract_lets +onlyGivenNames -merge -useContext x0 x1 x2 x3 x4 x5
  try clear_value x0
  try clear_value x1
  try clear_value x2
  try clear_value x3
  try clear_value x4
  try clear_value x5
  refine keeps_ite (fun _ => ?_) (fun _ => ?_)
  · refine dmaEnd_keeps (sub.of (by decide) hm) ?_
    exact h
  · split
    · split
      · exact h
      · extract_lets +onlyGivenNames -merge -useContext x6 x7
        have hx6 : Keeps m s0 x6 := by
          refine State.setSeam_keeps (sub.of (by decide) hm) ?_
          exact h
        clear_value x6
        have hx7 : Keeps m s0 x7 := by
          refine keeps_foldl (fun x8 y9 hx8 => ?_) _ ?_
          · refine dmaPut_keeps (sub.of (by decide) hm) ?_
            exact hx8
          · exact hx6
        clear_value x7
        refine keeps_ite (fun _ => ?_) (fun _ => ?_)
        · refine dmaFail_keeps (sub.of (by decide) hm) ?_
          exact hx6
        · refine setDma_keeps (sub.of (by decide) hm) ?_
          exact hx7
    · refine keeps_ite (fun _ => ?_) (fun _ => ?_)
      · refine dmaFail_keeps (sub.of (by decide) hm) ?_
        exact h
      · refine keeps_ite (fun _ => ?_) (fun _ => ?_)
        · refine dmaFail_keeps (sub.of (by decide) hm) ?_
          exact h
        · split
          · rename_i z10 z11 e12
            have hz11 : Keeps m s0 z11 := by
              have q : _ = z11 := congrArg Prod.snd e12
              rw [← q]
              refine windowRead_keeps (sub.of (by decide) hm) ?_
              exact h
            refine keeps_ite (fun _ => ?_) (fun _ => ?_)
            · refine setDma_keeps (sub.of (by decide) hm) ?_
              exact hz11
            · exact hz11

theorem dmaTurned_keeps {a0 : Nat} {a1 : Bool} {a2 : Bool} {a3 : Nat} {a4 : Nat} {s : State} (hm : sub 201342977 m) (h : Keeps m s0 s) :
    Keeps m s0 (dmaTurned a0 a1 a2 a3 a4 s) := by
  unfold dmaTurned
  split
  · refine noteAsleep_keeps (sub.of (by decide) hm) ?_
    refine noteFence_keeps (sub.of (by decide) hm) ?_
    exact h
  · exact h

theorem dmaMoveRow_keeps {a0 : Nat} {a1 : EngDma} {a2 : Nat} {s : State} (hm : sub 472085535 m) (h : Keeps m s0 s) :
    Keeps m s0 (dmaMoveRow a0 a1 a2 s) := by
  unfold dmaMoveRow
  extract_lets +onlyGivenNames -merge -useContext x0 x1
  try clear_value x0
  try clear_value x1
  refine keeps_foldl (fun x2 y3 hx2 => ?_) _ ?_
  · extract_lets +onlyGivenNames -merge -useContext x4
    try clear_value x4
    refine dmaPut_keeps (sub.of (by decide) hm) ?_
    exact hx2
  · refine keeps_ite (fun _ => ?_) (fun _ => ?_)
    · exact h
    · refine touchRow_keeps (sub.of (by decide) hm) ?_
      exact h

theorem dmaRun_keeps {n : Nat} {d : EngDma} {k r : Nat} {s : State} (hm : sub 472085535 m) (h : Keeps m s0 s) :
    Keeps m s0 (dmaRun n d k r s) := by
  induction k generalizing r s with
  | zero => exact dmaEnd_keeps (sub.of (by decide) hm) h
  | succ k ih =>
    unfold dmaRun
    refine keeps_ite (fun _ => dmaFail_keeps (sub.of (by decide) hm) (dmaTurned_keeps (sub.of (by decide) hm) h))
      (fun _ => ?_)
    refine keeps_ite (fun _ => dmaFail_keeps (sub.of (by decide) hm) (dmaTurned_keeps (sub.of (by decide) hm) h))
      (fun _ => ?_)
    refine keeps_ite (fun _ => dmaFail_keeps (sub.of (by decide) hm) (noteUes_keeps (sub.of (by decide) hm) h))
      (fun _ => ?_)
    exact ih (dmaMoveRow_keeps (sub.of (by decide) hm) h)

theorem dmaStep_keeps {a0 : Nat} {a1 : List Nat} {s : State} (hm : sub 472085535 m) (h : Keeps m s0 s) :
    Keeps m s0 (dmaStep a0 a1 s) := by
  unfold dmaStep
  split
  · exact h
  · refine keeps_ite (fun _ => ?_) (fun _ => ?_)
    · refine dmaSeam_keeps (sub.of (by decide) hm) ?_
      exact h
    · refine keeps_ite (fun _ => ?_) (fun _ => ?_)
      · exact h
      · refine dmaRun_keeps (sub.of (by decide) hm) ?_
        refine dmaBad_keeps (sub.of (by decide) hm) ?_
        exact h

theorem finishLoad_keeps {a0 : Nat} {a1 : Nat} {a2 : EngLoad} {a3 : List Byte} {s : State} (hm : sub 16384 m) (h : Keeps m s0 s) :
    Keeps m s0 (finishLoad a0 a1 a2 a3 s) := by
  unfold finishLoad
  extract_lets +onlyGivenNames -merge -useContext x0
  try clear_value x0
  refine keeps_ite (fun _ => ?_) (fun _ => ?_)
  · refine setV_keeps (sub.of (by decide) hm) ?_
    refine laterLoads_keeps (sub.of (by decide) hm) ?_
    exact h
  · refine lateG_keeps (sub.of (by decide) hm) ?_
    exact h

theorem failLoadEng_keeps {n : Nat} {l : EngLoad} {s : State} (hm : sub 16384 m) (h : Keeps m s0 s) :
    Keeps m s0 (failLoadEng n l s) := by
  unfold failLoadEng
  extract_lets +onlyGivenNames st c go
  have hgo : Keeps m s0 (go s) := syncExc_keeps (sub.of (by decide) hm) (State.setEng_keeps (sub.of (by decide) hm) h)
  clear_value go
  refine keeps_ite (fun _ => hgo) (fun _ => ?_)
  refine keeps_ite (fun _ => ?_) (fun _ => h)
  exact keeps_ite (fun _ => State.setEng_keeps (sub.of (by decide) hm) hgo) (fun _ => hgo)

theorem loadBad_keeps {a0 : Nat} {a1 : Nat} {a2 : EngLoad} {s : State} (hm : sub 16384 m) (h : Keeps m s0 s) :
    Keeps m s0 (loadBad a0 a1 a2 s) := by
  unfold loadBad
  extract_lets +onlyGivenNames -merge -useContext x0
  try clear_value x0
  refine keeps_ite (fun _ => ?_) (fun _ => ?_)
  · refine failLoadEng_keeps (sub.of (by decide) hm) ?_
    exact h
  · refine State.setEng_keeps (sub.of (by decide) hm) ?_
    exact h

theorem seamLoad_keeps {a0 : Nat} {a1 : Nat} {a2 : EngLoad} {a3 : Nat × Nat} {s : State} (hm : sub 2113536 m) (h : Keeps m s0 s) :
    Keeps m s0 (seamLoad a0 a1 a2 a3 s) := by
  unfold seamLoad
  extract_lets +onlyGivenNames -merge -useContext x0 x1
  try clear_value x0
  try clear_value x1
  split
  · exact h
  · extract_lets +onlyGivenNames -merge -useContext x2 x3
    have hx2 : Keeps m s0 x2 := by
      refine State.setSeam_keeps (sub.of (by decide) hm) ?_
      exact h
    clear_value x2
    have hx3 : Keeps m s0 x3 := by
      refine State.setEng_keeps (sub.of (by decide) hm) ?_
      exact hx2
    clear_value x3
    refine keeps_ite (fun _ => ?_) (fun _ => ?_)
    · refine finishLoad_keeps (sub.of (by decide) hm) ?_
      exact hx3
    · refine loadBad_keeps (sub.of (by decide) hm) ?_
      exact hx2

theorem engBytes_keeps {a0 : Nat} {a1 : Nat} {a2 : Nat} {s : State} (hm : sub 1275150595 m) (h : Keeps m s0 s) :
    Keeps m s0 (engBytes a0 a1 a2 s).2 := by
  unfold engBytes
  split
  · refine regBytes_keeps (sub.of (by decide) hm) ?_
    exact h
  · dsimp -zeta only
    refine touchRow_keeps (sub.of (by decide) hm) ?_
    exact h
  · dsimp -zeta only
    refine touchRow_keeps (sub.of (by decide) hm) ?_
    exact h

theorem engUe_keeps {a0 : Nat} {s : State} (hm : sub 469987345 m) (h : Keeps m s0 s) :
    Keeps m s0 (engUe a0 s) := by
  unfold engUe
  split
  · refine ueChip_keeps (sub.of (by decide) hm) ?_
    exact h
  · refine keeps_ite (fun _ => ?_) (fun _ => ?_)
    · refine lpddrUe_keeps (sub.of (by decide) hm) ?_
      exact h
    · exact h

theorem loadReturn_keeps {a0 : Nat} {a1 : Nat} {a2 : Bool} {s : State} (hm : sub 1545826579 m) (h : Keeps m s0 s) :
    Keeps m s0 (loadReturn a0 a1 a2 s) := by
  unfold loadReturn
  extract_lets +onlyGivenNames -merge -useContext x0 x1
  try clear_value x0
  have hx1 : ∀ z2, Keeps m s0 z2 → Keeps m s0 (x1 z2) := by
    intro z2 hz2
    unfold x1
    refine State.setEng_keeps (sub.of (by decide) hm) ?_
    exact hz2
  clear_value x1
  split
  · exact h
  · extract_lets +onlyGivenNames -merge -useContext x3 x4
    try clear_value x3
    try clear_value x4
    refine keeps_ite (fun _ => ?_) (fun _ => ?_)
    · refine keeps_ite (fun _ => ?_) (fun _ => ?_)
      · refine failLoadEng_keeps (sub.of (by decide) hm) ?_
        exact h
      · exact h
    · refine keeps_ite (fun _ => ?_) (fun _ => ?_)
      · exact h
      · split
        · refine seamLoad_keeps (sub.of (by decide) hm) ?_
          exact h
        · split
          · split
            · rename_i z5 z6 e7
              have hz6 : Keeps m s0 z6 := by
                have q : _ = z6 := congrArg Prod.snd e7
                rw [← q]
                refine engBytes_keeps (sub.of (by decide) hm) ?_
                refine hx1 _ ?_
                exact h
              refine finishLoad_keeps (sub.of (by decide) hm) ?_
              exact hz6
          · refine loadBad_keeps (sub.of (by decide) hm) ?_
            refine noteAsleep_keeps (sub.of (by decide) hm) ?_
            exact h
          · refine keeps_ite (fun _ => ?_) (fun _ => ?_)
            · exact h
            · refine keeps_ite (fun _ => ?_) (fun _ => ?_)
              · refine loadBad_keeps (sub.of (by decide) hm) ?_
                refine noteUes_keeps (sub.of (by decide) hm) ?_
                refine touchRow_keeps (sub.of (by decide) hm) ?_
                exact h
              · refine keeps_ite (fun _ => ?_) (fun _ => ?_)
                · refine loadBad_keeps (sub.of (by decide) hm) ?_
                  refine engUe_keeps (sub.of (by decide) hm) ?_
                  refine touchRow_keeps (sub.of (by decide) hm) ?_
                  exact h
                · split
                  · rename_i z8 z9 e10
                    have hz9 : Keeps m s0 z9 := by
                      have q : _ = z9 := congrArg Prod.snd e10
                      rw [← q]
                      refine engBytes_keeps (sub.of (by decide) hm) ?_
                      refine hx1 _ ?_
                      exact h
                    refine finishLoad_keeps (sub.of (by decide) hm) ?_
                    exact hz9

theorem beginStore_keeps {a0 : Nat} {a1 : Nat} {a2 : List Byte} {s : State} (hm : sub 201342977 m) (h : Keeps m s0 s) :
    Keeps m s0 (beginStore a0 a1 a2 s) := by
  unfold beginStore
  extract_lets +onlyGivenNames -merge -useContext x0
  try clear_value x0
  split
  · refine raiseExc_keeps (sub.of (by decide) hm) ?_
    refine noteRefused_keeps (sub.of (by decide) hm) ?_
    exact h
  · refine retireNext_keeps (sub.of (by decide) hm) ?_
    refine State.setEng_keeps (sub.of (by decide) hm) ?_
    exact h

theorem drainStores_keeps {a0 : Nat} {s : State} (hm : sub 2122317823 m) (h : Keeps m s0 s) :
    Keeps m s0 (drainStores a0 s) := by
  unfold drainStores
  refine keeps_foldl (fun x0 y1 hx0 => ?_) _ ?_
  · refine performStore_keeps (sub.of (by decide) hm) ?_
    exact hx0
  · exact h

theorem afterStores_keeps {a0 : Nat} {a1 : State → State} {s : State} (hm : sub 2122317823 m) (hf1 : ∀ x, Keeps m s0 x → Keeps m s0 (a1 x)) (h : Keeps m s0 s) :
    Keeps m s0 (afterStores a0 a1 s) := by
  unfold afterStores
  extract_lets +onlyGivenNames -merge -useContext x0
  have hx0 : Keeps m s0 x0 := by
    refine drainStores_keeps (sub.of (by decide) hm) ?_
    exact h
  clear_value x0
  refine keeps_ite (fun _ => ?_) (fun _ => ?_)
  · refine hf1 _ ?_
    exact hx0
  · exact hx0

theorem store_keeps {a0 : Nat} {a1 : Bool} {a2 : Nat} {a3 : Nat} {a4 : Nat} {a5 : BitVec 14} {s : State} (hm : sub 469987345 m) (h : Keeps m s0 s) :
    Keeps m s0 (store a0 a1 a2 a3 a4 a5 s) := by
  unfold store
  extract_lets +onlyGivenNames -merge -useContext x0
  try clear_value x0
  refine issue_keeps (sub.of (by decide) hm) (fun x1 hx1 => ?_) ?_
  · refine beginStore_keeps (sub.of (by decide) hm) ?_
    exact hx1
  · exact h

theorem beginLoad_keeps {a0 : Nat} {a1 : Nat} {a2 : Nat} {a3 : Bool} {a4 : Bool} {a5 : Nat} {s : State} (hm : sub 203440135 m) (h : Keeps m s0 s) :
    Keeps m s0 (beginLoad a0 a1 a2 a3 a4 a5 s) := by
  unfold beginLoad
  split
  · refine raiseExc_keeps (sub.of (by decide) hm) ?_
    refine noteRefused_keeps (sub.of (by decide) hm) ?_
    exact h
  · split
    · rename_i z0 z1 e2
      have hz1 : Keeps m s0 z1 := by
        have q : _ = z1 := congrArg Prod.snd e2
        rw [← q]
        refine keeps_ite2 (fun _ => ?_) (fun _ => ?_)
        · refine windowRead_keeps (sub.of (by decide) hm) ?_
          exact h
        · dsimp -zeta only
          exact h
      extract_lets +onlyGivenNames -merge -useContext x3
      try clear_value x3
      refine retireNext_keeps (sub.of (by decide) hm) ?_
      refine State.setEng_keeps (sub.of (by decide) hm) ?_
      exact hz1

theorem load_keeps {a0 : Nat} {a1 : Bool} {a2 : Bool} {a3 : Nat} {a4 : Nat} {a5 : Nat} {a6 : BitVec 14} {s : State} (hm : sub 472084503 m) (h : Keeps m s0 s) :
    Keeps m s0 (load a0 a1 a2 a3 a4 a5 a6 s) := by
  unfold load
  extract_lets +onlyGivenNames -merge -useContext x0
  try clear_value x0
  refine issue_keeps (sub.of (by decide) hm) (fun x1 hx1 => ?_) ?_
  · refine beginLoad_keeps (sub.of (by decide) hm) ?_
    exact hx1
  · exact h

theorem beginDma_keeps {a0 : Nat} {a1 : Nat} {a2 : Nat} {s : State} (hm : sub 16385 m) (h : Keeps m s0 s) :
    Keeps m s0 (beginDma a0 a1 a2 s) := by
  unfold beginDma
  extract_lets +onlyGivenNames -merge -useContext x0 x1 x2
  try clear_value x0
  try clear_value x1
  have hx2 : Keeps m s0 x2 := by
    refine State.setEng_keeps (sub.of (by decide) hm) ?_
    exact h
  clear_value x2
  refine keeps_ite (fun _ => ?_) (fun _ => ?_)
  · refine raiseExc_keeps (sub.of (by decide) hm) ?_
    exact h
  · refine keeps_ite (fun _ => ?_) (fun _ => ?_)
    · refine raiseExc_keeps (sub.of (by decide) hm) ?_
      exact h
    · refine keeps_ite (fun _ => ?_) (fun _ => ?_)
      · refine raiseExc_keeps (sub.of (by decide) hm) ?_
        exact h
      · refine retireNext_keeps (sub.of (by decide) hm) ?_
        refine setG_keeps (sub.of (by decide) hm) ?_
        exact hx2

end Sys2Proof.Machine
end

