-- ==== Sys2Proof/Laws/Frame/EngSys.lean ====
section
/-!
SUPPORT. What the functions of Machine/EngSys.lean touch: one lemma each, in the terms of `Keeps`.
-/
namespace Sys2Proof.Machine

variable {m : Nat} {s0 : State}

theorem breakHit_keeps {a0 : Nat} {a1 : Nat} {s : State} (hm : sub 16384 m) (h : Keeps m s0 s) :
    Keeps m s0 (breakHit a0 a1 s) := by
  unfold breakHit
  refine keeps_ite (fun _ => ?_) (fun _ => ?_)
  · refine takeBkpt_keeps (sub.of (by decide) hm) ?_
    exact h
  · exact h

theorem fillAnswer_keeps {a0 : Nat} {a1 : Nat} {a2 : Word} {s : State} (hm : sub 16384 m) (h : Keeps m s0 s) :
    Keeps m s0 (fillAnswer a0 a1 a2 s) := by
  unfold fillAnswer
  extract_lets +onlyGivenNames -merge -useContext x0
  try clear_value x0
  refine State.setEng_keeps (sub.of (by decide) hm) ?_
  exact h

theorem ewaitEnd_keeps {a0 : Nat} {s : State} (hm : sub 16385 m) (h : Keeps m s0 s) :
    Keeps m s0 (ewaitEnd a0 s) := by
  unfold ewaitEnd
  extract_lets +onlyGivenNames -merge -useContext x0
  try clear_value x0
  split
  · refine keeps_ite (fun _ => ?_) (fun _ => ?_)
    · refine setIssueAt_keeps (sub.of (by decide) hm) ?_
      refine wakeEng_keeps (sub.of (by decide) hm) ?_
      refine setG_keeps (sub.of (by decide) hm) ?_
      exact h
    · exact h
  · exact h

theorem answerBack_keeps {a0 : Nat} {s : State} (hm : sub 16384 m) (h : Keeps m s0 s) :
    Keeps m s0 (answerBack a0 s) := by
  unfold answerBack
  extract_lets +onlyGivenNames -merge -useContext x0
  try clear_value x0
  split
  · exact h
  · split
    · refine lateG_keeps (sub.of (by decide) hm) ?_
      refine State.setEng_keeps (sub.of (by decide) hm) ?_
      exact h
    · exact h

theorem dmawaitEnd_keeps {a0 : Nat} {s : State} (hm : sub 16385 m) (h : Keeps m s0 s) :
    Keeps m s0 (dmawaitEnd a0 s) := by
  unfold dmawaitEnd
  extract_lets +onlyGivenNames -merge -useContext x0
  try clear_value x0
  split
  · refine keeps_ite (fun _ => ?_) (fun _ => ?_)
    · refine wakeEng_keeps (sub.of (by decide) hm) ?_
      refine setG_keeps (sub.of (by decide) hm) ?_
      exact h
    · exact h
  · exact h

theorem fireTimer_keeps {a0 : Nat} {s : State} (hm : sub 201343041 m) (h : Keeps m s0 s) :
    Keeps m s0 (fireTimer a0 s) := by
  unfold fireTimer
  extract_lets +onlyGivenNames -merge -useContext x0 x1 x2
  try clear_value x0
  have hx1 : Keeps m s0 x1 := by
    refine State.setEng_keeps (sub.of (by decide) hm) ?_
    exact h
  clear_value x1
  have hx2 : Keeps m s0 x2 := by
    refine sourceEvent_keeps (sub.of (by decide) hm) ?_
    exact hx1
  clear_value x2
  refine keeps_ite (fun _ => ?_) (fun _ => ?_)
  · refine localEvent_keeps (sub.of (by decide) hm) ?_
    exact hx2
  · exact hx2

theorem cueTimer_keeps {a0 : Nat} {s : State} (hm : sub 201343041 m) (h : Keeps m s0 s) :
    Keeps m s0 (cueTimer a0 s) := by
  unfold cueTimer
  refine keeps_ite (fun _ => ?_) (fun _ => ?_)
  · refine fireTimer_keeps (sub.of (by decide) hm) ?_
    exact h
  · exact h

theorem takePending_keeps {a0 : Nat} {s : State} (hm : sub 16384 m) (h : Keeps m s0 s) :
    Keeps m s0 (takePending a0 s) := by
  unfold takePending
  extract_lets +onlyGivenNames -merge -useContext x0
  try clear_value x0
  refine keeps_ite (fun _ => ?_) (fun _ => ?_)
  · split
    · refine keeps_ite (fun _ => ?_) (fun _ => ?_)
      · refine takeAsync_keeps (sub.of (by decide) hm) ?_
        exact h
      · exact h
    · exact h
  · exact h

theorem watchFire_keeps {a0 : Nat} {s : State} (hm : sub 201342977 m) (h : Keeps m s0 s) :
    Keeps m s0 (watchFire a0 s) := by
  unfold watchFire
  extract_lets +onlyGivenNames -merge -useContext x0 x1
  try clear_value x0
  have hx1 : Keeps m s0 x1 := by
    refine State.setEng_keeps (sub.of (by decide) hm) ?_
    exact h
  clear_value x1
  refine keeps_ite (fun _ => ?_) (fun _ => ?_)
  · refine keeps_ite (fun _ => ?_) (fun _ => ?_)
    · refine meFlag_keeps (sub.of (by decide) hm) ?_
      exact hx1
    · refine State.raise_keeps (sub.of (by decide) hm) ?_
      refine State.setBit_keeps (sub.of (by decide) hm) ?_
      exact hx1
  · exact h

theorem twaitEnd_keeps {a0 : Nat} {s : State} (hm : sub 16385 m) (h : Keeps m s0 s) :
    Keeps m s0 (twaitEnd a0 s) := by
  unfold twaitEnd
  extract_lets +onlyGivenNames -merge -useContext x0
  try clear_value x0
  split
  · refine keeps_ite (fun _ => ?_) (fun _ => ?_)
    · refine setIssueAt_keeps (sub.of (by decide) hm) ?_
      refine wakeEng_keeps (sub.of (by decide) hm) ?_
      exact h
    · exact h
  · exact h

theorem wdogExpire_keeps {a0 : Nat} {s : State} (hm : sub 201342977 m) (h : Keeps m s0 s) :
    Keeps m s0 (wdogExpire a0 s) := by
  unfold wdogExpire
  refine keeps_ite (fun _ => ?_) (fun _ => ?_)
  · refine meFlag_keeps (sub.of (by decide) hm) ?_
    refine engFault_keeps (sub.of (by decide) hm) ?_
    exact h
  · exact h

theorem qgetTimeout_keeps {a0 : Nat} {s : State} (hm : sub 16385 m) (h : Keeps m s0 s) :
    Keeps m s0 (qgetTimeout a0 s) := by
  unfold qgetTimeout
  extract_lets +onlyGivenNames -merge -useContext x0
  try clear_value x0
  split
  · refine keeps_ite (fun _ => ?_) (fun _ => ?_)
    · refine wakeEng_keeps (sub.of (by decide) hm) ?_
      refine setG_keeps (sub.of (by decide) hm) ?_
      refine State.setEng_keeps (sub.of (by decide) hm) ?_
      exact h
    · exact h
  · exact h

theorem superOnlyOp_keeps {a0 : Nat} {a1 : State → State} {s : State} (hm : sub 16384 m) (hf1 : ∀ x, Keeps m s0 x → Keeps m s0 (a1 x)) (h : Keeps m s0 s) :
    Keeps m s0 (superOnlyOp a0 a1 s) := by
  unfold superOnlyOp
  refine keeps_ite (fun _ => ?_) (fun _ => ?_)
  · refine hf1 _ ?_
    exact h
  · refine raiseExc_keeps (sub.of (by decide) hm) ?_
    exact h

theorem onEngine_keeps {a0 : Nat} {a1 : State → State} {s : State} (hm : sub 0 m) (hf1 : ∀ x, Keeps m s0 x → Keeps m s0 (a1 x)) (h : Keeps m s0 s) :
    Keeps m s0 (onEngine a0 a1 s) := by
  unfold onEngine
  refine keeps_ite (fun _ => ?_) (fun _ => ?_)
  · refine hf1 _ ?_
    exact h
  · exact h

theorem withJob_keeps {a0 : Nat} {a1 : State → State} {s : State} (hm : sub 2122317823 m) (hf1 : ∀ x, Keeps m s0 x → Keeps m s0 (a1 x)) (h : Keeps m s0 s) :
    Keeps m s0 (withJob a0 a1 s) := by
  unfold withJob
  refine keeps_ite (fun _ => ?_) (fun _ => ?_)
  · refine afterStores_keeps (sub.of (by decide) hm) (fun x0 hx0 => ?_) ?_
    · refine hf1 _ ?_
      exact hx0
    · exact h
  · refine raiseExc_keeps (sub.of (by decide) hm) ?_
    exact h

theorem dropJob_keeps {a0 : Nat} {s : State} (hm : sub 16384 m) (h : Keeps m s0 s) :
    Keeps m s0 (dropJob a0 s) := by
  unfold dropJob
  extract_lets +onlyGivenNames -merge -useContext x0
  try clear_value x0
  refine disarmWatch_keeps (sub.of (by decide) hm) ?_
  refine State.setEng_keeps (sub.of (by decide) hm) ?_
  exact h

theorem addAnswer_keeps {a0 : Nat} {a1 : Nat} {a2 : Word} {s : State} (hm : sub 16385 m) (h : Keeps m s0 s) :
    Keeps m s0 (addAnswer a0 a1 a2 s) := by
  unfold addAnswer
  extract_lets +onlyGivenNames -merge -useContext x0
  try clear_value x0
  refine retireNext_keeps (sub.of (by decide) hm) ?_
  refine State.setEng_keeps (sub.of (by decide) hm) ?_
  exact h

theorem beginQfail_keeps {a0 : Nat} {a1 : Nat} {a2 : Nat} {s : State} (hm : sub 469884953 m) (h : Keeps m s0 s) :
    Keeps m s0 (beginQfail a0 a1 a2 s) := by
  unfold beginQfail
  extract_lets +onlyGivenNames -merge -useContext x0
  try clear_value x0
  refine addAnswer_keeps (sub.of (by decide) hm) ?_
  refine failJob_keeps (sub.of (by decide) hm) ?_
  refine dropJob_keeps (sub.of (by decide) hm) ?_
  refine watchFire_keeps (sub.of (by decide) hm) ?_
  exact h

theorem beginMfsr_keeps {a0 : Nat} {a1 : Nat} {a2 : Nat} {s : State} (hm : sub 16385 m) (h : Keeps m s0 s) :
    Keeps m s0 (beginMfsr a0 a1 a2 s) := by
  unfold beginMfsr
  extract_lets +onlyGivenNames -merge -useContext x0 x1 x2
  try clear_value x0
  try clear_value x1
  have hx2 : Keeps m s0 x2 := by
    refine keeps_ite (fun _ => ?_) (fun _ => ?_)
    · refine State.setEng_keeps (sub.of (by decide) hm) ?_
      exact h
    · exact h
  clear_value x2
  refine keeps_ite (fun _ => ?_) (fun _ => ?_)
  · refine raiseExc_keeps (sub.of (by decide) hm) ?_
    exact h
  · refine keeps_ite (fun _ => ?_) (fun _ => ?_)
    · refine raiseExc_keeps (sub.of (by decide) hm) ?_
      exact h
    · refine retireNext_keeps (sub.of (by decide) hm) ?_
      refine setG_keeps (sub.of (by decide) hm) ?_
      exact hx2

theorem beginDlset_keeps {a0 : Nat} {a1 : Nat} {s : State} (hm : sub 16385 m) (h : Keeps m s0 s) :
    Keeps m s0 (beginDlset a0 a1 s) := by
  unfold beginDlset
  extract_lets +onlyGivenNames -merge -useContext x0
  try clear_value x0
  refine retireNext_keeps (sub.of (by decide) hm) ?_
  refine State.setEng_keeps (sub.of (by decide) hm) ?_
  exact h

theorem qputAsk_keeps {a0 : Nat} {a1 : Nat} {s : State} (hm : sub 203440135 m) (h : Keeps m s0 s) :
    Keeps m s0 (qputAsk a0 a1 s) := by
  unfold qputAsk
  refine keeps_ite (fun _ => ?_) (fun _ => ?_)
  · refine windowRead_keeps (sub.of (by decide) hm) ?_
    exact h
  · exact h

theorem qputBytes_keeps {a0 : Nat} {a1 : Nat} {s : State} (hm : sub 1545826579 m) (h : Keeps m s0 s) :
    Keeps m s0 (qputBytes a0 a1 s).2 := by
  unfold qputBytes
  extract_lets +onlyGivenNames -merge -useContext x0
  try clear_value x0
  refine keeps_ite2 (fun _ => ?_) (fun _ => ?_)
  · split
    · dsimp -zeta only
      refine State.setSeam_keeps (sub.of (by decide) hm) ?_
      exact h
    · dsimp -zeta only
      exact h
  · refine keeps_ite2 (fun _ => ?_) (fun _ => ?_)
    · dsimp -zeta only
      refine noteUes_keeps (sub.of (by decide) hm) ?_
      exact h
    · split
      · rename_i z1 z2 e3
        have hz2 : Keeps m s0 z2 := by
          have q : _ = z2 := congrArg Prod.snd e3
          rw [← q]
          refine engBytes_keeps (sub.of (by decide) hm) ?_
          exact h
        dsimp -zeta only
        exact hz2

theorem awaitAnswer_keeps {a0 : Nat} {a1 : Nat} {s : State} (hm : sub 16385 m) (h : Keeps m s0 s) :
    Keeps m s0 (awaitAnswer a0 a1 s) := by
  unfold awaitAnswer
  extract_lets +onlyGivenNames -merge -useContext x0
  try clear_value x0
  refine retireNext_keeps (sub.of (by decide) hm) ?_
  refine State.setEng_keeps (sub.of (by decide) hm) ?_
  exact h

theorem beginQput_keeps {a0 : Nat} {a1 : Nat} {a2 : Nat} {a3 : Word} {s : State} (hm : sub 2082697491 m) (h : Keeps m s0 s) :
    Keeps m s0 (beginQput a0 a1 a2 a3 s) := by
  unfold beginQput
  split
  · refine raiseExc_keeps (sub.of (by decide) hm) ?_
    refine noteRefused_keeps (sub.of (by decide) hm) ?_
    exact h
  · split
    · rename_i z0 z1 e2
      have hz1 : Keeps m s0 z1 := by
        have q : _ = z1 := congrArg Prod.snd e2
        rw [← q]
        refine qputBytes_keeps (sub.of (by decide) hm) ?_
        exact h
      split
      · refine addAnswer_keeps (sub.of (by decide) hm) ?_
        exact hz1
      · refine keeps_ite (fun _ => ?_) (fun _ => ?_)
        · refine addAnswer_keeps (sub.of (by decide) hm) ?_
          exact hz1
        · refine awaitAnswer_keeps (sub.of (by decide) hm) ?_
          refine askPost_keeps (sub.of (by decide) hm) ?_
          exact hz1

theorem doPark_keeps {a0 : Nat} {s : State} (hm : sub 201342977 m) (h : Keeps m s0 s) :
    Keeps m s0 (doPark a0 s) := by
  unfold doPark
  extract_lets +onlyGivenNames -merge -useContext x0 x1
  have hx0 : Keeps m s0 x0 := by
    refine retireNext_keeps (sub.of (by decide) hm) ?_
    exact h
  clear_value x0
  try clear_value x1
  refine meFlag_keeps (sub.of (by decide) hm) ?_
  refine State.setEng_keeps (sub.of (by decide) hm) ?_
  exact hx0

theorem doBrk_keeps {a0 : Nat} {s : State} (hm : sub 16385 m) (h : Keeps m s0 s) :
    Keeps m s0 (doBrk a0 s) := by
  unfold doBrk
  refine keeps_ite (fun _ => ?_) (fun _ => ?_)
  · refine haltEng_keeps (sub.of (by decide) hm) ?_
    refine retireNext_keeps (sub.of (by decide) hm) ?_
    exact h
  · refine raiseExc_keeps (sub.of (by decide) hm) ?_
    exact h

theorem beginRaise_keeps {a0 : Nat} {a1 : Nat} {s : State} (hm : sub 2122317823 m) (h : Keeps m s0 s) :
    Keeps m s0 (beginRaise a0 a1 s) := by
  unfold beginRaise
  refine keeps_ite (fun _ => ?_) (fun _ => ?_)
  · refine afterStores_keeps (sub.of (by decide) hm) (fun x0 hx0 => ?_) ?_
    · refine retireNext_keeps (sub.of (by decide) hm) ?_
      refine State.raise_keeps (sub.of (by decide) hm) ?_
      exact hx0
    · exact h
  · refine raiseExc_keeps (sub.of (by decide) hm) ?_
    exact h

theorem doEret_keeps {a0 : Nat} {s : State} (hm : sub 16385 m) (h : Keeps m s0 s) :
    Keeps m s0 (doEret a0 s) := by
  unfold doEret
  extract_lets +onlyGivenNames -merge -useContext x0
  try clear_value x0
  refine keeps_ite (fun _ => ?_) (fun _ => ?_)
  · refine retireTo_keeps (sub.of (by decide) hm) ?_
    refine State.setEng_keeps (sub.of (by decide) hm) ?_
    exact h
  · refine raiseExc_keeps (sub.of (by decide) hm) ?_
    exact h

theorem beginQdone_keeps {a0 : Nat} {a1 : Nat} {s : State} (hm : sub 469884953 m) (h : Keeps m s0 s) :
    Keeps m s0 (beginQdone a0 a1 s) := by
  unfold beginQdone
  extract_lets +onlyGivenNames -merge -useContext x0
  try clear_value x0
  split
  · rename_i z1 z2 e3
    have hz2 : Keeps m s0 z2 := by
      have q : _ = z2 := congrArg Prod.snd e3
      rw [← q]
      refine doneEnt_keeps (sub.of (by decide) hm) ?_
      refine dropJob_keeps (sub.of (by decide) hm) ?_
      refine watchFire_keeps (sub.of (by decide) hm) ?_
      exact h
    refine addAnswer_keeps (sub.of (by decide) hm) ?_
    exact hz2

theorem carm_keeps {a0 : Nat} {a1 : Nat} {a2 : Nat} {a3 : Bool} {s : State} (hm : sub 1006858257 m) (h : Keeps m s0 s) :
    Keeps m s0 (carm a0 a1 a2 a3 s) := by
  unfold carm
  refine issue_keeps (sub.of (by decide) hm) (fun x0 hx0 => ?_) ?_
  · extract_lets +onlyGivenNames -merge -useContext x1
    try clear_value x1
    refine awaitAnswer_keeps (sub.of (by decide) hm) ?_
    refine askArm_keeps (sub.of (by decide) hm) ?_
    exact hx0
  · exact h

theorem parityFault_keeps {a0 : Nat} {s : State} (hm : sub 16384 m) (h : Keeps m s0 s) :
    Keeps m s0 (parityFault a0 s) := by
  unfold parityFault
  extract_lets +onlyGivenNames -merge -useContext x0
  try clear_value x0
  refine keeps_ite (fun _ => ?_) (fun _ => ?_)
  · refine engFault_keeps (sub.of (by decide) hm) ?_
    exact h
  · exact h

theorem beginDmawait_keeps {a0 : Nat} {a1 : Nat} {a2 : Nat} {s : State} (hm : sub 16385 m) (h : Keeps m s0 s) :
    Keeps m s0 (beginDmawait a0 a1 a2 s) := by
  unfold beginDmawait
  extract_lets +onlyGivenNames -merge -useContext x0
  try clear_value x0
  refine keeps_ite (fun _ => ?_) (fun _ => ?_)
  · refine waitEng_keeps (sub.of (by decide) hm) ?_
    exact h
  · refine retireNext_keeps (sub.of (by decide) hm) ?_
    refine setG_keeps (sub.of (by decide) hm) ?_
    exact h

theorem beginQget_keeps {a0 : Nat} {a1 : Nat} {a2 : Nat} {a3 : Bool} {s : State} (hm : sub 470020121 m) (h : Keeps m s0 s) :
    Keeps m s0 (beginQget a0 a1 a2 a3 s) := by
  unfold beginQget
  extract_lets +onlyGivenNames -merge -useContext x0 x1 x2
  try clear_value x0
  have hx1 : Keeps m s0 x1 := by
    refine brokerAct_keeps (sub.of (by decide) hm) ?_
    refine waitEng_keeps (sub.of (by decide) hm) ?_
    exact h
  clear_value x1
  try clear_value x2
  refine keeps_ite (fun _ => ?_) (fun _ => ?_)
  · refine raiseExc_keeps (sub.of (by decide) hm) ?_
    exact h
  · refine keeps_ite (fun _ => ?_) (fun _ => ?_)
    · refine retireNext_keeps (sub.of (by decide) hm) ?_
      refine setG_keeps (sub.of (by decide) hm) ?_
      refine State.setEng_keeps (sub.of (by decide) hm) ?_
      exact h
    · refine keeps_ite (fun _ => ?_) (fun _ => ?_)
      · refine waitEng_keeps (sub.of (by decide) hm) ?_
        exact h
      · refine keeps_ite (fun _ => ?_) (fun _ => ?_)
        · refine wakeEng_keeps (sub.of (by decide) hm) ?_
          refine setG_keeps (sub.of (by decide) hm) ?_
          refine State.setEng_keeps (sub.of (by decide) hm) ?_
          exact hx1
        · exact hx1

theorem beginTwait_keeps {a0 : Nat} {a1 : Nat} {s : State} (hm : sub 16385 m) (h : Keeps m s0 s) :
    Keeps m s0 (beginTwait a0 a1 s) := by
  unfold beginTwait
  refine keeps_ite (fun _ => ?_) (fun _ => ?_)
  · refine setIssueAt_keeps (sub.of (by decide) hm) ?_
    refine retireNext_keeps (sub.of (by decide) hm) ?_
    exact h
  · refine waitEng_keeps (sub.of (by decide) hm) ?_
    exact h

theorem beginEwait_keeps {a0 : Nat} {a1 : Nat} {a2 : BitVec 16} {a3 : Nat} {s : State} (hm : sub 16385 m) (h : Keeps m s0 s) :
    Keeps m s0 (beginEwait a0 a1 a2 a3 s) := by
  unfold beginEwait
  refine keeps_ite (fun _ => ?_) (fun _ => ?_)
  · refine setIssueAt_keeps (sub.of (by decide) hm) ?_
    refine retireNext_keeps (sub.of (by decide) hm) ?_
    refine setG_keeps (sub.of (by decide) hm) ?_
    exact h
  · refine waitEng_keeps (sub.of (by decide) hm) ?_
    exact h

theorem armTimer_keeps {a0 : Nat} {a1 : Word} {s : State} (hm : sub 201343041 m) (h : Keeps m s0 s) :
    Keeps m s0 (armTimer a0 a1 s) := by
  unfold armTimer
  extract_lets +onlyGivenNames -merge -useContext x0 x1
  have hx0 : Keeps m s0 x0 := by
    refine keeps_ite (fun _ => ?_) (fun _ => ?_)
    · refine fireTimer_keeps (sub.of (by decide) hm) ?_
      exact h
    · exact h
  clear_value x0
  try clear_value x1
  refine State.setEng_keeps (sub.of (by decide) hm) ?_
  exact hx0

theorem writeCtctl_keeps {a0 : Nat} {a1 : Word} {s : State} (hm : sub 16384 m) (h : Keeps m s0 s) :
    Keeps m s0 (writeCtctl a0 a1 s) := by
  unfold writeCtctl
  extract_lets +onlyGivenNames -merge -useContext x0 x1 x2
  try clear_value x0
  have hx1 : Keeps m s0 x1 := by
    refine State.setEng_keeps (sub.of (by decide) hm) ?_
    exact h
  clear_value x1
  try clear_value x2
  refine keeps_ite (fun _ => ?_) (fun _ => ?_)
  · refine State.setEng_keeps (sub.of (by decide) hm) ?_
    exact hx1
  · exact hx1

theorem srWrite_keeps {a0 : Nat} {a1 : Nat} {a2 : Word} {s : State} (hm : sub 201343041 m) (h : Keeps m s0 s) :
    Keeps m s0 (srWrite a0 a1 a2 s) := by
  unfold srWrite
  extract_lets +onlyGivenNames -merge -useContext x0
  try clear_value x0
  split
  · refine State.setEng_keeps (sub.of (by decide) hm) ?_
    exact h
  · refine State.setEng_keeps (sub.of (by decide) hm) ?_
    exact h
  · refine State.setEng_keeps (sub.of (by decide) hm) ?_
    exact h
  · refine State.setEng_keeps (sub.of (by decide) hm) ?_
    exact h
  · refine State.setEng_keeps (sub.of (by decide) hm) ?_
    exact h
  · refine State.setEng_keeps (sub.of (by decide) hm) ?_
    exact h
  · refine State.setEng_keeps (sub.of (by decide) hm) ?_
    exact h
  · refine State.setEng_keeps (sub.of (by decide) hm) ?_
    exact h
  · refine State.setEng_keeps (sub.of (by decide) hm) ?_
    exact h
  · refine State.setEng_keeps (sub.of (by decide) hm) ?_
    exact h
  · refine State.setEng_keeps (sub.of (by decide) hm) ?_
    exact h
  · refine State.setEng_keeps (sub.of (by decide) hm) ?_
    exact h
  · refine armTimer_keeps (sub.of (by decide) hm) ?_
    exact h
  · refine writeCtctl_keeps (sub.of (by decide) hm) ?_
    exact h
  · refine State.setEng_keeps (sub.of (by decide) hm) ?_
    exact h
  · exact h

theorem beginMtsr_keeps {a0 : Nat} {a1 : Nat} {a2 : Nat} {s : State} (hm : sub 201343041 m) (h : Keeps m s0 s) :
    Keeps m s0 (beginMtsr a0 a1 a2 s) := by
  unfold beginMtsr
  refine keeps_ite (fun _ => ?_) (fun _ => ?_)
  · refine raiseExc_keeps (sub.of (by decide) hm) ?_
    exact h
  · refine keeps_ite (fun _ => ?_) (fun _ => ?_)
    · refine raiseExc_keeps (sub.of (by decide) hm) ?_
      exact h
    · refine keeps_ite (fun _ => ?_) (fun _ => ?_)
      · refine raiseExc_keeps (sub.of (by decide) hm) ?_
        exact h
      · refine retireNext_keeps (sub.of (by decide) hm) ?_
        refine srWrite_keeps (sub.of (by decide) hm) ?_
        exact h

theorem refill_keeps {a0 : Nat} {a1 : Nat} {a2 : Nat} {a3 : Bool} {s : State} (hm : sub 469987345 m) (h : Keeps m s0 s) :
    Keeps m s0 (refill a0 a1 a2 a3 s) := by
  unfold refill
  extract_lets +onlyGivenNames -merge -useContext x0 x1 x2
  try clear_value x0
  have hx1 : Keeps m s0 x1 := by
    refine touchRow_keeps (sub.of (by decide) hm) ?_
    refine keeps_ite (fun _ => ?_) (fun _ => ?_)
    · refine foundBad_keeps (sub.of (by decide) hm) ?_
      exact h
    · exact h
  clear_value x1
  have hx2 : Keeps m s0 x2 := by
    refine noteUes_keeps (sub.of (by decide) hm) ?_
    exact hx1
  clear_value x2
  refine keeps_ite (fun _ => ?_) (fun _ => ?_)
  · exact h
  · refine keeps_ite (fun _ => ?_) (fun _ => ?_)
    · refine keeps_ite (fun _ => ?_) (fun _ => ?_)
      · refine raiseExc_keeps (sub.of (by decide) hm) ?_
        exact hx2
      · exact hx2
    · refine keeps_ite (fun _ => ?_) (fun _ => ?_)
      · refine fillWay_keeps (sub.of (by decide) hm) ?_
        exact hx1
      · exact hx1

theorem doIinv_keeps {a0 : Nat} {s : State} (hm : sub 16385 m) (h : Keeps m s0 s) :
    Keeps m s0 (doIinv a0 s) := by
  unfold doIinv
  extract_lets +onlyGivenNames -merge -useContext x0
  try clear_value x0
  refine retireNext_keeps (sub.of (by decide) hm) ?_
  refine State.setEng_keeps (sub.of (by decide) hm) ?_
  exact h

end Sys2Proof.Machine
end

