-- ==== Sys2Proof/Laws/Frame/EngVec.lean ====
section
/-!
SUPPORT. What the functions of Machine/EngVec.lean touch: one lemma each, in the terms of `Keeps`.
-/
namespace Sys2Proof.Machine

variable {m : Nat} {s0 : State}

theorem vLanes_keeps {a0 : Nat} {a1 : Bool} {a2 : BitVec 2} {a3 : Nat} {a4 : Nat} {a5 : Nat} {a6 : (w : Nat) → BitVec w → BitVec w → BitVec w} {s : State} (hm : sub 469987345 m) (h : Keeps m s0 s) :
    Keeps m s0 (vLanes a0 a1 a2 a3 a4 a5 a6 s) := by
  unfold vLanes
  refine vOp3_keeps (sub.of (by decide) hm) ?_
  exact h

theorem vShift_keeps {a0 : Nat} {a1 : BitVec 2} {a2 : Nat} {a3 : Nat} {a4 : Nat} {a5 : (w : Nat) → Nat → BitVec w → BitVec w} {s : State} (hm : sub 469987345 m) (h : Keeps m s0 s) :
    Keeps m s0 (vShift a0 a1 a2 a3 a4 a5 s) := by
  unfold vShift
  refine vScal_keeps (sub.of (by decide) hm) ?_
  exact h

end Sys2Proof.Machine
end

