-- ==== Sys2Proof/Laws/Frame/SeamIn.lean ====
section
/-!
SUPPORT. What the functions of Machine/SeamIn.lean touch: one lemma each, in the terms of `Keeps`.
-/
namespace Sys2Proof.Machine

variable {m : Nat} {s0 : State}

theorem refuseRequest_keeps {a0 : Nat} {a1 : Flit} {s : State} (hm : sub 203440135 m) (h : Keeps m s0 s) :
    Keeps m s0 (refuseRequest a0 a1 s) := by
  unfold refuseRequest
  extract_lets +onlyGivenNames -merge -useContext x0
  have hx0 : Keeps m s0 x0 := by
    refine seamViol_keeps (sub.of (by decide) hm) ?_
    exact h
  clear_value x0
  refine keeps_ite (fun _ => ?_) (fun _ => ?_)
  · exact hx0
  · refine answerTo_keeps (sub.of (by decide) hm) ?_
    exact hx0

theorem noteInbound_keeps {a0 : Bool} {a1 : Nat} {a2 : Nat} {s : State} (hm : sub 201342977 m) (h : Keeps m s0 s) :
    Keeps m s0 (noteInbound a0 a1 a2 s) := by
  unfold noteInbound
  refine keeps_ite (fun _ => ?_) (fun _ => ?_)
  · refine keeps_foldl (fun x0 y1 hx0 => ?_) _ ?_
    · refine noteTurned_keeps (sub.of (by decide) hm) ?_
      exact hx0
    · exact h
  · exact h

theorem performRead_keeps {a0 : Nat} {a1 : Flit} {a2 : List Nat} {s : State} (hm : sub 2082697495 m) (h : Keeps m s0 s) :
    Keeps m s0 (performRead a0 a1 a2 s) := by
  unfold performRead
  extract_lets +onlyGivenNames -merge -useContext x0 x1 x2 x3 x4
  try clear_value x0
  try clear_value x1
  try clear_value x2
  try clear_value x3
  have hx4 : Keeps m s0 x4 := by
    refine touchRow_keeps (sub.of (by decide) hm) ?_
    refine foundIn_keeps (sub.of (by decide) hm) ?_
    exact h
  clear_value x4
  refine keeps_ite (fun _ => ?_) (fun _ => ?_)
  · refine refuseRequest_keeps (sub.of (by decide) hm) ?_
    refine noteInbound_keeps (sub.of (by decide) hm) ?_
    exact h
  · refine keeps_ite (fun _ => ?_) (fun _ => ?_)
    · split
      · rename_i z5 z6 e7
        have hz6 : Keeps m s0 z6 := by
          have q : _ = z6 := congrArg Prod.snd e7
          rw [← q]
          refine regBytes_keeps (sub.of (by decide) hm) ?_
          exact h
        refine answerTo_keeps (sub.of (by decide) hm) ?_
        exact hz6
    · refine keeps_ite (fun _ => ?_) (fun _ => ?_)
      · refine State.setAsks_keeps (sub.of (by decide) hm) ?_
        exact h
      · refine keeps_ite (fun _ => ?_) (fun _ => ?_)
        · refine answerTo_keeps (sub.of (by decide) hm) ?_
          refine noteUes_keeps (sub.of (by decide) hm) ?_
          exact hx4
        · refine answerTo_keeps (sub.of (by decide) hm) ?_
          exact hx4

theorem performMsg_keeps {a0 : Nat} {a1 : Flit} {s : State} (hm : sub 203505695 m) (h : Keeps m s0 s) :
    Keeps m s0 (performMsg a0 a1 s) := by
  unfold performMsg
  extract_lets +onlyGivenNames -merge -useContext x0 x1 x2 x3 x4 x5
  try clear_value x0
  try clear_value x1
  try clear_value x2
  try clear_value x3
  have hx4 : Keeps m s0 x4 := by
    refine seamFlag_keeps (sub.of (by decide) hm) ?_
    exact h
  clear_value x4
  have hx5 : Keeps m s0 x5 := by
    refine keeps_ite (fun _ => ?_) (fun _ => ?_)
    · refine State.hwPut_keeps (sub.of (by decide) hm) ?_
      exact h
    · exact h
  clear_value x5
  refine keeps_ite (fun _ => ?_) (fun _ => ?_)
  · refine keeps_ite (fun _ => ?_) (fun _ => ?_)
    · exact hx4
    · refine answerTo_keeps (sub.of (by decide) hm) ?_
      exact hx4
  · refine State.raiseIf_keeps (sub.of (by decide) hm) ?_
    refine State.setReg_keeps (sub.of (by decide) hm) ?_
    exact hx5

theorem arrive_keeps {a0 : Nat} {a1 : Nat} {a2 : Bool} {a3 : Flit} {a4 : State → State} {s : State} (hm : sub 471875591 m) (hf4 : ∀ x, Keeps m s0 x → Keeps m s0 (a4 x)) (h : Keeps m s0 s) :
    Keeps m s0 (arrive a0 a1 a2 a3 a4 s) := by
  unfold arrive
  split
  · rename_i z0 e1
    have hz0 : Keeps m s0 z0 := by
      have q : _ = z0 := congrArg Prod.snd e1
      rw [← q]
      refine rxData_keeps (sub.of (by decide) hm) ?_
      exact h
    refine hf4 _ ?_
    exact hz0
  · rename_i z2 e3
    have hz2 : Keeps m s0 z2 := by
      have q : _ = z2 := congrArg Prod.snd e3
      rw [← q]
      refine rxData_keeps (sub.of (by decide) hm) ?_
      exact h
    exact hz2

theorem performWrite_keeps {a0 : Nat} {a1 : Flit} {s : State} (hm : sub 2122317823 m) (h : Keeps m s0 s) :
    Keeps m s0 (performWrite a0 a1 s) := by
  unfold performWrite
  extract_lets +onlyGivenNames -merge -useContext x0 x1 x2
  try clear_value x0
  try clear_value x1
  try clear_value x2
  refine keeps_ite (fun _ => ?_) (fun _ => ?_)
  · refine refuseRequest_keeps (sub.of (by decide) hm) ?_
    refine noteInbound_keeps (sub.of (by decide) hm) ?_
    exact h
  · refine keeps_ite (fun _ => ?_) (fun _ => ?_)
    · refine regStore_keeps (sub.of (by decide) hm) ?_
      exact h
    · refine putCells_keeps (sub.of (by decide) hm) ?_
      exact h

theorem performCue_keeps {a0 : Nat} {a1 : Flit} {s : State} (hm : sub 536870912 m) (h : Keeps m s0 s) :
    Keeps m s0 (performCue a0 a1 s) := by
  unfold performCue
  refine askArm_keeps (sub.of (by decide) hm) ?_
  exact h

theorem performAttest_keeps {a0 : Flit} {s : State} (hm : sub 204488711 m) (h : Keeps m s0 s) :
    Keeps m s0 (performAttest a0 s) := by
  unfold performAttest
  extract_lets +onlyGivenNames -merge -useContext x0 x1 x2
  try clear_value x0
  have hx1 : Keeps m s0 x1 := by
    refine State.setSeam_keeps (sub.of (by decide) hm) ?_
    exact h
  clear_value x1
  refine keeps_ite (fun _ => ?_) (fun _ => ?_)
  · refine answerTo_keeps (sub.of (by decide) hm) ?_
    exact h
  · refine setMntBusy_keeps (sub.of (by decide) hm) ?_
    refine State.setMnt_keeps' (sub.of (by decide) hm) ?_ rfl rfl
    exact hx1

theorem refuseWindow_keeps {a0 : Req} {a1 : Bool} {a2 : Nat} {a3 : Nat} {s : State} (hm : sub 201342977 m) (h : Keeps m s0 s) :
    Keeps m s0 (refuseWindow a0 a1 a2 a3 s) := by
  unfold refuseWindow
  split
  · refine dpRefuse_keeps (sub.of (by decide) hm) ?_
    exact h
  · refine raiseExc_keeps (sub.of (by decide) hm) ?_
    exact h
  · exact h

theorem windowAccess_keeps {a0 : Req} {a1 : Bool} {a2 : Nat} {a3 : Nat} {a4 : List Byte} {s : State} (hm : sub 203440135 m) (h : Keeps m s0 s) :
    Keeps m s0 (windowAccess a0 a1 a2 a3 a4 s) := by
  unfold windowAccess
  extract_lets +onlyGivenNames -merge -useContext x0
  try clear_value x0
  refine keeps_ite (fun _ => ?_) (fun _ => ?_)
  · exact h
  · refine keeps_ite (fun _ => ?_) (fun _ => ?_)
    · refine refuseWindow_keeps (sub.of (by decide) hm) ?_
      exact h
    · refine keeps_ite (fun _ => ?_) (fun _ => ?_)
      · refine windowWrite_keeps (sub.of (by decide) hm) ?_
        exact h
      · refine windowRead_keeps (sub.of (by decide) hm) ?_
        exact h

end Sys2Proof.Machine
end

