-- ==== Sys2Proof/Laws/Frame/Tick.lean ====
section
/-!
SUPPORT. What the functions of Machine/Tick.lean touch: one lemma each, in the terms of `Keeps`.
-/
namespace Sys2Proof.Machine

variable {m : Nat} {s0 : State}

theorem each_keeps {a0 : List Nat} {a1 : Nat → State → State} {s : State} (hm : sub 0 m) (hf1 : ∀ b0 x, Keeps m s0 x → Keeps m s0 (a1 b0 x)) (h : Keeps m s0 s) :
    Keeps m s0 (each a0 a1 s) := by
  unfold each
  refine keeps_foldl (fun x0 y1 hx0 => ?_) _ ?_
  · refine hf1 _ _ ?_
    exact hx0
  · exact h

theorem walkDue_keeps {s : State} (hm : sub 469786625 m) (h : Keeps m s0 s) :
    Keeps m s0 (walkDue s) := by
  unfold walkDue
  refine keeps_ite (fun _ => ?_) (fun _ => ?_)
  · refine nmapWalk_keeps (sub.of (by decide) hm) ?_
    exact h
  · exact h

theorem dueLog_keeps {s : State} (hm : sub 469843993 m) (h : Keeps m s0 s) :
    Keeps m s0 (dueLog s) := by
  unfold dueLog
  split
  · refine keeps_ite (fun _ => ?_) (fun _ => ?_)
    · refine writeLog_keeps (sub.of (by decide) hm) ?_
      exact h
    · exact h
  · exact h

theorem answerRead_keeps {a0 : HostRead} {s : State} (hm : sub 1546089759 m) (h : Keeps m s0 s) :
    Keeps m s0 (answerRead a0 s) := by
  unfold answerRead
  split
  · refine bar0Answer_keeps (sub.of (by decide) hm) ?_
    exact h
  · refine dpAnswer_keeps (sub.of (by decide) hm) ?_
    exact h

theorem dueReads_keeps {s : State} (hm : sub 2082960671 m) (h : Keeps m s0 s) :
    Keeps m s0 (dueReads s) := by
  unfold dueReads
  extract_lets +onlyGivenNames -merge -useContext x0 x1 x2 x3 x4 x5
  try clear_value x0
  have hx1 : Keeps m s0 x1 := by
    refine keeps_foldl (fun x6 y7 hx6 => ?_) _ ?_
    · refine performRead_keeps (sub.of (by decide) hm) ?_
      exact hx6
    · refine State.setAsks_keeps (sub.of (by decide) hm) ?_
      exact h
  clear_value x1
  try clear_value x2
  have hx3 : Keeps m s0 x3 := by
    refine State.setAsks_keeps (sub.of (by decide) hm) ?_
    exact hx1
  clear_value x3
  try clear_value x4
  try clear_value x5
  refine keeps_ite (fun _ => ?_) (fun _ => ?_)
  · exact hx1
  · refine keeps_foldl (fun x8 y9 hx8 => ?_) _ ?_
    · refine answerRead_keeps (sub.of (by decide) hm) ?_
      exact hx8
    · refine State.setAsks_keeps (sub.of (by decide) hm) ?_
      exact hx1

theorem dueDac_keeps {a0 : Nat} {s : State} (hm : sub 469988369 m) (h : Keeps m s0 s) :
    Keeps m s0 (dueDac a0 s) := by
  unfold dueDac
  refine dacPoison_keeps (sub.of (by decide) hm) ?_
  refine standbyDrive_keeps (sub.of (by decide) hm) ?_
  refine dacDue_keeps (sub.of (by decide) hm) ?_
  exact h

theorem dueChannel_keeps {a0 : Nat} {s : State} (hm : sub 1275087873 m) (h : Keeps m s0 s) :
    Keeps m s0 (dueChannel a0 s) := by
  unfold dueChannel
  extract_lets +onlyGivenNames -merge -useContext x0 x1
  try clear_value x0
  try clear_value x1
  refine windowDone_keeps (sub.of (by decide) hm) ?_
  refine dceOutput_keeps (sub.of (by decide) hm) ?_
  refine latchWindow_keeps (sub.of (by decide) hm) ?_
  refine windowClose_keeps (sub.of (by decide) hm) ?_
  refine windowOpen_keeps (sub.of (by decide) hm) ?_
  refine lateChannel_keeps (sub.of (by decide) hm) ?_
  exact h

theorem dueMemories_keeps {s : State} (hm : sub 469987353 m) (h : Keeps m s0 s) :
    Keeps m s0 (dueMemories s) := by
  unfold dueMemories
  extract_lets +onlyGivenNames -merge -useContext x0
  have hx0 : Keeps m s0 x0 := by
    refine keeps_ite (fun _ => ?_) (fun _ => ?_)
    · refine each_keeps (sub.of (by decide) hm) (fun y2 x1 hx1 => ?_) ?_
      · refine windowStart_keeps (sub.of (by decide) hm) ?_
        refine rowRestore_keeps (sub.of (by decide) hm) ?_
        exact hx1
      · exact h
    · exact h
  clear_value x0
  refine dueScrub_keeps (sub.of (by decide) hm) ?_
  refine dueMerges_keeps (sub.of (by decide) hm) ?_
  refine each_keeps (sub.of (by decide) hm) (fun y4 x3 hx3 => ?_) ?_
  · refine wakeDone_keeps (sub.of (by decide) hm) ?_
    refine retainDone_keeps (sub.of (by decide) hm) ?_
    refine spareDone_keeps (sub.of (by decide) hm) ?_
    exact hx3
  · exact hx0

theorem postAnswer_keeps {a0 : PostAsk} {a1 : Nat} {s : State} (hm : sub 469786627 m) (h : Keeps m s0 s) :
    Keeps m s0 (postAnswer a0 a1 s) := by
  unfold postAnswer
  split
  · refine fillAnswer_keeps (sub.of (by decide) hm) ?_
    exact h
  · refine State.setPreg_keeps (sub.of (by decide) hm) ?_
    exact h
  · refine keeps_ite (fun _ => ?_) (fun _ => ?_)
    · exact h
    · refine fallbackLost_keeps (sub.of (by decide) hm) ?_
      exact h
  · exact h
  · exact h

theorem applyPost_keeps {a0 : PostAsk} {s : State} (hm : sub 469884955 m) (h : Keeps m s0 s) :
    Keeps m s0 (applyPost a0 s) := by
  unfold applyPost
  extract_lets +onlyGivenNames -merge -useContext x0
  have hx0 : Keeps m s0 x0.2 := by
    refine postJob_keeps (sub.of (by decide) hm) ?_
    exact h
  clear_value x0
  refine postAnswer_keeps (sub.of (by decide) hm) ?_
  exact hx0

theorem duePosts_keeps {s : State} (hm : sub 1006755867 m) (h : Keeps m s0 s) :
    Keeps m s0 (duePosts s) := by
  unfold duePosts
  extract_lets +onlyGivenNames -merge -useContext x0
  try clear_value x0
  refine keeps_ite (fun _ => ?_) (fun _ => ?_)
  · exact h
  · refine keeps_foldl (fun x1 y2 hx1 => ?_) _ ?_
    · refine applyPost_keeps (sub.of (by decide) hm) ?_
      exact hx1
    · refine State.setAsks_keeps (sub.of (by decide) hm) ?_
      exact h

theorem dueConfig_keeps {s : State} (hm : sub 1547400287 m) (h : Keeps m s0 s) :
    Keeps m s0 (dueConfig s) := by
  unfold dueConfig
  refine burnDue_keeps (sub.of (by decide) hm) ?_
  refine opDue_keeps (sub.of (by decide) hm) ?_
  refine unlockExpiry_keeps (sub.of (by decide) hm) ?_
  refine sleeveRelease_keeps (sub.of (by decide) hm) ?_
  refine applyStart_keeps (sub.of (by decide) hm) ?_
  refine checkDone_keeps (sub.of (by decide) hm) ?_
  refine portSilence_keeps (sub.of (by decide) hm) ?_
  exact h

theorem duePg_keeps {a0 : Nat} {s : State} (hm : sub 469783041 m) (h : Keeps m s0 s) :
    Keeps m s0 (duePg a0 s) := by
  unfold duePg
  refine tripRelease_keeps (sub.of (by decide) hm) ?_
  refine pgRunEnd_keeps (sub.of (by decide) hm) ?_
  refine pgCycleStart_keeps (sub.of (by decide) hm) ?_
  refine pgRunEnd_keeps (sub.of (by decide) hm) ?_
  exact h

theorem duePins_keeps {s : State} (hm : sub 1275085121 m) (h : Keeps m s0 s) :
    Keeps m s0 (duePins s) := by
  unfold duePins
  extract_lets +onlyGivenNames -merge -useContext x0
  have hx0 : Keeps m s0 x0 := by
    refine each_keeps (sub.of (by decide) hm) (fun y2 x1 hx1 => ?_) ?_
    · refine keeps_ite (fun _ => ?_) (fun _ => ?_)
      · refine refreshPin_keeps (sub.of (by decide) hm) ?_
        exact hx1
      · exact hx1
    · exact h
  clear_value x0
  refine each_keeps (sub.of (by decide) hm) (fun y4 x3 hx3 => ?_) ?_
  · refine refreshPin_keeps (sub.of (by decide) hm) ?_
    exact hx3
  · exact hx0

theorem tidsDue_keeps {s : State} (hm : sub 740311047 m) (h : Keeps m s0 s) :
    Keeps m s0 (tidsDue s) := by
  unfold tidsDue
  extract_lets +onlyGivenNames -merge -useContext x0
  try clear_value x0
  refine keeps_foldl (fun x1 y2 hx1 => ?_) _ ?_
  · refine issueOrWait_keeps (sub.of (by decide) hm) ?_
    exact hx1
  · refine State.setAsks_keeps (sub.of (by decide) hm) ?_
    exact h

theorem deliverLoop_keeps {s : State} (hm : sub 2122317823 m) (h : Keeps m s0 s) : Keeps m s0 (deliverLoop s) := by
  unfold deliverLoop
  split
  · exact h
  · extract_lets +onlyGivenNames go
    have hgo : ∀ g : State → State, (∀ x, Keeps m s0 x → Keeps m s0 (g x)) → Keeps m s0 (go g) :=
      fun g hg => arrive_keeps (sub.of (by decide) hm) hg h
    clear_value go
    refine keeps_ite (fun _ => hgo _ fun x hx => performRead_keeps (sub.of (by decide) hm) hx) (fun _ => ?_)
    refine keeps_ite (fun _ => hgo _ fun x hx => takeAnswer_keeps (sub.of (by decide) hm) hx) (fun _ => ?_)
    refine keeps_ite (fun _ => hgo _ fun x hx => ?_) (fun _ => ?_)
    · split
      · exact takeAnswer_keeps (sub.of (by decide) hm) hx
      · exact performCue_keeps (sub.of (by decide) hm) hx
    refine keeps_ite (fun _ => hgo _ fun x hx => ?_) (fun _ => ?_)
    · split
      · exact takeAnswer_keeps (sub.of (by decide) hm) hx
      · exact performAttest_keeps (sub.of (by decide) hm) hx
    refine keeps_ite (fun _ => hgo _ fun x hx => takeFailure_keeps (sub.of (by decide) hm) hx) (fun _ => ?_)
    refine keeps_ite (fun _ => hgo _ fun x hx => performMsg_keeps (sub.of (by decide) hm) hx) (fun _ => ?_)
    exact hgo _ fun x hx => performWrite_keeps (sub.of (by decide) hm) hx

theorem dueSeam_keeps {s : State} (hm : sub 2122317823 m) (h : Keeps m s0 s) :
    Keeps m s0 (dueSeam s) := by
  unfold dueSeam
  extract_lets +onlyGivenNames -merge -useContext x0 x1
  have hx0 : Keeps m s0 x0 := by
    refine each_keeps (sub.of (by decide) hm) (fun y3 x2 hx2 => ?_) ?_
    · refine idleSend_keeps (sub.of (by decide) hm) ?_
      refine replayTimeout_keeps (sub.of (by decide) hm) ?_
      refine downFor_keeps (sub.of (by decide) hm) ?_
      refine trainAgain_keeps (sub.of (by decide) hm) ?_
      exact hx2
    · exact h
  clear_value x0
  have hx1 : Keeps m s0 x1 := by
    refine keeps_foldl (fun x4 y5 hx4 => ?_) _ ?_
    · refine requestTimeout_keeps (sub.of (by decide) hm) ?_
      exact hx4
    · exact hx0
  clear_value x1
  refine deliverLoop_keeps (sub.of (by decide) hm) ?_
  refine each_keeps (sub.of (by decide) hm) (fun y7 x6 hx6 => ?_) ?_
  · refine eventMsg_keeps (sub.of (by decide) hm) ?_
    exact hx6
  · refine exchangeDue_keeps (sub.of (by decide) hm) ?_
    refine alignmentLost_keeps (sub.of (by decide) hm) ?_
    refine tidsDue_keeps (sub.of (by decide) hm) ?_
    exact hx1

theorem dueCues_keeps {s : State} (hm : sub 1275160409 m) (h : Keeps m s0 s) :
    Keeps m s0 (dueCues s) := by
  unfold dueCues
  extract_lets +onlyGivenNames -merge -useContext x0 x1
  have hx0 : Keeps m s0 x0 := by
    refine each_keeps (sub.of (by decide) hm) (fun y3 x2 hx2 => ?_) ?_
    · refine each_keeps (sub.of (by decide) hm) (fun y5 x4 hx4 => ?_) ?_
      · refine satisfySlot_keeps (sub.of (by decide) hm) ?_
        exact hx4
      · exact hx2
    · exact h
  clear_value x0
  have hx1 : Keeps m s0 x1 := by
    refine each_keeps (sub.of (by decide) hm) (fun y7 x6 hx6 => ?_) ?_
    · refine tapEffect_keeps (sub.of (by decide) hm) ?_
      exact hx6
    · exact hx0
  clear_value x1
  refine each_keeps (sub.of (by decide) hm) (fun y9 x8 hx8 => ?_) ?_
  · refine effectAt_keeps (sub.of (by decide) hm) ?_
    exact hx8
  · exact hx1

theorem dueGates_keeps {s : State} (hm : sub 2048 m) (h : Keeps m s0 s) :
    Keeps m s0 (dueGates s) := by
  unfold dueGates
  refine keeps_ite (fun _ => ?_) (fun _ => ?_)
  · refine each_keeps (sub.of (by decide) hm) (fun y1 x0 hx0 => ?_) ?_
    · refine sampleGen_keeps (sub.of (by decide) hm) ?_
      exact hx0
    · exact h
  · exact h

theorem dueEnc_keeps {a0 : Nat} {s : State} (hm : sub 201343169 m) (h : Keeps m s0 s) :
    Keeps m s0 (dueEnc a0 s) := by
  unfold dueEnc
  refine encMatch_keeps (sub.of (by decide) hm) ?_
  refine encMatch_keeps (sub.of (by decide) hm) ?_
  refine encStop_keeps (sub.of (by decide) hm) ?_
  refine encLoad_keeps (sub.of (by decide) hm) ?_
  refine encIndex_keeps (sub.of (by decide) hm) ?_
  refine encCount_keeps (sub.of (by decide) hm) ?_
  exact h

theorem dueQueue_keeps {a0 : Nat} {s : State} (hm : sub 469884953 m) (h : Keeps m s0 s) :
    Keeps m s0 (dueQueue a0 s) := by
  unfold dueQueue
  extract_lets +onlyGivenNames -merge -useContext x0
  have hx0 : Keeps m s0 x0 := by
    refine keeps_foldl (fun x1 y2 hx1 => ?_) _ ?_
    · refine missDetect_keeps (sub.of (by decide) hm) ?_
      exact hx1
    · exact h
  clear_value x0
  refine headAdvance_keeps (sub.of (by decide) hm) ?_
  refine jqRefresh_keeps (sub.of (by decide) hm) ?_
  refine ageQueue_keeps (sub.of (by decide) hm) ?_
  exact hx0

theorem dueOwners_keeps {s : State} (hm : sub 1275085121 m) (h : Keeps m s0 s) :
    Keeps m s0 (dueOwners s) := by
  unfold dueOwners
  refine keeps_ite (fun _ => ?_) (fun _ => ?_)
  · refine each_keeps (sub.of (by decide) hm) (fun y1 x0 hx0 => ?_) ?_
    · refine evalOwner_keeps (sub.of (by decide) hm) ?_
      exact hx0
    · exact h
  · exact h

theorem dueTile_keeps {a0 : Nat} {s : State} (hm : sub 1543534145 m) (h : Keeps m s0 s) :
    Keeps m s0 (dueTile a0 s) := by
  unfold dueTile
  refine each_keeps (sub.of (by decide) hm) (fun y1 x0 hx0 => ?_) ?_
  · refine windowReport_keeps (sub.of (by decide) hm) ?_
    exact hx0
  · refine each_keeps (sub.of (by decide) hm) (fun y3 x2 hx2 => ?_) ?_
    · refine thresholdSettled_keeps (sub.of (by decide) hm) ?_
      exact hx2
    · exact h

theorem dueHead_keeps {a0 : Nat} {s : State} (hm : sub 1543729177 m) (h : Keeps m s0 s) :
    Keeps m s0 (dueHead a0 s) := by
  unfold dueHead
  extract_lets +onlyGivenNames -merge -useContext x0 x1
  have hx0 : Keeps m s0 x0 := by
    refine shiftStart_keeps (sub.of (by decide) hm) ?_
    refine latchEdge_keeps (sub.of (by decide) hm) ?_
    refine shiftEnd_keeps (sub.of (by decide) hm) ?_
    exact h
  clear_value x0
  have hx1 : Keeps m s0 x1 := by
    refine auxEval_keeps (sub.of (by decide) hm) ?_
    refine blockFetch_keeps (sub.of (by decide) hm) ?_
    refine readyPoll_keeps (sub.of (by decide) hm) ?_
    exact hx0
  clear_value x1
  refine keeps_foldl (fun x2 y3 hx2 => ?_) _ ?_
  · refine expireSet_keeps (sub.of (by decide) hm) ?_
    exact hx2
  · exact hx1

theorem dueBrokers_keeps {s : State} (hm : sub 1006891033 m) (h : Keeps m s0 s) :
    Keeps m s0 (dueBrokers s) := by
  unfold dueBrokers
  refine each_keeps (sub.of (by decide) hm) (fun y1 x0 hx0 => ?_) ?_
  · refine brokerAct_keeps (sub.of (by decide) hm) ?_
    exact hx0
  · refine keeps_foldl (fun x2 y3 hx2 => ?_) _ ?_
    · refine fallbackPost_keeps (sub.of (by decide) hm) ?_
      exact hx2
    · exact h

theorem armAnswer_keeps {a0 : Asker} {a1 : Nat × Nat} {s : State} (hm : sub 203448327 m) (h : Keeps m s0 s) :
    Keeps m s0 (armAnswer a0 a1 s) := by
  unfold armAnswer
  split
  · refine fillAnswer_keeps (sub.of (by decide) hm) ?_
    exact h
  · exact h
  · refine rejectAnswer_keeps (sub.of (by decide) hm) ?_
    exact h
  · refine answerTo_keeps (sub.of (by decide) hm) ?_
    exact h
  · exact h

theorem applyArm_keeps {a0 : ArmAsk} {s : State} (hm : sub 203448391 m) (h : Keeps m s0 s) :
    Keeps m s0 (applyArm a0 s) := by
  unfold applyArm
  extract_lets +onlyGivenNames -merge -useContext x0
  have hx0 : Keeps m s0 x0.2 := by
    refine armTarget_keeps (sub.of (by decide) hm) ?_
    exact h
  clear_value x0
  refine armAnswer_keeps (sub.of (by decide) hm) ?_
  exact hx0

theorem dueArms_keeps {s : State} (hm : sub 740319303 m) (h : Keeps m s0 s) :
    Keeps m s0 (dueArms s) := by
  unfold dueArms
  extract_lets +onlyGivenNames -merge -useContext x0
  try clear_value x0
  refine keeps_foldl (fun x1 y2 hx1 => ?_) _ ?_
  · refine applyArm_keeps (sub.of (by decide) hm) ?_
    exact hx1
  · refine State.setAsks_keeps (sub.of (by decide) hm) ?_
    exact h

theorem dueClock_keeps {s : State} (hm : sub 1543534177 m) (h : Keeps m s0 s) :
    Keeps m s0 (dueClock s) := by
  unfold dueClock
  refine withClockBack_keeps (sub.of (by decide) hm) (fun x0 hx0 => ?_) ?_
  · refine tryRelease_keeps (sub.of (by decide) hm) ?_
    exact hx0
  · refine loadLineTime_keeps (sub.of (by decide) hm) ?_
    refine expireHoldover_keeps (sub.of (by decide) hm) ?_
    refine reacquireLate_keeps (sub.of (by decide) hm) ?_
    refine measureStandby_keeps (sub.of (by decide) hm) ?_
    refine switchDue_keeps (sub.of (by decide) hm) ?_
    exact h

theorem dueEngine_keeps {a0 : Nat} {s : State} (hm : sub 2122317823 m) (h : Keeps m s0 s) :
    Keeps m s0 (dueEngine a0 s) := by
  unfold dueEngine
  extract_lets +onlyGivenNames -merge -useContext x0 x1 x2
  have hx0 : Keeps m s0 x0 := by
    refine wdogExpire_keeps (sub.of (by decide) hm) ?_
    refine cueTimer_keeps (sub.of (by decide) hm) ?_
    refine watchFire_keeps (sub.of (by decide) hm) ?_
    exact h
  clear_value x0
  have hx1 : Keeps m s0 x1 := by
    refine qgetTimeout_keeps (sub.of (by decide) hm) ?_
    refine dmawaitEnd_keeps (sub.of (by decide) hm) ?_
    refine ewaitEnd_keeps (sub.of (by decide) hm) ?_
    refine twaitEnd_keeps (sub.of (by decide) hm) ?_
    exact hx0
  clear_value x1
  have hx2 : Keeps m s0 x2 := by
    refine each_keeps (sub.of (by decide) hm) (fun y4 x3 hx3 => ?_) ?_
    · refine loadReturn_keeps (sub.of (by decide) hm) ?_
      exact hx3
    · refine answerBack_keeps (sub.of (by decide) hm) ?_
      refine takePending_keeps (sub.of (by decide) hm) ?_
      exact hx1
  clear_value x2
  refine returnJob_keeps (sub.of (by decide) hm) ?_
  refine dmaStep_keeps (sub.of (by decide) hm) ?_
  refine storeAck_keeps (sub.of (by decide) hm) ?_
  exact hx2

theorem dueCal_keeps {s : State} (hm : sub 1279282177 m) (h : Keeps m s0 s) :
    Keeps m s0 (dueCal s) := by
  unfold dueCal
  extract_lets +onlyGivenNames -merge -useContext x0
  have hx0 : Keeps m s0 x0 := by
    refine keeps_ite (fun _ => ?_) (fun _ => ?_)
    · refine each_keeps (sub.of (by decide) hm) (fun y2 x1 hx1 => ?_) ?_
      · refine temperatureCheck_keeps (sub.of (by decide) hm) ?_
        exact hx1
      · exact h
    · exact h
  clear_value x0
  refine each_keeps (sub.of (by decide) hm) (fun y4 x3 hx3 => ?_) ?_
  · refine stepStart_keeps (sub.of (by decide) hm) ?_
    refine stepDue_keeps (sub.of (by decide) hm) ?_
    refine stepAbandon_keeps (sub.of (by decide) hm) ?_
    refine calStarved_keeps (sub.of (by decide) hm) ?_
    exact hx3
  · exact hx0

theorem dueHost_keeps {s : State} (hm : sub 472347679 m) (h : Keeps m s0 s) :
    Keeps m s0 (dueHost s) := by
  unfold dueHost
  refine each_keeps (sub.of (by decide) hm) (fun y1 x0 hx0 => ?_) ?_
  · refine msixSend_keeps (sub.of (by decide) hm) ?_
    exact hx0
  · refine each_keeps (sub.of (by decide) hm) (fun y3 x2 hx2 => ?_) ?_
    · refine burstIdle_keeps (sub.of (by decide) hm) ?_
      exact hx2
    · exact h

theorem dueLedger_keeps {s : State} (hm : sub 1006727193 m) (h : Keeps m s0 s) :
    Keeps m s0 (dueLedger s) := by
  unfold dueLedger
  extract_lets +onlyGivenNames -merge -useContext x0 x1
  have hx0 : Keeps m s0 x0 := by
    refine keeps_foldl (fun x2 y3 hx2 => ?_) _ ?_
    · refine recordClose_keeps (sub.of (by decide) hm) ?_
      exact hx2
    · exact h
  clear_value x0
  have hx1 : Keeps m s0 x1 := by
    refine keeps_foldl (fun x4 y5 hx4 => ?_) _ ?_
    · refine recordFree_keeps (sub.of (by decide) hm) ?_
      exact hx4
    · exact hx0
  clear_value x1
  refine keeps_foldl (fun x6 y7 hx6 => ?_) _ ?_
  · refine rejectRetry_keeps (sub.of (by decide) hm) ?_
    refine rejectArm_keeps (sub.of (by decide) hm) ?_
    exact hx6
  · exact hx1

theorem settle_keeps {s : State} (hm : sub 2122317823 m) (h : Keeps m s0 s) :
    Keeps m s0 (settle s) := by
  unfold settle
  extract_lets +onlyGivenNames -merge -useContext x0 x1 x2 x3 x4 x5 x6 x7 x8 x9 x10 x11 x12 x13 x14 x15 x16 x17
  have hx0 : Keeps m s0 x0 := by
    refine dueClock_keeps (sub.of (by decide) hm) ?_
    exact h
  clear_value x0
  have hx1 : Keeps m s0 x1 := by
    refine each_keeps (sub.of (by decide) hm) (fun y19 x18 hx18 => ?_) ?_
    · refine dueEnc_keeps (sub.of (by decide) hm) ?_
      exact hx18
    · exact hx0
  clear_value x1
  have hx2 : Keeps m s0 x2 := by
    refine dueCues_keeps (sub.of (by decide) hm) ?_
    refine each_keeps (sub.of (by decide) hm) (fun y21 x20 hx20 => ?_) ?_
    · refine pgWaiting_keeps (sub.of (by decide) hm) ?_
      exact hx20
    · exact hx1
  clear_value x2
  have hx3 : Keeps m s0 x3 := by
    refine duePins_keeps (sub.of (by decide) hm) ?_
    refine each_keeps (sub.of (by decide) hm) (fun y23 x22 hx22 => ?_) ?_
    · refine duePg_keeps (sub.of (by decide) hm) ?_
      exact hx22
    · exact hx2
  clear_value x3
  have hx4 : Keeps m s0 x4 := by
    refine each_keeps (sub.of (by decide) hm) (fun y25 x24 hx24 => ?_) ?_
    · refine clearRelease_keeps (sub.of (by decide) hm) ?_
      exact hx24
    · exact hx3
  clear_value x4
  have hx5 : Keeps m s0 x5 := by
    refine each_keeps (sub.of (by decide) hm) (fun y27 x26 hx26 => ?_) ?_
    · refine dueTile_keeps (sub.of (by decide) hm) ?_
      exact hx26
    · exact hx4
  clear_value x5
  have hx6 : Keeps m s0 x6 := by
    refine each_keeps (sub.of (by decide) hm) (fun y29 x28 hx28 => ?_) ?_
    · refine dueDac_keeps (sub.of (by decide) hm) ?_
      exact hx28
    · exact hx5
  clear_value x6
  have hx7 : Keeps m s0 x7 := by
    refine each_keeps (sub.of (by decide) hm) (fun y31 x30 hx30 => ?_) ?_
    · refine noteNominal_keeps (sub.of (by decide) hm) ?_
      exact hx30
    · exact hx6
  clear_value x7
  have hx8 : Keeps m s0 x8 := by
    refine each_keeps (sub.of (by decide) hm) (fun y33 x32 hx32 => ?_) ?_
    · refine dueChannel_keeps (sub.of (by decide) hm) ?_
      exact hx32
    · refine dueGates_keeps (sub.of (by decide) hm) ?_
      exact hx7
  clear_value x8
  have hx9 : Keeps m s0 x9 := by
    refine walkDue_keeps (sub.of (by decide) hm) ?_
    refine each_keeps (sub.of (by decide) hm) (fun y35 x34 hx34 => ?_) ?_
    · refine dueHead_keeps (sub.of (by decide) hm) ?_
      exact hx34
    · exact hx8
  clear_value x9
  have hx10 : Keeps m s0 x10 := by
    refine dueLedger_keeps (sub.of (by decide) hm) ?_
    exact hx9
  clear_value x10
  have hx11 : Keeps m s0 x11 := by
    refine each_keeps (sub.of (by decide) hm) (fun y37 x36 hx36 => ?_) ?_
    · refine dueEngine_keeps (sub.of (by decide) hm) ?_
      exact hx36
    · exact hx10
  clear_value x11
  have hx12 : Keeps m s0 x12 := by
    refine each_keeps (sub.of (by decide) hm) (fun y39 x38 hx38 => ?_) ?_
    · refine dueQueue_keeps (sub.of (by decide) hm) ?_
      exact hx38
    · exact hx11
  clear_value x12
  have hx13 : Keeps m s0 x13 := by
    refine dueBrokers_keeps (sub.of (by decide) hm) ?_
    exact hx12
  clear_value x13
  have hx14 : Keeps m s0 x14 := by
    refine dueMemories_keeps (sub.of (by decide) hm) ?_
    exact hx13
  clear_value x14
  have hx15 : Keeps m s0 x15 := by
    refine dueOwners_keeps (sub.of (by decide) hm) ?_
    exact hx14
  clear_value x15
  have hx16 : Keeps m s0 x16 := by
    refine dueHost_keeps (sub.of (by decide) hm) ?_
    refine dueConfig_keeps (sub.of (by decide) hm) ?_
    exact hx15
  clear_value x16
  have hx17 : Keeps m s0 x17 := by
    refine dueCal_keeps (sub.of (by decide) hm) ?_
    refine dueSeam_keeps (sub.of (by decide) hm) ?_
    exact hx16
  clear_value x17
  refine dueLog_keeps (sub.of (by decide) hm) ?_
  refine dueReads_keeps (sub.of (by decide) hm) ?_
  refine duePosts_keeps (sub.of (by decide) hm) ?_
  refine dueArms_keeps (sub.of (by decide) hm) ?_
  exact hx17

theorem passEngine_keeps {a0 : Nat} {s : State} (hm : sub 16385 m) (h : Keeps m s0 s) :
    Keeps m s0 (passEngine a0 s) := by
  unfold passEngine
  extract_lets +onlyGivenNames -merge -useContext x0 x1 x2 x3
  try clear_value x0
  have hx1 : Keeps m s0 x1 := by
    refine keeps_ite (fun _ => ?_) (fun _ => ?_)
    · refine State.setEng_keeps (sub.of (by decide) hm) ?_
      exact h
    · exact h
  clear_value x1
  try clear_value x2
  have hx3 : Keeps m s0 x3 := by
    refine keeps_ite (fun _ => ?_) (fun _ => ?_)
    · refine State.countUp_keeps (sub.of (by decide) hm) ?_
      exact hx1
    · exact hx1
  clear_value x3
  refine keeps_ite (fun _ => ?_) (fun _ => ?_)
  · exact h
  · refine keeps_ite (fun _ => ?_) (fun _ => ?_)
    · exact hx1
    · refine keeps_ite (fun _ => ?_) (fun _ => ?_)
      · refine haltEng_keeps (sub.of (by decide) hm) ?_
        exact hx3
      · exact hx3

theorem tickTile_keeps {a0 : Nat} {s : State} (hm : sub 1543536193 m) (h : Keeps m s0 s) :
    Keeps m s0 (tickTile a0 s) := by
  unfold tickTile
  extract_lets +onlyGivenNames -merge -useContext x0
  have hx0 : Keeps m s0 x0 := by
    refine each_keeps (sub.of (by decide) hm) (fun y2 x1 hx1 => ?_) ?_
    · refine modSwitch_keeps (sub.of (by decide) hm) ?_
      exact hx1
    · refine each_keeps (sub.of (by decide) hm) (fun y4 x3 hx3 => ?_) ?_
      · refine modResume_keeps (sub.of (by decide) hm) ?_
        exact hx3
      · refine biasReady_keeps (sub.of (by decide) hm) ?_
        exact h
  clear_value x0
  refine each_keeps (sub.of (by decide) hm) (fun y6 x5 hx5 => ?_) ?_
  · refine takeWindow_keeps (sub.of (by decide) hm) ?_
    exact hx5
  · refine tickCmps_keeps (sub.of (by decide) hm) ?_
    refine switchClose_keeps (sub.of (by decide) hm) ?_
    exact hx0

theorem advance_keeps {s : State} (hm : sub 1547796473 m) (h : Keeps m s0 s) :
    Keeps m s0 (advance s) := by
  unfold advance
  extract_lets +onlyGivenNames -merge -useContext x0 x1 x2 x3 x4 x5 x6 x7 x8
  have hx0 : Keeps m s0 x0 := by
    refine fabLio_keeps (sub.of (by decide) hm) ?_
    refine tickClock_keeps (sub.of (by decide) hm) ?_
    refine each_keeps (sub.of (by decide) hm) (fun y10 x9 hx9 => ?_) ?_
    · refine passEngine_keeps (sub.of (by decide) hm) ?_
      exact hx9
    · exact h
  clear_value x0
  have hx1 : Keeps m s0 x1 := by
    refine tickEncs_keeps (sub.of (by decide) hm) ?_
    exact hx0
  clear_value x1
  have hx2 : Keeps m s0 x2 := by
    refine each_keeps (sub.of (by decide) hm) (fun y12 x11 hx11 => ?_) ?_
    · refine watchFire_keeps (sub.of (by decide) hm) ?_
      refine faultDue_keeps (sub.of (by decide) hm) ?_
      exact hx11
    · exact hx1
  clear_value x2
  have hx3 : Keeps m s0 x3 := by
    refine each_keeps (sub.of (by decide) hm) (fun y14 x13 hx13 => ?_) ?_
    · refine tickPg_keeps (sub.of (by decide) hm) ?_
      exact hx13
    · exact hx2
  clear_value x3
  have hx4 : Keeps m s0 x4 := by
    refine each_keeps (sub.of (by decide) hm) (fun y16 x15 hx15 => ?_) ?_
    · refine tickTile_keeps (sub.of (by decide) hm) ?_
      exact hx15
    · exact hx3
  clear_value x4
  have hx5 : Keeps m s0 x5 := by
    refine each_keeps (sub.of (by decide) hm) (fun y18 x17 hx17 => ?_) ?_
    · refine tickDac_keeps (sub.of (by decide) hm) ?_
      exact hx17
    · exact hx4
  clear_value x5
  have hx6 : Keeps m s0 x6 := by
    refine each_keeps (sub.of (by decide) hm) (fun y20 x19 hx19 => ?_) ?_
    · refine tickChannel_keeps (sub.of (by decide) hm) ?_
      exact hx19
    · exact hx5
  clear_value x6
  have hx7 : Keeps m s0 x7 := by
    refine each_keeps (sub.of (by decide) hm) (fun y22 x21 hx21 => ?_) ?_
    · refine drainBuf_keeps (sub.of (by decide) hm) ?_
      exact hx21
    · exact hx6
  clear_value x7
  have hx8 : Keeps m s0 x8 := by
    refine each_keeps (sub.of (by decide) hm) (fun y24 x23 hx23 => ?_) ?_
    · refine tickSpans_keeps (sub.of (by decide) hm) ?_
      exact hx23
    · exact hx7
  clear_value x8
  refine each_keeps (sub.of (by decide) hm) (fun y26 x25 hx25 => ?_) ?_
  · refine tickCal_keeps (sub.of (by decide) hm) ?_
    exact hx25
  · exact hx8

theorem passTick_keeps {s : State} (hm : sub 2122317823 m) (h : Keeps m s0 s) :
    Keeps m s0 (passTick s) := by
  unfold passTick
  refine keeps_ite (fun _ => ?_) (fun _ => ?_)
  · refine advance_keeps (sub.of (by decide) hm) ?_
    refine settle_keeps (sub.of (by decide) hm) ?_
    exact h
  · exact h

theorem rateCorrection_keeps {s : State} (hm : sub 2122317823 m) (h : Keeps m s0 s) :
    Keeps m s0 (rateCorrection s) := by
  unfold rateCorrection
  refine keeps_ite (fun _ => ?_) (fun _ => ?_)
  · refine passTick_keeps (sub.of (by decide) hm) ?_
    exact h
  · exact h

theorem slewTick_keeps {s : State} (hm : sub 2122317823 m) (h : Keeps m s0 s) :
    Keeps m s0 (slewTick s) := by
  unfold slewTick
  extract_lets +onlyGivenNames -merge -useContext x0
  have hx0 : Keeps m s0 x0 := by
    refine settle_keeps (sub.of (by decide) hm) ?_
    exact h
  clear_value x0
  refine keeps_ite (fun _ => ?_) (fun _ => ?_)
  · refine passTick_keeps (sub.of (by decide) hm) ?_
    exact h
  · exact h

end Sys2Proof.Machine
end

