-- ==== Sys2Proof/Laws/Frame/Step.lean ====
section
/-!
SUPPORT. What the functions of Machine/Step.lean touch: one lemma each, in the terms of `Keeps`.
-/
namespace Sys2Proof.Machine

variable {m : Nat} {s0 : State}

theorem State.withFetchWord_keeps {s : State} {a1 : Nat} {a2 : Nat} (hm : sub 2147483648 m) (h : Keeps m s0 s) :
    Keeps m s0 (State.withFetchWord s a1 a2) := by
  unfold State.withFetchWord
  split
  · refine keeps_pending (sub.of (by decide) hm) ?_ _
    exact h
  · exact h

end Sys2Proof.Machine
end

