-- ==== Sys2Proof/Laws/Frame/Exec.lean ====
section
/-!
SUPPORT. What each command touches: the parts of the state that its meaning may change, as a mask of `Keeps`.
-/
namespace Sys2Proof.Machine

variable {t : State}

theorem execRegisterWrite_keeps {a0 : Req} {a1 : Nat} {a2 : Word} {s : State} (ht : execRegisterWrite a0 a1 a2 s = .next t) : Keeps 2122317823 s t := by
  have h : Keeps 2122317823 s s := Keeps.refl _ s
  have hm : sub 2122317823 2122317823 := by decide
  have ht := Host.Outcome.next.inj ht
  subst ht
  refine keeps_ite (fun _ => ?_) (fun _ => ?_)
  · refine ctlWrite_keeps (sub.of (by decide) hm) ?_
    exact h
  · exact h

theorem execCrystalLoss_keeps {a0 : Bool} {s : State} (ht : execCrystalLoss a0 s = .next t) : Keeps 201343009 s t := by
  have h : Keeps 201343009 s s := Keeps.refl _ s
  have hm : sub 201343009 201343009 := by decide
  have ht := Host.Outcome.next.inj ht
  subst ht
  refine loseCrystal_keeps (sub.of (by decide) hm) ?_
  exact h

theorem execCrystalValid_keeps {a0 : Bool} {s : State} (ht : execCrystalValid a0 s = .next t) : Keeps 201343009 s t := by
  have h : Keeps 201343009 s s := Keeps.refl _ s
  have hm : sub 201343009 201343009 := by decide
  have ht := Host.Outcome.next.inj ht
  subst ht
  refine gainCrystal_keeps (sub.of (by decide) hm) ?_
  exact h

theorem execSwitchover_keeps {a0 : Int} {s : State} (ht : execSwitchover a0 s = .next t) : Keeps 469778529 s t := by
  have h : Keeps 469778529 s s := Keeps.refl _ s
  have hm : sub 469778529 469778529 := by decide
  have ht := Host.Outcome.next.inj ht
  subst ht
  refine switchNow_keeps (sub.of (by decide) hm) ?_
  exact h

theorem execSelectWrite_keeps {a0 : Word} {s : State} (ht : execSelectWrite a0 s = .next t) : Keeps 1543534113 s t := by
  have h : Keeps 1543534113 s s := Keeps.refl _ s
  have hm : sub 1543534113 1543534113 := by decide
  have ht := Host.Outcome.next.inj ht
  subst ht
  refine withClockBack_keeps (sub.of (by decide) hm) (fun x0 hx0 => ?_) ?_
  · refine writeClkCtl_keeps (sub.of (by decide) hm) ?_
    exact hx0
  · exact h

theorem execHoldoverExpired_keeps {s : State} (ht : execHoldoverExpired s = .next t) : Keeps 469792289 s t := by
  have h : Keeps 469792289 s s := Keeps.refl _ s
  have hm : sub 469792289 469792289 := by decide
  have ht := Host.Outcome.next.inj ht
  subst ht
  refine expireHoldover_keeps (sub.of (by decide) hm) ?_
  exact h

theorem execPllRelock_keeps {s : State} (ht : execPllRelock s = .next t) : Keeps 1543534113 s t := by
  have h : Keeps 1543534113 s s := Keeps.refl _ s
  have hm : sub 1543534113 1543534113 := by decide
  have ht := Host.Outcome.next.inj ht
  subst ht
  refine withClockBack_keeps (sub.of (by decide) hm) (fun x0 hx0 => ?_) ?_
  · refine relockPll_keeps (sub.of (by decide) hm) ?_
    exact hx0
  · exact h

theorem execClockRelease_keeps {a0 : Word} {s : State} (ht : execClockRelease a0 s = .next t) : Keeps 1543534113 s t := by
  have h : Keeps 1543534113 s s := Keeps.refl _ s
  have hm : sub 1543534113 1543534113 := by decide
  have ht := Host.Outcome.next.inj ht
  subst ht
  refine withClockBack_keeps (sub.of (by decide) hm) (fun x0 hx0 => ?_) ?_
  · refine writeClkCtl_keeps (sub.of (by decide) hm) ?_
    exact hx0
  · exact h

theorem execLinetimeRead_keeps {a0 : Req} {s : State} (ht : execLinetimeRead a0 s = .next t) : Keeps 6 s t := by
  have h : Keeps 6 s s := Keeps.refl _ s
  have hm : sub 6 6 := by decide
  have ht := Host.Outcome.next.inj ht
  subst ht
  refine State.give_keeps (sub.of (by decide) hm) ?_
  refine readLineTime_keeps (sub.of (by decide) hm) ?_
  exact h

theorem execRateCorrection_keeps {s : State} (ht : execRateCorrection s = .next t) : Keeps 2122317823 s t := by
  have h : Keeps 2122317823 s s := Keeps.refl _ s
  have hm : sub 2122317823 2122317823 := by decide
  have ht := Host.Outcome.next.inj ht
  subst ht
  refine rateCorrection_keeps (sub.of (by decide) hm) ?_
  exact h

theorem execSlewAdjust_keeps {a0 : Req} {a1 : Word} {s : State} (ht : execSlewAdjust a0 a1 s = .next t) : Keeps 1073741856 s t := by
  have h : Keeps 1073741856 s s := Keeps.refl _ s
  have hm : sub 1073741856 1073741856 := by decide
  have ht := Host.Outcome.next.inj ht
  subst ht
  refine adjustLineTime_keeps (sub.of (by decide) hm) ?_
  exact h

theorem execSlewTick_keeps {s : State} (ht : execSlewTick s = .next t) : Keeps 2122317823 s t := by
  have h : Keeps 2122317823 s s := Keeps.refl _ s
  have hm : sub 2122317823 2122317823 := by decide
  have ht := Host.Outcome.next.inj ht
  subst ht
  refine slewTick_keeps (sub.of (by decide) hm) ?_
  exact h

theorem execLinetimeLoad_keeps {s : State} (ht : execLinetimeLoad s = .next t) : Keeps 33 s t := by
  have h : Keeps 33 s s := Keeps.refl _ s
  have hm : sub 33 33 := by decide
  have ht := Host.Outcome.next.inj ht
  subst ht
  refine loadLineTime_keeps (sub.of (by decide) hm) ?_
  exact h

theorem execLineIoEdge_keeps {a0 : Nat} {a1 : Option Int} {a2 : Nat} {s : State} (ht : execLineIoEdge a0 a1 a2 s = .next t) : Keeps 1275085249 s t := by
  have h : Keeps 1275085249 s s := Keeps.refl _ s
  have hm : sub 1275085249 1275085249 := by decide
  have ht := Host.Outcome.next.inj ht
  subst ht
  refine lineIoEdge_keeps (sub.of (by decide) hm) ?_
  exact h

theorem execSlotSatisfied_keeps {a0 : Nat} {a1 : Nat} {s : State} (ht : execSlotSatisfied a0 a1 s = .next t) : Keeps 201343041 s t := by
  have h : Keeps 201343041 s s := Keeps.refl _ s
  have hm : sub 201343041 201343041 := by decide
  have ht := Host.Outcome.next.inj ht
  subst ht
  refine satisfySlot_keeps (sub.of (by decide) hm) ?_
  exact h

theorem execCueEffect_keeps {a0 : Nat} {s : State} (ht : execCueEffect a0 s = .next t) : Keeps 1275160409 s t := by
  have h : Keeps 1275160409 s s := Keeps.refl _ s
  have hm : sub 1275160409 1275160409 := by decide
  have ht := Host.Outcome.next.inj ht
  subst ht
  refine effectAt_keeps (sub.of (by decide) hm) ?_
  exact h

theorem execHostArmGo_keeps {a0 : Nat} {a1 : Word} {s : State} (ht : execHostArmGo a0 a1 s = .next t) : Keeps 536870913 s t := by
  have h : Keeps 536870913 s s := Keeps.refl _ s
  have hm : sub 536870913 536870913 := by decide
  have ht := Host.Outcome.next.inj ht
  subst ht
  refine writeArmCtl_keeps (sub.of (by decide) hm) ?_
  exact h

theorem execDisarm_keeps {a0 : Nat} {a1 : Word} {s : State} (ht : execDisarm a0 a1 s = .next t) : Keeps 65 s t := by
  have h : Keeps 65 s s := Keeps.refl _ s
  have hm : sub 65 65 := by decide
  have ht := Host.Outcome.next.inj ht
  subst ht
  refine disarmMask_keeps (sub.of (by decide) hm) ?_
  exact h

theorem execTargetConfigWrite_keeps {a0 : Nat} {a1 : Bool} {a2 : Word} {s : State} (ht : execTargetConfigWrite a0 a1 a2 s = .next t) : Keeps 65 s t := by
  have h : Keeps 65 s s := Keeps.refl _ s
  have hm : sub 65 65 := by decide
  have ht := Host.Outcome.next.inj ht
  subst ht
  refine keeps_ite (fun _ => ?_) (fun _ => ?_)
  · refine writeTctl_keeps (sub.of (by decide) hm) ?_
    exact h
  · refine writeTsel_keeps (sub.of (by decide) hm) ?_
    exact h

theorem execCapturePop_keeps {a0 : Nat} {a1 : Word} {s : State} (ht : execCapturePop a0 a1 s = .next t) : Keeps 64 s t := by
  have h : Keeps 64 s s := Keeps.refl _ s
  have hm : sub 64 64 := by decide
  have ht := Host.Outcome.next.inj ht
  subst ht
  refine popCapture_keeps (sub.of (by decide) hm) ?_
  exact h

theorem execMergeCountRead_keeps {a0 : Req} {a1 : Nat} {s : State} (ht : execMergeCountRead a0 a1 s = .next t) : Keeps 5 s t := by
  have h : Keeps 5 s s := Keeps.refl _ s
  have hm : sub 5 5 := by decide
  have ht := Host.Outcome.next.inj ht
  subst ht
  refine State.give_keeps (sub.of (by decide) hm) ?_
  refine readClear_keeps (sub.of (by decide) hm) ?_
  exact h

theorem execFabricTapEffect_keeps {a0 : Nat} {s : State} (ht : execFabricTapEffect a0 s = .next t) : Keeps 64 s t := by
  have h : Keeps 64 s s := Keeps.refl _ s
  have hm : sub 64 64 := by decide
  have ht := Host.Outcome.next.inj ht
  subst ht
  refine tapEffect_keeps (sub.of (by decide) hm) ?_
  exact h

theorem execEncoderCount_keeps {a0 : Nat} {s : State} (ht : execEncoderCount a0 s = .next t) : Keeps 201343105 s t := by
  have h : Keeps 201343105 s s := Keeps.refl _ s
  have hm : sub 201343105 201343105 := by decide
  have ht := Host.Outcome.next.inj ht
  subst ht
  refine encCount_keeps (sub.of (by decide) hm) ?_
  exact h

theorem execEncoderStopped_keeps {a0 : Nat} {s : State} (ht : execEncoderStopped a0 s = .next t) : Keeps 128 s t := by
  have h : Keeps 128 s s := Keeps.refl _ s
  have hm : sub 128 128 := by decide
  have ht := Host.Outcome.next.inj ht
  subst ht
  refine encStop_keeps (sub.of (by decide) hm) ?_
  exact h

theorem execEncoderIndex_keeps {a0 : Nat} {s : State} (ht : execEncoderIndex a0 s = .next t) : Keeps 201343105 s t := by
  have h : Keeps 201343105 s s := Keeps.refl _ s
  have hm : sub 201343105 201343105 := by decide
  have ht := Host.Outcome.next.inj ht
  subst ht
  refine encIndex_keeps (sub.of (by decide) hm) ?_
  exact h

theorem execEncoderMatch_keeps {a0 : Nat} {a1 : Nat} {s : State} (ht : execEncoderMatch a0 a1 s = .next t) : Keeps 201343169 s t := by
  have h : Keeps 201343169 s s := Keeps.refl _ s
  have hm : sub 201343169 201343169 := by decide
  have ht := Host.Outcome.next.inj ht
  subst ht
  refine encMatch_keeps (sub.of (by decide) hm) ?_
  exact h

theorem execEncoderLoad_keeps {a0 : Nat} {s : State} (ht : execEncoderLoad a0 s = .next t) : Keeps 128 s t := by
  have h : Keeps 128 s s := Keeps.refl _ s
  have hm : sub 128 128 := by decide
  have ht := Host.Outcome.next.inj ht
  subst ht
  refine encLoad_keeps (sub.of (by decide) hm) ?_
  exact h

theorem execEncoderCtlWrite_keeps {a0 : Nat} {a1 : Word} {s : State} (ht : execEncoderCtlWrite a0 a1 s = .next t) : Keeps 201343105 s t := by
  have h : Keeps 201343105 s s := Keeps.refl _ s
  have hm : sub 201343105 201343105 := by decide
  have ht := Host.Outcome.next.inj ht
  subst ht
  refine writeEncCtl_keeps (sub.of (by decide) hm) ?_
  exact h

theorem execEncoderPinsWrite_keeps {a0 : Nat} {a1 : Word} {s : State} (ht : execEncoderPinsWrite a0 a1 s = .next t) : Keeps 201342977 s t := by
  have h : Keeps 201342977 s s := Keeps.refl _ s
  have hm : sub 201342977 201342977 := by decide
  have ht := Host.Outcome.next.inj ht
  subst ht
  refine writeEncPins_keeps (sub.of (by decide) hm) ?_
  exact h

theorem execEncoderPositionRead_keeps {a0 : Req} {a1 : Nat} {s : State} (ht : execEncoderPositionRead a0 a1 s = .next t) : Keeps 6 s t := by
  have h : Keeps 6 s s := Keeps.refl _ s
  have hm : sub 6 6 := by decide
  have ht := Host.Outcome.next.inj ht
  subst ht
  refine State.give_keeps (sub.of (by decide) hm) ?_
  refine readEncPos_keeps (sub.of (by decide) hm) ?_
  exact h

theorem execIllegalCountRead_keeps {a0 : Req} {a1 : Nat} {s : State} (ht : execIllegalCountRead a0 a1 s = .next t) : Keeps 5 s t := by
  have h : Keeps 5 s s := Keeps.refl _ s
  have hm : sub 5 5 := by decide
  have ht := Host.Outcome.next.inj ht
  subst ht
  refine State.give_keeps (sub.of (by decide) hm) ?_
  refine readClear_keeps (sub.of (by decide) hm) ?_
  exact h

theorem execPgSoftwareStart_keeps {a0 : Nat} {a1 : Word} {s : State} (ht : execPgSoftwareStart a0 a1 s = .next t) : Keeps 469783041 s t := by
  have h : Keeps 469783041 s s := Keeps.refl _ s
  have hm : sub 469783041 469783041 := by decide
  have ht := Host.Outcome.next.inj ht
  subst ht
  refine writePgCmd_keeps (sub.of (by decide) hm) ?_
  exact h

theorem execPgCycleStart_keeps {a0 : Nat} {s : State} (ht : execPgCycleStart a0 s = .next t) : Keeps 201343489 s t := by
  have h : Keeps 201343489 s s := Keeps.refl _ s
  have hm : sub 201343489 201343489 := by decide
  have ht := Host.Outcome.next.inj ht
  subst ht
  refine pgCycleStart_keeps (sub.of (by decide) hm) ?_
  exact h

theorem execPgRunEnd_keeps {a0 : Nat} {s : State} (ht : execPgRunEnd a0 s = .next t) : Keeps 201343489 s t := by
  have h : Keeps 201343489 s s := Keeps.refl _ s
  have hm : sub 201343489 201343489 := by decide
  have ht := Host.Outcome.next.inj ht
  subst ht
  refine pgRunEnd_keeps (sub.of (by decide) hm) ?_
  exact h

theorem execPgStop_keeps {a0 : Nat} {a1 : Word} {s : State} (ht : execPgStop a0 a1 s = .next t) : Keeps 469783041 s t := by
  have h : Keeps 469783041 s s := Keeps.refl _ s
  have hm : sub 469783041 469783041 := by decide
  have ht := Host.Outcome.next.inj ht
  subst ht
  refine writePgCmd_keeps (sub.of (by decide) hm) ?_
  exact h

theorem execPgAbort_keeps {a0 : Nat} {a1 : Word} {s : State} (ht : execPgAbort a0 a1 s = .next t) : Keeps 469783041 s t := by
  have h : Keeps 469783041 s s := Keeps.refl _ s
  have hm : sub 469783041 469783041 := by decide
  have ht := Host.Outcome.next.inj ht
  subst ht
  refine writePgCmd_keeps (sub.of (by decide) hm) ?_
  exact h

theorem execPgRearm_keeps {a0 : Nat} {a1 : Word} {s : State} (ht : execPgRearm a0 a1 s = .next t) : Keeps 469783041 s t := by
  have h : Keeps 469783041 s s := Keeps.refl _ s
  have hm : sub 469783041 469783041 := by decide
  have ht := Host.Outcome.next.inj ht
  subst ht
  refine writePgCmd_keeps (sub.of (by decide) hm) ?_
  exact h

theorem execPgCtlWrite_keeps {a0 : Nat} {a1 : Word} {s : State} (ht : execPgCtlWrite a0 a1 s = .next t) : Keeps 201343489 s t := by
  have h : Keeps 201343489 s s := Keeps.refl _ s
  have hm : sub 201343489 201343489 := by decide
  have ht := Host.Outcome.next.inj ht
  subst ht
  refine writePgCtl_keeps (sub.of (by decide) hm) ?_
  exact h

theorem execPgShadowWrite_keeps {a0 : Nat} {a1 : Bool} {a2 : Word} {s : State} (ht : execPgShadowWrite a0 a1 a2 s = .next t) : Keeps 1 s t := by
  have h : Keeps 1 s s := Keeps.refl _ s
  have hm : sub 1 1 := by decide
  have ht := Host.Outcome.next.inj ht
  subst ht
  refine State.plainWrite_keeps (sub.of (by decide) hm) ?_
  exact h

theorem execPgSeqselWrite_keeps {a0 : Nat} {a1 : Word} {s : State} (ht : execPgSeqselWrite a0 a1 s = .next t) : Keeps 513 s t := by
  have h : Keeps 513 s s := Keeps.refl _ s
  have hm : sub 513 513 := by decide
  have ht := Host.Outcome.next.inj ht
  subst ht
  refine writePgSeqsel_keeps (sub.of (by decide) hm) ?_
  exact h

theorem execPgSeqWrite_keeps {a0 : Nat} {a1 : Nat} {a2 : Nat} {a3 : Word} {s : State} (ht : execPgSeqWrite a0 a1 a2 a3 s = .next t) : Keeps 201342977 s t := by
  have h : Keeps 201342977 s s := Keeps.refl _ s
  have hm : sub 201342977 201342977 := by decide
  have ht := Host.Outcome.next.inj ht
  subst ht
  refine writePgSeq_keeps (sub.of (by decide) hm) ?_
  exact h

theorem execComparatorDecision_keeps {a0 : Nat} {a1 : Nat} {a2 : Int} {s : State} (ht : execComparatorDecision a0 a1 a2 s = .next t) : Keeps 1543534145 s t := by
  have h : Keeps 1543534145 s s := Keeps.refl _ s
  have hm : sub 1543534145 1543534145 := by decide
  have ht := Host.Outcome.next.inj ht
  subst ht
  refine compareNow_keeps (sub.of (by decide) hm) ?_
  exact h

theorem execTripRelease_keeps {a0 : Nat} {s : State} (ht : execTripRelease a0 s = .next t) : Keeps 268440064 s t := by
  have h : Keeps 268440064 s s := Keeps.refl _ s
  have hm : sub 268440064 268440064 := by decide
  have ht := Host.Outcome.next.inj ht
  subst ht
  refine tripRelease_keeps (sub.of (by decide) hm) ?_
  exact h

theorem execSelectorWrite_keeps {a0 : Nat} {a1 : Word} {s : State} (ht : execSelectorWrite a0 a1 s = .next t) : Keeps 201344001 s t := by
  have h : Keeps 201344001 s s := Keeps.refl _ s
  have hm : sub 201344001 201344001 := by decide
  have ht := Host.Outcome.next.inj ht
  subst ht
  refine writeSel_keeps (sub.of (by decide) hm) ?_
  exact h

theorem execSwitchClose_keeps {a0 : Nat} {s : State} (ht : execSwitchClose a0 s = .next t) : Keeps 1543536193 s t := by
  have h : Keeps 1543536193 s s := Keeps.refl _ s
  have hm : sub 1543536193 1543536193 := by decide
  have ht := Host.Outcome.next.inj ht
  subst ht
  refine switchClose_keeps (sub.of (by decide) hm) ?_
  exact h

theorem execBusDriveWrite_keeps {a0 : Nat} {a1 : Word} {s : State} (ht : execBusDriveWrite a0 a1 s = .next t) : Keeps 201344001 s t := by
  have h : Keeps 201344001 s s := Keeps.refl _ s
  have hm : sub 201344001 201344001 := by decide
  have ht := Host.Outcome.next.inj ht
  subst ht
  refine writeDrv_keeps (sub.of (by decide) hm) ?_
  exact h

theorem execBiquadWrite_keeps {a0 : Nat} {a1 : Word} {s : State} (ht : execBiquadWrite a0 a1 s = .next t) : Keeps 201344001 s t := by
  have h : Keeps 201344001 s s := Keeps.refl _ s
  have hm : sub 201344001 201344001 := by decide
  have ht := Host.Outcome.next.inj ht
  subst ht
  refine writeBq_keeps (sub.of (by decide) hm) ?_
  exact h

theorem execModulatorOverload_keeps {a0 : Nat} {a1 : Nat} {a2 : List Int} {s : State} (ht : execModulatorOverload a0 a1 a2 s = .next t) : Keeps 201344001 s t := by
  have h : Keeps 201344001 s s := Keeps.refl _ s
  have hm : sub 201344001 201344001 := by decide
  have ht := Host.Outcome.next.inj ht
  subst ht
  refine modOverload_keeps (sub.of (by decide) hm) ?_
  exact h

theorem execModulatorResume_keeps {a0 : Nat} {a1 : Nat} {s : State} (ht : execModulatorResume a0 a1 s = .next t) : Keeps 1024 s t := by
  have h : Keeps 1024 s s := Keeps.refl _ s
  have hm : sub 1024 1024 := by decide
  have ht := Host.Outcome.next.inj ht
  subst ht
  refine modResume_keeps (sub.of (by decide) hm) ?_
  exact h

theorem execBiasReady_keeps {a0 : Nat} {s : State} (ht : execBiasReady a0 s = .next t) : Keeps 1543536193 s t := by
  have h : Keeps 1543536193 s s := Keeps.refl _ s
  have hm : sub 1543536193 1543536193 := by decide
  have ht := Host.Outcome.next.inj ht
  subst ht
  refine biasReady_keeps (sub.of (by decide) hm) ?_
  exact h

theorem execComparatorCtlWrite_keeps {a0 : Nat} {a1 : Nat} {a2 : Word} {s : State} (ht : execComparatorCtlWrite a0 a1 a2 s = .next t) : Keeps 201344001 s t := by
  have h : Keeps 201344001 s s := Keeps.refl _ s
  have hm : sub 201344001 201344001 := by decide
  have ht := Host.Outcome.next.inj ht
  subst ht
  refine writeCmpCtl_keeps (sub.of (by decide) hm) ?_
  exact h

theorem execComparatorThresholdWrite_keeps {a0 : Nat} {a1 : Nat} {a2 : Word} {s : State} (ht : execComparatorThresholdWrite a0 a1 a2 s = .next t) : Keeps 1025 s t := by
  have h : Keeps 1025 s s := Keeps.refl _ s
  have hm : sub 1025 1025 := by decide
  have ht := Host.Outcome.next.inj ht
  subst ht
  refine writeCmpTh_keeps (sub.of (by decide) hm) ?_
  exact h

theorem execThresholdSettled_keeps {a0 : Nat} {a1 : Nat} {s : State} (ht : execThresholdSettled a0 a1 s = .next t) : Keeps 1024 s t := by
  have h : Keeps 1024 s s := Keeps.refl _ s
  have hm : sub 1024 1024 := by decide
  have ht := Host.Outcome.next.inj ht
  subst ht
  refine thresholdSettled_keeps (sub.of (by decide) hm) ?_
  exact h

theorem execWindowWrite_keeps {a0 : Nat} {a1 : Nat} {a2 : Word} {s : State} (ht : execWindowWrite a0 a1 a2 s = .next t) : Keeps 1025 s t := by
  have h : Keeps 1025 s s := Keeps.refl _ s
  have hm : sub 1025 1025 := by decide
  have ht := Host.Outcome.next.inj ht
  subst ht
  refine writePairCtl_keeps (sub.of (by decide) hm) ?_
  exact h

theorem execRiseCountRead_keeps {a0 : Req} {a1 : Nat} {a2 : Nat} {s : State} (ht : execRiseCountRead a0 a1 a2 s = .next t) : Keeps 5 s t := by
  have h : Keeps 5 s s := Keeps.refl _ s
  have hm : sub 5 5 := by decide
  have ht := Host.Outcome.next.inj ht
  subst ht
  refine State.give_keeps (sub.of (by decide) hm) ?_
  refine State.setFld_keeps (sub.of (by decide) hm) ?_
  exact h

theorem execProgramEnd_keeps {a0 : Nat} {s : State} (ht : execProgramEnd a0 s = .next t) : Keeps 201344001 s t := by
  have h : Keeps 201344001 s s := Keeps.refl _ s
  have hm : sub 201344001 201344001 := by decide
  have ht := Host.Outcome.next.inj ht
  subst ht
  refine programEnd_keeps (sub.of (by decide) hm) ?_
  exact h

theorem execDacCodeWrite_keeps {a0 : Nat} {a1 : Word} {s : State} (ht : execDacCodeWrite a0 a1 s = .next t) : Keeps 1025 s t := by
  have h : Keeps 1025 s s := Keeps.refl _ s
  have hm : sub 1025 1025 := by decide
  have ht := Host.Outcome.next.inj ht
  subst ht
  refine writeDacCode_keeps (sub.of (by decide) hm) ?_
  exact h

theorem execDacSourceWrite_keeps {a0 : Nat} {a1 : Word} {s : State} (ht : execDacSourceWrite a0 a1 s = .next t) : Keeps 201344001 s t := by
  have h : Keeps 201344001 s s := Keeps.refl _ s
  have hm : sub 201344001 201344001 := by decide
  have ht := Host.Outcome.next.inj ht
  subst ht
  refine writeDacCtl_keeps (sub.of (by decide) hm) ?_
  exact h

theorem execRangeHoldEnd_keeps {a0 : Nat} {s : State} (ht : execRangeHoldEnd a0 s = .next t) : Keeps 201344001 s t := by
  have h : Keeps 201344001 s s := Keeps.refl _ s
  have hm : sub 201344001 201344001 := by decide
  have ht := Host.Outcome.next.inj ht
  subst ht
  refine rangeHoldEnd_keeps (sub.of (by decide) hm) ?_
  exact h

theorem execPaletteWrite_keeps {a0 : Nat} {a1 : Nat} {a2 : Nat} {a3 : Word} {s : State} (ht : execPaletteWrite a0 a1 a2 a3 s = .next t) : Keeps 201342977 s t := by
  have h : Keeps 201342977 s s := Keeps.refl _ s
  have hm : sub 201342977 201342977 := by decide
  have ht := Host.Outcome.next.inj ht
  subst ht
  refine writePalette_keeps (sub.of (by decide) hm) ?_
  exact h

theorem execSwapRequest_keeps {a0 : Nat} {a1 : Word} {s : State} (ht : execSwapRequest a0 a1 s = .next t) : Keeps 201344001 s t := by
  have h : Keeps 201344001 s s := Keeps.refl _ s
  have hm : sub 201344001 201344001 := by decide
  have ht := Host.Outcome.next.inj ht
  subst ht
  refine writePalCtl_keeps (sub.of (by decide) hm) ?_
  exact h

theorem execCrossFadeEnd_keeps {a0 : Nat} {s : State} (ht : execCrossFadeEnd a0 s = .next t) : Keeps 201344001 s t := by
  have h : Keeps 201344001 s s := Keeps.refl _ s
  have hm : sub 201344001 201344001 := by decide
  have ht := Host.Outcome.next.inj ht
  subst ht
  refine crossFadeEnd_keeps (sub.of (by decide) hm) ?_
  exact h

theorem execPanelClear_keeps {a0 : Nat} {a1 : Bool} {s : State} (ht : execPanelClear a0 a1 s = .next t) : Keeps 1543533569 s t := by
  have h : Keeps 1543533569 s s := Keeps.refl _ s
  have hm : sub 1543533569 1543533569 := by decide
  have ht := Host.Outcome.next.inj ht
  subst ht
  refine panelClear_keeps (sub.of (by decide) hm) ?_
  exact h

theorem execClearRelease_keeps {a0 : Nat} {s : State} (ht : execClearRelease a0 s = .next t) : Keeps 1024 s t := by
  have h : Keeps 1024 s s := Keeps.refl _ s
  have hm : sub 1024 1024 := by decide
  have ht := Host.Outcome.next.inj ht
  subst ht
  refine clearRelease_keeps (sub.of (by decide) hm) ?_
  exact h

theorem execCurrentLimitShort_keeps {a0 : Nat} {a1 : Bool} {s : State} (ht : execCurrentLimitShort a0 a1 s = .next t) : Keeps 469791745 s t := by
  have h : Keeps 469791745 s s := Keeps.refl _ s
  have hm : sub 469791745 469791745 := by decide
  have ht := Host.Outcome.next.inj ht
  subst ht
  refine currentLimit_keeps (sub.of (by decide) hm) ?_
  exact h

theorem execSupervisionFault_keeps {a0 : Nat} {a1 : Int} {s : State} (ht : execSupervisionFault a0 a1 s = .next t) : Keeps 1543533569 s t := by
  have h : Keeps 1543533569 s s := Keeps.refl _ s
  have hm : sub 1543533569 1543533569 := by decide
  have ht := Host.Outcome.next.inj ht
  subst ht
  refine supervise_keeps (sub.of (by decide) hm) ?_
  exact h

theorem execStandbyDrive_keeps {a0 : Nat} {s : State} (ht : execStandbyDrive a0 s = .next t) : Keeps 268436480 s t := by
  have h : Keeps 268436480 s s := Keeps.refl _ s
  have hm : sub 268436480 268436480 := by decide
  have ht := Host.Outcome.next.inj ht
  subst ht
  refine standbyDrive_keeps (sub.of (by decide) hm) ?_
  exact h

theorem execHandover_keeps {a0 : Nat} {a1 : Word} {s : State} (ht : execHandover a0 a1 s = .next t) : Keeps 201344001 s t := by
  have h : Keeps 201344001 s s := Keeps.refl _ s
  have hm : sub 201344001 201344001 := by decide
  have ht := Host.Outcome.next.inj ht
  subst ht
  refine writeTwin_keeps (sub.of (by decide) hm) ?_
  exact h

theorem execAnalogueSupplyValid_keeps {s : State} (ht : execAnalogueSupplyValid s = .next t) : Keeps 1543534145 s t := by
  have h : Keeps 1543534145 s s := Keeps.refl _ s
  have hm : sub 1543534145 1543534145 := by decide
  have ht := Host.Outcome.next.inj ht
  subst ht
  refine supplyValid_keeps (sub.of (by decide) hm) ?_
  exact h

theorem execPeakDiffRead_keeps {a0 : Req} {a1 : Nat} {s : State} (ht : execPeakDiffRead a0 a1 s = .next t) : Keeps 5 s t := by
  have h : Keeps 5 s s := Keeps.refl _ s
  have hm : sub 5 5 := by decide
  have ht := Host.Outcome.next.inj ht
  subst ht
  refine State.give_keeps (sub.of (by decide) hm) ?_
  refine readClear_keeps (sub.of (by decide) hm) ?_
  exact h

theorem execDceOutput_keeps {a0 : Nat} {a1 : Nat} {s : State} (ht : execDceOutput a0 a1 s = .next t) : Keeps 201345025 s t := by
  have h : Keeps 201345025 s s := Keeps.refl _ s
  have hm : sub 201345025 201345025 := by decide
  have ht := Host.Outcome.next.inj ht
  subst ht
  refine dceOutput_keeps (sub.of (by decide) hm) ?_
  exact h

theorem execChannelCtlWrite_keeps {a0 : Nat} {a1 : Nat} {a2 : Word} {s : State} (ht : execChannelCtlWrite a0 a1 a2 s = .next t) : Keeps 201345025 s t := by
  have h : Keeps 201345025 s s := Keeps.refl _ s
  have hm : sub 201345025 201345025 := by decide
  have ht := Host.Outcome.next.inj ht
  subst ht
  refine writeChctl_keeps (sub.of (by decide) hm) ?_
  exact h

theorem execChannelRestart_keeps {a0 : Nat} {a1 : Nat} {s : State} (ht : execChannelRestart a0 a1 s = .next t) : Keeps 2048 s t := by
  have h : Keeps 2048 s s := Keeps.refl _ s
  have hm : sub 2048 2048 := by decide
  have ht := Host.Outcome.next.inj ht
  subst ht
  refine channelRestart_keeps (sub.of (by decide) hm) ?_
  exact h

theorem execDceThresholdWrite_keeps {a0 : Nat} {a1 : Nat} {a2 : Nat} {a3 : Word} {s : State} (ht : execDceThresholdWrite a0 a1 a2 a3 s = .next t) : Keeps 2049 s t := by
  have h : Keeps 2049 s s := Keeps.refl _ s
  have hm : sub 2049 2049 := by decide
  have ht := Host.Outcome.next.inj ht
  subst ht
  refine writeDceTh_keeps (sub.of (by decide) hm) ?_
  exact h

theorem execRdidxWrite_keeps {a0 : Nat} {a1 : Nat} {a2 : Word} {s : State} (ht : execRdidxWrite a0 a1 a2 s = .next t) : Keeps 201342977 s t := by
  have h : Keeps 201342977 s s := Keeps.refl _ s
  have hm : sub 201342977 201342977 := by decide
  have ht := Host.Outcome.next.inj ht
  subst ht
  refine writeRdidx_keeps (sub.of (by decide) hm) ?_
  exact h

theorem execWindowClose_keeps {a0 : Nat} {a1 : Nat} {s : State} (ht : execWindowClose a0 a1 s = .next t) : Keeps 2048 s t := by
  have h : Keeps 2048 s s := Keeps.refl _ s
  have hm : sub 2048 2048 := by decide
  have ht := Host.Outcome.next.inj ht
  subst ht
  refine windowClose_keeps (sub.of (by decide) hm) ?_
  exact h

theorem execWindowDone_keeps {a0 : Nat} {a1 : Nat} {s : State} (ht : execWindowDone a0 a1 s = .next t) : Keeps 201345025 s t := by
  have h : Keeps 201345025 s s := Keeps.refl _ s
  have hm : sub 201345025 201345025 := by decide
  have ht := Host.Outcome.next.inj ht
  subst ht
  refine windowDone_keeps (sub.of (by decide) hm) ?_
  exact h

theorem execDceLastStampRead_keeps {a0 : Req} {a1 : Nat} {a2 : Nat} {s : State} (ht : execDceLastStampRead a0 a1 a2 s = .next t) : Keeps 6 s t := by
  have h : Keeps 6 s s := Keeps.refl _ s
  have hm : sub 6 6 := by decide
  have ht := Host.Outcome.next.inj ht
  subst ht
  refine State.give_keeps (sub.of (by decide) hm) ?_
  refine readLastStamp_keeps (sub.of (by decide) hm) ?_
  exact h

theorem execOverrunCountRead_keeps {a0 : Req} {a1 : Nat} {a2 : Nat} {s : State} (ht : execOverrunCountRead a0 a1 a2 s = .next t) : Keeps 5 s t := by
  have h : Keeps 5 s s := Keeps.refl _ s
  have hm : sub 5 5 := by decide
  have ht := Host.Outcome.next.inj ht
  subst ht
  refine State.give_keeps (sub.of (by decide) hm) ?_
  refine readClear_keeps (sub.of (by decide) hm) ?_
  exact h

theorem execLatchTimingEdge_keeps {a0 : Nat} {s : State} (ht : execLatchTimingEdge a0 s = .next t) : Keeps 469856281 s t := by
  have h : Keeps 469856281 s s := Keeps.refl _ s
  have hm : sub 469856281 469856281 := by decide
  have ht := Host.Outcome.next.inj ht
  subst ht
  refine latchEdge_keeps (sub.of (by decide) hm) ?_
  exact h

theorem execShiftStart_keeps {a0 : Probe} {s : State} (ht : execShiftStart a0 s = .next t) : Keeps 1543729169 s t := by
  have h : Keeps 1543729169 s s := Keeps.refl _ s
  have hm : sub 1543729169 1543729169 := by decide
  have ht := Host.Outcome.next.inj ht
  subst ht
  refine shiftStart_keeps (sub.of (by decide) hm) ?_
  refine entryBad_keeps (sub.of (by decide) hm) ?_
  exact h

theorem execShiftEnd_keeps {a0 : Nat} {s : State} (ht : execShiftEnd a0 s = .next t) : Keeps 4097 s t := by
  have h : Keeps 4097 s s := Keeps.refl _ s
  have hm : sub 4097 4097 := by decide
  have ht := Host.Outcome.next.inj ht
  subst ht
  refine shiftEnd_keeps (sub.of (by decide) hm) ?_
  exact h

theorem execReadyPoll_keeps {a0 : Probe} {s : State} (ht : execReadyPoll a0 s = .next t) : Keeps 469987345 s t := by
  have h : Keeps 469987345 s s := Keeps.refl _ s
  have hm : sub 469987345 469987345 := by decide
  have ht := Host.Outcome.next.inj ht
  subst ht
  refine readyPoll_keeps (sub.of (by decide) hm) ?_
  refine readyBad_keeps (sub.of (by decide) hm) ?_
  exact h

theorem execBlockFetch_keeps {a0 : Probe} {s : State} (ht : execBlockFetch a0 s = .next t) : Keeps 469987345 s t := by
  have h : Keeps 469987345 s s := Keeps.refl _ s
  have hm : sub 469987345 469987345 := by decide
  have ht := Host.Outcome.next.inj ht
  subst ht
  refine blockFetch_keeps (sub.of (by decide) hm) ?_
  refine blockBad_keeps (sub.of (by decide) hm) ?_
  exact h

theorem execPortEnableWrite_keeps {a0 : Nat} {a1 : Word} {s : State} (ht : execPortEnableWrite a0 a1 s = .next t) : Keeps 469790721 s t := by
  have h : Keeps 469790721 s s := Keeps.refl _ s
  have hm : sub 469790721 469790721 := by decide
  have ht := Host.Outcome.next.inj ht
  subst ht
  refine writeHdCtl_keeps (sub.of (by decide) hm) ?_
  exact h

theorem execProfileWrite_keeps {a0 : Nat} {a1 : Nat} {a2 : Word} {s : State} (ht : execProfileWrite a0 a1 a2 s = .next t) : Keeps 201342977 s t := by
  have h : Keeps 201342977 s s := Keeps.refl _ s
  have hm : sub 201342977 201342977 := by decide
  have ht := Host.Outcome.next.inj ht
  subst ht
  refine writeProfile_keeps (sub.of (by decide) hm) ?_
  exact h

theorem execPrioPush_keeps {a0 : Nat} {a1 : Nat} {a2 : Word} {s : State} (ht : execPrioPush a0 a1 a2 s = .next t) : Keeps 201347073 s t := by
  have h : Keeps 201347073 s s := Keeps.refl _ s
  have hm : sub 201347073 201347073 := by decide
  have ht := Host.Outcome.next.inj ht
  subst ht
  refine prioPush_keeps (sub.of (by decide) hm) ?_
  exact h

theorem execSenseDeadWrite_keeps {a0 : Nat} {a1 : Nat} {a2 : Word} {s : State} (ht : execSenseDeadWrite a0 a1 a2 s = .next t) : Keeps 469786625 s t := by
  have h : Keeps 469786625 s s := Keeps.refl _ s
  have hm : sub 469786625 469786625 := by decide
  have ht := Host.Outcome.next.inj ht
  subst ht
  refine writeSense_keeps (sub.of (by decide) hm) ?_
  exact h

theorem execNozzleMapWrite_keeps {a0 : Nat} {a1 : Nat} {a2 : Word} {s : State} (ht : execNozzleMapWrite a0 a1 a2 s = .next t) : Keeps 469786625 s t := by
  have h : Keeps 469786625 s s := Keeps.refl _ s
  have hm : sub 469786625 469786625 := by decide
  have ht := Host.Outcome.next.inj ht
  subst ht
  refine writeNmap_keeps (sub.of (by decide) hm) ?_
  exact h

theorem execUnretire_keeps {a0 : Nat} {a1 : Word} {s : State} (ht : execUnretire a0 a1 s = .next t) : Keeps 469786625 s t := by
  have h : Keeps 469786625 s s := Keeps.refl _ s
  have hm : sub 469786625 469786625 := by decide
  have ht := Host.Outcome.next.inj ht
  subst ht
  refine writeNmapCmd_keeps (sub.of (by decide) hm) ?_
  exact h

theorem execNozzleMapWalk_keeps {a0 : Nat} {s : State} (ht : execNozzleMapWalk a0 s = .next t) : Keeps 469786625 s t := by
  have h : Keeps 469786625 s s := Keeps.refl _ s
  have hm : sub 469786625 469786625 := by decide
  have ht := Host.Outcome.next.inj ht
  subst ht
  refine nmapWalk_keeps (sub.of (by decide) hm) ?_
  exact h

theorem execCriticalSetExpiry_keeps {a0 : Nat} {a1 : Nat} {s : State} (ht : execCriticalSetExpiry a0 a1 s = .next t) : Keeps 469790721 s t := by
  have h : Keeps 469790721 s s := Keeps.refl _ s
  have hm : sub 469790721 469790721 := by decide
  have ht := Host.Outcome.next.inj ht
  subst ht
  refine keeps_ite (fun _ => ?_) (fun _ => ?_)
  · refine expireSet_keeps (sub.of (by decide) hm) ?_
    exact h
  · exact h

theorem execAuxPinChange_keeps {a0 : Nat} {s : State} (ht : execAuxPinChange a0 s = .next t) : Keeps 469790721 s t := by
  have h : Keeps 469790721 s s := Keeps.refl _ s
  have hm : sub 469790721 469790721 := by decide
  have ht := Host.Outcome.next.inj ht
  subst ht
  refine auxEval_keeps (sub.of (by decide) hm) ?_
  exact h

theorem execPlanrdWrite_keeps {a0 : Nat} {a1 : Word} {s : State} (ht : execPlanrdWrite a0 a1 s = .next t) : Keeps 1 s t := by
  have h : Keeps 1 s s := Keeps.refl _ s
  have hm : sub 1 1 := by decide
  have ht := Host.Outcome.next.inj ht
  subst ht
  refine writePlanRd_keeps (sub.of (by decide) hm) ?_
  exact h

theorem execLedgerCtlWrite_keeps {a0 : Word} {s : State} (ht : execLedgerCtlWrite a0 s = .next t) : Keeps 201342977 s t := by
  have h : Keeps 201342977 s s := Keeps.refl _ s
  have hm : sub 201342977 201342977 := by decide
  have ht := Host.Outcome.next.inj ht
  subst ht
  refine writePlCtl_keeps (sub.of (by decide) hm) ?_
  exact h

theorem execRecordClose_keeps {a0 : Nat} {s : State} (ht : execRecordClose a0 s = .next t) : Keeps 469856281 s t := by
  have h : Keeps 469856281 s s := Keeps.refl _ s
  have hm : sub 469856281 469856281 := by decide
  have ht := Host.Outcome.next.inj ht
  subst ht
  refine recordClose_keeps (sub.of (by decide) hm) ?_
  exact h

theorem execRecordFree_keeps {a0 : Nat} {s : State} (ht : execRecordFree a0 s = .next t) : Keeps 201416729 s t := by
  have h : Keeps 201416729 s s := Keeps.refl _ s
  have hm : sub 201416729 201416729 := by decide
  have ht := Host.Outcome.next.inj ht
  subst ht
  refine recordFree_keeps (sub.of (by decide) hm) ?_
  exact h

theorem execRejectArm_keeps {a0 : Nat} {s : State} (ht : execRejectArm a0 s = .next t) : Keeps 536879104 s t := by
  have h : Keeps 536879104 s s := Keeps.refl _ s
  have hm : sub 536879104 536879104 := by decide
  have ht := Host.Outcome.next.inj ht
  subst ht
  refine rejectArm_keeps (sub.of (by decide) hm) ?_
  exact h

theorem execRejectArmRetry_keeps {a0 : Nat} {s : State} (ht : execRejectArmRetry a0 s = .next t) : Keeps 738222081 s t := by
  have h : Keeps 738222081 s s := Keeps.refl _ s
  have hm : sub 738222081 738222081 := by decide
  have ht := Host.Outcome.next.inj ht
  subst ht
  refine rejectRetry_keeps (sub.of (by decide) hm) ?_
  exact h

theorem execRaiseFail_keeps {a0 : Req} {s : State} (ht : execRaiseFail a0 s = .next t) : Keeps 469786627 s t := by
  have h : Keeps 469786627 s s := Keeps.refl _ s
  have hm : sub 469786627 469786627 := by decide
  have ht := Host.Outcome.next.inj ht
  subst ht
  refine plCommand_keeps (sub.of (by decide) hm) ?_
  exact h

theorem execRaiseDoubt_keeps {a0 : Req} {s : State} (ht : execRaiseDoubt a0 s = .next t) : Keeps 469786627 s t := by
  have h : Keeps 469786627 s s := Keeps.refl _ s
  have hm : sub 469786627 469786627 := by decide
  have ht := Host.Outcome.next.inj ht
  subst ht
  refine plCommand_keeps (sub.of (by decide) hm) ?_
  exact h

theorem execSetHorizon_keeps {a0 : Req} {s : State} (ht : execSetHorizon a0 s = .next t) : Keeps 469786627 s t := by
  have h : Keeps 469786627 s s := Keeps.refl _ s
  have hm : sub 469786627 469786627 := by decide
  have ht := Host.Outcome.next.inj ht
  subst ht
  refine plCommand_keeps (sub.of (by decide) hm) ?_
  exact h

theorem execLedgerRead_keeps {a0 : Req} {s : State} (ht : execLedgerRead a0 s = .next t) : Keeps 469786627 s t := by
  have h : Keeps 469786627 s s := Keeps.refl _ s
  have hm : sub 469786627 469786627 := by decide
  have ht := Host.Outcome.next.inj ht
  subst ht
  refine plCommand_keeps (sub.of (by decide) hm) ?_
  exact h

theorem execRingrdWrite_keeps {a0 : Word} {s : State} (ht : execRingrdWrite a0 s = .next t) : Keeps 1 s t := by
  have h : Keeps 1 s s := Keeps.refl _ s
  have hm : sub 1 1 := by decide
  have ht := Host.Outcome.next.inj ht
  subst ht
  refine writePlRd_keeps (sub.of (by decide) hm) ?_
  exact h

theorem execAdd_keeps {a0 : Nat} {a1 : Nat} {a2 : Nat} {a3 : Nat} {s : State} (ht : execAdd a0 a1 a2 a3 s = .next t) : Keeps 469987345 s t := by
  have h : Keeps 469987345 s s := Keeps.refl _ s
  have hm : sub 469987345 469987345 := by decide
  have ht := Host.Outcome.next.inj ht
  subst ht
  refine gOp3_keeps (sub.of (by decide) hm) ?_
  exact h

theorem execSub_keeps {a0 : Nat} {a1 : Nat} {a2 : Nat} {a3 : Nat} {s : State} (ht : execSub a0 a1 a2 a3 s = .next t) : Keeps 469987345 s t := by
  have h : Keeps 469987345 s s := Keeps.refl _ s
  have hm : sub 469987345 469987345 := by decide
  have ht := Host.Outcome.next.inj ht
  subst ht
  refine gOp3_keeps (sub.of (by decide) hm) ?_
  exact h

theorem execAnd_keeps {a0 : Nat} {a1 : Nat} {a2 : Nat} {a3 : Nat} {s : State} (ht : execAnd a0 a1 a2 a3 s = .next t) : Keeps 469987345 s t := by
  have h : Keeps 469987345 s s := Keeps.refl _ s
  have hm : sub 469987345 469987345 := by decide
  have ht := Host.Outcome.next.inj ht
  subst ht
  refine gOp3_keeps (sub.of (by decide) hm) ?_
  exact h

theorem execOr_keeps {a0 : Nat} {a1 : Nat} {a2 : Nat} {a3 : Nat} {s : State} (ht : execOr a0 a1 a2 a3 s = .next t) : Keeps 469987345 s t := by
  have h : Keeps 469987345 s s := Keeps.refl _ s
  have hm : sub 469987345 469987345 := by decide
  have ht := Host.Outcome.next.inj ht
  subst ht
  refine gOp3_keeps (sub.of (by decide) hm) ?_
  exact h

theorem execXor_keeps {a0 : Nat} {a1 : Nat} {a2 : Nat} {a3 : Nat} {s : State} (ht : execXor a0 a1 a2 a3 s = .next t) : Keeps 469987345 s t := by
  have h : Keeps 469987345 s s := Keeps.refl _ s
  have hm : sub 469987345 469987345 := by decide
  have ht := Host.Outcome.next.inj ht
  subst ht
  refine gOp3_keeps (sub.of (by decide) hm) ?_
  exact h

theorem execAndn_keeps {a0 : Nat} {a1 : Nat} {a2 : Nat} {a3 : Nat} {s : State} (ht : execAndn a0 a1 a2 a3 s = .next t) : Keeps 469987345 s t := by
  have h : Keeps 469987345 s s := Keeps.refl _ s
  have hm : sub 469987345 469987345 := by decide
  have ht := Host.Outcome.next.inj ht
  subst ht
  refine gOp3_keeps (sub.of (by decide) hm) ?_
  exact h

theorem execShl_keeps {a0 : Nat} {a1 : Nat} {a2 : Nat} {a3 : Nat} {s : State} (ht : execShl a0 a1 a2 a3 s = .next t) : Keeps 469987345 s t := by
  have h : Keeps 469987345 s s := Keeps.refl _ s
  have hm : sub 469987345 469987345 := by decide
  have ht := Host.Outcome.next.inj ht
  subst ht
  refine gOp3_keeps (sub.of (by decide) hm) ?_
  exact h

theorem execShr_keeps {a0 : Nat} {a1 : Nat} {a2 : Nat} {a3 : Nat} {s : State} (ht : execShr a0 a1 a2 a3 s = .next t) : Keeps 469987345 s t := by
  have h : Keeps 469987345 s s := Keeps.refl _ s
  have hm : sub 469987345 469987345 := by decide
  have ht := Host.Outcome.next.inj ht
  subst ht
  refine gOp3_keeps (sub.of (by decide) hm) ?_
  exact h

theorem execSra_keeps {a0 : Nat} {a1 : Nat} {a2 : Nat} {a3 : Nat} {s : State} (ht : execSra a0 a1 a2 a3 s = .next t) : Keeps 469987345 s t := by
  have h : Keeps 469987345 s s := Keeps.refl _ s
  have hm : sub 469987345 469987345 := by decide
  have ht := Host.Outcome.next.inj ht
  subst ht
  refine gOp3_keeps (sub.of (by decide) hm) ?_
  exact h

theorem execMin_keeps {a0 : Nat} {a1 : Nat} {a2 : Nat} {a3 : Nat} {s : State} (ht : execMin a0 a1 a2 a3 s = .next t) : Keeps 469987345 s t := by
  have h : Keeps 469987345 s s := Keeps.refl _ s
  have hm : sub 469987345 469987345 := by decide
  have ht := Host.Outcome.next.inj ht
  subst ht
  refine gOp3_keeps (sub.of (by decide) hm) ?_
  exact h

theorem execMax_keeps {a0 : Nat} {a1 : Nat} {a2 : Nat} {a3 : Nat} {s : State} (ht : execMax a0 a1 a2 a3 s = .next t) : Keeps 469987345 s t := by
  have h : Keeps 469987345 s s := Keeps.refl _ s
  have hm : sub 469987345 469987345 := by decide
  have ht := Host.Outcome.next.inj ht
  subst ht
  refine gOp3_keeps (sub.of (by decide) hm) ?_
  exact h

theorem execMinu_keeps {a0 : Nat} {a1 : Nat} {a2 : Nat} {a3 : Nat} {s : State} (ht : execMinu a0 a1 a2 a3 s = .next t) : Keeps 469987345 s t := by
  have h : Keeps 469987345 s s := Keeps.refl _ s
  have hm : sub 469987345 469987345 := by decide
  have ht := Host.Outcome.next.inj ht
  subst ht
  refine gOp3_keeps (sub.of (by decide) hm) ?_
  exact h

theorem execMaxu_keeps {a0 : Nat} {a1 : Nat} {a2 : Nat} {a3 : Nat} {s : State} (ht : execMaxu a0 a1 a2 a3 s = .next t) : Keeps 469987345 s t := by
  have h : Keeps 469987345 s s := Keeps.refl _ s
  have hm : sub 469987345 469987345 := by decide
  have ht := Host.Outcome.next.inj ht
  subst ht
  refine gOp3_keeps (sub.of (by decide) hm) ?_
  exact h

theorem execAdds_keeps {a0 : Nat} {a1 : Nat} {a2 : Nat} {a3 : Nat} {s : State} (ht : execAdds a0 a1 a2 a3 s = .next t) : Keeps 469987345 s t := by
  have h : Keeps 469987345 s s := Keeps.refl _ s
  have hm : sub 469987345 469987345 := by decide
  have ht := Host.Outcome.next.inj ht
  subst ht
  refine gOp3_keeps (sub.of (by decide) hm) ?_
  exact h

theorem execSubs_keeps {a0 : Nat} {a1 : Nat} {a2 : Nat} {a3 : Nat} {s : State} (ht : execSubs a0 a1 a2 a3 s = .next t) : Keeps 469987345 s t := by
  have h : Keeps 469987345 s s := Keeps.refl _ s
  have hm : sub 469987345 469987345 := by decide
  have ht := Host.Outcome.next.inj ht
  subst ht
  refine gOp3_keeps (sub.of (by decide) hm) ?_
  exact h

theorem execAddi_keeps {a0 : Nat} {a1 : Nat} {a2 : Nat} {a3 : BitVec 14} {s : State} (ht : execAddi a0 a1 a2 a3 s = .next t) : Keeps 469987345 s t := by
  have h : Keeps 469987345 s s := Keeps.refl _ s
  have hm : sub 469987345 469987345 := by decide
  have ht := Host.Outcome.next.inj ht
  subst ht
  refine gOp2_keeps (sub.of (by decide) hm) ?_
  exact h

theorem execSubi_keeps {a0 : Nat} {a1 : Nat} {a2 : Nat} {a3 : BitVec 14} {s : State} (ht : execSubi a0 a1 a2 a3 s = .next t) : Keeps 469987345 s t := by
  have h : Keeps 469987345 s s := Keeps.refl _ s
  have hm : sub 469987345 469987345 := by decide
  have ht := Host.Outcome.next.inj ht
  subst ht
  refine gOp2_keeps (sub.of (by decide) hm) ?_
  exact h

theorem execAndi_keeps {a0 : Nat} {a1 : Nat} {a2 : Nat} {a3 : BitVec 14} {s : State} (ht : execAndi a0 a1 a2 a3 s = .next t) : Keeps 469987345 s t := by
  have h : Keeps 469987345 s s := Keeps.refl _ s
  have hm : sub 469987345 469987345 := by decide
  have ht := Host.Outcome.next.inj ht
  subst ht
  refine gOp2_keeps (sub.of (by decide) hm) ?_
  exact h

theorem execOri_keeps {a0 : Nat} {a1 : Nat} {a2 : Nat} {a3 : BitVec 14} {s : State} (ht : execOri a0 a1 a2 a3 s = .next t) : Keeps 469987345 s t := by
  have h : Keeps 469987345 s s := Keeps.refl _ s
  have hm : sub 469987345 469987345 := by decide
  have ht := Host.Outcome.next.inj ht
  subst ht
  refine gOp2_keeps (sub.of (by decide) hm) ?_
  exact h

theorem execXori_keeps {a0 : Nat} {a1 : Nat} {a2 : Nat} {a3 : BitVec 14} {s : State} (ht : execXori a0 a1 a2 a3 s = .next t) : Keeps 469987345 s t := by
  have h : Keeps 469987345 s s := Keeps.refl _ s
  have hm : sub 469987345 469987345 := by decide
  have ht := Host.Outcome.next.inj ht
  subst ht
  refine gOp2_keeps (sub.of (by decide) hm) ?_
  exact h

theorem execLui_keeps {a0 : Nat} {a1 : Nat} {a2 : BitVec 20} {s : State} (ht : execLui a0 a1 a2 s = .next t) : Keeps 469987345 s t := by
  have h : Keeps 469987345 s s := Keeps.refl _ s
  have hm : sub 469987345 469987345 := by decide
  have ht := Host.Outcome.next.inj ht
  subst ht
  refine gOp2_keeps (sub.of (by decide) hm) ?_
  exact h

theorem execShli_keeps {a0 : Nat} {a1 : Nat} {a2 : Nat} {a3 : BitVec 14} {s : State} (ht : execShli a0 a1 a2 a3 s = .next t) : Keeps 469987345 s t := by
  have h : Keeps 469987345 s s := Keeps.refl _ s
  have hm : sub 469987345 469987345 := by decide
  have ht := Host.Outcome.next.inj ht
  subst ht
  refine gOp2_keeps (sub.of (by decide) hm) ?_
  exact h

theorem execShri_keeps {a0 : Nat} {a1 : Nat} {a2 : Nat} {a3 : BitVec 14} {s : State} (ht : execShri a0 a1 a2 a3 s = .next t) : Keeps 469987345 s t := by
  have h : Keeps 469987345 s s := Keeps.refl _ s
  have hm : sub 469987345 469987345 := by decide
  have ht := Host.Outcome.next.inj ht
  subst ht
  refine gOp2_keeps (sub.of (by decide) hm) ?_
  exact h

theorem execSrai_keeps {a0 : Nat} {a1 : Nat} {a2 : Nat} {a3 : BitVec 14} {s : State} (ht : execSrai a0 a1 a2 a3 s = .next t) : Keeps 469987345 s t := by
  have h : Keeps 469987345 s s := Keeps.refl _ s
  have hm : sub 469987345 469987345 := by decide
  have ht := Host.Outcome.next.inj ht
  subst ht
  refine gOp2_keeps (sub.of (by decide) hm) ?_
  exact h

theorem execAdda_keeps {a0 : Nat} {a1 : Nat} {a2 : Nat} {a3 : BitVec 14} {s : State} (ht : execAdda a0 a1 a2 a3 s = .next t) : Keeps 469987345 s t := by
  have h : Keeps 469987345 s s := Keeps.refl _ s
  have hm : sub 469987345 469987345 := by decide
  have ht := Host.Outcome.next.inj ht
  subst ht
  refine issue_keeps (sub.of (by decide) hm) (fun x0 hx0 => ?_) ?_
  · refine retireNext_keeps (sub.of (by decide) hm) ?_
    refine setA_keeps (sub.of (by decide) hm) ?_
    exact hx0
  · exact h

theorem execAddaR_keeps {a0 : Nat} {a1 : Nat} {a2 : Nat} {a3 : Nat} {s : State} (ht : execAddaR a0 a1 a2 a3 s = .next t) : Keeps 469987345 s t := by
  have h : Keeps 469987345 s s := Keeps.refl _ s
  have hm : sub 469987345 469987345 := by decide
  have ht := Host.Outcome.next.inj ht
  subst ht
  refine issue_keeps (sub.of (by decide) hm) (fun x0 hx0 => ?_) ?_
  · refine retireNext_keeps (sub.of (by decide) hm) ?_
    refine setA_keeps (sub.of (by decide) hm) ?_
    exact hx0
  · exact h

theorem execLaLo_keeps {a0 : Nat} {a1 : Nat} {a2 : Nat} {s : State} (ht : execLaLo a0 a1 a2 s = .next t) : Keeps 469987345 s t := by
  have h : Keeps 469987345 s s := Keeps.refl _ s
  have hm : sub 469987345 469987345 := by decide
  have ht := Host.Outcome.next.inj ht
  subst ht
  refine issue_keeps (sub.of (by decide) hm) (fun x0 hx0 => ?_) ?_
  · refine retireNext_keeps (sub.of (by decide) hm) ?_
    refine setA_keeps (sub.of (by decide) hm) ?_
    exact hx0
  · exact h

theorem execLaHi_keeps {a0 : Nat} {a1 : Nat} {a2 : Nat} {s : State} (ht : execLaHi a0 a1 a2 s = .next t) : Keeps 469987345 s t := by
  have h : Keeps 469987345 s s := Keeps.refl _ s
  have hm : sub 469987345 469987345 := by decide
  have ht := Host.Outcome.next.inj ht
  subst ht
  refine issue_keeps (sub.of (by decide) hm) (fun x0 hx0 => ?_) ?_
  · refine retireNext_keeps (sub.of (by decide) hm) ?_
    refine setA_keeps (sub.of (by decide) hm) ?_
    exact hx0
  · exact h

theorem execMgaLo_keeps {a0 : Nat} {a1 : Nat} {a2 : Nat} {s : State} (ht : execMgaLo a0 a1 a2 s = .next t) : Keeps 469987345 s t := by
  have h : Keeps 469987345 s s := Keeps.refl _ s
  have hm : sub 469987345 469987345 := by decide
  have ht := Host.Outcome.next.inj ht
  subst ht
  refine issue_keeps (sub.of (by decide) hm) (fun x0 hx0 => ?_) ?_
  · refine retireNext_keeps (sub.of (by decide) hm) ?_
    refine setG_keeps (sub.of (by decide) hm) ?_
    exact hx0
  · exact h

theorem execMgaHi_keeps {a0 : Nat} {a1 : Nat} {a2 : Nat} {s : State} (ht : execMgaHi a0 a1 a2 s = .next t) : Keeps 469987345 s t := by
  have h : Keeps 469987345 s s := Keeps.refl _ s
  have hm : sub 469987345 469987345 := by decide
  have ht := Host.Outcome.next.inj ht
  subst ht
  refine issue_keeps (sub.of (by decide) hm) (fun x0 hx0 => ?_) ?_
  · refine retireNext_keeps (sub.of (by decide) hm) ?_
    refine setG_keeps (sub.of (by decide) hm) ?_
    exact hx0
  · exact h

theorem execMul_keeps {a0 : Nat} {a1 : Nat} {a2 : Nat} {a3 : Nat} {s : State} (ht : execMul a0 a1 a2 a3 s = .next t) : Keeps 469987345 s t := by
  have h : Keeps 469987345 s s := Keeps.refl _ s
  have hm : sub 469987345 469987345 := by decide
  have ht := Host.Outcome.next.inj ht
  subst ht
  refine gOp3_keeps (sub.of (by decide) hm) ?_
  exact h

theorem execMulhs_keeps {a0 : Nat} {a1 : Nat} {a2 : Nat} {a3 : Nat} {s : State} (ht : execMulhs a0 a1 a2 a3 s = .next t) : Keeps 469987345 s t := by
  have h : Keeps 469987345 s s := Keeps.refl _ s
  have hm : sub 469987345 469987345 := by decide
  have ht := Host.Outcome.next.inj ht
  subst ht
  refine gOp3_keeps (sub.of (by decide) hm) ?_
  exact h

theorem execMulhu_keeps {a0 : Nat} {a1 : Nat} {a2 : Nat} {a3 : Nat} {s : State} (ht : execMulhu a0 a1 a2 a3 s = .next t) : Keeps 469987345 s t := by
  have h : Keeps 469987345 s s := Keeps.refl _ s
  have hm : sub 469987345 469987345 := by decide
  have ht := Host.Outcome.next.inj ht
  subst ht
  refine gOp3_keeps (sub.of (by decide) hm) ?_
  exact h

theorem execMac_keeps {a0 : Nat} {a1 : Nat} {a2 : Nat} {a3 : Nat} {s : State} (ht : execMac a0 a1 a2 a3 s = .next t) : Keeps 469987345 s t := by
  have h : Keeps 469987345 s s := Keeps.refl _ s
  have hm : sub 469987345 469987345 := by decide
  have ht := Host.Outcome.next.inj ht
  subst ht
  refine gAcc_keeps (sub.of (by decide) hm) ?_
  exact h

theorem execMsu_keeps {a0 : Nat} {a1 : Nat} {a2 : Nat} {a3 : Nat} {s : State} (ht : execMsu a0 a1 a2 a3 s = .next t) : Keeps 469987345 s t := by
  have h : Keeps 469987345 s s := Keeps.refl _ s
  have hm : sub 469987345 469987345 := by decide
  have ht := Host.Outcome.next.inj ht
  subst ht
  refine gAcc_keeps (sub.of (by decide) hm) ?_
  exact h

theorem execGfmul_keeps {a0 : Nat} {a1 : BitVec 2} {a2 : Nat} {a3 : Nat} {a4 : Nat} {s : State} (ht : execGfmul a0 a1 a2 a3 a4 s = .next t) : Keeps 469987345 s t := by
  have h : Keeps 469987345 s s := Keeps.refl _ s
  have hm : sub 469987345 469987345 := by decide
  have ht := Host.Outcome.next.inj ht
  subst ht
  refine gOp3_keeps (sub.of (by decide) hm) ?_
  exact h

theorem execGfmac_keeps {a0 : Nat} {a1 : BitVec 2} {a2 : Nat} {a3 : Nat} {a4 : Nat} {s : State} (ht : execGfmac a0 a1 a2 a3 a4 s = .next t) : Keeps 469987345 s t := by
  have h : Keeps 469987345 s s := Keeps.refl _ s
  have hm : sub 469987345 469987345 := by decide
  have ht := Host.Outcome.next.inj ht
  subst ht
  refine gAcc_keeps (sub.of (by decide) hm) ?_
  exact h

theorem execPopc_keeps {a0 : Nat} {a1 : Nat} {a2 : Nat} {s : State} (ht : execPopc a0 a1 a2 s = .next t) : Keeps 469987345 s t := by
  have h : Keeps 469987345 s s := Keeps.refl _ s
  have hm : sub 469987345 469987345 := by decide
  have ht := Host.Outcome.next.inj ht
  subst ht
  refine gOp2_keeps (sub.of (by decide) hm) ?_
  exact h

theorem execClz_keeps {a0 : Nat} {a1 : Nat} {a2 : Nat} {s : State} (ht : execClz a0 a1 a2 s = .next t) : Keeps 469987345 s t := by
  have h : Keeps 469987345 s s := Keeps.refl _ s
  have hm : sub 469987345 469987345 := by decide
  have ht := Host.Outcome.next.inj ht
  subst ht
  refine gOp2_keeps (sub.of (by decide) hm) ?_
  exact h

theorem execCtz_keeps {a0 : Nat} {a1 : Nat} {a2 : Nat} {s : State} (ht : execCtz a0 a1 a2 s = .next t) : Keeps 469987345 s t := by
  have h : Keeps 469987345 s s := Keeps.refl _ s
  have hm : sub 469987345 469987345 := by decide
  have ht := Host.Outcome.next.inj ht
  subst ht
  refine gOp2_keeps (sub.of (by decide) hm) ?_
  exact h

theorem execBrev_keeps {a0 : Nat} {a1 : Nat} {a2 : Nat} {s : State} (ht : execBrev a0 a1 a2 s = .next t) : Keeps 469987345 s t := by
  have h : Keeps 469987345 s s := Keeps.refl _ s
  have hm : sub 469987345 469987345 := by decide
  have ht := Host.Outcome.next.inj ht
  subst ht
  refine gOp2_keeps (sub.of (by decide) hm) ?_
  exact h

theorem execBswap_keeps {a0 : Nat} {a1 : Nat} {a2 : Nat} {s : State} (ht : execBswap a0 a1 a2 s = .next t) : Keeps 469987345 s t := by
  have h : Keeps 469987345 s s := Keeps.refl _ s
  have hm : sub 469987345 469987345 := by decide
  have ht := Host.Outcome.next.inj ht
  subst ht
  refine gOp2_keeps (sub.of (by decide) hm) ?_
  exact h

theorem execBfxu_keeps {a0 : Nat} {a1 : Nat} {a2 : Nat} {a3 : Nat} {a4 : Nat} {s : State} (ht : execBfxu a0 a1 a2 a3 a4 s = .next t) : Keeps 469987345 s t := by
  have h : Keeps 469987345 s s := Keeps.refl _ s
  have hm : sub 469987345 469987345 := by decide
  have ht := Host.Outcome.next.inj ht
  subst ht
  refine gOp2_keeps (sub.of (by decide) hm) ?_
  exact h

theorem execBfxs_keeps {a0 : Nat} {a1 : Nat} {a2 : Nat} {a3 : Nat} {a4 : Nat} {s : State} (ht : execBfxs a0 a1 a2 a3 a4 s = .next t) : Keeps 469987345 s t := by
  have h : Keeps 469987345 s s := Keeps.refl _ s
  have hm : sub 469987345 469987345 := by decide
  have ht := Host.Outcome.next.inj ht
  subst ht
  refine gOp2_keeps (sub.of (by decide) hm) ?_
  exact h

theorem execBfi_keeps {a0 : Nat} {a1 : Nat} {a2 : Nat} {a3 : Nat} {a4 : Nat} {s : State} (ht : execBfi a0 a1 a2 a3 a4 s = .next t) : Keeps 469987345 s t := by
  have h : Keeps 469987345 s s := Keeps.refl _ s
  have hm : sub 469987345 469987345 := by decide
  have ht := Host.Outcome.next.inj ht
  subst ht
  refine issue_keeps (sub.of (by decide) hm) (fun x0 hx0 => ?_) ?_
  · refine retireNext_keeps (sub.of (by decide) hm) ?_
    refine setG_keeps (sub.of (by decide) hm) ?_
    exact hx0
  · exact h

theorem execCmpeq_keeps {a0 : Nat} {a1 : Nat} {a2 : Nat} {a3 : Nat} {s : State} (ht : execCmpeq a0 a1 a2 a3 s = .next t) : Keeps 469987345 s t := by
  have h : Keeps 469987345 s s := Keeps.refl _ s
  have hm : sub 469987345 469987345 := by decide
  have ht := Host.Outcome.next.inj ht
  subst ht
  refine pOp3_keeps (sub.of (by decide) hm) ?_
  exact h

theorem execCmpne_keeps {a0 : Nat} {a1 : Nat} {a2 : Nat} {a3 : Nat} {s : State} (ht : execCmpne a0 a1 a2 a3 s = .next t) : Keeps 469987345 s t := by
  have h : Keeps 469987345 s s := Keeps.refl _ s
  have hm : sub 469987345 469987345 := by decide
  have ht := Host.Outcome.next.inj ht
  subst ht
  refine pOp3_keeps (sub.of (by decide) hm) ?_
  exact h

theorem execCmplt_keeps {a0 : Nat} {a1 : Nat} {a2 : Nat} {a3 : Nat} {s : State} (ht : execCmplt a0 a1 a2 a3 s = .next t) : Keeps 469987345 s t := by
  have h : Keeps 469987345 s s := Keeps.refl _ s
  have hm : sub 469987345 469987345 := by decide
  have ht := Host.Outcome.next.inj ht
  subst ht
  refine pOp3_keeps (sub.of (by decide) hm) ?_
  exact h

theorem execCmpltu_keeps {a0 : Nat} {a1 : Nat} {a2 : Nat} {a3 : Nat} {s : State} (ht : execCmpltu a0 a1 a2 a3 s = .next t) : Keeps 469987345 s t := by
  have h : Keeps 469987345 s s := Keeps.refl _ s
  have hm : sub 469987345 469987345 := by decide
  have ht := Host.Outcome.next.inj ht
  subst ht
  refine pOp3_keeps (sub.of (by decide) hm) ?_
  exact h

theorem execCmpge_keeps {a0 : Nat} {a1 : Nat} {a2 : Nat} {a3 : Nat} {s : State} (ht : execCmpge a0 a1 a2 a3 s = .next t) : Keeps 469987345 s t := by
  have h : Keeps 469987345 s s := Keeps.refl _ s
  have hm : sub 469987345 469987345 := by decide
  have ht := Host.Outcome.next.inj ht
  subst ht
  refine pOp3_keeps (sub.of (by decide) hm) ?_
  exact h

theorem execCmpgeu_keeps {a0 : Nat} {a1 : Nat} {a2 : Nat} {a3 : Nat} {s : State} (ht : execCmpgeu a0 a1 a2 a3 s = .next t) : Keeps 469987345 s t := by
  have h : Keeps 469987345 s s := Keeps.refl _ s
  have hm : sub 469987345 469987345 := by decide
  have ht := Host.Outcome.next.inj ht
  subst ht
  refine pOp3_keeps (sub.of (by decide) hm) ?_
  exact h

theorem execCmpi_keeps {a0 : Nat} {a1 : BitVec 3} {a2 : Nat} {a3 : Nat} {a4 : BitVec 14} {s : State} (ht : execCmpi a0 a1 a2 a3 a4 s = .next t) : Keeps 469987345 s t := by
  have h : Keeps 469987345 s s := Keeps.refl _ s
  have hm : sub 469987345 469987345 := by decide
  have ht := Host.Outcome.next.inj ht
  subst ht
  refine issue_keeps (sub.of (by decide) hm) (fun x0 hx0 => ?_) ?_
  · refine retireNext_keeps (sub.of (by decide) hm) ?_
    refine setP_keeps (sub.of (by decide) hm) ?_
    exact hx0
  · exact h

theorem execPand_keeps {a0 : Nat} {a1 : Nat} {a2 : Nat} {a3 : Nat} {s : State} (ht : execPand a0 a1 a2 a3 s = .next t) : Keeps 469987345 s t := by
  have h : Keeps 469987345 s s := Keeps.refl _ s
  have hm : sub 469987345 469987345 := by decide
  have ht := Host.Outcome.next.inj ht
  subst ht
  refine pLogic_keeps (sub.of (by decide) hm) ?_
  exact h

theorem execPor_keeps {a0 : Nat} {a1 : Nat} {a2 : Nat} {a3 : Nat} {s : State} (ht : execPor a0 a1 a2 a3 s = .next t) : Keeps 469987345 s t := by
  have h : Keeps 469987345 s s := Keeps.refl _ s
  have hm : sub 469987345 469987345 := by decide
  have ht := Host.Outcome.next.inj ht
  subst ht
  refine pLogic_keeps (sub.of (by decide) hm) ?_
  exact h

theorem execPxor_keeps {a0 : Nat} {a1 : Nat} {a2 : Nat} {a3 : Nat} {s : State} (ht : execPxor a0 a1 a2 a3 s = .next t) : Keeps 469987345 s t := by
  have h : Keeps 469987345 s s := Keeps.refl _ s
  have hm : sub 469987345 469987345 := by decide
  have ht := Host.Outcome.next.inj ht
  subst ht
  refine pLogic_keeps (sub.of (by decide) hm) ?_
  exact h

theorem execPandn_keeps {a0 : Nat} {a1 : Nat} {a2 : Nat} {a3 : Nat} {s : State} (ht : execPandn a0 a1 a2 a3 s = .next t) : Keeps 469987345 s t := by
  have h : Keeps 469987345 s s := Keeps.refl _ s
  have hm : sub 469987345 469987345 := by decide
  have ht := Host.Outcome.next.inj ht
  subst ht
  refine pLogic_keeps (sub.of (by decide) hm) ?_
  exact h

theorem execSel_keeps {a0 : Nat} {a1 : Nat} {a2 : Nat} {a3 : Nat} {a4 : Nat} {s : State} (ht : execSel a0 a1 a2 a3 a4 s = .next t) : Keeps 469987345 s t := by
  have h : Keeps 469987345 s s := Keeps.refl _ s
  have hm : sub 469987345 469987345 := by decide
  have ht := Host.Outcome.next.inj ht
  subst ht
  refine issue_keeps (sub.of (by decide) hm) (fun x0 hx0 => ?_) ?_
  · refine retireNext_keeps (sub.of (by decide) hm) ?_
    refine setG_keeps (sub.of (by decide) hm) ?_
    exact hx0
  · exact h

theorem execLdB_keeps {a0 : Nat} {a1 : Nat} {a2 : Nat} {a3 : BitVec 14} {s : State} (ht : execLdB a0 a1 a2 a3 s = .next t) : Keeps 472084503 s t := by
  have h : Keeps 472084503 s s := Keeps.refl _ s
  have hm : sub 472084503 472084503 := by decide
  have ht := Host.Outcome.next.inj ht
  subst ht
  refine load_keeps (sub.of (by decide) hm) ?_
  exact h

theorem execLdH_keeps {a0 : Nat} {a1 : Nat} {a2 : Nat} {a3 : BitVec 14} {s : State} (ht : execLdH a0 a1 a2 a3 s = .next t) : Keeps 472084503 s t := by
  have h : Keeps 472084503 s s := Keeps.refl _ s
  have hm : sub 472084503 472084503 := by decide
  have ht := Host.Outcome.next.inj ht
  subst ht
  refine load_keeps (sub.of (by decide) hm) ?_
  exact h

theorem execLdW_keeps {a0 : Nat} {a1 : Nat} {a2 : Nat} {a3 : BitVec 14} {s : State} (ht : execLdW a0 a1 a2 a3 s = .next t) : Keeps 472084503 s t := by
  have h : Keeps 472084503 s s := Keeps.refl _ s
  have hm : sub 472084503 472084503 := by decide
  have ht := Host.Outcome.next.inj ht
  subst ht
  refine load_keeps (sub.of (by decide) hm) ?_
  exact h

theorem execLdV_keeps {a0 : Nat} {a1 : Nat} {a2 : Nat} {a3 : BitVec 14} {s : State} (ht : execLdV a0 a1 a2 a3 s = .next t) : Keeps 472084503 s t := by
  have h : Keeps 472084503 s s := Keeps.refl _ s
  have hm : sub 472084503 472084503 := by decide
  have ht := Host.Outcome.next.inj ht
  subst ht
  refine load_keeps (sub.of (by decide) hm) ?_
  exact h

theorem execLdBu_keeps {a0 : Nat} {a1 : Nat} {a2 : Nat} {a3 : BitVec 14} {s : State} (ht : execLdBu a0 a1 a2 a3 s = .next t) : Keeps 472084503 s t := by
  have h : Keeps 472084503 s s := Keeps.refl _ s
  have hm : sub 472084503 472084503 := by decide
  have ht := Host.Outcome.next.inj ht
  subst ht
  refine load_keeps (sub.of (by decide) hm) ?_
  exact h

theorem execLdHu_keeps {a0 : Nat} {a1 : Nat} {a2 : Nat} {a3 : BitVec 14} {s : State} (ht : execLdHu a0 a1 a2 a3 s = .next t) : Keeps 472084503 s t := by
  have h : Keeps 472084503 s s := Keeps.refl _ s
  have hm : sub 472084503 472084503 := by decide
  have ht := Host.Outcome.next.inj ht
  subst ht
  refine load_keeps (sub.of (by decide) hm) ?_
  exact h

theorem execStB_keeps {a0 : Nat} {a1 : Nat} {a2 : Nat} {a3 : BitVec 14} {s : State} (ht : execStB a0 a1 a2 a3 s = .next t) : Keeps 469987345 s t := by
  have h : Keeps 469987345 s s := Keeps.refl _ s
  have hm : sub 469987345 469987345 := by decide
  have ht := Host.Outcome.next.inj ht
  subst ht
  refine store_keeps (sub.of (by decide) hm) ?_
  exact h

theorem execStH_keeps {a0 : Nat} {a1 : Nat} {a2 : Nat} {a3 : BitVec 14} {s : State} (ht : execStH a0 a1 a2 a3 s = .next t) : Keeps 469987345 s t := by
  have h : Keeps 469987345 s s := Keeps.refl _ s
  have hm : sub 469987345 469987345 := by decide
  have ht := Host.Outcome.next.inj ht
  subst ht
  refine store_keeps (sub.of (by decide) hm) ?_
  exact h

theorem execStW_keeps {a0 : Nat} {a1 : Nat} {a2 : Nat} {a3 : BitVec 14} {s : State} (ht : execStW a0 a1 a2 a3 s = .next t) : Keeps 469987345 s t := by
  have h : Keeps 469987345 s s := Keeps.refl _ s
  have hm : sub 469987345 469987345 := by decide
  have ht := Host.Outcome.next.inj ht
  subst ht
  refine store_keeps (sub.of (by decide) hm) ?_
  exact h

theorem execStV_keeps {a0 : Nat} {a1 : Nat} {a2 : Nat} {a3 : BitVec 14} {s : State} (ht : execStV a0 a1 a2 a3 s = .next t) : Keeps 469987345 s t := by
  have h : Keeps 469987345 s s := Keeps.refl _ s
  have hm : sub 469987345 469987345 := by decide
  have ht := Host.Outcome.next.inj ht
  subst ht
  refine store_keeps (sub.of (by decide) hm) ?_
  exact h

theorem execDma_keeps {a0 : Nat} {a1 : Nat} {a2 : Nat} {a3 : BitVec 14} {s : State} (ht : execDma a0 a1 a2 a3 s = .next t) : Keeps 2122317823 s t := by
  have h : Keeps 2122317823 s s := Keeps.refl _ s
  have hm : sub 2122317823 2122317823 := by decide
  have ht := Host.Outcome.next.inj ht
  subst ht
  refine issue_keeps (sub.of (by decide) hm) (fun x0 hx0 => ?_) ?_
  · refine afterStores_keeps (sub.of (by decide) hm) (fun x1 hx1 => ?_) ?_
    · refine beginDma_keeps (sub.of (by decide) hm) ?_
      exact hx1
    · exact hx0
  · exact h

theorem execVadd_keeps {a0 : Nat} {a1 : BitVec 2} {a2 : Nat} {a3 : Nat} {a4 : Nat} {s : State} (ht : execVadd a0 a1 a2 a3 a4 s = .next t) : Keeps 469987345 s t := by
  have h : Keeps 469987345 s s := Keeps.refl _ s
  have hm : sub 469987345 469987345 := by decide
  have ht := Host.Outcome.next.inj ht
  subst ht
  refine vLanes_keeps (sub.of (by decide) hm) ?_
  exact h

theorem execVsub_keeps {a0 : Nat} {a1 : BitVec 2} {a2 : Nat} {a3 : Nat} {a4 : Nat} {s : State} (ht : execVsub a0 a1 a2 a3 a4 s = .next t) : Keeps 469987345 s t := by
  have h : Keeps 469987345 s s := Keeps.refl _ s
  have hm : sub 469987345 469987345 := by decide
  have ht := Host.Outcome.next.inj ht
  subst ht
  refine vLanes_keeps (sub.of (by decide) hm) ?_
  exact h

theorem execVadds_keeps {a0 : Nat} {a1 : BitVec 2} {a2 : Nat} {a3 : Nat} {a4 : Nat} {s : State} (ht : execVadds a0 a1 a2 a3 a4 s = .next t) : Keeps 469987345 s t := by
  have h : Keeps 469987345 s s := Keeps.refl _ s
  have hm : sub 469987345 469987345 := by decide
  have ht := Host.Outcome.next.inj ht
  subst ht
  refine vLanes_keeps (sub.of (by decide) hm) ?_
  exact h

theorem execVaddsu_keeps {a0 : Nat} {a1 : BitVec 2} {a2 : Nat} {a3 : Nat} {a4 : Nat} {s : State} (ht : execVaddsu a0 a1 a2 a3 a4 s = .next t) : Keeps 469987345 s t := by
  have h : Keeps 469987345 s s := Keeps.refl _ s
  have hm : sub 469987345 469987345 := by decide
  have ht := Host.Outcome.next.inj ht
  subst ht
  refine vLanes_keeps (sub.of (by decide) hm) ?_
  exact h

theorem execVsubs_keeps {a0 : Nat} {a1 : BitVec 2} {a2 : Nat} {a3 : Nat} {a4 : Nat} {s : State} (ht : execVsubs a0 a1 a2 a3 a4 s = .next t) : Keeps 469987345 s t := by
  have h : Keeps 469987345 s s := Keeps.refl _ s
  have hm : sub 469987345 469987345 := by decide
  have ht := Host.Outcome.next.inj ht
  subst ht
  refine vLanes_keeps (sub.of (by decide) hm) ?_
  exact h

theorem execVsubsu_keeps {a0 : Nat} {a1 : BitVec 2} {a2 : Nat} {a3 : Nat} {a4 : Nat} {s : State} (ht : execVsubsu a0 a1 a2 a3 a4 s = .next t) : Keeps 469987345 s t := by
  have h : Keeps 469987345 s s := Keeps.refl _ s
  have hm : sub 469987345 469987345 := by decide
  have ht := Host.Outcome.next.inj ht
  subst ht
  refine vLanes_keeps (sub.of (by decide) hm) ?_
  exact h

theorem execVmul_keeps {a0 : Nat} {a1 : BitVec 2} {a2 : Nat} {a3 : Nat} {a4 : Nat} {s : State} (ht : execVmul a0 a1 a2 a3 a4 s = .next t) : Keeps 469987345 s t := by
  have h : Keeps 469987345 s s := Keeps.refl _ s
  have hm : sub 469987345 469987345 := by decide
  have ht := Host.Outcome.next.inj ht
  subst ht
  refine vLanes_keeps (sub.of (by decide) hm) ?_
  exact h

theorem execVmulhs_keeps {a0 : Nat} {a1 : BitVec 2} {a2 : Nat} {a3 : Nat} {a4 : Nat} {s : State} (ht : execVmulhs a0 a1 a2 a3 a4 s = .next t) : Keeps 469987345 s t := by
  have h : Keeps 469987345 s s := Keeps.refl _ s
  have hm : sub 469987345 469987345 := by decide
  have ht := Host.Outcome.next.inj ht
  subst ht
  refine vLanes_keeps (sub.of (by decide) hm) ?_
  exact h

theorem execVmin_keeps {a0 : Nat} {a1 : BitVec 2} {a2 : Nat} {a3 : Nat} {a4 : Nat} {s : State} (ht : execVmin a0 a1 a2 a3 a4 s = .next t) : Keeps 469987345 s t := by
  have h : Keeps 469987345 s s := Keeps.refl _ s
  have hm : sub 469987345 469987345 := by decide
  have ht := Host.Outcome.next.inj ht
  subst ht
  refine vLanes_keeps (sub.of (by decide) hm) ?_
  exact h

theorem execVminu_keeps {a0 : Nat} {a1 : BitVec 2} {a2 : Nat} {a3 : Nat} {a4 : Nat} {s : State} (ht : execVminu a0 a1 a2 a3 a4 s = .next t) : Keeps 469987345 s t := by
  have h : Keeps 469987345 s s := Keeps.refl _ s
  have hm : sub 469987345 469987345 := by decide
  have ht := Host.Outcome.next.inj ht
  subst ht
  refine vLanes_keeps (sub.of (by decide) hm) ?_
  exact h

theorem execVmax_keeps {a0 : Nat} {a1 : BitVec 2} {a2 : Nat} {a3 : Nat} {a4 : Nat} {s : State} (ht : execVmax a0 a1 a2 a3 a4 s = .next t) : Keeps 469987345 s t := by
  have h : Keeps 469987345 s s := Keeps.refl _ s
  have hm : sub 469987345 469987345 := by decide
  have ht := Host.Outcome.next.inj ht
  subst ht
  refine vLanes_keeps (sub.of (by decide) hm) ?_
  exact h

theorem execVmaxu_keeps {a0 : Nat} {a1 : BitVec 2} {a2 : Nat} {a3 : Nat} {a4 : Nat} {s : State} (ht : execVmaxu a0 a1 a2 a3 a4 s = .next t) : Keeps 469987345 s t := by
  have h : Keeps 469987345 s s := Keeps.refl _ s
  have hm : sub 469987345 469987345 := by decide
  have ht := Host.Outcome.next.inj ht
  subst ht
  refine vLanes_keeps (sub.of (by decide) hm) ?_
  exact h

theorem execVavgu_keeps {a0 : Nat} {a1 : BitVec 2} {a2 : Nat} {a3 : Nat} {a4 : Nat} {s : State} (ht : execVavgu a0 a1 a2 a3 a4 s = .next t) : Keeps 469987345 s t := by
  have h : Keeps 469987345 s s := Keeps.refl _ s
  have hm : sub 469987345 469987345 := by decide
  have ht := Host.Outcome.next.inj ht
  subst ht
  refine vLanes_keeps (sub.of (by decide) hm) ?_
  exact h

theorem execVand_keeps {a0 : Nat} {a1 : BitVec 2} {a2 : Nat} {a3 : Nat} {a4 : Nat} {s : State} (ht : execVand a0 a1 a2 a3 a4 s = .next t) : Keeps 469987345 s t := by
  have h : Keeps 469987345 s s := Keeps.refl _ s
  have hm : sub 469987345 469987345 := by decide
  have ht := Host.Outcome.next.inj ht
  subst ht
  refine vOp3_keeps (sub.of (by decide) hm) ?_
  exact h

theorem execVor_keeps {a0 : Nat} {a1 : BitVec 2} {a2 : Nat} {a3 : Nat} {a4 : Nat} {s : State} (ht : execVor a0 a1 a2 a3 a4 s = .next t) : Keeps 469987345 s t := by
  have h : Keeps 469987345 s s := Keeps.refl _ s
  have hm : sub 469987345 469987345 := by decide
  have ht := Host.Outcome.next.inj ht
  subst ht
  refine vOp3_keeps (sub.of (by decide) hm) ?_
  exact h

theorem execVxor_keeps {a0 : Nat} {a1 : BitVec 2} {a2 : Nat} {a3 : Nat} {a4 : Nat} {s : State} (ht : execVxor a0 a1 a2 a3 a4 s = .next t) : Keeps 469987345 s t := by
  have h : Keeps 469987345 s s := Keeps.refl _ s
  have hm : sub 469987345 469987345 := by decide
  have ht := Host.Outcome.next.inj ht
  subst ht
  refine vOp3_keeps (sub.of (by decide) hm) ?_
  exact h

theorem execVandn_keeps {a0 : Nat} {a1 : BitVec 2} {a2 : Nat} {a3 : Nat} {a4 : Nat} {s : State} (ht : execVandn a0 a1 a2 a3 a4 s = .next t) : Keeps 469987345 s t := by
  have h : Keeps 469987345 s s := Keeps.refl _ s
  have hm : sub 469987345 469987345 := by decide
  have ht := Host.Outcome.next.inj ht
  subst ht
  refine vOp3_keeps (sub.of (by decide) hm) ?_
  exact h

theorem execVcmpeq_keeps {a0 : Nat} {a1 : BitVec 2} {a2 : Nat} {a3 : Nat} {a4 : Nat} {s : State} (ht : execVcmpeq a0 a1 a2 a3 a4 s = .next t) : Keeps 469987345 s t := by
  have h : Keeps 469987345 s s := Keeps.refl _ s
  have hm : sub 469987345 469987345 := by decide
  have ht := Host.Outcome.next.inj ht
  subst ht
  refine vLanes_keeps (sub.of (by decide) hm) ?_
  exact h

theorem execVcmpgt_keeps {a0 : Nat} {a1 : BitVec 2} {a2 : Nat} {a3 : Nat} {a4 : Nat} {s : State} (ht : execVcmpgt a0 a1 a2 a3 a4 s = .next t) : Keeps 469987345 s t := by
  have h : Keeps 469987345 s s := Keeps.refl _ s
  have hm : sub 469987345 469987345 := by decide
  have ht := Host.Outcome.next.inj ht
  subst ht
  refine vLanes_keeps (sub.of (by decide) hm) ?_
  exact h

theorem execVcmpgtu_keeps {a0 : Nat} {a1 : BitVec 2} {a2 : Nat} {a3 : Nat} {a4 : Nat} {s : State} (ht : execVcmpgtu a0 a1 a2 a3 a4 s = .next t) : Keeps 469987345 s t := by
  have h : Keeps 469987345 s s := Keeps.refl _ s
  have hm : sub 469987345 469987345 := by decide
  have ht := Host.Outcome.next.inj ht
  subst ht
  refine vLanes_keeps (sub.of (by decide) hm) ?_
  exact h

theorem execVshl_keeps {a0 : Nat} {a1 : BitVec 2} {a2 : Nat} {a3 : Nat} {a4 : Nat} {s : State} (ht : execVshl a0 a1 a2 a3 a4 s = .next t) : Keeps 469987345 s t := by
  have h : Keeps 469987345 s s := Keeps.refl _ s
  have hm : sub 469987345 469987345 := by decide
  have ht := Host.Outcome.next.inj ht
  subst ht
  refine vShift_keeps (sub.of (by decide) hm) ?_
  exact h

theorem execVshr_keeps {a0 : Nat} {a1 : BitVec 2} {a2 : Nat} {a3 : Nat} {a4 : Nat} {s : State} (ht : execVshr a0 a1 a2 a3 a4 s = .next t) : Keeps 469987345 s t := by
  have h : Keeps 469987345 s s := Keeps.refl _ s
  have hm : sub 469987345 469987345 := by decide
  have ht := Host.Outcome.next.inj ht
  subst ht
  refine vShift_keeps (sub.of (by decide) hm) ?_
  exact h

theorem execVsra_keeps {a0 : Nat} {a1 : BitVec 2} {a2 : Nat} {a3 : Nat} {a4 : Nat} {s : State} (ht : execVsra a0 a1 a2 a3 a4 s = .next t) : Keeps 469987345 s t := by
  have h : Keeps 469987345 s s := Keeps.refl _ s
  have hm : sub 469987345 469987345 := by decide
  have ht := Host.Outcome.next.inj ht
  subst ht
  refine vShift_keeps (sub.of (by decide) hm) ?_
  exact h

theorem execVperm_keeps {a0 : Nat} {a1 : BitVec 2} {a2 : Nat} {a3 : Nat} {a4 : Nat} {s : State} (ht : execVperm a0 a1 a2 a3 a4 s = .next t) : Keeps 469987345 s t := by
  have h : Keeps 469987345 s s := Keeps.refl _ s
  have hm : sub 469987345 469987345 := by decide
  have ht := Host.Outcome.next.inj ht
  subst ht
  refine vOp3_keeps (sub.of (by decide) hm) ?_
  exact h

theorem execVbtr8_keeps {a0 : Nat} {a1 : BitVec 2} {a2 : Nat} {a3 : Nat} {s : State} (ht : execVbtr8 a0 a1 a2 a3 s = .next t) : Keeps 469987345 s t := by
  have h : Keeps 469987345 s s := Keeps.refl _ s
  have hm : sub 469987345 469987345 := by decide
  have ht := Host.Outcome.next.inj ht
  subst ht
  refine vOp2_keeps (sub.of (by decide) hm) ?_
  exact h

theorem execVext_keeps {a0 : Nat} {a1 : BitVec 2} {a2 : Nat} {a3 : Nat} {a4 : Nat} {s : State} (ht : execVext a0 a1 a2 a3 a4 s = .next t) : Keeps 469987345 s t := by
  have h : Keeps 469987345 s s := Keeps.refl _ s
  have hm : sub 469987345 469987345 := by decide
  have ht := Host.Outcome.next.inj ht
  subst ht
  refine gOfV_keeps (sub.of (by decide) hm) ?_
  exact h

theorem execVins_keeps {a0 : Nat} {a1 : BitVec 2} {a2 : Nat} {a3 : Nat} {a4 : Nat} {s : State} (ht : execVins a0 a1 a2 a3 a4 s = .next t) : Keeps 469987345 s t := by
  have h : Keeps 469987345 s s := Keeps.refl _ s
  have hm : sub 469987345 469987345 := by decide
  have ht := Host.Outcome.next.inj ht
  subst ht
  refine issue_keeps (sub.of (by decide) hm) (fun x0 hx0 => ?_) ?_
  · refine retireNext_keeps (sub.of (by decide) hm) ?_
    refine setV_keeps (sub.of (by decide) hm) ?_
    exact hx0
  · exact h

theorem execVsplat_keeps {a0 : Nat} {a1 : BitVec 2} {a2 : Nat} {a3 : Nat} {s : State} (ht : execVsplat a0 a1 a2 a3 s = .next t) : Keeps 469987345 s t := by
  have h : Keeps 469987345 s s := Keeps.refl _ s
  have hm : sub 469987345 469987345 := by decide
  have ht := Host.Outcome.next.inj ht
  subst ht
  refine issue_keeps (sub.of (by decide) hm) (fun x0 hx0 => ?_) ?_
  · refine retireNext_keeps (sub.of (by decide) hm) ?_
    refine setV_keeps (sub.of (by decide) hm) ?_
    exact hx0
  · exact h

theorem execVslb_keeps {a0 : Nat} {a1 : BitVec 2} {a2 : Nat} {a3 : Nat} {a4 : Nat} {s : State} (ht : execVslb a0 a1 a2 a3 a4 s = .next t) : Keeps 469987345 s t := by
  have h : Keeps 469987345 s s := Keeps.refl _ s
  have hm : sub 469987345 469987345 := by decide
  have ht := Host.Outcome.next.inj ht
  subst ht
  refine vOp2_keeps (sub.of (by decide) hm) ?_
  exact h

theorem execVsrb_keeps {a0 : Nat} {a1 : BitVec 2} {a2 : Nat} {a3 : Nat} {a4 : Nat} {s : State} (ht : execVsrb a0 a1 a2 a3 a4 s = .next t) : Keeps 469987345 s t := by
  have h : Keeps 469987345 s s := Keeps.refl _ s
  have hm : sub 469987345 469987345 := by decide
  have ht := Host.Outcome.next.inj ht
  subst ht
  refine vOp2_keeps (sub.of (by decide) hm) ?_
  exact h

theorem execVsel_keeps {a0 : Nat} {a1 : BitVec 2} {a2 : Nat} {a3 : Nat} {a4 : Nat} {s : State} (ht : execVsel a0 a1 a2 a3 a4 s = .next t) : Keeps 469987345 s t := by
  have h : Keeps 469987345 s s := Keeps.refl _ s
  have hm : sub 469987345 469987345 := by decide
  have ht := Host.Outcome.next.inj ht
  subst ht
  refine vAcc_keeps (sub.of (by decide) hm) ?_
  exact h

theorem execVhsum_keeps {a0 : Nat} {a1 : BitVec 2} {a2 : Nat} {a3 : Nat} {s : State} (ht : execVhsum a0 a1 a2 a3 s = .next t) : Keeps 469987345 s t := by
  have h : Keeps 469987345 s s := Keeps.refl _ s
  have hm : sub 469987345 469987345 := by decide
  have ht := Host.Outcome.next.inj ht
  subst ht
  refine gOfV_keeps (sub.of (by decide) hm) ?_
  exact h

theorem execVht1_keeps {a0 : Nat} {a1 : BitVec 2} {a2 : Nat} {a3 : Nat} {a4 : Nat} {s : State} (ht : execVht1 a0 a1 a2 a3 a4 s = .next t) : Keeps 469987345 s t := by
  have h : Keeps 469987345 s s := Keeps.refl _ s
  have hm : sub 469987345 469987345 := by decide
  have ht := Host.Outcome.next.inj ht
  subst ht
  refine gOfV2_keeps (sub.of (by decide) hm) ?_
  exact h

theorem execVht2_keeps {a0 : Nat} {a1 : BitVec 2} {a2 : Nat} {a3 : Nat} {a4 : Nat} {s : State} (ht : execVht2 a0 a1 a2 a3 a4 s = .next t) : Keeps 469987345 s t := by
  have h : Keeps 469987345 s s := Keeps.refl _ s
  have hm : sub 469987345 469987345 := by decide
  have ht := Host.Outcome.next.inj ht
  subst ht
  refine gOfV2_keeps (sub.of (by decide) hm) ?_
  exact h

theorem execVgfmul_keeps {a0 : Nat} {a1 : BitVec 2} {a2 : BitVec 2} {a3 : Nat} {a4 : Nat} {a5 : Nat} {s : State} (ht : execVgfmul a0 a1 a2 a3 a4 a5 s = .next t) : Keeps 469987345 s t := by
  have h : Keeps 469987345 s s := Keeps.refl _ s
  have hm : sub 469987345 469987345 := by decide
  have ht := Host.Outcome.next.inj ht
  subst ht
  refine vOp3_keeps (sub.of (by decide) hm) ?_
  exact h

theorem execVgfmac_keeps {a0 : Nat} {a1 : BitVec 2} {a2 : BitVec 2} {a3 : Nat} {a4 : Nat} {a5 : Nat} {s : State} (ht : execVgfmac a0 a1 a2 a3 a4 a5 s = .next t) : Keeps 469987345 s t := by
  have h : Keeps 469987345 s s := Keeps.refl _ s
  have hm : sub 469987345 469987345 := by decide
  have ht := Host.Outcome.next.inj ht
  subst ht
  refine vAcc_keeps (sub.of (by decide) hm) ?_
  exact h

theorem execVgfmacs_keeps {a0 : Nat} {a1 : BitVec 2} {a2 : BitVec 2} {a3 : Nat} {a4 : Nat} {a5 : Nat} {s : State} (ht : execVgfmacs a0 a1 a2 a3 a4 a5 s = .next t) : Keeps 469987345 s t := by
  have h : Keeps 469987345 s s := Keeps.refl _ s
  have hm : sub 469987345 469987345 := by decide
  have ht := Host.Outcome.next.inj ht
  subst ht
  refine issue_keeps (sub.of (by decide) hm) (fun x0 hx0 => ?_) ?_
  · refine retireNext_keeps (sub.of (by decide) hm) ?_
    refine setV_keeps (sub.of (by decide) hm) ?_
    exact hx0
  · exact h

theorem execBr_keeps {a0 : Nat} {a1 : Nat} {a2 : BitVec 20} {s : State} (ht : execBr a0 a1 a2 s = .next t) : Keeps 469987345 s t := by
  have h : Keeps 469987345 s s := Keeps.refl _ s
  have hm : sub 469987345 469987345 := by decide
  have ht := Host.Outcome.next.inj ht
  subst ht
  refine branchOn_keeps (sub.of (by decide) hm) ?_
  exact h

theorem execBrf_keeps {a0 : Nat} {a1 : Nat} {a2 : BitVec 20} {s : State} (ht : execBrf a0 a1 a2 s = .next t) : Keeps 469987345 s t := by
  have h : Keeps 469987345 s s := Keeps.refl _ s
  have hm : sub 469987345 469987345 := by decide
  have ht := Host.Outcome.next.inj ht
  subst ht
  refine branchOn_keeps (sub.of (by decide) hm) ?_
  exact h

theorem execBra_keeps {a0 : Nat} {a1 : BitVec 20} {s : State} (ht : execBra a0 a1 s = .next t) : Keeps 469987345 s t := by
  have h : Keeps 469987345 s s := Keeps.refl _ s
  have hm : sub 469987345 469987345 := by decide
  have ht := Host.Outcome.next.inj ht
  subst ht
  refine issue_keeps (sub.of (by decide) hm) (fun x0 hx0 => ?_) ?_
  · refine retireTo_keeps (sub.of (by decide) hm) ?_
    exact hx0
  · exact h

theorem execCall_keeps {a0 : Nat} {a1 : BitVec 20} {s : State} (ht : execCall a0 a1 s = .next t) : Keeps 469987345 s t := by
  have h : Keeps 469987345 s s := Keeps.refl _ s
  have hm : sub 469987345 469987345 := by decide
  have ht := Host.Outcome.next.inj ht
  subst ht
  refine issue_keeps (sub.of (by decide) hm) (fun x0 hx0 => ?_) ?_
  · refine retireTo_keeps (sub.of (by decide) hm) ?_
    refine setA_keeps (sub.of (by decide) hm) ?_
    exact hx0
  · exact h

theorem execJr_keeps {a0 : Nat} {a1 : Nat} {s : State} (ht : execJr a0 a1 s = .next t) : Keeps 469987345 s t := by
  have h : Keeps 469987345 s s := Keeps.refl _ s
  have hm : sub 469987345 469987345 := by decide
  have ht := Host.Outcome.next.inj ht
  subst ht
  refine issue_keeps (sub.of (by decide) hm) (fun x0 hx0 => ?_) ?_
  · refine retireTo_keeps (sub.of (by decide) hm) ?_
    exact hx0
  · exact h

theorem execJalr_keeps {a0 : Nat} {a1 : Nat} {a2 : Nat} {s : State} (ht : execJalr a0 a1 a2 s = .next t) : Keeps 469987345 s t := by
  have h : Keeps 469987345 s s := Keeps.refl _ s
  have hm : sub 469987345 469987345 := by decide
  have ht := Host.Outcome.next.inj ht
  subst ht
  refine issue_keeps (sub.of (by decide) hm) (fun x0 hx0 => ?_) ?_
  · refine retireTo_keeps (sub.of (by decide) hm) ?_
    refine setA_keeps (sub.of (by decide) hm) ?_
    exact hx0
  · exact h

theorem execQget_keeps {a0 : Nat} {a1 : Nat} {a2 : Nat} {a3 : Bool} {s : State} (ht : execQget a0 a1 a2 a3 s = .next t) : Keeps 470020121 s t := by
  have h : Keeps 470020121 s s := Keeps.refl _ s
  have hm : sub 470020121 470020121 := by decide
  have ht := Host.Outcome.next.inj ht
  subst ht
  refine issue_keeps (sub.of (by decide) hm) (fun x0 hx0 => ?_) ?_
  · refine beginQget_keeps (sub.of (by decide) hm) ?_
    exact hx0
  · exact h

theorem execQput_keeps {a0 : Nat} {a1 : Nat} {a2 : Nat} {s : State} (ht : execQput a0 a1 a2 s = .next t) : Keeps 2122317823 s t := by
  have h : Keeps 2122317823 s s := Keeps.refl _ s
  have hm : sub 2122317823 2122317823 := by decide
  have ht := Host.Outcome.next.inj ht
  subst ht
  refine issue_keeps (sub.of (by decide) hm) (fun x0 hx0 => ?_) ?_
  · refine afterStores_keeps (sub.of (by decide) hm) (fun x1 hx1 => ?_) ?_
    · refine beginQput_keeps (sub.of (by decide) hm) ?_
      exact hx1
    · exact hx0
  · refine qputAsk_keeps (sub.of (by decide) hm) ?_
    exact h

theorem execQsteal_keeps {a0 : Nat} {a1 : Nat} {s : State} (ht : execQsteal a0 a1 s = .next t) : Keeps 469987345 s t := by
  have h : Keeps 469987345 s s := Keeps.refl _ s
  have hm : sub 469987345 469987345 := by decide
  have ht := Host.Outcome.next.inj ht
  subst ht
  refine issue_keeps (sub.of (by decide) hm) (fun x0 hx0 => ?_) ?_
  · extract_lets +onlyGivenNames -merge -useContext x1
    try clear_value x1
    refine retireNext_keeps (sub.of (by decide) hm) ?_
    refine State.setEng_keeps (sub.of (by decide) hm) ?_
    exact hx0
  · exact h

theorem execQdone_keeps {a0 : Nat} {a1 : Nat} {s : State} (ht : execQdone a0 a1 s = .next t) : Keeps 2122317823 s t := by
  have h : Keeps 2122317823 s s := Keeps.refl _ s
  have hm : sub 2122317823 2122317823 := by decide
  have ht := Host.Outcome.next.inj ht
  subst ht
  refine issue_keeps (sub.of (by decide) hm) (fun x0 hx0 => ?_) ?_
  · refine withJob_keeps (sub.of (by decide) hm) (fun x1 hx1 => ?_) ?_
    · refine beginQdone_keeps (sub.of (by decide) hm) ?_
      exact hx1
    · exact hx0
  · exact h

theorem execQfail_keeps {a0 : Nat} {a1 : Nat} {a2 : Nat} {s : State} (ht : execQfail a0 a1 a2 s = .next t) : Keeps 2122317823 s t := by
  have h : Keeps 2122317823 s s := Keeps.refl _ s
  have hm : sub 2122317823 2122317823 := by decide
  have ht := Host.Outcome.next.inj ht
  subst ht
  refine issue_keeps (sub.of (by decide) hm) (fun x0 hx0 => ?_) ?_
  · refine withJob_keeps (sub.of (by decide) hm) (fun x1 hx1 => ?_) ?_
    · refine beginQfail_keeps (sub.of (by decide) hm) ?_
      exact hx1
    · exact hx0
  · exact h

theorem execCarmT_keeps {a0 : Nat} {a1 : Nat} {a2 : Nat} {s : State} (ht : execCarmT a0 a1 a2 s = .next t) : Keeps 1006858257 s t := by
  have h : Keeps 1006858257 s s := Keeps.refl _ s
  have hm : sub 1006858257 1006858257 := by decide
  have ht := Host.Outcome.next.inj ht
  subst ht
  refine carm_keeps (sub.of (by decide) hm) ?_
  exact h

theorem execCarmP_keeps {a0 : Nat} {a1 : Nat} {a2 : Nat} {s : State} (ht : execCarmP a0 a1 a2 s = .next t) : Keeps 1006858257 s t := by
  have h : Keeps 1006858257 s s := Keeps.refl _ s
  have hm : sub 1006858257 1006858257 := by decide
  have ht := Host.Outcome.next.inj ht
  subst ht
  refine carm_keeps (sub.of (by decide) hm) ?_
  exact h

theorem execCdisarm_keeps {a0 : Nat} {a1 : Nat} {a2 : Nat} {s : State} (ht : execCdisarm a0 a1 a2 s = .next t) : Keeps 469987409 s t := by
  have h : Keeps 469987409 s s := Keeps.refl _ s
  have hm : sub 469987409 469987409 := by decide
  have ht := Host.Outcome.next.inj ht
  subst ht
  refine issue_keeps (sub.of (by decide) hm) (fun x0 hx0 => ?_) ?_
  · extract_lets +onlyGivenNames -merge -useContext x1
    try clear_value x1
    split
    · rename_i z2 z3 e4
      have hz3 : Keeps 469987409 s z3 := by
        have q : _ = z3 := congrArg Prod.snd e4
        rw [← q]
        refine disarmMask_keeps (sub.of (by decide) hm) ?_
        exact hx0
      refine addAnswer_keeps (sub.of (by decide) hm) ?_
      exact hz3
  · exact h

theorem execTwait_keeps {a0 : Nat} {a1 : Nat} {s : State} (ht : execTwait a0 a1 s = .next t) : Keeps 469987345 s t := by
  have h : Keeps 469987345 s s := Keeps.refl _ s
  have hm : sub 469987345 469987345 := by decide
  have ht := Host.Outcome.next.inj ht
  subst ht
  refine issue_keeps (sub.of (by decide) hm) (fun x0 hx0 => ?_) ?_
  · refine beginTwait_keeps (sub.of (by decide) hm) ?_
    exact hx0
  · exact h

theorem execDlset_keeps {a0 : Nat} {a1 : Nat} {s : State} (ht : execDlset a0 a1 s = .next t) : Keeps 469987345 s t := by
  have h : Keeps 469987345 s s := Keeps.refl _ s
  have hm : sub 469987345 469987345 := by decide
  have ht := Host.Outcome.next.inj ht
  subst ht
  refine issue_keeps (sub.of (by decide) hm) (fun x0 hx0 => ?_) ?_
  · refine beginDlset_keeps (sub.of (by decide) hm) ?_
    exact hx0
  · exact h

theorem execEwait_keeps {a0 : Nat} {a1 : Nat} {a2 : Nat} {s : State} (ht : execEwait a0 a1 a2 s = .next t) : Keeps 469987345 s t := by
  have h : Keeps 469987345 s s := Keeps.refl _ s
  have hm : sub 469987345 469987345 := by decide
  have ht := Host.Outcome.next.inj ht
  subst ht
  refine issue_keeps (sub.of (by decide) hm) (fun x0 hx0 => ?_) ?_
  · refine beginEwait_keeps (sub.of (by decide) hm) ?_
    exact hx0
  · exact h

theorem execRaise_keeps {a0 : Nat} {a1 : Nat} {s : State} (ht : execRaise a0 a1 s = .next t) : Keeps 2122317823 s t := by
  have h : Keeps 2122317823 s s := Keeps.refl _ s
  have hm : sub 2122317823 2122317823 := by decide
  have ht := Host.Outcome.next.inj ht
  subst ht
  refine issue_keeps (sub.of (by decide) hm) (fun x0 hx0 => ?_) ?_
  · refine beginRaise_keeps (sub.of (by decide) hm) ?_
    exact hx0
  · exact h

theorem execMfsr_keeps {a0 : Nat} {a1 : Nat} {a2 : Nat} {s : State} (ht : execMfsr a0 a1 a2 s = .next t) : Keeps 469987345 s t := by
  have h : Keeps 469987345 s s := Keeps.refl _ s
  have hm : sub 469987345 469987345 := by decide
  have ht := Host.Outcome.next.inj ht
  subst ht
  refine issue_keeps (sub.of (by decide) hm) (fun x0 hx0 => ?_) ?_
  · refine beginMfsr_keeps (sub.of (by decide) hm) ?_
    exact hx0
  · exact h

theorem execMtsr_keeps {a0 : Nat} {a1 : Nat} {a2 : Nat} {s : State} (ht : execMtsr a0 a1 a2 s = .next t) : Keeps 469987409 s t := by
  have h : Keeps 469987409 s s := Keeps.refl _ s
  have hm : sub 469987409 469987409 := by decide
  have ht := Host.Outcome.next.inj ht
  subst ht
  refine issue_keeps (sub.of (by decide) hm) (fun x0 hx0 => ?_) ?_
  · refine beginMtsr_keeps (sub.of (by decide) hm) ?_
    exact hx0
  · exact h

theorem execFenceL_keeps {a0 : Nat} {s : State} (ht : execFenceL a0 s = .next t) : Keeps 2122317823 s t := by
  have h : Keeps 2122317823 s s := Keeps.refl _ s
  have hm : sub 2122317823 2122317823 := by decide
  have ht := Host.Outcome.next.inj ht
  subst ht
  refine issue_keeps (sub.of (by decide) hm) (fun x0 hx0 => ?_) ?_
  · refine afterStores_keeps (sub.of (by decide) hm) (fun x1 hx1 => ?_) ?_
    · refine retireNext_keeps (sub.of (by decide) hm) ?_
      exact hx1
    · exact hx0
  · exact h

theorem execFenceS_keeps {a0 : Nat} {s : State} (ht : execFenceS a0 s = .next t) : Keeps 2122317823 s t := by
  have h : Keeps 2122317823 s s := Keeps.refl _ s
  have hm : sub 2122317823 2122317823 := by decide
  have ht := Host.Outcome.next.inj ht
  subst ht
  refine issue_keeps (sub.of (by decide) hm) (fun x0 hx0 => ?_) ?_
  · refine afterStores_keeps (sub.of (by decide) hm) (fun x1 hx1 => ?_) ?_
    · refine retireNext_keeps (sub.of (by decide) hm) ?_
      exact hx1
    · exact hx0
  · exact h

theorem execFenceI_keeps {a0 : Nat} {s : State} (ht : execFenceI a0 s = .next t) : Keeps 469987345 s t := by
  have h : Keeps 469987345 s s := Keeps.refl _ s
  have hm : sub 469987345 469987345 := by decide
  have ht := Host.Outcome.next.inj ht
  subst ht
  refine issue_keeps (sub.of (by decide) hm) (fun x0 hx0 => ?_) ?_
  · extract_lets +onlyGivenNames -merge -useContext x1
    try clear_value x1
    refine retireNext_keeps (sub.of (by decide) hm) ?_
    refine State.setEng_keeps (sub.of (by decide) hm) ?_
    exact hx0
  · exact h

theorem execIinv_keeps {a0 : Nat} {s : State} (ht : execIinv a0 s = .next t) : Keeps 469987345 s t := by
  have h : Keeps 469987345 s s := Keeps.refl _ s
  have hm : sub 469987345 469987345 := by decide
  have ht := Host.Outcome.next.inj ht
  subst ht
  refine issue_keeps (sub.of (by decide) hm) (fun x0 hx0 => ?_) ?_
  · refine superOnlyOp_keeps (sub.of (by decide) hm) (fun x1 hx1 => ?_) ?_
    · refine doIinv_keeps (sub.of (by decide) hm) ?_
      exact hx1
    · exact hx0
  · exact h

theorem execPark_keeps {a0 : Nat} {s : State} (ht : execPark a0 s = .next t) : Keeps 469987345 s t := by
  have h : Keeps 469987345 s s := Keeps.refl _ s
  have hm : sub 469987345 469987345 := by decide
  have ht := Host.Outcome.next.inj ht
  subst ht
  refine issue_keeps (sub.of (by decide) hm) (fun x0 hx0 => ?_) ?_
  · refine superOnlyOp_keeps (sub.of (by decide) hm) (fun x1 hx1 => ?_) ?_
    · refine doPark_keeps (sub.of (by decide) hm) ?_
      exact hx1
    · exact hx0
  · exact h

theorem execEret_keeps {a0 : Nat} {s : State} (ht : execEret a0 s = .next t) : Keeps 469987345 s t := by
  have h : Keeps 469987345 s s := Keeps.refl _ s
  have hm : sub 469987345 469987345 := by decide
  have ht := Host.Outcome.next.inj ht
  subst ht
  refine issue_keeps (sub.of (by decide) hm) (fun x0 hx0 => ?_) ?_
  · refine superOnlyOp_keeps (sub.of (by decide) hm) (fun x1 hx1 => ?_) ?_
    · refine doEret_keeps (sub.of (by decide) hm) ?_
      exact hx1
    · exact hx0
  · exact h

theorem execTrap_keeps {a0 : Nat} {a1 : Byte} {s : State} (ht : execTrap a0 a1 s = .next t) : Keeps 469987345 s t := by
  have h : Keeps 469987345 s s := Keeps.refl _ s
  have hm : sub 469987345 469987345 := by decide
  have ht := Host.Outcome.next.inj ht
  subst ht
  refine issue_keeps (sub.of (by decide) hm) (fun x0 hx0 => ?_) ?_
  · refine syncExc_keeps (sub.of (by decide) hm) ?_
    exact hx0
  · exact h

theorem execBrk_keeps {a0 : Nat} {s : State} (ht : execBrk a0 s = .next t) : Keeps 469987345 s t := by
  have h : Keeps 469987345 s s := Keeps.refl _ s
  have hm : sub 469987345 469987345 := by decide
  have ht := Host.Outcome.next.inj ht
  subst ht
  refine issue_keeps (sub.of (by decide) hm) (fun x0 hx0 => ?_) ?_
  · refine doBrk_keeps (sub.of (by decide) hm) ?_
    exact hx0
  · exact h

theorem execDmawait_keeps {a0 : Nat} {a1 : Nat} {a2 : Nat} {s : State} (ht : execDmawait a0 a1 a2 s = .next t) : Keeps 469987345 s t := by
  have h : Keeps 469987345 s s := Keeps.refl _ s
  have hm : sub 469987345 469987345 := by decide
  have ht := Host.Outcome.next.inj ht
  subst ht
  refine issue_keeps (sub.of (by decide) hm) (fun x0 hx0 => ?_) ?_
  · refine beginDmawait_keeps (sub.of (by decide) hm) ?_
    exact hx0
  · exact h

theorem execExceptionEntry_keeps {a0 : Nat} {s : State} (ht : execExceptionEntry a0 s = .next t) : Keeps 16384 s t := by
  have h : Keeps 16384 s s := Keeps.refl _ s
  have hm : sub 16384 16384 := by decide
  have ht := Host.Outcome.next.inj ht
  subst ht
  refine takePending_keeps (sub.of (by decide) hm) ?_
  exact h

theorem execLoadReturn_keeps {a0 : Nat} {a1 : Nat} {a2 : Bool} {s : State} (ht : execLoadReturn a0 a1 a2 s = .next t) : Keeps 1545826579 s t := by
  have h : Keeps 1545826579 s s := Keeps.refl _ s
  have hm : sub 1545826579 1545826579 := by decide
  have ht := Host.Outcome.next.inj ht
  subst ht
  refine loadReturn_keeps (sub.of (by decide) hm) ?_
  exact h

theorem execStoreAcknowledge_keeps {a0 : Nat} {a1 : Probe} {s : State} (ht : execStoreAcknowledge a0 a1 s = .next t) : Keeps 2122317823 s t := by
  have h : Keeps 2122317823 s s := Keeps.refl _ s
  have hm : sub 2122317823 2122317823 := by decide
  have ht := Host.Outcome.next.inj ht
  subst ht
  refine storeAck_keeps (sub.of (by decide) hm) ?_
  exact h

theorem execIcacheRefill_keeps {a0 : Nat} {a1 : Nat} {a2 : Probe} {s : State} (ht : execIcacheRefill a0 a1 a2 s = .next t) : Keeps 469987345 s t := by
  have h : Keeps 469987345 s s := Keeps.refl _ s
  have hm : sub 469987345 469987345 := by decide
  have ht := Host.Outcome.next.inj ht
  subst ht
  refine onEngine_keeps (sub.of (by decide) hm) (fun x0 hx0 => ?_) ?_
  · refine refill_keeps (sub.of (by decide) hm) ?_
    exact hx0
  · exact h

theorem execAnswerReturn_keeps {a0 : Nat} {s : State} (ht : execAnswerReturn a0 s = .next t) : Keeps 16384 s t := by
  have h : Keeps 16384 s s := Keeps.refl _ s
  have hm : sub 16384 16384 := by decide
  have ht := Host.Outcome.next.inj ht
  subst ht
  refine answerBack_keeps (sub.of (by decide) hm) ?_
  exact h

theorem execTwaitSatisfied_keeps {a0 : Nat} {s : State} (ht : execTwaitSatisfied a0 s = .next t) : Keeps 16385 s t := by
  have h : Keeps 16385 s s := Keeps.refl _ s
  have hm : sub 16385 16385 := by decide
  have ht := Host.Outcome.next.inj ht
  subst ht
  refine twaitEnd_keeps (sub.of (by decide) hm) ?_
  exact h

theorem execEwaitSatisfied_keeps {a0 : Nat} {s : State} (ht : execEwaitSatisfied a0 s = .next t) : Keeps 16385 s t := by
  have h : Keeps 16385 s s := Keeps.refl _ s
  have hm : sub 16385 16385 := by decide
  have ht := Host.Outcome.next.inj ht
  subst ht
  refine ewaitEnd_keeps (sub.of (by decide) hm) ?_
  exact h

theorem execQgetTimeout_keeps {a0 : Nat} {s : State} (ht : execQgetTimeout a0 s = .next t) : Keeps 16385 s t := by
  have h : Keeps 16385 s s := Keeps.refl _ s
  have hm : sub 16385 16385 := by decide
  have ht := Host.Outcome.next.inj ht
  subst ht
  refine qgetTimeout_keeps (sub.of (by decide) hm) ?_
  exact h

theorem execDmaComplete_keeps {a0 : Sweep} {s : State} (ht : execDmaComplete a0 s = .next t) : Keeps 472085535 s t := by
  have h : Keeps 472085535 s s := Keeps.refl _ s
  have hm : sub 472085535 472085535 := by decide
  have ht := Host.Outcome.next.inj ht
  subst ht
  refine dmaStep_keeps (sub.of (by decide) hm) ?_
  exact h

theorem execDmawaitReturn_keeps {a0 : Nat} {s : State} (ht : execDmawaitReturn a0 s = .next t) : Keeps 16385 s t := by
  have h : Keeps 16385 s s := Keeps.refl _ s
  have hm : sub 16385 16385 := by decide
  have ht := Host.Outcome.next.inj ht
  subst ht
  refine dmawaitEnd_keeps (sub.of (by decide) hm) ?_
  exact h

theorem execEngineCueTimer_keeps {a0 : Nat} {s : State} (ht : execEngineCueTimer a0 s = .next t) : Keeps 201343041 s t := by
  have h : Keeps 201343041 s s := Keeps.refl _ s
  have hm : sub 201343041 201343041 := by decide
  have ht := Host.Outcome.next.inj ht
  subst ht
  refine cueTimer_keeps (sub.of (by decide) hm) ?_
  exact h

theorem execDeadlineWatchFire_keeps {a0 : Nat} {s : State} (ht : execDeadlineWatchFire a0 s = .next t) : Keeps 201342977 s t := by
  have h : Keeps 201342977 s s := Keeps.refl _ s
  have hm : sub 201342977 201342977 := by decide
  have ht := Host.Outcome.next.inj ht
  subst ht
  refine watchFire_keeps (sub.of (by decide) hm) ?_
  exact h

theorem execWatchdogExpiry_keeps {a0 : Nat} {s : State} (ht : execWatchdogExpiry a0 s = .next t) : Keeps 201342977 s t := by
  have h : Keeps 201342977 s s := Keeps.refl _ s
  have hm : sub 201342977 201342977 := by decide
  have ht := Host.Outcome.next.inj ht
  subst ht
  refine onEngine_keeps (sub.of (by decide) hm) (fun x0 hx0 => ?_) ?_
  · refine wdogExpire_keeps (sub.of (by decide) hm) ?_
    exact hx0
  · exact h

theorem execEngineFault_keeps {a0 : Nat} {s : State} (ht : execEngineFault a0 s = .next t) : Keeps 16384 s t := by
  have h : Keeps 16384 s s := Keeps.refl _ s
  have hm : sub 16384 16384 := by decide
  have ht := Host.Outcome.next.inj ht
  subst ht
  refine onEngine_keeps (sub.of (by decide) hm) (fun x0 hx0 => ?_) ?_
  · refine parityFault_keeps (sub.of (by decide) hm) ?_
    exact hx0
  · exact h

theorem execEngineStart_keeps {a0 : Nat} {a1 : Word} {s : State} (ht : execEngineStart a0 a1 s = .next t) : Keeps 469778433 s t := by
  have h : Keeps 469778433 s s := Keeps.refl _ s
  have hm : sub 469778433 469778433 := by decide
  have ht := Host.Outcome.next.inj ht
  subst ht
  refine onEngine_keeps (sub.of (by decide) hm) (fun x0 hx0 => ?_) ?_
  · refine writeMeCtl_keeps (sub.of (by decide) hm) ?_
    exact hx0
  · exact h

theorem execEngineReset_keeps {a0 : Nat} {a1 : Word} {s : State} (ht : execEngineReset a0 a1 s = .next t) : Keeps 469778433 s t := by
  have h : Keeps 469778433 s s := Keeps.refl _ s
  have hm : sub 469778433 469778433 := by decide
  have ht := Host.Outcome.next.inj ht
  subst ht
  refine onEngine_keeps (sub.of (by decide) hm) (fun x0 hx0 => ?_) ?_
  · refine writeMeCtl_keeps (sub.of (by decide) hm) ?_
    exact hx0
  · exact h

theorem execForceFault_keeps {a0 : Nat} {a1 : Word} {s : State} (ht : execForceFault a0 a1 s = .next t) : Keeps 469778433 s t := by
  have h : Keeps 469778433 s s := Keeps.refl _ s
  have hm : sub 469778433 469778433 := by decide
  have ht := Host.Outcome.next.inj ht
  subst ht
  refine onEngine_keeps (sub.of (by decide) hm) (fun x0 hx0 => ?_) ?_
  · refine writeMeCtl_keeps (sub.of (by decide) hm) ?_
    exact hx0
  · exact h

theorem execUnlock_keeps {a0 : Nat} {a1 : Word} {s : State} (ht : execUnlock a0 a1 s = .next t) : Keeps 469778433 s t := by
  have h : Keeps 469778433 s s := Keeps.refl _ s
  have hm : sub 469778433 469778433 := by decide
  have ht := Host.Outcome.next.inj ht
  subst ht
  refine onEngine_keeps (sub.of (by decide) hm) (fun x0 hx0 => ?_) ?_
  · refine writeMeCtl_keeps (sub.of (by decide) hm) ?_
    exact hx0
  · exact h

theorem execHalt_keeps {a0 : Nat} {a1 : Word} {s : State} (ht : execHalt a0 a1 s = .next t) : Keeps 201342977 s t := by
  have h : Keeps 201342977 s s := Keeps.refl _ s
  have hm : sub 201342977 201342977 := by decide
  have ht := Host.Outcome.next.inj ht
  subst ht
  refine onEngine_keeps (sub.of (by decide) hm) (fun x0 hx0 => ?_) ?_
  · refine writeDbgCtl_keeps (sub.of (by decide) hm) ?_
    exact hx0
  · exact h

theorem execStep_keeps {a0 : Nat} {a1 : Word} {s : State} (ht : execStep a0 a1 s = .next t) : Keeps 201342977 s t := by
  have h : Keeps 201342977 s s := Keeps.refl _ s
  have hm : sub 201342977 201342977 := by decide
  have ht := Host.Outcome.next.inj ht
  subst ht
  refine onEngine_keeps (sub.of (by decide) hm) (fun x0 hx0 => ?_) ?_
  · refine writeDbgCtl_keeps (sub.of (by decide) hm) ?_
    exact hx0
  · exact h

theorem execResume_keeps {a0 : Nat} {a1 : Word} {s : State} (ht : execResume a0 a1 s = .next t) : Keeps 201342977 s t := by
  have h : Keeps 201342977 s s := Keeps.refl _ s
  have hm : sub 201342977 201342977 := by decide
  have ht := Host.Outcome.next.inj ht
  subst ht
  refine onEngine_keeps (sub.of (by decide) hm) (fun x0 hx0 => ?_) ?_
  · refine writeDbgCtl_keeps (sub.of (by decide) hm) ?_
    exact hx0
  · exact h

theorem execBreakpointHit_keeps {a0 : Nat} {a1 : Nat} {s : State} (ht : execBreakpointHit a0 a1 s = .next t) : Keeps 16384 s t := by
  have h : Keeps 16384 s s := Keeps.refl _ s
  have hm : sub 16384 16384 := by decide
  have ht := Host.Outcome.next.inj ht
  subst ht
  refine onEngine_keeps (sub.of (by decide) hm) (fun x0 hx0 => ?_) ?_
  · refine breakHit_keeps (sub.of (by decide) hm) ?_
    exact hx0
  · exact h

theorem execPerfCountRead_keeps {a0 : Req} {a1 : Nat} {a2 : Bool} {s : State} (ht : execPerfCountRead a0 a1 a2 s = .next t) :
    Keeps 5 s t := by
  have h : Keeps 5 s s := Keeps.refl _ s
  obtain rfl : (if a1 < 192 then (readClear (if a2 then Reg.ME_PERF_STALL a1 else Reg.ME_PERF_ISSUE a1)
      (if a2 then F.ME_PERF_STALL_Count else F.ME_PERF_ISSUE_Count) s).2.give a0 [(readClear (if a2 then Reg.ME_PERF_STALL a1 else Reg.ME_PERF_ISSUE a1)
      (if a2 then F.ME_PERF_STALL_Count else F.ME_PERF_ISSUE_Count) s).1] else s) = t := Host.Outcome.next.inj ht
  exact keeps_ite (fun _ => State.give_keeps (by decide) (readClear_keeps (by decide) h)) (fun _ => h)

theorem execJobDelivery_keeps {a0 : Probe} {s : State} (ht : execJobDelivery a0 s = .next t) : Keeps 470020121 s t := by
  have h : Keeps 470020121 s s := Keeps.refl _ s
  have hm : sub 470020121 470020121 := by decide
  have ht := Host.Outcome.next.inj ht
  subst ht
  refine brokerAct_keeps (sub.of (by decide) hm) ?_
  exact h

theorem execHostPostGo_keeps {a0 : Req} {a1 : Nat} {a2 : Word} {s : State} (ht : execHostPostGo a0 a1 a2 s = .next t) : Keeps 738213891 s t := by
  have h : Keeps 738213891 s s := Keeps.refl _ s
  have hm : sub 738213891 738213891 := by decide
  have ht := Host.Outcome.next.inj ht
  subst ht
  refine hostPost_keeps (sub.of (by decide) hm) ?_
  exact h

theorem execMissDetection_keeps {a0 : Nat} {a1 : Nat} {s : State} (ht : execMissDetection a0 a1 s = .next t) : Keeps 469884953 s t := by
  have h : Keeps 469884953 s s := Keeps.refl _ s
  have hm : sub 469884953 469884953 := by decide
  have ht := Host.Outcome.next.inj ht
  subst ht
  refine missDetect_keeps (sub.of (by decide) hm) ?_
  exact h

theorem execFallbackPost_keeps {a0 : Nat} {s : State} (ht : execFallbackPost a0 s = .next t) : Keeps 536903680 s t := by
  have h : Keeps 536903680 s s := Keeps.refl _ s
  have hm : sub 536903680 536903680 := by decide
  have ht := Host.Outcome.next.inj ht
  subst ht
  refine fallbackPost_keeps (sub.of (by decide) hm) ?_
  exact h

theorem execJobReturn_keeps {a0 : Nat} {s : State} (ht : execJobReturn a0 s = .next t) : Keeps 469884953 s t := by
  have h : Keeps 469884953 s s := Keeps.refl _ s
  have hm : sub 469884953 469884953 := by decide
  have ht := Host.Outcome.next.inj ht
  subst ht
  refine returnJob_keeps (sub.of (by decide) hm) ?_
  exact h

theorem execHeadAdvance_keeps {a0 : Nat} {s : State} (ht : execHeadAdvance a0 s = .next t) : Keeps 32769 s t := by
  have h : Keeps 32769 s s := Keeps.refl _ s
  have hm : sub 32769 32769 := by decide
  have ht := Host.Outcome.next.inj ht
  subst ht
  refine headAdvance_keeps (sub.of (by decide) hm) ?_
  exact h

theorem execClassAging_keeps {a0 : Nat} {s : State} (ht : execClassAging a0 s = .next t) : Keeps 32768 s t := by
  have h : Keeps 32768 s s := Keeps.refl _ s
  have hm : sub 32768 32768 := by decide
  have ht := Host.Outcome.next.inj ht
  subst ht
  refine ageQueue_keeps (sub.of (by decide) hm) ?_
  exact h

theorem execUrgencyOnset_keeps {a0 : Nat} {s : State} (ht : execUrgencyOnset a0 s = .next t) : Keeps 32768 s t := by
  have h : Keeps 32768 s s := Keeps.refl _ s
  have hm : sub 32768 32768 := by decide
  have ht := Host.Outcome.next.inj ht
  subst ht
  refine jqRefresh_keeps (sub.of (by decide) hm) ?_
  exact h

theorem execQueueCtlWrite_keeps {a0 : Nat} {a1 : Word} {s : State} (ht : execQueueCtlWrite a0 a1 s = .next t) : Keeps 201375745 s t := by
  have h : Keeps 201375745 s s := Keeps.refl _ s
  have hm : sub 201375745 201375745 := by decide
  have ht := Host.Outcome.next.inj ht
  subst ht
  refine writeJqCtl_keeps (sub.of (by decide) hm) ?_
  exact h

theorem execQueueCountRead_keeps {a0 : Req} {a1 : Nat} {a2 : Nat} {s : State} (ht : execQueueCountRead a0 a1 a2 s = .next t) :
    Keeps 5 s t := by
  have h : Keeps 5 s s := Keeps.refl _ s
  obtain rfl : (readCnt (jqCnt a1 a2) s).2.give a0 [(readCnt (jqCnt a1 a2) s).1] = t := Host.Outcome.next.inj ht
  exact State.give_keeps (by decide) (readCnt_keeps (by decide) h)

theorem execHeaddlRead_keeps {a0 : Req} {a1 : Nat} {s : State} (ht : execHeaddlRead a0 a1 s = .next t) :
    Keeps 6 s t := by
  have h : Keeps 6 s s := Keeps.refl _ s
  obtain rfl : (readHeadDl a0 a1 s).2.give a0 [(readHeadDl a0 a1 s).1] = t := Host.Outcome.next.inj ht
  exact State.give_keeps (by decide) (readHeadDl_keeps (by decide) h)

theorem execCorrectedWriteback_keeps {a0 : Nat} {a1 : Bool} {s : State} (ht : execCorrectedWriteback a0 a1 s = .next t) : Keeps 201408513 s t := by
  have h : Keeps 201408513 s s := Keeps.refl _ s
  have hm : sub 201408513 201408513 := by decide
  have ht := Host.Outcome.next.inj ht
  subst ht
  refine corrected_keeps (sub.of (by decide) hm) ?_
  exact h

theorem execTestWindowStart_keeps {a0 : Nat} {s : State} (ht : execTestWindowStart a0 s = .next t) : Keeps 65536 s t := by
  have h : Keeps 65536 s s := Keeps.refl _ s
  have hm : sub 65536 65536 := by decide
  have ht := Host.Outcome.next.inj ht
  subst ht
  refine windowStart_keeps (sub.of (by decide) hm) ?_
  exact h

theorem execTestWindowAbandon_keeps {a0 : Nat} {s : State} (ht : execTestWindowAbandon a0 s = .next t) : Keeps 65536 s t := by
  have h : Keeps 65536 s s := Keeps.refl _ s
  have hm : sub 65536 65536 := by decide
  have ht := Host.Outcome.next.inj ht
  subst ht
  refine windowAbandon_keeps (sub.of (by decide) hm) ?_
  exact h

theorem execRowRestore_keeps {a0 : Nat} {s : State} (ht : execRowRestore a0 s = .next t) : Keeps 65536 s t := by
  have h : Keeps 65536 s s := Keeps.refl _ s
  have hm : sub 65536 65536 := by decide
  have ht := Host.Outcome.next.inj ht
  subst ht
  refine rowRestore_keeps (sub.of (by decide) hm) ?_
  exact h

theorem execTestWindowEnd_keeps {a0 : Sweep} {a1 : Bool} {s : State} (ht : execTestWindowEnd a0 a1 s = .next t) : Keeps 469856281 s t := by
  have h : Keeps 469856281 s s := Keeps.refl _ s
  have hm : sub 469856281 469856281 := by decide
  have ht := Host.Outcome.next.inj ht
  subst ht
  refine windowEnd_keeps (sub.of (by decide) hm) ?_
  exact h

theorem execBankSpareComplete_keeps {a0 : Nat} {s : State} (ht : execBankSpareComplete a0 s = .next t) : Keeps 469848089 s t := by
  have h : Keeps 469848089 s s := Keeps.refl _ s
  have hm : sub 469848089 469848089 := by decide
  have ht := Host.Outcome.next.inj ht
  subst ht
  refine spareDone_keeps (sub.of (by decide) hm) ?_
  exact h

theorem execRetain_keeps {a0 : Nat} {a1 : Word} {s : State} (ht : execRetain a0 a1 s = .next t) : Keeps 201408513 s t := by
  have h : Keeps 201408513 s s := Keeps.refl _ s
  have hm : sub 201408513 201408513 := by decide
  have ht := Host.Outcome.next.inj ht
  subst ht
  refine writeRetctl_keeps (sub.of (by decide) hm) ?_
  exact h

theorem execRetainComplete_keeps {a0 : Nat} {s : State} (ht : execRetainComplete a0 s = .next t) : Keeps 65537 s t := by
  have h : Keeps 65537 s s := Keeps.refl _ s
  have hm : sub 65537 65537 := by decide
  have ht := Host.Outcome.next.inj ht
  subst ht
  refine retainDone_keeps (sub.of (by decide) hm) ?_
  exact h

theorem execWake_keeps {a0 : Nat} {a1 : Word} {s : State} (ht : execWake a0 a1 s = .next t) : Keeps 201408513 s t := by
  have h : Keeps 201408513 s s := Keeps.refl _ s
  have hm : sub 201408513 201408513 := by decide
  have ht := Host.Outcome.next.inj ht
  subst ht
  refine writeRetctl_keeps (sub.of (by decide) hm) ?_
  exact h

theorem execWakeComplete_keeps {a0 : Nat} {s : State} (ht : execWakeComplete a0 s = .next t) : Keeps 81921 s t := by
  have h : Keeps 81921 s s := Keeps.refl _ s
  have hm : sub 81921 81921 := by decide
  have ht := Host.Outcome.next.inj ht
  subst ht
  refine wakeDone_keeps (sub.of (by decide) hm) ?_
  exact h

theorem execCeCountRead_keeps {a0 : Req} {a1 : Nat} {s : State} (ht : execCeCountRead a0 a1 s = .next t) :
    Keeps 5 s t := by
  have h : Keeps 5 s s := Keeps.refl _ s
  unfold execCeCountRead at ht
  split at ht
  · obtain rfl := Host.Outcome.next.inj ht
    exact State.give_keeps (by decide) (State.setFld_keeps (by decide) h)
  · obtain rfl := Host.Outcome.next.inj ht
    exact State.give_keeps (by decide) (State.setFld_keeps (by decide) h)

theorem execLpddrRead_keeps {a0 : Nat} {a1 : Nat} {a2 : Nat} {a3 : Bool} {a4 : Nat} {a5 : Bool} {s : State} (ht : execLpddrRead a0 a1 a2 a3 a4 a5 s = .next t) : Keeps 469987353 s t := by
  have h : Keeps 469987353 s s := Keeps.refl _ s
  have hm : sub 469987353 469987353 := by decide
  have ht := Host.Outcome.next.inj ht
  subst ht
  refine lpddrReadReq_keeps (sub.of (by decide) hm) ?_
  exact h

theorem execLpddrWrite_keeps {a0 : Nat} {a1 : Nat} {a2 : Nat} {a3 : Bool} {a4 : List Byte} {a5 : Nat} {s : State} (ht : execLpddrWrite a0 a1 a2 a3 a4 a5 s = .next t) : Keeps 469987353 s t := by
  have h : Keeps 469987353 s s := Keeps.refl _ s
  have hm : sub 469987353 469987353 := by decide
  have ht := Host.Outcome.next.inj ht
  subst ht
  refine lpddrWriteReq_keeps (sub.of (by decide) hm) ?_
  exact h

theorem execChannelFailed_keeps {a0 : Nat} {s : State} (ht : execChannelFailed a0 s = .next t) : Keeps 469790721 s t := by
  have h : Keeps 469790721 s s := Keeps.refl _ s
  have hm : sub 469790721 469790721 := by decide
  have ht := Host.Outcome.next.inj ht
  subst ht
  refine failChannel_keeps (sub.of (by decide) hm) ?_
  exact h

theorem execScrubRead_keeps {a0 : Nat} {a1 : Bool} {s : State} (ht : execScrubRead a0 a1 s = .next t) : Keeps 469987353 s t := by
  have h : Keeps 469987353 s s := Keeps.refl _ s
  have hm : sub 469987353 469987353 := by decide
  have ht := Host.Outcome.next.inj ht
  subst ht
  refine scrubNext_keeps (sub.of (by decide) hm) ?_
  exact h

theorem execMemcCfgWrite_keeps {a0 : Word} {s : State} (ht : execMemcCfgWrite a0 s = .next t) : Keeps 25 s t := by
  have h : Keeps 25 s s := Keeps.refl _ s
  have hm : sub 25 25 := by decide
  have ht := Host.Outcome.next.inj ht
  subst ht
  refine writeMemcCfg_keeps (sub.of (by decide) hm) ?_
  exact h

theorem execMemcCountRead_keeps {a0 : Req} {a1 : Nat} {s : State} (ht : execMemcCountRead a0 a1 s = .next t) : Keeps 5 s t := by
  have h : Keeps 5 s s := Keeps.refl _ s
  have hm : sub 5 5 := by decide
  have ht := Host.Outcome.next.inj ht
  subst ht
  refine State.give_keeps (sub.of (by decide) hm) ?_
  refine State.setReg_keeps (sub.of (by decide) hm) ?_
  exact h

theorem execBar0Write_keeps {a0 : Nat} {a1 : List Nat} {a2 : List Word} {a3 : Bool} {s : State} (ht : execBar0Write a0 a1 a2 a3 s = .next t) : Keeps 2122317823 s t := by
  have h : Keeps 2122317823 s s := Keeps.refl _ s
  have hm : sub 2122317823 2122317823 := by decide
  have ht := Host.Outcome.next.inj ht
  subst ht
  refine bar0Write_keeps (sub.of (by decide) hm) ?_
  exact h

theorem execBar0Read_keeps {a0 : Nat} {a1 : Nat} {a2 : Bool} {s : State} (ht : execBar0Read a0 a1 a2 s = .next t) : Keeps 2082960671 s t := by
  have h : Keeps 2082960671 s s := Keeps.refl _ s
  have hm : sub 2082960671 2082960671 := by decide
  have ht := Host.Outcome.next.inj ht
  subst ht
  refine bar0Read_keeps (sub.of (by decide) hm) ?_
  exact h

theorem execUnsupportedRequest_keeps {a0 : Bool} {s : State} (ht : execUnsupportedRequest a0 s = .next t) : Keeps 201605121 s t := by
  have h : Keeps 201605121 s s := Keeps.refl _ s
  have hm : sub 201605121 201605121 := by decide
  have ht := Host.Outcome.next.inj ht
  subst ht
  refine aerUncorr_keeps (sub.of (by decide) hm) ?_
  refine hostViol_keeps (sub.of (by decide) hm) ?_
  exact h

theorem execDataPortWrite_keeps {a0 : Nat} {a1 : Nat} {a2 : List Nat} {a3 : List Word} {a4 : Bool} {s : State} (ht : execDataPortWrite a0 a1 a2 a3 a4 s = .next t) : Keeps 472347679 s t := by
  have h : Keeps 472347679 s s := Keeps.refl _ s
  have hm : sub 472347679 472347679 := by decide
  have ht := Host.Outcome.next.inj ht
  subst ht
  refine dpWrite_keeps (sub.of (by decide) hm) ?_
  exact h

theorem execBurstIdleTimeout_keeps {a0 : Nat} {s : State} (ht : execBurstIdleTimeout a0 s = .next t) : Keeps 472347679 s t := by
  have h : Keeps 472347679 s s := Keeps.refl _ s
  have hm : sub 472347679 472347679 := by decide
  have ht := Host.Outcome.next.inj ht
  subst ht
  refine burstIdle_keeps (sub.of (by decide) hm) ?_
  exact h

theorem execFlush_keeps {a0 : Nat} {a1 : Word} {s : State} (ht : execFlush a0 a1 s = .next t) : Keeps 472347679 s t := by
  have h : Keeps 472347679 s s := Keeps.refl _ s
  have hm : sub 472347679 472347679 := by decide
  have ht := Host.Outcome.next.inj ht
  subst ht
  refine writeDp_keeps (sub.of (by decide) hm) ?_
  exact h

theorem execDataPortRead_keeps {a0 : Sweep} {a1 : Nat} {a2 : Nat} {s : State} (ht : execDataPortRead a0 a1 a2 s = .next t) : Keeps 1009218591 s t := by
  have h : Keeps 1009218591 s s := Keeps.refl _ s
  have hm : sub 1009218591 1009218591 := by decide
  have ht := Host.Outcome.next.inj ht
  subst ht
  refine dpRead_keeps (sub.of (by decide) hm) ?_
  exact h

theorem execDataPortSeamTimeout_keeps {a0 : Nat} {a1 : Nat} {s : State} (ht : execDataPortSeamTimeout a0 a1 s = .next t) : Keeps 203440135 s t := by
  have h : Keeps 203440135 s s := Keeps.refl _ s
  have hm : sub 203440135 203440135 := by decide
  have ht := Host.Outcome.next.inj ht
  subst ht
  refine dpSeamTimeout_keeps (sub.of (by decide) hm) ?_
  exact h

theorem execMsixSend_keeps {a0 : Nat} {s : State} (ht : execMsixSend a0 s = .next t) : Keeps 134217728 s t := by
  have h : Keeps 134217728 s s := Keeps.refl _ s
  have hm : sub 134217728 134217728 := by decide
  have ht := Host.Outcome.next.inj ht
  subst ht
  refine msixSend_keeps (sub.of (by decide) hm) ?_
  exact h

theorem execFunctionReset_keeps {s : State} (ht : execFunctionReset s = .next t) : Keeps 1009218591 s t := by
  have h : Keeps 1009218591 s s := Keeps.refl _ s
  have hm : sub 1009218591 1009218591 := by decide
  have ht := Host.Outcome.next.inj ht
  subst ht
  refine functionReset_keeps (sub.of (by decide) hm) ?_
  exact h

theorem execRetrain_keeps {a0 : Word} {s : State} (ht : execRetrain a0 s = .next t) : Keeps 262145 s t := by
  have h : Keeps 262145 s s := Keeps.refl _ s
  have hm : sub 262145 262145 := by decide
  have ht := Host.Outcome.next.inj ht
  subst ht
  refine writeHostCtl_keeps (sub.of (by decide) hm) ?_
  exact h

theorem execLinkUp_keeps {a0 : Nat} {a1 : Nat} {s : State} (ht : execLinkUp a0 a1 s = .next t) : Keeps 201605121 s t := by
  have h : Keeps 201605121 s s := Keeps.refl _ s
  have hm : sub 201605121 201605121 := by decide
  have ht := Host.Outcome.next.inj ht
  subst ht
  refine linkUp_keeps (sub.of (by decide) hm) ?_
  exact h

theorem execLinkDown_keeps {s : State} (ht : execLinkDown s = .next t) : Keeps 1009218591 s t := by
  have h : Keeps 1009218591 s s := Keeps.refl _ s
  have hm : sub 1009218591 1009218591 := by decide
  have ht := Host.Outcome.next.inj ht
  subst ht
  refine linkDown_keeps (sub.of (by decide) hm) ?_
  exact h

theorem execSpeedChange_keeps {a0 : Nat} {s : State} (ht : execSpeedChange a0 s = .next t) : Keeps 201605121 s t := by
  have h : Keeps 201605121 s s := Keeps.refl _ s
  have hm : sub 201605121 201605121 := by decide
  have ht := Host.Outcome.next.inj ht
  subst ht
  refine speedChange_keeps (sub.of (by decide) hm) ?_
  exact h

theorem execViolationCountRead_keeps {a0 : Req} {s : State} (ht : execViolationCountRead a0 s = .next t) : Keeps 5 s t := by
  have h : Keeps 5 s s := Keeps.refl _ s
  have hm : sub 5 5 := by decide
  have ht := Host.Outcome.next.inj ht
  subst ht
  refine State.give_keeps (sub.of (by decide) hm) ?_
  refine State.setFld_keeps (sub.of (by decide) hm) ?_
  exact h

theorem execBootRead_keeps {a0 : Word} {s : State} (ht : execBootRead a0 s = .next t) : Keeps 201605121 s t := by
  have h : Keeps 201605121 s s := Keeps.refl _ s
  have hm : sub 201605121 201605121 := by decide
  have ht := Host.Outcome.next.inj ht
  subst ht
  refine bootCmd_keeps (sub.of (by decide) hm) ?_
  exact h

theorem execBootProgram_keeps {a0 : Word} {s : State} (ht : execBootProgram a0 s = .next t) : Keeps 201605121 s t := by
  have h : Keeps 201605121 s s := Keeps.refl _ s
  have hm : sub 201605121 201605121 := by decide
  have ht := Host.Outcome.next.inj ht
  subst ht
  refine bootCmd_keeps (sub.of (by decide) hm) ?_
  exact h

theorem execBootErase_keeps {a0 : Word} {s : State} (ht : execBootErase a0 s = .next t) : Keeps 201605121 s t := by
  have h : Keeps 201605121 s s := Keeps.refl _ s
  have hm : sub 201605121 201605121 := by decide
  have ht := Host.Outcome.next.inj ht
  subst ht
  refine bootCmd_keeps (sub.of (by decide) hm) ?_
  exact h

theorem execBootDone_keeps {a0 : List Byte} {a1 : Bool} {s : State} (ht : execBootDone a0 a1 s = .next t) : Keeps 472347679 s t := by
  have h : Keeps 472347679 s s := Keeps.refl _ s
  have hm : sub 472347679 472347679 := by decide
  have ht := Host.Outcome.next.inj ht
  subst ht
  refine bootDone_keeps (sub.of (by decide) hm) ?_
  exact h

theorem execFlashBusyTimeout_keeps {a0 : Nat} {s : State} (ht : execFlashBusyTimeout a0 s = .next t) : Keeps 470249489 s t := by
  have h : Keeps 470249489 s s := Keeps.refl _ s
  have hm : sub 470249489 470249489 := by decide
  have ht := Host.Outcome.next.inj ht
  subst ht
  refine flashTimeout_keeps (sub.of (by decide) hm) ?_
  exact h

theorem execFabricPortRequest_keeps {a0 : Nat} {a1 : Nat} {a2 : Bool} {a3 : Nat} {a4 : List Byte} {s : State} (ht : execFabricPortRequest a0 a1 a2 a3 a4 s = .next t) : Keeps 472085535 s t := by
  have h : Keeps 472085535 s s := Keeps.refl _ s
  have hm : sub 472085535 472085535 := by decide
  have ht := Host.Outcome.next.inj ht
  subst ht
  refine fabricRequest_keeps (sub.of (by decide) hm) ?_
  exact h

theorem execCuffWrite_keeps {a0 : Nat} {a1 : Nat} {a2 : Word} {s : State} (ht : execCuffWrite a0 a1 a2 s = .next t) : Keeps 201342977 s t := by
  have h : Keeps 201342977 s s := Keeps.refl _ s
  have hm : sub 201342977 201342977 := by decide
  have ht := Host.Outcome.next.inj ht
  subst ht
  refine writeCuff_keeps (sub.of (by decide) hm) ?_
  exact h

theorem execOwnerChange_keeps {a0 : Nat} {s : State} (ht : execOwnerChange a0 s = .next t) : Keeps 1275085121 s t := by
  have h : Keeps 1275085121 s s := Keeps.refl _ s
  have hm : sub 1275085121 1275085121 := by decide
  have ht := Host.Outcome.next.inj ht
  subst ht
  refine evalOwner_keeps (sub.of (by decide) hm) ?_
  exact h

theorem execLoadGo_keeps {a0 : Word} {s : State} (ht : execLoadGo a0 s = .next t) : Keeps 201867265 s t := by
  have h : Keeps 201867265 s s := Keeps.refl _ s
  have hm : sub 201867265 201867265 := by decide
  have ht := Host.Outcome.next.inj ht
  subst ht
  refine writeCfgLoad_keeps (sub.of (by decide) hm) ?_
  exact h

theorem execLoadCheckDone_keeps {s : State} (ht : execLoadCheckDone s = .next t) : Keeps 1545302041 s t := by
  have h : Keeps 1545302041 s s := Keeps.refl _ s
  have hm : sub 1545302041 1545302041 := by decide
  have ht := Host.Outcome.next.inj ht
  subst ht
  refine checkDone_keeps (sub.of (by decide) hm) ?_
  exact h

theorem execLoadAbort_keeps {a0 : Word} {s : State} (ht : execLoadAbort a0 s = .next t) : Keeps 201867265 s t := by
  have h : Keeps 201867265 s s := Keeps.refl _ s
  have hm : sub 201867265 201867265 := by decide
  have ht := Host.Outcome.next.inj ht
  subst ht
  refine writeCfgLoad_keeps (sub.of (by decide) hm) ?_
  exact h

theorem execApplyStart_keeps {s : State} (ht : execApplyStart s = .next t) : Keeps 1074266113 s t := by
  have h : Keeps 1074266113 s s := Keeps.refl _ s
  have hm : sub 1074266113 1074266113 := by decide
  have ht := Host.Outcome.next.inj ht
  subst ht
  refine applyStart_keeps (sub.of (by decide) hm) ?_
  exact h

theorem execSleeveRelease_keeps {s : State} (ht : execSleeveRelease s = .next t) : Keeps 1544253529 s t := by
  have h : Keeps 1544253529 s s := Keeps.refl _ s
  have hm : sub 1544253529 1544253529 := by decide
  have ht := Host.Outcome.next.inj ht
  subst ht
  refine sleeveRelease_keeps (sub.of (by decide) hm) ?_
  exact h

theorem execConfigWriteData_keeps {a0 : List Byte} {s : State} (ht : execConfigWriteData a0 s = .next t) : Keeps 201932825 s t := by
  have h : Keeps 201932825 s s := Keeps.refl _ s
  have hm : sub 201932825 201932825 := by decide
  have ht := Host.Outcome.next.inj ht
  subst ht
  refine qspiData_keeps (sub.of (by decide) hm) ?_
  exact h

theorem execConfigReadStatus_keeps {s : State} (ht : execConfigReadStatus s = .next t) : Keeps 524288 s t := by
  have h : Keeps 524288 s s := Keeps.refl _ s
  have hm : sub 524288 524288 := by decide
  have ht := Host.Outcome.next.inj ht
  subst ht
  refine qspiStatus_keeps (sub.of (by decide) hm) ?_
  exact h

theorem execConfigParallelWord_keeps {a0 : BitVec 16} {a1 : Bool} {s : State} (ht : execConfigParallelWord a0 a1 s = .next t) : Keeps 201932825 s t := by
  have h : Keeps 201932825 s s := Keeps.refl _ s
  have hm : sub 201932825 201932825 := by decide
  have ht := Host.Outcome.next.inj ht
  subst ht
  refine parallelWord_keeps (sub.of (by decide) hm) ?_
  exact h

theorem execConfigCsRise_keeps {a0 : Bool} {s : State} (ht : execConfigCsRise a0 s = .next t) : Keeps 201867265 s t := by
  have h : Keeps 201867265 s s := Keeps.refl _ s
  have hm : sub 201867265 201867265 := by decide
  have ht := Host.Outcome.next.inj ht
  subst ht
  refine csRise_keeps (sub.of (by decide) hm) ?_
  exact h

theorem execPortSilenceTimeout_keeps {s : State} (ht : execPortSilenceTimeout s = .next t) : Keeps 201867265 s t := by
  have h : Keeps 201867265 s s := Keeps.refl _ s
  have hm : sub 201867265 201867265 := by decide
  have ht := Host.Outcome.next.inj ht
  subst ht
  refine portSilence_keeps (sub.of (by decide) hm) ?_
  exact h

theorem execPortViolationRead_keeps {a0 : Req} {s : State} (ht : execPortViolationRead a0 s = .next t) : Keeps 5 s t := by
  have h : Keeps 5 s s := Keeps.refl _ s
  have hm : sub 5 5 := by decide
  have ht := Host.Outcome.next.inj ht
  subst ht
  refine State.give_keeps (sub.of (by decide) hm) ?_
  refine State.setFld_keeps (sub.of (by decide) hm) ?_
  exact h

theorem execVerifyImage_keeps {a0 : Word} {s : State} (ht : execVerifyImage a0 s = .next t) : Keeps 202391553 s t := by
  have h : Keeps 202391553 s s := Keeps.refl _ s
  have hm : sub 202391553 202391553 := by decide
  have ht := Host.Outcome.next.inj ht
  subst ht
  refine writeReqctl_keeps (sub.of (by decide) hm) ?_
  exact h

theorem execAttest_keeps {a0 : Word} {s : State} (ht : execAttest a0 s = .next t) : Keeps 202391553 s t := by
  have h : Keeps 202391553 s s := Keeps.refl _ s
  have hm : sub 202391553 202391553 := by decide
  have ht := Host.Outcome.next.inj ht
  subst ht
  refine writeReqctl_keeps (sub.of (by decide) hm) ?_
  exact h

theorem execEnrol_keeps {a0 : Word} {s : State} (ht : execEnrol a0 s = .next t) : Keeps 202391553 s t := by
  have h : Keeps 202391553 s s := Keeps.refl _ s
  have hm : sub 202391553 202391553 := by decide
  have ht := Host.Outcome.next.inj ht
  subst ht
  refine writeReqctl_keeps (sub.of (by decide) hm) ?_
  exact h

theorem execRevoke_keeps {a0 : Word} {s : State} (ht : execRevoke a0 s = .next t) : Keeps 202391553 s t := by
  have h : Keeps 202391553 s s := Keeps.refl _ s
  have hm : sub 202391553 202391553 := by decide
  have ht := Host.Outcome.next.inj ht
  subst ht
  refine writeReqctl_keeps (sub.of (by decide) hm) ?_
  exact h

theorem execDebugUnlock_keeps {a0 : Word} {s : State} (ht : execDebugUnlock a0 s = .next t) : Keeps 202391553 s t := by
  have h : Keeps 202391553 s s := Keeps.refl _ s
  have hm : sub 202391553 202391553 := by decide
  have ht := Host.Outcome.next.inj ht
  subst ht
  refine writeReqctl_keeps (sub.of (by decide) hm) ?_
  exact h

theorem execMantleOperationDone_keeps {a0 : Bool} {s : State} (ht : execMantleOperationDone a0 s = .next t) : Keeps 1546875935 s t := by
  have h : Keeps 1546875935 s s := Keeps.refl _ s
  have hm : sub 1546875935 1546875935 := by decide
  have ht := Host.Outcome.next.inj ht
  subst ht
  refine opDone_keeps (sub.of (by decide) hm) ?_
  exact h

theorem execRollbackAdvance_keeps {a0 : Word} {s : State} (ht : execRollbackAdvance a0 s = .next t) : Keeps 202391553 s t := by
  have h : Keeps 202391553 s s := Keeps.refl _ s
  have hm : sub 202391553 202391553 := by decide
  have ht := Host.Outcome.next.inj ht
  subst ht
  refine writeRbadv_keeps (sub.of (by decide) hm) ?_
  exact h

theorem execFuseBurnDone_keeps {a0 : Bool} {s : State} (ht : execFuseBurnDone a0 s = .next t) : Keeps 1276133377 s t := by
  have h : Keeps 1276133377 s s := Keeps.refl _ s
  have hm : sub 1276133377 1276133377 := by decide
  have ht := Host.Outcome.next.inj ht
  subst ht
  refine burnDone_keeps (sub.of (by decide) hm) ?_
  exact h

theorem execDebugLock_keeps {a0 : Word} {s : State} (ht : execDebugLock a0 s = .next t) : Keeps 202457113 s t := by
  have h : Keeps 202457113 s s := Keeps.refl _ s
  have hm : sub 202457113 202457113 := by decide
  have ht := Host.Outcome.next.inj ht
  subst ht
  refine writeMntCtl_keeps (sub.of (by decide) hm) ?_
  exact h

theorem execUnlockExpiry_keeps {s : State} (ht : execUnlockExpiry s = .next t) : Keeps 202457113 s t := by
  have h : Keeps 202457113 s s := Keeps.refl _ s
  have hm : sub 202457113 202457113 := by decide
  have ht := Host.Outcome.next.inj ht
  subst ht
  refine unlockExpiry_keeps (sub.of (by decide) hm) ?_
  exact h

theorem execRgnLock_keeps {a0 : Word} {s : State} (ht : execRgnLock a0 s = .next t) : Keeps 202457113 s t := by
  have h : Keeps 202457113 s s := Keeps.refl _ s
  have hm : sub 202457113 202457113 := by decide
  have ht := Host.Outcome.next.inj ht
  subst ht
  refine writeMntCtl_keeps (sub.of (by decide) hm) ?_
  exact h

theorem execSeamPortEnable_keeps {a0 : Nat} {a1 : Word} {s : State} (ht : execSeamPortEnable a0 a1 s = .next t) : Keeps 203440135 s t := by
  have h : Keeps 203440135 s s := Keeps.refl _ s
  have hm : sub 203440135 203440135 := by decide
  have ht := Host.Outcome.next.inj ht
  subst ht
  refine keeps_ite (fun _ => ?_) (fun _ => ?_)
  · refine writeSeamPctl_keeps (sub.of (by decide) hm) ?_
    exact h
  · exact h

theorem execSeamRetrain_keeps {a0 : Nat} {a1 : Word} {s : State} (ht : execSeamRetrain a0 a1 s = .next t) : Keeps 203440135 s t := by
  have h : Keeps 203440135 s s := Keeps.refl _ s
  have hm : sub 203440135 203440135 := by decide
  have ht := Host.Outcome.next.inj ht
  subst ht
  refine keeps_ite (fun _ => ?_) (fun _ => ?_)
  · refine writeSeamPctl_keeps (sub.of (by decide) hm) ?_
    exact h
  · exact h

theorem execTrainingComplete_keeps {a0 : Nat} {a1 : Nat} {a2 : Nat} {a3 : Bool} {a4 : Nat} {s : State} (ht : execTrainingComplete a0 a1 a2 a3 a4 s = .next t) : Keeps 203440129 s t := by
  have h : Keeps 203440129 s s := Keeps.refl _ s
  have hm : sub 203440129 203440129 := by decide
  have ht := Host.Outcome.next.inj ht
  subst ht
  refine keeps_ite (fun _ => ?_) (fun _ => ?_)
  · refine trainDone_keeps (sub.of (by decide) hm) ?_
    exact h
  · exact h

theorem execTrainingRestart_keeps {a0 : Nat} {s : State} (ht : execTrainingRestart a0 s = .next t) : Keeps 2097152 s t := by
  have h : Keeps 2097152 s s := Keeps.refl _ s
  have hm : sub 2097152 2097152 := by decide
  have ht := Host.Outcome.next.inj ht
  subst ht
  refine keeps_ite (fun _ => ?_) (fun _ => ?_)
  · refine trainAgain_keeps (sub.of (by decide) hm) ?_
    exact h
  · exact h

theorem execLaneSparing_keeps {a0 : Nat} {a1 : Nat} {s : State} (ht : execLaneSparing a0 a1 s = .next t) : Keeps 471875591 s t := by
  have h : Keeps 471875591 s s := Keeps.refl _ s
  have hm : sub 471875591 471875591 := by decide
  have ht := Host.Outcome.next.inj ht
  subst ht
  refine keeps_ite (fun _ => ?_) (fun _ => ?_)
  · refine spareLane_keeps (sub.of (by decide) hm) ?_
    exact h
  · exact h

theorem execPortDown_keeps {a0 : Nat} {a1 : Nat} {s : State} (ht : execPortDown a0 a1 s = .next t) : Keeps 471875591 s t := by
  have h : Keeps 471875591 s s := Keeps.refl _ s
  have hm : sub 471875591 471875591 := by decide
  have ht := Host.Outcome.next.inj ht
  subst ht
  refine keeps_ite (fun _ => ?_) (fun _ => ?_)
  · refine downFor_keeps (sub.of (by decide) hm) ?_
    exact h
  · exact h

theorem execHello_keeps {a0 : Nat} {a1 : Flit} {s : State} (ht : execHello a0 a1 s = .next t) : Keeps 471875591 s t := by
  have h : Keeps 471875591 s s := Keeps.refl _ s
  have hm : sub 471875591 471875591 := by decide
  have ht := Host.Outcome.next.inj ht
  subst ht
  refine takeHello_keeps (sub.of (by decide) hm) ?_
  exact h

theorem execLaneMap_keeps {a0 : Nat} {a1 : Flit} {s : State} (ht : execLaneMap a0 a1 s = .next t) : Keeps 471875591 s t := by
  have h : Keeps 471875591 s s := Keeps.refl _ s
  have hm : sub 471875591 471875591 := by decide
  have ht := Host.Outcome.next.inj ht
  subst ht
  refine takeLaneMap_keeps (sub.of (by decide) hm) ?_
  exact h

theorem execIdle_keeps {a0 : Nat} {a1 : Flit} {s : State} (ht : execIdle a0 a1 s = .next t) : Keeps 471875591 s t := by
  have h : Keeps 471875591 s s := Keeps.refl _ s
  have hm : sub 471875591 471875591 := by decide
  have ht := Host.Outcome.next.inj ht
  subst ht
  refine takeIdle_keeps (sub.of (by decide) hm) ?_
  exact h

theorem execIdleSend_keeps {a0 : Nat} {s : State} (ht : execIdleSend a0 s = .next t) : Keeps 2097152 s t := by
  have h : Keeps 2097152 s s := Keeps.refl _ s
  have hm : sub 2097152 2097152 := by decide
  have ht := Host.Outcome.next.inj ht
  subst ht
  refine keeps_ite (fun _ => ?_) (fun _ => ?_)
  · refine idleSend_keeps (sub.of (by decide) hm) ?_
    exact h
  · exact h

theorem execReplayTimeout_keeps {a0 : Nat} {s : State} (ht : execReplayTimeout a0 s = .next t) : Keeps 471875591 s t := by
  have h : Keeps 471875591 s s := Keeps.refl _ s
  have hm : sub 471875591 471875591 := by decide
  have ht := Host.Outcome.next.inj ht
  subst ht
  refine keeps_ite (fun _ => ?_) (fun _ => ?_)
  · refine replayTimeout_keeps (sub.of (by decide) hm) ?_
    exact h
  · exact h

theorem execSeamWrite_keeps {a0 : Nat} {a1 : Flit} {s : State} (ht : execSeamWrite a0 a1 s = .next t) : Keeps 2122317823 s t := by
  have h : Keeps 2122317823 s s := Keeps.refl _ s
  have hm : sub 2122317823 2122317823 := by decide
  have ht := Host.Outcome.next.inj ht
  subst ht
  refine arrive_keeps (sub.of (by decide) hm) (fun x0 hx0 => ?_) ?_
  · refine performWrite_keeps (sub.of (by decide) hm) ?_
    exact hx0
  · exact h

theorem execSeamRead_keeps {a0 : Sweep} {a1 : Flit} {s : State} (ht : execSeamRead a0 a1 s = .next t) : Keeps 2082697495 s t := by
  have h : Keeps 2082697495 s s := Keeps.refl _ s
  have hm : sub 2082697495 2082697495 := by decide
  have ht := Host.Outcome.next.inj ht
  subst ht
  refine arrive_keeps (sub.of (by decide) hm) (fun x0 hx0 => ?_) ?_
  · refine performRead_keeps (sub.of (by decide) hm) ?_
    exact hx0
  · exact h

theorem execReadResp_keeps {a0 : Nat} {a1 : Flit} {s : State} (ht : execReadResp a0 a1 s = .next t) : Keeps 471875591 s t := by
  have h : Keeps 471875591 s s := Keeps.refl _ s
  have hm : sub 471875591 471875591 := by decide
  have ht := Host.Outcome.next.inj ht
  subst ht
  refine arrive_keeps (sub.of (by decide) hm) (fun x0 hx0 => ?_) ?_
  · refine takeAnswer_keeps (sub.of (by decide) hm) ?_
    exact hx0
  · exact h

theorem execSeamAnswer_keeps {a0 : Nat} {a1 : Flit} {s : State} (ht : execSeamAnswer a0 a1 s = .next t) : Keeps 471875591 s t := by
  have h : Keeps 471875591 s s := Keeps.refl _ s
  have hm : sub 471875591 471875591 := by decide
  have ht := Host.Outcome.next.inj ht
  subst ht
  refine arrive_keeps (sub.of (by decide) hm) (fun x0 hx0 => ?_) ?_
  · refine takeFailure_keeps (sub.of (by decide) hm) ?_
    exact hx0
  · exact h

theorem execSeamMsg_keeps {a0 : Nat} {a1 : Flit} {s : State} (ht : execSeamMsg a0 a1 s = .next t) : Keeps 471941151 s t := by
  have h : Keeps 471941151 s s := Keeps.refl _ s
  have hm : sub 471941151 471941151 := by decide
  have ht := Host.Outcome.next.inj ht
  subst ht
  refine arrive_keeps (sub.of (by decide) hm) (fun x0 hx0 => ?_) ?_
  · refine performMsg_keeps (sub.of (by decide) hm) ?_
    exact hx0
  · exact h

theorem execCueAt_keeps {a0 : Nat} {a1 : Flit} {s : State} (ht : execCueAt a0 a1 s = .next t) : Keeps 1008746503 s t := by
  have h : Keeps 1008746503 s s := Keeps.refl _ s
  have hm : sub 1008746503 1008746503 := by decide
  have ht := Host.Outcome.next.inj ht
  subst ht
  refine arrive_keeps (sub.of (by decide) hm) (fun x0 hx0 => ?_) ?_
  · refine performCue_keeps (sub.of (by decide) hm) ?_
    exact hx0
  · exact h

theorem execSeamAttest_keeps {a0 : Nat} {a1 : Flit} {s : State} (ht : execSeamAttest a0 a1 s = .next t) : Keeps 472924167 s t := by
  have h : Keeps 472924167 s s := Keeps.refl _ s
  have hm : sub 472924167 472924167 := by decide
  have ht := Host.Outcome.next.inj ht
  subst ht
  refine arrive_keeps (sub.of (by decide) hm) (fun x0 hx0 => ?_) ?_
  · refine performAttest_keeps (sub.of (by decide) hm) ?_
    exact hx0
  · exact h

theorem execTimeSync_keeps {a0 : Nat} {a1 : Flit} {a2 : Nat} {s : State} (ht : execTimeSync a0 a1 a2 s = .next t) : Keeps 471875591 s t := by
  have h : Keeps 471875591 s s := Keeps.refl _ s
  have hm : sub 471875591 471875591 := by decide
  have ht := Host.Outcome.next.inj ht
  subst ht
  refine takeTimeSync_keeps (sub.of (by decide) hm) ?_
  exact h

theorem execTimeSyncReply_keeps {a0 : Nat} {a1 : Flit} {a2 : Nat} {s : State} (ht : execTimeSyncReply a0 a1 a2 s = .next t) : Keeps 1545617447 s t := by
  have h : Keeps 1545617447 s s := Keeps.refl _ s
  have hm : sub 1545617447 1545617447 := by decide
  have ht := Host.Outcome.next.inj ht
  subst ht
  refine takeReply_keeps (sub.of (by decide) hm) ?_
  exact h

theorem execTsyncExchange_keeps {a0 : Nat} {s : State} (ht : execTsyncExchange a0 s = .next t) : Keeps 2097153 s t := by
  have h : Keeps 2097153 s s := Keeps.refl _ s
  have hm : sub 2097153 2097153 := by decide
  have ht := Host.Outcome.next.inj ht
  subst ht
  refine tsExchange_keeps (sub.of (by decide) hm) ?_
  exact h

theorem execSeamRequestTimeout_keeps {a0 : Nat} {a1 : Nat} {s : State} (ht : execSeamRequestTimeout a0 a1 s = .next t) : Keeps 203440135 s t := by
  have h : Keeps 203440135 s s := Keeps.refl _ s
  have hm : sub 203440135 203440135 := by decide
  have ht := Host.Outcome.next.inj ht
  subst ht
  refine keeps_ite (fun _ => ?_) (fun _ => ?_)
  · refine requestTimeout_keeps (sub.of (by decide) hm) ?_
    exact h
  · exact h

theorem execCueAtGo_keeps {a0 : Req} {a1 : Word} {s : State} (ht : execCueAtGo a0 a1 s = .next t) : Keeps 740311047 s t := by
  have h : Keeps 740311047 s s := Keeps.refl _ s
  have hm : sub 740311047 740311047 := by decide
  have ht := Host.Outcome.next.inj ht
  subst ht
  refine cueAtGo_keeps (sub.of (by decide) hm) ?_
  exact h

theorem execAttestGo_keeps {a0 : Req} {a1 : Word} {s : State} (ht : execAttestGo a0 a1 s = .next t) : Keeps 740311047 s t := by
  have h : Keeps 740311047 s s := Keeps.refl _ s
  have hm : sub 740311047 740311047 := by decide
  have ht := Host.Outcome.next.inj ht
  subst ht
  refine attestGo_keeps (sub.of (by decide) hm) ?_
  exact h

theorem execSeamWindowAccess_keeps {a0 : Req} {a1 : Bool} {a2 : Nat} {a3 : Nat} {a4 : List Byte} {s : State} (ht : execSeamWindowAccess a0 a1 a2 a3 a4 s = .next t) : Keeps 203440135 s t := by
  have h : Keeps 203440135 s s := Keeps.refl _ s
  have hm : sub 203440135 203440135 := by decide
  have ht := Host.Outcome.next.inj ht
  subst ht
  refine windowAccess_keeps (sub.of (by decide) hm) ?_
  exact h

theorem execSeamRelease_keeps {a0 : Nat} {a1 : Word} {s : State} (ht : execSeamRelease a0 a1 s = .next t) : Keeps 203440135 s t := by
  have h : Keeps 203440135 s s := Keeps.refl _ s
  have hm : sub 203440135 203440135 := by decide
  have ht := Host.Outcome.next.inj ht
  subst ht
  refine keeps_ite (fun _ => ?_) (fun _ => ?_)
  · refine writeSeamPctl_keeps (sub.of (by decide) hm) ?_
    exact h
  · exact h

theorem execMsgrdWrite_keeps {a0 : Word} {s : State} (ht : execMsgrdWrite a0 s = .next t) : Keeps 1 s t := by
  have h : Keeps 1 s s := Keeps.refl _ s
  have hm : sub 1 1 := by decide
  have ht := Host.Outcome.next.inj ht
  subst ht
  refine writeMsgRd_keeps (sub.of (by decide) hm) ?_
  exact h

theorem execDropCountRead_keeps {a0 : Req} {s : State} (ht : execDropCountRead a0 s = .next t) :
    Keeps 5 s t := by
  have h : Keeps 5 s s := Keeps.refl _ s
  obtain rfl : (rcRead Reg.SL_LOST [F.SL_LOST_DropCount] s).2.give a0 [(rcRead Reg.SL_LOST [F.SL_LOST_DropCount] s).1] = t := Host.Outcome.next.inj ht
  exact State.give_keeps (by decide) (rcRead_keeps (by decide) h)

theorem execSeamViolCountRead_keeps {a0 : Req} {a1 : Nat} {s : State} (ht : execSeamViolCountRead a0 a1 s = .next t) :
    Keeps 5 s t := by
  have h : Keeps 5 s s := Keeps.refl _ s
  obtain rfl : (if a1 < 4 then (rcRead (Reg.SL_PVIOL a1) [F.SL_PVIOL_Count] s).2.give a0 [(rcRead (Reg.SL_PVIOL a1) [F.SL_PVIOL_Count] s).1] else s) = t := Host.Outcome.next.inj ht
  exact keeps_ite (fun _ => State.give_keeps (by decide) (rcRead_keeps (by decide) h)) (fun _ => h)

theorem execReplayCountRead_keeps {a0 : Req} {a1 : Nat} {s : State} (ht : execReplayCountRead a0 a1 s = .next t) :
    Keeps 5 s t := by
  have h : Keeps 5 s s := Keeps.refl _ s
  obtain rfl : (if a1 < 4 then (rcRead (Reg.SL_PCNT a1) [F.SL_PCNT_ReplayCount, F.SL_PCNT_Discarded] s).2.give a0 [(rcRead (Reg.SL_PCNT a1) [F.SL_PCNT_ReplayCount, F.SL_PCNT_Discarded] s).1] else s) = t := Host.Outcome.next.inj ht
  exact keeps_ite (fun _ => State.give_keeps (by decide) (rcRead_keeps (by decide) h)) (fun _ => h)

theorem execTemperatureCheck_keeps {a0 : Nat} {s : State} (ht : execTemperatureCheck a0 s = .next t) : Keeps 4194304 s t := by
  have h : Keeps 4194304 s s := Keeps.refl _ s
  have hm : sub 4194304 4194304 := by decide
  have ht := Host.Outcome.next.inj ht
  subst ht
  refine temperatureCheck_keeps (sub.of (by decide) hm) ?_
  exact h

theorem execCalRequest_keeps {a0 : Nat} {a1 : Word} {s : State} (ht : execCalRequest a0 a1 s = .next t) : Keeps 4194305 s t := by
  have h : Keeps 4194305 s s := Keeps.refl _ s
  have hm : sub 4194305 4194305 := by decide
  have ht := Host.Outcome.next.inj ht
  subst ht
  refine writeCalTctl_keeps (sub.of (by decide) hm) ?_
  exact h

theorem execCalCommit_keeps {a0 : Nat} {a1 : Word} {s : State} (ht : execCalCommit a0 a1 s = .next t) : Keeps 4194305 s t := by
  have h : Keeps 4194305 s s := Keeps.refl _ s
  have hm : sub 4194305 4194305 := by decide
  have ht := Host.Outcome.next.inj ht
  subst ht
  refine writeCalTctl_keeps (sub.of (by decide) hm) ?_
  exact h

theorem execCalStepStart_keeps {a0 : Nat} {s : State} (ht : execCalStepStart a0 s = .next t) : Keeps 205540353 s t := by
  have h : Keeps 205540353 s s := Keeps.refl _ s
  have hm : sub 205540353 205540353 := by decide
  have ht := Host.Outcome.next.inj ht
  subst ht
  refine stepStart_keeps (sub.of (by decide) hm) ?_
  exact h

theorem execCalStepEnd_keeps {a0 : Nat} {a1 : List Word} {s : State} (ht : execCalStepEnd a0 a1 s = .next t) : Keeps 205540353 s t := by
  have h : Keeps 205540353 s s := Keeps.refl _ s
  have hm : sub 205540353 205540353 := by decide
  have ht := Host.Outcome.next.inj ht
  subst ht
  refine stepEnd_keeps (sub.of (by decide) hm) ?_
  exact h

theorem execStepAbandon_keeps {a0 : Nat} {s : State} (ht : execStepAbandon a0 s = .next t) : Keeps 205540353 s t := by
  have h : Keeps 205540353 s s := Keeps.refl _ s
  have hm : sub 205540353 205540353 := by decide
  have ht := Host.Outcome.next.inj ht
  subst ht
  refine stepAbandon_keeps (sub.of (by decide) hm) ?_
  exact h

theorem execCalStarved_keeps {a0 : Nat} {s : State} (ht : execCalStarved a0 s = .next t) : Keeps 205537281 s t := by
  have h : Keeps 205537281 s s := Keeps.refl _ s
  have hm : sub 205537281 205537281 := by decide
  have ht := Host.Outcome.next.inj ht
  subst ht
  refine calStarved_keeps (sub.of (by decide) hm) ?_
  exact h

theorem execSensorUpdate_keeps {a0 : Nat} {a1 : Int} {s : State} (ht : execSensorUpdate a0 a1 s = .next t) : Keeps 201342977 s t := by
  have h : Keeps 201342977 s s := Keeps.refl _ s
  have hm : sub 201342977 201342977 := by decide
  have ht := Host.Outcome.next.inj ht
  subst ht
  refine sensorUpdate_keeps (sub.of (by decide) hm) ?_
  exact h

theorem execSensorFault_keeps {a0 : Nat} {s : State} (ht : execSensorFault a0 s = .next t) : Keeps 201342977 s t := by
  have h : Keeps 201342977 s s := Keeps.refl _ s
  have hm : sub 201342977 201342977 := by decide
  have ht := Host.Outcome.next.inj ht
  subst ht
  refine keeps_ite (fun _ => ?_) (fun _ => ?_)
  · refine sensorFault_keeps (sub.of (by decide) hm) ?_
    exact h
  · exact h

theorem execLioDataWrite_keeps {a0 : Nat} {a1 : Word} {s : State} (ht : execLioDataWrite a0 a1 s = .next t) : Keeps 256 s t := by
  have h : Keeps 256 s s := Keeps.refl _ s
  have hm : sub 256 256 := by decide
  have ht := Host.Outcome.next.inj ht
  subst ht
  refine queueLatch_keeps (sub.of (by decide) hm) ?_
  exact h

theorem execLioSet_keeps {a0 : Nat} {a1 : Word} {s : State} (ht : execLioSet a0 a1 s = .next t) : Keeps 256 s t := by
  have h : Keeps 256 s s := Keeps.refl _ s
  have hm : sub 256 256 := by decide
  have ht := Host.Outcome.next.inj ht
  subst ht
  refine queueLatch_keeps (sub.of (by decide) hm) ?_
  exact h

theorem execLioClr_keeps {a0 : Nat} {a1 : Word} {s : State} (ht : execLioClr a0 a1 s = .next t) : Keeps 256 s t := by
  have h : Keeps 256 s s := Keeps.refl _ s
  have hm : sub 256 256 := by decide
  have ht := Host.Outcome.next.inj ht
  subst ht
  refine queueLatch_keeps (sub.of (by decide) hm) ?_
  exact h

theorem execLioTgl_keeps {a0 : Nat} {a1 : Word} {s : State} (ht : execLioTgl a0 a1 s = .next t) : Keeps 256 s t := by
  have h : Keeps 256 s s := Keeps.refl _ s
  have hm : sub 256 256 := by decide
  have ht := Host.Outcome.next.inj ht
  subst ht
  refine queueLatch_keeps (sub.of (by decide) hm) ?_
  exact h

theorem execLioCfgWrite_keeps {a0 : Nat} {a1 : Word} {s : State} (ht : execLioCfgWrite a0 a1 s = .next t) : Keeps 1275085121 s t := by
  have h : Keeps 1275085121 s s := Keeps.refl _ s
  have hm : sub 1275085121 1275085121 := by decide
  have ht := Host.Outcome.next.inj ht
  subst ht
  refine writeLioCfg_keeps (sub.of (by decide) hm) ?_
  exact h

theorem execBankSupplyChange_keeps {a0 : Nat} {a1 : Bool} {a2 : Nat} {s : State} (ht : execBankSupplyChange a0 a1 a2 s = .next t) : Keeps 1275085121 s t := by
  have h : Keeps 1275085121 s s := Keeps.refl _ s
  have hm : sub 1275085121 1275085121 := by decide
  have ht := Host.Outcome.next.inj ht
  subst ht
  refine bankSupply_keeps (sub.of (by decide) hm) ?_
  exact h

theorem execUartDataWrite_keeps {a0 : Nat} {a1 : Word} {s : State} (ht : execUartDataWrite a0 a1 s = .next t) : Keeps 201343233 s t := by
  have h : Keeps 201343233 s s := Keeps.refl _ s
  have hm : sub 201343233 201343233 := by decide
  have ht := Host.Outcome.next.inj ht
  subst ht
  refine uartPush_keeps (sub.of (by decide) hm) ?_
  exact h

theorem execUartDataRead_keeps {a0 : Req} {a1 : Nat} {s : State} (ht : execUartDataRead a0 a1 s = .next t) : Keeps 260 s t := by
  have h : Keeps 260 s s := Keeps.refl _ s
  have hm : sub 260 260 := by decide
  have ht := Host.Outcome.next.inj ht
  subst ht
  refine State.give_keeps (sub.of (by decide) hm) ?_
  refine uartPop_keeps (sub.of (by decide) hm) ?_
  exact h

theorem execUartReceive_keeps {a0 : Nat} {a1 : Byte} {a2 : Bool} {a3 : Bool} {s : State} (ht : execUartReceive a0 a1 a2 a3 s = .next t) : Keeps 201343233 s t := by
  have h : Keeps 201343233 s s := Keeps.refl _ s
  have hm : sub 201343233 201343233 := by decide
  have ht := Host.Outcome.next.inj ht
  subst ht
  refine uartArrive_keeps (sub.of (by decide) hm) ?_
  exact h

theorem execUartByteSent_keeps {a0 : Nat} {s : State} (ht : execUartByteSent a0 s = .next t) : Keeps 256 s t := by
  have h : Keeps 256 s s := Keeps.refl _ s
  have hm : sub 256 256 := by decide
  have ht := Host.Outcome.next.inj ht
  subst ht
  refine uartSent_keeps (sub.of (by decide) hm) ?_
  exact h

theorem execSpiDataWrite_keeps {a0 : Nat} {a1 : Word} {s : State} (ht : execSpiDataWrite a0 a1 s = .next t) : Keeps 256 s t := by
  have h : Keeps 256 s s := Keeps.refl _ s
  have hm : sub 256 256 := by decide
  have ht := Host.Outcome.next.inj ht
  subst ht
  refine spiPush_keeps (sub.of (by decide) hm) ?_
  exact h

theorem execSpiDataRead_keeps {a0 : Req} {a1 : Nat} {s : State} (ht : execSpiDataRead a0 a1 s = .next t) : Keeps 260 s t := by
  have h : Keeps 260 s s := Keeps.refl _ s
  have hm : sub 260 260 := by decide
  have ht := Host.Outcome.next.inj ht
  subst ht
  refine State.give_keeps (sub.of (by decide) hm) ?_
  refine spiPop_keeps (sub.of (by decide) hm) ?_
  exact h

theorem execSpiByteDone_keeps {a0 : Nat} {a1 : Byte} {s : State} (ht : execSpiByteDone a0 a1 s = .next t) : Keeps 256 s t := by
  have h : Keeps 256 s s := Keeps.refl _ s
  have hm : sub 256 256 := by decide
  have ht := Host.Outcome.next.inj ht
  subst ht
  refine spiTransfer_keeps (sub.of (by decide) hm) ?_
  exact h

theorem execI2cGo_keeps {a0 : Nat} {a1 : Word} {s : State} (ht : execI2cGo a0 a1 s = .next t) : Keeps 257 s t := by
  have h : Keeps 257 s s := Keeps.refl _ s
  have hm : sub 257 257 := by decide
  have ht := Host.Outcome.next.inj ht
  subst ht
  refine writeIxfer_keeps (sub.of (by decide) hm) ?_
  exact h

theorem execI2cTransferDone_keeps {a0 : Nat} {a1 : Nat} {a2 : List Byte} {a3 : Bool} {a4 : Bool} {s : State} (ht : execI2cTransferDone a0 a1 a2 a3 a4 s = .next t) : Keeps 201343233 s t := by
  have h : Keeps 201343233 s s := Keeps.refl _ s
  have hm : sub 201343233 201343233 := by decide
  have ht := Host.Outcome.next.inj ht
  subst ht
  refine i2cDone_keeps (sub.of (by decide) hm) ?_
  exact h

theorem execI2cBusStuck_keeps {a0 : Nat} {s : State} (ht : execI2cBusStuck a0 s = .next t) : Keeps 201343233 s t := by
  have h : Keeps 201343233 s s := Keeps.refl _ s
  have hm : sub 201343233 201343233 := by decide
  have ht := Host.Outcome.next.inj ht
  subst ht
  refine i2cStuck_keeps (sub.of (by decide) hm) ?_
  exact h

theorem execI2cDataRead_keeps {a0 : Req} {a1 : Nat} {s : State} (ht : execI2cDataRead a0 a1 s = .next t) : Keeps 260 s t := by
  have h : Keeps 260 s s := Keeps.refl _ s
  have hm : sub 260 260 := by decide
  have ht := Host.Outcome.next.inj ht
  subst ht
  refine State.give_keeps (sub.of (by decide) hm) ?_
  refine i2cPop_keeps (sub.of (by decide) hm) ?_
  exact h

theorem execSwraise_keeps {a0 : Word} {s : State} (ht : execSwraise a0 s = .next t) : Keeps 201342977 s t := by
  have h : Keeps 201342977 s s := Keeps.refl _ s
  have hm : sub 201342977 201342977 := by decide
  have ht := Host.Outcome.next.inj ht
  subst ht
  refine swRaise_keeps (sub.of (by decide) hm) ?_
  exact h

theorem execSeamEventMsg_keeps {a0 : Nat} {s : State} (ht : execSeamEventMsg a0 s = .next t) : Keeps 203440135 s t := by
  have h : Keeps 203440135 s s := Keeps.refl _ s
  have hm : sub 203440135 203440135 := by decide
  have ht := Host.Outcome.next.inj ht
  subst ht
  refine eventMsg_keeps (sub.of (by decide) hm) ?_
  exact h

theorem execRaiseCountRead_keeps {a0 : Req} {s : State} (ht : execRaiseCountRead a0 s = .next t) : Keeps 5 s t := by
  have h : Keeps 5 s s := Keeps.refl _ s
  have hm : sub 5 5 := by decide
  have ht := Host.Outcome.next.inj ht
  subst ht
  refine State.give_keeps (sub.of (by decide) hm) ?_
  refine readClear_keeps (sub.of (by decide) hm) ?_
  exact h

theorem execSupplyOut_keeps {a0 : Nat} {s : State} (ht : execSupplyOut a0 s = .next t) : Keeps 486567937 s t := by
  have h : Keeps 486567937 s s := Keeps.refl _ s
  have hm : sub 486567937 486567937 := by decide
  have ht := Host.Outcome.next.inj ht
  subst ht
  refine supplyOut_keeps (sub.of (by decide) hm) ?_
  exact h

theorem execSupplyIn_keeps {a0 : Nat} {s : State} (ht : execSupplyIn a0 s = .next t) : Keeps 285216769 s t := by
  have h : Keeps 285216769 s s := Keeps.refl _ s
  have hm : sub 285216769 285216769 := by decide
  have ht := Host.Outcome.next.inj ht
  subst ht
  refine supplyIn_keeps (sub.of (by decide) hm) ?_
  exact h

theorem execFaultLogWrite_keeps {a0 : Bool} {s : State} (ht : execFaultLogWrite a0 s = .next t) : Keeps 469843993 s t := by
  have h : Keeps 469843993 s s := Keeps.refl _ s
  have hm : sub 469843993 469843993 := by decide
  have ht := Host.Outcome.next.inj ht
  subst ht
  refine writeLog_keeps (sub.of (by decide) hm) ?_
  exact h

theorem execSysReset_keeps {a0 : Nat} {s : State} (ht : execSysReset a0 s = .next t) : Keeps 2147483647 s t := by
  have h : Keeps 2147483647 s s := Keeps.refl _ s
  have hm : sub 2147483647 2147483647 := by decide
  have ht := Host.Outcome.next.inj ht
  subst ht
  refine resetPart_keeps (sub.of (by decide) hm) ?_
  exact h

theorem execPowerLoss_keeps {s : State} (ht : execPowerLoss s = .next t) : Keeps 2147483647 s t := by
  have h : Keeps 2147483647 s s := Keeps.refl _ s
  have hm : sub 2147483647 2147483647 := by decide
  have ht := Host.Outcome.next.inj ht
  subst ht
  refine losePower_keeps (sub.of (by decide) hm) ?_
  exact h

theorem execStartSequence_keeps {a0 : Bool} {a1 : List Nat} {s : State} (ht : execStartSequence a0 a1 s = .next t) : Keeps 1556053631 s t := by
  have h : Keeps 1556053631 s s := Keeps.refl _ s
  have hm : sub 1556053631 1556053631 := by decide
  have ht := Host.Outcome.next.inj ht
  subst ht
  refine startStep_keeps (sub.of (by decide) hm) ?_
  exact h

theorem execStepTimeout_keeps {a0 : Nat} {s : State} (ht : execStepTimeout a0 s = .next t) : Keeps 480463903 s t := by
  have h : Keeps 480463903 s s := Keeps.refl _ s
  have hm : sub 480463903 480463903 := by decide
  have ht := Host.Outcome.next.inj ht
  subst ht
  refine stepTimeout_keeps (sub.of (by decide) hm) ?_
  exact h

theorem execInternalRestart_keeps {a0 : Nat} {s : State} (ht : execInternalRestart a0 s = .next t) : Keeps 2147483647 s t := by
  have h : Keeps 2147483647 s s := Keeps.refl _ s
  have hm : sub 2147483647 2147483647 := by decide
  have ht := Host.Outcome.next.inj ht
  subst ht
  refine internalRestart_keeps (sub.of (by decide) hm) ?_
  exact h

theorem execStepRevert_keeps {a0 : Nat} {a1 : Word} {s : State} (ht : execStepRevert a0 a1 s = .next t) : Keeps 65560 s t := by
  have h : Keeps 65560 s s := Keeps.refl _ s
  have hm : sub 65560 65560 := by decide
  have ht := Host.Outcome.next.inj ht
  subst ht
  refine revertStep_keeps (sub.of (by decide) hm) ?_
  exact h

theorem execFabricCueOutput_keeps {a0 : Nat} {a1 : Bool} {s : State} (ht : execFabricCueOutput a0 a1 s = .next t) : Keeps 201343041 s t := by
  have h : Keeps 201343041 s s := Keeps.refl _ s
  have hm : sub 201343041 201343041 := by decide
  have ht := Host.Outcome.next.inj ht
  subst ht
  refine cueOutput_keeps (sub.of (by decide) hm) ?_
  exact h

theorem execFastsumUpdate_keeps {a0 : Nat} {a1 : Nat} {a2 : Int} {s : State} (ht : execFastsumUpdate a0 a1 a2 s = .next t) : Keeps 1275087873 s t := by
  have h : Keeps 1275087873 s s := Keeps.refl _ s
  have hm : sub 1275087873 1275087873 := by decide
  have ht := Host.Outcome.next.inj ht
  subst ht
  refine convEdge_keeps (sub.of (by decide) hm) ?_
  exact h

theorem execWindowOpen_keeps {a0 : Nat} {a1 : Nat} {s : State} (ht : execWindowOpen a0 a1 s = .next t) : Keeps 2048 s t := by
  have h : Keeps 2048 s s := Keeps.refl _ s
  have hm : sub 2048 2048 := by decide
  have ht := Host.Outcome.next.inj ht
  subst ht
  refine windowOpen_keeps (sub.of (by decide) hm) ?_
  exact h

theorem execPgaClip_keeps {a0 : Nat} {a1 : Nat} {a2 : Int} {s : State} (ht : execPgaClip a0 a1 a2 s = .next t) : Keeps 201342977 s t := by
  have h : Keeps 201342977 s s := Keeps.refl _ s
  have hm : sub 201342977 201342977 := by decide
  have ht := Host.Outcome.next.inj ht
  subst ht
  refine pgaClip_keeps (sub.of (by decide) hm) ?_
  exact h

theorem execBiquadClip_keeps {a0 : Nat} {a1 : Int} {s : State} (ht : execBiquadClip a0 a1 s = .next t) : Keeps 201342977 s t := by
  have h : Keeps 201342977 s s := Keeps.refl _ s
  have hm : sub 201342977 201342977 := by decide
  have ht := Host.Outcome.next.inj ht
  subst ht
  refine biquadClip_keeps (sub.of (by decide) hm) ?_
  exact h

theorem execCueAtAnswer_keeps {a0 : Nat} {a1 : Flit} {s : State} (ht : execCueAtAnswer a0 a1 s = .next t) : Keeps 471875591 s t := by
  have h : Keeps 471875591 s s := Keeps.refl _ s
  have hm : sub 471875591 471875591 := by decide
  have ht := Host.Outcome.next.inj ht
  subst ht
  refine arrive_keeps (sub.of (by decide) hm) (fun x0 hx0 => ?_) ?_
  · refine takeAnswer_keeps (sub.of (by decide) hm) ?_
    exact hx0
  · exact h

theorem execAttestAnswer_keeps {a0 : Nat} {a1 : Flit} {s : State} (ht : execAttestAnswer a0 a1 s = .next t) : Keeps 471875591 s t := by
  have h : Keeps 471875591 s s := Keeps.refl _ s
  have hm : sub 471875591 471875591 := by decide
  have ht := Host.Outcome.next.inj ht
  subst ht
  refine arrive_keeps (sub.of (by decide) hm) (fun x0 hx0 => ?_) ?_
  · refine takeAnswer_keeps (sub.of (by decide) hm) ?_
    exact hx0
  · exact h

theorem execConfigurationSpaceWrite_keeps {a0 : Bool} {a1 : Bool} {a2 : Bool} {a3 : Bool} {s : State} (ht : execConfigurationSpaceWrite a0 a1 a2 a3 s = .next t) : Keeps 262145 s t := by
  have h : Keeps 262145 s s := Keeps.refl _ s
  have hm : sub 262145 262145 := by decide
  have ht := Host.Outcome.next.inj ht
  subst ht
  refine configSpace_keeps (sub.of (by decide) hm) ?_
  exact h

theorem execDacPortUncorrectableRead_keeps {a0 : Nat} {s : State} (ht : execDacPortUncorrectableRead a0 s = .next t) : Keeps 469988369 s t := by
  have h : Keeps 469988369 s s := Keeps.refl _ s
  have hm : sub 469988369 469988369 := by decide
  have ht := Host.Outcome.next.inj ht
  subst ht
  refine dacPoison_keeps (sub.of (by decide) hm) ?_
  exact h

theorem execUnknownQspiCommand_keeps {s : State} (ht : execUnknownQspiCommand s = .next t) : Keeps 201867265 s t := by
  have h : Keeps 201867265 s s := Keeps.refl _ s
  have hm : sub 201867265 201867265 := by decide
  have ht := Host.Outcome.next.inj ht
  subst ht
  refine qspiUnknown_keeps (sub.of (by decide) hm) ?_
  exact h



end Sys2Proof.Machine
end

