-- ==== Sys2Proof/Laws/Frame/Touch.lean ====
section
/-!
SUPPORT. Every command answers a next state, and touches at most the parts of its mask.
-/
namespace Sys2Proof.Machine

/-- The parts that a command may change, as a mask of `Keeps`. -/
def touchMask : Instr → Nat
  | .registerWrite .. => 2122317823
  | .crystalLoss .. => 201343009
  | .crystalValid .. => 201343009
  | .switchover .. => 469778529
  | .selectWrite .. => 1543534113
  | .holdoverExpired => 469792289
  | .pllRelock => 1543534113
  | .clockRelease .. => 1543534113
  | .linetimeRead .. => 6
  | .rateCorrection => 2122317823
  | .slewAdjust .. => 1073741856
  | .slewTick => 2122317823
  | .linetimeLoad => 33
  | .lineIoEdge .. => 1275085249
  | .slotSatisfied .. => 201343041
  | .cueEffect .. => 1275160409
  | .hostArmGo .. => 536870913
  | .disarm .. => 65
  | .targetConfigWrite .. => 65
  | .capturePop .. => 64
  | .mergeCountRead .. => 5
  | .fabricTapEffect .. => 64
  | .encoderCount .. => 201343105
  | .encoderStopped .. => 128
  | .encoderIndex .. => 201343105
  | .encoderMatch .. => 201343169
  | .encoderLoad .. => 128
  | .encoderCtlWrite .. => 201343105
  | .encoderPinsWrite .. => 201342977
  | .encoderPositionRead .. => 6
  | .illegalCountRead .. => 5
  | .pgSoftwareStart .. => 469783041
  | .pgCycleStart .. => 201343489
  | .pgRunEnd .. => 201343489
  | .pgStop .. => 469783041
  | .pgAbort .. => 469783041
  | .pgRearm .. => 469783041
  | .pgCtlWrite .. => 201343489
  | .pgShadowWrite .. => 1
  | .pgSeqselWrite .. => 513
  | .pgSeqWrite .. => 201342977
  | .comparatorDecision .. => 1543534145
  | .tripRelease .. => 268440064
  | .selectorWrite .. => 201344001
  | .switchClose .. => 1543536193
  | .busDriveWrite .. => 201344001
  | .biquadWrite .. => 201344001
  | .modulatorOverload .. => 201344001
  | .modulatorResume .. => 1024
  | .biasReady .. => 1543536193
  | .comparatorCtlWrite .. => 201344001
  | .comparatorThresholdWrite .. => 1025
  | .thresholdSettled .. => 1024
  | .windowWrite .. => 1025
  | .riseCountRead .. => 5
  | .programEnd .. => 201344001
  | .dacCodeWrite .. => 1025
  | .dacSourceWrite .. => 201344001
  | .rangeHoldEnd .. => 201344001
  | .paletteWrite .. => 201342977
  | .swapRequest .. => 201344001
  | .crossFadeEnd .. => 201344001
  | .panelClear .. => 1543533569
  | .clearRelease .. => 1024
  | .currentLimitShort .. => 469791745
  | .supervisionFault .. => 1543533569
  | .standbyDrive .. => 268436480
  | .handover .. => 201344001
  | .analogueSupplyValid => 1543534145
  | .peakDiffRead .. => 5
  | .dceOutput .. => 201345025
  | .channelCtlWrite .. => 201345025
  | .channelRestart .. => 2048
  | .dceThresholdWrite .. => 2049
  | .rdidxWrite .. => 201342977
  | .windowClose .. => 2048
  | .windowDone .. => 201345025
  | .dceLastStampRead .. => 6
  | .overrunCountRead .. => 5
  | .latchTimingEdge .. => 469856281
  | .shiftStart .. => 1543729169
  | .shiftEnd .. => 4097
  | .readyPoll .. => 469987345
  | .blockFetch .. => 469987345
  | .portEnableWrite .. => 469790721
  | .profileWrite .. => 201342977
  | .prioPush .. => 201347073
  | .senseDeadWrite .. => 469786625
  | .nozzleMapWrite .. => 469786625
  | .unretire .. => 469786625
  | .nozzleMapWalk .. => 469786625
  | .criticalSetExpiry .. => 469790721
  | .auxPinChange .. => 469790721
  | .planrdWrite .. => 1
  | .ledgerCtlWrite .. => 201342977
  | .recordClose .. => 469856281
  | .recordFree .. => 201416729
  | .rejectArm .. => 536879104
  | .rejectArmRetry .. => 738222081
  | .raiseFail .. => 469786627
  | .raiseDoubt .. => 469786627
  | .setHorizon .. => 469786627
  | .ledgerRead .. => 469786627
  | .ringrdWrite .. => 1
  | .add .. => 469987345
  | .sub .. => 469987345
  | .and .. => 469987345
  | .or .. => 469987345
  | .xor .. => 469987345
  | .andn .. => 469987345
  | .shl .. => 469987345
  | .shr .. => 469987345
  | .sra .. => 469987345
  | .min .. => 469987345
  | .max .. => 469987345
  | .minu .. => 469987345
  | .maxu .. => 469987345
  | .adds .. => 469987345
  | .subs .. => 469987345
  | .addi .. => 469987345
  | .subi .. => 469987345
  | .andi .. => 469987345
  | .ori .. => 469987345
  | .xori .. => 469987345
  | .lui .. => 469987345
  | .shli .. => 469987345
  | .shri .. => 469987345
  | .srai .. => 469987345
  | .adda .. => 469987345
  | .addaR .. => 469987345
  | .laLo .. => 469987345
  | .laHi .. => 469987345
  | .mgaLo .. => 469987345
  | .mgaHi .. => 469987345
  | .mul .. => 469987345
  | .mulhs .. => 469987345
  | .mulhu .. => 469987345
  | .mac .. => 469987345
  | .msu .. => 469987345
  | .gfmul .. => 469987345
  | .gfmac .. => 469987345
  | .popc .. => 469987345
  | .clz .. => 469987345
  | .ctz .. => 469987345
  | .brev .. => 469987345
  | .bswap .. => 469987345
  | .bfxu .. => 469987345
  | .bfxs .. => 469987345
  | .bfi .. => 469987345
  | .cmpeq .. => 469987345
  | .cmpne .. => 469987345
  | .cmplt .. => 469987345
  | .cmpltu .. => 469987345
  | .cmpge .. => 469987345
  | .cmpgeu .. => 469987345
  | .cmpi .. => 469987345
  | .pand .. => 469987345
  | .por .. => 469987345
  | .pxor .. => 469987345
  | .pandn .. => 469987345
  | .sel .. => 469987345
  | .ldB .. => 472084503
  | .ldH .. => 472084503
  | .ldW .. => 472084503
  | .ldV .. => 472084503
  | .ldBu .. => 472084503
  | .ldHu .. => 472084503
  | .stB .. => 469987345
  | .stH .. => 469987345
  | .stW .. => 469987345
  | .stV .. => 469987345
  | .dma .. => 2122317823
  | .vadd .. => 469987345
  | .vsub .. => 469987345
  | .vadds .. => 469987345
  | .vaddsu .. => 469987345
  | .vsubs .. => 469987345
  | .vsubsu .. => 469987345
  | .vmul .. => 469987345
  | .vmulhs .. => 469987345
  | .vmin .. => 469987345
  | .vminu .. => 469987345
  | .vmax .. => 469987345
  | .vmaxu .. => 469987345
  | .vavgu .. => 469987345
  | .vand .. => 469987345
  | .vor .. => 469987345
  | .vxor .. => 469987345
  | .vandn .. => 469987345
  | .vcmpeq .. => 469987345
  | .vcmpgt .. => 469987345
  | .vcmpgtu .. => 469987345
  | .vshl .. => 469987345
  | .vshr .. => 469987345
  | .vsra .. => 469987345
  | .vperm .. => 469987345
  | .vbtr8 .. => 469987345
  | .vext .. => 469987345
  | .vins .. => 469987345
  | .vsplat .. => 469987345
  | .vslb .. => 469987345
  | .vsrb .. => 469987345
  | .vsel .. => 469987345
  | .vhsum .. => 469987345
  | .vht1 .. => 469987345
  | .vht2 .. => 469987345
  | .vgfmul .. => 469987345
  | .vgfmac .. => 469987345
  | .vgfmacs .. => 469987345
  | .br .. => 469987345
  | .brf .. => 469987345
  | .bra .. => 469987345
  | .call .. => 469987345
  | .jr .. => 469987345
  | .jalr .. => 469987345
  | .qget .. => 470020121
  | .qput .. => 2122317823
  | .qsteal .. => 469987345
  | .qdone .. => 2122317823
  | .qfail .. => 2122317823
  | .carmT .. => 1006858257
  | .carmP .. => 1006858257
  | .cdisarm .. => 469987409
  | .twait .. => 469987345
  | .dlset .. => 469987345
  | .ewait .. => 469987345
  | .raise .. => 2122317823
  | .mfsr .. => 469987345
  | .mtsr .. => 469987409
  | .fenceL .. => 2122317823
  | .fenceS .. => 2122317823
  | .fenceI .. => 469987345
  | .iinv .. => 469987345
  | .park .. => 469987345
  | .eret .. => 469987345
  | .trap .. => 469987345
  | .brk .. => 469987345
  | .dmawait .. => 469987345
  | .exceptionEntry .. => 16384
  | .loadReturn .. => 1545826579
  | .storeAcknowledge .. => 2122317823
  | .icacheRefill .. => 469987345
  | .answerReturn .. => 16384
  | .twaitSatisfied .. => 16385
  | .ewaitSatisfied .. => 16385
  | .qgetTimeout .. => 16385
  | .dmaComplete .. => 472085535
  | .dmawaitReturn .. => 16385
  | .engineCueTimer .. => 201343041
  | .deadlineWatchFire .. => 201342977
  | .watchdogExpiry .. => 201342977
  | .engineFault .. => 16384
  | .engineStart .. => 469778433
  | .engineReset .. => 469778433
  | .forceFault .. => 469778433
  | .unlock .. => 469778433
  | .halt .. => 201342977
  | .step .. => 201342977
  | .resume .. => 201342977
  | .breakpointHit .. => 16384
  | .perfCountRead .. => 5
  | .jobDelivery .. => 470020121
  | .hostPostGo .. => 738213891
  | .missDetection .. => 469884953
  | .fallbackPost .. => 536903680
  | .jobReturn .. => 469884953
  | .headAdvance .. => 32769
  | .classAging .. => 32768
  | .urgencyOnset .. => 32768
  | .queueCtlWrite .. => 201375745
  | .queueCountRead .. => 5
  | .headdlRead .. => 6
  | .correctedWriteback .. => 201408513
  | .testWindowStart .. => 65536
  | .testWindowAbandon .. => 65536
  | .rowRestore .. => 65536
  | .testWindowEnd .. => 469856281
  | .bankSpareComplete .. => 469848089
  | .retain .. => 201408513
  | .retainComplete .. => 65537
  | .wake .. => 201408513
  | .wakeComplete .. => 81921
  | .ceCountRead .. => 5
  | .lpddrRead .. => 469987353
  | .lpddrWrite .. => 469987353
  | .channelFailed .. => 469790721
  | .scrubRead .. => 469987353
  | .memcCfgWrite .. => 25
  | .memcCountRead .. => 5
  | .bar0Write .. => 2122317823
  | .bar0Read .. => 2082960671
  | .unsupportedRequest .. => 201605121
  | .dataPortWrite .. => 472347679
  | .burstIdleTimeout .. => 472347679
  | .flush .. => 472347679
  | .dataPortRead .. => 1009218591
  | .dataPortSeamTimeout .. => 203440135
  | .msixSend .. => 134217728
  | .functionReset => 1009218591
  | .retrain .. => 262145
  | .linkUp .. => 201605121
  | .linkDown => 1009218591
  | .speedChange .. => 201605121
  | .violationCountRead .. => 5
  | .bootRead .. => 201605121
  | .bootProgram .. => 201605121
  | .bootErase .. => 201605121
  | .bootDone .. => 472347679
  | .flashBusyTimeout .. => 470249489
  | .fabricPortRequest .. => 472085535
  | .cuffWrite .. => 201342977
  | .ownerChange .. => 1275085121
  | .loadGo .. => 201867265
  | .loadCheckDone => 1545302041
  | .loadAbort .. => 201867265
  | .applyStart => 1074266113
  | .sleeveRelease => 1544253529
  | .configWriteData .. => 201932825
  | .configReadStatus => 524288
  | .configParallelWord .. => 201932825
  | .configCsRise .. => 201867265
  | .portSilenceTimeout => 201867265
  | .portViolationRead .. => 5
  | .verifyImage .. => 202391553
  | .attest .. => 202391553
  | .enrol .. => 202391553
  | .revoke .. => 202391553
  | .debugUnlock .. => 202391553
  | .mantleOperationDone .. => 1546875935
  | .rollbackAdvance .. => 202391553
  | .fuseBurnDone .. => 1276133377
  | .debugLock .. => 202457113
  | .unlockExpiry => 202457113
  | .rgnLock .. => 202457113
  | .seamPortEnable .. => 203440135
  | .seamRetrain .. => 203440135
  | .trainingComplete .. => 203440129
  | .trainingRestart .. => 2097152
  | .laneSparing .. => 471875591
  | .portDown .. => 471875591
  | .hello .. => 471875591
  | .laneMap .. => 471875591
  | .idle .. => 471875591
  | .idleSend .. => 2097152
  | .replayTimeout .. => 471875591
  | .seamWrite .. => 2122317823
  | .seamRead .. => 2082697495
  | .readResp .. => 471875591
  | .seamAnswer .. => 471875591
  | .seamMsg .. => 471941151
  | .cueAt .. => 1008746503
  | .seamAttest .. => 472924167
  | .timeSync .. => 471875591
  | .timeSyncReply .. => 1545617447
  | .tsyncExchange .. => 2097153
  | .seamRequestTimeout .. => 203440135
  | .cueAtGo .. => 740311047
  | .attestGo .. => 740311047
  | .seamWindowAccess .. => 203440135
  | .seamRelease .. => 203440135
  | .msgrdWrite .. => 1
  | .dropCountRead .. => 5
  | .seamViolCountRead .. => 5
  | .replayCountRead .. => 5
  | .temperatureCheck .. => 4194304
  | .calRequest .. => 4194305
  | .calCommit .. => 4194305
  | .calStepStart .. => 205540353
  | .calStepEnd .. => 205540353
  | .stepAbandon .. => 205540353
  | .calStarved .. => 205537281
  | .sensorUpdate .. => 201342977
  | .sensorFault .. => 201342977
  | .lioDataWrite .. => 256
  | .lioSet .. => 256
  | .lioClr .. => 256
  | .lioTgl .. => 256
  | .lioCfgWrite .. => 1275085121
  | .bankSupplyChange .. => 1275085121
  | .uartDataWrite .. => 201343233
  | .uartDataRead .. => 260
  | .uartReceive .. => 201343233
  | .uartByteSent .. => 256
  | .spiDataWrite .. => 256
  | .spiDataRead .. => 260
  | .spiByteDone .. => 256
  | .i2cGo .. => 257
  | .i2cTransferDone .. => 201343233
  | .i2cBusStuck .. => 201343233
  | .i2cDataRead .. => 260
  | .swraise .. => 201342977
  | .seamEventMsg .. => 203440135
  | .raiseCountRead .. => 5
  | .supplyOut .. => 486567937
  | .supplyIn .. => 285216769
  | .faultLogWrite .. => 469843993
  | .sysReset .. => 2147483647
  | .powerLoss => 2147483647
  | .startSequence .. => 1556053631
  | .stepTimeout .. => 480463903
  | .internalRestart .. => 2147483647
  | .stepRevert .. => 65560
  | .fabricCueOutput .. => 201343041
  | .fastsumUpdate .. => 1275087873
  | .windowOpen .. => 2048
  | .pgaClip .. => 201342977
  | .biquadClip .. => 201342977
  | .cueAtAnswer .. => 471875591
  | .attestAnswer .. => 471875591
  | .configurationSpaceWrite .. => 262145
  | .dacPortUncorrectableRead .. => 469988369
  | .unknownQspiCommand => 201867265

/-- What every command does: it answers a next state and keeps what lies outside its mask. -/
theorem exec_keeps (c : Instr) (s : State) : ∃ t, exec c s = .next t ∧ Keeps (touchMask c) s t := by
  cases c with
  | registerWrite x0 x1 x2 => exact ⟨_, rfl, execRegisterWrite_keeps (s := s) (show execRegisterWrite x0 x1 x2 s = _ from rfl)⟩
  | crystalLoss x0 => exact ⟨_, rfl, execCrystalLoss_keeps (s := s) (show execCrystalLoss x0 s = _ from rfl)⟩
  | crystalValid x0 => exact ⟨_, rfl, execCrystalValid_keeps (s := s) (show execCrystalValid x0 s = _ from rfl)⟩
  | switchover x0 => exact ⟨_, rfl, execSwitchover_keeps (s := s) (show execSwitchover x0 s = _ from rfl)⟩
  | selectWrite x0 => exact ⟨_, rfl, execSelectWrite_keeps (s := s) (show execSelectWrite x0 s = _ from rfl)⟩
  | holdoverExpired => exact ⟨_, rfl, execHoldoverExpired_keeps (s := s) (show execHoldoverExpired s = _ from rfl)⟩
  | pllRelock => exact ⟨_, rfl, execPllRelock_keeps (s := s) (show execPllRelock s = _ from rfl)⟩
  | clockRelease x0 => exact ⟨_, rfl, execClockRelease_keeps (s := s) (show execClockRelease x0 s = _ from rfl)⟩
  | linetimeRead x0 => exact ⟨_, rfl, execLinetimeRead_keeps (s := s) (show execLinetimeRead x0 s = _ from rfl)⟩
  | rateCorrection => exact ⟨_, rfl, execRateCorrection_keeps (s := s) (show execRateCorrection s = _ from rfl)⟩
  | slewAdjust x0 x1 => exact ⟨_, rfl, execSlewAdjust_keeps (s := s) (show execSlewAdjust x0 x1 s = _ from rfl)⟩
  | slewTick => exact ⟨_, rfl, execSlewTick_keeps (s := s) (show execSlewTick s = _ from rfl)⟩
  | linetimeLoad => exact ⟨_, rfl, execLinetimeLoad_keeps (s := s) (show execLinetimeLoad s = _ from rfl)⟩
  | lineIoEdge x0 x1 x2 => exact ⟨_, rfl, execLineIoEdge_keeps (s := s) (show execLineIoEdge x0 x1 x2 s = _ from rfl)⟩
  | slotSatisfied x0 x1 => exact ⟨_, rfl, execSlotSatisfied_keeps (s := s) (show execSlotSatisfied x0 x1 s = _ from rfl)⟩
  | cueEffect x0 => exact ⟨_, rfl, execCueEffect_keeps (s := s) (show execCueEffect x0 s = _ from rfl)⟩
  | hostArmGo x0 x1 => exact ⟨_, rfl, execHostArmGo_keeps (s := s) (show execHostArmGo x0 x1 s = _ from rfl)⟩
  | disarm x0 x1 => exact ⟨_, rfl, execDisarm_keeps (s := s) (show execDisarm x0 x1 s = _ from rfl)⟩
  | targetConfigWrite x0 x1 x2 => exact ⟨_, rfl, execTargetConfigWrite_keeps (s := s) (show execTargetConfigWrite x0 x1 x2 s = _ from rfl)⟩
  | capturePop x0 x1 => exact ⟨_, rfl, execCapturePop_keeps (s := s) (show execCapturePop x0 x1 s = _ from rfl)⟩
  | mergeCountRead x0 x1 => exact ⟨_, rfl, execMergeCountRead_keeps (s := s) (show execMergeCountRead x0 x1 s = _ from rfl)⟩
  | fabricTapEffect x0 => exact ⟨_, rfl, execFabricTapEffect_keeps (s := s) (show execFabricTapEffect x0 s = _ from rfl)⟩
  | encoderCount x0 => exact ⟨_, rfl, execEncoderCount_keeps (s := s) (show execEncoderCount x0 s = _ from rfl)⟩
  | encoderStopped x0 => exact ⟨_, rfl, execEncoderStopped_keeps (s := s) (show execEncoderStopped x0 s = _ from rfl)⟩
  | encoderIndex x0 => exact ⟨_, rfl, execEncoderIndex_keeps (s := s) (show execEncoderIndex x0 s = _ from rfl)⟩
  | encoderMatch x0 x1 => exact ⟨_, rfl, execEncoderMatch_keeps (s := s) (show execEncoderMatch x0 x1 s = _ from rfl)⟩
  | encoderLoad x0 => exact ⟨_, rfl, execEncoderLoad_keeps (s := s) (show execEncoderLoad x0 s = _ from rfl)⟩
  | encoderCtlWrite x0 x1 => exact ⟨_, rfl, execEncoderCtlWrite_keeps (s := s) (show execEncoderCtlWrite x0 x1 s = _ from rfl)⟩
  | encoderPinsWrite x0 x1 => exact ⟨_, rfl, execEncoderPinsWrite_keeps (s := s) (show execEncoderPinsWrite x0 x1 s = _ from rfl)⟩
  | encoderPositionRead x0 x1 => exact ⟨_, rfl, execEncoderPositionRead_keeps (s := s) (show execEncoderPositionRead x0 x1 s = _ from rfl)⟩
  | illegalCountRead x0 x1 => exact ⟨_, rfl, execIllegalCountRead_keeps (s := s) (show execIllegalCountRead x0 x1 s = _ from rfl)⟩
  | pgSoftwareStart x0 x1 => exact ⟨_, rfl, execPgSoftwareStart_keeps (s := s) (show execPgSoftwareStart x0 x1 s = _ from rfl)⟩
  | pgCycleStart x0 => exact ⟨_, rfl, execPgCycleStart_keeps (s := s) (show execPgCycleStart x0 s = _ from rfl)⟩
  | pgRunEnd x0 => exact ⟨_, rfl, execPgRunEnd_keeps (s := s) (show execPgRunEnd x0 s = _ from rfl)⟩
  | pgStop x0 x1 => exact ⟨_, rfl, execPgStop_keeps (s := s) (show execPgStop x0 x1 s = _ from rfl)⟩
  | pgAbort x0 x1 => exact ⟨_, rfl, execPgAbort_keeps (s := s) (show execPgAbort x0 x1 s = _ from rfl)⟩
  | pgRearm x0 x1 => exact ⟨_, rfl, execPgRearm_keeps (s := s) (show execPgRearm x0 x1 s = _ from rfl)⟩
  | pgCtlWrite x0 x1 => exact ⟨_, rfl, execPgCtlWrite_keeps (s := s) (show execPgCtlWrite x0 x1 s = _ from rfl)⟩
  | pgShadowWrite x0 x1 x2 => exact ⟨_, rfl, execPgShadowWrite_keeps (s := s) (show execPgShadowWrite x0 x1 x2 s = _ from rfl)⟩
  | pgSeqselWrite x0 x1 => exact ⟨_, rfl, execPgSeqselWrite_keeps (s := s) (show execPgSeqselWrite x0 x1 s = _ from rfl)⟩
  | pgSeqWrite x0 x1 x2 x3 => exact ⟨_, rfl, execPgSeqWrite_keeps (s := s) (show execPgSeqWrite x0 x1 x2 x3 s = _ from rfl)⟩
  | comparatorDecision x0 x1 x2 => exact ⟨_, rfl, execComparatorDecision_keeps (s := s) (show execComparatorDecision x0 x1 x2 s = _ from rfl)⟩
  | tripRelease x0 => exact ⟨_, rfl, execTripRelease_keeps (s := s) (show execTripRelease x0 s = _ from rfl)⟩
  | selectorWrite x0 x1 => exact ⟨_, rfl, execSelectorWrite_keeps (s := s) (show execSelectorWrite x0 x1 s = _ from rfl)⟩
  | switchClose x0 => exact ⟨_, rfl, execSwitchClose_keeps (s := s) (show execSwitchClose x0 s = _ from rfl)⟩
  | busDriveWrite x0 x1 => exact ⟨_, rfl, execBusDriveWrite_keeps (s := s) (show execBusDriveWrite x0 x1 s = _ from rfl)⟩
  | biquadWrite x0 x1 => exact ⟨_, rfl, execBiquadWrite_keeps (s := s) (show execBiquadWrite x0 x1 s = _ from rfl)⟩
  | modulatorOverload x0 x1 x2 => exact ⟨_, rfl, execModulatorOverload_keeps (s := s) (show execModulatorOverload x0 x1 x2 s = _ from rfl)⟩
  | modulatorResume x0 x1 => exact ⟨_, rfl, execModulatorResume_keeps (s := s) (show execModulatorResume x0 x1 s = _ from rfl)⟩
  | biasReady x0 => exact ⟨_, rfl, execBiasReady_keeps (s := s) (show execBiasReady x0 s = _ from rfl)⟩
  | comparatorCtlWrite x0 x1 x2 => exact ⟨_, rfl, execComparatorCtlWrite_keeps (s := s) (show execComparatorCtlWrite x0 x1 x2 s = _ from rfl)⟩
  | comparatorThresholdWrite x0 x1 x2 => exact ⟨_, rfl, execComparatorThresholdWrite_keeps (s := s) (show execComparatorThresholdWrite x0 x1 x2 s = _ from rfl)⟩
  | thresholdSettled x0 x1 => exact ⟨_, rfl, execThresholdSettled_keeps (s := s) (show execThresholdSettled x0 x1 s = _ from rfl)⟩
  | windowWrite x0 x1 x2 => exact ⟨_, rfl, execWindowWrite_keeps (s := s) (show execWindowWrite x0 x1 x2 s = _ from rfl)⟩
  | riseCountRead x0 x1 x2 => exact ⟨_, rfl, execRiseCountRead_keeps (s := s) (show execRiseCountRead x0 x1 x2 s = _ from rfl)⟩
  | programEnd x0 => exact ⟨_, rfl, execProgramEnd_keeps (s := s) (show execProgramEnd x0 s = _ from rfl)⟩
  | dacCodeWrite x0 x1 => exact ⟨_, rfl, execDacCodeWrite_keeps (s := s) (show execDacCodeWrite x0 x1 s = _ from rfl)⟩
  | dacSourceWrite x0 x1 => exact ⟨_, rfl, execDacSourceWrite_keeps (s := s) (show execDacSourceWrite x0 x1 s = _ from rfl)⟩
  | rangeHoldEnd x0 => exact ⟨_, rfl, execRangeHoldEnd_keeps (s := s) (show execRangeHoldEnd x0 s = _ from rfl)⟩
  | paletteWrite x0 x1 x2 x3 => exact ⟨_, rfl, execPaletteWrite_keeps (s := s) (show execPaletteWrite x0 x1 x2 x3 s = _ from rfl)⟩
  | swapRequest x0 x1 => exact ⟨_, rfl, execSwapRequest_keeps (s := s) (show execSwapRequest x0 x1 s = _ from rfl)⟩
  | crossFadeEnd x0 => exact ⟨_, rfl, execCrossFadeEnd_keeps (s := s) (show execCrossFadeEnd x0 s = _ from rfl)⟩
  | panelClear x0 x1 => exact ⟨_, rfl, execPanelClear_keeps (s := s) (show execPanelClear x0 x1 s = _ from rfl)⟩
  | clearRelease x0 => exact ⟨_, rfl, execClearRelease_keeps (s := s) (show execClearRelease x0 s = _ from rfl)⟩
  | currentLimitShort x0 x1 => exact ⟨_, rfl, execCurrentLimitShort_keeps (s := s) (show execCurrentLimitShort x0 x1 s = _ from rfl)⟩
  | supervisionFault x0 x1 => exact ⟨_, rfl, execSupervisionFault_keeps (s := s) (show execSupervisionFault x0 x1 s = _ from rfl)⟩
  | standbyDrive x0 => exact ⟨_, rfl, execStandbyDrive_keeps (s := s) (show execStandbyDrive x0 s = _ from rfl)⟩
  | handover x0 x1 => exact ⟨_, rfl, execHandover_keeps (s := s) (show execHandover x0 x1 s = _ from rfl)⟩
  | analogueSupplyValid => exact ⟨_, rfl, execAnalogueSupplyValid_keeps (s := s) (show execAnalogueSupplyValid s = _ from rfl)⟩
  | peakDiffRead x0 x1 => exact ⟨_, rfl, execPeakDiffRead_keeps (s := s) (show execPeakDiffRead x0 x1 s = _ from rfl)⟩
  | dceOutput x0 x1 => exact ⟨_, rfl, execDceOutput_keeps (s := s) (show execDceOutput x0 x1 s = _ from rfl)⟩
  | channelCtlWrite x0 x1 x2 => exact ⟨_, rfl, execChannelCtlWrite_keeps (s := s) (show execChannelCtlWrite x0 x1 x2 s = _ from rfl)⟩
  | channelRestart x0 x1 => exact ⟨_, rfl, execChannelRestart_keeps (s := s) (show execChannelRestart x0 x1 s = _ from rfl)⟩
  | dceThresholdWrite x0 x1 x2 x3 => exact ⟨_, rfl, execDceThresholdWrite_keeps (s := s) (show execDceThresholdWrite x0 x1 x2 x3 s = _ from rfl)⟩
  | rdidxWrite x0 x1 x2 => exact ⟨_, rfl, execRdidxWrite_keeps (s := s) (show execRdidxWrite x0 x1 x2 s = _ from rfl)⟩
  | windowClose x0 x1 => exact ⟨_, rfl, execWindowClose_keeps (s := s) (show execWindowClose x0 x1 s = _ from rfl)⟩
  | windowDone x0 x1 => exact ⟨_, rfl, execWindowDone_keeps (s := s) (show execWindowDone x0 x1 s = _ from rfl)⟩
  | dceLastStampRead x0 x1 x2 => exact ⟨_, rfl, execDceLastStampRead_keeps (s := s) (show execDceLastStampRead x0 x1 x2 s = _ from rfl)⟩
  | overrunCountRead x0 x1 x2 => exact ⟨_, rfl, execOverrunCountRead_keeps (s := s) (show execOverrunCountRead x0 x1 x2 s = _ from rfl)⟩
  | latchTimingEdge x0 => exact ⟨_, rfl, execLatchTimingEdge_keeps (s := s) (show execLatchTimingEdge x0 s = _ from rfl)⟩
  | shiftStart x0 => exact ⟨_, rfl, execShiftStart_keeps (s := s) (show execShiftStart x0 s = _ from rfl)⟩
  | shiftEnd x0 => exact ⟨_, rfl, execShiftEnd_keeps (s := s) (show execShiftEnd x0 s = _ from rfl)⟩
  | readyPoll x0 => exact ⟨_, rfl, execReadyPoll_keeps (s := s) (show execReadyPoll x0 s = _ from rfl)⟩
  | blockFetch x0 => exact ⟨_, rfl, execBlockFetch_keeps (s := s) (show execBlockFetch x0 s = _ from rfl)⟩
  | portEnableWrite x0 x1 => exact ⟨_, rfl, execPortEnableWrite_keeps (s := s) (show execPortEnableWrite x0 x1 s = _ from rfl)⟩
  | profileWrite x0 x1 x2 => exact ⟨_, rfl, execProfileWrite_keeps (s := s) (show execProfileWrite x0 x1 x2 s = _ from rfl)⟩
  | prioPush x0 x1 x2 => exact ⟨_, rfl, execPrioPush_keeps (s := s) (show execPrioPush x0 x1 x2 s = _ from rfl)⟩
  | senseDeadWrite x0 x1 x2 => exact ⟨_, rfl, execSenseDeadWrite_keeps (s := s) (show execSenseDeadWrite x0 x1 x2 s = _ from rfl)⟩
  | nozzleMapWrite x0 x1 x2 => exact ⟨_, rfl, execNozzleMapWrite_keeps (s := s) (show execNozzleMapWrite x0 x1 x2 s = _ from rfl)⟩
  | unretire x0 x1 => exact ⟨_, rfl, execUnretire_keeps (s := s) (show execUnretire x0 x1 s = _ from rfl)⟩
  | nozzleMapWalk x0 => exact ⟨_, rfl, execNozzleMapWalk_keeps (s := s) (show execNozzleMapWalk x0 s = _ from rfl)⟩
  | criticalSetExpiry x0 x1 => exact ⟨_, rfl, execCriticalSetExpiry_keeps (s := s) (show execCriticalSetExpiry x0 x1 s = _ from rfl)⟩
  | auxPinChange x0 => exact ⟨_, rfl, execAuxPinChange_keeps (s := s) (show execAuxPinChange x0 s = _ from rfl)⟩
  | planrdWrite x0 x1 => exact ⟨_, rfl, execPlanrdWrite_keeps (s := s) (show execPlanrdWrite x0 x1 s = _ from rfl)⟩
  | ledgerCtlWrite x0 => exact ⟨_, rfl, execLedgerCtlWrite_keeps (s := s) (show execLedgerCtlWrite x0 s = _ from rfl)⟩
  | recordClose x0 => exact ⟨_, rfl, execRecordClose_keeps (s := s) (show execRecordClose x0 s = _ from rfl)⟩
  | recordFree x0 => exact ⟨_, rfl, execRecordFree_keeps (s := s) (show execRecordFree x0 s = _ from rfl)⟩
  | rejectArm x0 => exact ⟨_, rfl, execRejectArm_keeps (s := s) (show execRejectArm x0 s = _ from rfl)⟩
  | rejectArmRetry x0 => exact ⟨_, rfl, execRejectArmRetry_keeps (s := s) (show execRejectArmRetry x0 s = _ from rfl)⟩
  | raiseFail x0 => exact ⟨_, rfl, execRaiseFail_keeps (s := s) (show execRaiseFail x0 s = _ from rfl)⟩
  | raiseDoubt x0 => exact ⟨_, rfl, execRaiseDoubt_keeps (s := s) (show execRaiseDoubt x0 s = _ from rfl)⟩
  | setHorizon x0 => exact ⟨_, rfl, execSetHorizon_keeps (s := s) (show execSetHorizon x0 s = _ from rfl)⟩
  | ledgerRead x0 => exact ⟨_, rfl, execLedgerRead_keeps (s := s) (show execLedgerRead x0 s = _ from rfl)⟩
  | ringrdWrite x0 => exact ⟨_, rfl, execRingrdWrite_keeps (s := s) (show execRingrdWrite x0 s = _ from rfl)⟩
  | add x0 x1 x2 x3 => exact ⟨_, rfl, execAdd_keeps (s := s) (show execAdd x0 x1 x2 x3 s = _ from rfl)⟩
  | sub x0 x1 x2 x3 => exact ⟨_, rfl, execSub_keeps (s := s) (show execSub x0 x1 x2 x3 s = _ from rfl)⟩
  | and x0 x1 x2 x3 => exact ⟨_, rfl, execAnd_keeps (s := s) (show execAnd x0 x1 x2 x3 s = _ from rfl)⟩
  | or x0 x1 x2 x3 => exact ⟨_, rfl, execOr_keeps (s := s) (show execOr x0 x1 x2 x3 s = _ from rfl)⟩
  | xor x0 x1 x2 x3 => exact ⟨_, rfl, execXor_keeps (s := s) (show execXor x0 x1 x2 x3 s = _ from rfl)⟩
  | andn x0 x1 x2 x3 => exact ⟨_, rfl, execAndn_keeps (s := s) (show execAndn x0 x1 x2 x3 s = _ from rfl)⟩
  | shl x0 x1 x2 x3 => exact ⟨_, rfl, execShl_keeps (s := s) (show execShl x0 x1 x2 x3 s = _ from rfl)⟩
  | shr x0 x1 x2 x3 => exact ⟨_, rfl, execShr_keeps (s := s) (show execShr x0 x1 x2 x3 s = _ from rfl)⟩
  | sra x0 x1 x2 x3 => exact ⟨_, rfl, execSra_keeps (s := s) (show execSra x0 x1 x2 x3 s = _ from rfl)⟩
  | min x0 x1 x2 x3 => exact ⟨_, rfl, execMin_keeps (s := s) (show execMin x0 x1 x2 x3 s = _ from rfl)⟩
  | max x0 x1 x2 x3 => exact ⟨_, rfl, execMax_keeps (s := s) (show execMax x0 x1 x2 x3 s = _ from rfl)⟩
  | minu x0 x1 x2 x3 => exact ⟨_, rfl, execMinu_keeps (s := s) (show execMinu x0 x1 x2 x3 s = _ from rfl)⟩
  | maxu x0 x1 x2 x3 => exact ⟨_, rfl, execMaxu_keeps (s := s) (show execMaxu x0 x1 x2 x3 s = _ from rfl)⟩
  | adds x0 x1 x2 x3 => exact ⟨_, rfl, execAdds_keeps (s := s) (show execAdds x0 x1 x2 x3 s = _ from rfl)⟩
  | subs x0 x1 x2 x3 => exact ⟨_, rfl, execSubs_keeps (s := s) (show execSubs x0 x1 x2 x3 s = _ from rfl)⟩
  | addi x0 x1 x2 x3 => exact ⟨_, rfl, execAddi_keeps (s := s) (show execAddi x0 x1 x2 x3 s = _ from rfl)⟩
  | subi x0 x1 x2 x3 => exact ⟨_, rfl, execSubi_keeps (s := s) (show execSubi x0 x1 x2 x3 s = _ from rfl)⟩
  | andi x0 x1 x2 x3 => exact ⟨_, rfl, execAndi_keeps (s := s) (show execAndi x0 x1 x2 x3 s = _ from rfl)⟩
  | ori x0 x1 x2 x3 => exact ⟨_, rfl, execOri_keeps (s := s) (show execOri x0 x1 x2 x3 s = _ from rfl)⟩
  | xori x0 x1 x2 x3 => exact ⟨_, rfl, execXori_keeps (s := s) (show execXori x0 x1 x2 x3 s = _ from rfl)⟩
  | lui x0 x1 x2 => exact ⟨_, rfl, execLui_keeps (s := s) (show execLui x0 x1 x2 s = _ from rfl)⟩
  | shli x0 x1 x2 x3 => exact ⟨_, rfl, execShli_keeps (s := s) (show execShli x0 x1 x2 x3 s = _ from rfl)⟩
  | shri x0 x1 x2 x3 => exact ⟨_, rfl, execShri_keeps (s := s) (show execShri x0 x1 x2 x3 s = _ from rfl)⟩
  | srai x0 x1 x2 x3 => exact ⟨_, rfl, execSrai_keeps (s := s) (show execSrai x0 x1 x2 x3 s = _ from rfl)⟩
  | adda x0 x1 x2 x3 => exact ⟨_, rfl, execAdda_keeps (s := s) (show execAdda x0 x1 x2 x3 s = _ from rfl)⟩
  | addaR x0 x1 x2 x3 => exact ⟨_, rfl, execAddaR_keeps (s := s) (show execAddaR x0 x1 x2 x3 s = _ from rfl)⟩
  | laLo x0 x1 x2 => exact ⟨_, rfl, execLaLo_keeps (s := s) (show execLaLo x0 x1 x2 s = _ from rfl)⟩
  | laHi x0 x1 x2 => exact ⟨_, rfl, execLaHi_keeps (s := s) (show execLaHi x0 x1 x2 s = _ from rfl)⟩
  | mgaLo x0 x1 x2 => exact ⟨_, rfl, execMgaLo_keeps (s := s) (show execMgaLo x0 x1 x2 s = _ from rfl)⟩
  | mgaHi x0 x1 x2 => exact ⟨_, rfl, execMgaHi_keeps (s := s) (show execMgaHi x0 x1 x2 s = _ from rfl)⟩
  | mul x0 x1 x2 x3 => exact ⟨_, rfl, execMul_keeps (s := s) (show execMul x0 x1 x2 x3 s = _ from rfl)⟩
  | mulhs x0 x1 x2 x3 => exact ⟨_, rfl, execMulhs_keeps (s := s) (show execMulhs x0 x1 x2 x3 s = _ from rfl)⟩
  | mulhu x0 x1 x2 x3 => exact ⟨_, rfl, execMulhu_keeps (s := s) (show execMulhu x0 x1 x2 x3 s = _ from rfl)⟩
  | mac x0 x1 x2 x3 => exact ⟨_, rfl, execMac_keeps (s := s) (show execMac x0 x1 x2 x3 s = _ from rfl)⟩
  | msu x0 x1 x2 x3 => exact ⟨_, rfl, execMsu_keeps (s := s) (show execMsu x0 x1 x2 x3 s = _ from rfl)⟩
  | gfmul x0 x1 x2 x3 x4 => exact ⟨_, rfl, execGfmul_keeps (s := s) (show execGfmul x0 x1 x2 x3 x4 s = _ from rfl)⟩
  | gfmac x0 x1 x2 x3 x4 => exact ⟨_, rfl, execGfmac_keeps (s := s) (show execGfmac x0 x1 x2 x3 x4 s = _ from rfl)⟩
  | popc x0 x1 x2 => exact ⟨_, rfl, execPopc_keeps (s := s) (show execPopc x0 x1 x2 s = _ from rfl)⟩
  | clz x0 x1 x2 => exact ⟨_, rfl, execClz_keeps (s := s) (show execClz x0 x1 x2 s = _ from rfl)⟩
  | ctz x0 x1 x2 => exact ⟨_, rfl, execCtz_keeps (s := s) (show execCtz x0 x1 x2 s = _ from rfl)⟩
  | brev x0 x1 x2 => exact ⟨_, rfl, execBrev_keeps (s := s) (show execBrev x0 x1 x2 s = _ from rfl)⟩
  | bswap x0 x1 x2 => exact ⟨_, rfl, execBswap_keeps (s := s) (show execBswap x0 x1 x2 s = _ from rfl)⟩
  | bfxu x0 x1 x2 x3 x4 => exact ⟨_, rfl, execBfxu_keeps (s := s) (show execBfxu x0 x1 x2 x3 x4 s = _ from rfl)⟩
  | bfxs x0 x1 x2 x3 x4 => exact ⟨_, rfl, execBfxs_keeps (s := s) (show execBfxs x0 x1 x2 x3 x4 s = _ from rfl)⟩
  | bfi x0 x1 x2 x3 x4 => exact ⟨_, rfl, execBfi_keeps (s := s) (show execBfi x0 x1 x2 x3 x4 s = _ from rfl)⟩
  | cmpeq x0 x1 x2 x3 => exact ⟨_, rfl, execCmpeq_keeps (s := s) (show execCmpeq x0 x1 x2 x3 s = _ from rfl)⟩
  | cmpne x0 x1 x2 x3 => exact ⟨_, rfl, execCmpne_keeps (s := s) (show execCmpne x0 x1 x2 x3 s = _ from rfl)⟩
  | cmplt x0 x1 x2 x3 => exact ⟨_, rfl, execCmplt_keeps (s := s) (show execCmplt x0 x1 x2 x3 s = _ from rfl)⟩
  | cmpltu x0 x1 x2 x3 => exact ⟨_, rfl, execCmpltu_keeps (s := s) (show execCmpltu x0 x1 x2 x3 s = _ from rfl)⟩
  | cmpge x0 x1 x2 x3 => exact ⟨_, rfl, execCmpge_keeps (s := s) (show execCmpge x0 x1 x2 x3 s = _ from rfl)⟩
  | cmpgeu x0 x1 x2 x3 => exact ⟨_, rfl, execCmpgeu_keeps (s := s) (show execCmpgeu x0 x1 x2 x3 s = _ from rfl)⟩
  | cmpi x0 x1 x2 x3 x4 => exact ⟨_, rfl, execCmpi_keeps (s := s) (show execCmpi x0 x1 x2 x3 x4 s = _ from rfl)⟩
  | pand x0 x1 x2 x3 => exact ⟨_, rfl, execPand_keeps (s := s) (show execPand x0 x1 x2 x3 s = _ from rfl)⟩
  | por x0 x1 x2 x3 => exact ⟨_, rfl, execPor_keeps (s := s) (show execPor x0 x1 x2 x3 s = _ from rfl)⟩
  | pxor x0 x1 x2 x3 => exact ⟨_, rfl, execPxor_keeps (s := s) (show execPxor x0 x1 x2 x3 s = _ from rfl)⟩
  | pandn x0 x1 x2 x3 => exact ⟨_, rfl, execPandn_keeps (s := s) (show execPandn x0 x1 x2 x3 s = _ from rfl)⟩
  | sel x0 x1 x2 x3 x4 => exact ⟨_, rfl, execSel_keeps (s := s) (show execSel x0 x1 x2 x3 x4 s = _ from rfl)⟩
  | ldB x0 x1 x2 x3 => exact ⟨_, rfl, execLdB_keeps (s := s) (show execLdB x0 x1 x2 x3 s = _ from rfl)⟩
  | ldH x0 x1 x2 x3 => exact ⟨_, rfl, execLdH_keeps (s := s) (show execLdH x0 x1 x2 x3 s = _ from rfl)⟩
  | ldW x0 x1 x2 x3 => exact ⟨_, rfl, execLdW_keeps (s := s) (show execLdW x0 x1 x2 x3 s = _ from rfl)⟩
  | ldV x0 x1 x2 x3 => exact ⟨_, rfl, execLdV_keeps (s := s) (show execLdV x0 x1 x2 x3 s = _ from rfl)⟩
  | ldBu x0 x1 x2 x3 => exact ⟨_, rfl, execLdBu_keeps (s := s) (show execLdBu x0 x1 x2 x3 s = _ from rfl)⟩
  | ldHu x0 x1 x2 x3 => exact ⟨_, rfl, execLdHu_keeps (s := s) (show execLdHu x0 x1 x2 x3 s = _ from rfl)⟩
  | stB x0 x1 x2 x3 => exact ⟨_, rfl, execStB_keeps (s := s) (show execStB x0 x1 x2 x3 s = _ from rfl)⟩
  | stH x0 x1 x2 x3 => exact ⟨_, rfl, execStH_keeps (s := s) (show execStH x0 x1 x2 x3 s = _ from rfl)⟩
  | stW x0 x1 x2 x3 => exact ⟨_, rfl, execStW_keeps (s := s) (show execStW x0 x1 x2 x3 s = _ from rfl)⟩
  | stV x0 x1 x2 x3 => exact ⟨_, rfl, execStV_keeps (s := s) (show execStV x0 x1 x2 x3 s = _ from rfl)⟩
  | dma x0 x1 x2 x3 => exact ⟨_, rfl, execDma_keeps (s := s) (show execDma x0 x1 x2 x3 s = _ from rfl)⟩
  | vadd x0 x1 x2 x3 x4 => exact ⟨_, rfl, execVadd_keeps (s := s) (show execVadd x0 x1 x2 x3 x4 s = _ from rfl)⟩
  | vsub x0 x1 x2 x3 x4 => exact ⟨_, rfl, execVsub_keeps (s := s) (show execVsub x0 x1 x2 x3 x4 s = _ from rfl)⟩
  | vadds x0 x1 x2 x3 x4 => exact ⟨_, rfl, execVadds_keeps (s := s) (show execVadds x0 x1 x2 x3 x4 s = _ from rfl)⟩
  | vaddsu x0 x1 x2 x3 x4 => exact ⟨_, rfl, execVaddsu_keeps (s := s) (show execVaddsu x0 x1 x2 x3 x4 s = _ from rfl)⟩
  | vsubs x0 x1 x2 x3 x4 => exact ⟨_, rfl, execVsubs_keeps (s := s) (show execVsubs x0 x1 x2 x3 x4 s = _ from rfl)⟩
  | vsubsu x0 x1 x2 x3 x4 => exact ⟨_, rfl, execVsubsu_keeps (s := s) (show execVsubsu x0 x1 x2 x3 x4 s = _ from rfl)⟩
  | vmul x0 x1 x2 x3 x4 => exact ⟨_, rfl, execVmul_keeps (s := s) (show execVmul x0 x1 x2 x3 x4 s = _ from rfl)⟩
  | vmulhs x0 x1 x2 x3 x4 => exact ⟨_, rfl, execVmulhs_keeps (s := s) (show execVmulhs x0 x1 x2 x3 x4 s = _ from rfl)⟩
  | vmin x0 x1 x2 x3 x4 => exact ⟨_, rfl, execVmin_keeps (s := s) (show execVmin x0 x1 x2 x3 x4 s = _ from rfl)⟩
  | vminu x0 x1 x2 x3 x4 => exact ⟨_, rfl, execVminu_keeps (s := s) (show execVminu x0 x1 x2 x3 x4 s = _ from rfl)⟩
  | vmax x0 x1 x2 x3 x4 => exact ⟨_, rfl, execVmax_keeps (s := s) (show execVmax x0 x1 x2 x3 x4 s = _ from rfl)⟩
  | vmaxu x0 x1 x2 x3 x4 => exact ⟨_, rfl, execVmaxu_keeps (s := s) (show execVmaxu x0 x1 x2 x3 x4 s = _ from rfl)⟩
  | vavgu x0 x1 x2 x3 x4 => exact ⟨_, rfl, execVavgu_keeps (s := s) (show execVavgu x0 x1 x2 x3 x4 s = _ from rfl)⟩
  | vand x0 x1 x2 x3 x4 => exact ⟨_, rfl, execVand_keeps (s := s) (show execVand x0 x1 x2 x3 x4 s = _ from rfl)⟩
  | vor x0 x1 x2 x3 x4 => exact ⟨_, rfl, execVor_keeps (s := s) (show execVor x0 x1 x2 x3 x4 s = _ from rfl)⟩
  | vxor x0 x1 x2 x3 x4 => exact ⟨_, rfl, execVxor_keeps (s := s) (show execVxor x0 x1 x2 x3 x4 s = _ from rfl)⟩
  | vandn x0 x1 x2 x3 x4 => exact ⟨_, rfl, execVandn_keeps (s := s) (show execVandn x0 x1 x2 x3 x4 s = _ from rfl)⟩
  | vcmpeq x0 x1 x2 x3 x4 => exact ⟨_, rfl, execVcmpeq_keeps (s := s) (show execVcmpeq x0 x1 x2 x3 x4 s = _ from rfl)⟩
  | vcmpgt x0 x1 x2 x3 x4 => exact ⟨_, rfl, execVcmpgt_keeps (s := s) (show execVcmpgt x0 x1 x2 x3 x4 s = _ from rfl)⟩
  | vcmpgtu x0 x1 x2 x3 x4 => exact ⟨_, rfl, execVcmpgtu_keeps (s := s) (show execVcmpgtu x0 x1 x2 x3 x4 s = _ from rfl)⟩
  | vshl x0 x1 x2 x3 x4 => exact ⟨_, rfl, execVshl_keeps (s := s) (show execVshl x0 x1 x2 x3 x4 s = _ from rfl)⟩
  | vshr x0 x1 x2 x3 x4 => exact ⟨_, rfl, execVshr_keeps (s := s) (show execVshr x0 x1 x2 x3 x4 s = _ from rfl)⟩
  | vsra x0 x1 x2 x3 x4 => exact ⟨_, rfl, execVsra_keeps (s := s) (show execVsra x0 x1 x2 x3 x4 s = _ from rfl)⟩
  | vperm x0 x1 x2 x3 x4 => exact ⟨_, rfl, execVperm_keeps (s := s) (show execVperm x0 x1 x2 x3 x4 s = _ from rfl)⟩
  | vbtr8 x0 x1 x2 x3 => exact ⟨_, rfl, execVbtr8_keeps (s := s) (show execVbtr8 x0 x1 x2 x3 s = _ from rfl)⟩
  | vext x0 x1 x2 x3 x4 => exact ⟨_, rfl, execVext_keeps (s := s) (show execVext x0 x1 x2 x3 x4 s = _ from rfl)⟩
  | vins x0 x1 x2 x3 x4 => exact ⟨_, rfl, execVins_keeps (s := s) (show execVins x0 x1 x2 x3 x4 s = _ from rfl)⟩
  | vsplat x0 x1 x2 x3 => exact ⟨_, rfl, execVsplat_keeps (s := s) (show execVsplat x0 x1 x2 x3 s = _ from rfl)⟩
  | vslb x0 x1 x2 x3 x4 => exact ⟨_, rfl, execVslb_keeps (s := s) (show execVslb x0 x1 x2 x3 x4 s = _ from rfl)⟩
  | vsrb x0 x1 x2 x3 x4 => exact ⟨_, rfl, execVsrb_keeps (s := s) (show execVsrb x0 x1 x2 x3 x4 s = _ from rfl)⟩
  | vsel x0 x1 x2 x3 x4 => exact ⟨_, rfl, execVsel_keeps (s := s) (show execVsel x0 x1 x2 x3 x4 s = _ from rfl)⟩
  | vhsum x0 x1 x2 x3 => exact ⟨_, rfl, execVhsum_keeps (s := s) (show execVhsum x0 x1 x2 x3 s = _ from rfl)⟩
  | vht1 x0 x1 x2 x3 x4 => exact ⟨_, rfl, execVht1_keeps (s := s) (show execVht1 x0 x1 x2 x3 x4 s = _ from rfl)⟩
  | vht2 x0 x1 x2 x3 x4 => exact ⟨_, rfl, execVht2_keeps (s := s) (show execVht2 x0 x1 x2 x3 x4 s = _ from rfl)⟩
  | vgfmul x0 x1 x2 x3 x4 x5 => exact ⟨_, rfl, execVgfmul_keeps (s := s) (show execVgfmul x0 x1 x2 x3 x4 x5 s = _ from rfl)⟩
  | vgfmac x0 x1 x2 x3 x4 x5 => exact ⟨_, rfl, execVgfmac_keeps (s := s) (show execVgfmac x0 x1 x2 x3 x4 x5 s = _ from rfl)⟩
  | vgfmacs x0 x1 x2 x3 x4 x5 => exact ⟨_, rfl, execVgfmacs_keeps (s := s) (show execVgfmacs x0 x1 x2 x3 x4 x5 s = _ from rfl)⟩
  | br x0 x1 x2 => exact ⟨_, rfl, execBr_keeps (s := s) (show execBr x0 x1 x2 s = _ from rfl)⟩
  | brf x0 x1 x2 => exact ⟨_, rfl, execBrf_keeps (s := s) (show execBrf x0 x1 x2 s = _ from rfl)⟩
  | bra x0 x1 => exact ⟨_, rfl, execBra_keeps (s := s) (show execBra x0 x1 s = _ from rfl)⟩
  | call x0 x1 => exact ⟨_, rfl, execCall_keeps (s := s) (show execCall x0 x1 s = _ from rfl)⟩
  | jr x0 x1 => exact ⟨_, rfl, execJr_keeps (s := s) (show execJr x0 x1 s = _ from rfl)⟩
  | jalr x0 x1 x2 => exact ⟨_, rfl, execJalr_keeps (s := s) (show execJalr x0 x1 x2 s = _ from rfl)⟩
  | qget x0 x1 x2 x3 => exact ⟨_, rfl, execQget_keeps (s := s) (show execQget x0 x1 x2 x3 s = _ from rfl)⟩
  | qput x0 x1 x2 => exact ⟨_, rfl, execQput_keeps (s := s) (show execQput x0 x1 x2 s = _ from rfl)⟩
  | qsteal x0 x1 => exact ⟨_, rfl, execQsteal_keeps (s := s) (show execQsteal x0 x1 s = _ from rfl)⟩
  | qdone x0 x1 => exact ⟨_, rfl, execQdone_keeps (s := s) (show execQdone x0 x1 s = _ from rfl)⟩
  | qfail x0 x1 x2 => exact ⟨_, rfl, execQfail_keeps (s := s) (show execQfail x0 x1 x2 s = _ from rfl)⟩
  | carmT x0 x1 x2 => exact ⟨_, rfl, execCarmT_keeps (s := s) (show execCarmT x0 x1 x2 s = _ from rfl)⟩
  | carmP x0 x1 x2 => exact ⟨_, rfl, execCarmP_keeps (s := s) (show execCarmP x0 x1 x2 s = _ from rfl)⟩
  | cdisarm x0 x1 x2 => exact ⟨_, rfl, execCdisarm_keeps (s := s) (show execCdisarm x0 x1 x2 s = _ from rfl)⟩
  | twait x0 x1 => exact ⟨_, rfl, execTwait_keeps (s := s) (show execTwait x0 x1 s = _ from rfl)⟩
  | dlset x0 x1 => exact ⟨_, rfl, execDlset_keeps (s := s) (show execDlset x0 x1 s = _ from rfl)⟩
  | ewait x0 x1 x2 => exact ⟨_, rfl, execEwait_keeps (s := s) (show execEwait x0 x1 x2 s = _ from rfl)⟩
  | raise x0 x1 => exact ⟨_, rfl, execRaise_keeps (s := s) (show execRaise x0 x1 s = _ from rfl)⟩
  | mfsr x0 x1 x2 => exact ⟨_, rfl, execMfsr_keeps (s := s) (show execMfsr x0 x1 x2 s = _ from rfl)⟩
  | mtsr x0 x1 x2 => exact ⟨_, rfl, execMtsr_keeps (s := s) (show execMtsr x0 x1 x2 s = _ from rfl)⟩
  | fenceL x0 => exact ⟨_, rfl, execFenceL_keeps (s := s) (show execFenceL x0 s = _ from rfl)⟩
  | fenceS x0 => exact ⟨_, rfl, execFenceS_keeps (s := s) (show execFenceS x0 s = _ from rfl)⟩
  | fenceI x0 => exact ⟨_, rfl, execFenceI_keeps (s := s) (show execFenceI x0 s = _ from rfl)⟩
  | iinv x0 => exact ⟨_, rfl, execIinv_keeps (s := s) (show execIinv x0 s = _ from rfl)⟩
  | park x0 => exact ⟨_, rfl, execPark_keeps (s := s) (show execPark x0 s = _ from rfl)⟩
  | eret x0 => exact ⟨_, rfl, execEret_keeps (s := s) (show execEret x0 s = _ from rfl)⟩
  | trap x0 x1 => exact ⟨_, rfl, execTrap_keeps (s := s) (show execTrap x0 x1 s = _ from rfl)⟩
  | brk x0 => exact ⟨_, rfl, execBrk_keeps (s := s) (show execBrk x0 s = _ from rfl)⟩
  | dmawait x0 x1 x2 => exact ⟨_, rfl, execDmawait_keeps (s := s) (show execDmawait x0 x1 x2 s = _ from rfl)⟩
  | exceptionEntry x0 => exact ⟨_, rfl, execExceptionEntry_keeps (s := s) (show execExceptionEntry x0 s = _ from rfl)⟩
  | loadReturn x0 x1 x2 => exact ⟨_, rfl, execLoadReturn_keeps (s := s) (show execLoadReturn x0 x1 x2 s = _ from rfl)⟩
  | storeAcknowledge x0 x1 => exact ⟨_, rfl, execStoreAcknowledge_keeps (s := s) (show execStoreAcknowledge x0 x1 s = _ from rfl)⟩
  | icacheRefill x0 x1 x2 => exact ⟨_, rfl, execIcacheRefill_keeps (s := s) (show execIcacheRefill x0 x1 x2 s = _ from rfl)⟩
  | answerReturn x0 => exact ⟨_, rfl, execAnswerReturn_keeps (s := s) (show execAnswerReturn x0 s = _ from rfl)⟩
  | twaitSatisfied x0 => exact ⟨_, rfl, execTwaitSatisfied_keeps (s := s) (show execTwaitSatisfied x0 s = _ from rfl)⟩
  | ewaitSatisfied x0 => exact ⟨_, rfl, execEwaitSatisfied_keeps (s := s) (show execEwaitSatisfied x0 s = _ from rfl)⟩
  | qgetTimeout x0 => exact ⟨_, rfl, execQgetTimeout_keeps (s := s) (show execQgetTimeout x0 s = _ from rfl)⟩
  | dmaComplete x0 => exact ⟨_, rfl, execDmaComplete_keeps (s := s) (show execDmaComplete x0 s = _ from rfl)⟩
  | dmawaitReturn x0 => exact ⟨_, rfl, execDmawaitReturn_keeps (s := s) (show execDmawaitReturn x0 s = _ from rfl)⟩
  | engineCueTimer x0 => exact ⟨_, rfl, execEngineCueTimer_keeps (s := s) (show execEngineCueTimer x0 s = _ from rfl)⟩
  | deadlineWatchFire x0 => exact ⟨_, rfl, execDeadlineWatchFire_keeps (s := s) (show execDeadlineWatchFire x0 s = _ from rfl)⟩
  | watchdogExpiry x0 => exact ⟨_, rfl, execWatchdogExpiry_keeps (s := s) (show execWatchdogExpiry x0 s = _ from rfl)⟩
  | engineFault x0 => exact ⟨_, rfl, execEngineFault_keeps (s := s) (show execEngineFault x0 s = _ from rfl)⟩
  | engineStart x0 x1 => exact ⟨_, rfl, execEngineStart_keeps (s := s) (show execEngineStart x0 x1 s = _ from rfl)⟩
  | engineReset x0 x1 => exact ⟨_, rfl, execEngineReset_keeps (s := s) (show execEngineReset x0 x1 s = _ from rfl)⟩
  | forceFault x0 x1 => exact ⟨_, rfl, execForceFault_keeps (s := s) (show execForceFault x0 x1 s = _ from rfl)⟩
  | unlock x0 x1 => exact ⟨_, rfl, execUnlock_keeps (s := s) (show execUnlock x0 x1 s = _ from rfl)⟩
  | halt x0 x1 => exact ⟨_, rfl, execHalt_keeps (s := s) (show execHalt x0 x1 s = _ from rfl)⟩
  | step x0 x1 => exact ⟨_, rfl, execStep_keeps (s := s) (show execStep x0 x1 s = _ from rfl)⟩
  | resume x0 x1 => exact ⟨_, rfl, execResume_keeps (s := s) (show execResume x0 x1 s = _ from rfl)⟩
  | breakpointHit x0 x1 => exact ⟨_, rfl, execBreakpointHit_keeps (s := s) (show execBreakpointHit x0 x1 s = _ from rfl)⟩
  | perfCountRead x0 x1 x2 => exact ⟨_, rfl, execPerfCountRead_keeps (s := s) (show execPerfCountRead x0 x1 x2 s = _ from rfl)⟩
  | jobDelivery x0 => exact ⟨_, rfl, execJobDelivery_keeps (s := s) (show execJobDelivery x0 s = _ from rfl)⟩
  | hostPostGo x0 x1 x2 => exact ⟨_, rfl, execHostPostGo_keeps (s := s) (show execHostPostGo x0 x1 x2 s = _ from rfl)⟩
  | missDetection x0 x1 => exact ⟨_, rfl, execMissDetection_keeps (s := s) (show execMissDetection x0 x1 s = _ from rfl)⟩
  | fallbackPost x0 => exact ⟨_, rfl, execFallbackPost_keeps (s := s) (show execFallbackPost x0 s = _ from rfl)⟩
  | jobReturn x0 => exact ⟨_, rfl, execJobReturn_keeps (s := s) (show execJobReturn x0 s = _ from rfl)⟩
  | headAdvance x0 => exact ⟨_, rfl, execHeadAdvance_keeps (s := s) (show execHeadAdvance x0 s = _ from rfl)⟩
  | classAging x0 => exact ⟨_, rfl, execClassAging_keeps (s := s) (show execClassAging x0 s = _ from rfl)⟩
  | urgencyOnset x0 => exact ⟨_, rfl, execUrgencyOnset_keeps (s := s) (show execUrgencyOnset x0 s = _ from rfl)⟩
  | queueCtlWrite x0 x1 => exact ⟨_, rfl, execQueueCtlWrite_keeps (s := s) (show execQueueCtlWrite x0 x1 s = _ from rfl)⟩
  | queueCountRead x0 x1 x2 => exact ⟨_, rfl, execQueueCountRead_keeps (s := s) (show execQueueCountRead x0 x1 x2 s = _ from rfl)⟩
  | headdlRead x0 x1 => exact ⟨_, rfl, execHeaddlRead_keeps (s := s) (show execHeaddlRead x0 x1 s = _ from rfl)⟩
  | correctedWriteback x0 x1 => exact ⟨_, rfl, execCorrectedWriteback_keeps (s := s) (show execCorrectedWriteback x0 x1 s = _ from rfl)⟩
  | testWindowStart x0 => exact ⟨_, rfl, execTestWindowStart_keeps (s := s) (show execTestWindowStart x0 s = _ from rfl)⟩
  | testWindowAbandon x0 => exact ⟨_, rfl, execTestWindowAbandon_keeps (s := s) (show execTestWindowAbandon x0 s = _ from rfl)⟩
  | rowRestore x0 => exact ⟨_, rfl, execRowRestore_keeps (s := s) (show execRowRestore x0 s = _ from rfl)⟩
  | testWindowEnd x0 x1 => exact ⟨_, rfl, execTestWindowEnd_keeps (s := s) (show execTestWindowEnd x0 x1 s = _ from rfl)⟩
  | bankSpareComplete x0 => exact ⟨_, rfl, execBankSpareComplete_keeps (s := s) (show execBankSpareComplete x0 s = _ from rfl)⟩
  | retain x0 x1 => exact ⟨_, rfl, execRetain_keeps (s := s) (show execRetain x0 x1 s = _ from rfl)⟩
  | retainComplete x0 => exact ⟨_, rfl, execRetainComplete_keeps (s := s) (show execRetainComplete x0 s = _ from rfl)⟩
  | wake x0 x1 => exact ⟨_, rfl, execWake_keeps (s := s) (show execWake x0 x1 s = _ from rfl)⟩
  | wakeComplete x0 => exact ⟨_, rfl, execWakeComplete_keeps (s := s) (show execWakeComplete x0 s = _ from rfl)⟩
  | ceCountRead x0 x1 => exact ⟨_, rfl, execCeCountRead_keeps (s := s) (show execCeCountRead x0 x1 s = _ from rfl)⟩
  | lpddrRead x0 x1 x2 x3 x4 x5 => exact ⟨_, rfl, execLpddrRead_keeps (s := s) (show execLpddrRead x0 x1 x2 x3 x4 x5 s = _ from rfl)⟩
  | lpddrWrite x0 x1 x2 x3 x4 x5 => exact ⟨_, rfl, execLpddrWrite_keeps (s := s) (show execLpddrWrite x0 x1 x2 x3 x4 x5 s = _ from rfl)⟩
  | channelFailed x0 => exact ⟨_, rfl, execChannelFailed_keeps (s := s) (show execChannelFailed x0 s = _ from rfl)⟩
  | scrubRead x0 x1 => exact ⟨_, rfl, execScrubRead_keeps (s := s) (show execScrubRead x0 x1 s = _ from rfl)⟩
  | memcCfgWrite x0 => exact ⟨_, rfl, execMemcCfgWrite_keeps (s := s) (show execMemcCfgWrite x0 s = _ from rfl)⟩
  | memcCountRead x0 x1 => exact ⟨_, rfl, execMemcCountRead_keeps (s := s) (show execMemcCountRead x0 x1 s = _ from rfl)⟩
  | bar0Write x0 x1 x2 x3 => exact ⟨_, rfl, execBar0Write_keeps (s := s) (show execBar0Write x0 x1 x2 x3 s = _ from rfl)⟩
  | bar0Read x0 x1 x2 => exact ⟨_, rfl, execBar0Read_keeps (s := s) (show execBar0Read x0 x1 x2 s = _ from rfl)⟩
  | unsupportedRequest x0 => exact ⟨_, rfl, execUnsupportedRequest_keeps (s := s) (show execUnsupportedRequest x0 s = _ from rfl)⟩
  | dataPortWrite x0 x1 x2 x3 x4 => exact ⟨_, rfl, execDataPortWrite_keeps (s := s) (show execDataPortWrite x0 x1 x2 x3 x4 s = _ from rfl)⟩
  | burstIdleTimeout x0 => exact ⟨_, rfl, execBurstIdleTimeout_keeps (s := s) (show execBurstIdleTimeout x0 s = _ from rfl)⟩
  | flush x0 x1 => exact ⟨_, rfl, execFlush_keeps (s := s) (show execFlush x0 x1 s = _ from rfl)⟩
  | dataPortRead x0 x1 x2 => exact ⟨_, rfl, execDataPortRead_keeps (s := s) (show execDataPortRead x0 x1 x2 s = _ from rfl)⟩
  | dataPortSeamTimeout x0 x1 => exact ⟨_, rfl, execDataPortSeamTimeout_keeps (s := s) (show execDataPortSeamTimeout x0 x1 s = _ from rfl)⟩
  | msixSend x0 => exact ⟨_, rfl, execMsixSend_keeps (s := s) (show execMsixSend x0 s = _ from rfl)⟩
  | functionReset => exact ⟨_, rfl, execFunctionReset_keeps (s := s) (show execFunctionReset s = _ from rfl)⟩
  | retrain x0 => exact ⟨_, rfl, execRetrain_keeps (s := s) (show execRetrain x0 s = _ from rfl)⟩
  | linkUp x0 x1 => exact ⟨_, rfl, execLinkUp_keeps (s := s) (show execLinkUp x0 x1 s = _ from rfl)⟩
  | linkDown => exact ⟨_, rfl, execLinkDown_keeps (s := s) (show execLinkDown s = _ from rfl)⟩
  | speedChange x0 => exact ⟨_, rfl, execSpeedChange_keeps (s := s) (show execSpeedChange x0 s = _ from rfl)⟩
  | violationCountRead x0 => exact ⟨_, rfl, execViolationCountRead_keeps (s := s) (show execViolationCountRead x0 s = _ from rfl)⟩
  | bootRead x0 => exact ⟨_, rfl, execBootRead_keeps (s := s) (show execBootRead x0 s = _ from rfl)⟩
  | bootProgram x0 => exact ⟨_, rfl, execBootProgram_keeps (s := s) (show execBootProgram x0 s = _ from rfl)⟩
  | bootErase x0 => exact ⟨_, rfl, execBootErase_keeps (s := s) (show execBootErase x0 s = _ from rfl)⟩
  | bootDone x0 x1 => exact ⟨_, rfl, execBootDone_keeps (s := s) (show execBootDone x0 x1 s = _ from rfl)⟩
  | flashBusyTimeout x0 => exact ⟨_, rfl, execFlashBusyTimeout_keeps (s := s) (show execFlashBusyTimeout x0 s = _ from rfl)⟩
  | fabricPortRequest x0 x1 x2 x3 x4 => exact ⟨_, rfl, execFabricPortRequest_keeps (s := s) (show execFabricPortRequest x0 x1 x2 x3 x4 s = _ from rfl)⟩
  | cuffWrite x0 x1 x2 => exact ⟨_, rfl, execCuffWrite_keeps (s := s) (show execCuffWrite x0 x1 x2 s = _ from rfl)⟩
  | ownerChange x0 => exact ⟨_, rfl, execOwnerChange_keeps (s := s) (show execOwnerChange x0 s = _ from rfl)⟩
  | loadGo x0 => exact ⟨_, rfl, execLoadGo_keeps (s := s) (show execLoadGo x0 s = _ from rfl)⟩
  | loadCheckDone => exact ⟨_, rfl, execLoadCheckDone_keeps (s := s) (show execLoadCheckDone s = _ from rfl)⟩
  | loadAbort x0 => exact ⟨_, rfl, execLoadAbort_keeps (s := s) (show execLoadAbort x0 s = _ from rfl)⟩
  | applyStart => exact ⟨_, rfl, execApplyStart_keeps (s := s) (show execApplyStart s = _ from rfl)⟩
  | sleeveRelease => exact ⟨_, rfl, execSleeveRelease_keeps (s := s) (show execSleeveRelease s = _ from rfl)⟩
  | configWriteData x0 => exact ⟨_, rfl, execConfigWriteData_keeps (s := s) (show execConfigWriteData x0 s = _ from rfl)⟩
  | configReadStatus => exact ⟨_, rfl, execConfigReadStatus_keeps (s := s) (show execConfigReadStatus s = _ from rfl)⟩
  | configParallelWord x0 x1 => exact ⟨_, rfl, execConfigParallelWord_keeps (s := s) (show execConfigParallelWord x0 x1 s = _ from rfl)⟩
  | configCsRise x0 => exact ⟨_, rfl, execConfigCsRise_keeps (s := s) (show execConfigCsRise x0 s = _ from rfl)⟩
  | portSilenceTimeout => exact ⟨_, rfl, execPortSilenceTimeout_keeps (s := s) (show execPortSilenceTimeout s = _ from rfl)⟩
  | portViolationRead x0 => exact ⟨_, rfl, execPortViolationRead_keeps (s := s) (show execPortViolationRead x0 s = _ from rfl)⟩
  | verifyImage x0 => exact ⟨_, rfl, execVerifyImage_keeps (s := s) (show execVerifyImage x0 s = _ from rfl)⟩
  | attest x0 => exact ⟨_, rfl, execAttest_keeps (s := s) (show execAttest x0 s = _ from rfl)⟩
  | enrol x0 => exact ⟨_, rfl, execEnrol_keeps (s := s) (show execEnrol x0 s = _ from rfl)⟩
  | revoke x0 => exact ⟨_, rfl, execRevoke_keeps (s := s) (show execRevoke x0 s = _ from rfl)⟩
  | debugUnlock x0 => exact ⟨_, rfl, execDebugUnlock_keeps (s := s) (show execDebugUnlock x0 s = _ from rfl)⟩
  | mantleOperationDone x0 => exact ⟨_, rfl, execMantleOperationDone_keeps (s := s) (show execMantleOperationDone x0 s = _ from rfl)⟩
  | rollbackAdvance x0 => exact ⟨_, rfl, execRollbackAdvance_keeps (s := s) (show execRollbackAdvance x0 s = _ from rfl)⟩
  | fuseBurnDone x0 => exact ⟨_, rfl, execFuseBurnDone_keeps (s := s) (show execFuseBurnDone x0 s = _ from rfl)⟩
  | debugLock x0 => exact ⟨_, rfl, execDebugLock_keeps (s := s) (show execDebugLock x0 s = _ from rfl)⟩
  | unlockExpiry => exact ⟨_, rfl, execUnlockExpiry_keeps (s := s) (show execUnlockExpiry s = _ from rfl)⟩
  | rgnLock x0 => exact ⟨_, rfl, execRgnLock_keeps (s := s) (show execRgnLock x0 s = _ from rfl)⟩
  | seamPortEnable x0 x1 => exact ⟨_, rfl, execSeamPortEnable_keeps (s := s) (show execSeamPortEnable x0 x1 s = _ from rfl)⟩
  | seamRetrain x0 x1 => exact ⟨_, rfl, execSeamRetrain_keeps (s := s) (show execSeamRetrain x0 x1 s = _ from rfl)⟩
  | trainingComplete x0 x1 x2 x3 x4 => exact ⟨_, rfl, execTrainingComplete_keeps (s := s) (show execTrainingComplete x0 x1 x2 x3 x4 s = _ from rfl)⟩
  | trainingRestart x0 => exact ⟨_, rfl, execTrainingRestart_keeps (s := s) (show execTrainingRestart x0 s = _ from rfl)⟩
  | laneSparing x0 x1 => exact ⟨_, rfl, execLaneSparing_keeps (s := s) (show execLaneSparing x0 x1 s = _ from rfl)⟩
  | portDown x0 x1 => exact ⟨_, rfl, execPortDown_keeps (s := s) (show execPortDown x0 x1 s = _ from rfl)⟩
  | hello x0 x1 => exact ⟨_, rfl, execHello_keeps (s := s) (show execHello x0 x1 s = _ from rfl)⟩
  | laneMap x0 x1 => exact ⟨_, rfl, execLaneMap_keeps (s := s) (show execLaneMap x0 x1 s = _ from rfl)⟩
  | idle x0 x1 => exact ⟨_, rfl, execIdle_keeps (s := s) (show execIdle x0 x1 s = _ from rfl)⟩
  | idleSend x0 => exact ⟨_, rfl, execIdleSend_keeps (s := s) (show execIdleSend x0 s = _ from rfl)⟩
  | replayTimeout x0 => exact ⟨_, rfl, execReplayTimeout_keeps (s := s) (show execReplayTimeout x0 s = _ from rfl)⟩
  | seamWrite x0 x1 => exact ⟨_, rfl, execSeamWrite_keeps (s := s) (show execSeamWrite x0 x1 s = _ from rfl)⟩
  | seamRead x0 x1 => exact ⟨_, rfl, execSeamRead_keeps (s := s) (show execSeamRead x0 x1 s = _ from rfl)⟩
  | readResp x0 x1 => exact ⟨_, rfl, execReadResp_keeps (s := s) (show execReadResp x0 x1 s = _ from rfl)⟩
  | seamAnswer x0 x1 => exact ⟨_, rfl, execSeamAnswer_keeps (s := s) (show execSeamAnswer x0 x1 s = _ from rfl)⟩
  | seamMsg x0 x1 => exact ⟨_, rfl, execSeamMsg_keeps (s := s) (show execSeamMsg x0 x1 s = _ from rfl)⟩
  | cueAt x0 x1 => exact ⟨_, rfl, execCueAt_keeps (s := s) (show execCueAt x0 x1 s = _ from rfl)⟩
  | seamAttest x0 x1 => exact ⟨_, rfl, execSeamAttest_keeps (s := s) (show execSeamAttest x0 x1 s = _ from rfl)⟩
  | timeSync x0 x1 x2 => exact ⟨_, rfl, execTimeSync_keeps (s := s) (show execTimeSync x0 x1 x2 s = _ from rfl)⟩
  | timeSyncReply x0 x1 x2 => exact ⟨_, rfl, execTimeSyncReply_keeps (s := s) (show execTimeSyncReply x0 x1 x2 s = _ from rfl)⟩
  | tsyncExchange x0 => exact ⟨_, rfl, execTsyncExchange_keeps (s := s) (show execTsyncExchange x0 s = _ from rfl)⟩
  | seamRequestTimeout x0 x1 => exact ⟨_, rfl, execSeamRequestTimeout_keeps (s := s) (show execSeamRequestTimeout x0 x1 s = _ from rfl)⟩
  | cueAtGo x0 x1 => exact ⟨_, rfl, execCueAtGo_keeps (s := s) (show execCueAtGo x0 x1 s = _ from rfl)⟩
  | attestGo x0 x1 => exact ⟨_, rfl, execAttestGo_keeps (s := s) (show execAttestGo x0 x1 s = _ from rfl)⟩
  | seamWindowAccess x0 x1 x2 x3 x4 => exact ⟨_, rfl, execSeamWindowAccess_keeps (s := s) (show execSeamWindowAccess x0 x1 x2 x3 x4 s = _ from rfl)⟩
  | seamRelease x0 x1 => exact ⟨_, rfl, execSeamRelease_keeps (s := s) (show execSeamRelease x0 x1 s = _ from rfl)⟩
  | msgrdWrite x0 => exact ⟨_, rfl, execMsgrdWrite_keeps (s := s) (show execMsgrdWrite x0 s = _ from rfl)⟩
  | dropCountRead x0 => exact ⟨_, rfl, execDropCountRead_keeps (s := s) (show execDropCountRead x0 s = _ from rfl)⟩
  | seamViolCountRead x0 x1 => exact ⟨_, rfl, execSeamViolCountRead_keeps (s := s) (show execSeamViolCountRead x0 x1 s = _ from rfl)⟩
  | replayCountRead x0 x1 => exact ⟨_, rfl, execReplayCountRead_keeps (s := s) (show execReplayCountRead x0 x1 s = _ from rfl)⟩
  | temperatureCheck x0 => exact ⟨_, rfl, execTemperatureCheck_keeps (s := s) (show execTemperatureCheck x0 s = _ from rfl)⟩
  | calRequest x0 x1 => exact ⟨_, rfl, execCalRequest_keeps (s := s) (show execCalRequest x0 x1 s = _ from rfl)⟩
  | calCommit x0 x1 => exact ⟨_, rfl, execCalCommit_keeps (s := s) (show execCalCommit x0 x1 s = _ from rfl)⟩
  | calStepStart x0 => exact ⟨_, rfl, execCalStepStart_keeps (s := s) (show execCalStepStart x0 s = _ from rfl)⟩
  | calStepEnd x0 x1 => exact ⟨_, rfl, execCalStepEnd_keeps (s := s) (show execCalStepEnd x0 x1 s = _ from rfl)⟩
  | stepAbandon x0 => exact ⟨_, rfl, execStepAbandon_keeps (s := s) (show execStepAbandon x0 s = _ from rfl)⟩
  | calStarved x0 => exact ⟨_, rfl, execCalStarved_keeps (s := s) (show execCalStarved x0 s = _ from rfl)⟩
  | sensorUpdate x0 x1 => exact ⟨_, rfl, execSensorUpdate_keeps (s := s) (show execSensorUpdate x0 x1 s = _ from rfl)⟩
  | sensorFault x0 => exact ⟨_, rfl, execSensorFault_keeps (s := s) (show execSensorFault x0 s = _ from rfl)⟩
  | lioDataWrite x0 x1 => exact ⟨_, rfl, execLioDataWrite_keeps (s := s) (show execLioDataWrite x0 x1 s = _ from rfl)⟩
  | lioSet x0 x1 => exact ⟨_, rfl, execLioSet_keeps (s := s) (show execLioSet x0 x1 s = _ from rfl)⟩
  | lioClr x0 x1 => exact ⟨_, rfl, execLioClr_keeps (s := s) (show execLioClr x0 x1 s = _ from rfl)⟩
  | lioTgl x0 x1 => exact ⟨_, rfl, execLioTgl_keeps (s := s) (show execLioTgl x0 x1 s = _ from rfl)⟩
  | lioCfgWrite x0 x1 => exact ⟨_, rfl, execLioCfgWrite_keeps (s := s) (show execLioCfgWrite x0 x1 s = _ from rfl)⟩
  | bankSupplyChange x0 x1 x2 => exact ⟨_, rfl, execBankSupplyChange_keeps (s := s) (show execBankSupplyChange x0 x1 x2 s = _ from rfl)⟩
  | uartDataWrite x0 x1 => exact ⟨_, rfl, execUartDataWrite_keeps (s := s) (show execUartDataWrite x0 x1 s = _ from rfl)⟩
  | uartDataRead x0 x1 => exact ⟨_, rfl, execUartDataRead_keeps (s := s) (show execUartDataRead x0 x1 s = _ from rfl)⟩
  | uartReceive x0 x1 x2 x3 => exact ⟨_, rfl, execUartReceive_keeps (s := s) (show execUartReceive x0 x1 x2 x3 s = _ from rfl)⟩
  | uartByteSent x0 => exact ⟨_, rfl, execUartByteSent_keeps (s := s) (show execUartByteSent x0 s = _ from rfl)⟩
  | spiDataWrite x0 x1 => exact ⟨_, rfl, execSpiDataWrite_keeps (s := s) (show execSpiDataWrite x0 x1 s = _ from rfl)⟩
  | spiDataRead x0 x1 => exact ⟨_, rfl, execSpiDataRead_keeps (s := s) (show execSpiDataRead x0 x1 s = _ from rfl)⟩
  | spiByteDone x0 x1 => exact ⟨_, rfl, execSpiByteDone_keeps (s := s) (show execSpiByteDone x0 x1 s = _ from rfl)⟩
  | i2cGo x0 x1 => exact ⟨_, rfl, execI2cGo_keeps (s := s) (show execI2cGo x0 x1 s = _ from rfl)⟩
  | i2cTransferDone x0 x1 x2 x3 x4 => exact ⟨_, rfl, execI2cTransferDone_keeps (s := s) (show execI2cTransferDone x0 x1 x2 x3 x4 s = _ from rfl)⟩
  | i2cBusStuck x0 => exact ⟨_, rfl, execI2cBusStuck_keeps (s := s) (show execI2cBusStuck x0 s = _ from rfl)⟩
  | i2cDataRead x0 x1 => exact ⟨_, rfl, execI2cDataRead_keeps (s := s) (show execI2cDataRead x0 x1 s = _ from rfl)⟩
  | swraise x0 => exact ⟨_, rfl, execSwraise_keeps (s := s) (show execSwraise x0 s = _ from rfl)⟩
  | seamEventMsg x0 => exact ⟨_, rfl, execSeamEventMsg_keeps (s := s) (show execSeamEventMsg x0 s = _ from rfl)⟩
  | raiseCountRead x0 => exact ⟨_, rfl, execRaiseCountRead_keeps (s := s) (show execRaiseCountRead x0 s = _ from rfl)⟩
  | supplyOut x0 => exact ⟨_, rfl, execSupplyOut_keeps (s := s) (show execSupplyOut x0 s = _ from rfl)⟩
  | supplyIn x0 => exact ⟨_, rfl, execSupplyIn_keeps (s := s) (show execSupplyIn x0 s = _ from rfl)⟩
  | faultLogWrite x0 => exact ⟨_, rfl, execFaultLogWrite_keeps (s := s) (show execFaultLogWrite x0 s = _ from rfl)⟩
  | sysReset x0 => exact ⟨_, rfl, execSysReset_keeps (s := s) (show execSysReset x0 s = _ from rfl)⟩
  | powerLoss => exact ⟨_, rfl, execPowerLoss_keeps (s := s) (show execPowerLoss s = _ from rfl)⟩
  | startSequence x0 x1 => exact ⟨_, rfl, execStartSequence_keeps (s := s) (show execStartSequence x0 x1 s = _ from rfl)⟩
  | stepTimeout x0 => exact ⟨_, rfl, execStepTimeout_keeps (s := s) (show execStepTimeout x0 s = _ from rfl)⟩
  | internalRestart x0 => exact ⟨_, rfl, execInternalRestart_keeps (s := s) (show execInternalRestart x0 s = _ from rfl)⟩
  | stepRevert x0 x1 => exact ⟨_, rfl, execStepRevert_keeps (s := s) (show execStepRevert x0 x1 s = _ from rfl)⟩
  | fabricCueOutput x0 x1 => exact ⟨_, rfl, execFabricCueOutput_keeps (s := s) (show execFabricCueOutput x0 x1 s = _ from rfl)⟩
  | fastsumUpdate x0 x1 x2 => exact ⟨_, rfl, execFastsumUpdate_keeps (s := s) (show execFastsumUpdate x0 x1 x2 s = _ from rfl)⟩
  | windowOpen x0 x1 => exact ⟨_, rfl, execWindowOpen_keeps (s := s) (show execWindowOpen x0 x1 s = _ from rfl)⟩
  | pgaClip x0 x1 x2 => exact ⟨_, rfl, execPgaClip_keeps (s := s) (show execPgaClip x0 x1 x2 s = _ from rfl)⟩
  | biquadClip x0 x1 => exact ⟨_, rfl, execBiquadClip_keeps (s := s) (show execBiquadClip x0 x1 s = _ from rfl)⟩
  | cueAtAnswer x0 x1 => exact ⟨_, rfl, execCueAtAnswer_keeps (s := s) (show execCueAtAnswer x0 x1 s = _ from rfl)⟩
  | attestAnswer x0 x1 => exact ⟨_, rfl, execAttestAnswer_keeps (s := s) (show execAttestAnswer x0 x1 s = _ from rfl)⟩
  | configurationSpaceWrite x0 x1 x2 x3 => exact ⟨_, rfl, execConfigurationSpaceWrite_keeps (s := s) (show execConfigurationSpaceWrite x0 x1 x2 x3 s = _ from rfl)⟩
  | dacPortUncorrectableRead x0 => exact ⟨_, rfl, execDacPortUncorrectableRead_keeps (s := s) (show execDacPortUncorrectableRead x0 s = _ from rfl)⟩
  | unknownQspiCommand => exact ⟨_, rfl, execUnknownQspiCommand_keeps (s := s) (show execUnknownQspiCommand s = _ from rfl)⟩

theorem reach_of {m k : Nat} {x y z w a b c d : Bool} (hm : m = k) (hx : x = a) (hy : y = b) (hz : z = c) (hw : w = d)
    (h : k &&& 2156920872 = (cond a 8 0 ||| cond b 1048576 0 ||| cond c 32 0 ||| cond d 8388608 0)) :
    m &&& 2156920872 = (cond x 8 0 ||| cond y 1048576 0 ||| cond z 32 0 ||| cond w 8388608 0) := by
  subst hm hx hy hz hw
  exact h

/-- What the masks say of memory, Mantle, the clocks, the start and the queue. -/
theorem touchMask_reach (c : Instr) :
    touchMask c &&& 2156920872 =
      (cond (mayStore c) 8 0 ||| cond (mayReachMantle c) 1048576 0 ||| cond (mayRetime c) 32 0 ||| cond (mayStart c) 8388608 0) := by
  cases c with
  | registerWrite _ _ _ => exact reach_of (k := 2122317823) (a := true) (b := true) (c := true) (d := false) rfl rfl rfl rfl rfl rfl
  | crystalLoss _ => exact reach_of (k := 201343009) (a := false) (b := false) (c := true) (d := false) rfl rfl rfl rfl rfl rfl
  | crystalValid _ => exact reach_of (k := 201343009) (a := false) (b := false) (c := true) (d := false) rfl rfl rfl rfl rfl rfl
  | switchover _ => exact reach_of (k := 469778529) (a := false) (b := false) (c := true) (d := false) rfl rfl rfl rfl rfl rfl
  | selectWrite _ => exact reach_of (k := 1543534113) (a := false) (b := false) (c := true) (d := false) rfl rfl rfl rfl rfl rfl
  | holdoverExpired => exact reach_of (k := 469792289) (a := false) (b := false) (c := true) (d := false) rfl rfl rfl rfl rfl rfl
  | pllRelock => exact reach_of (k := 1543534113) (a := false) (b := false) (c := true) (d := false) rfl rfl rfl rfl rfl rfl
  | clockRelease _ => exact reach_of (k := 1543534113) (a := false) (b := false) (c := true) (d := false) rfl rfl rfl rfl rfl rfl
  | linetimeRead _ => exact reach_of (k := 6) (a := false) (b := false) (c := false) (d := false) rfl rfl rfl rfl rfl rfl
  | rateCorrection => exact reach_of (k := 2122317823) (a := true) (b := true) (c := true) (d := false) rfl rfl rfl rfl rfl rfl
  | slewAdjust _ _ => exact reach_of (k := 1073741856) (a := false) (b := false) (c := true) (d := false) rfl rfl rfl rfl rfl rfl
  | slewTick => exact reach_of (k := 2122317823) (a := true) (b := true) (c := true) (d := false) rfl rfl rfl rfl rfl rfl
  | linetimeLoad => exact reach_of (k := 33) (a := false) (b := false) (c := true) (d := false) rfl rfl rfl rfl rfl rfl
  | lineIoEdge _ _ _ => exact reach_of (k := 1275085249) (a := false) (b := false) (c := false) (d := false) rfl rfl rfl rfl rfl rfl
  | slotSatisfied _ _ => exact reach_of (k := 201343041) (a := false) (b := false) (c := false) (d := false) rfl rfl rfl rfl rfl rfl
  | cueEffect _ => exact reach_of (k := 1275160409) (a := true) (b := false) (c := false) (d := false) rfl rfl rfl rfl rfl rfl
  | hostArmGo _ _ => exact reach_of (k := 536870913) (a := false) (b := false) (c := false) (d := false) rfl rfl rfl rfl rfl rfl
  | disarm _ _ => exact reach_of (k := 65) (a := false) (b := false) (c := false) (d := false) rfl rfl rfl rfl rfl rfl
  | targetConfigWrite _ _ _ => exact reach_of (k := 65) (a := false) (b := false) (c := false) (d := false) rfl rfl rfl rfl rfl rfl
  | capturePop _ _ => exact reach_of (k := 64) (a := false) (b := false) (c := false) (d := false) rfl rfl rfl rfl rfl rfl
  | mergeCountRead _ _ => exact reach_of (k := 5) (a := false) (b := false) (c := false) (d := false) rfl rfl rfl rfl rfl rfl
  | fabricTapEffect _ => exact reach_of (k := 64) (a := false) (b := false) (c := false) (d := false) rfl rfl rfl rfl rfl rfl
  | encoderCount _ => exact reach_of (k := 201343105) (a := false) (b := false) (c := false) (d := false) rfl rfl rfl rfl rfl rfl
  | encoderStopped _ => exact reach_of (k := 128) (a := false) (b := false) (c := false) (d := false) rfl rfl rfl rfl rfl rfl
  | encoderIndex _ => exact reach_of (k := 201343105) (a := false) (b := false) (c := false) (d := false) rfl rfl rfl rfl rfl rfl
  | encoderMatch _ _ => exact reach_of (k := 201343169) (a := false) (b := false) (c := false) (d := false) rfl rfl rfl rfl rfl rfl
  | encoderLoad _ => exact reach_of (k := 128) (a := false) (b := false) (c := false) (d := false) rfl rfl rfl rfl rfl rfl
  | encoderCtlWrite _ _ => exact reach_of (k := 201343105) (a := false) (b := false) (c := false) (d := false) rfl rfl rfl rfl rfl rfl
  | encoderPinsWrite _ _ => exact reach_of (k := 201342977) (a := false) (b := false) (c := false) (d := false) rfl rfl rfl rfl rfl rfl
  | encoderPositionRead _ _ => exact reach_of (k := 6) (a := false) (b := false) (c := false) (d := false) rfl rfl rfl rfl rfl rfl
  | illegalCountRead _ _ => exact reach_of (k := 5) (a := false) (b := false) (c := false) (d := false) rfl rfl rfl rfl rfl rfl
  | pgSoftwareStart _ _ => exact reach_of (k := 469783041) (a := false) (b := false) (c := false) (d := false) rfl rfl rfl rfl rfl rfl
  | pgCycleStart _ => exact reach_of (k := 201343489) (a := false) (b := false) (c := false) (d := false) rfl rfl rfl rfl rfl rfl
  | pgRunEnd _ => exact reach_of (k := 201343489) (a := false) (b := false) (c := false) (d := false) rfl rfl rfl rfl rfl rfl
  | pgStop _ _ => exact reach_of (k := 469783041) (a := false) (b := false) (c := false) (d := false) rfl rfl rfl rfl rfl rfl
  | pgAbort _ _ => exact reach_of (k := 469783041) (a := false) (b := false) (c := false) (d := false) rfl rfl rfl rfl rfl rfl
  | pgRearm _ _ => exact reach_of (k := 469783041) (a := false) (b := false) (c := false) (d := false) rfl rfl rfl rfl rfl rfl
  | pgCtlWrite _ _ => exact reach_of (k := 201343489) (a := false) (b := false) (c := false) (d := false) rfl rfl rfl rfl rfl rfl
  | pgShadowWrite _ _ _ => exact reach_of (k := 1) (a := false) (b := false) (c := false) (d := false) rfl rfl rfl rfl rfl rfl
  | pgSeqselWrite _ _ => exact reach_of (k := 513) (a := false) (b := false) (c := false) (d := false) rfl rfl rfl rfl rfl rfl
  | pgSeqWrite _ _ _ _ => exact reach_of (k := 201342977) (a := false) (b := false) (c := false) (d := false) rfl rfl rfl rfl rfl rfl
  | comparatorDecision _ _ _ => exact reach_of (k := 1543534145) (a := false) (b := false) (c := false) (d := false) rfl rfl rfl rfl rfl rfl
  | tripRelease _ => exact reach_of (k := 268440064) (a := false) (b := false) (c := false) (d := false) rfl rfl rfl rfl rfl rfl
  | selectorWrite _ _ => exact reach_of (k := 201344001) (a := false) (b := false) (c := false) (d := false) rfl rfl rfl rfl rfl rfl
  | switchClose _ => exact reach_of (k := 1543536193) (a := false) (b := false) (c := false) (d := false) rfl rfl rfl rfl rfl rfl
  | busDriveWrite _ _ => exact reach_of (k := 201344001) (a := false) (b := false) (c := false) (d := false) rfl rfl rfl rfl rfl rfl
  | biquadWrite _ _ => exact reach_of (k := 201344001) (a := false) (b := false) (c := false) (d := false) rfl rfl rfl rfl rfl rfl
  | modulatorOverload _ _ _ => exact reach_of (k := 201344001) (a := false) (b := false) (c := false) (d := false) rfl rfl rfl rfl rfl rfl
  | modulatorResume _ _ => exact reach_of (k := 1024) (a := false) (b := false) (c := false) (d := false) rfl rfl rfl rfl rfl rfl
  | biasReady _ => exact reach_of (k := 1543536193) (a := false) (b := false) (c := false) (d := false) rfl rfl rfl rfl rfl rfl
  | comparatorCtlWrite _ _ _ => exact reach_of (k := 201344001) (a := false) (b := false) (c := false) (d := false) rfl rfl rfl rfl rfl rfl
  | comparatorThresholdWrite _ _ _ => exact reach_of (k := 1025) (a := false) (b := false) (c := false) (d := false) rfl rfl rfl rfl rfl rfl
  | thresholdSettled _ _ => exact reach_of (k := 1024) (a := false) (b := false) (c := false) (d := false) rfl rfl rfl rfl rfl rfl
  | windowWrite _ _ _ => exact reach_of (k := 1025) (a := false) (b := false) (c := false) (d := false) rfl rfl rfl rfl rfl rfl
  | riseCountRead _ _ _ => exact reach_of (k := 5) (a := false) (b := false) (c := false) (d := false) rfl rfl rfl rfl rfl rfl
  | programEnd _ => exact reach_of (k := 201344001) (a := false) (b := false) (c := false) (d := false) rfl rfl rfl rfl rfl rfl
  | dacCodeWrite _ _ => exact reach_of (k := 1025) (a := false) (b := false) (c := false) (d := false) rfl rfl rfl rfl rfl rfl
  | dacSourceWrite _ _ => exact reach_of (k := 201344001) (a := false) (b := false) (c := false) (d := false) rfl rfl rfl rfl rfl rfl
  | rangeHoldEnd _ => exact reach_of (k := 201344001) (a := false) (b := false) (c := false) (d := false) rfl rfl rfl rfl rfl rfl
  | paletteWrite _ _ _ _ => exact reach_of (k := 201342977) (a := false) (b := false) (c := false) (d := false) rfl rfl rfl rfl rfl rfl
  | swapRequest _ _ => exact reach_of (k := 201344001) (a := false) (b := false) (c := false) (d := false) rfl rfl rfl rfl rfl rfl
  | crossFadeEnd _ => exact reach_of (k := 201344001) (a := false) (b := false) (c := false) (d := false) rfl rfl rfl rfl rfl rfl
  | panelClear _ _ => exact reach_of (k := 1543533569) (a := false) (b := false) (c := false) (d := false) rfl rfl rfl rfl rfl rfl
  | clearRelease _ => exact reach_of (k := 1024) (a := false) (b := false) (c := false) (d := false) rfl rfl rfl rfl rfl rfl
  | currentLimitShort _ _ => exact reach_of (k := 469791745) (a := false) (b := false) (c := false) (d := false) rfl rfl rfl rfl rfl rfl
  | supervisionFault _ _ => exact reach_of (k := 1543533569) (a := false) (b := false) (c := false) (d := false) rfl rfl rfl rfl rfl rfl
  | standbyDrive _ => exact reach_of (k := 268436480) (a := false) (b := false) (c := false) (d := false) rfl rfl rfl rfl rfl rfl
  | handover _ _ => exact reach_of (k := 201344001) (a := false) (b := false) (c := false) (d := false) rfl rfl rfl rfl rfl rfl
  | analogueSupplyValid => exact reach_of (k := 1543534145) (a := false) (b := false) (c := false) (d := false) rfl rfl rfl rfl rfl rfl
  | peakDiffRead _ _ => exact reach_of (k := 5) (a := false) (b := false) (c := false) (d := false) rfl rfl rfl rfl rfl rfl
  | dceOutput _ _ => exact reach_of (k := 201345025) (a := false) (b := false) (c := false) (d := false) rfl rfl rfl rfl rfl rfl
  | channelCtlWrite _ _ _ => exact reach_of (k := 201345025) (a := false) (b := false) (c := false) (d := false) rfl rfl rfl rfl rfl rfl
  | channelRestart _ _ => exact reach_of (k := 2048) (a := false) (b := false) (c := false) (d := false) rfl rfl rfl rfl rfl rfl
  | dceThresholdWrite _ _ _ _ => exact reach_of (k := 2049) (a := false) (b := false) (c := false) (d := false) rfl rfl rfl rfl rfl rfl
  | rdidxWrite _ _ _ => exact reach_of (k := 201342977) (a := false) (b := false) (c := false) (d := false) rfl rfl rfl rfl rfl rfl
  | windowClose _ _ => exact reach_of (k := 2048) (a := false) (b := false) (c := false) (d := false) rfl rfl rfl rfl rfl rfl
  | windowDone _ _ => exact reach_of (k := 201345025) (a := false) (b := false) (c := false) (d := false) rfl rfl rfl rfl rfl rfl
  | dceLastStampRead _ _ _ => exact reach_of (k := 6) (a := false) (b := false) (c := false) (d := false) rfl rfl rfl rfl rfl rfl
  | overrunCountRead _ _ _ => exact reach_of (k := 5) (a := false) (b := false) (c := false) (d := false) rfl rfl rfl rfl rfl rfl
  | latchTimingEdge _ => exact reach_of (k := 469856281) (a := true) (b := false) (c := false) (d := false) rfl rfl rfl rfl rfl rfl
  | shiftStart _ => exact reach_of (k := 1543729169) (a := false) (b := false) (c := false) (d := false) rfl rfl rfl rfl rfl rfl
  | shiftEnd _ => exact reach_of (k := 4097) (a := false) (b := false) (c := false) (d := false) rfl rfl rfl rfl rfl rfl
  | readyPoll _ => exact reach_of (k := 469987345) (a := false) (b := false) (c := false) (d := false) rfl rfl rfl rfl rfl rfl
  | blockFetch _ => exact reach_of (k := 469987345) (a := false) (b := false) (c := false) (d := false) rfl rfl rfl rfl rfl rfl
  | portEnableWrite _ _ => exact reach_of (k := 469790721) (a := false) (b := false) (c := false) (d := false) rfl rfl rfl rfl rfl rfl
  | profileWrite _ _ _ => exact reach_of (k := 201342977) (a := false) (b := false) (c := false) (d := false) rfl rfl rfl rfl rfl rfl
  | prioPush _ _ _ => exact reach_of (k := 201347073) (a := false) (b := false) (c := false) (d := false) rfl rfl rfl rfl rfl rfl
  | senseDeadWrite _ _ _ => exact reach_of (k := 469786625) (a := false) (b := false) (c := false) (d := false) rfl rfl rfl rfl rfl rfl
  | nozzleMapWrite _ _ _ => exact reach_of (k := 469786625) (a := false) (b := false) (c := false) (d := false) rfl rfl rfl rfl rfl rfl
  | unretire _ _ => exact reach_of (k := 469786625) (a := false) (b := false) (c := false) (d := false) rfl rfl rfl rfl rfl rfl
  | nozzleMapWalk _ => exact reach_of (k := 469786625) (a := false) (b := false) (c := false) (d := false) rfl rfl rfl rfl rfl rfl
  | criticalSetExpiry _ _ => exact reach_of (k := 469790721) (a := false) (b := false) (c := false) (d := false) rfl rfl rfl rfl rfl rfl
  | auxPinChange _ => exact reach_of (k := 469790721) (a := false) (b := false) (c := false) (d := false) rfl rfl rfl rfl rfl rfl
  | planrdWrite _ _ => exact reach_of (k := 1) (a := false) (b := false) (c := false) (d := false) rfl rfl rfl rfl rfl rfl
  | ledgerCtlWrite _ => exact reach_of (k := 201342977) (a := false) (b := false) (c := false) (d := false) rfl rfl rfl rfl rfl rfl
  | recordClose _ => exact reach_of (k := 469856281) (a := true) (b := false) (c := false) (d := false) rfl rfl rfl rfl rfl rfl
  | recordFree _ => exact reach_of (k := 201416729) (a := true) (b := false) (c := false) (d := false) rfl rfl rfl rfl rfl rfl
  | rejectArm _ => exact reach_of (k := 536879104) (a := false) (b := false) (c := false) (d := false) rfl rfl rfl rfl rfl rfl
  | rejectArmRetry _ => exact reach_of (k := 738222081) (a := false) (b := false) (c := false) (d := false) rfl rfl rfl rfl rfl rfl
  | raiseFail _ => exact reach_of (k := 469786627) (a := false) (b := false) (c := false) (d := false) rfl rfl rfl rfl rfl rfl
  | raiseDoubt _ => exact reach_of (k := 469786627) (a := false) (b := false) (c := false) (d := false) rfl rfl rfl rfl rfl rfl
  | setHorizon _ => exact reach_of (k := 469786627) (a := false) (b := false) (c := false) (d := false) rfl rfl rfl rfl rfl rfl
  | ledgerRead _ => exact reach_of (k := 469786627) (a := false) (b := false) (c := false) (d := false) rfl rfl rfl rfl rfl rfl
  | ringrdWrite _ => exact reach_of (k := 1) (a := false) (b := false) (c := false) (d := false) rfl rfl rfl rfl rfl rfl
  | add _ _ _ _ => exact reach_of (k := 469987345) (a := false) (b := false) (c := false) (d := false) rfl rfl rfl rfl rfl rfl
  | sub _ _ _ _ => exact reach_of (k := 469987345) (a := false) (b := false) (c := false) (d := false) rfl rfl rfl rfl rfl rfl
  | and _ _ _ _ => exact reach_of (k := 469987345) (a := false) (b := false) (c := false) (d := false) rfl rfl rfl rfl rfl rfl
  | or _ _ _ _ => exact reach_of (k := 469987345) (a := false) (b := false) (c := false) (d := false) rfl rfl rfl rfl rfl rfl
  | xor _ _ _ _ => exact reach_of (k := 469987345) (a := false) (b := false) (c := false) (d := false) rfl rfl rfl rfl rfl rfl
  | andn _ _ _ _ => exact reach_of (k := 469987345) (a := false) (b := false) (c := false) (d := false) rfl rfl rfl rfl rfl rfl
  | shl _ _ _ _ => exact reach_of (k := 469987345) (a := false) (b := false) (c := false) (d := false) rfl rfl rfl rfl rfl rfl
  | shr _ _ _ _ => exact reach_of (k := 469987345) (a := false) (b := false) (c := false) (d := false) rfl rfl rfl rfl rfl rfl
  | sra _ _ _ _ => exact reach_of (k := 469987345) (a := false) (b := false) (c := false) (d := false) rfl rfl rfl rfl rfl rfl
  | min _ _ _ _ => exact reach_of (k := 469987345) (a := false) (b := false) (c := false) (d := false) rfl rfl rfl rfl rfl rfl
  | max _ _ _ _ => exact reach_of (k := 469987345) (a := false) (b := false) (c := false) (d := false) rfl rfl rfl rfl rfl rfl
  | minu _ _ _ _ => exact reach_of (k := 469987345) (a := false) (b := false) (c := false) (d := false) rfl rfl rfl rfl rfl rfl
  | maxu _ _ _ _ => exact reach_of (k := 469987345) (a := false) (b := false) (c := false) (d := false) rfl rfl rfl rfl rfl rfl
  | adds _ _ _ _ => exact reach_of (k := 469987345) (a := false) (b := false) (c := false) (d := false) rfl rfl rfl rfl rfl rfl
  | subs _ _ _ _ => exact reach_of (k := 469987345) (a := false) (b := false) (c := false) (d := false) rfl rfl rfl rfl rfl rfl
  | addi _ _ _ _ => exact reach_of (k := 469987345) (a := false) (b := false) (c := false) (d := false) rfl rfl rfl rfl rfl rfl
  | subi _ _ _ _ => exact reach_of (k := 469987345) (a := false) (b := false) (c := false) (d := false) rfl rfl rfl rfl rfl rfl
  | andi _ _ _ _ => exact reach_of (k := 469987345) (a := false) (b := false) (c := false) (d := false) rfl rfl rfl rfl rfl rfl
  | ori _ _ _ _ => exact reach_of (k := 469987345) (a := false) (b := false) (c := false) (d := false) rfl rfl rfl rfl rfl rfl
  | xori _ _ _ _ => exact reach_of (k := 469987345) (a := false) (b := false) (c := false) (d := false) rfl rfl rfl rfl rfl rfl
  | lui _ _ _ => exact reach_of (k := 469987345) (a := false) (b := false) (c := false) (d := false) rfl rfl rfl rfl rfl rfl
  | shli _ _ _ _ => exact reach_of (k := 469987345) (a := false) (b := false) (c := false) (d := false) rfl rfl rfl rfl rfl rfl
  | shri _ _ _ _ => exact reach_of (k := 469987345) (a := false) (b := false) (c := false) (d := false) rfl rfl rfl rfl rfl rfl
  | srai _ _ _ _ => exact reach_of (k := 469987345) (a := false) (b := false) (c := false) (d := false) rfl rfl rfl rfl rfl rfl
  | adda _ _ _ _ => exact reach_of (k := 469987345) (a := false) (b := false) (c := false) (d := false) rfl rfl rfl rfl rfl rfl
  | addaR _ _ _ _ => exact reach_of (k := 469987345) (a := false) (b := false) (c := false) (d := false) rfl rfl rfl rfl rfl rfl
  | laLo _ _ _ => exact reach_of (k := 469987345) (a := false) (b := false) (c := false) (d := false) rfl rfl rfl rfl rfl rfl
  | laHi _ _ _ => exact reach_of (k := 469987345) (a := false) (b := false) (c := false) (d := false) rfl rfl rfl rfl rfl rfl
  | mgaLo _ _ _ => exact reach_of (k := 469987345) (a := false) (b := false) (c := false) (d := false) rfl rfl rfl rfl rfl rfl
  | mgaHi _ _ _ => exact reach_of (k := 469987345) (a := false) (b := false) (c := false) (d := false) rfl rfl rfl rfl rfl rfl
  | mul _ _ _ _ => exact reach_of (k := 469987345) (a := false) (b := false) (c := false) (d := false) rfl rfl rfl rfl rfl rfl
  | mulhs _ _ _ _ => exact reach_of (k := 469987345) (a := false) (b := false) (c := false) (d := false) rfl rfl rfl rfl rfl rfl
  | mulhu _ _ _ _ => exact reach_of (k := 469987345) (a := false) (b := false) (c := false) (d := false) rfl rfl rfl rfl rfl rfl
  | mac _ _ _ _ => exact reach_of (k := 469987345) (a := false) (b := false) (c := false) (d := false) rfl rfl rfl rfl rfl rfl
  | msu _ _ _ _ => exact reach_of (k := 469987345) (a := false) (b := false) (c := false) (d := false) rfl rfl rfl rfl rfl rfl
  | gfmul _ _ _ _ _ => exact reach_of (k := 469987345) (a := false) (b := false) (c := false) (d := false) rfl rfl rfl rfl rfl rfl
  | gfmac _ _ _ _ _ => exact reach_of (k := 469987345) (a := false) (b := false) (c := false) (d := false) rfl rfl rfl rfl rfl rfl
  | popc _ _ _ => exact reach_of (k := 469987345) (a := false) (b := false) (c := false) (d := false) rfl rfl rfl rfl rfl rfl
  | clz _ _ _ => exact reach_of (k := 469987345) (a := false) (b := false) (c := false) (d := false) rfl rfl rfl rfl rfl rfl
  | ctz _ _ _ => exact reach_of (k := 469987345) (a := false) (b := false) (c := false) (d := false) rfl rfl rfl rfl rfl rfl
  | brev _ _ _ => exact reach_of (k := 469987345) (a := false) (b := false) (c := false) (d := false) rfl rfl rfl rfl rfl rfl
  | bswap _ _ _ => exact reach_of (k := 469987345) (a := false) (b := false) (c := false) (d := false) rfl rfl rfl rfl rfl rfl
  | bfxu _ _ _ _ _ => exact reach_of (k := 469987345) (a := false) (b := false) (c := false) (d := false) rfl rfl rfl rfl rfl rfl
  | bfxs _ _ _ _ _ => exact reach_of (k := 469987345) (a := false) (b := false) (c := false) (d := false) rfl rfl rfl rfl rfl rfl
  | bfi _ _ _ _ _ => exact reach_of (k := 469987345) (a := false) (b := false) (c := false) (d := false) rfl rfl rfl rfl rfl rfl
  | cmpeq _ _ _ _ => exact reach_of (k := 469987345) (a := false) (b := false) (c := false) (d := false) rfl rfl rfl rfl rfl rfl
  | cmpne _ _ _ _ => exact reach_of (k := 469987345) (a := false) (b := false) (c := false) (d := false) rfl rfl rfl rfl rfl rfl
  | cmplt _ _ _ _ => exact reach_of (k := 469987345) (a := false) (b := false) (c := false) (d := false) rfl rfl rfl rfl rfl rfl
  | cmpltu _ _ _ _ => exact reach_of (k := 469987345) (a := false) (b := false) (c := false) (d := false) rfl rfl rfl rfl rfl rfl
  | cmpge _ _ _ _ => exact reach_of (k := 469987345) (a := false) (b := false) (c := false) (d := false) rfl rfl rfl rfl rfl rfl
  | cmpgeu _ _ _ _ => exact reach_of (k := 469987345) (a := false) (b := false) (c := false) (d := false) rfl rfl rfl rfl rfl rfl
  | cmpi _ _ _ _ _ => exact reach_of (k := 469987345) (a := false) (b := false) (c := false) (d := false) rfl rfl rfl rfl rfl rfl
  | pand _ _ _ _ => exact reach_of (k := 469987345) (a := false) (b := false) (c := false) (d := false) rfl rfl rfl rfl rfl rfl
  | por _ _ _ _ => exact reach_of (k := 469987345) (a := false) (b := false) (c := false) (d := false) rfl rfl rfl rfl rfl rfl
  | pxor _ _ _ _ => exact reach_of (k := 469987345) (a := false) (b := false) (c := false) (d := false) rfl rfl rfl rfl rfl rfl
  | pandn _ _ _ _ => exact reach_of (k := 469987345) (a := false) (b := false) (c := false) (d := false) rfl rfl rfl rfl rfl rfl
  | sel _ _ _ _ _ => exact reach_of (k := 469987345) (a := false) (b := false) (c := false) (d := false) rfl rfl rfl rfl rfl rfl
  | ldB _ _ _ _ => exact reach_of (k := 472084503) (a := false) (b := false) (c := false) (d := false) rfl rfl rfl rfl rfl rfl
  | ldH _ _ _ _ => exact reach_of (k := 472084503) (a := false) (b := false) (c := false) (d := false) rfl rfl rfl rfl rfl rfl
  | ldW _ _ _ _ => exact reach_of (k := 472084503) (a := false) (b := false) (c := false) (d := false) rfl rfl rfl rfl rfl rfl
  | ldV _ _ _ _ => exact reach_of (k := 472084503) (a := false) (b := false) (c := false) (d := false) rfl rfl rfl rfl rfl rfl
  | ldBu _ _ _ _ => exact reach_of (k := 472084503) (a := false) (b := false) (c := false) (d := false) rfl rfl rfl rfl rfl rfl
  | ldHu _ _ _ _ => exact reach_of (k := 472084503) (a := false) (b := false) (c := false) (d := false) rfl rfl rfl rfl rfl rfl
  | stB _ _ _ _ => exact reach_of (k := 469987345) (a := false) (b := false) (c := false) (d := false) rfl rfl rfl rfl rfl rfl
  | stH _ _ _ _ => exact reach_of (k := 469987345) (a := false) (b := false) (c := false) (d := false) rfl rfl rfl rfl rfl rfl
  | stW _ _ _ _ => exact reach_of (k := 469987345) (a := false) (b := false) (c := false) (d := false) rfl rfl rfl rfl rfl rfl
  | stV _ _ _ _ => exact reach_of (k := 469987345) (a := false) (b := false) (c := false) (d := false) rfl rfl rfl rfl rfl rfl
  | dma _ _ _ _ => exact reach_of (k := 2122317823) (a := true) (b := true) (c := true) (d := false) rfl rfl rfl rfl rfl rfl
  | vadd _ _ _ _ _ => exact reach_of (k := 469987345) (a := false) (b := false) (c := false) (d := false) rfl rfl rfl rfl rfl rfl
  | vsub _ _ _ _ _ => exact reach_of (k := 469987345) (a := false) (b := false) (c := false) (d := false) rfl rfl rfl rfl rfl rfl
  | vadds _ _ _ _ _ => exact reach_of (k := 469987345) (a := false) (b := false) (c := false) (d := false) rfl rfl rfl rfl rfl rfl
  | vaddsu _ _ _ _ _ => exact reach_of (k := 469987345) (a := false) (b := false) (c := false) (d := false) rfl rfl rfl rfl rfl rfl
  | vsubs _ _ _ _ _ => exact reach_of (k := 469987345) (a := false) (b := false) (c := false) (d := false) rfl rfl rfl rfl rfl rfl
  | vsubsu _ _ _ _ _ => exact reach_of (k := 469987345) (a := false) (b := false) (c := false) (d := false) rfl rfl rfl rfl rfl rfl
  | vmul _ _ _ _ _ => exact reach_of (k := 469987345) (a := false) (b := false) (c := false) (d := false) rfl rfl rfl rfl rfl rfl
  | vmulhs _ _ _ _ _ => exact reach_of (k := 469987345) (a := false) (b := false) (c := false) (d := false) rfl rfl rfl rfl rfl rfl
  | vmin _ _ _ _ _ => exact reach_of (k := 469987345) (a := false) (b := false) (c := false) (d := false) rfl rfl rfl rfl rfl rfl
  | vminu _ _ _ _ _ => exact reach_of (k := 469987345) (a := false) (b := false) (c := false) (d := false) rfl rfl rfl rfl rfl rfl
  | vmax _ _ _ _ _ => exact reach_of (k := 469987345) (a := false) (b := false) (c := false) (d := false) rfl rfl rfl rfl rfl rfl
  | vmaxu _ _ _ _ _ => exact reach_of (k := 469987345) (a := false) (b := false) (c := false) (d := false) rfl rfl rfl rfl rfl rfl
  | vavgu _ _ _ _ _ => exact reach_of (k := 469987345) (a := false) (b := false) (c := false) (d := false) rfl rfl rfl rfl rfl rfl
  | vand _ _ _ _ _ => exact reach_of (k := 469987345) (a := false) (b := false) (c := false) (d := false) rfl rfl rfl rfl rfl rfl
  | vor _ _ _ _ _ => exact reach_of (k := 469987345) (a := false) (b := false) (c := false) (d := false) rfl rfl rfl rfl rfl rfl
  | vxor _ _ _ _ _ => exact reach_of (k := 469987345) (a := false) (b := false) (c := false) (d := false) rfl rfl rfl rfl rfl rfl
  | vandn _ _ _ _ _ => exact reach_of (k := 469987345) (a := false) (b := false) (c := false) (d := false) rfl rfl rfl rfl rfl rfl
  | vcmpeq _ _ _ _ _ => exact reach_of (k := 469987345) (a := false) (b := false) (c := false) (d := false) rfl rfl rfl rfl rfl rfl
  | vcmpgt _ _ _ _ _ => exact reach_of (k := 469987345) (a := false) (b := false) (c := false) (d := false) rfl rfl rfl rfl rfl rfl
  | vcmpgtu _ _ _ _ _ => exact reach_of (k := 469987345) (a := false) (b := false) (c := false) (d := false) rfl rfl rfl rfl rfl rfl
  | vshl _ _ _ _ _ => exact reach_of (k := 469987345) (a := false) (b := false) (c := false) (d := false) rfl rfl rfl rfl rfl rfl
  | vshr _ _ _ _ _ => exact reach_of (k := 469987345) (a := false) (b := false) (c := false) (d := false) rfl rfl rfl rfl rfl rfl
  | vsra _ _ _ _ _ => exact reach_of (k := 469987345) (a := false) (b := false) (c := false) (d := false) rfl rfl rfl rfl rfl rfl
  | vperm _ _ _ _ _ => exact reach_of (k := 469987345) (a := false) (b := false) (c := false) (d := false) rfl rfl rfl rfl rfl rfl
  | vbtr8 _ _ _ _ => exact reach_of (k := 469987345) (a := false) (b := false) (c := false) (d := false) rfl rfl rfl rfl rfl rfl
  | vext _ _ _ _ _ => exact reach_of (k := 469987345) (a := false) (b := false) (c := false) (d := false) rfl rfl rfl rfl rfl rfl
  | vins _ _ _ _ _ => exact reach_of (k := 469987345) (a := false) (b := false) (c := false) (d := false) rfl rfl rfl rfl rfl rfl
  | vsplat _ _ _ _ => exact reach_of (k := 469987345) (a := false) (b := false) (c := false) (d := false) rfl rfl rfl rfl rfl rfl
  | vslb _ _ _ _ _ => exact reach_of (k := 469987345) (a := false) (b := false) (c := false) (d := false) rfl rfl rfl rfl rfl rfl
  | vsrb _ _ _ _ _ => exact reach_of (k := 469987345) (a := false) (b := false) (c := false) (d := false) rfl rfl rfl rfl rfl rfl
  | vsel _ _ _ _ _ => exact reach_of (k := 469987345) (a := false) (b := false) (c := false) (d := false) rfl rfl rfl rfl rfl rfl
  | vhsum _ _ _ _ => exact reach_of (k := 469987345) (a := false) (b := false) (c := false) (d := false) rfl rfl rfl rfl rfl rfl
  | vht1 _ _ _ _ _ => exact reach_of (k := 469987345) (a := false) (b := false) (c := false) (d := false) rfl rfl rfl rfl rfl rfl
  | vht2 _ _ _ _ _ => exact reach_of (k := 469987345) (a := false) (b := false) (c := false) (d := false) rfl rfl rfl rfl rfl rfl
  | vgfmul _ _ _ _ _ _ => exact reach_of (k := 469987345) (a := false) (b := false) (c := false) (d := false) rfl rfl rfl rfl rfl rfl
  | vgfmac _ _ _ _ _ _ => exact reach_of (k := 469987345) (a := false) (b := false) (c := false) (d := false) rfl rfl rfl rfl rfl rfl
  | vgfmacs _ _ _ _ _ _ => exact reach_of (k := 469987345) (a := false) (b := false) (c := false) (d := false) rfl rfl rfl rfl rfl rfl
  | br _ _ _ => exact reach_of (k := 469987345) (a := false) (b := false) (c := false) (d := false) rfl rfl rfl rfl rfl rfl
  | brf _ _ _ => exact reach_of (k := 469987345) (a := false) (b := false) (c := false) (d := false) rfl rfl rfl rfl rfl rfl
  | bra _ _ => exact reach_of (k := 469987345) (a := false) (b := false) (c := false) (d := false) rfl rfl rfl rfl rfl rfl
  | call _ _ => exact reach_of (k := 469987345) (a := false) (b := false) (c := false) (d := false) rfl rfl rfl rfl rfl rfl
  | jr _ _ => exact reach_of (k := 469987345) (a := false) (b := false) (c := false) (d := false) rfl rfl rfl rfl rfl rfl
  | jalr _ _ _ => exact reach_of (k := 469987345) (a := false) (b := false) (c := false) (d := false) rfl rfl rfl rfl rfl rfl
  | qget _ _ _ _ => exact reach_of (k := 470020121) (a := true) (b := false) (c := false) (d := false) rfl rfl rfl rfl rfl rfl
  | qput _ _ _ => exact reach_of (k := 2122317823) (a := true) (b := true) (c := true) (d := false) rfl rfl rfl rfl rfl rfl
  | qsteal _ _ => exact reach_of (k := 469987345) (a := false) (b := false) (c := false) (d := false) rfl rfl rfl rfl rfl rfl
  | qdone _ _ => exact reach_of (k := 2122317823) (a := true) (b := true) (c := true) (d := false) rfl rfl rfl rfl rfl rfl
  | qfail _ _ _ => exact reach_of (k := 2122317823) (a := true) (b := true) (c := true) (d := false) rfl rfl rfl rfl rfl rfl
  | carmT _ _ _ => exact reach_of (k := 1006858257) (a := false) (b := false) (c := false) (d := false) rfl rfl rfl rfl rfl rfl
  | carmP _ _ _ => exact reach_of (k := 1006858257) (a := false) (b := false) (c := false) (d := false) rfl rfl rfl rfl rfl rfl
  | cdisarm _ _ _ => exact reach_of (k := 469987409) (a := false) (b := false) (c := false) (d := false) rfl rfl rfl rfl rfl rfl
  | twait _ _ => exact reach_of (k := 469987345) (a := false) (b := false) (c := false) (d := false) rfl rfl rfl rfl rfl rfl
  | dlset _ _ => exact reach_of (k := 469987345) (a := false) (b := false) (c := false) (d := false) rfl rfl rfl rfl rfl rfl
  | ewait _ _ _ => exact reach_of (k := 469987345) (a := false) (b := false) (c := false) (d := false) rfl rfl rfl rfl rfl rfl
  | raise _ _ => exact reach_of (k := 2122317823) (a := true) (b := true) (c := true) (d := false) rfl rfl rfl rfl rfl rfl
  | mfsr _ _ _ => exact reach_of (k := 469987345) (a := false) (b := false) (c := false) (d := false) rfl rfl rfl rfl rfl rfl
  | mtsr _ _ _ => exact reach_of (k := 469987409) (a := false) (b := false) (c := false) (d := false) rfl rfl rfl rfl rfl rfl
  | fenceL _ => exact reach_of (k := 2122317823) (a := true) (b := true) (c := true) (d := false) rfl rfl rfl rfl rfl rfl
  | fenceS _ => exact reach_of (k := 2122317823) (a := true) (b := true) (c := true) (d := false) rfl rfl rfl rfl rfl rfl
  | fenceI _ => exact reach_of (k := 469987345) (a := false) (b := false) (c := false) (d := false) rfl rfl rfl rfl rfl rfl
  | iinv _ => exact reach_of (k := 469987345) (a := false) (b := false) (c := false) (d := false) rfl rfl rfl rfl rfl rfl
  | park _ => exact reach_of (k := 469987345) (a := false) (b := false) (c := false) (d := false) rfl rfl rfl rfl rfl rfl
  | eret _ => exact reach_of (k := 469987345) (a := false) (b := false) (c := false) (d := false) rfl rfl rfl rfl rfl rfl
  | trap _ _ => exact reach_of (k := 469987345) (a := false) (b := false) (c := false) (d := false) rfl rfl rfl rfl rfl rfl
  | brk _ => exact reach_of (k := 469987345) (a := false) (b := false) (c := false) (d := false) rfl rfl rfl rfl rfl rfl
  | dmawait _ _ _ => exact reach_of (k := 469987345) (a := false) (b := false) (c := false) (d := false) rfl rfl rfl rfl rfl rfl
  | exceptionEntry _ => exact reach_of (k := 16384) (a := false) (b := false) (c := false) (d := false) rfl rfl rfl rfl rfl rfl
  | loadReturn _ _ _ => exact reach_of (k := 1545826579) (a := false) (b := false) (c := false) (d := false) rfl rfl rfl rfl rfl rfl
  | storeAcknowledge _ _ => exact reach_of (k := 2122317823) (a := true) (b := true) (c := true) (d := false) rfl rfl rfl rfl rfl rfl
  | icacheRefill _ _ _ => exact reach_of (k := 469987345) (a := false) (b := false) (c := false) (d := false) rfl rfl rfl rfl rfl rfl
  | answerReturn _ => exact reach_of (k := 16384) (a := false) (b := false) (c := false) (d := false) rfl rfl rfl rfl rfl rfl
  | twaitSatisfied _ => exact reach_of (k := 16385) (a := false) (b := false) (c := false) (d := false) rfl rfl rfl rfl rfl rfl
  | ewaitSatisfied _ => exact reach_of (k := 16385) (a := false) (b := false) (c := false) (d := false) rfl rfl rfl rfl rfl rfl
  | qgetTimeout _ => exact reach_of (k := 16385) (a := false) (b := false) (c := false) (d := false) rfl rfl rfl rfl rfl rfl
  | dmaComplete _ => exact reach_of (k := 472085535) (a := true) (b := false) (c := false) (d := false) rfl rfl rfl rfl rfl rfl
  | dmawaitReturn _ => exact reach_of (k := 16385) (a := false) (b := false) (c := false) (d := false) rfl rfl rfl rfl rfl rfl
  | engineCueTimer _ => exact reach_of (k := 201343041) (a := false) (b := false) (c := false) (d := false) rfl rfl rfl rfl rfl rfl
  | deadlineWatchFire _ => exact reach_of (k := 201342977) (a := false) (b := false) (c := false) (d := false) rfl rfl rfl rfl rfl rfl
  | watchdogExpiry _ => exact reach_of (k := 201342977) (a := false) (b := false) (c := false) (d := false) rfl rfl rfl rfl rfl rfl
  | engineFault _ => exact reach_of (k := 16384) (a := false) (b := false) (c := false) (d := false) rfl rfl rfl rfl rfl rfl
  | engineStart _ _ => exact reach_of (k := 469778433) (a := false) (b := false) (c := false) (d := false) rfl rfl rfl rfl rfl rfl
  | engineReset _ _ => exact reach_of (k := 469778433) (a := false) (b := false) (c := false) (d := false) rfl rfl rfl rfl rfl rfl
  | forceFault _ _ => exact reach_of (k := 469778433) (a := false) (b := false) (c := false) (d := false) rfl rfl rfl rfl rfl rfl
  | unlock _ _ => exact reach_of (k := 469778433) (a := false) (b := false) (c := false) (d := false) rfl rfl rfl rfl rfl rfl
  | halt _ _ => exact reach_of (k := 201342977) (a := false) (b := false) (c := false) (d := false) rfl rfl rfl rfl rfl rfl
  | step _ _ => exact reach_of (k := 201342977) (a := false) (b := false) (c := false) (d := false) rfl rfl rfl rfl rfl rfl
  | resume _ _ => exact reach_of (k := 201342977) (a := false) (b := false) (c := false) (d := false) rfl rfl rfl rfl rfl rfl
  | breakpointHit _ _ => exact reach_of (k := 16384) (a := false) (b := false) (c := false) (d := false) rfl rfl rfl rfl rfl rfl
  | perfCountRead _ _ _ => exact reach_of (k := 5) (a := false) (b := false) (c := false) (d := false) rfl rfl rfl rfl rfl rfl
  | jobDelivery _ => exact reach_of (k := 470020121) (a := true) (b := false) (c := false) (d := false) rfl rfl rfl rfl rfl rfl
  | hostPostGo _ _ _ => exact reach_of (k := 738213891) (a := false) (b := false) (c := false) (d := false) rfl rfl rfl rfl rfl rfl
  | missDetection _ _ => exact reach_of (k := 469884953) (a := true) (b := false) (c := false) (d := false) rfl rfl rfl rfl rfl rfl
  | fallbackPost _ => exact reach_of (k := 536903680) (a := false) (b := false) (c := false) (d := false) rfl rfl rfl rfl rfl rfl
  | jobReturn _ => exact reach_of (k := 469884953) (a := true) (b := false) (c := false) (d := false) rfl rfl rfl rfl rfl rfl
  | headAdvance _ => exact reach_of (k := 32769) (a := false) (b := false) (c := false) (d := false) rfl rfl rfl rfl rfl rfl
  | classAging _ => exact reach_of (k := 32768) (a := false) (b := false) (c := false) (d := false) rfl rfl rfl rfl rfl rfl
  | urgencyOnset _ => exact reach_of (k := 32768) (a := false) (b := false) (c := false) (d := false) rfl rfl rfl rfl rfl rfl
  | queueCtlWrite _ _ => exact reach_of (k := 201375745) (a := false) (b := false) (c := false) (d := false) rfl rfl rfl rfl rfl rfl
  | queueCountRead _ _ _ => exact reach_of (k := 5) (a := false) (b := false) (c := false) (d := false) rfl rfl rfl rfl rfl rfl
  | headdlRead _ _ => exact reach_of (k := 6) (a := false) (b := false) (c := false) (d := false) rfl rfl rfl rfl rfl rfl
  | correctedWriteback _ _ => exact reach_of (k := 201408513) (a := false) (b := false) (c := false) (d := false) rfl rfl rfl rfl rfl rfl
  | testWindowStart _ => exact reach_of (k := 65536) (a := false) (b := false) (c := false) (d := false) rfl rfl rfl rfl rfl rfl
  | testWindowAbandon _ => exact reach_of (k := 65536) (a := false) (b := false) (c := false) (d := false) rfl rfl rfl rfl rfl rfl
  | rowRestore _ => exact reach_of (k := 65536) (a := false) (b := false) (c := false) (d := false) rfl rfl rfl rfl rfl rfl
  | testWindowEnd _ _ => exact reach_of (k := 469856281) (a := true) (b := false) (c := false) (d := false) rfl rfl rfl rfl rfl rfl
  | bankSpareComplete _ => exact reach_of (k := 469848089) (a := true) (b := false) (c := false) (d := false) rfl rfl rfl rfl rfl rfl
  | retain _ _ => exact reach_of (k := 201408513) (a := false) (b := false) (c := false) (d := false) rfl rfl rfl rfl rfl rfl
  | retainComplete _ => exact reach_of (k := 65537) (a := false) (b := false) (c := false) (d := false) rfl rfl rfl rfl rfl rfl
  | wake _ _ => exact reach_of (k := 201408513) (a := false) (b := false) (c := false) (d := false) rfl rfl rfl rfl rfl rfl
  | wakeComplete _ => exact reach_of (k := 81921) (a := false) (b := false) (c := false) (d := false) rfl rfl rfl rfl rfl rfl
  | ceCountRead _ _ => exact reach_of (k := 5) (a := false) (b := false) (c := false) (d := false) rfl rfl rfl rfl rfl rfl
  | lpddrRead _ _ _ _ _ _ => exact reach_of (k := 469987353) (a := true) (b := false) (c := false) (d := false) rfl rfl rfl rfl rfl rfl
  | lpddrWrite _ _ _ _ _ _ => exact reach_of (k := 469987353) (a := true) (b := false) (c := false) (d := false) rfl rfl rfl rfl rfl rfl
  | channelFailed _ => exact reach_of (k := 469790721) (a := false) (b := false) (c := false) (d := false) rfl rfl rfl rfl rfl rfl
  | scrubRead _ _ => exact reach_of (k := 469987353) (a := true) (b := false) (c := false) (d := false) rfl rfl rfl rfl rfl rfl
  | memcCfgWrite _ => exact reach_of (k := 25) (a := true) (b := false) (c := false) (d := false) rfl rfl rfl rfl rfl rfl
  | memcCountRead _ _ => exact reach_of (k := 5) (a := false) (b := false) (c := false) (d := false) rfl rfl rfl rfl rfl rfl
  | bar0Write _ _ _ _ => exact reach_of (k := 2122317823) (a := true) (b := true) (c := true) (d := false) rfl rfl rfl rfl rfl rfl
  | bar0Read _ _ _ => exact reach_of (k := 2082960671) (a := true) (b := false) (c := false) (d := false) rfl rfl rfl rfl rfl rfl
  | unsupportedRequest _ => exact reach_of (k := 201605121) (a := false) (b := false) (c := false) (d := false) rfl rfl rfl rfl rfl rfl
  | dataPortWrite _ _ _ _ _ => exact reach_of (k := 472347679) (a := true) (b := false) (c := false) (d := false) rfl rfl rfl rfl rfl rfl
  | burstIdleTimeout _ => exact reach_of (k := 472347679) (a := true) (b := false) (c := false) (d := false) rfl rfl rfl rfl rfl rfl
  | flush _ _ => exact reach_of (k := 472347679) (a := true) (b := false) (c := false) (d := false) rfl rfl rfl rfl rfl rfl
  | dataPortRead _ _ _ => exact reach_of (k := 1009218591) (a := true) (b := false) (c := false) (d := false) rfl rfl rfl rfl rfl rfl
  | dataPortSeamTimeout _ _ => exact reach_of (k := 203440135) (a := false) (b := false) (c := false) (d := false) rfl rfl rfl rfl rfl rfl
  | msixSend _ => exact reach_of (k := 134217728) (a := false) (b := false) (c := false) (d := false) rfl rfl rfl rfl rfl rfl
  | functionReset => exact reach_of (k := 1009218591) (a := true) (b := false) (c := false) (d := false) rfl rfl rfl rfl rfl rfl
  | retrain _ => exact reach_of (k := 262145) (a := false) (b := false) (c := false) (d := false) rfl rfl rfl rfl rfl rfl
  | linkUp _ _ => exact reach_of (k := 201605121) (a := false) (b := false) (c := false) (d := false) rfl rfl rfl rfl rfl rfl
  | linkDown => exact reach_of (k := 1009218591) (a := true) (b := false) (c := false) (d := false) rfl rfl rfl rfl rfl rfl
  | speedChange _ => exact reach_of (k := 201605121) (a := false) (b := false) (c := false) (d := false) rfl rfl rfl rfl rfl rfl
  | violationCountRead _ => exact reach_of (k := 5) (a := false) (b := false) (c := false) (d := false) rfl rfl rfl rfl rfl rfl
  | bootRead _ => exact reach_of (k := 201605121) (a := false) (b := false) (c := false) (d := false) rfl rfl rfl rfl rfl rfl
  | bootProgram _ => exact reach_of (k := 201605121) (a := false) (b := false) (c := false) (d := false) rfl rfl rfl rfl rfl rfl
  | bootErase _ => exact reach_of (k := 201605121) (a := false) (b := false) (c := false) (d := false) rfl rfl rfl rfl rfl rfl
  | bootDone _ _ => exact reach_of (k := 472347679) (a := true) (b := false) (c := false) (d := false) rfl rfl rfl rfl rfl rfl
  | flashBusyTimeout _ => exact reach_of (k := 470249489) (a := false) (b := false) (c := false) (d := false) rfl rfl rfl rfl rfl rfl
  | fabricPortRequest _ _ _ _ _ => exact reach_of (k := 472085535) (a := true) (b := false) (c := false) (d := false) rfl rfl rfl rfl rfl rfl
  | cuffWrite _ _ _ => exact reach_of (k := 201342977) (a := false) (b := false) (c := false) (d := false) rfl rfl rfl rfl rfl rfl
  | ownerChange _ => exact reach_of (k := 1275085121) (a := false) (b := false) (c := false) (d := false) rfl rfl rfl rfl rfl rfl
  | loadGo _ => exact reach_of (k := 201867265) (a := false) (b := false) (c := false) (d := false) rfl rfl rfl rfl rfl rfl
  | loadCheckDone => exact reach_of (k := 1545302041) (a := true) (b := true) (c := false) (d := false) rfl rfl rfl rfl rfl rfl
  | loadAbort _ => exact reach_of (k := 201867265) (a := false) (b := false) (c := false) (d := false) rfl rfl rfl rfl rfl rfl
  | applyStart => exact reach_of (k := 1074266113) (a := false) (b := false) (c := false) (d := false) rfl rfl rfl rfl rfl rfl
  | sleeveRelease => exact reach_of (k := 1544253529) (a := true) (b := false) (c := false) (d := false) rfl rfl rfl rfl rfl rfl
  | configWriteData _ => exact reach_of (k := 201932825) (a := true) (b := false) (c := false) (d := false) rfl rfl rfl rfl rfl rfl
  | configReadStatus => exact reach_of (k := 524288) (a := false) (b := false) (c := false) (d := false) rfl rfl rfl rfl rfl rfl
  | configParallelWord _ _ => exact reach_of (k := 201932825) (a := true) (b := false) (c := false) (d := false) rfl rfl rfl rfl rfl rfl
  | configCsRise _ => exact reach_of (k := 201867265) (a := false) (b := false) (c := false) (d := false) rfl rfl rfl rfl rfl rfl
  | portSilenceTimeout => exact reach_of (k := 201867265) (a := false) (b := false) (c := false) (d := false) rfl rfl rfl rfl rfl rfl
  | portViolationRead _ => exact reach_of (k := 5) (a := false) (b := false) (c := false) (d := false) rfl rfl rfl rfl rfl rfl
  | verifyImage _ => exact reach_of (k := 202391553) (a := false) (b := true) (c := false) (d := false) rfl rfl rfl rfl rfl rfl
  | attest _ => exact reach_of (k := 202391553) (a := false) (b := true) (c := false) (d := false) rfl rfl rfl rfl rfl rfl
  | enrol _ => exact reach_of (k := 202391553) (a := false) (b := true) (c := false) (d := false) rfl rfl rfl rfl rfl rfl
  | revoke _ => exact reach_of (k := 202391553) (a := false) (b := true) (c := false) (d := false) rfl rfl rfl rfl rfl rfl
  | debugUnlock _ => exact reach_of (k := 202391553) (a := false) (b := true) (c := false) (d := false) rfl rfl rfl rfl rfl rfl
  | mantleOperationDone _ => exact reach_of (k := 1546875935) (a := true) (b := true) (c := false) (d := false) rfl rfl rfl rfl rfl rfl
  | rollbackAdvance _ => exact reach_of (k := 202391553) (a := false) (b := true) (c := false) (d := false) rfl rfl rfl rfl rfl rfl
  | fuseBurnDone _ => exact reach_of (k := 1276133377) (a := false) (b := true) (c := false) (d := false) rfl rfl rfl rfl rfl rfl
  | debugLock _ => exact reach_of (k := 202457113) (a := true) (b := true) (c := false) (d := false) rfl rfl rfl rfl rfl rfl
  | unlockExpiry => exact reach_of (k := 202457113) (a := true) (b := true) (c := false) (d := false) rfl rfl rfl rfl rfl rfl
  | rgnLock _ => exact reach_of (k := 202457113) (a := true) (b := true) (c := false) (d := false) rfl rfl rfl rfl rfl rfl
  | seamPortEnable _ _ => exact reach_of (k := 203440135) (a := false) (b := false) (c := false) (d := false) rfl rfl rfl rfl rfl rfl
  | seamRetrain _ _ => exact reach_of (k := 203440135) (a := false) (b := false) (c := false) (d := false) rfl rfl rfl rfl rfl rfl
  | trainingComplete _ _ _ _ _ => exact reach_of (k := 203440129) (a := false) (b := false) (c := false) (d := false) rfl rfl rfl rfl rfl rfl
  | trainingRestart _ => exact reach_of (k := 2097152) (a := false) (b := false) (c := false) (d := false) rfl rfl rfl rfl rfl rfl
  | laneSparing _ _ => exact reach_of (k := 471875591) (a := false) (b := false) (c := false) (d := false) rfl rfl rfl rfl rfl rfl
  | portDown _ _ => exact reach_of (k := 471875591) (a := false) (b := false) (c := false) (d := false) rfl rfl rfl rfl rfl rfl
  | hello _ _ => exact reach_of (k := 471875591) (a := false) (b := false) (c := false) (d := false) rfl rfl rfl rfl rfl rfl
  | laneMap _ _ => exact reach_of (k := 471875591) (a := false) (b := false) (c := false) (d := false) rfl rfl rfl rfl rfl rfl
  | idle _ _ => exact reach_of (k := 471875591) (a := false) (b := false) (c := false) (d := false) rfl rfl rfl rfl rfl rfl
  | idleSend _ => exact reach_of (k := 2097152) (a := false) (b := false) (c := false) (d := false) rfl rfl rfl rfl rfl rfl
  | replayTimeout _ => exact reach_of (k := 471875591) (a := false) (b := false) (c := false) (d := false) rfl rfl rfl rfl rfl rfl
  | seamWrite _ _ => exact reach_of (k := 2122317823) (a := true) (b := true) (c := true) (d := false) rfl rfl rfl rfl rfl rfl
  | seamRead _ _ => exact reach_of (k := 2082697495) (a := false) (b := false) (c := false) (d := false) rfl rfl rfl rfl rfl rfl
  | readResp _ _ => exact reach_of (k := 471875591) (a := false) (b := false) (c := false) (d := false) rfl rfl rfl rfl rfl rfl
  | seamAnswer _ _ => exact reach_of (k := 471875591) (a := false) (b := false) (c := false) (d := false) rfl rfl rfl rfl rfl rfl
  | seamMsg _ _ => exact reach_of (k := 471941151) (a := true) (b := false) (c := false) (d := false) rfl rfl rfl rfl rfl rfl
  | cueAt _ _ => exact reach_of (k := 1008746503) (a := false) (b := false) (c := false) (d := false) rfl rfl rfl rfl rfl rfl
  | seamAttest _ _ => exact reach_of (k := 472924167) (a := false) (b := true) (c := false) (d := false) rfl rfl rfl rfl rfl rfl
  | timeSync _ _ _ => exact reach_of (k := 471875591) (a := false) (b := false) (c := false) (d := false) rfl rfl rfl rfl rfl rfl
  | timeSyncReply _ _ _ => exact reach_of (k := 1545617447) (a := false) (b := false) (c := true) (d := false) rfl rfl rfl rfl rfl rfl
  | tsyncExchange _ => exact reach_of (k := 2097153) (a := false) (b := false) (c := false) (d := false) rfl rfl rfl rfl rfl rfl
  | seamRequestTimeout _ _ => exact reach_of (k := 203440135) (a := false) (b := false) (c := false) (d := false) rfl rfl rfl rfl rfl rfl
  | cueAtGo _ _ => exact reach_of (k := 740311047) (a := false) (b := false) (c := false) (d := false) rfl rfl rfl rfl rfl rfl
  | attestGo _ _ => exact reach_of (k := 740311047) (a := false) (b := false) (c := false) (d := false) rfl rfl rfl rfl rfl rfl
  | seamWindowAccess _ _ _ _ _ => exact reach_of (k := 203440135) (a := false) (b := false) (c := false) (d := false) rfl rfl rfl rfl rfl rfl
  | seamRelease _ _ => exact reach_of (k := 203440135) (a := false) (b := false) (c := false) (d := false) rfl rfl rfl rfl rfl rfl
  | msgrdWrite _ => exact reach_of (k := 1) (a := false) (b := false) (c := false) (d := false) rfl rfl rfl rfl rfl rfl
  | dropCountRead _ => exact reach_of (k := 5) (a := false) (b := false) (c := false) (d := false) rfl rfl rfl rfl rfl rfl
  | seamViolCountRead _ _ => exact reach_of (k := 5) (a := false) (b := false) (c := false) (d := false) rfl rfl rfl rfl rfl rfl
  | replayCountRead _ _ => exact reach_of (k := 5) (a := false) (b := false) (c := false) (d := false) rfl rfl rfl rfl rfl rfl
  | temperatureCheck _ => exact reach_of (k := 4194304) (a := false) (b := false) (c := false) (d := false) rfl rfl rfl rfl rfl rfl
  | calRequest _ _ => exact reach_of (k := 4194305) (a := false) (b := false) (c := false) (d := false) rfl rfl rfl rfl rfl rfl
  | calCommit _ _ => exact reach_of (k := 4194305) (a := false) (b := false) (c := false) (d := false) rfl rfl rfl rfl rfl rfl
  | calStepStart _ => exact reach_of (k := 205540353) (a := false) (b := false) (c := false) (d := false) rfl rfl rfl rfl rfl rfl
  | calStepEnd _ _ => exact reach_of (k := 205540353) (a := false) (b := false) (c := false) (d := false) rfl rfl rfl rfl rfl rfl
  | stepAbandon _ => exact reach_of (k := 205540353) (a := false) (b := false) (c := false) (d := false) rfl rfl rfl rfl rfl rfl
  | calStarved _ => exact reach_of (k := 205537281) (a := false) (b := false) (c := false) (d := false) rfl rfl rfl rfl rfl rfl
  | sensorUpdate _ _ => exact reach_of (k := 201342977) (a := false) (b := false) (c := false) (d := false) rfl rfl rfl rfl rfl rfl
  | sensorFault _ => exact reach_of (k := 201342977) (a := false) (b := false) (c := false) (d := false) rfl rfl rfl rfl rfl rfl
  | lioDataWrite _ _ => exact reach_of (k := 256) (a := false) (b := false) (c := false) (d := false) rfl rfl rfl rfl rfl rfl
  | lioSet _ _ => exact reach_of (k := 256) (a := false) (b := false) (c := false) (d := false) rfl rfl rfl rfl rfl rfl
  | lioClr _ _ => exact reach_of (k := 256) (a := false) (b := false) (c := false) (d := false) rfl rfl rfl rfl rfl rfl
  | lioTgl _ _ => exact reach_of (k := 256) (a := false) (b := false) (c := false) (d := false) rfl rfl rfl rfl rfl rfl
  | lioCfgWrite _ _ => exact reach_of (k := 1275085121) (a := false) (b := false) (c := false) (d := false) rfl rfl rfl rfl rfl rfl
  | bankSupplyChange _ _ _ => exact reach_of (k := 1275085121) (a := false) (b := false) (c := false) (d := false) rfl rfl rfl rfl rfl rfl
  | uartDataWrite _ _ => exact reach_of (k := 201343233) (a := false) (b := false) (c := false) (d := false) rfl rfl rfl rfl rfl rfl
  | uartDataRead _ _ => exact reach_of (k := 260) (a := false) (b := false) (c := false) (d := false) rfl rfl rfl rfl rfl rfl
  | uartReceive _ _ _ _ => exact reach_of (k := 201343233) (a := false) (b := false) (c := false) (d := false) rfl rfl rfl rfl rfl rfl
  | uartByteSent _ => exact reach_of (k := 256) (a := false) (b := false) (c := false) (d := false) rfl rfl rfl rfl rfl rfl
  | spiDataWrite _ _ => exact reach_of (k := 256) (a := false) (b := false) (c := false) (d := false) rfl rfl rfl rfl rfl rfl
  | spiDataRead _ _ => exact reach_of (k := 260) (a := false) (b := false) (c := false) (d := false) rfl rfl rfl rfl rfl rfl
  | spiByteDone _ _ => exact reach_of (k := 256) (a := false) (b := false) (c := false) (d := false) rfl rfl rfl rfl rfl rfl
  | i2cGo _ _ => exact reach_of (k := 257) (a := false) (b := false) (c := false) (d := false) rfl rfl rfl rfl rfl rfl
  | i2cTransferDone _ _ _ _ _ => exact reach_of (k := 201343233) (a := false) (b := false) (c := false) (d := false) rfl rfl rfl rfl rfl rfl
  | i2cBusStuck _ => exact reach_of (k := 201343233) (a := false) (b := false) (c := false) (d := false) rfl rfl rfl rfl rfl rfl
  | i2cDataRead _ _ => exact reach_of (k := 260) (a := false) (b := false) (c := false) (d := false) rfl rfl rfl rfl rfl rfl
  | swraise _ => exact reach_of (k := 201342977) (a := false) (b := false) (c := false) (d := false) rfl rfl rfl rfl rfl rfl
  | seamEventMsg _ => exact reach_of (k := 203440135) (a := false) (b := false) (c := false) (d := false) rfl rfl rfl rfl rfl rfl
  | raiseCountRead _ => exact reach_of (k := 5) (a := false) (b := false) (c := false) (d := false) rfl rfl rfl rfl rfl rfl
  | supplyOut _ => exact reach_of (k := 486567937) (a := false) (b := false) (c := false) (d := false) rfl rfl rfl rfl rfl rfl
  | supplyIn _ => exact reach_of (k := 285216769) (a := false) (b := false) (c := false) (d := false) rfl rfl rfl rfl rfl rfl
  | faultLogWrite _ => exact reach_of (k := 469843993) (a := true) (b := false) (c := false) (d := false) rfl rfl rfl rfl rfl rfl
  | sysReset _ => exact reach_of (k := 2147483647) (a := true) (b := true) (c := true) (d := true) rfl rfl rfl rfl rfl rfl
  | powerLoss => exact reach_of (k := 2147483647) (a := true) (b := true) (c := true) (d := true) rfl rfl rfl rfl rfl rfl
  | startSequence _ _ => exact reach_of (k := 1556053631) (a := true) (b := true) (c := true) (d := true) rfl rfl rfl rfl rfl rfl
  | stepTimeout _ => exact reach_of (k := 480463903) (a := true) (b := false) (c := false) (d := true) rfl rfl rfl rfl rfl rfl
  | internalRestart _ => exact reach_of (k := 2147483647) (a := true) (b := true) (c := true) (d := true) rfl rfl rfl rfl rfl rfl
  | stepRevert _ _ => exact reach_of (k := 65560) (a := true) (b := false) (c := false) (d := false) rfl rfl rfl rfl rfl rfl
  | fabricCueOutput _ _ => exact reach_of (k := 201343041) (a := false) (b := false) (c := false) (d := false) rfl rfl rfl rfl rfl rfl
  | fastsumUpdate _ _ _ => exact reach_of (k := 1275087873) (a := false) (b := false) (c := false) (d := false) rfl rfl rfl rfl rfl rfl
  | windowOpen _ _ => exact reach_of (k := 2048) (a := false) (b := false) (c := false) (d := false) rfl rfl rfl rfl rfl rfl
  | pgaClip _ _ _ => exact reach_of (k := 201342977) (a := false) (b := false) (c := false) (d := false) rfl rfl rfl rfl rfl rfl
  | biquadClip _ _ => exact reach_of (k := 201342977) (a := false) (b := false) (c := false) (d := false) rfl rfl rfl rfl rfl rfl
  | cueAtAnswer _ _ => exact reach_of (k := 471875591) (a := false) (b := false) (c := false) (d := false) rfl rfl rfl rfl rfl rfl
  | attestAnswer _ _ => exact reach_of (k := 471875591) (a := false) (b := false) (c := false) (d := false) rfl rfl rfl rfl rfl rfl
  | configurationSpaceWrite _ _ _ _ => exact reach_of (k := 262145) (a := false) (b := false) (c := false) (d := false) rfl rfl rfl rfl rfl rfl
  | dacPortUncorrectableRead _ => exact reach_of (k := 469988369) (a := false) (b := false) (c := false) (d := false) rfl rfl rfl rfl rfl rfl
  | unknownQspiCommand => exact reach_of (k := 201867265) (a := false) (b := false) (c := false) (d := false) rfl rfl rfl rfl rfl rfl

end Sys2Proof.Machine
end

