-- ==== Sys2Proof/Laws/Raise.lean ====
section
/-!
SUPPORT. What a raise of an event does and leaves alone (R429 to R433), and with it the sticky flags.
-/
namespace Sys2Proof.Machine

/-! ### Registers -/

theorem Fld.get_lt (f : Fld) (w : Word) : f.get w < 2 ^ f.width := by
  unfold Fld.get slice
  exact Nat.mod_lt _ (Nat.two_pow_pos _)

/-- A register that no delivery of an event changes: neither EVT_STAT nor ME_STAT of an engine. -/
def quietReg (a : Nat) : Prop := a ≠ Reg.EVT_STAT ∧ ∀ n < 256, a ≠ Reg.ME_STAT n

theorem quietReg_of {a : Nat} (h : ¬ eventReg a) : quietReg a :=
  ⟨fun q => h (.inr (.inl q)), fun n hn q => h (.inr (.inr (.inr ⟨n, hn, q⟩)))⟩

theorem quietReg_pend (i : Nat) (hi : i < 32) : quietReg (Reg.EVT_PEND i) := by
  refine ⟨?_, fun n _ => ?_⟩ <;> simp only [Reg.EVT_PEND, Reg.EVT_STAT, Reg.ME_STAT, ne_eq] <;> omega

theorem reg_evtStat {s : State} {f : Fld} {e a : Nat} (h : quietReg a) : (s.evtStat f e).reg a = s.reg a := by
  simp [State.evtStat, h.1]

theorem reg_engArrive {s : State} {n c a : Nat} (hn : n < 256) (h : quietReg a) :
    (engArrive n c s).1.reg a = s.reg a := by
  unfold engArrive
  dsimp only
  split <;> simp [h.2 n hn]

theorem reg_evtToEngine {s : State} {e a : Nat} (h : quietReg a) : (evtToEngine e s).1.reg a = s.reg a := by
  unfold evtToEngine
  have hr : F.EVT_ROUTE_Engine.get (routeOf e s) < 256 := Fld.get_lt _ _
  have hf : s.fld Reg.EVT_CTL F.EVT_CTL_FallbackEngine < 256 := Fld.get_lt _ _
  extract_lets r n fb st
  split
  · exact reg_engArrive hr h
  · split
    · show (engArrive fb _ (s.evtStat _ e)).1.reg a = _
      rw [reg_engArrive hf h, reg_evtStat h]
    · exact reg_evtStat h

theorem reg_evtToSeam {s : State} {e a : Nat} (h : quietReg a) : (evtToSeam e s).reg a = s.reg a := by
  unfold evtToSeam
  split
  · exact reg_evtStat h
  · extract_lets win
    split
    · rfl
    · exact reg_evtStat h

/-- One raise: EVT_PEND and EVT_RAISECNT aside, a quiet register stays; EVT_PEND gains the event's bit. -/
theorem reg_raiseOne_quiet {s : State} {e a : Nat} (h : quietReg a) (hc : a ≠ Reg.EVT_RAISECNT) :
    (raiseOne e s).1.reg a =
      if a = Reg.EVT_PEND (e / 32) then s.reg a ||| BitVec.ofNat 32 (2 ^ (e % 32)) else s.reg a := by
  unfold raiseOne
  extract_lets p s1 s2 r s3 s4
  have h1 : s1.reg a = if a = Reg.EVT_PEND (e / 32) then s.reg a ||| BitVec.ofNat 32 (2 ^ (e % 32)) else s.reg a := by
    simp only [s1, p, State.reg_setReg]
    split
    · rename_i q; rw [q]
    · rfl
  have h2 : s2.reg a = s1.reg a := by simp [s2, hc]
  have h3 : s3.reg a = s2.reg a := by
    show (if _ then _ else _ : State).reg a = _
    split <;> rfl
  have h4 : s4.reg a = s3.reg a := by
    show (if _ then _ else _ : State).reg a = _
    split
    · exact reg_evtToSeam h
    · rfl
  split
  · rw [reg_evtToEngine h, h4, h3, h2, h1]
  · rw [h4, h3, h2, h1]

theorem reg_raiseOne {s : State} {e a : Nat} (he : e < 1024) (h : ¬ eventReg a) :
    (raiseOne e s).1.reg a = s.reg a := by
  have hc : a ≠ Reg.EVT_RAISECNT := fun q => h (.inl q)
  have hp : a ≠ Reg.EVT_PEND (e / 32) := fun q => h (.inr (.inr (.inl ⟨e / 32, by omega, q⟩)))
  rw [reg_raiseOne_quiet (quietReg_of h) hc, if_neg hp]

/-- The engine that raises an event of its own through EvCoalesced has a number of 8 bits. -/
theorem raiseOne_lt {s s' : State} {e n : Nat} (h : raiseOne e s = (s', some n)) : n < 256 := by
  unfold raiseOne at h
  extract_lets p s1 s2 r s3 s4 at h
  split at h
  · unfold evtToEngine at h
    have hr : F.EVT_ROUTE_Engine.get (routeOf e s4) < 256 := Fld.get_lt _ _
    have hf : s4.fld Reg.EVT_CTL F.EVT_CTL_FallbackEngine < 256 := Fld.get_lt _ _
    extract_lets q k fb st at h
    split at h
    · have h := congrArg Prod.snd h
      dsimp only at h
      split at h
      · rw [← Option.some.inj h]; exact hr
      · cases h
    · split at h
      · have h := congrArg Prod.snd h
        dsimp only at h
        split at h
        · rw [← Option.some.inj h]; exact hf
        · cases h
      · cases congrArg Prod.snd h
  · cases congrArg Prod.snd h

theorem reg_raiseChain {k : Nat} {s : State} {e a : Nat} (he : e < 1024) (h : ¬ eventReg a) :
    (raiseChain k e s).reg a = s.reg a := by
  induction k generalizing e s with
  | zero => rfl
  | succ k ih =>
    unfold raiseChain
    split
    · rename_i z n q
      have hz : z = (raiseOne e s).1 := by rw [q]
      rw [ih (by have := raiseOne_lt q; omega), hz, reg_raiseOne he h]
    · rename_i z q
      have hz : z = (raiseOne e s).1 := by rw [q]
      rw [hz, reg_raiseOne he h]

/-- A raise leaves every register alone that no event changes. -/
theorem reg_raise {s : State} {e a : Nat} (he : e < 1024) (h : ¬ eventReg a) : (s.raise e).reg a = s.reg a :=
  reg_raiseChain he h

theorem reg_raiseIf {s : State} {b : Bool} {e a : Nat} (he : e < 1024) (h : ¬ eventReg a) :
    (s.raiseIf b e).reg a = s.reg a := by
  unfold State.raiseIf
  split
  · exact reg_raise he h
  · rfl

/-! ### Pending bits -/

theorem pend_ne_count (i : Nat) : Reg.EVT_PEND i ≠ Reg.EVT_RAISECNT := by
  simp only [Reg.EVT_PEND, Reg.EVT_RAISECNT, ne_eq]
  omega

/-- A raise of an event clears no pending bit. -/
theorem pends_raiseOne {s : State} {e x : Nat} (hx : x < 1024) (h : s.pends x = true) :
    (raiseOne e s).1.pends x = true := by
  unfold State.pends at *
  rw [reg_raiseOne_quiet (quietReg_pend _ (by omega)) (pend_ne_count _)]
  split
  · rw [BitVec.getLsbD_or, h, Bool.true_or]
  · exact h

/-- One raise sets the event's own pending bit. -/
theorem pends_raiseOne_self {s : State} {e : Nat} (he : e < 1024) : (raiseOne e s).1.pends e = true := by
  unfold State.pends
  rw [reg_raiseOne_quiet (quietReg_pend _ (by omega)) (pend_ne_count _), if_pos rfl, BitVec.getLsbD_or,
    BitVec.getLsbD_ofNat]
  have h : e % 32 < 32 := Nat.mod_lt _ (by decide)
  simp [h, Nat.testBit_two_pow_self]

theorem pends_raiseChain {k : Nat} {s : State} {e x : Nat} (hx : x < 1024) (h : s.pends x = true) :
    (raiseChain k e s).pends x = true := by
  induction k generalizing e s with
  | zero => exact h
  | succ k ih =>
    unfold raiseChain
    split
    · rename_i z n q
      have hz : z = (raiseOne e s).1 := by rw [q]
      exact ih (hz ▸ pends_raiseOne hx h)
    · rename_i z q
      have hz : z = (raiseOne e s).1 := by rw [q]
      exact hz ▸ pends_raiseOne hx h

/-- No raise clears a pending bit. -/
theorem pends_raise {s : State} {e x : Nat} (hx : x < 1024) (h : s.pends x = true) : (s.raise e).pends x = true :=
  pends_raiseChain hx h

/-- A raised event is pending (R429). -/
theorem pends_raise_self {s : State} {e : Nat} (he : e < 1024) : (s.raise e).pends e = true := by
  unfold State.raise
  rw [show (193 : Nat) = 192 + 1 from rfl, raiseChain]
  split
  · rename_i z n q
    have hz : z = (raiseOne e s).1 := by rw [q]
    exact pends_raiseChain he (hz ▸ pends_raiseOne_self he)
  · rename_i z q
    have hz : z = (raiseOne e s).1 := by rw [q]
    exact hz ▸ pends_raiseOne_self he

/-! ### Engines -/

/-- Two states of an engine that differ in EVPEND alone. -/
def evpendOnly (e x : Engine) : Prop := x = { e with evpend := x.evpend }

theorem evpendOnly.refl (e : Engine) : evpendOnly e e := rfl

theorem evpendOnly.trans {e x y : Engine} (h : evpendOnly e x) (k : evpendOnly x y) : evpendOnly e y := by
  unfold evpendOnly at *
  rw [k, h]

theorem eng_engArrive (s : State) (n c i : Nat) : evpendOnly (s.eng i) ((engArrive n c s).1.eng i) := by
  unfold engArrive
  dsimp only
  split
  · exact evpendOnly.refl _
  · simp only [State.eng_setEng]
    split
    · rename_i q; subst q; rfl
    · exact evpendOnly.refl _

theorem eng_evtToEngine (s : State) (e i : Nat) : evpendOnly (s.eng i) ((evtToEngine e s).1.eng i) := by
  unfold evtToEngine
  extract_lets r n fb st
  split
  · exact eng_engArrive s _ _ i
  · split
    · exact eng_engArrive (s.evtStat _ e) _ _ i
    · exact evpendOnly.refl _

theorem eng_evtToSeam (s : State) (e i : Nat) : (evtToSeam e s).eng i = s.eng i := by
  unfold evtToSeam
  split
  · rfl
  · extract_lets win
    split <;> rfl

theorem eng_raiseOne (s : State) (e i : Nat) : evpendOnly (s.eng i) ((raiseOne e s).1.eng i) := by
  unfold raiseOne
  extract_lets p s1 s2 r s3 s4
  have h3 : s3.eng i = s.eng i := by
    show (if _ then _ else _ : State).eng i = _
    split <;> rfl
  have h4 : s4.eng i = s3.eng i := by
    show (if _ then _ else _ : State).eng i = _
    split
    · exact eng_evtToSeam _ _ _
    · rfl
  rw [← h3, ← h4]
  split
  · exact eng_evtToEngine _ _ _
  · exact evpendOnly.refl _

theorem eng_raiseChain (k : Nat) (s : State) (e i : Nat) : evpendOnly (s.eng i) ((raiseChain k e s).eng i) := by
  induction k generalizing e s with
  | zero => exact evpendOnly.refl _
  | succ k ih =>
    unfold raiseChain
    split
    · rename_i z n q
      have hz : z = (raiseOne e s).1 := by rw [q]
      exact (hz ▸ eng_raiseOne s e i).trans (ih _ _)
    · rename_i z q
      have hz : z = (raiseOne e s).1 := by rw [q]
      exact hz ▸ eng_raiseOne s e i

/-- A raise leaves an engine alone but for EVPEND. -/
theorem eng_raise (s : State) (e i : Nat) : evpendOnly (s.eng i) ((s.raise e).eng i) := eng_raiseChain 193 s e i

theorem eng_raiseIf (s : State) (b : Bool) (e i : Nat) : evpendOnly (s.eng i) ((s.raiseIf b e).eng i) := by
  unfold State.raiseIf
  split
  · exact eng_raise s e i
  · exact evpendOnly.refl _

/-! ### The other parts -/

@[simp] theorem State.raise_perReq (s : State) (e : Nat) : (s.raise e).perReq = s.perReq :=
  (State.raise_keeps (m := 201342977) (by decide) (Keeps.refl _ s)).same .perReq (by decide)
@[simp] theorem State.raiseIf_perReq (s : State) (b : Bool) (e : Nat) : (s.raiseIf b e).perReq = s.perReq :=
  (State.raiseIf_keeps (m := 201342977) (by decide) (Keeps.refl _ s)).same .perReq (by decide)
@[simp] theorem State.flag_perReq (s : State) (a : Nat) (f : Fld) (b : Bool) (e : Nat) : (s.flag a f b e).perReq = s.perReq :=
  (State.flag_keeps (m := 201342977) (by decide) (Keeps.refl _ s)).same .perReq (by decide)
@[simp] theorem State.raise_rdata (s : State) (e : Nat) : (s.raise e).rdata = s.rdata :=
  (State.raise_keeps (m := 201342977) (by decide) (Keeps.refl _ s)).same .rdata (by decide)
@[simp] theorem State.raiseIf_rdata (s : State) (b : Bool) (e : Nat) : (s.raiseIf b e).rdata = s.rdata :=
  (State.raiseIf_keeps (m := 201342977) (by decide) (Keeps.refl _ s)).same .rdata (by decide)
@[simp] theorem State.flag_rdata (s : State) (a : Nat) (f : Fld) (b : Bool) (e : Nat) : (s.flag a f b e).rdata = s.rdata :=
  (State.flag_keeps (m := 201342977) (by decide) (Keeps.refl _ s)).same .rdata (by decide)
@[simp] theorem State.raise_mem (s : State) (e : Nat) : (s.raise e).mem = s.mem :=
  (State.raise_keeps (m := 201342977) (by decide) (Keeps.refl _ s)).same .mem (by decide)
@[simp] theorem State.raiseIf_mem (s : State) (b : Bool) (e : Nat) : (s.raiseIf b e).mem = s.mem :=
  (State.raiseIf_keeps (m := 201342977) (by decide) (Keeps.refl _ s)).same .mem (by decide)
@[simp] theorem State.flag_mem (s : State) (a : Nat) (f : Fld) (b : Bool) (e : Nat) : (s.flag a f b e).mem = s.mem :=
  (State.flag_keeps (m := 201342977) (by decide) (Keeps.refl _ s)).same .mem (by decide)
@[simp] theorem State.raise_poison (s : State) (e : Nat) : (s.raise e).poison = s.poison :=
  (State.raise_keeps (m := 201342977) (by decide) (Keeps.refl _ s)).same .poison (by decide)
@[simp] theorem State.raiseIf_poison (s : State) (b : Bool) (e : Nat) : (s.raiseIf b e).poison = s.poison :=
  (State.raiseIf_keeps (m := 201342977) (by decide) (Keeps.refl _ s)).same .poison (by decide)
@[simp] theorem State.flag_poison (s : State) (a : Nat) (f : Fld) (b : Bool) (e : Nat) : (s.flag a f b e).poison = s.poison :=
  (State.flag_keeps (m := 201342977) (by decide) (Keeps.refl _ s)).same .poison (by decide)
@[simp] theorem State.raise_clock (s : State) (e : Nat) : (s.raise e).clock = s.clock :=
  (State.raise_keeps (m := 201342977) (by decide) (Keeps.refl _ s)).same .clock (by decide)
@[simp] theorem State.raiseIf_clock (s : State) (b : Bool) (e : Nat) : (s.raiseIf b e).clock = s.clock :=
  (State.raiseIf_keeps (m := 201342977) (by decide) (Keeps.refl _ s)).same .clock (by decide)
@[simp] theorem State.flag_clock (s : State) (a : Nat) (f : Fld) (b : Bool) (e : Nat) : (s.flag a f b e).clock = s.clock :=
  (State.flag_keeps (m := 201342977) (by decide) (Keeps.refl _ s)).same .clock (by decide)
@[simp] theorem State.raise_cue (s : State) (e : Nat) : (s.raise e).cue = s.cue :=
  (State.raise_keeps (m := 201342977) (by decide) (Keeps.refl _ s)).same .cue (by decide)
@[simp] theorem State.raiseIf_cue (s : State) (b : Bool) (e : Nat) : (s.raiseIf b e).cue = s.cue :=
  (State.raiseIf_keeps (m := 201342977) (by decide) (Keeps.refl _ s)).same .cue (by decide)
@[simp] theorem State.flag_cue (s : State) (a : Nat) (f : Fld) (b : Bool) (e : Nat) : (s.flag a f b e).cue = s.cue :=
  (State.flag_keeps (m := 201342977) (by decide) (Keeps.refl _ s)).same .cue (by decide)
@[simp] theorem State.raise_encs (s : State) (e : Nat) : (s.raise e).encs = s.encs :=
  (State.raise_keeps (m := 201342977) (by decide) (Keeps.refl _ s)).same .encs (by decide)
@[simp] theorem State.raiseIf_encs (s : State) (b : Bool) (e : Nat) : (s.raiseIf b e).encs = s.encs :=
  (State.raiseIf_keeps (m := 201342977) (by decide) (Keeps.refl _ s)).same .encs (by decide)
@[simp] theorem State.flag_encs (s : State) (a : Nat) (f : Fld) (b : Bool) (e : Nat) : (s.flag a f b e).encs = s.encs :=
  (State.flag_keeps (m := 201342977) (by decide) (Keeps.refl _ s)).same .encs (by decide)
@[simp] theorem State.raise_lio (s : State) (e : Nat) : (s.raise e).lio = s.lio :=
  (State.raise_keeps (m := 201342977) (by decide) (Keeps.refl _ s)).same .lio (by decide)
@[simp] theorem State.raiseIf_lio (s : State) (b : Bool) (e : Nat) : (s.raiseIf b e).lio = s.lio :=
  (State.raiseIf_keeps (m := 201342977) (by decide) (Keeps.refl _ s)).same .lio (by decide)
@[simp] theorem State.flag_lio (s : State) (a : Nat) (f : Fld) (b : Bool) (e : Nat) : (s.flag a f b e).lio = s.lio :=
  (State.flag_keeps (m := 201342977) (by decide) (Keeps.refl _ s)).same .lio (by decide)
@[simp] theorem State.raise_pgs (s : State) (e : Nat) : (s.raise e).pgs = s.pgs :=
  (State.raise_keeps (m := 201342977) (by decide) (Keeps.refl _ s)).same .pgs (by decide)
@[simp] theorem State.raiseIf_pgs (s : State) (b : Bool) (e : Nat) : (s.raiseIf b e).pgs = s.pgs :=
  (State.raiseIf_keeps (m := 201342977) (by decide) (Keeps.refl _ s)).same .pgs (by decide)
@[simp] theorem State.flag_pgs (s : State) (a : Nat) (f : Fld) (b : Bool) (e : Nat) : (s.flag a f b e).pgs = s.pgs :=
  (State.flag_keeps (m := 201342977) (by decide) (Keeps.refl _ s)).same .pgs (by decide)
@[simp] theorem State.raise_arr (s : State) (e : Nat) : (s.raise e).arr = s.arr :=
  (State.raise_keeps (m := 201342977) (by decide) (Keeps.refl _ s)).same .arr (by decide)
@[simp] theorem State.raiseIf_arr (s : State) (b : Bool) (e : Nat) : (s.raiseIf b e).arr = s.arr :=
  (State.raiseIf_keeps (m := 201342977) (by decide) (Keeps.refl _ s)).same .arr (by decide)
@[simp] theorem State.flag_arr (s : State) (a : Nat) (f : Fld) (b : Bool) (e : Nat) : (s.flag a f b e).arr = s.arr :=
  (State.flag_keeps (m := 201342977) (by decide) (Keeps.refl _ s)).same .arr (by decide)
@[simp] theorem State.raise_dce (s : State) (e : Nat) : (s.raise e).dce = s.dce :=
  (State.raise_keeps (m := 201342977) (by decide) (Keeps.refl _ s)).same .dce (by decide)
@[simp] theorem State.raiseIf_dce (s : State) (b : Bool) (e : Nat) : (s.raiseIf b e).dce = s.dce :=
  (State.raiseIf_keeps (m := 201342977) (by decide) (Keeps.refl _ s)).same .dce (by decide)
@[simp] theorem State.flag_dce (s : State) (a : Nat) (f : Fld) (b : Bool) (e : Nat) : (s.flag a f b e).dce = s.dce :=
  (State.flag_keeps (m := 201342977) (by decide) (Keeps.refl _ s)).same .dce (by decide)
@[simp] theorem State.raise_heads (s : State) (e : Nat) : (s.raise e).heads = s.heads :=
  (State.raise_keeps (m := 201342977) (by decide) (Keeps.refl _ s)).same .heads (by decide)
@[simp] theorem State.raiseIf_heads (s : State) (b : Bool) (e : Nat) : (s.raiseIf b e).heads = s.heads :=
  (State.raiseIf_keeps (m := 201342977) (by decide) (Keeps.refl _ s)).same .heads (by decide)
@[simp] theorem State.flag_heads (s : State) (a : Nat) (f : Fld) (b : Bool) (e : Nat) : (s.flag a f b e).heads = s.heads :=
  (State.flag_keeps (m := 201342977) (by decide) (Keeps.refl _ s)).same .heads (by decide)
@[simp] theorem State.raise_ledger (s : State) (e : Nat) : (s.raise e).ledger = s.ledger :=
  (State.raise_keeps (m := 201342977) (by decide) (Keeps.refl _ s)).same .ledger (by decide)
@[simp] theorem State.raiseIf_ledger (s : State) (b : Bool) (e : Nat) : (s.raiseIf b e).ledger = s.ledger :=
  (State.raiseIf_keeps (m := 201342977) (by decide) (Keeps.refl _ s)).same .ledger (by decide)
@[simp] theorem State.flag_ledger (s : State) (a : Nat) (f : Fld) (b : Bool) (e : Nat) : (s.flag a f b e).ledger = s.ledger :=
  (State.flag_keeps (m := 201342977) (by decide) (Keeps.refl _ s)).same .ledger (by decide)
@[simp] theorem State.raise_jobs (s : State) (e : Nat) : (s.raise e).jobs = s.jobs :=
  (State.raise_keeps (m := 201342977) (by decide) (Keeps.refl _ s)).same .jobs (by decide)
@[simp] theorem State.raiseIf_jobs (s : State) (b : Bool) (e : Nat) : (s.raiseIf b e).jobs = s.jobs :=
  (State.raiseIf_keeps (m := 201342977) (by decide) (Keeps.refl _ s)).same .jobs (by decide)
@[simp] theorem State.flag_jobs (s : State) (a : Nat) (f : Fld) (b : Bool) (e : Nat) : (s.flag a f b e).jobs = s.jobs :=
  (State.flag_keeps (m := 201342977) (by decide) (Keeps.refl _ s)).same .jobs (by decide)
@[simp] theorem State.raise_memt (s : State) (e : Nat) : (s.raise e).memt = s.memt :=
  (State.raise_keeps (m := 201342977) (by decide) (Keeps.refl _ s)).same .memt (by decide)
@[simp] theorem State.raiseIf_memt (s : State) (b : Bool) (e : Nat) : (s.raiseIf b e).memt = s.memt :=
  (State.raiseIf_keeps (m := 201342977) (by decide) (Keeps.refl _ s)).same .memt (by decide)
@[simp] theorem State.flag_memt (s : State) (a : Nat) (f : Fld) (b : Bool) (e : Nat) : (s.flag a f b e).memt = s.memt :=
  (State.flag_keeps (m := 201342977) (by decide) (Keeps.refl _ s)).same .memt (by decide)
@[simp] theorem State.raise_lpddr (s : State) (e : Nat) : (s.raise e).lpddr = s.lpddr :=
  (State.raise_keeps (m := 201342977) (by decide) (Keeps.refl _ s)).same .lpddr (by decide)
@[simp] theorem State.raiseIf_lpddr (s : State) (b : Bool) (e : Nat) : (s.raiseIf b e).lpddr = s.lpddr :=
  (State.raiseIf_keeps (m := 201342977) (by decide) (Keeps.refl _ s)).same .lpddr (by decide)
@[simp] theorem State.flag_lpddr (s : State) (a : Nat) (f : Fld) (b : Bool) (e : Nat) : (s.flag a f b e).lpddr = s.lpddr :=
  (State.flag_keeps (m := 201342977) (by decide) (Keeps.refl _ s)).same .lpddr (by decide)
@[simp] theorem State.raise_host (s : State) (e : Nat) : (s.raise e).host = s.host :=
  (State.raise_keeps (m := 201342977) (by decide) (Keeps.refl _ s)).same .host (by decide)
@[simp] theorem State.raiseIf_host (s : State) (b : Bool) (e : Nat) : (s.raiseIf b e).host = s.host :=
  (State.raiseIf_keeps (m := 201342977) (by decide) (Keeps.refl _ s)).same .host (by decide)
@[simp] theorem State.flag_host (s : State) (a : Nat) (f : Fld) (b : Bool) (e : Nat) : (s.flag a f b e).host = s.host :=
  (State.flag_keeps (m := 201342977) (by decide) (Keeps.refl _ s)).same .host (by decide)
@[simp] theorem State.raise_cfg (s : State) (e : Nat) : (s.raise e).cfg = s.cfg :=
  (State.raise_keeps (m := 201342977) (by decide) (Keeps.refl _ s)).same .cfg (by decide)
@[simp] theorem State.raiseIf_cfg (s : State) (b : Bool) (e : Nat) : (s.raiseIf b e).cfg = s.cfg :=
  (State.raiseIf_keeps (m := 201342977) (by decide) (Keeps.refl _ s)).same .cfg (by decide)
@[simp] theorem State.flag_cfg (s : State) (a : Nat) (f : Fld) (b : Bool) (e : Nat) : (s.flag a f b e).cfg = s.cfg :=
  (State.flag_keeps (m := 201342977) (by decide) (Keeps.refl _ s)).same .cfg (by decide)
@[simp] theorem State.raise_mantle (s : State) (e : Nat) : (s.raise e).mantle = s.mantle :=
  (State.raise_keeps (m := 201342977) (by decide) (Keeps.refl _ s)).same .mantle (by decide)
@[simp] theorem State.raiseIf_mantle (s : State) (b : Bool) (e : Nat) : (s.raiseIf b e).mantle = s.mantle :=
  (State.raiseIf_keeps (m := 201342977) (by decide) (Keeps.refl _ s)).same .mantle (by decide)
@[simp] theorem State.flag_mantle (s : State) (a : Nat) (f : Fld) (b : Bool) (e : Nat) : (s.flag a f b e).mantle = s.mantle :=
  (State.flag_keeps (m := 201342977) (by decide) (Keeps.refl _ s)).same .mantle (by decide)
@[simp] theorem State.raise_seam (s : State) (e : Nat) : (s.raise e).seam = s.seam :=
  (State.raise_keeps (m := 201342977) (by decide) (Keeps.refl _ s)).same .seam (by decide)
@[simp] theorem State.raiseIf_seam (s : State) (b : Bool) (e : Nat) : (s.raiseIf b e).seam = s.seam :=
  (State.raiseIf_keeps (m := 201342977) (by decide) (Keeps.refl _ s)).same .seam (by decide)
@[simp] theorem State.flag_seam (s : State) (a : Nat) (f : Fld) (b : Bool) (e : Nat) : (s.flag a f b e).seam = s.seam :=
  (State.flag_keeps (m := 201342977) (by decide) (Keeps.refl _ s)).same .seam (by decide)
@[simp] theorem State.raise_cal (s : State) (e : Nat) : (s.raise e).cal = s.cal :=
  (State.raise_keeps (m := 201342977) (by decide) (Keeps.refl _ s)).same .cal (by decide)
@[simp] theorem State.raiseIf_cal (s : State) (b : Bool) (e : Nat) : (s.raiseIf b e).cal = s.cal :=
  (State.raiseIf_keeps (m := 201342977) (by decide) (Keeps.refl _ s)).same .cal (by decide)
@[simp] theorem State.flag_cal (s : State) (a : Nat) (f : Fld) (b : Bool) (e : Nat) : (s.flag a f b e).cal = s.cal :=
  (State.flag_keeps (m := 201342977) (by decide) (Keeps.refl _ s)).same .cal (by decide)
@[simp] theorem State.raise_startup (s : State) (e : Nat) : (s.raise e).startup = s.startup :=
  (State.raise_keeps (m := 201342977) (by decide) (Keeps.refl _ s)).same .startup (by decide)
@[simp] theorem State.raiseIf_startup (s : State) (b : Bool) (e : Nat) : (s.raiseIf b e).startup = s.startup :=
  (State.raiseIf_keeps (m := 201342977) (by decide) (Keeps.refl _ s)).same .startup (by decide)
@[simp] theorem State.flag_startup (s : State) (a : Nat) (f : Fld) (b : Bool) (e : Nat) : (s.flag a f b e).startup = s.startup :=
  (State.flag_keeps (m := 201342977) (by decide) (Keeps.refl _ s)).same .startup (by decide)
@[simp] theorem State.raise_supLt (s : State) (e : Nat) : (s.raise e).supLt = s.supLt :=
  (State.raise_keeps (m := 201342977) (by decide) (Keeps.refl _ s)).same .supLt (by decide)
@[simp] theorem State.raiseIf_supLt (s : State) (b : Bool) (e : Nat) : (s.raiseIf b e).supLt = s.supLt :=
  (State.raiseIf_keeps (m := 201342977) (by decide) (Keeps.refl _ s)).same .supLt (by decide)
@[simp] theorem State.flag_supLt (s : State) (a : Nat) (f : Fld) (b : Bool) (e : Nat) : (s.flag a f b e).supLt = s.supLt :=
  (State.flag_keeps (m := 201342977) (by decide) (Keeps.refl _ s)).same .supLt (by decide)
@[simp] theorem State.raise_oldRoutes (s : State) (e : Nat) : (s.raise e).oldRoutes = s.oldRoutes :=
  (State.raise_keeps (m := 201342977) (by decide) (Keeps.refl _ s)).same .oldRoutes (by decide)
@[simp] theorem State.raiseIf_oldRoutes (s : State) (b : Bool) (e : Nat) : (s.raiseIf b e).oldRoutes = s.oldRoutes :=
  (State.raiseIf_keeps (m := 201342977) (by decide) (Keeps.refl _ s)).same .oldRoutes (by decide)
@[simp] theorem State.flag_oldRoutes (s : State) (a : Nat) (f : Fld) (b : Bool) (e : Nat) : (s.flag a f b e).oldRoutes = s.oldRoutes :=
  (State.flag_keeps (m := 201342977) (by decide) (Keeps.refl _ s)).same .oldRoutes (by decide)
@[simp] theorem State.raise_logQ (s : State) (e : Nat) : (s.raise e).logQ = s.logQ :=
  (State.raise_keeps (m := 201342977) (by decide) (Keeps.refl _ s)).same .logQ (by decide)
@[simp] theorem State.raiseIf_logQ (s : State) (b : Bool) (e : Nat) : (s.raiseIf b e).logQ = s.logQ :=
  (State.raiseIf_keeps (m := 201342977) (by decide) (Keeps.refl _ s)).same .logQ (by decide)
@[simp] theorem State.flag_logQ (s : State) (a : Nat) (f : Fld) (b : Bool) (e : Nat) : (s.flag a f b e).logQ = s.logQ :=
  (State.flag_keeps (m := 201342977) (by decide) (Keeps.refl _ s)).same .logQ (by decide)
@[simp] theorem State.raise_free (s : State) (e : Nat) : (s.raise e).free = s.free :=
  (State.raise_keeps (m := 201342977) (by decide) (Keeps.refl _ s)).same .free (by decide)
@[simp] theorem State.raiseIf_free (s : State) (b : Bool) (e : Nat) : (s.raiseIf b e).free = s.free :=
  (State.raiseIf_keeps (m := 201342977) (by decide) (Keeps.refl _ s)).same .free (by decide)
@[simp] theorem State.flag_free (s : State) (a : Nat) (f : Fld) (b : Bool) (e : Nat) : (s.flag a f b e).free = s.free :=
  (State.flag_keeps (m := 201342977) (by decide) (Keeps.refl _ s)).same .free (by decide)
@[simp] theorem State.raise_pending (s : State) (e : Nat) : (s.raise e).pending = s.pending :=
  (State.raise_keeps (m := 201342977) (by decide) (Keeps.refl _ s)).same .pending (by decide)
@[simp] theorem State.raiseIf_pending (s : State) (b : Bool) (e : Nat) : (s.raiseIf b e).pending = s.pending :=
  (State.raiseIf_keeps (m := 201342977) (by decide) (Keeps.refl _ s)).same .pending (by decide)
@[simp] theorem State.flag_pending (s : State) (a : Nat) (f : Fld) (b : Bool) (e : Nat) : (s.flag a f b e).pending = s.pending :=
  (State.flag_keeps (m := 201342977) (by decide) (Keeps.refl _ s)).same .pending (by decide)
@[simp] theorem State.tick_raise (s : State) (e : Nat) : (s.raise e).tick = s.tick := by simp [State.tick]
@[simp] theorem State.lt_raise (s : State) (e : Nat) : (s.raise e).lt = s.lt := by simp [State.lt]
@[simp] theorem State.byte_raise (s : State) (e : Nat) (x : Nat) : (s.raise e).byte x = s.byte x := by simp [State.byte]
@[simp] theorem State.tick_raiseIf (s : State) (b : Bool) (e : Nat) : (s.raiseIf b e).tick = s.tick := by simp [State.tick]
@[simp] theorem State.lt_raiseIf (s : State) (b : Bool) (e : Nat) : (s.raiseIf b e).lt = s.lt := by simp [State.lt]
@[simp] theorem State.byte_raiseIf (s : State) (b : Bool) (e : Nat) (x : Nat) : (s.raiseIf b e).byte x = s.byte x := by simp [State.byte]
@[simp] theorem State.tick_flag (s : State) (a : Nat) (f : Fld) (b : Bool) (e : Nat) : (s.flag a f b e).tick = s.tick := by simp [State.tick]
@[simp] theorem State.lt_flag (s : State) (a : Nat) (f : Fld) (b : Bool) (e : Nat) : (s.flag a f b e).lt = s.lt := by simp [State.lt]
@[simp] theorem State.byte_flag (s : State) (a : Nat) (f : Fld) (b : Bool) (e : Nat) (x : Nat) : (s.flag a f b e).byte x = s.byte x := by simp [State.byte]

/-! ### Sticky flags -/

/-- A flag's register after it is set: the flag, and its event's own registers aside nothing else. -/
theorem reg_flag {s : State} {r a : Nat} {f : Fld} {b : Bool} {e : Nat} (he : e < 1024) (h : ¬ eventReg a) :
    (s.flag r f b e).reg a = if a = r then f.put (s.reg r) 1 else s.reg a := by
  unfold State.flag
  rw [reg_raiseIf he h, State.reg_setBit]

end Sys2Proof.Machine
end

