-- ==== Sys2Proof/Laws/Issue.lean ====
section
/-!
SUPPORT. What an instruction that issues does (R200, R201): one lemma for the issue, one for each register file
that the effect may write.
-/
namespace Sys2Proof.Machine

@[simp] theorem g_zero (s : State) (n : Nat) : s.g n 0 = 0 := rfl

@[simp] theorem p_zero (s : State) (n : Nat) : s.p n 0 = true := rfl

theorem sameBut.mono {ps qs : List Part} {s t : State} (h : ∀ p ∈ ps, p ∈ qs) (k : sameBut ps s t) : sameBut qs s t :=
  fun p hp => k p (fun q => hp (h p q))

theorem sameBut.trans {ps : List Part} {s t u : State} (h : sameBut ps s t) (k : sameBut ps t u) : sameBut ps s u :=
  fun p hp => Part.same_trans (h p hp) (k p hp)

theorem sameBut.refl (ps : List Part) (s : State) : sameBut ps s s := fun p _ => by cases p <;> rfl

theorem sameBut_setEng (n : Nat) (e : Engine) (s : State) : sameBut [.engs] s (s.setEng n e) := by
  intro p hp
  cases p <;> first | rfl | exact absurd (by decide) hp

theorem sameBut_countUp (a : Nat) (f : Fld) (s : State) : sameBut [.regs] s (s.countUp a f) := by
  intro p hp
  cases p <;> first | rfl | exact absurd (by decide) hp

/-- The state in which the effect of an issuing instruction runs: the instruction is the last one issued. -/
def marked (n : Nat) (o : Op) (s : State) : State :=
  s.setEng n { s.eng n with
    last := some (EngIssue.mk (s.eng n).pc (s.tick / 2) o.cls o.wrs), passed := false }

theorem fetchLine_hit {n a : Nat} {s : State} (h : cached n a s = true) : fetchLine n a s = s := by
  rw [fetchLine, if_pos h]

theorem fetchWaits_hit {n a : Nat} {s : State} (h : cached n a s = true) : fetchWaits n a s = false := by
  rw [fetchWaits, h]; rfl

/-- A ready engine with an assigned encoding and room issues; for a SYS instruction no load is outstanding. -/
theorem issue_ready {n : Nat} {o : Op} {f : State → State} {s : State} (h : Ready n (o.rds ++ o.wrs) s)
    (hl : o.legal = true) (hr : o.room = true) (hs : o.cls = clsSys → (s.eng n).loads = []) :
    issue n o f s = f (marked n o s) := by
  have hw : (o.rds ++ o.wrs).any (waitsOn (s.eng n)) = false := by
    rw [List.any_eq_false]
    intro r hr
    simp [h.free r hr]
  have c1 : ¬ ((s.eng n).st != .run || decide (s.tick < (s.eng n).issueAt)) = true := by
    simp [h.run, Nat.not_lt.mpr h.time]
  have c2 : ¬ (decide ((s.eng n).step = 2) && !pairs (s.eng n) o (s.tick / 2)) = true := by simp [h.step]
  have cl : ¬ (!o.legal || !wordLegal (s.word (s.eng n).pc.toNat)) = true := by simp [hl, h.word]
  have c3 : ¬ (fetchWaits n (s.eng n).pc.toNat s || (o.rds ++ o.wrs).any (waitsOn (s.eng n)) || !o.room ||
      decide (o.cls = clsSys) && !(s.eng n).loads.isEmpty) = true := by
    rw [fetchWaits_hit h.hit, hw, hr]
    by_cases hc : o.cls = clsSys
    · simp [hs hc]
    · simp [hc]
  have c4 : ∀ (st : EngSt), (decide ((s.eng n).step = 0) || st != .run) = true := by simp [h.step]
  unfold issue
  simp only []
  rw [if_neg c1, h.cause]
  simp only []
  rw [if_neg c2, h.bkpt, if_neg (by decide), h.fetch]
  simp only []
  rw [if_neg cl, if_neg c3, fetchLine_hit h.hit]
  unfold issueNow stepAfter
  simp only []
  rw [if_pos (c4 _)]
  rfl

variable {n rd : Nat} {pc : Addr} {o : Op} {s : State}

theorem marked_eng : (marked n o s).eng n = { s.eng n with
    last := some (EngIssue.mk (s.eng n).pc (s.tick / 2) o.cls o.wrs), passed := false } := by
  rw [marked, State.eng_setEng, if_pos rfl]

@[simp] theorem marked_g (r : Nat) : (marked n o s).g n r = s.g n r := by
  rw [State.g, marked_eng]; rfl

@[simp] theorem marked_a (r : Nat) : (marked n o s).a n r = s.a n r := by
  rw [State.a, marked_eng]; rfl

@[simp] theorem marked_v (r : Nat) : (marked n o s).v n r = s.v n r := by
  rw [State.v, marked_eng]; rfl

@[simp] theorem marked_p (r : Nat) : (marked n o s).p n r = s.p n r := by
  rw [State.p, marked_eng]; rfl

@[simp] theorem marked_pc : ((marked n o s).eng n).pc = (s.eng n).pc := by rw [marked_eng]

/-- What retiring leaves of the engine's record. -/
theorem retireTo_eng : (retireTo n pc s).eng n = { s.eng n with pc := pc } := by
  rw [retireTo, State.eng_countUp, State.eng_setEng, if_pos rfl]

/-- Retiring after an effect on the engine alone. -/
theorem retired_of {u : State} (ho : ∀ m, m ≠ n → u.eng m = s.eng m) (hr : u.regs = s.regs)
    (hs : sameBut [.engs] s u) :
    (∀ m, m ≠ n → (retireTo n pc u).eng m = s.eng m) ∧ regsBut [Reg.ME_PERF_ISSUE n] s (retireTo n pc u) ∧
      sameBut [.regs, .engs] s (retireTo n pc u) := by
  refine ⟨?_, ?_, ?_⟩
  · intro m hm
    rw [retireTo, State.eng_countUp, State.eng_setEng, if_neg hm, ho m hm]
  · intro a ha
    have h : a ≠ Reg.ME_PERF_ISSUE n := by simpa using ha
    rw [retireTo, State.reg_countUp, if_neg h]
    simp [State.reg, hr]
  · exact sameBut.trans (sameBut.mono (qs := [.regs, .engs]) (by simp) hs)
      (sameBut.trans (sameBut.mono (ps := [.engs]) (qs := [.regs, .engs]) (by simp) (sameBut_setEng _ _ _)) (sameBut.mono (ps := [.regs]) (qs := [.regs, .engs]) (by simp) (sameBut_countUp _ _ _)))

/-- What `marked` leaves alone. -/
theorem marked_frame : (∀ m, m ≠ n → (marked n o s).eng m = s.eng m) ∧ (marked n o s).regs = s.regs ∧
    sameBut [.engs] s (marked n o s) :=
  ⟨fun m hm => by rw [marked, State.eng_setEng, if_neg hm], rfl, sameBut_setEng _ _ _⟩

/-- Retiring after a change of the marked engine's record. -/
theorem retired_set {X : Engine} :
    (retireTo n pc ((marked n o s).setEng n X)).eng n = { X with pc := pc } ∧
    (∀ m, m ≠ n → (retireTo n pc ((marked n o s).setEng n X)).eng m = s.eng m) ∧
    regsBut [Reg.ME_PERF_ISSUE n] s (retireTo n pc ((marked n o s).setEng n X)) ∧
    sameBut [.regs, .engs] s (retireTo n pc ((marked n o s).setEng n X)) := by
  refine ⟨by rw [retireTo_eng, State.eng_setEng, if_pos rfl], retired_of (fun m hm => ?_) rfl ?_⟩
  · rw [State.eng_setEng, if_neg hm, marked_frame.1 m hm]
  · exact sameBut.trans marked_frame.2.2 (sameBut_setEng _ _ _)

/-- The effect of an instruction that changes no register. -/
theorem retired_none : Retired n pc s (retireTo n pc (marked n o s)) ∧ noReg n s (retireTo n pc (marked n o s)) := by
  obtain ⟨ho, hr, hs⟩ := retired_of (pc := pc) (marked_frame (n := n) (o := o) (s := s)).1 rfl marked_frame.2.2
  have he : (retireTo n pc (marked n o s)).eng n = { (marked n o s).eng n with pc := pc } := retireTo_eng
  rw [marked_eng] at he
  unfold noReg State.g State.a State.v State.p
  refine ⟨⟨?_, ho, hr, hs⟩, ?_⟩
  · rw [he]
  · rw [he]
    exact ⟨fun _ => rfl, fun _ => rfl, fun _ => rfl, fun _ => rfl⟩

/-- g[rd] after the effect of an instruction that writes it. -/
theorem retired_setG (v : Word) : Retired n pc s (retireTo n pc (setG n rd v (marked n o s))) ∧
    onlyG n rd v s (retireTo n pc (setG n rd v (marked n o s))) := by
  by_cases h0 : rd = 0
  · subst h0
    obtain ⟨hr, hg, ha, hv, hp⟩ := retired_none (n := n) (o := o) (s := s) (pc := pc)
    refine ⟨hr, fun r => ?_, ha, hv, hp⟩
    rw [if_neg (fun q => q.2 q.1)]
    exact hg r
  · obtain ⟨he, ho, hr, hs⟩ := retired_set (n := n) (pc := pc) (o := o) (s := s)
      (X := { (marked n o s).eng n with g := ((marked n o s).eng n).g.set 0 rd v })
    rw [setG, if_neg h0]
    revert he ho hr hs
    generalize retireTo n pc _ = t
    intro he ho hr hs
    rw [marked_eng] at he
    unfold onlyG State.g State.a State.v State.p
    refine ⟨⟨?_, ho, hr, hs⟩, ?_⟩
    · rw [he]
    · rw [he]
      refine ⟨fun r => ?_, fun _ => rfl, fun _ => rfl, fun _ => rfl⟩
      by_cases hr : r = rd
      · subst hr
        simp [h0]
      · simp [hr]

/-- a[rd] after the effect of an instruction that writes it. -/
theorem retired_setA (v : Addr) : Retired n pc s (retireTo n pc (setA n rd v (marked n o s))) ∧
    onlyA n rd v s (retireTo n pc (setA n rd v (marked n o s))) := by
  obtain ⟨he, ho, hr, hs⟩ := retired_set (n := n) (pc := pc) (o := o) (s := s)
    (X := { (marked n o s).eng n with a := ((marked n o s).eng n).a.set 0 rd v })
  unfold setA
  revert he ho hr hs
  generalize retireTo n pc _ = t
  intro he ho hr hs
  rw [marked_eng] at he
  unfold onlyA State.g State.a State.v State.p
  refine ⟨⟨?_, ho, hr, hs⟩, ?_⟩
  · rw [he]
  · rw [he]
    exact ⟨fun _ => rfl, fun r => by simp, fun _ => rfl, fun _ => rfl⟩

/-- v[rd] after the effect of an instruction that writes it. -/
theorem retired_setV (v : Vec) : Retired n pc s (retireTo n pc (setV n rd v (marked n o s))) ∧
    onlyV n rd v s (retireTo n pc (setV n rd v (marked n o s))) := by
  obtain ⟨he, ho, hr, hs⟩ := retired_set (n := n) (pc := pc) (o := o) (s := s)
    (X := { (marked n o s).eng n with v := ((marked n o s).eng n).v.set 0 rd v })
  unfold setV
  revert he ho hr hs
  generalize retireTo n pc _ = t
  intro he ho hr hs
  rw [marked_eng] at he
  unfold onlyV State.g State.a State.v State.p
  refine ⟨⟨?_, ho, hr, hs⟩, ?_⟩
  · rw [he]
  · rw [he]
    exact ⟨fun _ => rfl, fun _ => rfl, fun r => by simp, fun _ => rfl⟩

/-- p[rd] after the effect of an instruction that writes it. -/
theorem retired_setP (v : Bool) : Retired n pc s (retireTo n pc (setP n rd v (marked n o s))) ∧
    onlyP n rd v s (retireTo n pc (setP n rd v (marked n o s))) := by
  by_cases h0 : rd = 0
  · subst h0
    obtain ⟨hr, hg, ha, hv, hp⟩ := retired_none (n := n) (o := o) (s := s) (pc := pc)
    refine ⟨hr, hg, ha, hv, fun r => ?_⟩
    rw [if_neg (fun q => q.2 q.1)]
    exact hp r
  · obtain ⟨he, ho, hr, hs⟩ := retired_set (n := n) (pc := pc) (o := o) (s := s)
      (X := { (marked n o s).eng n with p := ((marked n o s).eng n).p.set false rd v })
    rw [setP, if_neg h0]
    revert he ho hr hs
    generalize retireTo n pc _ = t
    intro he ho hr hs
    rw [marked_eng] at he
    unfold onlyP State.g State.a State.v State.p
    refine ⟨⟨?_, ho, hr, hs⟩, ?_⟩
    · rw [he]
    · rw [he]
      refine ⟨fun _ => rfl, fun _ => rfl, fun _ => rfl, fun r => ?_⟩
      by_cases hr : r = rd
      · subst hr
        simp [h0]
      · simp [hr]

theorem retireNext_eq (n : Nat) (s : State) : retireNext n s = retireTo n ((s.eng n).pc + 4) s := rfl

theorem setG_pc (v : Word) : ((setG n rd v s).eng n).pc = (s.eng n).pc := by
  unfold setG
  split
  · rfl
  · rw [State.eng_setEng, if_pos rfl]

theorem setA_pc (v : Addr) : ((setA n rd v s).eng n).pc = (s.eng n).pc := by
  rw [setA, State.eng_setEng, if_pos rfl]

theorem setV_pc (v : Vec) : ((setV n rd v s).eng n).pc = (s.eng n).pc := by
  rw [setV, State.eng_setEng, if_pos rfl]

theorem setP_pc (v : Bool) : ((setP n rd v s).eng n).pc = (s.eng n).pc := by
  unfold setP
  split
  · rfl
  · rw [State.eng_setEng, if_pos rfl]

/-- An instruction that writes g[rd]. -/
theorem issue_setG {i : Instr} {f : State → Word} {v : Word}
    (hi : exec i s = .next (issue n o (fun s => retireNext n (setG n rd (f s) s)) s))
    (h : Ready n (o.rds ++ o.wrs) s) (hl : o.legal = true) (hr : o.room = true)
    (hs : o.cls = clsSys → (s.eng n).loads = []) (hv : f (marked n o s) = v) :
    writesG i n rd v s := by
  refine ⟨_, hi, ?_⟩
  rw [issue_ready h hl hr hs, hv, retireNext_eq, setG_pc, marked_pc]
  exact retired_setG v

/-- An instruction that writes a[rd]. -/
theorem issue_setA {i : Instr} {f : State → Addr} {v : Addr}
    (hi : exec i s = .next (issue n o (fun s => retireNext n (setA n rd (f s) s)) s))
    (h : Ready n (o.rds ++ o.wrs) s) (hl : o.legal = true) (hr : o.room = true)
    (hs : o.cls = clsSys → (s.eng n).loads = []) (hv : f (marked n o s) = v) :
    writesA i n rd v s := by
  refine ⟨_, hi, ?_⟩
  rw [issue_ready h hl hr hs, hv, retireNext_eq, setA_pc, marked_pc]
  exact retired_setA v

/-- An instruction that writes v[rd]. -/
theorem issue_setV {i : Instr} {f : State → Vec} {v : Vec}
    (hi : exec i s = .next (issue n o (fun s => retireNext n (setV n rd (f s) s)) s))
    (h : Ready n (o.rds ++ o.wrs) s) (hl : o.legal = true) (hr : o.room = true)
    (hs : o.cls = clsSys → (s.eng n).loads = []) (hv : f (marked n o s) = v) :
    writesV i n rd v s := by
  refine ⟨_, hi, ?_⟩
  rw [issue_ready h hl hr hs, hv, retireNext_eq, setV_pc, marked_pc]
  exact retired_setV v

/-- An instruction that writes p[rd]. -/
theorem issue_setP {i : Instr} {f : State → Bool} {v : Bool}
    (hi : exec i s = .next (issue n o (fun s => retireNext n (setP n rd (f s) s)) s))
    (h : Ready n (o.rds ++ o.wrs) s) (hl : o.legal = true) (hr : o.room = true)
    (hs : o.cls = clsSys → (s.eng n).loads = []) (hv : f (marked n o s) = v) :
    writesP i n rd v s := by
  refine ⟨_, hi, ?_⟩
  rw [issue_ready h hl hr hs, hv, retireNext_eq, setP_pc, marked_pc]
  exact retired_setP v

theorem Ready.sub {rs rs' : List Nat} (h : Ready n rs s) (k : ∀ r ∈ rs', r ∈ rs) : Ready n rs' s :=
  ⟨h.run, h.time, h.cause, h.step, h.bkpt, h.fetch, h.hit, h.word, fun r hr => h.free r (k r hr)⟩

/-- An instruction that only goes on at another address. -/
theorem issue_jump {i : Instr} {f : State → Addr} {v : Addr}
    (hi : exec i s = .next (issue n o (fun s => retireTo n (f s) s) s))
    (h : Ready n (o.rds ++ o.wrs) s) (hl : o.legal = true) (hr : o.room = true)
    (hs : o.cls = clsSys → (s.eng n).loads = []) (hv : f (marked n o s) = v) :
    jumpsTo i n v s := by
  refine ⟨_, hi, ?_⟩
  rw [issue_ready h hl hr hs, hv]
  exact retired_none

/-- An unassigned encoding raises ILLEGAL before any operand is waited for. -/
theorem issue_illegal {f : State → State} {rs : List Nat} (h : Ready n rs s) (hl : o.legal = false) :
    issue n o f s = raiseExc n excIllegal 0 s := by
  have c1 : ¬ ((s.eng n).st != .run || decide (s.tick < (s.eng n).issueAt)) = true := by
    simp [h.run, Nat.not_lt.mpr h.time]
  have c2 : ¬ (decide ((s.eng n).step = 2) && !pairs (s.eng n) o (s.tick / 2)) = true := by simp [h.step]
  unfold issue
  simp only []
  rw [if_neg c1, h.cause]
  simp only []
  rw [if_neg c2, h.bkpt, if_neg (by decide), h.fetch]
  simp only []
  rw [hl, Bool.not_false, Bool.true_or, if_pos rfl]

theorem engIs_setEng (e : Engine) : EngIs n e [] [] s (s.setEng n e) := by
  refine ⟨?_, fun m hm => ?_, fun _ _ => rfl,
    sameBut.mono (ps := [.engs]) (qs := [.regs, .engs]) (by simp) (sameBut_setEng _ _ _)⟩
  · rw [State.eng_setEng, if_pos rfl]
  · rw [State.eng_setEng, if_neg hm]

/-- What exception entry leaves. -/
theorem engIs_excEntry {k cookie : Nat} {epc eaddr : Addr} (hc : cookie < 256) :
    EngIs n ((s.eng n).interrupted k cookie epc eaddr) [] [] s (excEntry n k cookie epc eaddr s) := by
  unfold excEntry Engine.interrupted
  rw [Nat.mod_eq_of_lt hc]
  exact engIs_setEng _

theorem illegal_of {i : Instr} {f : State → State} {rs : List Nat} (hi : exec i s = .next (issue n o f s))
    (h : Ready n rs s) (hx : (s.eng n).exl = false) (hl : o.legal = false) : raisesIllegal i n s := by
  refine ⟨_, hi, ?_⟩
  rw [issue_illegal h hl]
  unfold raiseExc syncExc
  rw [hx, if_neg (by decide)]
  exact engIs_excEntry (by decide)

/-- The engine's own record after an instruction that issues, changes the record and retires. -/
theorem engAfter_set {e X : Engine} {pc : Addr}
    (hX : X = { e with last := X.last, passed := false }) :
    EngAfter n { e with pc := pc } [Reg.ME_PERF_ISSUE n] [] s (retireTo n pc ((marked n o s).setEng n X)) := by
  obtain ⟨he, ho, hr, hs⟩ := retired_set (n := n) (pc := pc) (o := o) (s := s) (X := X)
  refine ⟨?_, ho, hr, hs⟩
  rw [he]
  rw [hX]

/-- The engine's own record after an instruction that issues and changes it without retiring. -/
theorem engAfter_only {e X : Engine} (hX : X = { e with last := X.last, passed := false }) :
    EngAfter n e [] [] s ((marked n o s).setEng n X) := by
  refine ⟨?_, fun m hm => ?_, fun _ _ => rfl,
    sameBut.mono (ps := [.engs]) (qs := [.regs, .engs]) (by simp)
      (sameBut.trans (sameBut_setEng _ _ _) (sameBut_setEng _ _ _))⟩
  · rw [State.eng_setEng, if_pos rfl]
    exact hX
  · rw [State.eng_setEng, if_neg hm]
    exact marked_frame.1 m hm

end Sys2Proof.Machine
end

