-- ==== Sys2Proof/Tests/Slice0.lean ====
section
/-!
SUPPORT. Tests: ill-formed commands are refused and commands at the ends of their ranges are not; no word spells a
command; small steps of the manual's worked examples; and for each obligation with hypotheses a state and operands
that meet the hypotheses of each of its clauses.
-/
namespace Sys2Proof.Tests
open Sys2Proof.Machine

set_option maxRecDepth 100000
set_option Elab.async false
set_option linter.unusedVariables false

/-! ### Well-formedness: one operand just out of its range, and all operands at the ends of their ranges -/

theorem test_ill_formed_0 : ([.registerWrite (.seam 5) 0 0, .registerWrite .host 16777216 0, .linetimeRead (.seam 5),
     .slewAdjust (.seam 5) 0, .lineIoEdge 256 none 0, .lineIoEdge 0 none 8,
     .slotSatisfied 1024 0, .slotSatisfied 0 4, .cueEffect 1024,
     .hostArmGo 1024 0, .disarm 1024 0, .targetConfigWrite 1024 false 0,
     .capturePop 128 0, .mergeCountRead (.seam 5) 0, .mergeCountRead .host 1024,
     .fabricTapEffect 128, .encoderCount 32, .encoderStopped 32,
     .encoderIndex 32, .encoderMatch 32 0, .encoderMatch 0 2,
     .encoderLoad 32, .encoderCtlWrite 32 0, .encoderPinsWrite 32 0,
     .encoderPositionRead (.seam 5) 0, .encoderPositionRead .host 32, .illegalCountRead (.seam 5) 0,
     .illegalCountRead .host 32, .pgSoftwareStart 512 0, .pgCycleStart 512,
     .pgRunEnd 512, .pgStop 512 0, .pgAbort 512 0,
     .pgRearm 512 0, .pgCtlWrite 512 0, .pgShadowWrite 512 false 0,
     .pgSeqselWrite 512 0, .pgSeqWrite 512 0 0 0, .pgSeqWrite 0 2 0 0,
     .pgSeqWrite 0 0 32 0] : List Instr).all (fun c => !c.wellFormed) = true := by
  decide +kernel

theorem test_ill_formed_1 : ([.comparatorDecision 128 0 0, .comparatorDecision 0 4 0, .tripRelease 512,
     .selectorWrite 128 0, .switchClose 128, .busDriveWrite 128 0,
     .biquadWrite 128 0, .modulatorOverload 128 0 [], .modulatorOverload 0 2 [],
     .modulatorResume 128 0, .modulatorResume 0 2, .biasReady 128,
     .comparatorCtlWrite 128 0 0, .comparatorCtlWrite 0 4 0, .comparatorThresholdWrite 128 0 0,
     .comparatorThresholdWrite 0 4 0, .thresholdSettled 128 0, .thresholdSettled 0 4,
     .windowWrite 128 0 0, .windowWrite 0 2 0, .riseCountRead (.seam 5) 0 0,
     .riseCountRead .host 128 0, .riseCountRead .host 0 4, .programEnd 128,
     .dacCodeWrite 128 0, .dacSourceWrite 128 0, .rangeHoldEnd 128,
     .paletteWrite 128 0 0 0, .paletteWrite 0 2 0 0, .paletteWrite 0 0 33 0,
     .swapRequest 128 0, .crossFadeEnd 128, .panelClear 9 false,
     .clearRelease 9, .currentLimitShort 128 false, .supervisionFault 128 0,
     .standbyDrive 128, .handover 128 0, .peakDiffRead (.seam 5) 0,
     .peakDiffRead .host 128] : List Instr).all (fun c => !c.wellFormed) = true := by
  decide +kernel

theorem test_ill_formed_2 : ([.dceOutput 8 0, .dceOutput 0 32, .channelCtlWrite 8 0 0,
     .channelCtlWrite 0 32 0, .channelRestart 8 0, .channelRestart 0 32,
     .dceThresholdWrite 8 0 0 0, .dceThresholdWrite 0 32 0 0, .dceThresholdWrite 0 0 3 0,
     .rdidxWrite 8 0 0, .rdidxWrite 0 32 0, .windowClose 8 0,
     .windowClose 0 32, .windowDone 8 0, .windowDone 0 32,
     .dceLastStampRead (.seam 5) 0 0, .dceLastStampRead .host 8 0, .dceLastStampRead .host 0 32,
     .overrunCountRead (.seam 5) 0 0, .overrunCountRead .host 8 0, .overrunCountRead .host 0 32,
     .latchTimingEdge 32, .shiftStart ⟨32, false⟩, .shiftEnd 32,
     .readyPoll ⟨32, false⟩, .blockFetch ⟨32, false⟩, .portEnableWrite 32 0,
     .profileWrite 32 0 0, .profileWrite 0 3 0, .prioPush 32 0 0,
     .prioPush 0 2 0, .senseDeadWrite 32 0 0, .senseDeadWrite 0 2 0,
     .nozzleMapWrite 32 0 0, .nozzleMapWrite 0 4096 0, .unretire 32 0,
     .nozzleMapWalk 32, .criticalSetExpiry 32 0, .auxPinChange 32,
     .planrdWrite 32 0] : List Instr).all (fun c => !c.wellFormed) = true := by
  decide +kernel

theorem test_ill_formed_3 : ([.raiseFail (.seam 5), .raiseDoubt (.seam 5), .setHorizon (.seam 5),
     .ledgerRead (.seam 5), .add 192 0 0 0, .add 0 64 0 0,
     .add 0 0 64 0, .add 0 0 0 64, .sub 192 0 0 0,
     .sub 0 64 0 0, .sub 0 0 64 0, .sub 0 0 0 64,
     .and 192 0 0 0, .and 0 64 0 0, .and 0 0 64 0,
     .and 0 0 0 64, .or 192 0 0 0, .or 0 64 0 0,
     .or 0 0 64 0, .or 0 0 0 64, .xor 192 0 0 0,
     .xor 0 64 0 0, .xor 0 0 64 0, .xor 0 0 0 64,
     .andn 192 0 0 0, .andn 0 64 0 0, .andn 0 0 64 0,
     .andn 0 0 0 64, .shl 192 0 0 0, .shl 0 64 0 0,
     .shl 0 0 64 0, .shl 0 0 0 64, .shr 192 0 0 0,
     .shr 0 64 0 0, .shr 0 0 64 0, .shr 0 0 0 64,
     .sra 192 0 0 0, .sra 0 64 0 0, .sra 0 0 64 0,
     .sra 0 0 0 64] : List Instr).all (fun c => !c.wellFormed) = true := by
  decide +kernel

theorem test_ill_formed_4 : ([.min 192 0 0 0, .min 0 64 0 0, .min 0 0 64 0,
     .min 0 0 0 64, .max 192 0 0 0, .max 0 64 0 0,
     .max 0 0 64 0, .max 0 0 0 64, .minu 192 0 0 0,
     .minu 0 64 0 0, .minu 0 0 64 0, .minu 0 0 0 64,
     .maxu 192 0 0 0, .maxu 0 64 0 0, .maxu 0 0 64 0,
     .maxu 0 0 0 64, .adds 192 0 0 0, .adds 0 64 0 0,
     .adds 0 0 64 0, .adds 0 0 0 64, .subs 192 0 0 0,
     .subs 0 64 0 0, .subs 0 0 64 0, .subs 0 0 0 64,
     .addi 192 0 0 0, .addi 0 64 0 0, .addi 0 0 64 0,
     .subi 192 0 0 0, .subi 0 64 0 0, .subi 0 0 64 0,
     .andi 192 0 0 0, .andi 0 64 0 0, .andi 0 0 64 0,
     .ori 192 0 0 0, .ori 0 64 0 0, .ori 0 0 64 0,
     .xori 192 0 0 0, .xori 0 64 0 0, .xori 0 0 64 0,
     .lui 192 0 0] : List Instr).all (fun c => !c.wellFormed) = true := by
  decide +kernel

theorem test_ill_formed_5 : ([.lui 0 64 0, .shli 192 0 0 0, .shli 0 64 0 0,
     .shli 0 0 64 0, .shri 192 0 0 0, .shri 0 64 0 0,
     .shri 0 0 64 0, .srai 192 0 0 0, .srai 0 64 0 0,
     .srai 0 0 64 0, .adda 192 0 0 0, .adda 0 64 0 0,
     .adda 0 0 64 0, .addaR 192 0 0 0, .addaR 0 64 0 0,
     .addaR 0 0 64 0, .addaR 0 0 0 64, .laLo 192 0 0,
     .laLo 0 64 0, .laLo 0 0 64, .laHi 192 0 0,
     .laHi 0 64 0, .laHi 0 0 64, .mgaLo 192 0 0,
     .mgaLo 0 64 0, .mgaLo 0 0 64, .mgaHi 192 0 0,
     .mgaHi 0 64 0, .mgaHi 0 0 64, .mul 192 0 0 0,
     .mul 0 64 0 0, .mul 0 0 64 0, .mul 0 0 0 64,
     .mulhs 192 0 0 0, .mulhs 0 64 0 0, .mulhs 0 0 64 0,
     .mulhs 0 0 0 64, .mulhu 192 0 0 0, .mulhu 0 64 0 0,
     .mulhu 0 0 64 0] : List Instr).all (fun c => !c.wellFormed) = true := by
  decide +kernel

theorem test_ill_formed_6 : ([.mulhu 0 0 0 64, .mac 192 0 0 0, .mac 0 64 0 0,
     .mac 0 0 64 0, .mac 0 0 0 64, .msu 192 0 0 0,
     .msu 0 64 0 0, .msu 0 0 64 0, .msu 0 0 0 64,
     .gfmul 192 0 0 0 0, .gfmul 0 0 64 0 0, .gfmul 0 0 0 64 0,
     .gfmul 0 0 0 0 64, .gfmac 192 0 0 0 0, .gfmac 0 0 64 0 0,
     .gfmac 0 0 0 64 0, .gfmac 0 0 0 0 64, .popc 192 0 0,
     .popc 0 64 0, .popc 0 0 64, .clz 192 0 0,
     .clz 0 64 0, .clz 0 0 64, .ctz 192 0 0,
     .ctz 0 64 0, .ctz 0 0 64, .brev 192 0 0,
     .brev 0 64 0, .brev 0 0 64, .bswap 192 0 0,
     .bswap 0 64 0, .bswap 0 0 64, .bfxu 192 0 0 0 0,
     .bfxu 0 64 0 0 0, .bfxu 0 0 64 0 0, .bfxu 0 0 0 32 0,
     .bfxu 0 0 0 0 64, .bfxs 192 0 0 0 0, .bfxs 0 64 0 0 0,
     .bfxs 0 0 64 0 0] : List Instr).all (fun c => !c.wellFormed) = true := by
  decide +kernel

theorem test_ill_formed_7 : ([.bfxs 0 0 0 32 0, .bfxs 0 0 0 0 64, .bfi 192 0 0 0 0,
     .bfi 0 64 0 0 0, .bfi 0 0 64 0 0, .bfi 0 0 0 32 0,
     .bfi 0 0 0 0 64, .cmpeq 192 0 0 0, .cmpeq 0 64 0 0,
     .cmpeq 0 0 64 0, .cmpeq 0 0 0 64, .cmpne 192 0 0 0,
     .cmpne 0 64 0 0, .cmpne 0 0 64 0, .cmpne 0 0 0 64,
     .cmplt 192 0 0 0, .cmplt 0 64 0 0, .cmplt 0 0 64 0,
     .cmplt 0 0 0 64, .cmpltu 192 0 0 0, .cmpltu 0 64 0 0,
     .cmpltu 0 0 64 0, .cmpltu 0 0 0 64, .cmpge 192 0 0 0,
     .cmpge 0 64 0 0, .cmpge 0 0 64 0, .cmpge 0 0 0 64,
     .cmpgeu 192 0 0 0, .cmpgeu 0 64 0 0, .cmpgeu 0 0 64 0,
     .cmpgeu 0 0 0 64, .cmpi 192 0 0 0 0, .cmpi 0 0 64 0 0,
     .cmpi 0 0 0 64 0, .pand 192 0 0 0, .pand 0 64 0 0,
     .pand 0 0 64 0, .pand 0 0 0 64, .por 192 0 0 0,
     .por 0 64 0 0] : List Instr).all (fun c => !c.wellFormed) = true := by
  decide +kernel

theorem test_ill_formed_8 : ([.por 0 0 64 0, .por 0 0 0 64, .pxor 192 0 0 0,
     .pxor 0 64 0 0, .pxor 0 0 64 0, .pxor 0 0 0 64,
     .pandn 192 0 0 0, .pandn 0 64 0 0, .pandn 0 0 64 0,
     .pandn 0 0 0 64, .sel 192 0 0 0 0, .sel 0 64 0 0 0,
     .sel 0 0 64 0 0, .sel 0 0 0 64 0, .sel 0 0 0 0 8,
     .ldB 192 0 0 0, .ldB 0 64 0 0, .ldB 0 0 64 0,
     .ldH 192 0 0 0, .ldH 0 64 0 0, .ldH 0 0 64 0,
     .ldW 192 0 0 0, .ldW 0 64 0 0, .ldW 0 0 64 0,
     .ldV 192 0 0 0, .ldV 0 64 0 0, .ldV 0 0 64 0,
     .ldBu 192 0 0 0, .ldBu 0 64 0 0, .ldBu 0 0 64 0,
     .ldHu 192 0 0 0, .ldHu 0 64 0 0, .ldHu 0 0 64 0,
     .stB 192 0 0 0, .stB 0 64 0 0, .stB 0 0 64 0,
     .stH 192 0 0 0, .stH 0 64 0 0, .stH 0 0 64 0,
     .stW 192 0 0 0] : List Instr).all (fun c => !c.wellFormed) = true := by
  decide +kernel

theorem test_ill_formed_9 : ([.stW 0 64 0 0, .stW 0 0 64 0, .stV 192 0 0 0,
     .stV 0 64 0 0, .stV 0 0 64 0, .dma 192 0 0 0,
     .dma 0 64 0 0, .dma 0 0 64 0, .vadd 192 0 0 0 0,
     .vadd 0 0 32 0 0, .vadd 0 0 0 32 0, .vadd 0 0 0 0 32,
     .vsub 192 0 0 0 0, .vsub 0 0 32 0 0, .vsub 0 0 0 32 0,
     .vsub 0 0 0 0 32, .vadds 192 0 0 0 0, .vadds 0 0 32 0 0,
     .vadds 0 0 0 32 0, .vadds 0 0 0 0 32, .vaddsu 192 0 0 0 0,
     .vaddsu 0 0 32 0 0, .vaddsu 0 0 0 32 0, .vaddsu 0 0 0 0 32,
     .vsubs 192 0 0 0 0, .vsubs 0 0 32 0 0, .vsubs 0 0 0 32 0,
     .vsubs 0 0 0 0 32, .vsubsu 192 0 0 0 0, .vsubsu 0 0 32 0 0,
     .vsubsu 0 0 0 32 0, .vsubsu 0 0 0 0 32, .vmul 192 0 0 0 0,
     .vmul 0 0 32 0 0, .vmul 0 0 0 32 0, .vmul 0 0 0 0 32,
     .vmulhs 192 0 0 0 0, .vmulhs 0 0 32 0 0, .vmulhs 0 0 0 32 0,
     .vmulhs 0 0 0 0 32] : List Instr).all (fun c => !c.wellFormed) = true := by
  decide +kernel

theorem test_ill_formed_10 : ([.vmin 192 0 0 0 0, .vmin 0 0 32 0 0, .vmin 0 0 0 32 0,
     .vmin 0 0 0 0 32, .vminu 192 0 0 0 0, .vminu 0 0 32 0 0,
     .vminu 0 0 0 32 0, .vminu 0 0 0 0 32, .vmax 192 0 0 0 0,
     .vmax 0 0 32 0 0, .vmax 0 0 0 32 0, .vmax 0 0 0 0 32,
     .vmaxu 192 0 0 0 0, .vmaxu 0 0 32 0 0, .vmaxu 0 0 0 32 0,
     .vmaxu 0 0 0 0 32, .vavgu 192 0 0 0 0, .vavgu 0 0 32 0 0,
     .vavgu 0 0 0 32 0, .vavgu 0 0 0 0 32, .vand 192 0 0 0 0,
     .vand 0 0 32 0 0, .vand 0 0 0 32 0, .vand 0 0 0 0 32,
     .vor 192 0 0 0 0, .vor 0 0 32 0 0, .vor 0 0 0 32 0,
     .vor 0 0 0 0 32, .vxor 192 0 0 0 0, .vxor 0 0 32 0 0,
     .vxor 0 0 0 32 0, .vxor 0 0 0 0 32, .vandn 192 0 0 0 0,
     .vandn 0 0 32 0 0, .vandn 0 0 0 32 0, .vandn 0 0 0 0 32,
     .vcmpeq 192 0 0 0 0, .vcmpeq 0 0 32 0 0, .vcmpeq 0 0 0 32 0,
     .vcmpeq 0 0 0 0 32] : List Instr).all (fun c => !c.wellFormed) = true := by
  decide +kernel

theorem test_ill_formed_11 : ([.vcmpgt 192 0 0 0 0, .vcmpgt 0 0 32 0 0, .vcmpgt 0 0 0 32 0,
     .vcmpgt 0 0 0 0 32, .vcmpgtu 192 0 0 0 0, .vcmpgtu 0 0 32 0 0,
     .vcmpgtu 0 0 0 32 0, .vcmpgtu 0 0 0 0 32, .vshl 192 0 0 0 0,
     .vshl 0 0 32 0 0, .vshl 0 0 0 32 0, .vshl 0 0 0 0 32,
     .vshr 192 0 0 0 0, .vshr 0 0 32 0 0, .vshr 0 0 0 32 0,
     .vshr 0 0 0 0 32, .vsra 192 0 0 0 0, .vsra 0 0 32 0 0,
     .vsra 0 0 0 32 0, .vsra 0 0 0 0 32, .vperm 192 0 0 0 0,
     .vperm 0 0 32 0 0, .vperm 0 0 0 32 0, .vperm 0 0 0 0 32,
     .vbtr8 192 0 0 0, .vbtr8 0 0 32 0, .vbtr8 0 0 0 32,
     .vext 192 0 0 0 0, .vext 0 0 32 0 0, .vext 0 0 0 32 0,
     .vext 0 0 0 0 32, .vins 192 0 0 0 0, .vins 0 0 32 0 0,
     .vins 0 0 0 32 0, .vins 0 0 0 0 32, .vsplat 192 0 0 0,
     .vsplat 0 0 32 0, .vsplat 0 0 0 32, .vslb 192 0 0 0 0,
     .vslb 0 0 32 0 0] : List Instr).all (fun c => !c.wellFormed) = true := by
  decide +kernel

theorem test_ill_formed_12 : ([.vslb 0 0 0 32 0, .vslb 0 0 0 0 32, .vsrb 192 0 0 0 0,
     .vsrb 0 0 32 0 0, .vsrb 0 0 0 32 0, .vsrb 0 0 0 0 32,
     .vsel 192 0 0 0 0, .vsel 0 0 32 0 0, .vsel 0 0 0 32 0,
     .vsel 0 0 0 0 32, .vhsum 192 0 0 0, .vhsum 0 0 32 0,
     .vhsum 0 0 0 32, .vht1 192 0 0 0 0, .vht1 0 0 32 0 0,
     .vht1 0 0 0 32 0, .vht1 0 0 0 0 32, .vht2 192 0 0 0 0,
     .vht2 0 0 32 0 0, .vht2 0 0 0 32 0, .vht2 0 0 0 0 32,
     .vgfmul 192 0 0 0 0 0, .vgfmul 0 0 0 32 0 0, .vgfmul 0 0 0 0 32 0,
     .vgfmul 0 0 0 0 0 32, .vgfmac 192 0 0 0 0 0, .vgfmac 0 0 0 32 0 0,
     .vgfmac 0 0 0 0 32 0, .vgfmac 0 0 0 0 0 32, .vgfmacs 192 0 0 0 0 0,
     .vgfmacs 0 0 0 32 0 0, .vgfmacs 0 0 0 0 32 0, .vgfmacs 0 0 0 0 0 32,
     .br 192 0 0, .br 0 64 0, .brf 192 0 0,
     .brf 0 64 0, .bra 192 0, .call 192 0,
     .jr 192 0] : List Instr).all (fun c => !c.wellFormed) = true := by
  decide +kernel

theorem test_ill_formed_13 : ([.jr 0 64, .jalr 192 0 0, .jalr 0 64 0,
     .jalr 0 0 64, .qget 192 0 0 false, .qget 0 64 0 false,
     .qget 0 0 64 false, .qput 192 0 0, .qput 0 64 0,
     .qput 0 0 64, .qsteal 192 0, .qsteal 0 64,
     .qdone 192 0, .qdone 0 64, .qfail 192 0 0,
     .qfail 0 64 0, .qfail 0 0 64, .carmT 192 0 0,
     .carmT 0 64 0, .carmT 0 0 64, .carmP 192 0 0,
     .carmP 0 64 0, .carmP 0 0 64, .cdisarm 192 0 0,
     .cdisarm 0 64 0, .cdisarm 0 0 64, .twait 192 0,
     .twait 0 64, .dlset 192 0, .dlset 0 64,
     .ewait 192 0 0, .ewait 0 64 0, .ewait 0 0 64,
     .raise 192 0, .raise 0 64, .mfsr 192 0 0,
     .mfsr 0 64 0, .mfsr 0 0 256, .mtsr 192 0 0,
     .mtsr 0 64 0] : List Instr).all (fun c => !c.wellFormed) = true := by
  decide +kernel

theorem test_ill_formed_14 : ([.mtsr 0 0 256, .fenceL 192, .fenceS 192,
     .fenceI 192, .iinv 192, .park 192,
     .eret 192, .trap 192 0, .brk 192,
     .dmawait 192 0 0, .dmawait 0 64 0, .dmawait 0 0 64,
     .exceptionEntry 192, .loadReturn 192 0 false, .loadReturn 0 8 false,
     .storeAcknowledge 192 ⟨0, false⟩, .storeAcknowledge 0 ⟨8, false⟩, .icacheRefill 192 0 ⟨0, false⟩,
     .icacheRefill 0 0 ⟨4, false⟩, .answerReturn 192, .twaitSatisfied 192,
     .ewaitSatisfied 192, .qgetTimeout 192, .dmaComplete ⟨192, []⟩,
     .dmawaitReturn 192, .engineCueTimer 192, .deadlineWatchFire 192,
     .watchdogExpiry 192, .engineFault 192, .engineStart 192 0,
     .engineReset 192 0, .forceFault 192 0, .unlock 192 0,
     .halt 192 0, .step 192 0, .resume 192 0,
     .breakpointHit 192 0, .breakpointHit 0 4, .perfCountRead (.seam 5) 0 false,
     .perfCountRead .host 192 false] : List Instr).all (fun c => !c.wellFormed) = true := by
  decide +kernel

theorem test_ill_formed_15 : ([.jobDelivery ⟨12, false⟩, .hostPostGo (.seam 5) 0 0, .hostPostGo .host 4096 0,
     .missDetection 4096 0, .fallbackPost 4096, .jobReturn 192,
     .headAdvance 4096, .classAging 4096, .urgencyOnset 4096,
     .queueCtlWrite 4096 0, .queueCountRead (.seam 5) 0 0, .queueCountRead .host 4096 0,
     .queueCountRead .host 0 4, .headdlRead (.seam 5) 0, .headdlRead .host 4096,
     .testWindowStart 385, .testWindowAbandon 385, .rowRestore 385,
     .testWindowEnd ⟨385, []⟩ false, .bankSpareComplete 12, .retain 12 0,
     .retainComplete 12, .wake 12 0, .wakeComplete 12,
     .ceCountRead (.seam 5) 0, .ceCountRead .host 13, .lpddrRead 0 8 0 false 0 false,
     .lpddrRead 0 0 0 false 7 false, .lpddrWrite 0 8 0 false [] 0, .lpddrWrite 0 0 0 false [] 7,
     .channelFailed 4, .scrubRead 7 false, .memcCountRead (.seam 5) 0,
     .memcCountRead .host 4, .dataPortWrite 16 0 [] [] false, .burstIdleTimeout 16,
     .flush 16 0, .dataPortRead ⟨16, []⟩ 0 0, .dataPortSeamTimeout 16 0,
     .msixSend 2048] : List Instr).all (fun c => !c.wellFormed) = true := by
  decide +kernel

theorem test_ill_formed_16 : ([.violationCountRead (.seam 5), .fabricPortRequest 16 0 false 0 [], .fabricPortRequest 0 4 false 0 [],
     .cuffWrite 16 0 0, .cuffWrite 0 32 0, .ownerChange 256,
     .portViolationRead (.seam 5), .seamPortEnable 4 0, .seamRetrain 4 0,
     .trainingComplete 4 0 0 false 0, .trainingRestart 4, .laneSparing 4 0,
     .portDown 4 0, .hello 4 noFlit, .laneMap 4 noFlit,
     .idle 4 noFlit, .idleSend 4, .replayTimeout 4,
     .seamWrite 5 noFlit, .seamRead ⟨5, []⟩ noFlit, .readResp 5 noFlit,
     .seamAnswer 5 noFlit, .seamMsg 5 noFlit, .cueAt 5 noFlit,
     .seamAttest 5 noFlit, .timeSync 4 noFlit 0, .timeSync 0 noFlit 8,
     .timeSyncReply 4 noFlit 0, .timeSyncReply 0 noFlit 8, .tsyncExchange 8,
     .seamRequestTimeout 4 0, .cueAtGo (.seam 5) 0, .attestGo (.seam 5) 0,
     .seamWindowAccess (.seam 5) false 0 0 [], .seamRelease 4 0, .dropCountRead (.seam 5),
     .seamViolCountRead (.seam 5) 0, .seamViolCountRead .host 4, .replayCountRead (.seam 5) 0,
     .replayCountRead .host 4] : List Instr).all (fun c => !c.wellFormed) = true := by
  decide +kernel

theorem test_ill_formed_17 : ([.temperatureCheck 8, .calRequest 128 0, .calCommit 128 0,
     .calStepStart 128, .calStepEnd 128 [], .stepAbandon 128,
     .calStarved 128, .sensorUpdate 12 0, .sensorFault 12,
     .lioDataWrite 8 0, .lioSet 8 0, .lioClr 8 0,
     .lioTgl 8 0, .lioCfgWrite 256 0, .bankSupplyChange 8 false 0,
     .uartDataWrite 8 0, .uartDataRead (.seam 5) 0, .uartDataRead .host 8,
     .uartReceive 8 0 false false, .uartByteSent 8, .spiDataWrite 4 0,
     .spiDataRead (.seam 5) 0, .spiDataRead .host 4, .spiByteDone 4 0,
     .i2cGo 4 0, .i2cTransferDone 4 0 [] false false, .i2cBusStuck 4,
     .i2cDataRead (.seam 5) 0, .i2cDataRead .host 4, .seamEventMsg 1024,
     .raiseCountRead (.seam 5), .supplyOut 12, .supplyIn 12,
     .stepTimeout 15, .stepRevert 15 0, .fabricCueOutput 128 false,
     .fastsumUpdate 8 0 0, .fastsumUpdate 0 32 0, .windowOpen 8 0,
     .windowOpen 0 32] : List Instr).all (fun c => !c.wellFormed) = true := by
  decide +kernel

theorem test_ill_formed_18 : ([.pgaClip 128 0 0, .pgaClip 0 2 0, .biquadClip 128 0,
     .cueAtAnswer 5 noFlit, .attestAnswer 5 noFlit, .dacPortUncorrectableRead 128,
     .registerWrite .host 2 0, .registerWrite (.engine 192) 0 0] : List Instr).all (fun c => !c.wellFormed) = true := by
  decide +kernel

theorem test_well_formed_0 : ([.registerWrite (.seam 4) 16777212 0, .linetimeRead (.seam 4), .slewAdjust (.seam 4) 0,
     .lineIoEdge 255 none 7, .slotSatisfied 1023 3, .cueEffect 1023,
     .hostArmGo 1023 0, .disarm 1023 0, .targetConfigWrite 1023 false 0,
     .capturePop 127 0, .mergeCountRead (.seam 4) 1023, .fabricTapEffect 127,
     .encoderCount 31, .encoderStopped 31, .encoderIndex 31,
     .encoderMatch 31 1, .encoderLoad 31, .encoderCtlWrite 31 0,
     .encoderPinsWrite 31 0, .encoderPositionRead (.seam 4) 31, .illegalCountRead (.seam 4) 31,
     .pgSoftwareStart 511 0, .pgCycleStart 511, .pgRunEnd 511,
     .pgStop 511 0, .pgAbort 511 0, .pgRearm 511 0,
     .pgCtlWrite 511 0, .pgShadowWrite 511 false 0, .pgSeqselWrite 511 0,
     .pgSeqWrite 511 1 31 0, .comparatorDecision 127 3 0, .tripRelease 511,
     .selectorWrite 127 0, .switchClose 127, .busDriveWrite 127 0,
     .biquadWrite 127 0, .modulatorOverload 127 1 [], .modulatorResume 127 1,
     .biasReady 127] : List Instr).all (fun c => c.wellFormed) = true := by
  decide +kernel

theorem test_well_formed_1 : ([.comparatorCtlWrite 127 3 0, .comparatorThresholdWrite 127 3 0, .thresholdSettled 127 3,
     .windowWrite 127 1 0, .riseCountRead (.seam 4) 127 3, .programEnd 127,
     .dacCodeWrite 127 0, .dacSourceWrite 127 0, .rangeHoldEnd 127,
     .paletteWrite 127 1 32 0, .swapRequest 127 0, .crossFadeEnd 127,
     .panelClear 8 false, .clearRelease 8, .currentLimitShort 127 false,
     .supervisionFault 127 0, .standbyDrive 127, .handover 127 0,
     .peakDiffRead (.seam 4) 127, .dceOutput 7 31, .channelCtlWrite 7 31 0,
     .channelRestart 7 31, .dceThresholdWrite 7 31 2 0, .rdidxWrite 7 31 0,
     .windowClose 7 31, .windowDone 7 31, .dceLastStampRead (.seam 4) 7 31,
     .overrunCountRead (.seam 4) 7 31, .latchTimingEdge 31, .shiftStart ⟨31, false⟩,
     .shiftEnd 31, .readyPoll ⟨31, false⟩, .blockFetch ⟨31, false⟩,
     .portEnableWrite 31 0, .profileWrite 31 2 0, .prioPush 31 1 0,
     .senseDeadWrite 31 1 0, .nozzleMapWrite 31 4095 0, .unretire 31 0,
     .nozzleMapWalk 31] : List Instr).all (fun c => c.wellFormed) = true := by
  decide +kernel

theorem test_well_formed_2 : ([.criticalSetExpiry 31 0, .auxPinChange 31, .planrdWrite 31 0,
     .raiseFail (.seam 4), .raiseDoubt (.seam 4), .setHorizon (.seam 4),
     .ledgerRead (.seam 4), .add 191 63 63 63, .sub 191 63 63 63,
     .and 191 63 63 63, .or 191 63 63 63, .xor 191 63 63 63,
     .andn 191 63 63 63, .shl 191 63 63 63, .shr 191 63 63 63,
     .sra 191 63 63 63, .min 191 63 63 63, .max 191 63 63 63,
     .minu 191 63 63 63, .maxu 191 63 63 63, .adds 191 63 63 63,
     .subs 191 63 63 63, .addi 191 63 63 0, .subi 191 63 63 0,
     .andi 191 63 63 0, .ori 191 63 63 0, .xori 191 63 63 0,
     .lui 191 63 0, .shli 191 63 63 0, .shri 191 63 63 0,
     .srai 191 63 63 0, .adda 191 63 63 0, .addaR 191 63 63 63,
     .laLo 191 63 63, .laHi 191 63 63, .mgaLo 191 63 63,
     .mgaHi 191 63 63, .mul 191 63 63 63, .mulhs 191 63 63 63,
     .mulhu 191 63 63 63] : List Instr).all (fun c => c.wellFormed) = true := by
  decide +kernel

theorem test_well_formed_3 : ([.mac 191 63 63 63, .msu 191 63 63 63, .gfmul 191 0 63 63 63,
     .gfmac 191 0 63 63 63, .popc 191 63 63, .clz 191 63 63,
     .ctz 191 63 63, .brev 191 63 63, .bswap 191 63 63,
     .bfxu 191 63 63 31 63, .bfxs 191 63 63 31 63, .bfi 191 63 63 31 63,
     .cmpeq 191 63 63 63, .cmpne 191 63 63 63, .cmplt 191 63 63 63,
     .cmpltu 191 63 63 63, .cmpge 191 63 63 63, .cmpgeu 191 63 63 63,
     .cmpi 191 0 63 63 0, .pand 191 63 63 63, .por 191 63 63 63,
     .pxor 191 63 63 63, .pandn 191 63 63 63, .sel 191 63 63 63 7,
     .ldB 191 63 63 0, .ldH 191 63 63 0, .ldW 191 63 63 0,
     .ldV 191 63 63 0, .ldBu 191 63 63 0, .ldHu 191 63 63 0,
     .stB 191 63 63 0, .stH 191 63 63 0, .stW 191 63 63 0,
     .stV 191 63 63 0, .dma 191 63 63 0, .vadd 191 0 31 31 31,
     .vsub 191 0 31 31 31, .vadds 191 0 31 31 31, .vaddsu 191 0 31 31 31,
     .vsubs 191 0 31 31 31] : List Instr).all (fun c => c.wellFormed) = true := by
  decide +kernel

theorem test_well_formed_4 : ([.vsubsu 191 0 31 31 31, .vmul 191 0 31 31 31, .vmulhs 191 0 31 31 31,
     .vmin 191 0 31 31 31, .vminu 191 0 31 31 31, .vmax 191 0 31 31 31,
     .vmaxu 191 0 31 31 31, .vavgu 191 0 31 31 31, .vand 191 0 31 31 31,
     .vor 191 0 31 31 31, .vxor 191 0 31 31 31, .vandn 191 0 31 31 31,
     .vcmpeq 191 0 31 31 31, .vcmpgt 191 0 31 31 31, .vcmpgtu 191 0 31 31 31,
     .vshl 191 0 31 31 31, .vshr 191 0 31 31 31, .vsra 191 0 31 31 31,
     .vperm 191 0 31 31 31, .vbtr8 191 0 31 31, .vext 191 0 31 31 31,
     .vins 191 0 31 31 31, .vsplat 191 0 31 31, .vslb 191 0 31 31 31,
     .vsrb 191 0 31 31 31, .vsel 191 0 31 31 31, .vhsum 191 0 31 31,
     .vht1 191 0 31 31 31, .vht2 191 0 31 31 31, .vgfmul 191 0 0 31 31 31,
     .vgfmac 191 0 0 31 31 31, .vgfmacs 191 0 0 31 31 31, .br 191 63 0,
     .brf 191 63 0, .bra 191 0, .call 191 0,
     .jr 191 63, .jalr 191 63 63, .qget 191 63 63 false,
     .qput 191 63 63] : List Instr).all (fun c => c.wellFormed) = true := by
  decide +kernel

theorem test_well_formed_5 : ([.qsteal 191 63, .qdone 191 63, .qfail 191 63 63,
     .carmT 191 63 63, .carmP 191 63 63, .cdisarm 191 63 63,
     .twait 191 63, .dlset 191 63, .ewait 191 63 63,
     .raise 191 63, .mfsr 191 63 255, .mtsr 191 63 255,
     .fenceL 191, .fenceS 191, .fenceI 191,
     .iinv 191, .park 191, .eret 191,
     .trap 191 0, .brk 191, .dmawait 191 63 63,
     .exceptionEntry 191, .loadReturn 191 7 false, .storeAcknowledge 191 ⟨7, false⟩,
     .icacheRefill 191 0 ⟨3, false⟩, .answerReturn 191, .twaitSatisfied 191,
     .ewaitSatisfied 191, .qgetTimeout 191, .dmaComplete ⟨191, []⟩,
     .dmawaitReturn 191, .engineCueTimer 191, .deadlineWatchFire 191,
     .watchdogExpiry 191, .engineFault 191, .engineStart 191 0,
     .engineReset 191 0, .forceFault 191 0, .unlock 191 0,
     .halt 191 0] : List Instr).all (fun c => c.wellFormed) = true := by
  decide +kernel

theorem test_well_formed_6 : ([.step 191 0, .resume 191 0, .breakpointHit 191 3,
     .perfCountRead (.seam 4) 191 false, .jobDelivery ⟨11, false⟩, .hostPostGo (.seam 4) 4095 0,
     .missDetection 4095 0, .fallbackPost 4095, .jobReturn 191,
     .headAdvance 4095, .classAging 4095, .urgencyOnset 4095,
     .queueCtlWrite 4095 0, .queueCountRead (.seam 4) 4095 3, .headdlRead (.seam 4) 4095,
     .testWindowStart 384, .testWindowAbandon 384, .rowRestore 384,
     .testWindowEnd ⟨384, []⟩ false, .bankSpareComplete 11, .retain 11 0,
     .retainComplete 11, .wake 11 0, .wakeComplete 11,
     .ceCountRead (.seam 4) 12, .lpddrRead 0 7 0 false 6 false, .lpddrWrite 0 7 0 false [] 6,
     .channelFailed 3, .scrubRead 6 false, .memcCountRead (.seam 4) 3,
     .dataPortWrite 15 0 [] [] false, .burstIdleTimeout 15, .flush 15 0,
     .dataPortRead ⟨15, []⟩ 0 0, .dataPortSeamTimeout 15 0, .msixSend 2047,
     .violationCountRead (.seam 4), .fabricPortRequest 15 3 false 0 [], .cuffWrite 15 31 0,
     .ownerChange 255] : List Instr).all (fun c => c.wellFormed) = true := by
  decide +kernel

theorem test_well_formed_7 : ([.portViolationRead (.seam 4), .seamPortEnable 3 0, .seamRetrain 3 0,
     .trainingComplete 3 0 0 false 0, .trainingRestart 3, .laneSparing 3 0,
     .portDown 3 0, .hello 3 noFlit, .laneMap 3 noFlit,
     .idle 3 noFlit, .idleSend 3, .replayTimeout 3,
     .seamWrite 4 noFlit, .seamRead ⟨4, []⟩ noFlit, .readResp 4 noFlit,
     .seamAnswer 4 noFlit, .seamMsg 4 noFlit, .cueAt 4 noFlit,
     .seamAttest 4 noFlit, .timeSync 3 noFlit 7, .timeSyncReply 3 noFlit 7,
     .tsyncExchange 7, .seamRequestTimeout 3 0, .cueAtGo (.seam 4) 0,
     .attestGo (.seam 4) 0, .seamWindowAccess (.seam 4) false 0 0 [], .seamRelease 3 0,
     .dropCountRead (.seam 4), .seamViolCountRead (.seam 4) 3, .replayCountRead (.seam 4) 3,
     .temperatureCheck 7, .calRequest 127 0, .calCommit 127 0,
     .calStepStart 127, .calStepEnd 127 [], .stepAbandon 127,
     .calStarved 127, .sensorUpdate 11 0, .sensorFault 11,
     .lioDataWrite 7 0] : List Instr).all (fun c => c.wellFormed) = true := by
  decide +kernel

theorem test_well_formed_8 : ([.lioSet 7 0, .lioClr 7 0, .lioTgl 7 0,
     .lioCfgWrite 255 0, .bankSupplyChange 7 false 0, .uartDataWrite 7 0,
     .uartDataRead (.seam 4) 7, .uartReceive 7 0 false false, .uartByteSent 7,
     .spiDataWrite 3 0, .spiDataRead (.seam 4) 3, .spiByteDone 3 0,
     .i2cGo 3 0, .i2cTransferDone 3 0 [] false false, .i2cBusStuck 3,
     .i2cDataRead (.seam 4) 3, .seamEventMsg 1023, .raiseCountRead (.seam 4),
     .supplyOut 11, .supplyIn 11, .stepTimeout 14,
     .stepRevert 14 0, .fabricCueOutput 127 false, .fastsumUpdate 7 31 0,
     .windowOpen 7 31, .pgaClip 127 1 0, .biquadClip 127 0,
     .cueAtAnswer 4 noFlit, .attestAnswer 4 noFlit, .dacPortUncorrectableRead 127,
     .registerWrite (.engine 191) 0 0] : List Instr).all (fun c => c.wellFormed) = true := by
  decide +kernel

/-! ### No word spells a command -/

theorem test_no_word_decodes (nbits w : Nat) : decodeTableWord nbits w = none := rfl

theorem test_withFetchWord_keeps (s : State) (nbits w : Nat) : s.withFetchWord nbits w = s := rfl

/-! ### Small steps, their expected values from the manual -/

/-- Chapter 21: CQ_TSEL(512) lies at 0x0000_0011_8000. -/
theorem test_register_address : Reg.CQ_TSEL 512 = 0x118000 := by decide

/-- R5: SYS_DEVID reads 0xAB01_8001 from reset on. -/
theorem test_device_id_reads :
    ((bar0Read 0 1 false State.reset).rdata.get [] (reqKey .host)) = [0xAB018001#32] := by decide +kernel

/-- Chapter 06, worked example, step 6: the peak code under Gain 16,712. -/
theorem test_peak_code : scaleSample 23593 16712 0 = 24065 := by decide

/-- Chapter 06, worked example, step 7: sample 200 of a fade of 600. -/
theorem test_fade_code : fadeMix 23593 24065 200 600 = 23751 := by decide

/-- R230: x^7 times x in the field of 0x12D is 0x2D. -/
theorem test_field_product : gfMul 1 0x80 0x02 = 0x2D := by decide +kernel

/-- R227: ADDS saturates to 2^31 − 1. -/
theorem test_adds_saturates : addSat (0x7FFFFFFF : Word) 1 = 0x7FFFFFFF := by decide +kernel

/-- Chapter 13, worked example, step 2: the cursor at 0x0010_4010_0000 folds to 0x0010_4000_0000. -/
theorem test_data_port_folds :
    dpFold 3 0x1040100000
      (((State.reset.setReg (Reg.DP_CTL 3) 0xA5).setReg (Reg.DP_WRAPBASE_LO 3) 0x40000000).setReg
        (Reg.DP_WRAPBASE_LO 3 + 4) 0x10) = 0x1040000000 := by decide +kernel

/-- Chapter 05, worked example, step 5: AT22 accepts the selectors of the HD5 sense tile. -/
theorem test_selectors_accepted : selOk 22 0x00709701 = true := by decide +kernel

/-- R5, R2: a write to SYS_DEVID changes nothing. -/
theorem test_device_id_keeps : (ctlWrite .host 0 0 State.reset).reg Reg.SYS_DEVID = 0xAB018001#32 := by decide +kernel

/-- A step runs the command at the front and leaves the rest. -/
theorem test_front_command_runs :
    step { State.reset with pending := [.crystalLoss true, .holdoverExpired] } =
      exec (.crystalLoss true) { State.reset with pending := [.holdoverExpired] } := rfl

/-- R16: before lock no tick passes. -/
theorem test_no_tick_before_lock :
    (match step State.reset with
      | .next t => decide (t = State.reset)
      | _ => false) = true := by decide +kernel

/-! ### The hypotheses of the obligations, clause by clause, and what meets them -/

/-- `Ready` as a test. -/
def readyNow (n : Nat) (rs : List Nat) (s : State) : Bool :=
  decide ((s.eng n).st = .run) && decide ((s.eng n).issueAt ≤ s.tick) && (asyncCause (s.eng n)).isNone &&
    decide ((s.eng n).step = 0) && !breakNow n s && (fetchCause n (s.eng n).pc.toNat s).isNone &&
    cached n (s.eng n).pc.toNat s && wordLegal (s.word (s.eng n).pc.toNat) && rs.all (fun r => !waitsOn (s.eng n) r)

/-- `ReadySys` as a test. -/
def readySysNow (n : Nat) (rs : List Nat) (s : State) : Bool := readyNow n rs s && (s.eng n).loads.isEmpty

theorem ready_of_readyNow (n : Nat) (rs : List Nat) (s : State) (h : readyNow n rs s = true) : Ready n rs s := by
  simp only [readyNow, Bool.and_eq_true, decide_eq_true_eq, Option.isNone_iff_eq_none, Bool.not_eq_true',
    List.all_eq_true] at h
  exact ⟨h.1.1.1.1.1.1.1.1, h.1.1.1.1.1.1.1.2, h.1.1.1.1.1.1.2, h.1.1.1.1.1.2, h.1.1.1.1.2, h.1.1.1.2, h.1.1.2, h.1.2, h.2⟩

theorem readySys_of_readySysNow (n : Nat) (rs : List Nat) (s : State) (h : readySysNow n rs s = true) : ReadySys n rs s := by
  simp only [readySysNow, Bool.and_eq_true, List.isEmpty_iff] at h
  exact ⟨ready_of_readyNow n rs s h.1, h.2⟩

/-- The clauses numbered in `is` have their hypotheses met. -/
def met (l : List Bool) (is : List Nat) : Bool := is.all (fun i => l[i]?.getD false)

/-- The hypotheses of the clauses of `Obligations.IntegerOps`. -/
def hypsIntegerOps (s : State) (n rd rs rt : Nat) : List Bool :=
  [ decide (rd < 64 ∧ rs < 64 ∧ rt < 64 ∧ readyNow n [rd, rs, rt] s) ]

theorem witness_IntegerOps_0 : met (hypsIntegerOps
    ({ State.reset with regs := [(8388676, 65273857)], engs := ⟨[(0, { Engine.init with st := (EngSt.run), pc := 4294967708, icache := [⟨67108870, 0⟩] })]⟩ }) (0) (0) (0) (0)) [0] = true := by
  decide +kernel

/-- The hypotheses of the clauses of `Obligations.ImmediateOps`. -/
def hypsImmediateOps (s : State) (n rd rs : Nat) (imm : BitVec 14) (imm20 : BitVec 20) : List Bool :=
  [ decide (rd < 64 ∧ rs < 64 ∧ readyNow n [rd, rs] s ∧ imm.toNat < 32) ]

theorem witness_ImmediateOps_0 : met (hypsImmediateOps
    ({ State.reset with regs := [(8388676, 65273857)], engs := ⟨[(0, { Engine.init with st := (EngSt.run), pc := 4294967708, icache := [⟨67108870, 0⟩] })]⟩ }) (0) (0) (0) (0) (0)) [0] = true := by
  decide +kernel

/-- The hypotheses of the clauses of `Obligations.AddressOps`. -/
def hypsAddressOps (s : State) (n rd rs ad ra : Nat) (imm : BitVec 14) : List Bool :=
  [ decide (rd < 64 ∧ rs < 64 ∧ ad < 16 ∧ ra < 16 ∧ readyNow n [rd, rs, 64 + ad, 64 + ra] s) ]

theorem witness_AddressOps_0 : met (hypsAddressOps
    ({ State.reset with regs := [(8388676, 65273857)], engs := ⟨[(0, { Engine.init with st := (EngSt.run), pc := 4294967708, icache := [⟨67108870, 0⟩] })]⟩ }) (0) (0) (0) (0) (0) (0)) [0] = true := by
  decide +kernel

/-- The hypotheses of the clauses of `Obligations.MultiplyAndGaloisOps`. -/
def hypsMultiplyAndGaloisOps (s : State) (n rd rs rt : Nat) (sel : BitVec 2) : List Bool :=
  [ decide (rd < 64 ∧ rs < 64 ∧ rt < 64 ∧ readyNow n [rd, rs, rt] s) ]

theorem witness_MultiplyAndGaloisOps_0 : met (hypsMultiplyAndGaloisOps
    ({ State.reset with regs := [(8388676, 65273857)], engs := ⟨[(0, { Engine.init with st := (EngSt.run), pc := 4294967708, icache := [⟨67108870, 0⟩] })]⟩ }) (0) (0) (0) (0) (0)) [0] = true := by
  decide +kernel

/-- The hypotheses of the clauses of `Obligations.BitOps`. -/
def hypsBitOps (s : State) (n rd rs pos len : Nat) : List Bool :=
  [ decide (rd < 64 ∧ rs < 64 ∧ readyNow n [rd, rs] s ∧ 1 ≤ len ∧ pos + len ≤ 32) ]

theorem witness_BitOps_0 : met (hypsBitOps
    ({ State.reset with regs := [(8388676, 65273857)], engs := ⟨[(0, { Engine.init with st := (EngSt.run), pc := 4294967536, icache := [⟨67108867, 0⟩] })]⟩ }) (0) (0) (0) (0) (1)) [0] = true := by
  decide +kernel

/-- The hypotheses of the clauses of `Obligations.CompareAndPredicateOps`. -/
def hypsCompareAndPredicateOps (s : State) (n rd rs rt pd ps pt : Nat) (imm : BitVec 14) : List Bool :=
  [ decide (rd < 64 ∧ rs < 64 ∧ rt < 64 ∧ pd < 8 ∧ ps < 8 ∧ pt < 8 ∧ readyNow n [rd, rs, rt, 160 + pd, 160 + ps,
        160 + pt] s) ]

theorem witness_CompareAndPredicateOps_0 : met (hypsCompareAndPredicateOps
    ({ State.reset with regs := [(8388676, 65273857)], engs := ⟨[(0, { Engine.init with st := (EngSt.run), pc := 4294967708, icache := [⟨67108870, 0⟩] })]⟩ }) (0) (0) (0) (0) (0) (0) (0) (0)) [0] = true := by
  decide +kernel

/-- The hypotheses of the clauses of `Obligations.VectorLaneOps`. -/
def hypsVectorLaneOps (s : State) (n vd vs vt : Nat) (es : BitVec 2) : List Bool :=
  [ decide (vd < 32 ∧ vs < 32 ∧ vt < 32 ∧ readyNow n [128 + vd, 128 + vs, 128 + vt] s ∧ es.toNat < 3),
    decide (vd < 32 ∧ vs < 32 ∧ vt < 32 ∧ readyNow n [128 + vd, 128 + vs, 128 + vt] s ∧ 1 ≤ es.toNat ∧ es.toNat
        < 3),
    decide (vd < 32 ∧ vs < 32 ∧ vt < 32 ∧ readyNow n [128 + vd, 128 + vs, 128 + vt] s ∧ es.toNat < 2) ]

theorem witness_VectorLaneOps_0 : met (hypsVectorLaneOps
    ({ State.reset with regs := [(8388676, 65273857)], engs := ⟨[(0, { Engine.init with st := (EngSt.run), pc := 4294967536, icache := [⟨67108867, 0⟩] })]⟩ }) (0) (0) (0) (0) (1)) [0, 1, 2] = true := by
  decide +kernel

/-- The hypotheses of the clauses of `Obligations.VectorShiftsAndMoves`. -/
def hypsVectorShiftsAndMoves (s : State) (n vd vs vt gs k : Nat) (es : BitVec 2) : List Bool :=
  let w := 8 * 2 ^ es.toNat
  [ decide (vd < 32 ∧ vs < 32 ∧ vt < 32 ∧ gs < 32 ∧ readyNow n [128 + vd, 128 + vs, 128 + vt, gs] s ∧ es.toNat <
        3),
    decide (vd < 32 ∧ vs < 32 ∧ vt < 32 ∧ gs < 32 ∧ readyNow n [128 + vd, 128 + vs, 128 + vt, gs] s ∧ es.toNat <
        3 ∧ w * k < 128),
    decide (vd < 32 ∧ vs < 32 ∧ vt < 32 ∧ gs < 32 ∧ readyNow n [128 + vd, 128 + vs, 128 + vt, gs] s ∧ es.toNat <
        2),
    decide (vd < 32 ∧ vs < 32 ∧ vt < 32 ∧ gs < 32 ∧ readyNow n [128 + vd, 128 + vs, 128 + vt, gs] s ∧ k < 16) ]

theorem witness_VectorShiftsAndMoves_0 : met (hypsVectorShiftsAndMoves
    ({ State.reset with regs := [(8388676, 65273857)], engs := ⟨[(0, { Engine.init with st := (EngSt.run), pc := 4294967708, icache := [⟨67108870, 0⟩] })]⟩ }) (0) (0) (0) (0) (0) (0) (0)) [0, 1, 2, 3] = true := by
  decide +kernel

/-- The hypotheses of the clauses of `Obligations.HalftoneAndVectorGalois`. -/
def hypsHalftoneAndVectorGalois (s : State) (n vd vs vt gd : Nat) (sel : BitVec 2) : List Bool :=
  [ decide (vd < 32 ∧ vs < 32 ∧ vt < 32 ∧ gd < 32 ∧ readyNow n [128 + vd, 128 + vs, 128 + vt, gd] s) ]

theorem witness_HalftoneAndVectorGalois_0 : met (hypsHalftoneAndVectorGalois
    ({ State.reset with regs := [(8388676, 65273857)], engs := ⟨[(0, { Engine.init with st := (EngSt.run), pc := 4294967708, icache := [⟨67108870, 0⟩] })]⟩ }) (0) (0) (0) (0) (0) (0)) [0] = true := by
  decide +kernel

/-- The hypotheses of the clauses of `Obligations.BranchesAndJumps`. -/
def hypsBranchesAndJumps (s : State) (n pr ad ra : Nat) (off : BitVec 20) : List Bool :=
  [ decide (pr < 8 ∧ ad < 16 ∧ ra < 16 ∧ readyNow n [160 + pr, 64 + ad, 64 + ra, 64 + 15] s) ]

theorem witness_BranchesAndJumps_0 : met (hypsBranchesAndJumps
    ({ State.reset with regs := [(8388676, 65273857)], engs := ⟨[(0, { Engine.init with st := (EngSt.run), pc := 4294967708, icache := [⟨67108870, 0⟩] })]⟩ }) (0) (0) (0) (0) (0)) [0] = true := by
  decide +kernel

/-- The hypotheses of the clauses of `Obligations.IllegalEncodingsRaiseIllegal`. -/
def hypsIllegalEncodingsRaiseIllegal (s : State) (n rd rs rt pos len k : Nat) (imm : BitVec 14) (cc : BitVec 3) (es : BitVec 2) (nowait : Bool) (s' : State) : List Bool :=
  [ decide (((s'.eng n).st = .run ∧ (s'.eng n).issueAt ≤ s'.clock.tick ∧ (s'.eng n).step = 0 ∧ (s'.eng n).exl =
        false ∧ asyncCause (s'.eng n) = none ∧ breakNow n s' = false ∧ fetchCause n (s'.eng n).pc.toNat s' = none ∧
        wordLegal (s'.word (s'.eng n).pc.toNat) = false)),
    decide (readyNow n [rd, rs] s ∧ (s.eng n).exl = false ∧ rd < 32 ∧ rs < 32 ∧ 32 ≤ imm.toNat),
    decide (readyNow n [rd, rs] s ∧ (s.eng n).exl = false ∧ rd < 32 ∧ rs < 32 ∧ (len = 0 ∨ 32 < pos + len)),
    decide (readyNow n [rd, rs] s ∧ (s.eng n).exl = false ∧ rd < 32 ∧ rs < 32 ∧ 6 ≤ cc.toNat),
    decide (readyNow n [rd, rs] s ∧ (s.eng n).exl = false ∧ rd < 32 ∧ rs < 32 ∧ 64 ≤ rt),
    decide (readyNow n [rd, rs] s ∧ (s.eng n).exl = false ∧ rd < 32 ∧ rs < 32 ∧ 16 ≤ rt),
    decide (readyNow n [rd, rs] s ∧ (s.eng n).exl = false ∧ rd < 32 ∧ rs < 32 ∧ 8 ≤ rt),
    decide (readyNow n [rd, rs] s ∧ (s.eng n).exl = false ∧ rd < 32 ∧ rs < 32 ∧ es = 3),
    decide (readyNow n [rd, rs] s ∧ (s.eng n).exl = false ∧ rd < 32 ∧ rs < 32 ∧ es ≠ 3),
    decide (readyNow n [rd, rs] s ∧ (s.eng n).exl = false ∧ rd < 32 ∧ rs < 32 ∧ (es = 0 ∨ es = 3)),
    decide (readyNow n [rd, rs] s ∧ (s.eng n).exl = false ∧ rd < 32 ∧ rs < 32 ∧ es ≠ 0),
    decide (readyNow n [rd, rs] s ∧ (s.eng n).exl = false ∧ rd < 32 ∧ rs < 32 ∧ 128 / (8 * 2 ^ es.toNat) ≤ k),
    decide (readyNow n [rd, rs] s ∧ (s.eng n).exl = false ∧ rd < 32 ∧ rs < 32 ∧ 16 ≤ k),
    decide (readyNow n [rd, rs] s ∧ (s.eng n).exl = false ∧ rd < 32 ∧ rs < 32 ∧ rs % 2 = 1) ]

theorem witness_IllegalEncodingsRaiseIllegal_0 : met (hypsIllegalEncodingsRaiseIllegal
    ({ State.reset with regs := [(8388676, 65273857)], engs := ⟨[(0, { Engine.init with st := (EngSt.run), pc := 4294970348, icache := [⟨67108911, 0⟩] })]⟩ }) (0) (0) (1) (64) (0) (0) (7) (16383) (7) (3) (false) ({ State.reset with regs := [(8388676, 65273857)], mem := [(4294970351, 128)], engs := ⟨[(0, { Engine.init with st := (EngSt.run), pc := 4294970348 })]⟩ })) [0, 1, 2, 3, 4, 5, 6, 7, 9, 10, 11, 13] = true := by
  decide +kernel

theorem witness_IllegalEncodingsRaiseIllegal_1 : met (hypsIllegalEncodingsRaiseIllegal
    ({ State.reset with regs := [(8388676, 65273857)], engs := ⟨[(0, { Engine.init with st := (EngSt.run), pc := 4294970892, icache := [⟨67108920, 0⟩] })]⟩ }) (0) (0) (0) (0) (0) (0) (18) (0) (0) (0) (false) (State.reset)) [8, 12] = true := by
  decide +kernel

/-- The hypotheses of the clauses of `Obligations.ExceptionEntryAndReturn`. -/
def hypsExceptionEntryAndReturn (s : State) (n : Nat) (code : Byte) : List Bool :=
  let e := s.eng n
  [ decide (readySysNow n [] s ∧ e.exl = false),
    decide (readySysNow n [] s ∧ e.exl = false ∧ s.bit (Reg.ME_DBGCTL n) F.ME_DBGCTL_Attached = false),
    decide (readySysNow n [] s ∧ e.exl = false ∧ s.bit (Reg.ME_DBGCTL n) F.ME_DBGCTL_Attached = true),
    decide (readySysNow n [] s ∧ e.exl = false ∧ e.priv = true),
    decide (readySysNow n [] s ∧ e.exl = false ∧ e.priv = false),
    decide (readySysNow n [] s ∧ e.exl = true ∧ e.flt = none ∧ n < 192),
    decide (readySysNow n [] s ∧ e.exl = true ∧ e.priv = true),
    decide ((e.st = .run ∨ e.st = .wait) ∧ e.loads = [] ∧ e.exl = false ∧ e.dlPend = true),
    decide ((e.st = .run ∨ e.st = .wait) ∧ e.loads = [] ∧ e.exl = false ∧ e.dlPend = false ∧ e.dmaPend = none ∧
        e.ie = true ∧ e.evpend &&& e.evmask ≠ 0),
    decide ((e.st = .run ∨ e.st = .wait) ∧ e.loads = [] ∧ e.exl = true) ]

theorem witness_ExceptionEntryAndReturn_0 : met (hypsExceptionEntryAndReturn
    ({ State.reset with regs := [(8388676, 65273857), (8388864, 1734135146)], engs := ⟨[(0, { Engine.init with st := (EngSt.run), pc := 4294970152, icache := [⟨67108908, 0⟩] })]⟩ }) (0) (0)) [0, 2, 4] = true := by
  decide +kernel

theorem witness_ExceptionEntryAndReturn_1 : met (hypsExceptionEntryAndReturn
    ({ State.reset with regs := [(8388676, 65273857)], engs := ⟨[(0, { Engine.init with st := (EngSt.run), pc := 4294970820, priv := true, exl := true, icache := [⟨67108919, 0⟩] })]⟩ }) (0) (0)) [5, 6, 9] = true := by
  decide +kernel

theorem witness_ExceptionEntryAndReturn_2 : met (hypsExceptionEntryAndReturn
    ({ State.reset with regs := [(8388676, 65273857)], engs := ⟨[(0, { Engine.init with st := (EngSt.run), pc := 4294968452, priv := true, icache := [⟨67108882, 0⟩] })]⟩ }) (0) (0)) [1, 3] = true := by
  decide +kernel

theorem witness_ExceptionEntryAndReturn_3 : met (hypsExceptionEntryAndReturn
    ({ State.reset with engs := ⟨[(0, { Engine.init with st := (EngSt.wait), ie := true, evmask := 1, evpend := 1 })]⟩ }) (0) (0)) [8] = true := by
  decide +kernel

theorem witness_ExceptionEntryAndReturn_4 : met (hypsExceptionEntryAndReturn
    ({ State.reset with engs := ⟨[(0, { Engine.init with st := (EngSt.wait), dlPend := true })]⟩ }) (0) (0)) [7] = true := by
  decide +kernel

/-- The hypotheses of the clauses of `Obligations.SpecialRegisterReads`. -/
def hypsSpecialRegisterReads (s : State) (n rd r : Nat) : List Bool :=
  let e := s.eng n
  [ decide (rd < 64 ∧ readySysNow n [rd] s ∧ n < 192),
    decide (rd < 64 ∧ readySysNow n [rd] s ∧ e.priv = true),
    decide (rd < 64 ∧ readySysNow n [rd] s ∧ e.jobValid = true),
    decide (rd < 64 ∧ readySysNow n [rd] s ∧ e.exl = false ∧ e.priv = false ∧ (4 ≤ r ∧ r ≤ 11 ∨ r = 21)),
    decide (rd < 64 ∧ readySysNow n [rd] s ∧ e.exl = false ∧ (22 ≤ r ∧ r < 32 ∨ 48 ≤ r)) ]

theorem witness_SpecialRegisterReads_0 : met (hypsSpecialRegisterReads
    ({ State.reset with regs := [(8388676, 65273857)], engs := ⟨[(0, { Engine.init with st := (EngSt.run), pc := 4294967860, priv := true, jobValid := true, icache := [⟨67108872, 0⟩] })]⟩ }) (0) (0) (53)) [0, 1, 2, 4] = true := by
  decide +kernel

theorem witness_SpecialRegisterReads_1 : met (hypsSpecialRegisterReads
    ({ State.reset with regs := [(8388676, 65273857)], engs := ⟨[(0, { Engine.init with st := (EngSt.run), pc := 4294970152, icache := [⟨67108908, 0⟩] })]⟩ }) (0) (0) (21)) [3] = true := by
  decide +kernel

/-- The hypotheses of the clauses of `Obligations.SpecialRegisterWrites`. -/
def hypsSpecialRegisterWrites (s : State) (n rs r : Nat) : List Bool :=
  let e := s.eng n
  [ decide (rs < 64 ∧ readySysNow n [rs] s ∧ e.priv = true),
    decide (rs < 64 ∧ readySysNow n [rs] s ∧ (e.ctArmed = false ∨ s.clock.lt < e.ctVal)),
    decide (rs < 64 ∧ readySysNow n [rs] s ∧ e.exl = false ∧ e.priv = false ∧ (4 ≤ r ∧ r ≤ 11 ∨ r = 21)),
    decide (rs < 64 ∧ readySysNow n [rs] s ∧ e.exl = false ∧ (r ≤ 3 ∨ r = 14 ∨ r = 15 ∨ r = 20 ∨ 22 ≤ r)) ]

theorem witness_SpecialRegisterWrites_0 : met (hypsSpecialRegisterWrites
    ({ State.reset with regs := [(8388676, 65273857)], engs := ⟨[(0, { Engine.init with st := (EngSt.run), pc := 4294970188, priv := true, icache := [⟨67108909, 0⟩] })]⟩ }) (0) (0) (0)) [0, 1, 3] = true := by
  decide +kernel

theorem witness_SpecialRegisterWrites_1 : met (hypsSpecialRegisterWrites
    ({ State.reset with regs := [(8388676, 65273857)], engs := ⟨[(0, { Engine.init with st := (EngSt.run), pc := 4294970152, icache := [⟨67108908, 0⟩] })]⟩ }) (0) (0) (21)) [2] = true := by
  decide +kernel

/-- The hypotheses of the clauses of `Obligations.FencesCacheAndPark`. -/
def hypsFencesCacheAndPark (s : State) (n a : Nat) (bs : List Byte) : List Bool :=
  let e := s.eng n
  [ decide (readyNow n [] s ∧ e.loads ≠ []),
    decide (readyNow n [] s ∧ e.loads = [] ∧ e.stores = []),
    decide (readyNow n [] s ∧ e.loads = [] ∧ e.stores = [⟨a, bs⟩] ∧ regionOf a s = .pocket n),
    decide (readyNow n [] s ∧ e.loads = []),
    decide (readyNow n [] s ∧ e.loads = [] ∧ e.priv = true),
    decide (readyNow n [] s ∧ e.loads = [] ∧ e.priv = true ∧ n < 192),
    decide (readyNow n [] s ∧ e.loads = [] ∧ e.priv = false ∧ e.exl = false) ]

theorem witness_FencesCacheAndPark_0 : met (hypsFencesCacheAndPark
    ({ State.reset with regs := [(8388676, 65273857)], engs := ⟨[(0, { Engine.init with st := (EngSt.run), pc := 4294967408, priv := true, icache := [⟨67108865, 0⟩] })]⟩ }) (0) (0) ([])) [1, 3, 4, 5] = true := by
  decide +kernel

theorem witness_FencesCacheAndPark_1 : met (hypsFencesCacheAndPark
    ({ State.reset with regs := [(8388676, 65273857)], engs := ⟨[(0, { Engine.init with st := (EngSt.run), pc := 4294970540, stores := [⟨8589942703, [104, 14]⟩], icache := [⟨67108914, 0⟩] })]⟩ }) (0) (8589942703) ([104, 14])) [2, 6] = true := by
  decide +kernel

theorem witness_FencesCacheAndPark_2 : met (hypsFencesCacheAndPark
    ({ State.reset with regs := [(8388676, 65273857)], engs := ⟨[(0, { Engine.init with st := (EngSt.run), pc := 4294967708, loads := [⟨0, 0, 0, false, false, 0, none, 0, false, ⟨⟨[]⟩, ⟨[]⟩, ⟨[]⟩, ⟨[]⟩, false, false, false, false, false, 0, 0, 0⟩⟩], icache := [⟨67108870, 0⟩] })]⟩ }) (0) (0) ([])) [0] = true := by
  decide +kernel

/-- The hypotheses of the clauses of `Obligations.EngineAccessRights`. -/
def hypsEngineAccessRights (s : State) (n a size : Nat) (write : Bool) : List Bool :=
  let super := (s.eng n).priv
  let control := a < 0x1000000
  let staging := 0x2000000 ≤ a ∧ a < 0x2200000
  let journal := 0x3000000 ≤ a ∧ a < 0x3040000
  let awake := fun (c : Nat) => s.bit (Reg.TST_RETCTL c) F.TST_RETCTL_Retained = false
  [ decide (n < 192 ∧ (size = 1 ∨ size = 2 ∨ size = 4 ∨ size = 16) ∧ a % size ≠ 0),
    decide (n < 192 ∧ (size = 1 ∨ size = 2 ∨ size = 4 ∨ size = 16) ∧ a % size = 0 ∧ super = false ∧ (control ∨
        staging ∨ journal)),
    decide (n < 192 ∧ (size = 1 ∨ size = 2 ∨ size = 4 ∨ size = 16) ∧ a % size = 0 ∧ super = true ∧ control),
    decide (n < 192 ∧ (size = 1 ∨ size = 2 ∨ size = 4 ∨ size = 16) ∧ a % size = 0 ∧ super = true ∧ (staging ∨
        journal) ∧ write = true),
    decide (n < 192 ∧ (size = 1 ∨ size = 2 ∨ size = 4 ∨ size = 16) ∧ a % size = 0 ∧ super = true ∧ journal ∧
        write = false),
    decide (n < 192 ∧ (size = 1 ∨ size = 2 ∨ size = 4 ∨ size = 16) ∧ a % size = 0 ∧ super = true ∧ awake (n /
        16) ∧ 0x200000000 + 0x10000 * n ≤ a ∧ a < 0x200000000 + 0x10000 * (n + 1)),
    decide (n < 192 ∧ (size = 1 ∨ size = 2 ∨ size = 4 ∨ size = 16) ∧ a % size = 0 ∧ super = true ∧ 0x200C00000 ≤
        a ∧ a < 0x1000000000),
    decide (n < 192 ∧ (size = 1 ∨ size = 2 ∨ size = 4 ∨ size = 16) ∧ a % size = 0 ∧ super = false ∧ ¬ control ∧
        ¬ staging ∧ ¬ journal ∧ (∀ r : Nat, r < 8 → s.bit (Reg.ME_RGN_HI n r) F.ME_RGN_HI_RgnEnable = false)) ]

theorem witness_EngineAccessRights_0 : met (hypsEngineAccessRights
    (State.reset) (0) (21474897499) (1) (false)) [7] = true := by
  decide +kernel

theorem witness_EngineAccessRights_1 : met (hypsEngineAccessRights
    (State.reset) (0) (0) (1) (false)) [1] = true := by
  decide +kernel

theorem witness_EngineAccessRights_2 : met (hypsEngineAccessRights
    ({ State.reset with engs := ⟨[(0, { Engine.init with priv := true })]⟩ }) (0) (8589982656) (1) (false)) [5] = true := by
  decide +kernel

theorem witness_EngineAccessRights_3 : met (hypsEngineAccessRights
    (State.reset) (0) (1) (4) (false)) [0] = true := by
  decide +kernel

theorem witness_EngineAccessRights_4 : met (hypsEngineAccessRights
    ({ State.reset with engs := ⟨[(0, { Engine.init with priv := true })]⟩ }) (0) (50512746) (1) (false)) [4] = true := by
  decide +kernel

theorem witness_EngineAccessRights_5 : met (hypsEngineAccessRights
    ({ State.reset with engs := ⟨[(0, { Engine.init with priv := true })]⟩ }) (0) (21474837024) (1) (false)) [6] = true := by
  decide +kernel

theorem witness_EngineAccessRights_6 : met (hypsEngineAccessRights
    ({ State.reset with engs := ⟨[(0, { Engine.init with priv := true })]⟩ }) (0) (33929760) (1) (true)) [3] = true := by
  decide +kernel

theorem witness_EngineAccessRights_7 : met (hypsEngineAccessRights
    ({ State.reset with engs := ⟨[(0, { Engine.init with priv := true })]⟩ }) (0) (0) (1) (false)) [2] = true := by
  decide +kernel

/-- The hypotheses of the clauses of `Obligations.LoadsAndStoresIssue`. -/
def hypsLoadsAndStoresIssue (s : State) (n rd ra : Nat) (off : BitVec 14) : List Bool :=
  let e := s.eng n
  let addr := fun (size : Nat) => (s.a n ra + off.signExtend 48 * BitVec.ofNat 48 size).toNat
  let ok := fun (write : Bool) (size : Nat) => accessCause n write (addr size) size s = none ∧ (addr size <
      0x400000000000 ∨ 0x404000000000 ≤ addr size)
  [ decide (rd < 32 ∧ ra < 16 ∧ readyNow n [rd, 128 + rd, 64 + ra] s ∧ e.loads.length < 8 ∧ ok false 1),
    decide (rd < 32 ∧ ra < 16 ∧ readyNow n [rd, 128 + rd, 64 + ra] s ∧ e.loads.length < 8 ∧ ok false 2),
    decide (rd < 32 ∧ ra < 16 ∧ readyNow n [rd, 128 + rd, 64 + ra] s ∧ e.loads.length < 8 ∧ ok false 4),
    decide (rd < 32 ∧ ra < 16 ∧ readyNow n [rd, 128 + rd, 64 + ra] s ∧ e.loads.length < 8 ∧ ok false 16),
    decide (rd < 32 ∧ ra < 16 ∧ readyNow n [rd, 128 + rd, 64 + ra] s ∧ e.stores.length < 8 ∧ ok true 1),
    decide (rd < 32 ∧ ra < 16 ∧ readyNow n [rd, 128 + rd, 64 + ra] s ∧ e.stores.length < 8 ∧ ok true 2),
    decide (rd < 32 ∧ ra < 16 ∧ readyNow n [rd, 128 + rd, 64 + ra] s ∧ e.stores.length < 8 ∧ ok true 4),
    decide (rd < 32 ∧ ra < 16 ∧ readyNow n [rd, 128 + rd, 64 + ra] s ∧ e.stores.length < 8 ∧ ok true 16),
    decide (rd < 32 ∧ ra < 16 ∧ readyNow n [rd, 128 + rd, 64 + ra] s ∧ n < 192 ∧ e.exl = false ∧ e.loads.length
        < 8 ∧ e.stores.length < 8) ]

theorem witness_LoadsAndStoresIssue_0 : met (hypsLoadsAndStoresIssue
    ({ State.reset with regs := [(8388676, 65273857)], engs := ⟨[(0, { Engine.init with st := (EngSt.run), pc := 4294970892, priv := true, icache := [⟨67108920, 0⟩] })]⟩ }) (0) (0) (0) (0)) [0, 1, 2, 3, 4, 5, 6, 7, 8] = true := by
  decide +kernel

/-- The hypotheses of the clauses of `Obligations.LoadsReturnAndStoresLand`. -/
def hypsLoadsReturnAndStoresLand (s : State) (n k : Nat) (l : EngLoad) (x : EngStore) (ue : Bool) : List Bool :=
  let e := s.eng n
  let pocket := fun (a size : Nat) => s.bit (Reg.TST_RETCTL (n / 16)) F.TST_RETCTL_Retained = false ∧
      0x200000000 + 0x10000 * n ≤ a ∧ a + size ≤ 0x200000000 + 0x10000 * (n + 1)
  [ decide (n < 192 ∧ e.loads[0]? = some l ∧ l.seam = none ∧ l.bad = false ∧ pocket l.addr l.size ∧ (l.size = 1
        ∨ l.size = 2 ∨ l.size = 4 ∨ l.size = 16) ∧ ((e.stores.take l.after).all (fun y => decide (y.addr +
        y.bytes.length ≤ l.addr ∨ l.addr + l.size ≤ y.addr)) = true) ∧ ue = false ∧ (List.range l.size).all (fun i
        => !s.poisoned (l.addr + i)) = true),
    decide (n < 192 ∧ e.loads[0]? = some l ∧ l.seam = none ∧ l.bad = false ∧ pocket l.addr l.size ∧ (l.size = 1
        ∨ l.size = 2 ∨ l.size = 4 ∨ l.size = 16) ∧ ((e.stores.take l.after).all (fun y => decide (y.addr +
        y.bytes.length ≤ l.addr ∨ l.addr + l.size ≤ y.addr)) = true) ∧ ue = false ∧ (List.range l.size).all (fun i
        => !s.poisoned (l.addr + i)) = true ∧ l.vec = true),
    decide (n < 192 ∧ e.loads[0]? = some l ∧ l.seam = none ∧ l.bad = false ∧ pocket l.addr l.size ∧ (l.size = 1
        ∨ l.size = 2 ∨ l.size = 4 ∨ l.size = 16) ∧ ((e.stores.take l.after).all (fun y => decide (y.addr +
        y.bytes.length ≤ l.addr ∨ l.addr + l.size ≤ y.addr)) = true) ∧ ue = false ∧ (List.range l.size).all (fun i
        => !s.poisoned (l.addr + i)) = true ∧ l.vec = false ∧ l.signed = false),
    decide (n < 192 ∧ e.loads[0]? = some l ∧ l.seam = none ∧ l.bad = false ∧ pocket l.addr l.size ∧ (l.size = 1
        ∨ l.size = 2 ∨ l.size = 4 ∨ l.size = 16) ∧ ((e.stores.take l.after).all (fun y => decide (y.addr +
        y.bytes.length ≤ l.addr ∨ l.addr + l.size ≤ y.addr)) = true) ∧ ue = false ∧ (List.range l.size).all (fun i
        => !s.poisoned (l.addr + i)) = true ∧ l.vec = false ∧ l.signed = true ∧ l.size = 1),
    decide (n < 192 ∧ e.loads[0]? = some l ∧ l.seam = none ∧ l.bad = false ∧ pocket l.addr l.size ∧ (l.size = 1
        ∨ l.size = 2 ∨ l.size = 4 ∨ l.size = 16) ∧ ((e.stores.take l.after).all (fun y => decide (y.addr +
        y.bytes.length ≤ l.addr ∨ l.addr + l.size ≤ y.addr)) = true) ∧ ue = false ∧ (List.range l.size).all (fun i
        => !s.poisoned (l.addr + i)) = true ∧ l.vec = false ∧ l.signed = true ∧ l.size = 2),
    decide (n < 192 ∧ e.loads[0]? = some l ∧ l.seam = none ∧ l.bad = false ∧ pocket l.addr l.size ∧ (l.size = 1
        ∨ l.size = 2 ∨ l.size = 4 ∨ l.size = 16) ∧ ((e.stores.take l.after).all (fun y => decide (y.addr +
        y.bytes.length ≤ l.addr ∨ l.addr + l.size ≤ y.addr)) = true) ∧ (ue = true ∨ (List.range l.size).any (fun i
        => s.poisoned (l.addr + i)) = true) ∧ l.ctx.exl = false ∧ e.st = .run),
    decide (n < 192 ∧ e.loads[0]? = some l ∧ l.seam = none ∧ l.bad = false ∧ pocket l.addr l.size ∧ (l.size = 1
        ∨ l.size = 2 ∨ l.size = 4 ∨ l.size = 16) ∧ e.stores.take l.after = [x] ∧ x.addr ≤ l.addr ∧ l.addr + l.size ≤
        x.addr + x.bytes.length),
    decide (n < 192 ∧ e.loads[0]? = some l ∧ l.seam = none ∧ l.bad = false ∧ pocket l.addr l.size ∧ (l.size = 1
        ∨ l.size = 2 ∨ l.size = 4 ∨ l.size = 16) ∧ e.stores.take l.after = [x] ∧ x.addr ≤ l.addr ∧ l.addr + l.size ≤
        x.addr + x.bytes.length ∧ l.vec = true),
    decide (n < 192 ∧ e.loads[0]? = some l ∧ l.seam = none ∧ l.bad = false ∧ pocket l.addr l.size ∧ (l.size = 1
        ∨ l.size = 2 ∨ l.size = 4 ∨ l.size = 16) ∧ e.stores.take l.after = [x] ∧ x.addr ≤ l.addr ∧ l.addr + l.size ≤
        x.addr + x.bytes.length ∧ l.vec = false ∧ l.signed = false),
    decide (n < 192 ∧ e.loads[0]? = some l ∧ l.seam = none ∧ l.bad = false ∧ pocket l.addr l.size ∧ (l.size = 1
        ∨ l.size = 2 ∨ l.size = 4 ∨ l.size = 16) ∧ e.stores.take l.after = [x] ∧ x.addr ≤ l.addr ∧ l.addr + l.size ≤
        x.addr + x.bytes.length ∧ l.vec = false ∧ l.signed = true ∧ l.size = 1),
    decide (n < 192 ∧ e.loads[0]? = some l ∧ l.seam = none ∧ l.bad = false ∧ pocket l.addr l.size ∧ (l.size = 1
        ∨ l.size = 2 ∨ l.size = 4 ∨ l.size = 16) ∧ e.stores.take l.after = [x] ∧ x.addr ≤ l.addr ∧ l.addr + l.size ≤
        x.addr + x.bytes.length ∧ l.vec = false ∧ l.signed = true ∧ l.size = 2),
    decide (n < 192 ∧ e.loads.length ≤ k),
    decide (n < 192 ∧ e.stores[0]? = some x ∧ e.loads = [] ∧ pocket x.addr x.bytes.length),
    decide (n < 192 ∧ e.stores.length ≤ k) ]

theorem witness_LoadsReturnAndStoresLand_0 : met (hypsLoadsReturnAndStoresLand
    ({ State.reset with engs := ⟨[(0, { Engine.init with loads := [⟨4935272501911, 8589998032, 2, true, false, 2, none, 0, false, ctxOf Engine.init⟩] })]⟩ }) (0) (1) (⟨4935272501911, 8589998032, 2, true, false, 2, none, 0, false, ctxOf Engine.init⟩) (⟨0, []⟩) (false)) [0, 4, 11, 13] = true := by
  decide +kernel

theorem witness_LoadsReturnAndStoresLand_1 : met (hypsLoadsReturnAndStoresLand
    ({ State.reset with engs := ⟨[(0, { Engine.init with loads := [⟨205993003183707, 8589957258, 16, true, true, 20, none, 1, false, ctxOf Engine.init⟩], stores := [⟨8589957258, [128, 67, 53, 190, 123, 3, 250, 59, 16, 213, 70, 168, 21, 62, 240, 103, 121, 169, 83, 43]⟩] })]⟩ }) (0) (0) (⟨205993003183707, 8589957258, 16, true, true, 20, none, 1, false, ctxOf Engine.init⟩) (⟨8589957258, [128, 67, 53, 190, 123, 3, 250, 59, 16, 213, 70, 168, 21, 62, 240, 103, 121, 169, 83, 43]⟩) (false)) [6, 7] = true := by
  decide +kernel

theorem witness_LoadsReturnAndStoresLand_2 : met (hypsLoadsReturnAndStoresLand
    ({ State.reset with engs := ⟨[(0, { Engine.init with stores := [⟨8589986600, [149, 112, 137, 53, 112, 238, 84, 51, 39, 132, 90, 203, 174, 236, 130, 46, 214, 246, 167, 235]⟩] })]⟩ }) (0) (0) (⟨0, 0, 0, false, false, 0, none, 0, false, (ctxOf Engine.init)⟩) (⟨8589986600, [149, 112, 137, 53, 112, 238, 84, 51, 39, 132, 90, 203, 174, 236, 130, 46, 214, 246, 167, 235]⟩) (false)) [12] = true := by
  decide +kernel

theorem witness_LoadsReturnAndStoresLand_3 : met (hypsLoadsReturnAndStoresLand
    ({ State.reset with engs := ⟨[(0, { Engine.init with st := (EngSt.run), loads := [⟨10396732058747, 8589941453, 16, false, true, 4, none, 1, false, ctxOf Engine.init⟩] })]⟩ }) (0) (0) (⟨10396732058747, 8589941453, 16, false, true, 4, none, 1, false, ctxOf Engine.init⟩) (⟨0, []⟩) (true)) [5] = true := by
  decide +kernel

theorem witness_LoadsReturnAndStoresLand_4 : met (hypsLoadsReturnAndStoresLand
    ({ State.reset with engs := ⟨[(0, { Engine.init with loads := [⟨15392953307537, 8589985146, 4, false, false, 27, none, 0, false, ctxOf Engine.init⟩] })]⟩ }) (0) (0) (⟨15392953307537, 8589985146, 4, false, false, 27, none, 0, false, ctxOf Engine.init⟩) (⟨0, []⟩) (false)) [2] = true := by
  decide +kernel

theorem witness_LoadsReturnAndStoresLand_5 : met (hypsLoadsReturnAndStoresLand
    ({ State.reset with engs := ⟨[(0, { Engine.init with loads := [⟨219375569772753, 8589951375, 1, true, false, 21, none, 1, false, ctxOf Engine.init⟩] })]⟩ }) (0) (0) (⟨219375569772753, 8589951375, 1, true, false, 21, none, 1, false, ctxOf Engine.init⟩) (⟨0, []⟩) (false)) [3] = true := by
  decide +kernel

theorem witness_LoadsReturnAndStoresLand_6 : met (hypsLoadsReturnAndStoresLand
    ({ State.reset with engs := ⟨[(0, { Engine.init with loads := [⟨136864707281587, 8589986124, 2, true, false, 7, none, 1, false, ctxOf Engine.init⟩], stores := [⟨8589986123, [252, 83, 183, 81, 8, 71, 174, 119, 87, 254, 76, 228, 115, 200, 71, 93, 167, 41, 228, 233]⟩] })]⟩ }) (0) (0) (⟨136864707281587, 8589986124, 2, true, false, 7, none, 1, false, ctxOf Engine.init⟩) (⟨8589986123, [252, 83, 183, 81, 8, 71, 174, 119, 87, 254, 76, 228, 115, 200, 71, 93, 167, 41, 228, 233]⟩) (false)) [10] = true := by
  decide +kernel

theorem witness_LoadsReturnAndStoresLand_7 : met (hypsLoadsReturnAndStoresLand
    ({ State.reset with engs := ⟨[(0, { Engine.init with loads := [⟨174121768804975, 8589996024, 1, false, false, 6, none, 1, false, ctxOf Engine.init⟩], stores := [⟨8589996023, [235, 12, 64, 251, 178, 193, 177, 129, 0, 194, 78, 158, 192, 80, 102, 3, 19, 35, 168, 61]⟩] })]⟩ }) (0) (0) (⟨174121768804975, 8589996024, 1, false, false, 6, none, 1, false, ctxOf Engine.init⟩) (⟨8589996023, [235, 12, 64, 251, 178, 193, 177, 129, 0, 194, 78, 158, 192, 80, 102, 3, 19, 35, 168, 61]⟩) (false)) [8] = true := by
  decide +kernel

theorem witness_LoadsReturnAndStoresLand_8 : met (hypsLoadsReturnAndStoresLand
    ({ State.reset with engs := ⟨[(0, { Engine.init with loads := [⟨127409139113168, 8589985685, 1, true, false, 10, none, 1, false, ctxOf Engine.init⟩], stores := [⟨8589985685, [162, 97, 171, 143, 230, 38, 133, 234, 66, 222, 141, 9, 57, 51, 68, 97, 106, 41, 229, 56]⟩] })]⟩ }) (0) (0) (⟨127409139113168, 8589985685, 1, true, false, 10, none, 1, false, ctxOf Engine.init⟩) (⟨8589985685, [162, 97, 171, 143, 230, 38, 133, 234, 66, 222, 141, 9, 57, 51, 68, 97, 106, 41, 229, 56]⟩) (false)) [9] = true := by
  decide +kernel

theorem witness_LoadsReturnAndStoresLand_9 : met (hypsLoadsReturnAndStoresLand
    ({ State.reset with engs := ⟨[(0, { Engine.init with loads := [⟨118560417494936, 8589948844, 16, false, true, 18, none, 1, false, ctxOf Engine.init⟩] })]⟩ }) (0) (0) (⟨118560417494936, 8589948844, 16, false, true, 18, none, 1, false, ctxOf Engine.init⟩) (⟨0, []⟩) (false)) [1] = true := by
  decide +kernel

/-- The hypotheses of the clauses of `Obligations.DmaIssueAndWait`. -/
def hypsDmaIssueAndWait (s : State) (n rd ra rs ticket : Nat) (off : BitVec 14) : List Bool :=
  let e := s.eng n
  let a := (s.a n ra + off.signExtend 48 * 32).toNat
  let pocket := s.bit (Reg.TST_RETCTL (n / 16)) F.TST_RETCTL_Retained = false ∧ 0x200000000 + 0x10000 * n ≤ a ∧
      a < 0x200000000 + 0x10000 * (n + 1)
  let w := fun (k : Nat) => s.word (a + 4 * k)
  let legal := (w 1).toNat < 2 ^ 16 ∧ (w 3).toNat < 2 ^ 18 ∧ (w 4).toNat ≠ 0 ∧ (w 4).toNat < 2 ^ 24
  let outstanding := (e.dmas.any (fun d => d.ticket = ticket)) = true
  [ decide (n < 192 ∧ rd < 64 ∧ ra < 16 ∧ rs < 64 ∧ readyNow n [rd, 64 + ra] s ∧ e.loads = [] ∧ e.stores = [] ∧
        e.dmas.length < 8 ∧ a % 32 = 0 ∧ pocket ∧ legal),
    decide (n < 192 ∧ rd < 64 ∧ ra < 16 ∧ rs < 64 ∧ readyNow n [rd, 64 + ra] s ∧ e.loads = [] ∧ e.stores = [] ∧
        e.dmas.length < 8 ∧ e.exl = false ∧ a % 32 ≠ 0),
    decide (n < 192 ∧ rd < 64 ∧ ra < 16 ∧ rs < 64 ∧ readyNow n [rd, 64 + ra] s ∧ e.loads = [] ∧ e.stores = [] ∧
        e.dmas.length < 8 ∧ e.exl = false ∧ a % 32 = 0 ∧ (a < 0x200000000 + 0x10000 * n ∨ 0x200000000 + 0x10000 * (n
        + 1) ≤ a)),
    decide (n < 192 ∧ rd < 64 ∧ ra < 16 ∧ rs < 64 ∧ readyNow n [rd, 64 + ra] s ∧ e.loads = [] ∧ e.stores = [] ∧
        e.dmas.length < 8 ∧ e.exl = false ∧ a % 32 = 0 ∧ pocket ∧ ¬ legal),
    decide (n < 192 ∧ rd < 64 ∧ ra < 16 ∧ rs < 64 ∧ readySysNow n [rd, rs] s ∧ (s.g n rs).toNat % 2 ^ 16 =
        ticket ∧ outstanding),
    decide (n < 192 ∧ rd < 64 ∧ ra < 16 ∧ rs < 64 ∧ readySysNow n [rd, rs] s ∧ (s.g n rs).toNat % 2 ^ 16 =
        ticket ∧ ¬ outstanding),
    decide (n < 192 ∧ rd < 64 ∧ ra < 16 ∧ rs < 64 ∧ e.st = .wait ∧ e.wait = .ticket rd ticket ∧ outstanding),
    decide (n < 192 ∧ rd < 64 ∧ ra < 16 ∧ rs < 64 ∧ e.st = .wait ∧ e.wait = .ticket rd ticket ∧ ¬ outstanding ∧
        e.step = 0) ]

theorem witness_DmaIssueAndWait_0 : met (hypsDmaIssueAndWait
    ({ State.reset with regs := [(8388676, 65273857)], mem := [(8589935346, 1)], engs := ⟨[(0, { Engine.init with st := (EngSt.run), g := ⟨[(7, 2)]⟩, a := ⟨[(2, 8590102816)]⟩, pc := 4294967408, icache := [⟨67108865, 0⟩] })]⟩ }) (0) (0) (2) (7) (2) (11150)) [0, 5] = true := by
  decide +kernel

theorem witness_DmaIssueAndWait_1 : met (hypsDmaIssueAndWait
    ({ State.reset with regs := [(8388676, 65273857)], engs := ⟨[(0, { Engine.init with st := (EngSt.run), g := ⟨[(7, 1)]⟩, pc := 4294970188, dmas := [⟨1, [], false, 0, none⟩], icache := [⟨67108909, 0⟩] })]⟩ }) (0) (0) (0) (7) (1) (0)) [2, 4] = true := by
  decide +kernel

theorem witness_DmaIssueAndWait_2 : met (hypsDmaIssueAndWait
    ({ State.reset with engs := ⟨[(0, { Engine.init with st := (EngSt.wait), wait := (EngWait.ticket 23 0) })]⟩ }) (0) (23) (0) (0) (0) (0)) [7] = true := by
  decide +kernel

theorem witness_DmaIssueAndWait_3 : met (hypsDmaIssueAndWait
    ({ State.reset with engs := ⟨[(0, { Engine.init with st := (EngSt.wait), wait := (EngWait.ticket 51 3), dmas := [⟨3, [], false, 0, none⟩] })]⟩ }) (0) (51) (0) (0) (3) (0)) [6] = true := by
  decide +kernel

theorem witness_DmaIssueAndWait_4 : met (hypsDmaIssueAndWait
    ({ State.reset with regs := [(8388676, 65273857)], engs := ⟨[(0, { Engine.init with st := (EngSt.run), a := ⟨[(2, 8590045248)]⟩, pc := 4294970608, icache := [⟨67108915, 0⟩] })]⟩ }) (0) (0) (2) (0) (0) (13165)) [3] = true := by
  decide +kernel

theorem witness_DmaIssueAndWait_5 : met (hypsDmaIssueAndWait
    ({ State.reset with regs := [(8388676, 65273857)], engs := ⟨[(0, { Engine.init with st := (EngSt.run), a := ⟨[(2, 1)]⟩, pc := 4294967860, icache := [⟨67108872, 0⟩] })]⟩ }) (0) (0) (2) (0) (0) (0)) [1] = true := by
  decide +kernel

/-- The hypotheses of the clauses of `Obligations.DmaMovesRowsOrFails`. -/
def hypsDmaMovesRowsOrFails (s : State) (n m : Nat) (d : EngDma) (fresh : List Nat) : List Bool :=
  let e := s.eng n
  let w := fun (k : Nat) => (d.words[k]?.getD 0).toNat
  let src := w 0 + 2 ^ 32 * (w 1 % 2 ^ 16)
  let dst := w 2 + 2 ^ 32 * (w 3 % 2 ^ 16)
  let size := w 4 % 2 ^ 24
  let fill := w 3 / 2 ^ 16 % 2 = 1
  let awake := s.bit (Reg.TST_RETCTL (m / 16)) F.TST_RETCTL_Retained = false
  let inPocket := fun (a : Nat) => 0x200000000 + 0x10000 * m ≤ a ∧ a + size ≤ 0x200000000 + 0x10000 * (m + 1)
  [ decide (n < 192 ∧ m < 192 ∧ e.dmas = []),
    decide (n < 192 ∧ m < 192 ∧ e.dmas[0]? = some d ∧ d.user = false ∧ d.ticket < 2 ^ 16 ∧ w 7 % 2 ^ 16 = 0 ∧
        size ≠ 0 ∧ fill ∧ awake ∧ inPocket dst),
    decide (n < 192 ∧ m < 192 ∧ e.dmas[0]? = some d ∧ d.user = false ∧ d.ticket < 2 ^ 16 ∧ w 7 % 2 ^ 16 = 0 ∧
        size ≠ 0 ∧ fill ∧ awake ∧ inPocket dst ∧ w 3 / 2 ^ 17 % 2 = 0),
    decide (n < 192 ∧ m < 192 ∧ e.dmas[0]? = some d ∧ d.user = false ∧ d.ticket < 2 ^ 16 ∧ w 7 % 2 ^ 16 = 0 ∧
        size ≠ 0 ∧ fill ∧ awake ∧ inPocket dst ∧ w 3 / 2 ^ 17 % 2 = 1),
    decide (n < 192 ∧ m < 192 ∧ e.dmas[0]? = some d ∧ d.user = false ∧ d.ticket < 2 ^ 16 ∧ w 7 % 2 ^ 16 = 0 ∧
        size ≠ 0 ∧ ¬ fill ∧ awake ∧ inPocket src ∧ inPocket dst ∧ (src + size ≤ dst ∨ dst + size ≤ src) ∧
        (List.range size).all (fun i => !s.poisoned (src + i)) = true ∧ (fresh.all (fun a => decide (a < src ∨ src +
        size ≤ a)) = true)),
    decide (n < 192 ∧ m < 192 ∧ e.dmas[0]? = some d ∧ d.user = false ∧ d.ticket < 2 ^ 16 ∧ w 7 % 2 ^ 16 = 0 ∧
        size ≠ 0 ∧ ¬ fill ∧ awake ∧ inPocket src ∧ inPocket dst ∧ (src + size ≤ dst ∨ dst + size ≤ src) ∧
        (List.range size).all (fun i => !s.poisoned (src + i)) = true ∧ (fresh.all (fun a => decide (a < src ∨ src +
        size ≤ a)) = true) ∧ w 3 / 2 ^ 17 % 2 = 0),
    decide (n < 192 ∧ m < 192 ∧ e.dmas[0]? = some d ∧ d.user = false ∧ d.ticket < 2 ^ 16 ∧ w 7 % 2 ^ 16 = 0 ∧
        size ≠ 0 ∧ ¬ fill ∧ awake ∧ inPocket src ∧ inPocket dst ∧ (src + size ≤ dst ∨ dst + size ≤ src) ∧
        (List.range size).all (fun i => !s.poisoned (src + i)) = true ∧ (fresh.all (fun a => decide (a < src ∨ src +
        size ≤ a)) = true) ∧ w 3 / 2 ^ 17 % 2 = 1),
    decide (n < 192 ∧ m < 192 ∧ e.dmas[0]? = some d ∧ d.user = false ∧ d.ticket < 2 ^ 16 ∧ w 7 % 2 ^ 16 = 0 ∧
        size ≠ 0 ∧ fill ∧ 0x200C00000 ≤ dst ∧ dst + size ≤ 0x1000000000) ]

theorem witness_DmaMovesRowsOrFails_0 : met (hypsDmaMovesRowsOrFails
    ({ State.reset with engs := ⟨[(0, { Engine.init with dmas := [⟨64736, [2147483648, 2, 9744, 196610, 61, 35947776, 2147483648, 1989148672], false, 0, none⟩] })]⟩ }) (0) (0) (⟨64736, [2147483648, 2, 9744, 196610, 61, 35947776, 2147483648, 1989148672], false, 0, none⟩) ([])) [1, 3] = true := by
  decide +kernel

theorem witness_DmaMovesRowsOrFails_1 : met (hypsDmaMovesRowsOrFails
    ({ State.reset with engs := ⟨[(0, { Engine.init with dmas := [⟨20150, [3037, 2, 8349, 2, 125, 0, 2206417719, 455344128], false, 0, none⟩] })]⟩ }) (0) (0) (⟨20150, [3037, 2, 8349, 2, 125, 0, 2206417719, 455344128], false, 0, none⟩) ([])) [4, 5] = true := by
  decide +kernel

theorem witness_DmaMovesRowsOrFails_2 : met (hypsDmaMovesRowsOrFails
    (State.reset) (0) (0) (⟨0, [], false, 0, none⟩) ([])) [0] = true := by
  decide +kernel

theorem witness_DmaMovesRowsOrFails_3 : met (hypsDmaMovesRowsOrFails
    ({ State.reset with engs := ⟨[(0, { Engine.init with dmas := [⟨35072, [4294967295, 2, 10263, 65538, 29, 4294967295, 168067585, 3005349888], false, 0, none⟩] })]⟩ }) (0) (0) (⟨35072, [4294967295, 2, 10263, 65538, 29, 4294967295, 168067585, 3005349888], false, 0, none⟩) ([])) [2] = true := by
  decide +kernel

theorem witness_DmaMovesRowsOrFails_4 : met (hypsDmaMovesRowsOrFails
    ({ State.reset with engs := ⟨[(0, { Engine.init with dmas := [⟨54371, [1416672024, 2, 12585585, 196610, 37, 3693993469, 1935672372, 0], false, 0, none⟩] })]⟩ }) (0) (0) (⟨54371, [1416672024, 2, 12585585, 196610, 37, 3693993469, 1935672372, 0], false, 0, none⟩) ([])) [7] = true := by
  decide +kernel

theorem witness_DmaMovesRowsOrFails_5 : met (hypsDmaMovesRowsOrFails
    ({ State.reset with engs := ⟨[(0, { Engine.init with dmas := [⟨62438, [1530, 2, 11402, 131074, 82, 4294967295, 2147483647, 2477588480], false, 0, none⟩] })]⟩ }) (0) (0) (⟨62438, [1530, 2, 11402, 131074, 82, 4294967295, 2147483647, 2477588480], false, 0, none⟩) ([])) [6] = true := by
  decide +kernel

/-- The hypotheses of the clauses of `Obligations.QueueInstructionsPost`. -/
def hypsQueueInstructionsPost (s : State) (n rd ra q : Nat) (ws : List Word) (x y : PostAsk) : List Bool :=
  let e := s.eng n
  let a := (s.a n ra).toNat
  let w := fun (k : Nat) => (ws[k]?.getD 0).toNat
  let own := w 0 / 2 ^ 16 % 8
  let act := if own = 0 then s.fld (Reg.JQ_CTL q) F.JQ_CTL_MissAction else own
  let refused := s.bit (Reg.JQ_CTL q) F.JQ_CTL_Enable = false ∨ 4 < own ∨ w 0 / 2 ^ 22 % 4 ≠ 0 ∨ w 5 / 2 ^ 29 ≠
      0 ∨ act = 4 ∧ w 5 / 2 ^ 28 % 2 = 1 ∨ act = 3 ∧ s.bit (Reg.JQ_CTL (w 5 / 2 ^ 16 % 2 ^ 12)) F.JQ_CTL_Enable =
      false
  let full := ((s.reg (Reg.JQ_TAIL q)) - s.reg (Reg.JQ_HEAD q)).toNat = 2 ^ s.fld (Reg.JQ_RINGCFG q)
      F.JQ_RINGCFG_SizeLog2
  let kept := fun (t : State) => (t.jq q).ents = (s.jq q).ents ∧ t.reg (Reg.JQ_TAIL q) = s.reg (Reg.JQ_TAIL q) ∧
      t.mem = s.mem
  let answers := fun (r : Option Word) (u : State) => (u.eng n).answers = e.answers ++ [EngAnswer.mk rd r] ∧
      (u.eng n).pc = e.pc + 4 ∧ noReg n s u ∧ kept u
  let t := applyPost (PostAsk.mk (.instr n rd) q ws) s
  [ decide (n < 192 ∧ q < 4096 ∧ rd < 64 ∧ ra < 16 ∧ ws = s.words a 16 ∧ a % 64 = 0 ∧ (List.range 64).all (fun i
        => !s.poisoned (a + i)) = true ∧ s.bit (Reg.TST_RETCTL (n / 16)) F.TST_RETCTL_Retained = false ∧ 0x200000000
        + 0x10000 * n ≤ a ∧ a + 64 ≤ 0x200000000 + 0x10000 * (n + 1) ∧ readySysNow n [rd, 64 + ra] s ∧ e.priv = true
        ∧ e.stores = [] ∧ e.answers.length < 4 ∧ 4096 ≤ (s.g n rd).toNat),
    decide (n < 192 ∧ q < 4096 ∧ rd < 64 ∧ ra < 16 ∧ ws = s.words a 16 ∧ a % 64 = 0 ∧ (List.range 64).all (fun i
        => !s.poisoned (a + i)) = true ∧ s.bit (Reg.TST_RETCTL (n / 16)) F.TST_RETCTL_Retained = false ∧ 0x200000000
        + 0x10000 * n ≤ a ∧ a + 64 ≤ 0x200000000 + 0x10000 * (n + 1) ∧ readySysNow n [rd, 64 + ra] s ∧ e.priv = true
        ∧ e.stores = [] ∧ e.answers.length < 4 ∧ (s.g n rd).toNat = q),
    decide (n < 192 ∧ q < 4096 ∧ rd < 64 ∧ ra < 16 ∧ ws = s.words a 16 ∧ a % 64 = 0 ∧ (List.range 64).all (fun i
        => !s.poisoned (a + i)) = true ∧ s.bit (Reg.TST_RETCTL (n / 16)) F.TST_RETCTL_Retained = false ∧ 0x200000000
        + 0x10000 * n ≤ a ∧ a + 64 ≤ 0x200000000 + 0x10000 * (n + 1) ∧ refused),
    decide (n < 192 ∧ q < 4096 ∧ rd < 64 ∧ ra < 16 ∧ ws = s.words a 16 ∧ a % 64 = 0 ∧ (List.range 64).all (fun i
        => !s.poisoned (a + i)) = true ∧ s.bit (Reg.TST_RETCTL (n / 16)) F.TST_RETCTL_Retained = false ∧ 0x200000000
        + 0x10000 * n ≤ a ∧ a + 64 ≤ 0x200000000 + 0x10000 * (n + 1) ∧ ¬ refused ∧ full),
    decide (n < 192 ∧ q < 4096 ∧ rd < 64 ∧ ra < 16 ∧ ws = s.words a 16 ∧ a % 64 = 0 ∧ (List.range 64).all (fun i
        => !s.poisoned (a + i)) = true ∧ s.bit (Reg.TST_RETCTL (n / 16)) F.TST_RETCTL_Retained = false ∧ 0x200000000
        + 0x10000 * n ≤ a ∧ a + 64 ≤ 0x200000000 + 0x10000 * (n + 1) ∧ ¬ refused ∧ ¬ full),
    decide (n < 192 ∧ q < 4096 ∧ rd < 64 ∧ ra < 16 ∧ ws = s.words a 16 ∧ a % 64 = 0 ∧ (List.range 64).all (fun i
        => !s.poisoned (a + i)) = true ∧ s.bit (Reg.TST_RETCTL (n / 16)) F.TST_RETCTL_Retained = false ∧ 0x200000000
        + 0x10000 * n ≤ a ∧ a + 64 ≤ 0x200000000 + 0x10000 * (n + 1) ∧ s.asks.posts = [x, y] ∧ s.clock.tick % 2 = 1) ]

theorem witness_QueueInstructionsPost_0 : met (hypsQueueInstructionsPost
    ({ State.reset with regs := [(8388676, 65273857)], mem := [(8589954880, 77), (8589954881, 140), (8589954882, 41), (8589954883, 37), (8589954884, 255), (8589954885, 255), (8589954886, 255), (8589954887, 127), (8589954888, 255), (8589954889, 193), (8589954890, 191), (8589954891, 191), (8589954896, 255), (8589954897, 255), (8589954898, 255), (8589954899, 127), (8589954904, 28), (8589954905, 201), (8589954906, 25), (8589954907, 242), (8589954908, 64), (8589954910, 129), (8589954911, 154), (8589954912, 4), (8589954913, 52), (8589954914, 80), (8589954915, 32), (8589954916, 158), (8589954917, 9), (8589954918, 113), (8589954919, 232), (8589954920, 203), (8589954921, 217), (8589954922, 191), (8589954923, 254), (8589954924, 255), (8589954925, 255), (8589954926, 255), (8589954927, 255), (8589954928, 49), (8589954929, 58), (8589954930, 128), (8589954931, 98), (8589954932, 143), (8589954933, 100), (8589954934, 146), (8589954935, 39), (8589954936, 189), (8589954937, 4), (8589954938, 96), (8589954939, 165), (8589954943, 128)], clock := { Clock.init with tick := 1 }, engs := ⟨[(0, { Engine.init with st := (EngSt.run), g := ⟨[(7, 1)]⟩, a := ⟨[(2, 8589954880)]⟩, pc := 4294968532, priv := true, icache := [⟨67108883, 0⟩] })]⟩, asks := ⟨[], [⟨(Asker.instr 1 5), 1, [623479885, 2147483647, 3217015295, 0, 2147483647, 0, 4061776156, 2592145472, 542127108, 3899722142, 4273985995, 4294967295, 1652570673, 663905423, 2774533309, 2147483648]⟩, ⟨(Asker.staged (Req.host)), 1, [623479885, 2147483647, 3217015295, 0, 2147483647, 0, 4061776156, 2592145472, 542127108, 3899722142, 4273985995, 4294967295, 1652570673, 663905423, 2774533309, 2147483648]⟩], [], [], []⟩ }) (0) (7) (2) (1) ([623479885, 2147483647, 3217015295, 0, 2147483647, 0, 4061776156, 2592145472, 542127108, 3899722142, 4273985995, 4294967295, 1652570673, 663905423, 2774533309, 2147483648]) (⟨(Asker.instr 1 5), 1, [623479885, 2147483647, 3217015295, 0, 2147483647, 0, 4061776156, 2592145472, 542127108, 3899722142, 4273985995, 4294967295, 1652570673, 663905423, 2774533309, 2147483648]⟩) (⟨(Asker.staged (Req.host)), 1, [623479885, 2147483647, 3217015295, 0, 2147483647, 0, 4061776156, 2592145472, 542127108, 3899722142, 4273985995, 4294967295, 1652570673, 663905423, 2774533309, 2147483648]⟩)) [1, 2, 5] = true := by
  decide +kernel

theorem witness_QueueInstructionsPost_1 : met (hypsQueueInstructionsPost
    ({ State.reset with regs := [(6291456, 1), (8388676, 65273857)], mem := [(8589974595, 128), (8589974596, 26), (8589974597, 156), (8589974598, 130), (8589974599, 137), (8589974600, 205), (8589974601, 226), (8589974602, 74), (8589974603, 253), (8589974608, 26), (8589974609, 155), (8589974610, 207), (8589974611, 52), (8589974612, 1), (8589974614, 1), (8589974615, 16), (8589974620, 161), (8589974621, 192), (8589974622, 242), (8589974623, 159), (8589974624, 255), (8589974625, 255), (8589974626, 255), (8589974627, 127), (8589974628, 186), (8589974629, 75), (8589974630, 231), (8589974631, 100), (8589974632, 163), (8589974633, 254), (8589974634, 46), (8589974635, 243), (8589974640, 255), (8589974641, 255), (8589974642, 255), (8589974643, 255), (8589974644, 255), (8589974645, 255), (8589974646, 255), (8589974647, 255), (8589974648, 37), (8589974649, 221), (8589974650, 167), (8589974651, 18), (8589974652, 85), (8589974653, 4), (8589974654, 171), (8589974655, 183)], engs := ⟨[(0, { Engine.init with st := (EngSt.run), g := ⟨[(7, 65536)]⟩, a := ⟨[(2, 8589974592)]⟩, pc := 4294968240, priv := true, icache := [⟨67108878, 0⟩] })]⟩ }) (0) (7) (2) (0) ([2147483648, 2307038234, 4249543373, 0, 886020890, 268500993, 0, 2683486369, 2147483647, 1692879802, 4079943331, 0, 4294967295, 4294967295, 312991013, 3081438293]) (⟨(Asker.staged (Req.host)), 0, []⟩) (⟨(Asker.staged (Req.host)), 0, []⟩)) [0, 4] = true := by
  decide +kernel

theorem witness_QueueInstructionsPost_2 : met (hypsQueueInstructionsPost
    ({ State.reset with regs := [(6291456, 1), (6291476, 16)], mem := [(8589936068, 49), (8589936069, 201), (8589936070, 79), (8589936071, 220), (8589936072, 140), (8589936073, 150), (8589936074, 37), (8589936075, 233), (8589936091, 128), (8589936092, 43), (8589936093, 186), (8589936094, 217), (8589936095, 137), (8589936096, 16), (8589936097, 104), (8589936098, 251), (8589936099, 148), (8589936107, 128), (8589936108, 179), (8589936109, 235), (8589936110, 75), (8589936111, 131), (8589936116, 236), (8589936117, 105), (8589936118, 127), (8589936119, 116), (8589936120, 255), (8589936121, 255), (8589936122, 255), (8589936123, 255), (8589936124, 32), (8589936125, 22), (8589936126, 48), (8589936127, 1)], engs := ⟨[(0, { Engine.init with a := ⟨[(2, 8589936064)]⟩ })]⟩ }) (0) (0) (2) (0) ([0, 3696216369, 3911554700, 0, 0, 0, 2147483648, 2312747563, 2499504144, 0, 2147483648, 2202790835, 0, 1954507244, 4294967295, 19928608]) (⟨(Asker.staged (Req.host)), 0, []⟩) (⟨(Asker.instr 0 5), 0, []⟩)) [3] = true := by
  decide +kernel

/-- The hypotheses of the clauses of `Obligations.QgetOutcomes`. -/
def hypsQgetOutcomes (s : State) (n rd rs t0 : Nat) (nowait : Bool) : List Bool :=
  let e := s.eng n
  let drain := s.bit (Reg.ME_CTL n) F.ME_CTL_Drain
  [ decide (rd < 64 ∧ rs < 64 ∧ rs % 2 = 0 ∧ readySysNow n [rd, rs, rs + 1] s ∧ e.jobValid = true ∧ e.exl =
        false),
    decide (rd < 64 ∧ rs < 64 ∧ rs % 2 = 0 ∧ readySysNow n [rd, rs, rs + 1] s ∧ e.jobValid = false ∧ drain =
        true),
    decide (rd < 64 ∧ rs < 64 ∧ rs % 2 = 0 ∧ readySysNow n [rd, rs, rs + 1] s ∧ e.jobValid = false ∧ drain =
        false),
    decide (rd < 64 ∧ rs < 64 ∧ rs % 2 = 0 ∧ readySysNow n [rd, rs, rs + 1] s ∧ e.jobValid = false ∧ drain =
        false ∧ s.jobs.qs.cells = []),
    decide (rd < 64 ∧ rs < 64 ∧ rs % 2 = 0 ∧ readySysNow n [rd, rs, rs + 1] s),
    decide (rd < 64 ∧ rs < 64 ∧ rs % 2 = 0 ∧ e.st = .wait ∧ e.wait = .job rd t0 ∧ e.step = 0 ∧ t0 ≠ 0 ∧ t0 ≤
        s.clock.ltEnd),
    decide (rd < 64 ∧ rs < 64 ∧ rs % 2 = 0 ∧ e.st = .wait ∧ e.wait = .job rd t0 ∧ e.step = 0 ∧ (t0 = 0 ∨
        s.clock.ltEnd < t0)) ]

theorem witness_QgetOutcomes_0 : met (hypsQgetOutcomes
    ({ State.reset with regs := [(8388676, 65273857)], engs := ⟨[(0, { Engine.init with st := (EngSt.run), pc := 4294970188, icache := [⟨67108909, 0⟩] })]⟩ }) (0) (0) (0) (0) (false)) [2, 3, 4] = true := by
  decide +kernel

theorem witness_QgetOutcomes_1 : met (hypsQgetOutcomes
    ({ State.reset with engs := ⟨[(0, { Engine.init with st := (EngSt.wait), wait := (EngWait.job 2 0) })]⟩ }) (0) (2) (0) (0) (false)) [6] = true := by
  decide +kernel

theorem witness_QgetOutcomes_2 : met (hypsQgetOutcomes
    ({ State.reset with regs := [(8388608, 3756712903), (8388676, 65273857)], engs := ⟨[(0, { Engine.init with st := (EngSt.run), pc := 4294967408, icache := [⟨67108865, 0⟩] })]⟩ }) (0) (0) (0) (0) (false)) [1] = true := by
  decide +kernel

theorem witness_QgetOutcomes_3 : met (hypsQgetOutcomes
    ({ State.reset with clock := { Clock.init with ltEnd := 18 }, engs := ⟨[(0, { Engine.init with st := (EngSt.wait), wait := (EngWait.job 51 9) })]⟩ }) (0) (51) (0) (9) (false)) [5] = true := by
  decide +kernel

theorem witness_QgetOutcomes_4 : met (hypsQgetOutcomes
    ({ State.reset with regs := [(8388676, 65273857)], engs := ⟨[(0, { Engine.init with st := (EngSt.run), pc := 4294970152, jobValid := true, icache := [⟨67108908, 0⟩] })]⟩ }) (0) (0) (0) (0) (false)) [0] = true := by
  decide +kernel

/-- The hypotheses of the clauses of `Obligations.WaitsAndDeadlines`. -/
def hypsWaitsAndDeadlines (s : State) (n rd rs rt t0 : Nat) (mask : BitVec 16) : List Bool :=
  let e := s.eng n
  let lt := s.clock.lt
  let T := if rs = 0 then 0 else (s.g n rs).toNat + 2 ^ 32 * (s.g n (rs + 1)).toNat
  let m := (s.g n rd).extractLsb' 0 16
  let isOver := fun (x : Nat) => x ≠ 0 ∧ x ≤ lt ∧ s.clock.tick % 2 = 1
  let event := (s.g n rt).toNat % 1024
  [ decide (n < 192 ∧ rd < 64 ∧ rs < 64 ∧ rt < 64 ∧ rs % 2 = 0 ∧ readySysNow n [rd, rs, rs + 1] s ∧ T ≤ lt),
    decide (n < 192 ∧ rd < 64 ∧ rs < 64 ∧ rt < 64 ∧ rs % 2 = 0 ∧ readySysNow n [rd, rs, rs + 1] s ∧ lt < T),
    decide (n < 192 ∧ rd < 64 ∧ rs < 64 ∧ rt < 64 ∧ rs % 2 = 0 ∧ readySysNow n [rd, rs, rs + 1] s ∧ (e.evpend
        &&& m ≠ 0 ∨ isOver T)),
    decide (n < 192 ∧ rd < 64 ∧ rs < 64 ∧ rt < 64 ∧ rs % 2 = 0 ∧ readySysNow n [rd, rs, rs + 1] s ∧ e.evpend &&&
        m = 0 ∧ ¬ isOver T),
    decide (n < 192 ∧ rd < 64 ∧ rs < 64 ∧ rt < 64 ∧ rs % 2 = 0 ∧ readySysNow n [rd, rs, rs + 1] s ∧ T ≠ 0),
    decide (n < 192 ∧ rd < 64 ∧ rs < 64 ∧ rt < 64 ∧ rs % 2 = 0 ∧ readySysNow n [rd, rs, rs + 1] s ∧ T = 0),
    decide (n < 192 ∧ rd < 64 ∧ rs < 64 ∧ rt < 64 ∧ rs % 2 = 0 ∧ readySysNow n [rt] s ∧ e.stores = [] ∧ (event =
        n ∨ 940 ≤ event)),
    decide (n < 192 ∧ rd < 64 ∧ rs < 64 ∧ rt < 64 ∧ rs % 2 = 0 ∧ readySysNow n [rt] s ∧ e.stores = [] ∧ event ≠
        n ∧ event < 940 ∧ e.exl = false),
    decide (n < 192 ∧ rd < 64 ∧ rs < 64 ∧ rt < 64 ∧ rs % 2 = 0 ∧ e.st = .wait ∧ e.step = 0 ∧ e.wait = .time t0 ∧
        t0 ≤ lt),
    decide (n < 192 ∧ rd < 64 ∧ rs < 64 ∧ rt < 64 ∧ rs % 2 = 0 ∧ e.st = .wait ∧ e.step = 0 ∧ e.wait = .time t0 ∧
        lt < t0),
    decide (n < 192 ∧ rd < 64 ∧ rs < 64 ∧ rt < 64 ∧ rs % 2 = 0 ∧ e.st = .wait ∧ e.step = 0 ∧ e.wait = .event rd
        mask t0 ∧ (e.evpend &&& mask ≠ 0 ∨ isOver t0)),
    decide (n < 192 ∧ rd < 64 ∧ rs < 64 ∧ rt < 64 ∧ rs % 2 = 0 ∧ e.st = .wait ∧ e.step = 0 ∧ e.wait = .event rd
        mask t0 ∧ e.evpend &&& mask = 0 ∧ ¬ isOver t0) ]

theorem witness_WaitsAndDeadlines_0 : met (hypsWaitsAndDeadlines
    ({ State.reset with regs := [(8388676, 65273857)], clock := { Clock.init with lt := 1 }, engs := ⟨[(0, { Engine.init with st := (EngSt.run), g := ⟨[(2, 71802888), (58, 1)]⟩, pc := 4294967536, evpend := 14098, icache := [⟨67108867, 0⟩] })]⟩ }) (0) (2) (58) (0) (0) (0)) [0, 2, 4, 6] = true := by
  decide +kernel

theorem witness_WaitsAndDeadlines_1 : met (hypsWaitsAndDeadlines
    ({ State.reset with regs := [(8388676, 65273857)], engs := ⟨[(0, { Engine.init with st := (EngSt.run), g := ⟨[(9, 1)]⟩, pc := 4294970748, icache := [⟨67108917, 0⟩] })]⟩ }) (0) (0) (0) (9) (0) (0)) [3, 5, 7] = true := by
  decide +kernel

theorem witness_WaitsAndDeadlines_2 : met (hypsWaitsAndDeadlines
    ({ State.reset with clock := { Clock.init with tick := 1, lt := 40 }, engs := ⟨[(0, { Engine.init with st := (EngSt.wait), wait := (EngWait.event 12 0xffff#16 24) })]⟩ }) (0) (12) (0) (0) (24) (65535)) [10] = true := by
  decide +kernel

theorem witness_WaitsAndDeadlines_3 : met (hypsWaitsAndDeadlines
    ({ State.reset with regs := [(8388676, 65273857)], engs := ⟨[(0, { Engine.init with st := (EngSt.run), g := ⟨[(8, 1)]⟩, pc := 4294967408, icache := [⟨67108865, 0⟩] })]⟩ }) (0) (0) (8) (0) (0) (0)) [1] = true := by
  decide +kernel

theorem witness_WaitsAndDeadlines_4 : met (hypsWaitsAndDeadlines
    ({ State.reset with engs := ⟨[(0, { Engine.init with st := (EngSt.wait), wait := (EngWait.time 50) })]⟩ }) (0) (0) (0) (0) (50) (0)) [9] = true := by
  decide +kernel

theorem witness_WaitsAndDeadlines_5 : met (hypsWaitsAndDeadlines
    ({ State.reset with clock := { Clock.init with lt := 56 }, engs := ⟨[(0, { Engine.init with st := (EngSt.wait), wait := (EngWait.time 31) })]⟩ }) (0) (0) (0) (0) (31) (0)) [8] = true := by
  decide +kernel

theorem witness_WaitsAndDeadlines_6 : met (hypsWaitsAndDeadlines
    ({ State.reset with engs := ⟨[(0, { Engine.init with st := (EngSt.wait), wait := (EngWait.event 56 0x0000#16 8) })]⟩ }) (0) (56) (0) (0) (8) (0)) [11] = true := by
  decide +kernel

/-- The hypotheses of the clauses of `Obligations.JobsRetireOrReturn`. -/
def hypsJobsRetireOrReturn (s : State) (n rd rs q : Nat) (x : JqEnt) : List Bool :=
  let e := s.eng n
  let w0 := (x.words[0]?.getD 0).toNat
  let retries := w0 / 2 ^ 19 % 8
  let deadline := (x.words[2]?.getD 0).toNat + 2 ^ 32 * (x.words[3]?.getD 0).toNat
  [ decide (n < 192 ∧ rd < 64 ∧ rs < 64 ∧ q < 4096 ∧ (s.jq q).ents.find? (fun y => y.idx = x.idx) = some x ∧
        x.st = .claimed ∧ x.words.length = 16 ∧ s.clock.ltEnd < deadline ∧ readySysNow n [rd, rs] s ∧ e.stores = []
        ∧ e.answers.length < 4 ∧ e.jobValid = true ∧ e.jobQueue = q ∧ e.jobIdx = x.idx ∧ x.missed = false),
    decide (n < 192 ∧ rd < 64 ∧ rs < 64 ∧ q < 4096 ∧ (s.jq q).ents.find? (fun y => y.idx = x.idx) = some x ∧
        x.st = .claimed ∧ x.words.length = 16 ∧ s.clock.ltEnd < deadline ∧ readySysNow n [rd, rs] s ∧ e.stores = []
        ∧ e.answers.length < 4 ∧ e.jobValid = true ∧ e.jobQueue = q ∧ e.jobIdx = x.idx ∧ x.missed = true ∧ (x.action
        = 1 ∨ x.action = 4)),
    decide (n < 192 ∧ rd < 64 ∧ rs < 64 ∧ q < 4096 ∧ (s.jq q).ents.find? (fun y => y.idx = x.idx) = some x ∧
        x.st = .claimed ∧ x.words.length = 16 ∧ s.clock.ltEnd < deadline ∧ readySysNow n [rd, rs] s ∧ e.stores = []
        ∧ e.answers.length < 4 ∧ e.jobValid = true ∧ e.jobQueue = q ∧ e.jobIdx = x.idx ∧ x.missed = true ∧ (x.action
        = 2 ∨ x.action = 3)),
    decide (n < 192 ∧ rd < 64 ∧ rs < 64 ∧ q < 4096 ∧ (s.jq q).ents.find? (fun y => y.idx = x.idx) = some x ∧
        x.st = .claimed ∧ x.words.length = 16 ∧ s.clock.ltEnd < deadline ∧ readySysNow n [rd, rs] s ∧ e.stores = []
        ∧ e.answers.length < 4 ∧ e.jobValid = true ∧ e.jobQueue = q ∧ e.jobIdx = x.idx ∧ x.missed = false ∧ retries
        ≠ 0),
    decide (n < 192 ∧ rd < 64 ∧ rs < 64 ∧ q < 4096 ∧ (s.jq q).ents.find? (fun y => y.idx = x.idx) = some x ∧
        x.st = .claimed ∧ x.words.length = 16 ∧ s.clock.ltEnd < deadline ∧ readySysNow n [rd, rs] s ∧ e.stores = []
        ∧ e.answers.length < 4 ∧ e.jobValid = true ∧ e.jobQueue = q ∧ e.jobIdx = x.idx ∧ x.missed = false ∧ retries
        = 0),
    decide (n < 192 ∧ rd < 64 ∧ rs < 64 ∧ q < 4096 ∧ (s.jq q).ents.find? (fun y => y.idx = x.idx) = some x ∧
        x.st = .claimed ∧ x.words.length = 16 ∧ s.clock.ltEnd < deadline ∧ (e.returns[0]?).map (fun r => (r.parked,
        r.queue, r.idx)) = some (true, q, x.idx)),
    decide (n < 192 ∧ rd < 64 ∧ rs < 64 ∧ q < 4096 ∧ (s.jq q).ents.find? (fun y => y.idx = x.idx) = some x ∧
        x.st = .claimed ∧ x.words.length = 16 ∧ s.clock.ltEnd < deadline ∧ (e.returns[0]?).map (fun r => (r.parked,
        r.queue, r.idx)) = some (false, q, x.idx) ∧ x.missed = false),
    decide (n < 192 ∧ rd < 64 ∧ rs < 64 ∧ q < 4096 ∧ readySysNow n [rd, rs] s ∧ e.stores = [] ∧ e.answers.length
        < 4 ∧ e.jobValid = false ∧ e.exl = false),
    decide (n < 192 ∧ rd < 64 ∧ rs < 64 ∧ q < 4096 ∧ e.returns = []) ]

theorem witness_JobsRetireOrReturn_0 : met (hypsJobsRetireOrReturn
    ({ State.reset with regs := [(8388676, 65273857)], engs := ⟨[(0, { Engine.init with st := (EngSt.run), pc := 4294967408, jobValid := true, jobQueue := 3, icache := [⟨67108865, 0⟩] })]⟩, jobs := { State.reset.jobs with qs := ⟨[(3, { JobQ.init with ents := [⟨0, (JqSt.claimed), 0, 4, false, 0, [0, 3696216369, 100, 1, 0, 0, 2147483648, 2312747563, 2499504144, 0, 2147483648, 2202790835, 0, 1954507244, 4294967295, 19928608]⟩] })]⟩ } }) (0) (0) (0) (3) (⟨0, (JqSt.claimed), 0, 4, false, 0, [0, 3696216369, 100, 1, 0, 0, 2147483648, 2312747563, 2499504144, 0, 2147483648, 2202790835, 0, 1954507244, 4294967295, 19928608]⟩)) [0, 4, 8] = true := by
  decide +kernel

theorem witness_JobsRetireOrReturn_1 : met (hypsJobsRetireOrReturn
    ({ State.reset with regs := [(8388676, 65273857)], engs := ⟨[(0, { Engine.init with st := (EngSt.run), pc := 4294970892, icache := [⟨67108920, 0⟩], returns := [⟨false, 3, 3, 0, false⟩] })]⟩, jobs := { State.reset.jobs with qs := ⟨[(3, { JobQ.init with ents := [⟨3, (JqSt.claimed), 0, 4, false, 0, [2147483647, 1359591902, 100, 0, 285367299, 4294967295, 904616079, 4294967295, 2147483647, 506140513, 4294899163, 3532032518, 3590307477, 2147483648, 3358126865, 4092275146]⟩] })]⟩ } }) (0) (0) (0) (3) (⟨3, (JqSt.claimed), 0, 4, false, 0, [2147483647, 1359591902, 100, 0, 285367299, 4294967295, 904616079, 4294967295, 2147483647, 506140513, 4294899163, 3532032518, 3590307477, 2147483648, 3358126865, 4092275146]⟩)) [6, 7] = true := by
  decide +kernel

theorem witness_JobsRetireOrReturn_2 : met (hypsJobsRetireOrReturn
    ({ State.reset with regs := [(8388676, 65273857)], engs := ⟨[(0, { Engine.init with st := (EngSt.run), pc := 4294970704, jobValid := true, jobQueue := 3, icache := [⟨67108917, 0⟩], returns := [⟨true, 3, 0, 0, false⟩] })]⟩, jobs := { State.reset.jobs with qs := ⟨[(3, { JobQ.init with ents := [⟨0, (JqSt.claimed), 0, 2, true, 0, [2147483647, 0, 100, 0, 2147483647, 2147483648, 0, 2147483648, 4285395454, 0, 4294967295, 2147483648, 1834042112, 2166882308, 757764461, 0]⟩] })]⟩ } }) (0) (0) (0) (3) (⟨0, (JqSt.claimed), 0, 2, true, 0, [2147483647, 0, 100, 0, 2147483647, 2147483648, 0, 2147483648, 4285395454, 0, 4294967295, 2147483648, 1834042112, 2166882308, 757764461, 0]⟩)) [2, 5] = true := by
  decide +kernel

theorem witness_JobsRetireOrReturn_3 : met (hypsJobsRetireOrReturn
    ({ State.reset with regs := [(8388676, 65273857)], engs := ⟨[(0, { Engine.init with st := (EngSt.run), pc := 4294967536, jobValid := true, jobQueue := 3, icache := [⟨67108867, 0⟩] })]⟩, jobs := { State.reset.jobs with qs := ⟨[(3, { JobQ.init with ents := [⟨0, (JqSt.claimed), 0, 1, true, 0, [4291297279, 1513150500, 100, 1, 1162466452, 1263093474, 2908214119, 3687323317, 4294967295, 3441023444, 1673568291, 2276012936, 19950924, 67281957, 2147483647, 753390833]⟩] })]⟩ } }) (0) (0) (0) (3) (⟨0, (JqSt.claimed), 0, 1, true, 0, [4291297279, 1513150500, 100, 1, 1162466452, 1263093474, 2908214119, 3687323317, 4294967295, 3441023444, 1673568291, 2276012936, 19950924, 67281957, 2147483647, 753390833]⟩)) [1] = true := by
  decide +kernel

theorem witness_JobsRetireOrReturn_4 : met (hypsJobsRetireOrReturn
    ({ State.reset with regs := [(8388676, 65273857)], engs := ⟨[(0, { Engine.init with st := (EngSt.run), pc := 4294969172, jobValid := true, jobQueue := 3, jobIdx := 1, icache := [⟨67108893, 0⟩] })]⟩, jobs := { State.reset.jobs with qs := ⟨[(3, { JobQ.init with ents := [⟨1, (JqSt.claimed), 0, 1, false, 0, [4185128212, 1520393463, 100, 0, 0, 1754668571, 4294967295, 3646971849, 4294967295, 4294967295, 2147483647, 2952903481, 2147483647, 4276795387, 0, 2147483647]⟩] })]⟩ } }) (0) (0) (0) (3) (⟨1, (JqSt.claimed), 0, 1, false, 0, [4185128212, 1520393463, 100, 0, 0, 1754668571, 4294967295, 3646971849, 4294967295, 4294967295, 2147483647, 2952903481, 2147483647, 4276795387, 0, 2147483647]⟩)) [3] = true := by
  decide +kernel

/-- The hypotheses of the clauses of `Obligations.JobDelivery`. -/
def hypsJobDelivery (s : State) (c n rd t0 q : Nat) (x : JqEnt) (ue : Bool) : List Bool :=
  let e := s.eng n
  [ decide (n < 192 ∧ q < 4096 ∧ c = n / 16 ∧ (selection c s).map (fun p => (p.1, p.2.queue)) = some (n, q) ∧
        (s.jq q).claimAt ≠ s.clock.tick / 2 + 1 ∧ outranked c q s = false ∧ oldestDeliverable q s = some x ∧
        x.words.length = 16 ∧ anyPoison (entSlot q x.idx s) 64 s = false ∧ e.wait = .job rd t0 ∧ e.step = 0 ∧ x.idx
        ∉ (((s.jq q).ents.filter (· ≠ x)).map (·.idx))),
    decide (n < 192 ∧ q < 4096 ∧ c = n / 16 ∧ (List.range 16).all (fun k => decide ((s.eng (16 * c + k)).st ≠
        .wait)) = true),
    decide (n < 192 ∧ q < 4096 ∧ c = n / 16 ∧ (selection c s).map (fun p => (p.1, p.2.queue)) = some (n, q) ∧
        ((s.jq q).claimAt = s.clock.tick / 2 + 1 ∨ outranked c q s = true)) ]

theorem witness_JobDelivery_0 : met (hypsJobDelivery
    ({ State.reset with regs := [(6292992, 1)], engs := ⟨[(0, { Engine.init with st := (EngSt.wait), wait := (EngWait.job 7 0) })]⟩, jobs := { State.reset.jobs with qs := ⟨[(3, { JobQ.init with ents := [⟨0, (JqSt.posted), 0, 0, false, 0, [0, 0, 1]⟩], claimAt := 1 })]⟩ } }) (0) (0) (0) (0) (3) (⟨0, (JqSt.posted), 0, 0, false, 0, []⟩) (false)) [2] = true := by
  decide +kernel

theorem witness_JobDelivery_1 : met (hypsJobDelivery
    (State.reset) (0) (0) (0) (0) (0) (⟨0, (JqSt.posted), 0, 0, false, 0, []⟩) (false)) [1] = true := by
  decide +kernel

theorem witness_JobDelivery_2 : met (hypsJobDelivery
    ({ State.reset with regs := [(6292992, 1)], engs := ⟨[(0, { Engine.init with st := (EngSt.wait), wait := (EngWait.job 7 0) })]⟩, jobs := { State.reset.jobs with qs := ⟨[(3, { JobQ.init with ents := [⟨1, (JqSt.posted), 0, 3, false, 0, [2147483647, 2147483647, 100, 1302595930, 596296702, 2174251331, 2863628283, 1450693952, 857598453, 3833585621, 193832753, 4294967295, 4294967295, 2147483647, 2147483648, 4294967295]⟩] })]⟩ } }) (0) (0) (7) (0) (3) (⟨1, (JqSt.posted), 0, 3, false, 0, [2147483647, 2147483647, 100, 1302595930, 596296702, 2174251331, 2863628283, 1450693952, 857598453, 3833585621, 193832753, 4294967295, 4294967295, 2147483647, 2147483648, 4294967295]⟩) (false)) [0] = true := by
  decide +kernel

/-- The hypotheses of the clauses of `Obligations.BrokerPrefersUrgentThenNear`. -/
def hypsBrokerPrefersUrgentThenNear (s : State) (n q r : Nat) : List Bool :=
  let offered := fun (x : Nat) => x ∈ s.jobs.qs.cells.map (·.1) ∧ eligible x n s = true
  [ decide (n < 192 ∧ (selectFor n s).map (·.queue) = some q),
    decide (n < 192 ∧ (selectFor n s).map (·.queue) = some q ∧ offered r ∧ jqClass r s = 0),
    decide (n < 192 ∧ (selectFor n s).map (·.queue) = some q ∧ offered r ∧ jqClass q s ≠ 0),
    decide (n < 192 ∧ (selectFor n s).map (·.queue) = some q ∧ offered r ∧ jqClass q s ≠ 0 ∧ levelOf r n s =
        levelOf q n s),
    decide (n < 192 ∧ offered q ∧ jqClass q s ≤ 7) ]

theorem witness_BrokerPrefersUrgentThenNear_0 : met (hypsBrokerPrefersUrgentThenNear
    ({ State.reset with regs := [(6293504, 1)], jobs := { State.reset.jobs with qs := ⟨[(4, { JobQ.init with ents := [⟨0, (JqSt.posted), 0, 0, false, 0, [0, 0, 1]⟩] })]⟩ } }) (0) (4) (4)) [0, 2, 3, 4] = true := by
  decide +kernel

theorem witness_BrokerPrefersUrgentThenNear_1 : met (hypsBrokerPrefersUrgentThenNear
    ({ State.reset with regs := [(6291456, 1), (6291484, 2177411761)], jobs := { State.reset.jobs with qs := ⟨[(0, { JobQ.init with ents := [⟨0, (JqSt.posted), 0, 0, false, 0, [0, 0, 1]⟩] })]⟩ } }) (0) (0) (0)) [1] = true := by
  decide +kernel

/-- The hypotheses of the clauses of `Obligations.QueueHousekeeping`. -/
def hypsQueueHousekeeping (s : State) (q target i : Nat) (req : Req) (x : JqEnt) (ws : List Word) : List Bool :=
  let deadline := (x.words[2]?.getD 0).toNat + 2 ^ 32 * (x.words[3]?.getD 0).toNat
  let passed := deadline ≠ 2 ^ 64 - 1 ∧ deadline ≤ s.clock.ltEnd
  let live := (oldestDeliverable q s).isSome
  let posted := applyPost (PostAsk.mk (.fallback q) target ws) s
  [ decide (q < 4096 ∧ target < 4096 ∧ (s.jq q).ents.find? (fun y => y.idx = x.idx) = some x ∧ x.missed = false
        ∧ (x.st = .claimed ∨ x.st = .posted ∧ oldestPosted q s = some x) ∧ passed),
    decide (q < 4096 ∧ target < 4096 ∧ (s.jq q).ents.find? (fun y => y.idx = x.idx) = some x ∧ x.missed = false
        ∧ (x.st = .claimed ∨ x.st = .posted ∧ oldestPosted q s = some x) ∧ ¬ passed),
    decide (q < 4096 ∧ target < 4096 ∧ live = true ∧ (s.jq q).live = true ∧ (s.jq q).since + 1600 * s.fld
        (Reg.JQ_AGE q) F.JQ_AGE_AgeStep ≤ s.clock.tick),
    decide (q < 4096 ∧ target < 4096 ∧ i < 4),
    decide (q < 4096 ∧ target < 4096 ∧ (s.jobs.falls.find? (fun f => f.origin = q)) = some ⟨q, target, ws⟩),
    decide (q < 4096 ∧ target < 4096 ∧ postRefused target ws s = false ∧ ringHeld (jqTail target s) (jqHead
        target s) ≠ 2 ^ jqSize target s),
    decide (q < 4096 ∧ target < 4096 ∧ postRefused target ws s = true),
    decide (q < 4096 ∧ target < 4096 ∧ (s.jobs.falls.find? (fun f => f.origin = q)) = none) ]

theorem witness_QueueHousekeeping_0 : met (hypsQueueHousekeeping
    ({ State.reset with regs := [(6293020, 0), (6293504, 1)], jobs := { State.reset.jobs with qs := ⟨[(3, { JobQ.init with ents := [⟨0, (JqSt.posted), 0, 2, false, 0, [2147483648, 2307038234, 19, 0, 886020890, 0, 0, 2683486369, 2147483647, 1692879802, 4079943331, 0, 4294967295, 4294967295, 312991013, 3081438293]⟩], live := true })]⟩, falls := [⟨3, 4, [2147483648, 2307038234, 19, 0, 886020890, 0, 0, 2683486369, 2147483647, 1692879802, 4079943331, 0, 4294967295, 4294967295, 312991013, 3081438293]⟩] } }) (3) (4) (0) ((Req.engine 3)) (⟨0, (JqSt.posted), 0, 2, false, 0, [2147483648, 2307038234, 19, 0, 886020890, 0, 0, 2683486369, 2147483647, 1692879802, 4079943331, 0, 4294967295, 4294967295, 312991013, 3081438293]⟩) ([2147483648, 2307038234, 19, 0, 886020890, 0, 0, 2683486369, 2147483647, 1692879802, 4079943331, 0, 4294967295, 4294967295, 312991013, 3081438293])) [1, 2, 3, 4, 5] = true := by
  decide +kernel

theorem witness_QueueHousekeeping_1 : met (hypsQueueHousekeeping
    ({ State.reset with clock := { Clock.init with ltEnd := 27 }, jobs := { State.reset.jobs with qs := ⟨[(3, { JobQ.init with ents := [⟨1, (JqSt.claimed), 0, 1, false, 0, [2131787090, 1180192, 18, 0, 2147483648, 0, 0, 4294827519, 2147483647, 2066609564, 398352, 2147483647, 0, 4294967295, 3153251174, 4294967295]⟩] })]⟩ } }) (3) (0) (0) ((Req.engine 3)) (⟨1, (JqSt.claimed), 0, 1, false, 0, [2131787090, 1180192, 18, 0, 2147483648, 0, 0, 4294827519, 2147483647, 2066609564, 398352, 2147483647, 0, 4294967295, 3153251174, 4294967295]⟩) ([])) [0, 6, 7] = true := by
  decide +kernel

/-- The hypotheses of the clauses of `Obligations.ArmingRequests`. -/
def hypsArmingRequests (s : State) (n tg rd vs k : Nat) (v : Word) (r : Arm) (who : Asker) (x y : ArmAsk) : List Bool :=
  let T := s.target tg
  let slot := T.slots.findIdx? (fun sl => slotFree s sl)
  let ctl := (actingCfg tg s).2
  let beyond := ((s.encNow r.enc).est - BitVec.ofNat 40 r.value).toInt
  let late := if r.position = true then r.dir = 0 ∧ 0 ≤ beyond ∨ r.dir = 1 ∧ beyond ≤ 0 else r.value ≤
      s.clock.lt
  let takes := F.CQ_TCTL_Mode.get ctl = 2 ∧ (late ∨ s.fld (Reg.CQ_TCTL tg) F.CQ_TCTL_Mode = 2)
  let sl := Slot.mk .armed r.position r.value r.enc r.dir r.delay r.action r.armedBy s.clock.tick
  let asks := fun (i : Instr) (a : ArmAsk) (q : State → Prop) => ∃ u, exec i s = .next u ∧ u.asks = { s.asks
      with arms := s.asks.arms ++ [a] } ∧ q u
  let word := fun (j : Nat) => ((s.v n vs).extractLsb' (32 * j) 32).toNat
  let value := word 0 + 2 ^ 32 * word 1
  let dir := word 2 / 2 ^ 26 % 4
  let delay := word 2 % 2 ^ 24
  let action := word 2 / 2 ^ 24 % 4
  let staged := (s.reg (Reg.CQ_ARM_VLO tg)).toNat + 2 ^ 32 * (s.reg (Reg.CQ_ARM_VLO tg + 4)).toNat
  [ decide (n < 192 ∧ tg < 1024 ∧ rd < 64 ∧ vs < 32 ∧ readySysNow n [regV vs, rd] s ∧ (s.eng n).answers.length <
        4 ∧ word 3 % 1024 = tg),
    decide (n < 192 ∧ tg < 1024 ∧ rd < 64 ∧ vs < 32 ∧ s.asks.arms = [x, y]),
    decide (n < 192 ∧ tg < 1024 ∧ rd < 64 ∧ vs < 32 ∧ (who = .instr n rd ∨ who = .staged .host) ∧ takes ∧ slot =
        some k ∧ ¬ late),
    decide (n < 192 ∧ tg < 1024 ∧ rd < 64 ∧ vs < 32 ∧ (who = .instr n rd ∨ who = .staged .host) ∧ takes ∧ slot =
        some k ∧ ¬ late ∧ who = .instr n rd),
    decide (n < 192 ∧ tg < 1024 ∧ rd < 64 ∧ vs < 32 ∧ (who = .instr n rd ∨ who = .staged .host) ∧ takes ∧ slot =
        some k ∧ late ∧ F.CQ_TCTL_LatePolicy.get ctl = 0),
    decide (n < 192 ∧ tg < 1024 ∧ rd < 64 ∧ vs < 32 ∧ (who = .instr n rd ∨ who = .staged .host) ∧ takes ∧ slot =
        some k ∧ late ∧ F.CQ_TCTL_LatePolicy.get ctl = 0 ∧ who = .instr n rd),
    decide (n < 192 ∧ tg < 1024 ∧ rd < 64 ∧ vs < 32 ∧ (who = .instr n rd ∨ who = .staged .host) ∧ takes ∧ slot =
        some k ∧ late ∧ F.CQ_TCTL_LatePolicy.get ctl = 1),
    decide (n < 192 ∧ tg < 1024 ∧ rd < 64 ∧ vs < 32 ∧ (who = .instr n rd ∨ who = .staged .host) ∧ takes ∧ slot =
        some k ∧ late ∧ F.CQ_TCTL_LatePolicy.get ctl = 1 ∧ who = .instr n rd),
    decide (n < 192 ∧ tg < 1024 ∧ rd < 64 ∧ vs < 32 ∧ (who = .instr n rd ∨ who = .staged .host) ∧ (¬ takes ∨
        slot = none)),
    decide (n < 192 ∧ tg < 1024 ∧ rd < 64 ∧ vs < 32 ∧ (who = .instr n rd ∨ who = .staged .host) ∧ (¬ takes ∨
        slot = none) ∧ who = .instr n rd) ]

theorem witness_ArmingRequests_0 : met (hypsArmingRequests
    ({ State.reset with regs := [(1114116, 2147483650), (8388676, 65273857)], engs := ⟨[(0, { Engine.init with st := (EngSt.run), pc := 4294969816, icache := [⟨67108903, 0⟩] })]⟩, asks := ⟨[⟨(Asker.staged (Req.host)), 0, ⟨true, 20, 5, 0, 23, 1, 0⟩⟩, ⟨(Asker.staged (Req.host)), 0, ⟨true, 20, 5, 0, 23, 1, 0⟩⟩], [], [], [], []⟩ }) (0) (0) (6) (0) (0) (0) (⟨false, 0, 0, 0, 0, 0, 0⟩) ((Asker.instr 0 6)) (⟨(Asker.staged (Req.host)), 0, ⟨true, 20, 5, 0, 23, 1, 0⟩⟩) (⟨(Asker.staged (Req.host)), 0, ⟨true, 20, 5, 0, 23, 1, 0⟩⟩)) [0, 1, 4, 5] = true := by
  decide +kernel

theorem witness_ArmingRequests_1 : met (hypsArmingRequests
    (State.reset) (0) (0) (5) (0) (0) (0) (⟨false, 0, 0, 0, 0, 0, 0⟩) ((Asker.instr 0 5)) (⟨(Asker.staged (Req.host)), 0, ⟨false, 0, 0, 0, 0, 0, 0⟩⟩) (⟨(Asker.staged (Req.host)), 0, ⟨false, 0, 0, 0, 0, 0, 0⟩⟩)) [8, 9] = true := by
  decide +kernel

theorem witness_ArmingRequests_2 : met (hypsArmingRequests
    ({ State.reset with regs := [(1171844, 2147483646)], cue := { State.reset.cue with targets := ⟨[(902, { Target.init with slots := [{ Slot.init with st := (SlotSt.armed) }, { Slot.init with st := (SlotSt.armed) }, Slot.init] })]⟩ } }) (0) (902) (5) (0) (2) (0) (⟨false, 1, 0, 0, 0, 0, 0⟩) ((Asker.instr 0 5)) (⟨(Asker.instr 2 5), 0, ⟨false, 0, 0, 0, 0, 0, 0⟩⟩) (⟨(Asker.instr 2 5), 0, ⟨false, 0, 0, 0, 0, 0, 0⟩⟩)) [2, 3] = true := by
  decide +kernel

theorem witness_ArmingRequests_3 : met (hypsArmingRequests
    ({ State.reset with regs := [(1171844, 3856166270)], cue := { State.reset.cue with targets := ⟨[(902, { Target.init with slots := [{ Slot.init with st := (SlotSt.armed) }, { Slot.init with st := (SlotSt.inFlight) }, Slot.init] })]⟩ } }) (0) (902) (5) (0) (2) (0) (⟨false, 0, 0, 0, 0, 0, 0⟩) ((Asker.instr 0 5)) (⟨(Asker.staged (Req.host)), 0, ⟨false, 0, 0, 0, 0, 0, 0⟩⟩) (⟨(Asker.staged (Req.host)), 0, ⟨false, 0, 0, 0, 0, 0, 0⟩⟩)) [6, 7] = true := by
  decide +kernel

/-- The hypotheses of the clauses of `Obligations.CueSlotsAndEffects`. -/
def hypsCueSlotsAndEffects (s : State) (n tg rd rs k i : Nat) (v : Word) (sl : Slot) (recs : List CapRec) (fs : List Flight) : List Bool :=
  let T := s.target tg
  let p := ((s.encNow sl.enc).prevEst - BitVec.ofNat 40 sl.value).toInt
  let c := ((s.encNow sl.enc).est - BitVec.ofNat 40 sl.value).toInt
  let up := p < 0 ∧ 0 ≤ c
  let down := 0 < p ∧ c ≤ 0
  let met := if sl.position = true then (if sl.dir = 0 then up else if sl.dir = 1 then down else up ∨ down) else
      sl.value ≤ s.clock.lt
  let w := (s.g n rs).toNat
  let u := tg - 896
  let oldest := (s.eng n).answers.head?.getD (EngAnswer.mk 0 none)
  [ decide (n < 192 ∧ tg < 1024 ∧ rd < 64 ∧ rs < 64 ∧ T.slots[k]? = some sl ∧ sl.st = .armed ∧ sl.due <
        s.clock.tick ∧ met),
    decide (n < 192 ∧ tg < 1024 ∧ rd < 64 ∧ rs < 64 ∧ T.slots[k]? = some sl ∧ sl.st = .armed ∧ sl.due <
        s.clock.tick ∧ ¬ met),
    decide (n < 192 ∧ tg < 1024 ∧ rd < 64 ∧ rs < 64 ∧ readySysNow n [rs, rd] s ∧ (s.eng n).answers.length < 4 ∧
        w % 1024 = tg),
    decide (n < 192 ∧ tg < 1024 ∧ rd < 64 ∧ rs < 64 ∧ oldest.val.isSome = true),
    decide (n < 192 ∧ tg < 1024 ∧ rd < 64 ∧ rs < 64 ∧ oldest.val = none),
    decide (n < 192 ∧ tg < 1024 ∧ rd < 64 ∧ rs < 64 ∧ fs = effectsNow tg s ∧ fs ≠ []),
    decide (n < 192 ∧ tg < 1024 ∧ rd < 64 ∧ rs < 64 ∧ recs = s.capFifo u ∧ F.CQ_CAP_POP_Pop.get v = 1),
    decide (n < 192 ∧ tg < 1024 ∧ rd < 64 ∧ rs < 64 ∧ (s.cue.taps.get [] i).any (fun f => f.due = s.clock.tick)
        = true) ]

theorem witness_CueSlotsAndEffects_0 : met (hypsCueSlotsAndEffects
    ({ State.reset with regs := [(8388676, 65273857)], clock := { Clock.init with tick := 100 }, cue := { State.reset.cue with targets := ⟨[(898, { Target.init with slots := [{ Slot.init with st := (SlotSt.armed), value := 44, dir := 1, delay := 5, action := 1, due := 56 }], flights := [⟨none, 10, 0, 100, 1, none, 9, 2, 5, 77⟩] })]⟩, caps := ⟨[(2, [⟨0, 1, 2, 3⟩])]⟩, taps := ⟨[(3, [⟨none, 0, 0, 100, 0, none, 0, 0, 0, 0⟩])]⟩ }, engs := ⟨[(0, { Engine.init with st := (EngSt.run), g := ⟨[(4, 459650)]⟩, pc := 4294968552, answers := [⟨0, some (0)⟩], icache := [⟨67108883, 0⟩] })]⟩ }) (0) (898) (0) (4) (0) (3) (1) ({ Slot.init with st := (SlotSt.armed), value := 44, dir := 1, delay := 5, action := 1, due := 56 }) ([⟨0, 1, 2, 3⟩]) ([⟨none, 10, 0, 100, 1, none, 9, 2, 5, 77⟩])) [1, 2, 3, 5, 6, 7] = true := by
  decide +kernel

theorem witness_CueSlotsAndEffects_1 : met (hypsCueSlotsAndEffects
    ({ State.reset with clock := { Clock.init with tick := 64, lt := 24 }, cue := { State.reset.cue with targets := ⟨[(0, { Target.init with slots := [Slot.init, Slot.init, Slot.init, { Slot.init with st := (SlotSt.armed), value := 4, dir := 1, delay := 5, action := 1, due := 27 }] })]⟩ } }) (0) (0) (0) (0) (3) (0) (0) ({ Slot.init with st := (SlotSt.armed), value := 4, dir := 1, delay := 5, action := 1, due := 27 }) ([]) ([])) [0, 4] = true := by
  decide +kernel

/-- The hypotheses of the clauses of `Obligations.EngineTimersAndFaults`. -/
def hypsEngineTimersAndFaults (s : State) (n tg line way rd rs rt : Nat) (ue : Bool) : List Bool :=
  let e := s.eng n
  let fires := e.ctArmed = true ∧ e.ctVal ≤ s.clock.lt ∧ e.ctTick ≠ s.clock.tick
  let watch := e.dlArmed = true ∧ e.jobValid = true ∧ e.dl ≤ s.clock.ltEnd
  let limit := s.bit (Reg.ME_CTL n) F.ME_CTL_WdogEnable = true ∧ e.st = .run ∧ 1600 * s.fld (Reg.ME_WDOG n)
      F.ME_WDOG_WdogLimit ≤ e.wdogTick
  [ decide (n < 192 ∧ tg < 1024 ∧ fires),
    decide (n < 192 ∧ tg < 1024 ∧ ¬ fires),
    decide (n < 192 ∧ tg < 1024 ∧ watch),
    decide (n < 192 ∧ tg < 1024 ∧ ¬ watch),
    decide (n < 192 ∧ tg < 1024 ∧ limit ∧ e.flt = none),
    decide (n < 192 ∧ tg < 1024 ∧ limit ∧ e.flt = none ∧ 3 = 3),
    decide (n < 192 ∧ tg < 1024 ∧ ¬ limit),
    decide (n < 192 ∧ tg < 1024 ∧ (e.st = .run ∨ e.st = .wait ∨ e.st = .halted ∨ e.st = .parked) ∧ e.flt = none),
    decide (n < 192 ∧ tg < 1024 ∧ (e.st = .run ∨ e.st = .wait ∨ e.st = .halted ∨ e.st = .parked) ∧ e.flt = none
        ∧ 2 = 3),
    decide (n < 192 ∧ tg < 1024 ∧ executable (regionOf (64 * line) s) = true ∧ anyPoison (64 * line) 64 s =
        false ∧ way < 4 ∧ frozenIn (64 * line) 64 s = false ∧ s.fld (Reg.ME_CTL n) F.ME_CTL_LockWays ≤ way ∧ cached
        n (64 * line) s = false),
    decide (n < 192 ∧ tg < 1024 ∧ cached n (64 * line) s = true),
    decide (n < 192 ∧ tg < 1024 ∧ rd < 64 ∧ rs < 64 ∧ rt < 64 ∧ readyNow n [rd, rs, rt] (fetchLine n e.pc.toNat
        s) ∧ fetchCause n e.pc.toNat s = none ∧ frozenIn (e.pc.toNat / 64 * 64) 64 s = false) ]

theorem witness_EngineTimersAndFaults_0 : met (hypsEngineTimersAndFaults
    ({ State.reset with regs := [(8388608, 4277133311), (8388644, 0), (8388676, 65273857)], engs := ⟨[(0, { Engine.init with st := (EngSt.run), pc := 4294968420, icache := [⟨67108928, 0⟩] })]⟩ }) (0) (0) (67108928) (0) (0) (0) (0) (false)) [1, 3, 4, 5, 7, 10, 11] = true := by
  decide +kernel

theorem witness_EngineTimersAndFaults_1 : met (hypsEngineTimersAndFaults
    ({ State.reset with engs := ⟨[(0, { Engine.init with dlArmed := true, ctArmed := true, ctTick := 1, jobValid := true })]⟩ }) (0) (0) (67108928) (0) (0) (0) (0) (false)) [0, 2, 6, 9] = true := by
  decide +kernel

/-- The hypotheses of the clauses of `Obligations.EngineControl`. -/
def hypsEngineControl (s : State) (n b : Nat) (v : Word) : List Bool :=
  let e := s.eng n
  let noOther := F.ME_CTL_Start.get v = 0 ∧ F.ME_CTL_Reset.get v = 0 ∧ F.ME_CTL_ForceFault.get v = 0 ∧
      F.ME_CTL_Unlock.get v = 0 ∧ (F.ME_CTL_Drain.get v = 0 ∨ e.wait = .none)
  let noDbg := F.ME_DBGCTL_Halt.get v = 0 ∧ F.ME_DBGCTL_Step.get v = 0 ∧ F.ME_DBGCTL_Resume.get v = 0
  let unlocked := s.fld Reg.MNT_STATUS F.MNT_STATUS_DebugScope % 2 = 1
  let startable := e.st = .held ∨ e.st = .parked
  let active := e.st = .run ∨ e.st = .wait
  let here := (s.reg (Reg.ME_BKPT_LO n b)).toNat + 2 ^ 32 * s.fld (Reg.ME_BKPT_HI n b) F.ME_BKPT_HI_AddrHi
  [ decide (n < 192 ∧ noOther ∧ startable),
    decide (n < 192 ∧ noOther ∧ ¬ startable),
    decide (n < 192 ∧ noOther ∧ e.flt = none),
    decide (n < 192 ∧ noOther),
    decide (n < 192 ∧ noOther ∧ e.flt ≠ none),
    decide (n < 192 ∧ noDbg ∧ unlocked ∧ active),
    decide (n < 192 ∧ noDbg ∧ unlocked ∧ ¬ active),
    decide (n < 192 ∧ noDbg ∧ unlocked ∧ e.st = .halted),
    decide (n < 192 ∧ noDbg ∧ unlocked ∧ e.st ≠ .halted),
    decide (n < 192 ∧ ¬ unlocked),
    decide (n < 192 ∧ b < 4 ∧ e.st = .run ∧ e.passed = false ∧ s.bit (Reg.ME_BKPT_HI n b) F.ME_BKPT_HI_BkEnable
        = true ∧ e.pc.toNat = here ∧ s.bit (Reg.ME_DBGCTL n) F.ME_DBGCTL_Attached = true),
    decide (n < 192 ∧ b < 4 ∧ e.st = .run ∧ e.passed = false ∧ s.bit (Reg.ME_BKPT_HI n b) F.ME_BKPT_HI_BkEnable
        = true ∧ e.pc.toNat = here ∧ s.bit (Reg.ME_DBGCTL n) F.ME_DBGCTL_Attached = false ∧ e.exl = false) ]

theorem witness_EngineControl_0 : met (hypsEngineControl
    ({ State.reset with regs := [(196608, 32), (8388896, 2340), (8388900, 65537)], engs := ⟨[(0, { Engine.init with st := (EngSt.run), pc := 4294969636, flt := some (⟨0, 0, 0, 0, 0, 0⟩) })]⟩ }) (0) (2) (0)) [1, 3, 4, 5, 8, 11] = true := by
  decide +kernel

theorem witness_EngineControl_1 : met (hypsEngineControl
    ({ State.reset with regs := [(196608, 32)] }) (0) (0) (0)) [0, 2, 6] = true := by
  decide +kernel

theorem witness_EngineControl_2 : met (hypsEngineControl
    ({ State.reset with regs := [(8388864, 4294967295), (8388896, 1332), (8388900, 65537)], engs := ⟨[(0, { Engine.init with st := (EngSt.run), pc := 4294968628 })]⟩ }) (0) (2) (0)) [9, 10] = true := by
  decide +kernel

theorem witness_EngineControl_3 : met (hypsEngineControl
    ({ State.reset with regs := [(196608, 32)], engs := ⟨[(0, { Engine.init with st := (EngSt.halted) })]⟩ }) (0) (0) (0)) [7] = true := by
  decide +kernel

/-- The hypotheses of the clauses of `Obligations.CountReadsReturnAndClear`. -/
def hypsCountReadsReturnAndClear (s : State) (req : Req) (n c k : Nat) : List Bool :=
  [ decide (n < 192),
    decide (c < 12),
    decide (12 ≤ c),
    decide (n < 4) ]

theorem witness_CountReadsReturnAndClear_0 : met (hypsCountReadsReturnAndClear
    (State.reset) ((Req.host)) (0) (13) (0)) [0, 2, 3] = true := by
  decide +kernel

theorem witness_CountReadsReturnAndClear_1 : met (hypsCountReadsReturnAndClear
    (State.reset) ((Req.host)) (0) (0) (0)) [1] = true := by
  decide +kernel

/-- The hypotheses of the clauses of `Obligations.HostPostsAndQueueControl`. -/
def hypsHostPostsAndQueueControl (s : State) (req : Req) (q a : Nat) (ws : List Word) (v : Word) : List Bool :=
  let w := fun (k : Nat) => (ws[k]?.getD 0).toNat
  let own := w 0 / 2 ^ 16 % 8
  let act := if own = 0 then s.fld (Reg.JQ_CTL q) F.JQ_CTL_MissAction else own
  let refused := s.bit (Reg.JQ_CTL q) F.JQ_CTL_Enable = false ∨ 4 < own ∨ w 0 / 2 ^ 22 % 4 ≠ 0 ∨ w 5 / 2 ^ 29 ≠
      0 ∨ act = 4 ∧ w 5 / 2 ^ 28 % 2 = 1 ∨ act = 3 ∧ s.bit (Reg.JQ_CTL (w 5 / 2 ^ 16 % 2 ^ 12)) F.JQ_CTL_Enable =
      false
  let full := ((s.reg (Reg.JQ_TAIL q)) - s.reg (Reg.JQ_HEAD q)).toNat = 2 ^ s.fld (Reg.JQ_RINGCFG q)
      F.JQ_RINGCFG_SizeLog2
  let busy := F.JQ_HPOSTRES_Busy.get (s.preg req (Reg.JQ_HPOSTRES q)) = 1
  let addr := (s.preg req (Reg.JQ_HPOST_LO q)).toNat + 2 ^ 32 * (v.toNat % 2 ^ 16)
  [ decide (q < 4096 ∧ addr = a ∧ a % 64 ≠ 0 ∧ ¬ busy),
    decide (q < 4096 ∧ addr = a ∧ a % 64 = 0 ∧ inRingMemory a 64 s = true ∧ (regionOf a s).isAsleep = false ∧
        anyPoison a 64 s = false ∧ ws = s.words a 16 ∧ ¬ busy),
    decide (q < 4096 ∧ busy),
    decide (q < 4096 ∧ refused),
    decide (q < 4096 ∧ ¬ refused ∧ full),
    decide (q < 4096 ∧ ¬ refused ∧ ¬ full) ]

theorem witness_HostPostsAndQueueControl_0 : met (hypsHostPostsAndQueueControl
    ({ State.reset with perReq := ⟨[(0, ⟨[(6292040, 4)]⟩)]⟩ }) ((Req.host)) (1) (0) ([]) (0)) [2, 3] = true := by
  decide +kernel

theorem witness_HostPostsAndQueueControl_1 : met (hypsHostPostsAndQueueControl
    ({ State.reset with regs := [(6291456, 1), (6291476, 16)], perReq := ⟨[(0, ⟨[(6291520, 1472)]⟩)]⟩, mem := [(4294968772, 49), (4294968773, 201), (4294968774, 79), (4294968775, 220), (4294968776, 140), (4294968777, 150), (4294968778, 37), (4294968779, 233), (4294968795, 128), (4294968796, 43), (4294968797, 186), (4294968798, 217), (4294968799, 137), (4294968800, 16), (4294968801, 104), (4294968802, 251), (4294968803, 148), (4294968811, 128), (4294968812, 179), (4294968813, 235), (4294968814, 75), (4294968815, 131), (4294968820, 236), (4294968821, 105), (4294968822, 127), (4294968823, 116), (4294968824, 255), (4294968825, 255), (4294968826, 255), (4294968827, 255), (4294968828, 32), (4294968829, 22), (4294968830, 48), (4294968831, 1)] }) ((Req.host)) (0) (4294968768) ([0, 3696216369, 3911554700, 0, 0, 0, 2147483648, 2312747563, 2499504144, 0, 2147483648, 2202790835, 0, 1954507244, 4294967295, 19928608]) (1)) [1, 4] = true := by
  decide +kernel

theorem witness_HostPostsAndQueueControl_2 : met (hypsHostPostsAndQueueControl
    ({ State.reset with regs := [(6291456, 1)], perReq := ⟨[(0, ⟨[(6291520, 38758)]⟩)]⟩ }) ((Req.host)) (0) (4295006054) ([]) (1)) [0, 5] = true := by
  decide +kernel

/-- The hypotheses of the clauses of `Obligations.StandbyLossLeavesTheClock`. -/
def hypsStandbyLossLeavesTheClock (s : State) (x : Bool) : List Bool :=
  [ decide (s.clock.active ≠ x ∧ (if x = true then s.clock.bValid else s.clock.aValid) = true ∧ x = true),
    decide (s.clock.active ≠ x ∧ (if x = true then s.clock.bValid else s.clock.aValid) = true ∧ x = false) ]

theorem witness_StandbyLossLeavesTheClock_0 : met (hypsStandbyLossLeavesTheClock
    ({ State.reset with clock := { Clock.init with bValid := true } }) (true)) [0] = true := by
  decide +kernel

theorem witness_StandbyLossLeavesTheClock_1 : met (hypsStandbyLossLeavesTheClock
    ({ State.reset with clock := { Clock.init with aValid := true, active := true } }) (false)) [1] = true := by
  decide +kernel

/-- The hypotheses of the clauses of `Obligations.ClocksAndLineTime`. -/
def hypsClocksAndLineTime (s : State) (x : Bool) (v w : Word) (req : Req) (d : Int) : List Bool :=
  let c := s.clock
  let valid := fun (t : State) (y : Bool) => if y = true then t.clock.bValid else t.clock.aValid
  let lost := if x = true then c.bLost else c.aLost
  let sel := fun (t : State) => t.bit Reg.SYS_CLK_CTL F.SYS_CLK_CTL_Select
  let named := F.SYS_CLK_CTL_Select.get v ≠ 0
  let due := c.holdover = true ∧ c.lossTick + 160000 ≤ c.tick
  let follow := s.fld Reg.SYS_LT_CTL F.SYS_LT_CTL_Mode = 1
  let sum := c.slew.toInt + w.toInt
  let m := settle s
  let acc := m.clock.rateAcc + (m.reg Reg.SYS_LT_RATE).toInt
  [ decide (valid s x = true ∧ c.active = x ∧ (c.clockLost = false ∨ c.pllLocked = true)),
    decide (valid s x = true ∧ c.active = x ∧ c.clockLost = true ∧ c.pllLocked = false),
    decide (valid s x = false ∧ (lost = 0 ∨ lost - 1 + 1600000 ≤ c.tick)),
    decide (lost ≠ 0 ∧ c.tick < lost - 1 + 1600000),
    decide (c.switching = some x ∧ valid s x = true),
    decide (F.SYS_CLK_CTL_Release.get v = 0 ∧ (named ↔ x = true)),
    decide (due),
    decide (¬ due),
    decide (c.clockLost = true ∧ c.reacquired = true ∧ c.pllLocked = false ∧ valid s c.active = true),
    decide (c.clockLost = true ∧ (named ↔ sel s = true)),
    decide (follow),
    decide (¬ follow ∧ -(2 ^ 31) ≤ sum ∧ sum < 2 ^ 31),
    decide (c.loadReq = none),
    decide (c.loadReq = some 0 ∧ c.tick % 8 = 0 ∧ 0 < c.tick),
    decide (c.run = true ∧ 2 ^ 40 ≤ acc ∧ m.clock.slew = 0),
    decide (c.run = true ∧ acc ≤ -(2 ^ 40) ∧ m.clock.slew = 0),
    decide (c.run = true ∧ -(2 ^ 40) < acc ∧ acc < 2 ^ 40 ∧ m.clock.slew ≠ 0 ∧ 2 ^ m.fld Reg.SYS_LT_CTL
        F.SYS_LT_CTL_SlewLimit ≤ m.clock.slewCnt + 1),
    decide (-(2 ^ 40) < acc ∧ acc < 2 ^ 40),
    decide (m.clock.slew = 0) ]

theorem witness_ClocksAndLineTime_0 : met (hypsClocksAndLineTime
    ({ State.reset with regs := [(12582912, 0)], clock := { Clock.init with tick := 1, aValid := true, aLost := 2, clockLost := true, reacquired := true } }) (false) (0) (0) ((Req.engine 3)) (0)) [1, 3, 5, 7, 8, 9, 11, 12, 17, 18] = true := by
  decide +kernel

theorem witness_ClocksAndLineTime_1 : met (hypsClocksAndLineTime
    ({ State.reset with regs := [(304, 0)], clock := { Clock.init with tick := 1700016, slew := 1, loadReq := some (0), bValid := true, active := true, switching := some (true), holdover := true, run := true } }) (true) (0) (0) ((Req.engine 3)) (0)) [0, 4, 6, 13] = true := by
  decide +kernel

theorem witness_ClocksAndLineTime_2 : met (hypsClocksAndLineTime
    ({ State.reset with regs := [(304, 0), (12582912, 0)], clock := { Clock.init with tick := 1, slew := 1, run := true } }) (true) (0) (0) ((Req.engine 3)) (0)) [16] = true := by
  decide +kernel

theorem witness_ClocksAndLineTime_3 : met (hypsClocksAndLineTime
    ({ State.reset with regs := [(304, 1)] }) (false) (0) (0) ((Req.engine 3)) (0)) [2, 10] = true := by
  decide +kernel

theorem witness_ClocksAndLineTime_4 : met (hypsClocksAndLineTime
    ({ State.reset with regs := [(308, 100), (12582912, 0)], clock := { Clock.init with tick := 1, rateAcc := 1099511627771, run := true } }) (false) (0) (0) ((Req.engine 3)) (0)) [14] = true := by
  decide +kernel

theorem witness_ClocksAndLineTime_5 : met (hypsClocksAndLineTime
    ({ State.reset with regs := [(308, 4294967196), (12582912, 0)], clock := { Clock.init with tick := 1, rateAcc := (-1099511627771), run := true } }) (false) (0) (0) ((Req.engine 3)) (0)) [15] = true := by
  decide +kernel

/-- The hypotheses of the clauses of `Obligations.IndexLatchesTheCount`. -/
def hypsIndexLatchesTheCount (s : State) (e t0 : Nat) : List Bool :=
  let x := s.encOf e
  let ctl := Reg.ENC_CTL e
  [ decide (e < 32 ∧ s.bit ctl F.ENC_CTL_Enable = true ∧ s.bit ctl F.ENC_CTL_IndexEnable = true ∧ s.fld ctl
        F.ENC_CTL_FilterTicks + 1 ≤ x.z.run),
    decide (e < 32 ∧ x.loadReq = some (t0, true) ∧ s.clock.tick % 8 = 0 ∧ t0 < s.clock.tick) ]

theorem witness_IndexLatchesTheCount_0 : met (hypsIndexLatchesTheCount
    ({ State.reset with regs := [(1575168, 5)], clock := { Clock.init with tick := 8 }, encs := ⟨[(9, { Enc.init with z := { EncIn.init with run := 1 }, loadReq := some ((2, true)) })]⟩ }) (9) (2)) [0, 1] = true := by
  decide +kernel

/-- The hypotheses of the clauses of `Obligations.EncodersCountAndMatch`. -/
def hypsEncodersCountAndMatch (s : State) (e m t0 : Nat) (v : Word) (moved other : EncIn) : List Bool :=
  let x := s.encOf e
  let ctl := Reg.ENC_CTL e
  let on := s.bit ctl F.ENC_CTL_Enable
  let need := s.fld ctl F.ENC_CTL_FilterTicks + 1
  let due := matchDue e m s
  [ decide (e < 32 ∧ m < 2 ∧ on = true ∧ moved = x.a ∧ other = x.b ∧ need ≤ moved.run ∧ other.run < need),
    decide (e < 32 ∧ m < 2 ∧ on = true ∧ moved = x.a ∧ other = x.b ∧ moved.run < need ∧ need ≤ other.run),
    decide (e < 32 ∧ m < 2 ∧ on = true ∧ need ≤ x.a.run ∧ need ≤ x.b.run),
    decide (e < 32 ∧ m < 2 ∧ (on = false ∨ x.a.run < need ∧ x.b.run < need)),
    decide (e < 32 ∧ m < 2 ∧ on = true ∧ x.periodValid = true ∧ x.held = false ∧ x.hist ≠ [] ∧ x.hist.headD 0 +
        8 * 2 ^ 24 < 8 * s.clock.lt),
    decide (e < 32 ∧ m < 2 ∧ due = true),
    decide (e < 32 ∧ m < 2 ∧ due = false),
    decide (e < 32 ∧ m < 2 ∧ x.loadReq = some (t0, false) ∧ s.clock.tick % 8 = 0 ∧ t0 < s.clock.tick),
    decide (e < 32 ∧ m < 2 ∧ on = true),
    decide (e < 32 ∧ m < 2 ∧ on = false) ]

theorem witness_EncodersCountAndMatch_0 : met (hypsEncodersCountAndMatch
    ({ State.reset with regs := [(1579264, 1)], clock := { Clock.init with tick := 64, lt := 16777217 }, encs := ⟨[(25, { Enc.init with hist := [0], periodValid := true, a := { EncIn.init with run := 1 }, b := { EncIn.init with run := 1 }, loadReq := some ((7, false)) })]⟩ }) (25) (0) (7) (0) (EncIn.init) (EncIn.init)) [2, 4, 6, 7, 8] = true := by
  decide +kernel

theorem witness_EncodersCountAndMatch_1 : met (hypsEncodersCountAndMatch
    ({ State.reset with regs := [(1576016, 1), (1576020, 1)], encs := ⟨[(12, { Enc.init with est := 1 })]⟩ }) (12) (1) (0) (0) (EncIn.init) (EncIn.init)) [3, 5, 9] = true := by
  decide +kernel

theorem witness_EncodersCountAndMatch_2 : met (hypsEncodersCountAndMatch
    ({ State.reset with regs := [(1577984, 1)], encs := ⟨[(20, { Enc.init with a := { EncIn.init with level := true, stamp := 784 }, b := { EncIn.init with run := 12, stamp := 8 } })]⟩ }) (20) (0) (0) (0) ({ EncIn.init with level := true, stamp := 784 }) ({ EncIn.init with run := 12, stamp := 8 })) [1] = true := by
  decide +kernel

theorem witness_EncodersCountAndMatch_3 : met (hypsEncodersCountAndMatch
    ({ State.reset with regs := [(1575424, 1)], encs := ⟨[(10, { Enc.init with a := { EncIn.init with run := 2, stamp := 120 }, b := { EncIn.init with level := true, stamp := 608 } })]⟩ }) (10) (0) (0) (0) ({ EncIn.init with run := 2, stamp := 120 }) ({ EncIn.init with level := true, stamp := 608 })) [0] = true := by
  decide +kernel

/-- The hypotheses of the clauses of `Obligations.PulseGenerators`. -/
def hypsPulseGenerators (s : State) (n b k : Nat) (v : Word) (r : PgRun) : List Bool :=
  let x := s.pg n
  let now := s.clock.tick
  let ctl := Reg.PG_CTL n
  let fld := s.fld ctl
  let width := s.fld (Reg.PG_WIDTH n) F.PG_WIDTH_Ticks
  let period := s.fld (Reg.PG_PERIOD n) F.PG_PERIOD_Period
  let mode := fld F.PG_CTL_Mode
  let valid := if mode = 0 then 0 < width else if mode = 1 then 0 < width ∧ width < period else if mode = 2 then
      0 < period else pgSettingsOk n 3 width period (x.bankPend.getD x.bank) s = true
  let follower := n % 8 ≠ 0 ∧ fld F.PG_CTL_Follow = 1
  let blocked := s.clock.clockLost = true ∨ x.held = true
  let only := F.PG_CMD_Start.get v = 0 ∧ F.PG_CMD_Stop.get v = 0 ∧ F.PG_CMD_Abort.get v = 0 ∧ F.PG_CMD_Rearm.get
      v = 0
  let tripped := s.clock.clockLost = true ∨ x.trip.on = true
  let released := x.trip.on = true ∧ x.trip.active = false ∧ x.trip.quiet + x.trip.rel ≤ now ∧ x.trip.reach <
      now
  [ decide (n < 512 ∧ b < 2 ∧ k < 32 ∧ only),
    decide (n < 512 ∧ b < 2 ∧ k < 32 ∧ x.soft = now ∧ now ≠ 0 ∧ x.chain = false),
    decide (n < 512 ∧ b < 2 ∧ k < 32 ∧ x.soft = now ∧ now ≠ 0 ∧ x.chain = false ∧ ¬ follower ∧ ¬ blocked ∧ fld
        F.PG_CTL_Enable = 1 ∧ x.run = none ∧ x.ended ≠ now + 1 ∧ valid),
    decide (n < 512 ∧ b < 2 ∧ k < 32 ∧ x.soft = now ∧ now ≠ 0 ∧ x.chain = false ∧ ¬ follower ∧ ¬ blocked ∧ fld
        F.PG_CTL_Enable = 1 ∧ x.run = none ∧ x.ended ≠ now + 1 ∧ ¬ valid),
    decide (n < 512 ∧ b < 2 ∧ k < 32 ∧ x.soft = now ∧ now ≠ 0 ∧ x.chain = false ∧ follower),
    decide (n < 512 ∧ b < 2 ∧ k < 32 ∧ x.soft = now ∧ now ≠ 0 ∧ x.chain = false ∧ blocked),
    decide (n < 512 ∧ b < 2 ∧ k < 32 ∧ x.soft = now ∧ now ≠ 0 ∧ x.chain = false ∧ ¬ follower ∧ ¬ blocked ∧ fld
        F.PG_CTL_Enable = 0),
    decide (n < 512 ∧ b < 2 ∧ k < 32 ∧ x.soft = now ∧ now ≠ 0 ∧ x.chain = false ∧ ¬ follower ∧ ¬ blocked ∧ fld
        F.PG_CTL_Enable = 1 ∧ x.run ≠ none ∧ fld F.PG_CTL_Retrigger = 0),
    decide (n < 512 ∧ b < 2 ∧ k < 32 ∧ only ∧ x.run = some r),
    decide (n < 512 ∧ b < 2 ∧ k < 32 ∧ only ∧ tripped),
    decide (n < 512 ∧ b < 2 ∧ k < 32 ∧ only ∧ ¬ tripped ∧ x.held = true),
    decide (n < 512 ∧ b < 2 ∧ k < 32 ∧ x.run = some r ∧ r.begun = 0 ∧ r.first = now ∧ r.stop = false ∧ width =
        r.width ∧ period = r.period ∧ x.bankPend = none),
    decide (n < 512 ∧ b < 2 ∧ k < 32 ∧ x.run = some r ∧ r.mode = 0 ∧ r.begun = 1 ∧ r.cyc + r.width = now ∧
        x.chain = false),
    decide (n < 512 ∧ b < 2 ∧ k < 32 ∧ x.run = none),
    decide (n < 512 ∧ b < 2 ∧ k < 32 ∧ x.run ≠ none ∧ x.bank = b),
    decide (n < 512 ∧ b < 2 ∧ k < 32 ∧ (x.run = none ∨ x.bank ≠ b)),
    decide (n < 512 ∧ b < 2 ∧ k < 32 ∧ released),
    decide (n < 512 ∧ b < 2 ∧ k < 32 ∧ ¬ released) ]

theorem witness_PulseGenerators_0 : met (hypsPulseGenerators
    ({ State.reset with regs := [(2125824, 2147483647)], clock := { Clock.init with tick := 100, clockLost := true }, pgs := ⟨[(14, { Pg.init with run := some (⟨96, 0, 96, 1, 0, 3, 96, 0, false, false, true⟩), soft := 100 })]⟩ }) (14) (0) (0) (0) (⟨96, 0, 96, 1, 0, 3, 96, 0, false, false, true⟩)) [0, 1, 4, 5, 8, 9, 14, 17] = true := by
  decide +kernel

theorem witness_PulseGenerators_1 : met (hypsPulseGenerators
    ({ State.reset with regs := [(2121728, 4)], clock := { Clock.init with tick := 100 }, pgs := ⟨[(12, { Pg.init with soft := 100, trip := { PgTrip.init with on := true } })]⟩ }) (12) (0) (0) (0) (⟨0, 0, 0, 0, 0, 0, 0, 0, false, false, false⟩)) [3, 13, 15, 16] = true := by
  decide +kernel

theorem witness_PulseGenerators_2 : met (hypsPulseGenerators
    ({ State.reset with regs := [(2131968, 4)], clock := { Clock.init with tick := 100 }, pgs := ⟨[(17, { Pg.init with run := some (⟨0, 0, 0, 0, 0, 0, 0, 0, false, false, false⟩), soft := 100 })]⟩ }) (17) (0) (0) (0) (⟨0, 0, 0, 0, 0, 0, 0, 0, false, false, false⟩)) [7] = true := by
  decide +kernel

theorem witness_PulseGenerators_3 : met (hypsPulseGenerators
    ({ State.reset with clock := { Clock.init with tick := 100 }, pgs := ⟨[(2, { Pg.init with soft := 100 })]⟩ }) (2) (0) (0) (0) (⟨0, 0, 0, 0, 0, 0, 0, 0, false, false, false⟩)) [6] = true := by
  decide +kernel

theorem witness_PulseGenerators_4 : met (hypsPulseGenerators
    ({ State.reset with regs := [(2119680, 1609886924), (2119692, 1)], clock := { Clock.init with tick := 100 }, pgs := ⟨[(11, { Pg.init with soft := 100 })]⟩ }) (11) (0) (0) (0) (⟨0, 0, 0, 0, 0, 0, 0, 0, false, false, false⟩)) [2] = true := by
  decide +kernel

theorem witness_PulseGenerators_5 : met (hypsPulseGenerators
    ({ State.reset with pgs := ⟨[(5, { Pg.init with held := true })]⟩ }) (5) (0) (0) (0) (⟨0, 0, 0, 0, 0, 0, 0, 0, false, false, false⟩)) [10] = true := by
  decide +kernel

theorem witness_PulseGenerators_6 : met (hypsPulseGenerators
    ({ State.reset with regs := [(2101260, 2)], clock := { Clock.init with tick := 100 }, pgs := ⟨[(2, { Pg.init with run := some (⟨97, 3, 100, 2, 0, 0, 100, 0, true, false, true⟩) })]⟩ }) (2) (0) (0) (0) (⟨97, 3, 100, 2, 0, 0, 100, 0, true, false, true⟩)) [11] = true := by
  decide +kernel

theorem witness_PulseGenerators_7 : met (hypsPulseGenerators
    ({ State.reset with clock := { Clock.init with tick := 100 }, pgs := ⟨[(16, { Pg.init with run := some (⟨98, 0, 95, 0, 5, 4, 100, 1, true, true, false⟩) })]⟩ }) (16) (0) (0) (0) (⟨98, 0, 95, 0, 5, 4, 100, 1, true, true, false⟩)) [12] = true := by
  decide +kernel

/-- The hypotheses of the clauses of `Obligations.TileInputs`. -/
def hypsTileInputs (s : State) (t k b : Nat) (v : Word) (uv : Int) (codes : List Int) (f c at' th : Nat) : List Bool :=
  let x := s.tile t
  let now := s.clock.tick
  let cmp := x.cmp k
  let ctl := s.reg (Reg.AT_CMPCTL t k)
  let div := 2 ^ F.AT_CMPCTL_SampleDiv.get ctl
  let sampling := now % 8 = 0 ∧ now / 8 % div = F.AT_CMPCTL_Phase.get ctl % div
  let decides := s.arr.vdda = true ∧ x.bias = true ∧ cmp.on = true ∧ cmp.ready ≤ now
  let u := consumerInput t (5 + k / 2) uv s
  let fs : Int := if cmp.range = true then 2 * s.arr.vref else s.arr.vref
  let mid : Int := (thCode t k cmp.th s) * fs
  let half : Int := 2048 * hystUv (hystNow t k s)
  let slack : Int := 4096 * 2000
  let windowed := k % 2 = 1 ∧ (s.bit (Reg.AT_PAIRCTL t (k / 2)) F.AT_PAIRCTL_Window = true ∨ x.win (k / 2) =
      true)
  let pga := s.bit (Reg.AT_PWR t) (if b = 0 then F.AT_PWR_Pga0En else F.AT_PWR_Pga1En) = true
  let out := consumerInput t b uv s * (pgaGain t b s : Int) / 100
  let clips := out < -1250000 ∨ 1250000 < out
  let modEn := s.bit (Reg.AT_PWR t) (if b = 0 then F.AT_PWR_Mod0En else F.AT_PWR_Mod1En) = true
  let beyond := uv < -1250000 ∨ 1250000 < uv
  let overAt := if b = 0 then x.over0 else x.over1
  let drives := F.AT_BUSDRV_Bus0Drive.get v = 1 ∧ F.AT_BUSDRV_Bus1Drive.get v = 0
  let bqOk' := F.AT_BQ_Div.get v ≤ 8 ∧ (F.AT_BQ_Type.get v = 0 ∨ 256 ≤ F.AT_BQ_FreqCode.get v ∧
      F.AT_BQ_FreqCode.get v ≤ 6553)
  let hyst := F.AT_CMPCTL_Hyst.get v
  [ decide (t < 128 ∧ k < 4 ∧ b < 2 ∧ x.calBusy = true),
    decide (t < 128 ∧ k < 4 ∧ b < 2 ∧ x.calBusy = false ∧ selOk t v = true),
    decide (t < 128 ∧ k < 4 ∧ b < 2 ∧ x.calBusy = false ∧ selOk t v = false),
    decide (t < 128 ∧ k < 4 ∧ b < 2 ∧ x.calBusy = false ∧ drvOk t v = true ∧ drives ∧ s.bus (2 * (t / 16)) =
        none),
    decide (t < 128 ∧ k < 4 ∧ b < 2 ∧ x.calBusy = false ∧ drvOk t v = true ∧ drives ∧ busTaken t (2 * (t / 16))
        s = true),
    decide (t < 128 ∧ k < 4 ∧ b < 2 ∧ x.calBusy = false ∧ drvOk t v = false),
    decide (t < 128 ∧ k < 4 ∧ b < 2 ∧ x.calBusy = false ∧ bqOk'),
    decide (t < 128 ∧ k < 4 ∧ b < 2 ∧ x.calBusy = false ∧ ¬ bqOk'),
    decide (t < 128 ∧ k < 4 ∧ b < 2 ∧ x.calBusy = false ∧ hyst < 6),
    decide (t < 128 ∧ k < 4 ∧ b < 2 ∧ x.calBusy = false ∧ 6 ≤ hyst),
    decide (t < 128 ∧ k < 4 ∧ b < 2 ∧ x.calBusy = false),
    decide (t < 128 ∧ k < 4 ∧ b < 2 ∧ x.moves = [SelSwitch.mk f at' now c] ∧ f < 10 ∧ c < 16),
    decide (t < 128 ∧ k < 4 ∧ b < 2 ∧ sampling ∧ decides ∧ x.calHeld ≠ some k ∧ cmp.thPend = [] ∧ mid + half +
        slack < 4096 * u),
    decide (t < 128 ∧ k < 4 ∧ b < 2 ∧ sampling ∧ decides ∧ x.calHeld ≠ some k ∧ cmp.thPend = [] ∧ mid + half +
        slack < 4096 * u ∧ ¬ windowed),
    decide (t < 128 ∧ k < 4 ∧ b < 2 ∧ sampling ∧ decides ∧ x.calHeld ≠ some k ∧ cmp.thPend = [] ∧ 4096 * u < mid
        - half - slack),
    decide (t < 128 ∧ k < 4 ∧ b < 2 ∧ sampling ∧ decides ∧ x.calHeld ≠ some k ∧ cmp.thPend = [] ∧ 4096 * u < mid
        - half - slack ∧ ¬ windowed),
    decide (t < 128 ∧ k < 4 ∧ b < 2 ∧ sampling ∧ decides ∧ x.calHeld ≠ some k ∧ cmp.thPend = [] ∧ mid - half +
        slack < 4096 * u ∧ 4096 * u < mid + half - slack),
    decide (t < 128 ∧ k < 4 ∧ b < 2 ∧ sampling ∧ decides ∧ x.calHeld ≠ some k ∧ cmp.thPend = [] ∧ mid - half +
        slack < 4096 * u ∧ 4096 * u < mid + half - slack ∧ ¬ windowed),
    decide (t < 128 ∧ k < 4 ∧ b < 2 ∧ ¬ (sampling ∧ decides)),
    decide (t < 128 ∧ k < 4 ∧ b < 2 ∧ sampling ∧ cmp.thPend = [(at', th)] ∧ at' ≤ now),
    decide (t < 128 ∧ k < 4 ∧ b < 2 ∧ x.bias = false ∧ x.biasAt = some at' ∧ (at' + 32000 + 7) / 8 * 8 ≤ now),
    decide (t < 128 ∧ k < 4 ∧ b < 2 ∧ (x.bias = true ∨ x.biasAt = none)),
    decide (t < 128 ∧ k < 4 ∧ b < 2 ∧ x.bias = true ∧ pga ∧ clips ∧ now % 8 = 0),
    decide (t < 128 ∧ k < 4 ∧ b < 2 ∧ (x.bias = false ∨ ¬ pga ∨ ¬ clips ∨ now % 8 ≠ 0)),
    decide (t < 128 ∧ k < 4 ∧ b < 2 ∧ x.bias = true ∧ s.bit (Reg.AT_PWR t) F.AT_PWR_BqEn = true ∧
        F.AT_BQ_Type.get (bqNow t s) ≠ 0 ∧ beyond ∧ now % (8 * 2 ^ F.AT_BQ_Div.get (bqNow t s)) = 0),
    decide (t < 128 ∧ k < 4 ∧ b < 2 ∧ ¬ beyond),
    decide (t < 128 ∧ k < 4 ∧ b < 2 ∧ x.bias = true ∧ modEn ∧ overAt = 0 ∧ now % 8 = 0 ∧ (codes = List.replicate
        8 7 ∨ codes = List.replicate 8 (-8))),
    decide (t < 128 ∧ k < 4 ∧ b < 2 ∧ (x.bias = false ∨ ¬ modEn ∨ now % 8 ≠ 0)),
    decide (t < 128 ∧ k < 4 ∧ b < 2 ∧ overAt ≠ 0 ∧ overAt ≤ now),
    decide (t < 128 ∧ k < 4 ∧ b < 2 ∧ (overAt = 0 ∨ now < overAt)) ]

theorem witness_TileInputs_0 : met (hypsTileInputs
    ({ State.reset with clock := { Clock.init with tick := 32544 }, arr := { State.reset.arr with tiles := ⟨[(17, { Tile.init with bias := true, moves := [⟨8, 32536, 32544, 2⟩], cmp3 := { Cmp.init with on := true, th := 64 } })]⟩, vdda := true } }) (17) (3) (0) (1870034377) (0) ([]) (8) (2) (32536) (0)) [2, 5, 7, 8, 10, 11, 14, 15, 21, 23, 25, 27, 29] = true := by
  decide +kernel

theorem witness_TileInputs_1 : met (hypsTileInputs
    ({ State.reset with regs := [(4202496, 2929383086)], clock := { Clock.init with tick := 64 }, arr := { State.reset.arr with tiles := ⟨[(1, { Tile.init with bias := true, sel := 1, bq := 1, over0 := 1, cmp1 := { Cmp.init with on := true, th := 2848 } })]⟩, vdda := true } }) (1) (1) (0) (0) (1734301) ([]) (0) (0) (0) (0)) [1, 6, 12, 13, 22, 24, 28] = true := by
  decide +kernel

theorem witness_TileInputs_2 : met (hypsTileInputs
    ({ State.reset with regs := [(4341760, 845160819)], arr := { State.reset.arr with tiles := ⟨[(18, { Tile.init with bias := true })]⟩ } }) (18) (0) (0) (1565) (0) ([7, 7, 7, 7, 7, 7, 7, 7]) (0) (0) (0) (0)) [3, 9, 18, 26] = true := by
  decide +kernel

theorem witness_TileInputs_3 : met (hypsTileInputs
    ({ State.reset with regs := [(4194384, 21)], arr := { State.reset.arr with tiles := ⟨[(0, { Tile.init with bias := true, sel := 2488430375, cmp1 := { Cmp.init with on := true, th := 3517 }, calBusy := true })]⟩, vdda := true } }) (0) (1) (0) (0) ((-337993)) ([]) (0) (0) (0) (0)) [0, 16, 17] = true := by
  decide +kernel

theorem witness_TileInputs_4 : met (hypsTileInputs
    ({ State.reset with clock := { Clock.init with tick := 32528 }, arr := { State.reset.arr with tiles := ⟨[(17, { Tile.init with cmp0 := { Cmp.init with thPend := [(32524, 2913)] } })]⟩, buses := ⟨[(2, some (⟨0, 0, none⟩))]⟩ } }) (17) (0) (0) (1) (0) ([]) (0) (0) (32524) (2913)) [4, 19] = true := by
  decide +kernel

theorem witness_TileInputs_5 : met (hypsTileInputs
    ({ State.reset with clock := { Clock.init with tick := 32536 }, arr := { State.reset.arr with tiles := ⟨[(18, { Tile.init with biasAt := some (386) })]⟩ } }) (18) (0) (0) (0) (0) ([]) (0) (0) (386) (0)) [20] = true := by
  decide +kernel

/-- The hypotheses of the clauses of `Obligations.ClearEndsACrossFade`. -/
def hypsClearEndsACrossFade (s : State) (p t : Nat) (f : DacFade) : List Bool :=
  [ decide (t < 128 ∧ ((p = 8 ∨ p = t / 16)) ∧ (s.arr.clrs.get ClrPin.init p).active = false ∧ (s.dac
        t).clearing = false ∧ (s.dac t).fade = some f) ]

theorem witness_ClearEndsACrossFade_0 : met (hypsClearEndsACrossFade
    ({ State.reset with arr := { State.reset.arr with dacs := ⟨[(12, { Dac.init with fade := some (⟨0, 100, 40⟩) })]⟩ } }) (0) (12) (⟨0, 100, 40⟩)) [0] = true := by
  decide +kernel

/-- The hypotheses of the clauses of `Obligations.WaveformDrive`. -/
def hypsWaveformDrive (s : State) (t u p b : Nat) (v : Word) (code : Int) (f : DacFade) (r : DacPlay) (limited : Bool) : List Bool :=
  let x := s.dac t
  let now := s.clock.tick
  let inUse := b = x.bank ∨ x.fade ≠ none ∨ x.fadeEnd = now + 1
  let pin := s.arr.clrs.get ClrPin.init p
  let lets := (if pin.reach ≤ (pin.rise / 8 + 2) * 8 then (pin.rise / 8 + 2) * 8 else (pin.reach / 8 + 1) * 8) ≤
      now
  let limit := dacDriving t s = true ∧ limited = true
  let qual := s.fld (Reg.AT_SUPCTL t) F.AT_SUPCTL_ShortQual + 1
  let judged := now % 8 = 0 ∧ x.shortAt ≠ now + 1
  let row := if x.shortAt + 8 = now + 1 then x.short + 1 else 1
  let compared := now % 8 = 0 ∧ x.supEdge ≠ now + 1
  let given := modCode t 1 code s
  let codes := if x.supEdge + 8 = now + 1 then (given :: x.supCodes).take 16 else [given]
  let delay := s.fld (Reg.AT_SUPCTL t) F.AT_SUPCTL_SupDelay
  let diff : Int := codes.sum * 102400 - (((nominalNow t s :: x.noms).drop delay).take 16).sum
  let far := s.fld (Reg.AT_SUPCTL t) F.AT_SUPCTL_SupTol * 102400 < diff.natAbs
  let count := s.fld (Reg.AT_SUPCTL t) F.AT_SUPCTL_SupCount + 1
  let s' := s.plainWrite (Reg.AT_TWIN t) (F.AT_TWIN_Handover.put v 1)
  [ decide (t < 128 ∧ u < 128 ∧ b < 2 ∧ x.play = some r ∧ now = r.start + 16 * r.len),
    decide (t < 128 ∧ u < 128 ∧ b < 2 ∧ (x.play = none ∨ x.play = some r ∧ now ≠ r.start + 16 * r.len)),
    decide (t < 128 ∧ u < 128 ∧ b < 2 ∧ x.holdEnd ≠ 0 ∧ x.holdEnd ≤ now ∧ (x.rangePend = 0 ∨ x.rangePend = 2 ∧
        x.play ≠ none)),
    decide (t < 128 ∧ u < 128 ∧ b < 2 ∧ (x.holdEnd = 0 ∨ now < x.holdEnd)),
    decide (t < 128 ∧ u < 128 ∧ b < 2 ∧ inUse),
    decide (t < 128 ∧ u < 128 ∧ b < 2 ∧ ¬ inUse),
    decide (t < 128 ∧ u < 128 ∧ b < 2 ∧ x.fade = some f ∧ x.play = some r ∧ f.count < f.len ∧ now = r.start + 16
        * (f.len - 1 - f.count)),
    decide (t < 128 ∧ u < 128 ∧ b < 2 ∧ x.fade = none),
    decide (t < 128 ∧ u < 128 ∧ b < 2 ∧ (p = 8 ∨ p = t / 16) ∧ pin.active = false),
    decide (t < 128 ∧ u < 128 ∧ b < 2 ∧ (p = 8 ∨ p = t / 16) ∧ pin.active = true ∧ pin.low = false ∧ lets),
    decide (t < 128 ∧ u < 128 ∧ b < 2 ∧ (pin.active = false ∨ pin.low = true ∨ ¬ lets)),
    decide (t < 128 ∧ u < 128 ∧ b < 2 ∧ judged ∧ limit ∧ qual ≤ row ∧ s.bit (Reg.AT_DACSTAT t)
        F.AT_DACSTAT_Short = false),
    decide (t < 128 ∧ u < 128 ∧ b < 2 ∧ judged ∧ ¬ limit),
    decide (t < 128 ∧ u < 128 ∧ b < 2 ∧ judged ∧ limit ∧ row < qual),
    decide (t < 128 ∧ u < 128 ∧ b < 2 ∧ ¬ judged),
    decide (t < 128 ∧ u < 128 ∧ b < 2 ∧ ¬ compared),
    decide (t < 128 ∧ u < 128 ∧ b < 2 ∧ compared ∧ supActive t s = false),
    decide (t < 128 ∧ u < 128 ∧ b < 2 ∧ compared ∧ supActive t s = true ∧ x.supEdge + 8 = now + 1 ∧ 15 ≤
        x.supCodes.length ∧ delay + 15 ≤ x.noms.length ∧ far ∧ count ≤ x.supRun + 1 ∧ s.bit (Reg.AT_DACSTAT t)
        F.AT_DACSTAT_SupFault = false),
    decide (t < 128 ∧ u < 128 ∧ b < 2 ∧ compared ∧ supActive t s = true ∧ x.supEdge + 8 = now + 1 ∧ 15 ≤
        x.supCodes.length ∧ delay + 15 ≤ x.noms.length ∧ ¬ far),
    decide (t < 128 ∧ u < 128 ∧ b < 2 ∧ x.onAt ≠ 0 ∧ x.onAt ≤ now),
    decide (t < 128 ∧ u < 128 ∧ b < 2 ∧ (x.onAt = 0 ∨ now < x.onAt)),
    decide (t < 128 ∧ u < 128 ∧ b < 2 ∧ twinArmed t s' = false),
    decide (t < 128 ∧ u < 128 ∧ b < 2 ∧ twinArmed t s' = true),
    decide (t < 128 ∧ u < 128 ∧ b < 2 ∧ s.arr.vdda = true),
    decide (t < 128 ∧ u < 128 ∧ b < 2 ∧ s.arr.vdda = false),
    decide (t < 128 ∧ u < 128 ∧ b < 2 ∧ samplePoison t s = []),
    decide (t < 128 ∧ u < 128 ∧ b < 2 ∧ samplePoison t s ≠ [] ∧ twinArmed t s = true ∧ u = twinPartner t s),
    decide (t < 128 ∧ u < 128 ∧ b < 2 ∧ samplePoison t s ≠ [] ∧ twinArmed t s = false) ]

theorem witness_WaveformDrive_0 : met (hypsWaveformDrive
    ({ State.reset with clock := { Clock.init with tick := 1600 }, arr := { State.reset.arr with dacs := ⟨[(2, { Dac.init with holdEnd := 1, shortAt := 1601 })]⟩, vdda := true } }) (2) (0) (0) (0) (0) (0) (⟨0, 0, 0⟩) (⟨0, 0⟩) (false)) [1, 2, 4, 7, 8, 10, 14, 16, 20, 21, 23, 25] = true := by
  decide +kernel

theorem witness_WaveformDrive_1 : met (hypsWaveformDrive
    ({ State.reset with clock := { Clock.init with tick := 1608 }, arr := { State.reset.arr with dacs := ⟨[(0, { Dac.init with play := some (⟨1496, 7⟩), bank := 1, supEdge := 1609, onAt := 1 })]⟩, clrs := ⟨[(0, { ClrPin.init with active := true })]⟩ } }) (0) (0) (0) (0) (0) (0) (⟨0, 0, 0⟩) (⟨1496, 7⟩) (false)) [0, 3, 5, 9, 12, 15, 19, 24] = true := by
  decide +kernel

theorem witness_WaveformDrive_2 : met (hypsWaveformDrive
    ({ State.reset with regs := [(4202784, 1696757831), (4203024, 655360), (4219168, 35)], poison := ⟨[(2101248, true)]⟩, arr := { State.reset.arr with dacs := ⟨[(1, { Dac.init with play := some (⟨0, 0⟩) })]⟩, vdda := true } }) (1) (3) (0) (0) (1593573063) (0) (⟨0, 0, 0⟩) (⟨0, 0⟩) (true)) [13, 22, 26] = true := by
  decide +kernel

theorem witness_WaveformDrive_3 : met (hypsWaveformDrive
    ({ State.reset with clock := { Clock.init with tick := 1600 }, arr := { State.reset.arr with dacs := ⟨[(1, { Dac.init with play := some (⟨640, 7⟩), fade := some (⟨0, 100, 39⟩), short := 4, shortAt := 1593 })]⟩, vdda := true } }) (1) (0) (0) (0) (0) (0) (⟨0, 100, 39⟩) (⟨640, 7⟩) (true)) [6, 11] = true := by
  decide +kernel

theorem witness_WaveformDrive_4 : met (hypsWaveformDrive
    ({ State.reset with regs := [(4211216, 655360)], poison := ⟨[(2105344, true)]⟩, arr := { State.reset.arr with dacs := ⟨[(2, { Dac.init with play := some (⟨0, 0⟩) })]⟩ } }) (2) (0) (0) (0) (0) (0) (⟨0, 0, 0⟩) (⟨0, 0⟩) (false)) [27] = true := by
  decide +kernel

theorem witness_WaveformDrive_5 : met (hypsWaveformDrive
    ({ State.reset with regs := [(4210688, 255), (4210968, 1), (4210976, 1856831081), (4227360, 5)], clock := { Clock.init with tick := 1600 }, arr := { State.reset.arr with tiles := ⟨[(2, { Tile.init with bias := true, sel := 655360 })]⟩, dacs := ⟨[(2, { Dac.init with supEdge := 1593, supCodes := [0, 0, 0, 0, 0, 0, 0, 0, 0, 0, 0, 0, 0, 0, 0], noms := [0, 0, 0, 0, 0, 0, 0, 0, 0, 0, 0, 0, 0, 0, 0] })]⟩ } }) (2) (0) (0) (0) (0) (0) (⟨0, 0, 0⟩) (⟨0, 0⟩) (false)) [18] = true := by
  decide +kernel

theorem witness_WaveformDrive_6 : met (hypsWaveformDrive
    ({ State.reset with regs := [(4202496, 4294967295), (4202752, 3487531002), (4202776, 1), (4202784, 1438645991), (4219136, 3487531002), (4219168, 3)], clock := { Clock.init with tick := 1608 }, arr := { State.reset.arr with tiles := ⟨[(1, { Tile.init with bias := true, sel := 655360 })]⟩, dacs := ⟨[(1, { Dac.init with supEdge := 1601, supCodes := [0, 0, 0, 0, 0, 0, 0, 0, 0, 0, 0, 0, 0, 0, 0], noms := [0, 0, 0, 0, 0, 0, 0, 0, 0, 0, 0, 0, 0, 0, 0] })]⟩ } }) (1) (0) (0) (0) (0) (16) (⟨0, 0, 0⟩) (⟨0, 0⟩) (false)) [17] = true := by
  decide +kernel

/-- The hypotheses of the clauses of `Obligations.DecimationChannels`. -/
def hypsDecimationChannels (s : State) (p c i : Nat) (v : Word) (code : Int) (b : DceBound) (w : DceWin) (rest : List DceBound) : List Bool :=
  let g := 32 * p + c
  let x := s.dch g
  let now := s.clock.tick
  let n := now / 8
  let buf := s.dce.bufs.get [] p
  let gate := delayedGate p c n s
  let gives := now % 8 = 0 ∧ x.codeAt ≠ n + 1
  let waits := x.bounds.any (fun b => b.inWin && b.win = w.seq) || buf.any (fun r => r.chan = c && r.inWin &&
      r.win = w.seq)
  [ decide (p < 4 ∧ c < 32 ∧ i < 3 ∧ x.bounds = b :: rest ∧ 8 * b.edge + 96 ≤ now),
    decide (p < 4 ∧ c < 32 ∧ i < 3 ∧ (x.bounds = [] ∨ x.bounds = b :: rest ∧ now < 8 * b.edge + 96)),
    decide (p < 4 ∧ c < 32 ∧ i < 3 ∧ gives ∧ x.next = none),
    decide (p < 4 ∧ c < 32 ∧ i < 3 ∧ ¬ gives),
    decide (p < 4 ∧ c < 32 ∧ i < 3 ∧ x.on = true ∧ x.open' = false ∧ gate = true),
    decide (p < 4 ∧ c < 32 ∧ i < 3 ∧ (gate = false ∨ x.open' = true)),
    decide (p < 4 ∧ c < 32 ∧ i < 3 ∧ x.open' = true ∧ (gate = false ∨ x.on = false)),
    decide (p < 4 ∧ c < 32 ∧ i < 3 ∧ x.open' = false),
    decide (p < 4 ∧ c < 32 ∧ i < 3 ∧ x.closed = [w] ∧ waits = false),
    decide (p < 4 ∧ c < 32 ∧ i < 3 ∧ (x.closed = [] ∨ x.closed = [w] ∧ waits = true)),
    decide (p < 4 ∧ c < 32 ∧ i < 3 ∧ 5 ≤ F.DCE_CHCTL_Preset.get v),
    decide (p < 4 ∧ c < 32 ∧ i < 3 ∧ F.DCE_CHCTL_Preset.get v < 5),
    decide (p < 4 ∧ c < 32 ∧ i < 3 ∧ x.ctlAt ≠ 0 ∧ x.ctlAt ≤ now),
    decide (p < 4 ∧ c < 32 ∧ i < 3 ∧ (x.ctlAt = 0 ∨ now < x.ctlAt)),
    decide (p < 4 ∧ c < 32 ∧ i < 3 ∧ ringHeld (s.reg (Reg.DCE_WRIDX p c)).toNat v.toNat ≤ dceCap p c s),
    decide (p < 4 ∧ c < 32 ∧ i < 3 ∧ dceCap p c s < ringHeld (s.reg (Reg.DCE_WRIDX p c)).toNat v.toNat) ]

theorem witness_DecimationChannels_0 : met (hypsDecimationChannels
    ({ State.reset with clock := { Clock.init with tick := 8000 }, dce := { State.reset.dce with chans := ⟨[(116, { DceCh.init with ctlAt := 1, bounds := [⟨988, 12375235690988642014, false, true, 51, true, [(-229490884), (-229490884), (-229490884), (-229490884), (-229490884), (-229490884), (-229490884), (-229490884), (-229490884), (-229490884), (-229490884), (-229490884), (-229490884), (-229490884), (-229490884), (-229490884), (-229490884), (-229490884), (-229490884), (-229490884), (-229490884), (-229490884), (-229490884), (-229490884), (-229490884), (-229490884), (-229490884), (-229490884), (-229490884), (-229490884), (-229490884), (-229490884), (-229490884), (-229490884), (-229490884), (-229490884), (-229490884), (-229490884), (-229490884), (-229490884), (-229490884), (-229490884), (-229490884), (-229490884), (-229490884), (-229490884), (-229490884), (-229490884), (-229490884), (-229490884), (-229490884), (-229490884), (-229490884), (-229490884), (-229490884), (-229490884), (-229490884), (-229490884), (-229490884), (-229490884)], 4294967295, 681955855, 2147483647, 3, 1, false⟩] })]⟩ } }) (3) (20) (0) (2147483647) (0) (⟨988, 12375235690988642014, false, true, 51, true, [(-229490884), (-229490884), (-229490884), (-229490884), (-229490884), (-229490884), (-229490884), (-229490884), (-229490884), (-229490884), (-229490884), (-229490884), (-229490884), (-229490884), (-229490884), (-229490884), (-229490884), (-229490884), (-229490884), (-229490884), (-229490884), (-229490884), (-229490884), (-229490884), (-229490884), (-229490884), (-229490884), (-229490884), (-229490884), (-229490884), (-229490884), (-229490884), (-229490884), (-229490884), (-229490884), (-229490884), (-229490884), (-229490884), (-229490884), (-229490884), (-229490884), (-229490884), (-229490884), (-229490884), (-229490884), (-229490884), (-229490884), (-229490884), (-229490884), (-229490884), (-229490884), (-229490884), (-229490884), (-229490884), (-229490884), (-229490884), (-229490884), (-229490884), (-229490884), (-229490884)], 4294967295, 681955855, 2147483647, 3, 1, false⟩) (⟨0, 0, 0, false⟩) ([])) [0, 2, 5, 7, 9, 10, 12, 15] = true := by
  decide +kernel

theorem witness_DecimationChannels_1 : met (hypsDecimationChannels
    ({ State.reset with regs := [(5645588, 438)], clock := { Clock.init with tick := 1 }, dce := { State.reset.dce with chans := ⟨[(117, { DceCh.init with open' := true, closed := [⟨0, 900, 1, true⟩] })]⟩ } }) (3) (21) (0) (404) (0) (⟨0, 0, false, false, 0, false, [], 0, 0, 0, 0, 0, false⟩) (⟨0, 900, 1, true⟩) ([])) [1, 3, 6, 8, 11, 13, 14] = true := by
  decide +kernel

theorem witness_DecimationChannels_2 : met (hypsDecimationChannels
    ({ State.reset with dce := { State.reset.dce with chans := ⟨[(48, { DceCh.init with on := true })]⟩, gates := ⟨[(64, [(0, true)])]⟩ } }) (1) (16) (0) (0) (0) (⟨0, 0, false, false, 0, false, [], 0, 0, 0, 0, 0, false⟩) (⟨0, 0, 0, false⟩) ([])) [4] = true := by
  decide +kernel

/-- The hypotheses of the clauses of `Obligations.HeadPorts`. -/
def hypsHeadPorts (s : State) (h i n k tag : Nat) (v : Word) (b : HBand) (line : HLine) (ue : Bool) : List Bool :=
  let x := s.head h
  let now := s.clock.tick
  let ctl := Reg.HD_CTL h
  let on := s.bit ctl F.HD_CTL_Enable = true
  let pulse := pgPulseStarts (16 * h + s.fld ctl F.HD_CTL_LatchPg) s = true
  let seq := (s.reg (Reg.HD_NEXTSEQ h)).toNat
  let direct := s.bit ctl F.HD_CTL_Source = false
  let noAudit := s.fld (Reg.HD_PROF2 h) F.HD_PROF2_SenseChannels = 0
  let prio := if i = 0 then x.prio0 else x.prio1
  let cls := F.HD_NMAP_Class.get v
  let old := F.HD_NMAP_Class.get (s.reg (Reg.HD_NMAP h n))
  let newer := (BitVec.ofNat 24 (F.HD_NMAP_Stamp.get v) - BitVec.ofNat 24 (F.HD_NMAP_Stamp.get (s.reg
      (Reg.HD_NMAP h n)))).toInt
  let inMap := n < s.fld (Reg.HD_PROF1 h) F.HD_PROF1_Nozzles
  let cap := 2 ^ s.fld (Reg.HD_PLANCFG h) F.HD_PLANCFG_SizeLog2 / 16
  let w := if k = 0 ∧ F.HD_PROF0_Lanes.get v = 3 then F.HD_PROF0_Lanes.put v 2 else if k = 2 ∧
      F.HD_PROF2_SenseChannels.get v = 3 then F.HD_PROF2_SenseChannels.put v 2 else v
  let s' := s.plainWrite (Reg.HD_PROF0 h + 4 * k) w
  let nozzles := s'.fld (Reg.HD_PROF1 h) F.HD_PROF1_Nozzles
  let fits := nozzles % 2 = 0 ∧ 2 ≤ nozzles ∧ nozzles ≤ 4096 ∧ nozzles % 2 ^ s'.fld (Reg.HD_PROF0 h)
      F.HD_PROF0_Lanes = 0
  [ decide (h < 32 ∧ i < 2 ∧ n < 4096 ∧ k < 3 ∧ on ∧ pulse ∧ x.edge ≠ now + 1 ∧ x.shiftEnd = none ∧
        x.shifted.all (fun c => c.audits = []) = true),
    decide (h < 32 ∧ i < 2 ∧ n < 4096 ∧ k < 3 ∧ (¬ on ∨ ¬ pulse ∨ x.edge = now + 1)),
    decide (h < 32 ∧ i < 2 ∧ n < 4096 ∧ k < 3 ∧ on ∧ x.shiftAt = some now ∧ x.cur = none ∧ readEntry h seq s =
        .absent),
    decide (h < 32 ∧ i < 2 ∧ n < 4096 ∧ k < 3 ∧ on ∧ x.shiftAt = some now ∧ x.cur = some b ∧ direct ∧ noAudit ∧
        b.critical = false),
    decide (h < 32 ∧ i < 2 ∧ n < 4096 ∧ k < 3 ∧ (¬ on ∨ x.shiftAt ≠ some now)),
    decide (h < 32 ∧ i < 2 ∧ n < 4096 ∧ k < 3 ∧ x.shiftEnd.any (fun e => e ≤ now) = true ∧ x.cur = some b),
    decide (h < 32 ∧ i < 2 ∧ n < 4096 ∧ k < 3 ∧ x.shiftEnd.any (fun e => e ≤ now) = false),
    decide (h < 32 ∧ i < 2 ∧ n < 4096 ∧ k < 3 ∧ on ∧ x.poll ≤ now),
    decide (h < 32 ∧ i < 2 ∧ n < 4096 ∧ k < 3 ∧ (¬ on ∨ now < x.poll)),
    decide (h < 32 ∧ i < 2 ∧ n < 4096 ∧ k < 3 ∧ on ∧ direct ∧ nextBlock h s = some (b, n) ∧ frozenIn (b.base + n
        * blockBytes h s) (blockBytes h s) s = false),
    decide (h < 32 ∧ i < 2 ∧ n < 4096 ∧ k < 3 ∧ (¬ on ∨ ¬ direct ∨ nextBlock h s = none)),
    decide (h < 32 ∧ i < 2 ∧ n < 4096 ∧ k < 3 ∧ (on ∨ ¬ fits)),
    decide (h < 32 ∧ i < 2 ∧ n < 4096 ∧ k < 3 ∧ ¬ on ∧ fits),
    decide (h < 32 ∧ i < 2 ∧ n < 4096 ∧ k < 3 ∧ 128 ≤ prio.length),
    decide (h < 32 ∧ i < 2 ∧ n < 4096 ∧ k < 3 ∧ prio.length < 128),
    decide (h < 32 ∧ i < 2 ∧ n < 4096 ∧ k < 3 ∧ ¬ inMap),
    decide (h < 32 ∧ i < 2 ∧ n < 4096 ∧ k < 3 ∧ inMap ∧ (7 ≤ cls ∨ old = 6 ∧ cls ≠ 6)),
    decide (h < 32 ∧ i < 2 ∧ n < 4096 ∧ k < 3 ∧ inMap ∧ (cls = 6 ∨ cls < 6 ∧ old ≠ 6 ∧ 0 ≤ newer)),
    decide (h < 32 ∧ i < 2 ∧ n < 4096 ∧ k < 3 ∧ inMap ∧ cls < 6 ∧ old ≠ 6 ∧ newer < 0),
    decide (h < 32 ∧ i < 2 ∧ n < 4096 ∧ k < 3 ∧ n = F.HD_NMAPCMD_Nozzle.get v ∧ inMap ∧ old = 6),
    decide (h < 32 ∧ i < 2 ∧ n < 4096 ∧ k < 3 ∧ n = F.HD_NMAPCMD_Nozzle.get v ∧ (¬ inMap ∨ old ≠ 6)),
    decide (h < 32 ∧ i < 2 ∧ n < 4096 ∧ k < 3 ∧ regsWf s.regs = true ∧ old ≠ 0 ∧ old ≠ 6 ∧ 2 ^ 23 < (s.clock.lt
        / 65536 % 2 ^ 24 + 2 ^ 24 - F.HD_NMAP_Stamp.get (s.reg (Reg.HD_NMAP h n))) % 2 ^ 24),
    decide (h < 32 ∧ i < 2 ∧ n < 4096 ∧ k < 3 ∧ regsWf s.regs = true ∧ (old = 0 ∨ old = 6)),
    decide (h < 32 ∧ i < 2 ∧ n < 4096 ∧ k < 3 ∧ x.sets.any (fun c => c.tag = tag && decide (c.expiry ≤
        s.clock.lt)) = true),
    decide (h < 32 ∧ i < 2 ∧ n < 4096 ∧ k < 3 ∧ x.sets.any (fun c => c.tag = tag && decide (c.expiry ≤
        s.clock.lt)) = false),
    decide (h < 32 ∧ i < 2 ∧ n < 4096 ∧ k < 3 ∧ ringHeld (s.reg (Reg.HD_PLANWR h)).toNat v.toNat ≤ cap),
    decide (h < 32 ∧ i < 2 ∧ n < 4096 ∧ k < 3 ∧ cap < ringHeld (s.reg (Reg.HD_PLANWR h)).toNat v.toNat) ]

theorem witness_HeadPorts_0 : met (hypsHeadPorts
    ({ State.reset with regs := [(3506176, 1), (3522680, 2147483638)], clock := { Clock.init with tick := 8000 }, heads := ⟨[(11, { Head.init with cur := some (⟨5, 77, 3, false, true, false, 4295098368, 0, 0⟩), shiftAt := some (8000), prio0 := [4, 4, 4, 4, 4, 4, 4, 4, 4, 4, 4, 4, 4, 4, 4, 4, 4, 4, 4, 4, 4, 4, 4, 4, 4, 4, 4, 4, 4, 4, 4, 4, 4, 4, 4, 4, 4, 4, 4, 4, 4, 4, 4, 4, 4, 4, 4, 4, 4, 4, 4, 4, 4, 4, 4, 4, 4, 4, 4, 4, 4, 4, 4, 4, 4, 4, 4, 4, 4, 4, 4, 4, 4, 4, 4, 4, 4, 4, 4, 4, 4, 4, 4, 4, 4, 4, 4, 4, 4, 4, 4, 4, 4, 4, 4, 4, 4, 4, 4, 4, 4, 4, 4, 4, 4, 4, 4, 4, 4, 4, 4, 4, 4, 4, 4, 4, 4, 4, 4, 4, 4, 4, 4, 4, 4, 4, 4, 4], sets := [⟨77, 0, 0, 0, 0, 0⟩] })]⟩ }) (11) (0) (30) (0) (77) (30) (⟨5, 77, 3, false, true, false, 4295098368, 0, 0⟩) (⟨0, 0, [], false⟩) (false)) [1, 3, 6, 7, 10, 11, 13, 16, 19, 22, 23, 26] = true := by
  decide +kernel

theorem witness_HeadPorts_1 : met (hypsHeadPorts
    ({ State.reset with regs := [(4063240, 2017427520), (4079916, 2912951265)], clock := { Clock.init with lt := 549755813903 }, heads := ⟨[(28, { Head.init with cur := some (⟨5, 77, 3, false, false, false, 4295098368, 0, 0⟩), shiftEnd := some (0) })]⟩ }) (28) (0) (75) (0) (0) (75) (⟨5, 77, 3, false, false, false, 4295098368, 0, 0⟩) (⟨0, 0, [], false⟩) (false)) [4, 5, 8, 12, 14, 15, 20, 21, 24] = true := by
  decide +kernel

theorem witness_HeadPorts_2 : met (hypsHeadPorts
    ({ State.reset with regs := [(3178496, 693237031), (3195020, 2147483636)], clock := { Clock.init with tick := 8000 }, pgs := ⟨[(25, { Pg.init with run := some (⟨0, 0, 0, 1, 0, 0, 8000, 1, false, false, false⟩) })]⟩, heads := ⟨[(1, { Head.init with shiftAt := some (8000) })]⟩ }) (1) (0) (35) (0) (0) (0) (⟨0, 0, 0, false, false, false, 0, 0, 0⟩) (⟨0, 0, [], false⟩) (false)) [0, 2, 18, 25] = true := by
  decide +kernel

theorem witness_HeadPorts_3 : met (hypsHeadPorts
    ({ State.reset with regs := [(3571712, 1), (3571748, 2)], heads := ⟨[(13, { Head.init with cur := some (⟨5, 77, 3, false, false, false, 4295098368, 0, 0⟩), ready := [5] })]⟩ }) (13) (0) (2) (0) (0) (0) (⟨5, 77, 3, false, false, false, 4295098368, 0, 0⟩) (⟨0, 0, [], false⟩) (false)) [9, 17] = true := by
  decide +kernel

/-- The hypotheses of the clauses of `Obligations.ProofLedger`. -/
def hypsProofLedger (s : State) (tag : Nat) (v : Word) (req : Req) (r : PRec) (x : PReject) : List Bool :=
  let now := s.clock.tick
  let enc := s.encOf (s.fld Reg.PL_CTL F.PL_CTL_Encoder)
  let offset := fun (a : Nat) => let o : Nat := s.reg64 a % 2 ^ 40; if o < 2 ^ 39 then (o : Int) else (o : Int) - 2 ^ 40
  let at' := fun (p : Nat) (o : Int) => BitVec.ofInt 40 ((p : Int) + o)
  let crosses := fun (a : Nat) => (enc.prevEst - at' r.p0 (offset a)).toInt < 0 ∧ 0 ≤ (enc.est - at' r.p0
      (offset a)).toInt
  let reached := fun (o : Int) => 0 ≤ (enc.est - at' x.pos o).toInt
  let found := s.ledger.recs.find? (fun r => r.tag = tag) = some r
  let none' := s.ledger.recs.find? (fun r => r.tag = tag) = none
  let rejects := s.ledger.rejects.find? (fun y => y.tag = tag) = some x
  let tgt := F.PL_REJTGT_Target.get (s.reg Reg.PL_REJTGT)
  let shut := F.CQ_TCTL_Mode.get (actingCfg tgt s).2 ≠ 2
  let action := if 640 ≤ tgt ∧ tgt < 896 then F.PL_REJTGT_Action.get (s.reg Reg.PL_REJTGT) else 0
  let ask := ArmAsk.mk (.reject tag) tgt (Arm.mk true x.pos (s.fld Reg.PL_CTL F.PL_CTL_Encoder) 0 (s.fld
      Reg.PL_REJDLY F.PL_REJDLY_Delay) action 1)
  let answer := (armTarget tgt ask.arm s).1.1
  let asked := s.asks.arms.any (fun a => a.who == .reject tag) = true
  let cmdTag := (s.preg req Reg.PL_CMDTAG).toNat = tag
  let counts := r.closed = false ∨ r.verdict = 0 ∧ r.closeTick / 2 = now / 2
  let cap := s.reg (Reg.CQ_CAPCTL (F.PL_CTL_DetectCap.get v))
  let size := s.fld Reg.PL_RINGCFG F.PL_RINGCFG_SizeLog2
  let base := s.reg64 Reg.PL_RINGBASE_LO % 2 ^ 48
  let good := F.CQ_CAPCTL_PosEnable.get cap = 1 ∧ F.CQ_CAPCTL_Encoder.get cap = F.PL_CTL_Encoder.get v ∧ 0 <
      offset Reg.PL_CLOSEOFS_LO ∧ offset Reg.PL_CLOSEOFS_LO < offset Reg.PL_REJOFS_LO - ((s.reg
      Reg.PL_REJLEAD).toNat : Int) ∧ inRingMemory (base - base % 2 ^ size) (2 ^ size) s = true
  let on := s.bit Reg.PL_CTL F.PL_CTL_Enable = true
  [ decide (found ∧ r.closed = false ∧ crosses Reg.PL_CLOSEOFS_LO),
    decide (found ∧ r.closed = false ∧ ¬ crosses Reg.PL_CLOSEOFS_LO),
    decide (found ∧ r.closed = true ∧ r.verdict = 0 ∧ r.closeTick / 2 < now / 2),
    decide (none'),
    decide (found ∧ crosses Reg.PL_REJOFS_LO),
    decide (found ∧ ¬ crosses Reg.PL_REJOFS_LO),
    decide (rejects ∧ x.next = none ∧ reached (-((s.reg Reg.PL_REJLEAD).toNat : Int))),
    decide (rejects ∧ shut),
    decide (rejects ∧ answer ≠ 1),
    decide (rejects ∧ (¬ reached (-((s.reg Reg.PL_REJLEAD).toNat : Int)) ∨ x.next ≠ none)),
    decide (rejects ∧ x.next ≠ none ∧ ¬ asked ∧ reached 0),
    decide (rejects ∧ x.next.any (fun u => u ≤ now) = true ∧ ¬ asked ∧ ¬ reached 0),
    decide (rejects ∧ (x.next = none ∨ asked ∨ ¬ reached 0 ∧ x.next.any (fun u => u ≤ now) = false)),
    decide (cmdTag ∧ found ∧ counts),
    decide (cmdTag ∧ found ∧ ¬ counts),
    decide (cmdTag ∧ none'),
    decide (cmdTag ∧ found),
    decide (¬ on ∧ F.PL_CTL_Enable.get v = 1 ∧ good),
    decide (¬ on ∧ F.PL_CTL_Enable.get v = 1 ∧ ¬ good),
    decide (on ∧ F.PL_CTL_Enable.get v = 0),
    decide (ringHeld (s.reg Reg.PL_RINGWR).toNat v.toNat ≤ 2 ^ size / 32),
    decide (2 ^ size / 32 < ringHeld (s.reg Reg.PL_RINGWR).toNat v.toNat) ]

theorem witness_ProofLedger_0 : met (hypsProofLedger
    ({ State.reset with regs := [(720896, 413564149), (720932, 650), (1155716, 2)], perReq := ⟨[(0, ⟨[(720968, 77)]⟩)]⟩, encs := ⟨[(28, { Enc.init with est := 206, prevEst := 192 })]⟩, ledger := { State.reset.ledger with recs := [⟨77, 9, 2, 147, 5, false, 997, 0, 0, 82, 0, 0, 0, 0⟩], rejects := [⟨77, 126, some (1000)⟩] } }) (77) (7208) ((Req.host)) (⟨77, 9, 2, 147, 5, false, 997, 0, 0, 82, 0, 0, 0, 0⟩) (⟨77, 126, some (1000)⟩)) [1, 5, 8, 9, 10, 13, 16, 19, 21] = true := by
  decide +kernel

theorem witness_ProofLedger_1 : met (hypsProofLedger
    ({ State.reset with regs := [(720896, 171650286), (720912, 1), (720920, 40), (720928, 0), (720952, 1), (1180672, 44)], perReq := ⟨[(0, ⟨[(720968, 77)]⟩)]⟩, clock := { Clock.init with tick := 1001 }, encs := ⟨[(12, { Enc.init with est := 188 })]⟩, ledger := { State.reset.ledger with recs := [⟨77, 9, 2, 144, 5, true, 998, 0, 0, 404, 0, 0, 0, 0⟩], rejects := [⟨77, 158, none⟩] } }) (77) (3105) ((Req.host)) (⟨77, 9, 2, 144, 5, true, 998, 0, 0, 404, 0, 0, 0, 0⟩) (⟨77, 158, none⟩)) [2, 4, 6, 7, 12, 14, 17] = true := by
  decide +kernel

theorem witness_ProofLedger_2 : met (hypsProofLedger
    ({ State.reset with perReq := ⟨[(0, ⟨[(720968, 77)]⟩)]⟩, clock := { Clock.init with tick := 1001 }, ledger := { State.reset.ledger with rejects := [⟨77, 132, some (1001)⟩] } }) (77) (1) ((Req.host)) (⟨0, 0, 0, 0, 0, false, 0, 0, 0, 0, 0, 0, 0, 0⟩) (⟨77, 132, some (1001)⟩)) [3, 11, 15, 18] = true := by
  decide +kernel

theorem witness_ProofLedger_3 : met (hypsProofLedger
    ({ State.reset with encs := ⟨[(0, { Enc.init with est := 152 })]⟩, ledger := { State.reset.ledger with recs := [⟨77, 9, 2, 142, 5, false, 995, 0, 1, 3032, 0, 0, 0, 0⟩] } }) (77) (0) ((Req.host)) (⟨77, 9, 2, 142, 5, false, 995, 0, 1, 3032, 0, 0, 0, 0⟩) (⟨0, 0, none⟩)) [0, 20] = true := by
  decide +kernel

/-- The hypotheses of the clauses of `Obligations.MemoryTests`. -/
def hypsMemoryTests (s : State) (m a c r start : Nat) (v : Word) (again : Bool) (k : BankCopy) (fresh : List Nat) : List Bool :=
  let now := s.clock.tick
  let x := s.tester m
  let spares := s.memt.spares.get 0 (32 * m + r / bankRows m)
  let idle := ∀ n : Nat, n < 192 → n / 16 = c → (s.eng n).st = .held ∨ (s.eng n).st = .parked
  let retained := s.bit (Reg.TST_RETCTL c) F.TST_RETCTL_Retained = true
  let waking := s.bit (Reg.TST_RETCTL c) F.TST_RETCTL_Waking = true
  let starts := (m < 0xCC ∨ 0x100 ≤ m ∧ m ≤ 0x180) ∧ s.bit Reg.TST_CTL F.TST_CTL_TestEnable = true ∧ x.row =
      none ∧ memRetained m s = false ∧ (x.startAt = 0 ∨ x.startAt - 1 + 1600 * s.fld Reg.TST_CTL F.TST_CTL_WindowGap
      ≤ now)
  [ decide (c < 12 ∧ m < 0x200 ∧ memIdOf a s = some m),
    decide (c < 12 ∧ m < 0x200 ∧ memIdOf a s = none),
    decide (c < 12 ∧ m < 0x200 ∧ starts),
    decide (c < 12 ∧ m < 0x200 ∧ ¬ starts),
    decide (c < 12 ∧ m < 0x200 ∧ x.row ≠ none),
    decide (c < 12 ∧ m < 0x200 ∧ x.row = none),
    decide (c < 12 ∧ m < 0x200 ∧ x.left = true),
    decide (c < 12 ∧ m < 0x200 ∧ x.left = false),
    decide (c < 12 ∧ m < 0x200 ∧ x.row = some r ∧ x.left = false),
    decide (c < 12 ∧ m < 0x200 ∧ x.row = some r ∧ x.left = false ∧ spares < 4),
    decide (c < 12 ∧ m < 0x200 ∧ x.row = some r ∧ x.left = false ∧ 4 ≤ spares),
    decide (c < 12 ∧ m < 0x200 ∧ (x.row = none ∨ x.left = true)),
    decide (c < 12 ∧ m < 0x200 ∧ s.memt.copies.get none c = some k ∧ k.start + 32768 ≤ now),
    decide (c < 12 ∧ m < 0x200 ∧ s.memt.copies.get none c = some k ∧ now < k.start + 32768),
    decide (c < 12 ∧ m < 0x200 ∧ s.memt.copies.get none c = none),
    decide (c < 12 ∧ m < 0x200 ∧ F.TST_RETCTL_Wake.get v = 0 ∧ ¬ retained ∧ idle),
    decide (c < 12 ∧ m < 0x200 ∧ F.TST_RETCTL_Wake.get v = 0 ∧ ¬ retained ∧ ¬ idle),
    decide (c < 12 ∧ m < 0x200 ∧ s.memt.retain.get none c ≠ none),
    decide (c < 12 ∧ m < 0x200 ∧ s.memt.retain.get none c = none),
    decide (c < 12 ∧ m < 0x200 ∧ retained ∧ ¬ waking),
    decide (c < 12 ∧ m < 0x200 ∧ ¬ retained ∧ F.TST_RETCTL_Retain.get v = 0),
    decide (c < 12 ∧ m < 0x200 ∧ s.memt.wake.get none c = some start ∧ start + 4800 ≤ now),
    decide (c < 12 ∧ m < 0x200 ∧ s.memt.wake.get none c = some start ∧ now < start + 4800),
    decide (c < 12 ∧ m < 0x200 ∧ s.memt.wake.get none c = none) ]

theorem witness_MemoryTests_0 : met (hypsMemoryTests
    ({ State.reset with memt := { State.reset.memt with testers := ⟨[(201, { Tester.init with row := some (7058) })]⟩, copies := ⟨[(9, some (⟨7, 980000, 5⟩))]⟩ } }) (201) (4333378111) (9) (7058) (0) (0) (false) (⟨7, 980000, 5⟩) ([])) [0, 3, 4, 7, 8, 9, 13, 15, 18, 20, 23] = true := by
  decide +kernel

theorem witness_MemoryTests_1 : met (hypsMemoryTests
    ({ State.reset with regs := [(12583448, 256)], clock := { Clock.init with tick := 1000000 }, memt := { State.reset.memt with testers := ⟨[(129, { Tester.init with left := true })]⟩, copies := ⟨[(8, some (⟨2, 490000, 5⟩))]⟩, retain := ⟨[(8, some (0))]⟩, wake := ⟨[(8, some (995200))]⟩ } }) (129) (0) (8) (0) (995200) (0) (false) (⟨2, 490000, 5⟩) ([])) [1, 5, 6, 11, 12, 17, 19, 21] = true := by
  decide +kernel

theorem witness_MemoryTests_2 : met (hypsMemoryTests
    ({ State.reset with engs := ⟨[(175, { Engine.init with st := (EngSt.retained) })]⟩, memt := { State.reset.memt with wake := ⟨[(10, some (995201))]⟩ } }) (0) (0) (10) (0) (995201) (0) (false) (⟨0, 0, 0⟩) ([])) [2, 14, 16, 22] = true := by
  decide +kernel

theorem witness_MemoryTests_3 : met (hypsMemoryTests
    ({ State.reset with memt := { State.reset.memt with testers := ⟨[(202, { Tester.init with row := some (8703) })]⟩, spares := ⟨[(6480, 4)]⟩ } }) (202) (0) (0) (8703) (0) (0) (false) (⟨0, 0, 0⟩) ([])) [10] = true := by
  decide +kernel

/-- The hypotheses of the clauses of `Obligations.Lpddr`. -/
def hypsLpddr (s : State) (a k p cls who err : Nat) (super again : Bool) (bs : List Byte) (v : Word) : List Bool :=
  let size := fun (t : State) => (1048576 * t.fld Reg.MEMC_SIZES F.MEMC_SIZES_PlainMiB, 1048576 * t.fld
      Reg.MEMC_SIZES F.MEMC_SIZES_MirrorMiB)
  let inside := 0x1000000000 ≤ a ∧ a < 0x1000000000 + (size s).1 + (size s).2
  let u : Accessor := if cls = 0 then .dataPort else if cls = 4 ∨ cls = 5 then .engine who super else .other
  let active := (List.range 4).filter (fun j => (s.fld Reg.MEMC_STAT F.MEMC_STAT_Active).testBit j)
  let dead := fun (j : Nat) => s.bit (Reg.MEMC_CHSTAT j) F.MEMC_CHSTAT_Failed = true
  let reads := inside ∧ fenceOk u false a 1 s = true
  let ecc := s.bit Reg.MEMC_CFG F.MEMC_CFG_EccEnable = true
  let alone := channelsOf a s = [k] ∧ ¬ dead k
  let fresh := s.poisoned a = false
  let config := Reg.MEMC_CFG
  let units := F.MEMC_CFG_MirrorUnits.get v
  let first := active.headD 4
  let usable : Nat := if active = [] then 0 else let c : Nat := 1024 * s.fld (Reg.MEMC_CHSTAT first) F.MEMC_CHSTAT_CapGiB; if F.MEMC_CFG_EccEnable.get v = 1 then c * 31 / 32 else c
  let refused := 0 < units ∧ (active.length = 1 ∨ usable < 256 * units)
  let locked := s.bit config F.MEMC_CFG_Lock = true
  let failing := k ∈ active ∧ ¬ dead k
  let blocks : Nat := ((size s).1 + 2 * (size s).2) / 64
  let sweeps := s.bit Reg.MEMC_SCRUB F.MEMC_SCRUB_ScrubEnable = true ∧ 0 < blocks
  [ decide (k < 4 ∧ ¬ inside),
    decide (k < 4 ∧ inside ∧ ¬ reads),
    decide (k < 4 ∧ reads ∧ ecc ∧ alone ∧ fresh),
    decide (k < 4 ∧ reads ∧ ecc ∧ isMirrored a s = true ∧ channelsOf a s = [k, p] ∧ ¬ dead k ∧ ¬ dead p ∧ fresh),
    decide (k < 4 ∧ inside ∧ 0 < bs.length ∧ a % 64 + bs.length ≤ 64 ∧ fenceOk u true a bs.length s = true ∧ (∃
        j ∈ channelsOf a s, ¬ dead j)),
    decide (k < 4 ∧ inside ∧ 0 < bs.length ∧ a % 64 + bs.length ≤ 64 ∧ fenceOk u true a bs.length s = true ∧
        channelsOf a s ≠ [] ∧ (∀ j ∈ channelsOf a s, dead j)),
    decide (k < 4 ∧ inside ∧ 0 < bs.length ∧ a % 64 + bs.length ≤ 64 ∧ fenceOk u true a bs.length s = false),
    decide (k < 4 ∧ failing),
    decide (k < 4 ∧ ¬ failing),
    decide (k < 4 ∧ sweeps ∧ s.lpddr.scrub + 1 < blocks),
    decide (k < 4 ∧ sweeps ∧ blocks ≤ s.lpddr.scrub + 1),
    decide (k < 4 ∧ ¬ sweeps),
    decide (k < 4 ∧ locked),
    decide (k < 4 ∧ ¬ locked ∧ refused),
    decide (k < 4 ∧ ¬ locked ∧ ¬ refused) ]

theorem witness_Lpddr_0 : met (hypsLpddr
    ({ State.reset with regs := [(524288, 15), (524296, 1), (524300, 0)] }) (68719477643) (3) (0) (0) (0) (0) (false) (false) ([0]) (0)) [2, 4, 7, 11, 14] = true := by
  decide +kernel

theorem witness_Lpddr_1 : met (hypsLpddr
    ({ State.reset with regs := [(197636, 16), (197640, 2147483693), (524296, 1)] }) (68719476890) (0) (0) (0) (0) (0) (false) (false) ([0]) (8389142)) [1, 6, 8, 9, 13] = true := by
  decide +kernel

theorem witness_Lpddr_2 : met (hypsLpddr
    ({ State.reset with regs := [(524288, 1), (524292, 2147483651), (524296, 1), (524544, 36)], lpddr := { State.reset.lpddr with scrub := 16383 } }) (68719476928) (0) (0) (0) (0) (0) (false) (false) ([0]) (0)) [5, 10, 12] = true := by
  decide +kernel

theorem witness_Lpddr_3 : met (hypsLpddr
    (State.reset) (0) (0) (0) (0) (0) (0) (false) (false) ([]) (0)) [0] = true := by
  decide +kernel

theorem witness_Lpddr_4 : met (hypsLpddr
    ({ State.reset with regs := [(524288, 15), (524296, 65537)] }) (68720525376) (0) (1) (0) (0) (0) (false) (false) ([]) (0)) [3] = true := by
  decide +kernel

/-- The hypotheses of the clauses of `Obligations.HostPorts`. -/
def hypsHostPorts (s : State) (n o len a be : Nat) (v w : Word) (ws : List Word) (burst : DpBurst) (r : SeamReq) : List Bool :=
  let up := s.host.d3 = false
  let now := s.clock.tick
  let dword : Nat := a / 4 * 4
  let table := 0x68000 ≤ a ∧ a < 0x70000
  let reaches := s.fld Reg.JRN_STAT F.JRN_STAT_State ≠ stateHalted ∨ a < 0x10000 ∨ 0x20000 ≤ a ∧ a < 0x30000 ∨
      0x60000 ≤ a ∧ a < 0x70000
  let noBurst := (∀ m : Nat, m < 16 → s.host.aperture.get none m = none) ∧ hostWaits s = false
  let thawed := dpFrozen n o len s = false
  let cur := s.base48 (Reg.DP_ADDR_LO n)
  let k := s.fld (Reg.DP_CTL n) F.DP_CTL_WrapLog2
  let wrap := s.base48 (Reg.DP_WRAPBASE_LO n)
  let wrapBase := wrap - wrap % 2 ^ k
  let fold := fun (x : Int) => if k = 0 then (x % 281474976710656).toNat else (wrapBase + ((x - (wrapBase :
      Int)) % (2 : Int) ^ k).toNat) % 281474976710656
  let auto := fun (i : Nat) => (s.fld (Reg.DP_CTL n) F.DP_CTL_AutoInc).testBit i = true
  let start := fun (i : Nat) => if auto i then cur else cur + o
  let target := fun (i j : Nat) => fold ((start i + j : Nat) : Int)
  let on := s.bit (Reg.DP_CTL n) F.DP_CTL_Enable = true
  let ok := fun (write : Bool) (i l : Nat) => on ∧ ∀ j : Nat, j < l → dpAllowed .dataPort write (target i j) s =
      true
  let held := s.host.aperture.get none n
  let bytes := ws.flatMap (fun w => leBytes 4 w.toNat)
  let size := 4 * ws.length
  let oneBlock := ∀ j : Nat, j < size → target 1 j = target 1 0 + j ∧ (target 1 0 + j) / 4096 = target 1 0 /
      4096
  let ends := (target 1 0 + size) % 4096 = 0
  let stop := burst.start + burst.bytes.length
  let local' := ∀ j < burst.bytes.length, dpAllowed .dataPort true (burst.start + j) s = true ∧ s.poisoned
      (burst.start + j) = false ∧ isSeam (burst.start + j) s = false
  let lone := s.memt.writes = [] ∧ frozenIn burst.start burst.bytes.length s = false ∧ held = some burst ∧
      burst.bytes.length ≤ 4096 ∧ local'
  [ decide (n < 16 ∧ a < 0x1000000 ∧ len < 512 ∧ up ∧ reaches),
    decide (n < 16 ∧ a < 0x1000000 ∧ len < 512 ∧ up ∧ reaches ∧ ¬ table ∧ 0 < ws.length ∧ ws.length < 16),
    decide (n < 16 ∧ a < 0x1000000 ∧ len < 512 ∧ up ∧ be < 15 ∧ ¬ table),
    decide (n < 16 ∧ a < 0x1000000 ∧ len < 512 ∧ up ∧ ¬ reaches),
    decide (n < 16 ∧ a < 0x1000000 ∧ len < 512 ∧ up ∧ ws ≠ []),
    decide (n < 16 ∧ a < 0x1000000 ∧ len < 512 ∧ up ∧ 16 < ws.length),
    decide (n < 16 ∧ a < 0x1000000 ∧ len < 512 ∧ up ∧ be < 15 ∧ table),
    decide (n < 16 ∧ a < 0x1000000 ∧ len < 512 ∧ ¬ up),
    decide (n < 16 ∧ a < 0x1000000 ∧ len < 512 ∧ up ∧ noBurst ∧ 0 < len ∧ len ≤ 16),
    decide (n < 16 ∧ a < 0x1000000 ∧ len < 512 ∧ up ∧ noBurst ∧ reaches ∧ ¬ table ∧ (0x70000 ≤ a ∨ a < 0x67000)
        ∧ assigned dword = false),
    decide (n < 16 ∧ a < 0x1000000 ∧ len < 512 ∧ up ∧ noBurst ∧ a = Reg.DP_STRIDE n ∧ reaches),
    decide (n < 16 ∧ a < 0x1000000 ∧ len < 512 ∧ up ∧ noBurst ∧ 16 < len),
    decide (n < 16 ∧ a < 0x1000000 ∧ len < 512 ∧ up ∧ noBurst ∧ table ∧ 0 < len ∧ len ≤ 16),
    decide (n < 16 ∧ a < 0x1000000 ∧ len < 512 ∧ up ∧ 0 < len ∧ hostWaits s = true),
    decide (n < 16 ∧ a < 0x1000000 ∧ len < 512 ∧ up ∧ 0 < size ∧ size ≤ 2048 ∧ ok true 1 size ∧ oneBlock ∧ held
        = none ∧ ¬ ends),
    decide (n < 16 ∧ a < 0x1000000 ∧ len < 512 ∧ up ∧ 0 < size ∧ size ≤ 2048 ∧ ok true 1 size ∧ oneBlock ∧ held
        = some burst ∧ stop = target 1 0 ∧ ¬ ends),
    decide (n < 16 ∧ a < 0x1000000 ∧ len < 512 ∧ up ∧ 0 < size ∧ size ≤ 2048 ∧ ok true 1 size ∧ oneBlock ∧ ends
        ∧ (held = none ∨ held = some burst ∧ stop = target 1 0)),
    decide (n < 16 ∧ a < 0x1000000 ∧ len < 512 ∧ up ∧ be < 16 ∧ held = none ∧ ok true 1 4 ∧ target 1 3 = target
        1 0 + 3 ∧ target 1 0 % 4096 < 4092 ∧ target 1 0 % 4 = 0),
    decide (n < 16 ∧ a < 0x1000000 ∧ len < 512 ∧ up ∧ 0 < size ∧ size ≤ 2048 ∧ ¬ ok true 1 size),
    decide (n < 16 ∧ a < 0x1000000 ∧ len < 512 ∧ up ∧ 0 < size),
    decide (n < 16 ∧ a < 0x1000000 ∧ len < 512 ∧ lone ∧ burst.last + 1600 ≤ now),
    decide (n < 16 ∧ a < 0x1000000 ∧ len < 512 ∧ held = some burst ∧ now < burst.last + 1600),
    decide (n < 16 ∧ a < 0x1000000 ∧ len < 512 ∧ held = none),
    decide (n < 16 ∧ a < 0x1000000 ∧ len < 512 ∧ lone),
    decide (n < 16 ∧ a < 0x1000000 ∧ len < 512 ∧ up ∧ 0 < len ∧ hostWaits s = false ∧ thawed),
    decide (n < 16 ∧ a < 0x1000000 ∧ len < 512 ∧ up ∧ 0 < len ∧ noBurst ∧ thawed ∧ ok false 0 (4 * len) ∧
        s.memt.writes = [] ∧ (∀ j < 4 * len, isSeam (target 0 j) s = false ∧ s.poisoned (target 0 j) = false)),
    decide (n < 16 ∧ a < 0x1000000 ∧ len < 512 ∧ up ∧ 0 < len ∧ noBurst ∧ thawed ∧ ok false 0 (4 * len) ∧
        s.memt.writes = [] ∧ isSeam (target 0 0) s = false ∧ (∃ j < 4 * len, s.poisoned (target 0 j) = true)),
    decide (n < 16 ∧ a < 0x1000000 ∧ len < 512 ∧ up ∧ 0 < len ∧ noBurst ∧ thawed ∧ ¬ ok false 0 (4 * len)),
    decide (n < 16 ∧ a < 0x1000000 ∧ len < 512 ∧ s.seam.reqs = [r] ∧ r.req = .host ∧ r.cls = clsRead ∧ r.win = n
        ∧ r.got = false ∧ r.port < 4 ∧ s.seam.dones = [] ∧ r.at' + 64000 ≤ now),
    decide (n < 16 ∧ a < 0x1000000 ∧ len < 512 ∧ s.seam.reqs = [r] ∧ r.req = .host ∧ r.cls = clsRead ∧ r.win = n
        ∧ r.got = false ∧ r.port < 4 ∧ now < r.at' + 64000),
    decide (n < 16 ∧ a < 0x1000000 ∧ len < 512 ∧ s.seam.reqs = []) ]

theorem witness_HostPorts_0 : met (hypsHostPorts
    ({ State.reset with regs := [(460288, 1), (460296, 1)], clock := { Clock.init with tick := 1000000 }, seam := { State.reset.seam with reqs := [⟨3, 225, 2, (Req.host), 6, 70368744177976, 935999, false, false⟩] } }) (6) (0) (1) (460300) (0) (0) (0) ([0]) (⟨0, [], 0⟩) (⟨3, 225, 2, (Req.host), 6, 70368744177976, 935999, false, false⟩)) [0, 1, 2, 4, 8, 10, 14, 17, 19, 22, 24, 25, 28] = true := by
  decide +kernel

theorem witness_HostPorts_1 : met (hypsHostPorts
    ({ State.reset with regs := [(131072, 2147484160)], clock := { Clock.init with tick := 1000000 }, host := { State.reset.host with aperture := ⟨[(3, some (⟨4294971420, [some (128), some (67), none, none, some (123), some (3), some (250), some (59), some (16), some (213), some (70), some (168)], 998399⟩))]⟩ }, asks := ⟨[], [], [(HostRead.bar0 0 1 false)], [], []⟩ }) (3) (0) (1) (459534) (0) (0) (0) ([0]) (⟨4294971420, [some (128), some (67), none, none, some (123), some (3), some (250), some (59), some (16), some (213), some (70), some (168)], 998399⟩) (⟨0, 0, 0, (Req.host), 0, 0, 0, false, false⟩)) [3, 13, 18, 20, 23, 30] = true := by
  decide +kernel

theorem witness_HostPorts_2 : met (hypsHostPorts
    ({ State.reset with seam := { State.reset.seam with reqs := [⟨3, 126, 2, (Req.host), 4, 70368744177988, 936001, false, false⟩] } }) (4) (0) (17) (64) (0) (0) (0) ([0, 0, 0, 0, 0, 0, 0, 0, 0, 0, 0, 0, 0, 0, 0, 0, 0]) (⟨0, [], 0⟩) (⟨3, 126, 2, (Req.host), 4, 70368744177988, 936001, false, false⟩)) [5, 9, 11, 29] = true := by
  decide +kernel

theorem witness_HostPorts_3 : met (hypsHostPorts
    ({ State.reset with regs := [(459264, 101), (459268, 44), (459284, 16), (524296, 1)], host := { State.reset.host with aperture := ⟨[(2, some (⟨68719476772, [none, some (84), some (23), none, some (229), some (17), some (143), some (185)], 998401⟩))]⟩ } }) (2) (0) (0) (426112) (0) (0) (0) ([0]) (⟨68719476772, [none, some (84), some (23), none, some (229), some (17), some (143), some (185)], 998401⟩) (⟨0, 0, 0, (Req.host), 0, 0, 0, false, false⟩)) [6, 15, 21] = true := by
  decide +kernel

theorem witness_HostPorts_4 : met (hypsHostPorts
    (State.reset) (0) (0) (1) (426228) (0) (0) (0) ([]) (⟨0, [], 0⟩) (⟨0, 0, 0, (Req.host), 0, 0, 0, false, false⟩)) [12, 27] = true := by
  decide +kernel

theorem witness_HostPorts_5 : met (hypsHostPorts
    ({ State.reset with host := { State.reset.host with d3 := true } }) (0) (0) (0) (0) (0) (0) (0) ([]) (⟨0, [], 0⟩) (⟨0, 0, 0, (Req.host), 0, 0, 0, false, false⟩)) [7] = true := by
  decide +kernel

theorem witness_HostPorts_6 : met (hypsHostPorts
    ({ State.reset with regs := [(460800, 97), (460804, 4012), (460820, 1)] }) (8) (16) (0) (0) (0) (0) (0) ([0, 0, 0, 0, 0, 0, 0, 0, 0, 0, 0, 0, 0, 0, 0, 0, 0]) (⟨0, [], 0⟩) (⟨0, 0, 0, (Req.host), 0, 0, 0, false, false⟩)) [16] = true := by
  decide +kernel

theorem witness_HostPorts_7 : met (hypsHostPorts
    ({ State.reset with regs := [(458752, 97), (458756, 64), (458772, 1)], poison := ⟨[(536870923, true)]⟩ }) (0) (24) (1) (0) (0) (0) (0) ([]) (⟨0, [], 0⟩) (⟨0, 0, 0, (Req.host), 0, 0, 0, false, false⟩)) [26] = true := by
  decide +kernel

/-- The hypotheses of the clauses of `Obligations.HostLinkAndBoot`. -/
def hypsHostLinkAndBoot (s : State) (k n speed width done b : Nat) (v : Word) (c : BootCmd) : List Bool :=
  let up := s.bit Reg.HOST_LINK F.HOST_LINK_Up = true
  let masked := (s.host.table.get 1 (4 * k + 3)).getLsbD 0 = true
  let goes := s.msixPend.get false k = true ∧ ¬ masked ∧ s.host.fnMask = false ∧ s.host.msixEn = true ∧
      s.host.busMaster = true ∧ up
  let fits := 1 ≤ speed ∧ speed ≤ s.fld Reg.HOST_CTL F.HOST_CTL_TargetSpeed
  let lanes := width = 1 ∨ width = 2 ∨ width = 4 ∨ width = 8
  let noBurst := ∀ m : Nat, m < 16 → s.host.aperture.get none m = none
  let busy := s.bit Reg.HOST_BOOT_STAT F.HOST_BOOT_STAT_Busy = true
  let command := fun (op : Nat) => BootCmd.mk op (s.fld Reg.HOST_BOOT_FADDR F.HOST_BOOT_FADDR_FAddr) (s.base48
      Reg.HOST_BOOT_MADDR_LO) (s.fld Reg.HOST_BOOT_LEN F.HOST_BOOT_LEN_Length)
  let beyond := 2 ^ s.fld Reg.HOST_BOOT_INFO F.HOST_BOOT_INFO_SizeLog2 < (command 0).flash + (command 0).len
  let inUse := fun (op : Nat) => op ≠ 1 ∧ touchesUse (command op) s = true
  let run := s.host.boot = some c
  let remote := isSeam c.mem s = true
  let low := c.mem + c.len < 0x400000000000
  let flash := fun (t : State) (a : Nat) => flashByte a t
  let reads := fun (a : Nat) => dpAllowed .boot false a s = true ∧ s.poisoned a = false
  [ decide (k < 2048 ∧ n < 16 ∧ goes),
    decide (k < 2048 ∧ n < 16 ∧ ¬ goes),
    decide (k < 2048 ∧ n < 16 ∧ noBurst),
    decide (k < 2048 ∧ n < 16 ∧ up ∧ noBurst),
    decide (k < 2048 ∧ n < 16 ∧ ¬ up),
    decide (k < 2048 ∧ n < 16 ∧ ¬ up ∧ fits ∧ lanes),
    decide (k < 2048 ∧ n < 16 ∧ (up ∨ ¬ fits ∨ ¬ lanes)),
    decide (k < 2048 ∧ n < 16 ∧ up ∧ fits ∧ speed ≠ s.fld Reg.HOST_LINK F.HOST_LINK_Speed),
    decide (k < 2048 ∧ n < 16 ∧ ¬ busy ∧ ¬ beyond ∧ ¬ inUse 1),
    decide (k < 2048 ∧ n < 16 ∧ (busy ∨ beyond ∨ inUse 1)),
    decide (k < 2048 ∧ n < 16 ∧ ¬ busy ∧ ¬ beyond ∧ ¬ inUse 2),
    decide (k < 2048 ∧ n < 16 ∧ (busy ∨ beyond ∨ inUse 2)),
    decide (k < 2048 ∧ n < 16 ∧ ¬ busy ∧ ¬ beyond ∧ ¬ inUse 3),
    decide (k < 2048 ∧ n < 16 ∧ (busy ∨ beyond ∨ inUse 3)),
    decide (k < 2048 ∧ n < 16 ∧ run ∧ c.op = 1 ∧ low ∧ (∀ j < c.len, dpAllowed .boot true (c.mem + j) s = true ∧
        s.poisoned (c.mem + j) = false ∧ (regionOf (c.mem + j) s).isStore = false)),
    decide (k < 2048 ∧ n < 16 ∧ run ∧ c.op = 1 ∧ low ∧ 0 < c.len ∧ dpAllowed .boot true c.mem s = false),
    decide (k < 2048 ∧ n < 16 ∧ run ∧ c.op = 2 ∧ low ∧ s.memt.writes = [] ∧ (∀ j < c.len, reads (c.mem + j))),
    decide (k < 2048 ∧ n < 16 ∧ run ∧ c.op = 2 ∧ low ∧ s.memt.writes = [] ∧ 0 < c.len ∧ ¬ reads c.mem),
    decide (k < 2048 ∧ n < 16 ∧ run ∧ c.op = 2 ∧ remote),
    decide (k < 2048 ∧ n < 16 ∧ run ∧ c.op = 3 ∧ 0 < c.len),
    decide (k < 2048 ∧ n < 16 ∧ run ∧ c.op = 1),
    decide (k < 2048 ∧ n < 16 ∧ s.host.boot = none) ]

theorem witness_HostLinkAndBoot_0 : met (hypsHostLinkAndBoot
    ({ State.reset with regs := [(393216, 3564851335), (393500, 1)], host := { State.reset.host with boot := some (⟨1, 131082, 12884901936, 27⟩) } }) (0) (0) (1) (0) (0) (0) (0) (⟨1, 131082, 12884901936, 27⟩)) [1, 2, 3, 6, 7, 9, 11, 13, 15, 20] = true := by
  decide +kernel

theorem witness_HostLinkAndBoot_1 : met (hypsHostLinkAndBoot
    ({ State.reset with host := { State.reset.host with boot := some (⟨2, 32959, 67108884, 29⟩) } }) (0) (0) (1) (1) (0) (0) (0) (⟨2, 32959, 67108884, 29⟩)) [4, 5, 8, 10, 12, 16] = true := by
  decide +kernel

theorem witness_HostLinkAndBoot_2 : met (hypsHostLinkAndBoot
    ({ State.reset with regs := [(393216, 4172745915)], host := { State.reset.host with table := ⟨[(2391, 0)]⟩, msixEn := true, busMaster := true, boot := some (⟨3, 105, 12884901952, 46⟩) }, msixPend := ⟨[(597, true)]⟩ }) (597) (0) (0) (0) (0) (0) (0) (⟨3, 105, 12884901952, 46⟩)) [0, 19] = true := by
  decide +kernel

theorem witness_HostLinkAndBoot_3 : met (hypsHostLinkAndBoot
    ({ State.reset with host := { State.reset.host with boot := some (⟨2, 32952, 70368744177736, 23⟩) } }) (0) (0) (0) (0) (0) (0) (0) (⟨2, 32952, 70368744177736, 23⟩)) [18] = true := by
  decide +kernel

theorem witness_HostLinkAndBoot_4 : met (hypsHostLinkAndBoot
    (State.reset) (0) (0) (0) (0) (0) (0) (0) (⟨0, 0, 0, 0⟩)) [21] = true := by
  decide +kernel

theorem witness_HostLinkAndBoot_5 : met (hypsHostLinkAndBoot
    ({ State.reset with host := { State.reset.host with boot := some (⟨1, 32921, 67108868, 10⟩) } }) (0) (0) (0) (0) (0) (0) (0) (⟨1, 32921, 67108868, 10⟩)) [14] = true := by
  decide +kernel

theorem witness_HostLinkAndBoot_6 : met (hypsHostLinkAndBoot
    ({ State.reset with host := { State.reset.host with boot := some (⟨2, 32845, 12884901916, 14⟩) } }) (0) (0) (0) (0) (0) (0) (0) (⟨2, 32845, 12884901916, 14⟩)) [17] = true := by
  decide +kernel

/-- The hypotheses of the clauses of `Obligations.ConfigurationStreams`. -/
def hypsConfigurationStreams (s : State) (sl k o a : Nat) (v : Word) (data : List Byte) (l : CfgLoad) (w : BitVec 16) (pair : Nat) (part level : Bool) : List Bool :=
  let now := s.clock.tick
  let st := s.fld Reg.CFG_STATUS F.CFG_STATUS_State
  let slv := fun (j : Nat) (t : State) => t.fld (Reg.CFG_SLVSTAT j) F.CFG_SLVSTAT_State
  let hi := Reg.CFG_FPWIN_HI sl k
  let size : Nat := 2 ^ s.fld hi F.CFG_FPWIN_HI_SizeLog2
  let low : Nat := (s.reg (Reg.CFG_FPWIN_LO sl k)).toNat + 4294967296 * s.fld hi F.CFG_FPWIN_HI_BaseHi
  let base : Nat := low - low % size
  let n := data.length
  let whole := 0 < n ∧ a % 64 + n ≤ 64
  let serves := fun (write : Bool) => s.bit hi F.CFG_FPWIN_HI_WinEnable = true ∧ (write = true → s.bit hi
      F.CFG_FPWIN_HI_Write = true) ∧ base ≤ a ∧ a + n ≤ base + size ∧ fabricMemory write a n s = true
  let clean := s.memt.writes = [] ∧ frozenIn a n s = false ∧ ∀ j : Nat, j < n → s.poisoned (a + j) = false
  let plainV := F.CFG_LOAD_Abort.get v = 0 ∧ F.CFG_LOAD_Go.get v = 0
  let run := s.cfg.load = some l
  let begun := s.cfg.edge.any (fun e => e < now) = true
  let edge := now % 4 = 0
  let due := s.reg64 Reg.CFG_APPLYAT_LO = 0 ∨ s.reg64 Reg.CFG_APPLYAT_LO ≤ s.clock.lt
  let port := s.cfg.port
  let mode := s.fld Reg.CFG_PORTSTAT F.CFG_PORTSTAT_Mode
  let armed := s.bit Reg.CFG_CTL F.CFG_CTL_PortArm = true ∧ (st = 0 ∨ st = 1)
  let shut := port.shut = true ∧ (port.low = true ∨ now < port.rise + 1600)
  let ignoring := port.low = true ∧ port.begun = true ∧ port.ignore = true
  let deaf := port.low = true ∧ port.ignore = true
  let count := if st = 0 then 0 else s.fld Reg.CFG_PORTCNT F.CFG_PORTCNT_Bytes
  let short := fun (n : Nat) => count + n < 128 ∨ 128 ≤ count ∧ count + n < streamLen 0x2000000 s ∧ streamLen
      0x2000000 s ≤ 1572864
  let silent := st = 1 ∧ port.last + 16000000 ≤ now
  [ decide (sl < 16 ∧ k < 4 ∧ o < 128 ∧ pair < 16 ∧ slv sl s = 1 ∧ whole ∧ serves true ∧ clean),
    decide (sl < 16 ∧ k < 4 ∧ o < 128 ∧ pair < 16 ∧ slv sl s = 1 ∧ whole ∧ serves false ∧ clean),
    decide (sl < 16 ∧ k < 4 ∧ o < 128 ∧ pair < 16 ∧ slv sl s = 1 ∧ whole ∧ (∀ write : Bool, ¬ serves write)),
    decide (sl < 16 ∧ k < 4 ∧ o < 128 ∧ pair < 16 ∧ slv sl s ≠ 1),
    decide (sl < 16 ∧ k < 4 ∧ o < 128 ∧ pair < 16 ∧ slv sl s < 2),
    decide (sl < 16 ∧ k < 4 ∧ o < 128 ∧ pair < 16 ∧ (slv sl s = 2 ∨ slv sl s = 3)),
    decide (sl < 16 ∧ k < 4 ∧ o < 128 ∧ pair < 16 ∧ slv (o / 8) s = 1 ∧ now % 4 = 1 ∧ now ≠ s.cfg.released.get 0
        (o / 8) + 1),
    decide (sl < 16 ∧ k < 4 ∧ o < 128 ∧ pair < 16 ∧ (slv (o / 8) s ≠ 1 ∨ now % 4 ≠ 1 ∨ now = s.cfg.released.get
        0 (o / 8) + 1)),
    decide (sl < 16 ∧ k < 4 ∧ o < 128 ∧ pair < 16 ∧ plainV ∧ st = 0),
    decide (sl < 16 ∧ k < 4 ∧ o < 128 ∧ pair < 16 ∧ plainV ∧ st ≠ 0),
    decide (sl < 16 ∧ k < 4 ∧ o < 128 ∧ pair < 16 ∧ plainV ∧ st = 4),
    decide (sl < 16 ∧ k < 4 ∧ o < 128 ∧ pair < 16 ∧ plainV ∧ (st = 1 ∨ st = 2 ∨ st = 3)),
    decide (sl < 16 ∧ k < 4 ∧ o < 128 ∧ pair < 16 ∧ run ∧ st = 2),
    decide (sl < 16 ∧ k < 4 ∧ o < 128 ∧ pair < 16 ∧ (s.cfg.load = none ∨ st ≠ 2)),
    decide (sl < 16 ∧ k < 4 ∧ o < 128 ∧ pair < 16 ∧ run ∧ st = 3 ∧ due),
    decide (sl < 16 ∧ k < 4 ∧ o < 128 ∧ pair < 16 ∧ run ∧ st = 3 ∧ ¬ due),
    decide (sl < 16 ∧ k < 4 ∧ o < 128 ∧ pair < 16 ∧ run ∧ st = 4 ∧ edge ∧ begun),
    decide (sl < 16 ∧ k < 4 ∧ o < 128 ∧ pair < 16 ∧ run ∧ ¬ (st = 4 ∧ edge ∧ begun)),
    decide (sl < 16 ∧ k < 4 ∧ o < 128 ∧ pair < 16 ∧ mode = 1 ∧ ¬ shut ∧ ¬ ignoring ∧ armed ∧ short n ∧ 0 < n),
    decide (sl < 16 ∧ k < 4 ∧ o < 128 ∧ pair < 16 ∧ mode = 1 ∧ ¬ shut ∧ ¬ ignoring ∧ armed ∧ 128 ≤ count ∧ count
        < streamLen 0x2000000 s ∧ streamLen 0x2000000 s ≤ count + n ∧ streamLen 0x2000000 s ≤ 1572864),
    decide (sl < 16 ∧ k < 4 ∧ o < 128 ∧ pair < 16 ∧ mode = 1 ∧ ¬ shut ∧ ¬ ignoring ∧ ¬ armed),
    decide (sl < 16 ∧ k < 4 ∧ o < 128 ∧ pair < 16 ∧ mode = 1 ∧ (shut ∨ ignoring)),
    decide (sl < 16 ∧ k < 4 ∧ o < 128 ∧ pair < 16 ∧ mode = 1),
    decide (sl < 16 ∧ k < 4 ∧ o < 128 ∧ pair < 16 ∧ mode = 1 ∧ (port.low = false ∨ port.begun = false)),
    decide (sl < 16 ∧ k < 4 ∧ o < 128 ∧ pair < 16 ∧ mode = 2 ∧ ¬ shut ∧ ¬ deaf ∧ armed ∧ short 2),
    decide (sl < 16 ∧ k < 4 ∧ o < 128 ∧ pair < 16 ∧ mode = 2 ∧ ¬ shut ∧ armed),
    decide (sl < 16 ∧ k < 4 ∧ o < 128 ∧ pair < 16 ∧ mode = 2 ∧ ¬ shut ∧ ¬ deaf ∧ ¬ armed),
    decide (sl < 16 ∧ k < 4 ∧ o < 128 ∧ pair < 16 ∧ mode ≠ 1),
    decide (sl < 16 ∧ k < 4 ∧ o < 128 ∧ pair < 16 ∧ mode ≠ 2),
    decide (sl < 16 ∧ k < 4 ∧ o < 128 ∧ pair < 16 ∧ port.low = true),
    decide (sl < 16 ∧ k < 4 ∧ o < 128 ∧ pair < 16 ∧ port.low = false),
    decide (sl < 16 ∧ k < 4 ∧ o < 128 ∧ pair < 16 ∧ silent),
    decide (sl < 16 ∧ k < 4 ∧ o < 128 ∧ pair < 16 ∧ ¬ silent) ]

theorem witness_ConfigurationStreams_0 : met (hypsConfigurationStreams
    ({ State.reset with regs := [(589828, 3218333651), (589872, 1), (595968, 1), (595992, 16777216), (595996, 2009858048)], clock := { Clock.init with tick := 1000001 }, cfg := { State.reset.cfg with load := some (⟨2, 33554432, true, 1, 7, [1, 2], 0, 0, none⟩) } }) (8) (1) (64) (16778861) (0) ([0]) (⟨2, 33554432, true, 1, 7, [1, 2], 0, 0, none⟩) (0) (0) (false) (false)) [0, 1, 4, 6, 9, 11, 13, 14, 17, 20, 22, 23, 28, 30, 32] = true := by
  decide +kernel

theorem witness_ConfigurationStreams_1 : met (hypsConfigurationStreams
    ({ State.reset with regs := [(589824, 2), (589872, 2), (596992, 2)], cfg := { State.reset.cfg with port := ⟨true, false, false, false, 0, 0⟩ } }) (12) (0) (0) (0) (0) ([]) (⟨0, 0, false, 0, 0, [], 0, 0, none⟩) (0) (0) (false) (false)) [3, 5, 7, 8, 24, 25, 27, 29] = true := by
  decide +kernel

theorem witness_ConfigurationStreams_2 : met (hypsConfigurationStreams
    ({ State.reset with regs := [(589828, 452573346), (589872, 2), (596992, 1)], cfg := { State.reset.cfg with load := some (⟨0, 33554432, true, 3, 7, [1, 2], 0, 0, none⟩) } }) (12) (0) (0) (0) (0) ([0]) (⟨0, 33554432, true, 3, 7, [1, 2], 0, 0, none⟩) (0) (0) (false) (false)) [2, 12, 26] = true := by
  decide +kernel

theorem witness_ConfigurationStreams_3 : met (hypsConfigurationStreams
    ({ State.reset with regs := [(589828, 4), (589872, 1)], clock := { Clock.init with tick := 64 }, cfg := { State.reset.cfg with load := some (⟨2, 68719476736, true, 1, 7, [1, 2], 0, 0, none⟩), port := ⟨true, true, true, false, 0, 0⟩, edge := some (0) } }) (0) (0) (0) (0) (0) ([]) (⟨2, 68719476736, true, 1, 7, [1, 2], 0, 0, none⟩) (0) (0) (false) (false)) [10, 16, 21] = true := by
  decide +kernel

theorem witness_ConfigurationStreams_4 : met (hypsConfigurationStreams
    ({ State.reset with regs := [(589824, 2), (589828, 1), (589872, 1)], clock := { Clock.init with tick := 17000004 } }) (0) (0) (0) (0) (0) ([0]) (⟨0, 0, false, 0, 0, [], 0, 0, none⟩) (0) (0) (false) (false)) [18, 31] = true := by
  decide +kernel

theorem witness_ConfigurationStreams_5 : met (hypsConfigurationStreams
    ({ State.reset with regs := [(589828, 2020899819), (589844, 1)], cfg := { State.reset.cfg with load := some (⟨2, 33554432, false, 2, 7, [1, 2], 0, 0, none⟩) } }) (0) (0) (0) (0) (0) ([]) (⟨2, 33554432, false, 2, 7, [1, 2], 0, 0, none⟩) (0) (0) (false) (false)) [15] = true := by
  decide +kernel

theorem witness_ConfigurationStreams_6 : met (hypsConfigurationStreams
    ({ State.reset with regs := [(589824, 2), (589828, 1), (589872, 1), (589876, 149)], mem := [(33554440, 150)] }) (0) (0) (0) (0) (0) ([0]) (⟨0, 0, false, 0, 0, [], 0, 0, none⟩) (0) (0) (false) (false)) [19] = true := by
  decide +kernel

/-- The hypotheses of the clauses of `Obligations.MantleOperations`. -/
def hypsMantleOperations (s : State) (v : Word) (ok : Bool) (o : MntOp) (report : List Byte) (index new k j n : Nat) : List Bool :=
  let busy := s.bit Reg.MNT_STATUS F.MNT_STATUS_ReqBusy = true
  let counter := fun (i : Nat) (t : State) => t.mantle.fuses.ctrs.get 0 i
  let run := s.mantle.op = some o ∧ o.seam = false
  let b := o.addr
  let header := s.bytes b 128
  let length := imgBodyLen header
  let i := F.MNT_RBADV_Index.get v
  let x := F.MNT_RBADV_Value.get v
  let burning := s.bit Reg.MNT_STATUS F.MNT_STATUS_Burning = true
  let shadow := s.mantle.shadows.get 0 i
  let burn := s.mantle.burn = some (index, new)
  let open' := s.fld Reg.MNT_STATUS F.MNT_STATUS_DebugScope ≠ 0
  [ decide (k < 24 ∧ j < 8 ∧ n < 192 ∧ ¬ busy),
    decide (k < 24 ∧ j < 8 ∧ n < 192 ∧ busy),
    decide (k < 24 ∧ j < 8 ∧ n < 192 ∧ run ∧ o.op = 1),
    decide (k < 24 ∧ j < 8 ∧ n < 192 ∧ run ∧ o.op = 2),
    decide (k < 24 ∧ j < 8 ∧ n < 192 ∧ run ∧ o.op = 3 ∧ report = attestReport o.body ∧ s.memt.writes = [] ∧
        s.poison.cells = [] ∧ frozenIn (b + 0x40) report.length s = false ∧ (∀ c : Nat, c < 4 → channelFailed c s =
        false)),
    decide (k < 24 ∧ j < 8 ∧ n < 192 ∧ s.mantle.op = none),
    decide (k < 24 ∧ j < 8 ∧ n < 192 ∧ s.mantle.op = some o ∧ o.seam = true ∧ s.seam.serve = none),
    decide (k < 24 ∧ j < 8 ∧ n < 192 ∧ (burning ∨ 64 < x ∨ shadow < x)),
    decide (k < 24 ∧ j < 8 ∧ n < 192 ∧ ¬ burning ∧ x ≤ 64 ∧ x ≤ shadow ∧ x ≤ counter i s),
    decide (k < 24 ∧ j < 8 ∧ n < 192 ∧ ¬ burning ∧ x ≤ 64 ∧ x ≤ shadow ∧ counter i s < x),
    decide (k < 24 ∧ j < 8 ∧ n < 192 ∧ burn),
    decide (k < 24 ∧ j < 8 ∧ n < 192 ∧ burn ∧ counter index s < new),
    decide (k < 24 ∧ j < 8 ∧ n < 192 ∧ s.mantle.burn = none),
    decide (k < 24 ∧ j < 8 ∧ n < 192 ∧ open' ∧ F.MNT_CTL_RgnLock.get v = 0),
    decide (k < 24 ∧ j < 8 ∧ n < 192 ∧ ¬ open' ∧ F.MNT_CTL_RgnLock.get v = 0),
    decide (k < 24 ∧ j < 8 ∧ n < 192 ∧ open' ∧ s.mantle.expiry ≤ s.clock.lt),
    decide (k < 24 ∧ j < 8 ∧ n < 192 ∧ (¬ open' ∨ s.clock.lt < s.mantle.expiry)),
    decide (k < 24 ∧ j < 8 ∧ n < 192 ∧ F.MNT_CTL_DebugLock.get v = 0) ]

theorem witness_MantleOperations_0 : met (hypsMantleOperations
    ({ State.reset with regs := [(196608, 2147483633)], mantle := { State.reset.mantle with op := some (⟨1, 68719479168, false, [0, 7, 14, 21, 28, 35, 42, 49, 56, 63, 70, 77, 84, 91, 98, 105, 112, 119, 126, 133, 140, 147, 154, 161, 168, 175, 182, 189, 196, 203, 210, 217, 224, 231, 238, 245, 252, 3, 10, 17, 24, 31, 38, 45, 52, 59, 66, 73, 80, 87, 94, 101, 108, 115, 122, 129, 136, 143, 150, 157, 164, 171, 178, 185, 192, 199, 206, 213, 220, 227, 234, 241, 248, 255, 6, 13, 20, 27, 34, 41, 48, 55, 62, 69, 76, 83, 90, 97, 104, 111, 118, 125, 132, 139, 146, 153, 160, 167, 174, 181, 188, 195, 202, 209, 216, 223, 230, 237, 244, 251, 2, 9, 16, 23, 30, 37, 44, 51, 58, 65, 72, 79, 86, 93, 100, 107, 114, 121, 128, 135, 142, 149, 156, 163, 170, 177, 184, 191, 198, 205, 212, 219, 226, 233, 240, 247, 254, 5, 12, 19, 26, 33, 40, 47, 54, 61, 68, 75, 82, 89, 96, 103, 110, 117, 124, 131, 138, 145, 152, 159, 166, 173, 180, 187, 194, 201, 208, 215, 222, 229, 236, 243, 250, 1, 8, 15, 22, 29, 36, 43, 50, 57, 64, 71, 78, 85, 92, 99, 106, 113, 120, 127, 134, 141, 148, 155, 162, 169, 176, 183, 190, 197, 204, 211, 218, 225, 232, 239, 246, 253, 4, 11, 18, 25, 32, 39, 46, 53, 60, 67, 74, 81, 88, 95, 102, 109, 116, 123, 130, 137, 144, 151, 158, 165, 172, 179, 186, 193, 200, 207, 214, 221, 228, 235, 242, 249, 0, 7, 14, 21, 28, 35, 42, 49, 56, 63, 70, 77, 84, 91, 98, 105, 112, 119, 126, 133, 140, 147, 154, 161, 168, 175, 182, 189, 196, 203, 210, 217, 224, 231, 238, 245, 252, 3, 10, 17, 24, 31, 38, 45, 52, 59, 66, 73, 80, 87, 94, 101, 108, 115, 122, 129, 136, 143, 150, 157, 164, 171, 178, 185, 192, 199, 206, 213, 220, 227, 234, 241, 248, 255, 6, 13, 20, 27, 34, 41, 48, 55, 62, 69, 76, 83, 90, 97, 104, 111, 118, 125, 132, 139, 146, 153, 160, 167, 174, 181, 188, 195, 202, 209, 216, 223, 230, 237, 244, 251, 2, 9, 16, 23, 30, 37, 44, 51, 58, 65, 72, 79, 86, 93, 100, 107, 114, 121, 128, 135, 142, 149, 156, 163, 170, 177, 184, 191, 198, 205, 212, 219, 226, 233, 240, 247, 254, 5, 12, 19, 26, 33, 40, 47, 54, 61, 68, 75, 82, 89, 96, 103, 110, 117, 124, 131, 138, 145, 152, 159, 166, 173, 180, 187, 194, 201, 208, 215, 222, 229, 236, 243, 250, 1, 8, 15, 22, 29, 36, 43, 50, 57, 64, 71, 78, 85, 92, 99, 106, 113, 120, 127, 134, 141, 148, 155, 162, 169, 176, 183, 190, 197, 204, 211, 218, 225, 232, 239, 246, 253, 4, 11, 18, 25, 32, 39, 46, 53, 60, 67, 74, 81, 88, 95, 102, 109, 116, 123, 130, 137, 144, 151, 158, 165, 172, 179, 186, 193, 200, 207, 214, 221, 228, 235, 242, 249, 0, 7, 14, 21, 28, 35, 42, 49, 56, 63, 70, 77, 84, 91, 98, 105, 112, 119, 126, 133, 140, 147, 154, 161, 168, 175, 182, 189, 196, 203, 210, 217, 224, 231, 238, 245, 252, 3, 10, 17, 24, 31, 38, 45, 52, 59, 66, 73, 80, 87, 94, 101, 108, 115, 122, 129, 136, 143, 150, 157, 164, 171, 178, 185, 192, 199, 206, 213, 220, 227, 234, 241, 248, 255, 6, 13, 20, 27, 34, 41, 48, 55, 62, 69, 76, 83, 90, 97, 104, 111, 118, 125, 132, 139, 146, 153, 160, 167, 174, 181, 188, 195, 202, 209, 216, 223, 230, 237, 244, 251, 2, 9, 16, 23, 30, 37, 44, 51, 58, 65, 72, 79, 86, 93, 100, 107, 114, 121, 128, 135, 142, 149, 156, 163, 170, 177, 184, 191, 198, 205, 212, 219, 226, 233, 240, 247, 254, 5, 12, 19, 26, 33, 40, 47, 54, 61, 68, 75, 82, 89, 96, 103, 110, 117, 124, 131, 138, 145, 152, 159, 166, 173, 180, 187, 194, 201, 208, 215, 222, 229, 236, 243, 250, 1, 8, 15, 22, 29, 36, 43, 50, 57, 64, 71, 78, 85, 92, 99, 106, 113, 120, 127, 134, 141, 148, 155, 162, 169, 176, 183, 190, 197, 204, 211, 218, 225, 232, 239, 246, 253, 4, 11, 18, 25, 32, 39, 46, 53, 60, 67, 74, 81, 88, 95, 102, 109, 116, 123, 130, 137, 144, 151, 158, 165, 172, 179, 186, 193, 200, 207, 214, 221, 228, 235, 242, 249, 0, 7, 14, 21, 28, 35, 42, 49, 56, 63, 70, 77, 84, 91, 98, 105, 112, 119, 126, 133, 140, 147, 154, 161, 168, 175, 182, 189, 196, 203, 210, 217, 224, 231, 238, 245, 252, 3, 10, 17, 24, 31, 38, 45, 52, 59, 66, 73, 80, 87, 94, 101, 108, 115, 122, 129, 136, 143, 150, 157, 164, 171, 178, 185, 192, 199, 206, 213, 220, 227, 234, 241, 248, 255, 6, 13, 20, 27, 34, 41, 48, 55, 62, 69, 76, 83, 90, 97, 104, 111, 118, 125, 132, 139, 146, 153, 160, 167, 174, 181, 188, 195, 202, 209, 216, 223, 230, 237, 244, 251, 2, 9, 16, 23, 30, 37, 44, 51, 58, 65, 72, 79, 86, 93, 100, 107, 114, 121, 128, 135, 142, 149, 156, 163, 170, 177, 184, 191, 198, 205, 212, 219, 226, 233]⟩), burn := some ((20, 13)) } }) (0) (false) (⟨1, 68719479168, false, [0, 7, 14, 21, 28, 35, 42, 49, 56, 63, 70, 77, 84, 91, 98, 105, 112, 119, 126, 133, 140, 147, 154, 161, 168, 175, 182, 189, 196, 203, 210, 217, 224, 231, 238, 245, 252, 3, 10, 17, 24, 31, 38, 45, 52, 59, 66, 73, 80, 87, 94, 101, 108, 115, 122, 129, 136, 143, 150, 157, 164, 171, 178, 185, 192, 199, 206, 213, 220, 227, 234, 241, 248, 255, 6, 13, 20, 27, 34, 41, 48, 55, 62, 69, 76, 83, 90, 97, 104, 111, 118, 125, 132, 139, 146, 153, 160, 167, 174, 181, 188, 195, 202, 209, 216, 223, 230, 237, 244, 251, 2, 9, 16, 23, 30, 37, 44, 51, 58, 65, 72, 79, 86, 93, 100, 107, 114, 121, 128, 135, 142, 149, 156, 163, 170, 177, 184, 191, 198, 205, 212, 219, 226, 233, 240, 247, 254, 5, 12, 19, 26, 33, 40, 47, 54, 61, 68, 75, 82, 89, 96, 103, 110, 117, 124, 131, 138, 145, 152, 159, 166, 173, 180, 187, 194, 201, 208, 215, 222, 229, 236, 243, 250, 1, 8, 15, 22, 29, 36, 43, 50, 57, 64, 71, 78, 85, 92, 99, 106, 113, 120, 127, 134, 141, 148, 155, 162, 169, 176, 183, 190, 197, 204, 211, 218, 225, 232, 239, 246, 253, 4, 11, 18, 25, 32, 39, 46, 53, 60, 67, 74, 81, 88, 95, 102, 109, 116, 123, 130, 137, 144, 151, 158, 165, 172, 179, 186, 193, 200, 207, 214, 221, 228, 235, 242, 249, 0, 7, 14, 21, 28, 35, 42, 49, 56, 63, 70, 77, 84, 91, 98, 105, 112, 119, 126, 133, 140, 147, 154, 161, 168, 175, 182, 189, 196, 203, 210, 217, 224, 231, 238, 245, 252, 3, 10, 17, 24, 31, 38, 45, 52, 59, 66, 73, 80, 87, 94, 101, 108, 115, 122, 129, 136, 143, 150, 157, 164, 171, 178, 185, 192, 199, 206, 213, 220, 227, 234, 241, 248, 255, 6, 13, 20, 27, 34, 41, 48, 55, 62, 69, 76, 83, 90, 97, 104, 111, 118, 125, 132, 139, 146, 153, 160, 167, 174, 181, 188, 195, 202, 209, 216, 223, 230, 237, 244, 251, 2, 9, 16, 23, 30, 37, 44, 51, 58, 65, 72, 79, 86, 93, 100, 107, 114, 121, 128, 135, 142, 149, 156, 163, 170, 177, 184, 191, 198, 205, 212, 219, 226, 233, 240, 247, 254, 5, 12, 19, 26, 33, 40, 47, 54, 61, 68, 75, 82, 89, 96, 103, 110, 117, 124, 131, 138, 145, 152, 159, 166, 173, 180, 187, 194, 201, 208, 215, 222, 229, 236, 243, 250, 1, 8, 15, 22, 29, 36, 43, 50, 57, 64, 71, 78, 85, 92, 99, 106, 113, 120, 127, 134, 141, 148, 155, 162, 169, 176, 183, 190, 197, 204, 211, 218, 225, 232, 239, 246, 253, 4, 11, 18, 25, 32, 39, 46, 53, 60, 67, 74, 81, 88, 95, 102, 109, 116, 123, 130, 137, 144, 151, 158, 165, 172, 179, 186, 193, 200, 207, 214, 221, 228, 235, 242, 249, 0, 7, 14, 21, 28, 35, 42, 49, 56, 63, 70, 77, 84, 91, 98, 105, 112, 119, 126, 133, 140, 147, 154, 161, 168, 175, 182, 189, 196, 203, 210, 217, 224, 231, 238, 245, 252, 3, 10, 17, 24, 31, 38, 45, 52, 59, 66, 73, 80, 87, 94, 101, 108, 115, 122, 129, 136, 143, 150, 157, 164, 171, 178, 185, 192, 199, 206, 213, 220, 227, 234, 241, 248, 255, 6, 13, 20, 27, 34, 41, 48, 55, 62, 69, 76, 83, 90, 97, 104, 111, 118, 125, 132, 139, 146, 153, 160, 167, 174, 181, 188, 195, 202, 209, 216, 223, 230, 237, 244, 251, 2, 9, 16, 23, 30, 37, 44, 51, 58, 65, 72, 79, 86, 93, 100, 107, 114, 121, 128, 135, 142, 149, 156, 163, 170, 177, 184, 191, 198, 205, 212, 219, 226, 233, 240, 247, 254, 5, 12, 19, 26, 33, 40, 47, 54, 61, 68, 75, 82, 89, 96, 103, 110, 117, 124, 131, 138, 145, 152, 159, 166, 173, 180, 187, 194, 201, 208, 215, 222, 229, 236, 243, 250, 1, 8, 15, 22, 29, 36, 43, 50, 57, 64, 71, 78, 85, 92, 99, 106, 113, 120, 127, 134, 141, 148, 155, 162, 169, 176, 183, 190, 197, 204, 211, 218, 225, 232, 239, 246, 253, 4, 11, 18, 25, 32, 39, 46, 53, 60, 67, 74, 81, 88, 95, 102, 109, 116, 123, 130, 137, 144, 151, 158, 165, 172, 179, 186, 193, 200, 207, 214, 221, 228, 235, 242, 249, 0, 7, 14, 21, 28, 35, 42, 49, 56, 63, 70, 77, 84, 91, 98, 105, 112, 119, 126, 133, 140, 147, 154, 161, 168, 175, 182, 189, 196, 203, 210, 217, 224, 231, 238, 245, 252, 3, 10, 17, 24, 31, 38, 45, 52, 59, 66, 73, 80, 87, 94, 101, 108, 115, 122, 129, 136, 143, 150, 157, 164, 171, 178, 185, 192, 199, 206, 213, 220, 227, 234, 241, 248, 255, 6, 13, 20, 27, 34, 41, 48, 55, 62, 69, 76, 83, 90, 97, 104, 111, 118, 125, 132, 139, 146, 153, 160, 167, 174, 181, 188, 195, 202, 209, 216, 223, 230, 237, 244, 251, 2, 9, 16, 23, 30, 37, 44, 51, 58, 65, 72, 79, 86, 93, 100, 107, 114, 121, 128, 135, 142, 149, 156, 163, 170, 177, 184, 191, 198, 205, 212, 219, 226, 233]⟩) ([]) (20) (13) (0) (0) (0)) [0, 2, 7, 10, 11, 13, 15, 17] = true := by
  decide +kernel

theorem witness_MantleOperations_1 : met (hypsMantleOperations
    ({ State.reset with regs := [(196608, 9)], mantle := { State.reset.mantle with shadows := ⟨[(54, 64)]⟩, op := some (⟨2, 68719477824, false, []⟩) } }) (69345398) (false) (⟨2, 68719477824, false, []⟩) ([]) (0) (0) (0) (0) (0)) [1, 3, 9, 12, 14, 16] = true := by
  decide +kernel

theorem witness_MantleOperations_2 : met (hypsMantleOperations
    (State.reset) (0) (false) (⟨0, 0, false, []⟩) ([]) (0) (0) (0) (0) (0)) [5, 8] = true := by
  decide +kernel

theorem witness_MantleOperations_4 : met (hypsMantleOperations
    ({ State.reset with mantle := { State.reset.mantle with op := some (⟨2, 68719481024, true, [0, 7, 14, 21, 28, 35, 42, 49, 56, 63, 70, 77, 84, 91, 98, 105, 112, 119, 126, 133, 140, 147, 154, 161, 168, 175, 182, 189, 196, 203, 210, 217, 224, 231, 238, 245, 252, 3, 10, 17, 24, 31, 38, 45, 52, 59, 66, 73, 80, 87, 94, 101, 108, 115, 122, 129, 136, 143, 150, 157, 164, 171, 178, 185, 192, 199, 206, 213, 220, 227, 234, 241, 248, 255, 6, 13, 20, 27, 34, 41, 48, 55, 62, 69, 76, 83, 90, 97, 104, 111, 118, 125, 132, 139, 146, 153, 160, 167, 174, 181, 188, 195, 202, 209, 216, 223, 230, 237, 244, 251, 2, 9, 16, 23, 30, 37, 44, 51, 58, 65, 72, 79, 86, 93, 100, 107, 114, 121, 128, 135, 142, 149, 156, 163, 170, 177, 184, 191, 198, 205, 212, 219, 226, 233, 240, 247, 254, 5, 12, 19, 26, 33, 40, 47, 54, 61, 68, 75, 82, 89, 96, 103, 110, 117, 124, 131, 138, 145, 152, 159, 166, 173, 180, 187, 194, 201, 208, 215, 222, 229, 236, 243, 250, 1, 8, 15, 22, 29, 36, 43, 50, 57, 64, 71, 78, 85, 92, 99, 106, 113, 120, 127, 134, 141, 148, 155, 162, 169, 176, 183, 190, 197, 204, 211, 218, 225, 232, 239, 246, 253, 4, 11, 18, 25, 32, 39, 46, 53, 60, 67, 74, 81, 88, 95, 102, 109, 116, 123, 130, 137, 144, 151, 158, 165, 172, 179, 186, 193, 200, 207, 214, 221, 228, 235, 242, 249, 0, 7, 14, 21, 28, 35, 42, 49, 56, 63, 70, 77, 84, 91, 98, 105, 112, 119, 126, 133, 140, 147, 154, 161, 168, 175, 182, 189, 196, 203, 210, 217, 224, 231, 238, 245, 252, 3, 10, 17, 24, 31, 38, 45, 52, 59, 66, 73, 80, 87, 94, 101, 108, 115, 122, 129, 136, 143, 150, 157, 164, 171, 178, 185, 192, 199, 206, 213, 220, 227, 234, 241, 248, 255, 6, 13, 20, 27, 34, 41, 48, 55, 62, 69, 76, 83, 90, 97, 104, 111, 118, 125, 132, 139, 146, 153, 160, 167, 174, 181, 188, 195, 202, 209, 216, 223, 230, 237, 244, 251, 2, 9, 16, 23, 30, 37, 44, 51, 58, 65, 72, 79, 86, 93, 100, 107, 114, 121, 128, 135, 142, 149, 156, 163, 170, 177, 184, 191, 198, 205, 212, 219, 226, 233, 240, 247, 254, 5, 12, 19, 26, 33, 40, 47, 54, 61, 68, 75, 82, 89, 96, 103, 110, 117, 124, 131, 138, 145, 152, 159, 166, 173, 180, 187, 194, 201, 208, 215, 222, 229, 236, 243, 250, 1, 8, 15, 22, 29, 36, 43, 50, 57, 64, 71, 78, 85, 92, 99, 106, 113, 120, 127, 134, 141, 148, 155, 162, 169, 176, 183, 190, 197, 204, 211, 218, 225, 232, 239, 246, 253, 4, 11, 18, 25, 32, 39, 46, 53, 60, 67, 74, 81, 88, 95, 102, 109, 116, 123, 130, 137, 144, 151, 158, 165, 172, 179, 186, 193, 200, 207, 214, 221, 228, 235, 242, 249, 0, 7, 14, 21, 28, 35, 42, 49, 56, 63, 70, 77, 84, 91, 98, 105, 112, 119, 126, 133, 140, 147, 154, 161, 168, 175, 182, 189, 196, 203, 210, 217, 224, 231, 238, 245, 252, 3, 10, 17, 24, 31, 38, 45, 52, 59, 66, 73, 80, 87, 94, 101, 108, 115, 122, 129, 136, 143, 150, 157, 164, 171, 178, 185, 192, 199, 206, 213, 220, 227, 234, 241, 248, 255, 6, 13, 20, 27, 34, 41, 48, 55, 62, 69, 76, 83, 90, 97, 104, 111, 118, 125, 132, 139, 146, 153, 160, 167, 174, 181, 188, 195, 202, 209, 216, 223, 230, 237, 244, 251, 2, 9, 16, 23, 30, 37, 44, 51, 58, 65, 72, 79, 86, 93, 100, 107, 114, 121, 128, 135, 142, 149, 156, 163, 170, 177, 184, 191, 198, 205, 212, 219, 226, 233, 240, 247, 254, 5, 12, 19, 26, 33, 40, 47, 54, 61, 68, 75, 82, 89, 96, 103, 110, 117, 124, 131, 138, 145, 152, 159, 166, 173, 180, 187, 194, 201, 208, 215, 222, 229, 236, 243, 250, 1, 8, 15, 22, 29, 36, 43, 50, 57, 64, 71, 78, 85, 92, 99, 106, 113, 120, 127, 134, 141, 148, 155, 162, 169, 176, 183, 190, 197, 204, 211, 218, 225, 232, 239, 246, 253, 4, 11, 18, 25, 32, 39, 46, 53, 60, 67, 74, 81, 88, 95, 102, 109, 116, 123, 130, 137, 144, 151, 158, 165, 172, 179, 186, 193, 200, 207, 214, 221, 228, 235, 242, 249, 0, 7, 14, 21, 28, 35, 42, 49, 56, 63, 70, 77, 84, 91, 98, 105, 112, 119, 126, 133, 140, 147, 154, 161, 168, 175, 182, 189, 196, 203, 210, 217, 224, 231, 238, 245, 252, 3, 10, 17, 24, 31, 38, 45, 52, 59, 66, 73, 80, 87, 94, 101, 108, 115, 122, 129, 136, 143, 150, 157, 164, 171, 178, 185, 192, 199, 206, 213, 220, 227, 234, 241, 248, 255, 6, 13, 20, 27, 34, 41, 48, 55, 62, 69, 76, 83, 90, 97, 104, 111, 118, 125, 132, 139, 146, 153, 160, 167, 174, 181, 188, 195, 202, 209, 216, 223, 230, 237, 244, 251, 2, 9, 16, 23, 30, 37, 44, 51, 58, 65, 72, 79, 86, 93, 100, 107, 114, 121, 128, 135, 142, 149, 156, 163, 170, 177, 184, 191, 198, 205, 212, 219, 226, 233]⟩) } }) (0) (false) (⟨2, 68719481024, true, [0, 7, 14, 21, 28, 35, 42, 49, 56, 63, 70, 77, 84, 91, 98, 105, 112, 119, 126, 133, 140, 147, 154, 161, 168, 175, 182, 189, 196, 203, 210, 217, 224, 231, 238, 245, 252, 3, 10, 17, 24, 31, 38, 45, 52, 59, 66, 73, 80, 87, 94, 101, 108, 115, 122, 129, 136, 143, 150, 157, 164, 171, 178, 185, 192, 199, 206, 213, 220, 227, 234, 241, 248, 255, 6, 13, 20, 27, 34, 41, 48, 55, 62, 69, 76, 83, 90, 97, 104, 111, 118, 125, 132, 139, 146, 153, 160, 167, 174, 181, 188, 195, 202, 209, 216, 223, 230, 237, 244, 251, 2, 9, 16, 23, 30, 37, 44, 51, 58, 65, 72, 79, 86, 93, 100, 107, 114, 121, 128, 135, 142, 149, 156, 163, 170, 177, 184, 191, 198, 205, 212, 219, 226, 233, 240, 247, 254, 5, 12, 19, 26, 33, 40, 47, 54, 61, 68, 75, 82, 89, 96, 103, 110, 117, 124, 131, 138, 145, 152, 159, 166, 173, 180, 187, 194, 201, 208, 215, 222, 229, 236, 243, 250, 1, 8, 15, 22, 29, 36, 43, 50, 57, 64, 71, 78, 85, 92, 99, 106, 113, 120, 127, 134, 141, 148, 155, 162, 169, 176, 183, 190, 197, 204, 211, 218, 225, 232, 239, 246, 253, 4, 11, 18, 25, 32, 39, 46, 53, 60, 67, 74, 81, 88, 95, 102, 109, 116, 123, 130, 137, 144, 151, 158, 165, 172, 179, 186, 193, 200, 207, 214, 221, 228, 235, 242, 249, 0, 7, 14, 21, 28, 35, 42, 49, 56, 63, 70, 77, 84, 91, 98, 105, 112, 119, 126, 133, 140, 147, 154, 161, 168, 175, 182, 189, 196, 203, 210, 217, 224, 231, 238, 245, 252, 3, 10, 17, 24, 31, 38, 45, 52, 59, 66, 73, 80, 87, 94, 101, 108, 115, 122, 129, 136, 143, 150, 157, 164, 171, 178, 185, 192, 199, 206, 213, 220, 227, 234, 241, 248, 255, 6, 13, 20, 27, 34, 41, 48, 55, 62, 69, 76, 83, 90, 97, 104, 111, 118, 125, 132, 139, 146, 153, 160, 167, 174, 181, 188, 195, 202, 209, 216, 223, 230, 237, 244, 251, 2, 9, 16, 23, 30, 37, 44, 51, 58, 65, 72, 79, 86, 93, 100, 107, 114, 121, 128, 135, 142, 149, 156, 163, 170, 177, 184, 191, 198, 205, 212, 219, 226, 233, 240, 247, 254, 5, 12, 19, 26, 33, 40, 47, 54, 61, 68, 75, 82, 89, 96, 103, 110, 117, 124, 131, 138, 145, 152, 159, 166, 173, 180, 187, 194, 201, 208, 215, 222, 229, 236, 243, 250, 1, 8, 15, 22, 29, 36, 43, 50, 57, 64, 71, 78, 85, 92, 99, 106, 113, 120, 127, 134, 141, 148, 155, 162, 169, 176, 183, 190, 197, 204, 211, 218, 225, 232, 239, 246, 253, 4, 11, 18, 25, 32, 39, 46, 53, 60, 67, 74, 81, 88, 95, 102, 109, 116, 123, 130, 137, 144, 151, 158, 165, 172, 179, 186, 193, 200, 207, 214, 221, 228, 235, 242, 249, 0, 7, 14, 21, 28, 35, 42, 49, 56, 63, 70, 77, 84, 91, 98, 105, 112, 119, 126, 133, 140, 147, 154, 161, 168, 175, 182, 189, 196, 203, 210, 217, 224, 231, 238, 245, 252, 3, 10, 17, 24, 31, 38, 45, 52, 59, 66, 73, 80, 87, 94, 101, 108, 115, 122, 129, 136, 143, 150, 157, 164, 171, 178, 185, 192, 199, 206, 213, 220, 227, 234, 241, 248, 255, 6, 13, 20, 27, 34, 41, 48, 55, 62, 69, 76, 83, 90, 97, 104, 111, 118, 125, 132, 139, 146, 153, 160, 167, 174, 181, 188, 195, 202, 209, 216, 223, 230, 237, 244, 251, 2, 9, 16, 23, 30, 37, 44, 51, 58, 65, 72, 79, 86, 93, 100, 107, 114, 121, 128, 135, 142, 149, 156, 163, 170, 177, 184, 191, 198, 205, 212, 219, 226, 233, 240, 247, 254, 5, 12, 19, 26, 33, 40, 47, 54, 61, 68, 75, 82, 89, 96, 103, 110, 117, 124, 131, 138, 145, 152, 159, 166, 173, 180, 187, 194, 201, 208, 215, 222, 229, 236, 243, 250, 1, 8, 15, 22, 29, 36, 43, 50, 57, 64, 71, 78, 85, 92, 99, 106, 113, 120, 127, 134, 141, 148, 155, 162, 169, 176, 183, 190, 197, 204, 211, 218, 225, 232, 239, 246, 253, 4, 11, 18, 25, 32, 39, 46, 53, 60, 67, 74, 81, 88, 95, 102, 109, 116, 123, 130, 137, 144, 151, 158, 165, 172, 179, 186, 193, 200, 207, 214, 221, 228, 235, 242, 249, 0, 7, 14, 21, 28, 35, 42, 49, 56, 63, 70, 77, 84, 91, 98, 105, 112, 119, 126, 133, 140, 147, 154, 161, 168, 175, 182, 189, 196, 203, 210, 217, 224, 231, 238, 245, 252, 3, 10, 17, 24, 31, 38, 45, 52, 59, 66, 73, 80, 87, 94, 101, 108, 115, 122, 129, 136, 143, 150, 157, 164, 171, 178, 185, 192, 199, 206, 213, 220, 227, 234, 241, 248, 255, 6, 13, 20, 27, 34, 41, 48, 55, 62, 69, 76, 83, 90, 97, 104, 111, 118, 125, 132, 139, 146, 153, 160, 167, 174, 181, 188, 195, 202, 209, 216, 223, 230, 237, 244, 251, 2, 9, 16, 23, 30, 37, 44, 51, 58, 65, 72, 79, 86, 93, 100, 107, 114, 121, 128, 135, 142, 149, 156, 163, 170, 177, 184, 191, 198, 205, 212, 219, 226, 233]⟩) ([]) (0) (0) (0) (0) (0)) [6] = true := by
  decide +kernel

/-- The hypotheses of the clauses of `Obligations.SeamPorts`. -/
def hypsSeamPorts (s : State) (k lanes id port lane : Nat) (v : Word) (valid : Bool) (f g : Flit) (r : SeamReq) : List Bool :=
  let now := s.clock.tick
  let x := s.seam.ports.get SeamPort.init k
  let st := s.fld (Reg.SL_PSTAT k) F.SL_PSTAT_State
  let isOpen := st = 2 ∨ st = 3
  let count := fun (m : Nat) => ((List.range 4).filter (fun i => m.testBit i)).length
  let enabled := s.fld (Reg.SL_PCTL k) F.SL_PCTL_LaneEnable
  let on := s.bit (Reg.SL_PCTL k) F.SL_PCTL_PortEnable = true
  let active := s.fld (Reg.SL_PSTAT k) F.SL_PSTAT_LanesActive
  let quietV := F.SL_PCTL_Retrain.get v = 0 ∧ F.SL_PCTL_Release.get v = 0
  let device := s.fld Reg.SL_CTL F.SL_CTL_DeviceId
  let calm := x.waiting = [] ∧ ∀ y ∈ x.replay, y.src ≠ device
  let freed : Nat := (f.ack + 1 + 4096 + x.replay.length - x.nextSeq) % 4096
  let bare := f.crcOk = true ∧ f.nak = false ∧ f.credit = 0 ∧ freed = 0 ∧ x.credits ≤ 64 ∧ x.waiting = []
  let linkCtl := f.kind = 1 ∧ f.cls = 0 ∧ f.clean = true ∧ f.len ≤ 240 ∧ f.mcast = false
  let idleFlit := f.kind = 0 ∧ f.cls = 0 ∧ f.clean = true ∧ f.len ≤ 240 ∧ f.mcast = false
  let map : Nat := leNat ((f.payload.drop 1).take 1)
  let mapOk := 2 ≤ count map ∧ map &&& enabled = map
  let wants := isOpen ∧ (x.sentAt + 1600 ≤ now ∨ x.nak ≠ none ∨ x.owed ≠ 0)
  let late := isOpen ∧ x.replay ≠ [] ∧ x.progAt + 6400 ≤ now
  [ decide (k < 4 ∧ lanes < 16 ∧ id < 4096 ∧ port < 4 ∧ lane < 4 ∧ quietV),
    decide (k < 4 ∧ lanes < 16 ∧ id < 4096 ∧ port < 4 ∧ lane < 4 ∧ on ∧ calm ∧ F.SL_PCTL_PortEnable.get v = 1 ∧
        F.SL_PCTL_Release.get v = 0),
    decide (k < 4 ∧ lanes < 16 ∧ id < 4096 ∧ port < 4 ∧ lane < 4 ∧ on ∧ F.SL_PCTL_PortEnable.get v = 1 ∧
        F.SL_PCTL_Retrain.get v = 0 ∧ x.waiting = []),
    decide (k < 4 ∧ lanes < 16 ∧ id < 4096 ∧ port < 4 ∧ lane < 4 ∧ st = 1 ∧ 2 ≤ count (lanes &&& enabled) ∧
        x.waiting = []),
    decide (k < 4 ∧ lanes < 16 ∧ id < 4096 ∧ port < 4 ∧ lane < 4 ∧ (st ≠ 1 ∨ count (lanes &&& enabled) < 2)),
    decide (k < 4 ∧ lanes < 16 ∧ id < 4096 ∧ port < 4 ∧ lane < 4 ∧ st = 1 ∧ x.trainAt + 1600000 ≤ now),
    decide (k < 4 ∧ lanes < 16 ∧ id < 4096 ∧ port < 4 ∧ lane < 4 ∧ (st ≠ 1 ∨ now < x.trainAt + 1600000)),
    decide (k < 4 ∧ lanes < 16 ∧ id < 4096 ∧ port < 4 ∧ lane < 4 ∧ st = 2 ∧ active.testBit lane = true ∧ 2 ≤
        count (active - 2 ^ lane)),
    decide (k < 4 ∧ lanes < 16 ∧ id < 4096 ∧ port < 4 ∧ lane < 4 ∧ st = 2 ∧ active.testBit lane = true ∧ count
        (active - 2 ^ lane) < 2 ∧ calm),
    decide (k < 4 ∧ lanes < 16 ∧ id < 4096 ∧ port < 4 ∧ lane < 4 ∧ (st ≠ 2 ∨ active.testBit lane = false)),
    decide (k < 4 ∧ lanes < 16 ∧ id < 4096 ∧ port < 4 ∧ lane < 4 ∧ isOpen ∧ calm ∧ x.gotAt + 3200 ≤ now),
    decide (k < 4 ∧ lanes < 16 ∧ id < 4096 ∧ port < 4 ∧ lane < 4 ∧ isOpen ∧ x.waiting = [] ∧ x.replay = [g] ∧
        g.src = device ∧ g.ans = false ∧ g.cls = 2 ∧ g.tid = r.tid ∧ s.seam.reqs = [r] ∧ r.port = k ∧ r.cls = 2 ∧
        r.req = .engine 5 ∧ x.gotAt + 3200 ≤ now),
    decide (k < 4 ∧ lanes < 16 ∧ id < 4096 ∧ port < 4 ∧ lane < 4 ∧ isOpen ∧ calm ∧ 8 ≤ x.replays),
    decide (k < 4 ∧ lanes < 16 ∧ id < 4096 ∧ port < 4 ∧ lane < 4 ∧ (¬ isOpen ∨ now < x.gotAt + 3200)),
    decide (k < 4 ∧ lanes < 16 ∧ id < 4096 ∧ port < 4 ∧ lane < 4 ∧ st = 1 ∧ f.crcOk = true ∧ linkCtl),
    decide (k < 4 ∧ lanes < 16 ∧ id < 4096 ∧ port < 4 ∧ lane < 4 ∧ st = 2 ∧ bare ∧ linkCtl),
    decide (k < 4 ∧ lanes < 16 ∧ id < 4096 ∧ port < 4 ∧ lane < 4 ∧ st = 2 ∧ bare ∧ ¬ linkCtl),
    decide (k < 4 ∧ lanes < 16 ∧ id < 4096 ∧ port < 4 ∧ lane < 4 ∧ st = 2 ∧ bare ∧ linkCtl ∧ mapOk),
    decide (k < 4 ∧ lanes < 16 ∧ id < 4096 ∧ port < 4 ∧ lane < 4 ∧ st = 2 ∧ bare ∧ linkCtl ∧ ¬ mapOk),
    decide (k < 4 ∧ lanes < 16 ∧ id < 4096 ∧ port < 4 ∧ lane < 4 ∧ isOpen ∧ idleFlit ∧ f.crcOk = true ∧ f.nak =
        false ∧ x.waiting = [] ∧ freed ≤ x.replay.length ∧ x.credits + f.credit ≤ 64),
    decide (k < 4 ∧ lanes < 16 ∧ id < 4096 ∧ port < 4 ∧ lane < 4 ∧ st = 2 ∧ idleFlit ∧ f.crcOk = true ∧ f.nak =
        false ∧ x.waiting = [] ∧ freed = 0 ∧ 64 < x.credits + f.credit),
    decide (k < 4 ∧ lanes < 16 ∧ id < 4096 ∧ port < 4 ∧ lane < 4 ∧ st = 2 ∧ idleFlit ∧ f.crcOk = true ∧ f.nak =
        false ∧ f.credit = 0 ∧ x.credits ≤ 64 ∧ x.waiting = [] ∧ x.replay.length < freed ∧ freed < 2048),
    decide (k < 4 ∧ lanes < 16 ∧ id < 4096 ∧ port < 4 ∧ lane < 4 ∧ isOpen ∧ idleFlit ∧ f.crcOk = true ∧ f.nak =
        true ∧ freed = 0 ∧ f.credit = 0 ∧ x.credits ≤ 64 ∧ x.waiting = [] ∧ x.replay ≠ [] ∧ x.replays < 8),
    decide (k < 4 ∧ lanes < 16 ∧ id < 4096 ∧ port < 4 ∧ lane < 4 ∧ st = 2 ∧ f.crcOk = false ∧ f.stomped = false),
    decide (k < 4 ∧ lanes < 16 ∧ id < 4096 ∧ port < 4 ∧ lane < 4 ∧ (st = 0 ∨ f.crcOk = false ∧ f.stomped =
        true)),
    decide (k < 4 ∧ lanes < 16 ∧ id < 4096 ∧ port < 4 ∧ lane < 4 ∧ wants),
    decide (k < 4 ∧ lanes < 16 ∧ id < 4096 ∧ port < 4 ∧ lane < 4 ∧ ¬ wants),
    decide (k < 4 ∧ lanes < 16 ∧ id < 4096 ∧ port < 4 ∧ lane < 4 ∧ late ∧ x.replays < 8),
    decide (k < 4 ∧ lanes < 16 ∧ id < 4096 ∧ port < 4 ∧ lane < 4 ∧ late ∧ calm ∧ 8 ≤ x.replays),
    decide (k < 4 ∧ lanes < 16 ∧ id < 4096 ∧ port < 4 ∧ lane < 4 ∧ ¬ late) ]

theorem witness_SeamPorts_0 : met (hypsSeamPorts
    ({ State.reset with regs := [(655680, 1), (655684, 2541232014)], seam := { State.reset.seam with ports := ⟨[(1, { SeamPort.init with nextSeq := 101, owed := 1, replays := 8 })]⟩ } }) (1) (0) (0) (0) (3) (1) (false) ({ noFlit with ack := 100 }) (noFlit) (⟨0, 0, 0, (Req.engine 5), 0, 0, 0, false, false⟩)) [0, 1, 2, 4, 6, 9, 12, 13, 16, 19, 25, 29] = true := by
  decide +kernel

theorem witness_SeamPorts_1 : met (hypsSeamPorts
    ({ State.reset with regs := [(655620, 62)], clock := { Clock.init with tick := 2000000 }, seam := { State.reset.seam with ports := ⟨[(0, { SeamPort.init with nextSeq := 102, replay := [{ noFlit with src := 1 }, { noFlit with src := 1 }], sentAt := 1998401, replays := 8 })]⟩ } }) (0) (0) (0) (0) (0) (0) (false) ({ noFlit with kind := 1, ack := 99 }) (noFlit) (⟨0, 0, 0, (Req.engine 5), 0, 0, 0, false, false⟩)) [7, 10, 15, 18, 26, 28] = true := by
  decide +kernel

theorem witness_SeamPorts_2 : met (hypsSeamPorts
    ({ State.reset with regs := [(655812, 1)], clock := { Clock.init with tick := 2000000 } }) (3) (15) (0) (0) (0) (0) (false) ({ noFlit with crcOk := false, stomped := true }) (noFlit) (⟨0, 0, 0, (Req.engine 5), 0, 0, 0, false, false⟩)) [3, 5, 24] = true := by
  decide +kernel

theorem witness_SeamPorts_3 : met (hypsSeamPorts
    ({ State.reset with regs := [(655360, 126992), (655684, 1451701410)], clock := { Clock.init with tick := 2000000 }, seam := { State.reset.seam with ports := ⟨[(1, { SeamPort.init with replay := [{ noFlit with kind := 2, cls := 2, dst := 153, src := 16, tid := 9, seq := 100 }] })]⟩, reqs := [⟨1, 9, 2, (Req.engine 5), 0, 70368744177664, 7, false, false⟩] } }) (1) (0) (0) (0) (0) (0) (false) (noFlit) ({ noFlit with kind := 2, cls := 2, dst := 153, src := 16, tid := 9, seq := 100 }) (⟨1, 9, 2, (Req.engine 5), 0, 70368744177664, 7, false, false⟩)) [11, 21, 27] = true := by
  decide +kernel

theorem witness_SeamPorts_4 : met (hypsSeamPorts
    ({ State.reset with regs := [(655812, 4294967254)] }) (3) (0) (0) (0) (0) (0) (false) ({ noFlit with crcOk := false }) (noFlit) (⟨0, 0, 0, (Req.engine 5), 0, 0, 0, false, false⟩)) [8, 23] = true := by
  decide +kernel

theorem witness_SeamPorts_5 : met (hypsSeamPorts
    ({ State.reset with regs := [(655748, 1)] }) (2) (0) (0) (0) (0) (0) (false) ({ noFlit with kind := 1 }) (noFlit) (⟨0, 0, 0, (Req.engine 5), 0, 0, 0, false, false⟩)) [14] = true := by
  decide +kernel

theorem witness_SeamPorts_6 : met (hypsSeamPorts
    ({ State.reset with regs := [(655620, 2147483702)], seam := { State.reset.seam with ports := ⟨[(0, { SeamPort.init with nextSeq := 103, credits := 53 })]⟩ } }) (0) (0) (0) (0) (0) (0) (false) ({ noFlit with ack := 102, credit := 14 }) (noFlit) (⟨0, 0, 0, (Req.engine 5), 0, 0, 0, false, false⟩)) [20] = true := by
  decide +kernel

theorem witness_SeamPorts_7 : met (hypsSeamPorts
    ({ State.reset with regs := [(655748, 4037188415)], seam := { State.reset.seam with ports := ⟨[(2, { SeamPort.init with nextSeq := 101, replay := [noFlit] })]⟩ } }) (2) (0) (0) (0) (0) (0) (false) ({ noFlit with ack := 99, nak := true }) (noFlit) (⟨0, 0, 0, (Req.engine 5), 0, 0, 0, false, false⟩)) [22] = true := by
  decide +kernel

theorem witness_SeamPorts_8 : met (hypsSeamPorts
    ({ State.reset with regs := [(655748, 2571657854)], seam := { State.reset.seam with ports := ⟨[(2, { SeamPort.init with nextSeq := 100 })]⟩ } }) (2) (0) (0) (0) (0) (0) (false) ({ noFlit with kind := 1, ack := 99, payload := [0, 9] }) (noFlit) (⟨0, 0, 0, (Req.engine 5), 0, 0, 0, false, false⟩)) [17] = true := by
  decide +kernel

/-- The hypotheses of the clauses of `Obligations.SeamRequests`. -/
def hypsSeamRequests (s : State) (k p a eighth : Nat) (v : Word) (f : Flit) (r : SeamReq) (who : Req) (data : List Byte) : List Bool :=
  let now := s.clock.tick
  let lt := s.clock.lt
  let port := fun (j : Nat) (t : State) => t.seam.ports.get SeamPort.init j
  let x := port k s
  let device := s.fld Reg.SL_CTL F.SL_CTL_DeviceId
  let state := fun (j : Nat) => s.fld (Reg.SL_PSTAT j) F.SL_PSTAT_State
  let ids := fun (j : Nat) => s.bit Reg.SL_CTL F.SL_CTL_IdValid = true ∧ s.bit (Reg.SL_PSTAT j)
      F.SL_PSTAT_PeerIdValid = true
  let le := fun (o n : Nat) => leNat ((f.payload.drop o).take n)
  let bare := f.crcOk = true ∧ f.nak = false ∧ f.credit = 0 ∧ f.ack = (x.nextSeq + 4095) % 4096 ∧ x.nextSeq <
      4096 ∧ x.replay = [] ∧ x.credits ≤ 64 ∧ x.waiting = []
  let heard := k < 4 ∧ state k = 2 ∧ bare ∧ f.seq = x.expect ∧ x.expect < 4096 ∧ 0 < x.given ∧ f.kind = 2 ∧
      f.clean = true ∧ f.len ≤ 240 ∧ f.mcast = false ∧ f.dst = device ∧ ids k
  let comes := fun (cls : Nat) (ans : Bool) => f.cls = cls ∧ f.ans = ans ∧ f.mcast = false ∧ (k = 4 ∧
      s.seam.loop.head? = some f ∨ heard)
  let sized := fun (n : Nat) => 1 ≤ n ∧ n ≤ 224
  let routed := fun (d : Nat) => d ≠ device ∧ s.fld (Reg.SL_ROUTE d) F.SL_ROUTE_Primary = p ∧ s.bit
      (Reg.SL_ROUTE d) F.SL_ROUTE_UseAlt = false ∧ state p = 2 ∧ ids p ∧ (port p s).waiting = [] ∧ 0 < (port p
      s).credits ∧ (port p s).replay.length < 512
  let a' := le 0 8
  let n := le 8 2
  let granted := fun (write : Bool) => (List.range 8).any (fun i => inGrants write a' n i s) = true
  let control := a' + n ≤ 0x1000000
  let memory := fun (write : Bool) => (List.range n).all (fun i => !isSeam (a' + i) s && dpAllowed .other write
      (a' + i) s) = true
  let thawed := frozenIn a' n s = false
  let clean := s.memt.writes = [] ∧ thawed ∧ ∀ i : Nat, i < n → s.poisoned (a' + i) = false
  let wr := (s.reg Reg.SL_MSGWR).toNat
  let held := (wr + 4294967296 - (s.reg Reg.SL_MSGRD).toNat) % 4294967296
  let ringSize : Nat := 2 ^ s.fld Reg.SL_MSGCFG F.SL_MSGCFG_SizeLog2
  let rdOk := (wr + 4294967296 - v.toNat) % 4294967296 ≤ ringSize / 256
  let ring := s.base48 Reg.SL_MSGBASE_LO - s.base48 Reg.SL_MSGBASE_LO % ringSize
  let slot := ring + wr * 256 % ringSize
  let length := le 2 2
  let one := s.seam.reqs = [r] ∧ r.tid = f.tid ∧ r.port < 4
  let stamp : Nat := (8 * lt + eighth) % 18446744073709551616
  let mode := s.fld Reg.SYS_LT_CTL F.SYS_LT_CTL_Mode
  let tsync := f.kind = 3 ∧ f.cls = 6 ∧ f.clean = true ∧ f.len ≤ 240 ∧ f.mcast = false
  let up := s.fld Reg.SL_CTL F.SL_CTL_TsUpPort
  let diff := fun (u w : Nat) => (BitVec.ofNat 64 u - BitVec.ofNat 64 w).toInt
  let t1 := s.seam.ts1.getD 0
  let delay2 := diff stamp t1 - diff (le 8 8) (le 0 8)
  let offset2 := diff (le 0 8) t1 - diff stamp (le 8 8)
  let offset := offset2 / 2 + (BitVec.ofNat 8 (s.fld Reg.SL_TSCFG F.SL_TSCFG_TsAsym)).toInt
  let exact := delay2 % 2 = 0 ∧ offset2 % 2 = 0 ∧ offset % 8 = 0
  let reply := k < 4 ∧ k = up ∧ (state k = 2 ∨ state k = 3) ∧ bare ∧ tsync ∧ s.seam.ts1 ≠ none
  let period := 1600 * s.fld Reg.SL_TSCFG F.SL_TSCFG_TsPeriod
  let due := (mode = 0 ∨ mode = 1) ∧ s.bit Reg.SL_CTL F.SL_CTL_TsEnable = true ∧ s.seam.tsAt + period ≤ now ∧
      (state up = 2 ∨ state up = 3)
  let w := (a - 0x400000000000) / 0x100000000
  let ctl := Reg.SL_WIN_CTL w
  let remote := ((s.reg (Reg.SL_WIN_LO w)).toNat + 4294967296 * s.fld (Reg.SL_WIN_HI w) F.SL_WIN_HI_RemoteHi +
      (a - 0x400000000000) % 0x100000000) % 281474976710656
  let inWin := fun (n : Nat) => 0x400000000000 ≤ a ∧ a + n ≤ 0x404000000000 ∧ a % 0x100000000 + n ≤ 0x100000000
      ∧ 0 < n
  let opens := fun (f : Fld) => s.bit ctl F.SL_WIN_CTL_WinEnable = true ∧ s.bit ctl f = true
  let single := fun (n : Nat) => n ≤ 224 ∧ remote % 4096 + n ≤ 4096
  let dev := s.fld ctl F.SL_WIN_CTL_DevId
  let unicast := s.bit ctl F.SL_WIN_CTL_Mcast = false
  let attAt := (s.preg who Reg.SL_ATT_LO).toNat + 4294967296 * F.SL_ATT_HI_Addr.get (s.preg who Reg.SL_ATT_HI)
  let tid := s.seam.nextTid
  [ decide (k < 5 ∧ p < 4 ∧ eighth < 8 ∧ comes 1 false ∧ sized n ∧ granted true ∧ control ∧ n = 4 ∧ a' % 4 = 0),
    decide (k < 5 ∧ p < 4 ∧ eighth < 8 ∧ comes 1 false ∧ sized n ∧ granted true ∧ ¬ control ∧ memory true ∧
        clean),
    decide (k < 5 ∧ p < 4 ∧ eighth < 8 ∧ comes 1 false ∧ sized n ∧ (¬ (granted true ∧ (control ∨ memory true)))),
    decide (k < 5 ∧ p < 4 ∧ eighth < 8 ∧ comes 2 false ∧ sized n ∧ granted false ∧ ¬ control ∧ memory false ∧
        clean),
    decide (k < 5 ∧ p < 4 ∧ eighth < 8 ∧ comes 2 false ∧ sized n ∧ granted false ∧ ¬ control ∧ memory false ∧
        thawed ∧ (∃ i : Nat, i < n ∧ s.poisoned (a' + i) = true)),
    decide (k < 5 ∧ p < 4 ∧ eighth < 8 ∧ comes 2 false ∧ sized n ∧ granted false ∧ control ∧ n = 4 ∧ a' % 4 = 0),
    decide (k < 5 ∧ p < 4 ∧ eighth < 8 ∧ comes 2 false ∧ sized n ∧ (¬ (granted false ∧ (control ∨ memory
        false)))),
    decide (k < 5 ∧ p < 4 ∧ eighth < 8 ∧ comes 4 false ∧ sized length ∧ held ≠ ringSize / 256 ∧ inRingMemory
        ring ringSize s = true ∧ s.memt.writes = [] ∧ fenceOk .other true slot 256 s = true ∧ frozenIn slot 256 s =
        false),
    decide (k < 5 ∧ p < 4 ∧ eighth < 8 ∧ comes 4 false ∧ sized length ∧ held = ringSize / 256),
    decide (k < 5 ∧ p < 4 ∧ eighth < 8 ∧ comes 5 false),
    decide (k < 5 ∧ p < 4 ∧ eighth < 8 ∧ f.cls = 5 ∧ f.ans = false ∧ f.mcast = false ∧ routed f.src),
    decide (k < 5 ∧ p < 4 ∧ eighth < 8 ∧ f.cls = 5 ∧ f.ans = false ∧ f.mcast = false),
    decide (k < 5 ∧ p < 4 ∧ eighth < 8 ∧ comes 7 false ∧ s.bit Reg.MNT_STATUS F.MNT_STATUS_ReqBusy = true),
    decide (k < 5 ∧ p < 4 ∧ eighth < 8 ∧ comes 7 false ∧ s.bit Reg.MNT_STATUS F.MNT_STATUS_ReqBusy = false),
    decide (k < 5 ∧ p < 4 ∧ eighth < 8 ∧ comes 3 true ∧ one ∧ r.cls = 2 ∧ r.got = false ∧ r.req = .engine 5),
    decide (k < 5 ∧ p < 4 ∧ eighth < 8 ∧ comes 3 true ∧ one ∧ r.cls = 2 ∧ r.got = false ∧ r.req = .host ∧
        s.seam.dones = [] ∧ f.status = 0 ∧ (f.payload.drop 16).length = 4),
    decide (k < 5 ∧ p < 4 ∧ eighth < 8 ∧ comes 3 true ∧ s.seam.reqs = []),
    decide (k < 5 ∧ p < 4 ∧ eighth < 8 ∧ comes 5 true ∧ one ∧ r.cls = 5 ∧ r.got = false),
    decide (k < 5 ∧ p < 4 ∧ eighth < 8 ∧ comes 5 true ∧ one ∧ r.cls = 5 ∧ r.got = true),
    decide (k < 5 ∧ p < 4 ∧ eighth < 8 ∧ comes 7 true ∧ one ∧ r.cls = 7 ∧ r.got = false),
    decide (k < 5 ∧ p < 4 ∧ eighth < 8 ∧ (comes 1 true ∨ comes 4 true) ∧ f.status = 0),
    decide (k < 5 ∧ p < 4 ∧ eighth < 8 ∧ (comes 1 true ∨ comes 4 true) ∧ f.status ≠ 0 ∧ 0 < s.seam.wtids.get 0
        f.tid ∧ s.seam.wtids.get 0 f.tid ≤ 64),
    decide (k < 5 ∧ p < 4 ∧ eighth < 8 ∧ s.seam.reqs = [r] ∧ r.port < 4 ∧ r.got = false ∧ (r.cls = 2 ∨ r.cls =
        5) ∧ r.at' + 64000 ≤ now ∧ r.cls = 2 ∧ r.req = .engine 5),
    decide (k < 5 ∧ p < 4 ∧ eighth < 8 ∧ s.seam.reqs = [r] ∧ r.port < 4 ∧ r.got = false ∧ (r.cls = 2 ∨ r.cls =
        5) ∧ r.at' + 64000 ≤ now ∧ r.cls = 5),
    decide (k < 5 ∧ p < 4 ∧ eighth < 8 ∧ s.seam.reqs = [r] ∧ r.port < 4 ∧ r.got = false ∧ (r.cls = 2 ∨ r.cls =
        5) ∧ now < r.at' + 64000),
    decide (k < 5 ∧ p < 4 ∧ eighth < 8 ∧ F.SL_CUE_RES_Busy.get (s.preg who Reg.SL_CUE_RES) = 0 ∧ s.seam.reqs =
        [] ∧ tid < 256 ∧ F.SL_CUE_GO_Mcast.get v = 0 ∧ routed (F.SL_CUE_GO_Dst.get v)),
    decide (k < 5 ∧ p < 4 ∧ eighth < 8 ∧ F.SL_CUE_RES_Busy.get (s.preg who Reg.SL_CUE_RES) = 1),
    decide (k < 5 ∧ p < 4 ∧ eighth < 8 ∧ F.SL_ATT_CTL_Busy.get (s.preg who Reg.SL_ATT_CTL) = 1),
    decide (k < 5 ∧ p < 4 ∧ eighth < 8 ∧ F.SL_ATT_CTL_Busy.get (s.preg who Reg.SL_ATT_CTL) = 0 ∧ nonceOk attAt s
        = true ∧ s.seam.reqs = [] ∧ tid < 256 ∧ routed (F.SL_ATT_CTL_Dst.get v)),
    decide (k < 5 ∧ p < 4 ∧ eighth < 8 ∧ F.SL_ATT_CTL_Busy.get (s.preg who Reg.SL_ATT_CTL) = 0 ∧ nonceOk attAt s
        = false),
    decide (k < 5 ∧ p < 4 ∧ eighth < 8 ∧ inWin data.length ∧ opens F.SL_WIN_CTL_Write ∧ s.bit ctl
        F.SL_WIN_CTL_Kind = false ∧ unicast ∧ single data.length ∧ routed dev),
    decide (k < 5 ∧ p < 4 ∧ eighth < 8 ∧ inWin data.length ∧ opens F.SL_WIN_CTL_Write ∧ s.bit ctl
        F.SL_WIN_CTL_Kind = true ∧ unicast ∧ data.length ≤ 224 ∧ routed dev),
    decide (k < 5 ∧ p < 4 ∧ eighth < 8 ∧ inWin data.length ∧ opens F.SL_WIN_CTL_Read ∧ s.bit ctl
        F.SL_WIN_CTL_Kind = false ∧ unicast ∧ single data.length ∧ routed dev ∧ s.seam.reqs = [] ∧ tid < 256),
    decide (k < 5 ∧ p < 4 ∧ eighth < 8 ∧ inWin data.length ∧ ¬ opens F.SL_WIN_CTL_Write),
    decide (k < 5 ∧ p < 4 ∧ eighth < 8 ∧ inWin data.length ∧ ¬ opens F.SL_WIN_CTL_Read ∧ (s.eng 0).st = .run ∧
        (s.eng 0).exl = false),
    decide (k < 5 ∧ p < 4 ∧ eighth < 8 ∧ rdOk),
    decide (k < 5 ∧ p < 4 ∧ eighth < 8 ∧ ¬ rdOk),
    decide (k < 5 ∧ p < 4 ∧ eighth < 8 ∧ k < 4 ∧ (state k = 2 ∨ state k = 3) ∧ bare ∧ tsync),
    decide (k < 5 ∧ p < 4 ∧ eighth < 8 ∧ reply ∧ le 16 1 % 2 = 1 ∧ exact),
    decide (k < 5 ∧ p < 4 ∧ eighth < 8 ∧ reply ∧ le 16 1 % 2 = 0),
    decide (k < 5 ∧ p < 4 ∧ eighth < 8 ∧ due),
    decide (k < 5 ∧ p < 4 ∧ eighth < 8 ∧ ¬ due) ]

theorem witness_SeamRequests_0 : met (hypsSeamRequests
    ({ State.reset with regs := [(655360, 1044496), (655812, 1711382734), (672016, 59)], perReq := ⟨[(6, ⟨[(655440, 1), (655464, 4096)]⟩)]⟩, clock := { Clock.init with tick := 2000000 }, engs := ⟨[(0, { Engine.init with st := (EngSt.run) })]⟩, seam := { State.reset.seam with ports := ⟨[(3, { SeamPort.init with expect := 50, nextSeq := 7, credits := 1, given := 1 })]⟩, reqs := [⟨3, 9, 5, (Req.engine 5), 2, 70368744177664, 1936000, false, false⟩], tsAt := 1995201 } }) (3) (3) (70377334116163) (0) (1) ({ noFlit with kind := 2, cls := 5, dst := 16, src := 68, seq := 50, ack := 6 }) (⟨3, 9, 5, (Req.engine 5), 2, 70368744177664, 1936000, false, false⟩) ((Req.engine 5)) ([0])) [9, 10, 11, 23, 26, 27, 33, 34, 36, 41] = true := by
  decide +kernel

theorem witness_SeamRequests_1 : met (hypsSeamRequests
    ({ State.reset with regs := [(655360, 782352), (655368, 0), (655684, 3686760062), (659496, 4294926404), (672016, 1)], perReq := ⟨[(6, ⟨[(655460, 1)]⟩)]⟩, seam := { State.reset.seam with ports := ⟨[(1, { SeamPort.init with nextSeq := 7, credits := 1 })]⟩, ts1 := some (0) } }) (1) (1) (70377334115267) (0) (2147483716) ({ noFlit with kind := 3, cls := 6, ack := 6 }) (⟨0, 0, 0, (Req.engine 5), 0, 0, 0, false, false⟩) ((Req.engine 5)) ([0])) [25, 28, 30, 32, 37, 39, 40] = true := by
  decide +kernel

theorem witness_SeamRequests_2 : met (hypsSeamRequests
    ({ State.reset with regs := [(655360, 651280), (655620, 66), (655684, 655508290), (659496, 4294959172), (660504, 360), (672016, 1)], clock := { Clock.init with tick := 2000000 }, seam := { State.reset.seam with ports := ⟨[(0, { SeamPort.init with expect := 50, nextSeq := 7, given := 1 }), (1, { SeamPort.init with credits := 1 })]⟩, reqs := [⟨0, 9, 2, (Req.engine 5), 2, 70368744177664, 1936000, false, false⟩] } }) (0) (1) (70377334115669) (0) (0) ({ noFlit with kind := 2, cls := 2, dst := 16, seq := 50, ack := 6, payload := [0, 0, 0, 0, 1, 0, 0, 0, 1] }) (⟨0, 9, 2, (Req.engine 5), 2, 70368744177664, 1936000, false, false⟩) ((Req.engine 5)) ([0])) [3, 22, 31, 35] = true := by
  decide +kernel

theorem witness_SeamRequests_3 : met (hypsSeamRequests
    ({ State.reset with regs := [(660504, 360)], seam := { State.reset.seam with reqs := [⟨1, 9, 2, (Req.host), 2, 70368744177664, 1936001, false, false⟩], loop := [{ noFlit with kind := 2, cls := 2, hops := 3, dst := 16, src := 68, tid := 9, len := 20, seq := 50, ack := 6, payload := [36, 0, 10, 0, 0, 0, 0, 0, 4, 0, 0, 0, 0, 0, 0, 0, 24, 27, 18, 230] }] } }) (4) (0) (0) (0) (0) ({ noFlit with kind := 2, cls := 2, hops := 3, dst := 16, src := 68, tid := 9, len := 20, seq := 50, ack := 6, payload := [36, 0, 10, 0, 0, 0, 0, 0, 4, 0, 0, 0, 0, 0, 0, 0, 24, 27, 18, 230] }) (⟨1, 9, 2, (Req.host), 2, 70368744177664, 1936001, false, false⟩) ((Req.host)) ([])) [5, 24, 29] = true := by
  decide +kernel

theorem witness_SeamRequests_4 : met (hypsSeamRequests
    ({ State.reset with seam := { State.reset.seam with loop := [{ noFlit with kind := 2, cls := 4, ans := true, hops := 3, dst := 16, src := 68, tid := 9, len := 20, seq := 50, ack := 6, payload := [0, 0, 4, 0, 0, 0, 0, 0, 0, 0, 0, 0, 0, 0, 0, 0, 69, 60, 123, 106] }] } }) (4) (0) (0) (0) (0) ({ noFlit with kind := 2, cls := 4, ans := true, hops := 3, dst := 16, src := 68, tid := 9, len := 20, seq := 50, ack := 6, payload := [0, 0, 4, 0, 0, 0, 0, 0, 0, 0, 0, 0, 0, 0, 0, 0, 69, 60, 123, 106] }) (⟨0, 0, 0, (Req.engine 5), 0, 0, 0, false, false⟩) ((Req.engine 5)) ([])) [20] = true := by
  decide +kernel

theorem witness_SeamRequests_5 : met (hypsSeamRequests
    ({ State.reset with seam := { State.reset.seam with loop := [{ noFlit with kind := 2, cls := 1, hops := 3, dst := 16, src := 68, tid := 9, len := 20, status := 1, seq := 50, ack := 6, payload := [32, 0, 10, 0, 0, 0, 0, 0, 4, 0, 0, 0, 0, 0, 0, 0, 92, 244, 171, 96] }] } }) (4) (0) (0) (0) (0) ({ noFlit with kind := 2, cls := 1, hops := 3, dst := 16, src := 68, tid := 9, len := 20, status := 1, seq := 50, ack := 6, payload := [32, 0, 10, 0, 0, 0, 0, 0, 4, 0, 0, 0, 0, 0, 0, 0, 92, 244, 171, 96] }) (⟨0, 0, 0, (Req.host), 0, 0, 0, false, false⟩) ((Req.host)) ([])) [2] = true := by
  decide +kernel

theorem witness_SeamRequests_6 : met (hypsSeamRequests
    ({ State.reset with regs := [(655360, 913424), (655748, 4294967294), (660504, 424)], seam := { State.reset.seam with ports := ⟨[(2, { SeamPort.init with expect := 50, nextSeq := 7, given := 1 })]⟩ } }) (2) (0) (0) (0) (0) ({ noFlit with kind := 2, cls := 1, dst := 16, seq := 50, ack := 6, payload := [0, 0, 0, 0, 1, 0, 0, 0, 1] }) (⟨0, 0, 0, (Req.engine 5), 0, 0, 0, false, false⟩) ((Req.engine 5)) ([])) [1] = true := by
  decide +kernel

theorem witness_SeamRequests_7 : met (hypsSeamRequests
    ({ State.reset with regs := [(660504, 424)], seam := { State.reset.seam with loop := [{ noFlit with kind := 2, cls := 1, hops := 3, dst := 16, src := 68, tid := 9, len := 20, status := 1, seq := 50, ack := 6, payload := [36, 0, 10, 0, 0, 0, 0, 0, 4, 0, 0, 0, 0, 0, 0, 0, 211, 75, 69, 248] }] } }) (4) (0) (0) (0) (0) ({ noFlit with kind := 2, cls := 1, hops := 3, dst := 16, src := 68, tid := 9, len := 20, status := 1, seq := 50, ack := 6, payload := [36, 0, 10, 0, 0, 0, 0, 0, 4, 0, 0, 0, 0, 0, 0, 0, 211, 75, 69, 248] }) (⟨0, 0, 0, (Req.host), 0, 0, 0, false, false⟩) ((Req.host)) ([])) [0] = true := by
  decide +kernel

theorem witness_SeamRequests_8 : met (hypsSeamRequests
    ({ State.reset with seam := { State.reset.seam with loop := [{ noFlit with kind := 2, cls := 3, ans := true, hops := 3, dst := 16, src := 68, tid := 9, len := 20, seq := 50, ack := 6, payload := [0, 0, 0, 0, 0, 0, 0, 0, 0, 0, 0, 0, 0, 0, 0, 0, 124, 108, 74, 112] }] } }) (4) (0) (0) (0) (0) ({ noFlit with kind := 2, cls := 3, ans := true, hops := 3, dst := 16, src := 68, tid := 9, len := 20, seq := 50, ack := 6, payload := [0, 0, 0, 0, 0, 0, 0, 0, 0, 0, 0, 0, 0, 0, 0, 0, 124, 108, 74, 112] }) (⟨0, 0, 0, (Req.engine 5), 0, 0, 0, false, false⟩) ((Req.engine 5)) ([])) [16] = true := by
  decide +kernel

theorem witness_SeamRequests_9 : met (hypsSeamRequests
    ({ State.reset with regs := [(655360, 782352), (655684, 4292075518)], seam := { State.reset.seam with ports := ⟨[(1, { SeamPort.init with expect := 50, nextSeq := 7, given := 1 })]⟩, reqs := [⟨1, 9, 5, (Req.host), 2, 70368744177664, 1936000, false, false⟩] } }) (1) (0) (0) (0) (0) ({ noFlit with kind := 2, cls := 5, ans := true, dst := 16, tid := 9, seq := 50, ack := 6 }) (⟨1, 9, 5, (Req.host), 2, 70368744177664, 1936000, false, false⟩) ((Req.host)) ([])) [17] = true := by
  decide +kernel

theorem witness_SeamRequests_10 : met (hypsSeamRequests
    ({ State.reset with regs := [(655360, 782352), (655684, 4121811534)], seam := { State.reset.seam with ports := ⟨[(1, { SeamPort.init with expect := 50, nextSeq := 7, given := 1 })]⟩, reqs := [⟨1, 9, 7, (Req.engine 5), 2, 70368744177664, 1935999, false, false⟩] } }) (1) (0) (0) (0) (0) ({ noFlit with kind := 2, cls := 7, ans := true, dst := 16, tid := 9, seq := 50, ack := 6 }) (⟨1, 9, 7, (Req.engine 5), 2, 70368744177664, 1935999, false, false⟩) ((Req.engine 5)) ([])) [19] = true := by
  decide +kernel

theorem witness_SeamRequests_11 : met (hypsSeamRequests
    ({ State.reset with seam := { State.reset.seam with loop := [{ noFlit with kind := 2, cls := 2, hops := 3, dst := 16, src := 68, tid := 9, len := 28, status := 2, seq := 50, ack := 6, payload := [162, 0, 0, 1, 0, 0, 0, 0, 12, 0, 0, 0, 0, 0, 0, 0, 4, 20, 105, 113, 138, 0, 46, 156, 119, 190, 170, 169] }] } }) (4) (0) (0) (0) (0) ({ noFlit with kind := 2, cls := 2, hops := 3, dst := 16, src := 68, tid := 9, len := 28, status := 2, seq := 50, ack := 6, payload := [162, 0, 0, 1, 0, 0, 0, 0, 12, 0, 0, 0, 0, 0, 0, 0, 4, 20, 105, 113, 138, 0, 46, 156, 119, 190, 170, 169] }) (⟨0, 0, 0, (Req.engine 5), 0, 0, 0, false, false⟩) ((Req.engine 5)) ([])) [6] = true := by
  decide +kernel

theorem witness_SeamRequests_12 : met (hypsSeamRequests
    ({ State.reset with regs := [(655360, 651280), (655396, 1), (655620, 413496062)], seam := { State.reset.seam with ports := ⟨[(0, { SeamPort.init with expect := 50, nextSeq := 7, given := 1 })]⟩ } }) (0) (0) (0) (0) (0) ({ noFlit with kind := 2, cls := 4, dst := 16, seq := 50, ack := 6, payload := [0, 0, 1] }) (⟨0, 0, 0, (Req.host), 0, 0, 0, false, false⟩) ((Req.host)) ([])) [7] = true := by
  decide +kernel

theorem witness_SeamRequests_13 : met (hypsSeamRequests
    ({ State.reset with regs := [(655360, 913424), (655748, 649165178)], seam := { State.reset.seam with ports := ⟨[(2, { SeamPort.init with expect := 50, nextSeq := 7, given := 1 })]⟩ } }) (2) (0) (0) (0) (0) ({ noFlit with kind := 2, cls := 7, dst := 16, seq := 50, ack := 6 }) (⟨0, 0, 0, (Req.engine 5), 0, 0, 0, false, false⟩) ((Req.engine 5)) ([])) [13] = true := by
  decide +kernel

theorem witness_SeamRequests_14 : met (hypsSeamRequests
    ({ State.reset with regs := [(196608, 8)], seam := { State.reset.seam with loop := [{ noFlit with kind := 2, cls := 7, hops := 3, dst := 16, src := 68, tid := 9, len := 40, seq := 50, ack := 6, payload := [0, 1, 2, 3, 4, 5, 6, 7, 8, 9, 10, 11, 12, 13, 14, 15, 16, 17, 18, 19, 20, 21, 22, 23, 24, 25, 26, 27, 28, 29, 30, 31, 0, 16, 0, 0, 0, 0, 0, 0] }] } }) (4) (0) (0) (0) (0) ({ noFlit with kind := 2, cls := 7, hops := 3, dst := 16, src := 68, tid := 9, len := 40, seq := 50, ack := 6, payload := [0, 1, 2, 3, 4, 5, 6, 7, 8, 9, 10, 11, 12, 13, 14, 15, 16, 17, 18, 19, 20, 21, 22, 23, 24, 25, 26, 27, 28, 29, 30, 31, 0, 16, 0, 0, 0, 0, 0, 0] }) (⟨0, 0, 0, (Req.host), 0, 0, 0, false, false⟩) ((Req.host)) ([])) [12] = true := by
  decide +kernel

theorem witness_SeamRequests_15 : met (hypsSeamRequests
    ({ State.reset with regs := [(655360, 651280), (655620, 4059043570)], seam := { State.reset.seam with ports := ⟨[(0, { SeamPort.init with expect := 50, nextSeq := 7, given := 1 })]⟩, wtids := ⟨[(9, 1)]⟩ } }) (0) (0) (0) (0) (0) ({ noFlit with kind := 2, cls := 1, ans := true, dst := 16, tid := 9, status := 1, seq := 50, ack := 6 }) (⟨0, 0, 0, (Req.engine 5), 0, 0, 0, false, false⟩) ((Req.engine 5)) ([])) [21] = true := by
  decide +kernel

theorem witness_SeamRequests_16 : met (hypsSeamRequests
    ({ State.reset with regs := [(655404, 16)], seam := { State.reset.seam with loop := [{ noFlit with kind := 2, cls := 4, hops := 3, dst := 16, src := 68, tid := 9, len := 22, status := 2, seq := 50, ack := 6, payload := [0, 0, 6, 0, 0, 0, 0, 0, 0, 0, 0, 0, 0, 0, 0, 0, 192, 231, 71, 32, 57, 253] }] } }) (4) (0) (0) (0) (0) ({ noFlit with kind := 2, cls := 4, hops := 3, dst := 16, src := 68, tid := 9, len := 22, status := 2, seq := 50, ack := 6, payload := [0, 0, 6, 0, 0, 0, 0, 0, 0, 0, 0, 0, 0, 0, 0, 0, 192, 231, 71, 32, 57, 253] }) (⟨0, 0, 0, (Req.host), 0, 0, 0, false, false⟩) ((Req.host)) ([])) [8] = true := by
  decide +kernel

theorem witness_SeamRequests_17 : met (hypsSeamRequests
    ({ State.reset with regs := [(655360, 913424), (655748, 976040174)], seam := { State.reset.seam with ports := ⟨[(2, { SeamPort.init with expect := 50, nextSeq := 7, given := 1 })]⟩, reqs := [⟨2, 9, 2, (Req.engine 5), 2, 70368744177664, 1936000, false, false⟩] } }) (2) (0) (0) (0) (0) ({ noFlit with kind := 2, cls := 3, ans := true, dst := 16, tid := 9, seq := 50, ack := 6 }) (⟨2, 9, 2, (Req.engine 5), 2, 70368744177664, 1936000, false, false⟩) ((Req.engine 5)) ([])) [14] = true := by
  decide +kernel

theorem witness_SeamRequests_18 : met (hypsSeamRequests
    ({ State.reset with regs := [(524296, 1), (660504, 488)], seam := { State.reset.seam with loop := [{ noFlit with kind := 2, cls := 2, hops := 3, dst := 16, src := 68, tid := 9, len := 27, seq := 50, ack := 6, payload := [5, 0, 0, 0, 16, 0, 0, 0, 11, 0, 0, 0, 0, 0, 0, 0, 191, 148, 239, 11, 204, 123, 11, 109, 91, 189, 3] }] } }) (4) (0) (0) (0) (0) ({ noFlit with kind := 2, cls := 2, hops := 3, dst := 16, src := 68, tid := 9, len := 27, seq := 50, ack := 6, payload := [5, 0, 0, 0, 16, 0, 0, 0, 11, 0, 0, 0, 0, 0, 0, 0, 191, 148, 239, 11, 204, 123, 11, 109, 91, 189, 3] }) (⟨0, 0, 0, (Req.host), 0, 0, 0, false, false⟩) ((Req.host)) ([])) [4] = true := by
  decide +kernel

theorem witness_SeamRequests_19 : met (hypsSeamRequests
    ({ State.reset with regs := [(655360, 1044496), (655812, 1074316102)], seam := { State.reset.seam with ports := ⟨[(3, { SeamPort.init with expect := 50, nextSeq := 7, given := 1 })]⟩, reqs := [⟨3, 9, 5, (Req.engine 5), 2, 70368744177664, 1936000, false, true⟩] } }) (3) (0) (0) (0) (0) ({ noFlit with kind := 2, cls := 5, ans := true, dst := 16, tid := 9, seq := 50, ack := 6 }) (⟨3, 9, 5, (Req.engine 5), 2, 70368744177664, 1936000, false, true⟩) ((Req.engine 5)) ([])) [18] = true := by
  decide +kernel

theorem witness_SeamRequests_20 : met (hypsSeamRequests
    ({ State.reset with regs := [(655360, 913424), (655748, 1865356754)], seam := { State.reset.seam with ports := ⟨[(2, { SeamPort.init with expect := 50, nextSeq := 7, given := 1 })]⟩, reqs := [⟨2, 9, 2, (Req.host), 2, 70368744177664, 1936001, false, false⟩] } }) (2) (0) (0) (0) (0) ({ noFlit with kind := 2, cls := 3, ans := true, dst := 16, tid := 9, seq := 50, ack := 6, payload := [0, 0, 0, 0, 0, 0, 0, 0, 0, 0, 0, 0, 0, 0, 0, 0, 0, 0, 0, 0] }) (⟨2, 9, 2, (Req.host), 2, 70368744177664, 1936001, false, false⟩) ((Req.host)) ([])) [15] = true := by
  decide +kernel

theorem witness_SeamRequests_21 : met (hypsSeamRequests
    ({ State.reset with regs := [(655368, 786435), (655620, 66)], seam := { State.reset.seam with ports := ⟨[(0, { SeamPort.init with nextSeq := 7 })]⟩, ts1 := some (39900) } }) (0) (0) (0) (2) (0) ({ noFlit with kind := 3, cls := 6, ack := 6, payload := [78, 0, 0, 0, 0, 0, 0, 0, 168, 0, 0, 0, 0, 0, 0, 0, 1] }) (⟨0, 0, 0, (Req.engine 5), 0, 0, 0, false, false⟩) ((Req.engine 5)) ([])) [38] = true := by
  decide +kernel

/-- The hypotheses of the clauses of `Obligations.CalibrationAndMonitors`. -/
def hypsCalibrationAndMonitors (s : State) (p t i : Nat) (v : Word) (vals : List Word) (temp : Int) (since : Nat) : List Bool :=
  let now := s.clock.tick
  let tile := fun (u : Nat) (x : State) => x.cal.tiles.get CalTile.init u
  let x := tile t s
  let mode := fun (u : Nat) => s.fld (Reg.CAL_TCTL u) F.CAL_TCTL_Mode
  let rated := ∃ y : Nat, y < 128 ∧ y / 16 = t / 16 ∧ (tile y s).busy ≠ none
  let starts := s.bit Reg.CAL_CTL F.CAL_CTL_Enable = true ∧ ¬ rated ∧ calNext (t / 16) s = some t
  let out := (s.fld Reg.EVT_MONSUP F.EVT_MONSUP_OutNow).testBit i = true
  [ decide (p < 8 ∧ t < 128 ∧ ¬ starts),
    decide (p < 8 ∧ t < 128 ∧ starts ∧ stepFrom t x.step s ≠ none),
    decide (p < 8 ∧ t < 128 ∧ starts ∧ stepFrom t x.step s = none ∧ mode t ≠ 1),
    decide (p < 8 ∧ t < 128 ∧ starts ∧ stepFrom t x.step s = none ∧ mode t = 1),
    decide (p < 8 ∧ t < 128 ∧ x.busy = none),
    decide (p < 8 ∧ t < 128 ∧ x.busy ≠ none),
    decide (p < 8 ∧ t < 128 ∧ calDisturbed t s = false),
    decide (p < 8 ∧ t < 128 ∧ calDisturbed t s = true),
    decide (p < 8 ∧ t < 128 ∧ x.since = some since ∧ x.late = false ∧ since + 1600000 * s.fld Reg.CAL_WAIT
        F.CAL_WAIT_MaxWait ≤ now),
    decide (p < 8 ∧ t < 128 ∧ x.since = some since ∧ (x.late = true ∨ now < since + 1600000 * s.fld Reg.CAL_WAIT
        F.CAL_WAIT_MaxWait)),
    decide (p < 8 ∧ t < 128 ∧ x.since = none),
    decide (p < 8 ∧ t < 128 ∧ i < 12 ∧ -(2 ^ 15) ≤ temp ∧ temp < 2 ^ 15),
    decide (p < 8 ∧ t < 128 ∧ i < 12),
    decide (p < 8 ∧ t < 128 ∧ i < 12 ∧ ¬ out),
    decide (p < 8 ∧ t < 128 ∧ i < 12 ∧ out),
    decide (p < 8 ∧ t < 128 ∧ out ∧ i < 12),
    decide (p < 8 ∧ t < 128 ∧ ¬ out) ]

theorem witness_CalibrationAndMonitors_0 : met (hypsCalibrationAndMonitors
    ({ State.reset with regs := [(262148, 0), (266752, 2)], cal := { State.reset.cal with tiles := ⟨[(2, { CalTile.init with since := some (0) })]⟩ } }) (0) (2) (0) (0) ([]) (0) (0)) [0, 4, 6, 8, 11, 12, 13, 16] = true := by
  decide +kernel

theorem witness_CalibrationAndMonitors_1 : met (hypsCalibrationAndMonitors
    ({ State.reset with regs := [(65568, 1)], arr := { State.reset.arr with dacs := ⟨[(0, { Dac.init with srcAt := 1 })]⟩ }, cal := { State.reset.cal with tiles := ⟨[(0, { CalTile.init with busy := some (0) })]⟩ } }) (0) (0) (0) (0) ([]) (0) (0)) [5, 7, 10, 14, 15] = true := by
  decide +kernel

theorem witness_CalibrationAndMonitors_2 : met (hypsCalibrationAndMonitors
    ({ State.reset with cal := { State.reset.cal with tiles := ⟨[(18, { CalTile.init with since := some (1) })]⟩ } }) (0) (18) (0) (0) ([]) (0) (1)) [1, 9] = true := by
  decide +kernel

theorem witness_CalibrationAndMonitors_3 : met (hypsCalibrationAndMonitors
    ({ State.reset with cal := { State.reset.cal with tiles := ⟨[(18, { CalTile.init with since := some (0), step := 22 })]⟩ } }) (0) (18) (0) (0) ([]) (0) (0)) [2] = true := by
  decide +kernel

theorem witness_CalibrationAndMonitors_4 : met (hypsCalibrationAndMonitors
    ({ State.reset with regs := [(266240, 1)], cal := { State.reset.cal with tiles := ⟨[(0, { CalTile.init with since := some (0), step := 18 })]⟩ } }) (0) (0) (0) (0) ([]) (0) (0)) [3] = true := by
  decide +kernel

/-- The hypotheses of the clauses of `Obligations.LineIo`. -/
def hypsLineIo (s : State) (pin u level sent : Nat) (mv : Option Int) (v : Word) (d : Byte) (rd : List Byte) (valid noStop bad : Bool) (req : Req) : List Bool :=
  let now := s.clock.tick
  let b := pin / 32
  let bank := s.fld (Reg.LIO_BANKSTAT b) F.LIO_BANKSTAT_Level
  let supply : Int := if bank = 1 then 1800 else if bank = 2 then 2500 else 3300
  let fixed := fun (c : Word) => let k := F.LIO_CFG_Threshold.get c; if k = 1 then 800 else if k = 2 then 1200 else if k = 3 then 1600 else if k = 4 then (2000 : Int) else 0
  let v1 := if 4 < F.LIO_CFG_Threshold.get v then F.LIO_CFG_Threshold.put v 0 else v
  let v2 := if F.LIO_CFG_Drive.get v1 = 3 then F.LIO_CFG_Drive.put v1 2 else v1
  let v3 := if 0x28 < F.LIO_CFG_Func.get v2 then F.LIO_CFG_Func.put v2 0 else v2
  let refused := bank ≠ 0 ∧ fixed v3 ≠ 0 ∧ supply ≤ fixed v3
  let ux := s.uart u
  let uon := s.bit (Reg.LIO_UCTL u) F.LIO_UCTL_Enable = true ∧ signalFed (2 + 2 * u) s = true
  let sx' := s.spi u
  let ix := s.i2c u
  [ decide (pin < 256 ∧ u < 4 ∧ regsWf s.regs = true ∧ now % 4 = 0 ∧ s.lio.late = ⟨[]⟩),
    decide (pin < 256 ∧ u < 4 ∧ regsWf s.regs = true ∧ refused),
    decide (pin < 256 ∧ u < 4 ∧ regsWf s.regs = true ∧ ¬ refused),
    decide (pin < 256 ∧ u < 4 ∧ regsWf s.regs = true ∧ now % 4 ≠ 0),
    decide (pin < 256 ∧ u < 4 ∧ regsWf s.regs = true ∧ now % 4 = 0),
    decide (pin < 256 ∧ u < 4 ∧ regsWf s.regs = true ∧ ux.tx.length < 16),
    decide (pin < 256 ∧ u < 4 ∧ regsWf s.regs = true ∧ 16 ≤ ux.tx.length),
    decide (pin < 256 ∧ u < 4 ∧ regsWf s.regs = true ∧ ¬ uon),
    decide (pin < 256 ∧ u < 4 ∧ regsWf s.regs = true ∧ uon),
    decide (pin < 256 ∧ u < 4 ∧ regsWf s.regs = true ∧ s.bit (Reg.LIO_UCTL u) F.LIO_UCTL_Enable = true),
    decide (pin < 256 ∧ u < 4 ∧ regsWf s.regs = true ∧ s.bit (Reg.LIO_UCTL u) F.LIO_UCTL_Enable = false),
    decide (pin < 256 ∧ u < 4 ∧ regsWf s.regs = true ∧ s.bit (Reg.LIO_SCTL u) F.LIO_SCTL_Enable = true ∧ sx'.tx
        ≠ [] ∧ sx'.rx.length < 16),
    decide (pin < 256 ∧ u < 4 ∧ regsWf s.regs = true ∧ (s.bit (Reg.LIO_SCTL u) F.LIO_SCTL_Enable = false ∨
        sx'.tx = [] ∨ 16 ≤ sx'.rx.length)),
    decide (pin < 256 ∧ u < 4 ∧ regsWf s.regs = true ∧ ix.busy = false),
    decide (pin < 256 ∧ u < 4 ∧ regsWf s.regs = true ∧ ix.busy = true) ]

theorem witness_LineIo_0 : met (hypsLineIo
    ({ State.reset with regs := [(360576, 1)], lio := { State.reset.lio with uarts := ⟨[(2, ⟨[], [0, 0, 0, 0, 0, 0, 0, 0, 0, 0, 0, 0, 0, 0, 0, 0]⟩)]⟩, i2cs := ⟨[(2, { I2c.init with busy := true })]⟩ } }) (0) (2) (0) (0) (none) (0) (0) ([]) (false) (false) (false) ((Req.host))) [0, 2, 4, 6, 7, 9, 12, 14] = true := by
  decide +kernel

theorem witness_LineIo_1 : met (hypsLineIo
    ({ State.reset with regs := [(332024, 393216), (333048, 516), (360576, 1), (361088, 1)], clock := { Clock.init with tick := 1 }, lio := { State.reset.lio with spis := ⟨[(2, ⟨[], [0]⟩)]⟩ } }) (0) (2) (0) (0) (none) (0) (0) ([]) (false) (false) (false) ((Req.host))) [3, 5, 8, 11, 13] = true := by
  decide +kernel

theorem witness_LineIo_2 : met (hypsLineIo
    ({ State.reset with regs := [(327844, 3)] }) (32) (0) (0) (0) (none) (2568763964) (0) ([]) (false) (false) (false) ((Req.host))) [1, 10] = true := by
  decide +kernel

/-- The hypotheses of the clauses of `Obligations.StartUpAndJournal`. -/
def hypsStartUpAndJournal (s : State) (n straps m b : Nat) (v : Word) (e : LogEnt) (ok : Bool) (data : List Nat) : List Bool :=
  let calm := s.fld Reg.MNT_STATUS F.MNT_STATUS_DebugScope = 0 ∧ s.mantle.burn = none
  let st := s.startup
  let step := fun (k : Nat) (f : Fld) (t : State) => t.fld (Reg.JRN_STEP k) f
  let mode := fun (k : Nat) => step k F.JRN_STEP_Mode s
  let stepping := s.fld Reg.JRN_STAT F.JRN_STAT_State = 0 ∧ st.restart = false
  let atStep := fun (k : Nat) => stepping ∧ st.step = k ∧ st.halt = false
  let head := s.logQ.headD e
  let due := nextEntry s = some e
  [ decide (memWf s.mem = true ∧ straps < 4 ∧ calm),
    decide (memWf s.mem = true ∧ straps < 4 ∧ calm ∧ st.restart = true),
    decide (memWf s.mem = true ∧ straps < 4 ∧ st.restart = false),
    decide (memWf s.mem = true ∧ straps < 4 ∧ ¬ stepping),
    decide (memWf s.mem = true ∧ straps < 4 ∧ atStep 2 ∧ mode 3 ≠ 2 ∧ st.opened = false),
    decide (memWf s.mem = true ∧ straps < 4 ∧ atStep 2 ∧ mode 3 = 2 ∧ mode 13 ≠ 2 ∧ st.opened = false),
    decide (memWf s.mem = true ∧ straps < 4 ∧ atStep 3 ∧ mode 4 ≠ 2),
    decide (memWf s.mem = true ∧ straps < 4 ∧ atStep 13),
    decide (memWf s.mem = true ∧ straps < 4 ∧ stepping ∧ st.step = 13 ∧ st.halt = true),
    decide (memWf s.mem = true ∧ straps < 4 ∧ atStep 2 ∧ mode 2 = 0 ∧ st.alt = false),
    decide (memWf s.mem = true ∧ straps < 4 ∧ atStep 2 ∧ mode 2 = 1 ∧ st.alt = true ∧ st.opened = false),
    decide (memWf s.mem = true ∧ straps < 4 ∧ stepping ∧ st.step ≠ 0 ∧ n ≠ st.step),
    decide (memWf s.mem = true ∧ straps < 4 ∧ 1 ≤ m ∧ m ≤ 14),
    decide (memWf s.mem = true ∧ straps < 4 ∧ (m = 0 ∨ 14 < m)),
    decide (memWf s.mem = true ∧ straps < 4 ∧ s.logQ = []),
    decide (memWf s.mem = true ∧ straps < 4 ∧ due),
    decide (memWf s.mem = true ∧ straps < 4 ∧ due ∧ (∀ x ∈ s.logQ, x.cyc = head.cyc)),
    decide (memWf s.mem = true ∧ straps < 4 ∧ s.logQ ≠ []) ]

theorem witness_StartUpAndJournal_0 : met (hypsStartUpAndJournal
    ({ State.reset with regs := [(131144, 1)], startup := { State.reset.startup with step := 2, alt := true }, logQ := [⟨905, 1, 5, 197, 3832, 720208600584, 7⟩] }) (0) (0) (1) (0) (0) (⟨905, 1, 5, 197, 3832, 720208600584, 7⟩) (false) ([])) [0, 2, 4, 10, 11, 12, 15, 16, 17] = true := by
  decide +kernel

theorem witness_StartUpAndJournal_1 : met (hypsStartUpAndJournal
    ({ State.reset with startup := { State.reset.startup with restart := true } }) (0) (0) (0) (0) (0) (⟨0, 0, 0, 0, 0, 0, 0⟩) (false) ([])) [1, 3, 13, 14] = true := by
  decide +kernel

theorem witness_StartUpAndJournal_2 : met (hypsStartUpAndJournal
    ({ State.reset with regs := [(131148, 286)], startup := { State.reset.startup with step := 2 } }) (0) (0) (0) (0) (0) (⟨0, 0, 0, 0, 0, 0, 0⟩) (false) ([])) [5, 9] = true := by
  decide +kernel

theorem witness_StartUpAndJournal_3 : met (hypsStartUpAndJournal
    ({ State.reset with startup := { State.reset.startup with step := 13 } }) (0) (0) (0) (0) (0) (⟨0, 0, 0, 0, 0, 0, 0⟩) (false) ([])) [7] = true := by
  decide +kernel

theorem witness_StartUpAndJournal_4 : met (hypsStartUpAndJournal
    ({ State.reset with startup := { State.reset.startup with step := 3 } }) (0) (0) (0) (0) (0) (⟨0, 0, 0, 0, 0, 0, 0⟩) (false) ([])) [6] = true := by
  decide +kernel

theorem witness_StartUpAndJournal_5 : met (hypsStartUpAndJournal
    ({ State.reset with startup := { State.reset.startup with step := 13, halt := true } }) (0) (0) (0) (0) (0) (⟨0, 0, 0, 0, 0, 0, 0⟩) (false) ([])) [8] = true := by
  decide +kernel

/-- The hypotheses of the clauses of `Obligations.RegisterWritesAndEvents`. -/
def hypsRegisterWritesAndEvents (s : State) (e a f : Nat) (v : Word) (m : SeamEvt) (req : Req) : List Bool :=
  let route := s.reg (Reg.EVT_ROUTE e)
  let settled := s.oldRoutes.all (fun r => decide (r.2.1 ≠ s.clock.tick / 2)) = true
  let on := fun (g : Fld) => g.get route = 1
  let n := F.EVT_ROUTE_Engine.get route
  let fb := s.fld Reg.EVT_CTL F.EVT_CTL_FallbackEngine
  let takes := (s.eng n).st = .run ∨ (s.eng n).st = .wait ∨ (s.eng n).st = .halted
  let second := s.bit Reg.EVT_CTL F.EVT_CTL_FallbackEnable = true ∧ ((s.eng fb).st = .run ∨ (s.eng fb).st =
      .wait)
  let quietly := s.bit (Reg.ME_EVTEN n) ⟨3, 1⟩ = false
  let win := F.EVT_ROUTE_SeamWin.get route
  let winOk := s.bit (Reg.SL_WIN_CTL win) F.SL_WIN_CTL_WinEnable = true ∧ s.bit (Reg.SL_WIN_CTL win)
      F.SL_WIN_CTL_Kind = true ∧ s.bit (Reg.SL_WIN_CTL win) F.SL_WIN_CTL_Write = true
  let waits := fun (t : State) => lookupCell e t.seamEvts.cells
  let doorbell := 940 ≤ e ∧ settled
  let ctl := Reg.SL_WIN_CTL m.win
  let toSelf := s.fld ctl F.SL_WIN_CTL_DevId = s.fld Reg.SL_CTL F.SL_CTL_DeviceId ∧ s.bit ctl F.SL_WIN_CTL_Mcast
      = false
  [ decide (e < 1024 ∧ f < 1024 ∧ (0x1000000 ≤ a ∨ a % 4 ≠ 0)),
    decide (e < 1024 ∧ f < 1024 ∧ a < 0x1000000 ∧ a % 4 = 0 ∧ regRow a = none ∧ inTable a = false ∧ inPba a =
        false ∧ req ≠ .host),
    decide (e < 1024 ∧ f < 1024 ∧ a < 0x1000000 ∧ a % 4 = 0 ∧ regRow a = none ∧ inTable a = false ∧ inPba a =
        false ∧ req = .host),
    decide (e < 1024 ∧ f < 1024 ∧ e < 940),
    decide (e < 1024 ∧ f < 1024 ∧ doorbell ∧ ¬ on F.EVT_ROUTE_MsixEn ∧ ¬ on F.EVT_ROUTE_EngEn ∧ ¬ on
        F.EVT_ROUTE_SeamEn),
    decide (e < 1024 ∧ f < 1024 ∧ doorbell ∧ ¬ on F.EVT_ROUTE_MsixEn ∧ ¬ on F.EVT_ROUTE_EngEn ∧ ¬ on
        F.EVT_ROUTE_SeamEn ∧ 192 ≤ f ∧ f ≠ e),
    decide (e < 1024 ∧ f < 1024 ∧ doorbell ∧ on F.EVT_ROUTE_MsixEn),
    decide (e < 1024 ∧ f < 1024 ∧ doorbell ∧ on F.EVT_ROUTE_MsixEn ∧ 192 ≤ f ∧ f ≠ e),
    decide (e < 1024 ∧ f < 1024 ∧ doorbell ∧ ¬ on F.EVT_ROUTE_MsixEn),
    decide (e < 1024 ∧ f < 1024 ∧ doorbell ∧ ¬ on F.EVT_ROUTE_MsixEn ∧ 192 ≤ f ∧ f ≠ e),
    decide (e < 1024 ∧ f < 1024 ∧ doorbell ∧ on F.EVT_ROUTE_EngEn ∧ takes ∧ quietly),
    decide (e < 1024 ∧ f < 1024 ∧ doorbell ∧ on F.EVT_ROUTE_EngEn ∧ takes ∧ quietly ∧ 192 ≤ f ∧ f ≠ e),
    decide (e < 1024 ∧ f < 1024 ∧ doorbell ∧ on F.EVT_ROUTE_EngEn ∧ ¬ takes ∧ second ∧ fb ≠ n),
    decide (e < 1024 ∧ f < 1024 ∧ doorbell ∧ on F.EVT_ROUTE_EngEn ∧ ¬ takes ∧ second ∧ fb ≠ n ∧ 192 ≤ f ∧ f ≠ e),
    decide (e < 1024 ∧ f < 1024 ∧ doorbell ∧ on F.EVT_ROUTE_EngEn ∧ ¬ takes ∧ ¬ second),
    decide (e < 1024 ∧ f < 1024 ∧ doorbell ∧ on F.EVT_ROUTE_EngEn ∧ ¬ takes ∧ ¬ second ∧ 192 ≤ f ∧ f ≠ e),
    decide (e < 1024 ∧ f < 1024 ∧ doorbell ∧ ¬ on F.EVT_ROUTE_EngEn),
    decide (e < 1024 ∧ f < 1024 ∧ doorbell ∧ ¬ on F.EVT_ROUTE_EngEn ∧ 192 ≤ f ∧ f ≠ e),
    decide (e < 1024 ∧ f < 1024 ∧ doorbell ∧ ¬ on F.EVT_ROUTE_EngEn ∧ on F.EVT_ROUTE_SeamEn ∧ waits s = some m),
    decide (e < 1024 ∧ f < 1024 ∧ doorbell ∧ ¬ on F.EVT_ROUTE_EngEn ∧ on F.EVT_ROUTE_SeamEn ∧ waits s = some m ∧
        192 ≤ f ∧ f ≠ e),
    decide (e < 1024 ∧ f < 1024 ∧ doorbell ∧ ¬ on F.EVT_ROUTE_EngEn ∧ on F.EVT_ROUTE_SeamEn ∧ waits s = none ∧
        winOk),
    decide (e < 1024 ∧ f < 1024 ∧ doorbell ∧ ¬ on F.EVT_ROUTE_EngEn ∧ on F.EVT_ROUTE_SeamEn ∧ waits s = none ∧
        winOk ∧ 192 ≤ f ∧ f ≠ e),
    decide (e < 1024 ∧ f < 1024 ∧ doorbell ∧ ¬ on F.EVT_ROUTE_EngEn ∧ on F.EVT_ROUTE_SeamEn ∧ waits s = none ∧ ¬
        winOk),
    decide (e < 1024 ∧ f < 1024 ∧ doorbell ∧ ¬ on F.EVT_ROUTE_EngEn ∧ on F.EVT_ROUTE_SeamEn ∧ waits s = none ∧ ¬
        winOk ∧ 192 ≤ f ∧ f ≠ e),
    decide (e < 1024 ∧ f < 1024 ∧ waits s = none),
    decide (e < 1024 ∧ f < 1024 ∧ waits s = some m ∧ toSelf) ]

theorem witness_RegisterWritesAndEvents_0 : met (hypsRegisterWritesAndEvents
    (State.reset) (970) (64) (909) (0) (⟨0, 0, 0⟩) ((Req.host))) [2, 4, 5, 8, 9, 16, 17, 24] = true := by
  decide +kernel

theorem witness_RegisterWritesAndEvents_1 : met (hypsRegisterWritesAndEvents
    ({ State.reset with regs := [(73672, 2179993599), (655360, 84099077), (659480, 2302722053)], engs := ⟨[(0, { Engine.init with st := (EngSt.halted) })]⟩, seamEvts := ⟨[(1010, ⟨1, 4, 4444⟩)]⟩ }) (1010) (64) (624) (0) (⟨1, 4, 4444⟩) ((Req.engine 4))) [1, 6, 7, 10, 11, 25] = true := by
  decide +kernel

theorem witness_RegisterWritesAndEvents_2 : met (hypsRegisterWritesAndEvents
    ({ State.reset with regs := [(73512, 2176844142)] }) (970) (1) (319) (0) (⟨0, 0, 0⟩) ((Req.host))) [0, 14, 15] = true := by
  decide +kernel

theorem witness_RegisterWritesAndEvents_3 : met (hypsRegisterWritesAndEvents
    ({ State.reset with regs := [(73532, 2160076327)] }) (975) (0) (467) (0) (⟨0, 0, 0⟩) ((Req.engine 4))) [22, 23] = true := by
  decide +kernel

theorem witness_RegisterWritesAndEvents_4 : met (hypsRegisterWritesAndEvents
    ({ State.reset with regs := [(73672, 2181042176), (659480, 4285915141)] }) (1010) (0) (986) (0) (⟨0, 0, 0⟩) ((Req.host))) [20, 21] = true := by
  decide +kernel

theorem witness_RegisterWritesAndEvents_5 : met (hypsRegisterWritesAndEvents
    ({ State.reset with regs := [(73520, 2160077906)], seamEvts := ⟨[(972, ⟨1, 4, 4444⟩)]⟩ }) (972) (0) (215) (0) (⟨1, 4, 4444⟩) ((Req.host))) [18, 19] = true := by
  decide +kernel

theorem witness_RegisterWritesAndEvents_6 : met (hypsRegisterWritesAndEvents
    ({ State.reset with regs := [(65536, 1025506306), (73476, 31462007)], engs := ⟨[(2, { Engine.init with st := (EngSt.run) })]⟩ }) (961) (0) (883) (0) (⟨0, 0, 0⟩) ((Req.engine 4))) [12, 13] = true := by
  decide +kernel

theorem witness_RegisterWritesAndEvents_7 : met (hypsRegisterWritesAndEvents
    (State.reset) (0) (0) (0) (0) (⟨0, 0, 0⟩) ((Req.host))) [3] = true := by
  decide +kernel

/-- The fifth clause of `Obligations.MantleOperations`: an ATTEST whose report is the one of R363. -/
theorem witness_MantleOperations_attest :
    ∃ (s : State) (o : MntOp) (report : List Byte),
      s.mantle.op = some o ∧ o.seam = false ∧ o.op = 3 ∧ report = attestReport o.body ∧ s.memt.writes = [] ∧
        s.poison.cells = [] ∧ frozenIn (o.addr + 0x40) report.length s = false ∧ ∀ c : Nat, c < 4 → channelFailed c s = false :=
  ⟨{ State.reset with mantle := { State.reset.mantle with op := some ⟨3, 68719483008, false, []⟩ } },
    ⟨3, 68719483008, false, []⟩, attestReport [], rfl, rfl, rfl, rfl, rfl, rfl, rfl, by decide +kernel⟩

/-- `Obligations.StepRunsTheFrontCommand`: a command in front, and none. -/
theorem witness_StepRunsTheFrontCommand :
    { State.reset with pending := [.holdoverExpired] }.pending = Instr.holdoverExpired :: [] ∧
      State.reset.pending = [] ∧ State.reset.clock.run = false := ⟨rfl, rfl, rfl⟩

/-- `Obligations.EveryStepKeepsTheInvariant`: the state after reset meets the invariant, as does one with a burn on. -/
theorem witness_EveryStepKeepsTheInvariant : State.reset.canonical = true ∧ State.reset.burnRises :=
  ⟨by decide +kernel, by intro i n h; exact absurd h (by simp [State.reset])⟩

/-- `Obligations.CommandsReachOnlyTheirParts`: each clause has a command. -/
theorem witness_CommandsReachOnlyTheirParts :
    State.reset.burnRises ∧ mayStore (.crystalLoss true) = false ∧ mayReachMantle (.crystalLoss true) = false ∧
      mayRetime (.encoderStopped 31) = false ∧ mayStart (.crystalLoss true) = false :=
  ⟨by intro i n h; exact absurd h (by simp [State.reset]), by decide +kernel⟩

end Sys2Proof.Tests
end

section
/-!
SUPPORT. What `Touches` says of the operations that set a flag, a field or the clock, and how two such steps compose;
then the loss of a crystal (chapter 02, R25) in these terms.
-/
namespace Sys2Proof.Machine

/-! ### Composing `Touches` -/

theorem Touches.mono {as bs : List Nat} {ps qs : List Part} {s t : State} (ha : ∀ a ∈ as, a ∈ bs)
    (hp : ∀ p ∈ ps, p ∈ qs) (h : Touches as ps s t) : Touches bs qs s t where
  regs a hn he := h.regs a (fun q => hn (ha a q)) he
  engs := h.engs.imp_left (hp _)
  parts := h.parts.mono fun p q => by
    rw [List.mem_append] at q ⊢
    exact q.imp_right (hp p)

theorem Touches.trans {as : List Nat} {ps : List Part} {s t u : State} (h : Touches as ps s t)
    (k : Touches as ps t u) : Touches as ps s u where
  regs a hn he := (k.regs a hn he).trans (h.regs a hn he)
  engs := by
    rcases h.engs with hm | hs
    · exact .inl hm
    · exact k.engs.imp_right fun kt n => evpendOnly.trans (hs n) (kt n)
  parts := h.parts.trans k.parts

theorem Touches.refl (as : List Nat) (ps : List Part) (s : State) : Touches as ps s s :=
  ⟨fun _ _ _ => rfl, .inr fun _ => rfl, sameBut.refl _ s⟩

theorem sameBut_setFld (a : Nat) (f : Fld) (x : Nat) (s : State) : sameBut [.regs] s (s.setFld a f x) := by
  intro p hp
  cases p
  case regs => exact absurd (List.mem_singleton_self _) hp
  all_goals rfl

theorem touches_setFld (a : Nat) (f : Fld) (x : Nat) (s : State) : Touches [a] [] s (s.setFld a f x) where
  regs b hn _ := by rw [State.reg_setFld, if_neg (by simpa using hn)]
  engs := .inr fun _ => rfl
  parts := (sameBut_setFld a f x s).mono (by simp [eventParts])

theorem touches_setClock (c : Clock) (s : State) : Touches [] [.clock] s (s.setClock c) where
  regs _ _ _ := rfl
  engs := .inr fun _ => rfl
  parts p hp := by
    cases p
    case clock => exact absurd (by decide) hp
    all_goals rfl

/-- A raise of an event, on its condition, reaches only what every raise may (R429 to R433). -/
theorem touches_raiseIf {e : Nat} (he : e < 1024) (b : Bool) (s : State) : Touches [] [] s (s.raiseIf b e) where
  regs _ _ hn := reg_raiseIf he hn
  engs := .inr (eng_raiseIf s b e)
  parts := (State.raiseIf_keeps (m := 201342977) (by decide) (Keeps.refl _ s)).sameBut _ fun p hn => by
    cases p
    case regs | msixPend | seamEvts | engs => exact absurd (by decide) hn
    all_goals decide

theorem touches_flag {e : Nat} (he : e < 1024) (a : Nat) (f : Fld) (b : Bool) (s : State) :
    Touches [a] [] s (s.flag a f b e) :=
  (touches_setFld a f 1 s).trans ((touches_raiseIf he b _).mono (by simp) (by simp))

/-! ### Flags and pending bits -/

/-- The registers below EVT_STAT, the SYS block among them, are no event's. -/
theorem not_eventReg_of_lt {a : Nat} (h : a < Reg.EVT_STAT) : ¬ eventReg a := by
  simp only [eventReg, Reg.EVT_RAISECNT, Reg.EVT_STAT, Reg.EVT_PEND, Reg.ME_STAT] at *
  omega

theorem bit_setFld_ne (s : State) {a b : Nat} (f g : Fld) (x : Nat) (h : b ≠ a) :
    (s.setFld a f x).bit b g = s.bit b g := by
  rw [State.bit, State.fld_setFld_ne s a b f g h, State.bit]

theorem bit_flag_self {s : State} {a : Nat} {f : Fld} {b : Bool} {e : Nat} (he : e < 1024) (ha : ¬ eventReg a)
    (hw : 0 < f.width) (hf : f.lsb + f.width ≤ 32) : (s.flag a f b e).bit a f = true := by
  have h1 : 1 % 2 ^ f.width = 1 := Nat.mod_eq_of_lt (Nat.one_lt_two_pow hw.ne')
  rw [State.bit, State.fld, reg_flag he ha, if_pos rfl, Fld.get_put_self f hf, h1]
  rfl

/-- A flag whose enable is 1 raises its event. -/
theorem pends_flag_self {s : State} {a : Nat} {f : Fld} {e : Nat} (he : e < 1024) :
    (s.flag a f true e).pends e = true := pends_raise_self he

theorem pends_setFld {s : State} {a e : Nat} (f : Fld) (x : Nat) (h : a < Reg.EVT_STAT) :
    (s.setFld a f x).pends e = s.pends e := by
  have hne : Reg.EVT_PEND (e / 32) ≠ a := by
    simp only [Reg.EVT_PEND, Reg.EVT_STAT] at *
    omega
  rw [State.pends, State.reg_setFld, if_neg hne, State.pends]

/-! ### The declaration of a loss -/

@[simp] theorem clkFlag_clock (f : Fld) (e : Nat) (s : State) : (clkFlag f e s).clock = s.clock :=
  State.flag_clock ..

theorem touches_clkFlag {e : Nat} (he : e < 1024) (f : Fld) (s : State) :
    Touches [Reg.SYS_CLK_FAULT] [] s (clkFlag f e s) := touches_flag he ..

/-- The loss flag of crystal `x` in SYS_CLK_FAULT. -/
def lossFlag (x : Bool) : Fld := if x then F.SYS_CLK_FAULT_XtalBLoss else F.SYS_CLK_FAULT_XtalALoss

/-- The event of the loss of crystal `x`. -/
def lossEvent (x : Bool) : Nat := if x then 913 else 912

theorem lossEvent_lt (x : Bool) : lossEvent x < 1024 := by cases x <;> decide

/-- The clock once crystal `x` is not valid, lost in tick `now`. -/
def Clock.withLoss (c : Clock) (x : Bool) (now : Nat) : Clock := (c.setValid x false).setLost x (now + 1)

/-- What every loss of crystal `x` does first, active or standby: it is not valid, its flag is set and its event is
raised (R19, R25). -/
def declareLoss (x : Bool) (s : State) : State :=
  clkFlag (lossFlag x) (lossEvent x) (s.setClock (s.clock.withLoss x s.tick))

/-- A switch to the lost crystal ends, and Select names the active one again (log entry 220). -/
def endSwitchTo (x : Bool) (s : State) : State :=
  if s.clock.switching = some x then setSelect s.clock.active (s.setClock { s.clock with switching := none }) else s

@[simp] theorem Clock.withLoss_active (c : Clock) (x : Bool) (now : Nat) : (c.withLoss x now).active = c.active := by
  cases x <;> rfl

@[simp] theorem declareLoss_clock (x : Bool) (s : State) :
    (declareLoss x s).clock = s.clock.withLoss x s.tick := clkFlag_clock ..

/-- The loss of a valid crystal that is not the active one is the declaration and the end of a switch to it: neither
branch that touches the reference or the holdover is taken. -/
theorem loseCrystal_standby {x : Bool} {s : State} (ha : s.clock.active ≠ x) (hv : s.clock.valid x = true) :
    loseCrystal x s = endSwitchTo x (declareLoss x s) := by
  have hx : x ≠ (declareLoss x s).clock.active := by simpa using ha.symm
  have hvalid : ¬ (!s.clock.valid x) = true := by simp [hv]
  have hlost : ¬ (decide (x = (declareLoss x s).clock.active) && (declareLoss x s).clock.clockLost &&
      !(declareLoss x s).clock.pllLocked) = true := by simp [ha.symm]
  exact (if_neg hvalid).trans ((if_neg hlost).trans (if_neg hx))

theorem bit_declareLoss (x : Bool) (s : State) : (declareLoss x s).bit Reg.SYS_CLK_FAULT (lossFlag x) = true :=
  bit_flag_self (lossEvent_lt x) (not_eventReg_of_lt (by decide)) (by cases x <;> decide) (by cases x <;> decide)

theorem pends_declareLoss (x : Bool) (s : State) : (declareLoss x s).pends (lossEvent x) = true :=
  pends_flag_self (lossEvent_lt x)

theorem touches_declareLoss (x : Bool) (s : State) : Touches [Reg.SYS_CLK_FAULT] [.clock] s (declareLoss x s) :=
  ((touches_setClock _ s).mono (by simp) (by simp)).trans
    ((touches_clkFlag (lossEvent_lt x) _ _).mono (fun _ => id) (by simp))

/-! ### The end of a switch to the lost crystal -/

theorem endSwitchTo_clock (x : Bool) (s : State) :
    (endSwitchTo x s).clock = { s.clock with switching := (endSwitchTo x s).clock.switching } := by
  unfold endSwitchTo
  split <;> rfl

theorem bit_endSwitchTo (x : Bool) (s : State) (f : Fld) :
    (endSwitchTo x s).bit Reg.SYS_CLK_FAULT f = s.bit Reg.SYS_CLK_FAULT f := by
  unfold endSwitchTo
  split
  · exact bit_setFld_ne _ _ f _ (by decide)
  · rfl

theorem pends_endSwitchTo (x : Bool) (s : State) (e : Nat) : (endSwitchTo x s).pends e = s.pends e := by
  unfold endSwitchTo
  split
  · exact pends_setFld _ _ (by decide)
  · rfl

theorem touches_endSwitchTo (x : Bool) (s : State) : Touches [Reg.SYS_CLK_CTL] [.clock] s (endSwitchTo x s) := by
  unfold endSwitchTo
  split
  · exact ((touches_setClock _ s).mono (by simp) (by simp)).trans ((touches_setFld ..).mono (by simp) (by simp))
  · exact .refl ..

/-! ### The obligation -/

/-- Settles O34: off the active crystal, the loss is `declareLoss` and then `endSwitchTo`, of which the first sets the
flag and raises the event, and the second keeps both; no field of the clock but the crystal's own and Switching is in
either. -/
theorem standbyLossLeavesTheClock : Obligations.StandbyLossLeavesTheClock := by
  intro s x ha hv
  have hclock := endSwitchTo_clock x (declareLoss x s)
  have hflag := (bit_endSwitchTo x _ _).trans (bit_declareLoss x s)
  have hevent := (pends_endSwitchTo x _ _).trans (pends_declareLoss x s)
  rw [declareLoss_clock] at hclock
  refine ⟨_, congrArg Host.Outcome.next (loseCrystal_standby ha hv), ?_, ?_, ?_, ?_, ?_⟩
  · rw [hclock]
    cases x <;> rfl
  · rintro rfl
    exact ⟨hflag, hevent⟩
  · rintro rfl
    exact ⟨hflag, hevent⟩
  · rw [hclock]
    cases x <;> rfl
  · exact ((touches_declareLoss x s).mono (by simp) fun _ => id).trans
      ((touches_endSwitchTo x _).mono (by simp) fun _ => id)

end Sys2Proof.Machine
end

section
/-!
SUPPORT. Reads of an encoder unit after an update, and what such an update and a register write touch; then the index
of R62 and the load of R60 as equations over the unit.
-/
namespace Sys2Proof.Machine

/-! ### An encoder unit after an update -/

@[simp] theorem encOf_setEnc (s : State) (e i : Nat) (x : Enc) :
    (s.setEnc e x).encOf i = if i = e then x else s.encOf i := Tab.get_set ..

@[simp] theorem encOf_setReg (s : State) (a : Nat) (v : Word) (e : Nat) : (s.setReg a v).encOf e = s.encOf e := rfl

@[simp] theorem encOf_encFlag (e : Nat) (f : Fld) (s : State) (i : Nat) : (encFlag e f s).encOf i = s.encOf i :=
  congrArg (Tab.get · Enc.init i) (State.flag_encs ..)

/-- The registers of the 32 encoder units are no event's. -/
theorem not_eventReg_of_encReg {a : Nat} (hlo : Reg.ENC_CTL 0 ≤ a) (hhi : a < Reg.ENC_CTL 32) : ¬ eventReg a := by
  simp only [eventReg, Reg.EVT_RAISECNT, Reg.EVT_STAT, Reg.EVT_PEND, Reg.ME_STAT, Reg.ENC_CTL] at *
  omega

/-! ### What the operations touch -/

theorem sameBut_setEnc (e : Nat) (x : Enc) (s : State) : sameBut [.encs] s (s.setEnc e x) := by
  intro p hp
  cases p
  case encs => exact absurd (List.mem_singleton_self _) hp
  all_goals rfl

theorem touches_setEnc (e : Nat) (x : Enc) (s : State) : Touches [] [.encs] s (s.setEnc e x) where
  regs _ _ _ := rfl
  engs := .inr fun _ => rfl
  parts := (sameBut_setEnc e x s).mono (by simp)

theorem touches_setReg (a : Nat) (v : Word) (s : State) : Touches [a] [] s (s.setReg a v) where
  regs b hn _ := by rw [State.reg_setReg, if_neg (by simpa using hn)]
  engs := .inr fun _ => rfl
  parts p hp := by
    cases p
    case regs => exact absurd (by decide) hp
    all_goals rfl

theorem touches_encFlag {e : Nat} (he : e < 32) (f : Fld) (s : State) :
    Touches [Reg.ENC_STATUS e] [] s (encFlag e f s) := touches_flag (by omega) ..

/-! ### The index (R62) -/

/-- A change of Z is accepted in this tick: the unit and its index are enabled and the filter of Z is full (R54). -/
def indexDue (e : Nat) (s : State) : Prop :=
  encEnabled e s = true ∧ s.bit (Reg.ENC_CTL e) F.ENC_CTL_IndexEnable = true ∧ encNeed e s ≤ (s.encOf e).z.run

/-- The unit once a rising Z is accepted: with IndexLoad its load of 0 waits, in place of one that waited (log
entry 225). -/
def indexed (e : Nat) (s : State) : Enc :=
  { s.encOf e with
    z := (s.encOf e).z.accept
    loadReq := if s.bit (Reg.ENC_CTL e) F.ENC_CTL_IndexLoad then some (s.tick, true) else (s.encOf e).loadReq }

theorem encIndex_rising {e : Nat} {s : State} (h : indexDue e s) (hz : (s.encOf e).z.level = false) :
    encIndex e s = encFlag e F.ENC_STATUS_Index
      ((s.setEnc e (indexed e s)).setReg (Reg.ENC_IDXCAP e) (s.encOf e).count) := by
  obtain ⟨hon, hidx, hrun⟩ := h
  simp [encIndex, indexed, hon, hidx, hrun, hz]

/-- A falling Z is accepted without an index. -/
theorem encIndex_falling {e : Nat} {s : State} (h : indexDue e s) (hz : (s.encOf e).z.level = true) :
    encIndex e s = s.setEnc e { s.encOf e with z := (s.encOf e).z.accept } := by
  obtain ⟨hon, hidx, hrun⟩ := h
  simp [encIndex, hon, hidx, hrun, hz]

/-- The capture at the index stays through the flag that follows it. -/
theorem reg_idxcap_encFlag {e : Nat} (he : e < 32) (f : Fld) (v : Word) (s : State) :
    (encFlag e f (s.setReg (Reg.ENC_IDXCAP e) v)).reg (Reg.ENC_IDXCAP e) = v := by
  have hne : Reg.ENC_IDXCAP e ≠ Reg.ENC_STATUS e := by
    simp only [Reg.ENC_IDXCAP, Reg.ENC_STATUS]
    omega
  have hq : ¬ eventReg (Reg.ENC_IDXCAP e) := by
    apply not_eventReg_of_encReg <;> simp only [Reg.ENC_CTL, Reg.ENC_IDXCAP] <;> omega
  rw [encFlag, reg_flag (by omega) hq, if_neg hne, State.reg_setReg, if_pos rfl]

theorem bit_encFlag_index {e : Nat} (he : e < 32) (s : State) :
    (encFlag e F.ENC_STATUS_Index s).bit (Reg.ENC_STATUS e) F.ENC_STATUS_Index = true := by
  have hq : ¬ eventReg (Reg.ENC_STATUS e) := by
    apply not_eventReg_of_encReg <;> simp only [Reg.ENC_CTL, Reg.ENC_STATUS] <;> omega
  exact bit_flag_self (by omega) hq (by decide) (by decide)

/-- What the acceptance of a change of Z does, rising or falling. -/
theorem encIndex_latches {e : Nat} (he : e < 32) {s : State} (h : indexDue e s) :
    ((encIndex e s).encOf e).z.level = (!(s.encOf e).z.level) ∧ ((encIndex e s).encOf e).count = (s.encOf e).count ∧
    ((s.encOf e).z.level = false → (encIndex e s).reg (Reg.ENC_IDXCAP e) = (s.encOf e).count ∧
      (encIndex e s).bit (Reg.ENC_STATUS e) F.ENC_STATUS_Index = true ∧ (encIndex e s).pends (768 + e) = true ∧
      (s.bit (Reg.ENC_CTL e) F.ENC_CTL_IndexLoad = true →
        ((encIndex e s).encOf e).loadReq = some (s.tick, true))) ∧
    ((s.encOf e).z.level = true → (encIndex e s).regs = s.regs ∧
      ((encIndex e s).encOf e).loadReq = (s.encOf e).loadReq) := by
  cases hz : (s.encOf e).z.level with
  | true =>
    rw [encIndex_falling h hz]
    refine ⟨?_, ?_, nofun, fun _ => ⟨rfl, ?_⟩⟩ <;> simp [EncIn.accept, hz]
  | false =>
    rw [encIndex_rising h hz]
    refine ⟨?_, ?_, fun _ => ⟨reg_idxcap_encFlag he .., bit_encFlag_index he _, pends_flag_self (by omega), ?_⟩, nofun⟩
    · simp [indexed, EncIn.accept, hz]
    · simp [indexed]
    · intro hload
      simp [indexed, hload]

theorem touches_encIndex {e : Nat} (he : e < 32) {s : State} (h : indexDue e s) :
    Touches [Reg.ENC_IDXCAP e, Reg.ENC_STATUS e] [.encs] s (encIndex e s) := by
  cases hz : (s.encOf e).z.level with
  | true =>
    rw [encIndex_falling h hz]
    exact (touches_setEnc ..).mono (by simp) (by simp)
  | false =>
    rw [encIndex_rising h hz]
    exact (((touches_setEnc ..).mono (by simp) (by simp)).trans
      ((touches_setReg ..).mono (by simp) (by simp))).trans ((touches_encFlag he ..).mono (by simp) (by simp))

/-! ### The load of 0 (R60) -/

/-- The unit after a load of 0: count and estimate 0, no period history, no load waiting. -/
def Enc.zeroed (x : Enc) : Enc :=
  { x with count := 0, est := 0, prevEst := 0, hist := [], periodValid := false, loadReq := none }

/-- At the first CONV edge after its request, the load of 0 is performed. -/
theorem encLoad_zero {e t0 : Nat} {s : State} (hl : (s.encOf e).loadReq = some (t0, true)) (hconv : s.tick % 8 = 0)
    (hlate : t0 < s.tick) : encLoad e s = s.setEnc e (s.encOf e).zeroed := by
  have hpos : countPos 0#32 = 0#40 := by decide
  simp [encLoad, encLoaded, Enc.zeroed, hl, hconv, hlate, hpos]

/-! ### The obligation -/

/-- Settles O36: `encIndex_latches` and `touches_encIndex` are the accepted change of Z, `encLoad_zero` the load at the
CONV edge. -/
theorem indexLatchesTheCount : Obligations.IndexLatchesTheCount := by
  intro s e t0 he
  refine ⟨fun hon hidx hrun => ?_, fun hl hconv hlate => ?_⟩
  · have h : indexDue e s := ⟨hon, hidx, hrun⟩
    obtain ⟨hlevel, hcount, hrise, hfall⟩ := encIndex_latches he h
    exact ⟨encIndex e s, rfl, hlevel, hcount, hrise, hfall, touches_encIndex he h⟩
  · refine ⟨_, congrArg Host.Outcome.next (encLoad_zero hl hconv hlate), ?_⟩
    rw [encOf_setEnc, if_pos rfl]
    exact ⟨rfl, rfl, rfl, rfl, rfl, rfl, sameBut_setEnc e _ s⟩

end Sys2Proof.Machine
end

section
/-!
SUPPORT. The drive of a tile: fields that no flag clears, reads of a DAC after the operations of chapter 06; then the
clear of R122 at one tile, and over the tiles of its pin.
-/
namespace Sys2Proof.Machine

/-! ### Fields that no flag clears -/

/-- A 1 put into a field of one bit clears no other field. -/
theorem Fld.get_put_one_ne_zero {f g : Fld} (hf : f.width = 1) {w : Word} (h : g.get w ≠ 0) :
    g.get (f.put w 1) ≠ 0 := by
  obtain ⟨i, hi⟩ := Nat.exists_testBit_of_ne_zero h
  rw [Fld.get_testBit, Bool.and_eq_true, decide_eq_true_eq] at hi
  obtain ⟨hlt, hbit⟩ := hi
  have h32 : g.lsb + i < 32 := BitVec.lt_of_getLsbD hbit
  have hput : (f.put w 1).getLsbD (g.lsb + i) = true := by
    rw [Fld.put_getLsbD]
    split
    · have h0 : g.lsb + i - f.lsb = 0 := by omega
      simp [h32, h0]
    · simp [h32, hbit]
  have hget : (g.get (f.put w 1)).testBit i = true := by
    rw [Fld.get_testBit, hput]
    simp [hlt]
  intro q
  rw [q, Nat.zero_testBit] at hget
  cases hget

section
variable {a : Nat} {g : Fld} {s : State}

/-- A flag of one bit clears no field of a register that is no event's. -/
theorem bit_flag_of_bit {b e : Nat} {f : Fld} {on : Bool} (ha : ¬ eventReg a) (he : e < 1024) (hf : f.width = 1)
    (h : s.bit a g = true) : (s.flag b f on e).bit a g = true := by
  simp only [State.bit, State.fld, bne_iff_ne] at *
  rw [reg_flag he ha]
  split
  · rename_i q
    subst q
    exact Fld.get_put_one_ne_zero hf h
  · exact h

theorem bit_markRec_of_bit {f : Nat} {r : PRec} (ha : ¬ eventReg a) (h : s.bit a g = true) :
    (markRec f r s).bit a g = true := by
  unfold markRec
  split
  · exact h
  · exact bit_flag_of_bit ha (by decide) rfl h

theorem bit_portMark_of_bit {n f tag : Nat} (ha : ¬ eventReg a) (hn : n < 32) (h : s.bit a g = true) :
    (portMark n f tag s).bit a g = true := by
  unfold portMark
  split
  · exact bit_markRec_of_bit ha h
  · exact bit_flag_of_bit ha (by omega) rfl h

theorem bit_markTags_of_bit {n f : Nat} (tags : List Nat) (ha : ¬ eventReg a) (hn : n < 32) (h : s.bit a g = true) :
    (markTags n f tags s).bit a g = true :=
  List.foldlRecOn (motive := fun s : State => s.bit a g = true) tags _ h fun _ hs _ _ => bit_portMark_of_bit ha hn hs

theorem bit_notePast (n f : Nat) (a : Nat) (g : Fld) (s : State) : (notePast n f s).bit a g = s.bit a g := by
  unfold notePast
  dsimp only
  split <;> rfl

theorem bit_pointReport_of_bit {n f : Nat} (ha : ¬ eventReg a) (hn : n < 32) (h : s.bit a g = true) :
    (pointReport n f s).bit a g = true := by
  have hp : (notePast n f s).bit a g = true := (bit_notePast n f a g s).trans h
  unfold pointReport
  dsimp only
  split
  · exact hp
  · exact bit_markTags_of_bit _ ha hn hp

theorem bit_dacReport_of_bit {t : Nat} (ha : ¬ eventReg a) (h : s.bit a g = true) :
    (dacReport t s).bit a g = true := by
  unfold dacReport
  split
  · exact bit_pointReport_of_bit ha (Fld.get_lt F.AT_DACCTL_Head _) h
  · exact h

section
variable {t : Nat} (ht : t < 128)
include ht

theorem bit_dacFlag_of_bit {f : Fld} (ha : ¬ eventReg a) (hf : f.width = 1) (h : s.bit a g = true) :
    (dacFlag t f s).bit a g = true := bit_flag_of_bit ha (by omega) hf h

theorem bit_calFlag_of_bit {f : Fld} (ha : ¬ eventReg a) (hf : f.width = 1) (h : s.bit a g = true) :
    (calFlag t f s).bit a g = true := bit_flag_of_bit ha (by omega) hf h

theorem bit_clipClear_of_bit (ha : ¬ eventReg a) (h : s.bit a g = true) : (clipClear t s).bit a g = true := by
  unfold clipClear
  split
  · exact bit_calFlag_of_bit ht ha rfl h
  · exact h

theorem bit_presentCode_of_bit (ha : ¬ eventReg a) (h : s.bit a g = true) : (presentCode t s).bit a g = true := by
  unfold presentCode
  extract_lets c s1
  have h1 : s1.bit a g = true := by
    show (if _ then _ else _ : State).bit a g = true
    split
    · exact bit_dacFlag_of_bit ht ha rfl h
    · exact h
  split
  · exact bit_calFlag_of_bit ht ha rfl h1
  · exact h1

theorem bit_applyRange_of_bit {r : Nat} (ha : ¬ eventReg a) (h : s.bit a g = true) :
    (applyRange t r s).bit a g = true := by
  unfold applyRange
  dsimp only
  split
  · exact h
  · exact bit_presentCode_of_bit ht ha (bit_clipClear_of_bit ht ha h)

theorem bit_applyPend_of_bit (ha : ¬ eventReg a) (h : s.bit a g = true) : (applyPend t s).bit a g = true := by
  unfold applyPend
  dsimp only
  split
  · exact bit_presentCode_of_bit ht ha h
  · exact bit_applyRange_of_bit ht ha h

end
end

/-! ### A DAC after the operations -/

@[simp] theorem dac_setDac (s : State) (t u : Nat) (x : Dac) :
    (s.setDac t x).dac u = if u = t then x else s.dac u := Tab.get_set ..

theorem bit_setDac (s : State) (t : Nat) (x : Dac) (a : Nat) (g : Fld) : (s.setDac t x).bit a g = s.bit a g := rfl

theorem dac_of_arr {s s' : State} (h : s'.arr = s.arr) (t : Nat) : s'.dac t = s.dac t := by
  rw [State.dac, h, State.dac]

@[simp] theorem dac_dacFlag (t : Nat) (f : Fld) (s : State) (u : Nat) : (dacFlag t f s).dac u = s.dac u :=
  dac_of_arr (State.flag_arr ..) u

@[simp] theorem dac_clipClear (t : Nat) (s : State) (u : Nat) : (clipClear t s).dac u = s.dac u :=
  dac_of_arr ((clipClear_keeps (m := 201342977) (by decide) (Keeps.refl _ s)).same .arr (by decide)) u

@[simp] theorem dac_presentCode (t : Nat) (s : State) (u : Nat) : (presentCode t s).dac u = s.dac u :=
  dac_of_arr ((presentCode_keeps (m := 201342977) (by decide) (Keeps.refl _ s)).same .arr (by decide)) u

@[simp] theorem dac_dacReport (t : Nat) (s : State) (u : Nat) : (dacReport t s).dac u = s.dac u :=
  dac_of_arr ((dacReport_keeps (m := 469790721) (by decide) (Keeps.refl _ s)).same .arr (by decide)) u

/-- The DAC once Range `r` takes effect in tick `now` (R127). -/
def Dac.atRange (x : Dac) (r now : Nat) : Dac :=
  if r = x.range then x else { x with range := r, coef := none, holdEnd := now + 3200 }

theorem dac_applyRange (t r : Nat) (s : State) (u : Nat) :
    (applyRange t r s).dac u = if u = t then (s.dac t).atRange r s.tick else s.dac u := by
  unfold applyRange Dac.atRange
  dsimp only
  split
  · split
    · rename_i q
      rw [q]
    · rfl
  · simp

/-- The Range that waited is in effect, and none waits. -/
theorem dac_applyPend (t : Nat) (s : State) (u : Nat) :
    (applyPend t s).dac u = if u = t then { s.dac t with rangePend := 0 }.atRange
      (s.fld (Reg.AT_DACCTL t) F.AT_DACCTL_Range) s.tick else s.dac u := by
  unfold applyPend
  dsimp only
  split
  · rename_i q
    rw [dac_setDac, if_pos rfl] at q
    rw [dac_presentCode, dac_setDac, Dac.atRange, if_pos q]
  · rw [dac_applyRange, dac_setDac, dac_setDac, if_pos rfl]
    split <;> rfl

/-! ### The clear at a tile -/

/-- `y` is the DAC `x` once a clear ended its program and its cross-fade: the target bank stays active and a pending
swap request pending (R122). -/
structure Dac.ClearedTo (x y : Dac) : Prop where
  clearing : y.clearing = true
  play : y.play = none
  fade : y.fade = none
  bank : y.bank = x.bank
  swap : y.swap = x.swap

/-- A Range that takes effect touches none of these. -/
theorem Dac.ClearedTo.atRange {x y : Dac} (h : x.ClearedTo y) (r now : Nat) : x.ClearedTo (y.atRange r now) := by
  unfold Dac.atRange
  split
  · exact h
  · exact ⟨h.clearing, h.play, h.fade, h.bank, h.swap⟩

theorem clearedTo_applyPend {x : Dac} {t : Nat} {s : State} (h : x.ClearedTo (s.dac t)) :
    x.ClearedTo ((applyPend t s).dac t) := by
  rw [dac_applyPend, if_pos rfl]
  have h0 : x.ClearedTo { s.dac t with rangePend := 0 } := ⟨h.clearing, h.play, h.fade, h.bank, h.swap⟩
  exact h0.atRange ..

/-- AT_DACSTAT of a tile is no event's register. -/
theorem not_eventReg_dacstat {t : Nat} (ht : t < 128) : ¬ eventReg (Reg.AT_DACSTAT t) := by
  simp only [eventReg, Reg.EVT_RAISECNT, Reg.EVT_STAT, Reg.EVT_PEND, Reg.ME_STAT, Reg.AT_DACSTAT]
  omega

/-- What R122 says of tile `t` whose DAC was `x`: cleared, with SwapDone set. -/
def FadeCut (t : Nat) (x : Dac) (s : State) : Prop :=
  x.ClearedTo (s.dac t) ∧ s.bit (Reg.AT_DACSTAT t) F.AT_DACSTAT_SwapDone = true

/-- A tile that is clearing is left as it is. -/
theorem beginClear_of_clearing {t : Nat} {s : State} (h : (s.dac t).clearing = true) : beginClear t s = s := by
  unfold beginClear
  dsimp only
  rw [if_pos h]

/-- What the clear of a tile does first: its program and its cross-fade end, the latter with SwapDone (R122). -/
def cutTile (t : Nat) (s : State) : State :=
  let c := s.setDac t { s.dac t with clearing := true, normal := false, play := none, fade := none }
  if (s.dac t).fade.isSome then dacFlag t F.AT_DACSTAT_SwapDone c else c

/-- Beside `cutTile`, the clear of a tile is at most the Range that waited for the program's end and the report of the
program: what holds after the first and is kept by these two holds after the clear. -/
theorem beginClear_induct {P : State → Prop} {t : Nat} {s : State} (hc : (s.dac t).clearing = false)
    (hcut : P (cutTile t s)) (hpend : ∀ u, P u → P (applyPend t u)) (hreport : ∀ u, P u → P (dacReport t u)) :
    P (beginClear t s) := by
  unfold beginClear
  extract_lets x s1 s2 s3
  have h3 : P s3 := by
    show P (if _ then _ else _)
    split
    · exact hpend _ hcut
    · exact hcut
  rw [if_neg (by simp [x, hc])]
  split
  · exact hreport _ h3
  · exact h3

/-- The clear of a tile with a cross-fade running. -/
theorem beginClear_cuts_fade {t : Nat} (ht : t < 128) {f : DacFade} {s : State} (hc : (s.dac t).clearing = false)
    (hf : (s.dac t).fade = some f) : FadeCut t (s.dac t) (beginClear t s) := by
  have ha := not_eventReg_dacstat ht
  refine beginClear_induct hc ?_ (fun u h => ?_) (fun u h => ?_)
  · rw [cutTile, if_pos (by rw [hf]; rfl)]
    refine ⟨?_, bit_flag_self (by omega) ha (by decide) (by decide)⟩
    rw [dac_dacFlag, dac_setDac, if_pos rfl]
    exact ⟨rfl, rfl, rfl, rfl, rfl⟩
  · exact ⟨clearedTo_applyPend h.1, bit_applyPend_of_bit ht ha h.2⟩
  · exact ⟨(dac_dacReport t u t).symm ▸ h.1, bit_dacReport_of_bit ha h.2⟩

/-- The clear of a tile leaves the DAC of another alone. -/
theorem dac_beginClear_ne {t u : Nat} (h : t ≠ u) (s : State) : (beginClear u s).dac t = s.dac t := by
  cases hc : (s.dac u).clearing with
  | true => rw [beginClear_of_clearing hc]
  | false =>
    refine beginClear_induct (P := fun v => v.dac t = s.dac t) hc ?_ (fun v hv => ?_) (fun v hv => ?_)
    · unfold cutTile
      dsimp only
      split <;> simp [h]
    · rw [dac_applyPend, if_neg h, hv]
    · rw [dac_dacReport, hv]

theorem bit_beginClear_of_bit {a u : Nat} {g : Fld} {s : State} (hu : u < 128) (ha : ¬ eventReg a)
    (h : s.bit a g = true) : (beginClear u s).bit a g = true := by
  cases hc : (s.dac u).clearing with
  | true => rwa [beginClear_of_clearing hc]
  | false =>
    refine beginClear_induct (P := fun v => v.bit a g = true) hc ?_ (fun v => bit_applyPend_of_bit hu ha)
      (fun v => bit_dacReport_of_bit ha)
    unfold cutTile
    dsimp only
    split
    · exact bit_dacFlag_of_bit hu ha rfl ((bit_setDac ..).trans h)
    · exact (bit_setDac ..).trans h

/-- What a clear did at a tile stays at the clear of any tile. -/
theorem fadeCut_beginClear {t u : Nat} (ht : t < 128) (hu : u < 128) {x : Dac} {s : State} (h : FadeCut t x s) :
    FadeCut t x (beginClear u s) := by
  by_cases q : t = u
  · subst q
    rwa [beginClear_of_clearing h.1.clearing]
  · exact ⟨by rw [dac_beginClear_ne q]; exact h.1, bit_beginClear_of_bit hu (not_eventReg_dacstat ht) h.2⟩

/-! ### The clear over the tiles of a pin -/

/-- The tiles before `t` leave its DAC alone, and those after it what the clear did there. -/
theorem foldl_beginClear_cuts_fade {t : Nat} {f : DacFade} {l : List Nat} (hl : ∀ u ∈ l, u < 128) (ht : t ∈ l)
    {s : State} (hc : (s.dac t).clearing = false) (hf : (s.dac t).fade = some f) :
    FadeCut t (s.dac t) (l.foldl (fun s u => beginClear u s) s) := by
  induction l generalizing s with
  | nil => cases ht
  | cons u l ih =>
    rw [List.forall_mem_cons] at hl
    obtain ⟨hu, hl⟩ := hl
    rw [List.foldl_cons]
    by_cases q : t = u
    · subst q
      exact List.foldlRecOn (motive := FadeCut t (s.dac t)) l _ (beginClear_cuts_fade hu hc hf)
        fun _ h v hv => fadeCut_beginClear hu (hl v hv) h
    · have hd := dac_beginClear_ne q s
      rw [← hd] at hc hf ⊢
      exact ih hl ((List.mem_cons.mp ht).resolve_left q) hc hf

/-- The tiles of a clear pin: a panel's, or all of them for ALLCLR_N (R125). -/
theorem mem_clearTiles {p t : Nat} : t ∈ clearTiles p ↔ if p = 8 then t < 128 else t / 16 = p := by
  unfold clearTiles
  split
  · exact List.mem_range
  · simp only [List.mem_map, List.mem_range]
    constructor
    · rintro ⟨i, hi, rfl⟩
      omega
    · rintro rfl
      exact ⟨t % 16, by omega, by omega⟩

/-- A clear pin once it falls in tick `now` with free value `w`: it is low and clears, and the outputs reach the clear
code within 48 ticks. -/
def ClrPin.fallen (x : ClrPin) (now : Nat) (w : Word) : ClrPin :=
  { x with low := true, active := true, reach := now + w.toNat % 49 }

/-- The state in which the tiles of pin `p` are cleared at its fall. -/
def pinFallen (p : Nat) (s : State) : State :=
  setClr p ((s.arr.clrs.get ClrPin.init p).fallen s.tick s.takeFree.1) s.takeFree.2

@[simp] theorem dac_pinFallen (p : Nat) (s : State) (t : Nat) : (pinFallen p s).dac t = s.dac t := rfl

/-- The fall of a pin that does not clear begins the clear of each of its tiles. -/
theorem panelClear_fall {p : Nat} {s : State} (h : (s.arr.clrs.get ClrPin.init p).active = false) :
    panelClear p true s = (clearTiles p).foldl (fun s t => beginClear t s) (pinFallen p s) := by
  unfold panelClear
  dsimp only
  rw [if_neg (by decide), h, if_neg (by decide)]
  rfl

/-! ### The obligation -/

/-- Settles O40: a fall clears the tiles of the pin one by one, of which `beginClear_cuts_fade` is tile `t`'s own clear
and `fadeCut_beginClear` what those behind it keep. -/
theorem clearEndsACrossFade : Obligations.ClearEndsACrossFade := by
  intro s p t f ht hp hpin hc hf
  have hmem : t ∈ clearTiles p := by
    rw [mem_clearTiles]
    split
    · exact ht
    · omega
  have hlt : ∀ u ∈ clearTiles p, u < 128 := by
    intro u hu
    rw [mem_clearTiles] at hu
    split at hu <;> omega
  obtain ⟨hcut, hdone⟩ := foldl_beginClear_cuts_fade (s := pinFallen p s) hlt hmem hc hf
  rw [← panelClear_fall hpin] at hcut hdone
  exact ⟨panelClear p true s, rfl, hcut.fade, hcut.bank, hdone, hcut.swap, hcut.clearing, hcut.play⟩

end Sys2Proof.Machine
end
